-- ==== Sys2Proof/Word.lean ====
section
/-!
DEFINITION. Word types of the model: a register word (R8), a byte, and the sparse map in which every
indexed piece of state is held.
-/

namespace Sys2Proof

/-- A register word: registers are 32 bits wide (R8). -/
abbrev Word := BitVec 32

/-- A byte of memory. -/
abbrev Byte := BitVec 8

/-- A sparse map from a numeric key: pairs in strictly rising key order, none equal to what an unlisted key
reads as. -/
abbrev SMap (α : Type) := List (Nat × α)

end Sys2Proof
end

