-- ==== Sys2Proof/Syntax.lean ====
section
/-!
DEFINITION. The commands of the part: one constructor for each row of spec/opcode_table.json, in the table's
order, with the operands that name the tile, unit or channel it acts on and whatever reaches the part from
outside with it.
-/

namespace Sys2Proof

/-- The next coded picture of a byte stream as H.265 reads it, for HEVCD_PICTURE_DECODE: bytes from the place of the context to
its end, NAL units skipped among them, nal_unit_type; slice type 0 I, 1 P, 2 B; PicOrderCntVal; pic_output_flag;
no_output_of_prior_pics_flag; an end of sequence NAL unit precedes it; POCs of the reference picture set: short-term before and
after, long-term, and both Foll lists; coded size, size after cropping and first luma column and row of it; 4:2:2; buffering, reorder and
latency of its SPS; whether a hash SEI came and agreed; luma rows and rows of interleaved chroma as coded. A fault met in it: code, nal_unit_type, tile,
bytes from its first byte to the fault, CTU address, POC. -/
structure CodedPic where
  len : Nat := 0
  skipped : Nat := 0
  nal : Nat := 1
  slice : Nat := 0
  poc : Int := 0
  output : Bool := true
  noPrior : Bool := false
  eos : Bool := false
  before : List Int := []
  after : List Int := []
  longTerm : List Int := []
  foll : List Int := []
  longFoll : List Int := []
  codedW : Nat := 0
  codedH : Nat := 0
  w : Nat := 0
  h : Nat := 0
  cropX : Nat := 0
  cropY : Nat := 0
  c422 : Bool := false
  dpb : Nat := 1
  reorder : Nat := 0
  latency : Nat := 0
  hash : Option Bool := none
  luma : List (List Nat) := []
  chroma : List (List Nat) := []
  fault : Option (Nat × Nat × Nat × Nat × Nat × Nat) := none
  deriving DecidableEq, Repr

/-- What the boot flash returns (R527): SEQ, BOOT_SLOT and XSPI_MHZ of each directory copy with a valid CRC; the images in
slots A and B; slots whose read fails. -/
structure FlashData where
  dir0 : Option (Nat × Nat × Nat) := none
  dir1 : Option (Nat × Nat × Nat) := none
  slotA : List Byte := []
  slotB : List Byte := []
  errA : Bool := false
  errB : Bool := false
  deriving DecidableEq, Repr

/-- A command. A tile is named by its number n of Tn. -/
inductive Instr where
  /-- POR_N_ASSERT (R508). -/
  | porNAssert (widthNs : Nat)
  /-- POR_N_RELEASE (R12). -/
  | porNRelease (bootsel : Nat)
  /-- RAIL_OUT_OF_RANGE (R504). -/
  | railOutOfRange
  /-- BOOT_ROM_START (R521). -/
  | bootRomStart (flash : Option FlashData)
  /-- FIRMWARE_START (R521). -/
  | firmwareStart
  /-- STARTUP_TILES (R535). -/
  | startupTiles (t0ok : Bool) (results : List (Bool × Nat × Nat))
  /-- STARTUP_DRAM (R407). -/
  | startupDram (boardOk : Bool) (writes : List (Nat × Nat × Nat))
  /-- STARTUP_LANES (R521). -/
  | startupLanes (writes : List (Nat × Nat × Nat)) (mags : List Nat)
  /-- STARTUP_READY (R521). -/
  | startupReady
  /-- REFCLK_STOP (R123). -/
  | refclkStop
  /-- REFCLK_GLITCH (R123). -/
  | refclkGlitch
  /-- REFCLK_RATE (R123). -/
  | refclkRate
  /-- REFCLK_RECOVERY (R125). -/
  | refclkRecovery (mr4 : List (Nat × Bool × Bool))
  /-- ISL_PWR_WRITE (R12). -/
  | islPwrWrite (t v : Nat)
  /-- SEAM_PACKET_RECEIVE (R14). -/
  | seamPacketReceive (t : Nat) (crcOk replayOk : Bool)
  /-- SEAM_PORT_DOWN (R17). -/
  | seamPortDown (t p : Nat)
  /-- SEAM_PORT_RESTART (R17). -/
  | seamPortRestart (t p : Nat)
  /-- XING_FAULT (R20). -/
  | xingFault (t x src : Nat)
  /-- REG_READ (R381). -/
  | regRead (tag : Nat)
  /-- REG_WRITE (R381). -/
  | regWrite (tag : Nat)
  /-- REGISTER_WRITE (R6). -/
  | registerWrite (who t off v : Nat)
  /-- BWR (R79). -/
  | bwr (t c : Nat)
  /-- BRD (R79). -/
  | brd (t c : Nat)
  /-- BRS (R79). -/
  | brs (t c : Nat)
  /-- UNIT_ARM (R42). -/
  | unitArm (t u : Nat)
  /-- UNIT_DISARM (R42). -/
  | unitDisarm (t u : Nat)
  /-- SECTION_EXCHANGE (R41). -/
  | sectionExchange (t u sec : Nat)
  /-- EPOCH_ADVANCE (R43). -/
  | epochAdvance
  /-- EPOCH_UPDATE_RECEIVE (R43). -/
  | epochUpdateReceive (t : Nat)
  /-- TXBEGIN (R80). -/
  | txbegin (t c : Nat)
  /-- TXCOMMIT (R54). -/
  | txcommit (t c : Nat)
  /-- TXABORT (R80). -/
  | txabort (t c : Nat)
  /-- TXSTAT (R80). -/
  | txstat (t c : Nat)
  /-- TXN_PREPARE_RECEIVE (R54). -/
  | txnPrepareReceive (x t : Nat)
  /-- TXN_PREPARED_RECEIVE (R54). -/
  | txnPreparedReceive (x t : Nat)
  /-- TXN_GUARD_DEADLINE (R54). -/
  | txnGuardDeadline (x : Nat)
  /-- TXN_DECISION_RECEIVE (R54). -/
  | txnDecisionReceive (x t : Nat)
  /-- TXN_IMMEDIATE_TIMEOUT (R58). -/
  | txnImmediateTimeout (x t : Nat)
  /-- TXN_SWAP_REPORT_RECEIVE (R58). -/
  | txnSwapReportReceive (x t : Nat)
  /-- TXN_REPORT_RESEND (R58). -/
  | txnReportResend (x t : Nat)
  /-- TXN_END_TIMEOUT (R58). -/
  | txnEndTimeout (x : Nat)
  /-- TXN_POS_ACK_TIMEOUT (R54). -/
  | txnPosAckTimeout (x : Nat)
  /-- TXN_POS_ACK_RECEIVE (R54). -/
  | txnPosAckReceive (x t : Nat)
  /-- CTL_RESTART (R59). -/
  | ctlRestart (t : Nat) (ends : Bool)
  /-- CREW_WATCHDOG (R51). -/
  | crewWatchdog (t c : Nat)
  /-- CREW_WAKE (R47). -/
  | crewWake (t c : Nat)
  /-- OPR (R73). -/
  | opr (t c : Nat)
  /-- ADDI (R72). -/
  | addi (t c : Nat)
  /-- ANDI (R72). -/
  | andi (t c : Nat)
  /-- ORI (R72). -/
  | ori (t c : Nat)
  /-- XORI (R72). -/
  | xori (t c : Nat)
  /-- SHI (R72). -/
  | shi (t c : Nat)
  /-- LUI (R72). -/
  | lui (t c : Nat)
  /-- LMI (R72). -/
  | lmi (t c : Nat)
  /-- LHI (R72). -/
  | lhi (t c : Nat)
  /-- CMP (R75). -/
  | cmp (t c : Nat)
  /-- CMPI (R75). -/
  | cmpi (t c : Nat)
  /-- PSET (R75). -/
  | pset (t c : Nat)
  /-- LB (R72). -/
  | lb (t c : Nat)
  /-- LBU (R72). -/
  | lbu (t c : Nat)
  /-- LH (R72). -/
  | lh (t c : Nat)
  /-- LHU (R72). -/
  | lhu (t c : Nat)
  /-- LW (R72). -/
  | lw (t c : Nat)
  /-- LWU (R72). -/
  | lwu (t c : Nat)
  /-- LD (R66). -/
  | ld (t c : Nat)
  /-- SB (R72). -/
  | sb (t c : Nat)
  /-- SH (R72). -/
  | sh (t c : Nat)
  /-- SW (R72). -/
  | sw (t c : Nat)
  /-- SD (R66). -/
  | sd (t c : Nat)
  /-- AMO (R76). -/
  | amo (t c : Nat)
  /-- BC (R72). -/
  | bc (t c : Nat)
  /-- JAL (R72). -/
  | jal (t c : Nat)
  /-- JALR (R72). -/
  | jalr (t c : Nat)
  /-- WAIT (R82). -/
  | wait (t c : Nat)
  /-- WAITT (R82). -/
  | waitt (t c : Nat)
  /-- WAITT_DEADLINE (R82). -/
  | waittDeadline (t c : Nat)
  /-- FIRE (R82). -/
  | fire (t c : Nat)
  /-- ARM (R82). -/
  | arm (t c : Nat)
  /-- TRD (R84). -/
  | trd (t c : Nat)
  /-- LRD (R84). -/
  | lrd (t c : Nat)
  /-- LTICK (R84). -/
  | ltick (t c : Nat)
  /-- TINC (R106). -/
  | tinc (t c : Nat)
  /-- TSTEP (R107). -/
  | tstep (t c : Nat)
  /-- SEND (R85). -/
  | send (t c : Nat)
  /-- RECV (R85). -/
  | recv (t c : Nat)
  /-- POST (R86). -/
  | post (t c : Nat)
  /-- POLL (R86). -/
  | poll (t c : Nat)
  /-- DMA_TRANSFER (R87). -/
  | dmaTransfer (t : Nat)
  /-- TRAP (R89). -/
  | trap (t c : Nat)
  /-- RETX (R89). -/
  | retx (t c : Nat)
  /-- CSRR (R89). -/
  | csrr (t c : Nat)
  /-- CSRW (R89). -/
  | csrw (t c : Nat)
  /-- CSRS (R89). -/
  | csrs (t c : Nat)
  /-- CSRC (R89). -/
  | csrc (t c : Nat)
  /-- FENCE (R89). -/
  | fence (t c : Nat)
  /-- HALT (R89). -/
  | halt (t c : Nat)
  /-- YIELD (R89). -/
  | yield (t c : Nat)
  /-- TIME_STAMP_SEND (R101). -/
  | timeStampSend
  /-- FOLLOWER_STAMP_RECEIVE (R103). -/
  | followerStampReceive (t : Nat)
  /-- TIME_RTT_START (R101). -/
  | timeRttStart (who t : Nat)
  /-- TIME_CHANGE_APPLY (R102). -/
  | timeChangeApply (n : Nat)
  /-- TC_INC_WRITE (R106). -/
  | tcIncWrite (who t n hi : Nat)
  /-- TC_STEP_WRITE (R107). -/
  | tcStepWrite (who t n hi : Nat)
  /-- TC_OFS_WRITE (R110). -/
  | tcOfsWrite (who n hi : Nat)
  /-- CAPTURE_EDGE (R111). -/
  | captureEdge (k : Nat) (rising : Bool)
  /-- CAPTURE_READ (R111). -/
  | captureRead (who k : Nat)
  /-- CAPTURE_LOST (R112). -/
  | captureLost (k : Nat)
  /-- TIME_EXCHANGE (R357). -/
  | timeExchange (answer : Bool)
  /-- LC0_OFFSET_WRITE (R116). -/
  | lc0OffsetWrite (who v : Nat)
  /-- LC0_RATE_WRITE (R116). -/
  | lc0RateWrite (who v : Nat)
  /-- GLITCH_CLR (R123). -/
  | glitchClr (who t : Nat)
  /-- GEYSER_FIRE (R119). -/
  | geyserFire (t g : Nat)
  /-- GEYSER_ARM (R121). -/
  | geyserArm (who t g v : Nat)
  /-- GEYSER_DISARM (R121). -/
  | geyserDisarm (who t g v : Nat)
  /-- GEYSER_TARGET_WRITE (R118). -/
  | geyserTargetWrite (who t g hi : Nat)
  /-- LANE_CTL_WRITE (R128). -/
  | laneCtlWrite (t l v : Nat)
  /-- LANE_CNT_CLR (R127). -/
  | laneCntClr (t l : Nat)
  /-- LANE_ALIGN_WRITE (R136). -/
  | laneAlignWrite (t l v : Nat)
  /-- LANE_BLOCK_RECEIVE (R134). -/
  | laneBlockReceive (t l hdr payload : Nat)
  /-- LANE_LOCK (R135). -/
  | laneLock (t l : Nat)
  /-- LANE_LOCK_LOST (R137). -/
  | laneLockLost (t l : Nat)
  /-- LANE_PLL_UNLOCK (R131). -/
  | lanePllUnlock (t l : Nat)
  /-- LANE_PLL_RELOCK (R131). -/
  | lanePllRelock (t l : Nat)
  /-- LANE_IDLE_ENTRY (R142). -/
  | laneIdleEntry (t l : Nat)
  /-- LANE_IDLE_EXIT (R143). -/
  | laneIdleExit (t l : Nat) (wakes : List Nat)
  /-- LANE_WAKE_HUNT_TIMEOUT (R144). -/
  | laneWakeHuntTimeout (t l : Nat)
  /-- EYE_SCAN_START (R148). -/
  | eyeScanStart (t l v : Nat)
  /-- EYE_SCAN_STOP (R148). -/
  | eyeScanStop (t l v : Nat)
  /-- EYE_SCAN_DONE (R148). -/
  | eyeScanDone (t l errs : Nat)
  /-- PRBS_CHECK_ERROR (R151). -/
  | prbsCheckError (t l correct : Nat)
  /-- ADIT_ENABLE (R154). -/
  | aditEnable (t p : Nat)
  /-- ADIT_DISABLE (R154). -/
  | aditDisable (t p : Nat)
  /-- ADIT_FRAME_START (R165). -/
  | aditFrameStart (t p srcId fcnt : Nat) (lags : List Nat)
  /-- ADIT_LINE_START (R164). -/
  | aditLineStart (t p k line glane flags : Nat)
  /-- ADIT_EMBEDDED_START (R155). -/
  | aditEmbeddedStart (t p k eline glane : Nat)
  /-- ADIT_DATA_BLOCK (R157). -/
  | aditDataBlock (t p k payload : Nat)
  /-- ADIT_LINE_END (R161). -/
  | aditLineEnd (t p k count crc : Nat)
  /-- ADIT_LINE_CLOSE (R162). -/
  | aditLineClose (t p : Nat)
  /-- ADIT_LINE_CLOSE_TIMEOUT (R162). -/
  | aditLineCloseTimeout (t p : Nat)
  /-- ADIT_FRAME_END (R165). -/
  | aditFrameEnd (t p lines sstat : Nat)
  /-- ADIT_FRAME_LATE (R166). -/
  | aditFrameLate (t p : Nat)
  /-- ADIT_FSTAT_READ (R176). -/
  | aditFstatRead (who t p : Nat)
  /-- SG_FRAME_START_RECORD (R170). -/
  | sgFrameStartRecord (t p : Nat)
  /-- SG_LINE_REPORT (R171). -/
  | sgLineReport (t p : Nat)
  /-- SG_FRAME_STATUS (R171). -/
  | sgFrameStatus (t p : Nat)
  /-- SG_RAW_RECEIVE (R169). -/
  | sgRawReceive (t p : Nat)
  /-- LINE_STORE_DISPATCH (R173). -/
  | lineStoreDispatch (t : Nat)
  /-- SPI_START (R179). -/
  | spiStart (t p v : Nat)
  /-- SPI_DONE (R179). -/
  | spiDone (t p : Nat) (rx : List Nat)
  /-- I2C_START (R180). -/
  | i2cStart (t p v : Nat)
  /-- I2C_DONE (R180). -/
  | i2cDone (t p : Nat) (nack : Bool) (sent : Nat) (rx : List Nat)
  /-- I2C_TIMEOUT (R180). -/
  | i2cTimeout (t p : Nat)
  /-- RAWC_ROW (R183). -/
  | rawcRow (t k : Nat)
  /-- HALO_RECEIVE (R22). -/
  | haloReceive (t point n side : Nat)
  /-- OB_SUMS_RECEIVE (R187). -/
  | obSumsReceive (t k : Nat)
  /-- STATS_PARTIAL_RECEIVE (R205). -/
  | statsPartialReceive (k : Nat)
  /-- RAWC_TABLE_WRITE (R208). -/
  | rawcTableWrite (t off v : Nat)
  /-- RAWC_RECORD_READ (R207). -/
  | rawcRecordRead (who t k : Nat)
  /-- DEV_ROW (R210). -/
  | devRow (t n : Nat)
  /-- DEV_TABLE_WRITE (R229). -/
  | devTableWrite (t off v : Nat)
  /-- DEV_RECORD_READ (R228). -/
  | devRecordRead (who t n : Nat)
  /-- OUT_ROW (R231). -/
  | outRow (t c : Nat)
  /-- ASM_RANGE_RECEIVE (R237). -/
  | asmRangeReceive (t c : Nat)
  /-- ASM_TIMEOUT (R238). -/
  | asmTimeout (t c : Nat)
  /-- SDI_SLOT_OPEN (R246). -/
  | sdiSlotOpen (t c : Nat)
  /-- SDI_RASTER_FRAME_START (R248). -/
  | sdiRasterFrameStart (t c : Nat)
  /-- COEF_TABLE_WRITE (R251). -/
  | coefTableWrite (t off v : Nat)
  /-- OUT_RECORD_READ (R250). -/
  | outRecordRead (who t c : Nat)
  /-- CRUSH_ROW_IN (R268). -/
  | crushRowIn (t k : Nat)
  /-- CRUSH_SLAB_START (R269). -/
  | crushSlabStart (t k : Nat)
  /-- CRUSH_SLAB_DONE (R261). -/
  | crushSlabDone (t k n : Nat)
  /-- CRUSH_SLAB_PLACE (R263). -/
  | crushSlabPlace (t k : Nat)
  /-- CRUSH_APPEND (R265). -/
  | crushAppend (t k : Nat)
  /-- CRUSH_RESUME (R266). -/
  | crushResume (t k : Nat)
  /-- CRUSH_CANCEL (R267). -/
  | crushCancel (t k : Nat)
  /-- CRUSH_JOB_START (R271). -/
  | crushJobStart (t j : Nat)
  /-- CRUSH_JOB_SUSPEND (R273). -/
  | crushJobSuspend (t j : Nat)
  /-- CRUSH_JOB_RESUME (R273). -/
  | crushJobResume (t j : Nat)
  /-- CRUSH_JOB_CANCEL (R273). -/
  | crushJobCancel (t j : Nat)
  /-- CRUSH_DECODE_SLAB (R272). -/
  | crushDecodeSlab (t j : Nat)
  /-- REC_CHUNK (R277). -/
  | recChunk (t k : Nat)
  /-- EXTENT_FLUSH_TIMEOUT (R280). -/
  | extentFlushTimeout (t k : Nat)
  /-- MAG_RESPONSE (R281). -/
  | magResponse (t tag : Nat)
  /-- BURST_FRAME_WRITE (R284). -/
  | burstFrameWrite (t : Nat)
  /-- BURST_TRIGGER (R286). -/
  | burstTrigger (pin : Nat) (rising : Bool)
  /-- BS_TRIGGER (R286). -/
  | bsTrigger
  /-- BURST_TRIGGER_NOTICE (R287). -/
  | burstTriggerNotice (t : Nat)
  /-- BS_RELEASE (R290). -/
  | bsRelease (t : Nat)
  /-- HEVCE_INPUT_ROW (R296). -/
  | hevceInputRow (t c : Nat)
  /-- HEVCE_CTU (R304): bins, what motion search gave (luma SAD, reach of the reference blocks), bytes of syntax. -/
  | hevceCtu (t c regular bypass terminating : Nat) (motion : Nat × Nat) (size : Nat)
  /-- HEVCE_CTU_FINISHED (R304). -/
  | hevceCtuFinished (t c size : Nat)
  /-- HEVCE_SUMP_DRAIN (R299). -/
  | hevceSumpDrain (t c : Nat)
  /-- HEVCE_MARGIN_RECEIVE (R297). -/
  | hevceMarginReceive (t c : Nat)
  /-- HEVCE_AU_WRITE (R296): the unit's head, its substreams. -/
  | hevceAuWrite (t c : Nat) (au : List Byte × List (List Byte))
  /-- HEVCE_FORCE_IRAP (R307). -/
  | hevceForceIrap (t c : Nat)
  /-- HEVCE_START (R309). -/
  | hevceStart (t c : Nat)
  /-- HEVCE_SUSPEND (R309). -/
  | hevceSuspend (t c : Nat)
  /-- HEVCE_RESUME (R309). -/
  | hevceResume (t c : Nat)
  /-- HEVCE_CANCEL (R309). -/
  | hevceCancel (t c : Nat)
  /-- HEVCE_RECORD_READ (R308). -/
  | hevceRecordRead (who t c : Nat)
  /-- HEVCD_START (R318). -/
  | hevcdStart (t c : Nat)
  /-- HEVCD_RESTART (R318). -/
  | hevcdRestart (t c : Nat)
  /-- HEVCD_SUSPEND (R323). -/
  | hevcdSuspend (t c : Nat)
  /-- HEVCD_RESUME (R323). -/
  | hevcdResume (t c : Nat)
  /-- HEVCD_CANCEL (R323). -/
  | hevcdCancel (t c : Nat)
  /-- HEVCD_FINAL (R312). -/
  | hevcdFinal (t c : Nat)
  /-- HEVCD_IN_END_WRITE (R312). -/
  | hevcdInEndWrite (t c : Nat) (hi : Word)
  /-- HEVCD_OUT_ACK_WRITE (R316). -/
  | hevcdOutAckWrite (t c ack : Nat)
  /-- HEVCD_PICTURE_DECODE (R321). -/
  | hevcdPictureDecode (t c : Nat) (pic : CodedPic)
  /-- HEVCD_PICTURE_OUTPUT (R316). -/
  | hevcdPictureOutput (t c : Nat)
  /-- HEVCD_ERR_READ (R324). -/
  | hevcdErrRead (who t c : Nat)
  /-- LPL_TRAIN_RECEIVE (R332). -/
  | lplTrainReceive (t l k widths role version : Nat) (seen : Bool)
  /-- LPL_ALIGN_RECEIVE (R329). -/
  | lplAlignReceive (t l k width lag : Nat)
  /-- LPL_PACKET_RECEIVE (R334). -/
  | lplPacketReceive (t l seq words crc : Nat) (clean : Bool) (data : List Byte)
  /-- LPL_ACK_RECEIVE (R335). -/
  | lplAckReceive (t l seq : Nat)
  /-- LPL_NAK_RECEIVE (R335). -/
  | lplNakReceive (t l seq : Nat)
  /-- LPL_REPLAY_TIMEOUT (R335). -/
  | lplReplayTimeout (t l : Nat)
  /-- LPL_CREDIT_RECEIVE (R336). -/
  | lplCreditReceive (t l h d : Nat)
  /-- LPL_CREDIT_SEND (R336). -/
  | lplCreditSend (t l : Nat)
  /-- PL_RETRAIN_WRITE (R333). -/
  | plRetrainWrite (t l : Nat)
  /-- LPL_RETRAIN_TIMEOUT (R333). -/
  | lplRetrainTimeout (t l : Nat)
  /-- PL_RESET_WRITE (R349). -/
  | plResetWrite (t l : Nat)
  /-- LPL_LRST_RECEIVE (R349). -/
  | lplLrstReceive (t l : Nat)
  /-- LINK_IDLE_ENTRY (R355). -/
  | linkIdleEntry (t l : Nat)
  /-- LINK_WAKE (R354). -/
  | linkWake (t l : Nat)
  /-- COMMAND (R340). -/
  | command (mr4 : List (Nat × Bool × Bool))
  /-- XFER_READY (R343). -/
  | xferReady (t : Nat)
  /-- DATA (R343, R344): the DATA packet that waits first, at the host link or else at a magazine link. -/
  | data
  /-- RESPONSE (R337). -/
  | response (t : Nat)
  /-- ASYNC_EVENT (R358). -/
  | asyncEvent (t : Nat)
  /-- MAG_COMMAND_TIMEOUT (R358). -/
  | magCommandTimeout (t tag : Nat)
  /-- MAG_ABORT_TIMEOUT (R358). -/
  | magAbortTimeout (t : Nat)
  /-- READ (R367). -/
  | read (tag : Nat)
  /-- WRITE (R367). -/
  | write (tag : Nat)
  /-- FLUSH (R342). -/
  | flush (tag : Nat)
  /-- VERIFY (R368). -/
  | verify (tag : Nat)
  /-- IDENTIFY (R369). -/
  | identify (tag : Nat)
  /-- GET_LOG (R370). -/
  | getLog (tag : Nat)
  /-- SET_FEATURE (R377). -/
  | setFeature (tag : Nat) (flashOk : Bool)
  /-- GET_FEATURE (R377). -/
  | getFeature (tag : Nat)
  /-- POWER_STATE_ENTRY (R353). -/
  | powerStateEntry
  /-- FW_DOWNLOAD (R378). -/
  | fwDownload (tag : Nat)
  /-- FW_COMMIT (R378). -/
  | fwCommit (tag : Nat) (flashOk : Bool)
  /-- FW_ACTIVATION (R351). -/
  | fwActivation (ends : Bool)
  /-- ACTIVATION_TIMEOUT (R378). -/
  | activationTimeout
  /-- ATTEST (R379). -/
  | attest (tag : Nat)
  /-- DEBUG_UNLOCK (R540). -/
  | debugUnlock (tag : Nat)
  /-- LOAD_PROGRAM (R382). -/
  | loadProgram (tag : Nat)
  /-- CREW_START (R382). -/
  | crewStart (tag : Nat)
  /-- CREW_STOP (R60). -/
  | crewStop (tag : Nat)
  /-- TXN (R383). -/
  | txn (tag : Nat)
  /-- ABORT (R347). -/
  | abort (tag : Nat)
  /-- SUSPEND (R384). -/
  | suspend (tag : Nat)
  /-- RESUME (R384). -/
  | resume (tag : Nat)
  /-- CANCEL (R384). -/
  | cancel (tag : Nat)
  /-- UNIT_ABORT (R386). -/
  | unitAbort (tag : Nat)
  /-- SCRUB_PASS (R385). -/
  | scrubPass (tag : Nat)
  /-- TRANSCODE (R385). -/
  | transcode (tag : Nat)
  /-- SELF_TEST (R385). -/
  | selfTest (tag : Nat) (last : Bool) (fail : Option (Nat × Nat))
  /-- UABORT_REQ_WRITE (R485). -/
  | uabortReqWrite (t who mask : Nat)
  /-- UNIT_ABORT_DONE (R485). -/
  | unitAbortDone (t : Nat)
  /-- MC_REQUEST (R393). -/
  | mcRequest (t p a : Nat) (wr rt : Bool) (mask : Nat) (data : List Nat) (d stream : Nat)
  /-- MC_READ_DECODE (R413). -/
  | mcReadDecode (t a port : Nat)
  /-- MC_REFRESH_DUE (R399). -/
  | mcRefreshDue (t c r : Nat)
  /-- MC_MR4_POLL (R398). -/
  | mcMr4Poll (t c m : Nat) (derate hot : Bool)
  /-- MC_PAGE_IDLE (R396). -/
  | mcPageIdle (t c bank : Nat)
  /-- MC_MIT_WINDOW_END (R403). -/
  | mcMitWindowEnd (t c : Nat)
  /-- MC_THROTTLE_WINDOW_END (R405). -/
  | mcThrottleWindowEnd (t : Nat)
  /-- MC_CHANNEL_EN_WRITE (R409). -/
  | mcChannelEnWrite (t c : Nat) (en : Bool)
  /-- MC_FAIL_WRITE (R409). -/
  | mcFailWrite (t c : Nat)
  /-- MRCMD_START (R406). -/
  | mrcmdStart (t c v : Nat)
  /-- TRAIN_START (R406). -/
  | trainStart (t c v : Nat)
  /-- SELF_REFRESH_EXIT (R408). -/
  | selfRefreshExit (t c m : Nat) (derate hot : Bool)
  /-- SCRUB_READ (R421). -/
  | scrubRead (t c : Nat)
  /-- LOG_CLR (R424). -/
  | logClr (t : Nat)
  /-- INJ_ARM (R425). -/
  | injArm (t v : Nat)
  /-- SRAM_INJ_ARM (R425). -/
  | sramInjArm (t v : Nat)
  /-- SRAM_PARITY_ERROR (R416). -/
  | sramParityError (t k a b c : Nat)
  /-- POS_SAMPLE (R428). -/
  | posSample (c : Nat) (sin cos : Int)
  /-- POS_QUAD_EDGE (R430). -/
  | posQuadEdge (c : Nat) (a0 b0 a1 b1 : Bool)
  /-- POS_WIRE_FAULT (R431). -/
  | posWireFault (c pair st : Nat)
  /-- POS_SPEED_WINDOW (R435). -/
  | posSpeedWindow (c : Nat)
  /-- POS_STOPPED (R435). -/
  | posStopped (c : Nat)
  /-- POS_INDEX (R437). -/
  | posIndex (c : Nat) (active : Bool) (ago : Nat)
  /-- CMP_ARM (R440). -/
  | cmpArm (c k : Nat)
  /-- CMP_DISARM (R439). -/
  | cmpDisarm (c k : Nat)
  /-- CMP_TARGET_WRITE (R440). -/
  | cmpTargetWrite (c k lo hi : Nat)
  /-- CMP_CAPTURE_READ (R439). -/
  | cmpCaptureRead (who c k : Nat)
  /-- POS_WRITE (R441). -/
  | posWrite (c lo hi : Nat)
  /-- LENS_TRIGGER (R442). -/
  | lensTrigger (k : Nat)
  /-- LENS_RECORD (R443). -/
  | lensRecord (k : Nat)
  /-- AUDIO_RUN (R447). -/
  | audioRun
  /-- AUDIO_BLOCK (R449). -/
  | audioBlock (samples : List (List Int))
  /-- AUD_MASK_WRITE (R450). -/
  | audMaskWrite (mask : Nat)
  /-- AUDIO_ZC_TIMEOUT (R451). -/
  | audioZcTimeout (ch : Nat)
  /-- AUDIO_STOP (R454). -/
  | audioStop
  /-- THERM_SAMPLE (R456). -/
  | thermSample (t : Nat) (temps : List Int)
  /-- POWER_ESTIMATE (R461). -/
  | powerEstimate (t : Nat) (mw : List Nat)
  /-- PLIM_TICK (R460). -/
  | plimTick
  /-- PMBUS_POLL (R462). -/
  | pmbusPoll (results : List (Bool × Nat × Nat))
  /-- ARBITER_PASS (R465). -/
  | arbiterPass
  /-- THERM_SHUTDOWN (R469). -/
  | thermShutdown
  /-- THERM_SHDN_ARM (R469). -/
  | thermShdnArm
  /-- THERM_SHDN_FIRE (R469). -/
  | thermShdnFire
  /-- EVENT_OCCURRENCE (R474). -/
  | eventOccurrence (t id : Nat)
  /-- SPOIL_HOLD_EXPIRE (R481). -/
  | spoilHoldExpire (t id : Nat)
  /-- REMOTE_OCCURRENCE (R480). -/
  | remoteOccurrence (t u id : Nat)
  /-- EVT_INJ_WRITE (R479). -/
  | evtInjWrite (t g mask : Nat)
  /-- EVT_STAT_CLEAR (R475). -/
  | evtStatClear (t g mask : Nat)
  /-- EVT_CNT_CLR (R475). -/
  | evtCntClr (t id : Nat)
  /-- SPOIL_ROOT_CLEAR (R482). -/
  | spoilRootClear (t : Nat)
  /-- SPOIL_ROOT_READ (R482). -/
  | spoilRootRead (who t : Nat)
  /-- TILE_HEARTBEAT_LOST (R487). -/
  | tileHeartbeatLost (t : Nat)
  /-- TILE_SELF_ISOLATE (R487). -/
  | tileSelfIsolate (t : Nat)
  /-- ISO_ISOLATE_WRITE (R487). -/
  | isoIsolateWrite (mask : Nat)
  /-- TILE_READMIT (R490). -/
  | tileReadmit (t : Nat) (ok : Bool) (mr4 : List (Nat × Bool × Bool))
  /-- EXTEST (R512). -/
  | extest (t : Nat)
  /-- IDCODE (R512). -/
  | idcode (t : Nat)
  /-- SAMPLE_PRELOAD (R512). -/
  | samplePreload (t : Nat)
  /-- CLAMP (R512). -/
  | clamp (t : Nat)
  /-- HIGHZ (R512). -/
  | highz (t : Nat)
  /-- EXTEST_PULSE (R512). -/
  | extestPulse (t : Nat)
  /-- EXTEST_TRAIN (R512). -/
  | extestTrain (t : Nat)
  /-- BYPASS (R512). -/
  | bypass (t : Nat)
  /-- PL_LINK_ENABLE (R326). -/
  | plLinkEnable (t l : Nat) (en : Bool)
  /-- MC_TRAIN_DONE (R406). -/
  | mcTrainDone (t c : Nat) (errs : List Nat)
  /-- MRCMD_DONE (R406). -/
  | mrcmdDone (t c data : Nat)
  /-- TIME_RTT_DONE (R101). -/
  | timeRttDone (t ticks : Nat)
  /-- SEAM_PORT_UP (R17). -/
  | seamPortUp (t p : Nat)
  /-- TIME_TICK (R98). -/
  | timeTick
  /-- JTAG_TAP_RESET (R508). -/
  | jtagTapReset
  deriving DecidableEq, Repr

end Sys2Proof
end

