-- ==== Sys2Proof/WellFormed.lean ====
section
/-!
DEFINITION. Well-formed commands: every operand that names a tile, a unit, a port, a lane or the like names one that some member of
the family has. A command that is not well formed has no effect beside those of every command's end (log 1).
-/

namespace Sys2Proof

/-- A tile number T0 to T7 (R9). -/
def tileOk (n : Nat) : Bool := decide (n < 8)

/-- The host, or crew c of tile t as 1 + 8t + c (R8). -/
def whoOk (n : Nat) : Bool := decide (n < 65)

/-- An offset in a tile window (R542). -/
def offOk (n : Nat) : Bool := decide (n < 0x1000000)

/-- A register word (R6). -/
def wordOk (n : Nat) : Bool := decide (n < 2 ^ 32)

/-- A time channel (R97). -/
def chanOk (n : Nat) : Bool := decide (n < 4)

/-- A geyser (R117). -/
def geyserOk (n : Nat) : Bool := decide (n < 32)

/-- A capture unit (R111). -/
def captureOk (n : Nat) : Bool := decide (n < 6)

/-- A bench unit (R34). -/
def unitOk (n : Nat) : Bool := decide (n < 25)

/-- A section of a unit (R41). -/
def sectionOk (n : Nat) : Bool := decide (n < 32)

/-- A transaction (R52). -/
def txnOk (n : Nat) : Bool := decide (n < 16)

/-- A lane (R127). -/
def laneOk (n : Nat) : Bool := decide (n < 24)

/-- A link of a tile (R326). -/
def linkOk (n : Nat) : Bool := decide (n < 2)

/-- A port, source, context, channel, job or strap value of which there are four. -/
def fourOk (n : Nat) : Bool := decide (n < 4)

/-- A crew, channel, compare, sampler or tile of which there are eight. -/
def eightOk (n : Nat) : Bool := decide (n < 8)

/-- A lane of a port, stream, requester port, audio channel or SRAM of which there are sixteen. -/
def sixteenOk (n : Nat) : Bool := decide (n < 16)

/-- A side, pipe or rank. -/
def sideOk (n : Nat) : Bool := decide (n < 2)

/-- A command tag (R340). -/
def tagOk (n : Nat) : Bool := decide (n < 256)

/-- A bank of a channel, with its rank (R388). -/
def bankOk (n : Nat) : Bool := decide (n < 32)

/-- An event id (R475). -/
def eventOk (n : Nat) : Bool := decide (n < 320)

/-- A group of 32 events (R475). -/
def groupOk (n : Nat) : Bool := decide (n < 10)

/-- A crossing (R20). -/
def crossingOk (n : Nat) : Bool := decide (n < 9)

/-- A crossing's points are X1 to X3 (R28). -/
def pointOk (n : Nat) : Bool := decide (1 ≤ n) && decide (n ≤ 3)

/-- The operands of a command name things that exist. -/
def Instr.wf : Instr → Bool
  | .porNAssert _ => true
  | .porNRelease bootsel => fourOk bootsel
  | .railOutOfRange => true
  | .bootRomStart _ => true
  | .firmwareStart => true
  | .startupTiles _ _ => true
  | .startupDram _ _ => true
  | .startupLanes _ _ => true
  | .startupReady => true
  | .refclkStop => true
  | .refclkGlitch => true
  | .refclkRate => true
  | .refclkRecovery _ => true
  | .islPwrWrite t _ => tileOk t
  | .seamPacketReceive t _ _ => tileOk t
  | .seamPortDown t p => tileOk t && fourOk p
  | .seamPortRestart t p => tileOk t && fourOk p
  | .xingFault t x src => tileOk t && crossingOk x && fourOk src
  | .regRead tag => tagOk tag
  | .regWrite tag => tagOk tag
  | .registerWrite who t off v => whoOk who && tileOk t && offOk off && wordOk v
  | .bwr t c => tileOk t && eightOk c
  | .brd t c => tileOk t && eightOk c
  | .brs t c => tileOk t && eightOk c
  | .unitArm t u => tileOk t && unitOk u
  | .unitDisarm t u => tileOk t && unitOk u
  | .sectionExchange t u sec => tileOk t && unitOk u && sectionOk sec
  | .epochAdvance => true
  | .epochUpdateReceive t => tileOk t
  | .txbegin t c => tileOk t && eightOk c
  | .txcommit t c => tileOk t && eightOk c
  | .txabort t c => tileOk t && eightOk c
  | .txstat t c => tileOk t && eightOk c
  | .txnPrepareReceive x t => txnOk x && tileOk t
  | .txnPreparedReceive x t => txnOk x && tileOk t
  | .txnGuardDeadline x => txnOk x
  | .txnDecisionReceive x t => txnOk x && tileOk t
  | .txnImmediateTimeout x t => txnOk x && tileOk t
  | .txnSwapReportReceive x t => txnOk x && tileOk t
  | .txnReportResend x t => txnOk x && tileOk t
  | .txnEndTimeout x => txnOk x
  | .txnPosAckTimeout x => txnOk x
  | .txnPosAckReceive x t => txnOk x && tileOk t
  | .ctlRestart t _ => tileOk t
  | .crewWatchdog t c => tileOk t && eightOk c
  | .crewWake t c => tileOk t && eightOk c
  | .opr t c => tileOk t && eightOk c
  | .addi t c => tileOk t && eightOk c
  | .andi t c => tileOk t && eightOk c
  | .ori t c => tileOk t && eightOk c
  | .xori t c => tileOk t && eightOk c
  | .shi t c => tileOk t && eightOk c
  | .lui t c => tileOk t && eightOk c
  | .lmi t c => tileOk t && eightOk c
  | .lhi t c => tileOk t && eightOk c
  | .cmp t c => tileOk t && eightOk c
  | .cmpi t c => tileOk t && eightOk c
  | .pset t c => tileOk t && eightOk c
  | .lb t c => tileOk t && eightOk c
  | .lbu t c => tileOk t && eightOk c
  | .lh t c => tileOk t && eightOk c
  | .lhu t c => tileOk t && eightOk c
  | .lw t c => tileOk t && eightOk c
  | .lwu t c => tileOk t && eightOk c
  | .ld t c => tileOk t && eightOk c
  | .sb t c => tileOk t && eightOk c
  | .sh t c => tileOk t && eightOk c
  | .sw t c => tileOk t && eightOk c
  | .sd t c => tileOk t && eightOk c
  | .amo t c => tileOk t && eightOk c
  | .bc t c => tileOk t && eightOk c
  | .jal t c => tileOk t && eightOk c
  | .jalr t c => tileOk t && eightOk c
  | .wait t c => tileOk t && eightOk c
  | .waitt t c => tileOk t && eightOk c
  | .waittDeadline t c => tileOk t && eightOk c
  | .fire t c => tileOk t && eightOk c
  | .arm t c => tileOk t && eightOk c
  | .trd t c => tileOk t && eightOk c
  | .lrd t c => tileOk t && eightOk c
  | .ltick t c => tileOk t && eightOk c
  | .tinc t c => tileOk t && eightOk c
  | .tstep t c => tileOk t && eightOk c
  | .send t c => tileOk t && eightOk c
  | .recv t c => tileOk t && eightOk c
  | .post t c => tileOk t && eightOk c
  | .poll t c => tileOk t && eightOk c
  | .dmaTransfer t => tileOk t
  | .trap t c => tileOk t && eightOk c
  | .retx t c => tileOk t && eightOk c
  | .csrr t c => tileOk t && eightOk c
  | .csrw t c => tileOk t && eightOk c
  | .csrs t c => tileOk t && eightOk c
  | .csrc t c => tileOk t && eightOk c
  | .fence t c => tileOk t && eightOk c
  | .halt t c => tileOk t && eightOk c
  | .yield t c => tileOk t && eightOk c
  | .timeStampSend => true
  | .followerStampReceive t => tileOk t
  | .timeRttStart who t => whoOk who && tileOk t
  | .timeChangeApply n => chanOk n
  | .tcIncWrite who t n hi => whoOk who && tileOk t && chanOk n && wordOk hi
  | .tcStepWrite who t n hi => whoOk who && tileOk t && chanOk n && wordOk hi
  | .tcOfsWrite who n hi => whoOk who && chanOk n && wordOk hi
  | .captureEdge k _ => captureOk k
  | .captureRead who k => whoOk who && captureOk k
  | .captureLost k => captureOk k
  | .timeExchange _ => true
  | .lc0OffsetWrite who v => whoOk who && wordOk v
  | .lc0RateWrite who v => whoOk who && wordOk v
  | .glitchClr who t => whoOk who && tileOk t
  | .geyserFire t g => tileOk t && geyserOk g
  | .geyserArm who t g v => whoOk who && tileOk t && geyserOk g && wordOk v
  | .geyserDisarm who t g v => whoOk who && tileOk t && geyserOk g && wordOk v
  | .geyserTargetWrite who t g hi => whoOk who && tileOk t && geyserOk g && wordOk hi
  | .laneCtlWrite t l v => tileOk t && laneOk l && wordOk v
  | .laneCntClr t l => tileOk t && laneOk l
  | .laneAlignWrite t l v => tileOk t && laneOk l && wordOk v
  | .laneBlockReceive t l _ _ => tileOk t && laneOk l
  | .laneLock t l => tileOk t && laneOk l
  | .laneLockLost t l => tileOk t && laneOk l
  | .lanePllUnlock t l => tileOk t && laneOk l
  | .lanePllRelock t l => tileOk t && laneOk l
  | .laneIdleEntry t l => tileOk t && laneOk l
  | .laneIdleExit t l _ => tileOk t && laneOk l
  | .laneWakeHuntTimeout t l => tileOk t && laneOk l
  | .eyeScanStart t l v => tileOk t && laneOk l && wordOk v
  | .eyeScanStop t l v => tileOk t && laneOk l && wordOk v
  | .eyeScanDone t l _ => tileOk t && laneOk l
  | .prbsCheckError t l _ => tileOk t && laneOk l
  | .aditEnable t p => tileOk t && fourOk p
  | .aditDisable t p => tileOk t && fourOk p
  | .aditFrameStart t p _ _ _ => tileOk t && fourOk p
  | .aditLineStart t p k _ _ _ => tileOk t && fourOk p && sixteenOk k
  | .aditEmbeddedStart t p k _ _ => tileOk t && fourOk p && sixteenOk k
  | .aditDataBlock t p k _ => tileOk t && fourOk p && sixteenOk k
  | .aditLineEnd t p k _ _ => tileOk t && fourOk p && sixteenOk k
  | .aditLineClose t p => tileOk t && fourOk p
  | .aditLineCloseTimeout t p => tileOk t && fourOk p
  | .aditFrameEnd t p _ _ => tileOk t && fourOk p
  | .aditFrameLate t p => tileOk t && fourOk p
  | .aditFstatRead who t p => whoOk who && tileOk t && fourOk p
  | .sgFrameStartRecord t p => tileOk t && fourOk p
  | .sgLineReport t p => tileOk t && fourOk p
  | .sgFrameStatus t p => tileOk t && fourOk p
  | .sgRawReceive t p => tileOk t && fourOk p
  | .lineStoreDispatch t => tileOk t
  | .spiStart t p v => tileOk t && fourOk p && wordOk v
  | .spiDone t p _ => tileOk t && fourOk p
  | .i2cStart t p v => tileOk t && fourOk p && wordOk v
  | .i2cDone t p _ _ _ => tileOk t && fourOk p
  | .i2cTimeout t p => tileOk t && fourOk p
  | .rawcRow t k => tileOk t && fourOk k
  | .haloReceive t point n side => tileOk t && pointOk point && fourOk n && sideOk side
  | .obSumsReceive t k => tileOk t && fourOk k
  | .statsPartialReceive k => fourOk k
  | .rawcTableWrite t off v => tileOk t && offOk off && wordOk v
  | .rawcRecordRead who t k => whoOk who && tileOk t && fourOk k
  | .devRow t n => tileOk t && sideOk n
  | .devTableWrite t off v => tileOk t && offOk off && wordOk v
  | .devRecordRead who t n => whoOk who && tileOk t && sideOk n
  | .outRow t c => tileOk t && fourOk c
  | .asmRangeReceive t c => tileOk t && fourOk c
  | .asmTimeout t c => tileOk t && fourOk c
  | .sdiSlotOpen t c => tileOk t && fourOk c
  | .sdiRasterFrameStart t c => tileOk t && fourOk c
  | .coefTableWrite t off v => tileOk t && offOk off && wordOk v
  | .outRecordRead who t c => whoOk who && tileOk t && fourOk c
  | .crushRowIn t k => tileOk t && eightOk k
  | .crushSlabStart t k => tileOk t && eightOk k
  | .crushSlabDone t k _ => tileOk t && eightOk k
  | .crushSlabPlace t k => tileOk t && eightOk k
  | .crushAppend t k => tileOk t && eightOk k
  | .crushResume t k => tileOk t && eightOk k
  | .crushCancel t k => tileOk t && eightOk k
  | .crushJobStart t j => tileOk t && fourOk j
  | .crushJobSuspend t j => tileOk t && fourOk j
  | .crushJobResume t j => tileOk t && fourOk j
  | .crushJobCancel t j => tileOk t && fourOk j
  | .crushDecodeSlab t j => tileOk t && fourOk j
  | .recChunk t k => tileOk t && sixteenOk k
  | .extentFlushTimeout t k => tileOk t && sixteenOk k
  | .magResponse t tag => tileOk t && tagOk tag
  | .burstFrameWrite t => tileOk t
  | .burstTrigger _ _ => true
  | .bsTrigger => true
  | .burstTriggerNotice t => tileOk t
  | .bsRelease t => tileOk t
  | .hevceInputRow t c => tileOk t && fourOk c
  | .hevceCtu t c _ _ _ _ _ => tileOk t && fourOk c
  | .hevceCtuFinished t c _ => tileOk t && fourOk c
  | .hevceSumpDrain t c => tileOk t && fourOk c
  | .hevceMarginReceive t c => tileOk t && fourOk c
  | .hevceAuWrite t c _ => tileOk t && fourOk c
  | .hevceForceIrap t c => tileOk t && fourOk c
  | .hevceStart t c => tileOk t && fourOk c
  | .hevceSuspend t c => tileOk t && fourOk c
  | .hevceResume t c => tileOk t && fourOk c
  | .hevceCancel t c => tileOk t && fourOk c
  | .hevceRecordRead who t c => whoOk who && tileOk t && fourOk c
  | .hevcdStart t c => tileOk t && fourOk c
  | .hevcdRestart t c => tileOk t && fourOk c
  | .hevcdSuspend t c => tileOk t && fourOk c
  | .hevcdResume t c => tileOk t && fourOk c
  | .hevcdCancel t c => tileOk t && fourOk c
  | .hevcdFinal t c => tileOk t && fourOk c
  | .hevcdInEndWrite t c _ => tileOk t && fourOk c
  | .hevcdOutAckWrite t c _ => tileOk t && fourOk c
  | .hevcdPictureDecode t c _ => tileOk t && fourOk c
  | .hevcdPictureOutput t c => tileOk t && fourOk c
  | .hevcdErrRead who t c => whoOk who && tileOk t && fourOk c
  | .lplTrainReceive t l k _ _ _ _ => tileOk t && linkOk l && fourOk k
  | .lplAlignReceive t l k _ _ => tileOk t && linkOk l && fourOk k
  | .lplPacketReceive t l _ _ _ _ _ => tileOk t && linkOk l
  | .lplAckReceive t l _ => tileOk t && linkOk l
  | .lplNakReceive t l _ => tileOk t && linkOk l
  | .lplReplayTimeout t l => tileOk t && linkOk l
  | .lplCreditReceive t l _ _ => tileOk t && linkOk l
  | .lplCreditSend t l => tileOk t && linkOk l
  | .plRetrainWrite t l => tileOk t && linkOk l
  | .lplRetrainTimeout t l => tileOk t && linkOk l
  | .plResetWrite t l => tileOk t && linkOk l
  | .lplLrstReceive t l => tileOk t && linkOk l
  | .linkIdleEntry t l => tileOk t && linkOk l
  | .linkWake t l => tileOk t && linkOk l
  | .command _ => true
  | .xferReady t => tileOk t
  | .data => true
  | .response t => tileOk t
  | .asyncEvent t => tileOk t
  | .magCommandTimeout t tag => tileOk t && tagOk tag
  | .magAbortTimeout t => tileOk t
  | .read tag => tagOk tag
  | .write tag => tagOk tag
  | .flush tag => tagOk tag
  | .verify tag => tagOk tag
  | .identify tag => tagOk tag
  | .getLog tag => tagOk tag
  | .setFeature tag _ => tagOk tag
  | .getFeature tag => tagOk tag
  | .powerStateEntry => true
  | .fwDownload tag => tagOk tag
  | .fwCommit tag _ => tagOk tag
  | .fwActivation _ => true
  | .activationTimeout => true
  | .attest tag => tagOk tag
  | .debugUnlock tag => tagOk tag
  | .loadProgram tag => tagOk tag
  | .crewStart tag => tagOk tag
  | .crewStop tag => tagOk tag
  | .txn tag => tagOk tag
  | .abort tag => tagOk tag
  | .suspend tag => tagOk tag
  | .resume tag => tagOk tag
  | .cancel tag => tagOk tag
  | .unitAbort tag => tagOk tag
  | .scrubPass tag => tagOk tag
  | .transcode tag => tagOk tag
  | .selfTest tag _ _ => tagOk tag
  | .uabortReqWrite t who _ => tileOk t && whoOk who
  | .unitAbortDone t => tileOk t
  | .mcRequest t p _ _ _ _ _ _ _ => tileOk t && sixteenOk p
  | .mcReadDecode t _ port => tileOk t && sixteenOk port
  | .mcRefreshDue t c r => tileOk t && eightOk c && sideOk r
  | .mcMr4Poll t c _ _ _ => tileOk t && eightOk c
  | .mcPageIdle t c bank => tileOk t && eightOk c && bankOk bank
  | .mcMitWindowEnd t c => tileOk t && eightOk c
  | .mcThrottleWindowEnd t => tileOk t
  | .mcChannelEnWrite t c _ => tileOk t && eightOk c
  | .mcFailWrite t c => tileOk t && eightOk c
  | .mrcmdStart t c v => tileOk t && eightOk c && wordOk v
  | .trainStart t c v => tileOk t && eightOk c && wordOk v
  | .selfRefreshExit t c _ _ _ => tileOk t && eightOk c
  | .scrubRead t c => tileOk t && eightOk c
  | .logClr t => tileOk t
  | .injArm t v => tileOk t && wordOk v
  | .sramInjArm t v => tileOk t && wordOk v
  | .sramParityError t k _ _ _ => tileOk t && sixteenOk k
  | .posSample c _ _ => fourOk c
  | .posQuadEdge c _ _ _ _ => fourOk c
  | .posWireFault c _ _ => fourOk c
  | .posSpeedWindow c => fourOk c
  | .posStopped c => fourOk c
  | .posIndex c _ _ => fourOk c
  | .cmpArm c k => fourOk c && eightOk k
  | .cmpDisarm c k => fourOk c && eightOk k
  | .cmpTargetWrite c k lo hi => fourOk c && eightOk k && wordOk lo && wordOk hi
  | .cmpCaptureRead who c k => whoOk who && fourOk c && eightOk k
  | .posWrite c lo hi => fourOk c && wordOk lo && wordOk hi
  | .lensTrigger k => eightOk k
  | .lensRecord k => eightOk k
  | .audioRun => true
  | .audioBlock _ => true
  | .audMaskWrite _ => true
  | .audioZcTimeout ch => sixteenOk ch
  | .audioStop => true
  | .thermSample t _ => tileOk t
  | .powerEstimate t _ => tileOk t
  | .plimTick => true
  | .pmbusPoll _ => true
  | .arbiterPass => true
  | .thermShutdown => true
  | .thermShdnArm => true
  | .thermShdnFire => true
  | .eventOccurrence t id => tileOk t && eventOk id
  | .spoilHoldExpire t id => tileOk t && eventOk id
  | .remoteOccurrence t u id => tileOk t && eightOk u && eventOk id
  | .evtInjWrite t g _ => tileOk t && groupOk g
  | .evtStatClear t g _ => tileOk t && groupOk g
  | .evtCntClr t id => tileOk t && eventOk id
  | .spoilRootClear t => tileOk t
  | .spoilRootRead who t => whoOk who && tileOk t
  | .tileHeartbeatLost t => tileOk t
  | .tileSelfIsolate t => tileOk t
  | .isoIsolateWrite _ => true
  | .tileReadmit t _ _ => tileOk t
  | .extest t => tileOk t
  | .idcode t => tileOk t
  | .samplePreload t => tileOk t
  | .clamp t => tileOk t
  | .highz t => tileOk t
  | .extestPulse t => tileOk t
  | .extestTrain t => tileOk t
  | .bypass t => tileOk t
  | .plLinkEnable t l _ => tileOk t && linkOk l
  | .mcTrainDone t c _ => tileOk t && eightOk c
  | .mrcmdDone t c _ => tileOk t && eightOk c
  | .timeRttDone t _ => tileOk t
  | .seamPortUp t p => tileOk t && fourOk p
  | .timeTick => true
  | .jtagTapReset => true

end Sys2Proof
end

