-- ==== Sys2Proof/Decode.lean ====
section
/-!
DEFINITION. The command that a word spells: the table of this block gives no row any bits, so no word spells a command.
-/

namespace Sys2Proof

/-- The command that the low `nbits` bits of w spell by the table's bits; no row of the table gives bits. -/
def decodeTableWord (_nbits _w : Nat) : Option Instr := none

end Sys2Proof
end

