-- ==== Sys2Proof/Config.lean ====
section
/-!
DEFINITION. What the manual leaves open and no rule fixes: free values that nothing in the model evaluates.
-/

namespace Sys2Proof

/-- A value that the spec leaves open, drawn by position: the state's `freeCtr` names the next one. Nothing in Lean
can evaluate it. -/
opaque Config.free : Nat → BitVec 64

/-- What the scrambler or the pattern generator of lane l of tile t holds when it starts at a tick: no rule gives it (R132, R151). -/
opaque Config.laneBits : Nat → Nat → Nat → BitVec 58

/-- Levels of T0_PDM_D0 to T0_PDM_D7 at a tick: microphones drive them, and no command does (R446). -/
opaque Config.pdmData : Nat → BitVec 8

/-- Data of a word that is delivered poisoned without an access to any device, by tile * 2^33 + address / 8 and tick: a read of a
FAILED channel or one ended by clock loss (R408, R409), and a read outside the DRAM. -/
opaque Config.lostData : Nat → Nat → BitVec 64

/-- SHA-256 of the public key of key slot k, as T0's OTP holds it (R532); most significant byte first. -/
opaque Config.keyHash : Nat → BitVec 256

/-- SHA-256 of the debug key, DBG_KEY_HASH of T0's OTP (R532). -/
opaque Config.dbgKeyHash : BitVec 256

/-- Bytes of ID_CERT and their number, at most 2,032 (R532). -/
opaque Config.idCertByte : Nat → BitVec 8

opaque Config.idCertLen : BitVec 11

/-- Hemund's manufacturer identity in the IDCODE (R512). -/
opaque Config.manufacturer : BitVec 11

end Sys2Proof
end

