-- ==== Sys2Proof/Machine/Regs.lean ====
section
/-!
DEFINITION. Register map: the offset, bits and access type of every register of the address map (R545),
as the register tables of the block chapters give them. A register constant is the offset within a tile
window; a field constant is that offset with the field's least significant bit and width.
-/

namespace Sys2Proof.Machine

/-- A register field: the register's offset in the tile window, the field's least significant bit, its width. -/
structure FRef where
  off : Nat
  lo : Nat
  w : Nat
  deriving DecidableEq, Repr

/-- The access types of R6. -/
inductive Acc where
  | rw | ro | wo | w1c | w1s | rsv | rwb
  deriving DecidableEq, Repr

/-- The range that R7 holds a written field to. -/
inductive Lim where
  | any
  | le (n : Nat)
  | range (lo hi : Nat)
  | mult (n : Nat)
  | ne (n : Nat)
  | zeroOrGe (n : Nat)
  | step (n lo hi : Nat)
  | zeroOrStep (n lo hi : Nat)
  deriving DecidableEq, Repr

/-- One field of a register table row: bits, access type, reset value where the row states a number. -/
structure RegField where
  lo : Nat
  w : Nat
  acc : Acc
  reset : Nat
  lim : Lim
  deriving DecidableEq, Repr

/-- One register or regular array of registers: base offset, (stride, count) pairs with the largest stride
first, whether it exists on T0 only (R545), and its fields. -/
structure RegDef where
  base : Nat
  dims : List (Nat × Nat)
  t0 : Bool
  fields : List RegField
  deriving DecidableEq, Repr

/-! ### TILE block (01_tiles_stripes_and_the_life_of_a_frame.md) -/

def TILE_ID : Nat := 0x0
def TILE_ID_TILE_NUM : FRef := ⟨TILE_ID, 0, 3⟩
def TILE_ID_PRIMARY : FRef := ⟨TILE_ID, 3, 1⟩
def TILE_ID_TILE_COUNT : FRef := ⟨TILE_ID, 4, 4⟩
def TILE_ID_STEPPING : FRef := ⟨TILE_ID, 8, 8⟩
def TILE_STATE : Nat := 0x4
def TILE_STATE_STATE : FRef := ⟨TILE_STATE, 0, 2⟩
def ISL_PWR : Nat := 0x10
def ISL_PWR_ON : FRef := ⟨ISL_PWR, 0, 8⟩
def ISL_STAT : Nat := 0x14
def ISL_STAT_PGOOD : FRef := ⟨ISL_STAT, 0, 8⟩
def ISL_STAT_CLKOK : FRef := ⟨ISL_STAT, 8, 8⟩
def XING_STAT : Nat := 0x18
def XING_STAT_FAULT : FRef := ⟨XING_STAT, 0, 16⟩
def STRIPE_CFG (s : Nat) : Nat := 0x20 + 0x4 * s
def STRIPE_CFG_X0 (s : Nat) : FRef := ⟨STRIPE_CFG s, 0, 16⟩
def STRIPE_CFG_WIDTH (s : Nat) : FRef := ⟨STRIPE_CFG s, 16, 14⟩
def STRIPE_CFG_LEFT_EDGE (s : Nat) : FRef := ⟨STRIPE_CFG s, 30, 1⟩
def STRIPE_CFG_RIGHT_EDGE (s : Nat) : FRef := ⟨STRIPE_CFG s, 31, 1⟩
def UABORT_REQ : Nat := 0x40
def UABORT_REQ_UNITS : FRef := ⟨UABORT_REQ, 0, 32⟩
def UABORT_STAT : Nat := 0x44
def UABORT_STAT_BUSY : FRef := ⟨UABORT_STAT, 0, 32⟩
/-! ### EVT block (21_events_faults_and_unit_abort.md) -/

def EVT_STAT (g : Nat) : Nat := 0x10000 + 0x4 * g
def EVT_STAT_STAT (g : Nat) : FRef := ⟨EVT_STAT g, 0, 32⟩
def EVT_EN (g : Nat) : Nat := 0x10040 + 0x4 * g
def EVT_EN_EN (g : Nat) : FRef := ⟨EVT_EN g, 0, 32⟩
def EVT_INJ (g : Nat) : Nat := 0x10080 + 0x4 * g
def EVT_INJ_INJ (g : Nat) : FRef := ⟨EVT_INJ g, 0, 32⟩
def EVT_SUMMARY : Nat := 0x10100
def EVT_SUMMARY_GROUPS : FRef := ⟨EVT_SUMMARY, 0, 10⟩
def EVT_CFG (i : Nat) : Nat := 0x10400 + 0x4 * i
def EVT_CFG_SEV (i : Nat) : FRef := ⟨EVT_CFG i, 0, 2⟩
def EVT_CFG_TO_LINE (i : Nat) : FRef := ⟨EVT_CFG i, 2, 1⟩
def EVT_CFG_LINE (i : Nat) : FRef := ⟨EVT_CFG i, 3, 6⟩
def EVT_CFG_TO_HOST (i : Nat) : FRef := ⟨EVT_CFG i, 9, 1⟩
def EVT_CFG_TO_FAULT (i : Nat) : FRef := ⟨EVT_CFG i, 10, 1⟩
def EVT_CFG_STICKY (i : Nat) : FRef := ⟨EVT_CFG i, 11, 1⟩
def EVT_CFG_ISOLATE (i : Nat) : FRef := ⟨EVT_CFG i, 12, 1⟩
def EVT_CNT (i : Nat) : Nat := 0x10A00 + 0x4 * i
def EVT_CNT_COUNT (i : Nat) : FRef := ⟨EVT_CNT i, 0, 8⟩
def EVT_CNT_INJECTED (i : Nat) : FRef := ⟨EVT_CNT i, 8, 1⟩
def EVT_CNT_CLR (i : Nat) : FRef := ⟨EVT_CNT i, 9, 1⟩
/-! ### SPOIL block (21_events_faults_and_unit_abort.md) -/

def SPOIL_CFG : Nat := 0x20000
def SPOIL_CFG_SUP_WIN : FRef := ⟨SPOIL_CFG, 0, 16⟩
def SPOIL_ROOT : Nat := 0x20004
def SPOIL_ROOT_ID : FRef := ⟨SPOIL_ROOT, 0, 9⟩
def SPOIL_ROOT_TILE : FRef := ⟨SPOIL_ROOT, 9, 3⟩
def SPOIL_ROOT_SEV : FRef := ⟨SPOIL_ROOT, 12, 2⟩
def SPOIL_ROOT_INJECTED : FRef := ⟨SPOIL_ROOT, 14, 1⟩
def SPOIL_ROOT_VALID : FRef := ⟨SPOIL_ROOT, 15, 1⟩
def SPOIL_ROOT_CLEAR : FRef := ⟨SPOIL_ROOT, 16, 1⟩
def SPOIL_ROOT_T_LO : Nat := 0x20008
def SPOIL_ROOT_T_LO_N : FRef := ⟨SPOIL_ROOT_T_LO, 0, 32⟩
def SPOIL_ROOT_T_HI : Nat := 0x2000C
def SPOIL_ROOT_T_HI_N : FRef := ⟨SPOIL_ROOT_T_HI, 0, 32⟩
def SPOIL_DEPCNT : Nat := 0x20010
def SPOIL_DEPCNT_COUNT : FRef := ⟨SPOIL_DEPCNT, 0, 32⟩
def SPOIL_ROOTS : Nat := 0x20014
def SPOIL_ROOTS_COUNT : FRef := ⟨SPOIL_ROOTS, 0, 32⟩
def SPOIL_HELD : Nat := 0x20018
def SPOIL_HELD_HELD : FRef := ⟨SPOIL_HELD, 0, 9⟩
def ISO_CTL : Nat := 0x20020
def ISO_CTL_ISOLATE : FRef := ⟨ISO_CTL, 0, 8⟩
def ISO_CTL_READMIT : FRef := ⟨ISO_CTL, 8, 8⟩
def ISO_STAT : Nat := 0x20024
def ISO_STAT_ISOLATED : FRef := ⟨ISO_STAT, 0, 8⟩
def ISO_STAT_READMITTING : FRef := ⟨ISO_STAT, 8, 8⟩
def ISO_STAT_DRAM_KEPT : FRef := ⟨ISO_STAT, 16, 8⟩
def ISO_STAT_READMIT_FAIL : FRef := ⟨ISO_STAT, 24, 8⟩
def ISO_CAUSE (n : Nat) : Nat := 0x20028 + 0x4 * n
def ISO_CAUSE_ID (n : Nat) : FRef := ⟨ISO_CAUSE n, 0, 9⟩
def ISO_CAUSE_TILE (n : Nat) : FRef := ⟨ISO_CAUSE n, 9, 3⟩
def ISO_CAUSE_HOST (n : Nat) : FRef := ⟨ISO_CAUSE n, 12, 1⟩
def SPOIL_DEP (i k : Nat) : Nat := 0x21000 + 0x10 * i + 0x4 * k
def SPOIL_DEP_FIRST (i k : Nat) : FRef := ⟨SPOIL_DEP i k, 0, 9⟩
def SPOIL_DEP_SPAN (i k : Nat) : FRef := ⟨SPOIL_DEP i k, 9, 5⟩
def SPOIL_DEP_WHERE (i k : Nat) : FRef := ⟨SPOIL_DEP i k, 14, 2⟩
def SPOIL_DEP_TILE (i k : Nat) : FRef := ⟨SPOIL_DEP i k, 16, 3⟩
def SPOIL_DEP_VALID (i k : Nat) : FRef := ⟨SPOIL_DEP i k, 19, 1⟩
/-! ### TIME block (04_time_and_geysers.md) -/

def TC_FRAC (n : Nat) : Nat := 0x30000 + 0x40 * n
def TC_FRAC_FRAC (n : Nat) : FRef := ⟨TC_FRAC n, 0, 32⟩
def TC_NS (n : Nat) : Nat := 0x30004 + 0x40 * n
def TC_NS_NS (n : Nat) : FRef := ⟨TC_NS n, 0, 30⟩
def TC_SEC_LO (n : Nat) : Nat := 0x30008 + 0x40 * n
def TC_SEC_LO_SEC (n : Nat) : FRef := ⟨TC_SEC_LO n, 0, 32⟩
def TC_SEC_HI (n : Nat) : Nat := 0x3000C + 0x40 * n
def TC_SEC_HI_SEC (n : Nat) : FRef := ⟨TC_SEC_HI n, 0, 16⟩
def TC_INC_LO (n : Nat) : Nat := 0x30010 + 0x40 * n
def TC_INC_LO_FRAC (n : Nat) : FRef := ⟨TC_INC_LO n, 0, 32⟩
def TC_INC_HI (n : Nat) : Nat := 0x30014 + 0x40 * n
def TC_INC_HI_NS (n : Nat) : FRef := ⟨TC_INC_HI n, 0, 4⟩
def TC_BASE_LO (n : Nat) : Nat := 0x30018 + 0x40 * n
def TC_BASE_LO_FRAC (n : Nat) : FRef := ⟨TC_BASE_LO n, 0, 32⟩
def TC_BASE_HI (n : Nat) : Nat := 0x3001C + 0x40 * n
def TC_BASE_HI_NS (n : Nat) : FRef := ⟨TC_BASE_HI n, 0, 4⟩
def TC_SERVO (n : Nat) : Nat := 0x30020 + 0x40 * n
def TC_SERVO_EN (n : Nat) : FRef := ⟨TC_SERVO n, 0, 1⟩
def TC_SERVO_SRC (n : Nat) : FRef := ⟨TC_SERVO n, 1, 3⟩
def TC_SERVO_KP (n : Nat) : FRef := ⟨TC_SERVO n, 8, 6⟩
def TC_SERVO_KI (n : Nat) : FRef := ⟨TC_SERVO n, 16, 6⟩
def TC_FLIM (n : Nat) : Nat := 0x30024 + 0x40 * n
def TC_FLIM_LIMIT (n : Nat) : FRef := ⟨TC_FLIM n, 0, 24⟩
def TC_OFS_LO (n : Nat) : Nat := 0x30028 + 0x40 * n
def TC_OFS_LO_FRAC (n : Nat) : FRef := ⟨TC_OFS_LO n, 0, 32⟩
def TC_OFS_HI (n : Nat) : Nat := 0x3002C + 0x40 * n
def TC_OFS_HI_NS (n : Nat) : FRef := ⟨TC_OFS_HI n, 0, 32⟩
def TC_INTEG (n : Nat) : Nat := 0x30030 + 0x40 * n
def TC_INTEG_I (n : Nat) : FRef := ⟨TC_INTEG n, 0, 32⟩
def TC_STAT (n : Nat) : Nat := 0x30034 + 0x40 * n
def TC_STAT_HOLDOVER (n : Nat) : FRef := ⟨TC_STAT n, 0, 1⟩
def TC_STAT_CLAMP (n : Nat) : FRef := ⟨TC_STAT n, 1, 1⟩
def TC_STAT_STEP_PEND (n : Nat) : FRef := ⟨TC_STAT n, 2, 1⟩
def TC_STAT_REFUSED (n : Nat) : FRef := ⟨TC_STAT n, 3, 1⟩
def TC_STAT_OFS_IGNORED (n : Nat) : FRef := ⟨TC_STAT n, 4, 1⟩
def TC_STAT_SERVO_FROZEN (n : Nat) : FRef := ⟨TC_STAT n, 5, 1⟩
def TC_STEP_LO (n : Nat) : Nat := 0x30038 + 0x40 * n
def TC_STEP_LO_STEP (n : Nat) : FRef := ⟨TC_STEP_LO n, 0, 32⟩
def TC_STEP_HI (n : Nat) : Nat := 0x3003C + 0x40 * n
def TC_STEP_HI_STEP (n : Nat) : FRef := ⟨TC_STEP_HI n, 0, 32⟩
def STEP_LIMIT : Nat := 0x30100
def STEP_LIMIT_LIMIT : FRef := ⟨STEP_LIMIT, 0, 32⟩
def LATE_LIMIT : Nat := 0x30104
def LATE_LIMIT_LIMIT : FRef := ⟨LATE_LIMIT, 0, 32⟩
def FOLLOW : Nat := 0x30108
def FOLLOW_ROUTE_LAT : FRef := ⟨FOLLOW, 0, 12⟩
def FOLLOW_STATE : FRef := ⟨FOLLOW, 12, 2⟩
def FOLLOW_SLIPS : FRef := ⟨FOLLOW, 16, 8⟩
def TIME_RTT : Nat := 0x3010C
def TIME_RTT_START : FRef := ⟨TIME_RTT, 0, 1⟩
def TIME_RTT_DONE : FRef := ⟨TIME_RTT, 1, 1⟩
def TIME_RTT_RTT : FRef := ⟨TIME_RTT, 16, 12⟩
def AON_CAL : Nat := 0x30110
def AON_CAL_RATIO : FRef := ⟨AON_CAL, 0, 32⟩
def CLKSUP : Nat := 0x30114
def CLKSUP_REFCLK_OK : FRef := ⟨CLKSUP, 0, 1⟩
def CLKSUP_STOP : FRef := ⟨CLKSUP, 1, 1⟩
def CLKSUP_RATE : FRef := ⟨CLKSUP, 2, 1⟩
def CLKSUP_GLITCHES : FRef := ⟨CLKSUP, 8, 8⟩
def CLKSUP_GLITCH_CLR : FRef := ⟨CLKSUP, 16, 1⟩
def CLKSUP_PPM : Nat := 0x30118
def CLKSUP_PPM_DEV : FRef := ⟨CLKSUP_PPM, 0, 16⟩
def TEX_COMP : Nat := 0x3011C
def TEX_COMP_RX : FRef := ⟨TEX_COMP, 0, 16⟩
def TEX_COMP_TX : FRef := ⟨TEX_COMP, 16, 16⟩
def LC0_TICK_LO : Nat := 0x30140
def LC0_TICK_LO_TICK : FRef := ⟨LC0_TICK_LO, 0, 32⟩
def LC0_TICK_HI : Nat := 0x30144
def LC0_TICK_HI_TICK : FRef := ⟨LC0_TICK_HI, 0, 32⟩
def LC0_OFS_0 : Nat := 0x30148
def LC0_OFS_0_FRAC : FRef := ⟨LC0_OFS_0, 0, 32⟩
def LC0_OFS_1 : Nat := 0x3014C
def LC0_OFS_1_NS : FRef := ⟨LC0_OFS_1, 0, 32⟩
def LC0_OFS_2 : Nat := 0x30150
def LC0_OFS_2_NS : FRef := ⟨LC0_OFS_2, 0, 32⟩
def LC0_RATE_LO : Nat := 0x30154
def LC0_RATE_LO_FRAC : FRef := ⟨LC0_RATE_LO, 0, 32⟩
def LC0_RATE_HI : Nat := 0x30158
def LC0_RATE_HI_NS : FRef := ⟨LC0_RATE_HI, 0, 32⟩
def LC0_CTL : Nat := 0x3015C
def LC0_CTL_REBASE : FRef := ⟨LC0_CTL, 0, 1⟩
def LC0_VAL_LO : Nat := 0x30160
def LC0_VAL_LO_VAL : FRef := ⟨LC0_VAL_LO, 0, 32⟩
def LC0_VAL_HI : Nat := 0x30164
def LC0_VAL_HI_VAL : FRef := ⟨LC0_VAL_HI, 0, 32⟩
def CAP_CTL (k : Nat) : Nat := 0x30180 + 0x20 * k
def CAP_CTL_EN (k : Nat) : FRef := ⟨CAP_CTL k, 0, 1⟩
def CAP_CTL_EDGE (k : Nat) : FRef := ⟨CAP_CTL k, 1, 2⟩
def CAP_CTL_CHAN (k : Nat) : FRef := ⟨CAP_CTL k, 3, 2⟩
def CAP_PER_LO (k : Nat) : Nat := 0x30184 + 0x20 * k
def CAP_PER_LO_FRAC (k : Nat) : FRef := ⟨CAP_PER_LO k, 0, 32⟩
def CAP_PER_HI (k : Nat) : Nat := 0x30188 + 0x20 * k
def CAP_PER_HI_NS (k : Nat) : FRef := ⟨CAP_PER_HI k, 0, 32⟩
def CAP_STAT (k : Nat) : Nat := 0x3018C + 0x20 * k
def CAP_STAT_LEVEL (k : Nat) : FRef := ⟨CAP_STAT k, 0, 3⟩
def CAP_STAT_OVERFLOW (k : Nat) : FRef := ⟨CAP_STAT k, 3, 1⟩
def CAP_STAT_LOST (k : Nat) : FRef := ⟨CAP_STAT k, 4, 1⟩
def CAP_STAT_LOCKED (k : Nat) : FRef := ⟨CAP_STAT k, 5, 1⟩
def CAP_FRAC (k : Nat) : Nat := 0x30190 + 0x20 * k
def CAP_FRAC_FRAC (k : Nat) : FRef := ⟨CAP_FRAC k, 0, 32⟩
def CAP_NS (k : Nat) : Nat := 0x30194 + 0x20 * k
def CAP_NS_NS (k : Nat) : FRef := ⟨CAP_NS k, 0, 30⟩
def CAP_SEC_LO (k : Nat) : Nat := 0x30198 + 0x20 * k
def CAP_SEC_LO_SEC (k : Nat) : FRef := ⟨CAP_SEC_LO k, 0, 32⟩
def CAP_SEC_HI (k : Nat) : Nat := 0x3019C + 0x20 * k
def CAP_SEC_HI_SEC (k : Nat) : FRef := ⟨CAP_SEC_HI k, 0, 16⟩
def GY_CTL (g : Nat) : Nat := 0x30400 + 0x40 * g
def GY_CTL_ARM (g : Nat) : FRef := ⟨GY_CTL g, 0, 1⟩
def GY_CTL_DISARM (g : Nat) : FRef := ⟨GY_CTL g, 1, 1⟩
def GY_CTL_ARMED (g : Nat) : FRef := ⟨GY_CTL g, 2, 1⟩
def GY_CTL_CHAN (g : Nat) : FRef := ⟨GY_CTL g, 3, 2⟩
def GY_CTL_LATE_MODE (g : Nat) : FRef := ⟨GY_CTL g, 5, 1⟩
def GY_CTL_ACT_XTRIG (g : Nat) : FRef := ⟨GY_CTL g, 6, 1⟩
def GY_CTL_XTRIG (g : Nat) : FRef := ⟨GY_CTL g, 7, 3⟩
def GY_CTL_ACT_LINE (g : Nat) : FRef := ⟨GY_CTL g, 10, 1⟩
def GY_CTL_LINE (g : Nat) : FRef := ⟨GY_CTL g, 11, 6⟩
def GY_CTL_ACT_PDM (g : Nat) : FRef := ⟨GY_CTL g, 17, 1⟩
def GY_CTL_START_REL (g : Nat) : FRef := ⟨GY_CTL g, 18, 1⟩
def GY_TGT_LO (g : Nat) : Nat := 0x30404 + 0x40 * g
def GY_TGT_LO_NS (g : Nat) : FRef := ⟨GY_TGT_LO g, 0, 32⟩
def GY_TGT_HI (g : Nat) : Nat := 0x30408 + 0x40 * g
def GY_TGT_HI_NS (g : Nat) : FRef := ⟨GY_TGT_HI g, 0, 32⟩
def GY_TGT_FRAC (g : Nat) : Nat := 0x3040C + 0x40 * g
def GY_TGT_FRAC_FRAC (g : Nat) : FRef := ⟨GY_TGT_FRAC g, 0, 32⟩
def GY_PER_FRAC (g : Nat) : Nat := 0x30410 + 0x40 * g
def GY_PER_FRAC_FRAC (g : Nat) : FRef := ⟨GY_PER_FRAC g, 0, 32⟩
def GY_PER_NS (g : Nat) : Nat := 0x30414 + 0x40 * g
def GY_PER_NS_NS (g : Nat) : FRef := ⟨GY_PER_NS g, 0, 32⟩
def GY_PULSE (g : Nat) : Nat := 0x30418 + 0x40 * g
def GY_PULSE_TICKS (g : Nat) : FRef := ⟨GY_PULSE g, 0, 16⟩
def GY_COUNT (g : Nat) : Nat := 0x3041C + 0x40 * g
def GY_COUNT_COUNT (g : Nat) : FRef := ⟨GY_COUNT g, 0, 32⟩
def GY_STAT (g : Nat) : Nat := 0x30420 + 0x40 * g
def GY_STAT_LATE (g : Nat) : FRef := ⟨GY_STAT g, 0, 1⟩
def GY_STAT_SUPPRESSED (g : Nat) : FRef := ⟨GY_STAT g, 1, 1⟩
def GY_STAT_HELD (g : Nat) : FRef := ⟨GY_STAT g, 2, 1⟩
def GY_STAT_MISSED (g : Nat) : FRef := ⟨GY_STAT g, 8, 8⟩
/-! ### LANE block (05_serial_lanes.md) -/

def LANE_CTL (l : Nat) : Nat := 0x40000 + 0x800 * l
def LANE_CTL_EN (l : Nat) : FRef := ⟨LANE_CTL l, 0, 1⟩
def LANE_CTL_ROLE (l : Nat) : FRef := ⟨LANE_CTL l, 1, 2⟩
def LANE_CTL_RX_INV (l : Nat) : FRef := ⟨LANE_CTL l, 3, 1⟩
def LANE_CTL_TX_INV (l : Nat) : FRef := ⟨LANE_CTL l, 4, 1⟩
def LANE_CTL_CNT_CLR (l : Nat) : FRef := ⟨LANE_CTL l, 5, 1⟩
def LANE_RATE (l : Nat) : Nat := 0x40004 + 0x800 * l
def LANE_RATE_KBPS (l : Nat) : FRef := ⟨LANE_RATE l, 0, 24⟩
def LANE_RATE_TRACK (l : Nat) : FRef := ⟨LANE_RATE l, 24, 3⟩
def LANE_TXEQ (l : Nat) : Nat := 0x40008 + 0x800 * l
def LANE_TXEQ_PRE (l : Nat) : FRef := ⟨LANE_TXEQ l, 0, 5⟩
def LANE_TXEQ_POST (l : Nat) : FRef := ⟨LANE_TXEQ l, 5, 5⟩
def LANE_TXEQ_SWING (l : Nat) : FRef := ⟨LANE_TXEQ l, 10, 3⟩
def LANE_TXEQ_MAIN (l : Nat) : FRef := ⟨LANE_TXEQ l, 16, 6⟩
def LANE_RXEQ (l : Nat) : Nat := 0x4000C + 0x800 * l
def LANE_RXEQ_CTLE (l : Nat) : FRef := ⟨LANE_RXEQ l, 0, 4⟩
def LANE_ALIGN (l : Nat) : Nat := 0x40010 + 0x800 * l
def LANE_ALIGN_LOSS_CNT (l : Nat) : FRef := ⟨LANE_ALIGN l, 0, 7⟩
def LANE_ALIGN_LOSS_WIN (l : Nat) : FRef := ⟨LANE_ALIGN l, 8, 13⟩
def LANE_STAT (l : Nat) : Nat := 0x40014 + 0x800 * l
def LANE_STAT_SIGNAL (l : Nat) : FRef := ⟨LANE_STAT l, 0, 1⟩
def LANE_STAT_LOCKED (l : Nat) : FRef := ⟨LANE_STAT l, 1, 1⟩
def LANE_STAT_HUNTING (l : Nat) : FRef := ⟨LANE_STAT l, 2, 1⟩
def LANE_STAT_IDLE (l : Nat) : FRef := ⟨LANE_STAT l, 3, 1⟩
def LANE_STAT_HELD (l : Nat) : FRef := ⟨LANE_STAT l, 4, 1⟩
def LANE_STAT_PLL_OK (l : Nat) : FRef := ⟨LANE_STAT l, 5, 1⟩
def LANE_STAT_DESKEW_ERR (l : Nat) : FRef := ⟨LANE_STAT l, 8, 1⟩
def LANE_STAT_WAKE_FAIL (l : Nat) : FRef := ⟨LANE_STAT l, 9, 1⟩
def LANE_STAT_PLL_LOST (l : Nat) : FRef := ⟨LANE_STAT l, 10, 1⟩
def LANE_STAT_PRBS_ERR (l : Nat) : FRef := ⟨LANE_STAT l, 11, 1⟩
def LANE_STAT_LOSSES (l : Nat) : FRef := ⟨LANE_STAT l, 16, 8⟩
def LANE_HDRERR (l : Nat) : Nat := 0x40018 + 0x800 * l
def LANE_HDRERR_COUNT (l : Nat) : FRef := ⟨LANE_HDRERR l, 0, 32⟩
def LANE_SKEW (l : Nat) : Nat := 0x4001C + 0x800 * l
def LANE_SKEW_SKEW (l : Nat) : FRef := ⟨LANE_SKEW l, 0, 5⟩
def EYE_CTL (l : Nat) : Nat := 0x40020 + 0x800 * l
def EYE_CTL_START (l : Nat) : FRef := ⟨EYE_CTL l, 0, 1⟩
def EYE_CTL_STOP (l : Nat) : FRef := ⟨EYE_CTL l, 1, 1⟩
def EYE_CTL_H (l : Nat) : FRef := ⟨EYE_CTL l, 2, 7⟩
def EYE_CTL_V (l : Nat) : FRef := ⟨EYE_CTL l, 9, 7⟩
def EYE_CTL_WIN (l : Nat) : FRef := ⟨EYE_CTL l, 16, 6⟩
def EYE_STAT (l : Nat) : Nat := 0x40024 + 0x800 * l
def EYE_STAT_STATE (l : Nat) : FRef := ⟨EYE_STAT l, 0, 2⟩
def EYE_ERR_LO (l : Nat) : Nat := 0x40028 + 0x800 * l
def EYE_ERR_LO_ERR (l : Nat) : FRef := ⟨EYE_ERR_LO l, 0, 32⟩
def EYE_ERR_HI (l : Nat) : Nat := 0x4002C + 0x800 * l
def EYE_ERR_HI_ERR (l : Nat) : FRef := ⟨EYE_ERR_HI l, 0, 8⟩
def LANE_TEST (l : Nat) : Nat := 0x40030 + 0x800 * l
def LANE_TEST_GEN (l : Nat) : FRef := ⟨LANE_TEST l, 0, 2⟩
def LANE_TEST_CHK (l : Nat) : FRef := ⟨LANE_TEST l, 2, 2⟩
def LANE_TEST_CHK_LOCK (l : Nat) : FRef := ⟨LANE_TEST l, 4, 1⟩
def LANE_TEST_ERRS (l : Nat) : FRef := ⟨LANE_TEST l, 8, 24⟩
/-! ### ADIT block (06_adit_sensor_ingress.md) -/

def AD_LANES (p : Nat) : Nat := 0x60000 + 0x100 * p
def AD_LANES_LANE_BASE (p : Nat) : FRef := ⟨AD_LANES p, 0, 4⟩
def AD_LANES_NL (p : Nat) : FRef := ⟨AD_LANES p, 4, 3⟩
def AD_LANES_G (p : Nat) : FRef := ⟨AD_LANES p, 7, 2⟩
def AD_LANES_BITS (p : Nat) : FRef := ⟨AD_LANES p, 9, 3⟩
def AD_GEOM (p : Nat) : Nat := 0x60004 + 0x100 * p
def AD_GEOM_W (p : Nat) : FRef := ⟨AD_GEOM p, 0, 16⟩
def AD_GEOM_H (p : Nat) : FRef := ⟨AD_GEOM p, 16, 16⟩
def AD_FMT (p : Nat) : Nat := 0x60008 + 0x100 * p
def AD_FMT_EMB (p : Nat) : FRef := ⟨AD_FMT p, 0, 4⟩
def AD_FMT_LGRP (p : Nat) : FRef := ⟨AD_FMT p, 4, 8⟩
def AD_FMT_CNT_MODE (p : Nat) : FRef := ⟨AD_FMT p, 12, 1⟩
def AD_FMT_SRC_ID (p : Nat) : FRef := ⟨AD_FMT p, 16, 8⟩
def AD_FMT_CONC_LIMIT (p : Nat) : FRef := ⟨AD_FMT p, 24, 5⟩
def AD_PED (p : Nat) : Nat := 0x6000C + 0x100 * p
def AD_PED_PEDESTAL (p : Nat) : FRef := ⟨AD_PED p, 0, 16⟩
def AD_PED_TS_CHAN (p : Nat) : FRef := ⟨AD_PED p, 16, 2⟩
def AD_SG (p : Nat) : Nat := 0x60010 + 0x100 * p
def AD_SG_SG (p : Nat) : FRef := ⟨AD_SG p, 0, 3⟩
def AD_SG_SG_EN (p : Nat) : FRef := ⟨AD_SG p, 3, 1⟩
def AD_SG_LAYOUT (p : Nat) : FRef := ⟨AD_SG p, 4, 1⟩
def AD_SG_GLANE_BASE (p : Nat) : FRef := ⟨AD_SG p, 5, 7⟩
def AD_SG_GLANES (p : Nat) : FRef := ⟨AD_SG p, 12, 8⟩
def AD_SG_LEAD (p : Nat) : FRef := ⟨AD_SG p, 20, 3⟩
def AD_SEG (p : Nat) : Nat := 0x60014 + 0x100 * p
def AD_SEG_SEG_X0 (p : Nat) : FRef := ⟨AD_SEG p, 0, 16⟩
def AD_SEG_SEG_W (p : Nat) : FRef := ⟨AD_SEG p, 16, 16⟩
def AD_ARB (p : Nat) : Nat := 0x60018 + 0x100 * p
def AD_ARB_QUOTA (p : Nat) : FRef := ⟨AD_ARB p, 0, 13⟩
def AD_ARB_WEIGHT (p : Nat) : FRef := ⟨AD_ARB p, 16, 4⟩
def AD_PER_NS (p : Nat) : Nat := 0x6001C + 0x100 * p
def AD_PER_NS_PER (p : Nat) : FRef := ⟨AD_PER_NS p, 0, 32⟩
def AD_LATE_TOL (p : Nat) : Nat := 0x60020 + 0x100 * p
def AD_LATE_TOL_TOL (p : Nat) : FRef := ⟨AD_LATE_TOL p, 0, 32⟩
def AD_SG_SKEW (p : Nat) : Nat := 0x60024 + 0x100 * p
def AD_SG_SKEW_SKEW (p : Nat) : FRef := ⟨AD_SG_SKEW p, 0, 32⟩
def AD_EMB_LO (p : Nat) : Nat := 0x60028 + 0x100 * p
def AD_EMB_LO_BASE (p : Nat) : FRef := ⟨AD_EMB_LO p, 0, 32⟩
def AD_EMB_HI (p : Nat) : Nat := 0x6002C + 0x100 * p
def AD_EMB_HI_BASE (p : Nat) : FRef := ⟨AD_EMB_HI p, 0, 32⟩
def AD_EMB_SLOT (p : Nat) : Nat := 0x60030 + 0x100 * p
def AD_EMB_SLOT_SLOT (p : Nat) : FRef := ⟨AD_EMB_SLOT p, 0, 17⟩
def AD_EMB_SLOT_NSLOT (p : Nat) : FRef := ⟨AD_EMB_SLOT p, 24, 8⟩
def AD_CTL (p : Nat) : Nat := 0x61000 + 0x100 * p
def AD_CTL_EN (p : Nat) : FRef := ⟨AD_CTL p, 0, 1⟩
def AD_PSTAT (p : Nat) : Nat := 0x61004 + 0x100 * p
def AD_PSTAT_STATE (p : Nat) : FRef := ⟨AD_PSTAT p, 0, 2⟩
def AD_PSTAT_CFG_ERR (p : Nat) : FRef := ⟨AD_PSTAT p, 2, 1⟩
def AD_PSTAT_STRAY (p : Nat) : FRef := ⟨AD_PSTAT p, 16, 16⟩
def AD_LEVEL (p : Nat) : Nat := 0x61008 + 0x100 * p
def AD_LEVEL_KIB (p : Nat) : FRef := ⟨AD_LEVEL p, 0, 13⟩
def AD_SLOT (p : Nat) : Nat := 0x6100C + 0x100 * p
def AD_SLOT_NEXT (p : Nat) : FRef := ⟨AD_SLOT p, 0, 8⟩
def ADIT_FSTAT (p : Nat) : Nat := 0x62000 + 0x40 * p
def ADIT_FSTAT_FSTAT (p : Nat) : FRef := ⟨ADIT_FSTAT p, 0, 32⟩
def ADIT_FCNT (p : Nat) : Nat := 0x62004 + 0x40 * p
def ADIT_FCNT_FCNT (p : Nat) : FRef := ⟨ADIT_FCNT p, 0, 32⟩
def ADIT_FTS_LO (p : Nat) : Nat := 0x62008 + 0x40 * p
def ADIT_FTS_LO_N (p : Nat) : FRef := ⟨ADIT_FTS_LO p, 0, 32⟩
def ADIT_FTS_HI (p : Nat) : Nat := 0x6200C + 0x40 * p
def ADIT_FTS_HI_N (p : Nat) : FRef := ⟨ADIT_FTS_HI p, 0, 32⟩
def ADIT_FCA (p : Nat) : Nat := 0x62010 + 0x40 * p
def ADIT_FCA_SHORT_LINES (p : Nat) : FRef := ⟨ADIT_FCA p, 0, 16⟩
def ADIT_FCA_LONG_EXCESS (p : Nat) : FRef := ⟨ADIT_FCA p, 16, 16⟩
def ADIT_FCB (p : Nat) : Nat := 0x62014 + 0x40 * p
def ADIT_FCB_DROPPED (p : Nat) : FRef := ⟨ADIT_FCB p, 0, 16⟩
def ADIT_FCB_CRC_LINES (p : Nat) : FRef := ⟨ADIT_FCB p, 16, 16⟩
def ADIT_FCC (p : Nat) : Nat := 0x62018 + 0x40 * p
def ADIT_FCC_CONC_LANES (p : Nat) : FRef := ⟨ADIT_FCC p, 0, 8⟩
def ADIT_FCC_SKIPPED (p : Nat) : FRef := ⟨ADIT_FCC p, 16, 16⟩
def ADIT_FLINES (p : Nat) : Nat := 0x6201C + 0x40 * p
def ADIT_FLINES_ACCEPTED (p : Nat) : FRef := ⟨ADIT_FLINES p, 0, 16⟩
def ADIT_FLINES_FE_LINES (p : Nat) : FRef := ⟨ADIT_FLINES p, 16, 16⟩
def ADIT_FSENS (p : Nat) : Nat := 0x62020 + 0x40 * p
def ADIT_FSENS_SSTAT (p : Nat) : FRef := ⟨ADIT_FSENS p, 0, 16⟩
def ADIT_FSENS_CONC_MASK (p : Nat) : FRef := ⟨ADIT_FSENS p, 16, 16⟩
def SPI_CFG (p : Nat) : Nat := 0x63000 + 0x40 * p
def SPI_CFG_DIV (p : Nat) : FRef := ⟨SPI_CFG p, 0, 8⟩
def SPI_CFG_MODE (p : Nat) : FRef := ⟨SPI_CFG p, 8, 2⟩
def SPI_CFG_LSB_FIRST (p : Nat) : FRef := ⟨SPI_CFG p, 10, 1⟩
def SPI_CMD (p : Nat) : Nat := 0x63004 + 0x40 * p
def SPI_CMD_LEN (p : Nat) : FRef := ⟨SPI_CMD p, 0, 7⟩
def SPI_CMD_CS (p : Nat) : FRef := ⟨SPI_CMD p, 7, 1⟩
def SPI_CMD_START (p : Nat) : FRef := ⟨SPI_CMD p, 8, 1⟩
def SPI_DATA (p : Nat) : Nat := 0x63008 + 0x40 * p
def SPI_DATA_BYTE (p : Nat) : FRef := ⟨SPI_DATA p, 0, 8⟩
def SPI_STAT (p : Nat) : Nat := 0x6300C + 0x40 * p
def SPI_STAT_BUSY (p : Nat) : FRef := ⟨SPI_STAT p, 0, 1⟩
def SPI_STAT_DONE (p : Nat) : FRef := ⟨SPI_STAT p, 1, 1⟩
def I2C_CFG (p : Nat) : Nat := 0x63010 + 0x40 * p
def I2C_CFG_SPEED (p : Nat) : FRef := ⟨I2C_CFG p, 0, 2⟩
def I2C_CMD (p : Nat) : Nat := 0x63014 + 0x40 * p
def I2C_CMD_ADDR (p : Nat) : FRef := ⟨I2C_CMD p, 0, 7⟩
def I2C_CMD_WLEN (p : Nat) : FRef := ⟨I2C_CMD p, 8, 7⟩
def I2C_CMD_RLEN (p : Nat) : FRef := ⟨I2C_CMD p, 16, 7⟩
def I2C_CMD_START (p : Nat) : FRef := ⟨I2C_CMD p, 23, 1⟩
def I2C_DATA (p : Nat) : Nat := 0x63018 + 0x40 * p
def I2C_DATA_BYTE (p : Nat) : FRef := ⟨I2C_DATA p, 0, 8⟩
def I2C_STAT (p : Nat) : Nat := 0x6301C + 0x40 * p
def I2C_STAT_BUSY (p : Nat) : FRef := ⟨I2C_STAT p, 0, 1⟩
def I2C_STAT_DONE (p : Nat) : FRef := ⟨I2C_STAT p, 1, 1⟩
def I2C_STAT_NACK (p : Nat) : FRef := ⟨I2C_STAT p, 2, 1⟩
def I2C_STAT_TIMEOUT (p : Nat) : FRef := ⟨I2C_STAT p, 3, 1⟩
def XTRIG_CTL (k : Nat) : Nat := 0x64000 + 0x4 * k
def XTRIG_CTL_POL (k : Nat) : FRef := ⟨XTRIG_CTL k, 0, 1⟩
def XTRIG_CTL_FORCE_EN (k : Nat) : FRef := ⟨XTRIG_CTL k, 1, 1⟩
def XTRIG_CTL_FORCE_LVL (k : Nat) : FRef := ⟨XTRIG_CTL k, 2, 1⟩
def XTRIG_CTL_LEVEL (k : Nat) : FRef := ⟨XTRIG_CTL k, 3, 1⟩
/-! ### RAWC block (07_raw_correction.md) -/

def RC_CFG (s : Nat) : Nat := 0x80000 + 0x80 * s
def RC_CFG_CFA_X (s : Nat) : FRef := ⟨RC_CFG s, 0, 1⟩
def RC_CFG_CFA_Y (s : Nat) : FRef := ⟨RC_CFG s, 1, 1⟩
def RC_CFG_MONO (s : Nat) : FRef := ⟨RC_CFG s, 2, 1⟩
def RC_CFG_CLAMP_EN (s : Nat) : FRef := ⟨RC_CFG s, 3, 1⟩
def RC_CFG_IIR_K (s : Nat) : FRef := ⟨RC_CFG s, 4, 4⟩
def RC_CFG_DEF_EN (s : Nat) : FRef := ⟨RC_CFG s, 8, 1⟩
def RC_CFG_DYN_HOT (s : Nat) : FRef := ⟨RC_CFG s, 9, 1⟩
def RC_CFG_DYN_COLD (s : Nat) : FRef := ⟨RC_CFG s, 10, 1⟩
def RC_CFG_LSC_EN (s : Nat) : FRef := ⟨RC_CFG s, 11, 1⟩
def RC_CFG_LSC_BANK (s : Nat) : FRef := ⟨RC_CFG s, 12, 1⟩
def RC_CFG_TAP_SEL (s : Nat) : FRef := ⟨RC_CFG s, 13, 2⟩
def RC_CFG_TAP_BITS (s : Nat) : FRef := ⟨RC_CFG s, 15, 5⟩
def RC_CFG_STAT_EN (s : Nat) : FRef := ⟨RC_CFG s, 20, 1⟩
def RC_CFG_DIFF_EN (s : Nat) : FRef := ⟨RC_CFG s, 21, 1⟩
def RC_OFS01 (s : Nat) : Nat := 0x80004 + 0x80 * s
def RC_OFS01_OFS0 (s : Nat) : FRef := ⟨RC_OFS01 s, 0, 16⟩
def RC_OFS01_OFS1 (s : Nat) : FRef := ⟨RC_OFS01 s, 16, 16⟩
def RC_OFS23 (s : Nat) : Nat := 0x80008 + 0x80 * s
def RC_OFS23_OFS2 (s : Nat) : FRef := ⟨RC_OFS23 s, 0, 16⟩
def RC_OFS23_OFS3 (s : Nat) : FRef := ⟨RC_OFS23 s, 16, 16⟩
def RC_PED (s : Nat) : Nat := 0x8000C + 0x80 * s
def RC_PED_PED_OUT (s : Nat) : FRef := ⟨RC_PED s, 0, 20⟩
def RC_OB_L (s : Nat) : Nat := 0x80010 + 0x80 * s
def RC_OB_L_X0 (s : Nat) : FRef := ⟨RC_OB_L s, 0, 16⟩
def RC_OB_L_N (s : Nat) : FRef := ⟨RC_OB_L s, 16, 9⟩
def RC_OB_R (s : Nat) : Nat := 0x80014 + 0x80 * s
def RC_OB_R_X0 (s : Nat) : FRef := ⟨RC_OB_R s, 0, 16⟩
def RC_OB_R_N (s : Nat) : FRef := ⟨RC_OB_R s, 16, 9⟩
def RC_HOT (s : Nat) : Nat := 0x80018 + 0x80 * s
def RC_HOT_T (s : Nat) : FRef := ⟨RC_HOT s, 0, 20⟩
def RC_HOT_R (s : Nat) : FRef := ⟨RC_HOT s, 20, 8⟩
def RC_COLD (s : Nat) : Nat := 0x8001C + 0x80 * s
def RC_COLD_T (s : Nat) : FRef := ⟨RC_COLD s, 0, 20⟩
def RC_COLD_R (s : Nat) : FRef := ⟨RC_COLD s, 20, 8⟩
def RC_GSTEP_X (s : Nat) : Nat := 0x80020 + 0x80 * s
def RC_GSTEP_X_STEP (s : Nat) : FRef := ⟨RC_GSTEP_X s, 0, 24⟩
def RC_GOFS_X (s : Nat) : Nat := 0x80024 + 0x80 * s
def RC_GOFS_X_OFS (s : Nat) : FRef := ⟨RC_GOFS_X s, 0, 32⟩
def RC_GSTEP_Y (s : Nat) : Nat := 0x80028 + 0x80 * s
def RC_GSTEP_Y_STEP (s : Nat) : FRef := ⟨RC_GSTEP_Y s, 0, 24⟩
def RC_GOFS_Y (s : Nat) : Nat := 0x8002C + 0x80 * s
def RC_GOFS_Y_OFS (s : Nat) : FRef := ⟨RC_GOFS_Y s, 0, 32⟩
def RC_GRID (s : Nat) : Nat := 0x80030 + 0x80 * s
def RC_GRID_NX (s : Nat) : FRef := ⟨RC_GRID s, 0, 8⟩
def RC_GRID_NY (s : Nat) : FRef := ⟨RC_GRID s, 8, 7⟩
def RC_BLEND (s : Nat) : Nat := 0x80034 + 0x80 * s
def RC_BLEND_ALPHA_DEF (s : Nat) : FRef := ⟨RC_BLEND s, 0, 9⟩
def RC_BLEND_SRC (s : Nat) : FRef := ⟨RC_BLEND s, 9, 3⟩
def RC_POSA_LO (s : Nat) : Nat := 0x80038 + 0x80 * s
def RC_POSA_LO_POS_A (s : Nat) : FRef := ⟨RC_POSA_LO s, 0, 32⟩
def RC_POSA_HI (s : Nat) : Nat := 0x8003C + 0x80 * s
def RC_POSA_HI_POS_A (s : Nat) : FRef := ⟨RC_POSA_HI s, 0, 16⟩
def RC_BLEND_K (s : Nat) : Nat := 0x80040 + 0x80 * s
def RC_BLEND_K_K (s : Nat) : FRef := ⟨RC_BLEND_K s, 0, 32⟩
def RC_STWIN_X (s : Nat) : Nat := 0x80044 + 0x80 * s
def RC_STWIN_X_X0 (s : Nat) : FRef := ⟨RC_STWIN_X s, 0, 16⟩
def RC_STWIN_X_W (s : Nat) : FRef := ⟨RC_STWIN_X s, 16, 16⟩
def RC_STWIN_Y (s : Nat) : Nat := 0x80048 + 0x80 * s
def RC_STWIN_Y_Y0 (s : Nat) : FRef := ⟨RC_STWIN_Y s, 0, 16⟩
def RC_STWIN_Y_H (s : Nat) : FRef := ⟨RC_STWIN_Y s, 16, 16⟩
def RC_STCFG (s : Nat) : Nat := 0x8004C + 0x80 * s
def RC_STCFG_HIST_SHIFT (s : Nat) : FRef := ⟨RC_STCFG s, 0, 4⟩
def RC_STCFG_DIFF_KX (s : Nat) : FRef := ⟨RC_STCFG s, 4, 3⟩
def RC_STCFG_DIFF_KY (s : Nat) : FRef := ⟨RC_STCFG s, 7, 3⟩
def RC_STCFG_NSLOT (s : Nat) : FRef := ⟨RC_STCFG s, 10, 8⟩
def RC_CLIP (s : Nat) : Nat := 0x80050 + 0x80 * s
def RC_CLIP_CLIP_T (s : Nat) : FRef := ⟨RC_CLIP s, 0, 20⟩
def RC_DTHR_LO (s : Nat) : Nat := 0x80054 + 0x80 * s
def RC_DTHR_LO_DIFF_THR (s : Nat) : FRef := ⟨RC_DTHR_LO s, 0, 32⟩
def RC_DTHR_HI (s : Nat) : Nat := 0x80058 + 0x80 * s
def RC_DTHR_HI_DIFF_THR (s : Nat) : FRef := ⟨RC_DTHR_HI s, 0, 32⟩
def RC_SBASE_LO (s : Nat) : Nat := 0x8005C + 0x80 * s
def RC_SBASE_LO_STAT_BASE (s : Nat) : FRef := ⟨RC_SBASE_LO s, 0, 32⟩
def RC_SBASE_HI (s : Nat) : Nat := 0x80060 + 0x80 * s
def RC_SBASE_HI_STAT_BASE (s : Nat) : FRef := ⟨RC_SBASE_HI s, 0, 32⟩
def RC_DEFTAB : Nat := 0x80200
def RC_DEFTAB_COUNT : FRef := ⟨RC_DEFTAB, 0, 17⟩
def RC_DEFTAB_BANK : FRef := ⟨RC_DEFTAB, 17, 1⟩
def RC_STAT : Nat := 0x81000
def RC_STAT_DEF_TFAULT : FRef := ⟨RC_STAT, 0, 1⟩
def RC_STAT_LSC_TFAULT : FRef := ⟨RC_STAT, 1, 4⟩
def RC_FCNT (s : Nat) : Nat := 0x81040 + 0x40 * s
def RC_FCNT_FCNT (s : Nat) : FRef := ⟨RC_FCNT s, 0, 32⟩
def RC_LOST (s : Nat) : Nat := 0x81044 + 0x40 * s
def RC_LOST_N (s : Nat) : FRef := ⟨RC_LOST s, 0, 32⟩
def RC_CRC (s : Nat) : Nat := 0x81048 + 0x40 * s
def RC_CRC_N (s : Nat) : FRef := ⟨RC_CRC s, 0, 32⟩
def RC_POISON (s : Nat) : Nat := 0x8104C + 0x40 * s
def RC_POISON_N (s : Nat) : FRef := ⟨RC_POISON s, 0, 32⟩
def RC_STATIC (s : Nat) : Nat := 0x81050 + 0x40 * s
def RC_STATIC_N (s : Nat) : FRef := ⟨RC_STATIC s, 0, 32⟩
def RC_DYN (s : Nat) : Nat := 0x81054 + 0x40 * s
def RC_DYN_N (s : Nat) : FRef := ⟨RC_DYN s, 0, 32⟩
def RC_UNREP (s : Nat) : Nat := 0x81058 + 0x40 * s
def RC_UNREP_UNREP (s : Nat) : FRef := ⟨RC_UNREP s, 0, 32⟩
def RC_FFLAGS (s : Nat) : Nat := 0x8105C + 0x40 * s
def RC_FFLAGS_ALPHA (s : Nat) : FRef := ⟨RC_FFLAGS s, 0, 9⟩
def RC_FFLAGS_BLEND_FB (s : Nat) : FRef := ⟨RC_FFLAGS s, 9, 1⟩
def RC_FFLAGS_OB_EMPTY (s : Nat) : FRef := ⟨RC_FFLAGS s, 10, 1⟩
def RC_FFLAGS_TFAULT (s : Nat) : FRef := ⟨RC_FFLAGS s, 11, 1⟩
def RC_FFLAGS_DEF_OVERRUN (s : Nat) : FRef := ⟨RC_FFLAGS s, 12, 1⟩
def RC_FFLAGS_TABLE_ORDER (s : Nat) : FRef := ⟨RC_FFLAGS s, 13, 1⟩
def RC_FFLAGS_DIFF_VALID (s : Nat) : FRef := ⟨RC_FFLAGS s, 14, 1⟩
def RC_FFLAGS_ABORTED (s : Nat) : FRef := ⟨RC_FFLAGS s, 15, 1⟩
def RC_DIFF_LO (s : Nat) : Nat := 0x81060 + 0x40 * s
def RC_DIFF_LO_D (s : Nat) : FRef := ⟨RC_DIFF_LO s, 0, 32⟩
def RC_DIFF_HI (s : Nat) : Nat := 0x81064 + 0x40 * s
def RC_DIFF_HI_D (s : Nat) : FRef := ⟨RC_DIFF_HI s, 0, 32⟩
def RC_SLOT (s : Nat) : Nat := 0x81068 + 0x40 * s
def RC_SLOT_NEXT (s : Nat) : FRef := ⟨RC_SLOT s, 0, 8⟩
/-! ### DEV block (08_develop_and_colour.md) -/

def DV_CFG (n : Nat) : Nat := 0xA0000 + 0x10000 * n
def DV_CFG_SRC (n : Nat) : FRef := ⟨DV_CFG n, 0, 2⟩
def DV_CFG_MONO (n : Nat) : FRef := ⟨DV_CFG n, 2, 1⟩
def DV_CFG_TONE_EN (n : Nat) : FRef := ⟨DV_CFG n, 3, 1⟩
def DV_CFG_TONE_BANK (n : Nat) : FRef := ⟨DV_CFG n, 4, 1⟩
def DV_CFG_LUT_EN (n : Nat) : FRef := ⟨DV_CFG n, 5, 1⟩
def DV_CFG_LUT_BANK (n : Nat) : FRef := ⟨DV_CFG n, 6, 1⟩
def DV_CFG_YCC (n : Nat) : FRef := ⟨DV_CFG n, 7, 2⟩
def DV_CFG_FULL (n : Nat) : FRef := ⟨DV_CFG n, 9, 1⟩
def DV_CFG_OBITS (n : Nat) : FRef := ⟨DV_CFG n, 10, 2⟩
def DV_CFG_SUB (n : Nat) : FRef := ⟨DV_CFG n, 12, 2⟩
def DV_CFG_HFILT (n : Nat) : FRef := ⟨DV_CFG n, 14, 1⟩
def DV_CFG_VFILT (n : Nat) : FRef := ⟨DV_CFG n, 15, 1⟩
def DV_CFA (n : Nat) : Nat := 0xA0004 + 0x10000 * n
def DV_CFA_COL (n : Nat) : FRef := ⟨DV_CFA n, 0, 8⟩
def DV_EDGE (n : Nat) : Nat := 0xA0008 + 0x10000 * n
def DV_EDGE_EDGE_T (n : Nat) : FRef := ⟨DV_EDGE n, 0, 20⟩
def DV_WB (n p : Nat) : Nat := 0xA000C + 0x10000 * n + 0x4 * p
def DV_WB_GAIN (n p : Nat) : FRef := ⟨DV_WB n p, 0, 18⟩
def DV_M (n r k : Nat) : Nat := 0xA001C + 0x10000 * n + 0xC * r + 0x4 * k
def DV_M_COEF (n r k : Nat) : FRef := ⟨DV_M n r k, 0, 19⟩
def DV_MOFS (n r : Nat) : Nat := 0xA0040 + 0x10000 * n + 0x4 * r
def DV_MOFS_OFS (n r : Nat) : FRef := ⟨DV_MOFS n r, 0, 21⟩
def DV_MCTL (n : Nat) : Nat := 0xA004C + 0x10000 * n
def DV_MCTL_MAT_EN (n : Nat) : FRef := ⟨DV_MCTL n, 0, 1⟩
def DV_TEND (n r : Nat) : Nat := 0xA0050 + 0x10000 * n + 0x4 * r
def DV_TEND_END (n r : Nat) : FRef := ⟨DV_TEND n r, 0, 16⟩
def DV_STAT (n : Nat) : Nat := 0xA1000 + 0x10000 * n
def DV_STAT_TONE_TFAULT (n : Nat) : FRef := ⟨DV_STAT n, 0, 1⟩
def DV_STAT_LUT_TFAULT (n : Nat) : FRef := ⟨DV_STAT n, 1, 1⟩
def DV_FCNT (n : Nat) : Nat := 0xA1004 + 0x10000 * n
def DV_FCNT_FCNT (n : Nat) : FRef := ⟨DV_FCNT n, 0, 32⟩
def DV_FSTAT (n : Nat) : Nat := 0xA1008 + 0x10000 * n
def DV_FSTAT_FSTAT (n : Nat) : FRef := ⟨DV_FSTAT n, 0, 32⟩
def DV_CLIPS (n : Nat) : Nat := 0xA100C + 0x10000 * n
def DV_CLIPS_CLIPS (n : Nat) : FRef := ⟨DV_CLIPS n, 0, 32⟩
/-! ### OUT block (09_output_streams.md) -/

def OC_CFG (c : Nat) : Nat := 0xC0000 + 0x100 * c
def OC_CFG_ON (c : Nat) : FRef := ⟨OC_CFG c, 0, 1⟩
def OC_CFG_PIPE (c : Nat) : FRef := ⟨OC_CFG c, 1, 1⟩
def OC_CFG_DEST (c : Nat) : FRef := ⟨OC_CFG c, 2, 3⟩
def OC_CFG_ASSEMBLE (c : Nat) : FRef := ⟨OC_CFG c, 5, 1⟩
def OC_CFG_HOME (c : Nat) : FRef := ⟨OC_CFG c, 6, 3⟩
def OC_CFG_TIMING (c : Nat) : FRef := ⟨OC_CFG c, 9, 1⟩
def OC_CFG_PACK (c : Nat) : FRef := ⟨OC_CFG c, 10, 3⟩
def OC_CFG_BAD_POLICY (c : Nat) : FRef := ⟨OC_CFG c, 13, 2⟩
def OC_CFG_SCALE_EN (c : Nat) : FRef := ⟨OC_CFG c, 15, 1⟩
def OC_CFG_COEF_BANK (c : Nat) : FRef := ⟨OC_CFG c, 16, 1⟩
def OC_CFG_DECIM (c : Nat) : FRef := ⟨OC_CFG c, 17, 4⟩
def OC_CFG_TARGET (c : Nat) : FRef := ⟨OC_CFG c, 21, 4⟩
def OC_CROPX (c : Nat) : Nat := 0xC0004 + 0x100 * c
def OC_CROPX_CX0 (c : Nat) : FRef := ⟨OC_CROPX c, 0, 16⟩
def OC_CROPX_CW (c : Nat) : FRef := ⟨OC_CROPX c, 16, 16⟩
def OC_CROPY (c : Nat) : Nat := 0xC0008 + 0x100 * c
def OC_CROPY_CY0 (c : Nat) : FRef := ⟨OC_CROPY c, 0, 16⟩
def OC_CROPY_CH (c : Nat) : FRef := ⟨OC_CROPY c, 16, 16⟩
def OC_OSIZE (c : Nat) : Nat := 0xC000C + 0x100 * c
def OC_OSIZE_OW (c : Nat) : FRef := ⟨OC_OSIZE c, 0, 16⟩
def OC_OSIZE_OH (c : Nat) : FRef := ⟨OC_OSIZE c, 16, 16⟩
def OC_HDELTA (c : Nat) : Nat := 0xC0010 + 0x100 * c
def OC_HDELTA_HDELTA (c : Nat) : FRef := ⟨OC_HDELTA c, 0, 32⟩
def OC_HP0_LO (c : Nat) : Nat := 0xC0014 + 0x100 * c
def OC_HP0_LO_HP0 (c : Nat) : FRef := ⟨OC_HP0_LO c, 0, 32⟩
def OC_HP0_HI (c : Nat) : Nat := 0xC0018 + 0x100 * c
def OC_HP0_HI_HP0 (c : Nat) : FRef := ⟨OC_HP0_HI c, 0, 16⟩
def OC_VDELTA (c : Nat) : Nat := 0xC001C + 0x100 * c
def OC_VDELTA_VDELTA (c : Nat) : FRef := ⟨OC_VDELTA c, 0, 32⟩
def OC_VP0_LO (c : Nat) : Nat := 0xC0020 + 0x100 * c
def OC_VP0_LO_VP0 (c : Nat) : FRef := ⟨OC_VP0_LO c, 0, 32⟩
def OC_VP0_HI (c : Nat) : Nat := 0xC0024 + 0x100 * c
def OC_VP0_HI_VP0 (c : Nat) : FRef := ⟨OC_VP0_HI c, 0, 16⟩
def OC_SDI (c : Nat) : Nat := 0xC0028 + 0x100 * c
def OC_SDI_FORMAT (c : Nat) : FRef := ⟨OC_SDI c, 0, 3⟩
def OC_SDI_LANE0 (c : Nat) : FRef := ⟨OC_SDI c, 3, 3⟩
def OC_SDI_LANE1 (c : Nat) : FRef := ⟨OC_SDI c, 6, 3⟩
def OC_SDI_WIDE (c : Nat) : FRef := ⟨OC_SDI c, 9, 1⟩
def OC_SDI_RATE (c : Nat) : FRef := ⟨OC_SDI c, 10, 3⟩
def OC_SDI_DIV1001 (c : Nat) : FRef := ⟨OC_SDI c, 13, 1⟩
def OC_SDI_TFN (c : Nat) : FRef := ⟨OC_SDI c, 14, 2⟩
def OC_PLACE (c : Nat) : Nat := 0xC002C + 0x100 * c
def OC_PLACE_PX (c : Nat) : FRef := ⟨OC_PLACE c, 0, 16⟩
def OC_PLACE_PY (c : Nat) : FRef := ⟨OC_PLACE c, 16, 16⟩
def OC_AUDIO (c : Nat) : Nat := 0xC0030 + 0x100 * c
def OC_AUDIO_CHMASK (c : Nat) : FRef := ⟨OC_AUDIO c, 0, 16⟩
def OC_AUDIO_AUD_EN (c : Nat) : FRef := ⟨OC_AUDIO c, 16, 1⟩
def OC_AUD_DELAY (c : Nat) : Nat := 0xC0034 + 0x100 * c
def OC_AUD_DELAY_DELAY (c : Nat) : FRef := ⟨OC_AUD_DELAY c, 0, 32⟩
def OC_RDELAY (c : Nat) : Nat := 0xC0038 + 0x100 * c
def OC_RDELAY_RDELAY (c : Nat) : FRef := ⟨OC_RDELAY c, 0, 32⟩
def OC_PHASE_TOL (c : Nat) : Nat := 0xC003C + 0x100 * c
def OC_PHASE_TOL_TOL (c : Nat) : FRef := ⟨OC_PHASE_TOL c, 0, 32⟩
def OC_FS_LO (c : Nat) : Nat := 0xC0040 + 0x100 * c
def OC_FS_LO_FS_BASE (c : Nat) : FRef := ⟨OC_FS_LO c, 0, 32⟩
def OC_FS_HI (c : Nat) : Nat := 0xC0044 + 0x100 * c
def OC_FS_HI_FS_BASE (c : Nat) : FRef := ⟨OC_FS_HI c, 0, 32⟩
def OC_FS_STRIDE (c : Nat) : Nat := 0xC0048 + 0x100 * c
def OC_FS_STRIDE_STRIDE (c : Nat) : FRef := ⟨OC_FS_STRIDE c, 0, 18⟩
def OC_FS_STRIDE_NSLOT (c : Nat) : FRef := ⟨OC_FS_STRIDE c, 24, 8⟩
def OC_FS_COFS (c : Nat) : Nat := 0xC004C + 0x100 * c
def OC_FS_COFS_C_OFS (c : Nat) : FRef := ⟨OC_FS_COFS c, 0, 32⟩
def OC_FS_SLOT (c : Nat) : Nat := 0xC0050 + 0x100 * c
def OC_FS_SLOT_SLOT_BYTES (c : Nat) : FRef := ⟨OC_FS_SLOT c, 0, 32⟩
def OC_ASM_WAIT (c : Nat) : Nat := 0xC0054 + 0x100 * c
def OC_ASM_WAIT_WAIT (c : Nat) : FRef := ⟨OC_ASM_WAIT c, 0, 32⟩
def OC_STAT (c : Nat) : Nat := 0xC1000 + 0x40 * c
def OC_STAT_COEF_TFAULT (c : Nat) : FRef := ⟨OC_STAT c, 0, 1⟩
def OC_STAT_PHASE_SLIP (c : Nat) : FRef := ⟨OC_STAT c, 1, 1⟩
def OC_STAT_AUD_RATE (c : Nat) : FRef := ⟨OC_STAT c, 2, 1⟩
def OC_OFCNT (c : Nat) : Nat := 0xC1004 + 0x40 * c
def OC_OFCNT_OFCNT (c : Nat) : FRef := ⟨OC_OFCNT c, 0, 32⟩
def OC_IFCNT (c : Nat) : Nat := 0xC1008 + 0x40 * c
def OC_IFCNT_IFCNT (c : Nat) : FRef := ⟨OC_IFCNT c, 0, 32⟩
def OC_FSTAT (c : Nat) : Nat := 0xC100C + 0x40 * c
def OC_FSTAT_FSTAT (c : Nat) : FRef := ⟨OC_FSTAT c, 0, 32⟩
def OC_FREC (c : Nat) : Nat := 0xC1010 + 0x40 * c
def OC_FREC_UNDERRUN (c : Nat) : FRef := ⟨OC_FREC c, 0, 16⟩
def OC_FREC_REPEAT (c : Nat) : FRef := ⟨OC_FREC c, 16, 1⟩
def OC_FREC_DROP (c : Nat) : FRef := ⟨OC_FREC c, 17, 1⟩
def OC_FREC_MISSED (c : Nat) : FRef := ⟨OC_FREC c, 18, 1⟩
def OC_FREC_BLACK (c : Nat) : FRef := ⟨OC_FREC c, 19, 1⟩
def OC_FREC_ASM_FILL (c : Nat) : FRef := ⟨OC_FREC c, 20, 1⟩
def OC_FREC_AUD_UNDERRUN (c : Nat) : FRef := ⟨OC_FREC c, 21, 1⟩
def OC_WAITMAX (c : Nat) : Nat := 0xC1014 + 0x40 * c
def OC_WAITMAX_NS (c : Nat) : FRef := ⟨OC_WAITMAX c, 0, 32⟩
def OC_PHASE (c : Nat) : Nat := 0xC1018 + 0x40 * c
def OC_PHASE_E (c : Nat) : FRef := ⟨OC_PHASE c, 0, 32⟩
def OC_SLOT (c : Nat) : Nat := 0xC101C + 0x40 * c
def OC_SLOT_LAST (c : Nat) : FRef := ⟨OC_SLOT c, 0, 8⟩
/-! ### CRUSH block (10_crusher_raw_compression.md) -/

def CS_CFG (s : Nat) : Nat := 0xE0000 + 0x40 * s
def CS_CFG_EN (s : Nat) : FRef := ⟨CS_CFG s, 0, 1⟩
def CS_CFG_LANES (s : Nat) : FRef := ⟨CS_CFG s, 1, 6⟩
def CS_CFG_CLOSE_AT_FRAME (s : Nat) : FRef := ⟨CS_CFG s, 7, 1⟩
def CS_CFG_SLAB_W (s : Nat) : FRef := ⟨CS_CFG s, 8, 13⟩
def CS_RST (s : Nat) : Nat := 0xE0004 + 0x40 * s
def CS_RST_RST_ROWS (s : Nat) : FRef := ⟨CS_RST s, 0, 16⟩
def CS_INQ (s : Nat) : Nat := 0xE0008 + 0x40 * s
def CS_INQ_QUOTA (s : Nat) : FRef := ⟨CS_INQ s, 0, 12⟩
def CS_FREC_LO (s : Nat) : Nat := 0xE000C + 0x40 * s
def CS_FREC_LO_FREC_BASE (s : Nat) : FRef := ⟨CS_FREC_LO s, 0, 32⟩
def CS_FREC_HI (s : Nat) : Nat := 0xE0010 + 0x40 * s
def CS_FREC_HI_FREC_BASE (s : Nat) : FRef := ⟨CS_FREC_HI s, 0, 32⟩
def CS_FREC_N (s : Nat) : Nat := 0xE0014 + 0x40 * s
def CS_FREC_N_NREC (s : Nat) : FRef := ⟨CS_FREC_N s, 0, 8⟩
def CS_CMD (s : Nat) : Nat := 0xE1000 + 0x40 * s
def CS_CMD_APPEND (s : Nat) : FRef := ⟨CS_CMD s, 0, 1⟩
def CS_CMD_RESUME (s : Nat) : FRef := ⟨CS_CMD s, 1, 1⟩
def CS_CMD_CANCEL (s : Nat) : FRef := ⟨CS_CMD s, 2, 1⟩
def CS_APPEND_LO (s : Nat) : Nat := 0xE1004 + 0x40 * s
def CS_APPEND_LO_BASE (s : Nat) : FRef := ⟨CS_APPEND_LO s, 0, 32⟩
def CS_APPEND_HI (s : Nat) : Nat := 0xE1008 + 0x40 * s
def CS_APPEND_HI_BASE (s : Nat) : FRef := ⟨CS_APPEND_HI s, 0, 32⟩
def CS_APPEND_N (s : Nat) : Nat := 0xE100C + 0x40 * s
def CS_APPEND_N_COUNT (s : Nat) : FRef := ⟨CS_APPEND_N s, 0, 9⟩
def CS_STAT (s : Nat) : Nat := 0xE1010 + 0x40 * s
def CS_STAT_STATE (s : Nat) : FRef := ⟨CS_STAT s, 0, 2⟩
def CS_STAT_QUEUED (s : Nat) : FRef := ⟨CS_STAT s, 2, 3⟩
def CS_STAT_CMD_ERR (s : Nat) : FRef := ⟨CS_STAT s, 5, 1⟩
def CS_STAT_DROP (s : Nat) : FRef := ⟨CS_STAT s, 6, 1⟩
def CS_POS (s : Nat) : Nat := 0xE1014 + 0x40 * s
def CS_POS_DESC (s : Nat) : FRef := ⟨CS_POS s, 0, 9⟩
def CS_POS_CHAIN (s : Nat) : FRef := ⟨CS_POS s, 16, 16⟩
def CS_INLVL (s : Nat) : Nat := 0xE1018 + 0x40 * s
def CS_INLVL_KIB (s : Nat) : FRef := ⟨CS_INLVL s, 0, 12⟩
def CS_FREC_NEXT (s : Nat) : Nat := 0xE101C + 0x40 * s
def CS_FREC_NEXT_NEXT (s : Nat) : FRef := ⟨CS_FREC_NEXT s, 0, 8⟩
def CJ_CTL (j : Nat) : Nat := 0xE2000 + 0x80 * j
def CJ_CTL_START (j : Nat) : FRef := ⟨CJ_CTL j, 0, 1⟩
def CJ_CTL_SUSPEND (j : Nat) : FRef := ⟨CJ_CTL j, 1, 1⟩
def CJ_CTL_RESUME (j : Nat) : FRef := ⟨CJ_CTL j, 2, 1⟩
def CJ_CTL_CANCEL (j : Nat) : FRef := ⟨CJ_CTL j, 3, 1⟩
def CJ_CTL_MODE (j : Nat) : FRef := ⟨CJ_CTL j, 4, 2⟩
def CJ_CTL_BITS (j : Nat) : FRef := ⟨CJ_CTL j, 6, 3⟩
def CJ_CTL_MONO (j : Nat) : FRef := ⟨CJ_CTL j, 9, 1⟩
def CJ_CTL_STOP_ON_ERR (j : Nat) : FRef := ⟨CJ_CTL j, 10, 1⟩
def CJ_GEOM (j : Nat) : Nat := 0xE2004 + 0x80 * j
def CJ_GEOM_W (j : Nat) : FRef := ⟨CJ_GEOM j, 0, 16⟩
def CJ_GEOM_H (j : Nat) : FRef := ⟨CJ_GEOM j, 16, 16⟩
def CJ_SLAB (j : Nat) : Nat := 0xE2008 + 0x80 * j
def CJ_SLAB_SLAB_W (j : Nat) : FRef := ⟨CJ_SLAB j, 0, 13⟩
def CJ_SLAB_RST_ROWS (j : Nat) : FRef := ⟨CJ_SLAB j, 16, 16⟩
def CJ_NFRM (j : Nat) : Nat := 0xE200C + 0x80 * j
def CJ_NFRM_FRAMES (j : Nat) : FRef := ⟨CJ_NFRM j, 0, 16⟩
def CJ_CHAIN_LO (j : Nat) : Nat := 0xE2010 + 0x80 * j
def CJ_CHAIN_LO_BASE (j : Nat) : FRef := ⟨CJ_CHAIN_LO j, 0, 32⟩
def CJ_CHAIN_HI (j : Nat) : Nat := 0xE2014 + 0x80 * j
def CJ_CHAIN_HI_BASE (j : Nat) : FRef := ⟨CJ_CHAIN_HI j, 0, 32⟩
def CJ_CHAIN_N (j : Nat) : Nat := 0xE2018 + 0x80 * j
def CJ_CHAIN_N_COUNT (j : Nat) : FRef := ⟨CJ_CHAIN_N j, 0, 9⟩
def CJ_FRM_LO (j : Nat) : Nat := 0xE201C + 0x80 * j
def CJ_FRM_LO_FRM_BASE (j : Nat) : FRef := ⟨CJ_FRM_LO j, 0, 32⟩
def CJ_FRM_HI (j : Nat) : Nat := 0xE2020 + 0x80 * j
def CJ_FRM_HI_FRM_BASE (j : Nat) : FRef := ⟨CJ_FRM_HI j, 0, 32⟩
def CJ_STRIDE (j : Nat) : Nat := 0xE2024 + 0x80 * j
def CJ_STRIDE_STRIDE (j : Nat) : FRef := ⟨CJ_STRIDE j, 0, 24⟩
def CJ_FBYTES (j : Nat) : Nat := 0xE2028 + 0x80 * j
def CJ_FBYTES_FBYTES (j : Nat) : FRef := ⟨CJ_FBYTES j, 0, 32⟩
def CJ_STAT (j : Nat) : Nat := 0xE202C + 0x80 * j
def CJ_STAT_STATE (j : Nat) : FRef := ⟨CJ_STAT j, 0, 3⟩
def CJ_STAT_FRAMES_DONE (j : Nat) : FRef := ⟨CJ_STAT j, 16, 16⟩
def CJ_ERR (j : Nat) : Nat := 0xE2030 + 0x80 * j
def CJ_ERR_CODE (j : Nat) : FRef := ⟨CJ_ERR j, 0, 4⟩
def CJ_ERR_DESC (j : Nat) : FRef := ⟨CJ_ERR j, 4, 9⟩
def CJ_ERR_SLAB (j : Nat) : FRef := ⟨CJ_ERR j, 13, 19⟩
def CJ_ERR_OFS (j : Nat) : Nat := 0xE2034 + 0x80 * j
def CJ_ERR_OFS_OFS (j : Nat) : FRef := ⟨CJ_ERR_OFS j, 0, 32⟩
def CJ_ERR_FCNT (j : Nat) : Nat := 0xE2038 + 0x80 * j
def CJ_ERR_FCNT_FCNT (j : Nat) : FRef := ⟨CJ_ERR_FCNT j, 0, 32⟩
def CJ_ERR_ROW (j : Nat) : Nat := 0xE203C + 0x80 * j
def CJ_ERR_ROW_ROW (j : Nat) : FRef := ⟨CJ_ERR_ROW j, 0, 16⟩
def CJ_DAMAGED (j : Nat) : Nat := 0xE2040 + 0x80 * j
def CJ_DAMAGED_COUNT (j : Nat) : FRef := ⟨CJ_DAMAGED j, 0, 32⟩
def CJ_FAILED (j : Nat) : Nat := 0xE2044 + 0x80 * j
def CJ_FAILED_COUNT (j : Nat) : FRef := ⟨CJ_FAILED j, 0, 32⟩
def CJ_NOTDEC (j : Nat) : Nat := 0xE2048 + 0x80 * j
def CJ_NOTDEC_COUNT (j : Nat) : FRef := ⟨CJ_NOTDEC j, 0, 32⟩
/-! ### REC block (11_recording_and_burst_store.md) -/

def TK_CFG (t : Nat) : Nat := 0xF0000 + 0x20 * t
def TK_CFG_REC (t : Nat) : FRef := ⟨TK_CFG t, 0, 1⟩
def TK_CFG_MAGS (t : Nat) : FRef := ⟨TK_CFG t, 1, 8⟩
def TK_CFG_EXT_LOG2 (t : Nat) : FRef := ⟨TK_CFG t, 9, 4⟩
def TK_CFG_FLUSH (t : Nat) : FRef := ⟨TK_CFG t, 13, 8⟩
def TK_ID (t : Nat) : Nat := 0xF0004 + 0x20 * t
def TK_ID_TAKE_ID (t : Nat) : FRef := ⟨TK_ID t, 0, 32⟩
def TK_START_LO (t : Nat) : Nat := 0xF0008 + 0x20 * t
def TK_START_LO_START (t : Nat) : FRef := ⟨TK_START_LO t, 0, 32⟩
def TK_START_HI (t : Nat) : Nat := 0xF000C + 0x20 * t
def TK_START_HI_START (t : Nat) : FRef := ⟨TK_START_HI t, 0, 32⟩
def TK_LIMIT (t : Nat) : Nat := 0xF0010 + 0x20 * t
def TK_LIMIT_LIMIT (t : Nat) : FRef := ⟨TK_LIMIT t, 0, 32⟩
def RS_CFG (k : Nat) : Nat := 0xF0100 + 0x4 * k
def RS_CFG_EN (k : Nat) : FRef := ⟨RS_CFG k, 0, 1⟩
def RS_CFG_TYPE (k : Nat) : FRef := ⟨RS_CFG k, 1, 3⟩
def RS_CFG_TAKE (k : Nat) : FRef := ⟨RS_CFG k, 4, 3⟩
def RS_CFG_SRCNUM (k : Nat) : FRef := ⟨RS_CFG k, 7, 4⟩
def REC_STG_LO : Nat := 0xF0140
def REC_STG_LO_STG_BASE : FRef := ⟨REC_STG_LO, 0, 32⟩
def REC_STG_HI : Nat := 0xF0144
def REC_STG_HI_STG_BASE : FRef := ⟨REC_STG_HI, 0, 32⟩
def REC_STG_SIZE : Nat := 0xF0148
def REC_STG_SIZE_KIB : FRef := ⟨REC_STG_SIZE, 0, 20⟩
def BS_CFG : Nat := 0xF0150
def BS_CFG_EN : FRef := ⟨BS_CFG, 0, 1⟩
def BS_CFG_SRC : FRef := ⟨BS_CFG, 1, 2⟩
def BS_BASE_LO : Nat := 0xF0154
def BS_BASE_LO_BASE : FRef := ⟨BS_BASE_LO, 0, 32⟩
def BS_BASE_HI : Nat := 0xF0158
def BS_BASE_HI_BASE : FRef := ⟨BS_BASE_HI, 0, 32⟩
def BS_SLOT_BYTES : Nat := 0xF015C
def BS_SLOT_BYTES_BYTES : FRef := ⟨BS_SLOT_BYTES, 0, 32⟩
def BS_SLOTS : Nat := 0xF0160
def BS_SLOTS_SLOTS : FRef := ⟨BS_SLOTS, 0, 19⟩
def BS_PRE : Nat := 0xF0164
def BS_PRE_PRE : FRef := ⟨BS_PRE, 0, 32⟩
def BS_POST : Nat := 0xF0168
def BS_POST_POST : FRef := ⟨BS_POST, 0, 32⟩
def BS_TRIG : Nat := 0xF016C
def BS_TRIG_KIND : FRef := ⟨BS_TRIG, 0, 3⟩
def BS_TRIG_ARG : FRef := ⟨BS_TRIG, 3, 5⟩
def BS_TRIG_EDGE : FRef := ⟨BS_TRIG, 8, 1⟩
def BS_CMD : Nat := 0xF1000
def BS_CMD_TRIGGER : FRef := ⟨BS_CMD, 0, 1⟩
def BS_CMD_RELEASE : FRef := ⟨BS_CMD, 1, 1⟩
def BS_STAT : Nat := 0xF1004
def BS_STAT_STATE : FRef := ⟨BS_STAT, 0, 2⟩
def BS_STAT_PRE_SHORT : FRef := ⟨BS_STAT, 2, 1⟩
def BS_STAT_CMD_ERR : FRef := ⟨BS_STAT, 3, 1⟩
def BS_STAT_IGNORED : FRef := ⟨BS_STAT, 16, 16⟩
def BS_TFCNT : Nat := 0xF1008
def BS_TFCNT_FCNT : FRef := ⟨BS_TFCNT, 0, 32⟩
def BS_TTIME_LO : Nat := 0xF100C
def BS_TTIME_LO_N : FRef := ⟨BS_TTIME_LO, 0, 32⟩
def BS_TTIME_HI : Nat := 0xF1010
def BS_TTIME_HI_N : FRef := ⟨BS_TTIME_HI, 0, 32⟩
def BS_FRAMES : Nat := 0xF1014
def BS_FRAMES_N : FRef := ⟨BS_FRAMES, 0, 32⟩
def BS_PRE_LOST : Nat := 0xF1018
def BS_PRE_LOST_LOST : FRef := ⟨BS_PRE_LOST, 0, 16⟩
def TK_STAT (t : Nat) : Nat := 0xF1040 + 0x10 * t
def TK_STAT_STATE (t : Nat) : FRef := ⟨TK_STAT t, 0, 3⟩
def TK_STAT_FULL (t : Nat) : FRef := ⟨TK_STAT t, 3, 1⟩
def TK_STAT_CAUSE (t : Nat) : FRef := ⟨TK_STAT t, 16, 16⟩
def TK_DUR (t : Nat) : Nat := 0xF1044 + 0x10 * t
def TK_DUR_EXTENTS (t : Nat) : FRef := ⟨TK_DUR t, 0, 32⟩
def TK_LOST (t : Nat) : Nat := 0xF1048 + 0x10 * t
def TK_LOST_FRAMES (t : Nat) : FRef := ⟨TK_LOST t, 0, 32⟩
def RS_STAT (k : Nat) : Nat := 0xF1080 + 0x4 * k
def RS_STAT_GAPS (k : Nat) : FRef := ⟨RS_STAT k, 0, 16⟩
def RS_STAT_LOST (k : Nat) : FRef := ⟨RS_STAT k, 16, 16⟩
/-! ### HEVCE block (12_hevc_encoder.md) -/

def HE_CFG (c : Nat) : Nat := 0x100000 + 0x100 * c
def HE_CFG_EN (c : Nat) : FRef := ⟨HE_CFG c, 0, 1⟩
def HE_CFG_INPUT (c : Nat) : FRef := ⟨HE_CFG c, 1, 1⟩
def HE_CFG_PROFILE (c : Nat) : FRef := ⟨HE_CFG c, 2, 2⟩
def HE_CFG_TIER (c : Nat) : FRef := ⟨HE_CFG c, 4, 1⟩
def HE_CFG_LEVEL (c : Nat) : FRef := ⟨HE_CFG c, 5, 8⟩
def HE_CFG_GOP (c : Nat) : FRef := ⟨HE_CFG c, 13, 2⟩
def HE_CFG_MGOP (c : Nat) : FRef := ⟨HE_CFG c, 15, 2⟩
def HE_CFG_NREF (c : Nat) : FRef := ⟨HE_CFG c, 17, 3⟩
def HE_CFG_IRAP (c : Nat) : FRef := ⟨HE_CFG c, 20, 1⟩
def HE_CFG_SAO_EN (c : Nat) : FRef := ⟨HE_CFG c, 21, 1⟩
def HE_CFG_LTR_EN (c : Nat) : FRef := ⟨HE_CFG c, 22, 1⟩
def HE_CFG_AUD_EN (c : Nat) : FRef := ⟨HE_CFG c, 23, 1⟩
def HE_CFG_HOME (c : Nat) : FRef := ⟨HE_CFG c, 24, 3⟩
def HE_GOP (c : Nat) : Nat := 0x100004 + 0x100 * c
def HE_GOP_IPERIOD (c : Nat) : FRef := ⟨HE_GOP c, 0, 16⟩
def HE_GOP_LTR_PERIOD (c : Nat) : FRef := ⟨HE_GOP c, 16, 16⟩
def HE_RC (c : Nat) : Nat := 0x100008 + 0x100 * c
def HE_RC_MODE (c : Nat) : FRef := ⟨HE_RC c, 0, 1⟩
def HE_RC_QP_INIT (c : Nat) : FRef := ⟨HE_RC c, 1, 6⟩
def HE_RC_QP_MIN (c : Nat) : FRef := ⟨HE_RC c, 7, 6⟩
def HE_RC_QP_MAX (c : Nat) : FRef := ⟨HE_RC c, 13, 6⟩
def HE_RC_ROW_DQP (c : Nat) : FRef := ⟨HE_RC c, 19, 4⟩
def HE_RC_ROW_GAIN (c : Nat) : FRef := ⟨HE_RC c, 23, 3⟩
def HE_RATE (c : Nat) : Nat := 0x10000C + 0x100 * c
def HE_RATE_RATE (c : Nat) : FRef := ⟨HE_RATE c, 0, 32⟩
def HE_AVG (c : Nat) : Nat := 0x100010 + 0x100 * c
def HE_AVG_AVG (c : Nat) : FRef := ⟨HE_AVG c, 0, 32⟩
def HE_CPB (c : Nat) : Nat := 0x100014 + 0x100 * c
def HE_CPB_CPB (c : Nat) : FRef := ⟨HE_CPB c, 0, 32⟩
def HE_FULL (c : Nat) : Nat := 0x100018 + 0x100 * c
def HE_FULL_INIT_FULL (c : Nat) : FRef := ⟨HE_FULL c, 0, 10⟩
def HE_FULL_TGT_FULL (c : Nat) : FRef := ⟨HE_FULL c, 16, 10⟩
def HE_WEIGHT (c : Nat) : Nat := 0x10001C + 0x100 * c
def HE_WEIGHT_W_I (c : Nat) : FRef := ⟨HE_WEIGHT c, 0, 10⟩
def HE_WEIGHT_W_P (c : Nat) : FRef := ⟨HE_WEIGHT c, 10, 10⟩
def HE_WEIGHT_W_B (c : Nat) : FRef := ⟨HE_WEIGHT c, 20, 10⟩
def HE_TICK (c : Nat) : Nat := 0x100020 + 0x100 * c
def HE_TICK_TICK (c : Nat) : FRef := ⟨HE_TICK c, 0, 32⟩
def HE_SCALE (c : Nat) : Nat := 0x100024 + 0x100 * c
def HE_SCALE_SCALE (c : Nat) : FRef := ⟨HE_SCALE c, 0, 32⟩
def HE_SIZE (c : Nat) : Nat := 0x100028 + 0x100 * c
def HE_SIZE_W (c : Nat) : FRef := ⟨HE_SIZE c, 0, 16⟩
def HE_SIZE_H (c : Nat) : FRef := ⟨HE_SIZE c, 16, 16⟩
def HE_ME (c : Nat) : Nat := 0x10002C + 0x100 * c
def HE_ME_SR_X (c : Nat) : FRef := ⟨HE_ME c, 0, 9⟩
def HE_ME_SR_Y (c : Nat) : FRef := ⟨HE_ME c, 16, 9⟩
def HE_COLS (c : Nat) : Nat := 0x100030 + 0x100 * c
def HE_COLS_NCOL (c : Nat) : FRef := ⟨HE_COLS c, 0, 5⟩
def HE_COLMAP (c i : Nat) : Nat := 0x100034 + 0x100 * c + 0x4 * i
def HE_COLMAP_W0 (c i : Nat) : FRef := ⟨HE_COLMAP c i, 0, 8⟩
def HE_COLMAP_T0 (c i : Nat) : FRef := ⟨HE_COLMAP c i, 8, 3⟩
def HE_COLMAP_W1 (c i : Nat) : FRef := ⟨HE_COLMAP c i, 16, 8⟩
def HE_COLMAP_T1 (c i : Nat) : FRef := ⟨HE_COLMAP c i, 24, 3⟩
def HE_OUT (c : Nat) : Nat := 0x100054 + 0x100 * c
def HE_OUT_REC_EN (c : Nat) : FRef := ⟨HE_OUT c, 0, 1⟩
def HE_OUT_DRAM_EN (c : Nat) : FRef := ⟨HE_OUT c, 1, 1⟩
def HE_OUT_TFN (c : Nat) : FRef := ⟨HE_OUT c, 2, 2⟩
def HE_AU_LO (c : Nat) : Nat := 0x100058 + 0x100 * c
def HE_AU_LO_AU_BASE (c : Nat) : FRef := ⟨HE_AU_LO c, 0, 32⟩
def HE_AU_HI (c : Nat) : Nat := 0x10005C + 0x100 * c
def HE_AU_HI_AU_BASE (c : Nat) : FRef := ⟨HE_AU_HI c, 0, 32⟩
def HE_AU_SIZE (c : Nat) : Nat := 0x100060 + 0x100 * c
def HE_AU_SIZE_KIB (c : Nat) : FRef := ⟨HE_AU_SIZE c, 0, 20⟩
def HE_IN_LO (c : Nat) : Nat := 0x100064 + 0x100 * c
def HE_IN_LO_IN_BASE (c : Nat) : FRef := ⟨HE_IN_LO c, 0, 32⟩
def HE_IN_HI (c : Nat) : Nat := 0x100068 + 0x100 * c
def HE_IN_HI_IN_BASE (c : Nat) : FRef := ⟨HE_IN_HI c, 0, 32⟩
def HE_IN_STRIDE (c : Nat) : Nat := 0x10006C + 0x100 * c
def HE_IN_STRIDE_STRIDE (c : Nat) : FRef := ⟨HE_IN_STRIDE c, 0, 18⟩
def HE_IN_COFS (c : Nat) : Nat := 0x100070 + 0x100 * c
def HE_IN_COFS_C_OFS (c : Nat) : FRef := ⟨HE_IN_COFS c, 0, 32⟩
def HE_IN_SLOT (c : Nat) : Nat := 0x100074 + 0x100 * c
def HE_IN_SLOT_SLOT_BYTES (c : Nat) : FRef := ⟨HE_IN_SLOT c, 0, 32⟩
def HE_POOL_LO (c : Nat) : Nat := 0x100078 + 0x100 * c
def HE_POOL_LO_POOL_BASE (c : Nat) : FRef := ⟨HE_POOL_LO c, 0, 32⟩
def HE_POOL_HI (c : Nat) : Nat := 0x10007C + 0x100 * c
def HE_POOL_HI_POOL_BASE (c : Nat) : FRef := ⟨HE_POOL_HI c, 0, 32⟩
def HE_POOL_SLOT (c : Nat) : Nat := 0x100080 + 0x100 * c
def HE_POOL_SLOT_POOL_SLOT (c : Nat) : FRef := ⟨HE_POOL_SLOT c, 0, 32⟩
def HE_SUMP (c : Nat) : Nat := 0x100084 + 0x100 * c
def HE_SUMP_QUOTA (c : Nat) : FRef := ⟨HE_SUMP c, 0, 13⟩
def HE_SHARE (c : Nat) : Nat := 0x100088 + 0x100 * c
def HE_SHARE_SHARE (c : Nat) : FRef := ⟨HE_SHARE c, 0, 11⟩
def HE_CMD (c : Nat) : Nat := 0x101000 + 0x40 * c
def HE_CMD_FORCE_IRAP (c : Nat) : FRef := ⟨HE_CMD c, 0, 1⟩
def HE_CMD_START (c : Nat) : FRef := ⟨HE_CMD c, 1, 1⟩
def HE_CMD_SUSPEND (c : Nat) : FRef := ⟨HE_CMD c, 2, 1⟩
def HE_CMD_RESUME (c : Nat) : FRef := ⟨HE_CMD c, 3, 1⟩
def HE_CMD_CANCEL (c : Nat) : FRef := ⟨HE_CMD c, 4, 1⟩
def HE_STAT (c : Nat) : Nat := 0x101004 + 0x40 * c
def HE_STAT_STATE (c : Nat) : FRef := ⟨HE_STAT c, 0, 3⟩
def HE_STAT_FREE (c : Nat) : FRef := ⟨HE_STAT c, 3, 5⟩
def HE_STAT_SUMP (c : Nat) : FRef := ⟨HE_STAT c, 8, 13⟩
def HE_STAT_STALLS (c : Nat) : FRef := ⟨HE_STAT c, 21, 11⟩
def HE_JOB (c : Nat) : Nat := 0x101008 + 0x40 * c
def HE_JOB_FRAMES (c : Nat) : FRef := ⟨HE_JOB c, 0, 16⟩
def HE_JOB_DONE (c : Nat) : FRef := ⟨HE_JOB c, 16, 16⟩
def HE_FCNT (c : Nat) : Nat := 0x10100C + 0x40 * c
def HE_FCNT_FCNT (c : Nat) : FRef := ⟨HE_FCNT c, 0, 32⟩
def HE_AUSTAT (c : Nat) : Nat := 0x101010 + 0x40 * c
def HE_AUSTAT_VAL (c : Nat) : FRef := ⟨HE_AUSTAT c, 0, 32⟩
def HE_AUBYTES (c : Nat) : Nat := 0x101014 + 0x40 * c
def HE_AUBYTES_BYTES (c : Nat) : FRef := ⟨HE_AUBYTES c, 0, 32⟩
def HE_LBOUND (c : Nat) : Nat := 0x101018 + 0x40 * c
def HE_LBOUND_L (c : Nat) : FRef := ⟨HE_LBOUND c, 0, 32⟩
def HE_FLOORS (c : Nat) : Nat := 0x10101C + 0x40 * c
def HE_FLOORS_FLOORED (c : Nat) : FRef := ⟨HE_FLOORS c, 0, 16⟩
def HE_FLOORS_REPEATS (c : Nat) : FRef := ⟨HE_FLOORS c, 16, 16⟩
def HE_NEXT (c : Nat) : Nat := 0x101020 + 0x40 * c
def HE_NEXT_OFS (c : Nat) : FRef := ⟨HE_NEXT c, 0, 32⟩
def HE_MARKS (c : Nat) : Nat := 0x101024 + 0x40 * c
def HE_MARKS_MARK (c : Nat) : FRef := ⟨HE_MARKS c, 0, 32⟩
/-! ### HEVCD block (13_hevc_decoder.md) -/

def HD_CFG (c : Nat) : Nat := 0x120000 + 0x100 * c
def HD_CFG_EN (c : Nat) : FRef := ⟨HD_CFG c, 0, 1⟩
def HD_CFG_INPUT (c : Nat) : FRef := ⟨HD_CFG c, 1, 1⟩
def HD_CFG_SEEK (c : Nat) : FRef := ⟨HD_CFG c, 2, 1⟩
def HD_CFG_HASH_CHECK (c : Nat) : FRef := ⟨HD_CFG c, 3, 1⟩
def HD_CFG_LINK_EN (c : Nat) : FRef := ⟨HD_CFG c, 4, 1⟩
def HD_CFG_LINK_CTX (c : Nat) : FRef := ⟨HD_CFG c, 5, 2⟩
def HD_CFG_HOME (c : Nat) : FRef := ⟨HD_CFG c, 7, 3⟩
def HD_COLS (c : Nat) : Nat := 0x120004 + 0x100 * c
def HD_COLS_NCOL (c : Nat) : FRef := ⟨HD_COLS c, 0, 5⟩
def HD_COLMAP (c i : Nat) : Nat := 0x120008 + 0x100 * c + 0x4 * i
def HD_COLMAP_W0 (c i : Nat) : FRef := ⟨HD_COLMAP c i, 0, 8⟩
def HD_COLMAP_T0 (c i : Nat) : FRef := ⟨HD_COLMAP c i, 8, 3⟩
def HD_COLMAP_W1 (c i : Nat) : FRef := ⟨HD_COLMAP c i, 16, 8⟩
def HD_COLMAP_T1 (c i : Nat) : FRef := ⟨HD_COLMAP c i, 24, 3⟩
def HD_IN_LO (c : Nat) : Nat := 0x120028 + 0x100 * c
def HD_IN_LO_IN_BASE (c : Nat) : FRef := ⟨HD_IN_LO c, 0, 32⟩
def HD_IN_HI (c : Nat) : Nat := 0x12002C + 0x100 * c
def HD_IN_HI_IN_BASE (c : Nat) : FRef := ⟨HD_IN_HI c, 0, 32⟩
def HD_POOL_LO (c : Nat) : Nat := 0x120030 + 0x100 * c
def HD_POOL_LO_POOL_BASE (c : Nat) : FRef := ⟨HD_POOL_LO c, 0, 32⟩
def HD_POOL_HI (c : Nat) : Nat := 0x120034 + 0x100 * c
def HD_POOL_HI_POOL_BASE (c : Nat) : FRef := ⟨HD_POOL_HI c, 0, 32⟩
def HD_POOL_SLOT (c : Nat) : Nat := 0x120038 + 0x100 * c
def HD_POOL_SLOT_POOL_SLOT (c : Nat) : FRef := ⟨HD_POOL_SLOT c, 0, 32⟩
def HD_OUT_LO (c : Nat) : Nat := 0x12003C + 0x100 * c
def HD_OUT_LO_OUT_BASE (c : Nat) : FRef := ⟨HD_OUT_LO c, 0, 32⟩
def HD_OUT_HI (c : Nat) : Nat := 0x120040 + 0x100 * c
def HD_OUT_HI_OUT_BASE (c : Nat) : FRef := ⟨HD_OUT_HI c, 0, 32⟩
def HD_OUT_STRIDE (c : Nat) : Nat := 0x120044 + 0x100 * c
def HD_OUT_STRIDE_STRIDE (c : Nat) : FRef := ⟨HD_OUT_STRIDE c, 0, 18⟩
def HD_OUT_STRIDE_NSLOT (c : Nat) : FRef := ⟨HD_OUT_STRIDE c, 24, 8⟩
def HD_OUT_COFS (c : Nat) : Nat := 0x120048 + 0x100 * c
def HD_OUT_COFS_C_OFS (c : Nat) : FRef := ⟨HD_OUT_COFS c, 0, 32⟩
def HD_OUT_SLOT (c : Nat) : Nat := 0x12004C + 0x100 * c
def HD_OUT_SLOT_SLOT_BYTES (c : Nat) : FRef := ⟨HD_OUT_SLOT c, 0, 32⟩
def HD_REC_LO (c : Nat) : Nat := 0x120050 + 0x100 * c
def HD_REC_LO_REC_BASE (c : Nat) : FRef := ⟨HD_REC_LO c, 0, 32⟩
def HD_REC_HI (c : Nat) : Nat := 0x120054 + 0x100 * c
def HD_REC_HI_REC_BASE (c : Nat) : FRef := ⟨HD_REC_HI c, 0, 32⟩
def HD_CMD (c : Nat) : Nat := 0x121000 + 0x40 * c
def HD_CMD_START (c : Nat) : FRef := ⟨HD_CMD c, 0, 1⟩
def HD_CMD_SUSPEND (c : Nat) : FRef := ⟨HD_CMD c, 1, 1⟩
def HD_CMD_RESUME (c : Nat) : FRef := ⟨HD_CMD c, 2, 1⟩
def HD_CMD_CANCEL (c : Nat) : FRef := ⟨HD_CMD c, 3, 1⟩
def HD_CMD_RESTART (c : Nat) : FRef := ⟨HD_CMD c, 4, 1⟩
def HD_CMD_FINAL (c : Nat) : FRef := ⟨HD_CMD c, 5, 1⟩
def HD_IN_END_LO (c : Nat) : Nat := 0x121004 + 0x40 * c
def HD_IN_END_LO_END (c : Nat) : FRef := ⟨HD_IN_END_LO c, 0, 32⟩
def HD_IN_END_HI (c : Nat) : Nat := 0x121008 + 0x40 * c
def HD_IN_END_HI_END (c : Nat) : FRef := ⟨HD_IN_END_HI c, 0, 32⟩
def HD_OUT_ACK (c : Nat) : Nat := 0x12100C + 0x40 * c
def HD_OUT_ACK_ACK (c : Nat) : FRef := ⟨HD_OUT_ACK c, 0, 9⟩
def HD_STAT (c : Nat) : Nat := 0x121010 + 0x40 * c
def HD_STAT_STATE (c : Nat) : FRef := ⟨HD_STAT c, 0, 3⟩
def HD_STAT_FREE (c : Nat) : FRef := ⟨HD_STAT c, 3, 5⟩
def HD_STAT_LEVEL (c : Nat) : FRef := ⟨HD_STAT c, 8, 9⟩
def HD_STAT_OUT_WAITS (c : Nat) : FRef := ⟨HD_STAT c, 17, 15⟩
def HD_MARKS (c : Nat) : Nat := 0x121014 + 0x40 * c
def HD_MARKS_MARK (c : Nat) : FRef := ⟨HD_MARKS c, 0, 32⟩
def HD_OUTPEND (c : Nat) : Nat := 0x121018 + 0x40 * c
def HD_OUTPEND_OUT (c : Nat) : FRef := ⟨HD_OUTPEND c, 0, 16⟩
def HD_OUTPEND_DISCARDED (c : Nat) : FRef := ⟨HD_OUTPEND c, 16, 16⟩
def HD_ERR (c : Nat) : Nat := 0x12101C + 0x40 * c
def HD_ERR_CODE (c : Nat) : FRef := ⟨HD_ERR c, 0, 8⟩
def HD_ERR_NAL_TYPE (c : Nat) : FRef := ⟨HD_ERR c, 8, 6⟩
def HD_ERR_TILE (c : Nat) : FRef := ⟨HD_ERR c, 14, 3⟩
def HD_ERR_OFS_LO (c : Nat) : Nat := 0x121020 + 0x40 * c
def HD_ERR_OFS_LO_OFS (c : Nat) : FRef := ⟨HD_ERR_OFS_LO c, 0, 32⟩
def HD_ERR_OFS_HI (c : Nat) : Nat := 0x121024 + 0x40 * c
def HD_ERR_OFS_HI_OFS (c : Nat) : FRef := ⟨HD_ERR_OFS_HI c, 0, 32⟩
def HD_ERR_CTU (c : Nat) : Nat := 0x121028 + 0x40 * c
def HD_ERR_CTU_CTU (c : Nat) : FRef := ⟨HD_ERR_CTU c, 0, 32⟩
def HD_ERR_POC (c : Nat) : Nat := 0x12102C + 0x40 * c
def HD_ERR_POC_POC (c : Nat) : FRef := ⟨HD_ERR_POC c, 0, 32⟩
def HD_ERR_REFPOC (c : Nat) : Nat := 0x121030 + 0x40 * c
def HD_ERR_REFPOC_POC (c : Nat) : FRef := ⟨HD_ERR_REFPOC c, 0, 32⟩
def HD_PICS (c : Nat) : Nat := 0x121034 + 0x40 * c
def HD_PICS_COUNT (c : Nat) : FRef := ⟨HD_PICS c, 0, 32⟩
def HD_SKIPPED (c : Nat) : Nat := 0x121038 + 0x40 * c
def HD_SKIPPED_COUNT (c : Nat) : FRef := ⟨HD_SKIPPED c, 0, 32⟩
def HD_SKIPPED_BYTES (c : Nat) : Nat := 0x12103C + 0x40 * c
def HD_SKIPPED_BYTES_COUNT (c : Nat) : FRef := ⟨HD_SKIPPED_BYTES c, 0, 32⟩
/-! ### PLINK block (14_packet_link.md) -/

def PL_CTL (k : Nat) : Nat := 0x140000 + 0x400 * k
def PL_CTL_EN (k : Nat) : FRef := ⟨PL_CTL k, 0, 1⟩
def PL_CTL_RETRAIN (k : Nat) : FRef := ⟨PL_CTL k, 1, 1⟩
def PL_CTL_RESET (k : Nat) : FRef := ⟨PL_CTL k, 2, 1⟩
def PL_CTL_IDLE_EN (k : Nat) : FRef := ⟨PL_CTL k, 3, 1⟩
def PL_CTL_LANE_BASE (k : Nat) : FRef := ⟨PL_CTL k, 4, 3⟩
def PL_CTL_WIDTH_MAX (k : Nat) : FRef := ⟨PL_CTL k, 7, 2⟩
def PL_CTL_ROLE (k : Nat) : FRef := ⟨PL_CTL k, 9, 1⟩
def PL_STAT (k : Nat) : Nat := 0x140004 + 0x400 * k
def PL_STAT_STATE (k : Nat) : FRef := ⟨PL_STAT k, 0, 3⟩
def PL_STAT_WIDTH (k : Nat) : FRef := ⟨PL_STAT k, 3, 2⟩
def PL_STAT_DEGRADED (k : Nat) : FRef := ⟨PL_STAT k, 5, 1⟩
def PL_STAT_LRST_CAUSE (k : Nat) : FRef := ⟨PL_STAT k, 8, 8⟩
def PL_STAT_RESETS (k : Nat) : FRef := ⟨PL_STAT k, 16, 16⟩
def PL_TIMER (k : Nat) : Nat := 0x140008 + 0x400 * k
def PL_TIMER_REPLAY_TO (k : Nat) : FRef := ⟨PL_TIMER k, 0, 16⟩
def PL_TIMER_REPLAY_MAX (k : Nat) : FRef := ⟨PL_TIMER k, 16, 4⟩
def PL_TIMER_IDLE_ENTRY (k : Nat) : FRef := ⟨PL_TIMER k, 20, 12⟩
def PL_RETRAIN_TO (k : Nat) : Nat := 0x14000C + 0x400 * k
def PL_RETRAIN_TO_TO (k : Nat) : FRef := ⟨PL_RETRAIN_TO k, 0, 16⟩
def PL_SEQ (k : Nat) : Nat := 0x140010 + 0x400 * k
def PL_SEQ_NEXT_TX (k : Nat) : FRef := ⟨PL_SEQ k, 0, 12⟩
def PL_SEQ_LAST_ACKED (k : Nat) : FRef := ⟨PL_SEQ k, 16, 12⟩
def PL_CRED_TX (k : Nat) : Nat := 0x140014 + 0x400 * k
def PL_CRED_TX_H (k : Nat) : FRef := ⟨PL_CRED_TX k, 0, 16⟩
def PL_CRED_TX_D (k : Nat) : FRef := ⟨PL_CRED_TX k, 16, 16⟩
def PL_CRED_RX (k : Nat) : Nat := 0x140018 + 0x400 * k
def PL_CRED_RX_H (k : Nat) : FRef := ⟨PL_CRED_RX k, 0, 16⟩
def PL_CRED_RX_D (k : Nat) : FRef := ⟨PL_CRED_RX k, 16, 16⟩
def PL_CRCERR (k : Nat) : Nat := 0x14001C + 0x400 * k
def PL_CRCERR_COUNT (k : Nat) : FRef := ⟨PL_CRCERR k, 0, 32⟩
def PL_REPLAYS (k : Nat) : Nat := 0x140020 + 0x400 * k
def PL_REPLAYS_COUNT (k : Nat) : FRef := ⟨PL_REPLAYS k, 0, 32⟩
def PL_QUEUE (k : Nat) : Nat := 0x140024 + 0x400 * k
def PL_QUEUE_QUEUED (k : Nat) : FRef := ⟨PL_QUEUE k, 0, 9⟩
def PL_QUEUE_EXEC (k : Nat) : FRef := ⟨PL_QUEUE k, 16, 7⟩
def PL_QUEUE_HELD (k : Nat) : FRef := ⟨PL_QUEUE k, 24, 7⟩
def PL_PROTO (k : Nat) : Nat := 0x140028 + 0x400 * k
def PL_PROTO_CODE (k : Nat) : FRef := ⟨PL_PROTO k, 0, 8⟩
def PL_PROTO_COUNT (k : Nat) : FRef := ⟨PL_PROTO k, 8, 24⟩
def PL1_TMO : Nat := 0x14042C
def PL1_TMO_MAG_TMO : FRef := ⟨PL1_TMO, 0, 16⟩
def PL1_ASYNC (w : Nat) : Nat := 0x140430 + 0x4 * w
def PL1_ASYNC_BODY (w : Nat) : FRef := ⟨PL1_ASYNC w, 0, 32⟩
def PL_PSTATE : Nat := 0x140800
def PL_PSTATE_STATE : FRef := ⟨PL_PSTATE, 0, 2⟩
def PL_PSTATE_TARGET : FRef := ⟨PL_PSTATE, 2, 2⟩
def PL_PSTATE_ENTERING : FRef := ⟨PL_PSTATE, 4, 1⟩
def PL_PSTATE_ABANDONED : FRef := ⟨PL_PSTATE, 5, 1⟩
/-! ### MC block (16_memory_controller.md) -/

def MC_CFG : Nat := 0x160000
def MC_CFG_HASH : FRef := ⟨MC_CFG, 0, 1⟩
def MC_CFG_DENSITY : FRef := ⟨MC_CFG, 1, 2⟩
def MC_CFG_RANKS2 : FRef := ⟨MC_CFG, 3, 1⟩
def MC_CFG_MR4_LONG : FRef := ⟨MC_CFG, 4, 1⟩
def MC_CFG_CFG_ERR : FRef := ⟨MC_CFG, 5, 1⟩
def MC_CFG_MR4_POLL : FRef := ⟨MC_CFG, 8, 8⟩
def MC_MIT : Nat := 0x160004
def MC_MIT_MIT_THR : FRef := ⟨MC_MIT, 0, 12⟩
def MC_ROWMAP : Nat := 0x160008
def MC_ROWMAP_XMASK : FRef := ⟨MC_ROWMAP, 0, 16⟩
def MC_ROWMAP_XSEL : FRef := ⟨MC_ROWMAP, 16, 5⟩
def MC_THROT : Nat := 0x16000C
def MC_THROT_THR_WIN : FRef := ⟨MC_THROT, 0, 8⟩
def MC_THROT_ACT_CAP : FRef := ⟨MC_THROT, 8, 8⟩
def MC_THROT_THR_MIN : FRef := ⟨MC_THROT, 16, 8⟩
def MC_THROT_STAT (c : Nat) : Nat := 0x160010 + 0x4 * c
def MC_THROT_STAT_PORT (c : Nat) : FRef := ⟨MC_THROT_STAT c, 0, 4⟩
def MC_THROT_STAT_ACTIVE (c : Nat) : FRef := ⟨MC_THROT_STAT c, 4, 1⟩
def MC_THROT_STAT_RT_LEAD (c : Nat) : FRef := ⟨MC_THROT_STAT c, 5, 1⟩
def MC_PORT_CFG (p : Nat) : Nat := 0x160100 + 0x10 * p
def MC_PORT_CFG_WEIGHT (p : Nat) : FRef := ⟨MC_PORT_CFG p, 0, 4⟩
def MC_PORT_CFG_RT (p : Nat) : FRef := ⟨MC_PORT_CFG p, 4, 1⟩
def MC_PORT_PANIC (p : Nat) : Nat := 0x160104 + 0x10 * p
def MC_PORT_PANIC_PANIC (p : Nat) : FRef := ⟨MC_PORT_PANIC p, 0, 16⟩
def MC_PORT_PANIC_CALM (p : Nat) : FRef := ⟨MC_PORT_PANIC p, 16, 16⟩
def MC_PORT_STAT (p : Nat) : Nat := 0x160108 + 0x10 * p
def MC_PORT_STAT_PANIC (p : Nat) : FRef := ⟨MC_PORT_STAT p, 0, 8⟩
def MC_PORT_STAT_OVERRUN (p : Nat) : FRef := ⟨MC_PORT_STAT p, 8, 8⟩
def MC_PORT_MIT (p : Nat) : Nat := 0x16010C + 0x10 * p
def MC_PORT_MIT_COUNT (p : Nat) : FRef := ⟨MC_PORT_MIT p, 0, 32⟩
def MCC_CTL (c : Nat) : Nat := 0x161000 + 0x400 * c
def MCC_CTL_EN (c : Nat) : FRef := ⟨MCC_CTL c, 0, 1⟩
def MCC_CTL_FAIL (c : Nat) : FRef := ⟨MCC_CTL c, 1, 1⟩
def MCC_STAT (c : Nat) : Nat := 0x161004 + 0x400 * c
def MCC_STAT_STATE (c : Nat) : FRef := ⟨MCC_STAT c, 0, 3⟩
def MCC_STAT_CFG_ERR (c : Nat) : FRef := ⟨MCC_STAT c, 3, 1⟩
def MCC_STAT_OWED0 (c : Nat) : FRef := ⟨MCC_STAT c, 4, 4⟩
def MCC_STAT_OWED1 (c : Nat) : FRef := ⟨MCC_STAT c, 8, 4⟩
def MCC_STAT_M (c : Nat) : FRef := ⟨MCC_STAT c, 12, 3⟩
def MCC_STAT_DERATE_ON (c : Nat) : FRef := ⟨MCC_STAT c, 15, 1⟩
def MCC_STAT_WQ (c : Nat) : FRef := ⟨MCC_STAT c, 16, 7⟩
def MCC_TIMING0 (c : Nat) : Nat := 0x161008 + 0x400 * c
def MCC_TIMING0_tRCD (c : Nat) : FRef := ⟨MCC_TIMING0 c, 0, 8⟩
def MCC_TIMING0_tRP (c : Nat) : FRef := ⟨MCC_TIMING0 c, 8, 8⟩
def MCC_TIMING0_tRPab (c : Nat) : FRef := ⟨MCC_TIMING0 c, 16, 8⟩
def MCC_TIMING0_tRAS (c : Nat) : FRef := ⟨MCC_TIMING0 c, 24, 8⟩
def MCC_TIMING1 (c : Nat) : Nat := 0x16100C + 0x400 * c
def MCC_TIMING1_tRC (c : Nat) : FRef := ⟨MCC_TIMING1 c, 0, 8⟩
def MCC_TIMING1_tRRD (c : Nat) : FRef := ⟨MCC_TIMING1 c, 8, 8⟩
def MCC_TIMING1_tFAW (c : Nat) : FRef := ⟨MCC_TIMING1 c, 16, 8⟩
def MCC_TIMING1_tRTP (c : Nat) : FRef := ⟨MCC_TIMING1 c, 24, 8⟩
def MCC_TIMING2 (c : Nat) : Nat := 0x161010 + 0x400 * c
def MCC_TIMING2_tWR (c : Nat) : FRef := ⟨MCC_TIMING2 c, 0, 8⟩
def MCC_TIMING2_tWTR (c : Nat) : FRef := ⟨MCC_TIMING2 c, 8, 8⟩
def MCC_TIMING2_tRTW (c : Nat) : FRef := ⟨MCC_TIMING2 c, 16, 8⟩
def MCC_TIMING2_tCCD (c : Nat) : FRef := ⟨MCC_TIMING2 c, 24, 8⟩
def MCC_TIMING3 (c : Nat) : Nat := 0x161014 + 0x400 * c
def MCC_TIMING3_tRFCab (c : Nat) : FRef := ⟨MCC_TIMING3 c, 0, 12⟩
def MCC_TIMING3_DERATE (c : Nat) : FRef := ⟨MCC_TIMING3 c, 12, 4⟩
def MCC_TIMING3_tXSR (c : Nat) : FRef := ⟨MCC_TIMING3 c, 16, 12⟩
def MCC_REFI (c : Nat) : Nat := 0x161018 + 0x400 * c
def MCC_REFI_tREFI (c : Nat) : FRef := ⟨MCC_REFI c, 0, 16⟩
def MCC_PAGE (c : Nat) : Nat := 0x16101C + 0x400 * c
def MCC_PAGE_PAGE_IDLE (c : Nat) : FRef := ⟨MCC_PAGE c, 0, 8⟩
def MCC_PAGE_HIT_CAP (c : Nat) : FRef := ⟨MCC_PAGE c, 8, 5⟩
def MCC_PAGE_WQ_HI (c : Nat) : FRef := ⟨MCC_PAGE c, 13, 6⟩
def MCC_PAGE_WQ_LO (c : Nat) : FRef := ⟨MCC_PAGE c, 19, 6⟩
def MCC_MRCMD (c : Nat) : Nat := 0x161020 + 0x400 * c
def MCC_MRCMD_OP (c : Nat) : FRef := ⟨MCC_MRCMD c, 0, 2⟩
def MCC_MRCMD_RANK (c : Nat) : FRef := ⟨MCC_MRCMD c, 2, 1⟩
def MCC_MRCMD_MA (c : Nat) : FRef := ⟨MCC_MRCMD c, 3, 7⟩
def MCC_MRCMD_DATA (c : Nat) : FRef := ⟨MCC_MRCMD c, 10, 8⟩
def MCC_MRCMD_START (c : Nat) : FRef := ⟨MCC_MRCMD c, 18, 1⟩
def MCC_MRCMD_DONE (c : Nat) : FRef := ⟨MCC_MRCMD c, 19, 1⟩
def MCC_MRDATA (c : Nat) : Nat := 0x161024 + 0x400 * c
def MCC_MRDATA_DATA (c : Nat) : FRef := ⟨MCC_MRDATA c, 0, 8⟩
def MCC_TRAIN_CTL (c : Nat) : Nat := 0x161028 + 0x400 * c
def MCC_TRAIN_CTL_MODE (c : Nat) : FRef := ⟨MCC_TRAIN_CTL c, 0, 2⟩
def MCC_TRAIN_CTL_PAT (c : Nat) : FRef := ⟨MCC_TRAIN_CTL c, 2, 2⟩
def MCC_TRAIN_CTL_RANK (c : Nat) : FRef := ⟨MCC_TRAIN_CTL c, 4, 1⟩
def MCC_TRAIN_CTL_START (c : Nat) : FRef := ⟨MCC_TRAIN_CTL c, 5, 1⟩
def MCC_TRAIN_CTL_DONE (c : Nat) : FRef := ⟨MCC_TRAIN_CTL c, 6, 1⟩
def MCC_TRAIN_CTL_BURSTS (c : Nat) : FRef := ⟨MCC_TRAIN_CTL c, 16, 16⟩
def MCC_TRAIN_PAT_LO (c : Nat) : Nat := 0x161030 + 0x400 * c
def MCC_TRAIN_PAT_LO_PAT (c : Nat) : FRef := ⟨MCC_TRAIN_PAT_LO c, 0, 32⟩
def MCC_TRAIN_PAT_HI (c : Nat) : Nat := 0x161034 + 0x400 * c
def MCC_TRAIN_PAT_HI_PAT (c : Nat) : FRef := ⟨MCC_TRAIN_PAT_HI c, 0, 32⟩
def MCC_TRAIN_ERR (c k : Nat) : Nat := 0x161040 + 0x400 * c + 0x4 * k
def MCC_TRAIN_ERR_ERRORS (c k : Nat) : FRef := ⟨MCC_TRAIN_ERR c k, 0, 16⟩
def MCC_DQ_DLY (c r k : Nat) : Nat := 0x161100 + 0x400 * c + 0x100 * r + 0x4 * k
def MCC_DQ_DLY_WDLY (c r k : Nat) : FRef := ⟨MCC_DQ_DLY c r k, 0, 8⟩
def MCC_DQ_DLY_RDLY (c r k : Nat) : FRef := ⟨MCC_DQ_DLY c r k, 8, 8⟩
def MCC_CA_DLY (c r k : Nat) : Nat := 0x161148 + 0x400 * c + 0x100 * r + 0x4 * k
def MCC_CA_DLY_DLY (c r k : Nat) : FRef := ⟨MCC_CA_DLY c r k, 0, 8⟩
def MCC_RX_VREF (c r : Nat) : Nat := 0x161170 + 0x400 * c + 0x100 * r
def MCC_RX_VREF_VREF (c r : Nat) : FRef := ⟨MCC_RX_VREF c r, 0, 7⟩
def MCC_MIT_CNT (c : Nat) : Nat := 0x161300 + 0x400 * c
def MCC_MIT_CNT_COUNT (c : Nat) : FRef := ⟨MCC_MIT_CNT c, 0, 32⟩
def MCC_FAILCFG (c : Nat) : Nat := 0x161304 + 0x400 * c
def MCC_FAILCFG_UE_LIMIT (c : Nat) : FRef := ⟨MCC_FAILCFG c, 0, 8⟩
def MCC_FORCED (c : Nat) : Nat := 0x161308 + 0x400 * c
def MCC_FORCED_COUNT (c : Nat) : FRef := ⟨MCC_FORCED c, 0, 32⟩
/-! ### INTEG block (17_memory_integrity.md) -/

def INTEG_CFG : Nat := 0x180000
def INTEG_CFG_RECUR_N : FRef := ⟨INTEG_CFG, 0, 3⟩
def INTEG_STAT : Nat := 0x180004
def INTEG_STAT_VALID : FRef := ⟨INTEG_STAT, 0, 7⟩
def INTEG_STAT_LOG_CLR : FRef := ⟨INTEG_STAT, 7, 1⟩
def INTEG_STAT_LOST : FRef := ⟨INTEG_STAT, 16, 16⟩
def INTEG_LAST_UE_LO : Nat := 0x180008
def INTEG_LAST_UE_LO_ADDR : FRef := ⟨INTEG_LAST_UE_LO, 0, 32⟩
def INTEG_LAST_UE_HI : Nat := 0x18000C
def INTEG_LAST_UE_HI_ADDR : FRef := ⟨INTEG_LAST_UE_HI, 0, 32⟩
def INTEG_LAST_UE_INFO : Nat := 0x180010
def INTEG_LAST_UE_INFO_CHANNEL : FRef := ⟨INTEG_LAST_UE_INFO, 0, 3⟩
def INTEG_LAST_UE_INFO_PORT : FRef := ⟨INTEG_LAST_UE_INFO, 3, 4⟩
def INTEG_LAST_UE_INFO_SCRUB : FRef := ⟨INTEG_LAST_UE_INFO, 7, 1⟩
def INTEG_LAST_UE_INFO_SYNDROME : FRef := ⟨INTEG_LAST_UE_INFO, 8, 8⟩
def INTEG_SRAM_PERR : Nat := 0x180014
def INTEG_SRAM_PERR_SRAM : FRef := ⟨INTEG_SRAM_PERR, 0, 16⟩
def SCRUB_CTL (c : Nat) : Nat := 0x180100 + 0x20 * c
def SCRUB_CTL_EN (c : Nat) : FRef := ⟨SCRUB_CTL c, 0, 1⟩
def SCRUB_CTL_RATE (c : Nat) : FRef := ⟨SCRUB_CTL c, 2, 11⟩
def SCRUB_POS (c : Nat) : Nat := 0x180104 + 0x20 * c
def SCRUB_POS_LINE (c : Nat) : FRef := ⟨SCRUB_POS c, 0, 32⟩
def SCRUB_PASSES (c : Nat) : Nat := 0x180108 + 0x20 * c
def SCRUB_PASSES_COUNT (c : Nat) : FRef := ⟨SCRUB_PASSES c, 0, 32⟩
def SCRUB_CE (c : Nat) : Nat := 0x18010C + 0x20 * c
def SCRUB_CE_COUNT (c : Nat) : FRef := ⟨SCRUB_CE c, 0, 32⟩
def SCRUB_UE (c : Nat) : Nat := 0x180110 + 0x20 * c
def SCRUB_UE_COUNT (c : Nat) : FRef := ⟨SCRUB_UE c, 0, 32⟩
def SCRUB_POISON_SEEN (c : Nat) : Nat := 0x180114 + 0x20 * c
def SCRUB_POISON_SEEN_COUNT (c : Nat) : FRef := ⟨SCRUB_POISON_SEEN c, 0, 32⟩
def INJ_CTL : Nat := 0x180200
def INJ_CTL_KIND : FRef := ⟨INJ_CTL, 0, 2⟩
def INJ_CTL_WORD : FRef := ⟨INJ_CTL, 2, 3⟩
def INJ_CTL_BIT0 : FRef := ⟨INJ_CTL, 5, 7⟩
def INJ_CTL_BIT1 : FRef := ⟨INJ_CTL, 12, 7⟩
def INJ_CTL_ARM : FRef := ⟨INJ_CTL, 19, 1⟩
def INJ_CTL_ARMED : FRef := ⟨INJ_CTL, 20, 1⟩
def INJ_ADDR_LO : Nat := 0x180204
def INJ_ADDR_LO_ADDR : FRef := ⟨INJ_ADDR_LO, 0, 32⟩
def INJ_ADDR_HI : Nat := 0x180208
def INJ_ADDR_HI_ADDR : FRef := ⟨INJ_ADDR_HI, 0, 32⟩
def SRAM_INJ : Nat := 0x180210
def SRAM_INJ_SRAM : FRef := ⟨SRAM_INJ, 0, 4⟩
def SRAM_INJ_ARM : FRef := ⟨SRAM_INJ, 4, 1⟩
def SRAM_INJ_ARMED : FRef := ⟨SRAM_INJ, 5, 1⟩
def INTEG_LOG (e w : Nat) : Nat := 0x180400 + 0x20 * e + 0x4 * w
def INTEG_LOG_WORD (e w : Nat) : FRef := ⟨INTEG_LOG e w, 0, 32⟩
/-! ### THERM block (20_thermal_power_and_the_job_arbiter.md) -/

def THERM_SITE (k : Nat) : Nat := 0x1A0000 + 0x4 * k
def THERM_SITE_TEMP (k : Nat) : FRef := ⟨THERM_SITE k, 0, 16⟩
def THERM_SITE_FAULT (k : Nat) : FRef := ⟨THERM_SITE k, 16, 1⟩
def THERM_TILE : Nat := 0x1A0060
def THERM_TILE_MAX : FRef := ⟨THERM_TILE, 0, 16⟩
def THERM_TILE_SITE : FRef := ⟨THERM_TILE, 16, 5⟩
def THERM_CFG : Nat := 0x1A0064
def THERM_CFG_WARN : FRef := ⟨THERM_CFG, 0, 16⟩
def THERM_CFG_THROTTLE : FRef := ⟨THERM_CFG, 16, 16⟩
def THERM_CRIT : Nat := 0x1A0068
def THERM_CRIT_CRIT : FRef := ⟨THERM_CRIT, 0, 16⟩
def THERM_STAT : Nat := 0x1A006C
def THERM_STAT_WARN : FRef := ⟨THERM_STAT, 0, 1⟩
def THERM_STAT_THROTTLE : FRef := ⟨THERM_STAT, 1, 1⟩
def THERM_STAT_DRAM_HOT : FRef := ⟨THERM_STAT, 2, 1⟩
def THERM_STAT_FAILED_SITES : FRef := ⟨THERM_STAT, 8, 5⟩
def PWR_ISL (i : Nat) : Nat := 0x1A0080 + 0x4 * i
def PWR_ISL_MW (i : Nat) : FRef := ⟨PWR_ISL i, 0, 16⟩
def PWR_TILE : Nat := 0x1A00A0
def PWR_TILE_MW : FRef := ⟨PWR_TILE, 0, 16⟩
def PWR_TRIM : Nat := 0x1A00A4
def PWR_TRIM_TRIM : FRef := ⟨PWR_TRIM, 0, 16⟩
def PWR_TRIM_VALID : FRef := ⟨PWR_TRIM, 16, 1⟩
def PLIM_STAT : Nat := 0x1A0100
def PLIM_STAT_PLIM : FRef := ⟨PLIM_STAT, 0, 5⟩
def PLIM_STAT_THERMAL : FRef := ⟨PLIM_STAT, 5, 5⟩
def PLIM_STAT_LIMITED : FRef := ⟨PLIM_STAT, 10, 1⟩
def PLIM_STAT_RT_SHORT : FRef := ⟨PLIM_STAT, 11, 1⟩
def PLIM_HOST : Nat := 0x1A0104
def PLIM_HOST_HOST_CAP : FRef := ⟨PLIM_HOST, 0, 5⟩
def PKG_PWR : Nat := 0x1A0108
def PKG_PWR_MW : FRef := ⟨PKG_PWR, 0, 32⟩
def PKG_LIMIT : Nat := 0x1A010C
def PKG_LIMIT_MW : FRef := ⟨PKG_LIMIT, 0, 32⟩
def HEADROOM : Nat := 0x1A0110
def HEADROOM_MW : FRef := ⟨HEADROOM, 0, 32⟩
def RT_FLOOR : Nat := 0x1A0114
def RT_FLOOR_MW : FRef := ⟨RT_FLOOR, 0, 32⟩
def PKG_TEMP : Nat := 0x1A0118
def PKG_TEMP_MAX : FRef := ⟨PKG_TEMP, 0, 16⟩
def PKG_TEMP_TILE : FRef := ⟨PKG_TEMP, 16, 3⟩
def PKG_TEMP_SITE : FRef := ⟨PKG_TEMP, 19, 5⟩
def JOB_COST (j : Nat) : Nat := 0x1A0140 + 0x4 * j
def JOB_COST_MW (j : Nat) : FRef := ⟨JOB_COST j, 0, 16⟩
def JOB_CFG : Nat := 0x1A0160
def JOB_CFG_AGE_MAX : FRef := ⟨JOB_CFG, 0, 16⟩
def JOB_CFG_HYST : FRef := ⟨JOB_CFG, 16, 16⟩
def JOB_STAT : Nat := 0x1A0164
def JOB_STAT_WAITING : FRef := ⟨JOB_STAT, 0, 7⟩
def JOB_STAT_RUNNING : FRef := ⟨JOB_STAT, 7, 7⟩
def JOB_STAT_PAUSED : FRef := ⟨JOB_STAT, 14, 7⟩
def JOB_STAT_QFULL : FRef := ⟨JOB_STAT, 21, 1⟩
def JOB_NEG : Nat := 0x1A0168
def JOB_NEG_TIME : FRef := ⟨JOB_NEG, 0, 16⟩
def PMB_CFG : Nat := 0x1A0180
def PMB_CFG_EN : FRef := ⟨PMB_CFG, 0, 1⟩
def PMB_CFG_SPEED : FRef := ⟨PMB_CFG, 1, 1⟩
def PMB_CFG_PEC : FRef := ⟨PMB_CFG, 2, 1⟩
def PMB_CFG_POLL : FRef := ⟨PMB_CFG, 8, 8⟩
def PMB_DEV (r : Nat) : Nat := 0x1A0184 + 0x4 * r
def PMB_DEV_ADDR (r : Nat) : FRef := ⟨PMB_DEV r, 0, 7⟩
def PMB_DEV_EN (r : Nat) : FRef := ⟨PMB_DEV r, 7, 1⟩
def PMB_DEV_PAGE (r : Nat) : FRef := ⟨PMB_DEV r, 8, 8⟩
def PMB_DEV_TILES (r : Nat) : FRef := ⟨PMB_DEV r, 16, 8⟩
def PMB_DEV_RAIL (r : Nat) : FRef := ⟨PMB_DEV r, 24, 4⟩
def PMB_DEV_FAULT_EN (r : Nat) : FRef := ⟨PMB_DEV r, 28, 1⟩
def PMB_DEV_TRIM (r : Nat) : FRef := ⟨PMB_DEV r, 29, 1⟩
def PMB_POW (r : Nat) : Nat := 0x1A01A4 + 0x4 * r
def PMB_POW_MW (r : Nat) : FRef := ⟨PMB_POW r, 0, 16⟩
def PMB_POW_STATUS (r : Nat) : FRef := ⟨PMB_POW r, 16, 16⟩
def PMB_STAT : Nat := 0x1A01C4
def PMB_STAT_NACK : FRef := ⟨PMB_STAT, 0, 8⟩
def PMB_STAT_WARN : FRef := ⟨PMB_STAT, 8, 8⟩
def THERM_SHDN : Nat := 0x1A01D0
def THERM_SHDN_ARM : FRef := ⟨THERM_SHDN, 0, 1⟩
def THERM_SHDN_FIRE : FRef := ⟨THERM_SHDN, 1, 1⟩
/-! ### CREW block (02_benches_crews_and_transactions.md) -/

def CREW_STAT (c : Nat) : Nat := 0x1C0000 + 0x40 * c
def CREW_STAT_STATE (c : Nat) : FRef := ⟨CREW_STAT c, 0, 3⟩
def CREW_STAT_PRIV (c : Nat) : FRef := ⟨CREW_STAT c, 3, 1⟩
def CREW_STAT_CAUSE (c : Nat) : FRef := ⟨CREW_STAT c, 4, 4⟩
def CREW_PC (c : Nat) : Nat := 0x1C0004 + 0x40 * c
def CREW_PC_PC (c : Nat) : FRef := ⟨CREW_PC c, 0, 32⟩
def CREW_PEND_LO (c : Nat) : Nat := 0x1C0008 + 0x40 * c
def CREW_PEND_LO_PEND (c : Nat) : FRef := ⟨CREW_PEND_LO c, 0, 32⟩
def CREW_PEND_HI (c : Nat) : Nat := 0x1C000C + 0x40 * c
def CREW_PEND_HI_PEND (c : Nat) : FRef := ⟨CREW_PEND_HI c, 0, 32⟩
def CREW_WDOG (c : Nat) : Nat := 0x1C0010 + 0x40 * c
def CREW_WDOG_TIMEOUT (c : Nat) : FRef := ⟨CREW_WDOG c, 0, 24⟩
def CREW_GRANT (c : Nat) : Nat := 0x1C0014 + 0x40 * c
def CREW_GRANT_UNITS (c : Nat) : FRef := ⟨CREW_GRANT c, 0, 32⟩
def CREW_CTL (c : Nat) : Nat := 0x1C0018 + 0x40 * c
def CREW_CTL_AUTORESTART (c : Nat) : FRef := ⟨CREW_CTL c, 0, 1⟩
/-! ### BENCH block (02_benches_crews_and_transactions.md) -/

def EPOCH : Nat := 0x1E0000
def EPOCH_EPOCH : FRef := ⟨EPOCH, 0, 32⟩
def EPOCH_CTL : Nat := 0x1E0004
def EPOCH_CTL_ADVANCE : FRef := ⟨EPOCH_CTL, 0, 1⟩
def STALE_MASK : Nat := 0x1E0008
def STALE_MASK_STALE : FRef := ⟨STALE_MASK, 0, 32⟩
def ARMED_MASK : Nat := 0x1E000C
def ARMED_MASK_ARMED : FRef := ⟨ARMED_MASK, 0, 32⟩
def OWNED_MASK : Nat := 0x1E0010
def OWNED_MASK_OWNED : FRef := ⟨OWNED_MASK, 0, 32⟩
def TXN_GUARD : Nat := 0x1E0014
def TXN_GUARD_GUARD : FRef := ⟨TXN_GUARD, 0, 16⟩
def TXN_GUARD_IMM_TIMEOUT : FRef := ⟨TXN_GUARD, 16, 16⟩
def UNIT_CTL (u : Nat) : Nat := 0x1E0100 + 0x20 * u
def UNIT_CTL_KIND (u : Nat) : FRef := ⟨UNIT_CTL u, 0, 3⟩
def UNIT_CTL_SEL (u : Nat) : FRef := ⟨UNIT_CTL u, 3, 5⟩
def UNIT_CTL_ARM (u : Nat) : FRef := ⟨UNIT_CTL u, 8, 1⟩
def UNIT_CTL_DISARM (u : Nat) : FRef := ⟨UNIT_CTL u, 9, 1⟩
def UNIT_SEQ (u : Nat) : Nat := 0x1E0104 + 0x20 * u
def UNIT_SEQ_SEQ (u : Nat) : FRef := ⟨UNIT_SEQ u, 0, 32⟩
def UNIT_GEN (u : Nat) : Nat := 0x1E0108 + 0x20 * u
def UNIT_GEN_GEN (u : Nat) : FRef := ⟨UNIT_GEN u, 0, 16⟩
def UNIT_GEN_WRITTEN_ALL (u : Nat) : FRef := ⟨UNIT_GEN u, 16, 1⟩
def UNIT_GEN_ARMED (u : Nat) : FRef := ⟨UNIT_GEN u, 17, 1⟩
def UNIT_GEN_OWNED (u : Nat) : FRef := ⟨UNIT_GEN u, 18, 1⟩
def UNIT_GEN_TXN (u : Nat) : FRef := ⟨UNIT_GEN u, 19, 4⟩
def UNIT_INFO (u : Nat) : Nat := 0x1E010C + 0x20 * u
def UNIT_INFO_WORDS (u : Nat) : FRef := ⟨UNIT_INFO u, 0, 12⟩
def UNIT_LASTSEQ (u : Nat) : Nat := 0x1E0110 + 0x20 * u
def UNIT_LASTSEQ_SEQ (u : Nat) : FRef := ⟨UNIT_LASTSEQ u, 0, 32⟩
def UNIT_EPOCH (u : Nat) : Nat := 0x1E0114 + 0x20 * u
def UNIT_EPOCH_EPOCH (u : Nat) : FRef := ⟨UNIT_EPOCH u, 0, 32⟩
def TXN_STATE (t : Nat) : Nat := 0x1E0800 + 0x20 * t
def TXN_STATE_STATE (t : Nat) : FRef := ⟨TXN_STATE t, 0, 3⟩
def TXN_STATE_HOST (t : Nat) : FRef := ⟨TXN_STATE t, 3, 1⟩
def TXN_STATE_OWNER_TILE (t : Nat) : FRef := ⟨TXN_STATE t, 4, 3⟩
def TXN_STATE_OWNER_CREW (t : Nat) : FRef := ⟨TXN_STATE t, 7, 3⟩
def TXN_STATE_RESULT (t : Nat) : FRef := ⟨TXN_STATE t, 10, 4⟩
def TXN_SIZE (t : Nat) : Nat := 0x1E0804 + 0x20 * t
def TXN_SIZE_UNITS (t : Nat) : FRef := ⟨TXN_SIZE t, 0, 8⟩
def TXN_SIZE_WORDS (t : Nat) : FRef := ⟨TXN_SIZE t, 8, 15⟩
def TXN_MASKS (t : Nat) : Nat := 0x1E0808 + 0x20 * t
def TXN_MASKS_PART (t : Nat) : FRef := ⟨TXN_MASKS t, 0, 8⟩
def TXN_MASKS_LATE (t : Nat) : FRef := ⟨TXN_MASKS t, 8, 8⟩
def TXN_MASKS_FAILED (t : Nat) : FRef := ⟨TXN_MASKS t, 16, 8⟩
def TXN_MASKS_SWAPPED (t : Nat) : FRef := ⟨TXN_MASKS t, 24, 8⟩
def TXN_POINT (t : Nat) : Nat := 0x1E080C + 0x20 * t
def TXN_POINT_KIND (t : Nat) : FRef := ⟨TXN_POINT t, 0, 3⟩
def TXN_POINT_SEL (t : Nat) : FRef := ⟨TXN_POINT t, 3, 5⟩
def TXN_SEQ (t : Nat) : Nat := 0x1E0810 + 0x20 * t
def TXN_SEQ_SEQ (t : Nat) : FRef := ⟨TXN_SEQ t, 0, 32⟩
def TXN_EPOCH (t : Nat) : Nat := 0x1E0814 + 0x20 * t
def TXN_EPOCH_EPOCH (t : Nat) : FRef := ⟨TXN_EPOCH t, 0, 32⟩
/-! ### SEAM block (14_packet_link.md) -/

def SEAM_PORT_STAT (p : Nat) : Nat := 0x200000 + 0x4 * p
def SEAM_PORT_STAT_UP (p : Nat) : FRef := ⟨SEAM_PORT_STAT p, 0, 1⟩
def SEAM_PORT_STAT_DOWN (p : Nat) : FRef := ⟨SEAM_PORT_STAT p, 1, 1⟩
def SEAM_PORT_STAT_REPLAYS (p : Nat) : FRef := ⟨SEAM_PORT_STAT p, 16, 16⟩
def SEAM_ROUTE : Nat := 0x200010
def SEAM_ROUTE_ROUTE : FRef := ⟨SEAM_ROUTE, 0, 32⟩
def SEAM_PORT_CTL (p : Nat) : Nat := 0x200020 + 0x4 * p
def SEAM_PORT_CTL_RESTART (p : Nat) : FRef := ⟨SEAM_PORT_CTL p, 0, 1⟩
def SEAM_HALO_LATE : Nat := 0x200030
def SEAM_HALO_LATE_COUNT : FRef := ⟨SEAM_HALO_LATE, 0, 32⟩
/-! ### POS block (18_position_feedback.md) -/

def PC_CTL (c : Nat) : Nat := 0x220000 + 0x400 * c
def PC_CTL_MODE (c : Nat) : FRef := ⟨PC_CTL c, 0, 2⟩
def PC_CTL_REV_DISCARD (c : Nat) : FRef := ⟨PC_CTL c, 2, 1⟩
def PC_CTL_REV_FLAG (c : Nat) : FRef := ⟨PC_CTL c, 3, 1⟩
def PC_CTL_IDX_EN (c : Nat) : FRef := ⟨PC_CTL c, 4, 1⟩
def PC_CTL_IDX_MODE (c : Nat) : FRef := ⟨PC_CTL c, 5, 1⟩
def PC_CTL_QFILT (c : Nat) : FRef := ⟨PC_CTL c, 8, 4⟩
def PC_OFS (c : Nat) : Nat := 0x220004 + 0x400 * c
def PC_OFS_OFS_SIN (c : Nat) : FRef := ⟨PC_OFS c, 0, 14⟩
def PC_OFS_OFS_COS (c : Nat) : FRef := ⟨PC_OFS c, 16, 14⟩
def PC_GAIN (c : Nat) : Nat := 0x220008 + 0x400 * c
def PC_GAIN_GAIN_COS (c : Nat) : FRef := ⟨PC_GAIN c, 0, 16⟩
def PC_AMP (c : Nat) : Nat := 0x22000C + 0x400 * c
def PC_AMP_AMP_LO (c : Nat) : FRef := ⟨PC_AMP c, 0, 15⟩
def PC_AMP_AMP_HI (c : Nat) : FRef := ⟨PC_AMP c, 16, 15⟩
def PC_WIRE (c : Nat) : Nat := 0x220010 + 0x400 * c
def PC_WIRE_WIN_LO (c : Nat) : FRef := ⟨PC_WIRE c, 0, 8⟩
def PC_WIRE_WIN_HI (c : Nat) : FRef := ⟨PC_WIRE c, 8, 8⟩
def PC_WIRE_WIRE_T (c : Nat) : FRef := ⟨PC_WIRE c, 16, 8⟩
def PC_WIRE_AMP_CNT (c : Nat) : FRef := ⟨PC_WIRE c, 24, 8⟩
def PC_POS_LO (c : Nat) : Nat := 0x220014 + 0x400 * c
def PC_POS_LO_POS (c : Nat) : FRef := ⟨PC_POS_LO c, 0, 32⟩
def PC_POS_HI (c : Nat) : Nat := 0x220018 + 0x400 * c
def PC_POS_HI_POS (c : Nat) : FRef := ⟨PC_POS_HI c, 0, 16⟩
def PC_STAT (c : Nat) : Nat := 0x22001C + 0x400 * c
def PC_STAT_DIR (c : Nat) : FRef := ⟨PC_STAT c, 0, 1⟩
def PC_STAT_STOPPED (c : Nat) : FRef := ⟨PC_STAT c, 1, 1⟩
def PC_STAT_METHOD (c : Nat) : FRef := ⟨PC_STAT c, 2, 1⟩
def PC_STAT_UNCERTAIN (c : Nat) : FRef := ⟨PC_STAT c, 3, 1⟩
def PC_STAT_HOMED (c : Nat) : FRef := ⟨PC_STAT c, 4, 1⟩
def PC_STAT_AMP_FAULT (c : Nat) : FRef := ⟨PC_STAT c, 5, 1⟩
def PC_STAT_SIN_W (c : Nat) : FRef := ⟨PC_STAT c, 6, 2⟩
def PC_STAT_COS_W (c : Nat) : FRef := ⟨PC_STAT c, 8, 2⟩
def PC_STAT_IDX_W (c : Nat) : FRef := ⟨PC_STAT c, 10, 2⟩
def PC_STAT_DIR_CHG (c : Nat) : FRef := ⟨PC_STAT c, 12, 1⟩
def PC_STAT_OVERSPEED (c : Nat) : FRef := ⟨PC_STAT c, 13, 1⟩
def PC_STAT_QUAD_ERR (c : Nat) : FRef := ⟨PC_STAT c, 14, 1⟩
def PC_STAT_INDEX_MISMATCH (c : Nat) : FRef := ⟨PC_STAT c, 15, 1⟩
def PC_SPD_LO (c : Nat) : Nat := 0x220020 + 0x400 * c
def PC_SPD_LO_SPEED (c : Nat) : FRef := ⟨PC_SPD_LO c, 0, 32⟩
def PC_SPD_HI (c : Nat) : Nat := 0x220024 + 0x400 * c
def PC_SPD_HI_SPEED (c : Nat) : FRef := ⟨PC_SPD_HI c, 0, 32⟩
def PC_SPDCFG (c : Nat) : Nat := 0x220028 + 0x400 * c
def PC_SPDCFG_EDGE_UNITS (c : Nat) : FRef := ⟨PC_SPDCFG c, 0, 13⟩
def PC_SPDCFG_WIN (c : Nat) : FRef := ⟨PC_SPDCFG c, 16, 10⟩
def PC_SPD_HI_T (c : Nat) : Nat := 0x22002C + 0x400 * c
def PC_SPD_HI_T_SPD_HI (c : Nat) : FRef := ⟨PC_SPD_HI_T c, 0, 32⟩
def PC_SPD_LO_T (c : Nat) : Nat := 0x220030 + 0x400 * c
def PC_SPD_LO_T_SPD_LO (c : Nat) : FRef := ⟨PC_SPD_LO_T c, 0, 32⟩
def PC_PER_MAX (c : Nat) : Nat := 0x220034 + 0x400 * c
def PC_PER_MAX_PER_MAX (c : Nat) : FRef := ⟨PC_PER_MAX c, 0, 16⟩
def PC_OVS (c : Nat) : Nat := 0x220038 + 0x400 * c
def PC_OVS_OVS_LIM (c : Nat) : FRef := ⟨PC_OVS c, 0, 11⟩
def PC_IDX_N (c : Nat) : Nat := 0x220040 + 0x400 * c
def PC_IDX_N_IDX_N (c : Nat) : FRef := ⟨PC_IDX_N c, 0, 32⟩
def PC_IDX_EXP (c : Nat) : Nat := 0x220044 + 0x400 * c
def PC_IDX_EXP_IDX_EXP (c : Nat) : FRef := ⟨PC_IDX_EXP c, 0, 32⟩
def PC_IDX_TOL (c : Nat) : Nat := 0x220048 + 0x400 * c
def PC_IDX_TOL_IDX_TOL (c : Nat) : FRef := ⟨PC_IDX_TOL c, 0, 16⟩
def PC_IDX_ACT (c : Nat) : Nat := 0x22004C + 0x400 * c
def PC_IDX_ACT_ACT (c : Nat) : FRef := ⟨PC_IDX_ACT c, 0, 32⟩
def PC_IDX_CNT (c : Nat) : Nat := 0x220050 + 0x400 * c
def PC_IDX_CNT_COUNT (c : Nat) : FRef := ⟨PC_IDX_CNT c, 0, 32⟩
def CMP_CTL (c k : Nat) : Nat := 0x220100 + 0x400 * c + 0x20 * k
def CMP_CTL_ARM (c k : Nat) : FRef := ⟨CMP_CTL c k, 0, 1⟩
def CMP_CTL_DISARM (c k : Nat) : FRef := ⟨CMP_CTL c k, 1, 1⟩
def CMP_CTL_ARMED (c k : Nat) : FRef := ⟨CMP_CTL c k, 2, 1⟩
def CMP_CTL_COND (c k : Nat) : FRef := ⟨CMP_CTL c k, 3, 2⟩
def CMP_CTL_ARM_IMMEDIATE (c k : Nat) : FRef := ⟨CMP_CTL c k, 5, 1⟩
def CMP_CTL_ACT_EVT (c k : Nat) : FRef := ⟨CMP_CTL c k, 6, 1⟩
def CMP_CTL_LINE (c k : Nat) : FRef := ⟨CMP_CTL c k, 7, 6⟩
def CMP_CTL_ACT_XTRIG (c k : Nat) : FRef := ⟨CMP_CTL c k, 13, 1⟩
def CMP_CTL_XTRIG (c k : Nat) : FRef := ⟨CMP_CTL c k, 14, 3⟩
def CMP_CTL_ACT_GEY (c k : Nat) : FRef := ⟨CMP_CTL c k, 17, 1⟩
def CMP_CTL_GEY (c k : Nat) : FRef := ⟨CMP_CTL c k, 18, 5⟩
def CMP_CTL_GTILE (c k : Nat) : FRef := ⟨CMP_CTL c k, 23, 3⟩
def CMP_CTL_ACT_CAP (c k : Nat) : FRef := ⟨CMP_CTL c k, 26, 1⟩
def CMP_CTL_CAP_CHAN (c k : Nat) : FRef := ⟨CMP_CTL c k, 27, 2⟩
def CMP_CTL_ACT_COMMIT (c k : Nat) : FRef := ⟨CMP_CTL c k, 29, 1⟩
def CMP_TGT_LO (c k : Nat) : Nat := 0x220104 + 0x400 * c + 0x20 * k
def CMP_TGT_LO_T (c k : Nat) : FRef := ⟨CMP_TGT_LO c k, 0, 32⟩
def CMP_TGT_HI (c k : Nat) : Nat := 0x220108 + 0x400 * c + 0x20 * k
def CMP_TGT_HI_T (c k : Nat) : FRef := ⟨CMP_TGT_HI c k, 0, 16⟩
def CMP_STEP (c k : Nat) : Nat := 0x22010C + 0x400 * c + 0x20 * k
def CMP_STEP_STEP (c k : Nat) : FRef := ⟨CMP_STEP c k, 0, 32⟩
def CMP_STAT (c k : Nat) : Nat := 0x220110 + 0x400 * c + 0x20 * k
def CMP_STAT_BEHIND (c k : Nat) : FRef := ⟨CMP_STAT c k, 0, 1⟩
def CMP_STAT_LATE (c k : Nat) : FRef := ⟨CMP_STAT c k, 1, 1⟩
def CMP_STAT_CAP_OVF (c k : Nat) : FRef := ⟨CMP_STAT c k, 2, 1⟩
def CMP_STAT_LEVEL (c k : Nat) : FRef := ⟨CMP_STAT c k, 3, 3⟩
def CMP_STAT_PULSE (c k : Nat) : FRef := ⟨CMP_STAT c k, 16, 16⟩
def CMP_COUNT (c k : Nat) : Nat := 0x220114 + 0x400 * c + 0x20 * k
def CMP_COUNT_COUNT (c k : Nat) : FRef := ⟨CMP_COUNT c k, 0, 32⟩
def CMP_CAP_LO (c k : Nat) : Nat := 0x220118 + 0x400 * c + 0x20 * k
def CMP_CAP_LO_N (c k : Nat) : FRef := ⟨CMP_CAP_LO c k, 0, 32⟩
def CMP_CAP_HI (c k : Nat) : Nat := 0x22011C + 0x400 * c + 0x20 * k
def CMP_CAP_HI_N (c k : Nat) : FRef := ⟨CMP_CAP_HI c k, 0, 32⟩
def LM_CFG (k : Nat) : Nat := 0x221000 + 0x20 * k
def LM_CFG_EN (k : Nat) : FRef := ⟨LM_CFG k, 0, 1⟩
def LM_CFG_TILE (k : Nat) : FRef := ⟨LM_CFG k, 1, 3⟩
def LM_CFG_SRC (k : Nat) : FRef := ⟨LM_CFG k, 4, 2⟩
def LM_CFG_TRIG_TILE (k : Nat) : FRef := ⟨LM_CFG k, 6, 3⟩
def LM_CFG_TRIG_OUT (k : Nat) : FRef := ⟨LM_CFG k, 9, 3⟩
def LM_LAG (k : Nat) : Nat := 0x221004 + 0x20 * k
def LM_LAG_LAG (k : Nat) : FRef := ⟨LM_LAG k, 0, 32⟩
def LM_BASE_LO (k : Nat) : Nat := 0x221008 + 0x20 * k
def LM_BASE_LO_BASE (k : Nat) : FRef := ⟨LM_BASE_LO k, 0, 32⟩
def LM_BASE_HI (k : Nat) : Nat := 0x22100C + 0x20 * k
def LM_BASE_HI_BASE (k : Nat) : FRef := ⟨LM_BASE_HI k, 0, 32⟩
def LM_NSLOT (k : Nat) : Nat := 0x221010 + 0x20 * k
def LM_NSLOT_NSLOT (k : Nat) : FRef := ⟨LM_NSLOT k, 0, 8⟩
def LM_NEXT (k : Nat) : Nat := 0x221014 + 0x20 * k
def LM_NEXT_NEXT (k : Nat) : FRef := ⟨LM_NEXT k, 0, 8⟩
def LM_FCNT (k : Nat) : Nat := 0x221018 + 0x20 * k
def LM_FCNT_FCNT (k : Nat) : FRef := ⟨LM_FCNT k, 0, 32⟩
/-! ### AUDIO block (19_pdm_audio.md) -/

def AUD_CTL : Nat := 0x230000
def AUD_CTL_STOP : FRef := ⟨AUD_CTL, 0, 1⟩
def AUD_CTL_PDM_RATE : FRef := ⟨AUD_CTL, 1, 1⟩
def AUD_CTL_FS : FRef := ⟨AUD_CTL, 2, 2⟩
def AUD_CTL_CHAN : FRef := ⟨AUD_CTL, 4, 2⟩
def AUD_CTL_WARM : FRef := ⟨AUD_CTL, 6, 8⟩
def AUD_CTL_ZC_TMO : FRef := ⟨AUD_CTL, 14, 8⟩
def AUD_STAT : Nat := 0x230004
def AUD_STAT_STATE : FRef := ⟨AUD_STAT, 0, 2⟩
def AUD_STAT_CFG_ERR : FRef := ⟨AUD_STAT, 2, 1⟩
def AUD_STAT_PEND : FRef := ⟨AUD_STAT, 3, 1⟩
def AUD_STAT_STARTS : FRef := ⟨AUD_STAT, 16, 16⟩
def AUD_MASK : Nat := 0x230008
def AUD_MASK_MASK : FRef := ⟨AUD_MASK, 0, 16⟩
def AUD_MASK_ACTIVE : FRef := ⟨AUD_MASK, 16, 16⟩
def AUD_TS_LO : Nat := 0x23000C
def AUD_TS_LO_N : FRef := ⟨AUD_TS_LO, 0, 32⟩
def AUD_TS_HI : Nat := 0x230010
def AUD_TS_HI_N : FRef := ⟨AUD_TS_HI, 0, 32⟩
def AUD_BLOCK : Nat := 0x230014
def AUD_BLOCK_K : FRef := ⟨AUD_BLOCK, 0, 32⟩
def AUD_BASE_LO (ch : Nat) : Nat := 0x230100 + 0x20 * ch
def AUD_BASE_LO_BASE (ch : Nat) : FRef := ⟨AUD_BASE_LO ch, 0, 32⟩
def AUD_BASE_HI (ch : Nat) : Nat := 0x230104 + 0x20 * ch
def AUD_BASE_HI_BASE (ch : Nat) : FRef := ⟨AUD_BASE_HI ch, 0, 32⟩
def AUD_NBLK (ch : Nat) : Nat := 0x230108 + 0x20 * ch
def AUD_NBLK_NBLK (ch : Nat) : FRef := ⟨AUD_NBLK ch, 0, 16⟩
def AUD_NEXT (ch : Nat) : Nat := 0x23010C + 0x20 * ch
def AUD_NEXT_NEXT (ch : Nat) : FRef := ⟨AUD_NEXT ch, 0, 16⟩
def AUD_CLIPS (ch : Nat) : Nat := 0x230110 + 0x20 * ch
def AUD_CLIPS_COUNT (ch : Nat) : FRef := ⟨AUD_CLIPS ch, 0, 32⟩
def AUD_LOST (ch : Nat) : Nat := 0x230114 + 0x20 * ch
def AUD_LOST_COUNT (ch : Nat) : FRef := ⟨AUD_LOST ch, 0, 32⟩
/-! ### SEC block (23_boot_and_security.md) -/

def SEC_STAT : Nat := 0x240000
def SEC_STAT_DEBUG_UNLOCKED : FRef := ⟨SEC_STAT, 0, 1⟩
def SEC_STAT_NONCE_VALID : FRef := ⟨SEC_STAT, 1, 1⟩
def SEC_STAT_UNLOCK_FAILS : FRef := ⟨SEC_STAT, 8, 8⟩
def SEC_PERMS : Nat := 0x240004
def SEC_PERMS_PERMS : FRef := ⟨SEC_PERMS, 0, 2⟩
def SEC_SERIAL (w : Nat) : Nat := 0x240008 + 0x4 * w
def SEC_SERIAL_SERIAL (w : Nat) : FRef := ⟨SEC_SERIAL w, 0, 32⟩
/-! ### BOOT block (23_boot_and_security.md) -/

def BOOT_STAT : Nat := 0x250000
def BOOT_STAT_STEP : FRef := ⟨BOOT_STAT, 0, 4⟩
def BOOT_STAT_BOOTSEL : FRef := ⟨BOOT_STAT, 4, 2⟩
def BOOT_STAT_SOURCE : FRef := ⟨BOOT_STAT, 6, 1⟩
def BOOT_STAT_SLOT : FRef := ⟨BOOT_STAT, 7, 1⟩
def BOOT_STAT_FALLBACK : FRef := ⟨BOOT_STAT, 8, 1⟩
def BOOT_STAT_STRAP_MFG : FRef := ⟨BOOT_STAT, 9, 1⟩
def BOOT_STAT_FAIL : FRef := ⟨BOOT_STAT, 16, 4⟩
def BOOT_ROMVER : Nat := 0x250004
def BOOT_ROMVER_VERSION : FRef := ⟨BOOT_ROMVER, 0, 32⟩
def BOOT_FWVER : Nat := 0x250008
def BOOT_FWVER_VERSION : FRef := ⟨BOOT_FWVER, 0, 32⟩
def BOOT_ROLLBACK : Nat := 0x25000C
def BOOT_ROLLBACK_COUNT : FRef := ⟨BOOT_ROLLBACK, 0, 7⟩
def BOOT_KEYSLOT : Nat := 0x250010
def BOOT_KEYSLOT_PROGRAMMED : FRef := ⟨BOOT_KEYSLOT, 0, 4⟩
def BOOT_KEYSLOT_REVOKED : FRef := ⟨BOOT_KEYSLOT, 4, 4⟩
def BOOT_LIFECYCLE : Nat := 0x250014
def BOOT_LIFECYCLE_STATE : FRef := ⟨BOOT_LIFECYCLE, 0, 2⟩
def BOOT_HOSTRATE : Nat := 0x250018
def BOOT_HOSTRATE_RATE : FRef := ⟨BOOT_HOSTRATE, 0, 4⟩
def BOOT_TILE_AUTH (t : Nat) : Nat := 0x250020 + 0x4 * t
def BOOT_TILE_AUTH_STATE (t : Nat) : FRef := ⟨BOOT_TILE_AUTH t, 0, 2⟩
def BOOT_TILE_AUTH_ATTEMPTS (t : Nat) : FRef := ⟨BOOT_TILE_AUTH t, 2, 2⟩
def BOOT_TILE_AUTH_VCORE (t : Nat) : FRef := ⟨BOOT_TILE_AUTH t, 4, 1⟩
def BOOT_FUSE (w : Nat) : Nat := 0x250080 + 0x4 * w
def BOOT_FUSE_FUSE (w : Nat) : FRef := ⟨BOOT_FUSE w, 0, 32⟩

/-- Registers of the TILE block, part 0. -/
def regsTILE0 : List RegDef := [
  ⟨0x0, [], false, [⟨0, 3, .ro, 0, .any⟩, ⟨3, 1, .ro, 0, .any⟩, ⟨4, 4, .ro, 0, .any⟩, ⟨8, 8, .ro, 161, .any⟩]⟩,
  ⟨0x4, [], false, [⟨0, 2, .ro, 0, .any⟩]⟩,
  ⟨0x10, [], false, [⟨0, 8, .rw, 0, .any⟩]⟩,
  ⟨0x14, [], false, [⟨0, 8, .ro, 0, .any⟩, ⟨8, 8, .ro, 0, .any⟩]⟩,
  ⟨0x18, [], false, [⟨0, 16, .w1c, 0, .any⟩]⟩,
  ⟨0x20, [(0x4, 4)], false, [⟨0, 16, .rwb, 0, .any⟩, ⟨16, 14, .rwb, 0, .any⟩, ⟨30, 1, .rwb, 0, .any⟩, ⟨31, 1, .rwb, 0, .any⟩]⟩,
  ⟨0x40, [], false, [⟨0, 32, .w1s, 0, .any⟩]⟩,
  ⟨0x44, [], false, [⟨0, 32, .ro, 0, .any⟩]⟩]

def regsTILE : List RegDef := regsTILE0

/-- Registers of the EVT block, part 0. -/
def regsEVT0 : List RegDef := [
  ⟨0x10000, [(0x4, 10)], false, [⟨0, 32, .w1c, 0, .any⟩]⟩,
  ⟨0x10040, [(0x4, 10)], false, [⟨0, 32, .rw, 4294967295, .any⟩]⟩,
  ⟨0x10080, [(0x4, 10)], false, [⟨0, 32, .w1s, 0, .any⟩]⟩,
  ⟨0x10100, [], false, [⟨0, 10, .ro, 0, .any⟩]⟩,
  ⟨0x10400, [(0x4, 320)], false, [⟨0, 2, .rw, 0, .any⟩, ⟨2, 1, .rw, 0, .any⟩, ⟨3, 6, .rw, 0, .le 39⟩, ⟨9, 1, .rw, 0, .any⟩, ⟨10, 1, .rw, 0, .any⟩, ⟨11, 1, .rw, 0, .any⟩, ⟨12, 1, .rw, 0, .any⟩]⟩,
  ⟨0x10A00, [(0x4, 320)], false, [⟨0, 8, .ro, 0, .any⟩, ⟨8, 1, .ro, 0, .any⟩, ⟨9, 1, .w1s, 0, .any⟩]⟩]

def regsEVT : List RegDef := regsEVT0

/-- Registers of the SPOIL block, part 0. -/
def regsSPOIL0 : List RegDef := [
  ⟨0x20000, [], false, [⟨0, 16, .rw, 100, .any⟩]⟩,
  ⟨0x20004, [], false, [⟨0, 9, .ro, 0, .any⟩, ⟨9, 3, .ro, 0, .any⟩, ⟨12, 2, .ro, 0, .any⟩, ⟨14, 1, .ro, 0, .any⟩, ⟨15, 1, .ro, 0, .any⟩, ⟨16, 1, .w1s, 0, .any⟩]⟩,
  ⟨0x20008, [], false, [⟨0, 32, .ro, 0, .any⟩]⟩,
  ⟨0x2000C, [], false, [⟨0, 32, .ro, 0, .any⟩]⟩,
  ⟨0x20010, [], false, [⟨0, 32, .ro, 0, .any⟩]⟩,
  ⟨0x20014, [], false, [⟨0, 32, .ro, 0, .any⟩]⟩,
  ⟨0x20018, [], false, [⟨0, 9, .ro, 0, .any⟩]⟩,
  ⟨0x20020, [], true, [⟨0, 8, .w1s, 0, .any⟩, ⟨8, 8, .w1s, 0, .any⟩]⟩,
  ⟨0x20024, [], true, [⟨0, 8, .ro, 0, .any⟩, ⟨8, 8, .ro, 0, .any⟩, ⟨16, 8, .ro, 0, .any⟩, ⟨24, 8, .w1c, 0, .any⟩]⟩,
  ⟨0x20028, [(0x4, 8)], true, [⟨0, 9, .ro, 0, .any⟩, ⟨9, 3, .ro, 0, .any⟩, ⟨12, 1, .ro, 0, .any⟩]⟩,
  ⟨0x21000, [(0x10, 320), (0x4, 4)], false, [⟨0, 9, .rw, 0, .le 319⟩, ⟨9, 5, .rw, 0, .any⟩, ⟨14, 2, .rw, 0, .le 2⟩, ⟨16, 3, .rw, 0, .any⟩, ⟨19, 1, .rw, 0, .any⟩]⟩]

def regsSPOIL : List RegDef := regsSPOIL0

/-- Registers of the TIME block, part 0. -/
def regsTIME0 : List RegDef := [
  ⟨0x30000, [(0x40, 4)], false, [⟨0, 32, .ro, 0, .any⟩]⟩,
  ⟨0x30004, [(0x40, 4)], false, [⟨0, 30, .ro, 0, .any⟩]⟩,
  ⟨0x30008, [(0x40, 4)], false, [⟨0, 32, .ro, 0, .any⟩]⟩,
  ⟨0x3000C, [(0x40, 4)], false, [⟨0, 16, .ro, 0, .any⟩]⟩,
  ⟨0x30010, [(0x40, 4)], false, [⟨0, 32, .rw, 1073741824, .any⟩]⟩,
  ⟨0x30014, [(0x40, 4)], false, [⟨0, 4, .rw, 1, .any⟩]⟩,
  ⟨0x30018, [(0x40, 4)], false, [⟨0, 32, .rw, 1073741824, .any⟩]⟩,
  ⟨0x3001C, [(0x40, 4)], false, [⟨0, 4, .rw, 1, .any⟩]⟩,
  ⟨0x30020, [(0x40, 4)], false, [⟨0, 1, .rw, 0, .any⟩, ⟨1, 3, .rw, 0, .le 6⟩, ⟨8, 6, .rw, 31, .any⟩, ⟨16, 6, .rw, 34, .any⟩]⟩,
  ⟨0x30024, [(0x40, 4)], false, [⟨0, 24, .rw, 5368709, .any⟩]⟩,
  ⟨0x30028, [(0x40, 4)], false, [⟨0, 32, .wo, 0, .any⟩]⟩,
  ⟨0x3002C, [(0x40, 4)], false, [⟨0, 32, .wo, 0, .any⟩]⟩]

/-- Registers of the TIME block, part 1. -/
def regsTIME1 : List RegDef := [
  ⟨0x30030, [(0x40, 4)], false, [⟨0, 32, .rw, 0, .any⟩]⟩,
  ⟨0x30034, [(0x40, 4)], false, [⟨0, 1, .ro, 0, .any⟩, ⟨1, 1, .ro, 0, .any⟩, ⟨2, 1, .ro, 0, .any⟩, ⟨3, 1, .w1c, 0, .any⟩, ⟨4, 1, .w1c, 0, .any⟩, ⟨5, 1, .ro, 0, .any⟩]⟩,
  ⟨0x30038, [(0x40, 4)], false, [⟨0, 32, .rw, 0, .any⟩]⟩,
  ⟨0x3003C, [(0x40, 4)], false, [⟨0, 32, .rw, 0, .any⟩]⟩,
  ⟨0x30100, [], false, [⟨0, 32, .rw, 1000000, .any⟩]⟩,
  ⟨0x30104, [], false, [⟨0, 32, .rw, 1000, .any⟩]⟩,
  ⟨0x30108, [], false, [⟨0, 12, .rw, 0, .any⟩, ⟨12, 2, .ro, 0, .any⟩, ⟨16, 8, .ro, 0, .any⟩]⟩,
  ⟨0x3010C, [], false, [⟨0, 1, .w1s, 0, .any⟩, ⟨1, 1, .ro, 0, .any⟩, ⟨16, 12, .ro, 0, .any⟩]⟩,
  ⟨0x30110, [], false, [⟨0, 32, .ro, 419430400, .any⟩]⟩,
  ⟨0x30114, [], false, [⟨0, 1, .ro, 0, .any⟩, ⟨1, 1, .ro, 0, .any⟩, ⟨2, 1, .ro, 0, .any⟩, ⟨8, 8, .ro, 0, .any⟩, ⟨16, 1, .w1s, 0, .any⟩]⟩,
  ⟨0x30118, [], false, [⟨0, 16, .ro, 0, .any⟩]⟩,
  ⟨0x3011C, [], true, [⟨0, 16, .rw, 0, .any⟩, ⟨16, 16, .rw, 0, .any⟩]⟩]

/-- Registers of the TIME block, part 2. -/
def regsTIME2 : List RegDef := [
  ⟨0x30140, [], false, [⟨0, 32, .ro, 0, .any⟩]⟩,
  ⟨0x30144, [], false, [⟨0, 32, .ro, 0, .any⟩]⟩,
  ⟨0x30148, [], false, [⟨0, 32, .rw, 0, .any⟩]⟩,
  ⟨0x3014C, [], false, [⟨0, 32, .rw, 0, .any⟩]⟩,
  ⟨0x30150, [], false, [⟨0, 32, .rw, 0, .any⟩]⟩,
  ⟨0x30154, [], false, [⟨0, 32, .rw, 1073741824, .any⟩]⟩,
  ⟨0x30158, [], false, [⟨0, 32, .rw, 1, .any⟩]⟩,
  ⟨0x3015C, [], false, [⟨0, 1, .rw, 0, .any⟩]⟩,
  ⟨0x30160, [], false, [⟨0, 32, .ro, 0, .any⟩]⟩,
  ⟨0x30164, [], false, [⟨0, 32, .ro, 0, .any⟩]⟩,
  ⟨0x30180, [(0x20, 6)], true, [⟨0, 1, .rw, 0, .any⟩, ⟨1, 2, .rw, 0, .le 2⟩, ⟨3, 2, .rw, 0, .any⟩]⟩,
  ⟨0x30184, [(0x20, 6)], true, [⟨0, 32, .rw, 0, .any⟩]⟩]

/-- Registers of the TIME block, part 3. -/
def regsTIME3 : List RegDef := [
  ⟨0x30188, [(0x20, 6)], true, [⟨0, 32, .rw, 0, .any⟩]⟩,
  ⟨0x3018C, [(0x20, 6)], true, [⟨0, 3, .ro, 0, .any⟩, ⟨3, 1, .w1c, 0, .any⟩, ⟨4, 1, .ro, 0, .any⟩, ⟨5, 1, .ro, 0, .any⟩]⟩,
  ⟨0x30190, [(0x20, 6)], true, [⟨0, 32, .ro, 0, .any⟩]⟩,
  ⟨0x30194, [(0x20, 6)], true, [⟨0, 30, .ro, 0, .any⟩]⟩,
  ⟨0x30198, [(0x20, 6)], true, [⟨0, 32, .ro, 0, .any⟩]⟩,
  ⟨0x3019C, [(0x20, 6)], true, [⟨0, 16, .ro, 0, .any⟩]⟩,
  ⟨0x30400, [(0x40, 32)], false, [⟨0, 1, .w1s, 0, .any⟩, ⟨1, 1, .w1s, 0, .any⟩, ⟨2, 1, .ro, 0, .any⟩, ⟨3, 2, .rw, 0, .any⟩, ⟨5, 1, .rw, 0, .any⟩, ⟨6, 1, .rw, 0, .any⟩, ⟨7, 3, .rw, 0, .any⟩, ⟨10, 1, .rw, 0, .any⟩, ⟨11, 6, .rw, 0, .le 39⟩, ⟨17, 1, .rw, 0, .any⟩, ⟨18, 1, .rw, 0, .any⟩]⟩,
  ⟨0x30404, [(0x40, 32)], false, [⟨0, 32, .rw, 0, .any⟩]⟩,
  ⟨0x30408, [(0x40, 32)], false, [⟨0, 32, .rw, 0, .any⟩]⟩,
  ⟨0x3040C, [(0x40, 32)], false, [⟨0, 32, .rw, 0, .any⟩]⟩,
  ⟨0x30410, [(0x40, 32)], false, [⟨0, 32, .rw, 0, .any⟩]⟩,
  ⟨0x30414, [(0x40, 32)], false, [⟨0, 32, .rw, 0, .any⟩]⟩]

/-- Registers of the TIME block, part 4. -/
def regsTIME4 : List RegDef := [
  ⟨0x30418, [(0x40, 32)], false, [⟨0, 16, .rw, 8, .any⟩]⟩,
  ⟨0x3041C, [(0x40, 32)], false, [⟨0, 32, .ro, 0, .any⟩]⟩,
  ⟨0x30420, [(0x40, 32)], false, [⟨0, 1, .w1c, 0, .any⟩, ⟨1, 1, .w1c, 0, .any⟩, ⟨2, 1, .ro, 0, .any⟩, ⟨8, 8, .ro, 0, .any⟩]⟩]

def regsTIME : List RegDef := regsTIME0 ++ regsTIME1 ++ regsTIME2 ++ regsTIME3 ++ regsTIME4

/-- Registers of the LANE block, part 0. -/
def regsLANE0 : List RegDef := [
  ⟨0x40000, [(0x800, 24)], false, [⟨0, 1, .rw, 0, .any⟩, ⟨1, 2, .rw, 0, .any⟩, ⟨3, 1, .rw, 0, .any⟩, ⟨4, 1, .rw, 0, .any⟩, ⟨5, 1, .w1s, 0, .any⟩]⟩,
  ⟨0x40004, [(0x800, 24)], false, [⟨0, 24, .rw, 16000000, .range 1250000 16000000⟩, ⟨24, 3, .rw, 0, .le 4⟩]⟩,
  ⟨0x40008, [(0x800, 24)], false, [⟨0, 5, .rw, 0, .any⟩, ⟨5, 5, .rw, 8, .any⟩, ⟨10, 3, .rw, 5, .any⟩, ⟨16, 6, .ro, 56, .any⟩]⟩,
  ⟨0x4000C, [(0x800, 24)], false, [⟨0, 4, .rw, 8, .any⟩]⟩,
  ⟨0x40010, [(0x800, 24)], false, [⟨0, 7, .rw, 16, .range 4 64⟩, ⟨8, 13, .rw, 1024, .range 64 4096⟩]⟩,
  ⟨0x40014, [(0x800, 24)], false, [⟨0, 1, .ro, 0, .any⟩, ⟨1, 1, .ro, 0, .any⟩, ⟨2, 1, .ro, 0, .any⟩, ⟨3, 1, .ro, 0, .any⟩, ⟨4, 1, .ro, 0, .any⟩, ⟨5, 1, .ro, 0, .any⟩, ⟨8, 1, .w1c, 0, .any⟩, ⟨9, 1, .w1c, 0, .any⟩, ⟨10, 1, .w1c, 0, .any⟩, ⟨11, 1, .w1c, 0, .any⟩, ⟨16, 8, .ro, 0, .any⟩]⟩,
  ⟨0x40018, [(0x800, 24)], false, [⟨0, 32, .ro, 0, .any⟩]⟩,
  ⟨0x4001C, [(0x800, 24)], false, [⟨0, 5, .ro, 0, .any⟩]⟩,
  ⟨0x40020, [(0x800, 24)], false, [⟨0, 1, .w1s, 0, .any⟩, ⟨1, 1, .w1s, 0, .any⟩, ⟨2, 7, .rw, 0, .any⟩, ⟨9, 7, .rw, 0, .ne 64⟩, ⟨16, 6, .rw, 20, .range 20 40⟩]⟩,
  ⟨0x40024, [(0x800, 24)], false, [⟨0, 2, .ro, 0, .any⟩]⟩,
  ⟨0x40028, [(0x800, 24)], false, [⟨0, 32, .ro, 0, .any⟩]⟩,
  ⟨0x4002C, [(0x800, 24)], false, [⟨0, 8, .ro, 0, .any⟩]⟩]

/-- Registers of the LANE block, part 1. -/
def regsLANE1 : List RegDef := [
  ⟨0x40030, [(0x800, 24)], false, [⟨0, 2, .rw, 0, .le 2⟩, ⟨2, 2, .rw, 0, .le 2⟩, ⟨4, 1, .ro, 0, .any⟩, ⟨8, 24, .ro, 0, .any⟩]⟩]

def regsLANE : List RegDef := regsLANE0 ++ regsLANE1

/-- Registers of the ADIT block, part 0. -/
def regsADIT0 : List RegDef := [
  ⟨0x60000, [(0x100, 4)], false, [⟨0, 4, .rwb, 0, .any⟩, ⟨4, 3, .rwb, 0, .any⟩, ⟨7, 2, .rwb, 1, .any⟩, ⟨9, 3, .rwb, 2, .any⟩]⟩,
  ⟨0x60004, [(0x100, 4)], false, [⟨0, 16, .rwb, 0, .any⟩, ⟨16, 16, .rwb, 0, .any⟩]⟩,
  ⟨0x60008, [(0x100, 4)], false, [⟨0, 4, .rwb, 0, .any⟩, ⟨4, 8, .rwb, 0, .any⟩, ⟨12, 1, .rwb, 0, .any⟩, ⟨16, 8, .rwb, 0, .any⟩, ⟨24, 5, .rwb, 1, .any⟩]⟩,
  ⟨0x6000C, [(0x100, 4)], false, [⟨0, 16, .rwb, 0, .any⟩, ⟨16, 2, .rwb, 0, .any⟩]⟩,
  ⟨0x60010, [(0x100, 4)], false, [⟨0, 3, .rwb, 0, .any⟩, ⟨3, 1, .rwb, 0, .any⟩, ⟨4, 1, .rwb, 0, .any⟩, ⟨5, 7, .rwb, 0, .any⟩, ⟨12, 8, .rwb, 0, .any⟩, ⟨20, 3, .rwb, 0, .any⟩]⟩,
  ⟨0x60014, [(0x100, 4)], false, [⟨0, 16, .rwb, 0, .any⟩, ⟨16, 16, .rwb, 0, .any⟩]⟩,
  ⟨0x60018, [(0x100, 4)], false, [⟨0, 13, .rwb, 0, .any⟩, ⟨16, 4, .rwb, 1, .any⟩]⟩,
  ⟨0x6001C, [(0x100, 4)], false, [⟨0, 32, .rwb, 0, .any⟩]⟩,
  ⟨0x60020, [(0x100, 4)], false, [⟨0, 32, .rwb, 10000, .any⟩]⟩,
  ⟨0x60024, [(0x100, 4)], false, [⟨0, 32, .rwb, 1000, .any⟩]⟩,
  ⟨0x60028, [(0x100, 4)], false, [⟨0, 32, .rwb, 0, .any⟩]⟩,
  ⟨0x6002C, [(0x100, 4)], false, [⟨0, 32, .rwb, 0, .any⟩]⟩]

/-- Registers of the ADIT block, part 1. -/
def regsADIT1 : List RegDef := [
  ⟨0x60030, [(0x100, 4)], false, [⟨0, 17, .rwb, 0, .any⟩, ⟨24, 8, .rwb, 0, .any⟩]⟩,
  ⟨0x61000, [(0x100, 4)], false, [⟨0, 1, .rw, 0, .any⟩]⟩,
  ⟨0x61004, [(0x100, 4)], false, [⟨0, 2, .ro, 0, .any⟩, ⟨2, 1, .w1c, 0, .any⟩, ⟨16, 16, .ro, 0, .any⟩]⟩,
  ⟨0x61008, [(0x100, 4)], false, [⟨0, 13, .ro, 0, .any⟩]⟩,
  ⟨0x6100C, [(0x100, 4)], false, [⟨0, 8, .ro, 0, .any⟩]⟩,
  ⟨0x62000, [(0x40, 4)], false, [⟨0, 32, .ro, 0, .any⟩]⟩,
  ⟨0x62004, [(0x40, 4)], false, [⟨0, 32, .ro, 0, .any⟩]⟩,
  ⟨0x62008, [(0x40, 4)], false, [⟨0, 32, .ro, 0, .any⟩]⟩,
  ⟨0x6200C, [(0x40, 4)], false, [⟨0, 32, .ro, 0, .any⟩]⟩,
  ⟨0x62010, [(0x40, 4)], false, [⟨0, 16, .ro, 0, .any⟩, ⟨16, 16, .ro, 0, .any⟩]⟩,
  ⟨0x62014, [(0x40, 4)], false, [⟨0, 16, .ro, 0, .any⟩, ⟨16, 16, .ro, 0, .any⟩]⟩,
  ⟨0x62018, [(0x40, 4)], false, [⟨0, 8, .ro, 0, .any⟩, ⟨16, 16, .ro, 0, .any⟩]⟩]

/-- Registers of the ADIT block, part 2. -/
def regsADIT2 : List RegDef := [
  ⟨0x6201C, [(0x40, 4)], false, [⟨0, 16, .ro, 0, .any⟩, ⟨16, 16, .ro, 0, .any⟩]⟩,
  ⟨0x62020, [(0x40, 4)], false, [⟨0, 16, .ro, 0, .any⟩, ⟨16, 16, .ro, 0, .any⟩]⟩,
  ⟨0x63000, [(0x40, 4)], false, [⟨0, 8, .rw, 19, .any⟩, ⟨8, 2, .rw, 0, .any⟩, ⟨10, 1, .rw, 0, .any⟩]⟩,
  ⟨0x63004, [(0x40, 4)], false, [⟨0, 7, .rw, 1, .range 1 64⟩, ⟨7, 1, .rw, 0, .any⟩, ⟨8, 1, .w1s, 0, .any⟩]⟩,
  ⟨0x63008, [(0x40, 4)], false, [⟨0, 8, .rw, 0, .any⟩]⟩,
  ⟨0x6300C, [(0x40, 4)], false, [⟨0, 1, .ro, 0, .any⟩, ⟨1, 1, .w1c, 0, .any⟩]⟩,
  ⟨0x63010, [(0x40, 4)], false, [⟨0, 2, .rw, 1, .le 2⟩]⟩,
  ⟨0x63014, [(0x40, 4)], false, [⟨0, 7, .rw, 0, .any⟩, ⟨8, 7, .rw, 0, .le 64⟩, ⟨16, 7, .rw, 0, .le 64⟩, ⟨23, 1, .w1s, 0, .any⟩]⟩,
  ⟨0x63018, [(0x40, 4)], false, [⟨0, 8, .rw, 0, .any⟩]⟩,
  ⟨0x6301C, [(0x40, 4)], false, [⟨0, 1, .ro, 0, .any⟩, ⟨1, 1, .w1c, 0, .any⟩, ⟨2, 1, .w1c, 0, .any⟩, ⟨3, 1, .w1c, 0, .any⟩]⟩,
  ⟨0x64000, [(0x4, 8)], false, [⟨0, 1, .rw, 0, .any⟩, ⟨1, 1, .rw, 0, .any⟩, ⟨2, 1, .rw, 0, .any⟩, ⟨3, 1, .ro, 0, .any⟩]⟩]

def regsADIT : List RegDef := regsADIT0 ++ regsADIT1 ++ regsADIT2

/-- Registers of the RAWC block, part 0. -/
def regsRAWC0 : List RegDef := [
  ⟨0x80000, [(0x80, 4)], false, [⟨0, 1, .rwb, 0, .any⟩, ⟨1, 1, .rwb, 0, .any⟩, ⟨2, 1, .rwb, 0, .any⟩, ⟨3, 1, .rwb, 0, .any⟩, ⟨4, 4, .rwb, 0, .any⟩, ⟨8, 1, .rwb, 0, .any⟩, ⟨9, 1, .rwb, 0, .any⟩, ⟨10, 1, .rwb, 0, .any⟩, ⟨11, 1, .rwb, 0, .any⟩, ⟨12, 1, .rwb, 0, .any⟩, ⟨13, 2, .rwb, 0, .any⟩, ⟨15, 5, .rwb, 16, .any⟩, ⟨20, 1, .rwb, 0, .any⟩, ⟨21, 1, .rwb, 0, .any⟩]⟩,
  ⟨0x80004, [(0x80, 4)], false, [⟨0, 16, .rwb, 0, .any⟩, ⟨16, 16, .rwb, 0, .any⟩]⟩,
  ⟨0x80008, [(0x80, 4)], false, [⟨0, 16, .rwb, 0, .any⟩, ⟨16, 16, .rwb, 0, .any⟩]⟩,
  ⟨0x8000C, [(0x80, 4)], false, [⟨0, 20, .rwb, 0, .any⟩]⟩,
  ⟨0x80010, [(0x80, 4)], false, [⟨0, 16, .rwb, 0, .any⟩, ⟨16, 9, .rwb, 0, .any⟩]⟩,
  ⟨0x80014, [(0x80, 4)], false, [⟨0, 16, .rwb, 0, .any⟩, ⟨16, 9, .rwb, 0, .any⟩]⟩,
  ⟨0x80018, [(0x80, 4)], false, [⟨0, 20, .rwb, 0, .any⟩, ⟨20, 8, .rwb, 0, .any⟩]⟩,
  ⟨0x8001C, [(0x80, 4)], false, [⟨0, 20, .rwb, 0, .any⟩, ⟨20, 8, .rwb, 0, .any⟩]⟩,
  ⟨0x80020, [(0x80, 4)], false, [⟨0, 24, .rwb, 0, .any⟩]⟩,
  ⟨0x80024, [(0x80, 4)], false, [⟨0, 32, .rwb, 0, .any⟩]⟩,
  ⟨0x80028, [(0x80, 4)], false, [⟨0, 24, .rwb, 0, .any⟩]⟩,
  ⟨0x8002C, [(0x80, 4)], false, [⟨0, 32, .rwb, 0, .any⟩]⟩]

/-- Registers of the RAWC block, part 1. -/
def regsRAWC1 : List RegDef := [
  ⟨0x80030, [(0x80, 4)], false, [⟨0, 8, .rwb, 2, .any⟩, ⟨8, 7, .rwb, 2, .any⟩]⟩,
  ⟨0x80034, [(0x80, 4)], false, [⟨0, 9, .rwb, 0, .any⟩, ⟨9, 3, .rwb, 0, .any⟩]⟩,
  ⟨0x80038, [(0x80, 4)], false, [⟨0, 32, .rwb, 0, .any⟩]⟩,
  ⟨0x8003C, [(0x80, 4)], false, [⟨0, 16, .rwb, 0, .any⟩]⟩,
  ⟨0x80040, [(0x80, 4)], false, [⟨0, 32, .rwb, 0, .any⟩]⟩,
  ⟨0x80044, [(0x80, 4)], false, [⟨0, 16, .rwb, 0, .any⟩, ⟨16, 16, .rwb, 0, .any⟩]⟩,
  ⟨0x80048, [(0x80, 4)], false, [⟨0, 16, .rwb, 0, .any⟩, ⟨16, 16, .rwb, 0, .any⟩]⟩,
  ⟨0x8004C, [(0x80, 4)], false, [⟨0, 4, .rwb, 12, .any⟩, ⟨4, 3, .rwb, 1, .any⟩, ⟨7, 3, .rwb, 1, .any⟩, ⟨10, 8, .rwb, 0, .any⟩]⟩,
  ⟨0x80050, [(0x80, 4)], false, [⟨0, 20, .rwb, 1048575, .any⟩]⟩,
  ⟨0x80054, [(0x80, 4)], false, [⟨0, 32, .rwb, 4294967295, .any⟩]⟩,
  ⟨0x80058, [(0x80, 4)], false, [⟨0, 32, .rwb, 4294967295, .any⟩]⟩,
  ⟨0x8005C, [(0x80, 4)], false, [⟨0, 32, .rwb, 0, .any⟩]⟩]

/-- Registers of the RAWC block, part 2. -/
def regsRAWC2 : List RegDef := [
  ⟨0x80060, [(0x80, 4)], false, [⟨0, 32, .rwb, 0, .any⟩]⟩,
  ⟨0x80200, [], false, [⟨0, 17, .rwb, 0, .any⟩, ⟨17, 1, .rwb, 0, .any⟩]⟩,
  ⟨0x81000, [], false, [⟨0, 1, .ro, 0, .any⟩, ⟨1, 4, .ro, 0, .any⟩]⟩,
  ⟨0x81040, [(0x40, 4)], false, [⟨0, 32, .ro, 0, .any⟩]⟩,
  ⟨0x81044, [(0x40, 4)], false, [⟨0, 32, .ro, 0, .any⟩]⟩,
  ⟨0x81048, [(0x40, 4)], false, [⟨0, 32, .ro, 0, .any⟩]⟩,
  ⟨0x8104C, [(0x40, 4)], false, [⟨0, 32, .ro, 0, .any⟩]⟩,
  ⟨0x81050, [(0x40, 4)], false, [⟨0, 32, .ro, 0, .any⟩]⟩,
  ⟨0x81054, [(0x40, 4)], false, [⟨0, 32, .ro, 0, .any⟩]⟩,
  ⟨0x81058, [(0x40, 4)], false, [⟨0, 32, .ro, 0, .any⟩]⟩,
  ⟨0x8105C, [(0x40, 4)], false, [⟨0, 9, .ro, 0, .any⟩, ⟨9, 1, .ro, 0, .any⟩, ⟨10, 1, .ro, 0, .any⟩, ⟨11, 1, .ro, 0, .any⟩, ⟨12, 1, .ro, 0, .any⟩, ⟨13, 1, .ro, 0, .any⟩, ⟨14, 1, .ro, 0, .any⟩, ⟨15, 1, .ro, 0, .any⟩]⟩,
  ⟨0x81060, [(0x40, 4)], false, [⟨0, 32, .ro, 0, .any⟩]⟩]

/-- Registers of the RAWC block, part 3. -/
def regsRAWC3 : List RegDef := [
  ⟨0x81064, [(0x40, 4)], false, [⟨0, 32, .ro, 0, .any⟩]⟩,
  ⟨0x81068, [(0x40, 4)], false, [⟨0, 8, .ro, 0, .any⟩]⟩]

def regsRAWC : List RegDef := regsRAWC0 ++ regsRAWC1 ++ regsRAWC2 ++ regsRAWC3

/-- Registers of the DEV block, part 0. -/
def regsDEV0 : List RegDef := [
  ⟨0xA0000, [(0x10000, 2)], false, [⟨0, 2, .rwb, 0, .any⟩, ⟨2, 1, .rwb, 0, .any⟩, ⟨3, 1, .rwb, 0, .any⟩, ⟨4, 1, .rwb, 0, .any⟩, ⟨5, 1, .rwb, 0, .any⟩, ⟨6, 1, .rwb, 0, .any⟩, ⟨7, 2, .rwb, 0, .any⟩, ⟨9, 1, .rwb, 0, .any⟩, ⟨10, 2, .rwb, 1, .any⟩, ⟨12, 2, .rwb, 0, .any⟩, ⟨14, 1, .rwb, 0, .any⟩, ⟨15, 1, .rwb, 0, .any⟩]⟩,
  ⟨0xA0004, [(0x10000, 2)], false, [⟨0, 8, .rwb, 148, .any⟩]⟩,
  ⟨0xA0008, [(0x10000, 2)], false, [⟨0, 20, .rwb, 0, .any⟩]⟩,
  ⟨0xA000C, [(0x10000, 2), (0x4, 4)], false, [⟨0, 18, .rwb, 16384, .any⟩]⟩,
  ⟨0xA001C, [(0x10000, 2), (0xC, 3), (0x4, 3)], false, [⟨0, 19, .rwb, 0, .any⟩]⟩,
  ⟨0xA0040, [(0x10000, 2), (0x4, 3)], false, [⟨0, 21, .rwb, 0, .any⟩]⟩,
  ⟨0xA004C, [(0x10000, 2)], false, [⟨0, 1, .rwb, 0, .any⟩]⟩,
  ⟨0xA0050, [(0x10000, 2), (0x4, 3)], false, [⟨0, 16, .rwb, 65535, .any⟩]⟩,
  ⟨0xA1000, [(0x10000, 2)], false, [⟨0, 1, .ro, 0, .any⟩, ⟨1, 1, .ro, 0, .any⟩]⟩,
  ⟨0xA1004, [(0x10000, 2)], false, [⟨0, 32, .ro, 0, .any⟩]⟩,
  ⟨0xA1008, [(0x10000, 2)], false, [⟨0, 32, .ro, 0, .any⟩]⟩,
  ⟨0xA100C, [(0x10000, 2)], false, [⟨0, 32, .ro, 0, .any⟩]⟩]

def regsDEV : List RegDef := regsDEV0

/-- Registers of the OUT block, part 0. -/
def regsOUT0 : List RegDef := [
  ⟨0xC0000, [(0x100, 4)], false, [⟨0, 1, .rwb, 0, .any⟩, ⟨1, 1, .rwb, 0, .any⟩, ⟨2, 3, .rwb, 0, .any⟩, ⟨5, 1, .rwb, 0, .any⟩, ⟨6, 3, .rwb, 0, .any⟩, ⟨9, 1, .rwb, 0, .any⟩, ⟨10, 3, .rwb, 0, .any⟩, ⟨13, 2, .rwb, 0, .any⟩, ⟨15, 1, .rwb, 0, .any⟩, ⟨16, 1, .rwb, 0, .any⟩, ⟨17, 4, .rwb, 0, .any⟩, ⟨21, 4, .rwb, 0, .any⟩]⟩,
  ⟨0xC0004, [(0x100, 4)], false, [⟨0, 16, .rwb, 0, .any⟩, ⟨16, 16, .rwb, 0, .any⟩]⟩,
  ⟨0xC0008, [(0x100, 4)], false, [⟨0, 16, .rwb, 0, .any⟩, ⟨16, 16, .rwb, 0, .any⟩]⟩,
  ⟨0xC000C, [(0x100, 4)], false, [⟨0, 16, .rwb, 0, .any⟩, ⟨16, 16, .rwb, 0, .any⟩]⟩,
  ⟨0xC0010, [(0x100, 4)], false, [⟨0, 32, .rwb, 16777216, .any⟩]⟩,
  ⟨0xC0014, [(0x100, 4)], false, [⟨0, 32, .rwb, 0, .any⟩]⟩,
  ⟨0xC0018, [(0x100, 4)], false, [⟨0, 16, .rwb, 0, .any⟩]⟩,
  ⟨0xC001C, [(0x100, 4)], false, [⟨0, 32, .rwb, 16777216, .any⟩]⟩,
  ⟨0xC0020, [(0x100, 4)], false, [⟨0, 32, .rwb, 0, .any⟩]⟩,
  ⟨0xC0024, [(0x100, 4)], false, [⟨0, 16, .rwb, 0, .any⟩]⟩,
  ⟨0xC0028, [(0x100, 4)], false, [⟨0, 3, .rwb, 0, .any⟩, ⟨3, 3, .rwb, 0, .any⟩, ⟨6, 3, .rwb, 0, .any⟩, ⟨9, 1, .rwb, 0, .any⟩, ⟨10, 3, .rwb, 0, .any⟩, ⟨13, 1, .rwb, 0, .any⟩, ⟨14, 2, .rwb, 0, .any⟩]⟩,
  ⟨0xC002C, [(0x100, 4)], false, [⟨0, 16, .rwb, 0, .any⟩, ⟨16, 16, .rwb, 0, .any⟩]⟩]

/-- Registers of the OUT block, part 1. -/
def regsOUT1 : List RegDef := [
  ⟨0xC0030, [(0x100, 4)], false, [⟨0, 16, .rwb, 0, .any⟩, ⟨16, 1, .rwb, 0, .any⟩]⟩,
  ⟨0xC0034, [(0x100, 4)], false, [⟨0, 32, .rwb, 0, .any⟩]⟩,
  ⟨0xC0038, [(0x100, 4)], false, [⟨0, 32, .rwb, 0, .any⟩]⟩,
  ⟨0xC003C, [(0x100, 4)], false, [⟨0, 32, .rwb, 0, .any⟩]⟩,
  ⟨0xC0040, [(0x100, 4)], false, [⟨0, 32, .rwb, 0, .any⟩]⟩,
  ⟨0xC0044, [(0x100, 4)], false, [⟨0, 32, .rwb, 0, .any⟩]⟩,
  ⟨0xC0048, [(0x100, 4)], false, [⟨0, 18, .rwb, 0, .any⟩, ⟨24, 8, .rwb, 0, .any⟩]⟩,
  ⟨0xC004C, [(0x100, 4)], false, [⟨0, 32, .rwb, 0, .any⟩]⟩,
  ⟨0xC0050, [(0x100, 4)], false, [⟨0, 32, .rwb, 0, .any⟩]⟩,
  ⟨0xC0054, [(0x100, 4)], false, [⟨0, 32, .rwb, 2000, .any⟩]⟩,
  ⟨0xC1000, [(0x40, 4)], false, [⟨0, 1, .ro, 0, .any⟩, ⟨1, 1, .w1c, 0, .any⟩, ⟨2, 1, .w1c, 0, .any⟩]⟩,
  ⟨0xC1004, [(0x40, 4)], false, [⟨0, 32, .ro, 0, .any⟩]⟩]

/-- Registers of the OUT block, part 2. -/
def regsOUT2 : List RegDef := [
  ⟨0xC1008, [(0x40, 4)], false, [⟨0, 32, .ro, 0, .any⟩]⟩,
  ⟨0xC100C, [(0x40, 4)], false, [⟨0, 32, .ro, 0, .any⟩]⟩,
  ⟨0xC1010, [(0x40, 4)], false, [⟨0, 16, .ro, 0, .any⟩, ⟨16, 1, .ro, 0, .any⟩, ⟨17, 1, .ro, 0, .any⟩, ⟨18, 1, .ro, 0, .any⟩, ⟨19, 1, .ro, 0, .any⟩, ⟨20, 1, .ro, 0, .any⟩, ⟨21, 1, .ro, 0, .any⟩]⟩,
  ⟨0xC1014, [(0x40, 4)], false, [⟨0, 32, .ro, 0, .any⟩]⟩,
  ⟨0xC1018, [(0x40, 4)], false, [⟨0, 32, .ro, 0, .any⟩]⟩,
  ⟨0xC101C, [(0x40, 4)], false, [⟨0, 8, .ro, 0, .any⟩]⟩]

def regsOUT : List RegDef := regsOUT0 ++ regsOUT1 ++ regsOUT2

/-- Registers of the CRUSH block, part 0. -/
def regsCRUSH0 : List RegDef := [
  ⟨0xE0000, [(0x40, 4)], false, [⟨0, 1, .rwb, 0, .any⟩, ⟨1, 6, .rwb, 1, .any⟩, ⟨7, 1, .rwb, 0, .any⟩, ⟨8, 13, .rwb, 1024, .any⟩]⟩,
  ⟨0xE0004, [(0x40, 4)], false, [⟨0, 16, .rwb, 0, .any⟩]⟩,
  ⟨0xE0008, [(0x40, 4)], false, [⟨0, 12, .rwb, 0, .any⟩]⟩,
  ⟨0xE000C, [(0x40, 4)], false, [⟨0, 32, .rwb, 0, .any⟩]⟩,
  ⟨0xE0010, [(0x40, 4)], false, [⟨0, 32, .rwb, 0, .any⟩]⟩,
  ⟨0xE0014, [(0x40, 4)], false, [⟨0, 8, .rwb, 0, .any⟩]⟩,
  ⟨0xE1000, [(0x40, 4)], false, [⟨0, 1, .w1s, 0, .any⟩, ⟨1, 1, .w1s, 0, .any⟩, ⟨2, 1, .w1s, 0, .any⟩]⟩,
  ⟨0xE1004, [(0x40, 4)], false, [⟨0, 32, .rw, 0, .any⟩]⟩,
  ⟨0xE1008, [(0x40, 4)], false, [⟨0, 32, .rw, 0, .any⟩]⟩,
  ⟨0xE100C, [(0x40, 4)], false, [⟨0, 9, .rw, 1, .range 1 256⟩]⟩,
  ⟨0xE1010, [(0x40, 4)], false, [⟨0, 2, .ro, 0, .any⟩, ⟨2, 3, .ro, 0, .any⟩, ⟨5, 1, .w1c, 0, .any⟩, ⟨6, 1, .w1c, 0, .any⟩]⟩,
  ⟨0xE1014, [(0x40, 4)], false, [⟨0, 9, .ro, 0, .any⟩, ⟨16, 16, .ro, 0, .any⟩]⟩]

/-- Registers of the CRUSH block, part 1. -/
def regsCRUSH1 : List RegDef := [
  ⟨0xE1018, [(0x40, 4)], false, [⟨0, 12, .ro, 0, .any⟩]⟩,
  ⟨0xE101C, [(0x40, 4)], false, [⟨0, 8, .ro, 0, .any⟩]⟩,
  ⟨0xE2000, [(0x80, 4)], false, [⟨0, 1, .w1s, 0, .any⟩, ⟨1, 1, .w1s, 0, .any⟩, ⟨2, 1, .w1s, 0, .any⟩, ⟨3, 1, .w1s, 0, .any⟩, ⟨4, 2, .rw, 0, .le 2⟩, ⟨6, 3, .rw, 0, .le 4⟩, ⟨9, 1, .rw, 0, .any⟩, ⟨10, 1, .rw, 0, .any⟩]⟩,
  ⟨0xE2004, [(0x80, 4)], false, [⟨0, 16, .rw, 0, .any⟩, ⟨16, 16, .rw, 0, .any⟩]⟩,
  ⟨0xE2008, [(0x80, 4)], false, [⟨0, 13, .rw, 1024, .step 16 64 4096⟩, ⟨16, 16, .rw, 0, .zeroOrStep 2 16 65534⟩]⟩,
  ⟨0xE200C, [(0x80, 4)], false, [⟨0, 16, .rw, 1, .any⟩]⟩,
  ⟨0xE2010, [(0x80, 4)], false, [⟨0, 32, .rw, 0, .any⟩]⟩,
  ⟨0xE2014, [(0x80, 4)], false, [⟨0, 32, .rw, 0, .any⟩]⟩,
  ⟨0xE2018, [(0x80, 4)], false, [⟨0, 9, .rw, 1, .range 1 256⟩]⟩,
  ⟨0xE201C, [(0x80, 4)], false, [⟨0, 32, .rw, 0, .mult 64⟩]⟩,
  ⟨0xE2020, [(0x80, 4)], false, [⟨0, 32, .rw, 0, .any⟩]⟩,
  ⟨0xE2024, [(0x80, 4)], false, [⟨0, 24, .rw, 0, .mult 64⟩]⟩]

/-- Registers of the CRUSH block, part 2. -/
def regsCRUSH2 : List RegDef := [
  ⟨0xE2028, [(0x80, 4)], false, [⟨0, 32, .rw, 0, .mult 64⟩]⟩,
  ⟨0xE202C, [(0x80, 4)], false, [⟨0, 3, .ro, 0, .any⟩, ⟨16, 16, .ro, 0, .any⟩]⟩,
  ⟨0xE2030, [(0x80, 4)], false, [⟨0, 4, .ro, 0, .any⟩, ⟨4, 9, .ro, 0, .any⟩, ⟨13, 19, .ro, 0, .any⟩]⟩,
  ⟨0xE2034, [(0x80, 4)], false, [⟨0, 32, .ro, 0, .any⟩]⟩,
  ⟨0xE2038, [(0x80, 4)], false, [⟨0, 32, .ro, 0, .any⟩]⟩,
  ⟨0xE203C, [(0x80, 4)], false, [⟨0, 16, .ro, 0, .any⟩]⟩,
  ⟨0xE2040, [(0x80, 4)], false, [⟨0, 32, .ro, 0, .any⟩]⟩,
  ⟨0xE2044, [(0x80, 4)], false, [⟨0, 32, .ro, 0, .any⟩]⟩,
  ⟨0xE2048, [(0x80, 4)], false, [⟨0, 32, .ro, 0, .any⟩]⟩]

def regsCRUSH : List RegDef := regsCRUSH0 ++ regsCRUSH1 ++ regsCRUSH2

/-- Registers of the REC block, part 0. -/
def regsREC0 : List RegDef := [
  ⟨0xF0000, [(0x20, 8)], false, [⟨0, 1, .rwb, 0, .any⟩, ⟨1, 8, .rwb, 0, .any⟩, ⟨9, 4, .rwb, 4, .any⟩, ⟨13, 8, .rwb, 0, .any⟩]⟩,
  ⟨0xF0004, [(0x20, 8)], false, [⟨0, 32, .rwb, 0, .any⟩]⟩,
  ⟨0xF0008, [(0x20, 8)], false, [⟨0, 32, .rwb, 0, .any⟩]⟩,
  ⟨0xF000C, [(0x20, 8)], false, [⟨0, 32, .rwb, 0, .any⟩]⟩,
  ⟨0xF0010, [(0x20, 8)], false, [⟨0, 32, .rwb, 0, .any⟩]⟩,
  ⟨0xF0100, [(0x4, 16)], false, [⟨0, 1, .rwb, 0, .any⟩, ⟨1, 3, .rwb, 0, .any⟩, ⟨4, 3, .rwb, 0, .any⟩, ⟨7, 4, .rwb, 0, .any⟩]⟩,
  ⟨0xF0140, [], false, [⟨0, 32, .rwb, 0, .any⟩]⟩,
  ⟨0xF0144, [], false, [⟨0, 32, .rwb, 0, .any⟩]⟩,
  ⟨0xF0148, [], false, [⟨0, 20, .rwb, 0, .any⟩]⟩,
  ⟨0xF0150, [], false, [⟨0, 1, .rwb, 0, .any⟩, ⟨1, 2, .rwb, 0, .any⟩]⟩,
  ⟨0xF0154, [], false, [⟨0, 32, .rwb, 0, .any⟩]⟩,
  ⟨0xF0158, [], false, [⟨0, 32, .rwb, 0, .any⟩]⟩]

/-- Registers of the REC block, part 1. -/
def regsREC1 : List RegDef := [
  ⟨0xF015C, [], false, [⟨0, 32, .rwb, 0, .any⟩]⟩,
  ⟨0xF0160, [], false, [⟨0, 19, .rwb, 0, .any⟩]⟩,
  ⟨0xF0164, [], false, [⟨0, 32, .rwb, 0, .any⟩]⟩,
  ⟨0xF0168, [], false, [⟨0, 32, .rwb, 0, .any⟩]⟩,
  ⟨0xF016C, [], false, [⟨0, 3, .rwb, 0, .any⟩, ⟨3, 5, .rwb, 0, .any⟩, ⟨8, 1, .rwb, 0, .any⟩]⟩,
  ⟨0xF1000, [], false, [⟨0, 1, .w1s, 0, .any⟩, ⟨1, 1, .w1s, 0, .any⟩]⟩,
  ⟨0xF1004, [], false, [⟨0, 2, .ro, 0, .any⟩, ⟨2, 1, .ro, 0, .any⟩, ⟨3, 1, .w1c, 0, .any⟩, ⟨16, 16, .ro, 0, .any⟩]⟩,
  ⟨0xF1008, [], false, [⟨0, 32, .ro, 0, .any⟩]⟩,
  ⟨0xF100C, [], false, [⟨0, 32, .ro, 0, .any⟩]⟩,
  ⟨0xF1010, [], false, [⟨0, 32, .ro, 0, .any⟩]⟩,
  ⟨0xF1014, [], false, [⟨0, 32, .ro, 0, .any⟩]⟩,
  ⟨0xF1018, [], false, [⟨0, 16, .ro, 0, .any⟩]⟩]

/-- Registers of the REC block, part 2. -/
def regsREC2 : List RegDef := [
  ⟨0xF1040, [(0x10, 8)], false, [⟨0, 3, .ro, 0, .any⟩, ⟨3, 1, .ro, 0, .any⟩, ⟨16, 16, .ro, 0, .any⟩]⟩,
  ⟨0xF1044, [(0x10, 8)], false, [⟨0, 32, .ro, 0, .any⟩]⟩,
  ⟨0xF1048, [(0x10, 8)], false, [⟨0, 32, .ro, 0, .any⟩]⟩,
  ⟨0xF1080, [(0x4, 16)], false, [⟨0, 16, .ro, 0, .any⟩, ⟨16, 16, .ro, 0, .any⟩]⟩]

def regsREC : List RegDef := regsREC0 ++ regsREC1 ++ regsREC2

/-- Registers of the HEVCE block, part 0. -/
def regsHEVCE0 : List RegDef := [
  ⟨0x100000, [(0x100, 4)], false, [⟨0, 1, .rwb, 0, .any⟩, ⟨1, 1, .rwb, 0, .any⟩, ⟨2, 2, .rwb, 0, .any⟩, ⟨4, 1, .rwb, 0, .any⟩, ⟨5, 8, .rwb, 0, .any⟩, ⟨13, 2, .rwb, 0, .any⟩, ⟨15, 2, .rwb, 0, .any⟩, ⟨17, 3, .rwb, 1, .any⟩, ⟨20, 1, .rwb, 0, .any⟩, ⟨21, 1, .rwb, 0, .any⟩, ⟨22, 1, .rwb, 0, .any⟩, ⟨23, 1, .rwb, 0, .any⟩, ⟨24, 3, .rwb, 0, .any⟩]⟩,
  ⟨0x100004, [(0x100, 4)], false, [⟨0, 16, .rwb, 0, .any⟩, ⟨16, 16, .rwb, 0, .any⟩]⟩,
  ⟨0x100008, [(0x100, 4)], false, [⟨0, 1, .rwb, 0, .any⟩, ⟨1, 6, .rwb, 32, .any⟩, ⟨7, 6, .rwb, 0, .any⟩, ⟨13, 6, .rwb, 51, .any⟩, ⟨19, 4, .rwb, 4, .any⟩, ⟨23, 3, .rwb, 4, .any⟩]⟩,
  ⟨0x10000C, [(0x100, 4)], false, [⟨0, 32, .rwb, 0, .any⟩]⟩,
  ⟨0x100010, [(0x100, 4)], false, [⟨0, 32, .rwb, 0, .any⟩]⟩,
  ⟨0x100014, [(0x100, 4)], false, [⟨0, 32, .rwb, 0, .any⟩]⟩,
  ⟨0x100018, [(0x100, 4)], false, [⟨0, 10, .rwb, 819, .any⟩, ⟨16, 10, .rwb, 512, .any⟩]⟩,
  ⟨0x10001C, [(0x100, 4)], false, [⟨0, 10, .rwb, 64, .any⟩, ⟨10, 10, .rwb, 64, .any⟩, ⟨20, 10, .rwb, 64, .any⟩]⟩,
  ⟨0x100020, [(0x100, 4)], false, [⟨0, 32, .rwb, 1000, .any⟩]⟩,
  ⟨0x100024, [(0x100, 4)], false, [⟨0, 32, .rwb, 120000, .any⟩]⟩,
  ⟨0x100028, [(0x100, 4)], false, [⟨0, 16, .rwb, 0, .any⟩, ⟨16, 16, .rwb, 0, .any⟩]⟩,
  ⟨0x10002C, [(0x100, 4)], false, [⟨0, 9, .rwb, 64, .any⟩, ⟨16, 9, .rwb, 64, .any⟩]⟩]

/-- Registers of the HEVCE block, part 1. -/
def regsHEVCE1 : List RegDef := [
  ⟨0x100030, [(0x100, 4)], false, [⟨0, 5, .rwb, 1, .any⟩]⟩,
  ⟨0x100034, [(0x100, 4), (0x4, 8)], false, [⟨0, 8, .rwb, 0, .any⟩, ⟨8, 3, .rwb, 0, .any⟩, ⟨16, 8, .rwb, 0, .any⟩, ⟨24, 3, .rwb, 0, .any⟩]⟩,
  ⟨0x100054, [(0x100, 4)], false, [⟨0, 1, .rwb, 0, .any⟩, ⟨1, 1, .rwb, 0, .any⟩, ⟨2, 2, .rwb, 0, .any⟩]⟩,
  ⟨0x100058, [(0x100, 4)], false, [⟨0, 32, .rwb, 0, .any⟩]⟩,
  ⟨0x10005C, [(0x100, 4)], false, [⟨0, 32, .rwb, 0, .any⟩]⟩,
  ⟨0x100060, [(0x100, 4)], false, [⟨0, 20, .rwb, 0, .any⟩]⟩,
  ⟨0x100064, [(0x100, 4)], false, [⟨0, 32, .rwb, 0, .any⟩]⟩,
  ⟨0x100068, [(0x100, 4)], false, [⟨0, 32, .rwb, 0, .any⟩]⟩,
  ⟨0x10006C, [(0x100, 4)], false, [⟨0, 18, .rwb, 0, .any⟩]⟩,
  ⟨0x100070, [(0x100, 4)], false, [⟨0, 32, .rwb, 0, .any⟩]⟩,
  ⟨0x100074, [(0x100, 4)], false, [⟨0, 32, .rwb, 0, .any⟩]⟩,
  ⟨0x100078, [(0x100, 4)], false, [⟨0, 32, .rwb, 0, .any⟩]⟩]

/-- Registers of the HEVCE block, part 2. -/
def regsHEVCE2 : List RegDef := [
  ⟨0x10007C, [(0x100, 4)], false, [⟨0, 32, .rwb, 0, .any⟩]⟩,
  ⟨0x100080, [(0x100, 4)], false, [⟨0, 32, .rwb, 0, .any⟩]⟩,
  ⟨0x100084, [(0x100, 4)], false, [⟨0, 13, .rwb, 0, .any⟩]⟩,
  ⟨0x100088, [(0x100, 4)], false, [⟨0, 11, .rwb, 0, .any⟩]⟩,
  ⟨0x101000, [(0x40, 4)], false, [⟨0, 1, .w1s, 0, .any⟩, ⟨1, 1, .w1s, 0, .any⟩, ⟨2, 1, .w1s, 0, .any⟩, ⟨3, 1, .w1s, 0, .any⟩, ⟨4, 1, .w1s, 0, .any⟩]⟩,
  ⟨0x101004, [(0x40, 4)], false, [⟨0, 3, .ro, 0, .any⟩, ⟨3, 5, .ro, 16, .any⟩, ⟨8, 13, .ro, 0, .any⟩, ⟨21, 11, .ro, 0, .any⟩]⟩,
  ⟨0x101008, [(0x40, 4)], false, [⟨0, 16, .rw, 0, .any⟩, ⟨16, 16, .ro, 0, .any⟩]⟩,
  ⟨0x10100C, [(0x40, 4)], false, [⟨0, 32, .ro, 0, .any⟩]⟩,
  ⟨0x101010, [(0x40, 4)], false, [⟨0, 32, .ro, 0, .any⟩]⟩,
  ⟨0x101014, [(0x40, 4)], false, [⟨0, 32, .ro, 0, .any⟩]⟩,
  ⟨0x101018, [(0x40, 4)], false, [⟨0, 32, .ro, 0, .any⟩]⟩,
  ⟨0x10101C, [(0x40, 4)], false, [⟨0, 16, .ro, 0, .any⟩, ⟨16, 16, .ro, 0, .any⟩]⟩]

/-- Registers of the HEVCE block, part 3. -/
def regsHEVCE3 : List RegDef := [
  ⟨0x101020, [(0x40, 4)], false, [⟨0, 32, .ro, 0, .any⟩]⟩,
  ⟨0x101024, [(0x40, 4)], false, [⟨0, 32, .ro, 0, .any⟩]⟩]

def regsHEVCE : List RegDef := regsHEVCE0 ++ regsHEVCE1 ++ regsHEVCE2 ++ regsHEVCE3

/-- Registers of the HEVCD block, part 0. -/
def regsHEVCD0 : List RegDef := [
  ⟨0x120000, [(0x100, 4)], false, [⟨0, 1, .rwb, 0, .any⟩, ⟨1, 1, .rwb, 0, .any⟩, ⟨2, 1, .rwb, 0, .any⟩, ⟨3, 1, .rwb, 0, .any⟩, ⟨4, 1, .rwb, 0, .any⟩, ⟨5, 2, .rwb, 0, .any⟩, ⟨7, 3, .rwb, 0, .any⟩]⟩,
  ⟨0x120004, [(0x100, 4)], false, [⟨0, 5, .rwb, 1, .any⟩]⟩,
  ⟨0x120008, [(0x100, 4), (0x4, 8)], false, [⟨0, 8, .rwb, 0, .any⟩, ⟨8, 3, .rwb, 0, .any⟩, ⟨16, 8, .rwb, 0, .any⟩, ⟨24, 3, .rwb, 0, .any⟩]⟩,
  ⟨0x120028, [(0x100, 4)], false, [⟨0, 32, .rwb, 0, .any⟩]⟩,
  ⟨0x12002C, [(0x100, 4)], false, [⟨0, 32, .rwb, 0, .any⟩]⟩,
  ⟨0x120030, [(0x100, 4)], false, [⟨0, 32, .rwb, 0, .any⟩]⟩,
  ⟨0x120034, [(0x100, 4)], false, [⟨0, 32, .rwb, 0, .any⟩]⟩,
  ⟨0x120038, [(0x100, 4)], false, [⟨0, 32, .rwb, 0, .any⟩]⟩,
  ⟨0x12003C, [(0x100, 4)], false, [⟨0, 32, .rwb, 0, .any⟩]⟩,
  ⟨0x120040, [(0x100, 4)], false, [⟨0, 32, .rwb, 0, .any⟩]⟩,
  ⟨0x120044, [(0x100, 4)], false, [⟨0, 18, .rwb, 0, .any⟩, ⟨24, 8, .rwb, 0, .any⟩]⟩,
  ⟨0x120048, [(0x100, 4)], false, [⟨0, 32, .rwb, 0, .any⟩]⟩]

/-- Registers of the HEVCD block, part 1. -/
def regsHEVCD1 : List RegDef := [
  ⟨0x12004C, [(0x100, 4)], false, [⟨0, 32, .rwb, 0, .any⟩]⟩,
  ⟨0x120050, [(0x100, 4)], false, [⟨0, 32, .rwb, 0, .any⟩]⟩,
  ⟨0x120054, [(0x100, 4)], false, [⟨0, 32, .rwb, 0, .any⟩]⟩,
  ⟨0x121000, [(0x40, 4)], false, [⟨0, 1, .w1s, 0, .any⟩, ⟨1, 1, .w1s, 0, .any⟩, ⟨2, 1, .w1s, 0, .any⟩, ⟨3, 1, .w1s, 0, .any⟩, ⟨4, 1, .w1s, 0, .any⟩, ⟨5, 1, .w1s, 0, .any⟩]⟩,
  ⟨0x121004, [(0x40, 4)], false, [⟨0, 32, .rw, 0, .any⟩]⟩,
  ⟨0x121008, [(0x40, 4)], false, [⟨0, 32, .rw, 0, .any⟩]⟩,
  ⟨0x12100C, [(0x40, 4)], false, [⟨0, 9, .rw, 0, .any⟩]⟩,
  ⟨0x121010, [(0x40, 4)], false, [⟨0, 3, .ro, 0, .any⟩, ⟨3, 5, .ro, 16, .any⟩, ⟨8, 9, .ro, 0, .any⟩, ⟨17, 15, .ro, 0, .any⟩]⟩,
  ⟨0x121014, [(0x40, 4)], false, [⟨0, 32, .ro, 0, .any⟩]⟩,
  ⟨0x121018, [(0x40, 4)], false, [⟨0, 16, .ro, 0, .any⟩, ⟨16, 16, .ro, 0, .any⟩]⟩,
  ⟨0x12101C, [(0x40, 4)], false, [⟨0, 8, .ro, 0, .any⟩, ⟨8, 6, .ro, 0, .any⟩, ⟨14, 3, .ro, 0, .any⟩]⟩,
  ⟨0x121020, [(0x40, 4)], false, [⟨0, 32, .ro, 0, .any⟩]⟩]

/-- Registers of the HEVCD block, part 2. -/
def regsHEVCD2 : List RegDef := [
  ⟨0x121024, [(0x40, 4)], false, [⟨0, 32, .ro, 0, .any⟩]⟩,
  ⟨0x121028, [(0x40, 4)], false, [⟨0, 32, .ro, 0, .any⟩]⟩,
  ⟨0x12102C, [(0x40, 4)], false, [⟨0, 32, .ro, 0, .any⟩]⟩,
  ⟨0x121030, [(0x40, 4)], false, [⟨0, 32, .ro, 0, .any⟩]⟩,
  ⟨0x121034, [(0x40, 4)], false, [⟨0, 32, .ro, 0, .any⟩]⟩,
  ⟨0x121038, [(0x40, 4)], false, [⟨0, 32, .ro, 0, .any⟩]⟩,
  ⟨0x12103C, [(0x40, 4)], false, [⟨0, 32, .ro, 0, .any⟩]⟩]

def regsHEVCD : List RegDef := regsHEVCD0 ++ regsHEVCD1 ++ regsHEVCD2

/-- Registers of the PLINK block, part 0. -/
def regsPLINK0 : List RegDef := [
  ⟨0x140000, [(0x400, 2)], false, [⟨0, 1, .rw, 0, .any⟩, ⟨1, 1, .w1s, 0, .any⟩, ⟨2, 1, .w1s, 0, .any⟩, ⟨3, 1, .rw, 1, .any⟩, ⟨4, 3, .rw, 0, .any⟩, ⟨7, 2, .rw, 2, .le 2⟩, ⟨9, 1, .ro, 0, .any⟩]⟩,
  ⟨0x140004, [(0x400, 2)], false, [⟨0, 3, .ro, 0, .any⟩, ⟨3, 2, .ro, 0, .any⟩, ⟨5, 1, .ro, 0, .any⟩, ⟨8, 8, .ro, 0, .any⟩, ⟨16, 16, .ro, 0, .any⟩]⟩,
  ⟨0x140008, [(0x400, 2)], false, [⟨0, 16, .rw, 20, .any⟩, ⟨16, 4, .rw, 4, .any⟩, ⟨20, 12, .rw, 10, .any⟩]⟩,
  ⟨0x14000C, [(0x400, 2)], false, [⟨0, 16, .rw, 1000, .any⟩]⟩,
  ⟨0x140010, [(0x400, 2)], false, [⟨0, 12, .ro, 0, .any⟩, ⟨16, 12, .ro, 0, .any⟩]⟩,
  ⟨0x140014, [(0x400, 2)], false, [⟨0, 16, .ro, 0, .any⟩, ⟨16, 16, .ro, 0, .any⟩]⟩,
  ⟨0x140018, [(0x400, 2)], false, [⟨0, 16, .ro, 0, .any⟩, ⟨16, 16, .ro, 0, .any⟩]⟩,
  ⟨0x14001C, [(0x400, 2)], false, [⟨0, 32, .ro, 0, .any⟩]⟩,
  ⟨0x140020, [(0x400, 2)], false, [⟨0, 32, .ro, 0, .any⟩]⟩,
  ⟨0x140024, [(0x400, 2)], false, [⟨0, 9, .ro, 0, .any⟩, ⟨16, 7, .ro, 0, .any⟩, ⟨24, 7, .ro, 0, .any⟩]⟩,
  ⟨0x140028, [(0x400, 2)], false, [⟨0, 8, .ro, 0, .any⟩, ⟨8, 24, .ro, 0, .any⟩]⟩,
  ⟨0x14042C, [], false, [⟨0, 16, .rw, 1000, .any⟩]⟩]

/-- Registers of the PLINK block, part 1. -/
def regsPLINK1 : List RegDef := [
  ⟨0x140430, [(0x4, 4)], false, [⟨0, 32, .ro, 0, .any⟩]⟩,
  ⟨0x140800, [], true, [⟨0, 2, .ro, 0, .any⟩, ⟨2, 2, .ro, 0, .any⟩, ⟨4, 1, .ro, 0, .any⟩, ⟨5, 1, .w1c, 0, .any⟩]⟩]

def regsPLINK : List RegDef := regsPLINK0 ++ regsPLINK1

/-- Registers of the MC block, part 0. -/
def regsMC0 : List RegDef := [
  ⟨0x160000, [], false, [⟨0, 1, .rw, 1, .any⟩, ⟨1, 2, .rw, 2, .le 2⟩, ⟨3, 1, .rw, 0, .any⟩, ⟨4, 1, .rw, 0, .any⟩, ⟨5, 1, .w1c, 0, .any⟩, ⟨8, 8, .rw, 1, .any⟩]⟩,
  ⟨0x160004, [], false, [⟨0, 12, .rw, 2048, .range 64 4095⟩]⟩,
  ⟨0x160008, [], false, [⟨0, 16, .rw, 0, .any⟩, ⟨16, 5, .rw, 16, .le 16⟩]⟩,
  ⟨0x16000C, [], false, [⟨0, 8, .rw, 10, .any⟩, ⟨8, 8, .rw, 8, .any⟩, ⟨16, 8, .rw, 4, .any⟩]⟩,
  ⟨0x160010, [(0x4, 8)], false, [⟨0, 4, .ro, 0, .any⟩, ⟨4, 1, .ro, 0, .any⟩, ⟨5, 1, .ro, 0, .any⟩]⟩,
  ⟨0x160100, [(0x10, 15)], false, [⟨0, 4, .rw, 4, .any⟩, ⟨4, 1, .ro, 0, .any⟩]⟩,
  ⟨0x160104, [(0x10, 15)], false, [⟨0, 16, .rw, 0, .any⟩, ⟨16, 16, .rw, 0, .any⟩]⟩,
  ⟨0x160108, [(0x10, 15)], false, [⟨0, 8, .ro, 0, .any⟩, ⟨8, 8, .w1c, 0, .any⟩]⟩,
  ⟨0x16010C, [(0x10, 15)], false, [⟨0, 32, .ro, 0, .any⟩]⟩,
  ⟨0x161000, [(0x400, 8)], false, [⟨0, 1, .rw, 0, .any⟩, ⟨1, 1, .w1s, 0, .any⟩]⟩,
  ⟨0x161004, [(0x400, 8)], false, [⟨0, 3, .ro, 0, .any⟩, ⟨3, 1, .w1c, 0, .any⟩, ⟨4, 4, .ro, 0, .any⟩, ⟨8, 4, .ro, 0, .any⟩, ⟨12, 3, .ro, 2, .any⟩, ⟨15, 1, .ro, 0, .any⟩, ⟨16, 7, .ro, 0, .any⟩]⟩,
  ⟨0x161008, [(0x400, 8)], false, [⟨0, 8, .rw, 20, .any⟩, ⟨8, 8, .rw, 20, .any⟩, ⟨16, 8, .rw, 23, .any⟩, ⟨24, 8, .rw, 45, .any⟩]⟩]

/-- Registers of the MC block, part 1. -/
def regsMC1 : List RegDef := [
  ⟨0x16100C, [(0x400, 8)], false, [⟨0, 8, .rw, 65, .any⟩, ⟨8, 8, .rw, 6, .any⟩, ⟨16, 8, .rw, 22, .any⟩, ⟨24, 8, .rw, 8, .any⟩]⟩,
  ⟨0x161010, [(0x400, 8)], false, [⟨0, 8, .rw, 37, .any⟩, ⟨8, 8, .rw, 13, .any⟩, ⟨16, 8, .rw, 12, .any⟩, ⟨24, 8, .rw, 4, .any⟩]⟩,
  ⟨0x161014, [(0x400, 8)], false, [⟨0, 12, .rw, 406, .any⟩, ⟨12, 4, .rw, 2, .any⟩, ⟨16, 12, .rw, 414, .any⟩]⟩,
  ⟨0x161018, [(0x400, 8)], false, [⟨0, 16, .rw, 4166, .any⟩]⟩,
  ⟨0x16101C, [(0x400, 8)], false, [⟨0, 8, .rw, 64, .any⟩, ⟨8, 5, .rw, 16, .any⟩, ⟨13, 6, .rw, 48, .any⟩, ⟨19, 6, .rw, 16, .any⟩]⟩,
  ⟨0x161020, [(0x400, 8)], false, [⟨0, 2, .rw, 0, .le 2⟩, ⟨2, 1, .rw, 0, .any⟩, ⟨3, 7, .rw, 0, .any⟩, ⟨10, 8, .rw, 0, .any⟩, ⟨18, 1, .w1s, 0, .any⟩, ⟨19, 1, .ro, 0, .any⟩]⟩,
  ⟨0x161024, [(0x400, 8)], false, [⟨0, 8, .ro, 0, .any⟩]⟩,
  ⟨0x161028, [(0x400, 8)], false, [⟨0, 2, .rw, 0, .le 2⟩, ⟨2, 2, .rw, 0, .le 2⟩, ⟨4, 1, .rw, 0, .any⟩, ⟨5, 1, .w1s, 0, .any⟩, ⟨6, 1, .ro, 0, .any⟩, ⟨16, 16, .rw, 1024, .range 1 65535⟩]⟩,
  ⟨0x161030, [(0x400, 8)], false, [⟨0, 32, .rw, 0, .any⟩]⟩,
  ⟨0x161034, [(0x400, 8)], false, [⟨0, 32, .rw, 0, .any⟩]⟩,
  ⟨0x161040, [(0x400, 8), (0x4, 18)], false, [⟨0, 16, .ro, 0, .any⟩]⟩,
  ⟨0x161100, [(0x400, 8), (0x100, 2), (0x4, 18)], false, [⟨0, 8, .rw, 0, .any⟩, ⟨8, 8, .rw, 0, .any⟩]⟩]

/-- Registers of the MC block, part 2. -/
def regsMC2 : List RegDef := [
  ⟨0x161148, [(0x400, 8), (0x100, 2), (0x4, 18)], false, [⟨0, 8, .rw, 0, .any⟩]⟩,
  ⟨0x161170, [(0x400, 8), (0x100, 2)], false, [⟨0, 7, .rw, 50, .any⟩]⟩,
  ⟨0x161300, [(0x400, 8)], false, [⟨0, 32, .ro, 0, .any⟩]⟩,
  ⟨0x161304, [(0x400, 8)], false, [⟨0, 8, .rw, 16, .any⟩]⟩,
  ⟨0x161308, [(0x400, 8)], false, [⟨0, 32, .ro, 0, .any⟩]⟩]

def regsMC : List RegDef := regsMC0 ++ regsMC1 ++ regsMC2

/-- Registers of the INTEG block, part 0. -/
def regsINTEG0 : List RegDef := [
  ⟨0x180000, [], false, [⟨0, 3, .rw, 3, .any⟩]⟩,
  ⟨0x180004, [], false, [⟨0, 7, .ro, 0, .any⟩, ⟨7, 1, .w1s, 0, .any⟩, ⟨16, 16, .ro, 0, .any⟩]⟩,
  ⟨0x180008, [], false, [⟨0, 32, .ro, 0, .any⟩]⟩,
  ⟨0x18000C, [], false, [⟨0, 32, .ro, 0, .any⟩]⟩,
  ⟨0x180010, [], false, [⟨0, 3, .ro, 0, .any⟩, ⟨3, 4, .ro, 0, .any⟩, ⟨7, 1, .ro, 0, .any⟩, ⟨8, 8, .ro, 0, .any⟩]⟩,
  ⟨0x180014, [], false, [⟨0, 16, .w1c, 0, .any⟩]⟩,
  ⟨0x180100, [(0x20, 8)], false, [⟨0, 1, .rw, 0, .any⟩, ⟨2, 11, .rw, 0, .any⟩]⟩,
  ⟨0x180104, [(0x20, 8)], false, [⟨0, 32, .ro, 0, .any⟩]⟩,
  ⟨0x180108, [(0x20, 8)], false, [⟨0, 32, .ro, 0, .any⟩]⟩,
  ⟨0x18010C, [(0x20, 8)], false, [⟨0, 32, .ro, 0, .any⟩]⟩,
  ⟨0x180110, [(0x20, 8)], false, [⟨0, 32, .ro, 0, .any⟩]⟩,
  ⟨0x180114, [(0x20, 8)], false, [⟨0, 32, .ro, 0, .any⟩]⟩]

/-- Registers of the INTEG block, part 1. -/
def regsINTEG1 : List RegDef := [
  ⟨0x180200, [], false, [⟨0, 2, .rw, 0, .any⟩, ⟨2, 3, .rw, 0, .any⟩, ⟨5, 7, .rw, 0, .le 71⟩, ⟨12, 7, .rw, 0, .le 71⟩, ⟨19, 1, .w1s, 0, .any⟩, ⟨20, 1, .ro, 0, .any⟩]⟩,
  ⟨0x180204, [], false, [⟨0, 32, .rw, 0, .mult 64⟩]⟩,
  ⟨0x180208, [], false, [⟨0, 32, .rw, 0, .any⟩]⟩,
  ⟨0x180210, [], false, [⟨0, 4, .rw, 0, .any⟩, ⟨4, 1, .w1s, 0, .any⟩, ⟨5, 1, .ro, 0, .any⟩]⟩,
  ⟨0x180400, [(0x20, 64), (0x4, 8)], false, [⟨0, 32, .ro, 0, .any⟩]⟩]

def regsINTEG : List RegDef := regsINTEG0 ++ regsINTEG1

/-- Registers of the THERM block, part 0. -/
def regsTHERM0 : List RegDef := [
  ⟨0x1A0000, [(0x4, 24)], false, [⟨0, 16, .ro, 0, .any⟩, ⟨16, 1, .ro, 0, .any⟩]⟩,
  ⟨0x1A0060, [], false, [⟨0, 16, .ro, 0, .any⟩, ⟨16, 5, .ro, 0, .any⟩]⟩,
  ⟨0x1A0064, [], false, [⟨0, 16, .rw, 1520, .le 1520⟩, ⟨16, 16, .rw, 1600, .le 1600⟩]⟩,
  ⟨0x1A0068, [], false, [⟨0, 16, .ro, 0, .any⟩]⟩,
  ⟨0x1A006C, [], false, [⟨0, 1, .ro, 0, .any⟩, ⟨1, 1, .ro, 0, .any⟩, ⟨2, 1, .ro, 0, .any⟩, ⟨8, 5, .ro, 0, .any⟩]⟩,
  ⟨0x1A0080, [(0x4, 8)], false, [⟨0, 16, .ro, 0, .any⟩]⟩,
  ⟨0x1A00A0, [], false, [⟨0, 16, .ro, 0, .any⟩]⟩,
  ⟨0x1A00A4, [], false, [⟨0, 16, .ro, 16384, .any⟩, ⟨16, 1, .ro, 0, .any⟩]⟩,
  ⟨0x1A0100, [], true, [⟨0, 5, .ro, 31, .any⟩, ⟨5, 5, .ro, 31, .any⟩, ⟨10, 1, .ro, 0, .any⟩, ⟨11, 1, .ro, 0, .any⟩]⟩,
  ⟨0x1A0104, [], true, [⟨0, 5, .rw, 31, .any⟩]⟩,
  ⟨0x1A0108, [], true, [⟨0, 32, .ro, 0, .any⟩]⟩,
  ⟨0x1A010C, [], true, [⟨0, 32, .ro, 0, .any⟩]⟩]

/-- Registers of the THERM block, part 1. -/
def regsTHERM1 : List RegDef := [
  ⟨0x1A0110, [], true, [⟨0, 32, .ro, 0, .any⟩]⟩,
  ⟨0x1A0114, [], true, [⟨0, 32, .ro, 0, .any⟩]⟩,
  ⟨0x1A0118, [], true, [⟨0, 16, .ro, 0, .any⟩, ⟨16, 3, .ro, 0, .any⟩, ⟨19, 5, .ro, 0, .any⟩]⟩,
  ⟨0x1A0140, [(0x4, 8)], true, [⟨0, 16, .rw, 0, .any⟩]⟩,
  ⟨0x1A0160, [], true, [⟨0, 16, .rw, 50, .any⟩, ⟨16, 16, .rw, 2000, .any⟩]⟩,
  ⟨0x1A0164, [], true, [⟨0, 7, .ro, 0, .any⟩, ⟨7, 7, .ro, 0, .any⟩, ⟨14, 7, .ro, 0, .any⟩, ⟨21, 1, .w1c, 0, .any⟩]⟩,
  ⟨0x1A0168, [], true, [⟨0, 16, .ro, 0, .any⟩]⟩,
  ⟨0x1A0180, [], true, [⟨0, 1, .rw, 0, .any⟩, ⟨1, 1, .rw, 0, .any⟩, ⟨2, 1, .rw, 0, .any⟩, ⟨8, 8, .rw, 1, .any⟩]⟩,
  ⟨0x1A0184, [(0x4, 8)], true, [⟨0, 7, .rw, 0, .any⟩, ⟨7, 1, .rw, 0, .any⟩, ⟨8, 8, .rw, 255, .any⟩, ⟨16, 8, .rw, 0, .any⟩, ⟨24, 4, .rw, 0, .le 8⟩, ⟨28, 1, .rw, 1, .any⟩, ⟨29, 1, .rw, 0, .any⟩]⟩,
  ⟨0x1A01A4, [(0x4, 8)], true, [⟨0, 16, .ro, 0, .any⟩, ⟨16, 16, .ro, 0, .any⟩]⟩,
  ⟨0x1A01C4, [], true, [⟨0, 8, .w1c, 0, .any⟩, ⟨8, 8, .w1c, 0, .any⟩]⟩,
  ⟨0x1A01D0, [], true, [⟨0, 1, .w1s, 0, .any⟩, ⟨1, 1, .w1s, 0, .any⟩]⟩]

def regsTHERM : List RegDef := regsTHERM0 ++ regsTHERM1

/-- Registers of the CREW block, part 0. -/
def regsCREW0 : List RegDef := [
  ⟨0x1C0000, [(0x40, 8)], false, [⟨0, 3, .ro, 0, .any⟩, ⟨3, 1, .ro, 0, .any⟩, ⟨4, 4, .ro, 0, .any⟩]⟩,
  ⟨0x1C0004, [(0x40, 8)], false, [⟨0, 32, .ro, 0, .any⟩]⟩,
  ⟨0x1C0008, [(0x40, 8)], false, [⟨0, 32, .ro, 0, .any⟩]⟩,
  ⟨0x1C000C, [(0x40, 8)], false, [⟨0, 32, .ro, 0, .any⟩]⟩,
  ⟨0x1C0010, [(0x40, 8)], false, [⟨0, 24, .rw, 0, .any⟩]⟩,
  ⟨0x1C0014, [(0x40, 8)], false, [⟨0, 32, .rw, 0, .any⟩]⟩,
  ⟨0x1C0018, [(0x40, 8)], false, [⟨0, 1, .rw, 0, .any⟩]⟩]

def regsCREW : List RegDef := regsCREW0

/-- Registers of the BENCH block, part 0. -/
def regsBENCH0 : List RegDef := [
  ⟨0x1E0000, [], false, [⟨0, 32, .ro, 1, .any⟩]⟩,
  ⟨0x1E0004, [], false, [⟨0, 1, .w1s, 0, .any⟩]⟩,
  ⟨0x1E0008, [], false, [⟨0, 32, .ro, 0, .any⟩]⟩,
  ⟨0x1E000C, [], false, [⟨0, 32, .ro, 0, .any⟩]⟩,
  ⟨0x1E0010, [], false, [⟨0, 32, .ro, 0, .any⟩]⟩,
  ⟨0x1E0014, [], true, [⟨0, 16, .rw, 1600, .any⟩, ⟨16, 16, .rw, 10, .any⟩]⟩,
  ⟨0x1E0100, [(0x20, 25)], false, [⟨0, 3, .rw, 0, .le 4⟩, ⟨3, 5, .rw, 0, .any⟩, ⟨8, 1, .w1s, 0, .any⟩, ⟨9, 1, .w1s, 0, .any⟩]⟩,
  ⟨0x1E0104, [(0x20, 25)], false, [⟨0, 32, .rw, 0, .any⟩]⟩,
  ⟨0x1E0108, [(0x20, 25)], false, [⟨0, 16, .ro, 0, .any⟩, ⟨16, 1, .ro, 0, .any⟩, ⟨17, 1, .ro, 0, .any⟩, ⟨18, 1, .ro, 0, .any⟩, ⟨19, 4, .ro, 0, .any⟩]⟩,
  ⟨0x1E010C, [(0x20, 25)], false, [⟨0, 12, .ro, 0, .any⟩]⟩,
  ⟨0x1E0110, [(0x20, 25)], false, [⟨0, 32, .ro, 0, .any⟩]⟩,
  ⟨0x1E0114, [(0x20, 25)], false, [⟨0, 32, .ro, 0, .any⟩]⟩]

/-- Registers of the BENCH block, part 1. -/
def regsBENCH1 : List RegDef := [
  ⟨0x1E0800, [(0x20, 16)], true, [⟨0, 3, .ro, 0, .any⟩, ⟨3, 1, .ro, 0, .any⟩, ⟨4, 3, .ro, 0, .any⟩, ⟨7, 3, .ro, 0, .any⟩, ⟨10, 4, .ro, 0, .any⟩]⟩,
  ⟨0x1E0804, [(0x20, 16)], true, [⟨0, 8, .ro, 0, .any⟩, ⟨8, 15, .ro, 0, .any⟩]⟩,
  ⟨0x1E0808, [(0x20, 16)], true, [⟨0, 8, .ro, 0, .any⟩, ⟨8, 8, .ro, 0, .any⟩, ⟨16, 8, .ro, 0, .any⟩, ⟨24, 8, .ro, 0, .any⟩]⟩,
  ⟨0x1E080C, [(0x20, 16)], true, [⟨0, 3, .ro, 0, .any⟩, ⟨3, 5, .ro, 0, .any⟩]⟩,
  ⟨0x1E0810, [(0x20, 16)], true, [⟨0, 32, .ro, 0, .any⟩]⟩,
  ⟨0x1E0814, [(0x20, 16)], true, [⟨0, 32, .ro, 0, .any⟩]⟩]

def regsBENCH : List RegDef := regsBENCH0 ++ regsBENCH1

/-- Registers of the SEAM block, part 0. -/
def regsSEAM0 : List RegDef := [
  ⟨0x200000, [(0x4, 4)], false, [⟨0, 1, .ro, 0, .any⟩, ⟨1, 1, .w1c, 0, .any⟩, ⟨16, 16, .ro, 0, .any⟩]⟩,
  ⟨0x200010, [], false, (List.range 8).flatMap fun n => [⟨4 * n, 2, .rw, 0, .any⟩, ⟨4 * n + 3, 1, .rw, 0, .any⟩]⟩,
  ⟨0x200020, [(0x4, 4)], false, [⟨0, 1, .w1s, 0, .any⟩]⟩,
  ⟨0x200030, [], false, [⟨0, 32, .ro, 0, .any⟩]⟩]

def regsSEAM : List RegDef := regsSEAM0

/-- Registers of the POS block, part 0. -/
def regsPOS0 : List RegDef := [
  ⟨0x220000, [(0x400, 4)], true, [⟨0, 2, .rw, 0, .le 2⟩, ⟨2, 1, .rw, 0, .any⟩, ⟨3, 1, .rw, 0, .any⟩, ⟨4, 1, .rw, 0, .any⟩, ⟨5, 1, .rw, 0, .any⟩, ⟨8, 4, .rw, 1, .any⟩]⟩,
  ⟨0x220004, [(0x400, 4)], true, [⟨0, 14, .rw, 0, .any⟩, ⟨16, 14, .rw, 0, .any⟩]⟩,
  ⟨0x220008, [(0x400, 4)], true, [⟨0, 16, .rw, 16384, .any⟩]⟩,
  ⟨0x22000C, [(0x400, 4)], true, [⟨0, 15, .rw, 2560, .any⟩, ⟨16, 15, .rw, 7680, .any⟩]⟩,
  ⟨0x220010, [(0x400, 4)], true, [⟨0, 8, .rw, 20, .any⟩, ⟨8, 8, .rw, 150, .any⟩, ⟨16, 8, .rw, 10, .any⟩, ⟨24, 8, .rw, 4, .any⟩]⟩,
  ⟨0x220014, [(0x400, 4)], true, [⟨0, 32, .rw, 0, .any⟩]⟩,
  ⟨0x220018, [(0x400, 4)], true, [⟨0, 16, .rw, 0, .any⟩]⟩,
  ⟨0x22001C, [(0x400, 4)], true, [⟨0, 1, .ro, 0, .any⟩, ⟨1, 1, .ro, 1, .any⟩, ⟨2, 1, .ro, 0, .any⟩, ⟨3, 1, .ro, 1, .any⟩, ⟨4, 1, .ro, 0, .any⟩, ⟨5, 1, .ro, 0, .any⟩, ⟨6, 2, .ro, 0, .any⟩, ⟨8, 2, .ro, 0, .any⟩, ⟨10, 2, .ro, 0, .any⟩, ⟨12, 1, .w1c, 0, .any⟩, ⟨13, 1, .w1c, 0, .any⟩, ⟨14, 1, .w1c, 0, .any⟩, ⟨15, 1, .w1c, 0, .any⟩]⟩,
  ⟨0x220020, [(0x400, 4)], true, [⟨0, 32, .ro, 0, .any⟩]⟩,
  ⟨0x220024, [(0x400, 4)], true, [⟨0, 32, .ro, 0, .any⟩]⟩,
  ⟨0x220028, [(0x400, 4)], true, [⟨0, 13, .rw, 1024, .range 1 4096⟩, ⟨16, 10, .rw, 100, .range 10 1000⟩]⟩,
  ⟨0x22002C, [(0x400, 4)], true, [⟨0, 32, .rw, 50000, .any⟩]⟩]

/-- Registers of the POS block, part 1. -/
def regsPOS1 : List RegDef := [
  ⟨0x220030, [(0x400, 4)], true, [⟨0, 32, .rw, 40000, .any⟩]⟩,
  ⟨0x220034, [(0x400, 4)], true, [⟨0, 16, .rw, 100, .any⟩]⟩,
  ⟨0x220038, [(0x400, 4)], true, [⟨0, 11, .rw, 1536, .range 512 2047⟩]⟩,
  ⟨0x220040, [(0x400, 4)], true, [⟨0, 32, .rw, 0, .zeroOrGe 4096⟩]⟩,
  ⟨0x220044, [(0x400, 4)], true, [⟨0, 32, .rw, 0, .any⟩]⟩,
  ⟨0x220048, [(0x400, 4)], true, [⟨0, 16, .rw, 64, .any⟩]⟩,
  ⟨0x22004C, [(0x400, 4)], true, [⟨0, 32, .ro, 0, .any⟩]⟩,
  ⟨0x220050, [(0x400, 4)], true, [⟨0, 32, .ro, 0, .any⟩]⟩,
  ⟨0x220100, [(0x400, 4), (0x20, 8)], true, [⟨0, 1, .w1s, 0, .any⟩, ⟨1, 1, .w1s, 0, .any⟩, ⟨2, 1, .ro, 0, .any⟩, ⟨3, 2, .rw, 0, .le 2⟩, ⟨5, 1, .rw, 0, .any⟩, ⟨6, 1, .rw, 0, .any⟩, ⟨7, 6, .rw, 0, .le 39⟩, ⟨13, 1, .rw, 0, .any⟩, ⟨14, 3, .rw, 0, .any⟩, ⟨17, 1, .rw, 0, .any⟩, ⟨18, 5, .rw, 0, .any⟩, ⟨23, 3, .rw, 0, .any⟩, ⟨26, 1, .rw, 0, .any⟩, ⟨27, 2, .rw, 0, .any⟩, ⟨29, 1, .rw, 0, .any⟩]⟩,
  ⟨0x220104, [(0x400, 4), (0x20, 8)], true, [⟨0, 32, .rw, 0, .any⟩]⟩,
  ⟨0x220108, [(0x400, 4), (0x20, 8)], true, [⟨0, 16, .rw, 0, .any⟩]⟩,
  ⟨0x22010C, [(0x400, 4), (0x20, 8)], true, [⟨0, 32, .rw, 0, .any⟩]⟩]

/-- Registers of the POS block, part 2. -/
def regsPOS2 : List RegDef := [
  ⟨0x220110, [(0x400, 4), (0x20, 8)], true, [⟨0, 1, .ro, 0, .any⟩, ⟨1, 1, .w1c, 0, .any⟩, ⟨2, 1, .w1c, 0, .any⟩, ⟨3, 3, .ro, 0, .any⟩, ⟨16, 16, .rw, 8, .any⟩]⟩,
  ⟨0x220114, [(0x400, 4), (0x20, 8)], true, [⟨0, 32, .ro, 0, .any⟩]⟩,
  ⟨0x220118, [(0x400, 4), (0x20, 8)], true, [⟨0, 32, .ro, 0, .any⟩]⟩,
  ⟨0x22011C, [(0x400, 4), (0x20, 8)], true, [⟨0, 32, .ro, 0, .any⟩]⟩,
  ⟨0x221000, [(0x20, 8)], true, [⟨0, 1, .rw, 0, .any⟩, ⟨1, 3, .rw, 0, .any⟩, ⟨4, 2, .rw, 0, .any⟩, ⟨6, 3, .rw, 0, .any⟩, ⟨9, 3, .rw, 0, .any⟩]⟩,
  ⟨0x221004, [(0x20, 8)], true, [⟨0, 32, .rw, 0, .any⟩]⟩,
  ⟨0x221008, [(0x20, 8)], true, [⟨0, 32, .rw, 0, .mult 64⟩]⟩,
  ⟨0x22100C, [(0x20, 8)], true, [⟨0, 32, .rw, 0, .any⟩]⟩,
  ⟨0x221010, [(0x20, 8)], true, [⟨0, 8, .rw, 0, .any⟩]⟩,
  ⟨0x221014, [(0x20, 8)], true, [⟨0, 8, .ro, 0, .any⟩]⟩,
  ⟨0x221018, [(0x20, 8)], true, [⟨0, 32, .ro, 0, .any⟩]⟩]

def regsPOS : List RegDef := regsPOS0 ++ regsPOS1 ++ regsPOS2

/-- Registers of the AUDIO block, part 0. -/
def regsAUDIO0 : List RegDef := [
  ⟨0x230000, [], true, [⟨0, 1, .w1s, 0, .any⟩, ⟨1, 1, .rw, 0, .any⟩, ⟨2, 2, .rw, 0, .le 2⟩, ⟨4, 2, .rw, 0, .any⟩, ⟨6, 8, .rw, 4, .any⟩, ⟨14, 8, .rw, 5, .any⟩]⟩,
  ⟨0x230004, [], true, [⟨0, 2, .ro, 0, .any⟩, ⟨2, 1, .w1c, 0, .any⟩, ⟨3, 1, .ro, 0, .any⟩, ⟨16, 16, .ro, 0, .any⟩]⟩,
  ⟨0x230008, [], true, [⟨0, 16, .rw, 0, .any⟩, ⟨16, 16, .ro, 0, .any⟩]⟩,
  ⟨0x23000C, [], true, [⟨0, 32, .ro, 0, .any⟩]⟩,
  ⟨0x230010, [], true, [⟨0, 32, .ro, 0, .any⟩]⟩,
  ⟨0x230014, [], true, [⟨0, 32, .ro, 0, .any⟩]⟩,
  ⟨0x230100, [(0x20, 16)], true, [⟨0, 32, .rw, 0, .any⟩]⟩,
  ⟨0x230104, [(0x20, 16)], true, [⟨0, 32, .rw, 0, .any⟩]⟩,
  ⟨0x230108, [(0x20, 16)], true, [⟨0, 16, .rw, 0, .any⟩]⟩,
  ⟨0x23010C, [(0x20, 16)], true, [⟨0, 16, .ro, 0, .any⟩]⟩,
  ⟨0x230110, [(0x20, 16)], true, [⟨0, 32, .ro, 0, .any⟩]⟩,
  ⟨0x230114, [(0x20, 16)], true, [⟨0, 32, .ro, 0, .any⟩]⟩]

def regsAUDIO : List RegDef := regsAUDIO0

/-- Registers of the SEC block, part 0. -/
def regsSEC0 : List RegDef := [
  ⟨0x240000, [], true, [⟨0, 1, .ro, 0, .any⟩, ⟨1, 1, .ro, 0, .any⟩, ⟨8, 8, .ro, 0, .any⟩]⟩,
  ⟨0x240004, [], true, [⟨0, 2, .ro, 0, .any⟩]⟩,
  ⟨0x240008, [(0x4, 4)], true, [⟨0, 32, .ro, 0, .any⟩]⟩]

def regsSEC : List RegDef := regsSEC0

/-- Registers of the BOOT block, part 0. -/
def regsBOOT0 : List RegDef := [
  ⟨0x250000, [], true, [⟨0, 4, .ro, 3, .any⟩, ⟨4, 2, .ro, 0, .any⟩, ⟨6, 1, .ro, 0, .any⟩, ⟨7, 1, .ro, 0, .any⟩, ⟨8, 1, .ro, 0, .any⟩, ⟨9, 1, .ro, 0, .any⟩, ⟨16, 4, .ro, 0, .any⟩]⟩,
  ⟨0x250004, [], true, [⟨0, 32, .ro, 0, .any⟩]⟩,
  ⟨0x250008, [], true, [⟨0, 32, .ro, 0, .any⟩]⟩,
  ⟨0x25000C, [], true, [⟨0, 7, .ro, 0, .any⟩]⟩,
  ⟨0x250010, [], true, [⟨0, 4, .ro, 0, .any⟩, ⟨4, 4, .ro, 0, .any⟩]⟩,
  ⟨0x250014, [], true, [⟨0, 2, .ro, 0, .any⟩]⟩,
  ⟨0x250018, [], true, [⟨0, 4, .ro, 0, .any⟩]⟩,
  ⟨0x250020, [(0x4, 8)], true, [⟨0, 2, .ro, 0, .any⟩, ⟨2, 2, .ro, 0, .any⟩, ⟨4, 1, .ro, 0, .any⟩]⟩,
  ⟨0x250080, [(0x4, 16)], true, [⟨0, 32, .ro, 0, .any⟩]⟩]

def regsBOOT : List RegDef := regsBOOT0

end Sys2Proof.Machine
end

