-- ==== Sys2Proof/Machine/State.lean ====
section
/-!
DEFINITION. The state of the package: every register (held by the register map), every buffer, queue, counter,
mode and pin that the chapters give it, and the queue of waiting commands. Each structure names the rules of
spec/ it stands for.
-/

namespace Sys2Proof.Machine

/-- The members of the family (R1). -/
inductive Member where
  | tiles2 | tiles4 | tiles8
  deriving DecidableEq, Repr

/-- The number of tiles of a member (R1). -/
def Member.tiles : Member → Nat
  | .tiles2 => 2
  | .tiles4 => 4
  | .tiles8 => 8

/-- The temperature grades (R2). -/
inductive Grade where
  | s | x
  deriving DecidableEq, Repr

/-- A crew message (R85): its number, by which its sender knows the acknowledgement; source tile and crew, destination crew, payload
bytes. -/
structure CrewMsg where
  num : Nat := 0
  srcTile : Nat
  srcCrew : Nat
  dstCrew : Nat
  payload : List Nat
  deriving DecidableEq, Repr

/-- What a Seam packet of firmware traffic carries: a crew message (R85) or a FIRE of a line (R83). -/
inductive SeamBody where
  | msg (m : CrewMsg)
  | fire (line : Nat)
  deriving DecidableEq, Repr

/-- A Seam packet under way (R14, R16): the tile it now stands at, the port it came in by, its destination. -/
structure SeamPkt where
  hop : Nat
  port : Nat
  dst : Nat
  body : SeamBody
  deriving DecidableEq, Repr

/-- The Seam (R13 to R17, R20). -/
structure SeamSt where
  flight : List SeamPkt := []
  /-- Ticks of a port's failed replays of the last 1 ms (R17). -/
  fails : SMap (List Nat) := []
  /-- Ports retraining after RESTART (R17). -/
  retraining : SMap Bool := []
  /-- Crossings discarding data up to the next frame boundary, keyed by tile, crossing and source (R20). -/
  discard : SMap Bool := []
  /-- A reroute waits for the end of a CTL restart (R17). -/
  rerouteDue : Bool := false
  deriving DecidableEq, Repr

/-- A section of a unit that awaits its exchange (R41): section number, kind and selector of the commit point, the
sequence that occurred, the tick of the occurrence, and of an output frame the input frame that builds it. -/
structure SecWait where
  sec : Nat
  kind : Nat
  sel : Nat
  seq : Nat
  n : Nat
  cnt : Option Nat := none
  deriving DecidableEq, Repr

/-- What a bench unit holds beside its words and its UNITu registers: words written since it became stale (R45),
whether a solo commit still awaits its occurrence (R42) and of which point (kind, selector, sequence), the kind and selector of the
last swap, sections still to exchange (R41). -/
structure UnitSt where
  written : List Nat := []
  solo : Bool := false
  point : Nat × Nat × Nat := (0, 0, 0)
  swap : Nat × Nat := (0, 0)
  waits : List SecWait := []
  deriving DecidableEq, Repr

/-- A transaction (R52 to R58). Masks have one bit per tile. -/
structure Txn where
  /-- 0 FREE, 1 OPEN, 2 PREPARING, 3 DECIDED, 4 ENDED. -/
  state : Nat := 0
  host : Bool := false
  tile : Nat := 0
  crew : Nat := 0
  result : Nat := 0
  /-- Owned units as tile * 32 + unit. -/
  units : List Nat := []
  /-- Distinct bench words written, as (tile * 32 + unit) * 2048 + word. -/
  words : List Nat := []
  /-- Result of a doom (R53). -/
  doom : Option Nat := none
  committed : Bool := false
  kind : Nat := 0
  sel : Nat := 0
  seq : Nat := 0
  epoch : Nat := 0
  part : Nat := 0
  late : Nat := 0
  failed : Nat := 0
  swapped : Nat := 0
  /-- Guard deadline D in ticks, absent for POS_CMP (R54). -/
  deadline : Option Nat := none
  /-- PREPARE on its way; checks passed, failed with FAULT, failed with STALE at the participant; answers on their way
  and received. -/
  prepSent : Nat := 0
  prepared : Nat := 0
  failFault : Nat := 0
  failStale : Nat := 0
  answerSent : Nat := 0
  answerGot : Nat := 0
  noRoute : Nat := 0
  /-- Decision (commit or not), tiles it is on its way to, tiles that have it, its tick. -/
  commit : Option Bool := none
  decSent : Nat := 0
  decGot : Nat := 0
  decidedAt : Nat := 0
  /-- Tiles whose units have been released, by swap or rollback. -/
  released : Nat := 0
  /-- POS_CMP: acknowledgements on their way and received, and whether the compare has been armed. -/
  ackSent : Nat := 0
  acked : Nat := 0
  cmpArmed : Bool := false
  /-- Tick of the occurrence; tiles that swapped; reports on their way and received. -/
  occurred : Option Nat := none
  didSwap : Nat := 0
  reached : Nat := 0
  reportSent : Nat := 0
  reported : Nat := 0
  deriving DecidableEq, Repr

/-- Benches and transactions (chapter 2). -/
structure BenchSt where
  units : SMap UnitSt := []
  txns : SMap Txn := []
  /-- Each source's own view of RC_DEFTAB: the word a source has moved to (R41). -/
  defView : SMap Nat := []
  /-- Parameter banks that have been written, keyed by tile and bank (R39): a bank absent here is EMPTY. -/
  bankFull : SMap Bool := []
  /-- Units that mark the frames they process DAMAGED (R58), keyed by tile and unit: 1 until the decision is known,
  then 2 + 4 * (mask of the tiles whose unit of that number took part). -/
  marks : SMap Nat := []
  /-- New epochs on their way from T0 to each tile, in order (R43). -/
  epochs : SMap (List Nat) := []
  /-- Frames refused by stale units (R44), for the health page (R376). -/
  refused : Nat := 0
  /-- Sections with a frame, picture or unit in progress (R41), keyed by section. -/
  busy : SMap Bool := []
  /-- Exchanges made and not yet acted on by their unit: section key and the words it used before. -/
  exchanged : List (Nat × List Nat) := []
  deriving DecidableEq, Repr

/-- What a WAITING crew waits in: a WAIT or WAITT with its mask, destination, deadline and channel, a TXCOMMIT with
its destination, a FENCE for DMA, a SEND with its destination and the number of its message (R81, R82, R85, R89). -/
inductive CrewWait where
  | lines (mask gd : Nat) (deadline : Option (Nat × Nat))
  | commit (gd : Nat)
  | dma
  | send (gd num : Nat)
  deriving DecidableEq, Repr

/-- A crew (R62, R63, R85, R95). -/
structure Crew where
  /-- 0 STOPPED, 1 READY, 2 WAITING, 3 FAULTED, 4 LOADING. -/
  state : Nat := 0
  g : SMap (BitVec 64) := []
  p : Nat := 1
  pc : Nat := 0
  inexc : Bool := false
  epc : Nat := 0
  cause : Nat := 0
  code : Nat := 0
  eval : Nat := 0
  evec : Nat := 0
  escratch : Nat := 0
  pending : Nat := 0
  tx : Option Nat := none
  instret : Nat := 0
  tsnapS : Nat := 0
  tsnapF : Nat := 0
  entry : Nat := 0
  recvq : List CrewMsg := []
  wait : Option CrewWait := none
  /-- Tick of the last issue, for the watchdog (R51). -/
  lastIssue : Nat := 0
  /-- Fetch buffer: the instructions fetched and not yet issued, with their address (R68). -/
  fetch : List (Nat × Nat) := []
  deriving DecidableEq, Repr

/-- A DMA descriptor in the queue (R86): its ticket, the crew that posted it. -/
structure DmaDesc where
  ticket : Nat
  crew : Nat
  src : Nat
  dst : Nat
  len : Nat
  line : Nat
  lineEn : Bool
  fill : Bool
  /-- The descriptor breaks a rule of R86, so it completes ACCESS_ERROR. -/
  bad : Bool
  deriving DecidableEq, Repr

/-- A tile's DMA engine: queue, next ticket, status of past tickets as (status code, bytes written). -/
structure DmaSt where
  queue : List DmaDesc := []
  next : Nat := 0
  status : SMap (Nat × Nat) := []
  deriving DecidableEq, Repr

/-- Crews, TCM and DMA (chapter 3). -/
structure CoreSt where
  crews : SMap Crew := []
  /-- TCM as 64-bit words: code TCM from word 0, data TCM from word 65,536 of each tile. -/
  tcm : SMap (BitVec 64) := []
  /-- Poison marks of TCM words (R69). -/
  tcmPoison : SMap Bool := []
  /-- Bytes of TCM words whose parity bit is flipped (R425). -/
  tcmParity : SMap Nat := []
  dma : SMap DmaSt := []
  /-- SYSBOUND of each tile as CODE_KIB + 65,536 * DATA_KIB (R95). -/
  sysbound : SMap Nat := []
  /-- Tick of the tile's last CTL reset, for CYCLE. -/
  tileReset : SMap Nat := []
  /-- Messages sent so far (R85). -/
  sends : Nat := 0
  /-- Tiles whose CTL island is restarting (R59). -/
  ctlBusy : SMap Bool := []
  deriving DecidableEq, Repr

/-- A copy of a native time channel (R97, R98): seconds, nanoseconds, fraction, and the increment in force in units
of 2^-32 ns. -/
structure Chan where
  sec : Nat := 0
  ns : Nat := 0
  frac : Nat := 0
  inc : Nat := 0x140000000
  deriving DecidableEq, Repr

/-- The package's steering of a native channel: the increment last accepted (R106), accepted increments with their
due ticks, and the pending step with its due tick (R102, R107). -/
structure Steer where
  acc : Nat := 0x140000000
  incs : List (Nat × Nat) := []
  step : Option (Nat × Int) := none
  deriving DecidableEq, Repr

/-- A capture unit (R111 to R113): queued values (seconds, nanoseconds, fraction), the streak of edges within 100 ns, and the tick of
the last edge, or of the enable before the first. -/
structure CapUnit where
  queue : List (Nat × Nat × Nat) := []
  streak : Nat := 0
  last : Nat := 0
  deriving DecidableEq, Repr

/-- The target of a geyser, applied: integer N and fraction (R117, R118); the tick of its last firing, plus 1. -/
structure GeyTgt where
  n : Nat := 0
  frac : Nat := 0
  last : Nat := 0
  deriving DecidableEq, Repr

/-- Time and geysers (chapter 4). -/
structure TimeSt where
  chans : SMap Chan := []
  steer : SMap Steer := []
  caps : SMap CapUnit := []
  gey : SMap GeyTgt := []
  /-- LC0: the tick count, the applied offset in units of 2^-32 ns and the applied rate in the same unit (R115). -/
  lcTicks : Nat := 0
  /-- Fraction of a tick counted in HOLDOVER, in units of 2^-24 (R116, R124). -/
  lcFrac : Nat := 0
  lcOfs : Nat := 0
  lcRate : Int := 0x140000000
  /-- Pulses of each XTRIG output not yet over: the ticks at which one leaves the pin and ends (R119). -/
  xtrig : SMap (List (Nat × Nat)) := []
  /-- The clock-loss sequence has run and recovery has not (R124). -/
  clockLost : Bool := false
  /-- Tick at which it began, and tick at which REFCLK was last found bad. -/
  lostAt : Nat := 0
  goodFrom : Nat := 0
  /-- Followers whose route lost a port and whose ROUTE_LAT is not yet rewritten (R104). -/
  holdRaised : SMap Bool := []
  /-- Followers that have had a compensated stamp since their reset (R104). -/
  stamped : SMap Bool := []
  /-- Ticks per AON cycle of each tile's own oscillator as they are, u8.24, 25 where unlisted; the part measures them, and no
  command changes them. The filter of AON_CAL: what the measured ratio has led it by, summed over AON cycles (R123). -/
  aon : SMap Nat := []
  calAcc : SMap Int := []
  /-- TIME_RTT measurements under way, by tile. -/
  rttBusy : SMap Bool := []
  /-- When each periodic action last happened, as the tick after it: by kind and place (R398, R403, R405, R420). -/
  periods : SMap Nat := []
  /-- Master stamps sent and not yet received: tile, channel stamps and tick count (R101). -/
  stamps : SMap (List (Nat × List Chan)) := []
  deriving DecidableEq, Repr

/-- A lane beside its registers (R132 to R151): consecutive valid headers while it hunts, block position since lock,
positions of recent invalid headers, the 58 bits the descrambler holds, consecutive Idle blocks, candidate boundary
(bit position modulo 66), whether it has been locked before, whether it hunts after a failed exit from idle and since when, whether
its pattern checker has met an error since it locked, the bits by which that checker expects the next one and how many it has found
correct in a row; the tick at which the eye scan under way began. -/
structure LaneSt where
  valid : Nat := 0
  pos : Nat := 0
  invalid : List Nat := []
  desc : Nat := 0
  idles : Nat := 0
  boundary : Nat := 0
  regained : Bool := false
  wakeHunt : Bool := false
  wakeAt : Nat := 0
  prbsErr : Bool := false
  chk : Nat := 0
  chkRun : Nat := 0
  eyeAt : Nat := 0
  deriving DecidableEq, Repr

/-- The transmitter of a lane at its pins (R131 to R133, R142, R143, R151): the 66-bit blocks it last sent, each a header with the
payload as scrambled; whether the burst of 256 UI of 1010 went before them; whether it now rests in electrical idle; what its scrambler
holds and the tick of those blocks; the tick at which its test pattern began. -/
structure LanePins where
  blocks : List (Nat × Nat) := []
  burst : Bool := false
  quiet : Bool := false
  scr : Nat := 0
  sentAt : Nat := 0
  genAt : Nat := 0
  sdi : List Nat := []
  deriving DecidableEq, Repr

/-- The PDM pins (R446, R447): half periods of the clocks begun since the start, the level of both clocks, and of each channel the bit last
latched. -/
structure PdmPins where
  halves : Nat := 0
  clk : Bool := false
  bits : Nat := 0
  deriving DecidableEq, Repr

/-- What the part puts on its output pins, and what it latches from inputs, beyond what its registers show. -/
structure PinSt where
  lanes : SMap LanePins := []
  pdm : PdmPins := {}
  deriving DecidableEq, Repr

/-- What a frame carries with its rows through the data path (R175, R35, R168, R184, R185, R199): source, counter,
Frame Start time N, tick of the Frame Start, width and height, the stripe word that held when it reached the tile,
status so far, RAWC's output pedestal and CFA bits, the blend weight with BLEND_FB, and the DVn_CFG word of the pipe that
developed it. -/
structure FrameHdr where
  src : Nat := 0
  cnt : Nat := 0
  n : Nat := 0
  tick : Nat := 0
  w : Nat := 0
  h : Nat := 0
  stripe : Nat := 0
  status : Nat := 0
  ped : Nat := 0
  cfa : Nat := 0
  alpha : Nat := 0
  fb : Bool := false
  fmt : Nat := 0
  tap : Nat := 0
  deriving DecidableEq, Repr

/-- What passes from unit to unit for a source: the opening of a frame, a row of samples (value + 2^20 * flags), the
close of the frame with its status. `held` says that the row takes line-store space (R172). -/
inductive Item where
  | openF (f : FrameHdr)
  | row (y : Nat) (px : List Nat) (held : Bool)
  | closeF (status : Nat)
  deriving DecidableEq, Repr

/-- One lane's part of a port line (R155 to R162): 0 nothing yet, 1 image, 2 embedded; its line and lane numbers,
SENSOR_ERR, payload bytes, and COUNT with CRC once its Line End has come. -/
structure AdLane where
  kind : Nat := 0
  line : Nat := 0
  glane : Nat := 0
  serr : Bool := false
  data : List Nat := []
  stop : Option (Nat × Nat) := none
  deriving DecidableEq, Repr

/-- The open frame of a port (R163 to R176). -/
structure AdFrame where
  hdr : FrameHdr := {}
  /-- Next expected image line E. -/
  e : Nat := 0
  status : Nat := 0
  shortLines : Nat := 0
  longs : Nat := 0
  dropped : Nat := 0
  crcLines : Nat := 0
  skipped : Nat := 0
  accepted : Nat := 0
  feLines : Nat := 0
  sstat : Nat := 0
  concMask : Nat := 0
  /-- Port lanes excluded at the Frame Start (R138). -/
  excluded : Nat := 0
  sgRaised : Bool := false
  /-- Port lines closed so far; rows of a group frame that have entered the line store; the port's own Frame Start and, for a member of a group, the lead's record have come; the
  combined status of the group stands here (R170, R171). -/
  pos : Nat := 0
  out : Nat := 0
  started : Bool := false
  recorded : Bool := false
  combined : Bool := false
  deriving DecidableEq, Repr

/-- Raw samples on their way to another tile of the group (R169): sending tile, counter, row, samples by column. -/
structure RawPiece where
  src : Nat
  cnt : Nat
  row : Nat
  cols : SMap Nat
  deriving DecidableEq, Repr

/-- A line report on its way to the lead (R171): member tile, frame counter, line position, LINE, tick of the line's close. -/
structure LineReport where
  tile : Nat
  cnt : Nat
  pos : Nat
  line : Nat
  tick : Nat
  deriving DecidableEq, Repr

/-- An Adit port (chapter 6). -/
structure AdPort where
  frame : Option AdFrame := none
  lanes : SMap AdLane := []
  /-- Reference lane (R138). -/
  refLane : Nat := 0
  /-- The port line in hand has been judged (R164): its line and whether it was accepted. -/
  judged : Option (Nat × Bool) := none
  /-- The line in hand found no room (R172). -/
  dropping : Bool := false
  /-- Line-store bytes reserved for the line in hand. -/
  reserved : Nat := 0
  /-- Ignoring blocks after a source mismatch, or quietly after a close under R177. -/
  ignoring : Bool := false
  quiet : Bool := false
  /-- Last Frame Start time and tick, the last intervals, the last counter, whether lateness has been raised. -/
  lastN : Option Nat := none
  lastTick : Nat := 0
  intervals : List Nat := []
  /-- The interval under way began before enable or a clock-loss recovery. -/
  gap : Bool := true
  lastCnt : Option Nat := none
  /-- FCNT of the last Frame Start (R167). -/
  lastFcnt : Option Nat := none
  localCnt : Nat := 0
  lateRaised : Bool := false
  /-- Embedded lane lines of the frame: ELINE, GLANE, COUNT, bytes received. -/
  emb : List (Nat × Nat × Nat × List Nat) := []
  /-- Group frame closed here and waiting for the combined status (R171). -/
  closing : Option AdFrame := none
  /-- The last group frame closed here without the combined status, which the lead still combines (R171, R177). -/
  cut : Option AdFrame := none
  /-- Counter of the last frame closed. -/
  gone : Option Nat := none
  /-- Rows of a group frame being gathered: row, samples by column (R169); samples of frames not yet open here. -/
  asm : List (Nat × SMap Nat) := []
  early : List RawPiece := []
  deriving DecidableEq, Repr

/-- An SPI or I2C controller (R179, R180): FIFOs and the transfer on the wire. -/
structure SerialSt where
  tx : List Nat := []
  rx : List Nat := []
  deriving DecidableEq, Repr

/-- Sensor ingress (chapter 6). -/
structure AditSt where
  ports : SMap AdPort := []
  /-- Line store of each source, in line order (R172, R173). -/
  store : SMap (List Item) := []
  /-- Stripes that the last frames of a source have, by frame counter, newest first (R35). -/
  stripes : SMap (List (Nat × Nat)) := []
  /-- Raw samples, Frame Start records and line reports on their way, keyed by destination tile and port. -/
  pieces : SMap (List RawPiece) := []
  records : SMap (List (FrameHdr × List Nat)) := []
  reports : SMap (List LineReport) := []
  /-- The lead's own lines of the open frame: position, LINE, tick. -/
  leadLines : SMap (List (Nat × Nat × Nat)) := []
  spi : SMap SerialSt := []
  i2c : SMap SerialSt := []
  deriving DecidableEq, Repr

/-- Halo columns of a row on their way or arrived (R22): sending tile, frame counter, row, samples of up to three planes. -/
structure Halo where
  src : Nat := 0
  cnt : Nat
  row : Nat
  px : List Nat
  c1 : List Nat := []
  c2 : List Nat := []
  deriving DecidableEq, Repr

/-- Optical-black sums of one row (R187): sending tile, counter, row, sum and count per phase, and with row 0 the clamp state. -/
structure ObMsg where
  src : Nat := 0
  cnt : Nat
  row : Nat
  sums : List Nat
  counts : List Nat
  clamp : Option (List Nat × Nat) := none
  deriving DecidableEq, Repr

/-- Statistics of one frame on one tile (R203 to R205): histogram by 256 * phase + bin, per-phase sum, count and
samples at or above CLIP_T, D and its points. -/
structure RawStats where
  tile : Nat := 0
  hdr : FrameHdr := {}
  hist : SMap Nat := []
  sums : List Nat := [0, 0, 0, 0]
  counts : List Nat := [0, 0, 0, 0]
  clips : List Nat := [0, 0, 0, 0]
  d : Nat := 0
  points : Nat := 0
  diffOk : Bool := false
  obEmpty : Bool := false
  tfault : Bool := false
  deriving DecidableEq, Repr

/-- A source's row context in RAWC (chapter 7). `lates` lists the halos found late, as 2 * row + side (R30); `defCut` and `lscCut` say
that a table's parity error has been met in the frame (R201). -/
structure RawCtx where
  frame : Option FrameHdr := none
  status : Nat := 0
  /-- X1 rows kept, the next row to leave stage 2, and the close once it has come. -/
  x1 : List (Nat × List Nat) := []
  next : Nat := 0
  rows : Nat := 0
  closed : Option Nat := none
  /-- Clamp state s[p], u20.8, and S_VALID by phase (R186). -/
  clamp : List Nat := [0, 0, 0, 0]
  sValid : Nat := 0
  /-- Sums of the last row, not yet applied: per phase sum and count. -/
  obSums : List Nat := [0, 0, 0, 0]
  obCounts : List Nat := [0, 0, 0, 0]
  obDue : Bool := false
  /-- Sums received from other tiles and not yet applied (R187). -/
  obIn : List ObMsg := []
  lost : Nat := 0
  crc : Nat := 0
  poison : Nat := 0
  stat : Nat := 0
  dyn : Nat := 0
  unrep : Nat := 0
  obEmpty : Bool := false
  overrun : Bool := false
  order : Bool := false
  haloLate : Bool := false
  lates : List Nat := []
  defCut : Bool := false
  lscCut : Bool := false
  stats : RawStats := {}
  /-- q of the previous frame by 65,536 * row + column, and whether it may be compared (R204). -/
  q : SMap Nat := []
  qOk : Bool := false
  deriving DecidableEq, Repr

/-- Planes of a developed or output row. -/
structure Row3 where
  y : List Nat := []
  c1 : List Nat := []
  c2 : List Nat := []
  deriving DecidableEq, Repr

/-- What passes at X3 and beyond. -/
inductive Item3 where
  | openF (f : FrameHdr)
  | row (y : Nat) (r : Row3)
  | closeF (status : Nat)
  deriving DecidableEq, Repr

/-- A develop pipe (chapter 8): open frame, rows at X2, rows quantised at 4:4:4, what is next at each; halos found late (R30); whether a
parity error of the tone curve or the LUT has been met in the frame (R226). -/
structure DevCtx where
  frame : Option FrameHdr := none
  status : Nat := 0
  x2 : List (Nat × List Nat) := []
  rows : Nat := 0
  next : Nat := 0
  full : List (Nat × Row3) := []
  nextOut : Nat := 0
  closed : Option Nat := none
  clips : Nat := 0
  haloLate : Bool := false
  lates : List Nat := []
  toneCut : Bool := false
  lutCut : Bool := false
  deriving DecidableEq, Repr

/-- A column range of an output row on its way to HOME (R237): sending tile, frame, row, first column and first chroma
sample, samples, frame status, CRC-32 of the sender's bench; `last` closes the frame. -/
structure RangeMsg where
  src : Nat
  hdr : FrameHdr
  row : Nat
  j0 : Nat
  i0 : Nat
  data : Row3
  status : Nat
  crc : Nat
  last : Bool
  deriving DecidableEq, Repr

/-- Assembly of a frame on HOME (R237, R238): rows in hand with their ranges, next row to deliver, tiles that have
closed and the tick of the first close. -/
structure AsmFrame where
  hdr : FrameHdr := {}
  status : Nat := 0
  rows : SMap (List RangeMsg) := []
  /-- Tick of the first range of each row. -/
  first : SMap Nat := []
  next : Nat := 0
  closedBy : List Nat := []
  closedAt : Option Nat := none
  lateRaised : Bool := false
  mismatch : Bool := false
  deriving DecidableEq, Repr

/-- A frame that a raster in DIRECT timing has slots for (R246): raster frame number, input frame, the status it closed
with, whether its last slot has passed, whether its first row has come. -/
structure DirectFrame where
  idx : Nat
  hdr : FrameHdr
  status : Option Nat := none
  done : Bool := false
  begun : Bool := false
  deriving DecidableEq, Repr

/-- An output channel (chapter 9). -/
structure OutCtx where
  /-- Frame at X3, its status so far, rows waiting for context, next output row, the close once it has come. -/
  frame : Option FrameHdr := none
  status : Nat := 0
  x3 : List (Nat × Row3) := []
  rows : Nat := 0
  next : Nat := 0
  closed : Option Nat := none
  haloLate : Bool := false
  /-- Halos substituted in the frame, as 2 * row + side (R30); unit taps stand for the coefficients to the end of the frame (R236). -/
  lates : List Nat := []
  coefCut : Bool := false
  /-- On HOME: the frame being assembled (R237), the Frame Start tick of the last one assembled (R238). -/
  asm : Option AsmFrame := none
  asmGone : Option Nat := none
  /-- On HOME: frames announced as output frames and not yet begun, as (counter, Frame Start tick), and the last frame announced as
  (output frame number, counter, tick) (R40, R41, R250). -/
  points : List (Nat × Nat) := []
  pointed : Option (Nat × Nat × Nat) := none
  /-- On HOME: the output frame open at the destination, rows delivered, what its record holds so far. -/
  open_ : Option FrameHdr := none
  sent : Nat := 0
  filled : Bool := false
  underrun : Nat := 0
  underrunRaised : Bool := false
  audUnder : Bool := false
  audRaised : Bool := false
  /-- A poisoned audio sample has been embedded as zero (R415). -/
  audBad : Bool := false
  waitMax : Nat := 0
  extra : Nat := 0
  /-- Output frame number; next slot of the frame store; bytes of a REC frame's planes. -/
  outFrame : Nat := 0
  slot : Nat := 0
  recY : List Nat := []
  recC : List Nat := []
  /-- SDI raster (R246): running, tick at which raster frame 0 started, raster frame and row of the next slot; rows in the
  transmit buffer as (raster frame * 65,536 + row, ready tick, row); the row last put on the lane. -/
  raster : Bool := false
  rasterTick : Nat := 0
  rasterN : Nat := 0
  rasterRow : Nat := 0
  txBuf : List (Nat × Nat × Row3) := []
  directs : List DirectFrame := []
  missed : Bool := false
  laneRow : Row3 := {}
  /-- Fields of the payload identifier of the raster frame: FORMAT, WIDE, RATE, DIV1001, YCC, TFN (R242); its embedded audio samples
  by PDM channel (R243). -/
  pid : List Nat := []
  audio : List (Nat × List Int) := []
  /-- FRAMED (R248): closed frames not yet sent, the one being sent, the last one sent without a bad bit, the last one sent; each as (slot,
  frame, status). -/
  ready : List (Nat × FrameHdr × Nat) := []
  sending : Option (Nat × FrameHdr × Nat) := none
  lastGood : Option (Nat × FrameHdr × Nat) := none
  lastSent : Option (Nat × FrameHdr × Nat) := none
  deriving DecidableEq, Repr

/-- Pixel path: halos, raw correction, develop, outputs (chapters 7 to 9). -/
structure PixSt where
  /-- Lines dispatched to RAWC, by source. -/
  rawIn : SMap (List Item) := []
  raw : SMap RawCtx := []
  /-- Halos sent and not yet received, and halos received; keyed by destination, point, source or pipe, side. -/
  haloOut : SMap (List Halo) := []
  haloIn : SMap (List Halo) := []
  obOut : SMap (List ObMsg) := []
  partials : SMap (List RawStats) := []
  /-- Partials T0 has of a source's frame: tiles that have reported, the sum. -/
  combine : SMap (List Nat × RawStats) := []
  x2 : SMap (List Item) := []
  dev : SMap DevCtx := []
  x3 : SMap (List Item3) := []
  out : SMap OutCtx := []
  ranges : SMap (List RangeMsg) := []
  /-- Banks of each tile's defect table in which a parity error stands: bit b for bank b (R201). -/
  defBad : SMap Nat := []
  /-- Blend weight of a source's last frame: counter, weight, whether it fell back (R199). -/
  alpha : SMap (Nat × Nat × Bool) := []
  /-- Position sampled for the exposure of a source's frame, by 4 * source + channel: frame counter and position
  (R199, R442). -/
  expo : SMap (Nat × Int) := []
  /-- Rows of the raw tap waiting for the Crusher, by source, and for the burst store, by 16 + source. -/
  tap : SMap (List Item) := []
  /-- SDI format last sent on a lane: FORMAT + 8 * WIDE + 16 * RATE + 128 * DIV1001, plus 1 (R244). -/
  sdiFmt : SMap Nat := []
  /-- Frames whose D has exceeded DIFF_THR, as (source, counter), on their way to the burst store's trigger (R286). -/
  diffOver : List (Nat × Nat) := []
  /-- Words of the parameter tables, keyed by tile, bank and table-window offset (R39). -/
  tables : SMap Word := []
  deriving DecidableEq, Repr

/-- A slab on its way to a lane or in one (R253 to R255): order of arrival, its frame's number in the stream, row, index,
slabs in its row, sample width, neighbour pitch, restart row, its samples (flags above 2^20) and those of slab i of row
y - d. -/
structure SlabJob where
  seq : Nat := 0
  fid : Nat := 0
  row : Nat := 0
  idx : Nat := 0
  n : Nat := 1
  b : Nat := 8
  d : Nat := 1
  restart : Bool := true
  px : List Nat := []
  above : List Nat := []
  deriving DecidableEq, Repr

/-- A finished slab in its lane (R259, R261): the payload as (value, width) code words. -/
structure Slab where
  job : SlabJob := {}
  raw : Bool := false
  damaged : Bool := false
  words : List (Nat × Nat) := []
  deriving DecidableEq, Repr

/-- A frame of a Crusher stream (R268, R270): its number in the stream; sample width, pitch, slab width and restart
interval it is coded with; rows taken and rows written whole; whether no further row enters, whether its close has
come; CLOSE_AT_FRAME, FREC_BASE and NREC as they were for it; a fault of crossing 5 discards what it has still to write; place of its
first header as chain number, descriptor index, byte offset. -/
structure CrFrame where
  fid : Nat := 0
  hdr : FrameHdr := {}
  status : Nat := 0
  b : Nat := 8
  d : Nat := 1
  slabW : Nat := 1024
  rst : Nat := 0
  rows : Nat := 0
  rowsIn : Nat := 0
  ended : Bool := false
  closed : Bool := false
  trunc : Bool := false
  dropped : Bool := false
  damaged : Bool := false
  closeAt : Bool := false
  ring : Nat × Nat := (0, 0)
  lost : Bool := false
  place : Option (Nat × Nat × Nat) := none
  deriving DecidableEq, Repr

/-- A chain of buffers and the writer's place in it (R262 to R265): base, descriptors, chain number, descriptor in use,
buffer address and length, EVT, bit position; FIRST_OFS with FCNT and ROW of the first header that begins in the buffer;
a poisoned word was written; a buffer is open; a chain is in use. `own` marks a buffer that REC supplies (R276), whose
bytes stand in `data`. -/
structure Writer where
  base : Nat := 0
  count : Nat := 0
  chain : Nat := 0
  desc : Nat := 0
  addr : Nat := 0
  len : Nat := 0
  evt : Bool := false
  bitPos : Nat := 0
  first : Option (Nat × Nat × Nat) := none
  poison : Bool := false
  inBuf : Bool := false
  haveChain : Bool := false
  own : Bool := false
  data : List Nat := []
  deriving DecidableEq, Repr

/-- A part of the slab in hand that stands in a buffer (R267): descriptor address, position of the part's first bit, the
buffer's FIRST_OFS, FCNT and ROW before it, EVT, POISON. -/
structure HandMark where
  at_ : Nat
  own : Bool
  bitPos : Nat
  first : Option (Nat × Nat × Nat)
  evt : Bool
  poison : Bool
  deriving DecidableEq, Repr

/-- A producer's unit waiting to become a chunk (R276): TYPE, the producer's number and take slot of the stream that records it, counter,
status, time, tick of its start, payload. -/
structure RecUnit where
  ty : Nat := 0
  src : Nat := 0
  take : Nat := 0
  cnt : Nat
  status : Nat
  n : Nat
  tick : Nat
  payload : List Nat
  deriving DecidableEq, Repr

/-- The slab in hand (R265): header still to place, code words still to place, the parts placed, and buffers that REC supplied which it
has filled and which go to REC when all of it is placed (R267, R276). -/
structure Hand where
  slab : Slab := {}
  last : Bool := false
  header : Bool := true
  words : List (Nat × Nat) := []
  marks : List HandMark := []
  held : List RecUnit := []
  deriving DecidableEq, Repr

/-- A Crusher stream (chapter 10): slabs waiting in the input store, in lanes, finished; the last rows taken; frames
not yet recorded, oldest first; the number of the frame whose rows are being taken. -/
structure CrStream where
  jobs : List SlabJob := []
  lanes : List SlabJob := []
  done : List Slab := []
  prev : List (Nat × List Nat) := []
  frames : List CrFrame := []
  taking : Option Nat := none
  dropping : Bool := false
  nextSeq : Nat := 0
  nextFid : Nat := 0
  chains : List (Nat × Nat) := []
  chainNo : Nat := 0
  w : Writer := {}
  hand : Option Hand := none
  deriving DecidableEq, Repr

/-- An offline job of the Crusher (R271 to R273): frame, row, column and slab index it works on; the decoder's descriptor
and bit position and the frame counter its buffers give; samples of the last decoded rows and slabs not decoded, by
65,536 * (row modulo 4) + slab; the writer and slab in hand of a COMPRESS job; an error has been seen; the next chain is to be searched
for its first header (R272). -/
structure CrJob where
  frame : Nat := 0
  row : Nat := 0
  col : Nat := 0
  slab : Nat := 0
  desc : Nat := 0
  bitPos : Nat := 0
  fcnt : Nat := 0
  prev : SMap (List Nat) := []
  failed : SMap Bool := []
  w : Writer := {}
  hand : Option Hand := none
  errSeen : Bool := false
  resync : Bool := false
  deriving DecidableEq, Repr

/-- An extent that a tile fills or has sent (R280): take, number, tile, bytes of its chunks and where they lie in the tile's DRAM, as
(address, bytes, whether in the reserve of the ring), tick of its first chunk, counters of the frames it holds, whether it is on its way to
the magazine, whether its WRITE has been issued. -/
structure Extent where
  take : Nat
  num : Nat
  tile : Nat
  len : Nat := 0
  parts : List (Nat × Nat × Bool) := []
  since : Nat := 0
  frames : List Nat := []
  sent : Bool := false
  issued : Bool := false
  deriving DecidableEq, Repr

/-- A swap of REC on a tile that starts or stops a take (R279, R282): its tick, and where it came at an OUT_FRAME point the channel that the
point names with the Frame Start of the input frame that builds the output frame named (R41). -/
structure RecPoint where
  tick : Nat := 0
  built : Option (Nat × Nat) := none
  deriving DecidableEq, Repr

/-- A take slot on T0 (R279 to R283): next extent number, durable extents at or beyond TKt_DUR; by tile the swaps that started and stopped
it; the tiles that hold a stream of it; the magazines that still want a FLUSH, once every extent has gone, and the FLUSHes outstanding;
the words it started with: TAKE_ID, EXT_LOG2, MAGS, START, LIMIT, FLUSH. -/
structure Take where
  nextExt : Nat := 0
  done : List Nat := []
  starts : SMap RecPoint := []
  stops : SMap RecPoint := []
  tiles : List Nat := []
  flushLeft : Option (List Nat) := none
  flushOut : Nat := 0
  id : Nat := 0
  ext : Nat := 0
  mags : Nat := 0
  base : Nat := 0
  limit : Nat := 0
  flush : Nat := 0
  deriving DecidableEq, Repr

/-- Burst index entry (R284): number of the frame since arming, counter, status, time, rows; a parity error marks it. -/
structure BurstEnt where
  ser : Nat := 0
  cnt : Nat := 0
  status : Nat := 0
  n : Nat := 0
  rows : Nat := 0
  deriving DecidableEq, Repr

/-- How a tile stores the frames of a burst (R284): source, first column and width of its stripe, the source's size, bits of a sample,
bytes of a row, place of slot 0, bytes of a slot, slots. -/
structure BurGeo where
  src : Nat := 0
  x : Nat := 0
  sw : Nat := 0
  w : Nat := 0
  h : Nat := 0
  bits : Nat := 0
  rb : Nat := 0
  base : Nat := 0
  bytes : Nat := 0
  slots : Nat := 1
  deriving DecidableEq, Repr

/-- A frozen burst as T0 presents it (R287, R288): frames, number of F_T among them, PRE_SHORT, PRE_LOST, size and bits of the frames. -/
structure BurV1 where
  n : Nat := 0
  pre : Nat := 0
  short : Bool := false
  lost : Nat := 0
  w : Nat := 0
  h : Nat := 0
  bits : Nat := 0
  deriving DecidableEq, Repr

/-- A tile's burst store (R284 to R290): index by slot; frames stored since arming; arming due at the next frame; the open
frame with its rows; how the tile stores; once triggered, number of F_T and of the stop frame and POST; writing has stopped; number of the
burst's first frame; a trigger notice on its way, as counter and time of F_T; on T0 the trigger's source, the tick of a BS_CMD.TRIGGER that
was taken, the tiles of the run with first column and bytes of a row, in stripe order, and the frozen burst. -/
structure Burst where
  index : SMap BurstEnt := []
  stored : Nat := 0
  armDue : Bool := false
  frame : Option FrameHdr := none
  rows : Nat := 0
  trig : Option Nat := none
  stopAt : Nat := 0
  stopped : Bool := false
  first : Nat := 0
  notice : Option (Nat × Nat) := none
  kind : Nat := 0
  geo : BurGeo := {}
  post : Nat := 0
  cmdTick : Option Nat := none
  cols : List (Nat × Nat × Nat) := []
  v1 : Option BurV1 := none
  deriving DecidableEq, Repr

/-- Crusher, recording, burst store (chapters 10 and 11). -/
structure RecSt where
  streams : SMap CrStream := []
  jobs : SMap CrJob := []
  units : SMap (List RecUnit) := []
  /-- RSk_CFG before a stream's last exchange and the tick of the exchange: units begun before it follow that word. -/
  before : SMap (Nat × Nat) := []
  extents : List Extent := []
  /-- By tile: where the next chunk goes in the ring, and the next GAP chunk in its reserve. -/
  rings : SMap (Nat × Nat) := []
  takes : SMap Take := []
  burst : SMap Burst := []
  deriving DecidableEq, Repr

/-- An input picture of an encode context (R306, R307): its frame, status, the pool buffer that holds it, whether it is a
repeat, found no buffer, starts a new coded video sequence; rows received, whether all of it is there. -/
structure EncPic where
  hdr : FrameHdr := {}
  status : Nat := 0
  buf : Option Nat := none
  rept : Bool := false
  overrun : Bool := false
  cvs : Bool := false
  rows : Nat := 0
  whole : Bool := false
  deriving DecidableEq, Repr

/-- A picture with its place in the structure (R307): type (0 IDR, 1 CRA, 2 I, 3 P, 4 B), POC, whether it is a reference,
whether a coded video sequence begins with it for a reason that R307 lists. -/
structure EncPlan where
  pic : EncPic := {}
  ty : Nat := 0
  poc : Nat := 0
  ref : Bool := false
  cvs : Bool := false
  deriving DecidableEq, Repr

/-- How a floored CTU is coded (R301): its SAO parameters (0 off, 1 merged from the left, 2 merged from above), whether its CUs are skipped with
merge index 0 or else intra DC with no coded block, and their number. -/
structure FloorCode where
  sao : Nat := 0
  skip : Bool := true
  cus : Nat := 0
  deriving DecidableEq, Repr

/-- A CTU in the sump (R299, R304): its bound, bytes of syntax, tile column, and how it is coded where it is floored. -/
structure SumpCtu where
  bound : Nat
  bytes : Nat
  col : Nat := 0
  floor : Option FloorCode := none
  deriving DecidableEq, Repr

/-- A member's part of a picture (R303, R304): cap, bound ub, CTUs coded, floored, number of floored CTUs, the CTUs that wait in the sump, bits
of the finished CTUs by tile column; QP of the row and sum of QPs; SAD of each CTU row; QP of the first row; stalled on its quota; its syntax
or its pool accesses discarded at a crossing (R20). -/
structure EncMember where
  cap : Int := 0
  share : Int := 0
  ub : Nat := 0
  ctu : Nat := 0
  floored : Bool := false
  floorCtus : Nat := 0
  pend : List SumpCtu := []
  done : SMap Nat := []
  qp : Int := 0
  qpSum : Nat := 0
  sad : SMap Nat := []
  qpBase : Int := 0
  stalled : Bool := false
  lost : Bool := false
  noPool : Bool := false
  deriving DecidableEq, Repr

/-- A picture in the pixel engines or on its way through the entropy engines (R302, R303): its plan, L_n, header bound, target, members by
tile, a bench mismatch (R297), poison read from the pool (R307) or the sump, whether the CPB is at its initial fullness before it. -/
structure EncCoding where
  plan : EncPlan := {}
  l : Int := 0
  h : Nat := 0
  target : Int := 0
  members : SMap EncMember := []
  mismatch : Bool := false
  poison : Bool := false
  sumpBad : Bool := false
  start : Bool := false
  deriving DecidableEq, Repr

/-- Margins of a CTU row of a reference picture on their way to the tile of the column beside (R297): tile they come from, pool buffer, and
what goes where in the buffer. -/
structure EncMargin where
  src : Nat := 0
  buf : Nat := 0
  puts : List (Nat × List Nat) := []
  deriving DecidableEq, Repr

/-- An encode context (chapter 12); on HOME unless said otherwise. Pictures waiting in input order, pictures placed in
coding order, the picture being coded, those whose CTUs have all gone to the sump; pictures planned since the last IRAP; next POC; POC of each
pool buffer and the buffers of references in the order they finished; pictures since a long-term picture was marked; L of the next picture and
the CPB fullness as numerator and denominator; last input counter; what the next picture must start; SADs by (type * 8 + tile) * 4096 + row;
QP and bits of the last picture of each type. On a member: margins on their way to it, and how many have come for each pool buffer. -/
structure EncCtx where
  queue : List EncPic := []
  plan : List EncPlan := []
  coding : Option EncCoding := none
  leaving : List EncCoding := []
  sinceIrap : Nat := 0
  poc : Nat := 0
  pocs : SMap Nat := []
  refs : List Nat := []
  sinceLtr : Nat := 0
  l : Option Int := none
  full : Int × Nat := (0, 1)
  lastCnt : Option Nat := none
  forceIrap : Bool := false
  needIdr : Bool := true
  needCvs : Bool := false
  sad : SMap Nat := []
  lastQp : SMap Nat := []
  lastBits : SMap Nat := []
  suspendDue : Bool := false
  cancelDue : Bool := false
  /-- Offline frames taken from memory. -/
  taken : Nat := 0
  margins : List EncMargin := []
  marginGot : SMap Nat := []
  deriving DecidableEq, Repr

/-- A decoded picture in the pool (R315 to R317): POC, record fields, cropped size, and how it stands in the pool: coded size, first column
and row of what is written out, 4:2:2. -/
structure DecPic where
  poc : Int := 0
  latency : Nat := 0
  cnt : Nat := 0
  status : Nat := 0
  n : Nat := 0
  word14 : Nat := 0
  w : Nat := 0
  h : Nat := 0
  ofs : Nat := 0
  codedW : Nat := 0
  codedH : Nat := 0
  cropX : Nat := 0
  cropY : Nat := 0
  c422 : Bool := false
  deriving DecidableEq, Repr

/-- A decode context on HOME (chapter 13): pictures by buffer; place in the stream, end of input in force, FINAL; pictures
decoded; still before its first IRAP; RASL pictures to skip; POCs of the coded video sequence; pictures to be written out
before an IRAP; slots written (modulo 512), next slot to write and, by a linked encoder, to read; a wait for the ring counted; a stop
under way as the state to enter with the error words; SUSPEND or CANCEL due; reorder, latency and buffering of the sequence; POC
of the last picture written out. -/
structure DecCtx where
  pool : SMap DecPic := []
  pos : Nat := 0
  inEnd : Nat := 0
  final : Bool := false
  order : Nat := 0
  first : Bool := true
  noRasl : Bool := false
  seen : List Int := []
  flush : Bool := false
  written : Nat := 0
  slot : Nat := 0
  readSlot : Nat := 0
  waiting : Bool := false
  stop : Option (Nat × List Nat) := none
  suspendDue : Bool := false
  cancelDue : Bool := false
  reorder : Nat := 0
  latency : Nat := 0
  dpb : Nat := 16
  lastOut : Option Int := none
  /-- The next picture waits for room in the pool (R316). -/
  room : Bool := false
  /-- A crossing has damaged the picture in progress (R20). -/
  xing : Bool := false
  deriving DecidableEq, Repr

/-- HEVC encoder and decoder. -/
structure HevcSt where
  /-- Output rows on their way to an encode context, by HOME and context (R239, R296). -/
  encIn : SMap (List Item3) := []
  enc : SMap EncCtx := []
  dec : SMap DecCtx := []
  deriving DecidableEq, Repr

/-- A transaction packet (R338). -/
structure Pkt where
  ty : Nat := 0
  poison : Bool := false
  last : Bool := false
  tag : Nat := 0
  ofs : Nat := 0
  param : Nat := 0
  body : List Nat := []
  deriving DecidableEq, Repr

/-- An LPL link beside its registers (R326 to R337). Training: consecutive TRAIN blocks of each port lane, lanes this end and
the far end have seen, widths the far end offers, tick of the first lane seen by both, width chosen, lanes whose ALIGN has
come. Receiver: last good SEQ, tick of the NAK outstanding, SEQ of the last ACK and NAK sent, packets accepted and not yet
acted on, credit totals raised and last sent. Sender: next SEQ, last acknowledged SEQ, replay buffer, packets waiting,
credits used and advertised by the far end, replays without progress, tick of the last progress. -/
structure Lpl where
  trains : SMap Nat := []
  seen : Nat := 0
  far : Nat := 0
  farWidths : Nat := 7
  bothAt : Option Nat := none
  chosen : Option Nat := none
  aligned : Nat := 0
  wrongRole : Bool := false
  rxSeq : Nat := 4095
  nakAt : Option Nat := none
  ackSent : Nat := 4095
  nakSent : Nat := 4095
  rxq : List Pkt := []
  hTot : Nat := 0
  dTot : Nat := 0
  hSent : Nat := 0
  dSent : Nat := 0
  nextTx : Nat := 0
  acked : Nat := 4095
  replay : List (Nat × Pkt) := []
  txq : List Pkt := []
  hUsed : Nat := 0
  dUsed : Nat := 0
  hFar : Nat := 0
  dFar : Nat := 0
  noAdv : Nat := 0
  progress : Nat := 0
  /-- Tick at which RETRAIN was entered. -/
  since : Nat := 0
  /-- Transmitters in electrical idle (R355). -/
  idle : Bool := false
  deriving DecidableEq, Repr

/-- A command of the part to a magazine (R358): opcode, what it is for (0 extent of a take, 1 flush of a take, 2 a block range
for a host command, 3 an ABORT of another tag), take slot or host tag, extent or first block, capsule, bytes to write or
read so far, 8-byte words of the bytes to write that are poisoned, poison met, tick of issue, RESPONSE status with XFERRED and INFO. -/
structure MagCmd where
  tag : Nat
  op : Nat
  use : Nat
  who : Nat
  num : Nat
  cap : List Nat := []
  data : List Nat := []
  bad : List Nat := []
  poison : Option Nat := none
  sent : Nat := 0
  issued : Nat := 0
  aborting : Bool := false
  status : Option Nat := none
  info : List Nat := []
  deriving DecidableEq, Repr

/-- A command of the host (R340 to R348): tag, 64-byte capsule, arrival number; started, held in an activation window (R351);
open windows as (offset, end, next offset), offset of the next window, DATA received as (offset, bytes), poisoned runs of it as
(first byte, end); progress in the units of its checkpoints; bytes moved; first poisoned offset delivered; two counters of the
operation, its first failing block and the bytes it gathers; the SUSPEND or CANCEL that waits for its checkpoint as (opcode,
tag); a RESUME that continues a suspended operation. -/
structure HostCmd where
  tag : Nat
  cap : List Nat
  arr : Nat
  started : Bool := false
  held : Bool := false
  wins : List (Nat × Nat × Nat) := []
  winNext : Nat := 0
  parts : List (Nat × List Nat) := []
  bad : List (Nat × Nat) := []
  pos : Nat := 0
  moved : Nat := 0
  poison : Option Nat := none
  n1 : Nat := 0
  n2 : Nat := 0
  first : Option Nat := none
  bytes : List Nat := []
  stop : Option (Nat × Nat) := none
  resumed : Bool := false
  deriving DecidableEq, Repr

/-- A suspended long operation (R384): its OPID and what it continues from. -/
structure HostOp where
  opid : Nat
  cmd : HostCmd
  deriving DecidableEq, Repr

/-- An error-log entry (R372). -/
structure ErrEnt where
  seq : Nat
  n : Nat
  kind : Nat
  tag : Nat
  op : Nat
  link : Nat
  status : Nat
  vol : Nat
  first : Nat
  blocks : Nat
  info : List Nat
  deriving DecidableEq, Repr

/-- The host's commands and logs (chapters 14 and 15). -/
structure HostSt where
  cmds : List HostCmd := []
  nextArr : Nat := 0
  /-- WRITEs that ended with a status other than SUCCESS since the last link reset, which a later FLUSH reports (R342):
  arrival number, volume, status, tag. -/
  failed : List (Nat × Nat × Nat × Nat) := []
  ops : List HostOp := []
  nextOpid : Nat := 1
  /-- TIME_EXCHANGE requests held (R357): XID, T1, receive stamp, NOT_P0. -/
  texs : List (Nat × List Nat × (Nat × Nat) × Bool) := []
  errLog : List ErrEnt := []
  errSeq : Nat := 0
  errLost : Nat := 0
  /-- V15 bytes that are not 0, by offset (R366); before step 4 those of the boot region (R526). -/
  v15 : SMap Nat := []
  /-- Poisoned 8-byte words of V15, by offset / 8. -/
  v15Poison : SMap Bool := []
  /-- Activation window (R351): 0 none, 1 waiting for earlier commands, 2 restart under way; the FW_COMMIT's tag. -/
  act : Nat := 0
  actTag : Nat := 0
  actAt : Nat := 0
  actOld : Nat := 0
  /-- Entry into a power state under way: the SET_FEATURE's tag (R353). -/
  entryTag : Option Nat := none
  /-- The debug nonce valid for the next unlock (R380). -/
  nonce : Option (List Nat) := none
  /-- Programs loaded by LOAD_PROGRAM, for ATTEST: bytes by 8 * tile + crew. -/
  programs : SMap (List Nat) := []
  deriving DecidableEq, Repr

/-- A write-queue entry (R401): the 64-byte line as tile address / 64, its byte mask, its 64 bytes, whether the
bytes are poisoned. -/
structure WqEnt where
  line : Nat
  mask : Nat
  data : List Nat
  poison : Bool
  deriving DecidableEq, Repr

/-- A correction-log entry (R422, R423): word address, first and last time N, corrections, corrections since the word
was last written, RECURRENT. -/
structure CorrEnt where
  addr : Nat
  first : Nat
  last : Nat
  count : Nat
  since : Nat
  recurrent : Bool
  deriving DecidableEq, Repr

/-- The tracking table of a bank (R403): rows with counts, and the spill count. -/
structure RowTab where
  rows : List (Nat × Nat) := []
  spill : Nat := 0
  deriving DecidableEq, Repr

/-- A request that waits for its channel (R401, R406, R408): port, tile address, write or read, for a real-time requester, and for a
write the line's mask and bytes. -/
structure McReq where
  port : Nat
  addr : Nat
  wr : Bool
  rt : Bool
  mask : Nat := 0
  data : List Nat := []
  deriving DecidableEq, Repr

/-- A channel of a tile's memory controller beside its registers. -/
structure McChan where
  wq : List WqEnt := []
  /-- Requests that wait until the channel serves them, oldest first. -/
  waits : List McReq := []
  /-- Open row of each bank (bank + 16 * rank). -/
  openRows : SMap Nat := []
  /-- Tick after the last access to each bank (R396). -/
  used : SMap Nat := []
  tables : SMap RowTab := []
  /-- Ticks of the uncorrectable words found in the last 1 ms (R409). -/
  ueTicks : List Nat := []
  /-- Mitigations charged to each port in the window, and the charges made to REMOTE for real-time requests
  (R405). -/
  charges : SMap Nat := []
  remoteRt : Bool := false
  /-- Victim rows waiting for their refresh: bank and row (R404). -/
  victims : List (Nat × Nat) := []
  /-- Entered self-refresh in the clock-loss sequence (R408). -/
  clockSr : Bool := false
  deriving DecidableEq, Repr

/-- DRAM beside its bytes: the memory controller and integrity (chapters 16 and 17). -/
structure MemSt where
  chans : SMap McChan := []
  /-- Bits of each stored 72-bit word that differ from the code word of the data the model holds (R411): data bits
  63 to 0, check bits 71 to 64. Keyed by tile * 2^33 + address / 8. -/
  ecc : SMap Nat := []
  /-- The poison map (R412), same key. -/
  pmap : SMap Bool := []
  /-- Words whose error an injector made (R425), same key. -/
  injected : SMap Bool := []
  corr : SMap (List CorrEnt) := []
  corrSeq : Nat := 0
  /-- Entries of each tile's correction log replaced since its last clear (R371, R422). -/
  corrLost : SMap Nat := []
  /-- Deficit of each real-time port on each channel (R394). -/
  deficit : SMap Nat := []
  /-- Streams that an overrun discards up to their frame boundary: tile, port, stream (R395). -/
  overrun : SMap Bool := []
  /-- SRAM whose next written byte gets its parity flipped waits in SRAM_INJ; flips made and not yet read. -/
  sramFlip : SMap Bool := []
  /-- Corrected and uncorrectable words of each tile since POR_N (R376), scrub passes completed. -/
  ceTotal : SMap Nat := []
  ueTotal : SMap Nat := []
  passTotal : Nat := 0
  /-- Channels whose MR4 last read above the operating range, by tile and channel (R398). -/
  hot : SMap Bool := []
  /-- MRCMD commands and training runs under way, by tile and channel (R406). -/
  mrBusy : SMap Bool := []
  trBusy : SMap Bool := []
  deriving DecidableEq, Repr

/-- A position channel beside its registers (R428 to R438). The sample before: angle, once there is one, tick and time of
each channel; positions of the last 8 us as (tick, position), newest first (R442). Last edge: tick, once
there is one, and position; last speed in PERIOD. Consecutive samples outside or within the amplitude window; tick at
which the last fault went. Position and tick at the start of the COUNT window. -/
structure PosCh where
  angle : Option Nat := none
  tick : Nat := 0
  times : List Nat := []
  hist : List (Nat × Int) := []
  edgeTick : Option Nat := none
  edge : Int := 0
  spd : Int := 0
  bad : Nat := 0
  good : Nat := 0
  clearTick : Nat := 0
  faulty : Bool := false
  winP : Int := 0
  winTick : Nat := 0
  deriving DecidableEq, Repr

/-- A trigger a lens sampler has taken (R442): tick and time of the edge, tick of its report, the positions. -/
structure LensTrig where
  tick : Nat
  n : Nat
  at_ : Nat
  pos : List Int
  deriving DecidableEq, Repr

/-- A lens sampler (R442, R443): trigger reports on their way as (tick, time); triggers taken, newest first; the Frame Start
of the last record and the one before it. -/
structure Lens where
  reports : List (Nat × Nat) := []
  trigs : List LensTrig := []
  lastN : Option Nat := none
  deriving DecidableEq, Repr

/-- Position feedback (chapter 18): channels; targets and captures of each compare by 8 * channel + compare; lens
samplers. -/
structure PosSt where
  ch : SMap PosCh := []
  tgt : SMap Nat := []
  caps : SMap (List Nat) := []
  lens : SMap Lens := []
  deriving DecidableEq, Repr

/-- A PDM channel beside its registers (R450 to R452): 0 no fade, 1 fading in, 2 fading out, 3 ramp in, 4 ramp out; block at
which the fade began; the last sample; blocks lost since the last one written; the blocks its ring holds, newest first, each as (start
number, block, slot). -/
structure AudCh where
  fade : Nat := 0
  since : Nat := 0
  last : Option Int := none
  lost : Nat := 0
  ring : List (Nat × Nat × Nat) := []
  deriving DecidableEq, Repr

/-- PDM audio beside its registers (chapter 19): channels; a step has moved ts since the last block; fades begun at the last
adoption have not all ended; the start is still in its warm-up. -/
structure AudSt where
  ch : SMap AudCh := []
  stepped : Bool := false
  fading : Bool := false
  warm : Bool := false
  deriving DecidableEq, Repr

/-- A job of the arbiter (R464 to R468): kind, tile and unit index (or, for a command, its tag and operation id in `idx`), tiles
involved; 0 waiting, 1 running, 2 paused, 3 pausing; ticks of its arrival, of its last admission or resumption and of its
pause; whether its admission is a RESUME. -/
structure ArbJob where
  kind : Nat
  tile : Nat
  idx : Nat
  tiles : Nat
  st : Nat := 0
  arrived : Nat := 0
  started : Nat := 0
  pausedAt : Nat := 0
  resume : Bool := false
  deriving DecidableEq, Repr

/-- A thermal site beside its register (R457, R458): samples in a row with one reading, the other sites' readings when the row
began, whether one of them has changed by more than 2 degrees since; whether the last sample lay at CRIT or above. -/
structure ThSite where
  same : Nat := 0
  base : List Int := []
  moved : Bool := false
  crit : Bool := false
  deriving DecidableEq, Repr

/-- A record of the MRAM ring (R374, R470). -/
structure ThermRec where
  seq : Nat
  n : Nat
  tile : Nat
  site : Nat
  cause : Nat
  plim : Nat
  temp : Nat
  ack : Bool
  deriving DecidableEq, Repr

/-- What AON's MRAM holds; it survives POR_N (R470, R508): the ring, oldest first, the SEQ of the next record, seconds powered
and thermal shutdowns since manufacture, records overwritten since the last clear (R371). -/
structure Mram where
  ring : List ThermRec := []
  seq : Nat := 1
  secs : Nat := 0
  shutdowns : Nat := 0
  lost : Nat := 0
  deriving DecidableEq, Repr

/-- Thermal, power and the arbiter (chapter 20): sites by tile; tick, plus 1, of the last sample that was not cool and free of
DRAM_HOT (R460); last 1 ms tick taken; the LIMITED cap applies (R459, R471); jobs, admissions of the last 100 us as (tick,
cost) (R465); passes of negative headroom since the last pause (R466); RT_BUDGET_EXCEEDED occurrences and tick of the last
one (R467); tick of THERM_SHDN.ARM, plus 1; shutdown begun as (cause, tile, site, temperature); the two pins (R469); the
MRAM and the tick at which its seconds were last counted. -/
structure PwrSt where
  sites : SMap ThSite := []
  hotTick : Nat := 0
  plimTick : Nat := 0
  limCap : Bool := false
  jobs : List ArbJob := []
  recent : List (Nat × Nat) := []
  negRun : Nat := 0
  rtCount : Nat := 0
  rtTick : Nat := 0
  armTick : Nat := 0
  shutdown : Option (Nat × Nat × Nat × Nat) := none
  thermtrip : Bool := false
  pwrOff : Bool := false
  mram : Mram := {}
  secTick : Nat := 0
  /-- Lane losses of lock, LPL replays and Seam replays since POR_N (R376). -/
  laneLosses : Nat := 0
  lplReplays : Nat := 0
  seamReplays : Nat := 0
  deriving DecidableEq, Repr

/-- One event source on one tile: when it last occurred, whether an occurrence was routed since its status bit was
last cleared (R477), whether an earlier root of it stands (R480), and the fault-log number of the root its last
occurrence counts under (R483). -/
structure Occ where
  last : Option Nat := none
  routed : Bool := false
  rootOpen : Bool := false
  rootSeq : Option Nat := none
  deriving DecidableEq, Repr

/-- An occurrence held by a spoil (R481), and the dependent occurrences that count under the root it becomes when it
is routed (R483). -/
structure HeldOcc where
  tile : Nat
  id : Nat
  inj : Bool
  count : Nat
  n : Nat
  expiry : Nat
  deps : Nat := 0
  deriving DecidableEq, Repr

/-- A fault-log entry (R373). -/
structure FaultEnt where
  seq : Nat
  n : Nat
  id : Nat
  tile : Nat
  sev : Nat
  inj : Bool
  dep : Nat
  deriving DecidableEq, Repr

/-- An ASYNC_EVENT waiting to be sent (R356). -/
structure AsyncMsg where
  tile : Nat
  id : Nat
  sev : Nat
  inj : Bool
  root : Bool
  n : Nat
  deriving DecidableEq, Repr

/-- Events, spoil and isolation (chapter 21). -/
structure EvtSt where
  occ : SMap Occ := []
  /-- Tick at which tile t's spoil last received an occurrence of a source of tile u (R480), plus 1. -/
  remote : SMap Nat := []
  heldOccs : List HeldOcc := []
  faultLog : List FaultEnt := []
  faultSeq : Nat := 0
  faultLost : Nat := 0
  /-- Fault-log number of the root each tile's SPOIL_ROOT holds. -/
  latched : SMap Nat := []
  asyncQ : List AsyncMsg := []
  /-- SET_FEATURE ASYNC_ENABLE (R377). -/
  asyncEnable : Bool := true
  /-- Isolations due at the end of the command: tile, event, tile that raised it, through ISO_CTL. -/
  isoDue : List (Nat × Nat × Nat × Bool) := []
  /-- Unit-abort requests outstanding: tile and unit mask of each (R485). -/
  aborts : List (Nat × Nat) := []
  deriving DecidableEq, Repr

/-- Start-up, flash, pins and JTAG (chapters 22 and 23). OTP stands in the BOOT registers and, where nothing reads it, in
`Config`. -/
structure BootSt where
  /-- POR_N is low. -/
  porLow : Bool := false
  /-- The boot ROM has started since POR_N rose. -/
  romRunning : Bool := false
  /-- A boundary-scan instruction has held the data path since the last POR_N reset (R513). -/
  jtagHold : Bool := false
  /-- Instruction of each tile's TAP, IDCODE where unlisted, and the data register it selects (R512). -/
  jtag : SMap Nat := []
  jtagData : SMap Nat := []
  /-- A rail has left its range since POR_N rose (R504). -/
  railBad : Bool := false
  /-- What the boot flash holds (R527). -/
  flash : FlashData := {}
  /-- The board record is valid (R528). -/
  boardOk : Bool := false
  /-- The host is selected as boot source (R523); both slots have been rejected with no host allowed. -/
  hostSel : Bool := false
  failed : Bool := false
  /-- The image in the boot region (R526), whether it has passed its checks; the one it replaced in an activation. -/
  img : List Nat := []
  imgOk : Bool := false
  imgOld : List Nat := []
  /-- The slot of the running firmware, 0 A or 1 B (R369). -/
  slot : Nat := 0
  /-- T0's own regulator has not answered (R536). -/
  stuck : Bool := false
  /-- Tag of the FW_COMMIT whose image runs at step 4 (R526). -/
  runTag : Option Nat := none
  deriving DecidableEq, Repr

/-- Why the machine stops with a fault. -/
inductive Fault where
  /-- Raised by POR_N_ASSERT for a low level longer than 1 us and shorter than 10 us, which R508 leaves
  undefined. Safe: the model stops where the part's behaviour is not stated. -/
  | porWidthUndefined
  deriving DecidableEq, Repr

/-- Why a command has no meaning. -/
inductive Refusal where
  /-- Raised by the dispatch for a command that has no meaning yet. Safe. -/
  | notModelled (mnemonic : String)
  deriving DecidableEq, Repr

/-- The whole package. -/
structure State where
  /-- Which member this part is (R1); never changes. -/
  member : Member := .tiles8
  /-- The temperature grade (R2); never changes. -/
  grade : Grade := .s
  /-- Ticks of the 800 MHz time clock counted since POR_N release (R115): the model's time base. -/
  now : Nat := 0
  /-- Every register word that differs from its reset value, keyed by tile and offset; the active copy of a
  bench word lies 0x8000 above its shadow (R546). -/
  regs : SMap Word := []
  /-- DRAM bytes, keyed by tile * 2^36 + address (R388); an unlisted byte reads as 0. -/
  dram : List Host.Cell := []
  /-- DRAM bytes stored so far by the command in progress, newest first; empty between commands. -/
  writes : List Host.Cell := []
  /-- Position of the next free value taken from `Config.free` where the spec states none. -/
  freeCtr : Nat := 0
  /-- Register-pair snapshots of each accessor and held low halves of each tile (R8, R66, R544). -/
  snaps : SMap Word := []
  held : SMap Word := []
  /-- What the last read command of each accessor (0 the host, 1 + 8 t + c crew c of tile t) answered; none where it was refused. -/
  answers : SMap Word := []
  /-- Seam links and crossings. -/
  seam : SeamSt := {}
  /-- Benches and transactions. -/
  bench : BenchSt := {}
  /-- Crews, TCM, DMA. -/
  core : CoreSt := {}
  /-- Time channels, captures, geysers. -/
  time : TimeSt := {}
  /-- Serial lanes, keyed by tile and lane. -/
  lanes : SMap LaneSt := []
  /-- Output pins. -/
  pins : PinSt := {}
  /-- Sensor ingress. -/
  adit : AditSt := {}
  /-- Pixel path. -/
  pix : PixSt := {}
  /-- Crusher, recording and the burst store. -/
  store : RecSt := {}
  /-- HEVC encoder and decoder. -/
  hevc : HevcSt := {}
  /-- LPL links, keyed by tile and link. -/
  lpl : SMap Lpl := []
  /-- Commands outstanding on each tile's magazine link. -/
  mags : SMap (List MagCmd) := []
  /-- Host commands, logs and firmware service. -/
  host : HostSt := {}
  /-- Memory controllers and integrity. -/
  mem : MemSt := {}
  /-- Position channels, compares and lens samplers. -/
  pos : PosSt := {}
  /-- PDM audio. -/
  audio : AudSt := {}
  /-- Thermal sensing, power and the job arbiter. -/
  pwr : PwrSt := {}
  /-- Events, spoil, isolation. -/
  evt : EvtSt := {}
  /-- Start-up, OTP, flash, security. -/
  boot : BootSt := {}
  /-- Commands waiting, first in, first out. -/
  pending : List Instr := []
  deriving DecidableEq, Repr

/-- The package right after reset (R12, R100, R522): every register at its reset value, every memory and
queue empty. -/
def State.reset : State := {}

end Sys2Proof.Machine
end

