-- ==== Sys2Proof/Machine/RegReset.lean ====
section
/-!
DEFINITION. Reset values of registers: the numbers of the register tables, and the rules for the registers whose
reset value depends on the tile's position, the member, the grade, the event source or the unit.
-/

namespace Sys2Proof.Machine

/-- The offset lies on a register array. -/
def dimsHit : List (Nat × Nat) → Nat → Bool
  | [], r => r == 0
  | (st, c) :: ds, r => decide (r / st < c) && dimsHit ds (r % st)

/-- The register that a table row defines covers the offset. -/
def RegDef.hit (d : RegDef) (off : Nat) : Bool := decide (d.base ≤ off) && dimsHit d.dims (off - d.base)

/-- The register tables of the block that holds an offset (R545). -/
def blockRegs (off : Nat) : List RegDef :=
  match off / 0x10000 with
  | 0x00 => regsTILE | 0x01 => regsEVT | 0x02 => regsSPOIL | 0x03 => regsTIME
  | 0x04 => regsLANE | 0x05 => regsLANE | 0x06 => regsADIT | 0x07 => regsADIT
  | 0x08 => regsRAWC | 0x09 => regsRAWC | 0x0A => regsDEV | 0x0B => regsDEV
  | 0x0C => regsOUT | 0x0D => regsOUT | 0x0E => regsCRUSH | 0x0F => regsREC
  | 0x10 => regsHEVCE | 0x11 => regsHEVCE | 0x12 => regsHEVCD | 0x13 => regsHEVCD
  | 0x14 => regsPLINK | 0x15 => regsPLINK | 0x16 => regsMC | 0x17 => regsMC
  | 0x18 => regsINTEG | 0x19 => regsINTEG | 0x1A => regsTHERM | 0x1B => regsTHERM
  | 0x1C => regsCREW | 0x1D => regsCREW | 0x1E => regsBENCH | 0x1F => regsBENCH
  | 0x20 => regsSEAM | 0x21 => regsSEAM | 0x22 => regsPOS | 0x23 => regsAUDIO
  | 0x24 => regsSEC | 0x25 => regsBOOT
  | _ => []

/-- The register at an offset, by its own address. -/
def regDef? (off : Nat) : Option RegDef := (blockRegs off).find? fun d => d.hit off

/-- The fields' reset values put together. -/
def fieldsReset : List RegField → Nat
  | [] => 0
  | x :: xs => x.reset % 2 ^ x.w * 2 ^ x.lo + fieldsReset xs

/-- Reset severity of an event source on a tile, 0 INFO to 3 FATAL (the event tables of the chapters;
EV_BOOT_VCORE is FATAL when raised for T0, R541). -/
def evtSev (t i : Nat) : Nat :=
  if i = 0 ∨ i = 2 ∨ i = 3 ∨ i = 14 ∨ i = 290 ∨ i = 297 ∨ i = 305 ∨ i = 16 ∧ t = 0 then 3
  else if i ∈ [4, 5, 8, 9, 15, 16, 56, 58, 75, 77, 79, 80, 89, 99, 104, 105, 115, 116, 117, 130, 132, 142, 166, 168, 169,
      180, 181, 192, 193, 194, 195, 196, 197, 199, 201, 205, 206, 226, 231, 233, 234, 241, 244, 245, 261, 262, 263,
      273, 274, 285, 291, 293, 306, 307] ∨ 32 ≤ i ∧ i ≤ 55 then 2
  else if i ∈ [10, 13, 17, 18, 20, 23, 57, 60, 68, 69, 70, 71, 72, 73, 74, 76, 78, 84, 85, 86, 87, 88, 90, 96, 97, 98, 100,
      101, 113, 114, 118, 129, 131, 141, 143, 146, 147, 164, 165, 167, 202, 203, 204, 208, 225, 228, 229, 243, 246, 256,
      258, 259, 260, 264, 265, 275, 276, 278, 279, 283, 284, 287, 288, 289, 294, 295, 296, 298, 300, 301, 302, 309] then 1
  else 0

/-- Sources whose STICKY resets to 1 (R484). -/
def evtSticky (i : Nat) : Bool := i ∈ [0, 2, 8, 9, 192, 193, 194, 195, 234, 305]

/-- Reset word of EVT_CFGi: severity, the routes that follow from it (R476), STICKY (R484), ISOLATE (R487). -/
def evtCfgReset (t i : Nat) : Nat :=
  let sev := evtSev t i
  sev + (if 2 ≤ sev then 0x200 else 0) + (if sev = 3 then 0x400 else 0) + (if evtSticky i then 0x800 else 0) +
    (if i = 3 then 0x1000 else 0)

/-- A map entry: ids first to first + span on its own tile (where 0), on T0 (where 1) or on any tile (where 2). -/
def depWord (first span wh : Nat) : Nat := first + span * 0x200 + wh * 0x4000 + 0x80000

/-- The reset dependency map: every dependency the chapters state (R484). -/
def depReset (i k : Nat) : Nat :=
  let refclk := depWord 8 1 2
  let l : List Nat :=
    if i = 89 then [depWord 56 0 0, refclk]
    else if i = 115 then [depWord 0 0 1, depWord 192 5 2, refclk]
    else if i = 196 then [depWord 0 0 1, depWord 192 3 2, refclk]
    else if i = 197 then [depWord 0 0 1, depWord 192 3 2]
    else if i = 142 then [depWord 0 0 1, depWord 199 0 2, depWord 201 0 2, refclk]
    else if i = 5 then [depWord 0 0 1]
    else if 32 ≤ i ∧ i ≤ 58 ∨ i = 75 ∨ i = 180 ∨ i = 199 ∨ i = 201 ∨ 261 ≤ i ∧ i ≤ 263 then [refclk]
    else if i = 74 then [depWord 32 15 0]
    else if i = 104 ∨ i = 131 ∨ i = 169 ∨ i = 181 then [depWord 241 1 0, depWord 244 0 0]
    else if i = 167 then [depWord 169 0 0, depWord 8 1 0]
    else if i = 168 then [depWord 192 5 0]
    else if i = 206 then [depWord 8 1 0, depWord 199 0 0, depWord 201 0 0]
    else if i = 225 ∨ i = 226 ∨ i = 241 then [depWord 234 0 0]
    else if i = 231 then [depWord 288 1 0]
    else if i = 285 then [depWord 226 0 0]
    else if i = 293 ∨ i = 294 then [depWord 292 0 0]
    else []
  l.getD k 0

/-- Words of each bench unit (UNITu_INFO; R546). -/
def unitWords (u : Nat) : Nat :=
  if u ≤ 3 then 13 else if u = 4 then 129 else if u ≤ 6 then 23 else if u ≤ 10 then 22 else if u = 11 then 64
  else if u = 12 then 92 else if u ≤ 16 then 35 else if u ≤ 20 then 22 else if u ≤ 24 then 1 else 0

/-- Buffer per channel of a real-time port in bytes, 0 for a best-effort port (R392). -/
def portBuffer (p : Nat) : Nat :=
  if p = 0 then 4096 else if p ≤ 3 then 16384 else if p = 4 then 2048 else 0

/-- JOB_COSTj at reset (R464). -/
def jobCostReset (j : Nat) : Nat := [600, 300, 2000, 2000, 500, 800, 1500, 1500].getD j 0

/-- Design power in mW (R1). -/
def Member.tdp : Member → Nat
  | .tiles2 => 34000
  | .tiles4 => 66000
  | .tiles8 => 128000

/-- Reset values that the tables give by a rule. -/
def resetSpecial (m : Member) (g : Grade) (t off : Nat) : Option Nat :=
  if off < 0x10000 then
    if off = 0x000 then some (t % 8 + (if t = 0 then 8 else 0) + m.tiles * 16 + 0xA100)
    else if off = 0x010 then some (if t = 0 then 0x01 else 0x81)
    else if off = 0x014 then some (if t = 0 then 0x0101 else 0x8181)
    else none
  else if 0x10400 ≤ off ∧ off < 0x10900 then some (evtCfgReset t ((off - 0x10400) / 4))
  else if 0x21000 ≤ off ∧ off < 0x22400 then some (depReset ((off - 0x21000) / 16) (off % 16 / 4))
  else if off = 0x30108 then some (if t = 0 then 0x3000 else 0x1000)
  else if 0x40000 ≤ off ∧ off < 0x60000 ∧ off % 0x800 = 0 then
    some (if t = 0 ∧ 20 ≤ (off - 0x40000) / 0x800 ∧ (off - 0x40000) / 0x800 ≤ 23 then 4 else 0)
  else if 0xA0000 ≤ off ∧ off < 0xC0000 ∧ 0x1C ≤ off % 0x8000 ∧ off % 0x8000 ≤ 0x3C then
    some (if (off % 0x8000 - 0x1C) % 16 = 0 then 0x10000 else 0)
  else if off = 0x140000 then some (if t = 0 then 0x348 else 0x108)
  else if off = 0x140400 then some 0x108
  else if off = 0x140018 then some (512 + 32768 * 0x10000)
  else if off = 0x140418 then some (256 + 16384 * 0x10000)
  else if 0x160100 ≤ off ∧ off < 0x1601F0 ∧ off % 16 = 0 then
    some (4 + (if portBuffer ((off - 0x160100) / 16) = 0 then 0 else 16))
  else if 0x160100 ≤ off ∧ off < 0x1601F0 ∧ off % 16 = 4 then
    some (portBuffer ((off - 0x160100) / 16) / 8 + portBuffer ((off - 0x160100) / 16) / 16 * 0x10000)
  else if off = 0x1A0068 then some (match g with | .s => 0x0730 | .x => 0x0780)
  else if off = 0x1A010C then some m.tdp
  else if 0x1A0140 ≤ off ∧ off < 0x1A0160 then some (jobCostReset ((off - 0x1A0140) / 4))
  else if 0x1C0000 ≤ off ∧ off < 0x1C0200 ∧ off % 64 = 0 then some (if (off - 0x1C0000) / 64 < 2 then 8 else 0)
  else if off = 0x1E0008 then some 0x01FFFFFF
  else if 0x1E0100 ≤ off ∧ off < 0x1E0420 ∧ off % 32 = 0x0C then some (unitWords ((off - 0x1E0100) / 32))
  else if off = 0x250010 then some 1
  else if off = 0x250014 then some 1
  else none

/-- Block bases whose register + 0x8000 holds the active copy of a bench word (R546). -/
def mirrorOf (off : Nat) : Option Nat :=
  let o := off % 0x10000
  let b := off / 0x10000
  if 0x8000 ≤ o ∧ o < 0x8000 + 0x1000 ∧ b ∈ [0, 6, 8, 0xA, 0xB, 0xC, 0xE, 0xF, 0x10, 0x12] then some (off - 0x8000)
  else none

/-- A register word is bench-backed when one of its fields is (R6). -/
def RegDef.isBench (d : RegDef) : Bool := d.fields.any fun x => x.acc == .rwb

/-- The reset value of the register word at an offset of a tile, 0 where no register lies. -/
def resetReg (m : Member) (g : Grade) (t off : Nat) : Nat :=
  match resetSpecial m g t off with
  | some v => v
  | none =>
    match regDef? off with
    | some d => fieldsReset d.fields
    | none =>
      match mirrorOf off with
      | none => 0
      | some o =>
        match regDef? o with
        | some d => if d.isBench then fieldsReset d.fields else 0
        | none => 0

end Sys2Proof.Machine
end

