-- ==== Sys2Proof/Machine/Ops.lean ====
section
/-!
DEFINITION. The named operations every meaning is built from: bit fields, sparse maps, register words, memory bytes,
free values, tiles.
-/

namespace Sys2Proof.Machine

/-! ### Bit fields and integers -/

/-- Field [lo+w-1:lo] of a value. -/
def bits (n lo w : Nat) : Nat := (n >>> lo) % 2 ^ w

/-- A value with field [lo+w-1:lo] replaced. -/
def setBits (n lo w v : Nat) : Nat := n - bits n lo w * 2 ^ lo + v % 2 ^ w * 2 ^ lo

/-- Two's complement reading of the low w bits (R3). -/
def sx (w n : Nat) : Int := if n % 2 ^ w < 2 ^ (w - 1) then (n % 2 ^ w : Nat) else (n % 2 ^ w : Nat) - (2 ^ w : Nat)

/-- The low w bits of an integer, as an unsigned number. -/
def ux (w : Nat) (i : Int) : Nat := (i % (2 ^ w : Nat)).toNat

/-- Saturation to a range (R4). -/
def clampI (lo hi i : Int) : Int := if i < lo then lo else if hi < i then hi else i

/-- Rounding of a fixed-point value half towards positive infinity (R4): add half, shift right arithmetically. -/
def rnd (sh : Nat) (i : Int) : Int := if sh = 0 then i else (i + (2 ^ (sh - 1) : Nat)).fdiv (2 ^ sh : Nat)

/-- Arithmetic shift right, towards negative infinity. -/
def sra (i : Int) (k : Nat) : Int := i.fdiv (2 ^ k : Nat)

/-- Count up to a limit. -/
def satAdd (lim a b : Nat) : Nat := min lim (a + b)

/-- One bit of a mask. -/
def bit (m i : Nat) : Bool := m.testBit i

/-- A mask with one bit set. -/
def orBit (m i : Nat) : Nat := m ||| 1 <<< i

/-- A mask with one bit clear. -/
def clrBit (m i : Nat) : Nat := if m.testBit i then m - 1 <<< i else m

def b2n (b : Bool) : Nat := if b then 1 else 0

/-! ### Sparse maps -/

/-- The entry of a key. -/
def smLook {α : Type} : SMap α → Nat → Option α
  | [], _ => none
  | (j, v) :: m, k => if j = k then some v else smLook m k

/-- What a key reads as, given what unlisted keys read as. -/
def smGet {α : Type} (m : SMap α) (k : Nat) (d : α) : α := (smLook m k).getD d

/-- Put a key in its place in the rising order. -/
def smIns {α : Type} (k : Nat) (v : α) : SMap α → SMap α
  | [] => [(k, v)]
  | (j, w) :: m => if k < j then (k, v) :: (j, w) :: m else if j = k then (k, v) :: m else (j, w) :: smIns k v m

/-- Drop every entry of a key. -/
def smDel {α : Type} (k : Nat) : SMap α → SMap α
  | [] => []
  | (j, w) :: m => if j = k then smDel k m else (j, w) :: smDel k m

/-- Write a key: a value equal to what an unlisted key reads as removes the entry. -/
def smPut {α : Type} [DecidableEq α] (m : SMap α) (k : Nat) (v d : α) : SMap α :=
  if v = d then smDel k m else smIns k v m

/-- Key of item i of tile t. -/
def tk (t i : Nat) : Nat := t * 0x100000 + i

/-! ### Registers -/

/-- Key of a register: tile and offset in the tile window. -/
def regKey (t off : Nat) : Nat := t * 0x1000000 + off

/-- The word a register holds. -/
def State.word (s : State) (t off : Nat) : Word :=
  smGet s.regs (regKey t off) (BitVec.ofNat 32 (resetReg s.member s.grade t off))

/-- The word a register holds, as a number. -/
def State.reg (s : State) (t off : Nat) : Nat := (s.word t off).toNat

/-- Write a register word. -/
def State.setReg (s : State) (t off v : Nat) : State :=
  { s with regs := smPut s.regs (regKey t off) (BitVec.ofNat 32 v) (BitVec.ofNat 32 (resetReg s.member s.grade t off)) }

/-- A field of a register. -/
def State.f (s : State) (t : Nat) (r : FRef) : Nat := bits (s.reg t r.off) r.lo r.w

/-- A one-bit field as a truth value. -/
def State.on (s : State) (t : Nat) (r : FRef) : Bool := s.f t r ≠ 0

/-- A signed field. -/
def State.fi (s : State) (t : Nat) (r : FRef) : Int := sx r.w (s.f t r)

/-- Write a field of a register. -/
def State.setF (s : State) (t : Nat) (r : FRef) (v : Nat) : State :=
  s.setReg t r.off (setBits (s.reg t r.off) r.lo r.w v)

/-- Set or clear a one-bit field. -/
def State.setB (s : State) (t : Nat) (r : FRef) (b : Bool) : State := s.setF t r (b2n b)

/-- Count in a saturating field. -/
def State.addF (s : State) (t : Nat) (r : FRef) (n : Nat) : State :=
  s.setF t r (satAdd (2 ^ r.w - 1) (s.f t r) n)

/-- A 64-bit register pair, low word first (R8). -/
def State.reg64 (s : State) (t lo : Nat) : Nat := s.reg t lo + s.reg t (lo + 4) * 2 ^ 32

/-- Write a 64-bit register pair. -/
def State.setReg64 (s : State) (t lo v : Nat) : State :=
  (s.setReg t lo (v % 2 ^ 32)).setReg t (lo + 4) (v / 2 ^ 32 % 2 ^ 32)

/-- The active copy of a bench field, 0x8000 above its shadow (R546). -/
def FRef.act (r : FRef) : FRef := { r with off := r.off + 0x8000 }

/-- A field of the active bench. -/
def State.a (s : State) (t : Nat) (r : FRef) : Nat := s.f t r.act

def State.aOn (s : State) (t : Nat) (r : FRef) : Bool := s.on t r.act

def State.aI (s : State) (t : Nat) (r : FRef) : Int := s.fi t r.act

/-- A 64-bit pair of the active bench. -/
def State.a64 (s : State) (t lo : Nat) : Nat := s.reg64 t (lo + 0x8000)

/-! ### Free values -/

/-- The next free value and the state that has moved past it. -/
def State.fresh (s : State) : Nat × State := ((Config.free s.freeCtr).toNat, { s with freeCtr := s.freeCtr + 1 })

/-- Free bytes. -/
def State.freshBytes (s : State) : Nat → State × List Nat
  | 0 => (s, [])
  | n + 1 =>
    let r := s.fresh
    let q := r.2.freshBytes n
    (q.1, r.1 % 256 :: q.2)

/-! ### Tiles and islands -/

/-- The number of tiles of the part (R1). -/
def State.tiles (s : State) : Nat := s.member.tiles

/-- The part has this tile. -/
def State.has (s : State) (t : Nat) : Bool := t < s.tiles

/-- The tile is in RUN (TILE_STATE). -/
def State.run (s : State) (t : Nat) : Bool := s.has t && s.f t TILE_STATE_STATE == 1

/-- The tile is isolated. -/
def State.isolated (s : State) (t : Nat) : Bool := s.f t TILE_STATE_STATE == 2

/-- The tiles of the part. -/
def State.tileList (s : State) : List Nat := List.range s.tiles

/-- The tiles in RUN. -/
def State.runTiles (s : State) : List Nat := s.tileList.filter s.run

/-- An island has power good (R12); islands are numbered in the order of ISL_PWR. -/
def State.island (s : State) (t i : Nat) : Bool := bit (s.f t ISL_STAT_PGOOD) i

/-- POR_N is low, or a boundary-scan instruction holds the data path as if it were (R508, R513). -/
def State.holds (s : State) : Bool := s.boot.porLow || s.boot.jtagHold

/-- A tile of the part that is not isolated, with power good on an island, out of reset (R12, R487, R513). -/
def State.up (s : State) (t i : Nat) : Bool := s.has t && !s.isolated t && s.island t i && !s.holds

/-- The island is up and the PLL outputs run (R124). -/
def State.live (s : State) (t i : Nat) : Bool := s.up t i && !s.time.clockLost

/-- A periodic action of a kind, at a place, may happen again: `ticks` have passed since it last did (log 15). -/
def State.periodDue (s : State) (kind i ticks : Nat) : Bool :=
  match smGet s.time.periods (kind * 2 ^ 20 + i) 0 with
  | 0 => true
  | n + 1 => decide (n + ticks ≤ s.now)

/-- It has happened now. -/
def State.setPeriod (s : State) (kind i : Nat) : State :=
  { s with time.periods := smPut s.time.periods (kind * 2 ^ 20 + i) (s.now + 1) 0 }

/-- A periodic action: nothing before its period has passed. -/
def State.inPeriod (s : State) (kind i ticks : Nat) (f : State → State) : State :=
  if s.periodDue kind i ticks then f (s.setPeriod kind i) else s

/-- Repeat a state change for every item of a list. -/
def State.each {α : Type} (s : State) (l : List α) (f : State → α → State) : State := l.foldl f s

/-- A state change made only under a condition. -/
def State.when (s : State) (b : Bool) (f : State → State) : State := if b then f s else s

/-! ### DRAM bytes -/

/-- Key of DRAM byte A of tile t. -/
def dkey (t a : Nat) : Nat := t * 2 ^ 36 + a % 2 ^ 36

/-- A byte of DRAM as stored: a byte stored by the command in progress first, then memory; 0 where nothing was
written (DESIGN CHOICE, log 3). -/
def State.dbyte (s : State) (t a : Nat) : Nat :=
  match smLook s.writes (dkey t a) with
  | some b => b.toNat
  | none => (smGet s.dram (dkey t a) 0).toNat

/-- Store one byte of DRAM; it reaches memory when the command ends. -/
def State.setDbyte (s : State) (t a v : Nat) : State :=
  { s with writes := (dkey t a, BitVec.ofNat 8 v) :: s.writes }

/-- Store bytes from an address upwards. -/
def State.setDbytes (s : State) (t a : Nat) : List Nat → State
  | [] => s
  | b :: bs => (s.setDbyte t a b).setDbytes t (a + 1) bs

/-- n bytes from an address upwards. -/
def State.dbytes (s : State) (t a n : Nat) : List Nat := (List.range n).map fun i => s.dbyte t (a + i)

/-- The bytes of a number, little-endian (R5). -/
def leBytes : Nat → Nat → List Nat
  | 0, _ => []
  | n + 1, v => v % 256 :: leBytes n (v / 256)

/-- A number from bytes, little-endian (R5). -/
def leNum : List Nat → Nat
  | [] => 0
  | b :: bs => b + 256 * leNum bs

/-- The form that memory is held in: addresses strictly rising, no entry equal to what an unlisted address reads
as. -/
def memWf : List Host.Cell → Bool
  | [] => true
  | [(_, v)] => v ≠ 0
  | (a, v) :: (b, w) :: m => v ≠ 0 && a < b && memWf ((b, w) :: m)

/-- Bytes stored by a command reach memory in the order they were stored; `ws` is newest first. -/
def memCommit (m : List Host.Cell) (ws : List Host.Cell) : List Host.Cell :=
  ws.foldr (fun c m => smPut m c.1 c.2 0) m

end Sys2Proof.Machine
end

