-- ==== Sys2Proof/Machine/HevcSyntax.lean ====
section
/-!
DEFINITION. What an access unit must say before its substreams (R294, R296, R307): its NAL units, and the fields of its parameter sets and of its
slice segment header that the spec fixes. How these stand in the bit stream is the syntax of ITU-T H.265 (PRESUMED, log 94); what the spec leaves
to the encoder is read and not judged.
-/

namespace Sys2Proof.Machine

/-! ### NAL units -/

/-- The byte stream cut at its start codes 00 00 01, without the zero bytes around them. -/
def nalSplit : List Nat → List Nat → List (List Nat)
  | [], cur => [cur]
  | 0 :: 0 :: 1 :: l, cur => cur :: nalSplit l []
  | b :: l, cur => nalSplit l (b :: cur)

/-- The NAL units of a byte stream that begins with a start code. -/
def nalUnits (l : List Nat) : Option (List (List Nat)) :=
  match nalSplit l [] with
  | [] => none
  | a :: us => if a.all (· = 0) then some (us.map fun u => (u.dropWhile (· = 0)).reverse) else none

/-- nal_unit_type; none for a header with a layer or without a temporal id. -/
def nalType : List Nat → Option Nat
  | a :: b :: _ => if bit a 7 ∨ a % 2 * 32 + b / 8 ≠ 0 ∨ b % 8 = 0 then none else some (a / 2 % 64)
  | _ => none

/-- The bytes without emulation prevention. -/
def nalBytes : Nat → List Nat → List Nat
  | _, [] => []
  | z, b :: l => if z = 2 ∧ b = 3 then nalBytes 0 l else b :: nalBytes (if b = 0 then min 2 (z + 1) else 0) l

/-- The payload's bits, most significant first. -/
def nalBits (u : List Nat) : List Bool := (nalBytes 0 (u.drop 2)).flatMap fun b => (List.range 8).map fun i => bit b (7 - i)

/-! ### Reading bits -/

/-- A reader takes what it reads off the bits, or fails. -/
abbrev BitRead := StateT (List Bool) Option

def bitsTake : Nat → List Bool → Option (Nat × List Bool)
  | 0, l => some (0, l)
  | n + 1, b :: l => (bitsTake n l).map fun x => (b2n b * 2 ^ n + x.1, x.2)
  | _ + 1, [] => none

/-- Zero bits before the next one, which is taken too. -/
def zerosTake : List Bool → Option (Nat × List Bool)
  | [] => none
  | true :: l => some (0, l)
  | false :: l => (zerosTake l).map fun x => (x.1 + 1, x.2)

/-- u(n). -/
def rdU (n : Nat) : BitRead Nat := bitsTake n

/-- ue(v). -/
def rdUe : BitRead Nat := do
  let z ← (zerosTake : BitRead Nat)
  let v ← rdU z
  return 2 ^ z - 1 + v

def rdFlag : BitRead Bool := do return (← rdU 1) == 1

def need (p : Bool) : BitRead Unit := if p then return () else failure

def wantU (n v : Nat) : BitRead Unit := do need ((← rdU n) == v)

def wantUe (v : Nat) : BitRead Unit := do need ((← rdUe) == v)

def wantUes : List Nat → BitRead Unit
  | [] => return ()
  | v :: l => do wantUe v; wantUes l

def skipU (n : Nat) : BitRead Unit := do let _ ← rdU n

def skipUes : Nat → BitRead Unit
  | 0 => return ()
  | n + 1 => do let _ ← rdUe; skipUes n

/-- Read something where a condition holds. -/
def also_ (c : Bool) (p : BitRead Unit) : BitRead Unit := if c then p else return ()

/-- ue(v) as the encoder writes it. -/
def ueBits (v : Nat) : List Bool :=
  let n := Nat.log2 (v + 1)
  List.replicate n false ++ (List.range (n + 1)).map fun i => bit (v + 1) (n - i)

def uBits (n v : Nat) : List Bool := (List.range n).map fun i => bit v (n - 1 - i)

/-! ### What is wanted -/

/-- What the words of a context and of its pipe ask of an access unit (R293, R294, R307): AUD_EN, SAO_EN, LTR_EN, CBR; picture type; whether the
picture is a reference; profile, tier and level; size, 4:2:2; of a live input the bit depth, range, YCC; TFN; TICK and SCALE; widths of the tile
columns in CTUs. -/
structure AuWant where
  aud : Bool := false
  sao : Bool := false
  ltr : Bool := false
  cbr : Bool := true
  ty : Nat := 0
  ref : Bool := false
  profile : Nat := 0
  tier : Nat := 0
  level : Nat := 0
  w : Nat := 0
  h : Nat := 0
  c422 : Bool := false
  pipe : Option (Nat × Bool × Nat) := none
  tfn : Nat := 0
  tick : Nat := 0
  scale : Nat := 0
  cols : List Nat := []

def AuWant.irap (x : AuWant) : Bool := x.ty ≤ 1

/-- Sizes rounded up to a multiple of 8 (R294). -/
def coded8 (n : Nat) : Nat := (n + 7) / 8 * 8

/-- transfer_characteristics that TFN allows (R242): SDR-TV has four codes, HLG and PQ one each, UNSPEC the unspecified one. -/
def tfnCodes (tfn : Nat) : List Nat := if tfn = 0 then [1, 6, 14, 15] else if tfn = 1 then [18] else if tfn = 2 then [16] else [2]

/-! ### Parameter sets -/

/-- profile_tier_level with sub-layers. -/
def rdLevels : List (Bool × Bool) → BitRead Unit
  | [] => return ()
  | x :: l => do also_ x.1 (skipU 88); also_ x.2 (skipU 8); rdLevels l

def rdPresence : Nat → BitRead (List (Bool × Bool))
  | 0 => return []
  | n + 1 => do
    let a ← rdFlag
    let b ← rdFlag
    return (a, b) :: (← rdPresence n)

def wantPtl (x : AuWant) (subs : Nat) : BitRead Unit := do
  wantU 2 0
  wantU 1 x.tier
  wantU 5 (if x.profile = 2 then 4 else x.profile + 1)
  skipU 80
  wantU 8 x.level
  let l ← rdPresence subs
  also_ (subs != 0) (skipU (2 * (8 - subs)))
  rdLevels l

/-- Sub-layers of the HRD parameters: fixed_pic_rate_within_cvs_flag = 1, one schedule, cbr_flag from MODE (R294). -/
def wantHrdSubs (x : AuWant) (vcl : Bool) : Nat → BitRead Unit
  | 0 => return ()
  | n + 1 => do
    let g ← rdFlag
    also_ (!g) (wantU 1 1)
    skipUes 1
    wantUe 0
    skipUes 2
    wantU 1 (b2n x.cbr)
    also_ vcl do skipUes 2; skipU 1
    wantHrdSubs x vcl n

/-- NAL HRD parameters without sub-picture parameters (R294). -/
def wantHrd (x : AuWant) (subs : Nat) : BitRead Unit := do
  wantU 1 1
  let vcl ← rdFlag
  wantU 1 0
  skipU 23
  wantHrdSubs x vcl (subs + 1)

/-- VUI: colour description, range, chroma location 0, timing (R294). -/
def wantVui (x : AuWant) (subs : Nat) : BitRead Unit := do
  also_ (← rdFlag) do also_ ((← rdU 8) == 255) (skipU 32)
  also_ (← rdFlag) (skipU 1)
  wantU 1 1
  skipU 3
  let full ← rdFlag
  wantU 1 1
  let p ← rdU 8
  let t ← rdU 8
  let m ← rdU 8
  need ((tfnCodes x.tfn).contains t && match x.pipe with
    | some (_, f, ycc) => full == f && p == (if ycc = 1 then 9 else 1) && m == (if ycc = 1 then 9 else 1)
    | none => true)
  also_ (← rdFlag) (wantUes [0, 0])
  skipU 1
  wantU 1 0
  skipU 1
  also_ (← rdFlag) (skipUes 4)
  wantU 1 1
  wantU 32 x.tick
  wantU 32 x.scale
  also_ (← rdFlag) (skipUes 1)
  wantU 1 1
  wantHrd x subs

/-- The SPS: sizes and conformance window, CTU, CU and TU sizes, hierarchy depths, tools, VUI and HRD (R294). -/
def wantSps (x : AuWant) : BitRead Unit := do
  wantU 4 0
  let subs ← rdU 3
  skipU 1
  wantPtl x subs
  wantUes [0, if x.c422 then 2 else 1, coded8 x.w, coded8 x.h]
  let crop ← rdFlag
  need (crop || (coded8 x.w == x.w && coded8 x.h == x.h))
  also_ crop (wantUes [0, (coded8 x.w - x.w) / 2, 0, (coded8 x.h - x.h) / (if x.c422 then 1 else 2)])
  let d ← rdUe
  wantUe d
  need (match x.pipe with
    | some (b, _, _) => d + 8 == b
    | none => d ≤ (if x.profile = 0 then 0 else 2))
  let lsb ← rdUe
  skipUes (3 * if ← rdFlag then subs + 1 else 1)
  wantUes [0, 3, 0, 3, 1, 1]
  wantU 1 0
  wantU 1 0
  wantU 1 (b2n x.sao)
  wantU 1 0
  wantUe 0
  let lt ← rdFlag
  need (lt || !x.ltr)
  also_ lt do skipU ((← rdUe) * (lsb + 5))
  wantU 1 1
  skipU 1
  wantU 1 1
  wantVui x subs

/-- Widths of tile columns spaced uniformly. -/
def uniformCols (n ctus : Nat) : List Nat := (List.range n).map fun i => (i + 1) * ctus / n - i * ctus / n

/-- The PPS: one set, quantisation groups of a CTU, sign data hiding, tiles in one row with widths from COLMAP, deblocking on with offsets 0
(R294). -/
def wantPps (x : AuWant) : BitRead Unit := do
  wantUes [0, 0]
  wantU 1 0
  skipU 1
  wantU 3 0
  wantU 1 1
  skipU 1
  skipUes 3
  skipU 1
  wantU 1 0
  wantU 1 1
  wantUe 0
  skipUes 2
  skipU 1
  wantU 3 0
  wantU 1 (b2n (1 < x.cols.length))
  wantU 1 0
  also_ (1 < x.cols.length) do
    wantUes [x.cols.length - 1, 0]
    let uniform ← rdFlag
    need (!uniform || x.cols == uniformCols x.cols.length (x.cols.foldl (· + ·) 0))
    also_ (!uniform) (wantUes (x.cols.dropLast.map (· - 1)))
    wantU 1 0
  skipU 1
  also_ (← rdFlag) do
    skipU 1
    wantU 1 0
    wantUes [0, 0]
  wantU 1 0
  skipU 1
  skipUes 1
  wantU 1 0

/-- A slice segment header: the first and only segment, of the picture's type. -/
def wantSlice (x : AuWant) : BitRead Unit := do
  wantU 1 1
  also_ x.irap (skipU 1)
  wantUes [0, if x.ty ≤ 2 then 2 else if x.ty = 3 then 1 else 0]

def BitRead.ok (p : BitRead Unit) (u : List Nat) : Bool := (p.run (nalBits u)).isSome

/-! ### SEI -/

/-- Bytes of an SEI message's type or size: 0xFF counts on. -/
def seiNum : List Nat → Option (Nat × List Nat)
  | [] => none
  | b :: l => if b = 255 then (seiNum l).map fun x => (x.1 + 255, x.2) else some (b, l)

/-- Payload types of an SEI NAL unit's messages. -/
def seiTypes : Nat → List Nat → Option (List Nat)
  | 0, _ => none
  | k + 1, l =>
    if l = [0x80] then some []
    else match seiNum l with
      | none => none
      | some (ty, l) => match seiNum l with
        | none => none
        | some (n, l) => if l.length < n then none else (seiTypes k (l.drop n)).map (ty :: ·)

/-! ### The access unit -/

/-- Entry points: offset_len_minus1 = 31, one offset per tile column after the first, each the length of a substream (R294, R296). -/
def entryBits (lens : List Nat) : List Bool :=
  if lens.length ≤ 1 then [] else ueBits (lens.length - 1) ++ ueBits 31 ++ lens.dropLast.flatMap fun n => uBits 32 (n - 1)

/-- Bits before the alignment that closes a slice segment header. -/
def headerBits (u : List Nat) : List Bool := (((nalBits u).reverse.dropWhile (· = false)).drop 1).reverse

/-- nal_unit_type of the slice: IDR_N_LP, CRA_NUT, else a trailing or sub-layer access picture, a reference or not (R307). -/
def sliceTypes (x : AuWant) : List Nat := if x.ty = 0 then [20] else if x.ty = 1 then [21] else if x.ref then [1, 3, 5] else [0, 2, 4]

/-- The SEI of a picture: picture timing, and before it the buffering period at an IRAP picture (R294). -/
def seiOk (x : AuWant) (us : List (List Nat)) : Bool :=
  match us.mapM fun u => seiTypes (u.length + 1) (nalBytes 0 (u.drop 2)) with
  | some l => l.flatten == (if x.irap then [0, 1] else [1])
  | none => false

/-- The head of an access unit, up to its slice segment header, is one that the encoder writes (R294, R296, R307): the AUD where AUD_EN asks for
it, VPS, SPS and PPS at an IRAP picture, SEI, the header with the entry points of substreams of the lengths given. -/
def auHeadOk (x : AuWant) (head : List Nat) (lens : List Nat) : Bool :=
  match nalUnits head with
  | none => false
  | some us =>
    match us.mapM nalType with
    | none => false
    | some ts =>
      let n := us.length
      let at_ := fun i => us.getD i []
      let a := b2n x.aud
      let p := if x.irap then 3 else 0
      a + p + 2 ≤ n && ts.take a == List.replicate a 35 && (ts.drop a).take p == (if x.irap then [32, 33, 34] else []) &&
        ((ts.drop (a + p)).dropLast).all (· == 39) && (sliceTypes x).contains (ts.getD (n - 1) 63) &&
        (!x.irap || ((nalBits (at_ a)).take 4 == uBits 4 0 && (wantSps x).ok (at_ (a + 1)) && (wantPps x).ok (at_ (a + 2)))) &&
        seiOk x ((us.drop (a + p)).dropLast) && (wantSlice x).ok (at_ (n - 1)) &&
        (let hb := headerBits (at_ (n - 1))
         let eb := entryBits lens
         hb.drop (hb.length - eb.length) == eb)

end Sys2Proof.Machine
end

