-- ==== Sys2Proof/Machine/Access.lean ====
section
/-!
DEFINITION. Reading and writing the records that State holds per tile, unit, crew, channel and transaction.
-/

namespace Sys2Proof.Machine

/-! ### Time channels -/

/-- Tile t's copy of channel n (R101). -/
def State.chan (s : State) (t n : Nat) : Chan := smGet s.time.chans (tk t n) {}

def State.setChan (s : State) (t n : Nat) (c : Chan) : State :=
  { s with time.chans := smPut s.time.chans (tk t n) c {} }

/-- N = seconds * 10^9 + nanoseconds, modulo 2^64 (R99). -/
def Chan.n (c : Chan) : Nat := (c.sec * 1000000000 + c.ns) % 2 ^ 64

/-- N of tile t's copy of channel n. -/
def State.tcN (s : State) (t n : Nat) : Nat := (s.chan t n).n

/-- One time lies at or after another when the signed 64-bit difference of their N values is zero or positive
(R99). -/
def atOrAfter (a b : Nat) : Bool := 0 ≤ sx 64 ((a + 2 ^ 64 - b % 2 ^ 64) % 2 ^ 64)

def State.steer (s : State) (n : Nat) : Steer := smGet s.time.steer n {}

def State.setSteer (s : State) (n : Nat) (c : Steer) : State := { s with time.steer := smPut s.time.steer n c {} }

def State.cap (s : State) (k : Nat) : CapUnit := smGet s.time.caps k {}

def State.setCap (s : State) (k : Nat) (c : CapUnit) : State := { s with time.caps := smPut s.time.caps k c {} }

def State.geyTgt (s : State) (t g : Nat) : GeyTgt := smGet s.time.gey (tk t g) {}

def State.setGeyTgt (s : State) (t g : Nat) (x : GeyTgt) : State :=
  { s with time.gey := smPut s.time.gey (tk t g) x {} }

/-! ### Crews -/

def State.crew (s : State) (t c : Nat) : Crew := smGet s.core.crews (tk t c) {}

def State.setCrew (s : State) (t c : Nat) (x : Crew) : State :=
  { s with core.crews := smPut s.core.crews (tk t c) x {} }

/-- Assertion of a crew event line sets its bit in the PENDING word of every crew on the tile (R48). -/
def State.assertLine (s : State) (t line : Nat) : State :=
  s.each (List.range 8) fun s c => s.setCrew t c { s.crew t c with pending := orBit (s.crew t c).pending line }

def State.dma (s : State) (t : Nat) : DmaSt := smGet s.core.dma t {}

def State.setDma (s : State) (t : Nat) (d : DmaSt) : State := { s with core.dma := smPut s.core.dma t d {} }

/-! ### Bench units and transactions -/

/-- Bench units present on every tile (R34). -/
def unitCount : Nat := 25

def State.unit (s : State) (t u : Nat) : UnitSt := smGet s.bench.units (tk t u) {}

def State.setUnit (s : State) (t u : Nat) (x : UnitSt) : State :=
  { s with bench.units := smPut s.bench.units (tk t u) x {} }

def State.txn (s : State) (i : Nat) : Txn := smGet s.bench.txns i {}

def State.setTxn (s : State) (i : Nat) (x : Txn) : State := { s with bench.txns := smPut s.bench.txns i x {} }

/-- The active generation of a unit; 0 means stale (R38, R44). -/
def State.gen (s : State) (t u : Nat) : Nat := s.f t (UNIT_GEN_GEN u)

def State.stale (s : State) (t u : Nat) : Bool := s.gen t u == 0

/-- Offset of bench word w of unit u in the tile window (R546). -/
def benchBase (u : Nat) : Nat :=
  if u ≤ 3 then 0x60000 + 0x100 * u
  else if u = 4 then 0x80000
  else if u ≤ 6 then 0xA0000 + 0x10000 * (u - 5)
  else if u ≤ 10 then 0xC0000 + 0x100 * (u - 7)
  else if u = 11 then 0xE0000
  else if u = 12 then 0xF0000
  else if u ≤ 16 then 0x100000 + 0x100 * (u - 13)
  else if u ≤ 20 then 0x120000 + 0x100 * (u - 17)
  else 0x20 + 4 * (u - 21)

/-- The unit and word that a shadow bench address names, if any. -/
def unitAt (off : Nat) : Option (Nat × Nat) :=
  (List.range unitCount).findSome? fun u =>
    if benchBase u ≤ off ∧ off < benchBase u + 4 * unitWords u ∧ off % 4 = 0 then some (u, (off - benchBase u) / 4) else none

/-- A parameter bank of a tile, numbered: 0-1 defect table, 2-9 shading grids (2 + 2s + b), 10-13 tone curves
(10 + 2n + b), 14-17 3D LUTs (14 + 2n + b), 18-25 scaler coefficients (18 + 2c + b). -/
def State.bankWritten (s : State) (t b : Nat) : Bool := smGet s.bench.bankFull (tk t b) false

def State.setBank (s : State) (t b : Nat) (v : Bool) : State :=
  { s with bench.bankFull := smPut s.bench.bankFull (tk t b) v false }

end Sys2Proof.Machine
end

