-- ==== Sys2Proof/Machine/Events.lean ====
section
/-!
DEFINITION. The event fabric and the spoil (chapter 21): an occurrence of a source, the spoil's verdict on it, its
routes, roots and the fault log.
-/

namespace Sys2Proof.Machine

/-- Ticks of the 800 MHz time clock in a microsecond. -/
def usTicks : Nat := 800

def okey (t id : Nat) : Nat := t * 512 + id

def State.occ (s : State) (t id : Nat) : Occ := smGet s.evt.occ (okey t id) {}

def State.setOcc (s : State) (t id : Nat) (o : Occ) : State := { s with evt.occ := smPut s.evt.occ (okey t id) o {} }

/-- Status bit of a source (R474). -/
def State.evtStat (s : State) (t id : Nat) : Bool := bit (s.reg t (EVT_STAT (id / 32))) (id % 32)

/-- Routing enable of a source. -/
def State.evtEn (s : State) (t id : Nat) : Bool := bit (s.reg t (EVT_EN (id / 32))) (id % 32)

/-- SUP_WIN in ticks; 0 acts as 1 us. -/
def State.supWin (s : State) (t : Nat) : Nat := max 1 (s.f t SPOIL_CFG_SUP_WIN) * usTicks

/-- Key of tile u's source id as tile t's spoil has heard of it. -/
def rkey (t u id : Nat) : Nat := (t * 8 + u) * 512 + id

/-- Source id of tile u is active, as tile t's spoil judges it now (R480). -/
def State.active (s : State) (t u id : Nat) : Bool :=
  (if t = u then match (s.occ u id).last with
      | some l => decide (s.now ≤ l + s.supWin t)
      | none => false
    else match smGet s.evt.remote (rkey t u id) 0 with
      | 0 => false
      | l + 1 => decide (s.now ≤ l + s.supWin t + usTicks)) ||
  (s.on u (EVT_CFG_STICKY id) && s.evtStat u id)

/-- The sources one map entry of source id names, seen from tile u (R480). -/
def State.depTargets (s : State) (t u id k : Nat) : List (Nat × Nat) :=
  if s.on t (SPOIL_DEP_VALID id k) then
    let ids := (List.range (s.f t (SPOIL_DEP_SPAN id k) + 1)).map (s.f t (SPOIL_DEP_FIRST id k) + ·)
    match s.f t (SPOIL_DEP_WHERE id k) with
    | 0 => ids.map fun i => (u, i)
    | 1 => ids.map fun i => (s.f t (SPOIL_DEP_TILE id k), i)
    | _ => s.tileList.flatMap fun v => ids.map fun i => (v, i)
  else []

/-- The sources one step of tile t's map away from a source. -/
def State.upstream (s : State) (t u id : Nat) : List (Nat × Nat) :=
  (List.range 4).flatMap fun k => s.depTargets t u id k

/-- The sources reached within a number of steps of tile t's map (R480). -/
def State.reachFrom (s : State) (t : Nat) : Nat → List (Nat × Nat) → List (Nat × Nat)
  | 0, _ => []
  | n + 1, l =>
    let next := l.flatMap fun x => s.upstream t x.1 x.2
    next ++ s.reachFrom t n next

/-- The sources that a source of tile t reaches, up to four steps. -/
def State.reaches (s : State) (t id : Nat) : List (Nat × Nat) := s.reachFrom t 4 [(t, id)]

/-- The source has a map on its tile. -/
def State.hasMap (s : State) (t id : Nat) : Bool := (List.range 4).any fun k => s.on t (SPOIL_DEP_VALID id k)

/-- Of two sources, the one that occurred earlier. -/
def State.earlier (s : State) (a b : Nat × Nat) : Nat × Nat :=
  match (s.occ a.1 a.2).last, (s.occ b.1 b.2).last with
  | some x, some y => if y < x then b else a
  | none, some _ => b
  | _, none => a

/-- The fault-log number of the root that a source's last occurrence counts under. -/
def State.rootOf (s : State) (x : Nat × Nat) : Option Nat := (s.occ x.1 x.2).rootSeq

/-- Count n dependent occurrences under a root: in its fault-log entry, and in SPOIL_DEPCNT of a tile whose latched
root it is (R483). -/
def State.countDep (s : State) (root : Option Nat) (n : Nat) : State :=
  match root with
  | none => s
  | some q =>
    let s := { s with evt.faultLog := s.evt.faultLog.map fun (e : FaultEnt) =>
      if e.seq = q then { e with dep := satAdd (2 ^ 32 - 1) e.dep n } else e }
    s.each s.tileList fun s t => s.when (smGet s.evt.latched t 0 == q) fun s => s.addF t SPOIL_DEPCNT_COUNT n

/-- A spoil holds an occurrence of this source. -/
def State.isHeld (s : State) (t id : Nat) : Bool := s.evt.heldOccs.any fun h => h.tile = t ∧ h.id = id

/-- Count n dependent occurrences under the root of source x. While an occurrence of x is held its root is not known
yet: the count waits with it (R481, R483). -/
def State.chargeDep (s : State) (x : Nat × Nat) (n : Nat) : State :=
  if s.isHeld x.1 x.2 then
    { s with evt.heldOccs := s.evt.heldOccs.map fun (h : HeldOcc) =>
        if h.tile = x.1 ∧ h.id = x.2 then { h with deps := h.deps + n } else h }
  else s.countDep (s.rootOf x) n

/-- Latch a root in a tile's SPOIL_ROOT unless it holds one, and count it (R482). -/
def State.latchRoot (s : State) (at_ t id sev : Nat) (inj : Bool) (n seq : Nat) : State :=
  let s := s.addF at_ SPOIL_ROOTS_COUNT 1
  if s.on at_ SPOIL_ROOT_VALID then s
  else
    let s := s.setF at_ SPOIL_ROOT_ID id
    let s := s.setF at_ SPOIL_ROOT_TILE t
    let s := s.setF at_ SPOIL_ROOT_SEV sev
    let s := s.setB at_ SPOIL_ROOT_INJECTED inj
    let s := s.setB at_ SPOIL_ROOT_VALID true
    let s := s.setReg64 at_ SPOIL_ROOT_T_LO n
    { s with evt.latched := smPut s.evt.latched at_ seq 0 }

/-- Capacity of the fault log (R371). -/
def faultLogCap : Nat := 256

/-- Enter a root in T0's fault log; a full log loses its oldest entry (R371, R373). -/
def State.logFault (s : State) (e : FaultEnt) : State :=
  let full := faultLogCap ≤ s.evt.faultLog.length
  { s with
    evt.faultLog := (if full then s.evt.faultLog.drop 1 else s.evt.faultLog) ++ [e]
    evt.faultLost := if full then satAdd (2 ^ 32 - 1) s.evt.faultLost 1 else s.evt.faultLost
    evt.faultSeq := s.evt.faultSeq + 1 }

/-- Queue an ASYNC_EVENT unless one of the source is waiting (R356); ASYNC_ENABLE gates it (R377). -/
def State.queueAsync (s : State) (m : AsyncMsg) : State :=
  if s.evt.asyncEnable && !(s.evt.asyncQ.any fun x => x.tile = m.tile ∧ x.id = m.id) then
    { s with evt.asyncQ := s.evt.asyncQ ++ [m] }
  else s

/-- The occurrence is routed (R477); of severity ERROR or above it is a root: the fault log and the root registers take it (R482). -/
def State.enterRoot (s : State) (t id : Nat) (inj : Bool) (n : Nat) : State :=
  let sev := s.f t (EVT_CFG_SEV id)
  let seq := s.evt.faultSeq
  if 2 ≤ sev then
    let s := s.logFault { seq := seq, n := n, id := id, tile := t, sev := sev, inj := inj, dep := 0 }
    let s := s.latchRoot t t id sev inj n seq
    let s := s.when (t ≠ 0) fun s => s.latchRoot 0 t id sev inj n seq
    s.setOcc t id { s.occ t id with rootSeq := some seq, rootOpen := true, routed := true }
  else s.setOcc t id { s.occ t id with rootSeq := none, routed := true }

/-- Where an enabled source sends a routed occurrence: crew line, host (R476). Its part in FAULT_N is read from the state (R477). -/
def State.sendRoutes (s : State) (t id : Nat) (inj : Bool) (n : Nat) : State :=
  let sev := s.f t (EVT_CFG_SEV id)
  if s.evtEn t id then
    let s := s.when (s.on t (EVT_CFG_TO_LINE id)) fun s => s.assertLine t (s.f t (EVT_CFG_LINE id))
    s.when (s.on t (EVT_CFG_TO_HOST id)) fun s => s.queueAsync { tile := t, id := id, sev := sev, inj := inj, root := 2 ≤ sev, n := n }
  else s

/-- A routed occurrence: the root's record, then its routes. -/
def State.route (s : State) (t id : Nat) (inj : Bool) (n : Nat) : State := (s.enterRoot t id inj n).sendRoutes t id inj n

/-- SPOIL_HELD follows the number of sources held. -/
def State.setHeldCount (s : State) (t : Nat) : State :=
  s.setF t SPOIL_HELD_HELD (s.evt.heldOccs.filter (·.tile = t)).length

/-- Held occurrences of tile t that reach source (u, id) become dependent when it occurs (R481). -/
def State.releaseHeld (s : State) (t u id : Nat) : State :=
  let (dep, keep) := s.evt.heldOccs.partition fun h => h.tile = t ∧ (u, id) ∈ s.reaches t h.id
  let s := { s with evt.heldOccs := keep }
  let s := s.each dep fun s h =>
    (s.chargeDep (u, id) (h.count + h.deps)).setOcc t h.id { s.occ t h.id with rootSeq := s.rootOf (u, id) }
  s.setHeldCount t

/-- The spoil's verdict on an occurrence (R480, R481). `full` says what to do when no room to hold is left. -/
def State.verdict (s : State) (t id : Nat) (inj hadStat : Bool) (n : Nat) : State × Bool :=
  let o := s.occ t id
  let s0 := s.setOcc t id { o with last := some s.now }
  match (s.reaches t id).filter fun x => s.active t x.1 x.2 with
  | a :: l =>
    let e := l.foldl s.earlier a
    ((s0.chargeDep e 1).setOcc t id { o with last := some s.now, rootSeq := s.rootOf e }, false)
  | [] =>
  if 2 ≤ s.f t (EVT_CFG_SEV id) ∧ hadStat ∧ o.rootOpen then (s0.countDep o.rootSeq 1, false)
  else if s.hasMap t id then
    if s.isHeld t id then
      ({ s0 with evt.heldOccs := s.evt.heldOccs.map fun h =>
          if h.tile = t ∧ h.id = id then { h with count := h.count + 1 } else h }, false)
    else if (s.evt.heldOccs.filter (·.tile = t)).length < 256 then
      let h : HeldOcc := { tile := t, id := id, inj := inj, count := 1, n := n, expiry := s.now + s.supWin t }
      (({ s0 with evt.heldOccs := s.evt.heldOccs ++ [h] }).setHeldCount t, false)
    else (s0.route t id inj n, true)
  else (s0.route t id inj n, false)

/-- What an occurrence does at once: status, count, injected flag (R474), then the verdict. The flag says that no
room to hold was left. -/
def State.occur (s : State) (t id : Nat) (inj : Bool) : State × Bool :=
  let had := s.evtStat t id
  let s := s.setReg t (EVT_STAT (id / 32)) (orBit (s.reg t (EVT_STAT (id / 32))) (id % 32))
  let s := s.addF t (EVT_CNT_COUNT id) 1
  let s := s.setB t (EVT_CNT_INJECTED id) inj
  let (s, full) := s.verdict t id inj had (s.tcN t 0)
  (s.releaseHeld t t id, full)

/-- An occurrence of source id on tile t (R474 to R482). A FATAL source with ISOLATE set marks its tile for
isolation, unless injected (R479, R487, R489). -/
def State.raiseX (s : State) (t id : Nat) (inj : Bool) : State :=
  let (s, full) := s.occur t id inj
  let s := if full then (s.occur t 309 false).1 else s
  if s.f t (EVT_CFG_SEV id) = 3 ∧ s.on t (EVT_CFG_ISOLATE id) ∧ ¬ inj ∧ t ≠ 0 then
    { s with evt.isoDue := s.evt.isoDue ++ [(t, id, t, false)] }
  else s

/-- A real detection of source id on tile t. -/
def State.raise (s : State) (t id : Nat) : State := s.raiseX t id false

/-- The same occurrence on every tile in RUN. -/
def State.raiseAll (s : State) (id : Nat) : State := s.each s.runTiles fun s t => s.raise t id

/-- A source that makes T0 assert FAULT_N (R477). -/
def State.faultSource (s : State) (t id : Nat) : Bool :=
  s.evtEn t id && s.on t (EVT_CFG_TO_FAULT id) && s.evtStat t id && (s.occ t id).routed

/-- FAULT_N is asserted: from the boot ROM's start on, while T0 or a tile in RUN has such a source (R477). -/
def State.faultN (s : State) : Bool :=
  s.boot.romRunning && (s.tileList.filter fun t => t = 0 || s.run t).any fun t => (List.range 320).any (s.faultSource t)

/-- Clearing a status bit leaves the counter, and ends the standing of routed occurrences and roots (R475, R477,
R480). -/
def State.clearStat (s : State) (t id : Nat) : State :=
  let s := s.setReg t (EVT_STAT (id / 32)) (clrBit (s.reg t (EVT_STAT (id / 32))) (id % 32))
  s.setOcc t id { s.occ t id with routed := false, rootOpen := false }

/-- Software clears the status bits of a mask in group g. -/
def State.clearStats (s : State) (t g mask : Nat) : State :=
  s.each (List.range 32) fun s b => s.when (bit mask b) fun s => s.clearStat t (32 * g + b)

/-- SUP_WIN of a held occurrence has expired with no upstream occurrence: it is routed (R481). -/
def State.holdExpire (s : State) (t id : Nat) : State :=
  match s.evt.heldOccs.find? fun h => h.tile = t ∧ h.id = id with
  | none => s
  | some h =>
    if h.expiry ≤ s.now then
      let s := { s with evt.heldOccs := s.evt.heldOccs.filter fun h => ¬(h.tile = t ∧ h.id = id) }
      let s := s.route t id h.inj h.n
      (s.countDep (s.rootOf (t, id)) h.deps).setHeldCount t
    else s

/-- Tile t's spoil receives the last occurrence of source id of tile u over Seam class 4 (R480); once only. -/
def State.remoteOcc (s : State) (t u id : Nat) : State :=
  match (s.occ u id).last with
  | none => s
  | some l =>
    if smGet s.evt.remote (rkey t u id) 0 = l + 1 then s else
    let s := { s with evt.remote := smPut s.evt.remote (rkey t u id) (l + 1) 0 }
    s.releaseHeld t u id

/-- SPOIL_ROOT.CLEAR: unlatch, and SPOIL_DEPCNT and SPOIL_ROOTS to 0. -/
def State.clearRoot (s : State) (t : Nat) : State :=
  let s := s.setReg t SPOIL_ROOT 0
  let s := s.setReg64 t SPOIL_ROOT_T_LO 0
  let s := s.setReg t SPOIL_DEPCNT 0
  let s := s.setReg t SPOIL_ROOTS 0
  { s with evt.latched := smPut s.evt.latched t 0 0 }

/-! ### The SRAM injector -/

/-- A byte written to an SRAM meets the SRAM injector (R425). -/
def State.sramWritten (s : State) (t k : Nat) : State :=
  if s.on t SRAM_INJ_ARMED ∧ s.f t SRAM_INJ_SRAM = k then
    let s := s.setB t SRAM_INJ_ARMED false
    { s with mem.sramFlip := smPut s.mem.sramFlip (tk t k) true false }.raise t 248
  else s

end Sys2Proof.Machine
end

