-- ==== Sys2Proof/Machine/Seam.lean ====
section
/-!
DEFINITION. The Seam (chapter 1): which ports join which tiles, routing by SEAM_ROUTE, ports going down and up,
firmware's reroute, packets of firmware traffic, and data-path crossings.
-/

namespace Sys2Proof.Machine

/-- The tile and port that port p of tile t joins (R13). -/
def seamPartner (m : Member) (t p : Nat) : Nat × Nat :=
  let n := m.tiles
  match m with
  | .tiles2 => if p = 0 then (1 - t, 1) else if p = 1 then (1 - t, 0) else (1 - t, p)
  | .tiles4 => if p = 0 then ((t + n - 1) % n, 1) else if p = 1 then ((t + 1) % n, 0) else ((t + 2) % n, p)
  | .tiles8 =>
    if p = 0 then ((t + n - 1) % n, 1) else if p = 1 then ((t + 1) % n, 0)
    else if p = 2 then ((t + 4) % n, 2)
    else (if t % 4 < 2 then t + 2 else t - 2, 3)

/-- A port is UP. -/
def State.portUp (s : State) (t p : Nat) : Bool := s.on t (SEAM_PORT_STAT_UP p)

/-- The port that SEAM_ROUTE of tile t names for a destination: present when VALID and UP (R14). A tile that isolation has
switched off takes no traffic (R488): what is addressed to it or through it is discarded in the same way. -/
def State.routePort (s : State) (t dst : Nat) : Option Nat :=
  let nib := bits (s.reg t SEAM_ROUTE) (4 * dst) 4
  if bit nib 3 ∧ s.portUp t (nib % 4) ∧ s.portUp (seamPartner s.member t (nib % 4)).1 (seamPartner s.member t (nib % 4)).2 then some (nib % 4)
  else none

/-- Follow the routes from a tile to a destination: `none` when they arrive, or the tile that discards the
traffic (R14). -/
def State.seamWalk (s : State) : Nat → Nat → Nat → Option Nat
  | 0, t, dst => if t = dst then none else some t
  | k + 1, t, dst =>
    if t = dst then none
    else match s.routePort t dst with
      | none => some t
      | some p => s.seamWalk k (seamPartner s.member t p).1 dst

/-- Traffic from one tile to another arrives, or the tile that discards it raises EV_SEAM_NO_ROUTE (R14). -/
def State.seamReach (s : State) (src dst : Nat) : State × Bool :=
  match s.seamWalk 8 src dst with
  | none => (s, true)
  | some t => (s.raise t 197, false)

/-- The default route nibble from tile n to tile m (R15). -/
def defaultNibble (mem : Member) (n m : Nat) : Nat :=
  let d := (m + mem.tiles - n) % mem.tiles
  if d = 0 then 0
  else match mem with
    | .tiles2 => 8
    | .tiles4 => if d = 1 then 9 else if d = 3 then 8 else 10
    | .tiles8 => if d ≤ 2 then 9 else if 6 ≤ d then 8 else 10

/-- The default SEAM_ROUTE word of tile n (R15). -/
def defaultRoute (mem : Member) (n : Nat) : Nat :=
  (List.range mem.tiles).foldl (fun a m => a + defaultNibble mem n m * 2 ^ (4 * m)) 0

/-- Tiles from which a destination is reached within k hops over the ports that are UP. -/
def State.within (s : State) (dst : Nat) : Nat → List Nat
  | 0 => [dst]
  | k + 1 =>
    let l := s.within dst k
    s.tileList.filter fun t => l.contains t || (List.range 4).any fun p => s.portUp t p && l.contains (seamPartner s.member t p).1

/-- The first port of a path with the fewest hops, the lowest of those that begin one (R17). -/
def State.bestPort (s : State) (t dst : Nat) : Option Nat :=
  (List.range 8).findSome? fun k =>
    let l := s.within dst k
    (List.range 4).find? fun p => s.portUp t p && l.contains (seamPartner s.member t p).1

/-- The route from a tile to a destination, followed over the tiles' tables, uses a port that is down (R17). -/
def State.usesDown (s : State) : Nat → Nat → Nat → Bool
  | 0, _, _ => false
  | k + 1, t, dst =>
    let nib := bits (s.reg t SEAM_ROUTE) (4 * dst) 4
    t ≠ dst && bit nib 3 && (!s.portUp t (nib % 4) || s.usesDown k (seamPartner s.member t (nib % 4)).1 dst)

/-- The routes of the tiles in RUN that use a port now down: tile and destination. -/
def State.brokenRoutes (s : State) : List (Nat × Nat) :=
  s.runTiles.flatMap fun t => (s.tileList.filter fun m => s.usesDown 8 t m).map fun m => (t, m)

/-- Firmware replaces the route of one tile to one destination (R17). -/
def State.rerouteOne (s : State) (x : Nat × Nat) : State :=
  match s.bestPort x.1 x.2 with
  | some p => s.setReg x.1 SEAM_ROUTE (setBits (s.reg x.1 SEAM_ROUTE) (4 * x.2) 4 (8 + p))
  | none => s.setReg x.1 SEAM_ROUTE (setBits (s.reg x.1 SEAM_ROUTE) (4 * x.2 + 3) 1 0)

/-- System firmware rewrites SEAM_ROUTE on every tile in RUN (R17); a CTL restart under way on T0 delays it to its
end. -/
def State.reroute (s : State) : State :=
  if smGet s.core.ctlBusy 0 false then { s with seam.rerouteDue := true }
  else { s.each s.brokenRoutes State.rerouteOne with seam.rerouteDue := false }

/-- Firmware clears the VALID bit for a tile on every other tile (R17). -/
def State.unroute (s : State) (n : Nat) : State :=
  s.each (s.tileList.filter (· ≠ n)) fun s t =>
    s.setReg t SEAM_ROUTE (setBits (s.reg t SEAM_ROUTE) (4 * n + 3) 1 0)

/-- Firmware writes the default routes on every tile (R15). -/
def State.routeDefaults (s : State) : State :=
  s.each s.tileList fun s t => s.setReg t SEAM_ROUTE (defaultRoute s.member t)

/-- One end of a link goes down with its event (R17); an isolated tile has no event fabric to raise it (R488). -/
def State.portEndDown (s : State) (t p : Nat) : State :=
  let s := s.setB t (SEAM_PORT_STAT_UP p) false
  let s := s.setB t (SEAM_PORT_STAT_DOWN p) true
  s.when (!s.isolated t) fun s => s.raise t (192 + p)

/-- A follower goes into HOLD when a port on its route to T0 goes down (R104); its event comes once for a HOLD. In HOLDOVER its state
goes on showing that. -/
def State.followHold (s : State) (t : Nat) : State :=
  if t = 0 ∨ smGet s.time.holdRaised t false then s
  else
    let was := s.f t FOLLOW_STATE
    let s := { s with time.holdRaised := smPut s.time.holdRaised t true false }
    let s := s.when (was == 0) fun s => s.setF t FOLLOW_STATE 1
    s.when (was != 1) fun s => s.raise t 262

/-- Whether a port lies on the routes from T0 to a tile. -/
def State.onRoute (s : State) (t p : Nat) : Nat → Nat → Nat → Bool
  | 0, _, _ => false
  | k + 1, u, dst =>
    if u = dst then false
    else match s.routePort u dst with
      | none => false
      | some q =>
        let v := seamPartner s.member u q
        (u = t ∧ q = p) || (v.1 = t ∧ v.2 = p) || s.onRoute t p k v.1 dst

/-- A link goes down at both ends together, followers on it enter HOLD, and firmware reroutes (R17, R104). -/
def State.portDown (s : State) (t p : Nat) : State :=
  if s.portUp t p then
    let q := seamPartner s.member t p
    let hold := (s.tileList.filter fun n => n ≠ 0 && s.run n && s.onRoute t p 8 0 n)
    let s := s.portEndDown t p
    let s := s.portEndDown q.1 q.2
    let s := s.each hold State.followHold
    s.reroute
  else s

/-- A retrained link comes UP when its partner answers (R17). -/
def State.portUpNow (s : State) (t p : Nat) : State :=
  let q := seamPartner s.member t p
  if s.island t 7 ∧ s.island q.1 7 ∧ ¬ s.portUp t p ∧ smGet s.seam.retraining (tk t p) false then
    let s := s.setB t (SEAM_PORT_STAT_UP p) true
    let s := s.setB q.1 (SEAM_PORT_STAT_UP q.2) true
    { s with seam.retraining := smPut (smPut s.seam.retraining (tk t p) false false) (tk q.1 q.2) false false }
  else s

/-- SEAM_PORTp_CTL.RESTART retrains a port that is down (R17). -/
def State.portRestart (s : State) (t p : Nat) : State :=
  if s.portUp t p then s else { s with seam.retraining := smPut s.seam.retraining (tk t p) true false }

/-- Start-up trains every link of the part, the standby ones too (R13). -/
def State.trainSeam (s : State) : State :=
  s.each s.tileList fun s t => s.each (List.range 4) fun s p =>
    if s.f t TILE_STATE_STATE ≠ 2 ∧ s.f (seamPartner s.member t p).1 TILE_STATE_STATE ≠ 2 then
      s.setB t (SEAM_PORT_STAT_UP p) true else s

/-- A crew's receive queue holds 8 messages (R85). -/
def recvCap : Nat := 8

/-- Finish the SEND of a message that its crew waits for: gd takes the result (R85). -/
def State.sendAck (s : State) (m : CrewMsg) (result : Nat) : State :=
  let x := s.crew m.srcTile m.srcCrew
  match x.wait with
  | some (.send gd num) =>
    let y := { x with wait := none, pc := (x.pc + 4) % 2 ^ 64, instret := x.instret + 1 }
    s.when (num == m.num) fun s =>
      s.setCrew m.srcTile m.srcCrew (if gd = 0 then y else { y with g := smPut y.g gd (BitVec.ofNat 64 result) 0 })
  | _ => s

/-- A message reaches its crew: queued with its line EL40 + crew, or FULL, or PAUSED while the tile's CTL restarts
(R85). -/
def State.crewMsgArrive (s : State) (t : Nat) (m : CrewMsg) : State × Nat :=
  let x := s.crew t m.dstCrew
  if smGet s.core.ctlBusy t false then (s, 3)
  else if recvCap ≤ x.recvq.length then (s, 1)
  else (((s.setCrew t m.dstCrew { x with recvq := x.recvq ++ [m] }).assertLine t (40 + m.dstCrew)).sramWritten t 15, 0)

/-- A packet that no route takes on is discarded, and a SEND learns NO_ROUTE (R14, R85). -/
def State.seamDrop (s : State) (t : Nat) (b : SeamBody) : State :=
  let s := s.raise t 197
  match b with
  | .msg m => s.sendAck m 2
  | .fire _ => s

/-- Send a packet of firmware traffic on from a tile (R14). -/
def State.seamForward (s : State) (t dst : Nat) (b : SeamBody) : State :=
  match s.routePort t dst with
  | none => s.seamDrop t b
  | some p =>
    let q := seamPartner s.member t p
    ({ s with seam.flight := s.seam.flight ++ [{ hop := q.1, port := q.2, dst := dst, body := b }] } : State).sramWritten t 14

/-- A packet at its destination. A FIRE that meets a CTL restart waits for its end (R83). -/
def State.seamDeliver (s : State) (t : Nat) (b : SeamBody) : State :=
  match b with
  | .msg m => let (s, r) := s.crewMsgArrive t m; s.sendAck m r
  | .fire l =>
    if smGet s.core.ctlBusy t false then
      { s with seam.flight := s.seam.flight ++ [{ hop := t, port := 0, dst := t, body := b }] }
    else s.assertLine t l

/-- A port counts a failed replay; when the last 16 lie within 1 ms it goes down (R17). -/
def State.replayFailed (s : State) (t p : Nat) : State :=
  let l := s.now :: (smGet s.seam.fails (tk t p) []).filter fun x => decide (s.now ≤ x + 1000 * usTicks)
  let down := decide (16 ≤ l.length)
  let s := { s with seam.fails := smPut s.seam.fails (tk t p) (if down then [] else l) [] }
  s.when down fun s => s.portDown t p

/-- The CRC check of a packet that port p of tile t receives: one that fails is replayed once (R17). -/
def State.seamCheck (s : State) (t p : Nat) (crcOk replayOk : Bool) : State :=
  if crcOk then s
  else
    let s := { s with pwr.seamReplays := s.pwr.seamReplays + 1 }.addF t (SEAM_PORT_STAT_REPLAYS p) 1
    s.when (!replayOk) fun s => s.replayFailed t p

/-! ### Crossings -/

def xkey (t x src : Nat) : Nat := (t * 16 + x) * 4 + src

/-- A crossing discards the stream of a source up to its next frame boundary (R20). -/
def State.discarding (s : State) (t x src : Nat) : Bool := smGet s.seam.discard (xkey t x src) false

def State.setDiscard (s : State) (t x src : Nat) (b : Bool) : State :=
  { s with seam.discard := smPut s.seam.discard (xkey t x src) b false }

end Sys2Proof.Machine
end

