-- ==== Sys2Proof/Machine/Mem.lean ====
section
/-!
DEFINITION. DRAM (chapters 16 and 17): address decoding, the (72,64) code, poison, the write queue's forwarding, the
correction log, the injector, and the reads and writes that every unit makes.
-/

namespace Sys2Proof.Machine

/-! ### Addresses -/

/-- Attached and usable bytes of a tile by its device configuration (R388); 0 for a combination not listed. -/
def State.dramSize (s : State) (t : Nat) : Nat :=
  let two := s.on t MC_CFG_RANKS2
  let gib := 2 ^ 30
  match s.f t MC_CFG_DENSITY with
  | 0 => if two then 14 * gib else 0
  | 1 => if two then 28 * gib else 14 * gib
  | 2 => if two then 0 else 28 * gib
  | _ => 0

/-- The channel of a tile address (R389). -/
def State.chanOf (s : State) (t a : Nat) : Nat :=
  let ch := bits a 8 3
  if s.on t MC_CFG_HASH then ch ^^^ bits a 13 3 ^^^ bits a 18 3 else ch

/-- The offset within its channel (R389). -/
def chanOffset (a : Nat) : Nat := bits a 11 29 * 256 + a % 256

/-- Bank, with the rank above it, of a channel offset (R390). -/
def State.bankOf (s : State) (t c : Nat) : Nat :=
  bits c 11 4 + if s.on t MC_CFG_RANKS2 then 16 * bits c 15 1 else 0

/-- Row of a channel offset (R390). -/
def State.rowOf (s : State) (t c : Nat) : Nat := if s.on t MC_CFG_RANKS2 then c >>> 16 else c >>> 15

def State.mcChan (s : State) (t c : Nat) : McChan := smGet s.mem.chans (tk t c) {}

def State.setMcChan (s : State) (t c : Nat) (x : McChan) : State :=
  { s with mem.chans := smPut s.mem.chans (tk t c) x {} }

/-! ### The code -/

/-- The columns of the data bits (R411): the 56 values of weight 3 in ascending order, then eight of weight 5. -/
def eccColumns : List Nat :=
  ((List.range 256).filter fun v => ((List.range 8).filter fun i => v.testBit i).length = 3) ++
    [0x1F, 0x2F, 0x37, 0x3B, 0x3D, 0x3E, 0x4F, 0x57]

/-- XOR of the columns of the data bits that are set. -/
def eccDataXor (d : Nat) : List Nat → Nat → Nat
  | [], _ => 0
  | h :: hs, j => (if d.testBit j then h else 0) ^^^ eccDataXor d hs (j + 1)

/-- The check byte of a 64-bit word (R411). -/
def eccCheck (d : Nat) : Nat := eccDataXor d eccColumns 0

/-- The syndrome that a pattern of flipped bits gives (R411). -/
def eccSyndrome (err : Nat) : Nat := eccCheck (err % 2 ^ 64) ^^^ err >>> 64

/-- How a stored word decodes (R413). -/
inductive EccOut where
  | clean
  | corrected (bit : Nat)
  | poisoned
  | uncorrectable
  deriving DecidableEq, Repr

/-- The decode of a word from its syndrome and its map bit (R413). -/
def eccDecode (syn : Nat) (map : Bool) : EccOut :=
  if syn = 0 then .clean
  else if map then .poisoned
  else match eccColumns.findIdx? (· == syn) with
    | some j => .corrected j
    | none =>
      match (List.range 8).find? fun i => 1 <<< i == syn with
      | some i => .corrected (64 + i)
      | none => .uncorrectable

/-- Pattern of a word stored poisoned: every check bit flipped (R413). -/
def poisonPattern : Nat := 0xFF * 2 ^ 64

def wkey (t a : Nat) : Nat := t * 2 ^ 33 + a / 8

def State.eccErr (s : State) (t a : Nat) : Nat := smGet s.mem.ecc (wkey t a) 0

def State.setEcc (s : State) (t a err : Nat) (map : Bool) : State :=
  { s with mem.ecc := smPut s.mem.ecc (wkey t a) err 0, mem.pmap := smPut s.mem.pmap (wkey t a) map false }

def State.mapBit (s : State) (t a : Nat) : Bool := smGet s.mem.pmap (wkey t a) false

def State.setInjected (s : State) (t a : Nat) (b : Bool) : State :=
  { s with mem.injected := smPut s.mem.injected (wkey t a) b false }

/-! ### The write queue -/

/-- A byte that a waiting write holds (R401), newest entry first. -/
def wqByte (l : List WqEnt) (a : Nat) : Option Nat :=
  match l.find? fun e => e.line = a / 64 ∧ bit e.mask (a % 64) with
  | some e => some (e.data.getD (a % 64) 0)
  | none => none

/-- A DRAM byte as any agent reads it: from the write queue where a waiting write holds it, else as stored
(R401). -/
def State.byte (s : State) (t a : Nat) : Nat :=
  match wqByte (s.mcChan t (s.chanOf t a)).wq a with
  | some b => b
  | none => s.dbyte t a

/-- n bytes as any agent reads them. -/
def State.bytes (s : State) (t a n : Nat) : List Nat := (List.range n).map fun i => s.byte t (a + i)

/-! ### Correction log, UE count, failure -/

/-- Capacity of a tile's correction log (R422). -/
def corrCap : Nat := 64

def State.corrLog (s : State) (t : Nat) : List CorrEnt := smGet s.mem.corr t []

def State.setCorr (s : State) (t : Nat) (l : List CorrEnt) : State :=
  ({ s with mem.corr := smPut s.mem.corr t l [] }).setF t INTEG_STAT_VALID l.length

/-- The entry with the oldest last time among those not RECURRENT. -/
def oldestCorr : List CorrEnt → Option CorrEnt
  | [] => none
  | e :: l =>
    match oldestCorr l with
    | none => if e.recurrent then none else some e
    | some f => if e.recurrent then some f else if e.last ≤ f.last then some e else some f

/-- Log a corrected word (R422). The flag says the word reached RECUR_N corrections since it was written (R423). -/
def State.logCorr (s : State) (t a : Nat) (inj : Bool) : State × Bool :=
  let n := s.tcN t 0
  let l := s.corrLog t
  let s := { s with mem.corrSeq := s.mem.corrSeq + 1 }
  let lim := max 1 (s.f t INTEG_CFG_RECUR_N)
  let addr := a / 8 * 8
  match l.find? (·.addr = addr) with
  | some e =>
    let hit := e.since + 1 = lim
    let s := s.setCorr t (l.map fun x => if x.addr = addr then
      { x with last := n, count := satAdd (2 ^ 32 - 1) x.count 1, since := x.since + 1, recurrent := x.recurrent || hit } else x)
    if hit then (s.raiseX t 243 inj, true) else (s, false)
  | none =>
    let hit := lim = 1
    let e : CorrEnt := { addr := addr, first := n, last := n, count := 1, since := 1, recurrent := hit }
    let (s, placed) :=
      if l.length < corrCap then (s.setCorr t (l ++ [e]), true)
      else match oldestCorr l with
        | some o =>
          let s := { s with mem.corrLost := smPut s.mem.corrLost t (smGet s.mem.corrLost t 0 + 1) 0 }
          ((s.setCorr t (l.filter (·.addr ≠ o.addr) ++ [e])).raise t 246, true)
        | none => (s.addF t INTEG_STAT_LOST 1, false)
    if hit ∧ placed then (s.raiseX t 243 inj, true) else (s, false)

/-- A write of a word resets its count of corrections since written (R423). -/
def State.corrWritten (s : State) (t a : Nat) : State :=
  let l := s.corrLog t
  if l.any fun e => e.addr = a / 8 * 8 ∧ e.since ≠ 0 then
    s.setCorr t (l.map fun e => if e.addr = a / 8 * 8 then { e with since := 0 } else e)
  else s

/-- A channel becomes FAILED (R409): its queued writes and waiting requests are discarded, EV_MC_CHANNEL_FAILED is raised once. -/
def State.mcFail (s : State) (t c : Nat) : State :=
  if s.f t (MCC_STAT_STATE c) = 4 then s
  else
    let s := s.setF t (MCC_STAT_STATE c) 4
    let s := s.setMcChan t c { s.mcChan t c with wq := [], waits := [], openRows := [] }
    let s := s.setF t (MCC_STAT_WQ c) 0
    s.raise t 234

/-- An uncorrectable word counts towards UE_LIMIT; more than the limit within 1 ms fail the channel (R409). -/
def State.countUe (s : State) (t c : Nat) : State :=
  let x := s.mcChan t c
  let l := (x.ueTicks.filter fun k => s.now ≤ k + 1000 * usTicks) ++ [s.now]
  let s := s.setMcChan t c { x with ueTicks := l }
  s.when (s.f t (MCC_FAILCFG_UE_LIMIT c) < l.length) fun s => s.mcFail t c

/-! ### Words -/

/-- The 64-bit word of data the model holds at an address, write queue included. -/
def State.dword (s : State) (t a : Nat) : Nat := leNum (s.bytes t (a / 8 * 8) 8)

/-- Store 8 bytes of a word below the code. -/
def State.putWord (s : State) (t a v : Nat) : State := s.setDbytes t (a / 8 * 8) (leBytes 8 v)

/-- Health counters of a tile. -/
def State.addCe (s : State) (t : Nat) : State :=
  { s with mem.ceTotal := smPut s.mem.ceTotal t (satAdd (2 ^ 64 - 1) (smGet s.mem.ceTotal t 0) 1) 0 }

def State.addUe (s : State) (t : Nat) : State :=
  { s with mem.ueTotal := smPut s.mem.ueTotal t (satAdd (2 ^ 64 - 1) (smGet s.mem.ueTotal t 0) 1) 0 }

/-- A reader takes the word at an address (R413, R421): its data and whether it is poisoned. A corrected word is
logged and written back, an uncorrectable one is delivered poisoned and written back as poison. `scrub` selects the
scrubber's reactions. -/
def State.readWord (s : State) (t a port : Nat) (scrub : Bool) : State × Nat × Bool :=
  let c := s.chanOf t a
  let st := s.f t (MCC_STAT_STATE c)
  if st = 4 ∨ st = 3 ∧ (s.mcChan t c).clockSr then (s, (Config.lostData (wkey t a) s.now).toNat, true)
  else
    let err := s.eccErr t a
    let inj := smGet s.mem.injected (wkey t a) false
    let raw := s.dword t a ^^^ err % 2 ^ 64
    match eccDecode (eccSyndrome err) (s.mapBit t a) with
    | .clean =>
      let s := if scrub ∧ s.mapBit t a then s.setEcc t a err false else s
      (s, raw, false)
    | .poisoned => ((s.addF t (SCRUB_POISON_SEEN_COUNT c) 1), raw, true)
    | .corrected j =>
      let v := if j < 64 then raw ^^^ 1 <<< j else raw
      let s := (s.addF t (SCRUB_CE_COUNT c) 1).addCe t
      let s := s.raiseX t 240 inj
      let (s, _) := s.logCorr t a inj
      let s := ((s.putWord t a v).setEcc t a 0 (s.mapBit t a)).setInjected t a false
      (s, v, false)
    | .uncorrectable =>
      let s := (s.addF t (SCRUB_UE_COUNT c) 1).addUe t
      let s := s.setReg64 t INTEG_LAST_UE_LO (a / 8 * 8)
      let s := s.setReg t INTEG_LAST_UE_INFO (c + port % 16 * 8 + (if scrub then 128 else 0) + eccSyndrome err * 256)
      let s := if scrub then s.raiseX t 242 inj else (s.raiseX t 241 inj).countUe t c
      let s := ((s.putWord t a raw).setEcc t a poisonPattern true).setInjected t a false
      (s, raw, true)

/-- The DRAM injector acts on the first device write of its line (R425). -/
def State.injectLine (s : State) (t line : Nat) : State :=
  if s.on t INJ_CTL_ARMED ∧ s.reg64 t INJ_ADDR_LO / 64 = line then
    let a := line * 64 + 8 * s.f t INJ_CTL_WORD
    let s := s.setB t INJ_CTL_ARMED false
    let err := s.eccErr t a
    let s := match s.f t INJ_CTL_KIND with
      | 1 => (s.setEcc t a (err ^^^ 1 <<< s.f t INJ_CTL_BIT0) (s.mapBit t a)).setInjected t a true
      | 2 => (s.setEcc t a (err ^^^ 1 <<< s.f t INJ_CTL_BIT0 ^^^ 1 <<< s.f t INJ_CTL_BIT1) (s.mapBit t a)).setInjected t a true
      | 3 => (s.setEcc t a (err ^^^ poisonPattern) true).setInjected t a true
      | _ => s
    s.raise t 248
  else s

/-- Write part or all of one 64-bit word (R414): `bs` are the bytes from address a, which stay within the word. A part is merged into
what the controller reads for the port, with what that read finds (R421). -/
def State.writeWord (s : State) (t a port : Nat) (bs : List Nat) (poison : Bool) : State :=
  if bs.length = 8 then
    ((s.setDbytes t a bs).setEcc t a (if poison then poisonPattern else 0) poison).setInjected t a false |>.corrWritten t a
  else
    let (s, v, bad) := s.readWord t a port false
    let s := (s.putWord t a v).setDbytes t a bs
    let bad := bad || poison
    (s.setEcc t a (if bad then poisonPattern else 0) (if bad then true else s.mapBit t a)).setInjected t a false |>.corrWritten t a

/-- Split a run of bytes at word boundaries and write each part. -/
def State.writeRun (s : State) (t port : Nat) (poison : Bool) : Nat → Nat → List Nat → State
  | 0, _, _ => s
  | k + 1, a, bs =>
    if bs.isEmpty then s
    else
      let n := 8 - a % 8
      (s.writeWord t a port (bs.take n) poison).writeRun t port poison k (a + n) (bs.drop n)

/-- Device writes of every line that a run of bytes touches meet the injector. -/
def State.injectRun (s : State) (t a n : Nat) : State :=
  if s.on t INJ_CTL_ARMED ∧ 0 < n then
    let l := s.reg64 t INJ_ADDR_LO / 64
    if a / 64 ≤ l ∧ l ≤ (a + n - 1) / 64 then s.injectLine t l else s
  else s

/-- Bytes of a run that a waiting entry of the same line takes in (R401): the later bytes win. -/
def wqMerge (a : Nat) (bs : List Nat) (poison : Bool) (e : WqEnt) : WqEnt :=
  { e with
    mask := (List.range bs.length).foldl (fun m i => if (a + i) / 64 = e.line then orBit m ((a + i) % 64) else m) e.mask
    data := (List.range 64).map fun k =>
      if a ≤ e.line * 64 + k ∧ e.line * 64 + k < a + bs.length then bs.getD (e.line * 64 + k - a) 0 else e.data.getD k 0
    poison := e.poison || poison }

/-- A waiting write of the line takes the new bytes in; the entry stays in the queue. -/
def State.mergeQueued (s : State) (t a : Nat) (bs : List Nat) (poison : Bool) : State :=
  s.each (List.range 8) fun s c =>
    let x := s.mcChan t c
    if x.wq.any fun e => a / 64 ≤ e.line ∧ e.line ≤ (a + bs.length) / 64 then
      s.setMcChan t c { x with wq := x.wq.map fun e => if a / 64 ≤ e.line ∧ e.line ≤ (a + bs.length - 1) / 64 then wqMerge a bs poison e else e }
    else s

/-- Bytes outside FAILED channels; a FAILED channel discards writes (R409). -/
def State.failedAt (s : State) (t a : Nat) : Bool := s.f t (MCC_STAT_STATE (s.chanOf t a)) = 4

/-- Write bytes to a tile's DRAM (R401, R414), by a port, CREW unless another is named. Writes to a FAILED channel are discarded. -/
def State.wr (s : State) (t a : Nat) (bs : List Nat) (poison : Bool) (port : Nat := 9) : State :=
  if bs.isEmpty ∨ s.failedAt t a then s
  else
    let s := s.mergeQueued t a bs poison
    (s.writeRun t port poison (bs.length + 1) a bs).injectRun t a bs.length

/-- Read whole words over a run of addresses: data bytes and whether any word was poisoned. -/
def State.rdWords (s : State) (t port : Nat) : Nat → Nat → State × List Nat × Bool
  | 0, _ => (s, [], false)
  | k + 1, a =>
    let (s, v, p) := s.readWord t a port false
    let (s, l, q) := s.rdWords t port k (a + 8)
    (s, leBytes 8 v ++ l, p || q)

/-- Read n bytes of a tile's DRAM (R413): the bytes, and whether any word read was poisoned. -/
def State.rd (s : State) (t a n port : Nat) : State × List Nat × Bool :=
  let k := (a % 8 + n + 7) / 8
  let (s, l, p) := s.rdWords t port k (a / 8 * 8)
  (s, (l.drop (a % 8)).take n, p)

/-- The tile and tile address that a DRAM address names on tile t (R64, R389): an address in the local window, in a remote
window, or below both, where it is a tile address of its own tile (DEDUCED, log 21). -/
def dramAt (t a : Nat) : Nat × Nat :=
  if 0x1000000000 ≤ a then ((a - 0x1000000000) / 0x800000000, (a - 0x1000000000) % 0x800000000)
  else if 0x100000000 ≤ a then (t, a - 0x100000000)
  else (t, a)

/-- The run of bytes that a DRAM address names lies in DRAM that the part has (R64, R389). -/
def State.dramOk (s : State) (t a n : Nat) : Bool :=
  let x := dramAt t a
  s.has x.1 && x.2 + n ≤ s.dramSize x.1

/-- A unit of tile t writes bytes at a DRAM address; bytes outside DRAM go nowhere (log 21). -/
def State.wrAt (s : State) (t a : Nat) (bs : List Nat) (poison : Bool) (port : Nat := 9) : State :=
  if s.dramOk t a bs.length then s.wr (dramAt t a).1 (dramAt t a).2 bs poison port else s

/-- A unit of tile t reads bytes at a DRAM address; bytes outside DRAM read as poisoned free values (log 21). -/
def State.rdAt (s : State) (t a n port : Nat) : State × List Nat × Bool :=
  if s.dramOk t a n then s.rd (dramAt t a).1 (dramAt t a).2 n port else (s, (List.range n).map fun i => (Config.lostData (2 ^ 40 + a + i) s.now).toNat % 256, true)

/-- A little-endian number at a DRAM address. -/
def State.rdNumAt (s : State) (t a n port : Nat) : State × Nat × Bool :=
  let (s, l, p) := s.rdAt t a n port
  (s, leNum l, p)

/-- Every access to DRAM of the tile waits: no channel configuration, a channel OFF or in INIT, or self-refresh
outside the clock-loss sequence (R406, R408). -/
def State.dramWaits (s : State) (t a : Nat) : Bool :=
  let c := s.chanOf t a
  let st := s.f t (MCC_STAT_STATE c)
  st = 0 || st = 1 || (st = 3 && !(s.mcChan t c).clockSr)

end Sys2Proof.Machine
end

