-- ==== Sys2Proof/Machine/MemCtl.lean ====
section
/-!
DEFINITION. The memory controller's own events (chapter 16) and the scrubber, log and injectors (chapter 17).
-/

namespace Sys2Proof.Machine

/-- Rows in a bank by die density (R388). -/
def State.rowsPerBank (s : State) (t : Nat) : Nat := 32768 * 2 ^ s.f t MC_CFG_DENSITY

/-- A real-time port (R392). -/
def rtPort (p : Nat) : Bool := p ≤ 4

/-- Some port is in panic on a channel (R394). -/
def State.panicOn (s : State) (t c : Nat) : Bool := (List.range 15).any fun p => bit (s.f t (MC_PORT_STAT_PANIC p)) c

/-- The row map of R404. -/
def State.rowMap (s : State) (t y : Nat) : Nat :=
  let sel := s.f t MC_ROWMAP_XSEL
  if sel < 16 ∧ y.testBit sel then y ^^^ s.f t MC_ROWMAP_XMASK else y

/-- The victims of a row: two neighbours on each side in the mapped order, inside the bank (R404). -/
def State.victimsOf (s : State) (t row : Nat) : List Nat :=
  let m : Int := s.rowMap t row
  let l : List Int := [m + 1, m - 1, m + 2, m - 2]
  ((l.filter fun y => 0 ≤ y).map fun y => s.rowMap t y.toNat).filter fun y => y < s.rowsPerBank t

/-- Least count of a table with the row that has it. -/
def leastRow : List (Nat × Nat) → Option (Nat × Nat)
  | [] => none
  | e :: l => match leastRow l with
    | none => some e
    | some f => if e.2 ≤ f.2 then some e else some f

/-- The table update at an activate of a row (R403). -/
def RowTab.act (x : RowTab) (row : Nat) : RowTab :=
  if x.rows.any (·.1 = row) then { x with rows := x.rows.map fun e => if e.1 = row then (e.1, e.2 + 1) else e }
  else if x.rows.length < 16 then { x with rows := x.rows ++ [(row, x.spill + 1)] }
  else match leastRow x.rows with
    | some m =>
      if m.2 = x.spill then { x with rows := x.rows.map fun e => if e.1 = m.1 then (row, x.spill + 1) else e }
      else { x with spill := x.spill + 1 }
    | none => x

/-- Count of a row in a table. -/
def RowTab.count (x : RowTab) (row : Nat) : Nat := ((x.rows.find? (·.1 = row)).map (·.2)).getD 0

/-- A mitigation on a row: victims wait for their refresh, the entry's count falls to spill, the port is charged
(R404, R405). -/
def State.mitigate (s : State) (t c bank row port : Nat) (rt : Bool) : State :=
  let x := s.mcChan t c
  let tab := smGet x.tables bank {}
  let tab := { tab with rows := tab.rows.map fun e => if e.1 = row then (e.1, tab.spill) else e }
  let s := s.setMcChan t c { x with
    tables := smPut x.tables bank tab {}
    victims := x.victims ++ (s.victimsOf t row).map fun v => (bank, v)
    charges := smPut x.charges port (smGet x.charges port 0 + 1) 0
    remoteRt := x.remoteRt || (port = 13 && rt) }
  let s := s.addF t (MC_PORT_MIT_COUNT port) 1
  let s := s.addF t (MCC_MIT_CNT_COUNT c) 1
  s.raise t 227

/-- An access to a row: a hit on the open row, or an activate that the bank's table counts (R396, R403). -/
def State.access (s : State) (t c bank row port : Nat) (rt : Bool) : State :=
  let x := s.mcChan t c
  if smLook x.openRows bank = some row then s.setMcChan t c { x with used := smIns bank (s.now + 1) x.used }
  else
    let tab := (smGet x.tables bank {}).act row
    let keep := s.f t (MCC_PAGE_PAGE_IDLE c) ≠ 0
    let s := s.setMcChan t c { x with
      openRows := if keep then smIns bank row x.openRows else smDel bank x.openRows
      used := smIns bank (s.now + 1) x.used
      tables := smPut x.tables bank tab {} }
    s.when (s.f t MC_MIT_MIT_THR ≤ tab.count row) fun s => s.mitigate t c bank row port rt

/-- The victims waiting on a bank are activated and precharged (R404). -/
def State.refreshVictims (s : State) (t c bank port : Nat) : State :=
  let x := s.mcChan t c
  let (now, rest) := x.victims.partition (·.1 = bank)
  let s := s.setMcChan t c { x with victims := rest }
  let s := s.each now fun s v => s.access t c bank v.2 port false
  if now.isEmpty then s
  else let x := s.mcChan t c; s.setMcChan t c { x with openRows := smDel bank x.openRows }

/-- Write a queue entry to the device: the bytes of its mask, word by word, then the injector (R414, R425). -/
def State.issueEntry (s : State) (t c port : Nat) (e : WqEnt) : State :=
  let a := e.line * 64
  let co := chanOffset a
  let s := s.refreshVictims t c (s.bankOf t co) port
  let s := s.access t c (s.bankOf t co) (s.rowOf t co) port false
  let s := s.each (List.range 8) fun s w =>
    let m := bits e.mask (8 * w) 8
    if m = 0xFF then s.writeWord t (a + 8 * w) port ((e.data.drop (8 * w)).take 8) e.poison
    else if m = 0 then s
    else s.each ((List.range 8).filter fun i => bit m i) fun s i =>
      s.writeWord t (a + 8 * w + i) port [e.data.getD (8 * w + i) 0] e.poison
  s.injectLine t e.line

/-- Drain the write queue, oldest first, down to a number of entries (R393). -/
def State.drainTo (s : State) (t c port lo : Nat) : State :=
  let x := s.mcChan t c
  let n := x.wq.length - lo
  let out := x.wq.take n
  let s := s.setMcChan t c { x with wq := x.wq.drop n }
  let s := s.each out fun s e => s.issueEntry t c port e
  s.setF t (MCC_STAT_WQ c) (s.mcChan t c).wq.length

/-- A real-time port's deficit on a channel: panic raised at PANIC, lifted at CALM (R394), overrun past the buffer
(R395): OVERRUN, EV_MC_RT_OVERRUN, and the stream discarded to its frame boundary. -/
def State.portDeficit (s : State) (t p c d stream : Nat) : State :=
  if ¬ rtPort p then s
  else
    let s := { s with mem.deficit := smPut s.mem.deficit (tk t (p * 8 + c)) (min d (portBuffer p)) 0 }
    let was := bit (s.f t (MC_PORT_STAT_PANIC p)) c
    let s := if s.f t (MC_PORT_PANIC_PANIC p) ≤ d ∧ ¬ was then
        (s.setF t (MC_PORT_STAT_PANIC p) (orBit (s.f t (MC_PORT_STAT_PANIC p)) c)).raise t 224
      else if d ≤ s.f t (MC_PORT_PANIC_CALM p) then
        s.setF t (MC_PORT_STAT_PANIC p) (clrBit (s.f t (MC_PORT_STAT_PANIC p)) c)
      else s
    if portBuffer p < d then
      let s := s.setF t (MC_PORT_STAT_OVERRUN p) (orBit (s.f t (MC_PORT_STAT_OVERRUN p)) c)
      let s := { s with mem.overrun := smPut s.mem.overrun (tk t (p * 32 + stream)) true false }
      s.raise t 226
    else s

/-- Every open row of a rank closes. -/
def State.closeRank (s : State) (t c r : Nat) : State :=
  let x := s.mcChan t c
  s.setMcChan t c { x with openRows := x.openRows.filter fun e => e.1 / 16 ≠ r }

/-- The owed count of a rank (R399). -/
def owedF (c r : Nat) : FRef := if r = 0 then MCC_STAT_OWED0 c else MCC_STAT_OWED1 c

/-- Owed refreshes of a channel are issued once no panic is raised on it (R399). -/
def State.issueOwed (s : State) (t c : Nat) : State :=
  if s.panicOn t c then s
  else s.each (List.range 2) fun s r => s.when (s.f t (owedF c r) != 0) fun s => (s.setF t (owedF c r) 0).closeRank t c r

/-- The bytes of a write join an entry of the write queue (R401). -/
def McReq.join (q : McReq) (e : WqEnt) : WqEnt :=
  { e with
    mask := e.mask ||| q.mask
    data := (List.range 64).map fun k => if bit q.mask k then q.data.getD k 0 else e.data.getD k 0 }

/-- A channel serves a request (R401, R403, R404): a write joins the entry of its line or takes a new one, for which a port whose write
finds the queue full waits until it has been drained; a read of a line that waits there drains the queue first. -/
def State.mcServe (s : State) (t c : Nat) (q : McReq) : State :=
  let s := (s.sramWritten t 11).when (rtPort q.port) fun s => s.sramWritten t 12
  let s := s.when q.wr fun s => s.sramWritten t 13
  let line := q.addr / 64
  let hit := (s.mcChan t c).wq.any fun e => e.line = line
  if q.wr then
    if hit then s.setMcChan t c { s.mcChan t c with wq := (s.mcChan t c).wq.map fun e => if e.line = line then q.join e else e }
    else
      let s := s.when (decide (64 ≤ (s.mcChan t c).wq.length)) fun s => s.drainTo t c q.port (s.f t (MCC_PAGE_WQ_LO c))
      let x := s.mcChan t c
      let s := s.setMcChan t c { x with wq := x.wq ++ [q.join { line := line, mask := 0, data := List.replicate 64 0, poison := false }] }
      let s := s.setF t (MCC_STAT_WQ c) (x.wq.length + 1)
      s.drainTo t c q.port (s.f t (MCC_PAGE_WQ_LO c))
  else
    let co := chanOffset q.addr
    let s := if hit then s.drainTo t c q.port 0 else s
    let s := s.refreshVictims t c (s.bankOf t co) q.port
    s.access t c (s.bankOf t co) (s.rowOf t co) q.port q.rt

/-- A requester port's request (R389 to R395, R401, R403, R404): refused outside the DRAM, discarded by a FAILED channel and by an overrun,
waiting while the channel serves none of its port. -/
def State.mcRequest (s : State) (t p a : Nat) (wr : Bool) (mask : Nat) (data : List Nat) (d stream : Nat) (rt : Bool) : State :=
  let c := s.chanOf t a
  let st := s.f t (MCC_STAT_STATE c)
  let q : McReq := { port := p, addr := a, wr := wr, rt := rt, mask := if wr then mask else 0, data := if wr then data else [] }
  if s.dramSize t ≤ a ∨ st = 4 then s
  else
    let s := s.portDeficit t p c d stream
    if rtPort p && decide (portBuffer p < d) then s
    else if st = 2 ∨ st = 1 ∧ p = 14 then (s.mcServe t c q).when (rtPort p) fun s => s.issueOwed t c
    else s.setMcChan t c { s.mcChan t c with waits := (s.mcChan t c).waits ++ [q] }

/-- A channel that has begun to run serves what has waited for it. -/
def State.mcResume (s : State) (t c : Nat) : State :=
  let l := (s.mcChan t c).waits
  let s := s.when (l != []) fun s => s.setMcChan t c { s.mcChan t c with waits := [] }
  s.each l fun s q => s.mcServe t c q

/-- Four times tREFI x M in MEM cycles (R398). -/
def State.refi4 (s : State) (t c : Nat) : Nat := s.f t (MCC_REFI_tREFI c) * (16 >>> s.f t (MCC_STAT_M c))

/-- Refreshes of rank r of a channel that have fallen due by a tick (R398): one in every tREFI x M, offset by (2c + r) x tREFI / 16. Four
MEM cycles take no less than three ticks. -/
def State.refreshSlot (s : State) (t c r tick : Nat) : Nat :=
  (64 * tick + 4 * (12 * s.refi4 t c) - (2 * c + r) * 3 * s.f t (MCC_REFI_tREFI c)) / max 1 (12 * s.refi4 t c)

/-- A refresh of the rank has fallen due since the last one. -/
def State.refreshReady (s : State) (t c r : Nat) : Bool :=
  s.refreshSlot t c r (smGet s.time.periods (8 * 2 ^ 20 + 16 * t + 2 * c + r) 0) != s.refreshSlot t c r (s.now + 1)

/-- A refresh falls due on a rank (R399): issued at once, with those owed, when no panic is raised on the channel;
owed while one is; a forced sequence at 9. -/
def State.refreshDue (s : State) (t c r : Nat) : State :=
  if s.f t (MCC_STAT_STATE c) ≠ 2 ∨ 1 < r ∨ r = 1 ∧ ¬ s.on t MC_CFG_RANKS2 ∨ ¬ s.refreshReady t c r then s
  else
    let s := s.setPeriod 8 (16 * t + 2 * c + r)
    let n := s.f t (owedF c r) + 1
    if ¬ s.panicOn t c then (s.setF t (owedF c r) 0).closeRank t c r
    else if 9 ≤ n then
      let s := (s.setF t (owedF c r) 0).closeRank t c r
      (s.addF t (MCC_FORCED_COUNT c) 1).raise t 225
    else s.setF t (owedF c r) n

/-- A channel's devices are above their operating range, or no longer: the tile shows whether any channel's are. PLIM does not rise
within 10 ms of it (R460). -/
def State.hotSet (s : State) (t c : Nat) (hot : Bool) : State :=
  let warm := hot || smGet s.mem.hot (tk t c) false
  let s := { s with mem.hot := smPut s.mem.hot (tk t c) hot false }
  let s := s.when warm fun s => { s with pwr.hotTick := s.now + 1 }
  s.setB t THERM_STAT_DRAM_HOT ((List.range 8).any fun k => smGet s.mem.hot (tk t k) false)

/-- MC_MR4_POLL: every MR4_POLL ms (R398). -/
def State.mr4Ready (s : State) (t c : Nat) : Bool := s.periodDue 0 (8 * t + c) (max 1 (s.f t MC_CFG_MR4_POLL) * 1000 * usTicks)

/-- The controller reads MR4 (R398): the multiplier the device calls for, capped at 1 without MR4_LONG, and the
derating; EV_MC_DERATE on a change, EV_MC_DRAM_HOT for a code above the operating range. -/
def State.mr4 (s : State) (t c m : Nat) (derate hot : Bool) : State :=
  let m := if s.on t MC_CFG_MR4_LONG then m else max 2 m
  let chg := s.f t (MCC_STAT_M c) ≠ m ∨ s.on t (MCC_STAT_DERATE_ON c) ≠ derate
  let s := s.setF t (MCC_STAT_M c) m
  let s := s.setB t (MCC_STAT_DERATE_ON c) derate
  let s := s.when chg fun s => s.raise t 230
  (s.hotSet t c hot).when hot fun s => s.raise t 231

/-- A refresh window of 8,192 x tREFI x M has passed (R403). -/
def State.mitReady (s : State) (t c : Nat) : Bool := s.periodDue 1 (8 * t + c) ((8192 * 3 * s.refi4 t c + 15) / 16)

/-- At the end of a refresh window the tables and spill counts clear (R403). -/
def State.mitWindowEnd (s : State) (t c : Nat) : State :=
  if s.mitReady t c then (s.setPeriod 1 (8 * t + c)).setMcChan t c { s.mcChan t c with tables := [] } else s

/-- The port charged with the most mitigations, the lower number on a tie. -/
def leadPort (charges : SMap Nat) : Nat × Nat :=
  (List.range 15).foldl (fun b p => if b.2 < smGet charges p 0 then (p, smGet charges p 0) else b) (0, 0)

/-- A window of THR_WIN x 0.1 ms has passed (R405). -/
def State.throtReady (s : State) (t : Nat) : Bool := s.periodDue 2 t (s.f t MC_THROT_THR_WIN * 100 * usTicks)

/-- At the end of a THR_WIN window the leading port of each channel is throttled, or RT_LEAD is set (R405). -/
def State.throttleWindowEnd (s : State) (t : Nat) : State :=
  if !s.throtReady t then s
  else (s.setPeriod 2 t).each (List.range 8) fun s c =>
    let x := s.mcChan t c
    let (p, n) := leadPort x.charges
    let rt := rtPort p || (p = 13 && x.remoteRt)
    let s := s.setMcChan t c { x with charges := [], remoteRt := false }
    let s := s.setReg t (MC_THROT_STAT c) 0
    if n = 0 then s
    else if rt then (s.setB t (MC_THROT_STAT_RT_LEAD c) true).raise t 229
    else if s.f t MC_THROT_THR_MIN ≤ n then
      ((s.setF t (MC_THROT_STAT_PORT c) p).setB t (MC_THROT_STAT_ACTIVE c) true).raise t 228
    else s

/-- Drop what a channel held: contents lost with a failure read as memory never written (R409; DESIGN CHOICE, log
3). -/
def State.loseChannel (s : State) (t c : Nat) : State :=
  { s with
    writes := ((s.dram.filter fun x => x.1 / 2 ^ 36 = t ∧ s.chanOf t (x.1 % 2 ^ 36) = c).map fun x => (x.1, 0)) ++ s.writes
    mem.ecc := s.mem.ecc.filter fun x => ¬(x.1 / 2 ^ 33 = t ∧ s.chanOf t (x.1 % 2 ^ 33 * 8) = c)
    mem.pmap := s.mem.pmap.filter fun x => ¬(x.1 / 2 ^ 33 = t ∧ s.chanOf t (x.1 % 2 ^ 33 * 8) = c) }

/-- A write of CTL.EN (R388, R409): 0 to 1 takes an OFF or FAILED channel to INIT unless the configuration is not
listed; 1 to 0 turns the channel OFF. -/
def State.mcEnable (s : State) (t c : Nat) (en : Bool) : State :=
  let was := s.on t (MCC_CTL_EN c)
  if en ∧ ¬ was then
    if s.dramSize t = 0 then (s.setB t MC_CFG_CFG_ERR true).raise t 233
    else
      let lost := s.f t (MCC_STAT_STATE c) = 4
      let s := s.setB t (MCC_CTL_EN c) true
      let s := s.when lost fun s => s.loseChannel t c
      let s := s.setMcChan t c { waits := (s.mcChan t c).waits }
      let s := s.setF t (MCC_STAT_WQ c) 0
      s.setF t (MCC_STAT_STATE c) 1
  else if ¬ en ∧ was then
    let s := s.drainTo t c 14 0
    let s := s.setB t (MCC_CTL_EN c) false
    if s.f t (MCC_STAT_STATE c) = 4 then s else s.setF t (MCC_STAT_STATE c) 0
  else s

/-- The channel's periods start anew. -/
def State.mcPeriods (s : State) (t c : Nat) : State :=
  ((((s.setPeriod 0 (8 * t + c)).setPeriod 1 (8 * t + c)).setPeriod 3 (8 * t + c)).setPeriod 8 (16 * t + 2 * c)).setPeriod 8 (16 * t + 2 * c + 1)

/-- A channel moves from INIT to RUN once its values are written, and serves what has waited (R406, R407). -/
def State.mcRun (s : State) (t c : Nat) : State :=
  if s.f t (MCC_STAT_STATE c) = 1 then ((s.setF t (MCC_STAT_STATE c) 2).mcPeriods t c).mcResume t c else s

/-- Enter self-refresh (R408): the queued writes complete, rows close; `clock` marks the clock-loss sequence.
EV_MC_SELF_REFRESH marks the entry (PRESUMED, log 12). -/
def State.selfRefresh (s : State) (t c : Nat) (clock : Bool) : State :=
  if s.f t (MCC_STAT_STATE c) = 2 then
    let s := s.drainTo t c 14 0
    let s := s.setMcChan t c { s.mcChan t c with openRows := [], clockSr := clock }
    (s.setF t (MCC_STAT_STATE c) 3).raise t 235
  else s

/-- Leave self-refresh (R408): owed counts to 0, MR4 read, then what has waited is served. -/
def State.selfRefreshExit (s : State) (t c m : Nat) (derate hot : Bool) : State :=
  if s.f t (MCC_STAT_STATE c) = 3 then
    let s := s.setF t (MCC_STAT_STATE c) 2
    let s := s.setMcChan t c { s.mcChan t c with clockSr := false }
    let s := (s.setF t (MCC_STAT_OWED0 c) 0).setF t (MCC_STAT_OWED1 c) 0
    (((s.mr4 t c m derate hot).mcPeriods t c)).mcResume t c
  else s

/-- Tile address of an offset of a channel: the inverse of R389. -/
def State.addrOf (s : State) (t c co : Nat) : Nat :=
  let hi := co / 256 * 2048 + co % 256
  let ch := if s.on t MC_CFG_HASH then c ^^^ bits hi 13 3 ^^^ bits hi 18 3 else c
  hi + ch * 256

/-- Data lines of a channel: those below 7/8 of its capacity (R412). -/
def State.chanLines (s : State) (t : Nat) : Nat := s.dramSize t / 8 / 64

/-- The scrubber's scan of one line (R421). -/
def State.scrubLine (s : State) (t c line : Nat) : State :=
  let a := s.addrOf t c (line * 64)
  s.each (List.range 8) fun s w => (s.readWord t (a + 8 * w) 12 true).1

/-- Ticks that the scrubber takes for a line (R420): 64 bytes at RATE MB/s, at most 1,000, or a 24 h pass. -/
def State.scrubTicks (s : State) (t c : Nat) : Nat :=
  match s.f t (SCRUB_CTL_RATE c) with
  | 0 => 86400 * 1000000 * usTicks / max 1 (s.chanLines t)
  | r => 64 * usTicks / min 1000 r

/-- The scrubber reads the next line of its channel at its rate, unless it is off or the channel is not in RUN (R420). -/
def State.scrubRead (s : State) (t c : Nat) : State :=
  if s.on t (SCRUB_CTL_EN c) ∧ s.f t (MCC_STAT_STATE c) = 2 ∧ s.periodDue 3 (8 * t + c) (s.scrubTicks t c) then
    let s := s.setPeriod 3 (8 * t + c)
    let pos := s.f t (SCRUB_POS_LINE c)
    let s := s.scrubLine t c pos
    if pos + 1 < s.chanLines t then s.setF t (SCRUB_POS_LINE c) (pos + 1)
    else
      let s := s.setF t (SCRUB_POS_LINE c) 0
      let s := s.addF t (SCRUB_PASSES_COUNT c) 1
      { s with mem.passTotal := s.mem.passTotal + 1 }.raise t 247
  else s

/-- Empty a tile's correction log (R424). -/
def State.logClear (s : State) (t : Nat) : State :=
  ({ s with mem.corrLost := smDel t s.mem.corrLost }.setCorr t []).setF t INTEG_STAT_LOST 0

/-- A stream is being discarded after an overrun (R395); `stream` is the port's own numbering. -/
def State.overrunning (s : State) (t p stream : Nat) : Bool := smGet s.mem.overrun (tk t (p * 32 + stream)) false

def State.endOverrun (s : State) (t p stream : Nat) : State :=
  { s with mem.overrun := smPut s.mem.overrun (tk t (p * 32 + stream)) false false }

end Sys2Proof.Machine
end

