-- ==== Sys2Proof/Machine/Time.lean ====
section
/-!
DEFINITION. Time channels (chapter 4): ticks, followers, increments, steps, the servo, captures and LC0.
-/

namespace Sys2Proof.Machine

/-- The nominal increment, 1.25 ns in units of 2^-32 ns (R97). -/
def nominalInc : Nat := 0x140000000

/-- Who makes an access: the host is 0, crew c of tile t is 1 + 8t + c. -/
abbrev Who := Nat

def whoCrew (t c : Nat) : Who := 1 + 8 * t + c

/-- The accessor has system privilege: the host, or crews 0 and 1 (R49). -/
def sysWho (w : Who) : Bool := w = 0 || (w - 1) % 8 < 2

/-- Add d units of 2^-32 ns to a channel (R98). -/
def Chan.add (c : Chan) (d : Nat) : Chan :=
  let x := c.ns * 2 ^ 32 + c.frac + d
  let ns := x / 2 ^ 32
  { c with frac := x % 2 ^ 32, ns := ns % 1000000000, sec := (c.sec + ns / 1000000000) % 2 ^ 48 }

/-- The channel's value in units of 2^-32 ns. -/
def Chan.value (c : Chan) : Nat := (c.sec * 1000000000 + c.ns) * 2 ^ 32 + c.frac

/-- Set a channel's value, wrapping at 2^48 seconds (R97). -/
def Chan.setValue (c : Chan) (v : Int) : Chan :=
  let m := (v % ((2 ^ 48 * 1000000000 * 2 ^ 32 : Nat) : Int)).toNat
  let n := m / 2 ^ 32
  { c with sec := n / 1000000000, ns := n % 1000000000, frac := m % 2 ^ 32 }

/-- Add a signed number of nanoseconds, keeping the fraction (R107). -/
def Chan.step (c : Chan) (ns : Int) : Chan := c.setValue (c.value + ns * (2 ^ 32 : Nat))

/-- One tick of the time clock (R98); in HOLDOVER one AON cycle, in which each copy advances by its AON_CAL times its
increment and LC0 by the same estimate of ticks (R116, R124). -/
def State.tick (s : State) : State :=
  if s.time.clockLost then
    let s := s.each s.tileList fun s t => s.each (List.range 4) fun s n =>
      let c := s.chan t n
      s.setChan t n (c.add (rnd 24 (s.reg t AON_CAL * c.inc)).toNat)
    let x := s.time.lcFrac + s.reg 0 AON_CAL
    { s with
      time.lcFrac := x % 2 ^ 24
      time.lcTicks := (s.time.lcTicks + x / 2 ^ 24) % 2 ^ 64
      now := s.now + x / 2 ^ 24 }
  else
    let s := s.each s.tileList fun s t => s.each (List.range 4) fun s n => s.setChan t n ((s.chan t n).add (s.chan t n).inc)
    { s with time.lcTicks := (s.time.lcTicks + 1) % 2 ^ 64, now := s.now + 1 }

/-- Ticks per AON cycle as a tile's own oscillator gives them, u8.24. -/
def State.aonRatio (s : State) (t : Nat) : Nat := smGet s.time.aon t 0x19000000

/-- AON cycles of the time constant with which AON_CAL follows: 16 s of 32 MHz (R123). -/
def calCycles : Int := 512000000

/-- One AON cycle of a tile's calibration: a first-order filter with the time constant of R123 (DEDUCED, log 16). -/
def State.calibrate (s : State) (t : Nat) : State :=
  let a := smGet s.time.calAcc t 0 + ((s.aonRatio t : Int) - s.reg t AON_CAL)
  let d := a.tdiv calCycles
  let s := { s with time.calAcc := smPut s.time.calAcc t (a - d * calCycles) 0 }
  s.when (d != 0) fun s => s.setReg t AON_CAL (s.reg t AON_CAL + d).toNat

/-- CLKSUP_PPM.DEV: how far the ticks lie from the AON estimate, in units of 0.1 ppm (DEDUCED, log 16). -/
def State.refclkDev (s : State) (t : Nat) : Int :=
  let cal := max 1 (s.reg t AON_CAL)
  clampI (-32768) 32767 ((2 * (((s.aonRatio t : Int) - cal) * 10000000) + cal).fdiv (2 * cal : Nat))

/-- While REFCLK is good every tile's AON_CAL follows, once in each AON cycle of 25 ticks (R123). -/
def State.calibrateAll (s : State) : State :=
  s.when (!s.time.clockLost && s.now % 25 == 0) fun s => s.each (s.tileList.filter fun t => !s.isolated t) State.calibrate

/-- LC0 with offset and rate applied: the integer part, modulo 2^64 (R115). -/
def State.lc0 (s : State) : Nat :=
  ux 64 (((s.time.lcOfs : Int) + s.time.lcTicks * s.time.lcRate).fdiv (2 ^ 32 : Nat))

/-- Ticks from the acceptance of a change to its effect (R102). -/
def changeTicks : Nat := 400

/-- A channel is in HOLDOVER. -/
def State.holdover (s : State) (n : Nat) : Bool := s.on 0 (TC_STAT_HOLDOVER n)

/-- Accept an increment: it reads at once and takes effect 400 ticks later (R102, R106). -/
def State.acceptInc (s : State) (n inc : Nat) : State :=
  let x := s.steer n
  s.setSteer n { x with acc := inc, incs := x.incs ++ [(s.now + changeTicks, inc)] }

/-- An increment request by a crew or register (R106): refused beyond 1,000 ppm, in HOLDOVER, or under a servo. -/
def State.requestInc (s : State) (t n inc : Nat) : State × Bool :=
  let far := nominalInc + 5368709 < inc ∨ inc + 5368709 < nominalInc
  if far ∨ s.holdover n ∨ n ≠ 0 ∧ s.on 0 (TC_SERVO_EN n) then (s.setB t (TC_STAT_REFUSED n) true, false)
  else (s.acceptInc n inc, true)

/-- A step request (R107): refused while another is pending on the channel or in HOLDOVER. -/
def State.requestStep (s : State) (t n : Nat) (ns : Int) : State × Bool :=
  let x := s.steer n
  if x.step.isSome ∨ s.holdover n then (s.setB t (TC_STAT_REFUSED n) true, false)
  else
    let s := s.setSteer n { x with step := some (s.now + changeTicks, ns) }
    (s.each s.tileList fun s t => s.setB t (TC_STAT_STEP_PEND n) true, true)

/-- Accepted changes that are due take effect on every tile at one tick (R102, R107). -/
def State.applyChanges (s : State) (n : Nat) : State :=
  let x := s.steer n
  let due := x.incs.filter fun e => e.1 ≤ s.now
  let s := s.setSteer n { x with incs := x.incs.filter fun e => ¬ e.1 ≤ s.now }
  let s := match due.getLast? with
    | some e => s.each s.tileList fun s t => s.setChan t n { s.chan t n with inc := e.2 }
    | none => s
  match x.step with
  | some (d, ns) =>
    if d ≤ s.now then
      let s := s.setSteer n { s.steer n with step := none }
      let s := s.each s.tileList fun s t => (s.setChan t n ((s.chan t n).step ns)).setB t (TC_STAT_STEP_PEND n) false
      s.raiseAll 257
    else s
  | none => s

/-- The step of a channel that is due, if one is (R102). -/
def State.stepDue (s : State) (n : Nat) : Option Int :=
  match (s.steer n).step with
  | some (d, ns) => if d ≤ s.now then some ns else none
  | none => none

/-- The round trip to T0 that TIME_RTT.START began has completed, in ticks (R101). -/
def State.rttDone (s : State) (t ticks : Nat) : State :=
  if smGet s.time.rttBusy t false then
    let s := { s with time.rttBusy := smPut s.time.rttBusy t false false }
    (s.setF t TIME_RTT_RTT (min 4095 ticks)).setB t TIME_RTT_DONE true
  else s

/-- Magnitude of an integer. -/
def absI (i : Int) : Int := if i < 0 then -i else i

/-- The servo of TC1 to TC3 takes an offset sample e, in units of 2^-32 ns (R108 to R110). -/
def State.servoSample (s : State) (n : Nat) (e : Int) : State :=
  if ((s.reg 0 STEP_LIMIT * 2 ^ 32 : Nat) : Int) < absI e then
    (s.setB 0 (TC_STAT_REFUSED n) true).raise 0 256
  else
    let i := sx 32 (s.reg 0 (TC_INTEG n))
    let flim : Int := (s.f 0 (TC_FLIM_LIMIT n) : Nat)
    let p := sra e (s.f 0 (TC_SERVO_KP n))
    let iNew := clampI (-(2 ^ 31 : Int)) (2 ^ 31 - 1) (i + sra e (s.f 0 (TC_SERVO_KI n)))
    let iNew := if flim < absI (p + iNew) ∧ absI i < absI iNew then i else iNew
    let corr := p + iNew
    let base : Nat := s.f 0 (TC_BASE_HI_NS n) * 2 ^ 32 + s.reg 0 (TC_BASE_LO n)
    let inc := ((base : Int) + clampI (-flim) flim corr).toNat
    let s := s.setReg 0 (TC_INTEG n) (ux 32 iNew)
    let s := s.setB 0 (TC_STAT_CLAMP n) (flim < absI corr)
    let s := s.when (flim < absI corr) fun s => s.raise 0 258
    s.acceptInc n inc

/-- TCn_OFS_HI submits a sample to the servo, or is ignored (R110). -/
def State.ofsWrite (s : State) (n hi : Nat) : State :=
  if s.f 0 (TC_SERVO_SRC n) ≠ 0 ∨ ¬ s.on 0 (TC_SERVO_EN n) ∨ s.holdover n ∨ s.on 0 (TC_STAT_SERVO_FROZEN n) then
    s.setB 0 (TC_STAT_OFS_IGNORED n) true
  else s.servoSample n (sx 64 (hi * 2 ^ 32 + s.reg 0 (TC_OFS_LO n)))

/-- Expected period of a capture unit in units of 2^-32 ns; 0 means one second on CAP0 to CAP4 (R112). -/
def State.capPeriod (s : State) (k : Nat) : Nat :=
  let p := s.reg 0 (CAP_PER_HI k) * 2 ^ 32 + s.reg 0 (CAP_PER_LO k)
  if p = 0 ∧ k ≠ 5 then 1000000000 * 2 ^ 32 else p

/-- A period that CAP5 accepts: 4,166,666.667 ns to 41,708,333.334 ns (R113). -/
def frefPeriodOk (p : Nat) : Bool := 4166666667 * 2 ^ 32 ≤ p * 1000 && p * 1000 ≤ 41708333334 * 2 ^ 32

/-- Offset from a latched value, in 64.32 ns, to the nearest multiple of the period, the later on a tie (R112). -/
def capTheta (c per : Nat) : Int := if per = 0 then 0 else (((2 * c + per) / (2 * per) * per : Nat) : Int) - c

/-- SERVO_FROZEN of TC1 to TC3: the servo is enabled and its capture source is LOST, or the channels are in HOLDOVER (R110, R124). -/
def State.freezeServos (s : State) : State :=
  s.each [1, 2, 3] fun s n =>
    let src := s.f 0 (TC_SERVO_SRC n)
    s.setB 0 (TC_STAT_SERVO_FROZEN n)
      (s.on 0 (TC_SERVO_EN n) && (s.holdover n || src != 0 && s.on 0 (CAP_STAT_LOST (src - 1))))

/-- An edge at a capture input (R111 to R113). A fifth edge is dropped from the queue and counts as an edge in all else (DESIGN
CHOICE, log 88). -/
def State.captureEdge (s : State) (k : Nat) (rising : Bool) : State :=
  let edge := s.f 0 (CAP_CTL_EDGE k)
  if ¬ s.on 0 (CAP_CTL_EN k) ∨ (edge = 0 ∧ ¬ rising) ∨ (edge = 1 ∧ rising) then s
  else
    let c := s.chan 0 (s.f 0 (CAP_CTL_CHAN k))
    let v := c.setValue (c.value - 3 * c.inc)
    let x := s.cap k
    let s := if x.queue.length < 4 then
        (s.setCap k { x with queue := x.queue ++ [(v.sec, v.ns, v.frac)] }).setF 0 (CAP_STAT_LEVEL k) (x.queue.length + 1)
      else (s.setB 0 (CAP_STAT_OVERFLOW k) true).raise 0 259
    let s := (s.setCap k { s.cap k with last := s.now }).setB 0 (CAP_STAT_LOST k) false
    let s := s.freezeServos
    let theta := capTheta (v.n * 2 ^ 32 + v.frac) (s.capPeriod k)
    let s := if k = 5 then
        let x := s.cap 5
        let streak := if absI theta ≤ 100 * 2 ^ 32 then min 8 (x.streak + 1) else 0
        let s := s.setCap 5 { x with streak := streak }
        if 1000 * 2 ^ 32 < absI theta then s.setB 0 (CAP_STAT_LOCKED 5) false
        else if 8 ≤ streak then s.setB 0 (CAP_STAT_LOCKED 5) true else s
      else s
    s.each [1, 2, 3] fun s n =>
      s.when (s.f 0 (TC_SERVO_SRC n) == k + 1 && s.on 0 (TC_SERVO_EN n) && !s.holdover n) fun s => s.servoSample n theta

/-- 1.5 periods have passed since the unit's last edge, or since it was enabled (R112). -/
def State.captureLate (s : State) (k : Nat) : Bool :=
  decide (3 * s.capPeriod k ≤ 2 * (s.now - (s.cap k).last) * nominalInc)

/-- No edge within 1.5 periods (R112): LOST, its event, and the servos fed from the unit freeze (R110). -/
def State.captureLost (s : State) (k : Nat) : State :=
  if ¬ s.on 0 (CAP_CTL_EN k) ∨ s.on 0 (CAP_STAT_LOST k) ∨ ¬ s.captureLate k then s
  else ((s.setB 0 (CAP_STAT_LOST k) true).raise 0 260).freezeServos

/-- A write of CAPk_CTL: a unit that is enabled counts its 1.5 periods from then on (R112). CAP5 cannot be enabled with a period it
does not accept (R113). -/
def State.capCtlWrite (s : State) (k : Nat) (store : State → State) : State :=
  let was := s.on 0 (CAP_CTL_EN k)
  let s := store s
  let s := s.when (k == 5 && !was && !frefPeriodOk (s.reg64 0 (CAP_PER_LO 5))) fun s => s.setB 0 (CAP_CTL_EN 5) false
  s.when (!was && s.on 0 (CAP_CTL_EN k)) fun s => s.setCap k { s.cap k with last := s.now }

/-- Remove the oldest captured value (R111). -/
def State.capturePop (s : State) (k : Nat) : State × Option (Nat × Nat × Nat) :=
  let x := s.cap k
  match x.queue with
  | [] => (s, none)
  | v :: l => ((s.setCap k { x with queue := l }).setF 0 (CAP_STAT_LEVEL k) l.length, some v)

/-- The master sends its state to every follower, stamped with its tick count (R101). -/
def State.stampSend (s : State) : State :=
  if s.time.clockLost ∨ s.now % 4096 ≠ 0 then s
  else
    let st := (s.now, (List.range 4).map fun n => s.chan 0 n)
    s.each (s.runTiles.filter (· ≠ 0)) fun s t =>
      let (s, ok) := s.seamReach 0 t
      if ok then { s with time.stamps := smPut s.time.stamps t (smGet s.time.stamps t [] ++ [st]) [] } else s

/-- Realign one follower copy to its compensated stamp when it is more than one tick away (R103). A stamp brings the increment with
it, and changes take effect on every tile at one tick (R101, R102), so the copy's increment is the master's. -/
def State.realignOne (s : State) (t n : Nat) (m : Chan) : State × Bool :=
  let want := m.add (m.inc * s.f t FOLLOW_ROUTE_LAT)
  let c := { s.chan t n with inc := (s.chan 0 n).inc }
  if (c.inc : Int) < absI ((c.value : Int) - want.value) then (s.setChan t n { want with inc := c.inc }, true)
  else (s.setChan t n c, false)

/-- FOLLOW.STATE of a follower: HOLDOVER; else HOLD from reset until the first stamp, and from the loss of a port on its route until
ROUTE_LAT is rewritten (R104). -/
def State.followShow (s : State) (t : Nat) : State :=
  s.setF t FOLLOW_STATE
    (if s.time.clockLost then 2 else if !smGet s.time.stamped t false || smGet s.time.holdRaised t false then 1 else 0)

/-- A follower receives a master stamp (R103, R104). One whose route has lost a port counts on its own until ROUTE_LAT is
rewritten. -/
def State.stampReceive (s : State) (t : Nat) : State :=
  match smGet s.time.stamps t [] with
  | [] => s
  | st :: l =>
    let s := { s with time.stamps := smPut s.time.stamps t l [] }
    if t = 0 ∨ s.time.clockLost ∨ smGet s.time.holdRaised t false then s
    else
      let r := (List.range 4).foldl (fun (r : State × Bool) n =>
        let (s, b) := r.1.realignOne t n (st.2.getD n {})
        (s, r.2 || b)) (s, false)
      let s := ({ r.1 with time.stamped := smPut r.1.time.stamped t true false }).followShow t
      if r.2 then (s.addF t FOLLOW_SLIPS 1).raise t 261 else s

/-- A write of FOLLOW.ROUTE_LAT: firmware has measured the new route, which ends the HOLD of a lost port (R104). -/
def State.routeLatWrite (s : State) (t v : Nat) : State :=
  if t = 0 then s
  else
    let s := s.setF t FOLLOW_ROUTE_LAT v
    ({ s with time.holdRaised := smPut s.time.holdRaised t false false }).followShow t

/-- A write of LC0_OFS_2 applies all three offset words (R116). -/
def State.lcOfsApply (s : State) : State :=
  { s with time.lcOfs := s.reg 0 LC0_OFS_0 + s.reg 0 LC0_OFS_1 * 2 ^ 32 + s.reg 0 LC0_OFS_2 * 2 ^ 64 }

/-- A write of LC0_RATE_HI applies the rate; with REBASE the offset in force moves so that v is continuous (R116), and the offset words
keep what was last written to them (R6; DEDUCED, log 88). -/
def State.lcRateApply (s : State) : State :=
  let rate := sx 64 (s.reg 0 LC0_RATE_LO + s.reg 0 LC0_RATE_HI * 2 ^ 32)
  let ofs := if s.on 0 LC0_CTL_REBASE then ux 96 ((s.time.lcOfs : Int) + s.time.lcTicks * (s.time.lcRate - rate)) else s.time.lcOfs
  { s with time.lcRate := rate, time.lcOfs := ofs }

end Sys2Proof.Machine
end

