-- ==== Sys2Proof/Machine/Lanes.lean ====
section
/-!
DEFINITION. Serial lanes (chapter 5): roles and rates, block lock, its loss, electrical idle, eye scan, test
patterns.
-/

namespace Sys2Proof.Machine

def State.lane (s : State) (t l : Nat) : LaneSt := smGet s.lanes (tk t l) {}

def State.setLane (s : State) (t l : Nat) (x : LaneSt) : State := { s with lanes := smPut s.lanes (tk t l) x {} }

/-- The lanes L20 to L23 of T0 carry the host link (R127). -/
def hostLane (t l : Nat) : Bool := t = 0 && 20 ≤ l

/-- The lane's clocks run: it is enabled, its island is on and REFCLK is not lost. -/
def State.laneLive (s : State) (t l : Nat) : Bool := s.on t (LANE_CTL_EN l) && s.island t 6 && !s.time.clockLost

def State.laneLocked (s : State) (t l : Nat) : Bool := s.on t (LANE_STAT_LOCKED l)

/-- The line rate of a lane in units of a kbit/s divided by the nominal increment: a followed SDI lane scales with its time channel's
increment, as that stands on its tile (R150). -/
def State.laneSpeed (s : State) (t l : Nat) : Nat :=
  s.f t (LANE_RATE_KBPS l) *
    match s.f t (LANE_RATE_TRACK l) with
    | 0 => nominalInc
    | n + 1 => (s.chan t n).inc

/-- UI of a lane at its line rate that fit into a number of ticks (R129). -/
def State.laneUi (s : State) (t l ticks : Nat) : Nat := ticks * s.laneSpeed t l / (800000 * nominalInc)

/-! ### Transmitters -/

/-- Scramble a payload with 1 + x^39 + x^58 (R132): bit i goes first, `st` holds the last 58 bits sent, the latest lowest. -/
def scramble : Nat → Nat → Nat → Nat → Nat × Nat
  | 0, st, _, _ => (st, 0)
  | k + 1, st, p, i =>
    let o := xor (p.testBit i) (xor (st.testBit 38) (st.testBit 57))
    let (st', r) := scramble k ((st * 2 + b2n o) % 2 ^ 58) p (i + 1)
    (st', r + b2n o * 2 ^ i)

/-- Blocks as they leave: each header as it is, its payload scrambled (R132). -/
def scrambleAll : Nat → List (Nat × Nat) → Nat × List (Nat × Nat)
  | st, [] => (st, [])
  | st, b :: l =>
    let (st, p) := scramble 64 st b.2 0
    let (st', r) := scrambleAll st l
    (st', (b.1, p) :: r)

/-- A control block of a type with what follows the type (R132); bytes that no rule lists are 0 (DESIGN CHOICE, log 91). -/
def ctlBlock (ty : Nat) (b : List Nat) : Nat × Nat := (1, leNum (ty :: b))

/-- A data block. -/
def dataBlock (b : List Nat) : Nat × Nat := (2, leNum b)

/-- Idle and Wake (R133). -/
def idleBlock : Nat × Nat := ctlBlock 0xA1 []
def wakeBlock : Nat × Nat := ctlBlock 0xC3 []

def State.pin (s : State) (t l : Nat) : LanePins := smGet s.pins.lanes (tk t l) {}

def State.setPin (s : State) (t l : Nat) (x : LanePins) : State := { s with pins.lanes := smPut s.pins.lanes (tk t l) x {} }

/-- The lane's transmitter runs in role LINK (R127, R131). -/
def State.laneTx (s : State) (t l : Nat) : Bool :=
  16 ≤ l && s.laneLive t l && s.f t (LANE_CTL_ROLE l) = 2 && s.on t (LANE_STAT_PLL_OK l)

/-- A transmitter sends blocks: after electrical idle the burst of 1010 and 8 Wake blocks go first (R143). What follows them is Idle
(R133), in TRAINING and RETRAIN the link's TRAIN block (R332); the number of those repeated blocks is not counted, so the scrambler
starts each command's blocks at a free value. -/
def State.laneSend (s : State) (t l : Nat) (bs : List (Nat × Nat)) : State :=
  if ¬ s.laneTx t l then s
  else
    let x := s.pin t l
    let st := if x.blocks ≠ [] ∧ x.sentAt = s.now then x.scr else (Config.laneBits t l s.now).toNat
    let r := scrambleAll st ((if x.quiet then List.replicate 8 wakeBlock else []) ++ bs)
    s.setPin t l { x with blocks := r.2, burst := x.quiet, quiet := false, scr := r.1, sentAt := s.now }

/-- A transmitter goes to electrical idle at once, as where its synthesiser loses lock (R131). -/
def State.laneMute (s : State) (t l : Nat) : State := s.when (decide (16 ≤ l)) fun s => s.setPin t l { s.pin t l with quiet := true }

/-- A transmitter goes to electrical idle in the orderly way, after 8 Idle blocks (R142). -/
def State.laneRest (s : State) (t l : Nat) : State := s.when (s.laneTx t l && !(s.pin t l).quiet) fun s => (s.laneSend t l (List.replicate 8 idleBlock)).laneMute t l

/-- A transmitter whose synthesiser has relocked resumes as from electrical idle (R131). -/
def State.laneResume (s : State) (t l : Nat) : State := s.when (s.pin t l).quiet fun s => s.laneSend t l []

/-! ### Test patterns -/

/-- Length of a pattern's register, and its other tap: PRBS7 x^7 + x^6 + 1, PRBS31 x^31 + x^28 + 1 (R151). -/
def prbsTaps (sel : Nat) : Nat × Nat := if sel = 1 then (7, 6) else (31, 28)

/-- The bit that follows, given the last bits, the latest lowest. -/
def prbsNext (sel st : Nat) : Bool := xor (st.testBit ((prbsTaps sel).1 - 1)) (st.testBit ((prbsTaps sel).2 - 1))

/-- The register after a bit. -/
def prbsShift (sel st : Nat) (b : Bool) : Nat := (st * 2 + b2n b) % 2 ^ (prbsTaps sel).1

/-- Bit n of a pattern from a register. -/
def prbsBit (sel : Nat) : Nat → Nat → Bool
  | 0, st => prbsNext sel st
  | n + 1, st => prbsBit sel n (prbsShift sel st (prbsNext sel st))

/-- The bit of its test pattern that a general lane in role OFF sends now, if it sends one (R151); the place in the pattern at which it
starts is a free value other than all zeros. -/
def State.patternOut (s : State) (t l : Nat) : Option Bool :=
  let sel := s.f t (LANE_TEST_GEN l)
  if 16 ≤ l ∧ s.laneLive t l ∧ s.f t (LANE_CTL_ROLE l) = 0 ∧ sel ≠ 0 ∧ s.on t (LANE_STAT_PLL_OK l) then
    let at_ := (s.pin t l).genAt
    let st := 1 + (Config.laneBits t l at_).toNat % (2 ^ (prbsTaps sel).1 - 1)
    some (prbsBit sel (s.laneUi t l (s.now - at_)) st)
  else none

/-- Roles that a lane allows (R127). -/
def roleOk (t l role : Nat) : Bool :=
  if l < 16 then role ≤ 1 else if hostLane t l then role = 2 else role = 0 || role = 2 || role = 3

/-- The SDI line rates in kbit/s, rounded to the nearest (R149). -/
def sdiRates : List Nat := [1485000, 1483516, 2970000, 2967033, 5940000, 5934066, 11880000, 11868132]

/-- A scan under way ends ABORTED (R148). -/
def State.eyeAbort (s : State) (t l : Nat) : State :=
  s.when (s.f t (EYE_STAT_STATE l) == 1) fun s => s.setF t (EYE_STAT_STATE l) 3

/-- The receiver hunts for the block boundary (R135). -/
def State.laneHunt (s : State) (t l : Nat) : State :=
  let s := s.setB t (LANE_STAT_LOCKED l) false
  let s := s.setB t (LANE_STAT_IDLE l) false
  let s := s.setB t (LANE_STAT_HELD l) false
  let s := s.setB t (LANE_STAT_HUNTING l) true
  s.setLane t l { s.lane t l with valid := 0, invalid := [], idles := 0, pos := 0 }

/-- The receiver declares lock (R135); one that regains it waits for its port's marker (R139), however it had lost it. -/
def State.laneLock (s : State) (t l : Nat) : State :=
  let x := s.lane t l
  let s := s.setB t (LANE_STAT_LOCKED l) true
  let s := s.setB t (LANE_STAT_HUNTING l) false
  let s := s.setB t (LANE_STAT_HELD l) (x.regained && s.f t (LANE_CTL_ROLE l) != 0)
  s.setLane t l { x with valid := 0, invalid := [], pos := 0, idles := 0, regained := true, wakeHunt := false }

/-- The receiver loses lock and hunts (R137). -/
def State.laneLose (s : State) (t l : Nat) : State :=
  let s := s.eyeAbort t l
  let s := { s with pwr.laneLosses := s.pwr.laneLosses + 1 }.addF t (LANE_STAT_LOSSES l) 1
  let s := s.raise t (32 + l)
  let s := s.laneHunt t l
  s.setLane t l { s.lane t l with wakeHunt := false }

/-- Enabling a lane starts its synthesiser and, except in role SDI (R149), its receiver's hunt. -/
def State.laneEnable (s : State) (t l : Nat) : State :=
  let s := s.setB t (LANE_CTL_EN l) true
  let s := s.setB t (LANE_STAT_PLL_OK l) true
  let s := s.setLane t l { regained := (s.lane t l).regained }
  let s := s.setPin t l { genAt := if s.f t (LANE_TEST_GEN l) = 0 then 0 else s.now }
  if s.f t (LANE_CTL_ROLE l) = 3 then s else (s.setB t (LANE_STAT_SIGNAL l) true).laneHunt t l

/-- Disabling a lane stops its receiver; this is no loss of lock. -/
def State.laneDisable (s : State) (t l : Nat) : State :=
  let s := s.eyeAbort t l
  let s := s.setReg t (LANE_STAT l) (s.reg t (LANE_STAT l) / 64 * 64)
  let s := s.setB t (LANE_TEST_CHK_LOCK l) false
  ((s.setB t (LANE_CTL_EN l) false).setLane t l { regained := (s.lane t l).regained }).setPin t l {}

/-- CNT_CLR clears LOSSES, LANE_HDRERR and ERRS. -/
def State.laneCntClr (s : State) (t l : Nat) : State :=
  let s := s.setF t (LANE_STAT_LOSSES l) 0
  let s := s.setReg t (LANE_HDRERR l) 0
  s.setF t (LANE_TEST_ERRS l) 0

/-- A write of LANE_CTL (R127, R128, R149). -/
def State.laneCtlWrite (s : State) (t l v : Nat) : State :=
  let s := s.when (bit v 5) fun s => s.laneCntClr t l
  if hostLane t l then s
  else if s.on t (LANE_CTL_EN l) then (if bit v 0 then s else s.laneDisable t l)
  else
    let role := bits v 1 2
    let s := s.when (roleOk t l role) fun s => s.setF t (LANE_CTL_ROLE l) role
    let s := s.setB t (LANE_CTL_RX_INV l) (bit v 3)
    let s := s.when (16 ≤ l) fun s => s.setB t (LANE_CTL_TX_INV l) (bit v 4)
    let s := s.when (s.f t (LANE_CTL_ROLE l) != 3) fun s => s.setF t (LANE_RATE_TRACK l) 0
    if bit v 0 ∧ ¬(s.f t (LANE_CTL_ROLE l) = 3 ∧ s.f t (LANE_RATE_KBPS l) ∉ sdiRates) then s.laneEnable t l else s

/-- A write of LANE_RATE (R127 to R129, R150). -/
def State.laneRateWrite (s : State) (t l v : Nat) : State :=
  if hostLane t l ∨ s.on t (LANE_CTL_EN l) then s
  else
    let k := bits v 0 24
    let s := s.when (1250000 ≤ k && k ≤ 16000000) fun s => s.setF t (LANE_RATE_KBPS l) k
    s.when (s.f t (LANE_CTL_ROLE l) == 3 && bits v 24 3 ≤ 4) fun s => s.setF t (LANE_RATE_TRACK l) (bits v 24 3)

/-- A write of LANE_TXEQ; one outside the limits of R140 is refused whole. -/
def State.laneTxeqWrite (s : State) (t l v : Nat) : State :=
  let pre := bits v 0 5
  let post := bits v 5 5
  if l < 16 ∨ 16 < pre ∨ 24 < post ∨ 28 < pre + post then s
  else
    let s := s.setF t (LANE_TXEQ_PRE l) pre
    let s := s.setF t (LANE_TXEQ_POST l) post
    let s := s.setF t (LANE_TXEQ_SWING l) (bits v 10 3)
    s.setF t (LANE_TXEQ_MAIN l) (64 - pre - post)

/-- A write of LANE_ALIGN clears the record of invalid headers; values out of range are refused (R136). -/
def State.laneAlignWrite (s : State) (t l v : Nat) : State :=
  let c := bits v 0 7
  let w := bits v 8 13
  let s := s.when (4 ≤ c && c ≤ 64) fun s => s.setF t (LANE_ALIGN_LOSS_CNT l) c
  let s := s.when (64 ≤ w && w ≤ 4096) fun s => s.setF t (LANE_ALIGN_LOSS_WIN l) w
  s.setLane t l { s.lane t l with invalid := [] }

/-- A write of LANE_TEST: the checker starts afresh, and so does a generator whose pattern changes (R151). -/
def State.laneTestWrite (s : State) (t l v : Nat) : State :=
  let s := s.when (16 ≤ l && bits v 0 2 ≤ 2 && bits v 0 2 != s.f t (LANE_TEST_GEN l)) fun s =>
    (s.setF t (LANE_TEST_GEN l) (bits v 0 2)).setPin t l { s.pin t l with genAt := s.now }
  let s := s.when (bits v 2 2 ≤ 2) fun s => s.setF t (LANE_TEST_CHK l) (bits v 2 2)
  let s := s.setB t (LANE_TEST_CHK_LOCK l) false
  s.setLane t l { s.lane t l with prbsErr := false, chk := 0, chkRun := 0 }

/-- The checker counts a bit error; the first since it locked sets PRBS_ERR and raises EV_LANE_PRBS_ERR (R151). -/
def State.prbsMiss (s : State) (t l : Nat) : State :=
  let s := s.addF t (LANE_TEST_ERRS l) 1
  if (s.lane t l).prbsErr then s
  else ((s.setLane t l { s.lane t l with prbsErr := true }).setB t (LANE_STAT_PRBS_ERR l) true).raise t 60

/-- The checker takes a received bit (R151): until it locks it expects each bit by those received before, and 64 in a row that are right
lock it; from then on it expects the pattern itself. A register of zeros, which no pattern passes through, counts nothing. -/
def State.prbsTake (s : State) (t l : Nat) (b : Bool) : State :=
  let sel := s.f t (LANE_TEST_CHK l)
  let x := s.lane t l
  let want := prbsNext sel x.chk
  if s.on t (LANE_TEST_CHK_LOCK l) then
    let s := s.setLane t l { x with chk := prbsShift sel x.chk want }
    s.when (b != want) fun s => s.prbsMiss t l
  else
    let n := if b = want ∧ x.chk ≠ 0 then x.chkRun + 1 else 0
    let s := s.setLane t l { x with chk := prbsShift sel x.chk b, chkRun := n }
    s.when (decide (64 ≤ n)) fun s => s.setB t (LANE_TEST_CHK_LOCK l) true

/-- The 66 bits of a word at the receiver of a lane in role OFF whose checker is on (R151), header first (R132). -/
def State.prbsWord (s : State) (t l hdr payload : Nat) : State :=
  if s.f t (LANE_CTL_ROLE l) ≠ 0 ∨ s.f t (LANE_TEST_CHK l) = 0 then s
  else
    let s := s.each (List.range 2) fun s i => s.prbsTake t l (hdr.testBit i)
    s.each (List.range 64) fun s i => s.prbsTake t l (payload.testBit i)

/-- Descramble a payload with 1 + x^39 + x^58 (R132): bit i comes first, `st` holds the last 58 received bits, the
latest lowest. -/
def descramble : Nat → Nat → Nat → Nat → Nat × Nat
  | 0, st, _, _ => (st, 0)
  | k + 1, st, p, i =>
    let b := p.testBit i
    let o := xor b (xor (st.testBit 38) (st.testBit 57))
    let (st', r) := descramble k ((st * 2 + b2n b) % 2 ^ 58) p (i + 1)
    (st', r + b2n o * 2 ^ i)

/-- The header of a block: first bit low. 2 marks a data block, 1 a control block (R132). -/
def hdrValid (h : Nat) : Bool := h = 1 || h = 2

/-- A new invalid header on a locked lane (R134, R136). -/
def State.laneBad (s : State) (t l : Nat) : State :=
  let s := s.addF t (LANE_HDRERR_COUNT l) 1
  let x := s.lane t l
  let cnt := s.f t (LANE_ALIGN_LOSS_CNT l)
  let rcd := (x.invalid ++ [x.pos]).drop (x.invalid.length + 1 - cnt)
  let s := s.setLane t l { x with invalid := rcd }
  match rcd with
  | o :: _ => if rcd.length = cnt ∧ x.pos - o < s.f t (LANE_ALIGN_LOSS_WIN l) then s.laneLose t l else s
  | [] => s

/-- A lane receives a 66-bit block (R132 to R136). -/
def State.laneBlock (s : State) (t l hdr payload : Nat) : State :=
  if ¬ s.laneLive t l ∨ s.on t (LANE_STAT_IDLE l) ∨ s.f t (LANE_CTL_ROLE l) = 3 then s
  else
    let s := s.prbsWord t l hdr payload
    let (st, plain) := descramble 64 (s.lane t l).desc payload 0
    let s := s.setLane t l { s.lane t l with desc := st }
    if s.laneLocked t l then
      let x := s.lane t l
      let idle := hdr = 1 ∧ plain % 256 = 0xA1
      let s := s.setLane t l { x with pos := x.pos + 1, idles := if idle then x.idles + 1 else 0 }
      if hdrValid hdr then s else s.laneBad t l
    else if s.on t (LANE_STAT_HUNTING l) then
      let x := s.lane t l
      if hdrValid hdr then
        if 63 ≤ x.valid then s.laneLock t l else s.setLane t l { x with valid := x.valid + 1 }
      else s.setLane t l { x with valid := 0, boundary := (x.boundary + 1) % 66 }
    else s

/-- The synthesiser loses lock (R131, R137): the receiver loses lock, the transmitter goes quiet. -/
def State.lanePllLost (s : State) (t l : Nat) : State :=
  if ¬ s.on t (LANE_CTL_EN l) ∨ ¬ s.on t (LANE_STAT_PLL_OK l) then s
  else
    let s := s.setB t (LANE_STAT_PLL_OK l) false
    let s := s.setB t (LANE_STAT_PLL_LOST l) true
    let s := (s.raise t 58).laneMute t l
    let s := if s.laneLocked t l then s.laneLose t l else s
    s.setB t (LANE_STAT_HUNTING l) false

/-- The synthesiser relocks: the transmitter resumes, the receiver hunts (R131). -/
def State.lanePllBack (s : State) (t l : Nat) : State :=
  if ¬ s.laneLive t l ∨ s.on t (LANE_STAT_PLL_OK l) then s
  else
    let s := (s.setB t (LANE_STAT_PLL_OK l) true).laneResume t l
    if s.f t (LANE_CTL_ROLE l) = 3 then s else s.laneHunt t l

/-- The input falls below squelch: orderly after 8 Idle blocks (R142), else a loss of lock (R137). -/
def State.laneQuiet (s : State) (t l : Nat) : State :=
  if ¬ s.laneLive t l ∨ ¬ s.on t (LANE_STAT_SIGNAL l) then s
  else
    let s := s.setB t (LANE_STAT_SIGNAL l) false
    if ¬ s.laneLocked t l then s
    else if 8 ≤ (s.lane t l).idles then (s.eyeAbort t l).setB t (LANE_STAT_IDLE l) true
    else s.laneLose t l

/-- A burst ends electrical idle (R143, R144): `wakes` counts the consecutive Wake blocks with valid headers found at
each boundary from 4 UI before the held one to 4 UI after it. The spec does not say in which order they are tried: the model takes the
earliest, 4 UI before the held one, first (DESIGN CHOICE, log 91). -/
def State.laneWake (s : State) (t l : Nat) (wakes : List Nat) : State :=
  if ¬ s.laneLive t l ∨ s.on t (LANE_STAT_SIGNAL l) then s
  else
    let s := s.setB t (LANE_STAT_SIGNAL l) true
    if ¬ s.on t (LANE_STAT_IDLE l) then s
    else
      match (wakes.take 9).findIdx? (4 ≤ ·) with
      | some i =>
        let x := s.lane t l
        (s.setB t (LANE_STAT_IDLE l) false).setLane t l { x with boundary := (x.boundary + 62 + i) % 66, idles := 0 }
      | none =>
        let s := (s.setB t (LANE_STAT_WAKE_FAIL l) true).raise t 57
        let s := (s.eyeAbort t l).laneHunt t l
        s.setLane t l { s.lane t l with wakeHunt := true, wakeAt := s.now }

/-- The hunt after a failed exit has not locked in 64,000 UI (R144). -/
def State.laneWakeTimeout (s : State) (t l : Nat) : State :=
  if s.on t (LANE_STAT_HUNTING l) ∧ (s.lane t l).wakeHunt ∧ 64000 ≤ s.laneUi t l (s.now - (s.lane t l).wakeAt) then s.laneLose t l else s

/-- A lane delivers its port's marker `lag` blocks after the reference lane (R138, R139). The flag says that the lane
takes part in what the marker opens. -/
def State.laneMarker (s : State) (t l lag : Nat) : State × Bool :=
  if ¬ s.laneLocked t l ∨ ¬ s.laneLive t l then (s, false)
  else if lag < 32 then ((s.setF t (LANE_SKEW_SKEW l) lag).setB t (LANE_STAT_HELD l) false, true)
  else ((s.setB t (LANE_STAT_DESKEW_ERR l) true).raise t 56, false)

/-- A write of EYE_CTL (R147, R148): fields first, then STOP, then START. -/
def State.eyeCtlWrite (s : State) (t l v : Nat) : State :=
  let running := s.f t (EYE_STAT_STATE l) = 1
  let s := if running then s
    else
      let s := s.setF t (EYE_CTL_H l) (bits v 2 7)
      let s := s.when (bits v 9 7 != 64) fun s => s.setF t (EYE_CTL_V l) (bits v 9 7)
      s.when (20 ≤ bits v 16 6 && bits v 16 6 ≤ 40) fun s => s.setF t (EYE_CTL_WIN l) (bits v 16 6)
  let s := s.when (bit v 1) fun s => s.eyeAbort t l
  if bit v 0 ∧ ¬ running ∧ s.laneLive t l ∧ s.laneLocked t l then
    let s := s.setLane t l { s.lane t l with eyeAt := s.now }
    ((s.setF t (EYE_STAT_STATE l) 1).setReg t (EYE_ERR_LO l) 0).setReg t (EYE_ERR_HI l) 0
  else s

/-- A scan has compared its 2^WIN bits, which takes 2^WIN UI (R147, R148): `errs` of them differed. -/
def State.eyeDone (s : State) (t l errs : Nat) : State :=
  if s.f t (EYE_STAT_STATE l) = 1 ∧ 2 ^ s.f t (EYE_CTL_WIN l) ≤ s.laneUi t l (s.now - (s.lane t l).eyeAt) then
    let e := min errs (2 ^ s.f t (EYE_CTL_WIN l)) % 2 ^ 40
    let s := s.setReg t (EYE_ERR_LO l) (e % 2 ^ 32)
    let s := s.setReg t (EYE_ERR_HI l) (e / 2 ^ 32)
    (s.setF t (EYE_STAT_STATE l) 2).raise t 59
  else s

/-- The pattern checker meets a bit error after `correct` consecutive correct bits (R151). -/
def State.prbsError (s : State) (t l correct : Nat) : State :=
  if ¬ s.laneLive t l ∨ s.f t (LANE_CTL_ROLE l) ≠ 0 ∨ s.f t (LANE_TEST_CHK l) = 0 then s
  else
    let s := s.when (64 ≤ correct) fun s => s.setB t (LANE_TEST_CHK_LOCK l) true
    if s.on t (LANE_TEST_CHK_LOCK l) then s.prbsMiss t l else s.setLane t l { s.lane t l with chkRun := 0 }

/-- The clock-loss sequence: every enabled lane that was locked loses lock (R137), and the transmitters go quiet with their
synthesisers (R131). -/
def State.lanesClockLost (s : State) (t : Nat) : State :=
  s.each (List.range 24) fun s l => s.when (s.on t (LANE_CTL_EN l)) fun s =>
    let s := s.when (s.laneLocked t l) fun s => s.laneLose t l
    ((s.setB t (LANE_STAT_HUNTING l) false).setB t (LANE_STAT_SIGNAL l) false).laneMute t l

/-- Recovery: the lanes hunt (R125), and the transmitters resume (R131). -/
def State.lanesRecover (s : State) (t : Nat) : State :=
  s.each (List.range 24) fun s l =>
    let s := s.laneResume t l
    s.when (s.on t (LANE_CTL_EN l) && s.f t (LANE_CTL_ROLE l) != 3) fun s => (s.setB t (LANE_STAT_SIGNAL l) true).laneHunt t l

end Sys2Proof.Machine
end

