-- ==== Sys2Proof/Machine/Sections.lean ====
section
/-!
DEFINITION. Bench units (chapter 2): sections and their exchange, generations, the stale rule, shadow writes, and
which parameter banks are in use.
-/

namespace Sys2Proof.Machine

/-- The bench words of each section of a unit (R41). REC: take and staging words, one section per stream, the burst
words. -/
def sectionWords (u : Nat) : List (List Nat) :=
  if u = 4 then ((List.range 4).map fun s => (List.range 32).map (32 * s + ·)) ++ [[128]]
  else if u = 11 then (List.range 4).map fun s => (List.range 16).map (16 * s + ·)
  else if u = 12 then
    (List.range 64 ++ [80, 81, 82, 83]) :: ((List.range 16).map fun k => [64 + k]) ++ [(List.range 8).map (84 + ·)]
  else [List.range (unitWords u)]

/-- Sections that swap by their own clock: RC_DEFTAB follows the source sections (R41). -/
def sectionCount (u : Nat) : Nat := if u = 4 then 4 else (sectionWords u).length

def secKey (t u sec : Nat) : Nat := (t * 32 + u) * 32 + sec

/-- A section has a frame, picture or producer's unit in progress (R41). -/
def State.secBusy (s : State) (t u sec : Nat) : Bool := smGet s.bench.busy (secKey t u sec) false

def State.setBusy (s : State) (t u sec : Nat) (b : Bool) : State :=
  { s with bench.busy := smPut s.bench.busy (secKey t u sec) b false }

/-- Offset of the shadow copy of bench word w of unit u. -/
def wordAt (u w : Nat) : Nat := benchBase u + 4 * w

/-- The RC_DEFTAB word that source s works with (R41). -/
def State.defWord (s : State) (t src : Nat) : Nat :=
  match smGet s.bench.defView (tk t src) 0 with
  | 0 => s.reg t (RC_DEFTAB + 0x8000)
  | v + 1 => v

/-- Source src moves to the RC_DEFTAB word of the shadow; the active word follows when the last source has moved,
and the fault of the bank that is left ends (R201). -/
def State.moveDefTab (s : State) (t src : Nat) : State :=
  let v := s.reg t RC_DEFTAB
  let s := { s with bench.defView := smPut s.bench.defView (tk t src) (v + 1) 0 }
  if (List.range 4).all fun k => smGet s.bench.defView (tk t k) 0 ≠ 0 then
    let s := s.when (bits v 17 1 != s.f t ⟨RC_DEFTAB + 0x8000, 17, 1⟩) fun s =>
      let bad := smGet s.pix.defBad t 0 &&& 2 ^ bits v 17 1
      { s with pix.defBad := smPut s.pix.defBad t bad 0 }.setB t RC_STAT_DEF_TFAULT (bad != 0)
    let s := s.setReg t (RC_DEFTAB + 0x8000) v
    { s with bench.defView := (List.range 4).foldl (fun m k => smPut m (tk t k) 0 0) s.bench.defView }
  else s

/-- A section exchanges its words: the shadow's become active and the shadow then reads the same (R37). -/
def State.exchangeSec (s : State) (t u sec : Nat) : State :=
  let ws := (sectionWords u).getD sec []
  let old := ws.map fun w => s.reg t (wordAt u w + 0x8000)
  let s := s.each ws fun s w => s.setReg t (wordAt u w + 0x8000) (s.reg t (wordAt u w))
  let s := s.when (u == 4) fun s => s.moveDefTab t sec
  let x := s.unit t u
  let s := s.setUnit t u { x with waits := x.waits.filter (·.sec ≠ sec) }
  { s with bench.exchanged := s.bench.exchanged ++ [(secKey t u sec, old)] }

/-- The words a section used before an exchange that its unit has not yet acted on. -/
def State.takeExchange (s : State) (t u sec : Nat) : State × Option (List Nat) :=
  match s.bench.exchanged.find? (·.1 = secKey t u sec) with
  | none => (s, none)
  | some e => ({ s with bench.exchanged := s.bench.exchanged.filter (·.1 ≠ secKey t u sec) }, some e.2)

/-- The unit counts as armed: a solo commit pending, or sections still to exchange (R41, R50, R53). -/
def State.armed (s : State) (t u : Nat) : Bool := (s.unit t u).solo || (s.unit t u).waits ≠ []

/-- A unit stops marking at the commit that brings it to the generation of its peers, the units of its number that took part in the
split transaction (R58). -/
def State.endMark (s : State) (t u : Nat) : State :=
  let m := smGet s.bench.marks (tk t u) 0
  let same := (s.tileList.filter fun v => bit (m / 4) v).all fun v => s.gen v u == s.gen t u
  s.when (decide (2 ≤ m) && same) fun s => { s with bench.marks := smPut s.bench.marks (tk t u) 0 0 }

/-- The input frame, as (counter, Frame Start tick), that builds output frame `seq` of the channel that a selector names on its home
tile, where it is the last one announced (R41, R250). -/
def State.builtFrom (s : State) (sel seq : Nat) : Option (Nat × Nat) :=
  match (smGet s.pix.out (tk (sel / 4) (sel % 4)) {}).pointed with
  | some (n, c, tick) => if n = seq then some (c, tick) else none
  | none => none

/-- A unit swaps at the occurrence of its commit point (R38, R41). -/
def State.swapUnit (s : State) (t u kind sel seq : Nat) : State :=
  let g := s.gen t u
  let s := s.setF t (UNIT_GEN_GEN u) (if g = 0xFFFF then 1 else g + 1)
  let s := s.setReg t (UNIT_LASTSEQ u) seq
  let s := s.setUnit t u { s.unit t u with solo := false, written := [], swap := (kind, sel) }
  let s := s.each s.tileList fun s v => s.endMark v u
  s.each (List.range (sectionCount u)) fun s sec =>
    if s.secBusy t u sec ∧ ¬(u = 12 ∧ sec = 0) then
      let x := s.unit t u
      let cnt := if kind = 2 then (s.builtFrom sel seq).map (·.1) else none
      s.setUnit t u { x with waits := x.waits ++ [{ sec := sec, kind := kind, sel := sel, seq := seq, n := s.now, cnt := cnt }] }
    else s.exchangeSec t u sec

/-- A 32-bit number lies at or after another by the signed difference (R40). -/
def seqAtOrAfter (a b : Nat) : Bool := 0 ≤ sx 32 ((a + 2 ^ 32 - b % 2 ^ 32) % 2 ^ 32)

/-- The port takes part in a sensor group. -/
def State.adSg (s : State) (t p : Nat) : Bool := s.aOn t (AD_SG_SG_EN p)

/-- Tiles that are members of the group of tile t's port p (R169). -/
def State.sgMembers (s : State) (t p : Nat) : List Nat :=
  s.tileList.filter fun u => s.adSg u p && s.a u (AD_SG_SG p) = s.a t (AD_SG_SG p) && s.on u (AD_CTL_EN p) && !s.isolated u

/-- A FRAME_START point names the source that a tile's port p receives: that port itself, or any member of its group (R40). -/
def State.sameSource (s : State) (t p : Nat) (w : SecWait) : Bool :=
  w.sel % 4 == p && (w.sel / 4 == t || (s.adSg t p && (s.sgMembers t p).contains (w.sel / 4)))

/-- A unit's section is clocked by the output channel that a selector names (R41): the channel itself, on any tile, or the encode
context that the channel feeds. -/
def State.outFeeds (s : State) (u sel : Nat) : Bool :=
  u == 7 + sel % 4 ||
    (decide (13 ≤ u) && decide (u < 17) && s.a (sel / 4) (OC_CFG_DEST (sel % 4)) == 3 && s.a (sel / 4) (OC_CFG_TARGET (sel % 4)) == u - 13)

/-- The point names the clock of a unit's section (R41). -/
def State.waitSame (s : State) (t u p : Nat) (w : SecWait) : Bool := if w.kind = 2 then s.outFeeds u w.sel else s.sameSource t p w

/-- A frame's start is a boundary at which a waiting section may exchange (R41); `same` says that the point names the section's clock. -/
def waitAllows (w : SecWait) (f : FrameHdr) (same : Bool) : Bool :=
  if w.kind = 0 then true
  else if w.kind = 1 ∧ same then seqAtOrAfter f.cnt w.seq
  else match w.cnt with
    | some c => if same then seqAtOrAfter f.cnt c else w.n ≤ f.tick
    | none => w.n ≤ f.tick

/-- A frame begins at a section: a waiting exchange that the frame allows takes place, and the section is busy. -/
def State.beginSec (s : State) (t u sec : Nat) (f : FrameHdr) : State :=
  let s := if (s.unit t u).waits.any fun w => w.sec = sec ∧ waitAllows w f (s.waitSame t u f.src w) then s.exchangeSec t u sec else s
  s.setBusy t u sec true

/-- A frame ends at a section: an IMMEDIATE swap exchanges now (R41). -/
def State.endSec (s : State) (t u sec : Nat) : State :=
  let s := s.setBusy t u sec false
  if (s.unit t u).waits.any fun w => w.sec = sec ∧ w.kind = 0 then s.exchangeSec t u sec else s

/-- A section that waits and whose clock has nothing in progress exchanges now. -/
def State.exchangeIdle (s : State) (t u sec : Nat) : State :=
  if ¬ s.secBusy t u sec ∧ (s.unit t u).waits.any (·.sec = sec) then s.exchangeSec t u sec else s

/-! ### Stale units -/

/-- A unit becomes stale (R44, R46). -/
def State.becomeStale (s : State) (t u : Nat) (event : Bool) : State :=
  let was := s.gen t u
  let s := s.setF t (UNIT_GEN_GEN u) 0
  let s := s.setB t (UNIT_GEN_WRITTEN_ALL u) false
  let s := s.setUnit t u { s.unit t u with written := [], waits := [], solo := false }
  s.when (event && was != 0) fun s => s.raise t 300

/-- A stale unit refuses a frame (R44). -/
def State.refuseFrame (s : State) (t : Nat) : State :=
  let s := s.raise t 300
  { s with bench.refused := s.bench.refused + 1 }

/-- The shadow of bench word w takes a value; a stale unit notes that it has been written (R36, R45). -/
def State.shadowWrite (s : State) (t u w v : Nat) : State :=
  let s := s.setReg t (wordAt u w) v
  if s.stale t u then
    let x := s.unit t u
    if w ∈ x.written then s
    else
      let l := w :: x.written
      let s := s.setUnit t u { x with written := l }
      s.when (unitWords u ≤ l.length) fun s => s.setB t (UNIT_GEN_WRITTEN_ALL u) true
  else s

/-- Rollback: the shadow becomes a copy of the active bench; a stale unit loses WRITTEN_ALL (R56). -/
def State.rollback (s : State) (t u : Nat) : State :=
  let s := s.each (List.range (unitWords u)) fun s w => s.setReg t (wordAt u w) (s.reg t (wordAt u w + 0x8000))
  let s := s.setUnit t u { s.unit t u with written := [] }
  s.when (s.stale t u) fun s => s.setB t (UNIT_GEN_WRITTEN_ALL u) false

/-! ### Ownership -/

/-- The transaction holds the shadows it owns on a tile: from its first write there to its swap or rollback. -/
def Txn.holds (x : Txn) (t u : Nat) : Bool := x.state ≠ 0 && !bit x.released t && x.units.contains (t * 32 + u)

/-- The transaction that owns a unit's shadow (R52). -/
def State.ownerOf (s : State) (t u : Nat) : Option Nat :=
  (List.range 16).find? fun i => (s.txn i).holds t u

/-- A pending swap will put the shadow of the unit into service: armed alone, or owned by a transaction being
committed (R39). -/
def State.swapPending (s : State) (t u : Nat) : Bool :=
  s.armed t u || match s.ownerOf t u with
    | some i => 2 ≤ (s.txn i).state
    | none => false

/-! ### Parameter banks -/

/-- Bank b of a table is in use: a unit's active bench selects it, a source still uses it, or a pending swap selects
it (R39, R208). Banks are numbered as in `State.bankWritten`. -/
def State.bankInUse (s : State) (t b : Nat) : Bool :=
  if b < 2 then
    bits (s.reg t (RC_DEFTAB + 0x8000)) 17 1 = b ||
    (List.range 4).any (fun k => bits (s.defWord t k) 17 1 = b) ||
    (s.swapPending t 4 && s.f t RC_DEFTAB_BANK = b)
  else if b < 10 then
    let k := (b - 2) / 2
    s.a t (RC_CFG_LSC_BANK k) = b % 2 || (s.swapPending t 4 && s.f t (RC_CFG_LSC_BANK k) = b % 2)
  else if b < 14 then
    let n := (b - 10) / 2
    s.a t (DV_CFG_TONE_BANK n) = b % 2 || (s.swapPending t (5 + n) && s.f t (DV_CFG_TONE_BANK n) = b % 2)
  else if b < 18 then
    let n := (b - 14) / 2
    s.a t (DV_CFG_LUT_BANK n) = b % 2 || (s.swapPending t (5 + n) && s.f t (DV_CFG_LUT_BANK n) = b % 2)
  else
    let c := (b - 18) / 2
    s.a t (OC_CFG_COEF_BANK c) = b % 2 || (s.swapPending t (7 + c) && s.f t (OC_CFG_COEF_BANK c) = b % 2)

/-- The table bank, and the offset its words are held at, that an address of the table windows names (R208, R229,
R251). A window with one address for both banks names the bank that the active bench does not select. -/
def State.tableAt (s : State) (t off : Nat) : Option (Nat × Nat) :=
  if 0x400000 ≤ off ∧ off < 0x500000 then some ((off - 0x400000) / 0x80000, off)
  else if 0x500000 ≤ off ∧ off < 0x700000 then some (2 + (off - 0x500000) / 0x40000, off)
  else if 0x700000 ≤ off ∧ off < 0x710000 ∧ (off - 0x700000) % 0x8000 < 0x6000 then
    let n := (off - 0x700000) / 0x8000
    let b := 1 - s.a t (DV_CFG_TONE_BANK n)
    some (10 + 2 * n + b, off + b * 0x800000)
  else if 0x720000 ≤ off ∧ off < 0x7B0000 ∧ (off - 0x720000) % 0x48000 < 8 * 35937 then
    let n := (off - 0x720000) / 0x48000
    let b := 1 - s.a t (DV_CFG_LUT_BANK n)
    some (14 + 2 * n + b, off + b * 0x800000)
  else if 0xD0000 ≤ off ∧ off < 0xD4000 ∧ (off - 0xD0000) % 0x1000 < 0x800 ∧ ((off - 0xD0000) % 0x1000 < 0x400 ∨ off % 16 < 12) then
    let c := (off - 0xD0000) / 0x1000
    let b := 1 - s.a t (OC_CFG_COEF_BANK c)
    some (18 + 2 * c + b, off + b * 0x800000)
  else none

/-- A word of a table as held. -/
def State.tbl (s : State) (t at_ : Nat) : Nat := (smGet s.pix.tables (t * 0x2000000 + at_) 0).toNat

def State.setTbl (s : State) (t at_ v : Nat) : State :=
  { s with pix.tables := smPut s.pix.tables (t * 0x2000000 + at_) (BitVec.ofNat 32 v) 0 }

/-- A write to a table window: ignored with EV_BENCH_LIVE_TABLE when the bank is in use (R39). -/
def State.tableWrite (s : State) (t off v : Nat) : State :=
  match s.tableAt t off with
  | none => s
  | some (b, at_) =>
    if s.bankInUse t b then s.raise t 302
    else
      let k := if b < 2 then 3 else if b < 10 then 4 else if b < 14 then 5 else if b < 18 then 6 else 7
      (((s.setTbl t at_ v).setBank t b true).sramWritten t k)

/-- A read of a table window. -/
def State.tableRead (s : State) (t off : Nat) : Nat :=
  match s.tableAt t off with
  | none => 0
  | some (_, at_) => s.tbl t at_

/-- Both banks of every table of a tile are EMPTY again (R46). -/
def State.emptyBanks (s : State) (t : Nat) : State := s.each (List.range 26) fun s b => s.setBank t b false

end Sys2Proof.Machine
end

