-- ==== Sys2Proof/Machine/Check.lean ====
section
/-!
DEFINITION. The checks a commit makes of a shadow bench (R42, R54): reserved encodings and ranges (R7), the rules of
each block chapter, EMPTY banks (R39), commit kinds.
-/

namespace Sys2Proof.Machine

/-- A field as a check reads it: from the shadow where the same commit owns the unit, from the active bench otherwise
(R548). `own` has one bit per unit of the tile. -/
def State.vw (s : State) (own u t : Nat) (r : FRef) : Nat := if bit own u then s.f t r else s.a t r

def State.vw64 (s : State) (own u t lo : Nat) : Nat := if bit own u then s.reg64 t lo else s.a64 t lo

/-- Lanes that a port binds, by NL (R153). -/
def nlLanes (c : Nat) : Nat := [0, 1, 2, 4, 8, 16].getD c 0

/-- Columns in a group, by G (R158). -/
def colGroup (c : Nat) : Nat := 2 ^ c

/-- Frame width and height of source p on a tile, as a check takes them (R548). -/
def State.geoW (s : State) (own t p : Nat) : Nat := s.vw own p t (AD_GEOM_W p)
def State.geoH (s : State) (own t p : Nat) : Nat := s.vw own p t (AD_GEOM_H p)

/-- Checks of Adit port p (R153, R158, R163, R164, R172). -/
def State.checkAdit (s : State) (own t p : Nat) : Bool :=
  let f := fun (r : FRef) => s.vw own p t r
  let n := nlLanes (f (AD_LANES_NL p))
  let base := f (AD_LANES_LANE_BASE p)
  let g := colGroup (f (AD_LANES_G p))
  let others := (List.range 4).filter (· ≠ p)
  f (AD_LANES_NL p) ≤ 5 && f (AD_LANES_G p) ≠ 0 && f (AD_LANES_BITS p) ≤ 4 && f (AD_FMT_CONC_LIMIT p) ≤ 16 &&
  f (AD_GEOM_W p) ≠ 0 && f (AD_GEOM_H p) ≠ 0 &&
  f (AD_GEOM_W p) % g = 0 && f (AD_SEG_SEG_X0 p) % g = 0 && f (AD_SEG_SEG_W p) % g = 0 &&
  (n = 0 || (base % n = 0 && base + n ≤ 16)) &&
  (f (AD_SG_SG_EN p) = 0 || (1 ≤ f (AD_SG_GLANES p) && f (AD_SG_GLANES p) ≤ 128)) &&
  f (AD_ARB_QUOTA p) ≤ 4096 && s.vw64 own p t (AD_EMB_LO p) % 64 = 0 &&
  f (AD_EMB_SLOT_SLOT p) % 64 = 0 && f (AD_EMB_SLOT_SLOT p) ≤ 65536 &&
  (others.all fun q =>
    let m := nlLanes (s.vw own q t (AD_LANES_NL q))
    let b := s.vw own q t (AD_LANES_LANE_BASE q)
    n = 0 || m = 0 || base + n ≤ b || b + m ≤ base) &&
  (others.foldl (fun a q => if s.on t (AD_CTL_EN q) then a + s.vw own q t (AD_ARB_QUOTA q) else a) (f (AD_ARB_QUOTA p)) ≤ 4096) &&
  ((f (AD_LANES_NL p) = s.a t (AD_LANES_NL p) && base = s.a t (AD_LANES_LANE_BASE p)) ||
    (List.range n).all fun k => s.f t (LANE_CTL_ROLE (base + k)) = 1)

/-- Checks of RAWC that rest on its own words, for source k (R197, R199, R204, R207). -/
def State.checkRawc (s : State) (own t k : Nat) : Bool :=
  let f := fun (r : FRef) => s.vw own 4 t r
  let w := s.geoW own t k
  let bitsOk := f (RC_CFG_TAP_BITS k) ∈ [8, 10, 12, 14, 16, 20]
  let kx := f (RC_STCFG_DIFF_KX k)
  let ky := f (RC_STCFG_DIFF_KY k)
  let stripe := s.vw own (21 + k) t ⟨STRIPE_CFG k, 0, 32⟩
  let x0 := max (bits stripe 0 16) (f (RC_STWIN_X_X0 k))
  let x1 := min (bits stripe 0 16 + bits stripe 16 14) (f (RC_STWIN_X_X0 k) + f (RC_STWIN_X_W k))
  let y0 := f (RC_STWIN_Y_Y0 k)
  let y1 := min (s.geoH own t k) (y0 + f (RC_STWIN_Y_H k))
  let pts := fun (a b e : Nat) => (b + 2 ^ e - 1) / 2 ^ e - (a + 2 ^ e - 1) / 2 ^ e
  bitsOk && f (RC_OB_L_N k) ≤ 256 && f (RC_OB_R_N k) ≤ 256 &&
  (f (RC_OB_L_N k) = 0 || f (RC_OB_L_X0 k) + f (RC_OB_L_N k) ≤ w) &&
  (f (RC_OB_R_N k) = 0 || f (RC_OB_R_X0 k) + f (RC_OB_R_N k) ≤ w) &&
  2 ≤ f (RC_GRID_NX k) && f (RC_GRID_NX k) ≤ 129 && 2 ≤ f (RC_GRID_NY k) && f (RC_GRID_NY k) ≤ 97 &&
  f (RC_BLEND_ALPHA_DEF k) ≤ 256 && f (RC_BLEND_SRC k) ≤ 4 &&
  4 ≤ f (RC_STCFG_HIST_SHIFT k) && f (RC_STCFG_HIST_SHIFT k) ≤ 12 && kx ≠ 0 && ky ≠ 0 &&
  s.vw64 own 4 t (RC_SBASE_LO k) % 64 = 0 &&
  (f (RC_CFG_DIFF_EN k) = 0 || pts x0 x1 kx * pts y0 y1 ky ≤ 131072)

/-- Checks of develop pipe n (R213, R222, R228). -/
def State.checkDev (s : State) (own t n : Nat) : Bool :=
  let f := fun (r : FRef) => s.vw own (5 + n) t r
  let col := fun p => bits (f (DV_CFA_COL n)) (2 * p) 2
  let ps := List.range 4
  let cnt := fun c => (ps.filter fun p => col p = c).length
  f (DV_CFG_YCC n) ≤ 2 && f (DV_CFG_OBITS n) ≤ 2 && f (DV_CFG_SUB n) ≤ 2 && ps.all (fun p => col p ≤ 2) &&
  (f (DV_CFG_MONO n) = 1 || (cnt 0 = 1 && cnt 2 = 1 && ((col 0 = 1 && col 3 = 1) || (col 1 = 1 && col 2 = 1)))) &&
  (f (DV_CFG_YCC n) ≠ 2 || f (DV_CFG_SUB n) = 0)

/-- Active raster of an SDI format: columns and rows (R241). -/
def sdiRaster (fmt : Nat) (wide : Bool) : Nat × Nat :=
  if fmt ≤ 1 then (1920, 1080) else (if wide then 4096 else 3840, 2160)

/-- Frame rates that a format allows, by the RATE encoding (R241). -/
def sdiRateOk (fmt rate : Nat) : Bool :=
  match fmt with
  | 0 => rate ≤ 2
  | 1 => rate = 3 || rate = 4
  | 2 => rate ≤ 2
  | 3 => rate = 3 || rate = 4
  | 4 => rate = 5 || rate = 6
  | _ => false

/-- Lane rate of a format in kbit/s (R149, R241). -/
def sdiLaneRate (fmt : Nat) (div : Bool) : Nat :=
  match fmt with
  | 0 => if div then 1483516 else 1485000
  | 1 => if div then 2967033 else 2970000
  | 2 => if div then 5934066 else 5940000
  | _ => if div then 11868132 else 11880000

/-- Bytes of a packed row of n codes (R240). -/
def packedBytes (pack n : Nat) : Nat := if pack = 0 then 2 * n else if pack = 1 then (n + 2) / 3 * 4 else n

/-- Chroma samples in a row of n output columns, and chroma rows of m (R223, R234). -/
def chromaCols (sub n : Nat) : Nat := if sub = 0 then n else (n + 1) / 2
def chromaRows (sub m : Nat) : Nat := if sub = 2 then (m + 1) / 2 else m

/-! ### Sample form of a developed frame -/

def FrameHdr.ycc (f : FrameHdr) : Nat := bits f.fmt 7 2
def FrameHdr.full (f : FrameHdr) : Bool := bit f.fmt 9
def FrameHdr.d (f : FrameHdr) : Nat := 8 + 2 * bits f.fmt 10 2
def FrameHdr.sub (f : FrameHdr) : Nat := bits f.fmt 12 2

/-- Black for Y' (or each of R'G'B') and for chroma (R238). -/
def FrameHdr.blackY (f : FrameHdr) : Nat := if f.full then 0 else 16 * 2 ^ (f.d - 8)
def FrameHdr.blackC (f : FrameHdr) : Nat := if f.ycc = 2 then f.blackY else 2 ^ (f.d - 1)

/-- Output row i carries chroma (R234). -/
def FrameHdr.hasC (f : FrameHdr) (i : Nat) : Bool := f.sub ≠ 2 || i % 2 = 0

/-- A black output row of a width. -/
def FrameHdr.blackRow (f : FrameHdr) (ow i : Nat) : Row3 :=
  let n := if f.hasC i then chromaCols f.sub ow else 0
  let c := (List.range n).map fun _ => f.blackC
  { y := (List.range ow).map fun _ => f.blackY, c1 := c, c2 := c }

/-! ### Outputs -/

/-- The destination words of an output channel, judged on its home tile (R239 to R242). -/
def State.checkDest (s : State) (own t c : Nat) : Bool :=
  let f := fun (r : FRef) => s.vw own (7 + c) t r
  let n := f (OC_CFG_PIPE c)
  let d := fun (r : FRef) => s.vw own (5 + n) t r
  let dest := f (OC_CFG_DEST c)
  let pack := f (OC_CFG_PACK c)
  let ow := f (OC_OSIZE_OW c)
  let oh := f (OC_OSIZE_OH c)
  let sub := d (DV_CFG_SUB n)
  let rgb := d (DV_CFG_YCC n) = 2
  let stride := f (OC_FS_STRIDE_STRIDE c)
  let cofs := f (OC_FS_COFS_C_OFS c)
  let slot := f (OC_FS_SLOT_SLOT_BYTES c)
  let yBytes := packedBytes pack (if rgb then 3 * ow else ow)
  let cBytes := packedBytes pack (2 * chromaCols sub ow)
  let packOk := pack ≤ 2 && (pack ≠ 1 || d (DV_CFG_OBITS n) = 1) && (pack ≠ 2 || d (DV_CFG_OBITS n) = 0)
  let store := s.vw64 own (7 + c) t (OC_FS_LO c) % 64 = 0 && stride % 64 = 0 && cofs % 64 = 0 && slot % 64 = 0 &&
    (oh = 0 || (oh - 1) * stride + yBytes ≤ slot) &&
    (rgb || oh = 0 || cofs + (chromaRows sub oh - 1) * stride + cBytes ≤ slot)
  if dest = 4 then packOk && store
  else if dest = 2 then packOk
  else if dest = 3 then
    let e := f (OC_CFG_TARGET c)
    e ≤ 3 &&
    (let p := s.vw own (13 + e) t (HE_CFG_PROFILE e)
     s.vw own (13 + e) t (HE_CFG_EN e) = 0 ||
      (s.vw own (13 + e) t (HE_CFG_HOME e) = t && d (DV_CFG_YCC n) ≤ 1 && s.vw own (13 + e) t (HE_SIZE_W e) = ow && s.vw own (13 + e) t (HE_SIZE_H e) = oh &&
       (sub = 2 || (p = 2 && sub = 1)) && (d (DV_CFG_OBITS n) = 0 || (p ≠ 0 && d (DV_CFG_OBITS n) = 1))))
  else if dest = 1 then
    let fmt := f (OC_SDI_FORMAT c)
    let div := f (OC_SDI_DIV1001 c) = 1
    let rate := f (OC_SDI_RATE c)
    let ra := sdiRaster fmt (f (OC_SDI_WIDE c) = 1)
    let lanes := (16 + f (OC_SDI_LANE0 c)) :: (if fmt = 4 then [16 + f (OC_SDI_LANE1 c)] else [])
    fmt ≤ 4 && sdiRateOk fmt rate && (!div || rate ∈ [0, 2, 4, 6]) &&
    (f (OC_SDI_WIDE c) = 0 || 2 ≤ fmt) && (fmt ≠ 4 || f (OC_SDI_LANE0 c) ≠ f (OC_SDI_LANE1 c)) &&
    lanes.all (fun l => s.f t (LANE_CTL_ROLE l) = 3 && s.on t (LANE_CTL_EN l) && s.f t (LANE_RATE_KBPS l) = sdiLaneRate fmt div) &&
    lanes.all (fun l => s.reg t (LANE_RATE l) = s.reg t (LANE_RATE (16 + f (OC_SDI_LANE0 c)))) &&
    d (DV_CFG_OBITS n) = 1 && d (DV_CFG_FULL n) = 0 && sub = 1 && d (DV_CFG_YCC n) ≤ 1 &&
    f (OC_PLACE_PX c) + ow ≤ ra.1 && f (OC_PLACE_PY c) + oh ≤ ra.2 && f (OC_PLACE_PX c) % 2 = 0 &&
    (f (OC_CFG_TIMING c) = 0 || (2 ≤ f (OC_FS_STRIDE_NSLOT c) && packOk && store))
  else true

/-- Checks of output channel c (R232, R233, R237, R239 to R242). -/
def State.checkOut (s : State) (own t c : Nat) : Bool :=
  let f := fun (r : FRef) => s.vw own (7 + c) t r
  let n := f (OC_CFG_PIPE c)
  let src := s.vw own (5 + n) t (DV_CFG_SRC n)
  let sub := s.vw own (5 + n) t (DV_CFG_SUB n)
  let stripe := s.vw own (21 + src) t ⟨STRIPE_CFG src, 0, 32⟩
  let inRange := fun x => 0x400000 ≤ x && x ≤ 0x10000000
  f (OC_CFG_DEST c) ≤ 4 && f (OC_CFG_PACK c) ≤ 2 && f (OC_CFG_BAD_POLICY c) ≤ 2 &&
  f (OC_SDI_FORMAT c) ≤ 4 && f (OC_SDI_RATE c) ≤ 6 &&
  f (OC_CROPX_CX0 c) + f (OC_CROPX_CW c) ≤ s.geoW own t src && f (OC_CROPY_CY0 c) + f (OC_CROPY_CH c) ≤ s.geoH own t src &&
  (sub = 0 || (f (OC_CROPX_CX0 c) % 2 = 0 && f (OC_CROPX_CW c) % 2 = 0)) &&
  (sub ≠ 2 || (f (OC_CROPY_CY0 c) % 2 = 0 && f (OC_CROPY_CH c) % 2 = 0)) &&
  inRange (f (OC_HDELTA_HDELTA c)) && inRange (f (OC_VDELTA_VDELTA c)) &&
  (f (OC_CFG_SCALE_EN c) = 1 || (f (OC_OSIZE_OW c) = f (OC_CROPX_CW c) && f (OC_OSIZE_OH c) = f (OC_CROPY_CH c))) &&
  (f (OC_CFG_ASSEMBLE c) = 1 || (bit stripe 30 && bit stripe 31)) &&
  ((f (OC_CFG_ASSEMBLE c) = 1 && f (OC_CFG_HOME c) ≠ t) || s.checkDest own t c)

/-- Checks of CRUSH (R253, R254, R268, R269, R276). -/
def State.checkCrush (s : State) (own t : Nat) : Bool :=
  let f := fun (r : FRef) => s.vw own 11 t r
  let l := List.range 4
  let en := fun k => f (CS_CFG_EN k) = 1
  l.all (fun k =>
    f (CS_CFG_SLAB_W k) % 16 = 0 && 64 ≤ f (CS_CFG_SLAB_W k) && f (CS_CFG_SLAB_W k) ≤ 4096 &&
    1 ≤ f (CS_CFG_LANES k) && f (CS_CFG_LANES k) ≤ 48 && f (CS_INQ_QUOTA k) ≤ 2048 &&
    (f (CS_RST_RST_ROWS k) = 0 || (16 ≤ f (CS_RST_RST_ROWS k) && f (CS_RST_RST_ROWS k) % 2 = 0)) &&
    s.vw64 own 11 t (CS_FREC_LO k) % 32 = 0 &&
    (!(en k) || (s.vw own 4 t (RC_CFG_TAP_BITS k) ≠ 20 && s.vw own 4 t (RC_CFG_TAP_SEL k) ≠ 0)) &&
    (f (CS_CFG_CLOSE_AT_FRAME k) = 1 || (List.range 16).all fun r =>
      !(s.vw own 12 t (RS_CFG_EN r) = 1 && s.vw own 12 t (RS_CFG_TYPE r) = 0 && s.vw own 12 t (RS_CFG_SRCNUM r) = k))) &&
  l.foldl (fun a k => if en k then a + f (CS_INQ_QUOTA k) else a) 0 ≤ 2048 &&
  l.foldl (fun a k => if en k then a + f (CS_CFG_LANES k) else a) 0 ≤ 48

/-- Takes RECORDING or CLOSING (R279). -/
def State.takesOpen (s : State) : Nat :=
  ((List.range 8).filter fun k => s.f 0 (TK_STAT_STATE k) = 1 ∨ s.f 0 (TK_STAT_STATE k) = 2).length

/-- Checks of REC (R276, R279, R284). -/
def State.checkRec (s : State) (own t : Nat) : Bool :=
  let f := fun (r : FRef) => s.vw own 12 t r
  let starts := (List.range 8).filter fun k => f (TK_CFG_REC k) = 1 && s.a t (TK_CFG_REC k) = 0
  let fresh := starts.filter fun k => s.f 0 (TK_STAT_STATE k) ≠ 1
  let src := f BS_CFG_SRC
  let w := bits (s.vw own (21 + src) t ⟨STRIPE_CFG src, 0, 32⟩) 16 14
  let rb := (w * s.vw own 4 t (RC_CFG_TAP_BITS src) + 63) / 64 * 8
  (List.range 8).all (fun k => f (TK_CFG_EXT_LOG2 k) ≤ 8) &&
  starts.all (fun k => f (TK_ID_TAKE_ID k) ≠ 0) && s.takesOpen + fresh.length ≤ 4 &&
  (List.range 16).all (fun k =>
    f (RS_CFG_TYPE k) ≤ 4 &&
    (f (RS_CFG_EN k) = 0 ||
      ((t = 0 || f (RS_CFG_TYPE k) ≤ 2) && 1024 ≤ f REC_STG_SIZE_KIB &&
       (f (RS_CFG_TYPE k) ≠ 0 || s.vw own 11 t (CS_CFG_CLOSE_AT_FRAME (f (RS_CFG_SRCNUM k) % 4)) = 1)))) &&
  s.vw64 own 12 t REC_STG_LO % 4096 = 0 && f BS_TRIG_KIND ≤ 4 && f BS_SLOTS_SLOTS ≤ 262144 &&
  s.vw64 own 12 t BS_BASE_LO % 64 = 0 &&
  (f BS_CFG_EN = 0 ||
    (f BS_SLOT_BYTES_BYTES % 64 = 0 && s.geoH own t src * rb ≤ f BS_SLOT_BYTES_BYTES &&
     (dramAt t (s.vw64 own 12 t BS_BASE_LO)).1 = t &&
     (dramAt t (s.vw64 own 12 t BS_BASE_LO)).2 + f BS_SLOTS_SLOTS * f BS_SLOT_BYTES_BYTES ≤ s.dramSize t &&
     f BS_PRE_PRE + f BS_POST_POST + 3 ≤ f BS_SLOTS_SLOTS))

/-! ### HEVC -/

/-- Limits of a level (ITU-T H.265 Annex A; PRESUMED, log 14): luma picture size, luma sample rate, bit rate and CPB
in units of the profile's factor for the Main and High tiers, tile columns. -/
def hevcLevel (idc : Nat) : Option (Nat × Nat × Nat × Nat × Nat) :=
  match idc with
  | 30 => some (36864, 552960, 128, 0, 1)
  | 60 => some (122880, 3686400, 1500, 0, 1)
  | 63 => some (245760, 7372800, 3000, 0, 1)
  | 90 => some (552960, 16588800, 6000, 0, 2)
  | 93 => some (983040, 33177600, 10000, 0, 3)
  | 120 => some (2228224, 66846720, 12000, 30000, 5)
  | 123 => some (2228224, 133693440, 20000, 50000, 5)
  | 150 => some (8912896, 267386880, 25000, 100000, 10)
  | 153 => some (8912896, 534773760, 40000, 160000, 10)
  | 156 => some (8912896, 1069547520, 60000, 240000, 10)
  | 180 => some (35651584, 1069547520, 60000, 240000, 20)
  | 183 => some (35651584, 2139095040, 120000, 480000, 20)
  | 186 => some (35651584, 4278190080, 240000, 800000, 20)
  | _ => none

/-- The CPB limit of a level differs from its bit rate only at level 1 (350). -/
def hevcCpb (idc br : Nat) : Nat := if idc = 30 then 350 else br

/-- CUs of the largest size that the picture edges allow in a block of w by h coded samples (R301). -/
def cuCount : Nat → Nat → Nat → Nat → Nat
  | 0, _, w, h => if w = 0 ∨ h = 0 then 0 else 1
  | k + 1, size, w, h =>
    if w = 0 ∨ h = 0 then 0
    else if size ≤ w ∧ size ≤ h then 1
    else
      let d := size / 2
      cuCount k d (min d w) (min d h) + cuCount k d (w - d) (min d h) + cuCount k d (min d w) (h - d) + cuCount k d (w - d) (h - d)

/-- Width in CTUs and tile of column i of an encode context (R295). -/
def State.heCol (s : State) (own t c i : Nat) : Nat × Nat :=
  if i % 2 = 0 then (s.vw own (13 + c) t (HE_COLMAP_W0 c (i / 2)), s.vw own (13 + c) t (HE_COLMAP_T0 c (i / 2)))
  else (s.vw own (13 + c) t (HE_COLMAP_W1 c (i / 2)), s.vw own (13 + c) t (HE_COLMAP_T1 c (i / 2)))

/-- Tile columns as (first CTU, width in CTUs, tile). -/
def State.heCols (s : State) (own t c : Nat) : List (Nat × Nat × Nat) :=
  ((List.range (s.vw own (13 + c) t (HE_COLS_NCOL c))).foldl (fun (a : Nat × List (Nat × Nat × Nat)) i =>
    let x := s.heCol own t c i
    (a.1 + x.1, a.2 ++ [(a.1, x.1, x.2)])) (0, [])).2

/-- CUs in the CTU at a column and row of a picture of w by h luma samples. -/
def ctuCus (w h x y : Nat) : Nat := cuCount 3 64 (min 64 (coded8 w - 64 * x)) (min 64 (coded8 h - 64 * y))

/-- CUs in a tile column. -/
def colCus (w h x n : Nat) : Nat :=
  (List.range ((h + 63) / 64)).foldl (fun a y => a + (List.range n).foldl (fun a i => a + ctuCus w h (x + i) y) 0) 0

/-- Floor cost of a member for CUs of k bits each (R301). -/
def State.floorCost (s : State) (own t c member k : Nat) : Nat :=
  let w := s.vw own (13 + c) t (HE_SIZE_W c)
  let h := s.vw own (13 + c) t (HE_SIZE_H c)
  ((s.heCols own t c).filter (·.2.2 = member)).foldl (fun a x => a + colCus w h x.1 x.2.1 * k + 32) 0

/-- P_min (R301): the largest over picture types of the header bound and the floor costs. -/
def State.pMin (s : State) (own t c : Nat) : Nat :=
  let sum := fun k => (List.range 8).foldl (fun a m => a + s.floorCost own t c m k) 0
  max (4096 + sum 192) (1024 + sum 72)

/-- A tile column as a pool buffer holds it: its number, first luma column, width, place in the buffer's rows, margins on the left and right. -/
structure PoolCol where
  col : Nat
  x : Nat
  n : Nat
  ofs : Nat
  lm : Nat
  rm : Nat

/-- The columns, of those given as (first CTU, width in CTUs, tile), that a member holds of pictures w wide, with m luma columns at each inner
edge, side by side (R297, R306, R315). -/
def colsHeld (w m : Nat) (cols : List (Nat × Nat × Nat)) (member : Nat) : List PoolCol :=
  (((List.range cols.length).zip cols).foldl (fun (a : Nat × List PoolCol) x =>
    if x.2.2.2 ≠ member then a
    else
      let n := min (64 * x.2.2.1) (w - 64 * x.2.1)
      let lm := if x.2.1 = 0 then 0 else m
      let rm := if w ≤ 64 * (x.2.1 + x.2.2.1) then 0 else m
      (a.1 + lm + n + rm, a.2 ++ [{ col := x.1, x := 64 * x.2.1, n := n, ofs := a.1, lm := lm, rm := rm }])) (0, [])).2

/-- Luma samples in a row of a pool buffer, Wm (R306). -/
def colsWidth (l : List PoolCol) : Nat := l.foldl (fun a p => a + p.lm + p.n + p.rm) 0

/-- The columns of an encode context that a member holds. -/
def State.poolCols (s : State) (own t c member : Nat) : List PoolCol :=
  colsHeld (coded8 (s.vw own (13 + c) t (HE_SIZE_W c))) (s.vw own (13 + c) t (HE_ME_SR_X c) + 8) (s.heCols own t c) member

/-- A context codes 4:2:2 pictures: as the pipe of the channel that feeds it subsamples; a context with no such channel codes the most that its
profile allows (DESIGN CHOICE, log 94). -/
def State.he422 (s : State) (own t c : Nat) : Bool :=
  s.vw own (13 + c) t (HE_CFG_PROFILE c) = 2 &&
  match (List.range 4).find? fun o =>
      s.vw own (7 + o) t (OC_CFG_DEST o) = 3 && s.vw own (7 + o) t (OC_CFG_TARGET o) = c && s.vw own (7 + o) t (OC_CFG_ON o) = 1 with
  | some o => s.vw own (13 + c) t (HE_CFG_INPUT c) = 1 || s.vw own (5 + s.vw own (7 + o) t (OC_CFG_PIPE o)) t (DV_CFG_SUB (s.vw own (7 + o) t (OC_CFG_PIPE o))) = 1
  | none => true

/-- Bytes of a member's pool buffer (R306): luma and chroma in 16-bit containers, 16 bytes for each 16 x 16 block. -/
def poolBytes (wm hc : Nat) (c422 : Bool) : Nat := wm * hc * 2 + wm * (if c422 then hc else hc / 2) * 2 + (wm + 15) / 16 * ((hc + 15) / 16) * 16

/-- Checks of encode context c on a tile (R293, R295, R298, R299, R305, R306, R307). The rules on what it codes are
judged when the shadow enables it. -/
def State.checkHevce (s : State) (own t c : Nat) : Bool :=
  let f := fun (r : FRef) => s.vw own (13 + c) t r
  let w := f (HE_SIZE_W c)
  let h := f (HE_SIZE_H c)
  let cols := s.heCols own t c
  let tick := f (HE_TICK_TICK c)
  let scale := f (HE_SCALE_SCALE c)
  let br := f (HE_RATE_RATE c) * 1000
  let b := f (HE_CPB_CPB c) * 1000
  let pmin := s.pMin own t c
  let l0 := f (HE_FULL_INIT_FULL c) * b / 1024
  let factor := if f (HE_CFG_PROFILE c) = 2 then 1833 else 1100
  let gop := if f (HE_CFG_GOP c) = 2 then 2 ^ (f (HE_CFG_MGOP c) + 1) else 1
  let wm := colsWidth (s.poolCols own t c t)
  let hc := coded8 h
  let live := (List.range 4).filter fun k =>
    s.vw own (13 + k) t (HE_CFG_EN k) = 1 && s.vw own (13 + k) t (HE_CFG_INPUT k) = 0
  f (HE_CFG_PROFILE c) ≤ 2 && f (HE_CFG_GOP c) ≤ 2 && f (HE_CFG_MGOP c) ≤ 2 && 1 ≤ f (HE_CFG_NREF c) && f (HE_CFG_NREF c) ≤ 4 &&
  f (HE_RC_ROW_DQP c) ≤ 12 && w % 2 = 0 && h % 2 = 0 &&
  16 ≤ f (HE_ME_SR_X c) && f (HE_ME_SR_X c) ≤ 256 && 16 ≤ f (HE_ME_SR_Y c) && f (HE_ME_SR_Y c) ≤ 256 &&
  1 ≤ f (HE_COLS_NCOL c) && f (HE_COLS_NCOL c) ≤ 16 && f (HE_SHARE_SHARE c) ≤ 1100 &&
  s.vw64 own (13 + c) t (HE_AU_LO c) % 64 = 0 && s.vw64 own (13 + c) t (HE_POOL_LO c) % 64 = 0 &&
  f (HE_IN_STRIDE_STRIDE c) % 64 = 0 && f (HE_POOL_SLOT_POOL_SLOT c) % 64 = 0 &&
  (List.range 4).foldl (fun a k => a + s.vw own (13 + k) t (HE_SUMP_QUOTA k)) 0 ≤ 4096 &&
  live.foldl (fun a k => a + s.vw own (13 + k) t (HE_SHARE_SHARE k)) 0 ≤ 1100 &&
  f (HE_CFG_NREF c) + f (HE_CFG_LTR_EN c) + gop + 1 ≤ 16 &&
  (f (HE_CFG_EN c) = 0 ||
    (match hevcLevel (f (HE_CFG_LEVEL c)) with
     | none => false
     | some (ps, sr, brM, brH, mc) =>
       let hi := f (HE_CFG_TIER c) = 1
       let lim := if hi then brH else brM
       (!hi || brH ≠ 0) && w ≠ 0 && h ≠ 0 && coded8 w * coded8 h ≤ ps && coded8 w * coded8 w ≤ 8 * ps && coded8 h * coded8 h ≤ 8 * ps &&
       tick ≠ 0 && scale ≠ 0 && coded8 w * coded8 h * scale ≤ sr * tick && br ≤ lim * factor &&
       b ≤ hevcCpb (f (HE_CFG_LEVEL c)) lim * factor && f (HE_COLS_NCOL c) ≤ mc) &&
    cols.foldl (fun a x => a + x.2.1) 0 = (w + 63) / 64 &&
    (cols.take (cols.length - 1)).all (fun x => 4 ≤ x.2.1) && cols.all (fun x => x.2.1 ≠ 0 && s.has x.2.2) &&
    pmin * scale ≤ br * tick && pmin + 56 ≤ b && pmin ≤ l0 &&
    (f (HE_RC_MODE c) = 1 || br * tick + 64 * scale ≤ b * scale) &&
    (f (HE_OUT_DRAM_EN c) = 0 || b ≤ f (HE_AU_SIZE_KIB c) * 4096) &&
    (wm = 0 || poolBytes wm hc (s.he422 own t c) ≤ f (HE_POOL_SLOT_POOL_SLOT c)) &&
    (f (HE_CFG_INPUT c) = 1 || (List.range 4).all fun o =>
        let g := fun (r : FRef) => s.vw own (7 + o) t r
        let n := g (OC_CFG_PIPE o)
        let d := fun (r : FRef) => s.vw own (5 + n) t r
        !(g (OC_CFG_DEST o) = 3 && g (OC_CFG_TARGET o) = c && g (OC_CFG_ON o) = 1) ||
          ((if g (OC_CFG_ASSEMBLE o) = 1 then g (OC_CFG_HOME o) else t) = f (HE_CFG_HOME c) &&
           (f (HE_CFG_HOME c) ≠ t ||
            (d (DV_CFG_YCC n) ≤ 1 && g (OC_OSIZE_OW o) = w && g (OC_OSIZE_OH o) = h &&
             (d (DV_CFG_SUB n) = 2 || (f (HE_CFG_PROFILE c) = 2 && d (DV_CFG_SUB n) = 1)) &&
             (d (DV_CFG_OBITS n) = 0 || (f (HE_CFG_PROFILE c) ≠ 0 && d (DV_CFG_OBITS n) = 1)))))))

/-- Width in CTUs and tile of column i of a decode context (R314). -/
def State.hdCol (s : State) (own t c i : Nat) : Nat × Nat :=
  if i % 2 = 0 then (s.vw own (17 + c) t (HD_COLMAP_W0 c (i / 2)), s.vw own (17 + c) t (HD_COLMAP_T0 c (i / 2)))
  else (s.vw own (17 + c) t (HD_COLMAP_W1 c (i / 2)), s.vw own (17 + c) t (HD_COLMAP_T1 c (i / 2)))

/-- Checks of decode context c (R314, R322, R324). The columns of a context over several tiles are those of the encoder's COLMAP (R295). -/
def State.checkHevcd (s : State) (own t c : Nat) : Bool :=
  let f := fun (r : FRef) => s.vw own (17 + c) t r
  let cols := (List.range (f (HD_COLS_NCOL c))).map (s.hdCol own t c)
  let e := f (HD_CFG_LINK_CTX c)
  let g := fun (r : FRef) => s.vw own (13 + e) t r
  1 ≤ f (HD_COLS_NCOL c) && f (HD_COLS_NCOL c) ≤ 16 &&
  s.vw64 own (17 + c) t (HD_IN_LO c) % 64 = 0 && s.vw64 own (17 + c) t (HD_POOL_LO c) % 64 = 0 &&
  s.vw64 own (17 + c) t (HD_OUT_LO c) % 64 = 0 && f (HD_OUT_STRIDE_STRIDE c) % 64 = 0 &&
  s.vw64 own (17 + c) t (HD_REC_LO c) % 32 = 0 && f (HD_POOL_SLOT_POOL_SLOT c) % 64 = 0 &&
  (f (HD_CFG_EN c) = 0 || s.has (f (HD_CFG_HOME c)) &&
    (f (HD_COLS_NCOL c) = 1 || (cols.take (cols.length - 1)).all (fun x => 4 ≤ x.1) && cols.all (fun x => x.1 ≠ 0 && s.has x.2))) &&
  (f (HD_CFG_LINK_EN c) = 0 || f (HD_CFG_HOME c) ≠ t ||
    (s.vw64 own (13 + e) t (HE_IN_LO e) = s.vw64 own (17 + c) t (HD_OUT_LO c) &&
     g (HE_IN_STRIDE_STRIDE e) = f (HD_OUT_STRIDE_STRIDE c) && g (HE_IN_COFS_C_OFS e) = f (HD_OUT_COFS_C_OFS c) &&
     g (HE_IN_SLOT_SLOT_BYTES e) = f (HD_OUT_SLOT_SLOT_BYTES c)))

/-- The shadow of a unit enables a stage whose selected bank is EMPTY (R39). -/
def State.emptyBank (s : State) (t u : Nat) : Bool :=
  let e := fun b => !s.bankWritten t b
  if u = 4 then
    ((List.range 4).any fun k => s.on t (RC_CFG_LSC_EN k) && e (2 + 2 * k + s.f t (RC_CFG_LSC_BANK k))) ||
    (s.f t RC_DEFTAB_COUNT ≠ 0 && (List.range 4).any (fun k => s.on t (RC_CFG_DEF_EN k)) && e (s.f t RC_DEFTAB_BANK))
  else if u = 5 ∨ u = 6 then
    let n := u - 5
    (s.on t (DV_CFG_TONE_EN n) && e (10 + 2 * n + s.f t (DV_CFG_TONE_BANK n))) ||
    (s.on t (DV_CFG_LUT_EN n) && e (14 + 2 * n + s.f t (DV_CFG_LUT_BANK n)))
  else if 7 ≤ u ∧ u ≤ 10 then
    let c := u - 7
    s.on t (OC_CFG_SCALE_EN c) && e (18 + 2 * c + s.f t (OC_CFG_COEF_BANK c))
  else false

/-- The shadow of a unit keeps every rule of its block (R7, R54). -/
def State.shadowOk (s : State) (own t u : Nat) : Bool :=
  (if u ≤ 3 then s.checkAdit own t u
   else if u = 4 then (List.range 4).all (fun k => s.checkRawc own t k) && s.f t RC_DEFTAB_COUNT ≤ 65536
   else if u ≤ 6 then s.checkDev own t (u - 5)
   else if u ≤ 10 then s.checkOut own t (u - 7)
   else if u = 11 then s.checkCrush own t
   else if u = 12 then s.checkRec own t
   else if u ≤ 16 then s.checkHevce own t (u - 13)
   else if u ≤ 20 then s.checkHevcd own t (u - 17)
   else true) && !s.emptyBank t u

/-- The kind of commit point is valid for the unit (R41), and a named compare has ACT_COMMIT. -/
def State.kindOk (s : State) (u kind sel : Nat) : Bool :=
  kind ≤ 4 && (kind ≠ 2 || (7 ≤ u && u ≤ 10) || (12 ≤ u && u ≤ 16)) &&
  (kind ≠ 4 || s.on 0 (CMP_CTL_ACT_COMMIT (sel / 8) (sel % 8)))

/-- A stale unit may be brought current (R45). -/
def State.staleOk (s : State) (t u epoch : Nat) : Bool :=
  !s.stale t u ||
    (s.on t (UNIT_GEN_WRITTEN_ALL u) && epoch = s.reg 0 EPOCH && s.reg t EPOCH = s.reg 0 EPOCH)

/-- The conditions of R21 over the stripes of a source: (tile, word, W or 0), coverage judged against W. -/
def stripesOk (tiles : Nat) (ws : List (Nat × Nat × Nat)) : Bool :=
  let used := ws.filter fun x => bits x.2.1 16 14 ≠ 0
  let x0 := fun (x : Nat × Nat × Nat) => bits x.2.1 0 16
  let wd := fun (x : Nat × Nat × Nat) => bits x.2.1 16 14
  match used with
  | [] => true
  | a :: _ =>
    let w := a.2.2
    used.all (fun x => x.2.2 = w) &&
    used.all (fun x =>
      64 ≤ wd x && wd x ≤ 8192 && x0 x % 16 = 0 && x0 x + wd x ≤ w &&
      (x0 x + wd x = w || wd x % 16 = 0) && (x0 x + wd x ≠ w || wd x % 2 = 0) &&
      (bit x.2.1 30 == (x0 x == 0)) && (bit x.2.1 31 == (x0 x + wd x == w)) &&
      (x0 x + wd x = w || (used.filter fun y => x0 y = x0 x + wd x && y.1 = (x.1 + 1) % tiles).length = 1)) &&
    (used.filter fun x => x0 x = 0).length = 1 && (used.filter fun x => x0 x + wd x = w).length = 1 &&
    used.foldl (fun s x => s + wd x) 0 = w

end Sys2Proof.Machine
end

