-- ==== Sys2Proof/Machine/Bench.lean ====
section
/-!
DEFINITION. Solo commits, the epoch, transactions across tiles (chapter 2): arming and its refusals, the commit
protocol message by message, occurrences of commit points, results.
-/

namespace Sys2Proof.Machine

/-! ### Solo commits -/

/-- A solo commit reaches its commit point (R42 step 3). -/
def State.soloPoint (s : State) (t u seq : Nat) : State :=
  let x := s.unit t u
  let (kind, sel, _) := x.point
  if s.shadowOk (orBit 0 u) t u ∧ s.reg t (UNIT_EPOCH u) = s.reg t EPOCH ∧ s.staleOk t u (s.reg t (UNIT_EPOCH u)) then
    s.swapUnit t u kind sel seq
  else (s.setUnit t u { x with solo := false }).raise t 301

/-- UNITu_CTL.ARM (R42). An IMMEDIATE swap, which has no sequence, leaves 0 in UNITu_LASTSEQ (DESIGN CHOICE, log 89). -/
def State.unitArm (s : State) (t u : Nat) : State :=
  let kind := s.f t (UNIT_CTL_KIND u)
  let sel := s.f t (UNIT_CTL_SEL u)
  let refused := (s.ownerOf t u).isSome || s.armed t u || 21 ≤ u || !s.kindOk u kind sel || !s.shadowOk (orBit 0 u) t u ||
    !s.staleOk t u (s.reg t EPOCH)
  if refused then s.raise t 301
  else
    let s := s.setReg t (UNIT_EPOCH u) (s.reg t EPOCH)
    let s := s.setUnit t u { s.unit t u with solo := true, point := (kind, sel, s.reg t (UNIT_SEQ u)) }
    if kind = 0 then s.soloPoint t u 0 else s

/-- UNITu_CTL.DISARM cancels a solo commit whose point has not occurred (R42). -/
def State.unitDisarm (s : State) (t u : Nat) : State := s.setUnit t u { s.unit t u with solo := false }

/-- An accessor is a crew whose open transaction is doomed (R53). -/
def State.ownerDoomed (s : State) (who : Who) : Bool :=
  who != 0 && match (s.crew ((who - 1) / 8) ((who - 1) % 8)).tx with
    | some i => (s.txn i).state == 1 && (s.txn i).doom.isSome
    | none => false

/-- A write of UNITu_CTL: the point first, then DISARM, then ARM, which is refused to the owner of a doomed transaction (R53). -/
def State.unitCtlWrite (s : State) (t u v : Nat) (who : Who) : State :=
  let s := s.when (bits v 0 3 ≤ 4) fun s => s.setF t (UNIT_CTL_KIND u) (bits v 0 3)
  let s := s.setF t (UNIT_CTL_SEL u) (bits v 3 5)
  let s := s.when (bit v 9) fun s => s.unitDisarm t u
  s.when (bit v 8) fun s => if s.ownerDoomed who then s.raise t 301 else s.unitArm t u

/-! ### Epoch -/

/-- The epoch advances on T0, which sends the new value to every other tile in RUN (R43). -/
def State.epochAdvance (s : State) : State :=
  let e := (s.reg 0 EPOCH + 1) % 2 ^ 32
  let s := s.setReg 0 EPOCH e
  let s := s.each (s.runTiles.filter (· ≠ 0)) fun s t =>
    let (s, ok) := s.seamReach 0 t
    s.when ok fun s => { s with bench.epochs := smPut s.bench.epochs t (smGet s.bench.epochs t [] ++ [e]) [] }
  s.raise 0 303

/-- A tile receives the epoch of one advance as a class 4 message (R43). -/
def State.epochReceive (s : State) (t : Nat) : State :=
  match smGet s.bench.epochs t [] with
  | [] => s
  | e :: l => ({ s with bench.epochs := smPut s.bench.epochs t l [] }.setReg t EPOCH e).raise t 303

/-! ### Transactions: opening and writes -/

/-- Mask of the units that a transaction owns on a tile. -/
def Txn.ownMask (x : Txn) (t : Nat) : Nat :=
  (List.range unitCount).foldl (fun m u => if x.holds t u then orBit m u else m) 0

/-- Roll back and release the units that a transaction owns on a tile (R56). -/
def State.txnRollback (s : State) (i t : Nat) : State :=
  let x := s.txn i
  let s := s.each ((List.range unitCount).filter (x.holds t)) fun s u => s.rollback t u
  s.setTxn i { x with released := orBit x.released t }

/-- The lowest free id opens a transaction (R52); with none free nothing opens. -/
def State.txnOpen (s : State) (host : Bool) (t c : Nat) : State × Option Nat :=
  match (List.range 16).find? fun i => (s.txn i).state = 0 with
  | none => (s, none)
  | some i => (s.setTxn i { state := 1, host := host, tile := if host then 0 else t, crew := c, epoch := s.reg 0 EPOCH }, some i)

/-- Doom a transaction (R53); the first reason stands. -/
def State.txnDoom (s : State) (i reason : Nat) : State :=
  let x := s.txn i
  if x.doom.isSome then s else s.setTxn i { x with doom := some reason }

/-- A write of a bench word that carries transaction i (R52, R53). The flag says that the write was taken. -/
def State.txnWrite (s : State) (i t u w v : Nat) : State × Bool :=
  let x := s.txn i
  if x.state ≠ 1 ∨ x.doom.isSome then (s, false)
  else
    let owner := s.ownerOf t u
    if (owner.isSome ∧ owner ≠ some i) ∨ s.armed t u then (s.txnDoom i 1, false)
    else
      let uk := t * 32 + u
      let wk := uk * 2048 + w
      let units := if uk ∈ x.units then x.units else uk :: x.units
      let words := if wk ∈ x.words then x.words else wk :: x.words
      if 128 < units.length ∨ 16384 < words.length then (s.txnDoom i 5, false)
      else
        let s := s.setTxn i { x with units := units, words := words, part := orBit x.part t }
        (s.shadowWrite t u w v, true)

/-! ### Ends -/

/-- The value a crew reads as its transaction's state word (R80). -/
def Txn.stateReg (x : Txn) : Nat :=
  x.state + (if x.host then 8 else 0) + x.tile * 16 + x.crew * 128 + x.result * 1024

def Txn.masksReg (x : Txn) : Nat := x.part % 256 + x.late % 256 * 256 + x.failed % 256 * 65536 + x.swapped % 256 * 16777216

def Txn.stateWord (x : Txn) : Nat := x.stateReg + x.masksReg * 2 ^ 32

/-- A crew waiting in TXCOMMIT completes when its transaction reaches DECIDED or ENDED (R80, R81). -/
def State.wakeCommit (s : State) (i : Nat) : State :=
  let x := s.txn i
  if x.host ∨ x.state < 3 then s
  else
    let c := s.crew x.tile x.crew
    match c.wait with
    | some (.commit gd) =>
      if c.tx = some i then
        let c := { c with state := 1, wait := none, pc := (c.pc + 4) % 2 ^ 64, instret := (c.instret + 1) % 2 ^ 64, lastIssue := s.now }
        s.setCrew x.tile x.crew (if gd = 0 then c else { c with g := smPut c.g gd (BitVec.ofNat 64 x.stateWord) 0 })
      else s
    | _ => s

/-- A transaction ends with a result (R56); results other than COMMITTED raise EV_TXN_ENDED on the coordinator. -/
def State.txnEnd (s : State) (i result : Nat) : State :=
  let x := s.txn i
  let s := s.setTxn i { x with state := 4, result := result }
  let s := s.when (result != 0) fun s => s.raise x.tile 304
  s.wakeCommit i

/-- Send the decision to every participant but the coordinator (R54 step 4). -/
def State.txnSendDecision (s : State) (i : Nat) : State :=
  let x := s.txn i
  s.each (s.tileList.filter fun t => bit x.part t && t ≠ x.tile) fun s t =>
    let (s, ok) := s.seamReach x.tile t
    if ok then s.setTxn i { s.txn i with decSent := orBit (s.txn i).decSent t } else s

/-- Mask of the tiles on which a transaction owns unit u. -/
def Txn.tilesOf (x : Txn) (u : Nat) : Nat := (List.range 8).foldl (fun m t => if x.units.contains (t * 32 + u) then orBit m t else m) 0

/-- Marks of the units of a participant after it has learned the decision (R58). -/
def State.txnLearn (s : State) (i t : Nat) (commit : Bool) : State :=
  let x := s.txn i
  let us := (List.range unitCount).filter fun u => x.units.contains (t * 32 + u) && smGet s.bench.marks (tk t u) 0 = 1
  let s := s.each us fun s u =>
    { s with bench.marks := smPut s.bench.marks (tk t u) (if commit then 2 + 4 * x.tilesOf u else 0) 0 }
  s.when (commit && us ≠ []) fun s => s.raise t 305

/-- Decide no swap with a result: the coordinator rolls its own units back (R56). -/
def State.txnNoSwap (s : State) (i result : Nat) : State :=
  let x := s.txn i
  let s := s.setTxn i { x with commit := some false, decidedAt := s.now, decGot := orBit x.decGot x.tile }
  let s := s.txnSendDecision i
  let s := s.txnRollback i x.tile
  let s := if bit x.reached x.tile then s.txnLearn i x.tile false else s
  s.txnEnd i result

/-- End an undecided transaction ABORTED (R56). -/
def State.txnAbort (s : State) (i : Nat) : State :=
  let x := s.txn i
  if x.state = 1 ∨ x.state = 2 then s.txnNoSwap i (x.doom.getD 6) else s

/-- A transaction that has ended returns to FREE; units that no decision has reached are released. -/
def State.txnFree (s : State) (i : Nat) : State :=
  if (s.txn i).state = 4 then
    let s := s.each s.tileList fun s t => if bit (s.txn i).part t ∧ ¬ bit (s.txn i).released t then s.txnRollback i t else s
    s.setTxn i {}
  else s

/-! ### Preparing -/

/-- The check that a participant makes at PREPARE (R54 step 2): 0 passed, 1 FAULT, 2 STALE. No chapter says what makes a unit FAULTED,
so no unit is (DESIGN CHOICE, log 89). -/
def State.txnCheck (s : State) (i t : Nat) : Nat :=
  let x := s.txn i
  let us := (List.range unitCount).filter (x.holds t)
  let own := x.ownMask t
  if us.any fun u => !s.shadowOk own t u || !s.kindOk u x.kind x.sel then 1
  else if s.reg t EPOCH ≠ x.epoch ∨ us.any fun u => !s.staleOk t u x.epoch then 2
  else 0

/-- The guard deadline lies behind: an answer that comes now does not count (R54 step 3). -/
def Txn.overdue (x : Txn) (now : Nat) : Bool :=
  match x.deadline with
  | some d => decide (d < now)
  | none => false

/-- A participant checks and answers (R54 step 2). -/
def State.txnPrepare (s : State) (i t : Nat) : State :=
  let r := s.txnCheck i t
  let x := s.txn i
  let x := { x with prepSent := clrBit x.prepSent t }
  let x := if r = 0 then { x with prepared := orBit x.prepared t }
    else if r = 1 then { x with failFault := orBit x.failFault t } else { x with failStale := orBit x.failStale t }
  let s := s.setTxn i x
  if t = x.tile then (if x.overdue s.now then s else s.setTxn i { x with answerGot := orBit x.answerGot t })
  else
    let (s, ok) := s.seamReach t x.tile
    if ok then s.setTxn i { x with answerSent := orBit x.answerSent t } else s

/-- The stripe words of source k that the participants sent, with W where the word has a width (R35, R548). -/
def State.stripeWords (s : State) (x : Txn) (k : Nat) : List (Nat × Nat × Nat) :=
  (s.tileList.filter fun t => x.holds t (21 + k)).map fun t => (t, s.reg t (STRIPE_CFG k), s.geoW (x.ownMask t) t k)

/-- The coordinator's check of stripes: a STRIPE unit is owned on every tile in RUN, and the stripes meet R21 (R35). -/
def State.txnStripesOk (s : State) (i : Nat) : Bool :=
  let x := s.txn i
  (List.range 4).all fun k =>
    let owned := s.tileList.any fun t => x.holds t (21 + k)
    !owned || (s.runTiles.all (fun t => x.holds t (21 + k)) && stripesOk s.tiles (s.stripeWords x k))

/-- The participants of a transaction all lie in a mask. -/
def Txn.allIn (x : Txn) (m : Nat) : Bool := x.part &&& m = x.part

/-! ### The occurrence -/

/-- A participant with the decision COMMIT swaps its units (R58). -/
def State.txnSwapTile (s : State) (i t seq : Nat) : State :=
  let x := s.txn i
  let us := (List.range unitCount).filter (x.holds t)
  let s := s.each us fun s u => s.swapUnit t u x.kind x.sel seq
  s.setTxn i { s.txn i with released := orBit x.released t, didSwap := orBit x.didSwap t, reached := orBit x.reached t }

/-- A participant holding PREPARED without a decision rolls back and marks its frames DAMAGED (R58). -/
def State.txnMiss (s : State) (i t : Nat) : State :=
  let x := s.txn i
  let us := (List.range unitCount).filter (x.holds t)
  let s := s.txnRollback i t
  let s := s.each us fun s u => { s with bench.marks := smPut s.bench.marks (tk t u) 1 0 }
  s.setTxn i { s.txn i with reached := orBit (s.txn i).reached t }

/-- A participant reports to the coordinator whether it swapped (R58); the coordinator's own report needs no Seam. -/
def State.txnReport (s : State) (i t : Nat) : State :=
  let x := s.txn i
  if t = x.tile then s.setTxn i { x with reported := orBit x.reported t, swapped := if bit x.didSwap t then orBit x.swapped t else x.swapped }
  else
    let (s, ok) := s.seamReach t x.tile
    if ok then s.setTxn i { s.txn i with reportSent := orBit (s.txn i).reportSent t } else s

/-- One participant reaches the occurrence (R58). -/
def State.txnReach (s : State) (i t seq : Nat) : State :=
  let x := s.txn i
  if bit x.reached t then s
  else if bit x.decGot t ∧ x.commit = some true then (s.txnSwapTile i t seq).txnReport i t
  else if bit x.prepared t ∧ ¬ bit x.decGot t then (s.txnMiss i t).txnReport i t
  else s

/-- The tiles that take part and are not isolated. -/
def State.txnTiles (s : State) (x : Txn) : List Nat := s.tileList.filter fun t => bit x.part t && !s.isolated t

/-- The end of a decided transaction: COMMITTED when every participant reported a swap, else SPLIT, with EV_TXN_SPLIT on the
coordinator for each participant that has not reported (R58). -/
def State.txnFinal (s : State) (i : Nat) : State :=
  let x := s.txn i
  if x.swapped = x.part then s.txnEnd i 0
  else
    let silent := s.tileList.filter fun t => bit x.part t && !bit x.reported t
    (s.each silent fun s _ => s.raise x.tile 305).txnEnd i 7

/-- The coordinator ends the transaction when every participant has reported or is isolated (R58). -/
def State.txnTryEnd (s : State) (i : Nat) : State :=
  let x := s.txn i
  if x.state = 3 ∧ x.occurred.isSome ∧ (s.txnTiles x).all (bit x.reported) then s.txnFinal i else s

/-- The commit point of a transaction occurs (R54 step 5, R58). -/
def State.txnPoint (s : State) (i seq : Nat) : State :=
  let x := s.txn i
  if x.occurred.isSome then s
  else
    let s := s.setTxn i { x with occurred := some s.now, seq := if x.kind = 0 then 0 else seq }
    let s := s.each (s.txnTiles x) fun s t => s.txnReach i t seq
    s.txnTryEnd i

/-- A commit point of kind `kind`, selector `sel` occurs with sequence `seq`; a geyser's is that of tile t (R40, R42,
R54). -/
def State.occurrence (s : State) (kind sel seq t : Nat) : State :=
  let s := s.each s.tileList fun s v => s.each (List.range 21) fun s u =>
    let x := s.unit v u
    let (k, l, q) := x.point
    if x.solo ∧ k = kind ∧ l = sel ∧ (kind ≠ 3 ∨ v = t) ∧ (q = 0 ∨ seqAtOrAfter seq q) then s.soloPoint v u seq else s
  s.each (List.range 16) fun s i =>
    let x := s.txn i
    if (x.state = 2 ∨ x.state = 3) ∧ x.kind = kind ∧ x.sel = sel ∧ (kind ≠ 3 ∨ x.tile = t) ∧
        (kind ≠ 4 ∨ x.cmpArmed) ∧ (x.seq = 0 ∨ seqAtOrAfter seq x.seq) then s.txnPoint i seq else s

/-- An IMMEDIATE commit occurs at the decision: the coordinator's units swap at once, each other participant's when the
decision reaches it (R40, R58). -/
def State.immediateOccurs (s : State) (i : Nat) : State :=
  let x := s.txn i
  if x.state = 3 ∧ x.kind = 0 ∧ x.occurred.isNone then
    let s := s.setTxn i { x with occurred := some s.now }
    let s := if bit x.part x.tile then s.txnReach i x.tile 0 else s
    s.txnTryEnd i
  else s

/-- Sequence numbers that step over 0 (R40). -/
def seqStep (n k : Nat) : Nat := (n + k - 1) % (2 ^ 32 - 1) + 1

/-- The coordinator arms the compare once every participant has acknowledged COMMIT; the sequence counts from there (R54). -/
def State.posArm (s : State) (i : Nat) : State :=
  let x := s.txn i
  if x.state = 3 ∧ x.kind = 4 ∧ x.allIn x.acked ∧ ¬ x.cmpArmed then
    let count := s.reg 0 (CMP_COUNT (x.sel / 8) (x.sel % 8))
    s.setTxn i { x with cmpArmed := true, seq := seqStep count (max 1 x.seq) }
  else s

/-- Decide, once every participant has answered or the deadline has passed (R54 step 3). -/
def State.txnDecide (s : State) (i : Nat) : State :=
  let x := s.txn i
  if x.state ≠ 2 then s
  else
    let good := x.prepared &&& x.answerGot
    let ff := (x.failFault &&& x.answerGot) ||| x.noRoute
    let fs := x.failStale &&& x.answerGot
    let late := x.part - (x.part &&& (x.answerGot ||| x.noRoute))
    let s := s.setTxn i { x with failed := ff ||| fs, late := late }
    if x.allIn good then
      if s.txnStripesOk i then
        let x := s.txn i
        let s := s.setTxn i { x with
          state := 3, commit := some true, decidedAt := s.now, decGot := orBit x.decGot x.tile
          acked := if x.kind = 4 then orBit x.acked x.tile else x.acked }
        let s := if bit x.reached x.tile then s.txnLearn i x.tile true else s
        ((((s.txnSendDecision i).wakeCommit i).posArm i).immediateOccurs i).txnTryEnd i
      else if s.reg 0 EPOCH ≠ x.epoch then s.txnNoSwap i 4
      else s.txnNoSwap i 3
    else if s.reg 0 EPOCH ≠ x.epoch then s.txnNoSwap i 4
    else if ff ≠ 0 then s.txnNoSwap i 3
    else if fs ≠ 0 then s.txnNoSwap i 4
    else s.txnNoSwap i 2

/-- The coordinator has every answer. -/
def State.txnTryDecide (s : State) (i : Nat) : State :=
  let x := s.txn i
  if x.state = 2 ∧ x.allIn (x.answerGot ||| x.noRoute) then s.txnDecide i else s

/-! ### Messages -/

/-- A participant receives PREPARE (R54). -/
def State.prepareReceive (s : State) (i t : Nat) : State :=
  let x := s.txn i
  if bit x.prepSent t then (if x.state = 2 then s.txnPrepare i t else s.setTxn i { x with prepSent := clrBit x.prepSent t })
  else s

/-- The coordinator receives an answer; one that comes after D finds the decision made without it (R54 step 3). -/
def State.answerReceive (s : State) (i t : Nat) : State :=
  let x := s.txn i
  if bit x.answerSent t then
    if x.overdue s.now then (s.setTxn i { x with answerSent := clrBit x.answerSent t }).txnDecide i
    else (s.setTxn i { x with answerSent := clrBit x.answerSent t, answerGot := orBit x.answerGot t }).txnTryDecide i
  else s

/-- The guard deadline passes (R54). -/
def State.guardDeadline (s : State) (i : Nat) : State :=
  let x := s.txn i
  match x.deadline with
  | some d => if x.state = 2 ∧ d ≤ s.now then s.txnDecide i else s
  | none => s

/-- A participant receives the decision (R54, R58). -/
def State.decisionReceive (s : State) (i t : Nat) : State :=
  let x := s.txn i
  if ¬ bit x.decSent t then s
  else
    let s := s.setTxn i { x with decSent := clrBit x.decSent t, decGot := orBit x.decGot t }
    match x.commit with
    | some true =>
      if bit x.reached t then s.txnLearn i t true
      else if x.kind = 4 then
        let (s, ok) := s.seamReach t x.tile
        if ok then s.setTxn i { s.txn i with ackSent := orBit (s.txn i).ackSent t } else s
      else if x.occurred.isSome then ((s.txnReach i t x.seq).txnTryEnd i) else s
    | some false => if bit x.reached t then s.txnLearn i t false else s.txnRollback i t
    | none => s

/-- A participant holding PREPARED for IMMEDIATE with no decision by D + 1 ms counts as reaching the occurrence (R58). -/
def State.immediateTimeout (s : State) (i t : Nat) : State :=
  let x := s.txn i
  match x.deadline with
  | some d =>
    if x.kind = 0 ∧ bit x.part t ∧ bit x.prepared t ∧ ¬ bit x.decGot t ∧ ¬ bit x.reached t ∧ d + 1000 * usTicks ≤ s.now then
      (s.txnMiss i t).txnReport i t
    else s
  | none => s

/-- The coordinator receives a swap report; a participant that had no decision is sent it again (R58). -/
def State.reportReceive (s : State) (i t : Nat) : State :=
  let x := s.txn i
  if ¬ bit x.reportSent t then s
  else
    let x := { x with
      reportSent := clrBit x.reportSent t, reported := orBit x.reported t
      swapped := if bit x.didSwap t then orBit x.swapped t else x.swapped }
    let s := s.setTxn i x
    let s := if bit x.decGot t ∨ x.commit.isNone then s
      else
        let (s, ok) := s.seamReach x.tile t
        if ok then s.setTxn i { s.txn i with decSent := orBit (s.txn i).decSent t } else s
    s.txnTryEnd i

/-- A participant sends its report again for up to 1 ms after the occurrence, or after the decision for IMMEDIATE
(R58). -/
def State.reportResend (s : State) (i t : Nat) : State :=
  let x := s.txn i
  let base := if x.kind = 0 then x.decidedAt else x.occurred.getD 0
  if x.state ≠ 0 ∧ bit x.reached t ∧ ¬ bit x.reported t ∧ ¬ bit x.reportSent t ∧ s.now ≤ base + 1000 * usTicks then
    s.txnReport i t
  else s

/-- 1 ms after the occurrence the coordinator ends the transaction (R58). -/
def State.endTimeout (s : State) (i : Nat) : State :=
  let x := s.txn i
  match x.occurred with
  | some o =>
    if x.state = 3 ∧ o + 1000 * usTicks ≤ s.now then
      s.txnFinal i
    else s
  | none => s

/-- The coordinator receives an acknowledgement of COMMIT (R54). -/
def State.posAck (s : State) (i t : Nat) : State :=
  let x := s.txn i
  (if bit x.ackSent t then s.setTxn i { x with ackSent := clrBit x.ackSent t, acked := orBit x.acked t } else s).posArm i

/-- Acknowledgements of COMMIT have not all come within 1 ms: no swap, LATE (R54). -/
def State.posAckTimeout (s : State) (i : Nat) : State :=
  let x := s.txn i
  if x.state = 3 ∧ x.kind = 4 ∧ ¬ x.cmpArmed ∧ x.decidedAt + 1000 * usTicks ≤ s.now then
    let s := s.setTxn i { x with late := x.part - (x.part &&& x.acked), decGot := 0, decSent := 0 }
    s.txnNoSwap i 2
  else s

/-! ### TXCOMMIT -/

/-- The predicted time of the occurrence with sequence `seq`, in ticks from now, where it is known (R54): GEYSER from
the geyser's target and period, FRAME_START from T + (N - C) * PER, OUT_FRAME likewise. -/
structure Predict where
  /-- The next sequence, ticks to it, ticks between occurrences. -/
  next : Nat
  ticks : Int
  period : Nat
  deriving DecidableEq, Repr

/-- Resolve sequence 0: the first occurrence predicted at least `least` ticks ahead (R54). -/
def Predict.resolve (p : Predict) (least : Int) : Nat × Int :=
  if least ≤ p.ticks ∨ p.period = 0 then (p.next, p.ticks)
  else
    let k := ((least - p.ticks + p.period - 1) / p.period).toNat
    (seqStep p.next k, p.ticks + k * p.period)

/-- Commit at a point (R54): doomed and empty transactions end at once; otherwise PREPARE goes out with the
deadline. `pred` is absent where no time can be predicted. -/
def State.txnCommit (s : State) (i kind sel seq : Nat) (pred : Option Predict) : State :=
  let x := { s.txn i with kind := kind, sel := sel, committed := true }
  let s := s.setTxn i x
  match x.doom with
  | some r => s.txnNoSwap i r
  | none =>
    if x.part = 0 then
      let s := s.setTxn i { x with seq := 0 }
      s.txnEnd i (if s.reg 0 EPOCH = x.epoch then 0 else 4)
    else
      let guard : Nat := max 400 (s.f 0 TXN_GUARD_GUARD)
      let (seq, dl) : Nat × Option (Option Nat) :=
        if kind = 0 then (0, some (some (s.now + max 1 (s.f 0 TXN_GUARD_IMM_TIMEOUT) * usTicks)))
        else if kind = 4 then (seq, some none)
        else match pred with
          | none => (seq, none)
          | some p =>
            if seq = 0 then
              let (q, d) := p.resolve (guard + usTicks)
              (q, some (some (s.now + d - guard).toNat))
            else
              let ahead := sx 32 ((seq + 2 ^ 32 - p.next % 2 ^ 32) % 2 ^ 32)
              let ahead := if ahead < 0 then 0 else ahead
              (seq, some (some (s.now + (p.ticks + ahead * p.period) - guard).toNat))
      match dl with
      | none => (s.setTxn i { x with state := 2, seq := seq }).txnNoSwap i (if s.reg 0 EPOCH = x.epoch then 3 else 4)
      | some d =>
        let s := s.setTxn i { x with state := 2, seq := seq, deadline := d }
        let s := s.each (s.tileList.filter (bit x.part)) fun s t =>
          if t = x.tile then s
          else
            let (s, ok) := s.seamReach x.tile t
            let y := s.txn i
            if ok then s.setTxn i { y with prepSent := orBit y.prepSent t } else s.setTxn i { y with noRoute := orBit y.noRoute t }
        let s := if bit x.part x.tile then s.txnPrepare i x.tile else s
        s.txnTryDecide i

/-- A unit marks its frames DAMAGED: it has missed a commit (R58). -/
def State.marking (s : State) (t u : Nat) : Bool := smGet s.bench.marks (tk t u) 0 != 0

/-! ### Producers of recording streams -/

/-- The RSk_CFG word that a unit begun at a tick follows (R41, R279): the one before the last exchange if it began
earlier. -/
def State.rsCfg (s : State) (t k tick : Nat) : Nat :=
  let (old, at_) := smGet s.store.before (tk t k) (0, 0)
  if tick < at_ then old else s.reg t (RS_CFG k + 0x8000)

/-- An RSk_CFG word records a producer (R276). -/
def rsTakes (cfg ty num : Nat) : Bool :=
  bit cfg 0 && bits cfg 1 3 == ty && (if ty = 4 then bits cfg 7 2 else bits cfg 7 4) == num

/-- A producer's unit goes to the recording streams of a tile that are enabled for it, an output frame to the stream its channel
names (R276); a stale REC refuses it
(R291). -/
def State.recFeed (s : State) (t ty num : Nat) (u : RecUnit) : State :=
  let ks := (List.range 16).filter fun k => rsTakes (s.rsCfg t k u.tick) ty num && (ty != 1 || s.a t (OC_CFG_TARGET num) == k)
  if ks = [] then s
  else if s.stale t 12 then s.refuseFrame t
  else s.each ks fun s k =>
    let v := { u with ty := ty, src := num, take := bits (s.rsCfg t k u.tick) 4 3 }
    { s with store.units := smPut s.store.units (tk t k) (smGet s.store.units (tk t k) [] ++ [v]) [] }

end Sys2Proof.Machine
end

