-- ==== Sys2Proof/Machine/Arbiter.lean ====
section
/-!
DEFINITION. The list of the job arbiter (R464, R468): submission, lookup and removal of jobs. The pass that admits and pauses
them is in Therm.lean.
-/

namespace Sys2Proof.Machine

/-- Jobs that the arbiter can hold waiting or paused (R464). -/
def arbCap : Nat := 64

/-- Is the job (kind, tile, index). -/
def ArbJob.is (j : ArbJob) (kind t idx : Nat) : Bool := j.kind = kind && j.tile = t && j.idx = idx

def State.arbFind (s : State) (kind t idx : Nat) : Option ArbJob := s.pwr.jobs.find? (·.is kind t idx)

/-- Jobs waiting or paused. -/
def State.arbHeld (s : State) : Nat := (s.pwr.jobs.filter fun j => j.st = 0 ∨ j.st = 2).length

/-- A job arrives; the flag says that the arbiter had room (R464). -/
def State.arbSubmit (s : State) (kind t idx tiles : Nat) (resume : Bool) : State × Bool :=
  if arbCap ≤ s.arbHeld then (s, false)
  else ({ s with pwr.jobs := s.pwr.jobs ++ [{ kind := kind, tile := t, idx := idx, tiles := tiles, arrived := s.now, resume := resume }] }, true)

/-- The START or RESUME of a unit job: beyond the arbiter's room it is ignored and sets QFULL (R464). -/
def State.arbUnit (s : State) (kind t idx tiles : Nat) (resume : Bool) : State :=
  let (s, ok) := s.arbSubmit kind t idx tiles resume
  if ok then s else s.setB 0 JOB_STAT_QFULL true

/-- A job leaves the arbiter. -/
def State.arbRemove (s : State) (kind t idx : Nat) : State :=
  { s with pwr.jobs := s.pwr.jobs.filter fun j => !j.is kind t idx }

/-- Set the place of a job. -/
def State.arbSet (s : State) (kind t idx : Nat) (f : ArbJob → ArbJob) : State :=
  { s with pwr.jobs := s.pwr.jobs.map fun j => if j.is kind t idx then f j else j }

end Sys2Proof.Machine
end

