-- ==== Sys2Proof/Machine/Adit.lean ====
section
/-!
DEFINITION. Adit sensor ingress (chapter 6): lane lines and their checks, frames, sensor groups, the line store, embedded
data, sensor control.
-/

namespace Sys2Proof.Machine

def State.port (s : State) (t p : Nat) : AdPort := smGet s.adit.ports (tk t p) {}

def State.setPort (s : State) (t p : Nat) (x : AdPort) : State := { s with adit.ports := smPut s.adit.ports (tk t p) x {} }

/-- Lanes bound to a port by its active bench (R153). -/
def State.adN (s : State) (t p : Nat) : Nat := nlLanes (s.a t (AD_LANES_NL p))

/-- Lane that carries port lane k. -/
def State.adLaneNo (s : State) (t p k : Nat) : Nat := s.a t (AD_LANES_LANE_BASE p) + k

/-- Sample width. -/
def State.adBits (s : State) (t p : Nat) : Nat := 8 + 2 * s.a t (AD_LANES_BITS p)

/-- Samples of 20 bits carry flags above them (R28, R162). -/
def flagLost : Nat := 0x100000
def flagCrc : Nat := 0x200000
def flagPoison : Nat := 0x400000

/-- The pedestal widened to 20 bits (R162). -/
def State.adPed (s : State) (t p : Nat) : Nat := s.a t (AD_PED_PEDESTAL p) * 2 ^ (20 - s.adBits t p) % 0x100000

/-- The port discards every block: off, stale, or ignoring (R44, R154, R165, R177). -/
def State.adDeaf (s : State) (t p : Nat) : Bool :=
  !s.on t (AD_CTL_EN p) || s.stale t p || s.stale t (21 + p) || (s.port t p).ignoring || (s.port t p).quiet

/-- Port lane k delivers blocks to its port: locked, not HELD, not excluded from the frame (R138, R139). -/
def State.adTakes (s : State) (t p k : Nat) : Bool :=
  let l := s.adLaneNo t p k
  k < s.adN t p && s.laneLive t l && s.laneLocked t l && !s.on t (LANE_STAT_HELD l) &&
    match (s.port t p).frame with
    | some f => !bit f.excluded k
    | none => true

/-! ### Columns -/

/-- Column range, lanes, and index of port lane k, by which columns travel (R158). -/
def State.adRange (s : State) (t p k : Nat) : Nat × Nat × Nat × Nat :=
  if !s.adSg t p then (0, s.a t (AD_GEOM_W p), s.adN t p, k)
  else if s.aOn t (AD_SG_LAYOUT p) then (s.a t (AD_SEG_SEG_X0 p), s.a t (AD_SEG_SEG_W p), s.adN t p, k)
  else (0, s.a t (AD_GEOM_W p), s.a t (AD_SG_GLANES p), s.a t (AD_SG_GLANE_BASE p) + k)

/-- Columns of a range that travel on lane li of n, in ascending order (R158). -/
def laneCols (x w n g li : Nat) : List Nat :=
  if n = 0 ∨ g = 0 ∨ n ≤ li then []
  else
    let groups := w / g
    let cnt := groups / n + (if li < groups % n then 1 else 0)
    (List.range (cnt * g)).map fun i => x + (i / g * n + li) * g + i % g

def State.adCols (s : State) (t p k : Nat) : List Nat :=
  let (x, w, n, li) := s.adRange t p k
  laneCols x w n (colGroup (s.a t (AD_LANES_G p))) li

/-- Image lines that a group starting at a line holds (R159). -/
def State.adGroupLines (s : State) (t p line : Nat) : Nat :=
  let lg := s.a t (AD_FMT_LGRP p) + 1
  min (lg - line % lg) (s.a t (AD_GEOM_H p) - line)

/-- Sample i of a lane line's bit stream (R157). -/
def sampleAt (b stream i : Nat) : Nat := bits stream (b * i) b

/-- The bit stream of a lane line's data blocks. -/
def blockStream : List Nat → Nat
  | [] => 0
  | w :: l => w % 2 ^ 64 + 2 ^ 64 * blockStream l

/-- One bit of CRC-32, reflected (R161). -/
def crcBit (c : Nat) : Nat := if c % 2 = 1 then (c / 2) ^^^ 0xEDB88320 else c / 2

def crcByte (c b : Nat) : Nat :=
  crcBit (crcBit (crcBit (crcBit (crcBit (crcBit (crcBit (crcBit (c ^^^ b % 256))))))))

/-- CRC-32 of bytes (R161). -/
def crc32 (bs : List Nat) : Nat := (bs.foldl crcByte 0xFFFFFFFF) ^^^ 0xFFFFFFFF

/-- Payload bytes of data blocks in transmission order. -/
def blockBytes (ws : List Nat) : List Nat := ws.flatMap fun w => leBytes 8 w

/-! ### The line store -/

def State.adStore (s : State) (t p : Nat) : List Item := smGet s.adit.store (tk t p) []

def State.setAdStore (s : State) (t p : Nat) (l : List Item) : State :=
  { s with adit.store := smPut s.adit.store (tk t p) l [] }

/-- Bytes of line store that a port's waiting lines hold (R172). -/
def heldBytes : List Item → Nat
  | [] => 0
  | .row _ px true :: l => 3 * px.length + heldBytes l
  | _ :: l => heldBytes l

/-- Bytes of rows of a group frame that are being gathered: whole lines of the stripe, without those the line in hand has reserved, and
samples of frames not yet open (R172). -/
def AdPort.gathering (x : AdPort) : Nat :=
  let f := (x.frame.map (·.hdr)).getD {}
  let hand := match x.judged with
    | some (line, true) => if x.reserved = 0 then 0 else line + 1
    | _ => 0
  let rows := x.asm.filter fun r => decide (r.1 + 1 < hand ∨ hand = 0 ∨ hand + x.reserved / (3 * max 1 (bits f.stripe 16 14)) ≤ r.1 + 1)
  3 * bits f.stripe 16 14 * rows.length + 3 * (x.early.map (·.cols.length)).sum

/-- Bytes that port p holds, the reservation of the line in hand among them. -/
def State.adHeld (s : State) (t p : Nat) : Nat := heldBytes (s.adStore t p) + (s.port t p).reserved + (s.port t p).gathering

/-- Line store held in KiB, rounded up. -/
def State.adLevel (s : State) (t p : Nat) : Nat := (s.adHeld t p + 1023) / 1024

/-- Put an item in the line store; rows that a fault of crossing 0 discards do not enter it (R20). -/
def State.adPush (s : State) (t p : Nat) (i : Item) : State :=
  match i with
  | .openF f =>
    let s := (s.setDiscard t 0 p false).setAdStore t p (s.adStore t p ++ [i])
    { s with adit.stripes := smPut s.adit.stripes (tk t p) (((f.cnt, f.stripe) :: smGet s.adit.stripes (tk t p) []).take 64) [] }
  | .row .. => if s.discarding t 0 p then s else (s.setAdStore t p (s.adStore t p ++ [i])).sramWritten t 2
  | .closeF _ => s.setAdStore t p (s.adStore t p ++ [i])

/-- Stripe of a frame: first column and width. -/
def FrameHdr.x0 (f : FrameHdr) : Nat := bits f.stripe 0 16
def FrameHdr.sw (f : FrameHdr) : Nat := bits f.stripe 16 14

/-- A stripe's row from samples by column; a column that nothing delivered is at the pedestal, flagged as from a lost
lane when `lost`. -/
def stripeRow (f : FrameHdr) (ped : Nat) (lost : Bool) (cols : SMap Nat) : List Nat :=
  (List.range f.sw).map fun i =>
    match smLook cols (f.x0 + i) with
    | some v => v
    | none => if lost then ped + flagLost else ped

/-! ### Sensor groups -/

/-- Tile t's port p leads its group, or is in none. -/
def State.adLead (s : State) (t p : Nat) : Bool := !s.adSg t p || s.a t (AD_SG_LEAD p) = t

/-- Merge samples into the row being gathered on a tile. -/
def asmAdd (row : Nat) (cols : SMap Nat) : List (Nat × SMap Nat) → List (Nat × SMap Nat)
  | [] => [(row, cols)]
  | (r, m) :: l =>
    if r = row then (r, cols.foldl (fun m c => smIns c.1 c.2 m) m) :: l
    else if row < r then (row, cols) :: (r, m) :: l
    else (r, m) :: asmAdd row cols l

/-- Rows of a group frame that are complete leave for the line store in order, once its opening is there. -/
def State.asmFlush (s : State) (t p : Nat) : Nat → State
  | 0 => s
  | k + 1 =>
    let x := s.port t p
    match x.frame, x.asm with
    | some f, (r, m) :: l =>
      if f.recorded ∧ r = f.out ∧ (List.range f.hdr.sw).all (fun i => (smLook m (f.hdr.x0 + i)).isSome) then
        let s := s.setPort t p { x with asm := l, frame := some { f with out := r + 1 } }
        (s.adPush t p (.row r (stripeRow f.hdr 0 false m) true)).asmFlush t p k
      else s
    | _, _ => s

/-- The stripe that a tile uses for frame `cnt` of a group (R35): the one its open frame holds, else the word it will hold when that
frame reaches it. -/
def State.stripeFor (s : State) (u p : Nat) (h : FrameHdr) : Nat :=
  match (s.port u p).frame with
  | some f => if f.hdr.cnt = h.cnt then f.hdr.stripe else s.reg u (STRIPE_CFG p + 0x8000)
  | none =>
    if (s.unit u (21 + p)).waits.any fun w => waitAllows w h (s.waitSame u (21 + p) p w) then s.reg u (STRIPE_CFG p)
    else s.reg u (STRIPE_CFG p + 0x8000)

/-- The stripe of tile u for a frame of a source: the one the frame had when it reached the tile, or will have (R35). -/
def State.frameStripe (s : State) (u : Nat) (f : FrameHdr) : Nat :=
  match (smGet s.adit.stripes (tk u f.src) []).find? (·.1 = f.cnt) with
  | some e => e.2
  | none => s.stripeFor u f.src f

/-- Deliver samples of a row. A port in no group fills its own stripe; a member of a group keeps the samples of its own
stripe and sends the others to their tiles as Seam class 3 (R162, R169). -/
def State.adDeliver (s : State) (t p row : Nat) (cols : SMap Nat) (held : Bool) : State :=
  match (s.port t p).frame with
  | none => s
  | some f =>
    if !s.adSg t p then s.adPush t p (.row row (stripeRow f.hdr (s.adPed t p) false cols) held)
    else
      let s := s.each (s.sgMembers t p) fun s u =>
        let stripe := s.stripeFor u p f.hdr
        let part := cols.filter fun c => bits stripe 0 16 ≤ c.1 ∧ c.1 < bits stripe 0 16 + bits stripe 16 14
        if part = [] then s
        else if u = t then let x := s.port t p; s.setPort t p { x with asm := asmAdd row part x.asm }
        else
          let (s, ok) := s.seamReach t u
          s.when ok fun s =>
            let k := tk u p
            { s with adit.pieces := smPut s.adit.pieces k (smGet s.adit.pieces k [] ++ [{ src := t, cnt := f.hdr.cnt, row := row, cols := part }]) [] }
      s.asmFlush t p 65536

/-- Every column that the port's lanes carry, at one value. -/
def State.adFlat (s : State) (t p v : Nat) : SMap Nat :=
  if !s.adSg t p then (List.range (s.a t (AD_GEOM_W p))).map fun c => (c, v)
  else ((List.range (s.adN t p)).flatMap (s.adCols t p)).foldl (fun m c => smIns c v m) []

/-- Deliver rows from a to b - 1 at the pedestal without flags (R164, R165, R172). -/
def State.adInvent (s : State) (t p a n : Nat) : State :=
  s.each (List.range n) fun s i => s.adDeliver t p (a + i) (s.adFlat t p (s.adPed t p)) false

/-! ### Frame status -/

def stShort : Nat := 0
def stLong : Nat := 1
def stFeMissing : Nat := 2
def stLate : Nat := 3
def stFcntJump : Nat := 4
def stLineSkip : Nat := 5
def stLineOrder : Nat := 6
def stFeCount : Nat := 7
def stConcealed : Nat := 8
def stUnusable : Nat := 9
def stDropped : Nat := 10
def stLineLen : Nat := 11
def stLaneMap : Nat := 12
def stDeskew : Nat := 13
def stSensorErr : Nat := 14
def stSgMismatch : Nat := 15
def stEmbTrunc : Nat := 16
def stEmbErr : Nat := 17
def stAborted : Nat := 18
def stClockLoss : Nat := 19
def stDamaged : Nat := 20
def stDamagedData : Nat := 21

/-- The frame carries a status bit (R175). -/
def AdFrame.st (f : AdFrame) (b : Nat) : AdFrame := { f with status := orBit f.status b }

/-- Port lanes with a bit set. -/
def popcount : Nat → Nat → Nat
  | 0, _ => 0
  | k + 1, m => (if m.testBit k then 1 else 0) + popcount k m

/-- CONC_LANES of a closed frame: of the group once combined, where `e` holds it. -/
def AdFrame.concLanes (f : AdFrame) : Nat := if f.combined then f.e else popcount 16 f.concMask

/-- The frame record's words after the status (R176). -/
def AdFrame.words (f : AdFrame) (lanes : Nat) : List Nat :=
  [f.hdr.cnt, f.hdr.n % 2 ^ 32, f.hdr.n / 2 ^ 32 % 2 ^ 32,
   f.shortLines % 65536 + min 65535 f.longs * 65536, min 65535 f.dropped + min 65535 f.crcLines * 65536,
   min 255 lanes + min 65535 f.skipped * 65536, f.accepted % 65536 + f.feLines * 65536, f.sstat + f.concMask * 65536]

/-- Embedded lane lines in ELINE and GLANE order. -/
def embOrder (l : List (Nat × Nat × Nat × List Nat)) : List (Nat × List Nat) :=
  (List.range 256).flatMap fun e => (List.range 256).flatMap fun g =>
    (l.filter fun x => x.1 = e ∧ x.2.1 = g).map (·.2.2)

/-- The lane lines that fit a slot, each as COUNT bytes and a 4-byte COUNT; whether one was dropped (R174). -/
def embFit (room : Nat) : Nat → List (Nat × List Nat) → List (Nat × List Nat) × Bool
  | _, [] => ([], false)
  | n, x :: l =>
    if n + x.1 + 4 ≤ room then
      let q := embFit room (n + x.1 + 4) l
      (x :: q.1, q.2)
    else ((embFit room n l).1, true)

/-- The bytes of lane lines (R174). Bytes that COUNT counts and that did not arrive are free values: the spec states none (log 90). -/
def State.embBytes (s : State) : List (Nat × List Nat) → State × List Nat
  | [] => (s, [])
  | x :: l =>
    let r := s.freshBytes (x.1 - x.2.length)
    let q := r.1.embBytes l
    (q.1, x.2.take x.1 ++ r.2 ++ leBytes 4 x.1 ++ q.2)

/-- The lane lines of the open frame that its slot takes, and whether one is dropped (R174). -/
def State.adSlot (s : State) (t p : Nat) : List (Nat × List Nat) × Bool :=
  let slotB := s.a t (AD_EMB_SLOT_SLOT p)
  if slotB = 0 then ([], false) else embFit (slotB - 64) 0 (embOrder (s.port t p).emb)

/-- The events that a closed frame raises for its status bits (R176). -/
def statusEvents : List (Nat × Nat) :=
  [(0, 69), (1, 70), (2, 71), (4, 85), (5, 86), (6, 87), (7, 88), (8, 74), (9, 75), (10, 76), (11, 73), (12, 80), (13, 89),
   (14, 90)]

/-- Record a closed frame: embedded slot, frame record, events, and its close on the way downstream (R174 to R176). A
slot whose port has overrun is passed over, the frame DAMAGED (R395; log 75).
`lanes` is CONC_LANES, over the group. -/
def State.adRecord (s : State) (t p : Nat) (f : AdFrame) (lanes : Nat) : State :=
  let slotB := s.a t (AD_EMB_SLOT_SLOT p)
  let slot := s.adSlot t p
  let f := if slot.2 then f.st stEmbTrunc else f
  let ovr := slotB != 0 && s.overrunning t 0 p
  let f := if s.marking t p ∨ s.marking t (21 + p) ∨ ovr then f.st stDamaged else f
  let s := s.endOverrun t 0 p
  let st := orBit f.status 31
  let ws := st :: f.words lanes
  let s := s.each (List.range 9) fun s i => s.setReg t (ADIT_FSTAT p + 4 * i) (ws.getD i 0)
  let s := if slotB = 0 then s
    else
      let base := s.a64 t (AD_EMB_LO p) + s.f t (AD_SLOT_NEXT p) * slotB
      let s := s.when (!ovr) fun s =>
        let s := s.wrAt (port := 0) t base (ws.flatMap (leBytes 4)) false
        let r := s.embBytes slot.1
        r.1.wrAt (port := 0) t (base + 64) r.2 false
      let n := s.f t (AD_SLOT_NEXT p)
      s.setF t (AD_SLOT_NEXT p) (if s.a t (AD_EMB_SLOT_NSLOT p) ≤ n then 0 else n + 1)
  let s := s.raise t (64 + p)
  let s := s.each statusEvents fun s e => s.when (bit f.status e.1) fun s => s.raise t e.2
  let s := s.when (bit f.status stSgMismatch && !f.sgRaised) fun s => s.raise t 79
  let s := s.when (bit f.status stEmbTrunc || bit f.status stEmbErr) fun s => s.raise t 81
  let s := s.when (f.crcLines != 0) fun s => s.raise t 72
  let s := s.adPush t p (.closeF st)
  (s.endSec t p 0).endSec t (21 + p) 0

/-- The port has no frame open. -/
def State.adIdle (s : State) (t p : Nat) : State :=
  let x := s.port t p
  let s := s.setPort t p { x with
    frame := none, lanes := [], judged := none, dropping := false, reserved := 0, emb := [], asm := [], closing := none
    gone := match x.frame with
      | some f => some f.hdr.cnt
      | none => x.gone }
  s.setF t (AD_PSTAT_STATE p) (b2n (s.on t (AD_CTL_EN p)))

/-- UNUSABLE when more lanes were concealed than CONC_LIMIT (R163). -/
def State.adJudgeConc (s : State) (t p : Nat) (f : AdFrame) (lanes : Nat) : AdFrame :=
  if s.a t (AD_FMT_CONC_LIMIT p) < lanes then f.st stUnusable else f

/-- A member of a group lays down its frame: rows that are not whole are filled, and the frame is recorded. -/
def State.sgFinish (s : State) (t p : Nat) (f : AdFrame) (lanes : Nat) : State :=
  let x := s.port t p
  let fr := x.frame.getD f
  let missing := (List.range (fr.hdr.h - fr.out)).map (fr.out + ·)
  let full := bit f.status stAborted || bit f.status stClockLoss
  let s := if full then s
    else s.each missing fun s r =>
      let m := ((s.port t p).asm.find? (·.1 = r)).map (·.2)
      s.adPush t p (.row r (stripeRow fr.hdr (s.adPed t p) true (m.getD [])) (m.isSome))
  let f := if !full ∧ missing ≠ [] then f.st stDamaged else f
  (s.adRecord t p { f with hdr := fr.hdr } lanes).adIdle t p

/-- Sum of the counts and OR of the status of two members (R171). -/
def AdFrame.join (a b : AdFrame) : AdFrame :=
  { a with
    status := a.status ||| b.status, shortLines := a.shortLines + b.shortLines, longs := a.longs + b.longs
    dropped := a.dropped + b.dropped, crcLines := a.crcLines + b.crcLines, skipped := a.skipped + b.skipped
    accepted := a.accepted + b.accepted }

/-- What a member has closed of frame `cnt` of its group, waiting for the combined status or not. -/
def State.sgPart (s : State) (p cnt u : Nat) : Option AdFrame :=
  match (s.port u p).closing with
  | some f => some f
  | none => match (s.port u p).cut with
    | some f => if f.hdr.cnt = cnt then some f else none
    | none => none

/-- The combined status of what the members have closed of frame `cnt`: status words by OR, counts by sum, concealed lanes judged over
the group (R163, R171). -/
def State.sgSum (s : State) (t p cnt : Nat) : AdFrame × Nat :=
  let parts := (s.sgMembers t p).filterMap (s.sgPart p cnt)
  let lanes := parts.foldl (fun a x => a + popcount 16 x.concMask) 0
  (s.adJudgeConc (s.a t (AD_SG_LEAD p)) p (parts.foldl AdFrame.join {}) lanes, lanes)

/-- A member's frame with the combined status. -/
def AdFrame.combine (f sum : AdFrame) (lanes : Nat) : AdFrame :=
  { f with
    status := sum.status, shortLines := sum.shortLines, longs := sum.longs, dropped := sum.dropped, crcLines := sum.crcLines
    skipped := sum.skipped, accepted := sum.accepted, e := lanes, combined := true }

/-- When the last member has closed the frame the lead combines them (R171). -/
def State.sgCombine (s : State) (t p cnt : Nat) : State :=
  let ms := s.sgMembers t p
  let lead := s.a t (AD_SG_LEAD p)
  if ms ≠ [] ∧ ms.all fun u => (s.sgPart p cnt u).isSome then
    let (sum, lanes) := s.sgSum t p cnt
    let s := s.each ms fun s u =>
      let q := s.port u p
      s.setPort u p { q with closing := q.closing.map fun f => f.combine sum lanes, cut := none }
    match (s.port lead p).closing with
    | some f => if f.combined then s.sgFinish lead p f lanes else s
    | none => s
  else s

/-- A member's frame ends before the combined status has come: it is recorded with what its group has closed so far, itself among it
(DESIGN CHOICE, log 90), and the lead still combines it. -/
def State.sgForce (s : State) (t p : Nat) (f : AdFrame) : State :=
  let h := ((s.port t p).frame.getD f).hdr
  let s := s.setPort t p { s.port t p with closing := some f }
  let (sum, lanes) := s.sgSum t p h.cnt
  let s := if f.combined then s.sgFinish t p f f.concLanes else s.sgFinish t p (f.combine sum lanes) lanes
  s.setPort t p { s.port t p with cut := if f.combined then none else some { f with hdr := h } }

/-- The port closes its frame with a status (R165, R177). -/
def State.adClose (s : State) (t p : Nat) (f : AdFrame) : State :=
  let x := s.port t p
  let f := if (s.adSlot t p).2 then f.st stEmbTrunc else f
  if s.adSg t p then
    let g := x.frame.getD f
    let s := s.setPort t p { x with frame := some g, closing := some f, lanes := [], judged := none, reserved := 0, dropping := false }
    (s.setF t (AD_PSTAT_STATE p) 1).sgCombine t p g.hdr.cnt
  else
    let lanes := popcount 16 f.concMask
    (s.adRecord t p (s.adJudgeConc t p f lanes) lanes).adIdle t p

/-! ### Lane lines -/

/-- Port lane k's part of the line in hand. -/
def State.adPart (s : State) (t p k : Nat) : AdLane := smGet (s.port t p).lanes k {}

/-- The outcome of checking one lane of a port line (R162): samples, and the frame with what the check sets. `rl` is the
line number of the reference, `cnt` the samples expected. -/
def State.adCheckLane (s : State) (t p k rl cnt : Nat) (f : AdFrame) : List Nat × AdFrame :=
  let b := s.adBits t p
  let x := s.adPart t p k
  let ped := s.adPed t p
  let flat := fun fl => (List.range cnt).map fun _ => ped + fl
  let conc := fun (f : AdFrame) => { f with concMask := if cnt = 0 then f.concMask else orBit f.concMask k }
  let crc := fun (f : AdFrame) => { (conc f) with crcLines := f.crcLines + 1 }
  let l := s.adLaneNo t p k
  let gl := if s.adSg t p then s.a t (AD_SG_GLANE_BASE p) + k else k
  if bit f.excluded k then (flat flagLost, ((conc f).st stConcealed).st stDeskew)
  else if !(s.laneLive t l && s.laneLocked t l) || s.on t (LANE_STAT_HELD l) then (flat flagLost, (conc f).st stConcealed)
  else match x.kind, x.stop with
    | 1, some (count, c) =>
      let got := x.data.length
      if c ≠ crc32 (blockBytes x.data) then (flat flagCrc, (crc f).st stConcealed)
      else if got ≠ (count * b + 63) / 64 then (flat flagCrc, (crc f).st stConcealed)
      else if x.glane ≠ gl ∨ x.line ≠ rl then (flat flagCrc, (crc f).st stLaneMap)
      else if x.serr then (flat flagCrc, (crc f).st stSensorErr)
      else
        let str := blockStream x.data
        let good := (List.range (min count cnt)).map fun i => sampleAt b str i * 2 ^ (20 - b)
        let pad := (List.range (cnt - count)).map fun _ => ped + flagCrc
        if count = cnt then (good, f)
        else if cnt < count then (good, f.st stLineLen)
        else (good ++ pad, (crc f).st stLineLen)
    | _, _ => (flat flagCrc, (crc f).st stConcealed)

/-- Judge an image Line Start (R164) and reserve its room (R172). -/
def State.adJudge (s : State) (t p line : Nat) : State :=
  let x := s.port t p
  match x.frame with
  | none => s
  | some f =>
    let h := s.a t (AD_GEOM_H p)
    if h ≤ line then
      let n := s.a t (AD_FMT_LGRP p) + 1
      s.setPort t p { x with judged := some (line, false), frame := some { (f.st stLong) with longs := min 65535 (f.longs + n) } }
    else if line < f.e then s.setPort t p { x with judged := some (line, false), frame := some (f.st stLineOrder) }
    else
      let skip := line - f.e
      let f1 := if skip = 0 then f else { (f.st stLineSkip) with skipped := f.skipped + skip }
      let g := s.adGroupLines t p line
      let f2 := { f1 with e := line + g, accepted := f1.accepted + g }
      let s := s.setPort t p { x with frame := some f2 }
      let s := s.adInvent t p f.e skip
      let need := 3 * f.hdr.sw * g
      let full := s.a t (AD_ARB_QUOTA p) * 1024 < s.adHeld t p + need
      let x := s.port t p
      if full then
        s.setPort t p { x with judged := some (line, true), dropping := true, frame := x.frame.map fun f => { (f.st stDropped) with dropped := f.dropped + g } }
      else s.setPort t p { x with judged := some (line, true), dropping := false, reserved := need }

/-- Deliver an accepted port line or group (R160, R162). -/
def State.adDeliverLine (s : State) (t p line rl : Nat) : State :=
  match (s.port t p).frame with
  | none => s
  | some f =>
    let g := s.adGroupLines t p line
    let ks := List.range (s.adN t p)
    let (parts, f) := ks.foldl (fun (a : List (List Nat × List Nat) × AdFrame) k =>
      let cols := s.adCols t p k
      let (v, f) := s.adCheckLane t p k rl (cols.length * g) a.2
      (a.1 ++ [(cols, v)], f)) ([], f)
    let s := s.setPort t p { s.port t p with frame := some f, reserved := 0 }
    s.each (List.range g) fun s j =>
      let cols := parts.foldl (fun m (x : List Nat × List Nat) =>
        (x.1.zip (x.2.drop (j * x.1.length))).foldl (fun m c => smIns c.1 c.2 m) m) ([] : SMap Nat)
      s.adDeliver t p (line + j) cols true

/-- Keep the embedded lane lines of a port line (R174). -/
def State.adEmbedded (s : State) (t p : Nat) : State :=
  s.each (List.range (s.adN t p)) fun s k =>
    let x := s.port t p
    let a := s.adPart t p k
    match x.frame, a.kind, a.stop with
    | some f, 2, some (count, c) =>
      let f := if c ≠ crc32 (blockBytes a.data) then f.st stEmbErr else f
      s.setPort t p { x with frame := some f, emb := x.emb ++ [(a.line, a.glane, count, blockBytes a.data)] }
    | some f, 2, none => s.setPort t p { x with frame := some (f.st stEmbErr) }
    | _, _, _ => s

/-- Line reports go to the lead as a port line closes (R171). -/
def State.adReport (s : State) (t p line : Nat) : State :=
  match (s.port t p).frame with
  | none => s
  | some f =>
    if !s.adSg t p then s
    else
      let lead := s.a t (AD_SG_LEAD p)
      let key := tk lead p
      if lead = t then { s with adit.leadLines := smPut s.adit.leadLines key (smGet s.adit.leadLines key [] ++ [(f.pos, line, s.now)]) [] }
      else
        let (s, ok) := s.seamReach t lead
        s.when ok fun s => { s with adit.reports := smPut s.adit.reports key (smGet s.adit.reports key [] ++ [{ tile := t, cnt := f.hdr.cnt, pos := f.pos, line := line, tick := s.now }]) [] }

/-- The port line in hand closes (R162). Line numbers come from the reference lane, or from the first lane that is
locked, not HELD, and delivered a Line Start; an accepted line keeps the number it was judged by where no such lane is left. Outside a
frame nothing is delivered. -/
def State.adCloseLine (s : State) (t p : Nat) : State :=
  let x := s.port t p
  let ks := List.range (s.adN t p)
  let open_ := x.frame.isSome && x.closing.isNone
  let has := fun k kind => (s.adPart t p k).kind = kind && s.adTakes t p k
  let judgedLine := match x.judged with
    | some (line, true) => some line
    | _ => none
  let kinds := if x.lanes = [] then 0 else if !open_ then 3
    else if judgedLine.isSome then 1
    else if has x.refLane 1 then 1 else if has x.refLane 2 then 2
    else if ks.any (has · 1) then 1 else 2
  if kinds = 0 then s
  else
    let s := if kinds = 2 then s.adEmbedded t p
      else if kinds = 3 then s
      else
        let ref := if has x.refLane 1 then some x.refLane else ks.find? (has · 1)
        match (ref.map fun r => (s.adPart t p r).line).or judgedLine with
        | none => s
        | some rl =>
          let s := if x.judged.isNone then s.adJudge t p rl else s
          let s := match (s.port t p).judged with
            | some (line, true) =>
              if (s.port t p).dropping then s.adInvent t p line (s.adGroupLines t p line) else s.adDeliverLine t p line rl
            | _ => s
          let s := s.adReport t p rl
          let y := s.port t p
          s.setPort t p { y with frame := y.frame.map fun f => { f with pos := f.pos + 1 } }
    let y := s.port t p
    s.setPort t p { y with lanes := [], judged := none, dropping := false, reserved := 0 }

/-! ### Blocks -/

/-- A stray block is discarded and counted (R156). -/
def State.adStray (s : State) (t p : Nat) : State := (s.addF t (AD_PSTAT_STRAY p) 1).raise t 78

def State.setPart (s : State) (t p k : Nat) (a : AdLane) : State :=
  let x := s.port t p
  s.setPort t p { x with lanes := smPut x.lanes k a {} }

/-- The start block is the next line's, not one more of the line in hand: its lane has one already, the kinds differ, or after a
lane's Line End it carries a number that no lane of the line carries (R162). -/
def State.adNextLine (s : State) (t p k kind line : Nat) : Bool :=
  (s.adPart t p k).kind ≠ 0 ||
    let ps := (s.port t p).lanes.map (·.2)
    ps.any (fun a => a.kind ≠ kind) || (ps ≠ [] && ps.any (·.stop.isSome) && ps.all fun a => a.line ≠ line)

/-- A Line Start or Embedded Start on port lane k (R155, R162, R164). -/
def State.adStart (s : State) (t p k kind line glane : Nat) (serr : Bool) : State :=
  if s.adDeaf t p ∨ ¬ s.adTakes t p k then s
  else
    let s := if s.adNextLine t p k kind line then s.adCloseLine t p else s
    let s := s.setPart t p k { kind := kind, line := line, glane := glane, serr := serr }
    let x := s.port t p
    if kind = 1 ∧ k = x.refLane ∧ x.judged.isNone ∧ x.closing.isNone then s.adJudge t p line else s

/-- A data block on port lane k (R156, R157). -/
def State.adData (s : State) (t p k payload : Nat) : State :=
  if s.adDeaf t p ∨ ¬ s.adTakes t p k then s
  else
    let a := s.adPart t p k
    if a.kind = 0 ∨ a.stop.isSome then s.adStray t p else s.setPart t p k { a with data := a.data ++ [payload % 2 ^ 64] }

/-- A Line End on port lane k; the port line closes when every lane taking part has delivered one (R161, R162). A Line
End outside a line says nothing, and R156 does not count it. -/
def State.adEnd (s : State) (t p k count crc : Nat) : State :=
  if s.adDeaf t p ∨ ¬ s.adTakes t p k then s
  else
    let a := s.adPart t p k
    if a.kind = 0 ∨ a.stop.isSome then s else s.setPart t p k { a with stop := some (count, crc) }

/-- Every lane that takes part has delivered its Line End. -/
def State.adAllEnded (s : State) (t p : Nat) : Bool :=
  (List.range (s.adN t p)).all fun k => !s.adTakes t p k || (s.adPart t p k).stop.isSome

/-- Some lane has delivered its Line End. -/
def State.adSomeEnded (s : State) (t p : Nat) : Bool := (List.range (s.adN t p)).any fun k => (s.adPart t p k).stop.isSome

/-! ### Frames -/

/-- Frame period in ns, when it is known (R166, R168). -/
def State.adPeriod (s : State) (t p : Nat) : Option Nat :=
  let per := s.a t (AD_PER_NS_PER p)
  let l := (s.port t p).intervals
  if per ≠ 0 then some per else if 8 ≤ l.length then some (((l.drop (l.length - 8)).foldl (· + ·) 0 + 4) / 8) else none

/-- The next Frame Start is overdue (R166). -/
def State.adOverdue (s : State) (t p : Nat) : Bool :=
  match (s.port t p).lastN, s.adPeriod t p with
  | some n, some per => !atOrAfter (n + per + s.a t (AD_LATE_TOL_TOL p)) (s.tcN t (s.a t (AD_PED_TS_CHAN p)))
  | _, _ => false

/-- EV_ADIT_FRAME_LATE, once (R166). -/
def State.adLate (s : State) (t p : Nat) : State :=
  if s.on t (AD_CTL_EN p) ∧ s.adOverdue t p ∧ ¬ (s.port t p).lateRaised then
    (s.setPort t p { s.port t p with lateRaised := true }).raise t 68
  else s

/-- Close the open frame on its Frame End or on the next Frame Start (R165). -/
def State.adFinish (s : State) (t p : Nat) (fe : Option (Nat × Nat)) : State :=
  let s := s.adCloseLine t p
  match (s.port t p).frame with
  | none => s
  | some f =>
    if (s.port t p).closing.isSome then s
    else
      let h := s.a t (AD_GEOM_H p)
      let lanes := s.adN t p ≠ 0
      let short := f.e < h ∧ lanes
      let s := s.when short fun s => s.adInvent t p f.e (h - f.e)
      let f := (s.port t p).frame.getD f
      let f := if short then { (f.st stShort) with shortLines := h - f.e } else f
      let f := match fe with
        | some (lines, sstat) =>
          let f := { f with feLines := lines % 65536, sstat := sstat % 65536 }
          if !short ∧ lines ≠ f.accepted + f.longs then f.st stFeCount else f
        | none => if lanes then f.st stFeMissing else f
      s.adClose t p f

/-- Close the open frame at once, without its missing rows (R154, R177). -/
def State.adCut (s : State) (t p b : Nat) : State :=
  let x := s.port t p
  match x.frame with
  | none => s.setPort t p { x with lanes := [], judged := none, reserved := 0, dropping := false }
  | some f =>
    let g := (x.closing.getD f).st b
    let s := s.setPort t p { x with lanes := [], judged := none, reserved := 0, dropping := false, quiet := true }
    let lanes := popcount 16 g.concMask
    if s.adSg t p then (s.sgForce t p g).sgCombine t p f.hdr.cnt
    else (s.adRecord t p (s.adJudgeConc t p g lanes) lanes).adIdle t p

/-- Record a Frame Start's time and counter (R166, R167). -/
def State.adStamp (s : State) (t p fcnt : Nat) : State × Nat × Bool :=
  let n := s.tcN t (s.a t (AD_PED_TS_CHAN p))
  let x := s.port t p
  let localMode := s.aOn t (AD_FMT_CNT_MODE p)
  let cnt := if localMode then (if x.localCnt = 0xFFFFFFFF then 1 else x.localCnt + 1) else fcnt % 2 ^ 32
  let jump := !localMode && match x.lastFcnt with
    | some c => decide (cnt ≠ (c + 1) % 2 ^ 32)
    | none => false
  let iv := match x.lastN, x.gap with
    | some m, false => (x.intervals ++ [(n + 2 ^ 64 - m) % 2 ^ 64]).drop (x.intervals.length - 7)
    | _, _ => x.intervals
  (s.setPort t p { x with lastN := some n, lastTick := s.now, lastCnt := some cnt, lastFcnt := some (fcnt % 2 ^ 32), intervals := iv, gap := false, localCnt := if localMode then cnt else x.localCnt, lateRaised := false }, cnt, jump)

/-- The frame header that a Frame Start makes on a tile (R35, R168). -/
def State.adHdr (s : State) (t p cnt : Nat) : FrameHdr :=
  { src := p, cnt := cnt, n := s.tcN t (s.a t (AD_PED_TS_CHAN p)), tick := s.now, w := s.a t (AD_GEOM_W p), h := s.a t (AD_GEOM_H p), stripe := s.reg t (STRIPE_CFG p + 0x8000) }

/-- What a Frame Start record carries of the lead's bench (R170). -/
def State.sgGeometry (s : State) (t p : Nat) : List Nat :=
  [s.a t (AD_GEOM_W p), s.a t (AD_GEOM_H p), s.a t (AD_LANES_BITS p), s.a t (AD_LANES_G p), s.a t (AD_FMT_LGRP p), s.a t (AD_FMT_EMB p), s.a t (AD_SG_LAYOUT p)]

/-- The lead sends its Frame Start record to every member (R170). -/
def State.sgSend (s : State) (t p : Nat) (f : FrameHdr) : State :=
  s.each ((s.sgMembers t p).filter (· ≠ t)) fun s u =>
    let (s, ok) := s.seamReach t u
    s.when ok fun s => { s with adit.records := smPut s.adit.records (tk u p) (smGet s.adit.records (tk u p) [] ++ [(f, s.sgGeometry t p)]) [] }

/-- Samples that came before their frame opened join it; those of the frames before are dropped (R169). -/
def State.sgEarly (s : State) (t p : Nat) : State :=
  let x := s.port t p
  match x.frame with
  | none => s
  | some f =>
    s.setPort t p { x with
      asm := (x.early.filter (·.cnt = f.hdr.cnt)).foldl (fun a q => asmAdd q.row q.cols a) x.asm
      early := x.early.filter fun q => !seqAtOrAfter f.hdr.cnt q.cnt }

/-- A Frame Start is the commit point of its port; that of a group, which is its lead's, is the commit point of every member port
(R40). -/
def State.frameStartPoint (s : State) (t p cnt : Nat) : State :=
  if !s.adSg t p then s.occurrence 1 (p + 4 * t) cnt t
  else if !s.adLead t p then s
  else s.each (s.sgMembers t p) fun s u => s.occurrence 1 (p + 4 * u) cnt t

/-- The tick of a frame's start as its sections take it: the group's, where the lead's record has come before the member's own Frame
Start (R41; log 90). -/
def State.startTick (s : State) (t p : Nat) : Nat :=
  match smGet s.adit.records (tk t p) [] with
  | (h, _) :: _ => if s.adSg t p && !s.adLead t p then h.tick else s.now
  | [] => s.now

/-- Open a frame on a port: its commit point occurs, sections exchange, the frame goes downstream (R41, R165, R167). -/
def State.adOpen (s : State) (t p refLane excluded fcnt : Nat) (late : Bool) : State :=
  let (s, cnt, jump) := s.adStamp t p fcnt
  let s := s.frameStartPoint t p cnt
  let h0 := { s.adHdr t p cnt with tick := s.startTick t p }
  let s := s.beginSec t (21 + p) 0 h0
  let s := s.beginSec t p 0 h0
  let hdr := s.adHdr t p cnt
  let lead := s.adLead t p
  let status := (if late then 2 ^ stLate else 0) + (if jump ∧ lead then 2 ^ stFcntJump else 0)
  let old := (s.port t p).frame
  let f : AdFrame := match old with
    | some g => { g with started := true, excluded := excluded, status := g.status ||| status }
    | none => { hdr := hdr, status := status, excluded := excluded, started := true, recorded := lead }
  let s := s.setPort t p { s.port t p with frame := some f, refLane := refLane, ignoring := false, quiet := false, lanes := [], judged := none, dropping := false, reserved := 0 }
  let s := (s.setF t (AD_PSTAT_STATE p) 2).sgEarly t p
  let s := s.when (lead && old.isNone) fun s => s.adPush t p (.openF f.hdr)
  s.when (lead && s.adSg t p) fun s => ({ s with adit.leadLines := smPut s.adit.leadLines (tk t p) [] [] } : State).sgSend t p f.hdr

/-- The lanes of a port at a Frame Start: the state with their skews, the lanes that take part, those excluded (R138, R139). -/
def State.adMarkers (s : State) (t p : Nat) (lags : List Nat) : State × List Nat × List Nat :=
  let ks := (List.range (s.adN t p)).filter fun k =>
    lags.getD k 65536 < 65536 || (lags.any (· < 32) && !s.on t (LANE_STAT_HELD (s.adLaneNo t p k)))
  ks.foldl (fun (a : State × List Nat × List Nat) k =>
    let l := a.1.adLaneNo t p k
    let had := a.1.laneLocked t l && a.1.laneLive t l
    let (s, ok) := a.1.laneMarker t l (lags.getD k 65536)
    (s, if ok then a.2.1 ++ [k] else a.2.1, if had && !ok then a.2.2 ++ [k] else a.2.2)) (s, [], [])

/-- The open frame of a port is the one that a Frame Start with this FCNT begins: it was opened by the lead's record (R165, R170). -/
def State.adJoins (s : State) (t p fcnt : Nat) : Bool :=
  match (s.port t p).frame with
  | some f => !f.started && (s.aOn t (AD_FMT_CNT_MODE p) || f.hdr.cnt == fcnt % 2 ^ 32)
  | none => false

/-- The frame before ends at a Frame Start (R165); that of a group is recorded though its combined status has not come. -/
def State.adNextFrame (s : State) (t p : Nat) : State :=
  let s := s.adFinish t p none
  match (s.port t p).frame, (s.port t p).closing with
  | some _, some f => s.sgForce t p f
  | _, _ => s

/-- A Frame Start block reaches a port (R165). The line in hand and the frame before close with the lanes as they stood. On a stale
port the lanes deskew and the frame is refused (R44, R154). `lags` gives, for each port lane, how many blocks after the first lane its
copy came; a lane that delivers none has no entry below 2^16, and is excluded as one that comes too late unless it is HELD
(R138, R139; DEDUCED, log 41). -/
def State.adFrameStart (s : State) (t p srcId fcnt : Nat) (lags : List Nat) : State :=
  if ¬ s.on t (AD_CTL_EN p) then s
  else if s.stale t p ∨ s.stale t (21 + p) then (s.adMarkers t p lags).1.refuseFrame t
  else
    match (s.adMarkers t p lags).2.1 with
    | [] => (s.adMarkers t p lags).1
    | k0 :: _ =>
      let (s, ins, outs) := (s.when (srcId == s.a t (AD_FMT_SRC_ID p)) fun s =>
        if s.adJoins t p fcnt then s.adCloseLine t p else (s.adLate t p).adNextFrame t p).adMarkers t p lags
      let refLane := ins.foldl (fun m k => if lags.getD k 0 < lags.getD m 0 then k else m) k0
      let excluded := outs.foldl (fun m k => orBit m k) 0
      if srcId ≠ s.a t (AD_FMT_SRC_ID p) then
        (s.setPort t p { s.port t p with ignoring := true }).raise t 77
      else
        let s := s.adLate t p
        s.adOpen t p refLane excluded fcnt (s.port t p).lateRaised

/-- A Frame End block (R165). -/
def State.adFrameEnd (s : State) (t p lines sstat : Nat) : State :=
  if s.adDeaf t p then s
  else match (s.port t p).frame, (s.port t p).closing with
    | some f, none => if f.started then s.adFinish t p (some (lines, sstat)) else s.adStray t p
    | _, _ => s.adStray t p

/-! ### Group messages -/

/-- The open frame of a port is the one that a record with this counter begins: its own Frame Start came first (R170). -/
def State.sgHas (s : State) (t p cnt : Nat) : Bool :=
  match (s.port t p).frame with
  | some f => f.started && !f.recorded && (s.aOn t (AD_FMT_CNT_MODE p) || f.hdr.cnt == cnt)
  | none => false

/-- A record that comes too late for its frame: the frame was cut here (R177), or a later one is open. -/
def State.sgPast (s : State) (t p cnt : Nat) : Bool :=
  ((s.port t p).quiet && (s.port t p).gone == some cnt) ||
    match (s.port t p).frame with
    | some f => !s.aOn t (AD_FMT_CNT_MODE p) && f.started && !f.recorded && f.hdr.cnt != cnt && seqAtOrAfter f.hdr.cnt cnt
    | none => false

/-- A member receives the lead's Frame Start record (R170). A stale member that receives all its samples from the others refuses the
frame here (R44). -/
def State.sgRecord (s : State) (t p : Nat) : State :=
  match smGet s.adit.records (tk t p) [] with
  | [] => s
  | (h, g) :: l =>
    let s := { s with adit.records := smPut s.adit.records (tk t p) l [] }
    if ¬ s.on t (AD_CTL_EN p) then s
    else if s.stale t p ∨ s.stale t (21 + p) then s.when (s.adN t p == 0) fun s => s.refuseFrame t
    else if s.sgPast t p h.cnt then s
    else
      let s := if s.sgHas t p h.cnt then s
        else
          let s := s.adNextFrame t p
          let s := s.beginSec t (21 + p) 0 h
          let s := s.beginSec t p 0 h
          s.setPort t p { s.port t p with quiet := false, frame := some { hdr := s.adHdr t p h.cnt, started := s.adN t p = 0 } }
      let bad := s.sgGeometry t p ≠ g
      let s := s.setF t (AD_PSTAT_STATE p) 2
      match (s.port t p).frame with
      | none => s
      | some f =>
        let f := { f with hdr := { f.hdr with cnt := h.cnt, n := h.n, tick := h.tick }, recorded := true }
        let f := if bad then { ((f.st stSgMismatch).st stUnusable) with sgRaised := true } else f
        let s := (s.setPort t p { s.port t p with frame := some f }).sgEarly t p
        let s := s.when bad fun s => s.raise t 79
        let s := s.adPush t p (.openF f.hdr)
        let s := s.asmFlush t p 65536
        s.when (s.adN t p = 0) fun s => s.adClose t p ((s.port t p).frame.getD f)

/-- Conceal the columns of a member in rows not yet passed on (R171). -/
def concealCols (f : FrameHdr) (ped : Nat) (cols rows : List Nat) : List Item → List Item
  | [] => []
  | .row y px held :: l =>
    (if y ∈ rows then .row y ((px.zip (List.range px.length)).map fun x => if f.x0 + x.2 ∈ cols then ped + flagCrc else x.1) held
     else .row y px held) :: concealCols f ped cols rows l
  | i :: l => i :: concealCols f ped cols rows l

/-- A line report that the lead can judge now: it is of the lead's frame and the lead has its own line at that position, or it is of a
frame before. One that has come before the lead's own line waits. -/
def State.sgReady (s : State) (t p : Nat) (x : LineReport) : Bool :=
  match (s.port t p).lastCnt with
  | none => true
  | some c =>
    if x.cnt = c then (smGet s.adit.leadLines (tk t p) []).any fun y => y.1 = x.pos
    else s.aOn t (AD_FMT_CNT_MODE p) || seqAtOrAfter c x.cnt

/-- The lead receives a member's line report (R171). -/
def State.sgReport (s : State) (t p : Nat) : State :=
  let key := tk t p
  match (smGet s.adit.reports key []).find? (s.sgReady t p) with
  | none => s
  | some ⟨m, cnt, pos, line, at_⟩ =>
    let s := { s with adit.reports := smPut s.adit.reports key ((smGet s.adit.reports key []).erase ⟨m, cnt, pos, line, at_⟩) [] }
    let mine := if (s.port t p).lastCnt = some cnt then (smGet s.adit.leadLines key []).find? fun x => x.1 = pos else none
    let bad : Bool := match mine with
      | some (_, ln, tm) => decide (ln ≠ line) || decide (s.a t (AD_SG_SKEW_SKEW p) * 8 < (at_ - tm) * 10)
      | none => false
    if ¬ bad then s
    else
      let rl := (mine.map (·.2.1)).getD line
      let rows := (List.range (s.adGroupLines t p rl)).map (rl + ·)
      let cols := (List.range (s.adN m p)).flatMap (s.adCols m p)
      let s := s.each (s.sgMembers t p) fun s u =>
        let x := s.port u p
        match x.frame with
        | none => s
        | some f =>
          let ped := s.adPed u p
          let asm := x.asm.map fun r => if r.1 ∈ rows then (r.1, r.2.map fun c => if c.1 ∈ cols then (c.1, ped + flagCrc) else c) else r
          (s.setPort u p { x with asm := asm }).setAdStore u p (concealCols f.hdr ped cols rows (s.adStore u p))
      let x := s.port m p
      let mark := fun (f : AdFrame) =>
        { (f.st stSgMismatch) with concMask := f.concMask ||| (2 ^ s.adN m p - 1), crcLines := f.crcLines + s.adN m p }
      s.setPort m p { x with frame := x.frame.map mark, closing := x.closing.map mark }

/-- A member receives the combined frame status (R171). -/
def State.sgStatus (s : State) (t p : Nat) : State :=
  match (s.port t p).closing with
  | none => s
  | some f =>
    if f.combined ∧ ¬ s.adLead t p then
      let (s, ok) := s.seamReach (s.a t (AD_SG_LEAD p)) t
      s.when ok fun s => s.sgFinish t p f f.concLanes
    else s

/-- A tile receives raw samples for its stripe (R169): those of its open frame join it, those of a frame not yet open wait for it, and
those of the last frame closed are dropped (R177). -/
def State.sgRaw (s : State) (t p : Nat) : State :=
  match smGet s.adit.pieces (tk t p) [] with
  | [] => s
  | x :: l =>
    let s := { s with adit.pieces := smPut s.adit.pieces (tk t p) l [] }
    let q := s.port t p
    if s.stale t p ∨ ¬ s.on t (AD_CTL_EN p) then s
    else if q.frame.any (·.hdr.cnt = x.cnt) then (s.setPort t p { q with asm := asmAdd x.row x.cols q.asm }).asmFlush t p 65536
    else if q.gone = some x.cnt then s
    else s.setPort t p { q with early := q.early ++ [x] }

/-! ### Enable, dispatch -/

/-- A write of ADp_CTL.EN (R154). -/
def State.adEnable (s : State) (t p : Nat) (en : Bool) : State :=
  if en then
    if s.on t (AD_CTL_EN p) then s
    else
      let ls := (List.range (s.adN t p)).map (s.adLaneNo t p)
      let same : Bool := match ls with
        | [] => true
        | l :: _ => ls.all fun k => s.reg t (LANE_RATE k) = s.reg t (LANE_RATE l) ∧ s.f t (LANE_CTL_ROLE k) = s.f t (LANE_CTL_ROLE l)
      let sum := (List.range 4).foldl (fun a q => if q = p ∨ s.on t (AD_CTL_EN q) then a + s.a t (AD_ARB_QUOTA q) else a) 0
      if same ∧ sum ≤ 4096 then
        let s := (s.setB t (AD_CTL_EN p) true).setF t (AD_PSTAT_STATE p) 1
        s.setPort t p { s.port t p with lastN := none, lastCnt := none, lastFcnt := none, intervals := [], gap := true, localCnt := 0, lateRaised := false, ignoring := false, cut := none, gone := none, early := [] }
      else s.setB t (AD_PSTAT_CFG_ERR p) true
  else if s.on t (AD_CTL_EN p) then
    let s := if (s.port t p).frame.isSome then s.adCut t p stAborted else s
    let s := s.setB t (AD_CTL_EN p) false
    (s.setF t (AD_PSTAT_STATE p) 0).setPort t p { s.port t p with lanes := [], judged := none, reserved := 0, dropping := false }
  else s

/-- Items of a port that one turn passes: up to n whole lines, in line order, with the openings and closes between
them (R173). -/
def takeTurn : Nat → List Item → List Item × List Item
  | _, [] => ([], [])
  | n, .row y px h :: l =>
    match n with
    | 0 => ([], .row y px h :: l)
    | k + 1 => let (a, b) := takeTurn k l; (.row y px h :: a, b)
  | n, i :: l => let (a, b) := takeTurn n l; (i :: a, b)

/-- One round of the line store's weighted round robin (R173). -/
def State.adDispatch (s : State) (t : Nat) : State :=
  s.each (List.range 4) fun s p =>
    let w := max 1 (s.a t (AD_ARB_WEIGHT p))
    let (out, rest) := takeTurn w (s.adStore t p)
    if out = [] then s
    else
      let s := s.setAdStore t p rest
      { s with pix.rawIn := smPut s.pix.rawIn (tk t p) (smGet s.pix.rawIn (tk t p) [] ++ out) [] }

/-- A block on a locked sensor lane whose type is none of R133 and R155 is a stray block of its port (R156). -/
def State.adForeign (s : State) (t l hdr plain : Nat) : State :=
  if hdr = 1 ∧ s.laneLocked t l ∧ s.f t (LANE_CTL_ROLE l) = 1 ∧ plain % 256 ∉ [0xA1, 0xC3, 0xB2, 0xB4, 0xB8, 0xBE, 0xC5] then
    match (List.range 4).find? fun p => s.a t (AD_LANES_LANE_BASE p) ≤ l && l < s.a t (AD_LANES_LANE_BASE p) + s.adN t p with
    | some p => if s.adDeaf t p ∨ ¬ s.adTakes t p (l - s.a t (AD_LANES_LANE_BASE p)) then s else s.adStray t p
    | none => s
  else s

/-- LANE_BLOCK_RECEIVE with what the port does of a stray block. -/
def State.laneReceive (s : State) (t l hdr payload : Nat) : State :=
  let plain := (descramble 64 (s.lane t l).desc payload 0).2
  let live := s.laneLive t l && !s.on t (LANE_STAT_IDLE l)
  let s := s.laneBlock t l hdr payload
  s.when live fun s => s.adForeign t l hdr plain

/-- Clock-loss recovery: intervals are measured afresh (R166, R177). -/
def State.adRecover (s : State) (t p : Nat) : State :=
  s.setPort t p { s.port t p with intervals := [], gap := true }

/-! ### Sensor control -/

def State.spiQ (s : State) (t p : Nat) : SerialSt := smGet s.adit.spi (tk t p) {}
def State.setSpiQ (s : State) (t p : Nat) (q : SerialSt) : State := { s with adit.spi := smPut s.adit.spi (tk t p) q {} }
def State.i2cQ (s : State) (t p : Nat) : SerialSt := smGet s.adit.i2c (tk t p) {}
def State.setI2cQ (s : State) (t p : Nat) (q : SerialSt) : State := { s with adit.i2c := smPut s.adit.i2c (tk t p) q {} }

/-- A byte enters a 64-byte FIFO; one that is full takes no more (DESIGN CHOICE, log 20). -/
def fifoPush (l : List Nat) (b : Nat) : List Nat := if l.length < 64 then l ++ [b % 256] else l

/-- A write of SPIp_CMD with START: ignored while BUSY (R179). -/
def State.spiStart (s : State) (t p v : Nat) : State :=
  if s.on t (SPI_STAT_BUSY p) then s
  else
    let n := bits v 0 7
    let s := s.when (1 ≤ n && n ≤ 64) fun s => s.setF t (SPI_CMD_LEN p) n
    let s := s.setF t (SPI_CMD_CS p) (bits v 7 1)
    s.setB t (SPI_STAT_BUSY p) true

/-- A transfer ends: LEN bytes have gone out and the sensor's bytes have come in (R179). -/
def State.spiDone (s : State) (t p : Nat) (rx : List Nat) : State :=
  if ¬ s.on t (SPI_STAT_BUSY p) then s
  else
    let n := s.f t (SPI_CMD_LEN p)
    let q := s.spiQ t p
    let s := s.setSpiQ t p { tx := q.tx.drop n, rx := (rx.take n).foldl fifoPush q.rx }
    let s := s.setB t (SPI_STAT_BUSY p) false
    (s.setB t (SPI_STAT_DONE p) true).raise t 82

/-- A write of I2Cp_CMD with START (R180). -/
def State.i2cStart (s : State) (t p v : Nat) : State :=
  if s.on t (I2C_STAT_BUSY p) then s
  else
    let s := s.setF t (I2C_CMD_ADDR p) (bits v 0 7)
    let s := s.when (bits v 8 7 ≤ 64) fun s => s.setF t (I2C_CMD_WLEN p) (bits v 8 7)
    let s := s.when (bits v 16 7 ≤ 64) fun s => s.setF t (I2C_CMD_RLEN p) (bits v 16 7)
    (s.setPeriod 10 (4 * t + p)).setB t (I2C_STAT_BUSY p) true

/-- A command ends, with `acked` bytes written and the bytes read, or with a NACK (R180). -/
def State.i2cDone (s : State) (t p : Nat) (nack : Bool) (sent : Nat) (rx : List Nat) : State :=
  if ¬ s.on t (I2C_STAT_BUSY p) then s
  else
    let n := s.f t (I2C_CMD_WLEN p)
    let q := s.i2cQ t p
    let s := s.setI2cQ t p
      { tx := q.tx.drop (if nack then min sent n else n), rx := if nack then q.rx else (rx.take (s.f t (I2C_CMD_RLEN p))).foldl fifoPush q.rx }
    let s := s.setB t (I2C_STAT_BUSY p) false
    if nack then (s.setB t (I2C_STAT_NACK p) true).raise t 84 else (s.setB t (I2C_STAT_DONE p) true).raise t 83

/-- The target stretched the clock beyond 10 ms (R180). -/
def State.i2cTimeout (s : State) (t p : Nat) : State :=
  if ¬ s.on t (I2C_STAT_BUSY p) ∨ ¬ s.periodDue 10 (4 * t + p) (10000 * usTicks) then s
  else ((s.setB t (I2C_STAT_BUSY p) false).setB t (I2C_STAT_TIMEOUT p) true).raise t 84

/-- Level of a trigger output (R178). -/
def State.xtrigLevel (s : State) (t k : Nat) : Bool :=
  if s.on t (XTRIG_CTL_FORCE_EN k) ∧ ¬ s.time.clockLost then s.on t (XTRIG_CTL_FORCE_LVL k)
  else (((smGet s.time.xtrig (tk t k) []).any fun x => decide (x.1 ≤ s.now) && decide (s.now < x.2)) && !s.time.clockLost) !=
    s.on t (XTRIG_CTL_POL k)

end Sys2Proof.Machine
end

