-- ==== Sys2Proof/Machine/Rawc.lean ====
section
/-!
DEFINITION. Raw correction (chapter 7) and halo exchange (R22 to R30): black level, defects, shading, statistics, the raw
tap.
-/

namespace Sys2Proof.Machine

def State.raw (s : State) (t k : Nat) : RawCtx := smGet s.pix.raw (tk t k) {}
def State.setRaw (s : State) (t k : Nat) (c : RawCtx) : State := { s with pix.raw := smPut s.pix.raw (tk t k) c {} }

/-- A sample's value and flags. -/
def sval (x : Nat) : Nat := x % 0x100000
def sflags (x : Nat) : Nat := x / 0x100000

/-! ### Halos -/

/-- Key of the halos of a point (1 to 3) of source, pipe or channel i that lie to the left (0) or right (1) of tile t. -/
def hkey (t point i side : Nat) : Nat := tk t (point * 64 + i * 4 + side)

/-- The neighbour on a side in ring order. -/
def State.neighbour (s : State) (t side : Nat) : Nat := (if side = 0 then t + s.tiles - 1 else t + 1) % s.tiles

/-- The n samples of a plane nearest an edge (R22). -/
def edgeCols (n side : Nat) (px : List Nat) : List Nat := if side = 0 then px.take n else px.drop (px.length - n)

/-- Send the halos of a row to the neighbours on each inner side; a fault of crossing 2 discards them (R20, R22). -/
def State.sendHalos (s : State) (t point i src : Nat) (f : FrameHdr) (row nc : Nat) (y c1 c2 : List Nat) : State :=
  s.each [0, 1] fun s side =>
    if (if side = 0 then f.x0 = 0 else f.w ≤ f.x0 + f.sw) ∨ s.discarding t 2 src then s
    else
      let u := s.neighbour t side
      let (s, ok) := s.seamReach t u
      if ok then
        let k := hkey u point i (1 - side)
        let h : Halo := { src := t, cnt := f.cnt, row := row, px := edgeCols 32 side y, c1 := edgeCols nc side c1, c2 := edgeCols nc side c2 }
        { s with pix.haloOut := smPut s.pix.haloOut k (smGet s.pix.haloOut k [] ++ [h]) [] }
      else s

/-- Something on the tile reads the halos of a point: RAWC those of X1, a pipe those of its source at X2, a channel those of its pipe at
X3 (R22). -/
def State.haloUsed (s : State) (t point i : Nat) : Bool :=
  if point = 2 then [0, 1].any fun n => s.a t (DV_CFG_SRC n) = i
  else if point = 3 then (List.range 4).any fun c => s.aOn t (OC_CFG_ON c) && s.a t (OC_CFG_PIPE c) = i
  else true

/-- A tile receives halo columns (R22); of those that nothing reads it keeps none but the frame's. -/
def State.haloReceive (s : State) (t point i side : Nat) : State :=
  let k := hkey t point i side
  match smGet s.pix.haloOut k [] with
  | [] => s
  | h :: l =>
    let kept := (smGet s.pix.haloIn k []).filter fun x => s.haloUsed t point i || x.cnt = h.cnt
    { s with
      pix.haloOut := smPut s.pix.haloOut k l []
      pix.haloIn := smPut s.pix.haloIn k (kept ++ [h]) [] }

/-- The halo of a row on a side, if it has arrived. -/
def State.halo (s : State) (t point i side cnt row : Nat) : Option Halo :=
  (smGet s.pix.haloIn (hkey t point i side) []).find? fun h => h.cnt = cnt ∧ h.row = row

/-- Halos of a frame are dropped when the tile has closed it. -/
def State.dropHalos (s : State) (t point i cnt : Nat) : State :=
  s.each [0, 1] fun s side =>
    let k := hkey t point i side
    { s with pix.haloIn := smPut s.pix.haloIn k ((smGet s.pix.haloIn k []).filter (·.cnt ≠ cnt)) [] }

/-- A row with its context on both sides: 32 columns left of the stripe, the stripe, 32 columns right of it. Columns
outside the frame are absent; those of a halo that has not arrived are at the pedestal, flagged as concealed (R30). The
flag says that a halo was missing. -/
def State.wideRow (s : State) (t point i : Nat) (f : FrameHdr) (ped row : Nat) (px : List Nat) (sel : Halo → List Nat) :
    List (Option Nat) × Bool :=
  let side := fun k =>
    if k = 0 ∧ f.x0 = 0 ∨ k = 1 ∧ f.w ≤ f.x0 + f.sw then ((List.range 32).map fun _ => none, false)
    else match s.halo t point i k f.cnt row with
      | some h =>
        let l := (sel h).map some
        let pad := (List.range (32 - l.length)).map fun _ => none
        (if k = 0 then pad ++ l else l ++ pad, false)
      | none => ((List.range 32).map fun _ => some (ped + flagLost), true)
  let (a, m) := side 0
  let (b, n) := side 1
  (a ++ px.map some ++ b, m || n)

/-- The halos, as 2 * row + side, that a stage needs for rows and that have not arrived (R30). -/
def State.halosMissing (s : State) (t point i : Nat) (f : FrameHdr) (left right : Bool) (rows : List Nat) : List Nat :=
  rows.flatMap fun r =>
    (if left ∧ f.x0 ≠ 0 ∧ (s.halo t point i 0 f.cnt r).isNone then [2 * r] else []) ++
    if right ∧ f.x0 + f.sw < f.w ∧ (s.halo t point i 1 f.cnt r).isNone then [2 * r + 1] else []

/-- Halos are substituted (R30): each counts and raises EV_SEAM_HALO_LATE when it first is. -/
def State.halosLate (s : State) (t : Nat) (l : List Nat) : State :=
  s.each l fun s _ => (s.addF t SEAM_HALO_LATE_COUNT 1).raise t 196

/-- Column X of a wide row. -/
def wideAt (f : FrameHdr) (w : List (Option Nat)) (x : Int) : Option Nat :=
  let j := x - f.x0 + 32
  if j < 0 then none else (w.getD j.toNat none)

/-! ### Black level -/

/-- CFA phase of row y and column X (R184); `cfa` holds CFA_X and CFA_Y. -/
def cfaPhase (cfa y x : Nat) : Nat := 2 * ((y + bits cfa 1 1) % 2) + (x + bits cfa 0 1) % 2

/-- OFS of a phase. -/
def State.rcOfs (s : State) (t k p : Nat) : Int :=
  s.aI t ([RC_OFS01_OFS0 k, RC_OFS01_OFS1 k, RC_OFS23_OFS2 k, RC_OFS23_OFS3 k].getD p (RC_OFS01_OFS0 k))

def clipU20 (i : Int) : Nat := (clampI 0 0xFFFFF i).toNat

/-- Stage 1 for one sample (R185). -/
def State.blackLevel (s : State) (t k : Nat) (c : RawCtx) (f : FrameHdr) (y x v : Nat) : Nat :=
  let p := cfaPhase f.cfa y x
  let b := 16 * s.rcOfs t k p + (if s.aOn t (RC_CFG_CLAMP_EN k) ∧ bit c.sValid p then rnd 8 (c.clamp.getD p 0) else 0)
  clipU20 (sval v - b + f.ped) + sflags v * 0x100000

/-- Column X is an optical-black column of the source (R186). -/
def State.obCol (s : State) (t k x : Nat) : Bool :=
  let l := s.a t (RC_OB_L_X0 k)
  let r := s.a t (RC_OB_R_X0 k)
  (l ≤ x && x < l + s.a t (RC_OB_L_N k)) || (r ≤ x && x < r + s.a t (RC_OB_R_N k))

/-- Per-phase sums and counts of a row's optical-black samples without flags (R186). -/
def State.obRow (s : State) (t k : Nat) (f : FrameHdr) (y : Nat) (px : List Nat) : List Nat × List Nat :=
  let ob := (px.zip (List.range px.length)).filterMap fun a =>
    if s.obCol t k (f.x0 + a.2) ∧ sflags a.1 = 0 then some (cfaPhase f.cfa y (f.x0 + a.2), sval a.1) else none
  ((List.range 4).map fun p => (ob.filter (·.1 = p)).foldl (fun m a => m + a.2) 0, (List.range 4).map fun p => (ob.filter (·.1 = p)).length)

/-- Row mean of the optical-black samples, u20.8 (R186). -/
def obMean (sum count : Nat) : Nat := (2 * sum * 256 + count) / (2 * count)

/-- The clamp state after a row: per phase the new value; whether a phase present in the row had no sample. -/
def clampStep (k : Nat) (phases : List Nat) (clamp : List Nat) (valid : Nat) (sums counts : List Nat) : List Nat × Nat × Bool :=
  phases.foldl (fun (a : List Nat × Nat × Bool) p =>
    let n := counts.getD p 0
    if n = 0 then (a.1, a.2.1, true)
    else
      let m := obMean (sums.getD p 0) n
      if bit a.2.1 p then
        let o := a.1.getD p 0
        (a.1.set p ((o : Int) + rnd k ((m : Int) - o)).toNat, a.2.1, a.2.2)
      else (a.1.set p m, orBit a.2.1 p, a.2.2)) (clamp, valid, false)

def addLists (a b : List Nat) : List Nat := (List.range 4).map fun i => a.getD i 0 + b.getD i 0

/-- Phases present in a row. -/
def rowPhases (f : FrameHdr) (y : Nat) : List Nat := ((List.range (min 2 f.w)).map fun x => cfaPhase f.cfa y x).eraseDups

/-- Apply the sums of the row before row y, own and received, and any clamp state that came with row 0 (R186, R187). -/
def State.clampApply (s : State) (t k y : Nat) : State :=
  let c := s.raw t k
  match c.frame with
  | none => s
  | some f =>
    let mine := c.obIn.filter fun m => m.cnt = f.cnt
    let c := match (if y ≤ 1 then mine.findSome? (·.clamp) else none) with
      | some (v, ok) => { c with clamp := v, sValid := ok }
      | none => c
    if y = 0 ∨ ¬ c.obDue ∨ ¬ s.aOn t (RC_CFG_CLAMP_EN k) then s.setRaw t k c
    else
      let got := mine.filter (·.row + 1 = y)
      let sums := got.foldl (fun a m => addLists a m.sums) c.obSums
      let counts := got.foldl (fun a m => addLists a m.counts) c.obCounts
      let (v, ok, e) := clampStep (s.a t (RC_CFG_IIR_K k)) (rowPhases f (y - 1)) c.clamp c.sValid sums counts
      s.setRaw t k { c with clamp := v, sValid := ok, obDue := false, obEmpty := c.obEmpty || e, obIn := c.obIn.filter fun m => ¬(m.cnt = f.cnt ∧ m.row + 1 ≤ y) }

/-- Tiles of the run of a source: those with a stripe, not isolated. -/
def State.runOf (s : State) (k : Nat) : List Nat :=
  s.tileList.filter fun u => s.f u ⟨STRIPE_CFG k + 0x8000, 16, 14⟩ ≠ 0 && !s.isolated u

/-- Send a row's sums, and with row 0 the clamp state, to every other tile of the run (R187). -/
def State.obSend (s : State) (t k : Nat) (m : ObMsg) : State :=
  s.each ((s.runOf k).filter (· ≠ t)) fun s u =>
    let (s, ok) := s.seamReach t u
    s.when ok fun s => { s with pix.obOut := smPut s.pix.obOut (tk u k) (smGet s.pix.obOut (tk u k) [] ++ [m]) [] }

/-- OB_SUMS_RECEIVE: a tile receives sums of a row (R187). -/
def State.obReceive (s : State) (t k : Nat) : State :=
  match smGet s.pix.obOut (tk t k) [] with
  | [] => s
  | m :: l =>
    let s := { s with pix.obOut := smPut s.pix.obOut (tk t k) l [] }
    let c := s.raw t k
    s.setRaw t k { c with obIn := c.obIn ++ [m] }

/-- Forget the clamp state, and hold the next difference measure invalid (R188, R204). -/
def State.rawForget (s : State) (t k : Nat) : State := s.setRaw t k { s.raw t k with sValid := 0, qOk := false }

/-! ### Defects -/

/-- A defect entry (R190). -/
structure DefEnt where
  x : Nat
  y : Nat
  ty : Nat
  mask : Nat
  len : Nat
  src : Nat
  weak : Bool
  bad : Bool
  deriving DecidableEq, Repr

def defEntry (lo hi : Nat) : DefEnt :=
  let ty := bits hi 0 4
  let mask := bits hi 4 4
  let len := bits hi 8 16
  { x := bits lo 0 16, y := bits lo 16 16, ty := ty, mask := mask, len := len, src := bits hi 24 2, weak := bit hi 26
    bad := 5 ≤ ty || bits hi 27 5 ≠ 0 || (mask ≠ 0 && ty ≠ 4) || (len ≠ 0 && ty ≠ 3) }

/-- Table order (R191). -/
def DefEnt.order (e : DefEnt) : Nat := (e.src * 65536 + e.y) * 65536 + e.x

/-- The entry names sample (x, y), with neighbour pitch d. -/
def DefEnt.names (e : DefEnt) (d x y : Nat) : Bool :=
  match e.ty with
  | 0 => x = e.x && y = e.y
  | 1 => y = e.y && (x = e.x || x = e.x + d)
  | 2 => x = e.x && (y = e.y || y = e.y + d)
  | 3 => x = e.x && e.y ≤ y && y ≤ e.y + e.len
  | _ => e.x ≤ x && x ≤ e.x + 1 && e.y ≤ y && y ≤ e.y + 1 && bit e.mask ((x - e.x) + 2 * (y - e.y))

/-- What the engine has accepted so far: entries newest first, source and first row of each entry it has read, and
whether order or room made it skip one of the source within the rows given. -/
structure DefWalk where
  taken : List DefEnt := []
  read : List (Nat × Nat) := []
  order : Bool := false
  overrun : Bool := false
  deriving DecidableEq, Repr

/-- Walk one entry (R190, R191): `w` is the stripe width, `rows` the rows that have come. Every entry read counts towards the
limit of its row, skipped or not (log 43). -/
def DefWalk.step (k w rows : Nat) (a : DefWalk) (e : DefEnt) : DefWalk :=
  let mine := e.src = k && e.y < rows
  let room := decide ((a.read.filter fun x => x.1 = e.src ∧ x.2 = e.y).length < max 16 (w / 8))
  let a := if room then { a with read := (e.src, e.y) :: a.read } else a
  if !room then { a with overrun := a.overrun || mine }
  else if e.bad then { a with order := a.order || mine }
  else if (match a.taken with
      | [] => false
      | l :: _ => decide (e.order < l.order)) then { a with order := a.order || mine }
  else if e.ty = 3 ∧ 64 ≤ (a.taken.filter fun x => x.ty = 3 ∧ x.src = e.src ∧ x.y ≤ e.y ∧ e.y ≤ x.y + x.len).length then
    { a with overrun := a.overrun || mine }
  else { a with taken := e :: a.taken }

/-- A parity fault stands in the bank of the defect table that source k uses (R201). -/
def State.defFault (s : State) (t k : Nat) : Bool := bit (smGet s.pix.defBad t 0) (bits (s.defWord t k) 17 1)

def State.lscFault (s : State) (t k : Nat) : Bool := bit (s.f t RC_STAT_LSC_TFAULT) k

/-- The engine's walk of the table for source k (R190, R191); the table is empty for the rest of a frame that has met a parity error
(R201). -/
def State.defWalk (s : State) (t k w rows : Nat) : DefWalk :=
  let d := s.defWord t k
  if (s.raw t k).defCut then {}
  else
    let base := 0x400000 + 0x80000 * bits d 17 1
    (List.range (bits d 0 17)).foldl (fun a e => DefWalk.step k w rows a (defEntry (s.tbl t (base + 8 * e)) (s.tbl t (base + 8 * e + 4)))) {}

/-- How the table names a sample: not at all, by WEAK entries alone, or by another (R192). -/
def namedBy (l : List DefEnt) (k d x y : Nat) : Nat :=
  let m := l.filter fun e => e.src = k && e.names d x y
  if m = [] then 0 else if m.all (·.weak) then 1 else 2

/-- Insert in ascending order. -/
def insAsc (v : Nat) : List Nat → List Nat
  | [] => [v]
  | x :: l => if v ≤ x then v :: x :: l else x :: insAsc v l

def sortAsc (l : List Nat) : List Nat := l.foldr insAsc []

def absDiff (a b : Nat) : Nat := if a ≤ b then b - a else a - b

def median3 (a b c : Nat) : Nat := (sortAsc [a, b, c]).getD 1 0

/-- The neighbour directions in pairs: H, V, D1, D2 (R194). -/
def pairDirs : List ((Int × Int) × (Int × Int)) :=
  [((-1, 0), (1, 0)), ((0, -1), (0, 1)), ((-1, -1), (1, 1)), ((1, -1), (-1, 1))]

/-- Replacement of a sample (R194, R195): `nb` gives a usable X1 value at an offset in units of d. -/
def repairOf (nb : Int × Int → Option Nat) : Option Nat :=
  let get := fun (o : Int × Int) => match nb o with
    | some v => some v
    | none => nb (2 * o.1, 2 * o.2)
  let u := pairDirs.flatMap fun p => [get p.1, get p.2]
  let vals := sortAsc (u.filterMap id)
  match vals with
  | [] => none
  | v0 :: _ =>
    let m := vals.getD ((vals.length - 1) / 2) v0
    let full := pairDirs.filterMap fun p => match get p.1, get p.2 with
      | some a, some b => some (a, b)
      | _, _ => none
    match full with
    | [] => some m
    | f :: l =>
      let best := l.foldl (fun (z : Nat × Nat) p => if absDiff p.1 p.2 < absDiff z.1 z.2 then p else z) f
      some (median3 best.1 best.2 m)

/-- Dynamic detection (R193). -/
def State.hotCold (s : State) (t k v : Nat) (ns : List (Option Nat)) : Bool :=
  if ns.any (·.isNone) then false
  else
    let m := (sortAsc (ns.filterMap id)).getD 3 0
    (s.aOn t (RC_CFG_DYN_HOT k) && m + s.a t (RC_HOT_T k) + (m * s.a t (RC_HOT_R k)) / 256 < v) ||
    (s.aOn t (RC_CFG_DYN_COLD k) && v + s.a t (RC_COLD_T k) + (m * s.a t (RC_COLD_R k)) / 256 < m)

/-- What stage 2 does with one sample: the sample that leaves it, and the cause it counts under (0 none, 1 poisoned,
2 lost, 3 CRC, 4 static, 5 dynamic), with whether it went unrepaired (R192 to R196). -/
def State.stage2 (s : State) (t k : Nat) (f : FrameHdr) (l : List DefEnt) (rows : List (Nat × List (Option Nat))) (y x v : Nat) :
    Nat × Nat × Bool :=
  let d : Nat := if s.aOn t (RC_CFG_MONO k) then 1 else 2
  let at_ := fun (o : Int × Int) =>
    let yy := (y : Int) + o.2 * d
    let xx := (x : Int) + o.1 * d
    if yy < 0 ∨ xx < 0 then none
    else match rows.find? (·.1 = yy.toNat) with
      | none => none
      | some r => match wideAt f r.2 xx with
        | none => none
        | some q => if sflags q ≠ 0 ∨ namedBy l k d xx.toNat yy.toNat ≠ 0 then none else some (sval q)
  let nm := namedBy l k d x y
  let fl := sflags v
  let near := pairDirs.flatMap fun p => [at_ p.1, at_ p.2]
  let dyn := fl = 0 && nm ≠ 2 && s.hotCold t k (sval v) near
  let stat := nm = 2 || (nm = 1 && dyn)
  if fl = 0 ∧ ¬ stat ∧ ¬ dyn then (v, 0, false)
  else
    let fl' := if stat then fl ||| 8 else fl
    let cause := if bit fl 2 then 1 else if bit fl 0 then 2 else if bit fl 1 then 3 else if stat ∨ bit fl 3 then 4 else 5
    match repairOf at_ with
    | some r => (r + fl' * 0x100000, cause, false)
    | none => (f.ped + fl' * 0x100000, cause, true)

/-! ### Lens shading -/

/-- Catmull-Rom weights, s2.14 (R198), for w[-1], w[0], w[1], w[2]. -/
def catmull (f : Nat) : List Int :=
  let q : Int := f
  let wm := rnd 23 (-(q ^ 3) + 2 * q ^ 2 * 4096 - q * 4096 ^ 2)
  let w1 := rnd 23 (-3 * q ^ 3 + 4 * q ^ 2 * 4096 + q * 4096 ^ 2)
  let w2 := rnd 23 (q ^ 3 - q ^ 2 * 4096)
  [wm, 16384 - wm - w1 - w2, w1, w2]

/-- Knot (i, j) of grid a (0 A, 1 B) for a phase, clamped to the edge knots (R197, R208). -/
def State.knot (s : State) (t k a p : Nat) (i j : Int) : Nat :=
  let ii := (clampI 0 ((s.a t (RC_GRID_NX k) : Int) - 1) i).toNat
  let jj := (clampI 0 ((s.a t (RC_GRID_NY k) : Int) - 1) j).toNat
  let ofs := 2 * (129 * jj + ii)
  let base := 0x500000 + 0x40000 * (2 * k + s.a t (RC_CFG_LSC_BANK k)) + 0x8000 * (4 * a + p)
  bits (s.tbl t (base + ofs / 4 * 4)) (ofs % 4 * 8) 16

/-- Gain of one grid at a sample (R198). -/
def State.gridGain (s : State) (t k a p : Nat) (i j : Int) (wx wy : List Int) : Nat :=
  let sum := (List.range 4).foldl (fun (z : Int) m => z + (List.range 4).foldl (fun (z : Int) n =>
    z + wy.getD m 0 * wx.getD n 0 * s.knot t k a p (i + n - 1) (j + m - 1)) 0) 0
  (clampI 0 65535 (rnd 28 sum)).toNat

/-- Grid coordinate: knot index and fraction (R197). -/
def gridCoord (ofs : Int) (step x : Nat) : Int × Nat :=
  let u := ofs + x * step
  (sra u 24, ((sra u 12) % 4096).toNat)

/-- Stage 3 for one sample (R197 to R201). -/
def State.shade (s : State) (t k : Nat) (f : FrameHdr) (y x v : Nat) : Nat :=
  let g := if (s.raw t k).lscCut then 4096
    else
      let (i, fx) := gridCoord (s.aI t (RC_GOFS_X_OFS k)) (s.a t (RC_GSTEP_X_STEP k)) x
      let (j, fy) := gridCoord (s.aI t (RC_GOFS_Y_OFS k)) (s.a t (RC_GSTEP_Y_STEP k)) y
      let p := cfaPhase f.cfa y x
      let ga := s.gridGain t k 0 p i j (catmull fx) (catmull fy)
      let gb := s.gridGain t k 1 p i j (catmull fx) (catmull fy)
      (rnd 8 (((256 - f.alpha) * ga + f.alpha * gb : Nat) : Int)).toNat
  clipU20 (f.ped + rnd 12 (((sval v : Int) - f.ped) * g)) + sflags v * 0x100000

/-- The blend weight of a frame and whether it fell back (R199), as T0 computes it. -/
def State.blendAlpha (s : State) (k cnt : Nat) : Nat × Bool :=
  let src := s.a 0 (RC_BLEND_SRC k)
  let dflt := s.a 0 (RC_BLEND_ALPHA_DEF k)
  if src = 0 then (dflt, false)
  else match smLook s.pix.expo (4 * k + src - 1) with
    | some (c, pos) =>
      if c = cnt then
        let a := sx 48 (s.a64 0 (RC_POSA_LO k))
        ((clampI 0 256 (rnd 32 ((pos - a) * s.aI 0 (RC_BLEND_K_K k)))).toNat, false)
      else (dflt, true)
    | none => (dflt, true)

/-- The blend weight that travels with a frame: T0 computes it once (R199). -/
def State.frameAlpha (s : State) (k cnt : Nat) : State × Nat × Bool :=
  match smLook s.pix.alpha k with
  | some (c, v) => if c = cnt then (s, v) else let v := s.blendAlpha k cnt; ({ s with pix.alpha := smIns k (cnt, v) s.pix.alpha }, v)
  | none => let v := s.blendAlpha k cnt; ({ s with pix.alpha := smIns k (cnt, v) s.pix.alpha }, v)

/-! ### Statistics -/

/-- Column X and row y lie in the statistics window (R203). -/
def State.inWindow (s : State) (t k y x : Nat) : Bool :=
  let x0 := s.a t (RC_STWIN_X_X0 k)
  let y0 := s.a t (RC_STWIN_Y_Y0 k)
  x0 ≤ x && x < x0 + s.a t (RC_STWIN_X_W k) && y0 ≤ y && y < y0 + s.a t (RC_STWIN_Y_H k)

/-- Accumulate one sample of stage 3's output (R203). -/
def State.statSample (s : State) (t k : Nat) (f : FrameHdr) (y x v : Nat) (a : RawStats) : RawStats :=
  let p := cfaPhase f.cfa y x
  let b := min 255 (v >>> s.a t (RC_STCFG_HIST_SHIFT k))
  { a with
    hist := smIns (256 * p + b) (smGet a.hist (256 * p + b) 0 + 1) a.hist
    sums := a.sums.set p ((a.sums.getD p 0 + v) % 2 ^ 48)
    counts := a.counts.set p (a.counts.getD p 0 + 1)
    clips := a.clips.set p (a.clips.getD p 0 + b2n (decide (s.a t (RC_CLIP_CLIP_T k) ≤ v))) }

/-- Accumulate one grid point of the difference measure (R204): the new statistics and stored q. A point with no stored
q leaves D free. -/
def diffSample (y x v : Nat) (ok : Bool) (a : RawStats × SMap Nat × Bool) : RawStats × SMap Nat × Bool :=
  let q := v / 16
  let key := 65536 * y + x
  match smLook a.2.1 key with
  | some o => ({ a.1 with d := (a.1.d + (if ok then absDiff q o else 0)) % 2 ^ 64, points := a.1.points + 1 }, smIns key q a.2.1, a.2.2)
  | none => ({ a.1 with points := a.1.points + 1 }, smIns key q a.2.1, a.2.2 || ok)

/-- Statistics of a row that leaves stage 3. -/
def State.statRow (s : State) (t k : Nat) (f : FrameHdr) (y : Nat) (px : List Nat) : State :=
  let c := s.raw t k
  let xs := px.zip (List.range px.length)
  let st := if s.aOn t (RC_CFG_STAT_EN k) then
      xs.foldl (fun a z => if s.inWindow t k y (f.x0 + z.2) then s.statSample t k f y (f.x0 + z.2) (sval z.1) a else a) c.stats
    else c.stats
  if s.aOn t (RC_CFG_DIFF_EN k) ∧ y % 2 ^ s.a t (RC_STCFG_DIFF_KY k) = 0 then
    let (st, q, hole) := xs.foldl (fun a z =>
      if s.inWindow t k y (f.x0 + z.2) ∧ (f.x0 + z.2) % 2 ^ s.a t (RC_STCFG_DIFF_KX k) = 0 then diffSample y (f.x0 + z.2) (sval z.1) c.qOk a else a) (st, c.q, false)
    if hole then
      let (v, s) := s.fresh
      s.setRaw t k { c with stats := { st with d := v }, q := q }
    else s.setRaw t k { c with stats := st, q := q }
  else s.setRaw t k { c with stats := st }

/-! ### The raw tap -/

/-- A tapped sample (R202): the value at TAP_BITS, flags above 2^20. -/
def State.tapSample (s : State) (t k v : Nat) : Nat :=
  let b := s.a t (RC_CFG_TAP_BITS k)
  (clampI 0 ((2 ^ b - 1 : Nat) : Int) (rnd (20 - b) (sval v))).toNat + sflags v * 0x100000

/-- TAP_BITS and the neighbour pitch that RAWC's bench gives a tapped frame (R184, R202, R253). -/
def FrameHdr.tapBits (f : FrameHdr) : Nat := f.tap % 32
def FrameHdr.tapPitch (f : FrameHdr) : Nat := if 32 ≤ f.tap then 1 else 2

/-- Put an item on the tap, for the Crusher and for the burst store where they are enabled; a fault of crossing 4
discards the Crusher's rows, one of crossing 3 the burst store's, which key 9 notes, and the frame is DAMAGED (R20, R202). -/
def State.tapPush (s : State) (t k : Nat) (i : Item) : State :=
  if s.a t (RC_CFG_TAP_SEL k) = 0 then s
  else
    let put := fun (s : State) key x =>
      let j := match i with
        | .closeF st => .closeF (if s.discarding t x k then orBit st stDamaged else st)
        | i => i
      { s with pix.tap := smPut s.pix.tap key (smGet s.pix.tap key [] ++ [j]) [] }
    let row := match i with
      | .row .. => true
      | _ => false
    let s := s.when (s.aOn t (CS_CFG_EN k) && !(row && s.discarding t 4 k)) fun s => put s (tk t k) 4
    s.when (s.aOn t BS_CFG_EN && s.a t BS_CFG_SRC = k && !(row && s.discarding t 9 k)) fun s => put s (tk t (16 + k)) 9

/-- Put a row on the tap if it leaves the tapped stage. -/
def State.tapRow (s : State) (t k stage y : Nat) (px : List Nat) : State :=
  if s.a t (RC_CFG_TAP_SEL k) = stage then s.tapPush t k (.row y (px.map (s.tapSample t k)) true) else s

/-! ### Rows -/

/-- Put an item at X2 for every pipe that takes the source. -/
def State.x2Push (s : State) (t k : Nat) (i : Item) : State :=
  s.each [0, 1] fun s n => s.when (s.a t (DV_CFG_SRC n) == k) fun s =>
    { s with pix.x2 := smPut s.pix.x2 (tk t n) (smGet s.pix.x2 (tk t n) [] ++ [i]) [] }

/-- Halos that rows need have not arrived: those not yet found late count, and the frame is DAMAGED (R30). -/
def State.rawHaloLate (s : State) (t k : Nat) (f : FrameHdr) (rows : List Nat) : State :=
  let c := s.raw t k
  let l := (s.halosMissing t 1 k f true true rows).filter fun x => !c.lates.contains x
  if l = [] then s else (s.setRaw t k { c with haloLate := true, lates := c.lates ++ l }).halosLate t l

/-- Produce row y of the open frame: stages 2 and 3, X2, the tap, statistics (R183). -/
def State.rawProduce (s : State) (t k y : Nat) (f : FrameHdr) : State :=
  let c := s.raw t k
  let near := c.x1.filter fun r => y ≤ r.1 + 4 ∧ r.1 ≤ y + 4
  let wide := near.map fun r => (r.1, s.wideRow t 1 k f f.ped r.1 r.2 Halo.px)
  let def_ := s.aOn t (RC_CFG_DEF_EN k)
  let d : Nat := if s.aOn t (RC_CFG_MONO k) then 1 else 2
  let s := s.when def_ fun s => s.rawHaloLate t k f ((near.filter fun r => y ≤ r.1 + 2 * d && r.1 ≤ y + 2 * d).map (·.1))
  let rows := wide.map fun r => (r.1, r.2.1)
  let px := ((near.find? (·.1 = y)).map (·.2)).getD []
  let walk := if def_ then s.defWalk t k f.sw (min (y + 2 * d + 1) c.rows) else {}
  let l := walk.taken
  let out := (px.zip (List.range px.length)).map fun z =>
    if def_ then s.stage2 t k f l rows y (f.x0 + z.2) z.1 else (z.1, if bit (sflags z.1) 2 then 1 else 0, false)
  let cnt := fun n => (out.filter fun z => z.2.1 = n ∧ ¬ z.2.2).length
  let lim := 2 ^ 32 - 1
  let c := s.raw t k
  let c := { c with
    next := y + 1, x1 := c.x1.filter fun r => y < r.1 + 5
    order := c.order || walk.order, overrun := c.overrun || walk.overrun
    poison := satAdd lim c.poison (cnt 1), lost := satAdd lim c.lost (cnt 2), crc := satAdd lim c.crc (cnt 3), stat := satAdd lim c.stat (cnt 4)
    dyn := satAdd lim c.dyn (cnt 5), unrep := satAdd lim c.unrep (out.filter (·.2.2)).length
    status := if out.any (·.2.1 = 1) then orBit c.status stDamagedData else c.status }
  let s := s.setRaw t k c
  let p2 := out.map (·.1)
  let s := s.tapRow t k 2 y p2
  let p3 := if s.aOn t (RC_CFG_LSC_EN k) then (p2.zip (List.range p2.length)).map fun z => s.shade t k f y (f.x0 + z.2) z.1 else p2
  let s := s.tapRow t k 3 y p3
  let s := s.statRow t k f y p3
  let s := s.sendHalos t 2 k k f y 0 p3 [] []
  s.x2Push t k (.row y p3 true)

/-- Produce every row whose context is there: rows up to 2d below, or all once the frame has closed. -/
def State.rawDrain (s : State) (t k : Nat) : Nat → State
  | 0 => s
  | n + 1 =>
    let c := s.raw t k
    match c.frame with
    | none => s
    | some f =>
      let d : Nat := if s.aOn t (RC_CFG_MONO k) then 1 else 2
      let need := if s.aOn t (RC_CFG_DEF_EN k) then 2 * d else 0
      if c.next < c.rows ∧ (c.closed.isSome ∨ c.next + need < c.rows ∨ f.h ≤ c.rows) then (s.rawProduce t k c.next f).rawDrain t k n
      else s

/-- Close the open frame: record, events, statistics to T0, X2 and the tap (R196, R205, R206). -/
def State.rawFinish (s : State) (t k : Nat) : State :=
  let s := s.clampApply t k (s.raw t k).rows
  let c := s.raw t k
  match c.frame, c.closed with
  | some f, some st =>
    if c.next < c.rows then s
    else
      let ab := bit st stAborted || bit st stClockLoss
      let st := st ||| c.status
      let st := if s.marking t 4 ∨ c.haloLate then orBit st stDamaged else st
      let s := s.setReg t (RC_FCNT k) f.cnt
      let s := s.setReg t (RC_LOST k) c.lost
      let s := s.setReg t (RC_CRC k) c.crc
      let s := s.setReg t (RC_POISON k) c.poison
      let s := s.setReg t (RC_STATIC k) c.stat
      let s := s.setReg t (RC_DYN k) c.dyn
      let s := s.setReg t (RC_UNREP k) c.unrep
      let s := s.setReg t (RC_FFLAGS k)
        (f.alpha + b2n f.fb * 512 + b2n c.obEmpty * 1024 + b2n c.stats.tfault * 2048 + b2n c.overrun * 4096 + b2n c.order * 8192 + b2n ab * 32768)
      let s := s.when (c.unrep != 0) fun s => s.raise t 96
      let s := s.when c.overrun fun s => s.raise t 97
      let s := s.when c.order fun s => s.raise t 98
      let s := s.when c.obEmpty fun s => s.raise t 100
      let s := s.when (bit c.status stDamagedData) fun s => s.raise t 104
      let diff := s.aOn t (RC_CFG_DIFF_EN k)
      let part : RawStats := { c.stats with tile := t, hdr := { f with status := st }, diffOk := diff && c.qOk && !ab, obEmpty := c.obEmpty }
      let s := if s.aOn t (RC_CFG_STAT_EN k) ∨ diff then
          let (s, ok) := if t = 0 then (s, true) else s.seamReach t 0
          s.when ok fun s => { s with pix.partials := smPut s.pix.partials k (smGet s.pix.partials k [] ++ [part]) [] }
        else s
      let s := s.tapPush t k (.closeF st)
      let s := s.x2Push t k (.closeF st)
      let s := s.dropHalos t 1 k f.cnt
      let s := s.setRaw t k
        { clamp := c.clamp, sValid := c.sValid, q := c.q, qOk := diff && !ab, obIn := c.obIn.filter (·.cnt ≠ f.cnt) }
      s.endSec t 4 k
  | _, _ => s

/-- What a source section's exchange brings: the clamp forgotten when CLAMP_EN turns on, a grid fault cleared by the
other bank (R188, R201). -/
def State.rawExchanged (s : State) (t k : Nat) : State :=
  match s.takeExchange t 4 k with
  | (s, none) => s
  | (s, some old) =>
    let w := old.getD 0 0
    let s := s.when (!bit w 3 && s.aOn t (RC_CFG_CLAMP_EN k)) fun s => s.rawForget t k
    s.when (bits w 12 1 != s.a t (RC_CFG_LSC_BANK k)) fun s =>
      s.setF t RC_STAT_LSC_TFAULT (clrBit (s.f t RC_STAT_LSC_TFAULT) k)

/-- A frame opens at RAWC (R44, R199). -/
def State.rawOpen (s : State) (t k : Nat) (f : FrameHdr) : State :=
  if s.stale t 4 then s.refuseFrame t
  else
    let s := (s.beginSec t 4 k f).rawExchanged t k
    let (s, al, fb) := if s.aOn t (RC_CFG_LSC_EN k) then s.frameAlpha k f.cnt else (s, 0, false)
    let tf := (s.aOn t (RC_CFG_DEF_EN k) && s.defFault t k) || (s.aOn t (RC_CFG_LSC_EN k) && s.lscFault t k)
    let s := s.when fb fun s => s.raise t 101
    let f := { f with ped := s.a t (RC_PED_PED_OUT k), cfa := s.a t (RC_CFG_CFA_X k) + 2 * s.a t (RC_CFG_CFA_Y k), alpha := al, fb := fb, tap := s.a t (RC_CFG_TAP_BITS k) + b2n (s.aOn t (RC_CFG_MONO k)) * 32 }
    let c := s.raw t k
    let s := s.setRaw t k { clamp := c.clamp, sValid := c.sValid, q := c.q, qOk := c.qOk, obIn := c.obIn, frame := some f, stats := { tfault := tf }, status := if tf then 2 ^ stDamaged else 0 }
    let s := ((s.setDiscard t 2 k false).setDiscard t 4 k false).setDiscard t 9 k false
    let s := s.tapPush t k (.openF f)
    s.x2Push t k (.openF f)

/-- A row reaches stage 1 (R185 to R187). -/
def State.rawTake (s : State) (t k y : Nat) (px : List Nat) : State :=
  match (s.raw t k).frame with
  | none => s
  | some f =>
    let s := s.clampApply t k y
    let c := s.raw t k
    let v := (px.zip (List.range px.length)).map fun z => s.blackLevel t k c f y (f.x0 + z.2) z.1
    let clampOn := s.aOn t (RC_CFG_CLAMP_EN k)
    let (sums, counts) := if clampOn then s.obRow t k f y px else ([0, 0, 0, 0], [0, 0, 0, 0])
    let holds := clampOn && (List.range f.sw).any fun i => s.obCol t k (f.x0 + i)
    let s := s.setRaw t k { c with x1 := c.x1 ++ [(y, v)], rows := y + 1, obSums := sums, obCounts := counts, obDue := clampOn }
    let s := s.when holds fun s =>
      s.obSend t k { src := t, cnt := f.cnt, row := y, sums := sums, counts := counts, clamp := if y = 0 then some (c.clamp, c.sValid) else none }
    let s := s.tapRow t k 1 y v
    s.sendHalos t 1 k k f y 0 v [] []

/-- RAWC_ROW: rows whose context is there leave; a frame that is whole closes; the next item from the line store is
taken (R183). -/
def State.rawRow (s : State) (t k : Nat) : State :=
  let s := (s.rawDrain t k 65536).rawFinish t k
  match smGet s.pix.rawIn (tk t k) [] with
  | [] => s
  | i :: l =>
    let s := { s with pix.rawIn := smPut s.pix.rawIn (tk t k) l [] }
    match i with
    | .openF f => s.rawOpen t k f
    | .row y px _ => s.rawTake t k y px
    | .closeF st =>
      let c := s.raw t k
      if c.frame.isSome then s.setRaw t k { c with closed := some st } else s

/-- The open frame of a source closes short with a status bit (R206). -/
def State.rawShort (s : State) (t k b : Nat) : State :=
  let c := s.raw t k
  match c.frame with
  | none => s
  | some _ => ((s.setRaw t k { c with closed := some (orBit (c.closed.getD (2 ^ 31)) b) }).rawDrain t k 65536).rawFinish t k

/-- UNIT_ABORT of RAWC for one source: the open frame closes short with ABORTED (R188, R206). -/
def State.rawAbort (s : State) (t k : Nat) : State := (s.rawShort t k stAborted).rawForget t k

/-! ### Statistics on T0 -/

/-- Add two tiles' statistics (R205). -/
def RawStats.add (a b : RawStats) : RawStats :=
  { a with
    hdr := { b.hdr with status := a.hdr.status ||| b.hdr.status }
    hist := b.hist.foldl (fun m x => smIns x.1 (smGet m x.1 0 + x.2) m) a.hist
    sums := addLists a.sums b.sums, counts := addLists a.counts b.counts, clips := addLists a.clips b.clips
    d := (a.d + b.d) % 2 ^ 64, points := a.points + b.points, diffOk := a.diffOk && b.diffOk
    obEmpty := a.obEmpty || b.obEmpty, tfault := a.tfault || b.tfault }

/-- Bytes of the statistics record (R205). -/
def RawStats.bytes (a : RawStats) : List Nat :=
  let lim := fun n => min (2 ^ 32 - 1) n
  leBytes 4 a.hdr.cnt ++ leBytes 4 a.hdr.status ++ leBytes 8 a.hdr.n ++ leBytes 8 a.d ++ leBytes 4 a.points ++
  leBytes 4 (a.hdr.alpha + b2n a.hdr.fb * 512 + b2n a.obEmpty * 1024 + b2n a.tfault * 2048 + b2n a.diffOk * 4096) ++
  leBytes 32 0 ++
  ((List.range 4).flatMap fun p => leBytes 8 (a.sums.getD p 0) ++ leBytes 8 (a.counts.getD p 0)) ++
  ((List.range 4).flatMap fun p => leBytes 4 (lim (a.clips.getD p 0))) ++ leBytes 112 0 ++
  ((List.range 1024).flatMap fun i => leBytes 4 (lim (smGet a.hist i 0)))

/-- Write the combined record (R205). A slot whose port has overrun is passed over, the record DAMAGED (R395; log 75). -/
def State.statsWrite (s : State) (k : Nat) (a : RawStats) : State :=
  let n := s.f 0 (RC_SLOT_NEXT k)
  let ovr := s.overrunning 0 0 (4 + k)
  let a := if ovr then { a with hdr.status := orBit a.hdr.status stDamaged } else a
  let s := (s.endOverrun 0 0 (4 + k)).when (!ovr) fun s => s.wrAt (port := 0) 0 (s.a64 0 (RC_SBASE_LO k) + n * 4352) a.bytes false
  let s := s.setF 0 (RC_SLOT_NEXT k) (if s.a 0 (RC_STCFG_NSLOT k) ≤ n then 0 else n + 1)
  let s := s.setReg 0 (RC_DIFF_LO k) (a.d % 2 ^ 32)
  let s := s.setReg 0 (RC_DIFF_HI k) (a.d / 2 ^ 32)
  let s := s.setB 0 (RC_FFLAGS_DIFF_VALID k) a.diffOk
  let s := s.recFeed 0 4 k { cnt := a.hdr.cnt, status := a.hdr.status, n := a.hdr.n, tick := a.hdr.tick, payload := a.bytes }
  let s := s.raise 0 102
  s.when (a.diffOk && s.a64 0 (RC_DTHR_LO k) < a.d) fun s =>
    { s.raise 0 103 with pix.diffOver := s.pix.diffOver ++ [(k, a.hdr.cnt)] }

/-- STATS_PARTIAL_RECEIVE: T0 receives one tile's partials; after the last tile's it writes the record (R205). -/
def State.statsReceive (s : State) (k : Nat) : State :=
  match smGet s.pix.partials k [] with
  | [] => s
  | p :: l =>
    let s := { s with pix.partials := smPut s.pix.partials k l [] }
    let (tiles, sum) := smGet s.pix.combine k ([], {})
    let (s, tiles, sum) := if tiles ≠ [] ∧ sum.hdr.cnt ≠ p.hdr.cnt then (s.statsWrite k sum, [], ({} : RawStats)) else (s, tiles, sum)
    let sum := if tiles = [] then p else sum.add p
    let tiles := tiles ++ [p.tile]
    if (s.runOf k).all fun u => tiles.contains u || s.stale u 4 then
      ({ s with pix.combine := smPut s.pix.combine k ([], ({} : RawStats)) ([], {}) }).statsWrite k sum
    else { s with pix.combine := smPut s.pix.combine k (tiles, sum) ([], ({} : RawStats)) }

/-- The open frame of source k has met a parity error of a table: it is DAMAGED with TFAULT (R201). -/
def State.rawCut (s : State) (t k : Nat) (def_ lsc : Bool) : State :=
  let c := s.raw t k
  s.when c.frame.isSome fun s => s.setRaw t k
    { c with defCut := c.defCut || def_, lscCut := c.lscCut || lsc, stats := { c.stats with tfault := true }, status := orBit c.status stDamaged }

/-- A parity error that source k reads from the defect table, or from its grid set (R201): the bank is at fault for every source that
uses it. -/
def State.rawTableFault (s : State) (t k : Nat) (def_ inj : Bool) : State :=
  let s := if def_ then
      let b := bits (s.defWord t k) 17 1
      let s := { s with pix.defBad := smPut s.pix.defBad t (orBit (smGet s.pix.defBad t 0) b) 0 }.setB t RC_STAT_DEF_TFAULT true
      s.each (List.range 4) fun s j =>
        s.when (bits (s.defWord t j) 17 1 = b && s.aOn t (RC_CFG_DEF_EN j)) fun s => s.rawCut t j true false
    else
      let s := s.setF t RC_STAT_LSC_TFAULT (orBit (s.f t RC_STAT_LSC_TFAULT) k)
      s.when (s.aOn t (RC_CFG_LSC_EN k)) fun s => s.rawCut t k false true
  s.raiseX t 99 inj

end Sys2Proof.Machine
end

