-- ==== Sys2Proof/Machine/Crush.lean ====
section
/-!
DEFINITION. The Crusher (chapter 10): prediction, the dictionary coder, slabs, the input store and lanes, the writer with its
chains, frame records, and the offline jobs with the decoder.
-/

namespace Sys2Proof.Machine

def State.crs (s : State) (t k : Nat) : CrStream := smGet s.store.streams (tk t k) {}

def State.setCrs (s : State) (t k : Nat) (x : CrStream) : State :=
  { s with store.streams := smPut s.store.streams (tk t k) x {} }

def State.crj (s : State) (t j : Nat) : CrJob := smGet s.store.jobs (tk t j) {}

def State.setCrj (s : State) (t j : Nat) (x : CrJob) : State :=
  { s with store.jobs := smPut s.store.jobs (tk t j) x {} }

/-! ### Prediction and residuals -/

/-- A row is a restart row (R254). -/
def restartRow (y d rst : Nat) : Bool := y < d || (rst ≠ 0 && y % rst < d)

/-- The prediction of a sample (R255): `a` and `c` are absent at the slab's left edge. -/
def predict (restart : Bool) (bw : Nat) (a : Option Nat) (b : Nat) (c : Option Nat) : Int :=
  match restart, a with
  | true, some a => a
  | true, none => 2 ^ (bw - 1)
  | false, none => b
  | false, some a =>
    let c := c.getD 0
    if max a b ≤ c then min a b else if c ≤ min a b then max a b else (a : Int) + b - c

/-- The residual of a sample (R255). -/
def residual (bw : Nat) (pred : Int) (x : Nat) : Nat :=
  let e := ((x : Int) - pred) % (2 ^ bw : Nat)
  let e := if (2 ^ (bw - 1) : Nat) ≤ e then e - (2 ^ bw : Nat) else e
  if 0 ≤ e then (2 * e).toNat else (-2 * e - 1).toNat

/-- The sample that a residual restores (R255). -/
def restore (bw : Nat) (pred : Int) (m : Nat) : Nat :=
  let e : Int := if m % 2 = 0 then (m / 2 : Nat) else -((m / 2 : Nat) + 1 : Int)
  ((pred + e) % (2 ^ bw : Nat)).toNat

/-- Bytes of a residual (R253). -/
def resBytes (bw : Nat) : Nat := (bw + 7) / 8

/-- The prediction at index i of a slab with samples `px` and the row above it. -/
def predictAt (j : SlabJob) (px : List Nat) (i : Nat) : Int :=
  predict j.restart j.b (if j.d ≤ i then px[i - j.d]? else none) (sval (j.above.getD i 0))
    (if j.d ≤ i then some (sval (j.above.getD (i - j.d) 0)) else none)

/-- The residual bytes of a slab, in column order (R255). -/
def slabResiduals (j : SlabJob) : List Nat :=
  let px := j.px.map sval
  (List.range px.length).flatMap fun i => leBytes (resBytes j.b) (residual j.b (predictAt j px i) (px.getD i 0))

/-! ### The dictionary coder -/

/-- Width of code word k (R257). -/
def codeWidth (k : Nat) : Nat := min 12 (Nat.log2 (256 + k) + 1)

/-- Coding from the string p with k code words emitted; the dictionary maps (string, byte) to its code (R256). -/
def lzwFrom (p k : Nat) (dict : List ((Nat × Nat) × Nat)) : List Nat → List (Nat × Nat)
  | [] => [(p, codeWidth (k + 1)), (257, codeWidth (k + 2))]
  | ch :: l =>
    match dict.lookup (p, ch) with
    | some e => lzwFrom e k dict l
    | none =>
      (p, codeWidth (k + 1)) :: lzwFrom ch (k + 1) (if 258 + k ≤ 4095 then ((p, ch), 258 + k) :: dict else dict) l

/-- The code words of a slab's residual bytes (R256). -/
def lzwEncode : List Nat → List (Nat × Nat)
  | [] => []
  | p :: l => lzwFrom p 0 [] l

def wordBits (l : List (Nat × Nat)) : Nat := l.foldl (fun a x => a + x.2) 0

/-- A lane codes a slab, or stores it RAW when the code reaches its raw size (R261). -/
def codeSlab (j : SlabJob) : Slab :=
  let dam := j.px.any fun v => bit (sflags v) 2
  let code := lzwEncode (slabResiduals j)
  if j.px.length * j.b ≤ wordBits code then
    { job := j, raw := true, damaged := dam, words := j.px.map fun v => (sval v % 2 ^ j.b, j.b) }
  else { job := j, raw := false, damaged := dam, words := code }

/-! ### Slab header and CRC -/

/-- One bit step of CRC-16 with polynomial 0x1021 (R260). -/
def crc16Bit (c : Nat) : Nat := if 0x8000 ≤ c then (2 * c % 0x10000) ^^^ 0x1021 else 2 * c

def crc16Step (c b : Nat) : Nat :=
  crc16Bit (crc16Bit (crc16Bit (crc16Bit (crc16Bit (crc16Bit (crc16Bit (crc16Bit (c ^^^ (b * 256)))))))))

/-- CRC-16 of a list of bytes, initial value 0xFFFF (R260). -/
def crc16 (l : List Nat) : Nat := l.foldl crc16Step 0xFFFF

/-- Code words packed least significant bit first (R258), as a number. -/
def packNum : List (Nat × Nat) → Nat
  | [] => 0
  | (v, w) :: l => v % 2 ^ w + packNum l * 2 ^ w

/-- Code words packed into bytes, padded with zero bits to a whole byte. -/
def packWords (l : List (Nat × Nat)) : List Nat := leBytes ((wordBits l + 7) / 8) (packNum l)

/-- Encoding of a sample width in BITS (R259). -/
def bitsCode (b : Nat) : Nat := (b - 8) / 2

/-- The low 48 bits of a slab header (R259). -/
def headerLow (raw damaged restart first last : Bool) (b d samples codeBits : Nat) : Nat :=
  b2n raw + 2 * b2n damaged + 4 * b2n restart + 8 * b2n first + 16 * b2n last + bitsCode b * 0x100 +
  b2n (d == 1) * 0x800 + samples % 0x2000 * 0x1000 + codeBits % 0x20000 * 0x2000000

/-- The 8 header bytes of a slab with its CRC (R259, R260). -/
def Slab.header (x : Slab) (last : Bool) : List Nat :=
  let j := x.job
  let h := leBytes 6 (headerLow x.raw x.damaged j.restart (j.row == 0 && j.idx == 0) last j.b j.d j.px.length (wordBits x.words))
  h ++ leBytes 2 (crc16 (h ++ packWords x.words))

/-! ### Writers -/

/-- Writer q of a tile: a stream below 4, an offline job above. -/
def State.wr_ (s : State) (t q : Nat) : Writer := if q < 4 then (s.crs t q).w else (s.crj t (q - 4)).w

def State.setWr (s : State) (t q : Nat) (w : Writer) : State :=
  if q < 4 then s.setCrs t q { s.crs t q with w := w } else s.setCrj t (q - 4) { s.crj t (q - 4) with w := w }

def State.hand (s : State) (t q : Nat) : Option Hand := if q < 4 then (s.crs t q).hand else (s.crj t (q - 4)).hand

def State.setHand (s : State) (t q : Nat) (h : Option Hand) : State :=
  if q < 4 then s.setCrs t q { s.crs t q with hand := h } else s.setCrj t (q - 4) { s.crj t (q - 4) with hand := h }

/-- A RAW recording stream that supplies the buffers of a Crusher stream is enabled (R276). -/
def State.rawRec (s : State) (t k : Nat) : Bool :=
  !s.stale t 12 && (List.range 16).any fun r => s.aOn t (RS_CFG_EN r) && s.a t (RS_CFG_TYPE r) == 0 && s.a t (RS_CFG_SRCNUM r) == k

/-- Bytes of a buffer that REC supplies (DESIGN CHOICE, log 22). -/
def recBufBytes : Nat := 65536

/-- Bytes of the ring's reserve (R278). -/
def stgReserve : Nat := 65536

/-- Bytes of the ring that the chunks of a RAW unit can take: its payload, at most three headers and padding (R277, R280). -/
def rawNeed (payload : Nat) : Nat := payload + 120

/-- Bytes of the ring that a buffer supplied by REC can take in the end: the buffer, the write-back words before it, headers and padding. -/
def recBufNeed : Nat := rawNeed (recBufBytes + 16)

/-- Bytes of chunks that stand in a tile's staging ring, in its reserve or before it (R278). -/
def State.stgHeld (s : State) (t : Nat) (gap : Bool) : Nat :=
  (s.store.extents.filter (·.tile = t)).foldl (fun a e => e.parts.foldl (fun b p => if p.2.2 = gap then b + p.2.1 else b) a) 0

/-- Bytes of a tile's staging ring outside the reserve that are in use or spoken for (R278): chunks, RAW units and buffers that REC
supplied. -/
def State.stgUsed (s : State) (t : Nat) : Nat :=
  s.stgHeld t false +
  (List.range 16).foldl (fun a k => (smGet s.store.units (tk t k) []).foldl (fun b u => if u.ty = 0 then b + rawNeed u.payload.length else b) a) 0 +
  (List.range 4).foldl (fun a k => ((s.crs t k).hand.map (·.held)).getD [] |>.foldl (fun b u => b + rawNeed u.payload.length) a) 0 +
  (List.range 4).foldl (fun a k => a + if (s.crs t k).w.own ∧ (s.crs t k).w.inBuf then recBufNeed else 0) 0

/-- Bytes of the ring outside the reserve that are free. -/
def State.stgRoom (s : State) (t : Nat) : Nat := s.a t REC_STG_SIZE_KIB * 1024 - stgReserve - s.stgUsed t

/-- The rules that a descriptor must keep (R262). -/
def descOk (base addr len ctl wb : Nat) : Bool :=
  base % 32 = 0 && addr % 8 = 0 && len % 8 = 0 && 8 ≤ len && len ≤ 268435456 && ctl ≤ 1 && wb = 0

/-- The buffer of the chain in use at its next descriptor; the second flag says that the descriptor breaks the rules. -/
def State.wDesc (s : State) (t q : Nat) : State × Bool × Bool :=
  let w := s.wr_ t q
  let at_ := w.base + 32 * w.desc
  let (s, l, p) := s.rdAt t at_ 32 5
  let addr := leNum (l.take 8)
  let len := leNum ((l.drop 8).take 4)
  let ctl := leNum ((l.drop 12).take 4)
  if !p && descOk w.base addr len ctl (leNum (l.drop 16)) then
    let s := s.setWr t q { w with addr := addr, len := len, evt := bit ctl 0, bitPos := 0, first := none, poison := false, inBuf := true, own := false, data := [] }
    let s := s.when (q < 4) fun s => (s.setF t (CS_POS_DESC q) w.desc).setF t (CS_POS_CHAIN q) w.chain
    (s, true, false)
  else (s.setWr t q { w with haveChain := false }, false, true)

/-- The writer needs a buffer: the next descriptor of its chain, a buffer from REC, the next queued chain (R265). -/
def State.wOpen (s : State) (t q : Nat) : State × Bool × Bool :=
  let w := s.wr_ t q
  if w.inBuf then (s, true, false)
  else if w.haveChain ∧ w.desc < w.count then s.wDesc t q
  else if 4 ≤ q then (s, false, false)
  else
    let c := s.crs t q
    let n := c.chainNo
    if s.rawRec t q then
      if recBufNeed ≤ s.stgRoom t then
        let s := s.setCrs t q { c with chainNo := n + 1, w := { chain := n, count := 1, len := recBufBytes, inBuf := true, haveChain := true, own := true } }
        ((s.setF t (CS_POS_DESC q) 0).setF t (CS_POS_CHAIN q) n, true, false)
      else (s, false, false)
    else match c.chains with
      | [] => (s, false, false)
      | (b, m) :: l =>
        let s := s.setCrs t q { c with chains := l, chainNo := n + 1, w := { base := b, count := m, chain := n, haveChain := true } }
        s.wDesc t q

/-- The write-back of a descriptor (R262): END_BIT, FIRST_OFS with flags, FCNT, ROW. -/
def writeBack (endBit : Nat) (first : Option (Nat × Nat × Nat)) (split poison : Bool) : List Nat :=
  let (o, c, r, none_) : Nat × Nat × Nat × Bool := match first with
    | some (o, c, r) => (o, c, r, false)
    | none => (0, 0, 0, true)
  leBytes 4 endBit ++ leBytes 4 (o + 2 ^ 25 + b2n split * 2 ^ 26 + b2n poison * 2 ^ 27 + b2n none_ * 2 ^ 28) ++ leBytes 4 c ++ leBytes 2 r ++ [0, 0]

/-- The frame whose slabs stream k writes, by its number. -/
def State.crFrame (s : State) (t k fid : Nat) : CrFrame := ((s.crs t k).frames.find? (·.fid = fid)).getD {}

/-- Release the open buffer (R264): write-back and event, or a RAW unit for REC, which one that ends inside the slab in hand becomes when
the slab is placed whole or given up (R267). -/
def State.wRelease (s : State) (t q endBit : Nat) (split : Bool) : State :=
  let w := s.wr_ t q
  if !w.inBuf then s
  else
    let wb := writeBack endBit w.first split w.poison
    let s := s.setWr t q { w with inBuf := false, desc := w.desc + 1, bitPos := 0, first := none, poison := false, data := [] }
    if w.own then
      let f := match s.hand t q with
        | some h => s.crFrame t q h.slab.job.fid
        | none => match w.first with
          | some (_, c, _) => ((s.crs t q).frames.find? fun (f : CrFrame) => decide (f.hdr.cnt = c)).getD {}
          | none => {}
      let u : RecUnit := { cnt := f.hdr.cnt, status := f.status, n := f.hdr.n, tick := f.hdr.tick, payload := wb ++ w.data.take ((endBit + 7) / 8) }
      match s.hand t q with
      | some h => if split then s.setHand t q (some { h with held := h.held ++ [u] }) else s.recFeed t 0 q u
      | none => s.recFeed t 0 q u
    else (s.wrAt (port := 5) t (w.base + 32 * w.desc + 16) wb false).when w.evt fun s => s.raise t 128

/-- Put bytes in the open buffer from a byte offset on. -/
def State.wBytes (s : State) (t q ofs : Nat) (bs : List Nat) : State :=
  let w := s.wr_ t q
  if w.own then s.setWr t q { w with data := w.data ++ List.replicate (ofs - w.data.length) 0 ++ bs }
  else s.wrAt (port := 5) t (w.addr + ofs) bs false

/-- No buffer is to be had: the stream or job stops in OUT_OF_SPACE (R262, R265, R273). -/
def State.wStop (s : State) (t q : Nat) (bad : Bool) : State :=
  if q < 4 then
    let s := s.setF t (CS_STAT_STATE q) 2
    let s := s.when bad fun s => s.setB t (CS_STAT_CMD_ERR q) true
    s.raise t 129
  else s.setF t (CJ_STAT_STATE (q - 4)) 6

/-- Words of a list that fit in n bits, and the rest. -/
def fitWords : Nat → List (Nat × Nat) → List (Nat × Nat) × List (Nat × Nat)
  | _, [] => ([], [])
  | n, (v, w) :: l => if w ≤ n then let r := fitWords (n - w) l; ((v, w) :: r.1, r.2) else ([], (v, w) :: l)

/-- Note where a part of the slab in hand begins (R267). -/
def State.markHand (s : State) (t q : Nat) : State :=
  match s.hand t q with
  | none => s
  | some h =>
    let w := s.wr_ t q
    s.setHand t q (some { h with marks := h.marks ++ [{ at_ := w.base + 32 * w.desc, own := w.own, bitPos := w.bitPos, first := w.first, evt := w.evt, poison := w.poison }] })

/-- Place the header of the slab in hand (R263). The flag says that it stands in a buffer. -/
def State.placeHeader (s : State) (t q fcnt : Nat) : State × Bool :=
  match s.hand t q with
  | none => (s, false)
  | some h =>
    if !h.header then (s, true)
    else
      let w := s.wr_ t q
      let s := if w.inBuf ∧ w.len * 8 < w.bitPos + 64 then s.wRelease t q w.bitPos false else s
      let (s, ok, bad) := s.wOpen t q
      if !ok then (s.wStop t q bad, false)
      else
        let s := s.markHand t q
        let w := s.wr_ t q
        let ofs := w.bitPos / 8
        let s := s.wBytes t q ofs (h.slab.header h.last)
        let w := s.wr_ t q
        let s := s.setWr t q { w with bitPos := w.bitPos + 64, poison := w.poison || h.slab.damaged, first := if w.first.isSome then w.first else some (ofs / 8, fcnt, h.slab.job.row) }
        let h := (s.hand t q).getD {}
        let s := s.setHand t q (some { h with header := false })
        let s := s.when (q < 4) fun s =>
          let c := s.crs t q
          s.setCrs t q { c with frames := c.frames.map fun f =>
            if f.fid = h.slab.job.fid ∧ f.place.isNone then { f with place := some (w.chain, w.desc, ofs) } else f }
        (s, true)

/-- Place the code words of the slab in hand that remain (R263). The flag says that all of them stand in buffers. -/
def State.placeWords (s : State) (t q : Nat) : Nat → State × Bool
  | 0 => (s, false)
  | n + 1 =>
    match s.hand t q with
    | none => (s, false)
    | some h =>
      if h.words.isEmpty then
        let w := s.wr_ t q
        (s.setWr t q { w with bitPos := (w.bitPos + 63) / 64 * 64 }, true)
      else
        let fresh := !(s.wr_ t q).inBuf
        let (s, ok, bad) := s.wOpen t q
        if !ok then (s.wStop t q bad, false)
        else
          let s := if fresh then s.markHand t q else s
          let w := s.wr_ t q
          let h := (s.hand t q).getD h
          let (fit, rest) := fitWords (w.len * 8 - w.bitPos) h.words
          let ofs := w.bitPos / 8
          let room := w.len - ofs
          let n8 := if rest.isEmpty then ((wordBits fit + 63) / 64 * 8) else room
          let bs := packWords fit
          let s := if n8 = 0 then s else s.wBytes t q ofs (bs ++ List.replicate (n8 - bs.length) 0)
          let w := s.wr_ t q
          let s := s.setWr t q { w with bitPos := w.bitPos + wordBits fit, poison := w.poison || (h.slab.damaged && !fit.isEmpty) }
          let s := s.setHand t q (some { h with words := rest })
          if rest.isEmpty then
            let w := s.wr_ t q
            (s.setWr t q { w with bitPos := (w.bitPos + 63) / 64 * 64 }, true)
          else (s.wRelease t q (w.bitPos + wordBits fit) true).placeWords t q n

/-- Place what remains of the slab in hand; the flag says that it is placed whole. -/
def State.placeHand (s : State) (t q fcnt : Nat) : State × Bool :=
  let n := match s.hand t q with
    | some h => h.words.length
    | none => 0
  let (s, ok) := s.placeHeader t q fcnt
  if ok then s.placeWords t q (n + 2) else (s, false)

/-- Give up the slab in hand (R267): every part of it becomes padding, its buffers released with END_BIT before it; those that REC supplied
go to REC so. -/
def State.dropHand (s : State) (t q : Nat) : State :=
  match s.hand t q with
  | none => s
  | some h =>
    let s := s.each (h.marks.filter fun m => !m.own) fun s m =>
      (s.wrAt (port := 5) t (m.at_ + 16) (writeBack m.bitPos m.first false m.poison) false).when m.evt fun s => s.raise t 128
    let s := s.each ((h.marks.filter (·.own)).zip h.held) fun s (m, u) =>
      s.recFeed t 0 q { u with payload := writeBack m.bitPos m.first false m.poison ++ (u.payload.drop 16).take ((m.bitPos + 7) / 8) }
    s.setHand t q none

/-- The slab in hand is placed whole: the buffers it has filled go to REC. -/
def State.handDone (s : State) (t q : Nat) : State :=
  match s.hand t q with
  | none => s
  | some h => (s.each h.held fun s u => s.recFeed t 0 q u).setHand t q (some { h with held := [] })

/-! ### Frame records and levels -/

/-- Slabs of a stream that are not wholly placed. -/
def CrStream.slabs (c : CrStream) : List SlabJob :=
  c.jobs ++ c.lanes ++ c.done.map (·.job) ++ match c.hand with
    | some h => [h.slab.job]
    | none => []

/-- The frame in flight at the writer: that of the slab in hand, else of the oldest slab, else the one being taken (R20). -/
def CrStream.writing (c : CrStream) : Option Nat :=
  match c.hand, c.slabs.map (·.fid) with
  | some h, _ => some h.slab.job.fid
  | none, a :: l => some (l.foldl min a)
  | none, [] => c.taking

/-- Rows of a stream that the input store holds, as (frame, row, samples): those with a slab no lane has taken. -/
def CrStream.rowsHeld (c : CrStream) : List (Nat × Nat) := (c.jobs.map fun j => (j.fid, j.row)).eraseDups

/-- Bytes of the input store that a stream holds (R268): a row of w samples takes 2w + 64. -/
def State.inqBytes (s : State) (t k : Nat) : Nat :=
  let c := s.crs t k
  c.rowsHeld.foldl (fun a r => a + 2 * (s.crFrame t k r.1).hdr.sw + 64) 0

/-- Bring CSs_STAT.QUEUED and CSs_INLVL up to date. -/
def State.crSync (s : State) (t k : Nat) : State :=
  (s.setF t (CS_STAT_QUEUED k) (s.crs t k).chains.length).setF t (CS_INLVL_KIB k) ((s.inqBytes t k + 1023) / 1024)

/-- Write a frame record into slot NEXT (R270). The place of a frame without a slab is a free value. -/
def State.crRecord (s : State) (t k : Nat) (f : CrFrame) (cancelled : Bool) (extra : Nat) : State :=
  let st := if s.marking t 11 then orBit f.status stDamaged else f.status
  let (v, s) := s.fresh
  let (ch, de, of_) := f.place.getD (v % 2 ^ 32, v / 2 ^ 32 % 512, v / 2 ^ 41)
  let rec_ := leBytes 4 f.hdr.cnt ++ leBytes 4 (st ||| extra) ++ leBytes 8 f.hdr.n ++
    leBytes 4 (f.rows % 0x10000 + b2n f.trunc * 0x10000 + b2n f.dropped * 0x20000 + b2n cancelled * 0x40000 + b2n f.damaged * 0x80000) ++
    leBytes 4 ch ++ leBytes 4 (de % 512) ++ leBytes 4 of_
  let n := s.f t (CS_FREC_NEXT_NEXT k)
  let s := s.wrAt (port := 5) t (f.ring.1 + 32 * n) rec_ false
  s.setF t (CS_FREC_NEXT_NEXT k) (if f.ring.2 ≤ n then 0 else n + 1)

/-- Record the frames at the front of the list that are closed and have no slab left (R270). -/
def State.crClose (s : State) (t k : Nat) : Nat → State
  | 0 => s
  | n + 1 =>
    let c := s.crs t k
    match c.frames with
    | f :: l =>
      if f.closed ∧ ¬ c.slabs.any (·.fid = f.fid) then
        ((s.setCrs t k { c with frames := l }).crRecord t k f false 0).crClose t k n
      else s
    | [] => s

/-- A stream that is disabled and has nothing left stops: its buffer is released, it is IDLE (R264). -/
def State.crStopped (s : State) (t k : Nat) : State :=
  let c := s.crs t k
  if s.aOn t (CS_CFG_EN k) ∨ c.slabs ≠ [] ∨ c.frames ≠ [] then s
  else (s.wRelease t k (s.wr_ t k).bitPos false).setF t (CS_STAT_STATE k) 0

/-! ### Input -/

/-- What a stream's exchange brings: enabling starts it with chain 0, disabling stops it. -/
def State.crExchanged (s : State) (t k : Nat) : State :=
  match s.takeExchange t 11 k with
  | (s, none) => s
  | (s, some old) =>
    if s.aOn t (CS_CFG_EN k) then
      if bit (old.getD 0 0) 0 then s
      else
        let c := s.crs t k
        (s.setCrs t k { c with chainNo := if c.w.inBuf ∨ (c.w.haveChain ∧ c.w.desc < c.w.count) then 1 else 0, w := { c.w with chain := 0 } }).setF t (CS_STAT_STATE k) 1
    else s.crStopped t k

/-- A frame opens at a stream (R44, R267, R268). -/
def State.crOpen (s : State) (t k : Nat) (f : FrameHdr) : State :=
  if s.stale t 11 then s.refuseFrame t
  else
    let s := (s.beginSec t 11 k f).crExchanged t k
    if !s.aOn t (CS_CFG_EN k) then s.endSec t 11 k
    else
      let c := s.crs t k
      let empty := c.jobs.isEmpty
      let wait := s.f t (CS_STAT_STATE k) = 3
      let pass := (wait && (!empty || (c.chains.isEmpty && !s.rawRec t k))) || (c.dropping && !empty)
      let s := s.when (wait && !pass) fun s => s.setF t (CS_STAT_STATE k) 1
      let x : CrFrame := {
        fid := c.nextFid, hdr := f, status := f.status, b := f.tapBits, d := f.tapPitch, slabW := s.a t (CS_CFG_SLAB_W k)
        rst := s.a t (CS_RST_RST_ROWS k), dropped := pass, ended := pass, closeAt := s.aOn t (CS_CFG_CLOSE_AT_FRAME k)
        ring := (s.a64 t (CS_FREC_LO k), s.a t (CS_FREC_N_NREC k)) }
      s.setCrs t k { c with frames := c.frames ++ [x], taking := some c.nextFid, nextFid := c.nextFid + 1, prev := [], dropping := c.dropping && pass }

/-- The slabs of a row (R253). -/
def slabRow (f : CrFrame) (seq y : Nat) (px above : List Nat) : List SlabJob :=
  let n := (px.length + f.slabW - 1) / f.slabW
  (List.range n).map fun i =>
    { seq := seq + i, fid := f.fid, row := y, idx := i, n := n, b := f.b, d := f.d, restart := restartRow y f.d f.rst
      px := (px.drop (i * f.slabW)).take f.slabW, above := (above.drop (i * f.slabW)).take f.slabW }

/-- Change a frame of a stream. -/
def State.crUpd (s : State) (t k fid : Nat) (g : CrFrame → CrFrame) : State :=
  let c := s.crs t k
  s.setCrs t k { c with frames := c.frames.map fun f => if f.fid = fid then g f else f }

/-- A row enters the input store, or is dropped with the rest of its frame (R268). -/
def State.crRow (s : State) (t k y : Nat) (px : List Nat) : State :=
  let c := s.crs t k
  match c.taking with
  | none => s
  | some fid =>
    let f := s.crFrame t k fid
    if f.ended then s
    else if s.a t (CS_INQ_QUOTA k) * 1024 < s.inqBytes t k + 2 * px.length + 64 then
      let s := s.crUpd t k fid fun f => { f with ended := true, trunc := true }
      let s := s.setCrs t k { s.crs t k with dropping := true }
      (s.setB t (CS_STAT_DROP k) true).raise t 130
    else
      let above := ((c.prev.find? (·.1 + f.d = y)).map (·.2)).getD []
      let l := slabRow f c.nextSeq y px above
      let c := { c with jobs := c.jobs ++ l, nextSeq := c.nextSeq + l.length, prev := (y, px) :: c.prev.take 1 }
      ((s.setCrs t k c).sramWritten t 8).crUpd t k fid fun f => { f with rowsIn := y + 1 }

/-- CRUSH_ROW_IN: the next item of the raw tap (R268). -/
def State.crRowIn (s : State) (t k : Nat) : State :=
  match smGet s.pix.tap (tk t k) [] with
  | [] => s
  | i :: l =>
    let s := { s with pix.tap := smPut s.pix.tap (tk t k) l [] }
    let s := match i with
      | .openF f => s.crOpen t k f
      | .row y px _ => s.crRow t k y px
      | .closeF st =>
        match (s.crs t k).taking with
        | none => s
        | some fid =>
          let s := s.crUpd t k fid fun f => { f with ended := true, closed := true, status := st ||| f.status }
          (s.setCrs t k { s.crs t k with taking := none }).endSec t 11 k
    ((s.crClose t k 65536).crExchanged t k).crSync t k

/-! ### Lanes and the writer -/

/-- The tile's coding lanes (R269). -/
def crLanes : Nat := 48

/-- Lanes that streams hold, each with a slab being coded, finished or in hand (R265, R269). -/
def State.lanesHeld (s : State) (t : Nat) : Nat :=
  (List.range 4).foldl (fun a k => a + (s.crs t k).lanes.length + (s.crs t k).done.length + b2n (s.crs t k).hand.isSome) 0

/-- Lanes of offline jobs that wait for space with a slab (R265, R273). -/
def State.jobLanes (s : State) (t : Nat) : Nat := (List.range 4).foldl (fun a j => a + b2n (s.crj t j).hand.isSome) 0

/-- CRUSH_SLAB_START: a lane of the stream's quota takes the oldest slab (R265, R269). -/
def State.crStart (s : State) (t k : Nat) : State :=
  let c := s.crs t k
  match c.jobs with
  | [] => s
  | j :: l =>
    let used := c.lanes.length + c.done.length + b2n c.hand.isSome
    if used < s.a t (CS_CFG_LANES k) ∧ s.lanesHeld t + s.jobLanes t < crLanes then (s.setCrs t k { c with jobs := l, lanes := c.lanes ++ [j] }).crSync t k else s

/-- CRUSH_SLAB_DONE: the lane with slab i of those being coded finishes (R261). A frame's first slab with a poisoned sample
raises EV_CRUSH_DAMAGED_IN. -/
def State.crDone (s : State) (t k i : Nat) : State :=
  let c := s.crs t k
  match c.lanes[i]? with
  | none => s
  | some j =>
    let x := codeSlab j
    let s := s.setCrs t k { c with lanes := c.lanes.eraseIdx i, done := c.done ++ [x] }
    if x.damaged ∧ ¬ (s.crFrame t k j.fid).damaged then (s.crUpd t k j.fid fun f => { f with damaged := true }).raise t 131 else s

/-- Whether a slab is the last of its frame, where that is known (R259, R274). -/
def slabLast (f : CrFrame) (j : SlabJob) : Option Bool :=
  if j.idx + 1 < j.n ∨ j.row + 1 < f.rowsIn then some false
  else if f.hdr.h ≤ j.row + 1 ∨ f.ended then some true
  else none

/-- The slab in hand of a stream is placed: rows written, buffer closed at the frame's end, record (R264, R270). -/
def State.crPlaced (s : State) (t k : Nat) : State :=
  match s.hand t k with
  | none => s
  | some h =>
    let j := h.slab.job
    let s := s.when (j.idx + 1 == j.n) fun s => s.crUpd t k j.fid fun f => { f with rows := f.rows + 1 }
    let s := s.handDone t k
    let s := s.when (h.last && (s.crFrame t k j.fid).closeAt) fun s => s.wRelease t k (s.wr_ t k).bitPos false
    let s := s.setHand t k none
    ((s.crClose t k 65536).crStopped t k).crSync t k

/-- Continue the slab in hand of a stream. -/
def State.crContinue (s : State) (t k : Nat) : State :=
  match s.hand t k with
  | none => s
  | some h =>
    let (s, ok) := s.placeHand t k (s.crFrame t k h.slab.job.fid).hdr.cnt
    if ok then s.crPlaced t k else s.crSync t k

/-- A slab of a frame whose data crossing 5 discards is not written (R20); the buffer is still closed at the frame's end. -/
def State.crDiscard (s : State) (t k : Nat) (x : Slab) (last : Bool) : State :=
  let c := s.crs t k
  let s := s.setCrs t k { c with done := c.done.filter (·.job.seq ≠ x.job.seq) }
  let s := s.when (last && (s.crFrame t k x.job.fid).closeAt) fun s => s.wRelease t k (s.wr_ t k).bitPos false
  ((s.crClose t k 65536).crStopped t k).crSync t k

/-- The writer of a stream takes its next slab in order of frame, row and index, if its lane has finished it (R263). -/
def State.crPlace (s : State) (t k : Nat) : State :=
  let c := s.crs t k
  match c.slabs.foldl (fun (a : Option Nat) j => some (match a with
      | some m => min m j.seq
      | none => j.seq)) none with
  | none => s
  | some m =>
    match c.done.find? (·.job.seq = m) with
    | none => s
    | some x =>
      match slabLast (s.crFrame t k x.job.fid) x.job with
      | none => s
      | some last =>
        if (s.crFrame t k x.job.fid).lost then s.crDiscard t k x last
        else
        let s := s.setDiscard t 5 k false
        let s := s.setCrs t k { c with done := c.done.filter (·.job.seq ≠ m), hand := some { slab := x, last := last, words := x.words } }
        s.crContinue t k

/-! ### Commands to a stream -/

/-- CSs_CMD.APPEND (R265, R276). -/
def State.crAppend (s : State) (t k : Nat) : State :=
  let c := s.crs t k
  if 4 ≤ c.chains.length ∨ s.rawRec t k then s.setB t (CS_STAT_CMD_ERR k) true
  else (s.setCrs t k { c with chains := c.chains ++ [(s.reg64 t (CS_APPEND_LO k), s.f t (CS_APPEND_N_COUNT k))] }).crSync t k

/-- CSs_CMD.RESUME (R266). -/
def State.crResume (s : State) (t k : Nat) : State :=
  let c := s.crs t k
  let fed := c.chains ≠ [] ∨ (s.rawRec t k ∧ recBufNeed ≤ s.stgRoom t)
  if s.f t (CS_STAT_STATE k) = 2 ∧ fed then
    let s := (s.setF t (CS_STAT_STATE k) 1).setCrs t k { c with w := { c.w with haveChain := false } }
    s.crContinue t k
  else s.setB t (CS_STAT_CMD_ERR k) true

/-- CSs_CMD.CANCEL in OUT_OF_SPACE (R267). -/
def State.crCancel (s : State) (t k : Nat) : State :=
  if s.f t (CS_STAT_STATE k) ≠ 2 then s
  else
    let c := s.crs t k
    let fid := match c.hand with
      | some h => some h.slab.job.fid
      | none => none
    let s := s.dropHand t k
    let c := s.crs t k
    let s := s.setCrs t k { c with
      jobs := [], lanes := [], done := [], prev := []
      taking := if c.taking = fid then none else c.taking
      frames := (c.frames.filter fun f => some f.fid ≠ fid).map fun f => { f with dropped := true, ended := true } }
    let s := match c.frames.find? fun f => some f.fid = fid with
      | some f => s.crRecord t k f true 0
      | none => s
    let s := s.when (c.taking.isSome && c.taking == fid) fun s => s.endSec t 11 k
    (((s.setF t (CS_STAT_STATE k) 3).crClose t k 65536).crStopped t k).crSync t k

/-! ### Offline jobs -/

/-- The states in which a job runs or could run on. -/
def State.cjState (s : State) (t j : Nat) : Nat := s.f t (CJ_STAT_STATE j)

def State.cjB (s : State) (t j : Nat) : Nat := 8 + 2 * s.f t (CJ_CTL_BITS j)

def State.cjD (s : State) (t j : Nat) : Nat := if s.on t (CJ_CTL_MONO j) then 1 else 2

/-- The job ends in a state; its buffer is released (R264) and it leaves the arbiter. -/
def State.cjEnd (s : State) (t j st : Nat) : State :=
  let s := s.wRelease t (4 + j) (s.wr_ t (4 + j)).bitPos false
  let s := (s.setF t (CJ_STAT_STATE j) st).arbRemove 5 t j
  s.when (st == 3) fun s => s.raise t 133

/-- The chain that the job's registers name. -/
def State.cjChain (s : State) (t j : Nat) : Writer :=
  { base := s.reg64 t (CJ_CHAIN_LO j), count := s.f t (CJ_CHAIN_N_COUNT j), haveChain := true }

/-- CJj_CTL.START (R271, R464): the job goes to the arbiter; a reserved BITS or a running job leaves it ignored. -/
def State.cjStart (s : State) (t j : Nat) : State :=
  let st := s.cjState t j
  if st = 1 ∨ st = 2 ∨ st = 6 ∨ (s.arbFind 5 t j).isSome ∨ 4 < s.f t (CJ_CTL_BITS j) then s
  else s.arbUnit 5 t j 1 false

/-- The arbiter admits the job: it starts from its first frame, or continues where it was suspended. -/
def State.cjBegin (s : State) (t j : Nat) (resume : Bool) : State :=
  let s := s.setF t (CJ_STAT_STATE j) 1
  if resume then s
  else
    let s := s.setF t (CJ_STAT_FRAMES_DONE j) 0
    let s := s.each [CJ_ERR j, CJ_ERR_OFS j, CJ_ERR_FCNT j, CJ_ERR_ROW j, CJ_DAMAGED j, CJ_FAILED j, CJ_NOTDEC j] fun s r => s.setReg t r 0
    s.setCrj t j { w := s.cjChain t j }

/-- CJj_CTL.SUSPEND (R273, R468). -/
def State.cjSuspend (s : State) (t j : Nat) : State :=
  let s := s.when (s.cjState t j == 1) fun s => s.setF t (CJ_STAT_STATE j) 2
  if s.cjState t j = 6 then s else s.arbRemove 5 t j

/-- CJj_CTL.CANCEL (R273). -/
def State.cjCancel (s : State) (t j : Nat) : State :=
  let st := s.cjState t j
  if st = 1 ∨ st = 2 ∨ st = 6 ∨ (s.arbFind 5 t j).isSome then (s.dropHand t (4 + j)).cjEnd t j 4 else s

/-- A frame of a job is finished; after the last the job is DONE. -/
def State.cjFrameDone (s : State) (t j : Nat) : State :=
  let n := s.f t (CJ_STAT_FRAMES_DONE j) + 1
  let s := s.setF t (CJ_STAT_FRAMES_DONE j) n
  if s.f t (CJ_NFRM_FRAMES j) ≤ n then s.cjEnd t j 3 else s

/-- Move to the slab after one of n samples: next column, row, frame. -/
def State.cjNext (s : State) (t j n : Nat) : State :=
  let x := s.crj t j
  let h := s.f t (CJ_GEOM_H j)
  if x.col + n < s.f t (CJ_GEOM_W j) then s.setCrj t j { x with col := x.col + n, slab := x.slab + 1 }
  else if x.row + 1 < h then s.setCrj t j { x with col := 0, slab := 0, row := x.row + 1 }
  else (s.setCrj t j { x with col := 0, slab := 0, row := 0, frame := x.frame + 1, fcnt := (x.fcnt + 1) % 2 ^ 32, prev := [], failed := [] }).cjFrameDone t j

/-- The address of a sample of a job's frames (R271). -/
def State.cjAddr (s : State) (t j f r x : Nat) : Nat :=
  s.reg64 t (CJ_FRM_LO j) + f * s.f t (CJ_FBYTES_FBYTES j) + r * s.f t (CJ_STRIDE_STRIDE j) + 2 * x

/-- Samples of a frame in memory; a poisoned word flags its samples (R261). -/
def State.cjRead (s : State) (t j f r x : Nat) : Nat → State × List Nat
  | 0 => (s, [])
  | n + 1 =>
    let (s, v, p) := s.rdNumAt t (s.cjAddr t j f r x) 2 5
    let (s, l) := s.cjRead t j f r (x + 1) n
    (s, (v % 2 ^ s.cjB t j + if p then flagPoison else 0) :: l)

/-- The slab in hand of a COMPRESS job is placed. -/
def State.cjPlaced (s : State) (t j : Nat) : State :=
  match s.hand t (4 + j) with
  | none => s
  | some h =>
    let s := s.when h.slab.damaged fun s => s.addF t (CJ_DAMAGED_COUNT j) 1
    (s.setHand t (4 + j) none).cjNext t j h.slab.job.px.length

def State.cjContinue (s : State) (t j : Nat) : State :=
  let (s, ok) := s.placeHand t (4 + j) (s.crj t j).frame
  if ok then s.cjPlaced t j else s

/-- A COMPRESS job reads, codes and places its next slab in a lane that no stream holds (R269, R271). -/
def State.cjCompress (s : State) (t j : Nat) : State :=
  if s.cjState t j ≠ 1 ∨ s.f t (CJ_CTL_MODE j) ≠ 0 ∨ crLanes ≤ s.lanesHeld t then s
  else
    let w := s.f t (CJ_GEOM_W j)
    let h := s.f t (CJ_GEOM_H j)
    if w = 0 ∨ h = 0 ∨ s.f t (CJ_NFRM_FRAMES j) = 0 then s.cjEnd t j 3
    else
      let x := s.crj t j
      let n := min (max 1 (s.f t (CJ_SLAB_SLAB_W j))) (w - x.col)
      let d := s.cjD t j
      let restart := restartRow x.row d (s.f t (CJ_SLAB_RST_ROWS j))
      let (s, px) := s.cjRead t j x.frame x.row x.col n
      let (s, above) := if restart then (s, []) else s.cjRead t j x.frame (x.row - d) x.col n
      let job : SlabJob := { row := x.row, idx := x.slab, b := s.cjB t j, d := d, restart := restart, px := px, above := above }
      let y := codeSlab job
      let s := s.setHand t (4 + j) (some { slab := y, last := x.row + 1 == h && x.col + n == w, words := y.words })
      s.cjContinue t j

/-- CRUSH_SLAB_PLACE: the writer of a stream (k below 4) or of a COMPRESS job (k from 4) places its next slab. A stream out of
space whose buffers REC supplies goes on when the ring has room again (log 22). -/
def State.slabPlace (s : State) (t k : Nat) : State :=
  if 4 ≤ k then s.cjCompress t (k - 4)
  else if s.f t (CS_STAT_STATE k) = 1 then s.crPlace t k
  else if s.f t (CS_STAT_STATE k) = 2 ∧ s.rawRec t k ∧ recBufNeed ≤ s.stgRoom t then s.crResume t k
  else s

/-! ### The decoder -/

/-- A decoded string of the dictionary. -/
abbrev LzwDict := List (Nat × List Nat)

/-- The string of a code word. -/
def lzwString (dict : LzwDict) (c : Nat) : List Nat := if c < 256 then [c] else (dict.lookup c).getD []

/-- Decode code words from `n` bits left of the number v (R256, R257): the bytes, or the error of R272. k counts code
words since the slab began or the last CLEAR; prev is the string before. -/
def lzwDecode (want : Nat) : Nat → Nat → Nat → Nat → List Nat → LzwDict → List Nat → Except Nat (List Nat)
  | 0, _, _, _, _, _, _ => .error 4
  | fuel + 1, v, n, k, prev, dict, out =>
    let w := codeWidth k
    if n < w then .error 4
    else
      let c := v % 2 ^ w
      let v := v / 2 ^ w
      let n := n - w
      if k = 1 then
        if c < 256 then lzwDecode want fuel v n 2 [c] [] (out ++ [c]) else .error 3
      else if c = 256 then lzwDecode want fuel v n 1 [] [] out
      else if c = 257 then
        if n ≠ 0 then .error 4 else if out.length = want then .ok out else .error 5
      else if 258 ≤ c ∧ min 4095 (256 + k) < c then .error 3
      else
        let own := prev ++ prev.take 1
        let str := if c = 256 + k then own else lzwString dict c
        let dict := if 256 + k ≤ 4095 then (256 + k, prev ++ str.take 1) :: dict else dict
        lzwDecode want fuel v n (k + 1) str dict (out ++ str)

/-- Little-endian residuals from bytes. -/
def residualsOf (nb : Nat) : Nat → List Nat → List Nat
  | 0, _ => []
  | n + 1, l => leNum (l.take nb) :: residualsOf nb n (l.drop nb)

/-- Restore the samples of a slab from its residuals (R255). -/
def restoreSlab (j : SlabJob) : List Nat → List Nat → List Nat
  | px, [] => px
  | px, m :: l => restoreSlab j (px ++ [restore j.b (predictAt j px px.length) m]) l

/-- Samples of a RAW payload. -/
def rawSamples (b : Nat) : Nat → Nat → List Nat
  | 0, _ => []
  | n + 1, v => v % 2 ^ b :: rawSamples b n (v / 2 ^ b)

/-- A descriptor of the chain a job decodes: address, END_BIT, and the word at 0x14 with FCNT and ROW; none where it breaks
R262 or is not DONE. -/
def State.cjDesc (s : State) (t j i : Nat) : State × Option (Nat × Nat × Nat × Nat × Nat) :=
  let base := s.reg64 t (CJ_CHAIN_LO j)
  let (s, l, p) := s.rdAt t (base + 32 * i) 32 5
  let addr := leNum (l.take 8)
  let len := leNum ((l.drop 8).take 4)
  let w := leNum ((l.drop 20).take 4)
  let e := leNum ((l.drop 16).take 4)
  if !p && descOk base addr len (leNum ((l.drop 12).take 4)) 0 && bit w 25 && e ≤ 8 * len then
    (s, some (addr, e, w, leNum ((l.drop 24).take 4), leNum ((l.drop 28).take 2)))
  else (s, none)

/-- Gather n payload bits from the chain (R260): the bits, whether a poisoned word was read, whether the chain ended. The
state holds the place after them. -/
def State.cjGather (s : State) (t j : Nat) : Nat → Nat → Nat → Nat → Bool → State × Nat × Bool × Bool
  | 0, _, v, _, p => (s, v, p, true)
  | fuel + 1, n, v, sh, p =>
    if n = 0 then (s, v, p, false)
    else
      let x := s.crj t j
      if s.f t (CJ_CHAIN_N_COUNT j) ≤ x.desc then (s, v, p, true)
      else match s.cjDesc t j x.desc with
        | (s, none) => (s, v, p, true)
        | (s, some (addr, e, _)) =>
          let take := min n (e - x.bitPos)
          let first := x.bitPos / 8
          let (s, l, q) := if take = 0 then (s, [], false) else s.rdAt t (addr + first) ((x.bitPos % 8 + take + 7) / 8) 5
          let part := leNum l / 2 ^ (x.bitPos % 8) % 2 ^ take
          let s := s.setCrj t j (if take < n then { s.crj t j with desc := x.desc + 1, bitPos := 0 } else { s.crj t j with bitPos := x.bitPos + take })
          s.cjGather t j fuel (n - take) (v + part * 2 ^ sh) (sh + take) (p || q)

/-- The number of slabs in a row of a job. -/
def State.cjSlabs (s : State) (t j : Nat) : Nat :=
  let w := max 1 (s.f t (CJ_SLAB_SLAB_W j))
  max 1 ((s.f t (CJ_GEOM_W j) + w - 1) / w)

/-- Key of a slab of the last rows. -/
def cjKey (row slab : Nat) : Nat := 65536 * (row % 4) + slab

/-- Slab i of row y was not decoded. -/
def State.cjFail (s : State) (t j row slab : Nat) : State :=
  let x := s.crj t j
  s.setCrj t j { x with failed := smPut x.failed (cjKey row slab) true false }

/-- Report an error (R272): the first error's place, counters, event, STOP_ON_ERR. The flag says that the job goes on. -/
def State.cjError (s : State) (t j code desc ofs : Nat) : State × Bool :=
  let x := s.crj t j
  let s := if x.errSeen then s
    else
      let s := s.setReg t (CJ_ERR j) (code + desc % 512 * 16 + x.slab % 2 ^ 19 * 2 ^ 13)
      let s := s.setReg t (CJ_ERR_OFS j) ofs
      let s := s.setReg t (CJ_ERR_FCNT j) x.fcnt
      (s.setReg t (CJ_ERR_ROW j) x.row).setCrj t j { x with errSeen := true }
  let s := s.addF t (if code = 7 then CJ_NOTDEC_COUNT j else CJ_FAILED_COUNT j) 1
  let s := (s.raise t 132).cjFail t j x.row x.slab
  if s.on t (CJ_CTL_STOP_ON_ERR j) then (s.cjEnd t j 3, false) else (s, true)

/-- Pass over slabs up to a place, none of them decoded. -/
def State.cjSkip (s : State) (t j : Nat) : Nat → Nat → Nat → Nat → Nat → State
  | 0, _, _, _, _ => s
  | fuel + 1, f, row, slab, first =>
    let x := s.crj t j
    if s.cjState t j ≠ 1 ∨ f < x.frame ∨ (f = x.frame ∧ (row < x.row ∨ (row = x.row ∧ slab ≤ x.slab))) then s
    else
      let s := if first = 0 then (s.addF t (CJ_NOTDEC_COUNT j) 1).cjFail t j x.row x.slab else s
      (s.cjNext t j (min (max 1 (s.f t (CJ_SLAB_SLAB_W j))) (s.f t (CJ_GEOM_W j) - x.col))).cjSkip t j fuel f row slab 0

/-- From descriptor d on, resume at the first header of the next buffer that has one, placing it by the buffer's FCNT and ROW (R272);
without one in the chain the job is out of space, and the next chain is searched. The slab index of that header, which no descriptor
holds, is a free value below the slabs of a row. -/
def State.cjSeek (s : State) (t j d : Nat) : Nat → State
  | 0 => s.setF t (CJ_STAT_STATE j) 6
  | fuel + 1 =>
    let x := s.crj t j
    let s := s.setCrj t j { x with desc := d, bitPos := 0, resync := true }
    if s.f t (CJ_CHAIN_N_COUNT j) ≤ d then s.setF t (CJ_STAT_STATE j) 6
    else match s.cjDesc t j d with
      | (s, none) => s.setF t (CJ_STAT_STATE j) 6
      | (s, some (_, _, w, cnt, row)) =>
        if bit w 28 then s.cjSeek t j (d + 1) fuel
        else
          let (v, s) := s.fresh
          let n := s.cjSlabs t j
          let f := x.frame + (cnt + 2 ^ 32 - x.fcnt) % 2 ^ 32
          let s := s.cjSkip t j ((f - x.frame + 1) * (s.f t (CJ_GEOM_H j) + 1) * n) f row (v % n) 1
          s.setCrj t j { s.crj t j with desc := d, bitPos := w % 2 ^ 25 * 64, fcnt := cnt, resync := false }

/-- After an error that leaves the length unknown (R272). -/
def State.cjResync (s : State) (t j : Nat) : State := s.cjSeek t j ((s.crj t j).desc + 1) 257

/-- CJj_CTL.RESUME (R266, R273, R468): a suspended job goes back to the arbiter; one out of space continues in the chain its
registers name. -/
def State.cjResume (s : State) (t j : Nat) : State :=
  let st := s.cjState t j
  if st = 2 ∧ (s.arbFind 5 t j).isNone then s.arbUnit 5 t j 1 true
  else if st = 6 then
    let x := s.crj t j
    let s := (s.setCrj t j { x with w := s.cjChain t j, desc := 0, bitPos := 0 }).setF t (CJ_STAT_STATE j) 1
    if x.hand.isSome then s.cjContinue t j else if x.resync then s.cjSeek t j 0 257 else s
  else s

/-- Go to the next header: the next 8-byte boundary of the buffer, or the next buffer that has a header (R263). The
descriptor is delivered with the state, none at the chain's end. -/
def State.cjHeader (s : State) (t j : Nat) : Nat → State × Option (Nat × Nat × Nat × Nat × Nat)
  | 0 => (s, none)
  | fuel + 1 =>
    let x := s.crj t j
    if s.f t (CJ_CHAIN_N_COUNT j) ≤ x.desc then (s, none)
    else match s.cjDesc t j x.desc with
      | (s, none) => (s, none)
      | (s, some de) =>
        let pos := (x.bitPos + 63) / 64 * 64
        if de.2.1 < pos + 64 then (s.setCrj t j { x with desc := x.desc + 1, bitPos := 0 }).cjHeader t j fuel
        else
          let fc := if !bit de.2.2.1 28 ∧ de.2.2.1 % 2 ^ 25 * 64 = pos then de.2.2.2.1 else x.fcnt
          (s.setCrj t j { x with bitPos := pos, fcnt := fc }, some de)

/-- Write the samples of a slab to a job's frame (R271). -/
def State.cjStore (s : State) (t j : Nat) (px : List Nat) : State :=
  let x := s.crj t j
  if s.f t (CJ_CTL_MODE j) = 1 then s.wrAt (port := 5) t (s.cjAddr t j x.frame x.row x.col) (px.flatMap (leBytes 2)) false else s

/-- CRUSH_DECODE_SLAB: an offline job in mode DECOMPRESS or CHECK decodes and checks its next slab (R271, R272). -/
def State.cjDecode (s : State) (t j : Nat) : State :=
  let mode := s.f t (CJ_CTL_MODE j)
  let w := s.f t (CJ_GEOM_W j)
  let h := s.f t (CJ_GEOM_H j)
  if s.cjState t j ≠ 1 ∨ (mode ≠ 1 ∧ mode ≠ 2) ∨ crLanes ≤ s.lanesHeld t then s
  else if w = 0 ∨ h = 0 ∨ s.f t (CJ_NFRM_FRAMES j) = 0 then s.cjEnd t j 3
  else match s.cjHeader t j 257 with
    | (s, none) => s.setF t (CJ_STAT_STATE j) 6
    | (s, some (addr, _)) =>
      let x := s.crj t j
      let b := s.cjB t j
      let d := s.cjD t j
      let ofs := x.bitPos / 8
      let (s, hb, hp) := s.rdAt t (addr + ofs) 8 5
      let v := leNum hb
      let raw := bit v 0
      let n := bits v 12 13
      let cb := bits v 25 17
      let lost := fun (s : State) code =>
        let (s, go) := s.cjError t j code x.desc ofs
        if go then s.cjResync t j else s
      if hp then lost s 6
      else if bits v 5 3 ≠ 0 ∨ bits v 42 6 ≠ 0 ∨ bits v 8 3 ≠ bitsCode b ∨ bit v 11 != (d == 1) ∨ n = 0 ∨ w < x.col + n ∨ (raw ∧ cb ≠ n * b) then lost s 2
      else
        let (s, pay, pp, cut) := (s.setCrj t j { x with bitPos := x.bitPos + 64 }).cjGather t j 257 cb 0 0 false
        let crcOk := crc16 (hb.take 6 ++ leBytes ((cb + 7) / 8) pay) = bits v 48 16
        let restart := restartRow x.row d (s.f t (CJ_SLAB_RST_ROWS j))
        let fail := fun (s : State) code =>
          let (s, go) := s.cjError t j code x.desc ofs
          if go then s.cjNext t j n else s
        if cut then fail s 8
        else if pp then fail s 6
        else if !crcOk then lost (s.setCrj t j { s.crj t j with desc := x.desc }) 1
        else if bit v 3 != (x.row == 0 && x.col == 0) ∨ bit v 4 != (x.row + 1 == h && x.col + n == w) then fail s 9
        else if !restart ∧ smGet x.failed (cjKey (x.row + 4 - d) x.slab) false then fail s 7
        else
          let above := if restart then [] else smGet x.prev (cjKey (x.row + 4 - d) x.slab) []
          let job : SlabJob := { b := b, d := d, restart := restart, above := above }
          let got : Except Nat (List Nat) :=
            if raw then .ok (rawSamples b n pay)
            else match lzwDecode (n * resBytes b) (cb + 1) pay cb 1 [] [] [] with
              | .ok l => .ok (restoreSlab job [] (residualsOf (resBytes b) n l))
              | .error e => .error e
          match got with
          | .error e => fail s e
          | .ok px =>
            let s := s.when (bit v 1) fun s => s.addF t (CJ_DAMAGED_COUNT j) 1
            let s := s.cjStore t j px
            let y := s.crj t j
            let s := s.setCrj t j { y with
              prev := smPut y.prev (cjKey x.row x.slab) px [], failed := smPut y.failed (cjKey x.row x.slab) false false }
            s.cjNext t j n

/-! ### Abort and clock loss -/

/-- A stream gives up what it has not wholly written (R274): the buffer in hand is released, every open frame's record is
written with a status bit, and the stream waits for a Frame Start. -/
def State.crCut (s : State) (t k st : Nat) : State :=
  let s := s.dropHand t k
  let s := s.wRelease t k (s.wr_ t k).bitPos false
  let c := s.crs t k
  let s := s.setCrs t k { c with jobs := [], lanes := [], done := [], prev := [], frames := [], taking := none }
  let s := s.each c.frames fun s f => s.crRecord t k f false (2 ^ st)
  let s := s.when (s.f t (CS_STAT_STATE k) == 2) fun s => s.setF t (CS_STAT_STATE k) 1
  (((s.endSec t 11 k).crExchanged t k).crStopped t k).crSync t k

/-- UNIT_ABORT of CRUSH (R274). -/
def State.crushAbort (s : State) (t : Nat) : State :=
  let s := s.each (List.range 4) fun s k => s.crCut t k stAborted
  s.each (List.range 4) fun s j =>
    let st := s.cjState t j
    if st = 1 ∨ st = 2 ∨ st = 6 ∨ (s.arbFind 5 t j).isSome then (s.dropHand t (4 + j)).cjEnd t j 5 else s

/-- Recovery from clock loss (R274). -/
def State.crushRecover (s : State) (t : Nat) : State := s.each (List.range 4) fun s k => s.crCut t k stClockLoss

end Sys2Proof.Machine
end

