-- ==== Sys2Proof/Machine/Lpl.lean ====
section
/-!
DEFINITION. The link layer of Lumkan Packet Link (chapter 14): enabling and training, packets and their acknowledgement, replay
and credit, retrain, sleep. What a link reset does to commands is in LinkReset.lean.
-/

namespace Sys2Proof.Machine

def State.link (s : State) (t l : Nat) : Lpl := smGet s.lpl (tk t l) {}

def State.setLink (s : State) (t l : Nat) (x : Lpl) : State := { s with lpl := smPut s.lpl (tk t l) x {} }

/-- Link l exists on tile t: link 0 on T0 only (R326). -/
def linkHere (t l : Nat) : Bool := l = 1 || (l = 0 && t = 0)

def State.linkState (s : State) (t l : Nat) : Nat := s.f t (PL_STAT_STATE l)

/-- Lanes of the port, by WIDTH_MAX. -/
def State.linkLanes (s : State) (t l : Nat) : Nat := 2 ^ s.f t (PL_CTL_WIDTH_MAX l)

/-- Lane that carries port lane k (R326). -/
def State.linkLane (s : State) (t l k : Nat) : Nat := 16 + s.f t (PL_CTL_LANE_BASE l) + k

/-- H and D credits that the part advertises (R336). -/
def linkCredit (l : Nat) : Nat × Nat := if l = 0 then (512, 32768) else (256, 16384)

/-- D units of a packet (R336). -/
def Pkt.units (p : Pkt) : Nat := (16 + p.body.length + 63) / 64

/-- Lanes used by an SDI output of the tile. -/
def State.sdiLane (s : State) (t l : Nat) : Bool :=
  (List.range 4).any fun c => s.aOn t (OC_CFG_ON c) && s.a t (OC_CFG_DEST c) == 1 &&
    (16 + s.a t (OC_SDI_LANE0 c) == l || (s.a t (OC_SDI_FORMAT c) == 4 && 16 + s.a t (OC_SDI_LANE1 c) == l))

/-- The lanes of a link may be used together (R130, R326). -/
def State.linkOk (s : State) (t l : Nat) : Bool :=
  let n := s.linkLanes t l
  let base := s.f t (PL_CTL_LANE_BASE l)
  let ls := (List.range n).map (s.linkLane t l)
  (l = 0 || (2 ≤ n && base % n = 0 && base + n ≤ (if t = 0 then 4 else 8))) &&
  ls.all fun a =>
    s.f t (LANE_CTL_ROLE a) = 2 && s.on t (LANE_CTL_EN a) && !s.sdiLane t a && s.reg t (LANE_RATE a) = s.reg t (LANE_RATE (s.linkLane t l 0))

/-! ### Blocks -/

/-- The bytes of a transaction packet (R338). -/
def pktBytes (p : Pkt) : List Nat :=
  [p.ty, b2n p.poison + 2 * b2n p.last, p.tag, 0] ++ leBytes 4 p.body.length ++ leBytes 5 p.ofs ++ leBytes 3 p.param ++ p.body

/-- The CRC of a packet (R330): SOP bytes 1 to 7, then the data blocks. -/
def packetCrc (seq words : Nat) (b : List Nat) : Nat := crc32 (leBytes 2 seq ++ leBytes 2 words ++ leBytes 3 0 ++ b)

/-- Data blocks of 8 bytes each. -/
def dataBlocks : Nat → List Nat → List (Nat × Nat)
  | 0, _ => []
  | n + 1, b => dataBlock (b.take 8) :: dataBlocks n (b.drop 8)

/-- The blocks of a packet (R328, R330). -/
def packetBlocks (x : Nat × Pkt) : List (Nat × Nat) :=
  let b := pktBytes x.2
  let words := (b.length + 7) / 8
  [ctlBlock 0xD2 (leBytes 2 x.1 ++ leBytes 2 words)] ++ dataBlocks words b ++ [ctlBlock 0xD4 (leBytes 4 (packetCrc x.1 words b))]

/-- One block on each port lane of a width (R329, R332). -/
def State.linkEach (s : State) (t l n : Nat) (b : Nat → Nat × Nat) : State :=
  s.each (List.range n) fun s k => s.laneSend t (s.linkLane t l k) [b k]

/-- Send blocks striped over the lanes of the trained width, which leave idle for them (R355): link block i goes on port lane i modulo the width (R329). A command's blocks
begin at port lane 0, and Idle blocks fill the last row (DESIGN CHOICE, log 91). -/
def State.linkOut (s : State) (t l : Nat) (bs : List (Nat × Nat)) : State :=
  let n := 2 ^ s.f t (PL_STAT_WIDTH l)
  if bs = [] then s
  else (s.setLink t l { s.link t l with idle := false }).each (List.range n) fun s k =>
    s.laneSend t (s.linkLane t l k) ((List.range ((bs.length + n - 1) / n)).map fun r => bs.getD (r * n + k) idleBlock)

/-- The TRAIN block that a lane of the port sends continuously in TRAINING and RETRAIN (R328, R332). -/
def State.trainBlock (s : State) (t l k : Nat) : Nat × Nat :=
  ctlBlock 0xDC [k, 2 ^ (s.f t (PL_CTL_WIDTH_MAX l) + 1) - 1, s.f t (PL_CTL_ROLE l), 1, b2n (bit (s.link t l).seen k)]

/-- Every lane of the port sends TRAIN (R332). -/
def State.sendTrain (s : State) (t l : Nat) : State := s.linkEach t l (s.linkLanes t l) (s.trainBlock t l)

/-- One ALIGN on every lane of a width (R332, R354). -/
def State.sendAlign (s : State) (t l w : Nat) : State := s.linkEach t l (2 ^ w) fun k => ctlBlock 0xDD [k, w]

/-- TRAINING begins: nothing of an earlier UP is kept (R332); packets that have never been sent go on waiting. -/
def State.linkTrain (s : State) (t l : Nat) : State :=
  ((s.setLink t l { txq := (s.link t l).txq }).setF t (PL_STAT_STATE l) 1).sendTrain t l

/-- The link's transaction layer and lanes are out of use. -/
def State.linkDown (s : State) (t l : Nat) : State :=
  let up := s.linkState t l = 2 ∨ s.linkState t l = 3 ∨ s.linkState t l = 5
  let s := (s.setLink t l {}).setF t (PL_STAT_STATE l) 0
  s.when (decide up) fun s => s.raise t (if l = 0 then 199 else 201)

/-- A protocol error (R339). -/
def State.linkProto (s : State) (t l code : Nat) : State :=
  let s := s.setF t (PL_PROTO_CODE l) code
  (s.addF t (PL_PROTO_COUNT l) 1).raise t 205

/-- The link enters RETRAIN (R333). -/
def State.linkRetrain (s : State) (t l : Nat) : State :=
  let x := s.link t l
  let s := s.setLink t l { x with trains := [], seen := 0, far := 0, bothAt := none, chosen := none, aligned := 0, wrongRole := false, noAdv := 0, since := s.now }
  ((s.setF t (PL_STAT_STATE l) 3).raise t 204).sendTrain t l

/-- A lane within the width has lost lock: an UP link retrains (R333, R355). -/
def State.linkWatch (s : State) (t l : Nat) : State :=
  let n := 2 ^ s.f t (PL_STAT_WIDTH l)
  if s.linkState t l = 2 ∧ (List.range n).any fun k => ¬ s.laneLocked t (s.linkLane t l k) then s.linkRetrain t l else s

/-! ### Sending -/

/-- H and D credits left of what the far end has advertised (R336). -/
def Lpl.credit (x : Lpl) : Nat × Nat :=
  ((x.hFar + 0x10000 - x.hUsed) % 0x10000, (x.dFar + 0x1000000 - x.dUsed) % 0x1000000)

/-- Bytes of a packet. -/
def Pkt.bytes (p : Pkt) : Nat := 16 + p.body.length

/-- Bytes of the replay buffer of a link (R336). -/
def replayBytes : Nat := 262144

/-- The packet may be sent: the replay buffer has room for it (R335, R336), and credit covers it, of which a RESPONSE needs none (R337). -/
def Lpl.canSend (x : Lpl) (p : Pkt) : Bool :=
  x.replay.length < 2047 && decide ((x.replay.map fun q => q.2.bytes).foldl (· + ·) p.bytes ≤ replayBytes) && (p.ty = 4 || (1 ≤ x.credit.1 && p.units ≤ x.credit.2))

/-- Send a packet for the first time: it takes the next SEQ and stands in the replay buffer (R335, R336). -/
def Lpl.transmit (x : Lpl) (p : Pkt) (now : Nat) : Lpl :=
  { x with
    replay := x.replay ++ [(x.nextTx, p)], nextTx := (x.nextTx + 1) % 4096, idle := false
    progress := if x.replay = [] then now else x.progress
    hUsed := if p.ty = 4 then x.hUsed else (x.hUsed + 1) % 0x10000
    dUsed := if p.ty = 4 then x.dUsed else (x.dUsed + p.units) % 0x1000000 }

/-- Send what credit allows, in order; a RESPONSE passes packets of other tags (R337). -/
def Lpl.pump (now : Nat) : Nat → Lpl → Lpl
  | 0, x => x
  | n + 1, x =>
    match x.txq with
    | [] => x
    | p :: l =>
      if x.canSend p then Lpl.pump now n ({ x with txq := l }.transmit p now)
      else
        match (x.txq.zip (List.range x.txq.length)).find? fun q =>
            decide (q.1.ty = 4) && !((x.txq.take q.2).any fun r => r.tag = q.1.tag) with
        | some (q, i) => if x.canSend q then Lpl.pump now n ({ x with txq := x.txq.eraseIdx i }.transmit q now) else x
        | none => x

/-- Body of an ASYNC_EVENT (R356). -/
def State.asyncBody (s : State) (m : AsyncMsg) : List Nat :=
  leBytes 2 m.id ++ [m.tile, m.sev + 4 * b2n m.inj + 8 * b2n m.root] ++ leBytes 4 (s.f m.tile (EVT_CNT_COUNT m.id)) ++ leBytes 8 m.n ++ leBytes 16 0

/-- Send waiting ASYNC_EVENTs while credit lasts (R356). -/
def State.pumpAsync (s : State) : Nat → State
  | 0 => s
  | n + 1 =>
    match s.evt.asyncQ with
    | [] => s
    | m :: l =>
      let p : Pkt := { ty := 5, body := s.asyncBody m }
      let x := s.link 0 0
      if x.txq = [] ∧ x.canSend p then (({ s with evt.asyncQ := l }).setLink 0 0 (x.transmit p s.now)).pumpAsync n else s

/-- Registers that show the link's sender. -/
def State.linkSync (s : State) (t l : Nat) : State :=
  let x := s.link t l
  let s := s.setF t (PL_SEQ_NEXT_TX l) x.nextTx
  let s := s.setF t (PL_CRED_TX_H l) x.credit.1
  s.setF t (PL_CRED_TX_D l) (min 65535 x.credit.2)

/-- An UP link sends what it can. No ASYNC_EVENT leaves while T0's CTL island restarts (R356). -/
def State.linkPump (s : State) (t l : Nat) : State :=
  if s.linkState t l ≠ 2 then s
  else
    let x := s.link t l
    let s := if x.txq = [] then s else s.setLink t l (Lpl.pump s.now (x.txq.length + 1) x)
    let s := if l = 0 ∧ ¬ smGet s.core.ctlBusy 0 false then s.pumpAsync s.evt.asyncQ.length else s
    (s.linkOut t l (((s.link t l).replay.drop x.replay.length).flatMap packetBlocks)).linkSync t l

/-- Queue a packet on a link. -/
def State.linkSend (s : State) (t l : Nat) (p : Pkt) : State :=
  let x := s.link t l
  ((s.setLink t l { x with txq := x.txq ++ [p] }).sramWritten t 14).linkPump t l

/-- One replay of every packet not acknowledged (R335). -/
def State.linkReplay (s : State) (t l : Nat) : State :=
  if (s.link t l).replay = [] then s
  else
    let x := s.link t l
    let s := s.setLink t l { x with noAdv := x.noAdv + 1, progress := s.now }
    let s := { s with pwr.lplReplays := s.pwr.lplReplays + 1 }
    ((s.addF t (PL_REPLAYS_COUNT l) 1).raise t 203).linkOut t l (x.replay.flatMap packetBlocks)

/-- REPLAY_MAX consecutive replays without progress put the link into RETRAIN (R333). -/
def State.linkGiveUp (s : State) (t l : Nat) : State :=
  if max 1 (s.f t (PL_TIMER_REPLAY_MAX l)) ≤ (s.link t l).noAdv then s.linkRetrain t l else s

/-! ### Training -/

/-- UP is reached with width code w (R332, R333). -/
def State.linkUp (s : State) (t l w : Nat) : State :=
  let fresh := s.linkState t l ≠ 3
  let x := s.link t l
  let c := linkCredit l
  let s := s.setLink t l (if fresh then { txq := x.txq, seen := x.seen, far := x.far, aligned := x.aligned, hTot := c.1, dTot := c.2, progress := s.now } else { x with progress := s.now })
  let s := ((s.setF t (PL_STAT_WIDTH l) w).setF t (PL_STAT_STATE l) 2).sendAlign t l w
  if fresh then
    let s := s.setB t (PL_STAT_DEGRADED l) false
    (s.raise t (if l = 0 then 198 else 200)).linkPump t l
  else
    let s := if w < s.f t (PL_CTL_WIDTH_MAX l) then (s.setB t (PL_STAT_DEGRADED l) true).raise t 202 else s.setB t (PL_STAT_DEGRADED l) false
    (s.linkReplay t l).linkPump t l

/-- The width that lanes seen in both directions allow (R332): 0 one, 1 two, 2 four. -/
def linkWidth (offered both : Nat) : Option Nat :=
  if bit offered 2 ∧ both % 16 = 15 then some 2
  else if bit offered 1 ∧ both % 4 = 3 then some 1
  else if bit offered 0 ∧ both % 2 = 1 then some 0
  else none

/-- Widths that this end offers. -/
def State.linkOffer (s : State) (t l : Nat) : Nat := 2 ^ (s.f t (PL_CTL_WIDTH_MAX l) + 1) - 1

/-- A TRAIN block arrives on port lane k (R332). A width below the largest that both ends offer is taken once 10 us have
passed since the first lane was seen by both ends (DESIGN CHOICE, log 23). -/
def State.linkTrainRx (s : State) (t l k widths role version : Nat) (seen : Bool) : State :=
  let s := if s.linkState t l = 4 then s.linkTrain t l else s
  if (s.linkState t l ≠ 1 ∧ s.linkState t l ≠ 3) ∨ s.linkLanes t l ≤ k ∨ ¬ s.laneLocked t (s.linkLane t l k) then s
  else
    let x := s.link t l
    let mine := s.f t (PL_CTL_ROLE l)
    if version = 1 ∧ role = mine then
      if x.wrongRole then s else (s.setLink t l { x with wrongRole := true, trains := smPut x.trains k 0 0 }).linkProto t l 6
    else
      let n := if version = 1 then smGet x.trains k 0 + 1 else 0
      let x := { x with
        trains := smPut x.trains k n 0, seen := if 8 ≤ n then orBit x.seen k else x.seen
        far := if seen then orBit x.far k else x.far, farWidths := widths % 8 }
      let both := x.seen &&& x.far
      let x := { x with bothAt := if both = 0 then none else some (x.bothAt.getD s.now) }
      let offered := s.linkOffer t l &&& x.farWidths
      let best := if bit offered 2 then 2 else if bit offered 1 then 1 else 0
      let w := linkWidth offered both
      let settled : Bool := match w, x.bothAt with
        | some w, some b => decide (w = best) || decide (b + 10 * usTicks ≤ s.now)
        | _, _ => false
      let s := s.setLink t l (if settled && x.chosen.isNone then { x with chosen := w } else x)
      s.laneSend t (s.linkLane t l k) [s.trainBlock t l k]

/-- An ALIGN block on port lane k, `lag` blocks after the first lane's (R329, R332, R354). -/
def State.linkAlignRx (s : State) (t l k width lag : Nat) : State :=
  let st := s.linkState t l
  if s.linkLanes t l ≤ k then s
  else
    let (s, ok) := s.laneMarker t (s.linkLane t l k) lag
    let x := s.link t l
    if st = 1 ∨ st = 3 then
      match x.chosen with
      | some w =>
        if w = width ∧ ok ∧ k < 2 ^ w then
          let x := { x with aligned := orBit x.aligned k }
          let s := s.setLink t l x
          if x.aligned % 2 ^ 2 ^ w = 2 ^ 2 ^ w - 1 then s.linkUp t l w else s
        else s
      | none => s
    else if st = 2 then if ok ∨ 2 ^ s.f t (PL_STAT_WIDTH l) ≤ k then s else s.linkRetrain t l
    else s

/-- A write of PLk_CTL.EN (R326): refused where the lanes may not be used; 0 takes the link down. -/
def State.linkEnable (s : State) (t l : Nat) (en : Bool) : State :=
  if en then
    if s.on t (PL_CTL_EN l) ∨ ¬ s.linkOk t l then s else (s.setB t (PL_CTL_EN l) true).linkTrain t l
  else (s.setB t (PL_CTL_EN l) false).linkDown t l

/-! ### Receiving -/

/-- A little-endian field of a packet. -/
def pktField (b : List Nat) (o n : Nat) : Nat := leNum ((b.drop o).take n)

/-- The packet that bytes hold (R338). -/
def pktOf (b : List Nat) : Pkt :=
  { ty := b.getD 0 0, poison := bit (b.getD 1 0) 0, last := bit (b.getD 1 0) 1, tag := b.getD 2 0, ofs := pktField b 8 5, param := pktField b 13 3, body := b.drop 16 }

/-- LEN that a type has (R338). -/
def pktLenOk (ty len : Nat) : Bool :=
  match ty with
  | 1 | 6 => len = 64
  | 2 => len = 0
  | 3 => 8 ≤ len && len ≤ 4096 && len % 8 = 0
  | _ => len = 32

/-- The error that a packet makes at the end of the given role, 0 for none (R339). -/
def pktError (target : Bool) (b : List Nat) : Nat :=
  let ty := b.getD 0 0
  let len := pktField b 4 4
  if ty = 0 ∨ 6 < ty then 2
  else if ty = 6 ∧ ¬ target then 7
  else if target ∧ (ty = 2 ∨ ty = 4 ∨ ty = 5) ∨ ¬ target ∧ ty = 1 then 2
  else if b.length ≠ 16 + len ∨ ¬ pktLenOk ty len then 3
  else 0

/-- Buffer freed by a packet that has been acted on or discarded raises the totals (R336). -/
def State.linkFree (s : State) (t l : Nat) (p : Pkt) : State :=
  if p.ty = 4 then s
  else
    let x := s.link t l
    s.setLink t l { x with hTot := (x.hTot + 1) % 0x10000, dTot := (x.dTot + p.units) % 0x1000000 }

/-- LPL_PACKET_RECEIVE: a packet with its SOP and EOP fields; `clean` says that no BAD block and nothing out of place was met
(R330, R334, R339). -/
def State.linkPacket (s : State) (t l seq words crc : Nat) (clean : Bool) (b : List Nat) : State :=
  if s.linkState t l ≠ 2 then s
  else
    let x := s.link t l
    let good := clean && b.length == 8 * words && 2 ≤ words && words ≤ 514 && crc == packetCrc seq words b
    let want := (x.rxSeq + 1) % 4096
    if good ∧ seq = want then
      let x := { x with rxSeq := seq, ackSent := seq, nakAt := none }
      let e := pktError (s.on t (PL_CTL_ROLE l)) b
      let p := pktOf b
      let s := if e = 0 then s.setLink t l { x with rxq := x.rxq ++ [p] }
        else ((s.setLink t l x).linkFree t l p).linkProto t l e
      s.linkOut t l [ctlBlock 0xD6 (leBytes 2 seq)]
    else
      let s := s.addF t (PL_CRCERR_COUNT l) 1
      if good ∧ (x.rxSeq + 4096 - seq) % 4096 < 2048 then (s.setLink t l { x with ackSent := x.rxSeq }).linkOut t l [ctlBlock 0xD6 (leBytes 2 x.rxSeq)]
      else
        let wait := match x.nakAt with
          | some n => decide (s.now < n + max 1 (s.f t (PL_TIMER_REPLAY_TO l)) * usTicks)
          | none => false
        if wait then s
        else (s.setLink t l { x with nakAt := some s.now, nakSent := x.rxSeq }).linkOut t l [ctlBlock 0xD7 (leBytes 2 x.rxSeq)]

/-- Take the oldest packet that waits to be acted on, if it has the type; its buffer is freed. -/
def State.linkTake (s : State) (t l ty : Nat) : State × Option Pkt :=
  let x := s.link t l
  match x.rxq with
  | [] => (s, none)
  | p :: q => if p.ty = ty then ((s.setLink t l { x with rxq := q }).linkFree t l p, some p) else (s, none)

/-- Everything up to a SEQ is acknowledged and leaves the replay buffer (R335). -/
def State.linkAcked (s : State) (t l seq : Nat) : State :=
  let x := s.link t l
  match x.replay.findIdx? (·.1 = seq) with
  | none => s
  | some i =>
    let s := s.setLink t l { x with replay := x.replay.drop (i + 1), acked := seq, noAdv := 0, progress := s.now }
    s.setF t (PL_SEQ_LAST_ACKED l) seq

/-- LPL_ACK_RECEIVE. -/
def State.linkAck (s : State) (t l seq : Nat) : State := if s.linkState t l = 2 then (s.linkAcked t l seq).linkPump t l else s

/-- LPL_NAK_RECEIVE: release up to the named SEQ, replay what follows, then what waits (R335). -/
def State.linkNak (s : State) (t l seq : Nat) : State :=
  if s.linkState t l = 2 then (((s.linkAcked t l seq).linkReplay t l).linkGiveUp t l).linkPump t l else s

/-- LPL_REPLAY_TIMEOUT: no progress for REPLAY_TO with packets outstanding (R335). -/
def State.linkTimeout (s : State) (t l : Nat) : State :=
  let x := s.link t l
  if s.linkState t l = 2 ∧ x.replay ≠ [] ∧ x.progress + max 1 (s.f t (PL_TIMER_REPLAY_TO l)) * usTicks ≤ s.now then
    (s.linkReplay t l).linkGiveUp t l
  else s

/-- LPL_CREDIT_RECEIVE (R336). -/
def State.linkCredits (s : State) (t l h d : Nat) : State :=
  if s.linkState t l = 2 then (s.setLink t l { s.link t l with hFar := h % 0x10000, dFar := d % 0x1000000 }).linkPump t l else s

/-- LPL_CREDIT_SEND (R336). -/
def State.linkCreditSend (s : State) (t l : Nat) : State :=
  if s.linkState t l = 2 then
    let x := s.link t l
    (s.setLink t l { x with hSent := x.hTot, dSent := x.dTot }).linkOut t l [ctlBlock 0xDA (leBytes 2 x.hTot ++ leBytes 3 x.dTot)]
  else s

/-- LINK_IDLE_ENTRY: an UP link with nothing to send puts its transmitters into electrical idle (R355). -/
def State.linkIdle (s : State) (t l : Nat) : State :=
  let x := s.link t l
  if s.linkState t l = 2 ∧ s.on t (PL_CTL_IDLE_EN l) ∧ x.txq = [] ∧ x.replay = [] ∧ x.progress + s.f t (PL_TIMER_IDLE_ENTRY l) * 80 ≤ s.now ∧ (l ≠ 0 ∨ s.evt.asyncQ = []) then
    let s := s.each (List.range (2 ^ s.f t (PL_STAT_WIDTH l))) fun s k => s.laneRest t (s.linkLane t l k)
    s.setLink t l { x with idle := true }
  else s

end Sys2Proof.Machine
end

