-- ==== Sys2Proof/Machine/Rec.lean ====
section
/-!
DEFINITION. Recording (chapter 11): chunks, extents, takes, the part's commands to magazines (R358), and the burst store.
-/

namespace Sys2Proof.Machine

/-! ### Error log -/

/-- Add an entry to the error log; a full log loses its oldest (R371, R372). -/
def State.logError (s : State) (kind tag op link status vol first blocks : Nat) (info : List Nat) : State :=
  let e : ErrEnt := { seq := s.host.errSeq, n := s.tcN 0 0, kind := kind, tag := tag, op := op, link := link, status := status, vol := vol, first := first, blocks := blocks, info := info }
  let full := 256 ≤ s.host.errLog.length
  { s with host := { s.host with
    errLog := (if full then s.host.errLog.drop 1 else s.host.errLog) ++ [e]
    errSeq := s.host.errSeq + 1
    errLost := if full then satAdd (2 ^ 32 - 1) s.host.errLost 1 else s.host.errLost } }

/-! ### Commands to a magazine -/

def State.mag (s : State) (t : Nat) : List MagCmd := smGet s.mags t []

def State.setMag (s : State) (t : Nat) (l : List MagCmd) : State :=
  ({ s with mags := smPut s.mags t l [] }).setF t (PL_QUEUE_QUEUED 1) (l.filter fun (m : MagCmd) => m.status.isNone).length

/-- A free tag of tile t's magazine link (R358). -/
def State.magTag (s : State) (t : Nat) : Option Nat :=
  (List.range 256).find? fun k => !((s.mag t).any fun m => m.tag = k)

/-- Capsule of READ, WRITE: opcode, volume 0, block, count (R367). A magazine's volume is 0 (DESIGN CHOICE, log 24). -/
def ioCapsule (op block count : Nat) : List Nat := [op, 0, 0, 0, 0, 0, 0, 0] ++ leBytes 8 block ++ leBytes 4 count ++ leBytes 44 0

/-- Capsule of FLUSH: VOLMASK with bit 0 (R367). -/
def flushCapsule : List Nat := [3, 0, 0, 0, 1, 0] ++ leBytes 58 0

/-- Capsule of ABORT (R347). -/
def abortCapsule (tag : Nat) : List Nat := [0x20, 0, 0, 0, tag] ++ leBytes 59 0

/-- Issue a command on tile t's magazine link; none without a free tag. -/
def State.magIssue (s : State) (t op use who num : Nat) (cap data bad : List Nat) : State × Option Nat :=
  match s.magTag t with
  | none => (s, none)
  | some g =>
    let s := s.setMag t (s.mag t ++ [{ tag := g, op := op, use := use, who := who, num := num, cap := cap, data := data, bad := bad, issued := s.now }])
    (s.linkSend t 1 { ty := 1, tag := g, body := cap }, some g)

def State.magSet (s : State) (t tag : Nat) (f : MagCmd → MagCmd) : State :=
  s.setMag t ((s.mag t).map fun (m : MagCmd) => if m.tag = tag then f m else m)

def State.magFind (s : State) (t tag : Nat) : Option MagCmd := (s.mag t).find? fun m => m.tag = tag && m.status.isNone

def State.magDrop (s : State) (t tag : Nat) : State := s.setMag t ((s.mag t).filter (·.tag ≠ tag))

/-- What a command for the host or for a take is for once that has ended: its RESPONSE concerns nobody. -/
def orphan : Nat := 256

/-- DATA packets of a window, 4,096 bytes at most, the last with LAST; one with a poisoned word says which is its first (R343, R345). -/
def windowPkts (tag : Nat) (data bad : List Nat) : Nat → Nat → Nat → List Pkt
  | 0, _, _ => []
  | n + 1, o, len =>
    if len = 0 then []
    else
      let k := min 4096 len
      let b := bad.find? fun w => decide (o / 8 ≤ w ∧ 8 * w < o + k)
      { ty := 3, last := len ≤ 4096, tag := tag, ofs := o, body := (data.drop o).take k, poison := b.isSome, param := (b.map (· - o / 8)).getD 0 } ::
        windowPkts tag data bad n (o + k) (len - k)

/-- XFER_READY: a window of one of the part's WRITEs opens; its DATA goes out (R343), none for a take that has failed (R282). -/
def State.xferReady (s : State) (t : Nat) : State :=
  match s.linkTake t 1 2 with
  | (s, none) => s
  | (s, some p) =>
    match s.magFind t p.tag with
    | some m =>
      if m.op = 2 ∧ m.who = orphan then s
      else if m.op = 2 then
        let l := windowPkts p.tag m.data m.bad (p.param / 4096 + 1) p.ofs (min p.param (m.data.length - p.ofs))
        (l.foldl (fun s q => s.linkSend t 1 q) s).magSet t p.tag fun m => { m with sent := m.sent + p.param }
      else s.linkProto t 1 5
    | none => s.linkProto t 1 5

/-- DATA of one of the part's READs (R344, R345); for another command it comes in the wrong direction (R339). -/
def State.magData (s : State) (t : Nat) : State :=
  match s.linkTake t 1 3 with
  | (s, none) => s
  | (s, some p) =>
    match s.magFind t p.tag with
    | some m =>
      if m.op = 1 then
        s.magSet t p.tag fun m => { m with
          data := m.data.take p.ofs ++ List.replicate (p.ofs - m.data.length) 0 ++ p.body
          poison := if p.poison ∧ m.poison.isNone then some (p.ofs + 8 * p.param) else m.poison }
      else s.linkProto t 1 2
    | none => s.linkProto t 1 5

/-- ASYNC_EVENT from a magazine (R358). -/
def State.magAsync (s : State) (t : Nat) : State :=
  match s.linkTake t 1 5 with
  | (s, none) => s
  | (s, some p) => (s.each (List.range 4) fun s w => s.setReg t (PL1_ASYNC w) (pktField p.body (4 * w) 4)).raise t 207

/-- MAG_COMMAND_TIMEOUT: no RESPONSE within MAG_TMO; the part aborts the command (R358). -/
def State.magTimeout (s : State) (t tag : Nat) : State :=
  let tmo := s.f t PL1_TMO_MAG_TMO
  match s.magFind t tag with
  | some m =>
    if tmo ≠ 0 ∧ m.use ≠ 3 ∧ ¬ m.aborting ∧ m.issued + tmo * 1000 * usTicks ≤ s.now then
      let (s, g) := s.magIssue t 0x20 3 0 tag (abortCapsule tag) [] []
      if g.isSome then s.magSet t tag fun m => { m with aborting := true } else s
    else s
  | none => s

/-! ### Takes -/

def State.take (s : State) (k : Nat) : Take := smGet s.store.takes k {}

def State.setTake (s : State) (k : Nat) (x : Take) : State := { s with store.takes := smPut s.store.takes k x {} }

def State.takeState (s : State) (k : Nat) : Nat := s.f 0 (TK_STAT_STATE k)

/-- Bytes of an extent of take k (R280). -/
def State.extBytes (s : State) (k : Nat) : Nat := 2 ^ (16 + (s.take k).ext)

/-- The take's magazines, in ascending order (R280). -/
def State.takeMags (s : State) (k : Nat) : List Nat := (List.range 8).filter (bit (s.take k).mags)

/-- The magazine link and the block that extent x goes to (R280). -/
def State.extPlace (s : State) (k x : Nat) : Option (Nat × Nat) :=
  let ms := s.takeMags k
  match ms[x % ms.length]? with
  | some m => some (m, (s.take k).base + x / ms.length * (s.extBytes k / 4096))
  | none => none

/-- A producer's units come with the output frames of the channel that a selector names (R41). -/
def State.recFed (s : State) (ty src sel : Nat) : Bool :=
  (ty == 1 && src == sel % 4) || (ty == 2 && decide (src < 4) && s.outFeeds (13 + src) sel)

/-- The swap of REC that has just come on a tile. -/
def State.recPoint (s : State) (t : Nat) : RecPoint :=
  let (kind, sel) := (s.unit t 12).swap
  { tick := s.now
    built := if kind = 2 ∧ sel / 4 = t then (s.builtFrom sel (s.reg t (UNIT_LASTSEQ 12))).map fun b => (sel, b.2) else none }

/-- The tick from which a producer's units follow a swap (R41): the occurrence, or the Frame Start of the input frame that builds the
output frame that the commit point names, where the producer takes what that channel delivers. -/
def State.recFrom (s : State) (p : RecPoint) (ty src : Nat) : Nat :=
  match p.built with
  | some (sel, tick) => if s.recFed ty src sel then tick else p.tick
  | none => p.tick

/-- The tick from which units follow a stream's new word (R41). -/
def State.recSince (s : State) (t k : Nat) : Nat := s.recFrom (s.recPoint t) (s.a t (RS_CFG_TYPE k)) (s.a t (RS_CFG_SRCNUM k))

/-- A unit of tile t began within its take (R279, R282). -/
def State.inTake (s : State) (t : Nat) (u : RecUnit) : Bool :=
  let x := s.take u.take
  (match smLook x.starts t with
    | some p => decide (s.recFrom p u.ty u.src ≤ u.tick)
    | none => false) &&
  (match smLook x.stops t with
    | some p => decide (u.tick < s.recFrom p u.ty u.src)
    | none => true)

/-- Units of take k that wait on some tile to become chunks. -/
def State.takeLeft (s : State) (k : Nat) : List RecUnit :=
  s.tileList.flatMap fun t => (List.range 16).flatMap fun r => (smGet s.store.units (tk t r) []).filter fun u => u.take = k && s.inTake t u

/-- What take k has told the magazines concerns nobody any more (R282). -/
def State.magOrphan (s : State) (k : Nat) : State :=
  s.each (s.tileList.filter fun t => (s.mag t).any fun (m : MagCmd) => m.use ≤ 1 && m.who == k) fun s t =>
    s.setMag t ((s.mag t).filterMap fun (m : MagCmd) =>
      if m.use ≤ 1 ∧ m.who = k then (if m.status.isNone then some { m with who := orphan } else none) else some m)

/-- A take fails (R282): nothing more is sent for it, what it has staged is discarded and its frames are counted. -/
def State.takeFail (s : State) (k cause : Nat) : State :=
  if s.takeState k ≠ 1 ∧ s.takeState k ≠ 2 then s
  else
    let frames := ((s.store.extents.filter (·.take = k)).flatMap (·.frames) ++ (s.takeLeft k).map (·.cnt)).eraseDups
    let s := { s with
      store.extents := s.store.extents.filter (·.take ≠ k)
      store.units := (s.store.units.map fun (x : Nat × List RecUnit) => (x.1, x.2.filter fun (u : RecUnit) => u.take ≠ k)).filter (·.2 ≠ []) }
    let s := (s.magOrphan k).addF 0 (TK_LOST_FRAMES k) frames.length
    let s := (s.setF 0 (TK_STAT_STATE k) 4).setF 0 (TK_STAT_CAUSE k) cause
    let s := s.logError 3 0 0 1 cause k 0 0 []
    s.raise 0 142

/-- Words of a tile's staging ring as they go to a magazine: their bytes, and which of them, from number i on, are poisoned (R345). -/
def State.stgRead (s : State) (t : Nat) : Nat → Nat → Nat → State × List Nat × List Nat
  | 0, _, _ => (s, [], [])
  | n + 1, a, i =>
    let (s, l, p) := s.rdAt t a 8 11
    let (s, m, q) := s.stgRead t n (a + 8) (i + 1)
    (s, l ++ m, if p then i :: q else q)

/-- The chunks of an extent as the ring holds them. -/
def State.extRead (s : State) (t : Nat) : List (Nat × Nat × Bool) → Nat → State × List Nat × List Nat
  | [], _ => (s, [], [])
  | p :: l, i =>
    let (s, d, b) := s.stgRead t (p.2.1 / 8) p.1 i
    let (s, e, c) := s.extRead t l (i + p.2.1 / 8)
    (s, d ++ e, b ++ c)

/-- Issue the WRITEs of extents that stand sent and have none yet, padded with zeros (R280). -/
def State.extIssue (s : State) : State :=
  s.each s.store.extents fun s e =>
    if !e.sent || e.issued || s.isolated e.tile then s
    else match s.extPlace e.take e.num with
      | none => s
      | some (m, block) =>
        let (s, ok) := if m = e.tile then (s, true) else s.seamReach e.tile m
        if !ok || !s.has m || (s.magTag m).isNone then s
        else
          let n := s.extBytes e.take
          let (s, d, bad) := s.extRead e.tile e.parts 0
          let s := (s.magIssue m 2 0 e.take e.num (ioCapsule 2 block (n / 4096)) (d ++ List.replicate (n - d.length) 0) bad).1
          { s with store.extents := s.store.extents.map fun (x : Extent) => if x.take = e.take ∧ x.num = e.num then { x with issued := true } else x }

/-- A FLUSH of take k to a magazine, once it has a free tag and a route (R282). -/
def State.takeFlush (s : State) (k m : Nat) : State :=
  let (s, ok) := if m = 0 then (s, true) else s.seamReach 0 m
  if !ok || !s.has m || (s.magTag m).isNone then s
  else
    let s := (s.magIssue m 3 1 k 0 flushCapsule [] []).1
    let x := s.take k
    s.setTake k { x with flushLeft := x.flushLeft.map (·.filter (· ≠ m)), flushOut := x.flushOut + 1 }

/-- A CLOSING take sends what it has staged, then a FLUSH to each of its magazines, then is CLOSED (R282). -/
def State.takeClosing (s : State) (k : Nat) : State :=
  if s.takeState k ≠ 2 then s
  else
    let more := !s.on 0 (TK_STAT_FULL k) && s.takeLeft k != []
    let s := if more then s
      else { s with store.extents := s.store.extents.map fun (x : Extent) => if x.take = k then { x with sent := true } else x }.extIssue
    if more || s.store.extents.any (·.take = k) then s
    else
      let x := s.take k
      let s := if x.flushLeft.isNone then s.setTake k { x with flushLeft := some (s.takeMags k) } else s
      let s := s.each ((s.take k).flushLeft.getD []) fun s m => s.takeFlush k m
      let x := s.take k
      if x.flushLeft = some [] ∧ x.flushOut = 0 then (s.setF 0 (TK_STAT_STATE k) 3).raise 0 140 else s

/-- A tag of a magazine link has come free: what waits for one goes on. -/
def State.magFreed (s : State) : State := s.extIssue.each (List.range 8) State.takeClosing

/-- RESPONSE: a tag of the magazine link is answered (R337). -/
def State.magAnswer (s : State) (t : Nat) : State :=
  match s.linkTake t 1 4 with
  | (s, none) => s
  | (s, some p) =>
    match s.magFind t p.tag with
    | some m =>
      if m.use = 3 ∨ m.who = orphan then (s.magDrop t p.tag).magFreed
      else s.magSet t p.tag fun m => { m with status := some (pktField p.body 0 2), info := (p.body.drop 16).take 16 }
    | none => s.linkProto t 1 5

/-- Tile t holds a stream of take k (R279). -/
def State.takeHolds (s : State) (t k : Nat) : Bool := (List.range 16).any fun r => s.aOn t (RS_CFG_EN r) && s.a t (RS_CFG_TAKE r) == k

/-- The takes note which of them have a stream on tile t. -/
def State.takesNote (s : State) (t : Nat) : State :=
  s.each (List.range 8) fun s k =>
    let x := s.take k
    let l := x.tiles.filter (· ≠ t)
    s.setTake k { x with tiles := if s.takeHolds t k then t :: l else l }

/-- A take starts in slot k at a swap on tile t, whose words it keeps, or tile t joins it (R279). -/
def State.takeStart (s : State) (t k : Nat) : State :=
  let p := s.recPoint t
  let join := fun (x : Take) => if (smLook x.starts t).isSome then x else { x with starts := smIns t p x.starts }
  if s.takeState k = 2 then s
  else if s.takeState k = 1 then s.setTake k (join (s.take k))
  else
    let s := s.setReg 0 (TK_STAT k) 1
    let s := (s.setReg 0 (TK_DUR k) 0).setReg 0 (TK_LOST k) 0
    s.setTake k (join { tiles := s.tileList.filter fun u => s.takeHolds u k, id := s.a t (TK_ID_TAKE_ID k), ext := s.a t (TK_CFG_EXT_LOG2 k),
                        mags := s.a t (TK_CFG_MAGS k), base := s.a64 t (TK_START_LO k), limit := s.a t (TK_LIMIT_LIMIT k), flush := s.a t (TK_CFG_FLUSH k) })

/-- Take k stops at a swap on tile t: it is CLOSING (R282). -/
def State.takeStop (s : State) (t k : Nat) : State :=
  if s.takeState k = 1 ∨ s.takeState k = 2 then
    let x := s.take k
    let s := if (smLook x.stops t).isSome then s else s.setTake k { x with stops := smIns t (s.recPoint t) x.stops }
    (s.setF 0 (TK_STAT_STATE k) 2).takeClosing k
  else s

/-- No extent is left for a chunk (R282). -/
def State.takeFull (s : State) (k : Nat) : State :=
  if s.on 0 (TK_STAT_FULL k) then s else (((s.setB 0 (TK_STAT_FULL k) true).raise 0 141).setF 0 (TK_STAT_STATE k) 2).takeClosing k

/-- What an exchange of REC's words brings: takes that start and stop, streams that follow a new word, the burst store, which a commit with
EN = 1 arms where it is IDLE (R279, R282, R285). -/
def State.recExchanged (s : State) (t sec : Nat) : State :=
  match s.takeExchange t 12 sec with
  | (s, none) => s
  | (s, some old) =>
    if sec = 0 then
      s.each (List.range 8) fun s k =>
        let was := bit (old.getD (8 * k) 0) 0
        let now_ := s.aOn t (TK_CFG_REC k)
        if now_ && !was then s.takeStart t k else if was && !now_ then s.takeStop t k else s
    else if sec ≤ 16 then { s with store.before := smPut s.store.before (tk t (sec - 1)) (old.getD 0 0, s.recSince t (sec - 1)) (0, 0) }.takesNote t
    else
      let b := smGet s.store.burst t {}
      let was := bit (old.getD 0 0) 0
      let st := s.f t BS_STAT_STATE
      if s.aOn t BS_CFG_EN then
        if st = 3 ∨ (was ∧ st ≠ 0) then s else { s with store.burst := smPut s.store.burst t { b with armDue := true } {} }
      else if st = 3 then { s with store.burst := smPut s.store.burst t { b with armDue := false } {} }
      else ({ s with store.burst := smPut s.store.burst t { cols := b.cols } {} }).setF t BS_STAT_STATE 0

/-! ### Chunks and extents -/

/-- The extent that tile t fills for take k. -/
def State.openExtent (s : State) (t k : Nat) : Option Extent :=
  s.store.extents.find? fun e => e.take = k && e.tile = t && !e.sent

def State.setExtent (s : State) (e : Extent) : State :=
  { s with store.extents := s.store.extents.map fun (x : Extent) => if x.take = e.take ∧ x.num = e.num then e else x }

/-- The extent goes to its magazine (R280). -/
def State.extSend (s : State) (e : Extent) : State := (s.setExtent { e with sent := true }).extIssue

/-- n free bytes of a ring of a size, from place p on, past the runs in use: their runs (DESIGN CHOICE, log 49). -/
def ringTake (live : List (Nat × Nat)) (size : Nat) : Nat → Nat → Nat → List (Nat × Nat)
  | 0, _, _ => []
  | k + 1, p, n =>
    if n = 0 then []
    else if size ≤ p then ringTake live size k 0 n
    else match live.find? fun x => x.1 ≤ p && p < x.1 + x.2 with
      | some x => ringTake live size k (x.1 + x.2) n
      | none =>
        let m := min n (live.foldl (fun m x => if p < x.1 then min m x.1 else m) size - p)
        (p, m) :: ringTake live size k (p + m) (n - m)

/-- Write bytes to the runs given, from an address on. -/
def State.runWrite (s : State) (t base : Nat) : List (Nat × Nat) → List Nat → State
  | [], _ => s
  | r :: l, bs => (s.wrAt (port := 6) t (base + r.1) (bs.take r.2) false).runWrite t base l (bs.drop r.2)

/-- A chunk goes into the tile's ring at STG_BASE, a GAP chunk into the ring's reserve (R278): where it lies. -/
def State.stgPut (s : State) (t : Nat) (gap : Bool) (bs : List Nat) : State × List (Nat × Nat × Bool) :=
  let room := s.a t REC_STG_SIZE_KIB * 1024 - stgReserve
  let base := s.a64 t REC_STG_LO + if gap then room else 0
  let size := if gap then stgReserve else room
  let live := ((s.store.extents.filter (·.tile = t)).flatMap (·.parts)).filterMap fun p =>
    if base ≤ p.1 ∧ p.1 < base + size then some (p.1 - base, p.2.1) else none
  let at_ := smGet s.store.rings t (0, 0)
  let runs := ringTake live size (2 * live.length + 3) (if gap then at_.2 else at_.1) bs.length
  let s := s.runWrite t base runs bs
  let end_ := (runs.getLast?.map fun r => r.1 + r.2).getD 0
  ({ s with store.rings := smPut s.store.rings t (if gap then (at_.1, end_) else (end_, at_.2)) (0, 0) }, runs.map fun r => (base + r.1, r.2, gap))

/-- A chunk's header and payload (R277). -/
def chunkBytes (id k ty : Nat) (cont gap : Bool) (t cnt status n : Nat) (payload : List Nat) : List Nat :=
  let h := leBytes 4 id ++ leBytes 4 (k + ty * 16 + b2n cont * 128 + b2n gap * 256 + t * 512) ++ leBytes 4 cnt ++ leBytes 4 status ++ leBytes 8 n ++ leBytes 4 payload.length
  h ++ leBytes 4 (crc32 (h ++ payload)) ++ pad8_ payload
where
  pad8_ (l : List Nat) : List Nat := l ++ List.replicate ((8 - l.length % 8) % 8) 0

/-- Bytes that the chunks of a payload take in the ring, where so much of the open extent is left (R277, R280). -/
def chunksLen (e : Nat) : Nat → Nat → Nat → Nat
  | 0, _, _ => 0
  | k + 1, room, n =>
    if room < 32 then chunksLen e k e n
    else if n ≤ room - 32 then 32 + (n + 7) / 8 * 8
    else room + chunksLen e k e (n - (room - 32))

/-- Cuts that a payload can need, as fuel. -/
def chunkFuel (payload : Nat) : Nat := payload / 65504 + 4

/-- Put a unit into extents, cut where an extent ends (R280). The flag says that an extent was to be had for all of it. -/
def State.stage (s : State) (t k ty take : Nat) (gap : Bool) (u : RecUnit) : Nat → Bool → List Nat → State × Bool
  | 0, _, _ => (s, false)
  | fuel + 1, cont, payload =>
    let e := s.extBytes take
    let (s, x) : State × Option Extent := match s.openExtent t take with
      | some x => (s, some x)
      | none =>
        let y := s.take take
        let m := (s.takeMags take).length
        if m = 0 ∨ y.limit ≤ y.nextExt / m then (s, none)
        else
          let x : Extent := { take := take, num := y.nextExt, tile := t, since := s.now }
          (({ s with store.extents := s.store.extents ++ [x] }).setTake take { y with nextExt := y.nextExt + 1 }, some x)
    match x with
    | none => (s, false)
    | some x =>
      let room := e - x.len
      if room < 32 then (s.extSend x).stage t k ty take gap u fuel cont payload
      else
        let part := payload.take (room - 32)
        let rest := payload.drop (room - 32)
        let bs := chunkBytes (s.take take).id k ty cont gap t u.cnt u.status u.n part
        let (s, runs) := s.stgPut t gap bs
        let x := { x with len := x.len + bs.length, parts := x.parts ++ runs, frames := if x.frames.contains u.cnt then x.frames else u.cnt :: x.frames }
        let s := s.setExtent x
        let s := if e < x.len + 32 then s.extSend x else s
        if rest.isEmpty then (s, true) else s.stage t k ty take gap u fuel true rest

/-- A unit of a stream becomes a chunk, or a GAP chunk where the ring has no room outside the reserve (R277, R278). -/
def State.recUnit (s : State) (t k : Nat) (u : RecUnit) : State :=
  let put := fun (s : State) (gap : Bool) (payload : List Nat) => s.stage t k u.ty u.take gap u (chunkFuel payload.length) false payload
  let full := fun (s : State) => (s.addF 0 (TK_LOST_FRAMES u.take) 1).takeFull u.take
  let e := s.extBytes u.take
  let left := match s.openExtent t u.take with
    | some x => e - x.len
    | none => e
  if u.ty = 0 ∨ chunksLen e (chunkFuel u.payload.length) left u.payload.length ≤ s.stgRoom t then
    let (s, ok) := put s false u.payload
    if ok then s else full s
  else
    let s := s.raise t 143
    if s.stgHeld t true + 32 ≤ stgReserve then
      let (s, ok) := put s true []
      if ok then s.addF t (RS_STAT_GAPS k) 1 else full s
    else s.addF t (RS_STAT_LOST k) 1

/-- REC_CHUNK: the next unit of a recording stream is recorded where it began within its take; a FULL take counts it (R279, R282). -/
def State.recChunk (s : State) (t k : Nat) : State :=
  match smGet s.store.units (tk t k) [] with
  | [] => s
  | u :: l =>
    let s := { s with store.units := smPut s.store.units (tk t k) l [] }
    let st := s.takeState u.take
    let s :=
      if !s.inTake t u then s
      else if s.on 0 (TK_STAT_FULL u.take) then s.when (st != 4) fun s => s.addF 0 (TK_LOST_FRAMES u.take) 1
      else s.when (st == 1 || (st == 2 && (s.take u.take).flushLeft.isNone)) fun s => s.recUnit t k u
    s.takeClosing u.take

/-- EXTENT_FLUSH_TIMEOUT: FLUSH ms after its first chunk an extent is padded and sent (R280). -/
def State.extTimeout (s : State) (t k : Nat) : State :=
  let f := (s.take k).flush
  match s.openExtent t k with
  | some e => if f ≠ 0 ∧ e.since + f * 1000 * usTicks ≤ s.now then s.extSend e else s
  | none => s

/-- TKt_DUR: the extents below it are durable (R281). -/
def durable (done : List Nat) : Nat → Nat → Nat
  | 0, n => n
  | k + 1, n => if done.contains n then durable done k (n + 1) else n

/-- MAG_RESPONSE: the RESPONSE of a WRITE or FLUSH of a take advances its durable prefix, closes it or fails it (R281,
R282). -/
def State.magResponse (s : State) (t tag : Nat) : State :=
  match (s.mag t).find? fun m => m.tag = tag && m.status.isSome && m.use ≤ 1 with
  | none => s
  | some m =>
    let s := s.magDrop t tag
    let k := m.who
    let st := m.status.getD 0
    let live := s.takeState k = 1 ∨ s.takeState k = 2
    let s := if ¬ live then s
      else if st ≠ 0 then s.takeFail k st
      else if m.use = 0 then
        if s.store.extents.any fun e => e.take = k ∧ e.num = m.num then
          let s := { s with store.extents := s.store.extents.filter fun e => ¬(e.take = k ∧ e.num = m.num) }
          let x := s.take k
          let done := m.num :: x.done
          let n := durable done done.length (s.f 0 (TK_DUR_EXTENTS k))
          (s.setTake k { x with done := done.filter (n ≤ ·) }).setF 0 (TK_DUR_EXTENTS k) n
        else s
      else s.setTake k { s.take k with flushOut := (s.take k).flushOut - 1 }
    s.magFreed

/-- Every tag of a magazine link ends with a status; its takes fail (R282, R350). -/
def State.magEndAll (s : State) (t status : Nat) : State :=
  let l := (s.mag t).filter fun (m : MagCmd) => m.status.isNone && m.use ≤ 1 && m.who != orphan
  let s := s.setMag t ((s.mag t).filterMap fun (m : MagCmd) =>
    if m.use = 2 ∧ m.who ≠ orphan then some (if m.status.isNone then { m with status := some status } else m) else none)
  s.each l fun s (m : MagCmd) => s.takeFail m.who status

/-- Takes that have a stream on tile t, or that write its magazine link, fail when it is isolated; what the tile had staged is gone (R282,
R488). -/
def State.takesIsolated (s : State) (t : Nat) : State :=
  let s := s.each (List.range 8) fun s k =>
    let x := s.take k
    s.when (x.tiles.contains t || bit x.mags t || s.store.extents.any fun e => e.take = k && e.tile = t) fun s => s.takeFail k 0x17
  { s with store.units := s.store.units.filter fun x => decide (x.1 / 0x100000 ≠ t), store.extents := s.store.extents.filter (·.tile ≠ t) }

/-! ### The burst store -/

def State.bur (s : State) (t : Nat) : Burst := smGet s.store.burst t {}

def State.setBur (s : State) (t : Nat) (b : Burst) : State := { s with store.burst := smPut s.store.burst t b {} }

def State.burState (s : State) (t : Nat) : Nat := s.f t BS_STAT_STATE

/-- Tiles that take part in the burst: those of T0's source run, by their own words. -/
def State.burTiles (s : State) : List Nat := (s.runOf (s.a 0 BS_CFG_SRC)).filter s.run

/-- How a tile stores a frame (R284): by the frame's own stripe and sample size, and the words in force when it opens. -/
def State.burGeo (s : State) (t : Nat) (f : FrameHdr) : BurGeo :=
  { src := f.src, x := f.x0, sw := f.sw, w := f.w, h := f.h, bits := f.tapBits, rb := (f.sw * f.tapBits + 63) / 64 * 8
    base := s.a64 t BS_BASE_LO, bytes := s.a t BS_SLOT_BYTES_BYTES, slots := max 1 (s.a t BS_SLOTS_SLOTS) }

/-- Put a tile with its first column and bytes of a row in its place from left to right (R21, R288). -/
def insCol (c : Nat × Nat × Nat) : List (Nat × Nat × Nat) → List (Nat × Nat × Nat)
  | [] => [c]
  | d :: l => if c.2.1 ≤ d.2.1 then c :: d :: l else d :: insCol c l

/-- T0 notes how tile t stores. -/
def State.burNote (s : State) (t : Nat) (g : BurGeo) : State :=
  let b := s.bur 0
  s.setBur 0 { b with cols := insCol (t, g.x, g.rb) (b.cols.filter fun c => c.1 ≠ t && (s.runOf g.src).contains c.1) }

/-- Frames before F_T that a stopped tile can show. -/
def Burst.before (b : Burst) : Option Nat := b.trig.map (· - b.first)

/-- When every tile in RUN has stopped, the store is FROZEN: the burst begins where every tile's does (R287). -/
def State.burFreeze (s : State) : State :=
  let ts := s.burTiles
  if ts ≠ [] ∧ ts.all (fun t => s.burState t = 2 ∧ (s.bur t).stopped) then
    let l := ts.filterMap fun t => (s.bur t).before
    let pre := l.foldl min (l.headD 0)
    let b := s.bur (ts.headD 0)
    let n := pre + 1 + b.post
    let v : BurV1 := { n := n, pre := pre, short := ts.any fun t => s.on t BS_STAT_PRE_SHORT
                       lost := ts.foldl (fun m t => max m (s.f t BS_PRE_LOST_LOST)) 0, w := b.geo.w, h := b.geo.h, bits := b.geo.bits }
    let s := s.each ts fun s t => s.setBur t { s.bur t with first := (s.bur t).trig.getD 0 - pre }
    let s := s.each (0 :: ts).eraseDups fun s t => (s.setF t BS_STAT_STATE 3).setReg t BS_FRAMES n
    let s := s.when (!ts.contains 0) fun s => (s.setB 0 BS_STAT_PRE_SHORT v.short).setF 0 BS_PRE_LOST_LOST v.lost
    (s.setBur 0 { s.bur 0 with v1 := some v }).raise 0 145
  else s

/-- Tile t has stored its last frame: what the frames beyond the stop frame have overwritten (R287). -/
def State.burStop (s : State) (t : Nat) : State :=
  let b := s.bur t
  let ft := b.trig.getD 0
  let pre := min (s.a t BS_PRE_PRE) ft
  let extra := b.stored - (b.stopAt + 1)
  let lost := if extra ≤ 2 then 0 else pre + 1 + b.post + extra - b.geo.slots
  let s := s.setBur t { b with stopped := true, first := ft - pre + lost }
  let s := s.when (decide (ft < s.a t BS_PRE_PRE)) fun s => s.setB t BS_STAT_PRE_SHORT true
  let s := s.when (lost != 0) fun s => (s.addF t BS_PRE_LOST_LOST lost).raise t 147
  s.burFreeze

/-- The open frame closes: its index entry is made, and a stop frame ends the writing; then an exchange that waits takes place (R41, R284,
R287). -/
def State.burClose (s : State) (t st : Nat) : State :=
  let b := s.bur t
  match b.frame with
  | none => s
  | some f =>
    let st := if s.marking t 12 || s.overrunning t 1 f.src then orBit st stDamaged else st
    let s := s.endOverrun t 1 f.src
    let e : BurstEnt := { ser := b.stored, cnt := f.cnt, status := st, n := f.n, rows := b.rows }
    let s := s.setBur t { b with index := smIns (b.stored % b.geo.slots) e b.index, stored := b.stored + 1, frame := none, rows := 0 }
    let s := (s.setReg t BS_FRAMES (min (2 ^ 32 - 1) (b.stored + 1))).sramWritten t 10
    let s := if s.burState t = 2 ∧ ¬ b.stopped ∧ b.stopAt ≤ b.stored then s.burStop t else s
    (s.endSec t 12 17).recExchanged t 17

/-- The store of a tile becomes ARMED; T0 outside the run shows what the store does (R285). -/
def State.burArm (s : State) (t : Nat) : State :=
  let s := (s.setReg t BS_STAT (setBits (setBits (s.reg t BS_STAT) 0 2 1) 2 1 0)).setReg t BS_PRE_LOST 0
  (s.setReg t BS_FRAMES 0).setBur t { cols := (s.bur t).cols }

/-- A frame opens at the burst store (R285, R290, R291). -/
def State.burOpen (s : State) (t : Nat) (f : FrameHdr) : State :=
  if s.stale t 12 then s.refuseFrame t
  else
    let s := (s.beginSec t 12 17 f).recExchanged t 17
    let b := s.bur t
    if !s.aOn t BS_CFG_EN then s.endSec t 12 17
    else
      let arm := b.armDue && s.burState t != 3
      let s := s.when arm fun s => (s.burArm t).when (!(s.runOf f.src).contains 0 && s.burState 0 != 1) fun s => s.burArm 0
      let b := s.bur t
      if (s.burState t = 1 ∨ s.burState t = 2) ∧ ¬ b.stopped then
        let g := s.burGeo t f
        (s.setBur t { b with frame := some f, rows := 0, geo := g }).burNote t g
      else s.endSec t 12 17

/-- Store a row of the open frame (R284), unless its port has overrun (R395). -/
def State.burRow (s : State) (t y : Nat) (px : List Nat) : State :=
  let b := s.bur t
  match b.frame with
  | none => s
  | some f =>
    let g := b.geo
    let bs := packWords (px.map fun v => (sval v % 2 ^ g.bits, g.bits))
    let s := s.when (!s.overrunning t 1 f.src) fun s =>
      s.wrAt (port := 1) t (g.base + b.stored % g.slots * g.bytes + y * g.rb) (bs ++ List.replicate (g.rb - bs.length) 0) false
    s.setBur t { b with rows := max b.rows (y + 1) }

/-- Act on tap items until a frame closes. -/
def State.burItems (s : State) (t key : Nat) : Nat → State
  | 0 => s
  | n + 1 =>
    match smGet s.pix.tap key [] with
    | [] => s
    | i :: l =>
      let s := { s with pix.tap := smPut s.pix.tap key l [] }
      match i with
      | .openF f => (s.burOpen t f).burItems t key n
      | .row y px _ => (s.burRow t y px).burItems t key n
      | .closeF st => s.burClose t st

/-- BURST_FRAME_WRITE: the rows of the raw tap up to the end of a frame go to the burst slot (R284). -/
def State.burstFrame (s : State) (t : Nat) : State :=
  s.each (List.range 4) fun s k => s.burItems t (tk t (16 + k)) (smGet s.pix.tap (tk t (16 + k)) []).length

/-- The frames a tile has stored since arming, and the open one, as (number, counter, time). -/
def State.burFrames (s : State) (t : Nat) : List (Nat × Nat × Nat) :=
  let b := s.bur t
  b.index.map (fun e => (e.2.ser, e.2.cnt, e.2.n)) ++ match b.frame with
    | some f => [(b.stored, f.cnt, f.n)]
    | none => []

/-- The latest of stored frames. -/
def lastFrame : List (Nat × Nat × Nat) → Option (Nat × Nat × Nat)
  | [] => none
  | f :: l => match lastFrame l with
    | some g => if g.1 < f.1 then some f else some g
    | none => some f

/-- BURST_TRIGGER_NOTICE: a tile receives F_T, or takes its last frame at or before F_T's time where it has not stored F_T (R287). -/
def State.burNotice (s : State) (t : Nat) : State :=
  let b := s.bur t
  match b.notice with
  | none => s
  | some (cnt, n) =>
    let s := s.setBur t { b with notice := none }
    if s.burState t ≠ 1 ∧ ¬(s.burState t = 2 ∧ ¬ b.stopped) then s
    else
      let fs := s.burFrames t
      let ft := ((fs.find? (·.2.1 = cnt)).orElse fun _ => lastFrame (fs.filter fun f => atOrAfter n f.2.2)).map (·.1)
      let b := s.bur t
      let post := s.a t BS_POST_POST
      let stop := match ft with
        | some x => x + post
        | none => post - 1
      let s := (s.setF t BS_STAT_STATE 2).setBur t { b with trig := ft, stopAt := stop, post := post }
      if (stop < b.stored ∨ (ft.isNone ∧ post = 0)) ∧ b.frame.isNone then s.burStop t else s

/-- A trigger that is not taken is counted (R286). -/
def State.burIgnore (s : State) : State := (s.addF 0 BS_STAT_IGNORED 1).raise 0 146

/-- A trigger of kind k at time N, naming its frame for DIFF (R286). A source's trigger takes the place of a BS_CMD.TRIGGER of the same
tick, which is then the one ignored. -/
def State.burTrigger (s : State) (k n : Nat) (frame : Option Nat) : State :=
  let ts := s.burTiles
  let fs := (s.burFrames (ts.headD 0)).filter fun f => match frame with
    | some c => f.2.1 = c
    | none => atOrAfter n f.2.2
  let instead : Bool := k != 0 && s.burState 0 == 2 && !(s.bur 0).stopped && (s.bur 0).cmdTick == some s.now
  match lastFrame fs with
  | none => s.burIgnore
  | some f =>
    if ts = [] ∨ (s.burState 0 ≠ 1 ∧ !instead) then s.burIgnore
    else
      let s := (s.setReg 0 BS_TFCNT f.2.1).setReg64 0 BS_TTIME_LO n
      let s := s.setBur 0 { s.bur 0 with kind := k, cmdTick := if k = 0 then some s.now else none }
      let s := s.each ts fun s t =>
        let (s, ok) := if t = 0 then (s, true) else s.seamReach 0 t
        s.when ok fun s => s.setBur t { s.bur t with notice := some f.2 }
      let s := if ts.contains 0 then s.burNotice 0 else s.setF 0 BS_STAT_STATE 2
      if instead then s.burIgnore else s.raise 0 144

/-- N of the TS_CHAN of the burst's source on T0, now. -/
def State.burNow (s : State) : Nat := s.tcN 0 (s.a 0 (AD_PED_TS_CHAN (s.a 0 BS_CFG_SRC)))

/-- The source that BS_TRIG on T0 selects fires; in a store that is not ARMED the trigger is counted as ignored (R286). -/
def State.burSource (s : State) (kind arg : Nat) : State :=
  s.when (s.a 0 BS_TRIG_KIND == kind && s.a 0 BS_TRIG_ARG == arg) fun s => s.burTrigger kind s.burNow none

/-- An edge on one of T0's GPIO pins (R286). -/
def State.burPin (s : State) (pin : Nat) (rising : Bool) : State :=
  s.when (s.a 0 BS_TRIG_KIND == 1 && s.a 0 BS_TRIG_ARG % 16 == pin && s.aOn 0 BS_TRIG_EDGE != rising) fun s =>
    s.burTrigger 1 s.burNow none

/-- Frames over DIFF_THR trigger a store that DIFF of their source selects (R286). -/
def State.burDiff (s : State) : State :=
  s.each s.pix.diffOver (fun s (x : Nat × Nat) =>
    s.when (s.a 0 BS_TRIG_KIND == 4 && s.a 0 BS_TRIG_ARG % 4 == x.1) fun s => s.burTrigger 4 s.burNow (some x.2)) |>
  fun s => { s with pix.diffOver := [] }

/-- BS_CMD.TRIGGER on T0 (R286). -/
def State.bsTrigger (s : State) : State := s.burTrigger 0 s.burNow none

/-- A V1 command is executing (R290). -/
def State.v1Busy (s : State) : Bool :=
  s.host.cmds.any fun c => c.started && [1, 2, 4].contains (c.cap.getD 0 0) && c.cap.getD 4 0 == 1

/-- BS_CMD.RELEASE (R290). -/
def State.bsRelease (s : State) (t : Nat) : State :=
  if s.burState t ≠ 3 ∨ s.v1Busy then s.setB t BS_STAT_CMD_ERR true
  else s.each s.tileList fun s u =>
    if s.burState u = 3 then
      (s.setBur u { armDue := s.aOn u BS_CFG_EN }).setF u BS_STAT_STATE 0
    else s

/-! ### Aborts and clock loss -/

/-- UNIT_ABORT of REC, or the clock-loss sequence, on a tile (R291). -/
def State.recCut (s : State) (t bit_ cause : Nat) : State :=
  let s := s.each (List.range 8) fun s k => s.takeFail k cause
  s.burClose t (2 ^ 31 + 2 ^ bit_)

end Sys2Proof.Machine
end

