-- ==== Sys2Proof/Machine/Hevce.lean ====
section
/-!
DEFINITION. The HEVC encoder (chapter 12): input pictures and the reference pool, picture structure, rate control with its
floors, access units and records, offline jobs. What the encoder chooses reaches the part as operands: the bins, the SAD and the reach of a CTU,
the bits of a finished CTU, the head and the substreams of an access unit.
-/

namespace Sys2Proof.Machine

def State.enc (s : State) (h c : Nat) : EncCtx := smGet s.hevc.enc (tk h c) {}

def State.setEnc (s : State) (h c : Nat) (x : EncCtx) : State := { s with hevc.enc := smPut s.hevc.enc (tk h c) x {} }

/-- Tiles that code columns of a context (R295). -/
def State.heMembers (s : State) (h c : Nat) : List Nat := ((s.heCols 0 h c).map (·.2.2)).eraseDups

/-- The context codes: enabled, current, on its HOME. -/
def State.heOn (s : State) (h c : Nat) : Bool := s.aOn h (HE_CFG_EN c) && !s.stale h (13 + c) && s.a h (HE_CFG_HOME c) == h

/-! ### Pool marks (R306) -/

def State.heMark (s : State) (h c i : Nat) : Nat := bits (s.reg h (HE_MARKS c)) (2 * i) 2

/-- HOME sends every mark to the members, so that marks agree (R306). -/
def State.heSetMarks (s : State) (h c v : Nat) : State :=
  let free := ((List.range 16).filter fun i => bits v (2 * i) 2 = 0).length
  s.each (h :: s.heMembers h c) fun s t => (s.setReg t (HE_MARKS c) v).setF t (HE_STAT_FREE c) free

def State.heSetMark (s : State) (h c i m : Nat) : State := s.heSetMarks h c (setBits (s.reg h (HE_MARKS c)) (2 * i) 2 m)

/-- Margins for pool buffers that are given up, or of all of them, reach no member any more. -/
def State.heNoMargins (s : State) (h c : Nat) (bufs : List Nat) : State :=
  s.each (s.heMembers h c) fun s t =>
    let x := s.enc t c
    s.setEnc t c { x with margins := x.margins.filter fun m => !bufs.contains m.buf, marginGot := x.marginGot.filter fun m => !bufs.contains m.1 }

/-- Every buffer marked SHORT_TERM or LONG_TERM that is not kept becomes UNUSED. -/
def State.heKeep (s : State) (h c : Nat) (keep : List Nat) : State :=
  let drop := (List.range 16).filter fun i => 2 ≤ s.heMark h c i && !keep.contains i
  let s := (s.each drop fun s i => s.heSetMark h c i 0).heNoMargins h c drop
  let x := s.enc h c
  s.setEnc h c { x with refs := x.refs.filter fun i => !drop.contains i }

/-- A poisoned word, or one that decodes as uncorrectable, stands in a run of a tile's DRAM (R413). -/
def State.poisonIn (s : State) (t a n : Nat) : Bool :=
  let inRun := fun k => decide (wkey t (a / 8 * 8) ≤ k ∧ k ≤ wkey t (a + n - 1))
  n ≠ 0 && (s.failedAt t a || s.mem.ecc.any fun e => inRun e.1 &&
    (match eccDecode (eccSyndrome e.2) (smGet s.mem.pmap e.1 false) with
     | .poisoned => true
     | .uncorrectable => true
     | _ => false))

/-- A poisoned word stands in a run of bytes at a DRAM address. -/
def State.poisonAt (s : State) (t a n : Nat) : Bool :=
  if s.dramOk t a n then s.poisonIn (dramAt t a).1 (dramAt t a).2 n else true

/-! ### Pool buffers (R296, R297, R306) -/

/-- Free samples of d bits in 16-bit containers: what a reconstruction holds is the encoder's choice. -/
def State.freshPixels (s : State) (d : Nat) : Nat → State × List Nat
  | 0 => (s, [])
  | n + 1 =>
    let r := s.fresh
    let q := r.2.freshPixels d n
    (q.1, leBytes 2 (r.1 % 2 ^ d) ++ q.2)

/-- How a member's pool buffers are laid out: place of buffer 0, bytes of a buffer, luma samples of a row, luma and chroma rows, columns. A
buffer holds the luma rows, then the chroma rows with Cb and Cr in turn, then the motion field by rows of blocks (DESIGN CHOICE, log 94). -/
structure PoolGeo where
  base : Nat
  slot : Nat
  wm : Nat
  hc : Nat
  cc : Nat
  cols : List PoolCol

def State.poolGeo (s : State) (h c t : Nat) : PoolGeo :=
  let hc := coded8 (s.a h (HE_SIZE_H c))
  let cols := s.poolCols 0 h c t
  { base := s.a64 h (HE_POOL_LO c), slot := s.a h (HE_POOL_SLOT_POOL_SLOT c), wm := colsWidth cols, hc := hc
    cc := if s.he422 0 h c then hc else hc / 2, cols := cols }

/-- Place in a buffer's rows of a picture column that tile column p's part holds. -/
def PoolCol.at_ (p : PoolCol) (x : Nat) : Nat := p.ofs + (x + p.lm - p.x)

def PoolGeo.luma (g : PoolGeo) (y p : Nat) : Nat := (y * g.wm + p) * 2
def PoolGeo.chroma (g : PoolGeo) (y p : Nat) : Nat := g.luma g.hc 0 + (y * g.wm + p / 2 * 2) * 2
def PoolGeo.motion (g : PoolGeo) (y p : Nat) : Nat := g.chroma g.cc 0 + (y * ((g.wm + 15) / 16) + p / 16) * 16

def State.poolPut (s : State) (t : Nat) (g : PoolGeo) (buf ofs : Nat) (bs : List Nat) : State := s.wrAt (port := 7) t (g.base + buf * g.slot + ofs) bs false

/-- A poisoned word stands in a buffer on tile t. -/
def State.poolPoison (s : State) (t : Nat) (g : PoolGeo) (buf : Nat) : Bool :=
  s.poisonAt t (g.base + buf * g.slot) (poolBytes g.wm g.hc (decide (g.cc = g.hc)))

/-- A list drawn out to a length by its last element. -/
def drawOut (n : Nat) (l : List Nat) : List Nat := l ++ List.replicate (n - l.length) (l.getLast?.getD 0)

/-- The rows that a row stands for: the last one stands for those below it too (R294). -/
def drawRows (i n all : Nat) : List Nat := if i + 1 = n then (List.range (all - i)).map (i + ·) else [i]

/-- HOME sends a row of the input picture, padded, to the members that a route reaches; they store it as the source of the picture (R294, R296,
R306). -/
def State.heSource (s : State) (h c buf i : Nat) (r : Row3) : State :=
  let w := s.a h (HE_SIZE_W c)
  let n := s.a h (HE_SIZE_H c)
  let y := drawOut (coded8 w) r.y
  let cb := drawOut (coded8 w / 2) r.c1
  let cr := drawOut (coded8 w / 2) r.c2
  s.each (s.heMembers h c) fun s t =>
    let (s, ok) := if t = h then (s, true) else s.seamReach h t
    if !ok then s
    else
      let g := s.poolGeo h c t
      let hasC := g.cc = g.hc ∨ i % 2 = 0
      s.each g.cols fun s p =>
        let s := s.each (drawRows i n g.hc) fun s j => s.poolPut t g buf (g.luma j (p.at_ p.x)) (((y.drop p.x).take p.n).flatMap (leBytes 2))
        if ¬ hasC then s
        else
          let px := ((cb.zip cr).drop (p.x / 2)).take (p.n / 2)
          let rows := if g.cc = g.hc then drawRows i n g.hc else drawRows (i / 2) (n / 2) g.cc
          s.each rows fun s j => s.poolPut t g buf (g.chroma j (p.at_ p.x)) (px.flatMap fun v => leBytes 2 v.1 ++ leBytes 2 v.2)

/-- The reconstruction of a CTU replaces its source, with its motion (R306); its samples are free values. -/
def State.heRecon (s : State) (h c t buf x y d : Nat) : State :=
  let g := s.poolGeo h c t
  match g.cols.find? fun p => p.x ≤ 64 * x && 64 * x < p.x + p.n with
  | none => s
  | some p =>
    let n := min 64 (p.x + p.n - 64 * x)
    let at_ := p.at_ (64 * x)
    let k := g.hc / (if g.cc = 0 then 1 else g.cc)
    let rows := fun (step : Nat) => (List.range (min 64 (g.hc - 64 * y) / step)).map (64 / step * y + ·)
    let s := s.each (rows 1) fun s j =>
      let (s, bs) := s.freshPixels d n
      s.poolPut t g buf (g.luma j at_) bs
    let s := s.each (rows k) fun s j =>
      let (s, bs) := s.freshPixels d (n / 2 * 2)
      s.poolPut t g buf (g.chroma j at_) bs
    s.each (List.range ((min 64 (g.hc - 64 * y) + 15) / 16)) fun s j =>
      let (s, bs) := s.freshBytes (16 * ((n + 15) / 16))
      s.poolPut t g buf (g.motion (4 * y + j) at_) bs

/-- Bytes of a pool buffer, with where they go in another. -/
def State.poolCopy (s : State) (t : Nat) (g : PoolGeo) (buf from_ dest n : Nat) : State × (Nat × List Nat) :=
  let (s, bs, _) := s.rdAt t (g.base + buf * g.slot + from_) n 7
  (s, (dest, bs))

def State.poolCopies (s : State) (t : Nat) (g : PoolGeo) (buf : Nat) : List (Nat × Nat × Nat) → State × List (Nat × List Nat)
  | [] => (s, [])
  | x :: l =>
    let (s, a) := s.poolCopy t g buf x.1 x.2.1 x.2.2
    let (s, r) := s.poolCopies t g buf l
    (s, a :: r)

/-- The margin of a CTU row for the column beside: n luma columns from x on, their chroma, the motion of their blocks (R297). -/
def marginRuns (a b : PoolGeo) (p q : PoolCol) (x n row : Nat) : List (Nat × Nat × Nat) :=
  let rows := (List.range (min 64 (a.hc - 64 * row))).map (64 * row + ·)
  let k := a.hc / (if a.cc = 0 then 1 else a.cc)
  let blocks := (p.at_ x + n + 15) / 16 - p.at_ x / 16
  rows.map (fun y => (a.luma y (p.at_ x), b.luma y (q.at_ x), 2 * n)) ++
    (rows.filter (· % k = 0)).map (fun y => (a.chroma (y / k) (p.at_ x), b.chroma (y / k) (q.at_ x), 4 * ((n + 1) / 2))) ++
    (rows.filter (· % 16 = 0)).map (fun y => (a.motion (y / 16) (p.at_ x), b.motion (y / 16) (q.at_ x), 16 * blocks))

/-- Margins put into a tile's buffer. -/
def State.marginPut (s : State) (h c t : Nat) (m : EncMargin) : State :=
  let g := s.poolGeo h c t
  s.each m.puts fun s x => s.poolPut t g m.buf x.1 x.2

/-- A CTU row of a reference picture is complete in tile column i: the columns nearest its inner edges go to the columns beside, over Seam where
another tile codes those (R297). -/
def State.heSendMargins (s : State) (h c t buf i row : Nat) : State :=
  let m := s.a h (HE_ME_SR_X c) + 8
  let g := s.poolGeo h c t
  match g.cols.find? (·.col = i) with
  | none => s
  | some p =>
    let cols := s.heCols 0 h c
    s.each ([i + 1] ++ if i = 0 then [] else [i - 1]) fun s j =>
      match cols[j]? with
      | none => s
      | some (_, _, u) =>
        let gu := s.poolGeo h c u
        match gu.cols.find? (·.col = j) with
        | none => s
        | some q =>
          let n := min m p.n
          let (s, puts) := s.poolCopies t g buf (marginRuns g gu p q (if j = i + 1 then p.x + p.n - n else p.x) n row)
          let e : EncMargin := { src := t, buf := buf, puts := puts }
          if u = t then s.marginPut h c t e
          else
            let (s, ok) := s.seamReach t u
            s.when ok fun s => s.setEnc u c { s.enc u c with margins := (s.enc u c).margins ++ [e] }

/-- Margins that a member is sent for a reference picture: one for each CTU row and each edge of its columns at another tile's (R297). -/
def State.heMarginsDue (s : State) (h c t : Nat) : Nat :=
  let cols := s.heCols 0 h c
  (s.a h (HE_SIZE_H c) + 63) / 64 * ((cols.zip (cols.drop 1)).filter fun x => (x.1.2.2 = t) ≠ (x.2.2.2 = t)).length

/-! ### Input (R296, R306, R307) -/

/-- The decode context whose ring an encode context reads (R322). -/
def State.heLink (s : State) (h c : Nat) : Option Nat :=
  (List.range 4).find? fun d => s.aOn h (HD_CFG_LINK_EN d) && s.a h (HD_CFG_LINK_CTX d) == c && s.a h (HD_CFG_HOME d) == h

def State.dec (s : State) (h c : Nat) : DecCtx := smGet s.hevc.dec (tk h c) {}

def State.setDec (s : State) (h c : Nat) (x : DecCtx) : State := { s with hevc.dec := smPut s.hevc.dec (tk h c) x {} }

/-- LEVEL of the picture ring (R316). -/
def State.hdSync (s : State) (h c : Nat) : State :=
  s.setF h (HD_STAT_LEVEL c) (((s.dec h c).written + 512 - s.f h (HD_OUT_ACK_ACK c)) % 512)

/-- Take a buffer for an input picture: the first that is UNUSED. -/
def State.heTake (s : State) (h c : Nat) : State × Option Nat :=
  match (List.range 16).find? fun i => s.heMark h c i = 0 with
  | none => (s, none)
  | some i => (s.heSetMark h c i 1, some i)

/-- The bench of the context has exchanged: with EN newly set its first picture is an IDR; without EN nothing waits. -/
def State.heExchanged (s : State) (h c : Nat) : State :=
  match s.takeExchange h (13 + c) 0 with
  | (s, none) => s
  | (s, some old) =>
    if s.a h (HE_CFG_HOME c) ≠ h ∨ bit (old.getD 0 0) 0 ∧ s.aOn h (HE_CFG_EN c) then s
    else
      let s := (s.heSetMarks h c 0).heNoMargins h c (List.range 16)
      let s := s.setEnc h c { margins := (s.enc h c).margins }
      if s.aOn h (HE_CFG_EN c) then s else (s.setF h (HE_STAT_STATE c) 0).arbRemove 6 h c

/-- A repeat picture for each frame missing from the input counter. Its status and time are not stated (free values). -/
def State.heRepeats (s : State) (h c from_ : Nat) : Nat → State
  | 0 => s
  | n + 1 =>
    let (st, s) := s.fresh
    let (ts, s) := s.fresh
    let x := s.enc h c
    let p : EncPic := { hdr := { cnt := from_, n := ts }, status := st % 2 ^ 32, rept := true, whole := true }
    (s.setEnc h c { x with queue := x.queue ++ [p] }).heRepeats h c ((from_ + 1) % 2 ^ 32) n

/-- The first row of a picture of the output channel arrives. -/
def State.heOpen (s : State) (h c : Nat) (f : FrameHdr) : State :=
  if s.stale h (13 + c) then (s.refuseFrame h).setEnc h c { s.enc h c with needIdr := true }
  else
    let s := (s.beginSec h (13 + c) 0 f).heExchanged h c
    if ¬ s.heOn h c ∨ s.aOn h (HE_CFG_INPUT c) then s.setBusy h (13 + c) 0 false
    else
      let x := s.enc h c
      let g := match x.lastCnt with
        | none => 0
        | some l => (f.cnt + 2 ^ 32 - l - 1) % 2 ^ 32
      let s := if 1 ≤ g ∧ g ≤ 8 then s.heRepeats h c ((x.lastCnt.getD 0 + 1) % 2 ^ 32) g else s
      let (s, b) := s.heTake h c
      let x := s.enc h c
      let p : EncPic := { hdr := f, buf := b, rept := b.isNone, overrun := b.isNone, cvs := decide (8 < g) }
      let s := s.setEnc h c { x with queue := x.queue ++ [p], lastCnt := some f.cnt }
      let s := s.setF h (HE_STAT_STATE c) 1
      if b.isNone then s.raise h 166 else s

/-- A row of the open picture: the samples of each column go to its member as class 2 traffic. -/
def State.heRow (s : State) (h c i : Nat) (r : Row3) : State :=
  let x := s.enc h c
  match x.queue.getLast? with
  | none => s
  | some p =>
    if p.whole then s
    else
      let s := s.setEnc h c { x with queue := x.queue.dropLast ++ [{ p with rows := max p.rows (i + 1) }] }
      match p.buf with
      | some b => s.heSource h c b i r
      | none => s

/-- The frame has closed: missing rows are black (R307). -/
def State.heClose (s : State) (h c st : Nat) : State :=
  let x := s.enc h c
  match x.queue.getLast? with
  | none => s
  | some p =>
    if p.whole then s
    else
      let n := s.a h (HE_SIZE_H c)
      let s := match p.buf with
        | some b => s.each ((List.range (n - p.rows)).map (p.rows + ·)) fun s i => s.heSource h c b i (p.hdr.blackRow (s.a h (HE_SIZE_W c)) i)
        | none => s
      (s.setEnc h c { x with queue := x.queue.dropLast ++ [{ p with whole := true, status := st }] }).endSec h (13 + c) 0

/-! ### Picture structure (R307) -/

def State.heGop (s : State) (h c : Nat) : Nat := if s.a h (HE_CFG_GOP c) = 2 then 2 ^ (s.a h (HE_CFG_MGOP c) + 1) else 1

/-- Picture i of those waiting begins with an IRAP. -/
def State.heIrap (s : State) (h c : Nat) (x : EncCtx) (i : Nat) (p : EncPic) : Bool :=
  let per := s.a h (HE_GOP_IPERIOD c)
  (i == 0 && (x.needIdr || x.needCvs || x.forceIrap)) || p.cvs || (per != 0 && per ≤ x.sinceIrap + i)

/-- B pictures strictly between two places of a mini-GOP in coding order: the middle one, then each half; a picture with none
on either side is of the highest layer and no reference. -/
def dyadic : Nat → Nat → Nat → List (Nat × Bool)
  | 0, _, _ => []
  | n + 1, lo, hi =>
    if hi ≤ lo + 1 then []
    else
      let m := (lo + hi) / 2
      (m, decide (lo + 2 < hi)) :: (dyadic n lo m ++ dyadic n m hi)

/-- Place waiting pictures in coding order as far as the structure is known. `last` says that no more will come. -/
def State.hePlan (s : State) (h c : Nat) (last : Bool) : Nat → State
  | 0 => s
  | k + 1 =>
    let x := s.enc h c
    let pics := x.queue.takeWhile (·.whole)
    match pics with
    | [] => s
    | p :: _ =>
      if s.heIrap h c x 0 p then
        let cvs := x.needCvs || p.cvs
        let idr := x.needIdr || cvs || !s.aOn h (HE_CFG_IRAP c)
        let poc := if idr then 0 else x.poc
        let e : EncPlan := { pic := p, ty := if idr then 0 else 1, poc := poc, ref := p.buf.isSome && s.a h (HE_CFG_GOP c) != 0, cvs := cvs }
        (s.setEnc h c { x with
          queue := x.queue.drop 1, plan := x.plan ++ [e], poc := poc + 1, sinceIrap := 1
          needIdr := false, needCvs := false, forceIrap := false }).hePlan h c last k
      else
        let gop := s.a h (HE_CFG_GOP c)
        if gop ≠ 2 then
          let e : EncPlan := { pic := p, ty := if gop = 0 then 2 else 3, poc := x.poc, ref := p.buf.isSome && gop != 0 }
          (s.setEnc h c { x with queue := x.queue.drop 1, plan := x.plan ++ [e], poc := x.poc + 1, sinceIrap := x.sinceIrap + 1 }).hePlan h c last k
        else
          let g := s.heGop h c
          let cut := (List.range (min g pics.length)).find? fun i => i ≠ 0 && s.heIrap h c x i (pics.getD i {})
          let n := match cut with
            | some i => i
            | none => if g ≤ pics.length then g else if last then pics.length else 0
          if n = 0 then s
          else
            let at_ := fun (i ty : Nat) (ref : Bool) =>
              let q := pics.getD (i - 1) {}
              ({ pic := q, ty := ty, poc := x.poc + i - 1, ref := ref && q.buf.isSome } : EncPlan)
            let es := at_ n 3 true :: (dyadic 4 0 n).map fun e => at_ e.1 4 e.2
            (s.setEnc h c { x with
              queue := x.queue.drop n, plan := x.plan ++ es, poc := x.poc + n, sinceIrap := x.sinceIrap + n }).hePlan h c last k

/-- Pictures placed and not yet coded wait again in input order: a new coded video sequence begins with the next one. -/
def State.heReplan (s : State) (h c : Nat) : State :=
  let x := s.enc h c
  let back := ((List.range x.poc).filterMap fun i => x.plan.find? (·.poc = i)).map (·.pic)
  s.setEnc h c { x with queue := back ++ x.queue, plan := [], needCvs := true }

/-! ### Rate control (R302 to R305) -/

/-- Class of a picture type: 0 I, 1 P, 2 B. -/
def heClass (ty : Nat) : Nat := if ty ≤ 2 then 0 else ty - 2

def State.heBr (s : State) (h c : Nat) : Nat := s.a h (HE_RATE_RATE c) * 1000
def State.heB (s : State) (h c : Nat) : Nat := s.a h (HE_CPB_CPB c) * 1000
def State.heCbr (s : State) (h c : Nat) : Bool := !s.aOn h (HE_RC_MODE c)

/-- A fraction, as numerator and denominator, with another added. -/
def fracAdd (x : Int × Nat) (a : Int) (d : Nat) : Int × Nat := if x.2 = d then (x.1 + a, d) else (x.1 * d + a * x.2, x.2 * d)

/-- BR/f in whole bits: L_n is a lower bound, so the fraction is dropped (DEDUCED, log 94; the example of R305 counts so). -/
def State.heIn (s : State) (h c : Nat) : Int := (s.heBr h c * s.a h (HE_TICK_TICK c) / s.a h (HE_SCALE_SCALE c) : Nat)

def State.heL0 (s : State) (h c : Nat) : Int := (s.a h (HE_FULL_INIT_FULL c) * s.heB h c / 1024 : Nat)

/-- The fullness F after a picture of so many bits, and before what BR/f brings is capped at B: F_n - b_n + BR/f (R303). -/
def State.heFull (s : State) (h c : Nat) (start : Bool) (f : Int × Nat) (bits_ : Nat) : Int × Nat :=
  let f : Int × Nat := if start then ((s.a h (HE_FULL_INIT_FULL c) * s.heB h c : Nat), 1024) else f
  let r := fracAdd f (s.heBr h c * s.a h (HE_TICK_TICK c) : Nat) (s.a h (HE_SCALE_SCALE c))
  (r.1 - (bits_ : Int) * r.2, r.2)

def State.heWeight (s : State) (h c cls : Nat) : Nat :=
  if cls = 0 then s.a h (HE_WEIGHT_W_I c) else if cls = 1 then s.a h (HE_WEIGHT_W_P c) else s.a h (HE_WEIGHT_W_B c)

/-- Sum of W over one IRAP period, or one mini-GOP where IPERIOD is 0, and the pictures in it (R303). -/
def State.heMeanW (s : State) (h c : Nat) : Nat × Nat :=
  let per := s.a h (HE_GOP_IPERIOD c)
  let gop := s.a h (HE_CFG_GOP c)
  let g := s.heGop h c
  let irap := if per = 0 then 0 else 1
  let rest := if per = 0 then g else per - 1
  let anchors := if gop = 2 then (rest + g - 1) / g else rest
  (irap * s.heWeight h c 0 +
    (if gop = 0 then rest * s.heWeight h c 0 else anchors * s.heWeight h c 1 + (rest - anchors) * s.heWeight h c 2), irap + rest)

/-- T_n (R303), in whole bits. A mean weight of 0 leaves it unstated (a free value, clipped as the rule says). -/
def State.heTarget (s : State) (h c cls : Nat) (l : Int) (hb : Nat) : State × Int :=
  let cbr := s.heCbr h c
  let (num, n) := s.heMeanW h c
  let br := if cbr then s.heBr h c else s.a h (HE_AVG_AVG c) * 1000
  let a := br * s.a h (HE_TICK_TICK c) * s.heWeight h c cls * n
  let b := s.a h (HE_SCALE_SCALE c) * num
  let d : Int := if cbr then l * 1024 - (s.a h (HE_FULL_TGT_FULL c) * s.heB h c : Nat) else 0
  if b = 0 then
    let (v, s) := s.fresh
    (s, clampI 0 (l - hb) v)
  else (s, clampI 0 (l - hb) ((a * 8192 + d * b).fdiv (8192 * b : Nat)))

/-- 256 * log2 (a / b) to the nearest integer, half upwards: 8 fraction bits, rounded (R305, R4). -/
def log2Frac (a b : Nat) : Int :=
  let p := 2 * a ^ 512
  let q := b ^ 512
  let fl : Int := if q ≤ p then (Nat.log2 (p / q) : Nat) else -((Nat.log2 ((q + p - 1) / p - 1) + 1 : Nat) : Int)
  fl.fdiv 2

/-- CTU rows of a member: one for each CTU row of each of its columns, in coding order, as (column first CTU, width, row). -/
def State.heRows (s : State) (h c t : Nat) : List (Nat × Nat × Nat) :=
  ((s.heCols 0 h c).filter (·.2.2 = t)).flatMap fun x =>
    (List.range ((s.a h (HE_SIZE_H c) + 63) / 64)).map fun r => (x.1, x.2.1, r)

def heSadKey (cls t row : Nat) : Nat := (cls * 8 + t) * 4096 + row

/-- Sum of the SADs of a member's rows below `rows` in the previous picture of a class. -/
def State.heSad (s : State) (h c cls t rows : Nat) : Nat :=
  (List.range rows).foldl (fun a r => a + smGet (s.enc h c).sad (heSadKey cls t r) 0) 0

/-- A picture of the class has been coded. -/
def State.hePrev (s : State) (h c cls : Nat) : Bool := (smLook (s.enc h c).lastQp cls).isSome

/-- c_j of a member (R303). -/
def State.heShare (s : State) (h c cls t : Nat) : Nat :=
  if s.hePrev h c cls then s.heSad h c cls t (s.heRows h c t).length
  else ((s.heCols 0 h c).filter (·.2.2 = t)).foldl (fun a x => a + x.2.1) 0

/-- Bits of a CU of a floored CTU by class (R301). -/
def heCuBits (cls : Nat) : Nat := if cls = 0 then 192 else 72

/-- QP of a member's first CTU row (R305). A logarithm of 0 is not stated (a free value within QP_MIN to QP_MAX). -/
def State.heQpBase (s : State) (h c cls : Nat) (target : Int) : State × Int :=
  let lo : Int := s.a h (HE_RC_QP_MIN c)
  let hi : Int := s.a h (HE_RC_QP_MAX c)
  match smLook (s.enc h c).lastQp cls with
  | none => (s, s.a h (HE_RC_QP_INIT c))
  | some q =>
    let b := smGet (s.enc h c).lastBits cls 0
    if b = 0 ∨ target ≤ 0 then
      let (v, s) := s.fresh
      (s, clampI lo hi (v % 64 : Nat))
    else (s, clampI lo hi (q + rnd 8 (6 * log2Frac b target.toNat)))

/-- QP of a later row (R305): ub so far against the plan of the rows before it. -/
def State.heQpRow (s : State) (h c cls t row : Nat) (m : EncMember) : State × Int :=
  let dq : Int := s.a h (HE_RC_ROW_DQP c)
  let all := (s.heRows h c t).length
  let (num, den) := if s.hePrev h c cls then (s.heSad h c cls t row, s.heSad h c cls t all) else (row, all)
  let plan := if den = 0 then 0 else (m.share * num).fdiv (den : Nat)
  if m.ub = 0 ∨ plan ≤ 0 then
    let (v, s) := s.fresh
    (s, m.qpBase + clampI (-dq) dq (sx 5 v))
  else (s, m.qpBase + clampI (-dq) dq (rnd 10 (s.a h (HE_RC_ROW_GAIN c) * 6 * log2Frac m.ub plan.toNat)))

/-! ### Coding a picture -/

/-- CRC-32 of a context's active bench on a tile (R297). -/
def State.heCrc (s : State) (t c : Nat) : Nat :=
  crc32 ((List.range (unitWords (13 + c))).flatMap fun w => leBytes 4 (s.reg t (wordAt (13 + c) w + 0x8000)))

/-- What the RPS of a picture does (R306, R307): the buffer that becomes long-term, and those kept; none at all for a B picture, which keeps what
its mini-GOP needs. No picture is kept at an IRAP or under INTRA; at a P picture the NREF latest, and the long-term one. -/
def State.heRefs (s : State) (h c : Nat) (e : EncPlan) : Option (Option Nat × List Nat) :=
  let x := s.enc h c
  if e.ty ≤ 2 then some (none, [])
  else if e.ty = 4 then none
  else
    let lt := (List.range 16).filter fun i => s.heMark h c i = 3
    let short := x.refs.filter fun i => s.heMark h c i = 2
    let per := s.a h (HE_GOP_LTR_PERIOD c)
    let due := s.aOn h (HE_CFG_LTR_EN c) && (lt == [] || (per != 0 && per ≤ x.sinceLtr))
    match due, short.getLast? with
    | true, some b =>
      let rest := short.dropLast
      some (some b, b :: rest.drop (rest.length - s.a h (HE_CFG_NREF c)))
    | _, _ => some (none, lt ++ short.drop (short.length - s.a h (HE_CFG_NREF c)))

/-- The RPS of a picture takes effect, at its start (R306, R307). -/
def State.heRps (s : State) (h c : Nat) (e : EncPlan) : State :=
  match s.heRefs h c e with
  | none => s
  | some (b, keep) =>
    let s := match b with
      | some b => s.heSetMark h c b 3
      | none => s
    let s := s.heKeep h c keep
    if b.isSome ∨ e.ty ≤ 2 then s.setEnc h c { s.enc h c with sinceLtr := 0 } else s

/-- The last record of a context (R308). -/
def State.heRecord (s : State) (h c : Nat) (p : EncPic) (st w14 w18 l bytes : Nat) : State × List Nat :=
  let r := leBytes 4 p.hdr.cnt ++ leBytes 4 st ++ leBytes 8 p.hdr.n ++ leBytes 4 bytes ++ leBytes 4 w14 ++ leBytes 4 w18 ++ leBytes 4 l
  let s := s.setReg h (HE_FCNT c) p.hdr.cnt
  let s := s.setReg h (HE_AUSTAT c) w14
  (s.setReg h (HE_AUBYTES c) bytes, r)

/-- A record and its access unit go to the ring and to REC (R308). -/
def State.heDeliver (s : State) (h c : Nat) (p : EncPic) (st : Nat) (unit : List Nat) : State :=
  let s := if s.aOn h (HE_OUT_DRAM_EN c) then
      let size := s.a h (HE_AU_SIZE_KIB c) * 1024
      let base := s.a64 h (HE_AU_LO c)
      let bs := unit ++ List.replicate ((64 - unit.length % 64) % 64) 0
      let ofs := s.reg h (HE_NEXT c)
      let s := s.wrAt (port := 8) h (base + ofs) (bs.take (size - ofs)) false
      let s := s.wrAt (port := 8) h base (bs.drop (size - ofs)) false
      s.setReg h (HE_NEXT c) (if size = 0 then 0 else (ofs + bs.length) % size)
    else s
  if s.aOn h (HE_OUT_REC_EN c) then
    s.recFeed h 2 c { cnt := p.hdr.cnt, status := st, n := p.hdr.n, tick := p.hdr.tick, payload := unit }
  else s

/-- Word 0x14 of a record. -/
def heWord14 (e : EncPlan) (floored mismatch discarded : Bool) : Nat :=
  e.poc % 65536 + e.ty * 2 ^ 16 + b2n floored * 2 ^ 19 + b2n e.pic.rept * 2 ^ 20 + b2n e.pic.overrun * 2 ^ 21 +
    b2n e.cvs * 2 ^ 22 + b2n mismatch * 2 ^ 23 + b2n discarded * 2 ^ 24

/-- A context that a missed commit has left behind on HOME or on a member marks its pictures DAMAGED (R58). -/
def State.heMarking (s : State) (h c : Nat) : Bool := (h :: s.heMembers h c).any fun t => s.marking t (13 + c)

/-- The pictures in flight, the oldest first: those on their way through the entropy engines, then the one in the pixel engines. -/
def EncCtx.pics (x : EncCtx) : List EncCoding := x.leaving ++ x.coding.toList

/-- The record of a picture whose coding is ended says DISCARDED, and its buffer is UNUSED (R308). -/
def State.heDiscard (s : State) (h c : Nat) (bit_ : Nat) (cod : EncCoding) : State :=
  let e := cod.plan
  let st := orBit (if s.heMarking h c then orBit e.pic.status stDamaged else e.pic.status) bit_
  let (s, r) := s.heRecord h c e.pic st (heWord14 e false false true) 0 (cod.l.toNat % 2 ^ 32) 0
  let s := s.heDeliver h c e.pic st r
  match e.pic.buf with
  | some b => (s.heSetMark h c b 0).heNoMargins h c [b]
  | none => s

/-- The coding of every picture in flight is ended; a new coded video sequence follows (R307, R309, R488). -/
def State.heDiscardAll (s : State) (h c bit_ : Nat) : State :=
  let s := s.each (s.enc h c).pics fun s cod => s.heDiscard h c bit_ cod
  let s := s.each (s.heMembers h c) fun s t => s.setF t (HE_STAT_SUMP c) 0
  (s.setEnc h c { s.enc h c with coding := none, leaving := [] }).heReplan h c

/-- The arbiter's job of an offline context ends in a state. -/
def State.heEnd (s : State) (h c st : Nat) : State :=
  let s := (s.setF h (HE_STAT_STATE c) st).arbRemove 6 h c
  s.when (st == 3) fun s => s.raise h 170

/-- No further picture will come to an offline context. -/
def State.heNoMore (s : State) (h c : Nat) : Bool :=
  s.aOn h (HE_CFG_INPUT c) &&
  match s.heLink h c with
  | some d => [0, 3, 4, 5, 6].contains (s.f h (HD_STAT_STATE d)) && s.f h (HD_STAT_LEVEL d) == 0
  | none => s.f h (HE_JOB_FRAMES c) ≤ (s.enc h c).taken

/-- At a picture boundary SUSPEND and CANCEL take effect (R309), and a job with nothing left is DONE. -/
def State.heBoundary (s : State) (h c : Nat) : State :=
  let x := s.enc h c
  if ¬ s.aOn h (HE_CFG_INPUT c) ∨ x.pics ≠ [] ∨ s.f h (HE_STAT_STATE c) ≠ 1 then s
  else if x.cancelDue then
    (s.setEnc h c { x with cancelDue := false, suspendDue := false }).heEnd h c 4
  else if x.suspendDue then (s.setEnc h c { x with suspendDue := false }).setF h (HE_STAT_STATE c) 2
  else if s.heNoMore h c ∧ x.queue = [] ∧ x.plan = [] then s.heEnd h c 3
  else s

/-- The margins of every reference that the next picture keeps are complete on every member (R297). -/
def State.heMarginsIn (s : State) (h c : Nat) (e : EncPlan) : Bool :=
  let keep := match s.heRefs h c e with
    | some (_, l) => l
    | none => (List.range 16).filter fun i => 2 ≤ s.heMark h c i
  (s.heMembers h c).all fun t => keep.all fun b => s.heMarginsDue h c t ≤ smGet (s.enc t c).marginGot b 0

/-- Begin the next picture in coding order (R297, R302, R303). -/
def State.heBegin (s : State) (h c : Nat) : State :=
  let s := s.hePlan h c (s.heNoMore h c) 32
  let s := s.heBoundary h c
  let x := s.enc h c
  match x.coding, x.plan with
  | none, e :: rest =>
    if ¬ s.heOn h c ∨ s.f h (HE_STAT_STATE c) ≠ 1 ∨ x.suspendDue ∨ x.cancelDue ∨ ¬ s.heMarginsIn h c e then s
    else
      let s := s.heRps h c e
      let cls := heClass e.ty
      let l := if e.cvs then s.heL0 h c else x.l.getD (s.heL0 h c)
      let hb := if e.ty ≤ 1 then 4096 else 1024
      let s := s.when e.cvs fun s => s.raise h 167
      let (s, target) := s.heTarget h c cls l hb
      let ts := s.heMembers h c
      let phi := fun t => s.floorCost 0 h c t (heCuBits cls)
      let sumPhi := ts.foldl (fun a t => a + phi t) 0
      let sumC := ts.foldl (fun a t => a + s.heShare h c cls t) 0
      let (s, qp) := s.heQpBase h c cls target
      let (v, s') := s.fresh
      let s := if sumC = 0 then s' else s
      let member := fun t : Nat =>
        let k := s.heShare h c cls t
        ({ cap := phi t + (if sumC = 0 then (v : Int) else ((l - hb - sumPhi) * k).fdiv (sumC : Nat)),
           share := if sumC = 0 then 0 else (target * k).fdiv (sumC : Nat),
           qp := qp, qpBase := qp, floored := e.pic.rept } : EncMember)
      let bufs := e.pic.buf.toList ++ if 3 ≤ e.ty then (s.enc h c).refs else []
      let poison := ts.any fun t => bufs.any (s.poolPoison t (s.poolGeo h c t))
      let s := s.when poison fun s => s.raise h 169
      let cod : EncCoding := { plan := e, l := l, h := hb, target := target, members := ts.foldl (fun m t => smPut m t (member t) {}) []
                               mismatch := ts.any fun t => s.heCrc t c ≠ s.heCrc h c, poison := poison, start := e.cvs || x.l.isNone }
      let y := s.enc h c
      s.setEnc h c { y with plan := rest, coding := some cod, l := some l, pocs := match e.pic.buf with
        | some b => smIns b e.poc y.pocs
        | none => y.pocs }
  | _, _ => s

/-- Samples of 16-bit containers. -/
def words16 : Nat → List Nat → List Nat
  | 0, _ => []
  | n + 1, l => leNum (l.take 2) :: words16 n (l.drop 2)

/-- Every other element, from the first on. -/
def evens {α : Type} : List α → List α
  | a :: _ :: l => a :: evens l
  | l => l

/-- Rows i and on of an input frame in memory, YC16 at an address, go to the members (R240, R296); the flag says that a word was poisoned. -/
def State.heMemRows (s : State) (h c buf base i : Nat) : Nat → State × Bool
  | 0 => (s, false)
  | k + 1 =>
    let w := s.a h (HE_SIZE_W c)
    let stride := s.a h (HE_IN_STRIDE_STRIDE c)
    let c422 := s.he422 0 h c
    let (s, y, p) := s.rdAt h (base + i * stride) (2 * w) 7
    let (s, ch, q) := if c422 ∨ i % 2 = 0 then s.rdAt h (base + s.a h (HE_IN_COFS_C_OFS c) + (if c422 then i else i / 2) * stride) (2 * w) 7 else (s, [], false)
    let cs := words16 w ch
    let s := s.heSource h c buf i { y := words16 w y, c1 := evens cs, c2 := evens (cs.drop 1) }
    let (s, bad) := s.heMemRows h c buf base (i + 1) k
    (s, p || q || bad)

/-- HEVCE_INPUT_ROW: the next thing that the output channel gives the context (R296), or, with INPUT = MEM, the next frame in
memory (R309, R322). -/
def State.heInput (s : State) (h c : Nat) : State :=
  let k := tk h c
  match smGet s.hevc.encIn k [] with
  | i :: l =>
    let s := { s with hevc.encIn := smPut s.hevc.encIn k l [] }
    (match i with
     | .openF f => s.heOpen h c f
     | .row y r => s.heRow h c y r
     | .closeF st => (s.heClose h c st).heBegin h c)
  | [] =>
    if ¬ s.heOn h c ∨ ¬ s.aOn h (HE_CFG_INPUT c) ∨ s.f h (HE_STAT_STATE c) ≠ 1 ∨ s.heNoMore h c then s
    else
      let link := s.heLink h c
      let empty : Bool := match link with
        | some d => s.f h (HD_STAT_LEVEL d) == 0
        | none => false
      match s.heTake h c with
      | (_, none) => s
      | (s', some b) =>
      if empty then s
      else
        let s := s'
        let slot := match link with
          | some d => (s.dec h d).readSlot
          | none => (s.enc h c).taken
        let (s, bad) := s.heMemRows h c b (s.a64 h (HE_IN_LO c) + slot * s.a h (HE_IN_SLOT_SLOT_BYTES c)) 0 (s.a h (HE_SIZE_H c))
        let (s, f, st) := match link with
          | some d =>
            let (s, cnt, _) := s.rdNumAt h (s.a64 h (HD_REC_LO d) + 32 * slot) 4 7
            let (s, st, _) := s.rdNumAt h (s.a64 h (HD_REC_LO d) + 32 * slot + 4) 4 7
            let (s, n, _) := s.rdNumAt h (s.a64 h (HD_REC_LO d) + 32 * slot + 8) 8 7
            let y := s.dec h d
            let s := s.setDec h d { y with readSlot := (y.readSlot + 1) % (s.a h (HD_OUT_STRIDE_NSLOT d) + 1) }
            ((s.setF h (HD_OUT_ACK_ACK d) ((s.f h (HD_OUT_ACK_ACK d) + 1) % 512)).hdSync h d, ({ cnt := cnt, n := n } : FrameHdr), st)
          | none =>
            let (n, s) := s.fresh
            let (st, s) := s.fresh
            let (cnt, s) := s.fresh
            (s, ({ cnt := cnt % 2 ^ 32, n := n } : FrameHdr), st % 2 ^ 32)
        let s := s.when bad fun s => s.raise h 169
        let p : EncPic := { hdr := f, buf := some b, whole := true, status := if bad then orBit st stDamagedData else st }
        let x := s.enc h c
        (s.setEnc h c { x with queue := x.queue ++ [p], taken := x.taken + 1 }).heBegin h c

/-- Sump bytes of a member's part of a picture. -/
def EncMember.sump (m : EncMember) : Nat := m.pend.foldl (fun a x => a + x.bytes) 0

/-- Sump bytes of a context on a tile. -/
def EncCtx.sump (x : EncCtx) (t : Nat) : Nat := x.pics.foldl (fun a p => a + (smGet p.members t {}).sump) 0

/-- Set a member's part of the picture in the pixel engines; SUMP on its tile follows. -/
def State.heSetMember (s : State) (h c t : Nat) (cod : EncCoding) (m : EncMember) : State :=
  let s := s.setEnc h c { s.enc h c with coding := some { cod with members := smPut cod.members t m {} } }
  s.setF t (HE_STAT_SUMP c) (((s.enc h c).sump t + 1023) / 1024)

/-- CTUs of a member in a picture. -/
def State.heTotal (s : State) (h c t : Nat) : Nat := (s.heRows h c t).foldl (fun a x => a + x.2.1) 0

/-- Mean QP of a picture (R308). -/
def State.heMeanQp (s : State) (h c : Nat) (cod : EncCoding) : Nat :=
  let ms := (s.heMembers h c).map fun t => smGet cod.members t {}
  let n := ms.foldl (fun a m => a + m.ctu) 0
  if n = 0 then 0 else (2 * ms.foldl (fun a m => a + m.qpSum) 0 + n) / (2 * n)

/-- H_n and the members' bounds (R302). -/
def State.heBound (s : State) (h c : Nat) (cod : EncCoding) : Nat :=
  cod.h + (s.heMembers h c).foldl (fun a t => a + (smGet cod.members t {}).ub) 0

/-- The pixel engines have coded a picture: its buffer is a reference or free (R306), what the next picture of its type plans with is noted (R303,
R305), the next L follows (R302), and while the entropy engines go on the next picture begins. -/
def State.heHanded (s : State) (h c : Nat) (cod : EncCoding) : State :=
  let e := cod.plan
  let s := match e.pic.buf with
    | some b => s.heSetMark h c b (if e.ref then 2 else 0)
    | none => s
  let cls := heClass e.ty
  let x := s.enc h c
  let sad := (s.heMembers h c).foldl (fun m t =>
    (List.range (s.heRows h c t).length).foldl (fun m r =>
      smPut m (heSadKey cls t r) (smGet (smGet cod.members t {}).sad r 0) 0) m) x.sad
  let b : Int := s.heB h c
  let ub : Nat := s.heBound h c cod
  let l := min (if s.heCbr h c then b - 56 else b) (cod.l - (ub : Int) + s.heIn h c)
  let s := s.setEnc h c { x with
    coding := none, leaving := x.leaving ++ [cod], l := some l, sad := sad
    lastQp := smIns cls (s.heMeanQp h c cod) x.lastQp, lastBits := smIns cls ub x.lastBits
    refs := match e.pic.buf with
      | some b => if e.ref then x.refs ++ [b] else x.refs
      | none => x.refs
    sinceLtr := x.sinceLtr + 1 }
  let s := s.setReg h (HE_LBOUND c) (ux 32 l)
  let s := s.when (cod.mismatch || cod.poison) fun s => s.heReplan h c
  s.heBegin h c

/-- Bits of the CTUs of a member after the k-th, floored, with E for every substream not yet ended (R301, R304). -/
def State.hePhi (s : State) (h c t k cu : Nat) : Nat :=
  let w := s.a h (HE_SIZE_W c)
  let hh := s.a h (HE_SIZE_H c)
  let rows := s.heRows h c t
  let nr := (hh + 63) / 64
  let ctus := rows.flatMap fun x => (List.range x.2.1).map fun i => ctuCus w hh (x.1 + i) x.2.2 * cu
  let ends := ((List.range rows.length).filter fun r => (r + 1) % nr = 0).map fun r =>
    (rows.take (r + 1)).foldl (fun a x => a + x.2.1) 0
  (ctus.drop (k + 1)).foldl (· + ·) 0 + 32 * (ends.filter fun e => k < e).length

/-- How a floored CTU is coded (R301): SAO merged from the left, else from above, where the tile column has that neighbour. -/
def floorCode (sao : Bool) (cls cus i row : Nat) : FloorCode :=
  { sao := if !sao then 0 else if i ≠ 0 then 1 else if row ≠ 0 then 2 else 0, skip := cls != 0, cus := cus }

/-- HEVCE_CTU: the member's pixel engine codes its next CTU (R299, R300, R304, R305): numbers of regular, bypass and terminating bins, luma SAD,
bytes of syntax for the sump, and how many luma columns its reference blocks, taps included, reach beyond the member's columns at inner edges:
never more than MARGIN (R297). A member whose syntax a crossing discards fills the sump no more (R20). -/
def State.heCtu (s : State) (t c regular bypass terminating sad bytes reach : Nat) : State :=
  let h := s.a t (HE_CFG_HOME c)
  match (s.enc h c).coding with
  | none => s
  | some cod =>
    let m := smGet cod.members t {}
    let rows := s.heRows h c t
    let total := s.heTotal h c t
    if total ≤ m.ctu ∨ m.stalled ∨ s.stale t (13 + c) ∨ s.a h (HE_ME_SR_X c) + 8 < reach then s
    else if s.a t (HE_SUMP_QUOTA c) * 1024 < (s.enc h c).sump t + bytes then
      (s.heSetMember h c t cod { m with stalled := true }).addF t (HE_STAT_STALLS c) 1
    else
      let cls := heClass cod.plan.ty
      let cu := heCuBits cls
      let starts := (List.range rows.length).map fun r => (rows.take r).foldl (fun a x => a + x.2.1) 0
      let row := (starts.filter (· ≤ m.ctu)).length - 1
      let x := rows.getD row (0, 1, 0)
      let i := m.ctu - starts.getD row 0
      let (s, qp) := if i ≠ 0 ∨ row = 0 then (s, m.qp) else s.heQpRow h c cls t row m
      let u := (3 * (6 * regular + bypass + terminating) + 1) / 2
      let cus := ctuCus (s.a h (HE_SIZE_W c)) (s.a h (HE_SIZE_H c)) (x.1 + i) x.2.2
      let fl := m.floored || decide (m.cap < m.ub + u + s.hePhi h c t m.ctu cu)
      let spent := if fl then cus * cu else u
      let endSub : Bool := i + 1 = x.2.1 && (row + 1) % ((s.a h (HE_SIZE_H c) + 63) / 64) = 0
      let col := (s.heCols 0 h c).findIdx fun y => y.1 = x.1
      let p : SumpCtu := { bound := spent, bytes := bytes, col := col, floor := if fl then some (floorCode (s.aOn h (HE_CFG_SAO_EN c)) cls cus i x.2.2) else none }
      let m := { m with
        ub := m.ub + spent + (if endSub then 32 else 0), ctu := m.ctu + 1, floored := fl
        floorCtus := m.floorCtus + b2n fl, pend := if m.lost then m.pend else m.pend ++ [p], qp := qp
        qpSum := m.qpSum + (if fl then 51 else qp.toNat), sad := smPut m.sad row (smGet m.sad row 0 + sad) 0 }
      let s := (s.heSetMember h c t cod m).sramWritten t 9
      let s := match cod.plan.pic.buf with
        | some b => s.when (cod.plan.ref && !m.noPool) fun s =>
            (s.heRecon h c t b (x.1 + i) x.2.2 cod.plan.pic.hdr.d).when (decide (i + 1 = x.2.1)) fun s => s.heSendMargins h c t b col x.2.2
        | none => s
      match (s.enc h c).coding with
      | some cod => s.when ((s.heMembers h c).all fun t => (smGet cod.members t {}).ctu == s.heTotal h c t) fun s => s.heHanded h c cod
      | none => s

/-- Change the oldest picture in flight that a test picks. -/
def picsUpd (p : EncCoding → Bool) (f : EncCoding → EncCoding) : List EncCoding → List EncCoding
  | [] => []
  | x :: l => if p x then f x :: l else x :: picsUpd p f l

/-- Change the oldest picture in flight of a context that a test picks; SUMP on a tile follows. -/
def State.hePicUpd (s : State) (h c t : Nat) (p : EncCoding → Bool) (f : EncCoding → EncCoding) : State :=
  let x := s.enc h c
  let x := if x.leaving.any p then { x with leaving := picsUpd p f x.leaving } else { x with coding := x.coding.map fun y => if p y then f y else y }
  (s.setEnc h c x).setF t (HE_STAT_SUMP c) ((x.sump t + 1023) / 1024)

/-- HEVCE_CTU_FINISHED: the entropy engine gives the actual bits of the oldest CTU in the sump (R304); it never writes more
than the bound (R300). -/
def State.heFinished (s : State) (t c bits_ : Nat) : State :=
  let h := s.a t (HE_CFG_HOME c)
  let some_ := fun (k : EncCoding) => (smGet k.members t {}).pend != []
  match (s.enc h c).pics.find? some_ with
  | none => s
  | some cod =>
    let m := smGet cod.members t {}
    match m.pend with
    | [] => s
    | p :: rest =>
      if p.bound < bits_ then s
      else
        let m := { m with ub := m.ub - p.bound + bits_, pend := rest, done := smPut m.done p.col (smGet m.done p.col 0 + bits_) 0 }
        s.hePicUpd h c t some_ fun k => { k with members := smPut k.members t m {} }

/-- HEVCE_SUMP_DRAIN: space freed in the sump resumes a stalled context (R299). -/
def State.heDrain (s : State) (t c : Nat) : State :=
  let h := s.a t (HE_CFG_HOME c)
  match (s.enc h c).coding with
  | none => s
  | some cod =>
    let m := smGet cod.members t {}
    if m.stalled ∧ (s.enc h c).sump t < s.a t (HE_SUMP_QUOTA c) * 1024 then s.heSetMember h c t cod { m with stalled := false } else s

/-- HEVCE_MARGIN_RECEIVE: margins of a reference picture have come from a neighbour (R297). -/
def State.heMargin (s : State) (t c : Nat) : State :=
  let h := s.a t (HE_CFG_HOME c)
  let x := s.enc t c
  match x.margins with
  | [] => s
  | m :: l => ((s.setEnc t c { x with margins := l, marginGot := smPut x.marginGot m.buf (smGet x.marginGot m.buf 0 + 1) 0 }).marginPut h c t m).heBegin h c

/-- A filler data NAL unit of n bytes, n at least 7 (R303; its syntax is H.265's, PRESUMED). -/
def fillerNal (n : Nat) : List Nat := [0, 0, 1, 0x4C, 1] ++ List.replicate (n - 6) 0xFF ++ [0x80]

/-- Every member has finished its substreams. -/
def State.heAllDone (s : State) (h c : Nat) (cod : EncCoding) : Bool :=
  (s.heMembers h c).all fun t =>
    let m := smGet cod.members t {}
    m.ctu == s.heTotal h c t && m.pend == []

/-- One more picture of an offline job is coded. -/
def State.heJobCount (s : State) (h c : Nat) : State :=
  s.when (s.aOn h (HE_CFG_INPUT c)) fun s => s.setF h (HE_JOB_DONE c) ((s.f h (HE_JOB_DONE c) + 1) % 65536)

/-- What a context asks of the access unit of a picture (R293, R294, R307). -/
def State.heWant (s : State) (h c : Nat) (e : EncPlan) : AuWant :=
  { aud := s.aOn h (HE_CFG_AUD_EN c), sao := s.aOn h (HE_CFG_SAO_EN c), ltr := s.aOn h (HE_CFG_LTR_EN c), cbr := s.heCbr h c, ty := e.ty, ref := e.ref
    profile := s.a h (HE_CFG_PROFILE c), tier := s.a h (HE_CFG_TIER c), level := s.a h (HE_CFG_LEVEL c), w := s.a h (HE_SIZE_W c)
    h := s.a h (HE_SIZE_H c), c422 := s.he422 0 h c
    pipe := if s.aOn h (HE_CFG_INPUT c) ∨ e.pic.rept then none else some (e.pic.hdr.d, e.pic.hdr.full, e.pic.hdr.ycc)
    tfn := s.a h (HE_OUT_TFN c), tick := s.a h (HE_TICK_TICK c), scale := s.a h (HE_SCALE_SCALE c), cols := (s.heCols 0 h c).map (·.2.1) }

/-- A head and substreams, one for each tile column in order, are what the encoder writes of a picture (R294, R296, R300, R301): the head within
the header bound, each substream of the bits of its column's CTUs and at most E more. -/
def State.heUnitOk (s : State) (h c : Nat) (cod : EncCoding) (head : List Nat) (subs : List (List Nat)) : Bool :=
  let cols := s.heCols 0 h c
  decide (8 * head.length ≤ cod.h) && subs.length == cols.length &&
    ((List.range cols.length).zip (cols.zip subs)).all (fun x =>
      let n := smGet (smGet cod.members x.2.1.2.2 {}).done x.1 0
      decide (n ≤ 8 * x.2.2.length) && decide (8 * x.2.2.length ≤ n + 32)) &&
    auHeadOk (s.heWant h c cod.plan) head (subs.map List.length)

/-- HEVCE_AU_WRITE: HOME writes the oldest picture's access unit with its filler, and its record (R296, R302, R303, R308): `head` is the AUD,
parameter sets, SEI and slice segment header, `subs` the members' substreams. A member isolated, or whose syntax a crossing has discarded, leaves
every picture in flight without an access unit (R20, R488). -/
def State.heAuWrite (s : State) (h c : Nat) (head : List Nat) (subs : List (List Nat)) : State :=
  match (s.enc h c).pics with
  | [] => s
  | cod :: _ =>
    let e := cod.plan
    if (s.heMembers h c).any fun t => s.isolated t || (smGet cod.members t {}).lost then ((s.heDiscardAll h c stDamaged).heJobCount h c).heBegin h c
    else if (s.enc h c).leaving = [] ∨ ¬ s.heAllDone h c cod ∨ ¬ s.heUnitOk h c cod head subs then s
    else
      let au := head ++ subs.flatten
      let floors := (s.heMembers h c).foldl (fun a t => a + (smGet cod.members t {}).floorCtus) 0
      let st := if cod.poison || cod.sumpBad then orBit e.pic.status stDamagedData else e.pic.status
      let st := if s.heMarking h c then orBit st stDamaged else st
      let w14 := heWord14 e (decide (floors ≠ 0)) cod.mismatch false
      let w18 := min floors 65535 + s.heMeanQp h c cod % 64 * 65536
      let x := s.enc h c
      let b : Int := s.heB h c
      let f := s.heFull h c cod.start x.full (8 * au.length)
      let excess := f.1 - b * f.2
      let fill := if s.heCbr h c ∧ 0 < excess then fillerNal (max 7 ((excess.toNat + 8 * f.2 - 1) / (8 * f.2))) else []
      let unit := if cod.mismatch then [] else au ++ fill
      let f := s.heFull h c cod.start x.full (8 * unit.length)
      let (s, r) := s.heRecord h c e.pic st w14 w18 (cod.l.toNat % 2 ^ 32) unit.length
      let s := s.heDeliver h c e.pic st (r ++ unit)
      let s := s.setEnc h c { s.enc h c with
        leaving := x.leaving.drop 1, full := if b * f.2 < f.1 then (b, 1) else f
        lastBits := if (x.leaving.drop 1).all fun k => heClass k.plan.ty ≠ heClass e.ty then smIns (heClass e.ty) (8 * au.length) x.lastBits else x.lastBits }
      let s := s.when (floors != 0) fun s => (s.addF h (HE_FLOORS_FLOORED c) 1).raise h 164
      let s := s.when e.pic.rept fun s => (s.addF h (HE_FLOORS_REPEATS c) 1).raise h 165
      let s := s.raise h (160 + c)
      let s := s.when cod.mismatch fun s => s.raise h 168
      (s.heJobCount h c).heBegin h c

/-- A crossing of a member tile loses data of the picture in the pixel engines, else of the oldest in flight: syntax at crossing 7, pool accesses
at crossing 8, to the end of the picture, which is DAMAGED (R20; DESIGN CHOICE, log 94). -/
def State.heXing (s : State) (t c x : Nat) : State :=
  let h := s.a t (HE_CFG_HOME c)
  let p := fun (k : EncCoding) => (s.enc h c).coding == none || (s.enc h c).coding == some k
  s.when ((s.heMembers h c).contains t && (s.enc h c).pics != []) fun s => s.hePicUpd h c t p fun k =>
    let m := smGet k.members t {}
    { k with
      plan := { k.plan with pic := { k.plan.pic with status := orBit k.plan.pic.status stDamaged } }
      members := smPut k.members t (if x = 7 then { m with lost := true } else { m with noPool := true }) {} }

/-! ### Commands of a context -/

/-- HEc_CMD.FORCE_IRAP (R307). -/
def State.heForce (s : State) (h c : Nat) : State := s.setEnc h c { s.enc h c with forceIrap := true }

/-- HEc_CMD.START (R309, R464). -/
def State.heStart (s : State) (h c : Nat) : State :=
  let st := s.f h (HE_STAT_STATE c)
  if ¬ s.heOn h c ∨ ¬ s.aOn h (HE_CFG_INPUT c) ∨ st = 1 ∨ st = 2 ∨ (s.arbFind 6 h c).isSome then s
  else s.arbUnit 6 h c (s.heMembers h c).length false

/-- The arbiter admits the context, or a TRANSCODE starts it. -/
def State.heGo (s : State) (h c : Nat) (resume : Bool) : State :=
  let s := s.setF h (HE_STAT_STATE c) 1
  if resume then s.heBegin h c
  else
    let s := s.setF h (HE_JOB_DONE c) 0
    let s := s.heSetMarks h c 0
    (s.heNoMargins h c (List.range 16)).setEnc h c { margins := (s.enc h c).margins }

/-- HEc_CMD.SUSPEND (R309, R468): at the next picture boundary; a waiting START leaves the arbiter, and so does a paused one. -/
def State.heSuspend (s : State) (h c : Nat) : State :=
  if ¬ s.aOn h (HE_CFG_INPUT c) then s
  else
    let s := s.arbRemove 6 h c
    let st := s.f h (HE_STAT_STATE c)
    if st = 1 then (s.setEnc h c { s.enc h c with suspendDue := true }).heBoundary h c else s

/-- The arbiter pauses the context by its own SUSPEND (R466): the job keeps its place. -/
def State.hePause (s : State) (h c : Nat) : State :=
  if s.f h (HE_STAT_STATE c) = 1 then (s.setEnc h c { s.enc h c with suspendDue := true }).heBoundary h c else s

/-- HEc_CMD.RESUME (R309, R468). -/
def State.heResume (s : State) (h c : Nat) : State :=
  if s.aOn h (HE_CFG_INPUT c) ∧ s.f h (HE_STAT_STATE c) = 2 ∧ (s.arbFind 6 h c).isNone then
    s.arbUnit 6 h c (s.heMembers h c).length true
  else s

/-- HEc_CMD.CANCEL (R309). -/
def State.heCancel (s : State) (h c : Nat) : State :=
  let st := s.f h (HE_STAT_STATE c)
  if ¬ s.aOn h (HE_CFG_INPUT c) then s
  else if st = 1 then (s.setEnc h c { s.enc h c with cancelDue := true }).heBoundary h c
  else if st = 2 ∨ (s.arbFind 6 h c).isSome then s.heEnd h c 4
  else s

/-! ### Aborts and clock loss -/

/-- The pictures in flight end with a status bit; pool and sump are emptied (R309). -/
def State.heDrop (s : State) (h c bit_ : Nat) : State :=
  let s := s.each (s.enc h c).pics fun s cod => s.heDiscard h c bit_ cod
  let s := (s.heSetMarks h c 0).heNoMargins h c (List.range 16)
  let s := s.each (h :: s.heMembers h c) fun s t => s.setF t (HE_STAT_SUMP c) 0
  let x := s.enc h c
  s.setEnc h c { needCvs := true, taken := x.taken, lastCnt := x.lastCnt, margins := x.margins, marginGot := x.marginGot }

/-- UNIT_ABORT of HEVCEc on a tile (R309): a member's abort ends the picture of its HOME. -/
def State.heAbort (s : State) (t c : Nat) : State :=
  let h := s.a t (HE_CFG_HOME c)
  if ¬ s.has h ∨ (h ≠ t ∧ ¬ (s.heMembers h c).contains t) then s
  else
    let s := s.heDrop h c stAborted
    let s := { s with hevc.encIn := smPut s.hevc.encIn (tk h c) [] [] }
    let s := (s.setBusy h (13 + c) 0 false).arbRemove 6 h c
    s.setF h (HE_STAT_STATE c) 5

/-- Clock-loss recovery (R309): the picture is discarded with CLOCK_LOSS and a new coded video sequence begins. -/
def State.heRecover (s : State) (h c : Nat) : State :=
  if s.heOn h c ∧ (s.enc h c).pics ≠ [] then (s.heDiscardAll h c stClockLoss).heBegin h c
  else if s.heOn h c then s.heReplan h c
  else s

/-- A stale context holds nothing, and its first picture after becoming current is an IDR (R309). -/
def State.heStale (s : State) (t c : Nat) : State :=
  if s.stale t (13 + c) ∧ s.enc t c ≠ {} then (s.setReg t (HE_MARKS c) 0).setEnc t c {} else s

end Sys2Proof.Machine
end

