-- ==== Sys2Proof/Machine/Hevcd.lean ====
section
/-!
DEFINITION. The HEVC decoder (chapter 13): the commands of a context, its input, the reference check, marks, the picture ring
with its bumping process, reports and stops. What H.265 reads in the stream reaches the part as the operand `CodedPic`.
-/

namespace Sys2Proof.Machine

def State.hdState (s : State) (h c : Nat) : Nat := s.f h (HD_STAT_STATE c)

/-- The context may work: enabled, current, on its HOME. -/
def State.hdOn (s : State) (h c : Nat) : Bool := s.aOn h (HD_CFG_EN c) && !s.stale h (17 + c) && s.a h (HD_CFG_HOME c) == h

/-- Tiles of a context (R314): HOME alone with one column. -/
def State.hdMembers (s : State) (h c : Nat) : List Nat :=
  if s.a h (HD_COLS_NCOL c) ≤ 1 then [h]
  else ((List.range (s.a h (HD_COLS_NCOL c))).map fun i => (s.hdCol 0 h c i).2).eraseDups

/-- Tile columns of pictures of a width as (first CTU, width in CTUs, tile): one on HOME with NCOL = 1 (R314). -/
def State.hdCols (s : State) (h c w : Nat) : List (Nat × Nat × Nat) :=
  let n := s.a h (HD_COLS_NCOL c)
  if n ≤ 1 then [(0, (w + 63) / 64, h)]
  else ((List.range n).foldl (fun (a : Nat × List (Nat × Nat × Nat)) i =>
    let x := s.hdCol 0 h c i
    (a.1 + x.1, a.2 ++ [(a.1, x.1, x.2)])) (0, [])).2

/-- MARGIN of a decode context (R314). -/
def hdMargin : Nat := 264

/-- How a member holds pictures of a coded size (R315): as the encoder does (log 94). -/
def State.hdGeo (s : State) (h c t w hc : Nat) (c422 : Bool) : PoolGeo :=
  let cols := colsHeld w hdMargin (s.hdCols h c w) t
  { base := s.a64 h (HD_POOL_LO c), slot := s.a h (HD_POOL_SLOT_POOL_SLOT c), wm := colsWidth cols, hc := hc
    cc := if c422 then hc else hc / 2, cols := cols }

/-! ### Pool (R315) -/

def State.hdMark (s : State) (h c i : Nat) : Nat := bits (s.reg h (HD_MARKS c)) (2 * i) 2
def State.hdOut (s : State) (h c i : Nat) : Bool := bit (s.f h (HD_OUTPEND_OUT c)) i

/-- HOME sends every mark and output bit to the members. -/
def State.hdSetMark (s : State) (h c i m : Nat) (out : Bool) : State :=
  let v := setBits (s.reg h (HD_MARKS c)) (2 * i) 2 m
  let o := if out then orBit (s.f h (HD_OUTPEND_OUT c)) i else clrBit (s.f h (HD_OUTPEND_OUT c)) i
  let free := ((List.range 16).filter fun k => bits v (2 * k) 2 = 0).length
  s.each ((h :: s.hdMembers h c).eraseDups) fun s t =>
    ((s.setReg t (HD_MARKS c) v).setF t (HD_OUTPEND_OUT c) o).setF t (HD_STAT_FREE c) free

/-- A buffer becomes UNUSED. -/
def State.hdFree (s : State) (h c i : Nat) : State :=
  let s := s.hdSetMark h c i 0 false
  let x := s.dec h c
  s.setDec h c { x with pool := smDel i x.pool }

def State.hdFreeAll (s : State) (h c : Nat) : State := s.each (List.range 16) fun s i => s.hdFree h c i

/-- Buffers whose picture is still to be written out. -/
def State.hdPending (s : State) (h c : Nat) : List Nat := (List.range 16).filter (s.hdOut h c)

def State.hdPoc (s : State) (h c i : Nat) : Int := (smGet (s.dec h c).pool i {}).poc

/-! ### Stops (R319, R323) -/

/-- The words of the error registers: code with nal_unit_type and tile, offset, CTU, POC, missing POC. -/
def hdErr (code nal tile ofs ctu poc refpoc : Nat) : List Nat := [code + nal * 256 + tile * 2 ^ 14, ofs, ctu, poc, refpoc]

def State.hdWriteErr (s : State) (h c : Nat) (e : List Nat) : State :=
  let s := s.setReg h (HD_ERR c) (e.getD 0 0)
  let s := s.setReg64 h (HD_ERR_OFS_LO c) (e.getD 1 0)
  let s := s.setReg h (HD_ERR_CTU c) (e.getD 2 0)
  let s := s.setReg h (HD_ERR_POC c) (e.getD 3 0)
  s.setReg h (HD_ERR_REFPOC c) (e.getD 4 0)

/-- The context leaves its job in a state. -/
def State.hdEnd (s : State) (h c st : Nat) : State :=
  let x := s.dec h c
  ((s.setDec h c { x with stop := none, suspendDue := false, cancelDue := false, flush := false, waiting := false }).setF h (HD_STAT_STATE c) st).arbRemove 7 h c

/-- The stop under way ends once nothing is left to write out; a CANCEL that came meanwhile then takes effect (R319). -/
def State.hdStopped (s : State) (h c : Nat) : State :=
  let x := s.dec h c
  match x.stop with
  | none => s
  | some (st, e) =>
    if s.hdPending h c ≠ [] then s
    else
      let s := s.hdEnd h c st
      if st = 3 then s.raise h 182
      else
        let s := (s.hdWriteErr h c e).raise h 180
        let s := s.when (e.getD 0 0 % 256 == 17) fun s => s.raise h 181
        s.when x.cancelDue fun s => s.setF h (HD_STAT_STATE c) 4

/-- Begin a stop: with a fault, or at the end of the stream (state 3). -/
def State.hdStop (s : State) (h c st : Nat) (e : List Nat) : State :=
  (s.setDec h c { s.dec h c with stop := some (st, e) }).hdStopped h c

/-- A fault stops the context, and what is pending is being written out (R319). -/
def DecCtx.failing (x : DecCtx) : Bool :=
  match x.stop with
  | some (st, _) => st != 3
  | none => false

/-- At a picture boundary SUSPEND and CANCEL take effect (R323), but behind a fault (R319). -/
def State.hdBoundary (s : State) (h c : Nat) : State :=
  let x := s.dec h c
  if x.failing then s
  else if x.cancelDue then s.hdEnd h c 4
  else if x.suspendDue then (s.setDec h c { x with suspendDue := false }).setF h (HD_STAT_STATE c) 2
  else s

/-! ### Output (R316, R317) -/

/-- The bumping process wants a picture written out: a stop or an IRAP empties the pool, or reorder or latency is exceeded, or
the next picture finds the pool as full as the sequence allows. -/
def State.hdDue (s : State) (h c : Nat) : Bool :=
  let x := s.dec h c
  let out := s.hdPending h c
  out != [] && (x.stop.isSome || x.flush || decide (x.reorder < out.length) ||
    (x.latency != 0 && out.any fun i => x.reorder + x.latency - 1 ≤ (smGet x.pool i {}).latency) ||
    (x.room && decide (x.dpb ≤ ((List.range 16).filter fun i => s.hdMark h c i ≠ 0).length)))

/-- The pending picture with the lowest POC. -/
def State.hdNext (s : State) (h c : Nat) : Option Nat :=
  match s.hdPending h c with
  | [] => none
  | i :: l => some (l.foldl (fun a j => if s.hdPoc h c j < s.hdPoc h c a then j else a) i)

/-- Tile columns that meet the cropped picture, as (tile, column, first and last-plus-one luma column). -/
def State.hdParts (s : State) (h c : Nat) (p : DecPic) : List (Nat × PoolCol × Nat × Nat) :=
  (s.hdMembers h c).flatMap fun t => (s.hdGeo h c t p.codedW p.codedH p.c422).cols.filterMap fun q =>
    let a := max q.x p.cropX
    let b := min (q.x + q.n) (p.cropX + p.w)
    if a < b then some (t, q, a, b) else none

/-- A run of a member's buffer goes into the ring on HOME (R314); a poisoned word stays poisoned (R413). -/
def State.hdMove (s : State) (h t a dest n : Nat) : State :=
  let (s, bs, bad) := s.rdAt t a n 7
  s.wrAt (port := 7) h dest bs bad

/-- Chroma rows of a cropped picture. -/
def DecPic.chromaRows (p : DecPic) : Nat := if p.c422 then p.h else (p.h + 1) / 2

/-- The picture in buffer i goes to a slot at an address: luma rows, then chroma rows at C_OFS, in YC16 at STRIDE (R240, R316). -/
def State.hdPut (s : State) (h c i base : Nat) (p : DecPic) : State :=
  let stride := s.a h (HD_OUT_STRIDE_STRIDE c)
  let cofs := s.a h (HD_OUT_COFS_C_OFS c)
  let cy := if p.c422 then p.cropY else p.cropY / 2
  s.each (s.hdParts h c p) fun s x =>
    let (t, q, a, b) := x
    let g := s.hdGeo h c t p.codedW p.codedH p.c422
    let from_ := g.base + i * g.slot
    let s := s.each (List.range p.h) fun s j =>
      s.hdMove h t (from_ + g.luma (p.cropY + j) (q.at_ a)) (base + j * stride + 2 * (a - p.cropX)) (2 * (b - a))
    let m := (a - p.cropX) / 2
    s.each (List.range p.chromaRows) fun s j =>
      s.hdMove h t (from_ + g.chroma (cy + j) (q.at_ a)) (base + cofs + j * stride + 4 * m) (4 * ((b - p.cropX + 1) / 2 - m))

/-- A poisoned word stands in a decoded picture. -/
def State.hdPoison (s : State) (h c i w hc : Nat) (c422 : Bool) : Bool :=
  (s.hdMembers h c).any fun t => s.poolPoison t (s.hdGeo h c t w hc c422) i

/-- HEVCD_PICTURE_OUTPUT: the next picture goes into the ring with its record; a full ring makes the context wait. A poisoned word read
from the pool stops the context (R320); once it stops, the word goes into the ring as it is (DESIGN CHOICE, log 56). -/
def State.hdOutput (s : State) (h c : Nat) : State :=
  let x := s.dec h c
  let st := s.hdState h c
  if ¬ s.hdOn h c ∨ (st ≠ 1 ∧ st ≠ 7) ∨ ¬ s.hdDue h c then s
  else if s.f h (HD_STAT_LEVEL c) = s.a h (HD_OUT_STRIDE_NSLOT c) + 1 then
    if x.waiting then s else (s.setDec h c { x with waiting := true }).addF h (HD_STAT_OUT_WAITS c) 1
  else match s.hdNext h c with
    | none => s
    | some i =>
      let p := smGet x.pool i {}
      if x.stop.isNone ∧ s.hdPoison h c i p.codedW p.codedH p.c422 then s.hdStop h c 6 (hdErr 17 63 h x.pos 0xFFFFFFFF (ux 32 p.poc) 0)
      else
      let s := s.hdPut h c i (s.a64 h (HD_OUT_LO c) + x.slot * s.a h (HD_OUT_SLOT_SLOT_BYTES c)) p
      let r := leBytes 4 p.cnt ++ leBytes 4 p.status ++ leBytes 8 p.n ++ leBytes 4 (ux 32 p.poc) ++ leBytes 4 p.word14 ++
        leBytes 2 p.w ++ leBytes 2 p.h ++ leBytes 4 p.ofs
      let s := s.wrAt (port := 7) h (s.a64 h (HD_REC_LO c) + 32 * x.slot) r false
      let s := s.setDec h c { x with
        written := (x.written + 1) % 512, slot := (x.slot + 1) % (s.a h (HD_OUT_STRIDE_NSLOT c) + 1), waiting := false, lastOut := some p.poc }
      let s := if s.hdMark h c i = 1 then s.hdFree h c i else s.hdSetMark h c i (s.hdMark h c i) false
      let s := ((s.addF h (HD_PICS_COUNT c) 1).hdSync h c).raise h (176 + c)
      let s := if s.hdPending h c = [] then s.setDec h c { s.dec h c with flush := false } else s
      s.hdStopped h c

/-! ### Decoding (R312, R315, R318, R320, R321) -/

def picIrap (p : CodedPic) : Bool := 16 ≤ p.nal && p.nal ≤ 23
def picIdr (p : CodedPic) : Bool := p.nal = 19 || p.nal = 20
def picBla (p : CodedPic) : Bool := 16 ≤ p.nal && p.nal ≤ 18
def picRasl (p : CodedPic) : Bool := p.nal = 8 || p.nal = 9

/-- Type in a record: 0 IDR, 1 CRA, 2 BLA, 3 I, 4 P, 5 B (R317). -/
def picKind (p : CodedPic) : Nat := if picIdr p then 0 else if picBla p then 2 else if picIrap p then 1 else 3 + p.slice % 3

/-- Bytes of a pool buffer that a picture needs on a member (R306 with MARGIN 264, R315). -/
def State.hdPoolNeed (s : State) (h c t : Nat) (p : CodedPic) : Nat := poolBytes (s.hdGeo h c t p.codedW p.codedH p.c422).wm p.codedH p.c422

/-- A limit of R315 or R316 is broken by a picture. -/
def State.hdLimit (s : State) (h c : Nat) (p : CodedPic) : Bool :=
  let stride := s.a h (HD_OUT_STRIDE_STRIDE c)
  let cRows := if p.c422 then p.h else (p.h + 1) / 2
  decide (16 < p.dpb) || (s.hdMembers h c).any (fun t => s.a h (HD_POOL_SLOT_POOL_SLOT c) < s.hdPoolNeed h c t p) ||
    decide (stride < 2 * p.w) ||
    (p.h != 0 && decide (s.a h (HD_OUT_SLOT_SLOT_BYTES c) < stride * (p.h - 1) + 2 * p.w)) ||
    (cRows != 0 && decide (s.a h (HD_OUT_SLOT_SLOT_BYTES c) < s.a h (HD_OUT_COFS_C_OFS c) + stride * (cRows - 1) + 2 * p.w))

/-- The buffer that holds a reference picture with a POC. -/
def State.hdRef (s : State) (h c : Nat) (poc : Int) : Option Nat :=
  (List.range 16).find? fun i => 2 ≤ s.hdMark h c i && s.hdPoc h c i == poc

/-- Marks that the RPS of a picture makes (R315). -/
def State.hdRps (s : State) (h c : Nat) (p : CodedPic) : State :=
  s.each ((List.range 16).filter fun i => 2 ≤ s.hdMark h c i) fun s i =>
    let poc := s.hdPoc h c i
    if (p.longTerm ++ p.longFoll).contains poc then s.hdSetMark h c i 3 (s.hdOut h c i)
    else if (p.before ++ p.after ++ p.foll).contains poc then s
    else if s.hdOut h c i then s.hdSetMark h c i 1 true
    else s.hdFree h c i

/-- The picture's place in the input: (bytes to skip to its access unit, bytes of it, where the next begins), or what the end of
the input makes of it: true at the end of the stream, false where more is awaited, an error code. -/
inductive HdInput where
  | unit (skip len next : Nat)
  | empty (next : Nat)
  | wait
  | ended
  | bad (code : Nat)
  deriving DecidableEq, Repr

/-- Look at the input from the context's place (R312, R320). -/
def State.hdLook (s : State) (h c : Nat) (p : CodedPic) : State × HdInput :=
  let x := s.dec h c
  let left := x.inEnd - x.pos
  if s.aOn h (HD_CFG_INPUT c) then
    if left < 32 then (s, if ¬ x.final then .wait else if left = 0 then .ended else .bad 16)
    else
      let (s, n, _) := s.rdNumAt h (s.a64 h (HD_IN_LO c) + x.pos + 16) 4 7
      let next := (x.pos + 32 + n + 63) / 64 * 64
      if left < 32 + n then (s, if x.final then .bad 16 else .wait)
      else if n = 0 then (s, .empty next)
      else if n ≠ p.len ∧ p.fault.isNone then (s, .bad 16)
      else (s, .unit 32 n next)
  else if left < p.len ∨ left = 0 then (s, if ¬ x.final then .wait else if left = 0 then .ended else .bad 10)
  else (s, .unit 0 p.len (x.pos + p.len))

/-- A picture's rows fill a buffer of every member, with the margins of its columns and its motion, which is the part's own (R314, R315). -/
def State.hdFill (s : State) (h c i : Nat) (p : CodedPic) : State :=
  s.each (s.hdMembers h c) fun s t =>
    let g := s.hdGeo h c t p.codedW p.codedH p.c422
    let s := s.each g.cols fun s q =>
      let first := q.x - q.lm
      let n := q.lm + q.n + q.rm
      let s := s.each ((List.range g.hc).zip p.luma) fun s r =>
        s.poolPut t g i (g.luma r.1 q.ofs) (((r.2.drop first).take n).flatMap (leBytes 2))
      s.each ((List.range g.cc).zip p.chroma) fun s r =>
        s.poolPut t g i (g.chroma r.1 q.ofs) (((r.2.drop (first / 2 * 2)).take ((n + 1) / 2 * 2)).flatMap (leBytes 2))
    let (s, bs) := s.freshBytes ((g.wm + 15) / 16 * ((g.hc + 15) / 16) * 16)
    s.poolPut t g i (g.motion 0 0) bs

/-- The picture is decoded into a buffer (R315, R317); it is DAMAGED where a crossing lost data of it (R20), and in a context that a missed commit
has left behind (R58). -/
def State.hdStore (s : State) (h c i : Nat) (p : CodedPic) (newSeq : Bool) (skip next : Nat) : State :=
  let x := s.dec h c
  let au := s.aOn h (HD_CFG_INPUT c)
  let base := s.a64 h (HD_IN_LO c) + x.pos
  let (s, cnt, _) := if au then s.rdNumAt h base 4 7 else (s, x.order + 1, false)
  let (s, st, _) := if au then s.rdNumAt h (base + 4) 4 7 else (s, 2 ^ 31, false)
  let (s, n, _) := if au then s.rdNumAt h (base + 8) 8 7 else (s, 0, false)
  let st := if x.xing ∨ (h :: s.hdMembers h c).any (fun t => s.marking t (17 + c)) then orBit st stDamaged else st
  let w14 := picKind p + b2n p.hash.isSome * 8 + b2n (p.hash = some true && s.aOn h (HD_CFG_HASH_CHECK c)) * 16 + b2n newSeq * 32
  let e : DecPic := { poc := p.poc, cnt := cnt, status := st, n := n, word14 := w14, w := p.w, h := p.h, ofs := (x.pos + skip) % 2 ^ 32
                      codedW := p.codedW, codedH := p.codedH, cropX := p.cropX, cropY := p.cropY, c422 := p.c422 }
  let pool := x.pool.map fun q => if s.hdOut h c q.1 then (q.1, { q.2 with latency := q.2.latency + 1 }) else q
  let s := s.setDec h c { x with
    pool := smIns i e pool, pos := next, order := x.order + 1, first := false, xing := false, room := false
    noRasl := if picIrap p then newSeq else x.noRasl
    seen := if newSeq then [p.poc] else p.poc :: x.seen, lastOut := if newSeq then none else x.lastOut
    reorder := p.reorder, latency := p.latency, dpb := p.dpb }
  ((s.hdFill h c i p).hdSetMark h c i 2 p.output).addF h (HD_SKIPPED_COUNT c) p.skipped

/-- Every member is in reach of HOME and is reached by it (R314). -/
def State.hdReach (s : State) (h c : Nat) : State × Bool :=
  ((s.hdMembers h c).filter (· ≠ h)).foldl (fun (a : State × Bool) t =>
    if !a.2 then a
    else
      let (s, ok) := a.1.seamReach h t
      if ok then s.seamReach t h else (s, false)) (s, true)

/-- HEVCD_PICTURE_DECODE: the next coded picture. A member that is stale decodes nothing, so the picture then waits (R323). -/
def State.hdDecode (s : State) (h c : Nat) (p : CodedPic) : State :=
  let x := s.dec h c
  if ¬ s.hdOn h c ∨ s.hdState h c ≠ 1 ∨ x.stop.isSome ∨ x.flush ∨ (s.hdMembers h c).any (fun t => s.stale t (17 + c)) then s
  else
    let none32 := 0xFFFFFFFF
    let noPoc := 0x80000000
    match s.hdLook h c p with
    | (s, .wait) => (s.setF h (HD_STAT_STATE c) 7).raise h 183
    | (s, .ended) => s.hdStop h c 3 []
    | (s, .bad code) => s.hdStop h c 6 (hdErr code 63 h x.pos none32 noPoc 0)
    | (s, .empty next) => s.setDec h c { x with pos := next }
    | (s, .unit skip len next) =>
      let base := s.a64 h (HD_IN_LO c) + x.pos
      let skipTo := fun s => State.setDec s h c { s.dec h c with pos := next }
      let fail := fun code refpoc => s.hdStop h c 6 (hdErr code p.nal h (x.pos + skip) none32 (ux 32 p.poc) refpoc)
      if s.poisonAt h base (skip + len) then s.hdStop h c 6 (hdErr 17 63 h x.pos none32 noPoc 0)
      else match p.fault with
      | some (code, nal, tile, ofs, ctu, poc) => s.hdStop h c 6 (hdErr code nal tile (x.pos + skip + ofs) ctu poc 0)
      | none =>
        if x.first ∧ ¬ picIrap p then
          if s.aOn h (HD_CFG_SEEK c) then (skipTo s).addF h (HD_SKIPPED_BYTES_COUNT c) (next - x.pos) else fail 12 0
        else if x.noRasl ∧ picRasl p then (skipTo s).addF h (HD_SKIPPED_COUNT c) (p.skipped + 1)
        else
          let newSeq := picIrap p && (x.first || picIdr p || picBla p || p.eos)
          let missing := if newSeq then none else (p.before ++ p.after ++ p.longTerm).find? fun q => (s.hdRef h c q).isNone
          if s.hdLimit h c p then fail 5 0
          else if !newSeq && (x.seen.contains p.poc || (p.output && (match x.lastOut with
              | some q => decide (p.poc ≤ q)
              | none => false))) then fail 11 0
          else match missing with
          | some q => fail 7 (ux 32 q)
          | none =>
            if newSeq ∧ ¬ p.noPrior ∧ s.hdPending h c ≠ [] then s.setDec h c { x with flush := true }
            else
              let s1 := if newSeq then
                  let n := (s.hdPending h c).length
                  (s.addF h (HD_OUTPEND_DISCARDED c) n).hdFreeAll h c
                else s.hdRps h c p
              let s1 := s1.setDec h c { s1.dec h c with reorder := p.reorder, latency := p.latency, dpb := p.dpb, room := true }
              match (List.range 16).find? fun i => s1.hdMark h c i = 0 with
              | none => s1
              | some i =>
                let refs := (p.before ++ p.after ++ p.longTerm).filterMap (s.hdRef h c)
                if s1.hdDue h c ∧ ¬ x.waiting then s1
                else if !newSeq && refs.any fun b => s.hdPoison h c b p.codedW p.codedH p.c422 then
                  s1.hdStop h c 6 (hdErr 17 p.nal h (x.pos + skip) none32 (ux 32 p.poc) 0)
                else if p.hash = some false ∧ s.aOn h (HD_CFG_HASH_CHECK c) then s1.hdStop h c 6 (hdErr 14 p.nal h (x.pos + skip) none32 (ux 32 p.poc) 0)
                else match s1.hdReach h c with
                  | (s, false) => s
                  | (s, true) => (s.hdStore h c i p newSeq skip next).hdBoundary h c

/-! ### Commands (R312, R316, R318, R323) -/

/-- START and RESTART put the context before its first picture at a place in the stream. -/
def State.hdPlaceAt (s : State) (h c pos inEnd : Nat) (final : Bool) : State :=
  let s := s.hdFreeAll h c
  let x := s.dec h c
  s.setDec h c { pos := pos, inEnd := inEnd, final := final, written := x.written, slot := x.slot, readSlot := x.readSlot }

def State.hdWaiting (s : State) (h c : Nat) : Bool := (s.arbFind 7 h c).isSome

/-- HDc_CMD.START (R318): from IN_BASE, with an empty ring and counters at 0. It is taken where the context is not at work;
ERROR is left by RESTART alone. -/
def State.hdPrepare (s : State) (h c : Nat) : State :=
  let x := s.dec h c
  let s := s.hdPlaceAt h c 0 x.inEnd x.final
  let s := s.setDec h c { s.dec h c with written := 0, slot := 0, readSlot := 0 }
  let s := s.setF h (HD_OUT_ACK_ACK c) 0
  let s := s.each [HD_PICS c, HD_SKIPPED c, HD_SKIPPED_BYTES c] fun s r => s.setReg h r 0
  let s := (s.setF h (HD_STAT_OUT_WAITS c) 0).setF h (HD_OUTPEND_DISCARDED c) 0
  s.hdSync h c

def State.hdStart (s : State) (h c : Nat) : State :=
  if ¬ s.hdOn h c ∨ ¬ [0, 3, 4, 5].contains (s.hdState h c) ∨ s.hdWaiting h c then s
  else (s.hdPrepare h c).arbUnit 7 h c (s.hdMembers h c).length false

/-- HDc_CMD.RESTART (R318): only in ERROR, DONE or CANCELLED; from the offset that IN_END holds now. -/
def State.hdRestart (s : State) (h c : Nat) : State :=
  if ¬ s.hdOn h c ∨ ¬ [6, 3, 4].contains (s.hdState h c) ∨ s.hdWaiting h c then s
  else
    let p := s.reg64 h (HD_IN_END_LO c)
    (s.hdPlaceAt h c p p false).arbUnit 7 h c (s.hdMembers h c).length false

/-- The arbiter admits the context, or a TRANSCODE starts it. -/
def State.hdGo (s : State) (h c : Nat) : State := s.setF h (HD_STAT_STATE c) 1

/-- HDc_CMD.SUSPEND (R323, R468). -/
def State.hdSuspend (s : State) (h c : Nat) : State :=
  let st := s.hdState h c
  let s := s.arbRemove 7 h c
  if st = 1 ∨ st = 7 then (s.setDec h c { s.dec h c with suspendDue := true }).hdBoundary h c else s

/-- The arbiter pauses the context (R466): the job keeps its place. -/
def State.hdPause (s : State) (h c : Nat) : State :=
  let st := s.hdState h c
  if st = 1 ∨ st = 7 then (s.setDec h c { s.dec h c with suspendDue := true }).hdBoundary h c else s

/-- HDc_CMD.RESUME (R323, R468). -/
def State.hdResume (s : State) (h c : Nat) : State :=
  if s.hdState h c = 2 ∧ ¬ s.hdWaiting h c then s.arbUnit 7 h c (s.hdMembers h c).length true else s

/-- HDc_CMD.CANCEL (R319, R323). -/
def State.hdCancel (s : State) (h c : Nat) : State :=
  let st := s.hdState h c
  if st = 1 ∨ st = 7 then (s.setDec h c { s.dec h c with cancelDue := true }).hdBoundary h c
  else if st = 2 ∨ st = 6 ∨ s.hdWaiting h c then s.hdEnd h c 4
  else s

/-- Input has come: a waiting context goes on (R312). -/
def State.hdInput (s : State) (h c : Nat) : State := s.when (s.hdState h c == 7) fun s => s.setF h (HD_STAT_STATE c) 1

/-- HDc_CMD.FINAL. -/
def State.hdFinal (s : State) (h c : Nat) : State := (s.setDec h c { s.dec h c with final := true }).hdInput h c

/-- A write of HDc_IN_END_HI applies both halves. -/
def State.hdInEnd (s : State) (h c hi : Nat) : State :=
  let s := s.setReg h (HD_IN_END_HI c) hi
  (s.setDec h c { s.dec h c with inEnd := s.reg64 h (HD_IN_END_LO c) }).hdInput h c

/-- A write of OUT_ACK (R316, R322). -/
def State.hdAck (s : State) (h c ack : Nat) : State :=
  let lv := ((s.dec h c).written + 512 - ack) % 512
  if s.aOn h (HD_CFG_LINK_EN c) ∨ s.f h (HD_STAT_LEVEL c) < lv then s
  else (s.setF h (HD_OUT_ACK_ACK c) ack).hdSync h c

/-- A crossing of a member tile loses data of the picture in progress (R20). -/
def State.hdXing (s : State) (t c : Nat) : State :=
  let h := s.a t (HD_CFG_HOME c)
  s.when ((s.hdMembers h c).contains t && [1, 7].contains (s.hdState h c)) fun s => s.setDec h c { s.dec h c with xing := true }

/-! ### Aborts, clock loss, exchange -/

/-- UNIT_ABORT of HEVCDc, or a member isolated (R323, R488): ABORTED, every buffer UNUSED, the ring kept. -/
def State.hdAbort (s : State) (t c : Nat) : State :=
  let h := s.a t (HD_CFG_HOME c)
  if ¬ s.has h ∨ (h ≠ t ∧ ¬ (s.hdMembers h c).contains t) then s
  else (s.hdFreeAll h c).hdEnd h c 5

/-- Clock-loss recovery (R323): a context at work enters ERROR with CLOCK_LOSS, pending pictures not written. -/
def State.hdRecover (s : State) (h c : Nat) : State :=
  let st := s.hdState h c
  if st = 1 ∨ st = 7 then
    let pos := (s.dec h c).pos
    ((s.hdEnd h c 6).hdWriteErr h c (hdErr 18 63 h pos 0xFFFFFFFF 0x80000000 0)).raise h 180
  else s

/-- The bench of the context has exchanged: without EN it does nothing more. -/
def State.hdExchanged (s : State) (h c : Nat) : State :=
  match s.takeExchange h (17 + c) 0 with
  | (s, none) => s
  | (s, some _) => if s.aOn h (HD_CFG_EN c) ∨ s.dec h c = {} then s else (s.hdFreeAll h c).hdEnd h c 0

end Sys2Proof.Machine
end

