-- ==== Sys2Proof/Machine/Crypto.lean ====
section
/-!
DEFINITION. The hash and the signature check that chapter 23 names: SHA-256 and RSASSA-PSS with MGF1 over SHA-256 and a 32-byte
salt (R529, R531, R538 to R540). Their own definitions, FIPS 180-4 and RFC 8017, are PRESUMED (log 25).
-/

namespace Sys2Proof.Machine

/-- The round constants of SHA-256. -/
def shaK : List Nat :=
  [0x428A2F98, 0x71374491, 0xB5C0FBCF, 0xE9B5DBA5, 0x3956C25B, 0x59F111F1, 0x923F82A4, 0xAB1C5ED5,
    0xD807AA98, 0x12835B01, 0x243185BE, 0x550C7DC3, 0x72BE5D74, 0x80DEB1FE, 0x9BDC06A7, 0xC19BF174,
    0xE49B69C1, 0xEFBE4786, 0x0FC19DC6, 0x240CA1CC, 0x2DE92C6F, 0x4A7484AA, 0x5CB0A9DC, 0x76F988DA,
    0x983E5152, 0xA831C66D, 0xB00327C8, 0xBF597FC7, 0xC6E00BF3, 0xD5A79147, 0x06CA6351, 0x14292967] ++
  [0x27B70A85, 0x2E1B2138, 0x4D2C6DFC, 0x53380D13, 0x650A7354, 0x766A0ABB, 0x81C2C92E, 0x92722C85,
    0xA2BFE8A1, 0xA81A664B, 0xC24B8B70, 0xC76C51A3, 0xD192E819, 0xD6990624, 0xF40E3585, 0x106AA070,
    0x19A4C116, 0x1E376C08, 0x2748774C, 0x34B0BCB5, 0x391C0CB3, 0x4ED8AA4A, 0x5B9CCA4F, 0x682E6FF3,
    0x748F82EE, 0x78A5636F, 0x84C87814, 0x8CC70208, 0x90BEFFFA, 0xA4506CEB, 0xBEF9A3F7, 0xC67178F2]

/-- The first hash value. -/
def shaH0 : List Nat := [0x6A09E667, 0xBB67AE85, 0x3C6EF372, 0xA54FF53A, 0x510E527F, 0x9B05688C, 0x1F83D9AB, 0x5BE0CD19]

/-- Rotate a 32-bit word right. -/
def rotr (n x : Nat) : Nat := (x >>> n) ||| (x <<< (32 - n)) % 2 ^ 32

/-- A 32-bit sum. -/
def add32 (l : List Nat) : Nat := l.foldl (· + ·) 0 % 2 ^ 32

/-- Big-endian words of bytes. -/
def beWords : Nat → List Nat → List Nat
  | 0, _ => []
  | n + 1, bs => ((bs.take 4).foldl (fun a b => a * 256 + b) 0) :: beWords n (bs.drop 4)

/-- Extend the message schedule; newest word first. -/
def shaExtend : Nat → List Nat → List Nat
  | 0, w => w
  | n + 1, w =>
    let a := w.getD 14 0
    let b := w.getD 1 0
    let s0 := rotr 7 a ^^^ rotr 18 a ^^^ a >>> 3
    let s1 := rotr 17 b ^^^ rotr 19 b ^^^ b >>> 10
    shaExtend n (add32 [w.getD 15 0, s0, w.getD 6 0, s1] :: w)

/-- One round of the compression on the eight working words. -/
def shaRound (v : List Nat) (kw : Nat × Nat) : List Nat :=
  let a := v.getD 0 0
  let e := v.getD 4 0
  let t1 := add32 [v.getD 7 0, rotr 6 e ^^^ rotr 11 e ^^^ rotr 25 e, (e &&& v.getD 5 0) ^^^ ((0xFFFFFFFF ^^^ e) &&& v.getD 6 0), kw.1, kw.2]
  let t2 := add32 [rotr 2 a ^^^ rotr 13 a ^^^ rotr 22 a, (a &&& v.getD 1 0) ^^^ (a &&& v.getD 2 0) ^^^ (v.getD 1 0 &&& v.getD 2 0)]
  [add32 [t1, t2], a, v.getD 1 0, v.getD 2 0, add32 [v.getD 3 0, t1], e, v.getD 5 0, v.getD 6 0]

/-- The compression of one 64-byte block. -/
def shaBlock (h bs : List Nat) : List Nat :=
  let w := (shaExtend 48 (beWords 16 bs).reverse).reverse
  let v := (shaK.zip w).foldl shaRound h
  (h.zip v).map fun x => add32 [x.1, x.2]

def shaBlocks : Nat → List Nat → List Nat → List Nat
  | 0, h, _ => h
  | n + 1, h, bs => shaBlocks n (shaBlock h (bs.take 64)) (bs.drop 64)

/-- Bytes of a number, most significant first. -/
def beBytes (n v : Nat) : List Nat := (leBytes n v).reverse

/-- A number from bytes, most significant first. -/
def beNum (bs : List Nat) : Nat := bs.foldl (fun a b => a * 256 + b) 0

/-- SHA-256 of bytes. -/
def sha256 (bs : List Nat) : List Nat :=
  let n := bs.length
  let pad := (119 - n % 64) % 64
  let m := bs ++ [0x80] ++ List.replicate pad 0 ++ beBytes 8 (8 * n)
  (shaBlocks (m.length / 64) shaH0 m).flatMap (beBytes 4)

/-- MGF1 over SHA-256. -/
def mgf1 (seed : List Nat) (len : Nat) : List Nat :=
  ((List.range ((len + 31) / 32)).flatMap fun i => sha256 (seed ++ beBytes 4 i)).take len

/-- Raise to the power 2^k modulo n. -/
def sqMod (n : Nat) : Nat → Nat → Nat
  | 0, x => x
  | k + 1, x => sqMod n k (x * x % n)

/-- RSASSA-PSS over SHA-256 with exponent 65,537, a 3,072-bit modulus and a 32-byte salt. -/
def pssOk (modulus sig msg : List Nat) : Bool :=
  let n := beNum modulus
  let s := beNum sig
  let em := beBytes 384 (s * sqMod n 16 s % n)
  let h := (em.drop 351).take 32
  let db := ((em.take 351).zip (mgf1 h 351)).map fun x => x.1 ^^^ x.2
  let db := db.head?.getD 0 % 128 :: db.drop 1
  let salt := db.drop 319
  2 ^ 3071 ≤ n && decide (s < n) && em.head?.getD 0 < 128 && em.getD 383 0 == 0xBC && db.take 318 == List.replicate 318 0 &&
    db.getD 318 0 == 1 && sha256 (List.replicate 8 0 ++ sha256 msg ++ salt) == h

end Sys2Proof.Machine
end

