-- ==== Sys2Proof/Machine/Dev.lean ====
section
/-!
DEFINITION. Develop pipes (chapter 8): white balance, demosaic, matrix, tone curve, 3D LUT, quantisation, chroma subsampling.
-/

namespace Sys2Proof.Machine

def State.dev (s : State) (t n : Nat) : DevCtx := smGet s.pix.dev (tk t n) {}
def State.setDev (s : State) (t n : Nat) (c : DevCtx) : State := { s with pix.dev := smPut s.pix.dev (tk t n) c {} }

/-- Quotient rounded to nearest, halves up (R211). -/
def divRnd (n : Int) (d : Nat) : Int := (2 * n + d).fdiv (2 * d)

def clipS21 (i : Int) : Int := clampI (-1048576) 1048575 i

/-- The sample that stands for index i of n, by the mirror about the edge samples; an image that lies outside as well is
mirrored again (R214). -/
def mirror (n : Nat) (i : Int) : Nat :=
  if n ≤ 1 then 0
  else
    let span := 2 * (n - 1)
    let j := (i.emod span).toNat
    if j < n then j else span - j

/-- Stage 1 (R212). -/
def State.devWb (s : State) (t n : Nat) (f : FrameHdr) (y x v : Nat) : Int :=
  clipS21 (rnd 14 (((v : Int) - f.ped) * s.a t (DV_WB_GAIN n (cfaPhase f.cfa y x))))

def iabs (i : Int) : Int := if i < 0 then -i else i

/-- Green at an R or B site (R213). -/
def demosaicG (c : Int → Int → Int) (edge : Nat) : Int :=
  let k := c 0 0
  let dh := iabs (c (-1) 0 - c 1 0) + iabs (2 * k - c (-2) 0 - c 2 0)
  let dv := iabs (c 0 (-1) - c 0 1) + iabs (2 * k - c 0 (-2) - c 0 2)
  let hh := 2 * (c (-1) 0 + c 1 0) + 2 * k - c (-2) 0 - c 2 0
  let hv := 2 * (c 0 (-1) + c 0 1) + 2 * k - c 0 (-2) - c 0 2
  clipS21 (rnd 3 (if dh + edge < dv then 2 * hh else if dv + edge < dh then 2 * hv else hh + hv))

/-- The opposite colour at an R or B site (R213). -/
def demosaicX (c : Int → Int → Int) : Int :=
  clipS21 (rnd 3 (2 * (c (-1) (-1) + c 1 (-1) + c (-1) 1 + c 1 1) + 4 * c 0 0 - c (-2) 0 - c 2 0 - c 0 (-2) - c 0 2))

/-- The row colour and the column colour at a G site (R213). -/
def demosaicRow (c : Int → Int → Int) : Int := clipS21 (rnd 2 (2 * (c (-1) 0 + c 1 0) + 2 * c 0 0 - c (-2) 0 - c 2 0))
def demosaicCol (c : Int → Int → Int) : Int := clipS21 (rnd 2 (2 * (c 0 (-1) + c 0 1) + 2 * c 0 0 - c 0 (-2) - c 0 2))

/-- R, G and B. -/
structure Rgb where
  r : Int := 0
  g : Int := 0
  b : Int := 0
  deriving DecidableEq, Repr

/-- Stage 2 at row y, column x (R213, R215): `col` gives the colour of a phase (0 R, 1 G, 2 B). -/
def demosaic (c : Int → Int → Int) (col : Nat → Nat) (cfa edge y x : Nat) : Rgb :=
  let own := col (cfaPhase cfa y x)
  if own = 0 then { r := c 0 0, g := demosaicG c edge, b := demosaicX c }
  else if own = 2 then { r := demosaicX c, g := demosaicG c edge, b := c 0 0 }
  else if col (cfaPhase cfa y (x + 1)) = 0 then { r := demosaicRow c, g := c 0 0, b := demosaicCol c }
  else { r := demosaicCol c, g := c 0 0, b := demosaicRow c }

/-- Stage 3 (R216). -/
def State.devMatrix (s : State) (t n : Nat) (x : Rgb) : Rgb :=
  if s.aOn t (DV_MCTL_MAT_EN n) then
    let y := fun r =>
      clipS21 (rnd 16 (s.aI t (DV_M_COEF n r 0) * x.r + s.aI t (DV_M_COEF n r 1) * x.g + s.aI t (DV_M_COEF n r 2) * x.b) + s.aI t (DV_MOFS_OFS n r))
    { r := y 0, g := y 1, b := y 2 }
  else x

/-- Entry e of the tone curve of pipe n, channel r, in the active bank (R217, R229). -/
def State.toneEntry (s : State) (t n r e : Nat) : Nat :=
  let base := 0x700000 + 0x8000 * n + 0x2000 * r + s.a t (DV_CFG_TONE_BANK n) * 0x800000
  bits (s.tbl t (base + 2 * e / 4 * 4)) (e % 2 * 16) 16

/-- Entry index and fraction of a tone input (R217). -/
def toneIndex (x : Nat) : Nat × Nat :=
  let k := if x < 32 then 0 else Nat.log2 x - 4
  let sh := if k = 0 then 5 else k + 4
  let base := if k = 0 then 0 else 2 ^ sh
  let p := (x - base) * 2 ^ (20 - sh)
  (256 * k + p / 4096, p % 4096)

/-- Stage 4 for one channel (R217, R218, R226). -/
def State.devTone (s : State) (t n r : Nat) (y : Int) : Nat :=
  let x := (clampI 0 1048575 y).toNat
  if s.aOn t (DV_CFG_TONE_EN n) ∧ ¬ (s.dev t n).toneCut then
    let (i, f) := toneIndex x
    let e := s.toneEntry t n r i
    let nxt := if i = 4095 then s.a t (DV_TEND_END n r) else s.toneEntry t n r (i + 1)
    ((e : Int) + rnd 12 (((nxt : Int) - e) * f)).toNat
  else x / 16

/-- Node index and fraction of a LUT input (R219). -/
def lutIndex (x : Nat) : Nat × Nat :=
  let xp := x + x / 32768
  let i := min (xp / 2048) 31
  (i, xp - 2048 * i)

/-- Component k of LUT node (i, j, l) in the active bank (R229). -/
def State.lutNode (s : State) (t n k i j l : Nat) : Nat :=
  let base := 0x720000 + 0x48000 * n + 8 * (i + 33 * j + 1089 * l) + s.a t (DV_CFG_LUT_BANK n) * 0x800000
  bits (s.tbl t (base + k / 2 * 4)) (k % 2 * 16) 16

/-- Axes in descending order of fraction, ties in the order R, G, B (R220). -/
def lutOrder (fr fg fb : Nat) : List (Nat × Nat) :=
  let ins := fun (x : Nat × Nat) (l : List (Nat × Nat)) => l.takeWhile (fun y => x.2 < y.2) ++ x :: l.dropWhile (fun y => x.2 < y.2)
  ins (0, fr) (ins (1, fg) [(2, fb)])

/-- Stage 5 (R219, R220, R226). -/
def State.devLut (s : State) (t n : Nat) (e : Nat × Nat × Nat) : Nat × Nat × Nat :=
  if s.aOn t (DV_CFG_LUT_EN n) ∧ ¬ (s.dev t n).lutCut then
    let (ir, fr) := lutIndex e.1
    let (ig, fg) := lutIndex e.2.1
    let (ib, fb) := lutIndex e.2.2
    let o := lutOrder fr fg fb
    let a := fun k => (o.getD k (0, 0)).1
    let f := fun k => (o.getD k (0, 0)).2
    let inc := fun c ax => b2n (decide (∃ k < c, a k = ax))
    let node := fun c k => s.lutNode t n k (ir + inc c 0) (ig + inc c 1) (ib + inc c 2)
    let out := fun k =>
      (rnd 11 (((2048 - f 0) * node 0 k + (f 0 - f 1) * node 1 k + (f 1 - f 2) * node 2 k + f 2 * node 3 k : Nat) : Int)).toNat
    (out 0, out 1, out 2)
  else e

/-- Coefficient rows of R221. -/
def yccRows (bt2020 : Bool) : List (List Int) :=
  if bt2020 then [[17216, 44434, 3886], [-9151, -23617, 32768], [32768, -30133, -2635]]
  else [[13933, 46871, 4732], [-7509, -25259, 32768], [32768, -29763, -3005]]

/-- Clip range of stage 6 (R222). -/
def codeRange (full : Bool) (d : Nat) : Int × Int :=
  let k : Int := 2 ^ (d - 8)
  if full then (0, 2 ^ d - 1) else (k, 2 ^ d - k - 1)

/-- Stage 6 (R221, R222): three codes of d bits. -/
def quantise (ycc : Nat) (full : Bool) (d : Nat) (e : Nat × Nat × Nat) : Nat × Nat × Nat :=
  let k : Int := 2 ^ (d - 8)
  let q : Nat := 65535 * 65536
  let (lo, hi) := codeRange full d
  let clip := fun (i : Int) => (clampI lo hi i).toNat
  let luma := fun (v : Int) => clip (if full then divRnd (v * (2 ^ d - 1)) q else divRnd (v * (219 * k)) q + 16 * k)
  let chroma := fun (v : Int) => clip (if full then divRnd (v * (2 ^ d - 1)) q + 2 ^ (d - 1) else divRnd (v * (224 * k)) q + 128 * k)
  if ycc = 2 then (luma (65536 * (e.1 : Int)), luma (65536 * (e.2.1 : Int)), luma (65536 * (e.2.2 : Int)))
  else
    let dot := fun (r : List Int) => r.getD 0 0 * e.1 + r.getD 1 0 * e.2.1 + r.getD 2 0 * e.2.2
    let m := yccRows (ycc = 1)
    (luma (dot (m.getD 0 [])), chroma (dot (m.getD 1 [])), chroma (dot (m.getD 2 [])))

/-- Stages 1 to 6 at row y, column x: codes, and how many channels the tone stage clipped (R217). `lin` gives X2 values by
row and column inside the frame, `h` the rows of the frame. -/
def State.devPixel (s : State) (t n : Nat) (f : FrameHdr) (h : Nat) (lin : Nat → Nat → Nat) (y x : Nat) : (Nat × Nat × Nat) × Nat :=
  let c := fun (a b : Int) =>
    let xx := mirror f.w (x + a)
    let yy := mirror h (y + b)
    s.devWb t n f yy xx (lin yy xx)
  let rgb := if s.aOn t (DV_CFG_MONO n) then let w := c 0 0; { r := w, g := w, b := w }
    else demosaic c (fun p => bits (s.a t (DV_CFA_COL n)) (2 * p) 2) f.cfa (s.a t (DV_EDGE_EDGE_T n)) y x
  let m := s.devMatrix t n rgb
  let excess := b2n (decide (1048575 < m.r)) + b2n (decide (1048575 < m.g)) + b2n (decide (1048575 < m.b))
  let e := s.devLut t n (s.devTone t n 0 m.r, s.devTone t n 1 m.g, s.devTone t n 2 m.b)
  (quantise (s.a t (DV_CFG_YCC n)) (s.aOn t (DV_CFG_FULL n)) (8 + 2 * s.a t (DV_CFG_OBITS n)) e, excess)

/-- Halos that rows at X2 need have not arrived (R30). -/
def State.devHaloLate (s : State) (t n : Nat) (f : FrameHdr) (rows : List Nat) : State :=
  let c := s.dev t n
  let l := (s.halosMissing t 2 f.src f true true rows).filter fun x => !c.lates.contains x
  if l = [] then s else (s.setDev t n { c with haloLate := true, lates := c.lates ++ l }).halosLate t l

/-- Quantise row y on the stripe and its 4 extension columns on each side (R224). -/
def State.devFull (s : State) (t n y : Nat) (f : FrameHdr) (h : Nat) : State :=
  let c := s.dev t n
  let near := c.x2.filter fun r => y ≤ r.1 + 2 ∧ r.1 ≤ y + 2
  let wide := near.map fun r => (r.1, s.wideRow t 2 f.src f f.ped r.1 r.2 Halo.px)
  let s := s.devHaloLate t n f (near.map (·.1))
  let lin := fun yy xx => match wide.find? (·.1 = yy) with
    | some r => sval ((wideAt f r.2.1 xx).getD f.ped)
    | none => f.ped
  let leftIn := f.x0 ≠ 0
  let rightIn := f.x0 + f.sw < f.w
  let first := if leftIn then f.x0 - 4 else f.x0
  let count := f.sw + (if leftIn then 4 else 0) + (if rightIn then 4 else 0)
  let px := (List.range count).map fun i => s.devPixel t n f h lin y (first + i)
  let at_ := fun (i : Int) =>
    let xx := mirror f.w ((f.x0 : Int) + i)
    (px.getD (xx - first) ((0, 0, 0), 0)).1
  let cols := (List.range (f.sw + 8)).map fun (i : Nat) => at_ ((i : Int) - 4)
  let excess := ((px.drop (if leftIn then 4 else 0)).take f.sw).foldl (fun a z => a + z.2) 0
  let c := s.dev t n
  s.setDev t n
    { c with
      next := y + 1
      x2 := c.x2.filter fun r => y < r.1 + 3
      full := c.full ++ [(y, { y := cols.map (·.1), c1 := cols.map (·.2.1), c2 := cols.map (·.2.2) })]
      clips := satAdd (2 ^ 32 - 1) c.clips excess }

/-- Horizontal taps (R223). -/
def hTaps (filt : Bool) : List Int := if filt then [-2, 0, 18, 32, 18, 0, -2] else [0, 0, 16, 32, 16, 0, 0]

/-- Vertical taps of rows 2k - 2 to 2k + 3 (R223). -/
def vTaps (filt : Bool) : List Int := if filt then [-2, 4, 30, 30, 4, -2] else [0, 0, 32, 32, 0, 0]

/-- Horizontal sum at stripe column x of a row with 4 extension columns (R223). -/
def hSum (taps : List Int) (px : List Nat) (x : Nat) : Int :=
  (List.range 7).foldl (fun a j => a + taps.getD j 0 * (px.getD (x + 1 + j) 0 : Int)) 0

/-- Stage 7 for row y (R223): `rows` gives quantised rows by number, mirrored about the frame's rows. -/
def State.devSub (s : State) (t n y h sw : Nat) (rows : Nat → Row3) : Row3 :=
  let own := fun (l : List Nat) => (l.drop 4).take sw
  let sub := s.a t (DV_CFG_SUB n)
  let r := rows y
  let (lo, hi) := codeRange (s.aOn t (DV_CFG_FULL n)) (8 + 2 * s.a t (DV_CFG_OBITS n))
  let clip := fun (i : Int) => (clampI lo hi i).toNat
  let taps := hTaps (s.aOn t (DV_CFG_HFILT n))
  let xs := (List.range ((sw + 1) / 2)).map (2 * ·)
  if sub = 0 then { y := own r.y, c1 := own r.c1, c2 := own r.c2 }
  else if sub = 1 then { y := own r.y, c1 := xs.map fun x => clip (rnd 6 (hSum taps r.c1 x)), c2 := xs.map fun x => clip (rnd 6 (hSum taps r.c2 x)) }
  else if y % 2 = 1 then { y := own r.y }
  else
    let vt := vTaps (s.aOn t (DV_CFG_VFILT n))
    let col := fun (sel : Row3 → List Nat) x => clip (rnd 12 ((List.range 6).foldl (fun a m =>
      a + vt.getD m 0 * hSum taps (sel (rows (mirror h ((y : Int) - 2 + m)))) x) 0))
    { y := own r.y, c1 := xs.map (col Row3.c1), c2 := xs.map (col Row3.c2) }

/-- Put an item at X3 for every channel that takes the pipe. -/
def State.x3Push (s : State) (t n : Nat) (i : Item3) : State :=
  s.each (List.range 4) fun s c => s.when (s.a t (OC_CFG_PIPE c) == n) fun s =>
    { s with pix.x3 := smPut s.pix.x3 (tk t c) (smGet s.pix.x3 (tk t c) [] ++ [i]) [] }

/-- Rows of the frame, as far as known: the rows that came once it has closed, else the rows of its header. -/
def DevCtx.height (c : DevCtx) (f : FrameHdr) : Nat := if c.closed.isSome then c.rows else f.h

/-- Rows leave a pipe as their context comes: quantised rows first, then subsampled rows to X3 (R210). -/
def State.devDrain (s : State) (t n : Nat) : Nat → State
  | 0 => s
  | k + 1 =>
    let c := s.dev t n
    match c.frame with
    | none => s
    | some f =>
      let h := c.height f
      if c.next < c.rows ∧ (min (c.next + 2) (h - 1) < c.rows) then (s.devFull t n c.next f h).devDrain t n k
      else
        let y := c.nextOut
        let need := if s.a t (DV_CFG_SUB n) = 2 then min (y / 2 * 2 + 3) (h - 1) else y
        if y < c.next ∧ need < c.next then
          let rows := fun i => ((c.full.find? (·.1 = i)).map (·.2)).getD {}
          let r := s.devSub t n y h f.sw rows
          let s := s.setDev t n { c with nextOut := y + 1, full := c.full.filter fun z => y ≤ z.1 + 3 }
          let nc := if s.a t (DV_CFG_SUB n) = 0 then 32 else 16
          let s := s.sendHalos t 3 n f.src f y nc r.y r.c1 r.c2
          (s.x3Push t n (.row y r)).devDrain t n k
        else s

/-- The X2 halos of a frame that pipe n has closed go, unless the other pipe has the frame still to process. -/
def State.dropX2 (s : State) (t n : Nat) (f : FrameHdr) : State :=
  let m := 1 - n
  let open_ : Bool := match (s.dev t m).frame with
    | some g => g.src = f.src && g.cnt = f.cnt
    | none => false
  let due := (smGet s.pix.x2 (tk t m) []).any fun i => match i with
    | .openF g => g.src = f.src && g.cnt = f.cnt
    | _ => false
  s.when (!open_ && !due) fun s => s.dropHalos t 2 f.src f.cnt

/-- Close the open frame (R175, R227, R228). -/
def State.devFinish (s : State) (t n : Nat) : State :=
  let c := s.dev t n
  match c.frame, c.closed with
  | some f, some st =>
    if c.nextOut < c.rows then s
    else
      let st := st ||| c.status
      let st := if s.marking t (5 + n) ∨ c.haloLate then orBit st stDamaged else st
      let s := s.setReg t (DV_FCNT n) f.cnt
      let s := s.setReg t (DV_FSTAT n) st
      let s := s.setReg t (DV_CLIPS n) c.clips
      let s := s.raise t (107 + n)
      let s := s.when (c.clips != 0) fun s => s.raise t 106
      let s := s.x3Push t n (.closeF st)
      let s := s.dropX2 t n f
      (s.setDev t n {}).endSec t (5 + n) 0
  | _, _ => s

/-- What the pipe's exchange brings: a table fault ends with its bank (R226). -/
def State.devExchanged (s : State) (t n : Nat) : State :=
  match s.takeExchange t (5 + n) 0 with
  | (s, none) => s
  | (s, some old) =>
    let w := old.getD 0 0
    let s := s.when (bits w 4 1 != s.a t (DV_CFG_TONE_BANK n)) fun s => s.setB t (DV_STAT_TONE_TFAULT n) false
    s.when (bits w 6 1 != s.a t (DV_CFG_LUT_BANK n)) fun s => s.setB t (DV_STAT_LUT_TFAULT n) false

/-- A frame reaches a pipe (R41, R44, R227). -/
def State.devOpen (s : State) (t n : Nat) (f : FrameHdr) : State :=
  if s.stale t (5 + n) then s.refuseFrame t
  else
    let s := (s.beginSec t (5 + n) 0 f).devExchanged t n
    if s.a t (DV_CFG_SRC n) ≠ f.src ∨ f.sw = 0 then s.endSec t (5 + n) 0
    else
      let f := { f with fmt := s.reg t (DV_CFG n + 0x8000) }
      let tf := (s.aOn t (DV_CFG_TONE_EN n) && s.on t (DV_STAT_TONE_TFAULT n)) || (s.aOn t (DV_CFG_LUT_EN n) && s.on t (DV_STAT_LUT_TFAULT n))
      (s.setDev t n { frame := some f, status := if tf then 2 ^ stDamaged else 0 }).x3Push t n (.openF f)

/-- DEV_ROW: rows whose context is there leave, a frame that is whole closes, the next item at X2 is taken. -/
def State.devRow (s : State) (t n : Nat) : State :=
  let s := (s.devDrain t n 131072).devFinish t n
  match smGet s.pix.x2 (tk t n) [] with
  | [] => s
  | i :: l =>
    let s := { s with pix.x2 := smPut s.pix.x2 (tk t n) l [] }
    let c := s.dev t n
    match i with
    | .openF f => s.devOpen t n f
    | .row y px _ => if c.frame.isSome then s.setDev t n { c with x2 := c.x2 ++ [(y, px)], rows := y + 1 } else s
    | .closeF st => if c.frame.isSome then s.setDev t n { c with closed := some st } else s

/-- The open frame of a pipe closes short with a status bit (R227). -/
def State.devCut (s : State) (t n b : Nat) : State :=
  let c := s.dev t n
  match c.frame with
  | none => s
  | some _ => ((s.setDev t n { c with closed := some (orBit (c.closed.getD (2 ^ 31)) b) }).devDrain t n 131072).devFinish t n

/-- UNIT_ABORT of a pipe: its open frame closes short with ABORTED (R227). -/
def State.devAbort (s : State) (t n : Nat) : State := s.devCut t n stAborted

/-- A parity error read from a tone curve or a LUT (R226): to the end of the frame the pipe acts as if the stage were off, and the frame
is DAMAGED. -/
def State.devTableFault (s : State) (t n : Nat) (lut inj : Bool) : State :=
  let c := s.dev t n
  let s := s.when (c.frame.isSome && (if lut then s.aOn t (DV_CFG_LUT_EN n) else s.aOn t (DV_CFG_TONE_EN n))) fun s =>
    s.setDev t n { c with toneCut := c.toneCut || !lut, lutCut := c.lutCut || lut, status := orBit c.status stDamaged }
  (if lut then s.setB t (DV_STAT_LUT_TFAULT n) true else s.setB t (DV_STAT_TONE_TFAULT n) true).raiseX t 105 inj

end Sys2Proof.Machine
end

