-- ==== Sys2Proof/Machine/Out.lean ====
section
/-!
DEFINITION. Output channels (chapter 9): crop, scale, assembly on HOME, packing, the frame store, SDI in DIRECT and FRAMED
timing.
-/

namespace Sys2Proof.Machine

def State.out (s : State) (t c : Nat) : OutCtx := smGet s.pix.out (tk t c) {}
def State.setOut (s : State) (t c : Nat) (x : OutCtx) : State := { s with pix.out := smPut s.pix.out (tk t c) x {} }

/-! ### Positions -/

/-- Position of output column j, in units of 2^-24 input columns from CX0 (R233). -/
def State.hPos (s : State) (t c : Nat) (j : Int) : Int :=
  if s.aOn t (OC_CFG_SCALE_EN c) then sx 48 (s.a64 t (OC_HP0_LO c)) + j * s.a t (OC_HDELTA_HDELTA c) else j * 2 ^ 24

def State.vPos (s : State) (t c : Nat) (i : Int) : Int :=
  if s.aOn t (OC_CFG_SCALE_EN c) then sx 48 (s.a64 t (OC_VP0_LO c)) + i * s.a t (OC_VDELTA_VDELTA c) else i * 2 ^ 24

/-- Position of output chroma row i at 4:2:0 in units of 2^-26 chroma rows from CY0 / 2 (R234). -/
def State.vcPos (s : State) (t c : Nat) (i : Int) : Int :=
  if s.aOn t (OC_CFG_SCALE_EN c) then
    2 * sx 48 (s.a64 t (OC_VP0_LO c)) + s.a t (OC_VDELTA_VDELTA c) - 2 ^ 24 + i * s.a t (OC_VDELTA_VDELTA c) * 4
  else i * 2 ^ 26

/-- Index and phase of a position with k fraction bits (R233, R234). -/
def posIndex (k : Nat) (p : Int) : Int × Nat := (sra p k, ((sra p (k - 6)) % 64).toNat)

/-- Output columns that the tile of a frame's stripe produces: the first and the count (R235). -/
def State.outRange (s : State) (t c : Nat) (f : FrameHdr) : Nat × Nat :=
  let cx := s.a t (OC_CROPX_CX0 c)
  let mine := (List.range (s.a t (OC_OSIZE_OW c))).filter fun (j : Nat) =>
    let n := clampI 0 ((s.a t (OC_CROPX_CW c) : Int) - 1) (sra (s.hPos t c j) 24)
    let x := cx + n.toNat
    f.x0 ≤ x && x < f.x0 + f.sw
  (mine.headD 0, mine.length)

/-! ### Scaling -/

/-- A coefficient, s6.10: horizontal tap b or vertical tap a of a phase (R236, R251). -/
def State.coef (s : State) (t c : Nat) (vert : Bool) (ph : Nat) (tap : Int) : Int :=
  if (s.out t c).coefCut then (if tap = 0 then 1024 else 0)
  else
    let ofs := if vert then 0x400 + 16 * ph + 2 * (tap + 2).toNat else 16 * ph + 2 * (tap + 3).toNat
    let base := 0xD0000 + 0x1000 * c + s.a t (OC_CFG_COEF_BANK c) * 0x800000
    sx 16 (bits (s.tbl t (base + ofs / 4 * 4)) (ofs % 4 * 8) 16)

/-- One scaled sample (R234): `at_ row col` reads input samples, already mirrored about the window. -/
def State.scaleSample (s : State) (t c : Nat) (f : FrameHdr) (at_ : Int → Int → Nat) (n m : Int) (phi psi : Nat) : Nat :=
  if s.aOn t (OC_CFG_SCALE_EN c) then
    let acc := (List.range 6).foldl (fun (z : Int) (a : Nat) => z + (List.range 8).foldl (fun (z : Int) (b : Nat) =>
      let a' : Int := (a : Int) - 2
      let b' : Int := (b : Int) - 3
      z + s.coef t c true psi a' * s.coef t c false phi b' * at_ (m + a') (n + b')) 0) 0
    let (lo, hi) := codeRange f.full f.d
    (clampI lo hi (rnd 20 acc)).toNat
  else at_ m n

/-- Sample reader for a plane: rows by absolute row, halos by side, mirrored inside a window of first index and length
in each direction; `x0` and `sw` are the stripe's in this plane, `step` the rows between the plane's rows. -/
def planeAt (rows : List (Nat × List Nat)) (left right : Nat → List Nat) (x0 sw wx ww wy wh step black : Nat) (r x : Int) : Nat :=
  let rr := (wy + mirror wh (r - wy)) * step
  let xx := wx + mirror ww (x - wx)
  match rows.find? (·.1 = rr) with
  | none => black
  | some (_, px) =>
    if xx < x0 then let h := left rr; if x0 - xx ≤ h.length then h.getD (h.length - (x0 - xx)) black else black
    else if xx < x0 + sw then px.getD (xx - x0) black
    else (right rr).getD (xx - x0 - sw) black

/-- Rows of X3 that output row i reads: the first and the last (R23, R234), inside the window. -/
def State.outNeeds (s : State) (t c : Nat) (f : FrameHdr) (i : Nat) : List Nat :=
  let cy := s.a t (OC_CROPY_CY0 c)
  let ch := s.a t (OC_CROPY_CH c)
  let sc := s.aOn t (OC_CFG_SCALE_EN c)
  let m := sra (s.vPos t c i) 24
  let l := (if sc then [-2, -1, 0, 1, 2, 3] else [0]).map fun (a : Int) => cy + mirror ch (m + a)
  if f.sub = 2 ∧ i % 2 = 0 then
    let mc := sra (s.vcPos t c (i / 2 : Nat)) 26
    l ++ ((if sc then [-2, -1, 0, 1, 2, 3] else [0]).map fun (a : Int) => 2 * (cy / 2 + mirror (chromaRows 2 ch) (mc + a)))
  else l

/-- The halos at X3, as 2 * row + side, that output row i reads (R30, R234, R235): rows and sides of the luma taps, and of the chroma taps
where chroma is subsampled. -/
def State.outHalos (s : State) (t c : Nat) (f : FrameHdr) (i : Nat) : List Nat :=
  if ¬ s.aOn t (OC_CFG_SCALE_EN c) then []
  else
    let cx := s.a t (OC_CROPX_CX0 c)
    let cw := s.a t (OC_CROPX_CW c)
    let cy := s.a t (OC_CROPY_CY0 c)
    let ch := s.a t (OC_CROPY_CH c)
    let (j0, n) := s.outRange t c f
    let js := (List.range n).map (j0 + ·)
    let taps := fun (w : Nat) (ps : List Int) => ps.flatMap fun (p : Int) => (List.range 8).map fun (b : Nat) => mirror w (p + (b : Int) - 3)
    let lx := (taps cw (js.map fun j => sra (s.hPos t c (j : Nat)) 24)).map (cx + ·)
    let rows := [-2, -1, 0, 1, 2, 3].map fun (a : Int) => cy + mirror ch (sra (s.vPos t c i) 24 + a)
    let miss := fun (l r : Bool) rows => s.halosMissing t 3 (s.a t (OC_CFG_PIPE c)) f l r rows
    let luma := miss (lx.any (· < f.x0)) (lx.any (f.x0 + f.sw ≤ ·)) rows
    if f.sub = 0 ∨ ¬ f.hasC i then luma
    else
      let cs := (taps (chromaCols 1 cw) ((js.filter (· % 2 = 0)).map fun j => sra (s.hPos t c (j : Nat)) 25)).map (cx / 2 + ·)
      let crows := if f.sub = 2 then
          [-2, -1, 0, 1, 2, 3].map fun (a : Int) => 2 * (cy / 2 + mirror (chromaRows 2 ch) (sra (s.vcPos t c (i / 2 : Nat)) 26 + a))
        else rows
      luma ++ (miss (cs.any (· < f.x0 / 2)) (cs.any (f.x0 / 2 + (f.sw + 1) / 2 ≤ ·)) crows).filter fun z => !luma.contains z

/-- The tile's columns of output row i (R232 to R235). -/
def State.outRowOf (s : State) (t c : Nat) (f : FrameHdr) (i : Nat) : Row3 :=
  let x := s.out t c
  let cx := s.a t (OC_CROPX_CX0 c)
  let cw := s.a t (OC_CROPX_CW c)
  let cy := s.a t (OC_CROPY_CY0 c)
  let ch := s.a t (OC_CROPY_CH c)
  let (j0, n) := s.outRange t c f
  let halo := fun side (sel : Halo → List Nat) r => ((s.halo t 3 (s.a t (OC_CFG_PIPE c)) side f.cnt r).map sel).getD []
  let (m, psi) := posIndex 24 (s.vPos t c i)
  let lumaAt := fun (sel : Row3 → List Nat) (hs : Halo → List Nat) black =>
    planeAt (x.x3.map fun r => (r.1, sel r.2)) (halo 0 hs) (halo 1 hs) f.x0 f.sw cx cw cy ch 1 black
  let luma := fun (sel : Row3 → List Nat) (hs : Halo → List Nat) black => (List.range n).map fun k =>
    let (nn, phi) := posIndex 24 (s.hPos t c ((j0 + k : Nat) : Int))
    s.scaleSample t c f (lumaAt sel hs black) (cx + nn) (cy + m) phi psi
  let cols := (List.range n).filter fun k => (j0 + k) % 2 = 0
  let step := if f.sub = 2 then 2 else 1
  let cAt := fun (sel : Row3 → List Nat) (hs : Halo → List Nat) =>
    planeAt (x.x3.map fun r => (r.1, sel r.2)) (halo 0 hs) (halo 1 hs) (f.x0 / 2) ((f.sw + 1) / 2) (cx / 2) (chromaCols 1 cw) (cy / step) (chromaRows f.sub ch) step f.blackC
  let (mc, psic) := if f.sub = 2 then posIndex 26 (s.vcPos t c (i / 2 : Nat)) else (m, psi)
  let chroma := fun (sel : Row3 → List Nat) (hs : Halo → List Nat) => cols.map fun k =>
    let (nn, phi) := posIndex 25 (s.hPos t c ((j0 + k : Nat) : Int))
    s.scaleSample t c f (cAt sel hs) ((cx / 2 : Nat) + nn) ((cy / step : Nat) + mc) phi psic
  let y := luma Row3.y Halo.px f.blackY
  if f.sub = 0 then { y := y, c1 := luma Row3.c1 Halo.c1 f.blackC, c2 := luma Row3.c2 Halo.c2 f.blackC }
  else if f.hasC i then { y := y, c1 := chroma Row3.c1 Halo.c1, c2 := chroma Row3.c2 Halo.c2 }
  else { y := y }

/-! ### Packing -/

/-- Codes packed into bytes (R240). -/
def packCodes (pack : Nat) : List Nat → List Nat
  | [] => []
  | a :: l =>
    if pack = 0 then leBytes 2 a ++ packCodes pack l
    else if pack = 2 then a % 256 :: packCodes pack l
    else match l with
      | [] => leBytes 4 (a % 1024)
      | [b] => leBytes 4 (a % 1024 + b % 1024 * 2 ^ 10)
      | b :: c :: r => leBytes 4 (a % 1024 + b % 1024 * 2 ^ 10 + c % 1024 * 2 ^ 20) ++ packCodes pack r

/-- Codes read back from packed bytes. -/
def unpackCodes (pack n : Nat) (bs : List Nat) : List Nat :=
  (List.range n).map fun i =>
    if pack = 0 then leNum ((bs.drop (2 * i)).take 2)
    else if pack = 2 then bs.getD i 0
    else bits (leNum ((bs.drop (i / 3 * 4)).take 4)) (i % 3 * 10) 10

def interleave : List Nat → List Nat → List Nat
  | a :: l, b :: m => a :: b :: interleave l m
  | l, m => l ++ m

/-- Bytes of a row in the first plane and in the chroma plane (R240). -/
def packRow (pack : Nat) (f : FrameHdr) (r : Row3) : List Nat × List Nat :=
  if f.ycc = 2 then (packCodes pack (r.y.zip (r.c1.zip r.c2) |>.flatMap fun z => [z.1, z.2.1, z.2.2]), [])
  else (packCodes pack r.y, packCodes pack (interleave r.c1 r.c2))

/-- A row padded to whole 64-bit words (R276). -/
def pad8 (bs : List Nat) : List Nat := bs ++ (List.range ((8 - bs.length % 8) % 8)).map fun _ => 0

/-! ### SDI rasters -/

/-- Frame rates of the RATE encoding (R241). -/
def sdiHz (rate : Nat) : Nat := [24, 25, 30, 50, 60, 100, 120].getD rate 24

/-- Raster frames in quarters of a nanosecond: n frames at a rate, divided by 1.001 or not. -/
def rasterSpan (n rate : Nat) (div : Bool) : Nat :=
  if div then n * 4004000000 / sdiHz rate else n * 4000000000 / sdiHz rate

/-- Lines of a raster, blanking included. -/
def rasterLines (fmt : Nat) : Nat := if fmt ≤ 1 then 1125 else 2250

/-- Increment of the channel that the lanes of an SDI output follow; the nominal one where they keep to REFCLK (R150). -/
def State.trackInc (s : State) (t c : Nat) : Nat :=
  match s.f t (LANE_RATE_TRACK (16 + s.a t (OC_SDI_LANE0 c))) with
  | 0 => nominalInc
  | n + 1 => (s.chan t n).inc

/-- n frames of a channel's raster on its lane clock, in quarters of a nanosecond (R150, R246). -/
def State.chSpan (s : State) (t c n : Nat) : Nat :=
  rasterSpan n (s.a t (OC_SDI_RATE c)) (s.aOn t (OC_SDI_DIV1001 c)) * nominalInc / max 1 (s.trackInc t c)

/-- Increments have changed: a raster that follows one goes on from where it stands at its new rate (R150). -/
def State.retrack (s old : State) : State :=
  s.each s.tileList fun s t => s.each (List.range 4) fun s c =>
    let x := s.out t c
    let a := old.trackInc t c
    let b := s.trackInc t c
    if x.raster ∧ a ≠ b ∧ x.rasterTick ≤ s.now * 5 then
      s.setOut t c { x with rasterTick := s.now * 5 - (s.now * 5 - x.rasterTick) * a / max 1 b }
    else s

/-- The format words of a channel, as a lane keeps them (R244). -/
def State.sdiWord (s : State) (t c : Nat) : Nat :=
  s.a t (OC_SDI_FORMAT c) + 8 * s.a t (OC_SDI_WIDE c) + 16 * s.a t (OC_SDI_RATE c) + 128 * s.a t (OC_SDI_DIV1001 c)

/-- Lanes that a channel drives. -/
def State.sdiLanes (s : State) (t c : Nat) : List Nat :=
  (16 + s.a t (OC_SDI_LANE0 c)) :: (if s.a t (OC_SDI_FORMAT c) = 4 then [16 + s.a t (OC_SDI_LANE1 c)] else [])

/-- The black raster that a lane no channel drives sends (R244): the format last sent, else the format of its rate. -/
def State.sdiIdle (s : State) (t l : Nat) : Nat :=
  match smGet s.pix.sdiFmt (tk t l) 0 with
  | v + 1 => v
  | 0 =>
    let k := s.f t (LANE_RATE_KBPS l)
    let hit := [0, 1, 2, 3].filterMap fun f =>
      if sdiLaneRate f false = k then some (f, false) else if sdiLaneRate f true = k then some (f, true) else none
    match hit with
    | [] => 0
    | (f, d) :: _ => f + 16 * (if f % 2 = 0 then 0 else if d then 4 else 3) + 128 * b2n d

/-- The channel feeds an SDI output of this tile. -/
def State.sdiOut (s : State) (t c : Nat) : Bool :=
  s.aOn t (OC_CFG_ON c) && s.a t (OC_CFG_DEST c) = 1 && (!s.aOn t (OC_CFG_ASSEMBLE c) || s.a t (OC_CFG_HOME c) = t)

/-- The channel uses frame stores: DRAM, or SDI in FRAMED timing. -/
def State.outStored (s : State) (t c : Nat) : Bool :=
  s.a t (OC_CFG_DEST c) = 4 || (s.a t (OC_CFG_DEST c) = 1 && s.aOn t (OC_CFG_TIMING c))

def State.outDirect (s : State) (t c : Nat) : Bool := s.a t (OC_CFG_DEST c) = 1 && !s.aOn t (OC_CFG_TIMING c)

/-- Raster frame that carries a frame whose Frame Start came at a tick, by the nearest start (R246). -/
def State.rasterOf (s : State) (t c tick : Nat) : Nat :=
  let x := s.out t c
  let span := s.chSpan t c 1
  let at_ := tick * 5 + s.a t (OC_RDELAY_RDELAY c) * 4
  (2 * (at_ - x.rasterTick) + span) / (2 * span)

/-- Raster frame of an input frame: the one its Frame Start gave it slots in, else the nearest (R246). -/
def State.directIdx (s : State) (t c : Nat) (f : FrameHdr) : Nat :=
  match (s.out t c).directs.find? (·.hdr.cnt = f.cnt) with
  | some d => d.idx
  | none => s.rasterOf t c f.tick

/-- The slot of image row i of raster frame n has opened (R246). -/
def State.slotPast (s : State) (t c n i : Nat) : Bool :=
  decide (n * 65536 + s.a t (OC_PLACE_PY c) + i < (s.out t c).rasterN * 65536 + (s.out t c).rasterRow)

/-- A Frame Start at a channel in DIRECT timing: the raster starts RDELAY after it, or its phase error is measured
(R246). -/
def State.sdiFrameStart (s : State) (t src tick : Nat) : State :=
  s.each (List.range 4) fun s c =>
    let x := s.out t c
    let hdr := ((s.port t src).frame.map (·.hdr)).getD {}
    let used : Bool := (s.port t src).frame.isSome && hdr.cnt % (s.a t (OC_CFG_DECIM c) + 1) == 0
    if ¬ s.sdiOut t c ∨ ¬ s.outDirect t c ∨ s.stale t (7 + c) ∨ s.a t (DV_CFG_SRC (s.a t (OC_CFG_PIPE c))) ≠ src ∨ ¬ used then s
    else if ¬ x.raster then
      let s := s.setOut t c { x with
        raster := true, rasterTick := tick * 5 + s.a t (OC_RDELAY_RDELAY c) * 4, rasterN := 0, rasterRow := 0, txBuf := []
        directs := [{ idx := 0, hdr := hdr }] }
      s.each (s.sdiLanes t c) fun s l => { s with pix.sdiFmt := smPut s.pix.sdiFmt (tk t l) (s.sdiWord t c + 1) 0 }
    else
      let n := s.rasterOf t c tick
      let e : Int := sra ((x.rasterTick + s.chSpan t c n : Nat) - (tick * 5 + s.a t (OC_RDELAY_RDELAY c) * 4 : Nat) : Int) 2
      let s := s.setOut t c { x with directs := x.directs ++ [{ idx := n, hdr := hdr }] }
      let s := s.setReg t (OC_PHASE c) (ux 32 e)
      let tol := s.a t (OC_PHASE_TOL_TOL c)
      let tol := if tol = 0 then s.chSpan t c 1 / rasterLines (s.a t (OC_SDI_FORMAT c)) / 4 else tol
      s.when (decide ((tol : Int) < iabs e)) fun s => (s.setB t (OC_STAT_PHASE_SLIP c) true).raise t 114

/-- ADIT_FRAME_START: a Frame Start reaches a port, and the rasters that follow its source. -/
def State.frameStart (s : State) (t p srcId fcnt : Nat) (lags : List Nat) : State :=
  let s := s.adFrameStart t p srcId fcnt lags
  match (s.port t p).frame with
  | some f => if f.started ∧ f.hdr.tick = s.now then s.sdiFrameStart t p s.now else s
  | none => s

/-- SG_FRAME_START_RECORD: the lead's record reaches a member; one without lanes has its Frame Start by it. -/
def State.frameRecord (s : State) (t p : Nat) : State :=
  let had := match (s.port t p).frame with
    | some f => f.hdr.cnt + 1
    | none => 0
  let s := s.sgRecord t p
  match (s.port t p).frame with
  | some f => if s.adN t p = 0 ∧ had ≠ f.hdr.cnt + 1 then s.sdiFrameStart t p f.hdr.tick else s
  | none => s

/-! ### Delivery on HOME -/

/-- Write the record of an output frame and raise EV_OUT_FRAME_DONE (R250). -/
def State.outRecord (s : State) (t c : Nat) (f : FrameHdr) (st bitsExtra : Nat) : State :=
  let x := s.out t c
  let s := s.setReg t (OC_OFCNT c) x.outFrame
  let s := s.setReg t (OC_IFCNT c) f.cnt
  let s := s.setReg t (OC_FSTAT c) (if x.audBad then orBit st stDamagedData else st)
  let s := s.setReg t (OC_FREC c)
    (min 65535 x.underrun + b2n x.missed * 2 ^ 18 + b2n x.filled * 2 ^ 20 + b2n x.audUnder * 2 ^ 21 + bitsExtra)
  let s := s.setReg t (OC_WAITMAX c) x.waitMax
  let s := s.setOut t c { s.out t c with missed := false, underrun := 0, underrunRaised := false, audUnder := false, audRaised := false, audBad := false, waitMax := 0 }
  s.raise t (109 + c)

/-- The next output frame number (R250). -/
def nextFrame (n : Nat) : Nat := if n = 0xFFFFFFFF then 1 else n + 1

/-- The channel's output frames are raster frames (R248). -/
def State.outFramed (s : State) (t c : Nat) : Bool := s.a t (OC_CFG_DEST c) = 1 && s.aOn t (OC_CFG_TIMING c)

/-- An input frame is one that the channel's active words take (R249). -/
def State.outUses (s : State) (t c : Nat) (f : FrameHdr) : Bool :=
  s.aOn t (OC_CFG_ON c) && f.cnt % (s.a t (OC_CFG_DECIM c) + 1) == 0

/-- Tile that delivers what tile t's channel produces (R237). -/
def State.outHome (s : State) (t c : Nat) : Nat := if s.aOn t (OC_CFG_ASSEMBLE c) then s.a t (OC_CFG_HOME c) else t

/-- The output frame that an input frame builds has been announced. -/
def OutCtx.announced (x : OutCtx) (f : FrameHdr) : Bool :=
  match x.pointed with
  | some (_, _, tick) => decide (f.tick ≤ tick)
  | none => false

/-- Number that the next output frame to be announced takes. -/
def OutCtx.nextNum (x : OutCtx) : Nat := (List.range (x.points.length + 1)).foldl (fun n _ => nextFrame n) x.outFrame

/-- The frame boundary of an output frame (R40, R41, R250): it lies where the input frame that builds it first reaches the channel, on
whichever tile (DEDUCED, log 92), so that the channel's own section can exchange for that frame. -/
def State.outPoint (s : State) (t c : Nat) (f : FrameHdr) : State :=
  let h := s.outHome t c
  let x := s.out h c
  if s.outFramed h c ∨ ¬ s.outUses t c f ∨ ¬ s.has h ∨ s.isolated h ∨ x.announced f then s
  else if s.stale h (7 + c) then s.setOut h c { x with points := [] }
  else
    let s := s.setOut h c { x with points := x.points ++ [(f.cnt, f.tick)], pointed := some (x.nextNum, f.cnt, f.tick) }
    s.occurrence 2 (c + 4 * h) x.nextNum h

/-- An announced frame that the channel's new words do not take builds no output frame. -/
def State.outUnpoint (s : State) (h c : Nat) (f : FrameHdr) : State :=
  s.setOut h c { s.out h c with points := (s.out h c).points.filter (·.2 ≠ f.tick) }

/-- The first row of an output frame: its number and its place (R250). -/
def State.outBegin (s : State) (t c : Nat) (f : FrameHdr) : State :=
  let framed := s.outFramed t c
  let s := if framed then s else s.outPoint t c f
  let x := s.out t c
  let num := if framed then x.outFrame else nextFrame x.outFrame
  let direct := s.outDirect t c && x.raster
  let known := x.directs.any (·.hdr.cnt = f.cnt)
  let s := s.setOut t c
    { x with
      open_ := some f, sent := 0, outFrame := num, filled := false, recY := [], recC := [], extra := 0
      points := x.points.filter fun p => f.tick < p.2
      directs := if !direct then x.directs
        else if known then x.directs.map fun d => if d.hdr.cnt = f.cnt then { d with hdr := f, begun := true } else d
        else x.directs ++ [{ idx := s.rasterOf t c f.tick, hdr := f, begun := true }] }
  let s := s.endOverrun t 2 c
  let s := s.setDiscard t 3 f.src false
  let s := s.setDiscard t 1 f.src false
  s.when (s.a t (OC_CFG_DEST c) == 3) fun s =>
    let k := tk t (s.a t (OC_CFG_TARGET c))
    let s := s.setDiscard t 6 f.src false
    { s with hevc.encIn := smPut s.hevc.encIn k (smGet s.hevc.encIn k [] ++ [.openF f]) [] }

/-- Output row i goes to the destination (R239, R240, R245, R246). -/
def State.outPut (s : State) (t c : Nat) (f : FrameHdr) (i : Nat) (r : Row3) : State :=
  let dest := s.a t (OC_CFG_DEST c)
  let s := s.setOut t c { s.out t c with sent := i + 1 }
  if s.outStored t c then
    if s.overrunning t 2 c ∨ s.discarding t 3 f.src then s.setOut t c { s.out t c with extra := orBit (s.out t c).extra stDamaged }
    else
      let x := s.out t c
      let base := s.a64 t (OC_FS_LO c) + x.slot * s.a t (OC_FS_SLOT_SLOT_BYTES c)
      let stride := s.a t (OC_FS_STRIDE_STRIDE c)
      let (y, ch) := packRow (s.a t (OC_CFG_PACK c)) f r
      let s := s.wrAt (port := 2) t (base + i * stride) y false
      s.when (f.ycc != 2 && f.hasC i) fun s =>
        s.wrAt (port := 2) t (base + s.a t (OC_FS_COFS_C_OFS c) + (if f.sub = 2 then i / 2 else i) * stride) ch false
  else if dest = 2 then
    let x := s.out t c
    let (y, ch) := packRow (s.a t (OC_CFG_PACK c)) f r
    s.setOut t c { x with recY := x.recY ++ pad8 y, recC := x.recC ++ pad8 ch }
  else if dest = 3 then
    let k := tk t (s.a t (OC_CFG_TARGET c))
    if s.discarding t 6 f.src then s
    else { s with hevc.encIn := smPut s.hevc.encIn k (smGet s.hevc.encIn k [] ++ [.row i r]) [] }
  else if dest = 1 then
    let x := s.out t c
    let n := s.directIdx t c f
    if ¬ x.raster ∨ s.slotPast t c n i ∨ 16 ≤ x.txBuf.length ∨ s.discarding t 1 f.src then s
    else s.setOut t c { x with txBuf := x.txBuf ++ [(n * 65536 + i, s.now, r)] }
  else s

/-- Rows that a frame does not have are black, where a frame is delivered in full (R249). -/
def State.outFill (s : State) (t c : Nat) (f : FrameHdr) : State :=
  let x := s.out t c
  let ow := s.a t (OC_OSIZE_OW c)
  let oh := s.a t (OC_OSIZE_OH c)
  if s.a t (OC_CFG_DEST c) = 3 ∨ s.outDirect t c then s
  else s.each (List.range (oh - x.sent)) fun s k => s.outPut t c f (x.sent + k) (f.blackRow ow (x.sent + k))

/-- The next slot of a frame store; FRAMED keeps the slot being read, or last read, which a repeat reads again (R240, R248). -/
def State.outNextSlot (s : State) (t c : Nat) : Nat :=
  let x := s.out t c
  let n := s.a t (OC_FS_STRIDE_NSLOT c) + 1
  let k := (x.slot + 1) % n
  match (match x.sending with
      | some z => some z
      | none => x.lastSent) with
  | some (b, _, _) => if s.a t (OC_CFG_DEST c) = 1 ∧ k = b then (k + 1) % n else k
  | none => k

/-- The output frame ends at the destination (R239, R248, R249, R276). -/
def State.outEnd (s : State) (t c : Nat) (st : Nat) : State :=
  match (s.out t c).open_ with
  | none => s
  | some f =>
    let s := s.outFill t c f
    let x := s.out t c
    let st := st ||| x.extra
    let st := if x.filled then orBit st stDamaged else st
    let s := s.setOut t c { x with open_ := none }
    let dest := s.a t (OC_CFG_DEST c)
    if s.outDirect t c then
      s.setOut t c { s.out t c with directs := x.directs.map fun d => if d.hdr.cnt = f.cnt then { d with status := some st } else d }
    else if dest = 1 then
      let s := s.setReg t (OC_SLOT c) x.slot
      let next := s.outNextSlot t c
      s.setOut t c { s.out t c with ready := x.ready ++ [(x.slot, f, st)], slot := next }
    else
      let s := if dest = 4 then
          let s := s.setReg t (OC_SLOT c) x.slot
          let next := s.outNextSlot t c
          s.setOut t c { s.out t c with slot := next }
        else if dest = 2 then
          (s.recFeed t 1 c { cnt := f.cnt, status := st, n := f.n, tick := f.tick, payload := x.recY ++ x.recC }).setOut t c { s.out t c with recY := [], recC := [] }
        else if dest = 3 then
          let k := tk t (s.a t (OC_CFG_TARGET c))
          { s with hevc.encIn := smPut s.hevc.encIn k (smGet s.hevc.encIn k [] ++ [.closeF st]) [] }
        else s
      s.outRecord t c f st 0

/-- Deliver row i of a frame, opening the output frame with its first row. -/
def State.outDeliver (s : State) (t c : Nat) (f : FrameHdr) (i : Nat) (r : Row3) : State :=
  let s := if (s.out t c).open_ = some f then s else s.outBegin t c f
  s.outPut t c f i r

/-- The frame has closed on HOME: open it if no row did, then end it. -/
def State.outClose (s : State) (t c : Nat) (f : FrameHdr) (st : Nat) : State :=
  let s := if (s.out t c).open_ = some f then s else s.outBegin t c f
  s.outEnd t c st

/-! ### Assembly -/

/-- CRC-32 of the channel's active bench words (R237). -/
def State.benchCrc (s : State) (t c : Nat) : Nat :=
  crc32 ((List.range (unitWords (7 + c))).flatMap fun w => leBytes 4 (s.reg t (wordAt (7 + c) w + 0x8000)))

/-- Tiles whose ranges HOME waits for: those that are not isolated and whose stripe of the frame has columns (R35, R237, R238). -/
def State.asmTiles (s : State) (t c : Nat) (f : FrameHdr) : List Nat :=
  s.tileList.filter fun u => !s.isolated u && (s.outRange t c { f with stripe := s.frameStripe u f }).2 ≠ 0

/-- A row put together from its ranges, black where none came; whether any column is missing. -/
def State.asmRow (s : State) (t c : Nat) (f : FrameHdr) (row : Nat) (ms : List RangeMsg) : Row3 × Bool :=
  let ow := s.a t (OC_OSIZE_OW c)
  let put := fun (base : List Nat) (at_ : Nat) (l : List Nat) => base.take at_ ++ l ++ base.drop (at_ + l.length)
  let r := ms.foldl (fun (r : Row3) m => { y := put r.y m.j0 m.data.y, c1 := put r.c1 m.i0 m.data.c1, c2 := put r.c2 m.i0 m.data.c2 }) (f.blackRow ow row)
  (r, ms.foldl (fun a m => a + m.data.y.length) 0 < ow)

/-- EV_OUT_ASM_LATE, once per frame (R238). -/
def State.asmLate (s : State) (t c : Nat) : State :=
  match (s.out t c).asm with
  | some a => if a.lateRaised then s else (s.setOut t c { s.out t c with asm := some { a with lateRaised := true } }).raise t 115
  | none => s

/-- The channel's section has a frame at X3 or an output frame in progress (R41). -/
def OutCtx.busy (x : OutCtx) : Bool := x.frame.isSome || x.asm.isSome || x.open_.isSome

/-- A frame at X3 or an output frame has ended: with the last of them the section's frame ends (R41). -/
def State.outEndSec (s : State) (t c : Nat) : State := if (s.out t c).busy then s else s.endSec t (7 + c) 0

/-- The frame being assembled ends; ranges of it that come later are discarded (R238). -/
def State.asmEnd (s : State) (t c : Nat) (a : AsmFrame) (st : Nat) : State :=
  let s := s.outClose t c a.hdr st
  (s.setOut t c { s.out t c with asm := none, asmGone := some a.hdr.tick }).outEndSec t c

/-- Deliver the rows that are complete, in order; with `force` the next row even if ranges are missing: missing columns are black, and
the frame is DAMAGED (R238). -/
def State.asmDrain (s : State) (t c : Nat) (force : Bool) : Nat → State
  | 0 => s
  | k + 1 =>
    let x := s.out t c
    match x.asm with
    | none => s
    | some a =>
      let ms := smGet a.rows a.next []
      let waits := (s.asmTiles t c a.hdr).filter fun u => !(ms.any (·.src = u)) && !(a.closedBy.contains u)
      let more : Bool := a.next < s.a t (OC_OSIZE_OH c) && a.rows.any fun r => decide (a.next ≤ r.1)
      if a.next < s.a t (OC_OSIZE_OH c) ∧ ((more ∧ waits = []) ∨ force) then
        let (r, hole) := s.asmRow t c a.hdr a.next ms
        let s := s.setOut t c { x with asm := some { a with
          next := a.next + 1, rows := smDel a.next a.rows, status := if hole then orBit a.status stDamaged else a.status } }
        let s := s.when hole fun s => s.asmLate t c
        let s := s.outDeliver t c a.hdr a.next r
        let s := s.when hole fun s => s.setOut t c { s.out t c with filled := true }
        s.asmDrain t c false k
      else if waits = [] ∧ ¬ more then s.asmEnd t c a a.status
      else s

/-- A range belongs to a frame that HOME has ended (R238). -/
def OutCtx.late (x : OutCtx) (m : RangeMsg) : Bool :=
  match x.asmGone with
  | some n => decide (m.hdr.tick ≤ n)
  | none => false

/-- HOME places a range (R237). -/
def State.asmPlace (s : State) (t c : Nat) (m : RangeMsg) : State :=
  let x := s.out t c
  let a := (x.asm).getD { hdr := m.hdr }
  let bad := m.crc ≠ s.benchCrc t c
  let s := s.when (bad && !a.mismatch) fun s => s.raise t 116
  let a := { a with mismatch := a.mismatch || bad, status := a.status ||| m.status ||| (if bad then 2 ^ stDamaged else 0) }
  let a := if m.last then { a with closedBy := m.src :: a.closedBy, closedAt := some (a.closedAt.getD s.now) }
    else if m.row < a.next then a
    else { a with rows := smIns m.row (smGet a.rows m.row [] ++ [m]) a.rows, first := if (smLook a.first m.row).isSome then a.first else smIns m.row s.now a.first }
  (s.setOut t c { s.out t c with asm := some a }).asmDrain t c false 65536

/-- ASM_RANGE_RECEIVE: a range that belongs to the frame being assembled, or the first of the next frame, reaches HOME. -/
def State.asmReceive (s : State) (t c : Nat) : State :=
  let k := tk t c
  let l := smGet s.pix.ranges k []
  let pick := match (s.out t c).asm with
    | none => l.head?
    | some a => l.find? fun m => m.hdr.cnt = a.hdr.cnt ∨ (s.out t c).late m
  match pick with
  | none => s
  | some m =>
    let s := { s with pix.ranges := smPut s.pix.ranges k (l.erase m) [] }
    if s.stale t (7 + c) ∨ (s.out t c).late m then s else s.asmPlace t c m

/-- The slot of the next row of the frame being assembled has opened (R238). -/
def State.asmSlot (s : State) (t c : Nat) (a : AsmFrame) : Bool :=
  s.outDirect t c && (s.out t c).raster && s.slotPast t c (s.directIdx t c a.hdr) a.next

/-- ASM_WAIT has passed since the first range of the next row of the frame being assembled, or its raster slot has come (R238). Where no
range of that row has come, the first one of a later row or the first close begins the wait (DESIGN CHOICE, log 92). -/
def State.asmDue (s : State) (t c : Nat) (a : AsmFrame) : Bool :=
  let since := ((a.first.filter fun r => decide (a.next ≤ r.1)).map (·.2)) ++ (match a.closedAt with
    | some n => [n]
    | none => [])
  s.asmSlot t c a || since.any fun n => s.a t (OC_ASM_WAIT_WAIT c) * 4 ≤ (s.now - n) * 5

/-- The next row of the frame being assembled is filled and delivered, or a frame that has no further row ends (R238); `slot` says that
the row's raster slot has come. -/
def State.asmForce (s : State) (t c : Nat) (slot : Bool) : State :=
  match (s.out t c).asm with
  | none => s
  | some a =>
    if a.next < s.a t (OC_OSIZE_OH c) ∧ (slot ∨ a.rows.any fun r => decide (a.next ≤ r.1)) then s.asmDrain t c true 65536
    else
      let s := s.asmLate t c
      let s := s.setOut t c { s.out t c with filled := true }
      s.asmEnd t c a (orBit a.status stDamaged)

/-- ASM_TIMEOUT: rows that an isolated tile's ranges alone held back leave; a row whose time has run out is filled (R238). -/
def State.asmTimeout (s : State) (t c : Nat) : State :=
  let s := s.asmDrain t c false 65536
  match (s.out t c).asm with
  | some a => if s.asmDue t c a then s.asmForce t c (s.asmSlot t c a) else s
  | none => s

/-! ### Rows at X3 -/

/-- A range or the frame's close goes to HOME, or straight to the destination where nothing is assembled; a tile with no column of the
window sends nothing (R235, R237). -/
def State.outSend (s : State) (t c : Nat) (f : FrameHdr) (row : Nat) (r : Row3) (st : Nat) (last : Bool) : State :=
  if ¬ s.aOn t (OC_CFG_ASSEMBLE c) then
    if last then s.outClose t c f st else s.outDeliver t c f row r
  else if (s.outRange t c f).2 = 0 then s
  else
    let home := s.a t (OC_CFG_HOME c)
    let j0 := (s.outRange t c f).1
    let m : RangeMsg :=
      { src := t, hdr := { f with stripe := 0 }, row := row, j0 := j0, i0 := if f.sub = 0 then j0 else (j0 + 1) / 2, data := r, status := st, crc := s.benchCrc t c, last := last }
    if home = t then
      let x := s.out t c
      let other := match x.asm with
        | some a => decide (a.hdr.cnt ≠ f.cnt)
        | none => false
      if other then { s with pix.ranges := smPut s.pix.ranges (tk t c) (smGet s.pix.ranges (tk t c) [] ++ [m]) [] }
      else if s.stale t (7 + c) ∨ x.late m then s
      else s.asmPlace t c m
    else
      let (s, ok) := s.seamReach t home
      s.when (ok && !s.discarding t 2 f.src) fun s =>
        { s with pix.ranges := smPut s.pix.ranges (tk home c) (smGet s.pix.ranges (tk home c) [] ++ [m]) [] }

/-- Halos of X3 that output row i reads have not come: each is substituted, and the frame is DAMAGED (R30). -/
def State.outHaloLate (s : State) (t c : Nat) (f : FrameHdr) (i : Nat) : State :=
  let x := s.out t c
  let l := (s.outHalos t c f i).filter fun z => !x.lates.contains z
  if l = [] then s
  else (s.setOut t c { x with haloLate := true, lates := x.lates ++ l, status := orBit x.status stDamaged }).halosLate t l

/-- The X3 halos of a frame that channel c has closed go, unless another channel of the pipe has the frame still to process. -/
def State.dropX3 (s : State) (t c : Nat) (f : FrameHdr) : State :=
  let p := s.a t (OC_CFG_PIPE c)
  let same := fun (g : FrameHdr) => g.src == f.src && g.cnt == f.cnt
  let due := ((List.range 4).filter fun d => d ≠ c && s.a t (OC_CFG_PIPE d) == p).any fun d =>
    ((s.out t d).frame.map same).getD false || (smGet s.pix.x3 (tk t d) []).any fun i => match i with
      | .openF g => same g
      | _ => false
  if due then s else s.dropHalos t 3 p f.cnt

/-- Output rows leave as the rows they read are there (R231). -/
def State.outDrain (s : State) (t c : Nat) : Nat → State
  | 0 => s
  | k + 1 =>
    let x := s.out t c
    match x.frame with
    | none => s
    | some f =>
      let need := s.outNeeds t c f x.next
      if x.next < s.a t (OC_OSIZE_OH c) ∧ need.all (· < x.rows) then
        let s := s.outHaloLate t c f x.next
        let r := s.outRowOf t c f x.next
        let low := (s.outNeeds t c f (x.next + 1) ++ need).foldl min 65535
        let y := s.out t c
        let s := s.setOut t c { y with next := x.next + 1, x3 := y.x3.filter fun z => low ≤ z.1 + 8 }
        (s.outSend t c f x.next r (s.out t c).status false).outDrain t c k
      else s

/-- The frame at X3 closes (R249). -/
def State.outFinish (s : State) (t c : Nat) : State :=
  let x := s.out t c
  match x.frame, x.closed with
  | some f, some st =>
    let st := st ||| x.status
    let st := if s.marking t (7 + c) then orBit st stDamaged else st
    let s := s.outSend t c f 0 {} st true
    let s := s.dropX3 t c f
    let s := s.setOut t c { s.out t c with
      frame := none, status := 0, x3 := [], rows := 0, next := 0, closed := none, haloLate := false, lates := [], coefCut := false }
    s.outEndSec t c
  | _, _ => s

/-- What the channel's exchange brings: a coefficient fault ends with its bank (R236); a change of FORMAT, lanes, timing or
destination restarts the raster (R244, R246). -/
def State.outExchanged (s : State) (t c : Nat) : State :=
  match s.takeExchange t (7 + c) 0 with
  | (s, none) => s
  | (s, some old) =>
    let w := old.getD 0 0
    let sdi := old.getD 10 0
    let s := s.when (bits w 16 1 != s.a t (OC_CFG_COEF_BANK c)) fun s => s.setB t (OC_STAT_COEF_TFAULT c) false
    let cfg := s.reg t (OC_CFG c + 0x8000)
    let now := s.reg t (OC_SDI c + 0x8000)
    let restart := bits sdi 0 9 ≠ bits now 0 9 || bits w 0 1 ≠ bits cfg 0 1 || bits w 2 3 ≠ bits cfg 2 3 || bits w 9 1 ≠ bits cfg 9 1
    s.when restart fun s =>
      s.setOut t c { s.out t c with raster := false, txBuf := [], directs := [], ready := [], sending := none, lastGood := none, lastSent := none }

/-- A frame reaches a channel (R44, R249). -/
def State.outOpen (s : State) (t c : Nat) (f : FrameHdr) : State :=
  if s.stale t (7 + c) then s.refuseFrame t
  else
    let h := s.outHome t c
    let s := s.outPoint t c f
    let s := (s.beginSec t (7 + c) 0 f).outExchanged t c
    if ¬ s.outUses t c f then (s.outUnpoint h c f).outEndSec t c
    else
      let s := s.outPoint t c f
      let bad := s.aOn t (OC_CFG_SCALE_EN c) && s.on t (OC_STAT_COEF_TFAULT c)
      s.setOut t c { s.out t c with
        frame := some f, status := if bad then orBit f.status stDamaged else f.status, x3 := [], rows := 0, next := 0, closed := none
        haloLate := false, lates := [], coefCut := false }

/-- A frame waits at X3: the channel's words are to be exchanged, and HOME still assembles an earlier frame with the old ones (R41). -/
def State.outHeld (s : State) (t c : Nat) (i : Item3) : Bool :=
  match i with
  | .openF f => (s.unit t (7 + c)).waits ≠ [] &&
      ((s.out t c).busy || (smGet s.pix.ranges (tk t c) []).any fun m => !(s.out t c).late m && decide (m.hdr.tick < f.tick))
  | _ => false

/-- OUT_ROW: rows whose context is there leave, a frame that is whole closes, the next item at X3 is taken. -/
def State.outRow (s : State) (t c : Nat) : State :=
  let s := (s.outDrain t c 65536).outFinish t c
  match smGet s.pix.x3 (tk t c) [] with
  | [] => s
  | i :: l =>
    if s.outHeld t c i then s
    else
    let s := { s with pix.x3 := smPut s.pix.x3 (tk t c) l [] }
    let x := s.out t c
    match i with
    | .openF f => s.outOpen t c f
    | .row y r => if x.frame.isSome then s.setOut t c { x with x3 := x.x3 ++ [(y, r)], rows := y + 1 } else s
    | .closeF st => if x.frame.isSome then s.setOut t c { x with closed := some st } else s

/-- The frames of a channel that are open close with a status bit (R249). -/
def State.outCut (s : State) (t c b : Nat) : State :=
  let x := s.out t c
  let s := match x.frame with
    | none => s
    | some _ => ((s.setOut t c { x with closed := some (orBit (x.closed.getD (2 ^ 31)) b) }).outDrain t c 65536).outFinish t c
  match (s.out t c).asm with
  | some a => s.asmEnd t c a (orBit a.status b)
  | none => s

/-- UNIT_ABORT of a channel (R249). -/
def State.outAbort (s : State) (t c : Nat) : State := s.outCut t c stAborted

/-- A parity error read from a coefficient bank (R236): unit taps to the end of the frame being scaled, which is DAMAGED. -/
def State.outTableFault (s : State) (t c : Nat) (inj : Bool) : State :=
  let x := s.out t c
  let s := s.when (x.frame.isSome && s.aOn t (OC_CFG_SCALE_EN c)) fun s =>
    s.setOut t c { x with coefCut := true, status := orBit x.status stDamaged }
  (s.setB t (OC_STAT_COEF_TFAULT c) true).raiseX t 117 inj

/-! ### Raster slots -/

/-- Close the direct frames whose slots have passed and whose status is known; one that has not begun a raster frame later was refused on
its way, or not received (R246, R249). -/
def State.directDone (s : State) (t c : Nat) : State :=
  let x := s.out t c
  let gone := fun (d : DirectFrame) => d.done && !d.begun && decide (d.idx < x.rasterN)
  let fin := x.directs.filter fun d => d.done && d.status.isSome
  let s := s.setOut t c { x with
    directs := x.directs.filter fun d => !(d.done && d.status.isSome) && !gone d, missed := x.missed || x.directs.any gone }
  s.each fin fun s d => s.outRecord t c d.hdr (d.status.getD 0) 0

/-- A unit that the rows of a channel pass refuses frames (R44). -/
def State.outRefused (s : State) (t c : Nat) : Bool :=
  let n := s.a t (OC_CFG_PIPE c)
  let src := s.a t (DV_CFG_SRC n)
  (t :: s.runOf src).any fun u => s.stale u src || s.stale u (21 + src) || s.stale u 4 || s.stale u (5 + n) || s.stale u (7 + c)

/-- A row of the active raster: the image's columns from PX on, black beside them (R238, R242). -/
def State.sdiLine (s : State) (t c : Nat) (r : Row3) : Row3 :=
  let w := (sdiRaster (s.a t (OC_SDI_FORMAT c)) (s.aOn t (OC_SDI_WIDE c))).1
  let px := s.a t (OC_PLACE_PX c)
  let put := fun (n at_ v : Nat) (l : List Nat) => List.replicate at_ v ++ l ++ List.replicate (n - at_ - l.length) v
  { y := put w px 64 r.y, c1 := put (w / 2) (px / 2) 512 r.c1, c2 := put (w / 2) (px / 2) 512 r.c2 }

/-- A slot of the image opens in DIRECT timing (R246, R247, R249): a row that was ready less than the transmit allowance of R32 early has
not waited (DEDUCED, log 92). -/
def State.directSlot (s : State) (t c i : Nat) : State :=
  let n := (s.out t c).rasterN
  let s := match (s.out t c).asm with
    | some a => if s.directIdx t c a.hdr = n ∧ a.next = i then s.asmForce t c true else s
    | none => s
  let x := s.out t c
  let key := n * 65536 + i
  let black := { x with laneRow := s.sdiLine t c {}, txBuf := x.txBuf.filter fun z => key < z.1 }
  let s := match x.txBuf.find? (·.1 = key), x.directs.find? (·.idx = n) with
    | some (_, ready, r), _ =>
      let wait := (s.now - ready) * 5 / 4
      s.setOut t c { black with laneRow := s.sdiLine t c r, waitMax := if wait ≤ 40 then x.waitMax else max x.waitMax wait }
    | none, none => s.setOut t c { black with missed := true }
    | none, some d =>
      let cut := match d.status with
        | some st => bit st stAborted || bit st stClockLoss
        | none => false
      if cut then s.setOut t c black
      else if !d.begun && s.outRefused t c then s.setOut t c { black with missed := true }
      else
        let s := s.setOut t c { black with underrun := x.underrun + 1, underrunRaised := true }
        s.when (!x.underrunRaised) fun s => s.raise t 113
  let y := s.out t c
  if i + 1 = s.a t (OC_OSIZE_OH c) then
    (s.setOut t c { y with directs := y.directs.map fun d => if d.idx ≤ y.rasterN then { d with done := true } else d }).directDone t c
  else s

/-- A slot of the image opens in FRAMED timing: its row is read from the frame store (R248, R395, R415). -/
def State.framedSlot (s : State) (t c i : Nat) : State :=
  let x := s.out t c
  match x.sending with
  | none => s.setOut t c { x with laneRow := s.sdiLine t c {} }
  | some (slot, f, _) =>
    let pack := s.a t (OC_CFG_PACK c)
    let ow := s.a t (OC_OSIZE_OW c)
    let cn := 2 * chromaCols f.sub ow
    if s.overrunning t 3 c then
      let s := s.setOut t c { x with laneRow := s.sdiLine t c {}, underrun := x.underrun + 1, underrunRaised := true }
      let s := s.setReg t (OC_FSTAT c) (orBit (s.reg t (OC_FSTAT c)) stDamaged)
      let s := s.setF t (OC_FREC_UNDERRUN c) (min 65535 (x.underrun + 1))
      s.when (!x.underrunRaised) fun s => s.raise t 113
    else
      let base := s.a64 t (OC_FS_LO c) + slot * s.a t (OC_FS_SLOT_SLOT_BYTES c) + i * s.a t (OC_FS_STRIDE_STRIDE c)
      let (s, yb, p) := s.rdAt t base (packedBytes pack ow) 3
      let (s, cb, q) := s.rdAt t (base + s.a t (OC_FS_COFS_C_OFS c)) (packedBytes pack cn) 3
      let ch := unpackCodes pack cn cb
      let half := fun k => (List.range (cn / 2)).map fun j => ch.getD (2 * j + k) 0
      let s := s.setOut t c { s.out t c with laneRow := s.sdiLine t c { y := unpackCodes pack ow yb, c1 := half 0, c2 := half 1 } }
      s.when (p || q) fun s => s.setReg t (OC_FSTAT c) (orBit (s.reg t (OC_FSTAT c)) stDamagedData)

/-- Fields of the ST 352 payload identifier (R242); its sampling is 4:2:2 at 10 bits. -/
def State.sdiPid (s : State) (t c : Nat) : List Nat :=
  [s.a t (OC_SDI_FORMAT c), s.a t (OC_SDI_WIDE c), s.a t (OC_SDI_RATE c), s.a t (OC_SDI_DIV1001 c),
   s.a t (DV_CFG_YCC (s.a t (OC_CFG_PIPE c))), s.a t (OC_SDI_TFN c)]

/-- The words of a row in multiplex order: Cb, Y', Cr, Y' (PRESUMED, log 92). -/
def Row3.sdiWords (r : Row3) : List Nat := interleave (interleave r.c1 r.c2) r.y

/-- Scrambled NRZI coding of ST 292-1 (R149; PRESUMED polynomials x^9 + x^4 + 1 and x + 1, log 92): 10-bit words, bit 0 first. Bits 8 to 0
of the state are the last scrambled bits, the latest lowest, bit 9 the last bit sent. -/
def sdiCode (st : Nat) : List Nat → List Nat
  | [] => []
  | w :: l =>
    let r := (List.range 10).foldl (fun (a : Nat × Nat) i =>
      let b := xor (w.testBit i) (xor (a.1.testBit 3) (a.1.testBit 8))
      let o := xor b (a.1.testBit 9)
      ((a.1 * 2 + b2n b) % 512 + b2n o * 512, a.2 + b2n o * 2 ^ i)) (st, 0)
    r.2 :: sdiCode r.1 l

/-- The row goes to the channel's lanes (R149, R242). Where the scrambler stands when the row's words begin is a free value: blanking and
timing references, which the standard defines, have passed it (log 92). -/
def State.sdiPut (s : State) (t c : Nat) : State :=
  s.each (s.sdiLanes t c) fun s l =>
    s.setPin t l { s.pin t l with sdi := sdiCode ((Config.laneBits t l s.now).toNat % 1024) (s.out t c).laneRow.sdiWords }

/-- SDI_SLOT_OPEN: the next active row of the raster goes out (R242, R246). -/
def State.sdiSlot (s : State) (t c : Nat) : State :=
  let x := s.out t c
  if ¬ s.sdiOut t c ∨ s.stale t (7 + c) ∨ (s.outDirect t c ∧ ¬ x.raster) then s
  else
    let py := s.a t (OC_PLACE_PY c)
    let row := x.rasterRow
    let s := s.setOut t c { x with pid := s.sdiPid t c }
    let s := if py ≤ row ∧ row < py + s.a t (OC_OSIZE_OH c) then
        (if s.outDirect t c then s.directSlot t c (row - py) else s.framedSlot t c (row - py))
      else s.setOut t c { s.out t c with laneRow := s.sdiLine t c {} }
    let s := s.sdiPut t c
    let y := s.out t c
    let rows := (sdiRaster (s.a t (OC_SDI_FORMAT c)) (s.aOn t (OC_SDI_WIDE c))).2
    if row + 1 < rows then s.setOut t c { y with rasterRow := row + 1 }
    else if s.outDirect t c then s.setOut t c { y with rasterRow := 0, rasterN := y.rasterN + 1 }
    else s.setOut t c { y with rasterRow := rows }

/-- A frame that BAD_POLICY judges (R248). -/
def badFrame (st : Nat) : Bool := bit st stDamaged || bit st stDamagedData || bit st stUnusable

/-- What a raster frame sends in FRAMED timing (R248): a frame of the store or black, and whether it repeats one, or is black by
BAD_POLICY. -/
structure SdiTurn where
  send : Option (Nat × FrameHdr × Nat) := none
  rep : Bool := false
  black : Bool := false
  drop : Bool := false
  deriving DecidableEq, Repr

/-- The newest frame is sent, or the last one again, or black; a closed frame that is not sent is dropped (R248). -/
def State.sdiChoose (s : State) (t c : Nat) : SdiTurn :=
  let x := s.out t c
  let policy := s.a t (OC_CFG_BAD_POLICY c)
  match x.ready.getLast? with
  | none => { send := x.lastSent, rep := x.lastSent.isSome }
  | some z =>
    if badFrame z.2.2 ∧ policy = 1 then { send := x.lastGood, rep := x.lastGood.isSome, drop := true }
    else if badFrame z.2.2 ∧ policy = 2 then { black := true, drop := true }
    else { send := some z, drop := decide (1 < x.ready.length) }

/-- SDI_RASTER_FRAME_START in FRAMED timing: the raster frame begins with its choice; `audio` embeds its sound (R243, R248, R250). -/
def State.sdiFrame (s : State) (t c : Nat) (audio : State → State) : State :=
  if ¬ s.sdiOut t c ∨ s.outDirect t c ∨ s.stale t (7 + c) then s
  else
    let x := s.out t c
    let num := nextFrame x.outFrame
    let z := s.sdiChoose t c
    let s := (s.endOverrun t 3 c).setOut t c { x with
      ready := [], sending := z.send, outFrame := num, rasterRow := 0, raster := true, rasterTick := s.now * 5, points := [], pointed := none
      lastSent := match z.send with
        | some y => some y
        | none => x.lastSent
      lastGood := match z.send with
        | some y => if badFrame y.2.2 then x.lastGood else some y
        | none => x.lastGood }
    let s := s.each (s.sdiLanes t c) fun s l => { s with pix.sdiFmt := smPut s.pix.sdiFmt (tk t l) (s.sdiWord t c + 1) 0 }
    let s := audio (s.occurrence 2 (c + 4 * t) num t)
    match z.send with
    | some (_, f, st) => s.outRecord t c f st (b2n z.rep * 2 ^ 16 + b2n z.drop * 2 ^ 17 + b2n z.black * 2 ^ 19)
    | none => s.outRecord t c {} 0 (b2n z.drop * 2 ^ 17 + b2n z.black * 2 ^ 19)

end Sys2Proof.Machine
end

