-- ==== Sys2Proof/Machine/Audio.lean ====
section
/-!
DEFINITION. PDM audio (chapter 19): start by a geyser, warm-up, blocks and their fades, the channel set, stops, and the audio
that SDI outputs embed. Decimated samples reach the part as operands: R448 states the filter by its bounds only.
-/

namespace Sys2Proof.Machine

def State.aud (s : State) (ch : Nat) : AudCh := smGet s.audio.ch ch {}

def State.setAud (s : State) (ch : Nat) (x : AudCh) : State := { s with audio.ch := smPut s.audio.ch ch x {} }

/-- Samples of a block: FS / 1,000 (R447). -/
def State.audB (s : State) : Nat := 48 * 2 ^ s.f 0 AUD_CTL_FS

/-- ts in ns on CHAN, after steps. -/
def State.audTs (s : State) : Nat := s.reg64 0 AUD_TS_LO

/-- t_k (R447). -/
def State.audT (s : State) (k : Nat) : Nat := (s.audTs + (s.f 0 AUD_CTL_WARM + k) * 1000000) % 2 ^ 64

/-- Time on CHAN. -/
def State.audNow (s : State) : Nat := s.tcN 0 (s.f 0 AUD_CTL_CHAN)

def State.audActive (s : State) (ch : Nat) : Bool := bit (s.f 0 AUD_MASK_ACTIVE) ch

/-! ### Pins -/

/-- Channel of slot s of input d: slot R (s = 0) is latched at the falling edge of the clocks, slot F (s = 1) at the rising edge (R446). -/
def pdmChannel (d s : Nat) : Nat := 2 * d + s

/-- Inputs D0 to D3 are latched on CLK0, D4 to D7 on CLK1 (R446). -/
def pdmClock (d : Nat) : Nat := d / 4

/-- F_pdm in Hz (R446). -/
def State.pdmHz (s : State) : Nat := if s.on 0 AUD_CTL_PDM_RATE then 6144000 else 3072000

/-- Half periods of the clocks that have begun: a rising edge begins half period 2 m at the first tick at or after ts + m * 10^9 / F_pdm
ns on CHAN (R447); the falling edge lies midway (DESIGN CHOICE, log 93). -/
def State.pdmHalves (s : State) : Nat :=
  let c := s.chan 0 (s.f 0 AUD_CTL_CHAN)
  let e : Int := sx 64 ((c.n + 2 ^ 64 - s.audTs % 2 ^ 64) % 2 ^ 64) * 2 ^ 32 + c.frac
  (e * (2 * s.pdmHz : Nat)).toNat / (10 ^ 9 * 2 ^ 32) + 1

/-- The bits of one slot of every input are latched (R446). -/
def pdmLatch (bits_ data slot : Nat) : Nat :=
  (List.range 8).foldl (fun b d => setBits b (pdmChannel d slot) 1 (bits data d 1)) bits_

/-- Both clocks follow CHAN while the converters run and are low otherwise; each edge latches a slot (R446, R447, R500). -/
def State.pdmTick (s : State) : State :=
  let p := s.pins.pdm
  if s.f 0 AUD_STAT_STATE = 0 then (if p.clk then { s with pins.pdm := { p with halves := 0, clk := false } } else s)
  else
    let h := s.pdmHalves
    if h = p.halves then s
    else
      let up : Bool := h % 2 == 1
      { s with pins.pdm := { halves := h, clk := up, bits := pdmLatch p.bits (Config.pdmData s.now).toNat (b2n up) } }

/-- A firing with ACT_PDM starts the converters (R447, R448, R454). -/
def State.audStart (s : State) (ts : Nat) : State :=
  let bad : Bool := s.f 0 AUD_CTL_FS = 3 || (s.f 0 AUD_CTL_FS = 2 && !s.on 0 AUD_CTL_PDM_RATE)
  if s.f 0 AUD_STAT_STATE ≠ 0 then s.raise 0 287
  else if bad then (s.setB 0 AUD_STAT_CFG_ERR true).raise 0 287
  else
    let s := s.setReg64 0 AUD_TS_LO ts
    let s := s.setReg 0 AUD_BLOCK 0
    let s := s.setF 0 AUD_STAT_STARTS ((s.f 0 AUD_STAT_STARTS + 1) % 65536)
    let s := s.each (List.range 16) fun s ch => s.setAud ch { lost := (s.aud ch).lost, ring := (s.aud ch).ring }
    (({ s with audio.stepped := false, audio.warm := true }.setPeriod 11 0).setF 0 AUD_STAT_STATE 1).pdmTick

/-- A requested set is adopted at a block boundary at which nothing fades (R450, R451). -/
def State.audAdopt (s : State) (k : Nat) : State :=
  if ¬ s.on 0 AUD_STAT_PEND ∨ (List.range 16).any fun ch => (s.aud ch).fade ≠ 0 then s
  else
    let new := s.f 0 AUD_MASK_MASK
    let old := s.f 0 AUD_MASK_ACTIVE
    let s := (s.setF 0 AUD_MASK_ACTIVE new).setB 0 AUD_STAT_PEND false
    let s := s.each (List.range 16) fun s ch =>
      if bit new ch = bit old ch then s
      else s.setAud ch { s.aud ch with fade := if bit new ch then 1 else 2, since := k }
    if new = old then s.raise 0 282 else { s with audio.fading := true }

/-- AUDIO_RUN: the warm-up has ended (R447). -/
def State.audRun (s : State) : State :=
  if s.f 0 AUD_STAT_STATE = 1 ∧ atOrAfter s.audNow (s.audT 0) then
    ({ s with audio.warm := false }.setF 0 AUD_STAT_STATE 2 |>.raise 0 280).audAdopt 0
  else s

/-- A sample is a zero crossing after another (R451). -/
def crossing (prev : Option Int) (x : Int) : Bool :=
  x == 0 || match prev with
    | some p => decide (p < 0) != decide (x < 0)
    | none => false

/-- Index of the first zero crossing of a block. -/
def firstCrossing : Option Int → List Int → Nat → Option Nat
  | _, [], _ => none
  | prev, x :: l, i => if crossing prev x then some i else firstCrossing (some x) l (i + 1)

/-- A block after its fade: samples, whether the fade has ended, flags (R451). -/
def audFade (fade : Nat) (prev : Option Int) (xs : List Int) : List Int × Bool × Nat :=
  let n := xs.length
  let at_ := fun (g : Nat → Int → Int) => ((List.range n).zip xs).map fun e => g e.1 e.2
  match fade with
  | 1 =>
    match firstCrossing prev xs 0 with
    | some k => (at_ fun i x => if i < k then 0 else x, true, 1)
    | none => (at_ fun _ _ => 0, false, 0)
  | 2 =>
    match firstCrossing prev xs 0 with
    | some k => (at_ fun i x => if i < k then x else 0, true, 10)
    | none => (xs, false, 2)
  | 3 => (at_ fun i x => if i < 32 then rnd 5 (x * (i + 1)) else x, true, 5)
  | 4 => (at_ fun i x => if i < 32 then rnd 5 (x * (31 - i)) else 0, true, 14)
  | _ => (xs, true, 0)

/-- A channel's block goes into its ring (R449, R452, R453). -/
def State.audWrite (s : State) (ch k status flags : Nat) (ys : List Int) : State :=
  let b := s.audB
  let x := s.aud ch
  if s.overrunning 0 4 ch then
    let s := (s.setAud ch { x with lost := x.lost + 1 }).addF 0 (AUD_LOST_COUNT ch) 1
    (s.endOverrun 0 4 ch).raise 0 285
  else
    let sz := (32 + 4 * b + 63) / 64 * 64
    let next := s.f 0 (AUD_NEXT_NEXT ch)
    let bs := leBytes 4 k ++ leBytes 4 status ++ leBytes 8 (s.audT k) ++ leBytes 2 ys.length ++ [ch, flags] ++ leBytes 4 x.lost ++
      leBytes 2 (s.f 0 AUD_STAT_STARTS) ++ leBytes 6 0 ++ ys.flatMap fun y => leBytes 4 (ux 24 y * 256)
    let s := s.wrAt (port := 4) 0 (s.reg64 0 (AUD_BASE_LO ch) + next * sz) bs false
    let s := s.setF 0 (AUD_NEXT_NEXT ch) (if s.f 0 (AUD_NBLK_NBLK ch) ≤ next then 0 else next + 1)
    let ring := ((s.f 0 AUD_STAT_STARTS, k, next) :: x.ring.filter (·.2.2 ≠ next)).take (s.f 0 (AUD_NBLK_NBLK ch) + 1)
    let s := (s.setAud ch { x with lost := 0, ring := ring }).raise 0 281
    let s := s.when (bit flags 5) fun s => s.raise 0 284
    s.recFeed 0 3 ch { cnt := k, status := status, n := s.audT k, tick := s.now - 1000 * usTicks, payload := bs }

/-- No crossing has come in time: the fades of a channel become a ramp (R451). -/
def State.audZcTimeout (s : State) (ch : Nat) : State :=
  let x := s.aud ch
  if (x.fade = 1 ∨ x.fade = 2) ∧ x.since + max 1 (s.f 0 AUD_CTL_ZC_TMO) ≤ s.reg 0 AUD_BLOCK ∧ s.f 0 AUD_STAT_STATE ≠ 0 then
    (s.setAud ch { x with fade := x.fade + 2 }).raise 0 283
  else s

/-- One channel at the end of a block: saturation, fade, the ring. `n` samples stand for the block. -/
def State.audChannel (s : State) (k ch n status : Nat) (last : Bool) (xs : List Int) : State :=
  let raw := (List.range n).map fun i => xs.getD i 0
  let sat := raw.map (clampI (-(2 ^ 23 : Int)) (2 ^ 23 - 1))
  let clips := (raw.filter fun v => clampI (-(2 ^ 23 : Int)) (2 ^ 23 - 1) v ≠ v).length
  let s := s.addF 0 (AUD_CLIPS_COUNT ch) clips
  let s := s.audZcTimeout ch
  let x := s.aud ch
  let writes : Bool := !s.audio.warm && (s.audActive ch || x.fade == 2 || x.fade == 4)
  let (ys, done, fl) := audFade x.fade x.last sat
  let fl := fl ||| b2n last * 8 ||| b2n s.audio.stepped * 16 ||| b2n (clips ≠ 0) * 32
  let s := if writes then s.audWrite ch k status fl ys else s
  s.setAud ch { s.aud ch with fade := if done then 0 else x.fade, last := match sat.getLast? with
    | some v => some v
    | none => x.last }

/-- The converters stop. -/
def State.audStopped (s : State) : State :=
  let s := ({ s with audio.warm := false, audio.fading := false }.setF 0 AUD_STAT_STATE 0).pdmTick
  let s := s.each (List.range 16) fun s ch => s.setAud ch { s.aud ch with fade := 0, last := none }
  s.raise 0 286

/-- AUDIO_BLOCK: the block in progress ends with the decimated samples of every channel; then the boundary (R449 to R451, R454).
During the warm-up a millisecond passes without a block (R447). -/
def State.audBlock (s : State) (samples : List (List Int)) : State :=
  let st := s.f 0 AUD_STAT_STATE
  let k := s.reg 0 AUD_BLOCK
  if st = 0 then s
  else if s.audio.warm then s.inPeriod 11 0 (1000 * usTicks) fun s =>
    let s := s.each (List.range 16) fun s ch => s.audChannel k ch s.audB 0 false (samples.getD ch [])
    if st = 3 then s.audStopped else s
  else if ¬ atOrAfter s.audNow (s.audT (k + 1)) then s
  else
    let s := s.each (List.range 16) fun s ch => s.audChannel k ch s.audB (2 ^ 31) (st = 3) (samples.getD ch [])
    let s := { s with audio.stepped := false }
    if st = 3 then s.audStopped
    else
      let s := s.setReg 0 AUD_BLOCK (k + 1)
      let s := if s.audio.fading && (List.range 16).all (fun ch => (s.aud ch).fade == 0) then
          { s with audio.fading := false }.raise 0 282 else s
      s.audAdopt (k + 1)

/-- A write of AUD_MASK records a requested set (R450). -/
def State.audMask (s : State) (mask : Nat) : State := (s.setF 0 AUD_MASK_MASK mask).setB 0 AUD_STAT_PEND true

/-- AUD_CTL.STOP: the block in progress completes first (R454). -/
def State.audStop (s : State) : State :=
  if s.f 0 AUD_STAT_STATE = 1 ∨ s.f 0 AUD_STAT_STATE = 2 then s.setF 0 AUD_STAT_STATE 3 else s

/-- Free values for samples that nothing gives. -/
def State.freshSamples (s : State) : Nat → State × List Int
  | 0 => (s, [])
  | n + 1 =>
    let (v, s) := s.fresh
    let (s, l) := s.freshSamples n
    (s, sx 24 v :: l)

/-- Entry into P2 or P3, and the clock-loss sequence: the block in progress is written with the samples so far, whose values no
command carries (free values), and the clocks stop at once (R454). -/
def State.audCut (s : State) (clock : Bool) : State :=
  if s.f 0 AUD_STAT_STATE = 0 then s
  else if s.audio.warm then s.audStopped
  else
    let k := s.reg 0 AUD_BLOCK
    let n := min s.audB ((sx 64 (s.audNow + 2 ^ 64 - s.audT k)).toNat * s.audB / 1000000 + 1)
    let st := 2 ^ 31 + (if clock then 2 ^ stClockLoss else 0)
    let s := s.each (List.range 16) fun s ch =>
      let (s, xs) := s.freshSamples n
      s.audChannel k ch n st true xs
    { s with audio.stepped := false }.audStopped

/-- A step of channel n moves ts with it (R454). -/
def State.audStep (s : State) (n : Nat) (ns : Int) : State :=
  if s.f 0 AUD_STAT_STATE ≠ 0 ∧ s.f 0 AUD_CTL_CHAN = n then
    { s with audio.stepped := true }.setReg64 0 AUD_TS_LO (ux 64 (s.audTs + ns))
  else s

/-- A write of a setting that must not change while the converters run (R454): it is ignored with CFG_ERR. -/
def State.audCfgWrite (s : State) (off v : Nat) : State :=
  if s.f 0 AUD_STAT_STATE = 0 then s.setReg 0 off v else s.setB 0 AUD_STAT_CFG_ERR true

/-- A write of AUD_CTL: STOP, ZC_TMO, and the settings of a start; FS 3 is reserved. -/
def State.audCtlWrite (s : State) (v : Nat) : State :=
  let s := s.setF 0 AUD_CTL_ZC_TMO (bits v 14 8)
  let old := s.reg 0 AUD_CTL
  let fs := if bits v 2 2 = 3 then bits old 2 2 else bits v 2 2
  let new := setBits (setBits old 1 1 (bits v 1 1)) 2 2 fs
  let new := setBits (setBits new 4 2 (bits v 4 2)) 6 8 (bits v 6 8)
  let s := if new = old then s else s.audCfgWrite AUD_CTL new
  s.when (bit v 0) fun s => s.audStop

/-! ### Embedding (R243) -/

/-- Sample i since t_0 of a channel, as tile t reads it from the ring on T0, over Seam class 5 from another tile (R243, R453); nothing where
the ring does not hold it. The flag says that the sample is poisoned (R415). -/
def State.audSample (s : State) (t ch : Nat) (i : Int) : State × Option Int × Bool :=
  let held := (s.aud ch).ring.find? fun e => e.1 = s.f 0 AUD_STAT_STARTS ∧ (e.2.1 : Int) = i / 48
  let (s, ok) := if t = 0 then (s, true) else s.seamReach t 0
  match held with
  | some (_, _, slot) =>
    if i < 0 ∨ ¬ ok then (s, none, false)
    else
      let (s, v, p) := s.rdNumAt 0 (s.reg64 0 (AUD_BASE_LO ch) + slot * 256 + 32 + 4 * (i % 48).toNat) 4 4
      (s, some (if p then 0 else sx 24 (v / 256)), p)
  | none => (s, none, false)

/-- Samples of a channel for a raster frame: zeros where they are not to be had; whether one was missing, and whether one was poisoned. -/
def State.audSamples (s : State) (t ch : Nat) : List Int → State × List Int × Bool × Bool
  | [] => (s, [], false, false)
  | i :: l =>
    let (s, v, p) := s.audSample t ch i
    let (s, r, miss, bad) := s.audSamples t ch l
    (s, v.getD 0 :: r, miss || v.isNone, bad || p)

/-- Samples, by index since t_0, whose timestamp plus AUD_DELAY falls in the raster frame that begins now (R243, R447). -/
def State.sdiSamples (s : State) (t c : Nat) : List Int :=
  let a : Int := sx 64 (ux 64 ((s.audNow : Int) - s.aI t (OC_AUD_DELAY_DELAY c) - s.audT 0))
  let first := fun (x : Int) => -((-3 * x).fdiv 62500)
  let lo := first a
  (List.range (first (a + (s.chSpan t c 1 / 4 : Nat)) - lo).toNat).map fun (i : Nat) => lo + i

/-- The audio of the raster frame that begins on output channel c (R243): at a rate other than 48 kHz zeros and AUD_RATE; zeros for a
channel that is not active (R453); zeros and AUD_UNDERRUN for samples that the ring does not hold; zero for a poisoned one, which damages
the output frame (R415). -/
def State.sdiAudio (s : State) (t c : Nat) : State :=
  if ¬ s.aOn t (OC_AUDIO_AUD_EN c) then s.setOut t c { s.out t c with audio := [] }
  else
    let chs := (List.range 16).filter fun ch => bit (s.a t (OC_AUDIO_CHMASK c)) ch
    let is := s.sdiSamples t c
    let zeros := is.map fun _ => (0 : Int)
    let rate := s.f 0 AUD_CTL_FS ≠ 0
    let s := s.when (rate && chs.any s.audActive) fun s => s.setB t (OC_STAT_AUD_RATE c) true
    let s := s.setOut t c { s.out t c with audio := [] }
    s.each chs fun s ch =>
      let (s, l, miss, bad) := if rate ∨ ¬ s.audActive ch then (s, zeros, false, false) else s.audSamples t ch is
      let x := s.out t c
      let s := s.setOut t c { x with audio := x.audio ++ [(ch, l)], audUnder := x.audUnder || miss, audRaised := x.audRaised || miss, audBad := x.audBad || bad }
      s.when (miss && !x.audRaised) fun s => s.raise t 118

/-- SDI_SLOT_OPEN with the audio of a raster frame in DIRECT timing that begins with it. -/
def State.sdiSlotOpen (s : State) (t c : Nat) : State :=
  let x := s.out t c
  let s := if x.rasterRow = 0 ∧ s.sdiOut t c ∧ ¬ s.stale t (7 + c) ∧ s.outDirect t c ∧ x.raster then s.sdiAudio t c else s
  s.sdiSlot t c

end Sys2Proof.Machine
end

