-- ==== Sys2Proof/Machine/Geysers.lean ====
section
/-!
DEFINITION. Geysers (chapter 4): targets, arming, firing and their actions; trigger pulses and the reports of their leading
edges to the lens samplers (chapter 18).
-/

namespace Sys2Proof.Machine

/-! ### Trigger outputs -/

/-- The leading edge of output k of tile t is reported to the lens samplers that name it (R442): its tick, and its time on the lead
port's TS_CHAN, d ticks after the present one. An output that FORCE_EN holds has no pulses. -/
def State.lensReport (s : State) (t k d : Nat) : State :=
  s.each (List.range 8) fun s m =>
    if s.on 0 (LM_CFG_EN m) && s.f 0 (LM_CFG_TRIG_TILE m) == t && s.f 0 (LM_CFG_TRIG_OUT m) == k && !s.on t (XTRIG_CTL_FORCE_EN k) then
      let c := s.chan t (s.a (s.f 0 (LM_CFG_TILE m)) (AD_PED_TS_CHAN (s.f 0 (LM_CFG_SRC m))))
      let n := (c.setValue (c.value + d * c.inc)).n
      let (s, ok) := s.seamReach t 0
      let x := smGet s.pos.lens m {}
      if ok then { s with pos.lens := smPut s.pos.lens m { x with reports := x.reports ++ [(s.now + d, n)] } {} } else s
    else s

/-- A pulse of `width` ticks leaves output k of tile t 6 ticks after the present one (R117, R119). A pulse that meets another
merges with it and has no leading edge of its own. -/
def State.xtrigPulse (s : State) (t k width : Nat) : State :=
  let a := s.now + 6
  let old := (smGet s.time.xtrig (tk t k) []).filter fun x => s.now < x.2
  let merged := old.any fun x => decide (x.1 ≤ a) && decide (a ≤ x.2)
  let s := { s with time.xtrig := smPut s.time.xtrig (tk t k) (old ++ [(a, a + max 1 width)]) [] }
  if merged then s else s.lensReport t k 6

/-! ### Geysers -/

/-- An armed geyser of the tile does not fire and shows HELD (R121): a follower in HOLD, or HOLDOVER. -/
def State.geyHold (s : State) (t : Nat) : Bool := s.time.clockLost || s.f t FOLLOW_STATE == 1

/-- HELD (R121). -/
def State.geyHeld (s : State) (t g : Nat) : Bool := s.on t (GY_CTL_ARMED g) && s.geyHold t

/-- How far channel n of a tile lies past a geyser's target, in units of 2^-32 ns (R99, R117). -/
def State.chanPast (s : State) (t n : Nat) (x : GeyTgt) : Int :=
  let c := s.chan t n
  sx 64 (c.n + 2 ^ 64 - x.n) * (2 ^ 32 : Nat) + (c.frac - x.frac)

/-- How far the channel of a geyser lies past its target. -/
def State.geyPast (s : State) (t g : Nat) : Int := s.chanPast t (s.f t (GY_CTL_CHAN g)) (s.geyTgt t g)

/-- PER in units of 2^-32 ns (R118). -/
def State.geyPer (s : State) (t g : Nat) : Nat := s.reg t (GY_PER_NS g) * 2 ^ 32 + s.reg t (GY_PER_FRAC g)

/-- LATE_LIMIT in units of 2^-32 ns (R120). -/
def State.lateLimit (s : State) (t : Nat) : Nat := s.reg t LATE_LIMIT * 2 ^ 32

/-- Set a geyser's target. -/
def State.geySet (s : State) (t g n frac : Nat) : State :=
  s.setGeyTgt t g { s.geyTgt t g with n := n % 2 ^ 64, frac := frac % 2 ^ 32 }

/-- Move the target on by k periods, exactly (R118). -/
def State.geyMove (s : State) (t g k : Nat) : State :=
  let x := s.geyTgt t g
  let v := x.n * 2 ^ 32 + x.frac + k * s.geyPer t g
  s.geySet t g (v / 2 ^ 32) v

/-- Perform the actions of a firing (R119); it counts, and serves as a GEYSER commit point with that sequence (R40). -/
def State.geyAct (s : State) (t g : Nat) : State :=
  let c := s.reg t (GY_COUNT g)
  let c := if c = 0xFFFFFFFF then 1 else c + 1
  let s := s.setReg t (GY_COUNT g) c
  let s := s.setGeyTgt t g { s.geyTgt t g with last := s.now + 1 }
  let s := s.when (s.on t (GY_CTL_ACT_XTRIG g)) fun s => s.xtrigPulse t (s.f t (GY_CTL_XTRIG g)) (s.f t (GY_PULSE_TICKS g))
  let s := s.when (s.on t (GY_CTL_ACT_LINE g)) fun s => s.assertLine t (s.f t (GY_CTL_LINE g))
  let s := s.when (s.on t (GY_CTL_ACT_PDM g) && t == 0) fun s => s.audStart s.audNow
  let s := s.occurrence 3 g c t
  s.when (t == 0) fun s => s.burSource 3 g

/-- An armed geyser at a tick at which its channel lies at or after its target (R117, R118, R120). -/
def State.geyFire (s : State) (t g : Nat) : State :=
  let past := s.geyPast t g
  if ¬ s.on t (GY_CTL_ARMED g) ∨ s.geyHold t ∨ past < 0 ∨ (s.geyTgt t g).last = s.now + 1 then s
  else
    let late : Bool := decide ((s.lateLimit t : Int) < past)
    let drop : Bool := late && s.on t (GY_CTL_LATE_MODE g)
    let per := s.geyPer t g
    let s := if per = 0 then s.setB t (GY_CTL_ARMED g) false
      else
        let k := past.toNat / per
        (s.geyMove t g (k + 1)).addF t (GY_STAT_MISSED g) (if drop then k + 1 else k)
    let s := if drop then (s.setB t (GY_STAT_SUPPRESSED g) true).raise t 265
      else if late then (s.setB t (GY_STAT_LATE g) true).raise t 264 else s
    if drop then s else s.geyAct t g

/-- GYg_CTL.ARM (R121). -/
def State.geyArm (s : State) (t g : Nat) : State := s.setB t (GY_CTL_ARMED g) true

/-- GYg_CTL.DISARM (R121). -/
def State.geyDisarm (s : State) (t g : Nat) : State := s.setB t (GY_CTL_ARMED g) false

/-- A change to a geyser: a firing due in this tick comes before it (R121), and a target that it leaves in the past fires, or is
treated as late, at once (R120). -/
def State.geyChange (s : State) (t g : Nat) (f : State → State) : State := (f (s.geyFire t g)).geyFire t g

/-- Every geyser of a tile on a channel that has moved is judged at this tick (R120, R121). -/
def State.geyJudge (s : State) (t : Nat) (on : Nat → Bool) : State :=
  s.each ((List.range 32).filter fun g => on (s.f t (GY_CTL_CHAN g))) fun s g => s.geyFire t g

/-- A write of GYg_TGT_HI applies the held words (R118). -/
def State.geyTarget (s : State) (t g hi : Nat) : State :=
  s.geyChange t g fun s =>
    let s := s.setReg t (GY_TGT_HI g) (hi % 2 ^ 32)
    s.geySet t g (s.reg64 t (GY_TGT_LO g)) (s.reg t (GY_TGT_FRAC g))

/-- A start from a position compare at time tc, given on each channel (R119, R439). -/
def State.geyStart (s : State) (t g : Nat) (tc : List Nat) : State :=
  s.geyChange t g fun s =>
    let s := if s.on t (GY_CTL_START_REL g) then
        s.geySet t g (tc.getD (s.f t (GY_CTL_CHAN g)) 0 + s.reg64 t (GY_TGT_LO g)) (s.reg t (GY_TGT_FRAC g))
      else s.geySet t g (s.reg64 t (GY_TGT_LO g)) (s.reg t (GY_TGT_FRAC g))
    s.geyArm t g

/-- The target that the instruction ARM writes: whole nanoseconds (R118). -/
def State.geyAim (s : State) (t g n : Nat) : State :=
  ((s.setReg64 t (GY_TGT_LO g) n).setReg t (GY_TGT_FRAC g) 0).geySet t g n 0

/-- The instruction ARM (R82, R118): the geyser takes the target and arms, and its late mode applies; whether the target lies further
back than LATE_LIMIT. -/
def State.geyArmAt (s : State) (t g n : Nat) : State × Bool :=
  (s.geyChange t g fun s => (s.geyAim t g n).geyArm t g, decide ((s.lateLimit t : Int) < (s.geyAim t g n).geyPast t g))

/-! ### Changes of a channel that reach audio and geysers -/

/-- Accepted changes of a channel that are due (R102), and with a step the audio start that follows it (R454) and the geysers it has
carried past their targets (R121). -/
def State.changeApply (s : State) (n : Nat) : State :=
  match s.stepDue n with
  | some ns => (((s.applyChanges n).retrack s).audStep n ns).each s.tileList fun s t => s.geyJudge t (· == n)
  | none => (s.applyChanges n).retrack s

/-- TIME_TICK: every channel and LC0 advance, AON_CAL follows, then accepted changes that are due take effect, and the PDM clocks go on (R98, R102, R123,
R447). -/
def State.timeTick (s : State) : State := (s.tick.calibrateAll.each (List.range 4) State.changeApply).pdmTick

/-- FOLLOWER_STAMP_RECEIVE: the realignment, and the geysers of the tile that it, or the end of HOLD, has carried past their targets
(R103, R121). -/
def State.stampTake (s : State) (t : Nat) : State := ((s.stampReceive t).retrack s).geyJudge t fun _ => true

end Sys2Proof.Machine
end

