-- ==== Sys2Proof/Machine/Pos.lean ====
section
/-!
DEFINITION. Position feedback (chapter 18): sine and cosine samples, quadrature edges, wiring and amplitude faults, edges and
speed, the index, compares and lens samplers.
-/

namespace Sys2Proof.Machine

def State.posCh (s : State) (c : Nat) : PosCh := smGet s.pos.ch c {}

def State.setPosCh (s : State) (c : Nat) (x : PosCh) : State := { s with pos.ch := smPut s.pos.ch c x {} }

/-- p of a channel (R428). -/
def State.posP (s : State) (c : Nat) : Nat := s.reg64 0 (PC_POS_LO c) % 2 ^ 48

def State.setPosP (s : State) (c : Nat) (p : Int) : State := s.setReg64 0 (PC_POS_LO c) (ux 48 p)

/-- The channels are stopped: clock loss or P3 (R444). -/
def State.posHalted (s : State) : Bool := s.time.clockLost || s.f 0 PL_PSTATE_STATE == 3

/-- Signed distance from one 48-bit position to another. -/
def rel48 (a b : Int) : Int := sx 48 (ux 48 (a - b))

/-! ### Angle and magnitude -/

/-- atan(2^-i) in units of 2^-32 turn. -/
def atanTable : List Nat :=
  [536870912, 316933406, 167458907, 85004756, 42667331, 21354465, 10679838, 5340245, 2670163, 1335087, 667544, 333772,
   166886, 83443, 41722, 20861, 10430, 5215, 2608, 1304, 652, 326, 163, 81]

/-- Angle of a point with x at or above 0, in units of 2^-32 turn, by rotation towards the axis. -/
def rotAngle : List (Nat × Nat) → Int → Int → Int → Int
  | [], _, _, z => z
  | (i, a) :: l, x, y, z =>
    if 0 < y then rotAngle l (x + sra y i) (y - sra x i) (z + a) else rotAngle l (x - sra y i) (y + sra x i) (z - a)

/-- round(4096 * atan2(s, c) / (2 pi)) mod 4096 (R428). -/
def angleOf (s c : Int) : Nat :=
  let (s', c', h) : Int × Int × Int := if c < 0 then (-s, -c, 2147483648) else (s, c, 0)
  ux 12 (rnd 20 (h + rotAngle ((List.range 24).zip atanTable) (c' * 1048576) (s' * 1048576) 0))

/-- Square root, truncated, found from bit k down. -/
def isqrtFrom (v : Nat) : Nat → Nat → Nat
  | 0, r => r
  | k + 1, r => if (r + 2 ^ k) * (r + 2 ^ k) ≤ v then isqrtFrom v k (r + 2 ^ k) else isqrtFrom v k r

/-- round(sqrt(v)). -/
def sqrtRound (v : Nat) : Nat := (isqrtFrom (4 * v) 20 0 + 1) / 2

/-- A free offset of -1, 0 or 1, for a value stated to within 1. -/
def State.freshUnit (s : State) : State × Int :=
  let (v, s) := s.fresh
  (s, ((v % 3 : Nat) : Int) - 1)

/-! ### Compares -/

def State.cmpTgt (s : State) (c k : Nat) : Nat := smGet s.pos.tgt (8 * c + k) 0

def State.setCmpTgt (s : State) (c k : Nat) (t : Int) : State :=
  { s with pos.tgt := smPut s.pos.tgt (8 * c + k) (ux 48 t) 0 }

def State.cmpCaps (s : State) (c k : Nat) : List Nat := smGet s.pos.caps (8 * c + k) []

/-- Queue a captured time (R439). -/
def State.cmpCapture (s : State) (c k n : Nat) : State :=
  let l := s.cmpCaps c k
  if l.length < 4 then
    { s with pos.caps := smPut s.pos.caps (8 * c + k) (l ++ [n]) [] }.setF 0 (CMP_STAT_LEVEL c k) (l.length + 1)
  else (s.setB 0 (CMP_STAT_CAP_OVF c k) true).raise 0 279

/-- Remove the oldest capture of a compare (R439). -/
def State.cmpPop (s : State) (c k : Nat) : State × Option Nat :=
  match s.cmpCaps c k with
  | [] => (s, none)
  | n :: l => ({ s with pos.caps := smPut s.pos.caps (8 * c + k) l [] }.setF 0 (CMP_STAT_LEVEL c k) l.length, some n)

/-- A firing (R439) with tc on each time channel, in ns. The target advances by STEP, or the compare disarms. -/
def State.cmpFire (s : State) (c k : Nat) (tc : List Nat) : State :=
  let n := s.reg 0 (CMP_COUNT c k)
  let n := if n = 0xFFFFFFFF then 1 else n + 1
  let s := (s.setReg 0 (CMP_COUNT c k) n).setB 0 (CMP_STAT_BEHIND c k) false
  let s := s.when (s.on 0 (CMP_CTL_ACT_EVT c k)) fun s => (s.raise 0 272).assertLine 0 (s.f 0 (CMP_CTL_LINE c k))
  let s := s.when (s.on 0 (CMP_CTL_ACT_XTRIG c k)) fun s => s.xtrigPulse 0 (s.f 0 (CMP_CTL_XTRIG c k)) (s.f 0 (CMP_STAT_PULSE c k))
  let u := s.f 0 (CMP_CTL_GTILE c k)
  let s := if s.on 0 (CMP_CTL_ACT_GEY c k) && s.run u then
      let (s, ok) := if u = 0 then (s, true) else s.seamReach 0 u
      s.when ok fun s => s.geyStart u (s.f 0 (CMP_CTL_GEY c k)) tc
    else s
  let s := s.when (s.on 0 (CMP_CTL_ACT_CAP c k)) fun s => s.cmpCapture c k (tc.getD (s.f 0 (CMP_CTL_CAP_CHAN c k)) 0)
  let step := sx 32 (s.reg 0 (CMP_STEP c k))
  let s := if step = 0 then s.setB 0 (CMP_CTL_ARMED c k) false else s.setCmpTgt c k (s.cmpTgt c k + step)
  let s := s.when (s.on 0 (CMP_CTL_ACT_COMMIT c k)) fun s => s.occurrence 4 (k + 8 * c) n 0
  s.when (s.a 0 BS_TRIG_KIND == 2 && s.a 0 BS_TRIG_ARG == 8 * c + k) fun s =>
    s.burTrigger 2 (tc.getD (s.a 0 (AD_PED_TS_CHAN (s.a 0 BS_CFG_SRC))) 0) none

/-- The times of all channels on T0, in units of 2^-32 ns of N. -/
def State.posTimes (s : State) : List Nat := (List.range 4).map fun n => let c := s.chan 0 n; c.n * 2 ^ 32 + c.frac

/-- A time between two instants that lies `a` of `d` from the first, rounded to whole ns (R438). -/
def betweenNs (t0 t1 a d : Nat) : Nat :=
  let dt := sx 96 (ux 96 ((t1 : Int) - t0))
  ux 64 (divRnd ((t0 : Int) * d + a * dt) (d * 2 ^ 32))

/-- tc on every channel for a crossing `a` of `d` counts after the sample before (R438). With no sample before it the spec gives no
time: free values. -/
def State.crossTimes (s : State) (times : List Nat) (a d : Nat) : State × List Nat :=
  if times = [] then (List.range 4).foldl (fun (r : State × List Nat) _ => let (v, s) := r.1.fresh; (s, r.2 ++ [v])) (s, [])
  else (s, (times.zip s.posTimes).map fun x => betweenNs x.1 x.2 a d)

/-- Detection of crossings as p goes from p0 by d (R438). -/
def State.cmpDetect (s : State) (c : Nat) (times : List Nat) (p0 d : Int) : State :=
  s.each (List.range 8) fun s k =>
    let r := rel48 (s.cmpTgt c k) p0
    let up : Bool := decide (0 < r) && decide (r ≤ d)
    let down : Bool := decide (r < 0) && decide (d ≤ r)
    let cond := s.f 0 (CMP_CTL_COND c k)
    if s.on 0 (CMP_CTL_ARMED c k) && ((up && cond != 1) || (down && cond != 0)) then
      let (s, tc) := s.crossTimes times r.natAbs d.natAbs
      s.cmpFire c k tc
    else s

/-- The target lies behind p in the direction of motion (R440). -/
def State.cmpBehind (s : State) (c k : Nat) : Bool :=
  let r := rel48 (s.cmpTgt c k) (s.posP c)
  !s.on 0 (PC_STAT_STOPPED c) && (if s.on 0 (PC_STAT_DIR c) then decide (0 ≤ r) else decide (r ≤ 0))

/-- Judge BEHIND as at a write of TGT_HI or ARM (R440). -/
def State.cmpJudge (s : State) (c k : Nat) : State :=
  let b := s.cmpBehind c k
  let s := s.setB 0 (CMP_STAT_BEHIND c k) b
  if b && s.on 0 (CMP_CTL_ARM_IMMEDIATE c k) && s.on 0 (CMP_CTL_ARMED c k) then
    let s := (s.setB 0 (CMP_STAT_LATE c k) true).raise 0 278
    s.cmpFire c k ((List.range 4).map fun n => s.tcN 0 n)
  else s

/-- CMPk_CTL.ARM. -/
def State.cmpArm (s : State) (c k : Nat) : State := (s.setB 0 (CMP_CTL_ARMED c k) true).cmpJudge c k

/-- CMPk_CTL.DISARM. -/
def State.cmpDisarm (s : State) (c k : Nat) : State := s.setB 0 (CMP_CTL_ARMED c k) false

/-- A write of CMPk_TGT_HI applies the target (R440). -/
def State.cmpTarget (s : State) (c k hi : Nat) : State :=
  let s := s.setReg 0 (CMP_TGT_HI c k) (hi % 65536)
  (s.setCmpTgt c k (s.reg64 0 (CMP_TGT_LO c k))).cmpJudge c k

/-! ### Faults -/

/-- UNCERTAIN, which clears HOMED (R437). -/
def State.posDoubt (s : State) (c : Nat) : State :=
  (s.setB 0 (PC_STAT_UNCERTAIN c) true).setB 0 (PC_STAT_HOMED c) false

/-- AMP_FAULT, or a SIN or COS pair in WIRE_FAULT (R433). -/
def State.posFault (s : State) (c : Nat) : Bool :=
  s.on 0 (PC_STAT_AMP_FAULT c) || s.f 0 (PC_STAT_SIN_W c) != 0 || s.f 0 (PC_STAT_COS_W c) != 0

/-- A fault is present: speed 0, UNCERTAIN; or the last one has just gone. -/
def State.posFaultStep (s : State) (c : Nat) : State :=
  if s.posFault c then
    let x := s.posCh c
    ((s.setPosCh c { x with faulty := true, clearTick := s.now, spd := 0 }).posDoubt c).setReg64 0 (PC_SPD_LO c) 0
  else s

/-- Counting is held: a fault is present, or has not been absent for WIRE_T (R433). -/
def State.posHeld (s : State) (c : Nat) : Bool :=
  (s.posCh c).faulty && (s.posFault c || decide (s.now < (s.posCh c).clearTick + max 1 (s.f 0 (PC_WIRE_WIRE_T c)) * usTicks))

/-- POS_WIRE_FAULT: a pair's wires have been classed for WIRE_T, or are both IN again (R431). -/
def State.posWire (s : State) (c pair st : Nat) : State :=
  if s.posHalted ∨ (s.f 0 (PC_CTL_MODE c) ≠ 1 ∧ s.f 0 (PC_CTL_MODE c) ≠ 2) then s
  else
    let r := if pair = 0 then PC_STAT_SIN_W c else if pair = 1 then PC_STAT_COS_W c else PC_STAT_IDX_W c
    let old := s.f 0 r
    let s := s.posFaultStep c
    let s := s.setF 0 r (st % 4)
    let s := s.when (old == 0 && st % 4 != 0) fun s => s.raise 0 273
    s.posFaultStep c

/-! ### Edges and speed -/

/-- Quotient of R435, or a free value when no ticks have passed. -/
def State.perSpeed (s : State) (u ticks : Nat) : State × Int :=
  if ticks = 0 then let (v, s) := s.fresh; (s, (v % 2 ^ 60 : Nat))
  else (s, divRnd ((u * 800000000 * 65536 : Nat) : Int) ticks)

/-- Counts per second of a threshold, as s48.16. -/
def thrSpeed (perMs : Nat) : Int := (perMs * 1000 * 65536 : Nat)

/-- Hold a new speed, and change the method at its thresholds (R435). -/
def State.posSpeed (s : State) (c : Nat) (v : Int) : State :=
  let s := s.setReg64 0 (PC_SPD_LO c) (ux 64 v)
  let s := s.setPosCh c { s.posCh c with spd := v }
  if s.on 0 (PC_STAT_METHOD c) then s.when (decide (absI v < thrSpeed (s.reg 0 (PC_SPD_LO_T c)))) fun s => s.setB 0 (PC_STAT_METHOD c) false
  else if thrSpeed (s.reg 0 (PC_SPD_HI_T c)) < absI v then
    (s.setB 0 (PC_STAT_METHOD c) true).setPosCh c { s.posCh c with winP := s.posP c, winTick := s.now }
  else s

/-- An edge at a tick, going up or down (R434 to R436). -/
def State.posEdge (s : State) (c tick : Nat) (down : Bool) : State :=
  let x := s.posCh c
  let reversal : Bool := x.edgeTick.isSome && s.on 0 (PC_STAT_DIR c) != down
  let s := (s.setB 0 (PC_STAT_DIR c) down).setB 0 (PC_STAT_STOPPED c) false
  let s := if reversal && s.on 0 (PC_CTL_REV_FLAG c) then (s.setB 0 (PC_STAT_DIR_CHG c) true).raise 0 277 else s
  let s := s.setPosCh c { s.posCh c with edgeTick := some tick }
  match x.edgeTick with
  | none => s
  | some t0 =>
    if s.on 0 (PC_STAT_METHOD c) ∨ (reversal ∧ s.on 0 (PC_CTL_REV_DISCARD c)) then s
    else
      let (s, v) := s.perSpeed (s.f 0 (PC_SPDCFG_EDGE_UNITS c)) (tick - t0)
      s.posSpeed c (if down then -v else v)

/-- The edges that a motion of d counts from p0 makes, between ticks t0 and now (R434). -/
def State.posEdges (s : State) (c : Nat) (p0 d : Int) (t0 : Nat) : State :=
  let u : Int := (s.f 0 (PC_SPDCFG_EDGE_UNITS c) : Nat)
  let e0 := (s.posCh c).edge
  let e0 := if e0 % u ≠ 0 ∨ u < absI (rel48 p0 e0) then p0 - p0 % u else e0
  let r := rel48 p0 e0 + d
  let n := (absI r / u).toNat
  let at_ := fun (i : Nat) =>
    let a := absI (rel48 e0 p0 + (if 0 < r then u * (i + 1) else -(u * (i + 1))))
    (divRnd ((t0 : Int) * absI d + a * ((s.now : Int) - t0)) (max 1 d.natAbs)).toNat
  let s := s.each (List.range n) fun s i => s.posEdge c (at_ i) (decide (r < 0))
  s.setPosCh c { s.posCh c with edge := if 0 < r then e0 + u * n else e0 - u * n }

/-- Speed that a read returns (R433, R435): in PERIOD, between edges, at most what the time since the last edge allows. -/
def State.posSpeedNow (s : State) (c : Nat) : Int :=
  let x := s.posCh c
  if s.posFault c then 0
  else if s.on 0 (PC_STAT_METHOD c) ∨ s.on 0 (PC_STAT_STOPPED c) then sx 64 (s.reg64 0 (PC_SPD_LO c))
  else match x.edgeTick with
    | none => sx 64 (s.reg64 0 (PC_SPD_LO c))
    | some t0 =>
      if s.now ≤ t0 then x.spd
      else
        let lim := divRnd ((s.f 0 (PC_SPDCFG_EDGE_UNITS c) * 800000000 * 65536 : Nat) : Int) (s.now - t0)
        if absI x.spd ≤ lim then x.spd else if x.spd < 0 then -lim else lim

/-- End of a COUNT window (R435). -/
def State.posWindow (s : State) (c : Nat) : State :=
  let x := s.posCh c
  let win := s.f 0 (PC_SPDCFG_WIN c)
  if s.posHalted ∨ ¬ s.on 0 (PC_STAT_METHOD c) ∨ s.now < x.winTick + win * usTicks then s
  else
    let dp := rel48 (s.posP c) x.winP
    let s := s.setPosCh c { x with winP := s.posP c, winTick := s.now }
    s.posSpeed c (if s.posFault c then 0 else divRnd (dp * 65536000000) win)

/-- No edge for PER_MAX ms (R435). -/
def State.posStopped (s : State) (c : Nat) : State :=
  match (s.posCh c).edgeTick with
  | none => s
  | some t0 =>
    if s.posHalted ∨ s.on 0 (PC_STAT_METHOD c) ∨ s.now < t0 + max 1 (s.f 0 (PC_PER_MAX_PER_MAX c)) * 1000 * usTicks then s
    else (s.posSpeed c 0).setB 0 (PC_STAT_STOPPED c) true

/-! ### Motion -/

/-- Positions older than 8 us go, but for the latest of them (R442). -/
def keepHist (now : Nat) : List (Nat × Int) → List (Nat × Int)
  | [] => []
  | x :: l => if x.1 + 6400 < now then [x] else x :: keepHist now l

/-- The channel has a new sample that moves p by d (R428, R430): edges, then compares. -/
def State.posMove (s : State) (c : Nat) (d : Int) : State :=
  let x := s.posCh c
  let p0 : Int := (s.posP c : Nat)
  let s := s.setPosP c (p0 + d)
  let s := s.setPosCh c { x with tick := s.now, times := s.posTimes, hist := keepHist s.now ((s.now, sx 48 (s.posP c)) :: x.hist) }
  let s := if d = 0 then s else s.posEdges c p0 d x.tick
  s.cmpDetect c x.times p0 d

/-- A sample instant at which counting is held or has only begun. -/
def State.posNote (s : State) (c : Nat) : State :=
  let x := s.posCh c
  s.setPosCh c { x with tick := s.now, times := s.posTimes, hist := keepHist s.now ((s.now, sx 48 (s.posP c)) :: x.hist) }

/-- The magnitude of a sample is judged (R432). -/
def State.posAmp (s : State) (c r : Nat) : State :=
  let x := s.posCh c
  let n := max 1 (s.f 0 (PC_WIRE_AMP_CNT c))
  if r < s.f 0 (PC_AMP_AMP_LO c) ∨ s.f 0 (PC_AMP_AMP_HI c) < r then
    let s := s.setPosCh c { x with bad := min 256 (x.bad + 1), good := 0 }
    if n ≤ x.bad + 1 ∧ ¬ s.on 0 (PC_STAT_AMP_FAULT c) then ((s.setB 0 (PC_STAT_AMP_FAULT c) true).raise 0 274).posFaultStep c
    else s.posFaultStep c
  else
    let s := s.setPosCh c { x with good := min 256 (x.good + 1), bad := 0 }
    if n ≤ x.good + 1 ∧ s.on 0 (PC_STAT_AMP_FAULT c) then (s.posFaultStep c).setB 0 (PC_STAT_AMP_FAULT c) false
    else s.posFaultStep c

/-- Counting resumes when no fault has been present for WIRE_T (R433). -/
def State.posResume (s : State) (c : Nat) : State :=
  let x := s.posCh c
  if x.faulty ∧ ¬ s.posHeld c then s.setPosCh c { x with faulty := false } else s

/-- POS_SAMPLE (R428, R429, R432, R433): the codes of the two converters. -/
def State.posSample (s : State) (c : Nat) (sin cos : Int) : State :=
  if s.posHalted ∨ s.f 0 (PC_CTL_MODE c) ≠ 1 then s
  else s.inPeriod 9 c 200 fun s =>
    let sn := sx 14 (ux 14 sin) - s.fi 0 (PC_OFS_OFS_SIN c)
    let cs := rnd 14 ((sx 14 (ux 14 cos) - s.fi 0 (PC_OFS_OFS_COS c)) * (s.f 0 (PC_GAIN_GAIN_COS c) : Nat))
    let (s, ea) := s.freshUnit
    let (s, er) := s.freshUnit
    let (any, s) := s.fresh
    let a := if sn = 0 ∧ cs = 0 then any % 4096 else ux 12 (angleOf sn cs + ea)
    let r := ((sqrtRound (sn * sn + cs * cs).toNat : Int) + er).toNat
    let s := (s.posAmp c r).posResume c
    let x := s.posCh c
    let s := s.setPosCh c { x with angle := some a }
    match x.angle with
    | none => s.posNote c
    | some b =>
      if s.posHeld c then s.posNote c
      else
        let d : Int := (((a + 4096 - b + 2048) % 4096 : Nat) : Int) - 2048
        let s := if ((s.f 0 (PC_OVS_OVS_LIM c) : Nat) : Int) < absI d then
            ((s.setB 0 (PC_STAT_OVERSPEED c) true).posDoubt c).raise 0 275 else s
        s.posMove c d

/-- Place of filtered levels in the quadrature sequence, A leading B. -/
def quadIndex (a b : Bool) : Nat := if a then (if b then 2 else 1) else if b then 3 else 0

/-- POS_QUAD_EDGE (R430, R433): the filtered levels before and after. -/
def State.posQuad (s : State) (c : Nat) (a0 b0 a1 b1 : Bool) : State :=
  if s.posHalted ∨ s.f 0 (PC_CTL_MODE c) ≠ 2 then s
  else
    let s := s.posResume c
    if s.posHeld c then s.posNote c
    else match (quadIndex a1 b1 + 4 - quadIndex a0 b0) % 4 with
      | 1 => s.posMove c 1024
      | 3 => s.posMove c (-1024)
      | 2 => (((s.setB 0 (PC_STAT_QUAD_ERR c) true).posDoubt c).raise 0 275).posNote c
      | _ => s

/-! ### References -/

/-- p moves at once, UNCERTAIN clears, and armed compares take BEHIND afresh without firing (R441). -/
def State.posRefer (s : State) (c : Nat) (p : Int) : State :=
  let x := s.posCh c
  let d := rel48 p (s.posP c)
  let s := (s.setPosP c p).setPosCh c { x with winP := x.winP + d }
  let s := s.setB 0 (PC_STAT_UNCERTAIN c) false
  s.each (List.range 8) fun s k => if s.on 0 (CMP_CTL_ARMED c k) then s.setB 0 (CMP_STAT_BEHIND c k) (s.cmpBehind c k) else s

/-- A write of PCc_POS_HI (R441). -/
def State.posWrite (s : State) (c lo hi : Nat) : State := s.posRefer c ((lo % 2 ^ 32 + hi % 65536 * 2 ^ 32 : Nat) : Int)

/-- Position at a tick, interpolated between the samples on either side and rounded under R4 (R437, R442). -/
def posBetween (p : Int) (tick : Nat) : List (Nat × Int) → Int
  | [] => p
  | [x] => x.2
  | x :: y :: l =>
    if x.1 ≤ tick then x.2
    else if y.1 ≤ tick then
      y.2 + divRnd (rel48 x.2 y.2 * ((tick : Int) - y.1)) (x.1 - y.1)
    else posBetween p tick (y :: l)

def State.posAt (s : State) (c tick : Nat) : Int := sx 48 (ux 48 (posBetween (s.posP c) tick (s.posCh c).hist))

/-- POS_INDEX: IDX has become active or inactive, `ago` ticks before (R437). -/
def State.posIndex (s : State) (c : Nat) (active : Bool) (ago : Nat) : State :=
  let n := s.reg 0 (PC_IDX_N c)
  if s.posHalted ∨ s.f 0 (PC_CTL_MODE c) = 0 ∨ ¬ s.on 0 (PC_CTL_IDX_EN c) ∨ n = 0 ∨ s.f 0 (PC_STAT_IDX_W c) ≠ 0 ∨
      active = s.on 0 (PC_STAT_DIR c) then s
  else
    let p := s.posAt c (s.now - ago)
    let m := ((p - (s.reg 0 (PC_IDX_EXP c) : Nat)) % (n : Nat)).toNat
    let d : Int := if n ≤ 2 * m then (m : Int) - n else m
    let correct := s.on 0 (PC_CTL_IDX_MODE c)
    let first : Bool := correct && !s.on 0 (PC_STAT_HOMED c)
    let s := s.setReg 0 (PC_IDX_CNT c) (satAdd (2 ^ 32 - 1) (s.reg 0 (PC_IDX_CNT c)) 1)
    let s := if !first && decide (((s.f 0 (PC_IDX_TOL_IDX_TOL c) : Nat) : Int) < absI d) then
        ((s.setReg 0 (PC_IDX_ACT c) (p % (n : Nat)).toNat).setB 0 (PC_STAT_INDEX_MISMATCH c) true).raise 0 276
      else s
    let s := if correct then s.posRefer c (s.posP c - d) else s
    if first then s.setB 0 (PC_STAT_HOMED c) true else s

/-- A write of PCc_CTL: a change of MODE clears HOMED and begins afresh; MODE 3 is reserved (R7, R427, R437). -/
def State.posCtlWrite (s : State) (c v : Nat) : State :=
  let old := s.f 0 (PC_CTL_MODE c)
  let mode := if bits v 0 2 = 3 then old else bits v 0 2
  let s := s.setReg 0 (PC_CTL c) (setBits (v % 4096) 0 2 mode &&& 0xF3F)
  if mode = old then s
  else
    let x := s.posCh c
    (s.setB 0 (PC_STAT_HOMED c) false).setPosCh c { x with angle := none, times := [], hist := [], edgeTick := none, bad := 0, good := 0, tick := s.now }

/-- Clock loss and P3: the channels hold p and come back UNCERTAIN (R444). -/
def State.posHalt (s : State) : State :=
  s.each (List.range 4) fun s c =>
    if s.f 0 (PC_CTL_MODE c) = 0 then s
    else (s.setPosCh c { s.posCh c with angle := none, times := [], edgeTick := none }).posDoubt c

/-! ### Lens samplers -/

/-- LENS_TRIGGER: a report reaches T0 and sampler k takes the positions (R442). -/
def State.lensTrigger (s : State) (k : Nat) : State :=
  let x := smGet s.pos.lens k {}
  match x.reports with
  | [] => s
  | (tick, n) :: l =>
    let t : LensTrig := { tick := tick, n := n, at_ := s.now, pos := (List.range 4).map fun c => s.posAt c tick }
    { s with pos.lens := smPut s.pos.lens k { x with reports := l, trigs := t :: x.trigs } {} }

/-- The frame takes a trigger (R442): at or before its Frame Start less LAG, after the previous frame's, and reported before the lead's
record left. -/
def lensTakes (start : Nat) (prev : Option Nat) (lag left : Nat) (t : LensTrig) : Bool :=
  atOrAfter ((start + 2 ^ 64 - lag) % 2 ^ 64) t.n && decide (t.at_ ≤ left) &&
    match prev with
    | none => true
    | some m => !atOrAfter ((m + 2 ^ 64 - lag) % 2 ^ 64) t.n

/-- LENS_RECORD: sampler k writes the record of the Frame Start of its source (R443), and T0 has the positions for RAWC's blend
(R199). -/
def State.lensRecord (s : State) (k : Nat) : State :=
  let x := smGet s.pos.lens k {}
  let t := s.f 0 (LM_CFG_TILE k)
  let src := s.f 0 (LM_CFG_SRC k)
  let port := smGet s.adit.ports (tk t src) {}
  match port.lastN with
  | none => s
  | some n =>
    if ¬ s.on 0 (LM_CFG_EN k) ∨ x.lastN = some n then s
    else
      let lag := s.reg 0 (LM_LAG k)
      let trig := x.trigs.find? (lensTakes n x.lastN lag port.lastTick)
      let cnt := port.lastCnt.getD 0
      let fault := fun c => s.f 0 (PC_CTL_MODE c) == 0 || s.posFault c
      let flags := (List.range 4).foldl (fun a c =>
        a + b2n (fault c) * 2 ^ c + b2n (s.on 0 (PC_STAT_UNCERTAIN c)) * 2 ^ (4 + c)) (b2n trig.isNone * 256)
      let ps := (List.range 4).map fun c => match trig with
        | some g => g.pos.getD c 0
        | none => 0
      let bs := leBytes 4 cnt ++ leBytes 4 flags ++ leBytes 8 n ++ leBytes 8 (match trig with
          | some g => g.n
          | none => 0) ++ ps.flatMap (fun p => leBytes 8 (ux 64 p)) ++ leBytes 8 0
      let next := s.f 0 (LM_NEXT_NEXT k)
      let s := s.wrAt (port := 0) 0 (s.reg64 0 (LM_BASE_LO k) + 64 * next) bs false
      let s := s.setF 0 (LM_NEXT_NEXT k) (if s.f 0 (LM_NSLOT_NSLOT k) ≤ next then 0 else next + 1)
      let s := s.setReg 0 (LM_FCNT k) cnt
      let later := x.trigs.filter fun g => !atOrAfter ((n + 2 ^ 64 - lag) % 2 ^ 64) g.n
      let s := { s with pos.lens := smPut s.pos.lens k { x with trigs := later, lastN := some n } {} }
      s.each (List.range 4) fun s c =>
        { s with pix.expo := if trig.isNone || fault c then smDel (4 * src + c) s.pix.expo else smIns (4 * src + c) (cnt, ps.getD c 0) s.pix.expo }

end Sys2Proof.Machine
end

