-- ==== Sys2Proof/Machine/Therm.lean ====
section
/-!
DEFINITION. Temperature, the power limit, power estimation, PMBus, the arbiter's pass and the shutdown (chapter 20).
-/

namespace Sys2Proof.Machine

/-! ### Temperature -/

def State.thSite (s : State) (t k : Nat) : ThSite := smGet s.pwr.sites (tk t k) {}

def State.setThSite (s : State) (t k : Nat) (x : ThSite) : State := { s with pwr.sites := smPut s.pwr.sites (tk t k) x {} }

/-- Last reading of a site, in 1/16 degree. -/
def State.siteTemp (s : State) (t k : Nat) : Int := s.fi t (THERM_SITE_TEMP k)

/-- How a site looks after a sample: the row of equal readings (R457). -/
def siteRow (x : ThSite) (same : Bool) (others : List Int) : ThSite :=
  if same then
    { x with same := x.same + 1, moved := x.moved || (x.base.zip others).any fun e => decide (32 < absI (e.1 - e.2)) }
  else { x with same := 1, base := others, moved := false }

/-- A sample of one site; a site enters FAULT out of range or stuck (R457). -/
def State.siteSample (s : State) (t k : Nat) (v : Int) (all : List Int) : State :=
  let x := siteRow (s.thSite t k) (decide (s.siteTemp t k = v)) (all.set k 0)
  let s := (s.setThSite t k x).setF t (THERM_SITE_TEMP k) (ux 16 v)
  if s.on t (THERM_SITE_FAULT k) then s
  else if v < -960 ∨ 2400 < v ∨ (10000 ≤ x.same ∧ x.moved) then (s.setB t (THERM_SITE_FAULT k) true).raise t 291
  else s

/-- Start of a shutdown, unless one is under way (R469). -/
def State.shutdownBegin (s : State) (cause t site temp : Nat) : State :=
  if s.pwr.shutdown.isSome ∨ s.pwr.pwrOff then s else { s with pwr.shutdown := some (cause, t, site, temp) }

/-- CRIT in two consecutive samples of one site (R458, R469). -/
def State.critSample (s : State) (t k : Nat) : State :=
  let hot : Bool := !s.on t (THERM_SITE_FAULT k) && decide (s.fi t THERM_CRIT_CRIT ≤ s.siteTemp t k)
  let x := s.thSite t k
  let s := s.setThSite t k { x with crit := hot }
  if hot && x.crit then s.shutdownBegin 1 t k (ux 16 (s.siteTemp t k)) else s

/-- The hottest of some sites, the lowest number on a tie. -/
def State.hottest (s : State) (t : Nat) (l : List Nat) : Option (Int × Nat) :=
  l.foldl (fun a k => match a with
    | some (m, _) => if m < s.siteTemp t k then some (s.siteTemp t k, k) else a
    | none => some (s.siteTemp t k, k)) none

/-- Tile maximum, with WARN and its event (R456 to R458). -/
def State.tileMax (s : State) (t : Nat) : State :=
  let failed := ((List.range 24).filter fun k => s.on t (THERM_SITE_FAULT k)).length
  let s := s.setF t THERM_STAT_FAILED_SITES failed
  let (m, site) := (s.hottest t ((List.range 24).filter fun k => !s.on t (THERM_SITE_FAULT k))).getD (s.fi t THERM_CFG_THROTTLE, 0)
  let m := if 5 ≤ failed ∧ m < s.fi t THERM_CFG_THROTTLE then s.fi t THERM_CFG_THROTTLE else m
  let s := (s.setF t THERM_TILE_MAX (ux 16 m)).setF t THERM_TILE_SITE site
  let w := s.fi t THERM_CFG_WARN
  if w ≤ m ∧ ¬ s.on t THERM_STAT_WARN then (s.setB t THERM_STAT_WARN true).raise t 288
  else if m < w - 48 then s.setB t THERM_STAT_WARN false else s

/-- A channel of some tile reports DRAM_HOT. -/
def State.dramHot (s : State) : Bool := s.tileList.any fun t => s.on t THERM_STAT_DRAM_HOT

/-- Package maximum on T0, with THROTTLE and its event (R456, R458). -/
def State.pkgMax (s : State) : State :=
  let best := s.tileList.foldl (fun (a : Nat) t => if s.fi a THERM_TILE_MAX < s.fi t THERM_TILE_MAX then t else a) 0
  let m := s.fi best THERM_TILE_MAX
  let s := ((s.setF 0 PKG_TEMP_MAX (ux 16 m)).setF 0 PKG_TEMP_TILE best).setF 0 PKG_TEMP_SITE (s.f best THERM_TILE_SITE)
  let th := s.fi 0 THERM_CFG_THROTTLE
  let s := s.when (decide (th - 48 ≤ m)) fun s => { s with pwr.hotTick := s.now + 1 }
  if th ≤ m then
    if s.on 0 THERM_STAT_THROTTLE then s else (s.setB 0 THERM_STAT_THROTTLE true).raise 0 289
  else s.setB 0 THERM_STAT_THROTTLE false

/-- Seconds powered are counted every 60 s (R470). -/
def State.countSeconds (s : State) : State :=
  let n := (s.now - s.pwr.secTick) / (60 * 1000000 * usTicks)
  { s with
    pwr.mram := { s.pwr.mram with secs := s.pwr.mram.secs + 60 * n }
    pwr.secTick := s.pwr.secTick + n * (60 * 1000000 * usTicks) }

/-- THERM_SAMPLE: the readings of a tile's 24 sites, every 100 us (R456 to R458). -/
def State.thermSample (s : State) (t : Nat) (temps : List Int) : State :=
  s.inPeriod 4 t (100 * usTicks) fun s =>
  let v := (List.range 24).map fun k => sx 16 (ux 16 (temps.getD k 0))
  let s := s.each ((List.range 24).zip v) fun s e => s.siteSample t e.1 e.2 v
  let s := s.each (List.range 24) fun s k => s.critSample t k
  let s := (s.tileMax t).pkgMax
  s.when (t == 0) fun s => s.countSeconds

/-! ### The power limit -/

/-- TDP in mW (R1, R506). -/
def State.tdp (s : State) : Nat :=
  match s.member with
  | .tiles2 => 34000
  | .tiles4 => 66000
  | .tiles8 => 128000

/-- Effective PLIM and the package limit follow their inputs; every change raises EV_PWR_PLIM (R459, R460). -/
def State.plimUpdate (s : State) : State :=
  let p := min (min (s.f 0 PLIM_STAT_THERMAL) (s.f 0 PLIM_HOST_HOST_CAP)) (if s.pwr.limCap then 14 else 31)
  let old := s.f 0 PLIM_STAT_PLIM
  let s := (s.setF 0 PLIM_STAT_PLIM p).setReg 0 PKG_LIMIT ((7 + 3 * p) * s.tdp / 100)
  if p = old then s else s.raise 0 292

/-- A 1 ms tick of T0's time clock (R460, R471): the first PLIM_TICK of each millisecond takes its step; none in clock loss (R472). -/
def State.plimTick (s : State) : State :=
  let n := s.now / (1000 * usTicks)
  if n ≤ s.pwr.plimTick then s
  else
    let s := { s with pwr.plimTick := n }
    let hot := s.dramHot
    let s := s.when hot fun s => { s with pwr.hotTick := s.now + 1 }
    let th := s.f 0 PLIM_STAT_THERMAL
    let cool : Bool := s.pwr.hotTick == 0 || decide (s.pwr.hotTick - 1 + 10000 * usTicks ≤ s.now)
    let th' := if s.on 0 THERM_STAT_THROTTLE || hot then th - 1
      else if n % 10 = 0 ∧ cool then min 31 (th + 1) else th
    let s := { s.setF 0 PLIM_STAT_THERMAL th' with pwr.limCap := s.on 0 PLIM_STAT_LIMITED }
    s.plimUpdate

/-! ### Estimation and PMBus -/

/-- The estimates of the seven islands that VDD_CORE supplies, summed before trim (R461, R462). -/
def State.coreSum (s : State) (t : Nat) : Nat := ([0, 1, 2, 3, 4, 5, 7].map fun i => s.f t (PWR_ISL_MW i)).foldl (· + ·) 0

/-- POWER_ESTIMATE: a tile's island estimates, which its fused coefficients give; the tile total and P_m (R461). -/
def State.powerEstimate (s : State) (t : Nat) (mw : List Nat) : State :=
  s.inPeriod 5 t (10 * usTicks) fun s =>
  let s := s.each (List.range 8) fun s i => s.setF t (PWR_ISL_MW i) (if s.island t i then min 65535 (mw.getD i 0) else 0)
  let total := (rnd 14 ((s.coreSum t * s.f t PWR_TRIM_TRIM : Nat) : Int)).toNat + s.f t (PWR_ISL_MW 6)
  let s := s.setF t PWR_TILE_MW (min 65535 total)
  s.setReg 0 PKG_PWR (((s.tileList.filter fun v => !s.isolated v).map fun v => s.f v PWR_TILE_MW).foldl (· + ·) 0)

/-- The one tile that a device trims, if any (R462). -/
def State.trimTile (s : State) (r : Nat) : Option Nat :=
  if s.on 0 (PMB_DEV_EN r) && s.on 0 (PMB_DEV_TRIM r) && s.f 0 (PMB_DEV_RAIL r) == 0 then
    s.tileList.find? fun t => s.f 0 (PMB_DEV_TILES r) == 2 ^ t
  else none

/-- A trim device is assigned to the tile (PWR_TRIM.VALID). -/
def State.trimValid (s : State) (t : Nat) : Bool := (List.range 8).any fun r => s.trimTile r == some t

/-- A LINEAR11 word, in mW as a quotient. -/
def linear11 (w : Nat) : Int × Nat :=
  let e := sx 5 (bits w 11 5)
  let y := sx 11 (bits w 0 11) * 1000
  if 0 ≤ e then (y * (2 ^ e.toNat : Nat), 1) else (y, 2 ^ (-e).toNat)

/-- The new trim: 1/16 of the way to READ_POUT over the sum of the estimates, u2.14, clamped to 0.5 to 2.0; with a sum of 0 the spec
gives no quotient, so a free value (R462). -/
def State.trimStep (s : State) (t : Nat) (num : Int) (den : Nat) : State :=
  let old := s.f t PWR_TRIM_TRIM
  let sum := s.coreSum t
  if sum = 0 then
    let (v, s) := s.fresh
    s.setF t PWR_TRIM_TRIM (8192 + v % 24577)
  else
    let v := divRnd (15 * old * (sum * den) + num * 16384) (16 * (sum * den))
    s.setF t PWR_TRIM_TRIM (clampI 8192 32768 v).toNat

/-- Some device fault bit of STATUS_WORD (R463): bits 3, 4, 5, 6 and 11. -/
def regFault (st : Nat) : Bool := [3, 4, 5, 6, 11].any (bit st)

/-- A warning bit: any other but 0, 1 and 7. -/
def regWarn (st : Nat) : Bool := [2, 8, 9, 10, 12, 13, 14, 15].any (bit st)

/-- One device answered READ_POUT and STATUS_WORD, or did not (R462, R463). -/
def State.pmbusDevice (s : State) (r : Nat) (ok : Bool) (pout st : Nat) : State :=
  if ¬ s.on 0 (PMB_DEV_EN r) then s
  else
    let nacked : Bool := bit (s.f 0 PMB_STAT_NACK) r
    if !ok then
      let s := s.setF 0 PMB_STAT_NACK (orBit (s.f 0 PMB_STAT_NACK) r)
      if nacked then s else s.raise 0 295
    else
      let q := linear11 (pout % 65536)
      let s := s.setF 0 (PMB_POW_MW r) (clampI 0 65535 (divRnd q.1 q.2)).toNat
      let s := s.setF 0 (PMB_POW_STATUS r) (st % 65536)
      let s := match s.trimTile r with
        | some t => if nacked then s else s.trimStep t q.1 q.2
        | none => s
      let s := s.when (regFault st && s.on 0 (PMB_DEV_FAULT_EN r) && decide (s.f 0 PL_PSTATE_STATE ≤ 1)) fun s =>
        s.shutdownBegin 2 0 255 (s.f 0 PKG_TEMP_MAX)
      if regWarn st then (s.setF 0 PMB_STAT_WARN (orBit (s.f 0 PMB_STAT_WARN) r)).raise 0 296 else s

/-- PMBUS_POLL: what each of the eight devices answered. -/
def State.pmbusPoll (s : State) (l : List (Bool × Nat × Nat)) : State :=
  if ¬ s.on 0 PMB_CFG_EN then s
  else s.inPeriod 6 0 (max 1 (s.f 0 PMB_CFG_POLL) * 1000 * usTicks) fun s => s.each ((List.range 8).zip l) fun s e => s.pmbusDevice e.1 e.2.1 e.2.2.1 e.2.2.2

/-! ### The arbiter's pass -/

/-- Declared cost of a job, in mW (R464). -/
def State.jobCost (s : State) (j : ArbJob) : Nat := s.f 0 (JOB_COST_MW j.kind) * j.tiles

def State.jobCosts (s : State) (l : List ArbJob) : Nat := (l.map s.jobCost).foldl (· + ·) 0

/-- Running, or not yet at the checkpoint of its pause (R466). -/
def ArbJob.runs (j : ArbJob) : Bool := j.st = 1 || j.st = 3

/-- The contexts of a TRANSCODE: home tile, decode and encode context (R385). -/
def State.transPair (s : State) (tag : Nat) : Nat × Nat × Nat :=
  match s.host.cmds.find? (·.tag = tag) with
  | some c => (c.cap.getD 4 0, c.cap.getD 5 0, c.cap.getD 6 0)
  | none => (0, 0, 0)

/-- A pausing job has reached its checkpoint: its unit is SUSPENDED. -/
def State.jobAtRest (s : State) (j : ArbJob) : Bool :=
  match j.kind with
  | 5 => s.f j.tile (CJ_STAT_STATE j.idx) == 2
  | 6 => s.f j.tile (HE_STAT_STATE j.idx) == 2
  | 7 => s.f j.tile (HD_STAT_STATE j.idx) == 2
  | 2 => let (h, d, e) := s.transPair j.idx
         (s.f h (HD_STAT_STATE d) == 2 || s.f h (HD_STAT_STATE d) == 3) && s.f h (HE_STAT_STATE e) == 2
  | _ => false

/-- Jobs that have come to rest are paused. -/
def State.arbSettle (s : State) : State :=
  { s with pwr.jobs := s.pwr.jobs.map fun j => if j.st = 3 && s.jobAtRest j then { j with st := 2, pausedAt := s.now } else j }

/-- Pause a running pausable job (R466): a unit by its own SUSPEND, a command at its next checkpoint. -/
def State.jobPause (s : State) (j : ArbJob) : State :=
  if j.kind = 4 ∨ j.st ≠ 1 then s
  else
    let s := s.arbSet j.kind j.tile j.idx fun x => { x with st := 3 }
    match j.kind with
    | 5 => s.setF j.tile (CJ_STAT_STATE j.idx) 2
    | 6 => s.hePause j.tile j.idx
    | 7 => s.hdPause j.tile j.idx
    | 2 => let (h, d, e) := s.transPair j.idx
           (s.hdPause h d).hePause h e
    | _ => s

/-- Admit or resume a job (R464, R465). -/
def State.jobGo (s : State) (j : ArbJob) : State :=
  let again : Bool := j.st = 2
  let s := s.arbSet j.kind j.tile j.idx fun x => { x with st := 1, started := s.now }
  let s := { s with pwr.recent := s.pwr.recent ++ [(s.now, s.jobCost j)] }
  match j.kind with
  | 5 => s.cjBegin j.tile j.idx (again || j.resume)
  | 6 => s.heGo j.tile j.idx (again || j.resume)
  | 7 => s.hdGo j.tile j.idx
  | 2 => let (h, d, e) := s.transPair j.idx
         let s := s.when (s.f h (HD_STAT_STATE d) == 2) fun s => s.hdGo h d
         s.when (s.f h (HE_STAT_STATE e) == 2) fun s => s.heGo h e true
  | _ => s

/-- Resume paused jobs that fit, oldest pause first: the state and what headroom is left, and whether one had to stay. -/
def State.arbResume (s : State) (hyst : Int) : List ArbJob → Int → State × Int × Bool
  | [], h => (s, h, false)
  | j :: l, h =>
    let c : Int := (s.jobCost j : Nat)
    if c ≤ h - hyst then (s.jobGo j).arbResume hyst l (h - c)
    else
      let (s, h, _) := s.arbResume hyst l h
      (s, h, true)

/-- Start waiting jobs that fit, in arrival order; a job that has waited AGE_MAX bars those behind it (R465). -/
def State.arbStart (s : State) (age : Nat) : List ArbJob → Int → State
  | [], _ => s
  | j :: l, h =>
    let c : Int := (s.jobCost j : Nat)
    if c ≤ h then (s.jobGo j).arbStart age l (h - c)
    else if j.arrived + age ≤ s.now then s else s.arbStart age l h

/-- Put a job before the first that was paused after it. -/
def insPaused (j : ArbJob) : List ArbJob → List ArbJob
  | [] => [j]
  | x :: l => if j.pausedAt ≤ x.pausedAt then j :: x :: l else x :: insPaused j l

/-- Paused jobs, oldest pause first. -/
def pausedOrder (l : List ArbJob) : List ArbJob := (l.filter fun j => j.st = 2).foldr insPaused []

/-- The running pausable job admitted or resumed most recently. -/
def lastStarted (l : List ArbJob) : Option ArbJob :=
  (l.filter fun j => j.st = 1 ∧ j.kind ≠ 4).foldl (fun a j => match a with
    | some b => if b.started ≤ j.started then some j else a
    | none => some j) none

/-- Real-time work alone exceeds the limit, or no longer (R467). -/
def State.arbRt (s : State) (lim f : Int) : State :=
  if lim < f then
    let again : Bool := !s.on 0 PLIM_STAT_RT_SHORT || decide (s.pwr.rtTick + 100000 * usTicks ≤ s.now)
    let s := s.setB 0 PLIM_STAT_RT_SHORT true
    let s := if again then { s with pwr.rtTick := s.now, pwr.rtCount := satAdd (2 ^ 32 - 1) s.pwr.rtCount 1 }.raise 0 293 else s
    s.each (s.pwr.jobs.filter fun j => j.st = 1 ∧ j.kind ≠ 4) fun s j => (s.jobPause j).raise 0 294
  else if f + (s.f 0 JOB_CFG_HYST : Nat) ≤ lim then s.setB 0 PLIM_STAT_RT_SHORT false else s

/-- Admissions of a pass, with headroom h (R465, R472): none while RT_SHORT is set or in P2 and P3. -/
def State.arbAdmit (s : State) (h : Int) : State :=
  if s.on 0 PLIM_STAT_RT_SHORT || decide (2 ≤ s.f 0 PL_PSTATE_STATE) then s
  else
    let waiting := s.pwr.jobs.filter fun j => j.st = 0
    let r := s.arbResume (s.f 0 JOB_CFG_HYST : Nat) (pausedOrder s.pwr.jobs) h
    if r.2.2 then r.1 else r.1.arbStart (max 1 (s.f 0 JOB_CFG_AGE_MAX) * 1000 * usTicks) waiting r.2.1

/-- ARBITER_PASS, every 10 us (R465 to R467, R472). -/
def State.arbiterPass (s : State) : State :=
  s.inPeriod 7 0 (10 * usTicks) fun s =>
  let s := s.arbSettle
  let s := { s with pwr.recent := s.pwr.recent.filter fun e => s.now < e.1 + 100 * usTicks }
  let lim : Int := (s.reg 0 PKG_LIMIT : Nat)
  let p : Int := (s.reg 0 PKG_PWR : Nat)
  let h := lim - p - ((s.pwr.recent.map (·.2)).foldl (· + ·) 0 : Nat)
  let f := p - (s.jobCosts (s.pwr.jobs.filter (·.runs)) : Nat)
  let s := (s.setReg 0 HEADROOM (ux 32 h)).setReg 0 RT_FLOOR (ux 32 f)
  let s := s.arbRt lim f
  let s := s.arbAdmit h
  if h < 0 then
    let run := s.pwr.negRun + 1
    let s := s.addF 0 JOB_NEG_TIME 1
    if 500 ≤ run then
      let s := { s with pwr.negRun := 0 }
      match lastStarted s.pwr.jobs with
      | some j => (s.jobPause j).raise 0 294
      | none => s
    else { s with pwr.negRun := run }
  else { s with pwr.negRun := 0 }.setF 0 JOB_NEG_TIME 0

/-- Entry into P2 or P3 pauses every running pausable job (R472). -/
def State.arbPauseAll (s : State) : State := s.each s.pwr.jobs fun s j => s.jobPause j

/-- Every running pausable job has come to rest. -/
def State.arbQuiet (s : State) : Bool := s.arbSettle.pwr.jobs.all fun j => j.st ≠ 1 && j.st ≠ 3 || j.kind = 4

/-! ### Shutdown -/

/-- THERM_SHUTDOWN: THERMTRIP_N, the MRAM record unless a rail is out of range (R504), PWR_OFF, and the event (R469,
R470). -/
def State.thermShutdown (s : State) : State :=
  match s.pwr.shutdown with
  | none => s
  | some (cause, t, site, temp) =>
    let m := s.pwr.mram
    let r : ThermRec := { seq := m.seq, n := s.tcN 0 0, tile := t, site := site, cause := cause, plim := s.f 0 PLIM_STAT_PLIM, temp := temp, ack := cause = 3 }
    let ring := m.ring ++ [r]
    let excess := ring.length - 64
    let s := { s with
      pwr.shutdown := none
      pwr.thermtrip := true
      pwr.pwrOff := true
      pwr.mram := if s.boot.railBad then m else { m with ring := ring.drop excess, lost := m.lost + excess, seq := m.seq + 1, shutdowns := if cause = 1 then m.shutdowns + 1 else m.shutdowns } }
    if cause = 1 then s.raise t 290 else if cause = 2 then s.raise 0 297 else s

/-- THERM_SHDN.ARM (R469). -/
def State.shdnArm (s : State) : State := { s with pwr.armTick := s.now + 1 }

/-- THERM_SHDN.ARM was written no more than 1 ms ago and not yet used (R469). -/
def State.shdnArmed (s : State) : Bool := s.pwr.armTick != 0 && decide (s.now ≤ s.pwr.armTick - 1 + 1000 * usTicks)

/-- THERM_SHDN.FIRE, which counts only within 1 ms of ARM (R469). -/
def State.shdnFire (s : State) : State :=
  if s.shdnArmed then
    let s := { s with pwr.armTick := 0 }
    s.shutdownBegin 3 (s.f 0 PKG_TEMP_TILE) (s.f 0 PKG_TEMP_SITE) (s.f 0 PKG_TEMP_MAX)
  else s

/-- Some record of the ring is not acknowledged (R471). -/
def State.mramPending (s : State) : Bool := s.pwr.mram.ring.any fun r => !r.ack

end Sys2Proof.Machine
end

