-- ==== Sys2Proof/Machine/LinkReset.lean ====
section
/-!
DEFINITION. Link resets and what they end (R349, R350), the writes that ask for a reset or a retrain, and a link's sleep and wake
(R354).
-/

namespace Sys2Proof.Machine

/-- Opcode of a host command. -/
def HostCmd.op (c : HostCmd) : Nat := c.cap.getD 0 0

/-- A little-endian capsule field. -/
def HostCmd.fld (c : HostCmd) (o n : Nat) : Nat := leNum ((c.cap.drop o).take n)

/-- Registers that count the host's commands (PL0_QUEUE): outstanding, executing, held. -/
def State.hostSync (s : State) : State :=
  let s := s.setF 0 (PL_QUEUE_QUEUED 0) s.host.cmds.length
  let s := s.setF 0 (PL_QUEUE_EXEC 0) (s.host.cmds.filter (·.started)).length
  s.setF 0 (PL_QUEUE_HELD 0) (s.host.cmds.filter (·.held)).length

/-- Set the list of the host's commands. -/
def State.setCmds (s : State) (l : List HostCmd) : State := { s with host.cmds := l }.hostSync

/-- The error-log entry of a WRITE whose prefix stands on the medium (R350, R372). -/
def State.logPrefix (s : State) (c : HostCmd) : State :=
  if (c.op = 0x02 ∨ c.op = 0x14) ∧ c.pos ≠ 0 then
    s.logError 2 c.tag c.op 0 2 (if c.op = 2 then c.fld 4 1 else 15) (if c.op = 2 then c.fld 8 8 else c.fld 8 8 / 4096) c.pos []
  else s

/-- The contexts of a TRANSCODE that is stopped end at their next boundary. -/
def State.transStop (s : State) (c : HostCmd) : State :=
  if c.op = 0x41 ∧ c.n1 = 1 then (s.hdCancel (c.fld 4 1) (c.fld 5 1)).heCancel (c.fld 4 1) (c.fld 6 1) else s

/-- The target of the host link stops every queued and executing command without a RESPONSE (R350); host transactions not yet
decided end ABORTED (R383); a power-state entry and an activation not yet begun end with their commands (R351). -/
def State.hostStop (s : State) : State :=
  let cs := s.host.cmds
  let s := s.each cs fun s c => (s.logPrefix c).transStop c
  let s := s.each (List.range 16) fun s i =>
    let x := s.txn i
    if x.host ∧ (x.state = 1 ∨ x.state = 2) then s.txnAbort i else s
  let s := { s with
    pwr.jobs := s.pwr.jobs.filter fun j => 5 ≤ j.kind
    host.failed := []
    host.texs := []
    host.act := if s.host.act = 1 then 0 else s.host.act
    host.entryTag := none }
  let s := (s.setB 0 PL_PSTATE_ENTERING false).setF 0 PL_PSTATE_TARGET 0
  s.setCmds []

/-- A link reset (R349, R350): nothing of the transaction layer survives, the cause and count are recorded. -/
def State.linkReset (s : State) (t l cause : Nat) : State :=
  let s := if l = 0 then s.hostStop else s.magEndAll t 2
  let s := (s.setLink t l {}).setF t (PL_STAT_STATE l) 4
  let s := (s.setF t (PL_STAT_LRST_CAUSE l) cause).addF t (PL_STAT_RESETS l) 1
  let s := s.when (cause != 2) fun s => s.each (List.range (s.linkLanes t l)) fun s k =>
    s.laneSend t (s.linkLane t l k) (List.replicate 64 (ctlBlock 0xDE [cause]))
  (s.linkSync t l).raise t 206

/-- A link in RESETTING trains again: what it had is stopped at once, so TRAIN goes out with the next tick, within the 50 us of R350
(DESIGN CHOICE, log 23). -/
def State.resetsOver (s : State) : State :=
  s.each (s.tileList.flatMap fun t => [(t, 0), (t, 1)]) fun s (t, l) =>
    s.when (linkHere t l && s.live t 6 && s.linkState t l == 4) fun s => s.linkTrain t l

/-- A link that trains or runs. -/
def State.linkAlive (s : State) (t l : Nat) : Bool := s.linkState t l != 0 && s.linkState t l != 4

/-- Two consecutive LRST blocks have come (R349). -/
def State.lrstReceive (s : State) (t l : Nat) : State := if s.linkAlive t l then s.linkReset t l 2 else s

/-- PLk_CTL.RETRAIN (R333). -/
def State.retrainWrite (s : State) (t l : Nat) : State := if s.linkState t l = 2 then s.linkRetrain t l else s

/-- PLk_CTL.RESET (R349). -/
def State.resetWrite (s : State) (t l : Nat) : State := if s.linkAlive t l then s.linkReset t l 3 else s

/-- RETRAIN has not reached UP within RETRAIN_TO (R333). -/
def State.retrainTimeout (s : State) (t l : Nat) : State :=
  if s.linkState t l = 3 ∧ (s.link t l).since + max 1 (s.f t (PL_RETRAIN_TO_TO l)) * usTicks ≤ s.now then s.linkReset t l 1 else s

/-- The ABORT of a magazine command has had no RESPONSE for 100 us (R358). -/
def State.magAbortTimeout (s : State) (t : Nat) : State :=
  if (s.mag t).any fun m => m.use = 3 ∧ m.status.isNone ∧ m.issued + 100 * usTicks ≤ s.now then s.linkReset t 1 5 else s

/-- An UP link goes to SLEEP with its lanes (R352). -/
def State.linkSleep (s : State) (t l : Nat) : State :=
  if s.linkState t l = 2 ∨ s.linkState t l = 3 then
    let s := s.each (List.range (2 ^ s.f t (PL_STAT_WIDTH l))) fun s k =>
      let a := s.linkLane t l k
      let s := (s.eyeAbort t a).laneRest t a
      ((s.setB t (LANE_STAT_IDLE a) true).setB t (LANE_STAT_SIGNAL a) false).setB t (LANE_STAT_PLL_OK a) false
    (s.setLink t l { s.link t l with idle := true }).setF t (PL_STAT_STATE l) 5
  else s

/-- LINK_WAKE: a far-end burst wakes a sleeping link; sequence numbers, credits and tags are kept (R354). The link's island, off in
P3, is on again. -/
def State.linkWake (s : State) (t l : Nat) : State :=
  if s.linkState t l = 5 then
    let s := s.each [ISL_PWR_ON, ISL_STAT_PGOOD, ISL_STAT_CLKOK] fun s r => s.setF t r (orBit (s.f t r) 6)
    let s := s.each (List.range (2 ^ s.f t (PL_STAT_WIDTH l))) fun s k =>
      let a := s.linkLane t l k
      ((s.setB t (LANE_STAT_IDLE a) false).setB t (LANE_STAT_SIGNAL a) true).setB t (LANE_STAT_PLL_OK a) true
    let s := (s.setLink t l { s.link t l with idle := false, progress := s.now }).setF t (PL_STAT_STATE l) 2
    (s.sendAlign t l (s.f t (PL_STAT_WIDTH l))).linkPump t l
  else s

end Sys2Proof.Machine
end

