-- ==== Sys2Proof/Machine/Boot.lean ====
section
/-!
DEFINITION. Images (R529 to R531): the checks, what an image loads into a tile's TCM, crews 0 and 1 of a tile starting, and the
commits of rollback and revocation (R534).
-/

namespace Sys2Proof.Machine

/-! ### TCM -/

/-- A TCM word index: code TCM from address 0, data TCM from 0x0008_0000 (R65); the index of the 64-bit word in the tile's TCM. -/
def tcmIndex (a : Nat) : Option Nat :=
  if a < 0x80000 then some (a / 8)
  else if a < 0x100000 then some (65536 + (a - 0x80000) / 8)
  else none

/-- Byte of a tile's TCM. -/
def State.tcmByte (s : State) (t a : Nat) : Nat :=
  match tcmIndex a with
  | some w => bits (smGet s.core.tcm (tk t w) 0).toNat (8 * (a % 8)) 8
  | none => 0

/-- Store a byte of a tile's TCM; a whole word written is no longer poisoned, see `tcmStore`. -/
def State.setTcmByte (s : State) (t a v : Nat) : State :=
  match tcmIndex a with
  | some w =>
    let old := (smGet s.core.tcm (tk t w) 0).toNat
    { s with core.tcm := smPut s.core.tcm (tk t w) (BitVec.ofNat 64 (setBits old (8 * (a % 8)) 8 v)) 0 }
  | none => s

/-- Store bytes, clearing the poison and the bad parity of each word that is touched. -/
def State.tcmLoad (s : State) (t a : Nat) : List Nat → State
  | [] => s
  | b :: bs =>
    let s := match tcmIndex a with
      | some w => { s with
          core.tcmPoison := smPut s.core.tcmPoison (tk t w) false false
          core.tcmParity := smPut s.core.tcmParity (tk t w) 0 0 }
      | none => s
    (s.setTcmByte t a b).tcmLoad t (a + 1) bs

/-! ### Images -/

/-- A field of an image, little-endian. -/
def imgF (b : List Nat) (o n : Nat) : Nat := leNum ((b.drop o).take n)

/-- A section: tiles, type, load address, offset, length, hash. -/
structure ImgSec where
  tiles : Nat
  ty : Nat
  load : Nat
  ofs : Nat
  len : Nat
  hash : List Nat
  pad : Nat

/-- The sections of an image, in order. -/
def imgSecs (b : List Nat) : List ImgSec :=
  (List.range (imgF b 0x0E 1)).map fun i =>
    let e := 0x1C0 + 48 * i
    { tiles := imgF b e 1, ty := imgF b (e + 1) 1, load := imgF b (e + 4) 4, ofs := imgF b (e + 8) 4, len := imgF b (e + 12) 4,
      hash := (b.drop (e + 16)).take 32, pad := imgF b (e + 2) 2 }

/-- The payload of an image. -/
def imgPayload (b : List Nat) : List Nat := b.drop 4096

/-- Bytes of a section. -/
def imgBytes (b : List Nat) (x : ImgSec) : List Nat := ((imgPayload b).drop x.ofs).take x.len

/-- Two sections share an address on some tile. -/
def secsMeet (x y : ImgSec) : Bool := decide (x.load < y.load + y.len) && decide (y.load < x.load + x.len)

/-- No two sections for one tile overlap. -/
def secsApart (t : Nat) : List ImgSec → Bool
  | [] => true
  | x :: l => (!bit x.tiles t || l.all fun y => !bit y.tiles t || !secsMeet x y) && secsApart t l

/-- An entry point lies in a CODE section of a tile. -/
def entryIn (l : List ImgSec) (t e : Nat) : Bool :=
  l.any fun x => bit x.tiles t && x.ty == 1 && decide (x.load ≤ e) && decide (e < x.load + x.len)

/-- Slots whose key hash is that of the image's MODULUS (R531). -/
def State.keySlots (s : State) (b : List Nat) : List Nat :=
  let h := beNum (sha256 ((b.drop 0x40).take 384))
  (List.range 4).filter fun k => bit (s.f 0 BOOT_KEYSLOT_PROGRAMMED) k && (Config.keyHash k).toNat == h

/-- Slots that count and are not revoked (R533). -/
def State.goodSlots (s : State) : Nat := s.f 0 BOOT_KEYSLOT_PROGRAMMED &&& (15 ^^^ s.f 0 BOOT_KEYSLOT_REVOKED)

/-- An image is well formed, but for what REVOKE names (R530). -/
def State.imgShape (s : State) (b : List Nat) : Bool :=
  let l := imgSecs b
  let n := imgF b 0x0E 1
  let pay := imgF b 0x10 4
  imgF b 4 2 == 1 && imgF b 6 2 < 2 && imgF b 0x0C 1 ≤ 64 && imgF b 0x0D 1 < 16 && decide (1 ≤ n) && n ≤ 16 && imgF b 0x0F 1 == 0 &&
    imgF b 0x14 4 == 0 && pay + 4096 == b.length && pay ≤ 2097152 && decide (4096 ≤ b.length) &&
    ((b.drop 0x640).take 2496).all (· == 0) && ((b.drop (0x1C0 + 48 * n)).take (48 * (16 - n))).all (· == 0) &&
    (l.all fun x => x.pad == 0 && x.ofs + x.len ≤ pay &&
      ((x.ty == 1 && x.load + x.len ≤ 0x20000) || (x.ty == 2 && decide (0x80000 ≤ x.load) && x.load + x.len ≤ 0xA0000))) &&
    (s.tileList.all fun t => secsApart t l && entryIn l t (imgF b 0x18 4) && entryIn l t (imgF b 0x1C 4))

/-- REVOKE names neither the signing slot nor every slot not yet revoked (R530). -/
def State.imgRevoke (s : State) (b : List Nat) : Bool :=
  let r := imgF b 0x0D 1
  let good := s.goodSlots
  (r == 0 || (good &&& r) != good) && ((s.keySlots b).filter (bit good)).all fun k => !bit r k

/-- The check of an image (R531): 0, or the code of the first failure. -/
def State.imgCheck (s : State) (b : List Nat) : Nat :=
  let ks := s.keySlots b
  let msg := b.take 0x4C0
  if b.length < 4 ∨ imgF b 0 4 ≠ 0x45424D46 then 8
  else if ¬ s.imgShape b then 1
  else if ks = [] then 2
  else if ks.all fun k => !bit s.goodSlots k then 3
  else if ¬ s.imgRevoke b then 1
  else if ¬ pssOk ((b.drop 0x40).take 384) ((b.drop 0x4C0).take 384) msg then 4
  else if sha256 (imgPayload b) ≠ (b.drop 0x20).take 32 ∨ (imgSecs b).any (fun x => sha256 (imgBytes b x) != x.hash) then 5
  else if imgF b 0x0C 1 < s.f 0 BOOT_ROLLBACK_COUNT then 6
  else 0

/-- A rejected image: its code in BOOT_STAT and its event (R531). -/
def State.imgReject (s : State) (code : Nat) : State := (s.setF 0 BOOT_STAT_FAIL code).raise 0 18

/-- Load the sections that name a tile into its TCM (R529, R535). -/
def State.imgLoad (s : State) (t : Nat) (b : List Nat) : State :=
  s.each ((imgSecs b).filter fun x => bit x.tiles t) fun s x => s.tcmLoad t x.load (imgBytes b x)

/-- A crew starts from STOPPED at its entry point (R63); ECAUSE and TSNAP, which R63 does not name, are 0 too (DESIGN CHOICE, log 89). -/
def State.crewBegin (s : State) (t c entry : Nat) : State :=
  s.setCrew t c { s.crew t c with
    state := 1, g := [], p := 1, pc := entry, entry := entry, inexc := false, epc := 0, eval := 0, evec := 0, escratch := 0
    cause := 0, code := 0, instret := 0, tsnapS := 0, tsnapF := 0, wait := none, fetch := [], tx := none, lastIssue := s.now }

/-- Crews 0 and 1 of a tile start with an image (R521, R535). -/
def State.sysCrews (s : State) (t : Nat) (b : List Nat) : State :=
  (s.crewBegin t 0 (imgF b 0x18 4)).crewBegin t 1 (imgF b 0x1C 4)

/-- Program OTP for an image that has run: ROLLBACK up to its SVN, then REVOKED (R534). No bit is programmed while a rail is out of
range (R504). -/
def State.otpCommit (s : State) (b : List Nat) : State :=
  if imgF b 6 1 % 2 = 0 ∨ s.boot.railBad then s
  else
    let svn := imgF b 0x0C 1
    let r := imgF b 0x0D 1
    let s := s.when (decide (s.f 0 BOOT_ROLLBACK_COUNT < svn)) fun s => (s.setF 0 BOOT_ROLLBACK_COUNT svn).raise 0 21
    s.when (r != 0) fun s => (s.setF 0 BOOT_KEYSLOT_REVOKED (s.f 0 BOOT_KEYSLOT_REVOKED ||| r)).raise 0 22

end Sys2Proof.Machine
end

