-- ==== Sys2Proof/Machine/Iso.lean ====
section
/-!
DEFINITION. Unit abort (R485, R486), the clock-loss sequence and recovery (R123 to R125), islands (R11, R12), isolation and
readmission of a tile (R487 to R490).
-/

namespace Sys2Proof.Machine

/-! ### Unit abort -/

/-- A unit is forced idle as its chapter defines (R485). -/
def State.unitAbort (s : State) (t u : Nat) : State :=
  if u ≤ 3 then s.adCut t u stAborted
  else if u = 4 then s.each (List.range 4) fun s k => s.rawAbort t k
  else if u ≤ 6 then s.devAbort t (u - 5)
  else if u ≤ 10 then s.outAbort t (u - 7)
  else if u = 11 then s.crushAbort t
  else if u = 12 then s.recCut t stAborted 1
  else if u ≤ 16 then s.heAbort t (u - 13)
  else if u ≤ 20 then s.hdAbort t (u - 17)
  else s

/-- A request to abort units of a tile: they come to rest, and the request waits for UNIT_ABORT_DONE (R485). -/
def State.uabort (s : State) (t mask : Nat) : State :=
  let us := (List.range unitCount).filter (bit mask)
  if us = [] ∨ s.isolated t then s
  else
    let s := s.each us fun s u => s.unitAbort t u
    let s := s.setReg t UABORT_STAT (s.reg t UABORT_STAT ||| mask % 2 ^ unitCount)
    { s with evt.aborts := s.evt.aborts ++ [(t, mask % 2 ^ unitCount)] }

/-- A write of UABORT_REQ: an application crew acts only on units in its grant (R485). -/
def State.uabortWrite (s : State) (t who mask : Nat) : State :=
  let c := who - 1
  s.uabort t (if sysWho who then mask else mask &&& s.reg (c / 8) (CREW_GRANT (c % 8)))

/-- UNIT_ABORT_DONE: every unit of the oldest request of a tile is IDLE (R485). -/
def State.uabortDone (s : State) (t : Nat) : State :=
  match s.evt.aborts.find? (·.1 = t) with
  | none => s
  | some r =>
    let s := { s with evt.aborts := s.evt.aborts.erase r }
    let left := (s.evt.aborts.filter (·.1 = t)).foldl (fun m x => m ||| x.2) 0
    (s.setReg t UABORT_STAT left).raise t 308

/-! ### Clock loss -/

/-- The frames that the pixel path of a tile has open close with CLOCK_LOSS; what has not begun in a unit is not produced (R124). The Crusher
and the codecs stop where the clock leaves them (R274, R309, R323). -/
def State.pixCut (s : State) (t : Nat) : State :=
  let s := s.each (List.range 4) fun s p => if (s.port t p).frame.isSome then s.adCut t p stClockLoss else s
  let s := s.each (List.range 4) fun s k => s.rawShort t k stClockLoss
  let s := s.each [0, 1] fun s n => s.devCut t n stClockLoss
  let s := s.each (List.range 4) fun s c => s.outCut t c stClockLoss
  let drop := fun {α : Type} (m : SMap α) => m.filter fun x => decide (x.1 / 0x100000 ≠ t)
  { s with
    adit.store := drop s.adit.store, pix.rawIn := drop s.pix.rawIn, pix.x2 := drop s.pix.x2, pix.x3 := drop s.pix.x3
    pix.ranges := drop s.pix.ranges, pix.tap := drop s.pix.tap }

/-- What the clock-loss sequence does to a tile that is not isolated (R124). -/
def State.clockLossTile (s : State) (t : Nat) : State :=
  let s := s.when (t != 0) fun s => s.setF t FOLLOW_STATE 2
  let s := s.raise t 263
  let s := s.when (s.island t 1) fun s => s.pixCut t
  let s := s.recCut t stClockLoss 2
  let s := s.each (List.range 8) fun s c => s.selfRefresh t c true
  let s := s.lanesClockLost t
  s.each [0, 1] fun s l => if s.linkState t l ≠ 0 then s.linkDown t l else s

/-- The clock-loss sequence on every tile (R124). -/
def State.clockLoss (s : State) : State :=
  let ts := s.tileList.filter fun t => !s.isolated t
  let s := s.each ts fun s t => s.setB t CLKSUP_REFCLK_OK false
  let s := s.each (List.range 4) fun s n => s.each ts fun s t => s.setB t (TC_STAT_HOLDOVER n) true
  let s := s.each ts State.clockLossTile
  let s := s.each ts fun s t => s.magEndAll t 2
  let s := s.audCut true
  let s := s.posHalt.freezeServos
  { s with time.xtrig := [], time.clockLost := true, time.lostAt := s.now, time.goodFrom := s.now }

/-- REFCLK_STOP and REFCLK_RATE on every tile: the event, its bit and the sequence (R123). -/
def State.refclkLost (s : State) (id : Nat) (b : FRef) : State :=
  if s.time.clockLost then { s with time.goodFrom := s.now }
  else
    let ts := s.tileList.filter fun t => !s.isolated t
    let s := s.each ts fun s t => (s.setB t b true).raise t id
    s.clockLoss

/-- REFCLK_GLITCH (R123). -/
def State.refclkGlitch (s : State) : State :=
  s.each (s.tileList.filter fun t => !s.isolated t) fun s t => (s.addF t CLKSUP_GLITCHES 1).raise t 10

/-- What recovery does to a tile, by the steps of R125; `mr4` gives what each channel's MR4 reads (R398, R408). -/
def State.recoverTile (s : State) (mr4 : List (Nat × Bool × Bool)) (t : Nat) : State :=
  let s := s.each (List.range 8) fun s c =>
    let m := mr4.getD (8 * t + c) (2, false, false)
    if (s.mcChan t c).clockSr then s.selfRefreshExit t c m.1 m.2.1 m.2.2 else s
  let s := s.lanesRecover t
  let s := s.each (List.range 4) fun s p => s.adRecover t p
  let s := s.each (List.range 4) fun s k => s.rawForget t k
  let s := s.crushRecover t
  let s := s.each (List.range 4) fun s c => s.heRecover t c
  let s := s.each (List.range 4) fun s c => s.hdRecover t c
  s.each [0, 1] fun s l => if linkHere t l ∧ s.on t (PL_CTL_EN l) then s.linkReset t l 4 else s

/-- Ticks of REFCLK without a break after which recovery begins, 10 ms (R125). -/
def recoveryTicks : Nat := 10000 * usTicks

/-- REFCLK_RECOVERY, once REFCLK has been good for 10 ms (R125). -/
def State.refclkRecovery (s : State) (mr4 : List (Nat × Bool × Bool)) : State :=
  if ¬ s.time.clockLost ∨ s.now < s.time.goodFrom + recoveryTicks then s
  else
    let ts := s.tileList.filter fun t => !s.isolated t
    let gone := s.now - s.time.lostAt
    let s := { s with
      time.clockLost := false
      evt.heldOccs := s.evt.heldOccs.map fun (h : HeldOcc) => { h with expiry := h.expiry + gone } }
    let s := s.each ts fun s t => (((s.setB t CLKSUP_REFCLK_OK true).setB t CLKSUP_STOP false).setB t CLKSUP_RATE false).raise t 11
    let s := s.each (List.range 4) fun s n => s.each ts fun s t => s.setB t (TC_STAT_HOLDOVER n) false
    let s := s.each (ts.filter (· ≠ 0)) State.followShow
    let s := s.freezeServos.each ts fun s t => s.geyJudge t fun _ => true
    s.each ts fun s t => s.recoverTile mr4 t

/-! ### Crossings and injected occurrences -/

/-- A crossing's fault (R20): its bit and event, its stream discarded to the next frame boundary, and the frame in flight on its
consumer DAMAGED. `i` is the source, or for the crossings of the codec islands the context. -/
def State.xingFault (s : State) (t x i : Nat) : State :=
  let s := (s.setF t XING_STAT_FAULT (orBit (s.f t XING_STAT_FAULT) x)).raise t 4
  let s := s.when (decide (x < 7)) fun s => s.setDiscard t x i true
  let s := s.when (x == 3) fun s => s.setDiscard t 9 i true
  let s := if x = 0 then
      match (s.port t i).frame with
      | some f => s.setPort t i { s.port t i with frame := some (f.st stDamaged) }
      | none => s
    else s
  let s := s.when (x == 2 || x == 3) fun s => s.when (s.raw t i).frame.isSome fun s =>
    s.setRaw t i { s.raw t i with status := orBit (s.raw t i).status stDamaged }
  let s := s.when (x == 1 || x == 2 || x == 3 || x == 6) fun s => s.each (List.range 4) fun s c =>
    match (s.out t c).frame with
    | some f => if f.src = i then s.setOut t c { s.out t c with status := orBit (s.out t c).status stDamaged } else s
    | none => s
  let s := s.when (x == 1 || x == 3 || x == 6) fun s => s.each (List.range 4) fun s c =>
    match (s.out t c).open_ with
    | some f => if f.src = i then s.setOut t c { s.out t c with extra := orBit (s.out t c).extra stDamaged } else s
    | none => s
  let s := s.when (x == 4) fun s => match (s.crs t i).taking with
    | some fid => s.crUpd t i fid fun f => { f with status := orBit f.status stDamaged }
    | none => s
  let s := s.when (x == 5) fun s => match (s.crs t i).writing with
    | some fid => s.crUpd t i fid fun f => { f with status := orBit f.status stDamaged, lost := true }
    | none => s
  if x = 7 ∨ x = 8 then (s.heXing t i x).hdXing t i else s

/-- A write of EVT_INJg (R479). -/
def State.inject (s : State) (t g mask : Nat) : State :=
  s.each (List.range 32) fun s b => s.when (bit mask b) fun s => s.raiseX t (32 * g + b) true

/-! ### Islands -/

/-- Show an island's power and clock as commanded (R12). -/
def State.showIslands (s : State) (t : Nat) : State :=
  let on := s.f t ISL_PWR_ON
  (s.setF t ISL_STAT_PGOOD on).setF t ISL_STAT_CLKOK on

/-- Switch the islands of a tile; CTL of T0 cannot be cleared (R11, R12). Seam ports go down with SEAM, links with LNK, and the
memory controller leaves its DRAM in self-refresh. -/
def State.setIslands (s : State) (t v : Nat) : State :=
  let v := (if t = 0 then orBit v 0 else v) % 256
  let off := fun i => s.island t i && !bit v i
  let on7 := !s.island t 7 && bit v 7
  let lnk := off 6
  let mem := off 5
  let seam := off 7
  let s := s.when seam fun s => s.each (List.range 4) fun s p => s.portDown t p
  let s := s.when lnk fun s => s.each [0, 1] fun s l => if s.linkState t l ≠ 0 then s.linkDown t l else s
  let s := s.when mem fun s => s.each (List.range 8) fun s c => s.selfRefresh t c false
  let s := (s.setF t ISL_PWR_ON v).showIslands t
  s.when on7 fun s => s.each (List.range 4) fun s p => s.portRestart t p

/-! ### Isolation -/

/-- Entries of a map that do not belong to tile t, where a tile takes b keys. -/
def dropT {α : Type} (b t : Nat) (m : SMap α) : SMap α := m.filter fun x => decide (x.1 / b ≠ t)

/-- Entries of a map keyed by `tk`. -/
def dropTk {α : Type} (t : Nat) (m : SMap α) : SMap α := dropT 0x100000 t m

/-- A register whose value outlives its tile's islands: the memory controller's, which firmware writes again from the board record,
and the correction log's count (R422, R490). -/
def keptReg (k : Nat) : Bool := decide (0x160000 ≤ k % 0x1000000) && decide (k % 0x1000000 < 0x1A0000)

/-- What a tile's data path holds is lost with its islands. -/
def State.wipePix (s : State) (t : Nat) : State :=
  { s with
    lanes := dropTk t s.lanes
    lpl := dropTk t s.lpl
    pins.lanes := dropTk t s.pins.lanes
    mags := dropT 1 t s.mags
    adit := { ports := dropTk t s.adit.ports, store := dropTk t s.adit.store, stripes := dropTk t s.adit.stripes, pieces := dropTk t s.adit.pieces, records := dropTk t s.adit.records
              reports := dropTk t s.adit.reports, leadLines := dropTk t s.adit.leadLines, spi := dropTk t s.adit.spi, i2c := dropTk t s.adit.i2c }
    pix.rawIn := dropTk t s.pix.rawIn
    pix.raw := dropTk t s.pix.raw
    pix.haloOut := dropTk t s.pix.haloOut
    pix.haloIn := dropTk t s.pix.haloIn
    pix.obOut := dropTk t s.pix.obOut
    pix.x2 := dropTk t s.pix.x2
    pix.dev := dropTk t s.pix.dev
    pix.x3 := dropTk t s.pix.x3
    pix.out := dropTk t s.pix.out
    pix.ranges := dropTk t s.pix.ranges
    pix.tap := dropTk t s.pix.tap
    pix.sdiFmt := dropTk t s.pix.sdiFmt
    pix.defBad := dropT 1 t s.pix.defBad
    pix.tables := dropT 0x2000000 t s.pix.tables }

/-- What a tile's other blocks hold is lost with its islands; DRAM, its error state and the correction log are kept. -/
def State.wipeCtl (s : State) (t : Nat) : State :=
  { s with
    regs := s.regs.filter fun x => decide (x.1 / 0x1000000 ≠ t) || keptReg x.1
    bench.units := dropTk t s.bench.units
    bench.bankFull := dropTk t s.bench.bankFull
    bench.marks := dropTk t s.bench.marks
    bench.defView := dropTk t s.bench.defView
    bench.busy := dropT 1024 t s.bench.busy
    bench.epochs := dropT 1 t s.bench.epochs
    core := { s.core with
      crews := dropTk t s.core.crews, tcm := dropTk t s.core.tcm, tcmPoison := dropTk t s.core.tcmPoison
      tcmParity := dropTk t s.core.tcmParity, dma := dropT 1 t s.core.dma, sysbound := dropT 1 t s.core.sysbound
      tileReset := smPut s.core.tileReset t s.now 0, ctlBusy := dropT 1 t s.core.ctlBusy }
    time.chans := dropTk t s.time.chans
    time.gey := dropTk t s.time.gey
    time.xtrig := dropTk t s.time.xtrig
    time.holdRaised := dropT 1 t s.time.holdRaised
    time.stamped := dropT 1 t s.time.stamped
    time.calAcc := dropT 1 t s.time.calAcc
    time.rttBusy := dropT 1 t s.time.rttBusy
    time.stamps := dropT 1 t s.time.stamps
    store := { s.store with
      streams := dropTk t s.store.streams, jobs := dropTk t s.store.jobs, before := dropTk t s.store.before
      burst := dropT 1 t s.store.burst, rings := dropT 1 t s.store.rings }
    hevc := { encIn := dropTk t s.hevc.encIn, enc := dropTk t s.hevc.enc, dec := dropTk t s.hevc.dec }
    seam.discard := dropT 64 t s.seam.discard
    seam.retraining := dropTk t s.seam.retraining
    evt.occ := dropT 512 t s.evt.occ
    evt.remote := dropT 4096 t s.evt.remote
    evt.latched := dropT 1 t s.evt.latched
    evt.heldOccs := s.evt.heldOccs.filter (·.tile ≠ t)
    evt.aborts := s.evt.aborts.filter (·.1 ≠ t)
    pwr.jobs := s.pwr.jobs.filter fun j => j.kind ≤ 4 || j.tile ≠ t }

/-- Packets of firmware traffic that stand at a tile are gone; a SEND among them learns that no route took it. -/
def State.dropPackets (s : State) (t : Nat) : State :=
  let l := s.seam.flight.filter (·.hop = t)
  let s := { s with seam.flight := s.seam.flight.filter (·.hop ≠ t) }
  s.each l fun s (x : SeamPkt) => match x.body with
    | .msg m => if m.srcTile = t then s else s.sendAck m 2
    | .fire _ => s

/-- Step 2 of isolation: DRAM into self-refresh, every island but AON off; requests that wait for a channel go with them (R488). -/
def State.tileOff (s : State) (t : Nat) : State :=
  let st := s.f t TILE_STATE_STATE
  let s := s.when (s.island t 5 && !s.time.clockLost) fun s => s.each (List.range 8) fun s c => s.selfRefresh t c false
  let s := s.each (List.range 8) fun s c => s.setMcChan t c { s.mcChan t c with waits := [] }
  let s := (s.wipePix t).wipeCtl t
  let s := (s.setF t TILE_STATE_STATE st).setF t ISL_PWR_ON 0
  (s.showIslands t).dropPackets t

/-- Undecided transactions with the tile as participant end STALE; decided ones no longer wait for it (R488). -/
def State.txnsIsolated (s : State) (t : Nat) : State :=
  s.each (List.range 16) fun s i =>
    let x := s.txn i
    if ¬ bit x.part t ∧ x.tile ≠ t then s
    else if x.state = 1 ∨ x.state = 2 then (if bit x.part t ∨ x.tile = t then s.txnNoSwap i 4 else s)
    else s.txnTryEnd i

/-- T0 has the tile as isolated: a tile that isolated itself is not yet. -/
def State.isoNoted (s : State) (t : Nat) : Bool := s.isolated t && bit (s.f 0 ISO_STAT_ISOLATED) t

/-- Isolation of a tile (R487 to R489): never of T0. -/
def State.isolate (s : State) (t id at_ : Nat) (host : Bool) : State :=
  if t = 0 ∨ ¬ s.has t ∨ s.isoNoted t then s
  else
    let s := (s.setF t TILE_STATE_STATE 2).epochAdvance
    let s := s.setReg 0 (ISO_CAUSE t) (id % 512 + at_ % 8 * 512 + b2n host * 4096)
    let s := s.setF 0 ISO_STAT_ISOLATED (orBit (s.f 0 ISO_STAT_ISOLATED) t)
    let s := s.raise 0 0
    let s := s.tileOff t
    let kept := (List.range 8).any fun c => s.f t (MCC_STAT_STATE c) = 3
    let s := s.when kept fun s => s.setF 0 ISO_STAT_DRAM_KEPT (orBit (s.f 0 ISO_STAT_DRAM_KEPT) t)
    let s := s.unroute t
    let s := s.each (s.tileList.filter fun h => !s.isolated h) fun s h => s.each (List.range 4) fun s c =>
      let s := s.asmDrain h c false 65536
      if s.hdOn h c ∧ (s.hdMembers h c).contains t then s.hdAbort h c else s
    let s := ((s.txnsIsolated t).takesIsolated t).magEndAll t 0x17
    s.burFreeze

/-- Isolations that the command's occurrences have called for (R487). -/
def State.isolateDue (s : State) : State :=
  let l := s.evt.isoDue
  let s := { s with evt.isoDue := [] }
  s.each l fun s d => s.isolate d.1 d.2.1 d.2.2.1 d.2.2.2

/-- TILE_HEARTBEAT_LOST (R487). -/
def State.heartbeatLost (s : State) (t : Nat) : State :=
  if t = 0 ∨ ¬ s.has t ∨ s.isoNoted t then s else (s.raise 0 2).isolate t 2 0 false

/-- TILE_SELF_ISOLATE: a tile without T0's heartbeat is isolated by step 2 alone; T0 takes none of its steps (R487). -/
def State.selfIsolate (s : State) (t : Nat) : State :=
  if t = 0 ∨ ¬ s.has t ∨ s.isolated t ∨ s.f t ISL_PWR_ON = 0 then s else (s.tileOff t).setF t TILE_STATE_STATE 2

/-- A write of ISO_CTL.ISOLATE (R487, R489). -/
def State.isoWrite (s : State) (mask : Nat) : State :=
  s.each ((List.range 8).filter fun t => t ≠ 0 && bit mask t) fun s t => s.isolate t 0 0 true

/-- A write of ISO_CTL.READMIT: the named tiles that are isolated are being readmitted (R490). -/
def State.readmitWrite (s : State) (mask : Nat) : State :=
  s.each ((List.range 8).filter fun t => t ≠ 0 && bit mask t && s.isolated t) fun s t =>
    s.setF 0 ISO_STAT_READMITTING (orBit (s.f 0 ISO_STAT_READMITTING) t)

/-- The DRAM of a tile comes back (R490 step 2). -/
def State.readmitDram (s : State) (mr4 : List (Nat × Bool × Bool)) (t : Nat) : State :=
  if bit (s.f 0 ISO_STAT_DRAM_KEPT) t then
    s.each (List.range 8) fun s c =>
      let m := mr4.getD c (2, false, false)
      s.selfRefreshExit t c m.1 m.2.1 m.2.2
  else
    s.each (List.range 8) fun s c =>
      if s.on t (MCC_CTL_EN c) then ((s.loseChannel t c).setMcChan t c {}).setF t (MCC_STAT_STATE c) 2 else s

/-- A readmission that fails at some step (R490). -/
def State.readmitFail (s : State) (t : Nat) : State :=
  let s := s.setF 0 ISO_STAT_READMITTING (clrBit (s.f 0 ISO_STAT_READMITTING) t)
  (s.setF 0 ISO_STAT_READMIT_FAIL (orBit (s.f 0 ISO_STAT_READMIT_FAIL) t)).raise 0 5

/-- TILE_READMIT: the whole readmission, or its failure (R490). -/
def State.readmit (s : State) (t : Nat) (ok : Bool) (mr4 : List (Nat × Bool × Bool)) : State :=
  if t = 0 ∨ ¬ s.has t ∨ ¬ s.isolated t ∨ s.time.clockLost then s
  else if ¬ ok then s.readmitFail t
  else
    let s := (s.setF t ISL_PWR_ON 0xFF).showIslands t
    let s := s.imgLoad t s.boot.img
    let s := s.setF 0 (BOOT_TILE_AUTH_STATE t) 1
    let s := s.readmitDram mr4 t
    let s := s.setF t TILE_STATE_STATE 1
    let s := s.each (List.range 4) fun s p =>
      let q := seamPartner s.member t p
      if s.island q.1 7 ∧ ¬ s.isolated q.1 then (s.setB t (SEAM_PORT_STAT_UP p) true).setB q.1 (SEAM_PORT_STAT_UP q.2) true else s
    let s := s.routeDefaults
    let s := (s.each (s.tileList.filter s.isolated) State.unroute).reroute
    let s := (s.setF t FOLLOW_STATE 1).raise t 262
    let s := s.epochAdvance
    let s := { s with bench.epochs := smPut s.bench.epochs t [] [] }
    let s := (s.setReg t EPOCH (s.reg 0 EPOCH)).raise t 303
    let s := s.sysCrews t s.boot.img
    let s := s.setF 0 ISO_STAT_READMITTING (clrBit (s.f 0 ISO_STAT_READMITTING) t)
    let s := s.setF 0 ISO_STAT_ISOLATED (clrBit (s.f 0 ISO_STAT_ISOLATED) t)
    let s := s.setF 0 ISO_STAT_DRAM_KEPT (clrBit (s.f 0 ISO_STAT_DRAM_KEPT) t)
    s.raise 0 1

end Sys2Proof.Machine
end

