-- ==== Sys2Proof/Machine/McOps.lean ====
section
/-!
DEFINITION. Commands of the memory controller and its integrity block beside requests (chapters 16 and 17): mode-register
commands, training, injection, a single read, an idle page.
-/

namespace Sys2Proof.Machine

/-- A write of MRCMD (R406): the fields, then START; OP 3 is reserved. -/
def State.mrcmdWrite (s : State) (t c v : Nat) : State :=
  let s := s.when (bits v 0 2 ≠ 3) fun s => s.setF t (MCC_MRCMD_OP c) (bits v 0 2)
  let s := s.setF t (MCC_MRCMD_RANK c) (bits v 2 1)
  let s := s.setF t (MCC_MRCMD_MA c) (bits v 3 7)
  let s := s.setF t (MCC_MRCMD_DATA c) (bits v 10 8)
  if bit v 18 then { s.setB t (MCC_MRCMD_DONE c) false with mem.mrBusy := smPut s.mem.mrBusy (tk t c) true false } else s

/-- The command ends: DONE, and for MRR the byte read (R406). -/
def State.mrcmdDone (s : State) (t c data : Nat) : State :=
  if smGet s.mem.mrBusy (tk t c) false then
    let s := { s with mem.mrBusy := smPut s.mem.mrBusy (tk t c) false false }
    let s := s.when (s.f t (MCC_MRCMD_OP c) == 1) fun s => s.setF t (MCC_MRDATA_DATA c) (data % 256)
    s.setB t (MCC_MRCMD_DONE c) true
  else s

/-- A write of TRAIN_CTL (R406): the fields, then START, which clears DONE and the error counts. -/
def State.trainWrite (s : State) (t c v : Nat) : State :=
  let s := s.when (bits v 0 2 ≠ 3) fun s => s.setF t (MCC_TRAIN_CTL_MODE c) (bits v 0 2)
  let s := s.when (bits v 2 2 ≠ 3) fun s => s.setF t (MCC_TRAIN_CTL_PAT c) (bits v 2 2)
  let s := s.setF t (MCC_TRAIN_CTL_RANK c) (bits v 4 1)
  let s := s.when (bits v 16 16 ≠ 0) fun s => s.setF t (MCC_TRAIN_CTL_BURSTS c) (bits v 16 16)
  if bit v 5 then
    let s := s.each (List.range 18) fun s k => s.setReg t (MCC_TRAIN_ERR c k) 0
    { s.setB t (MCC_TRAIN_CTL_DONE c) false with mem.trBusy := smPut s.mem.trBusy (tk t c) true false }
  else s

/-- A training run ends on a channel in INIT, with the errors of each bit (R406). -/
def State.trainDone (s : State) (t c : Nat) (errs : List Nat) : State :=
  if smGet s.mem.trBusy (tk t c) false ∧ s.f t (MCC_STAT_STATE c) = 1 then
    let s := { s with mem.trBusy := smPut s.mem.trBusy (tk t c) false false }
    let s := s.each (List.range 18) fun s k => s.setReg t (MCC_TRAIN_ERR c k) (min 65535 (errs.getD k 0))
    (s.setB t (MCC_TRAIN_CTL_DONE c) true).raise t 232
  else s

/-- A write of CTL (R388, R409): EN, then FAIL. -/
def State.mccCtlWrite (s : State) (t c v : Nat) : State :=
  let s := s.mcEnable t c (bit v 0)
  s.when (bit v 1) fun s => s.mcFail t c

/-- A write of a timing word (R397): ignored with CFG_ERR while the channel is enabled. -/
def State.timingWrite (s : State) (t c off v : Nat) : State :=
  if s.on t (MCC_CTL_EN c) then (s.setB t (MCC_STAT_CFG_ERR c) true).raise t 233 else s.setReg t off v

/-- A write of INJ_CTL: the settings, then ARM (R425). -/
def State.injWrite (s : State) (t v : Nat) : State :=
  let s := s.setF t INJ_CTL_KIND (bits v 0 2)
  let s := s.setF t INJ_CTL_WORD (bits v 2 3)
  let s := s.when (bits v 5 7 ≤ 71) fun s => s.setF t INJ_CTL_BIT0 (bits v 5 7)
  let s := s.when (bits v 12 7 ≤ 71) fun s => s.setF t INJ_CTL_BIT1 (bits v 12 7)
  s.when (bit v 19) fun s => s.setB t INJ_CTL_ARMED true

/-- A write of SRAM_INJ: the store, then ARM (R425). -/
def State.sramInjWrite (s : State) (t v : Nat) : State :=
  let s := s.setF t SRAM_INJ_SRAM (bits v 0 4)
  s.when (bit v 4) fun s => s.setB t SRAM_INJ_ARMED true

/-- PAGE_IDLE MEM cycles have passed with no access to a bank (R396). -/
def State.pageReady (s : State) (t c bank : Nat) : Bool :=
  decide (3 * s.f t (MCC_PAGE_PAGE_IDLE c) ≤ 4 * (s.now + 1 - smGet (s.mcChan t c).used bank 0))

/-- PAGE_IDLE cycles without access close a bank's row (R396). -/
def State.pageIdle (s : State) (t c bank : Nat) : State :=
  let x := s.mcChan t c
  if s.pageReady t c bank then s.setMcChan t c { x with openRows := smDel bank x.openRows } else s

/-- A read of one word by a port (R413, R421); a FAILED channel answers with poison and touches nothing (R409). -/
def State.readDecode (s : State) (t a port : Nat) : State :=
  if s.dramSize t ≤ a ∨ s.failedAt t a then s else (s.readWord t a port false).1

end Sys2Proof.Machine
end

