-- ==== Sys2Proof/Machine/RegBus.lean ====
section
/-!
DEFINITION. The register bus (chapters 0, 1, 2 and 24): which accesses reach a block, who may make them, what a write does beside
storing its fields, what a read gives, the pairs of R8.
-/

namespace Sys2Proof.Machine

/-- How an access ends. `grant` is a unit outside a crew's CREWc_GRANT, `doomed` a write of a doomed transaction. -/
inductive BusEnd where
  | ok | absent | isolated | dark | denied | busy | grant | doomed | closed
  deriving DecidableEq, Repr

/-- The island a block lives in (R12). -/
def blockIsland (off : Nat) : Nat :=
  if off < 0x40000 then 0 else if off < 0x60000 then 6 else if off < 0xE0000 then 1 else if off < 0xF0000 then 4
  else if off < 0x100000 then 0 else if off < 0x140000 then 2 else if off < 0x160000 then 6 else if off < 0x1A0000 then 5
  else if off < 0x200000 then 0 else if off < 0x220000 then 7 else if off < 0x400000 then 0 else 1

/-- Whether an access reaches the block (R12, R10, R364). -/
def State.busGate (s : State) (t off : Nat) : BusEnd :=
  if !s.has t then .absent
  else if s.isolated t then .isolated
  else if !s.island t (blockIsland off) then .dark
  else .ok

/-- The accessor is an application crew (R49). -/
def appCrew (who : Who) : Bool := who != 0 && !sysWho who

/-- An application crew may touch a unit: its bit of CREWc_GRANT is set; others always may (R49). -/
def State.granted (s : State) (who : Who) (u : Nat) : Bool :=
  !appCrew who || bit (s.reg ((who - 1) / 8) (CREW_GRANT ((who - 1) % 8))) u

/-- Unit whose UNITu_CTL or UNITu_SEQ lies at an offset. -/
def unitCtlAt (off : Nat) : Option Nat :=
  if 0x1E0100 ≤ off ∧ off < 0x1E0420 ∧ off % 0x20 < 8 then some ((off - 0x1E0100) / 0x20) else none

/-- What R49, R12, R105 and R469 deny an application crew; the host needs debug unlock for SEC and BOOT (R381). -/
def State.denies (s : State) (who : Who) (t off : Nat) (wr : Bool) : BusEnd :=
  let secret : Bool := t == 0 && decide (0x240000 ≤ off) && decide (off < 0x260000)
  if who = 0 then (if secret && !(s.on 0 SEC_STAT_DEBUG_UNLOCKED && bit (s.f 0 SEC_PERMS_PERMS) 1) then .denied else .ok)
  else if !appCrew who then .ok
  else if secret || off == THERM_SHDN then .denied
  else if !wr then .ok
  else if off = ISL_PWR then .denied
  else if 0x30000 ≤ off ∧ off < 0x30100 ∧ (0x38 ≤ off % 0x40 ∨ off < 0x30040 ∧ (off % 0x40 = 0x10 ∨ off % 0x40 = 0x14)) then .denied
  else if 0x1E0000 ≤ off ∧ off < 0x200000 then
    match unitCtlAt off with
    | some u => if s.granted who u then .ok else .grant
    | none => .denied
  else .ok

/-! ### Which register an offset names -/

/-- The tile whose word an offset names: LC0 is the master's on every tile (chapter 4; that a write on T1 to T7 reaches it is DEDUCED,
log 88). -/
def homeTile (t off : Nat) : Nat := if 0x30140 ≤ off ∧ off < 0x30168 then 0 else t

/-- Registers that are reserved on some tiles or lanes although their row covers them: servo registers of TC0 (chapter 4), link 0
and PL_PSTATE off T0 (R545). -/
def regHole (t off : Nat) : Bool :=
  (decide (0x30018 ≤ off) && decide (off < 0x30034)) ||
  (t != 0 && ((decide (0x140000 ≤ off) && decide (off < 0x140400)) || decide (off = 0x140800) ||
    (decide (0x220000 ≤ off) && decide (off < 0x260000))))

/-- The register of a tile at an offset, if one lies there (R543, R545). -/
def regAt (t off : Nat) : Option RegDef :=
  if off % 4 ≠ 0 ∨ regHole t off then none
  else match regDef? off with
    | some d => if d.t0 && t != 0 then none else some d
    | none => none

/-- A value lies in the range that a field states (R7). -/
def Lim.holds (l : Lim) (v : Nat) : Bool :=
  match l with
  | .any => true
  | .le n => decide (v ≤ n)
  | .range lo hi => decide (lo ≤ v) && decide (v ≤ hi)
  | .mult n => v % n == 0
  | .ne n => v != n
  | .zeroOrGe n => v == 0 || decide (n ≤ v)
  | .step n lo hi => v % n == 0 && decide (lo ≤ v) && decide (v ≤ hi)
  | .zeroOrStep n lo hi => v == 0 || v % n == 0 && decide (lo ≤ v) && decide (v ≤ hi)

/-- One field of a write by its access type (R6, R7). -/
def fieldWrite (v old : Nat) (x : RegField) : Nat :=
  let n := bits v x.lo x.w
  match x.acc with
  | .rw => if x.lim.holds n then setBits old x.lo x.w n else old
  | .w1c => setBits old x.lo x.w (bits old x.lo x.w &&& (2 ^ x.w - 1 - n))
  | .rwb => setBits old x.lo x.w n
  | _ => old

/-- A field of a register array exists at an offset: GYg_CTL.ACT_PDM only on T0 (R122), LANE_TXEQ only on the lanes that have a
transmitter, L16 to L23 (R127), FOLLOW.ROUTE_LAT not on T0; elsewhere they are RSV. -/
def hasField (t off : Nat) (x : RegField) : Bool :=
  let actPdm : Bool := t != 0 && x.lo == 17 && decide (GY_CTL 0 ≤ off) && decide (off < GY_CTL 32) && off % 0x40 == 0
  let txeq : Bool := decide (LANE_TXEQ 0 ≤ off) && decide (off < LANE_TXEQ 16) && (off - LANE_TXEQ 0) % 0x800 == 0
  let follow : Bool := t == 0 && off == FOLLOW && x.lo == 0
  !(actPdm || txeq || follow)

/-- A write of a register with no behaviour of its own (R6, R7). -/
def State.regStore (s : State) (t off v : Nat) : State :=
  match regAt t off with
  | none => s
  | some d => s.setReg t off ((d.fields.filter (hasField t off)).foldl (fieldWrite v) (s.reg t off))

/-- What fields of a register show: reserved and write-only bits read as 0 (R6). -/
def readMask (fs : List RegField) : Nat :=
  fs.foldl (fun m x => match x.acc with
    | .rw | .ro | .w1c | .w1s | .rwb => m ||| (2 ^ x.w - 1) <<< x.lo
    | _ => m) 0

/-! ### What a write does beside storing its fields -/

/-- An action of a register array: first offset, stride, count, whether the action also stores, and the action on register i. -/
structure Hook where
  base : Nat
  stride : Nat
  count : Nat
  own : Bool
  act : Nat → State → State

/-- The entry of a list of actions that an offset names, with its index. -/
def hookAt (l : List Hook) (off : Nat) : Option (Hook × Nat) :=
  l.findSome? fun h =>
    if h.base ≤ off ∧ (off - h.base) % h.stride = 0 ∧ (off - h.base) / h.stride < h.count then some (h, (off - h.base) / h.stride) else none

/-- A write of GYg_CTL: the settings, then ARM, then DISARM (R121). -/
def State.geyCtl (s : State) (t g v : Nat) : State :=
  s.geyChange t g fun s =>
    let s := s.regStore t (GY_CTL g) v
    let s := s.when (bit v 0) fun s => s.geyArm t g
    s.when (bit v 1) fun s => s.geyDisarm t g

/-- A write of TCn_INC_HI (R105, R106): the host may not move TC0. -/
def State.incWrite (s : State) (t n : Nat) (who : Who) (inc : Nat) : State :=
  if who = 0 ∧ n = 0 then s else (s.requestInc t n inc).1

/-- A write of TCn_STEP_HI (R105, R107): the host makes no step this way. -/
def State.stepWrite (s : State) (t n : Nat) (who : Who) : State :=
  if who = 0 then s else (s.requestStep t n (sx 64 (s.reg64 t (TC_STEP_LO n)))).1

/-- A write of EVT_CFGi: a severity below FATAL for a source that resets to FATAL is refused (R476, R7). -/
def State.evtCfgWrite (s : State) (t i v : Nat) : State :=
  let v := if evtSev t i = 3 ∧ bits v 0 2 < 3 then setBits v 0 2 (s.f t (EVT_CFG_SEV i)) else v
  s.regStore t (EVT_CFG i) v

/-- TIME, EVT and SPOIL. -/
def hooksCtl (t v : Nat) (who : Who) : List Hook := [
  ⟨ISL_PWR, 4, 1, true, fun _ s => s.setIslands t (v % 256)⟩,
  ⟨UABORT_REQ, 4, 1, true, fun _ s => s.uabortWrite t who v⟩,
  ⟨EVT_STAT 0, 4, 10, true, fun g s => s.clearStats t g v⟩,
  ⟨EVT_INJ 0, 4, 10, true, fun g s => s.inject t g v⟩,
  ⟨EVT_CFG 0, 4, 320, true, fun i s => s.evtCfgWrite t i v⟩,
  ⟨EVT_CNT 0, 4, 320, true, fun i s => s.when (bit v 9) fun s => s.setF t (EVT_CNT_COUNT i) 0⟩,
  ⟨SPOIL_ROOT, 4, 1, true, fun _ s => s.when (bit v 16) fun s => s.clearRoot t⟩,
  ⟨ISO_CTL, 4, 1, true, fun _ s => if t ≠ 0 || appCrew who then s else (s.isoWrite (bits v 0 8)).readmitWrite (bits v 8 8)⟩,
  ⟨TC_INC_HI 0, 0x40, 4, true, fun n s => s.incWrite t n who (bits v 0 4 * 2 ^ 32 + s.reg t (TC_INC_LO n))⟩,
  ⟨TC_STEP_HI 0, 0x40, 4, false, fun n s => s.stepWrite t n who⟩,
  ⟨TC_OFS_HI 0, 0x40, 4, true, fun n s => s.when (t == 0) fun s => s.ofsWrite n v⟩,
  ⟨FOLLOW, 4, 1, true, fun _ s => (s.routeLatWrite t (bits v 0 12)).geyJudge t fun _ => true⟩,
  ⟨TIME_RTT, 4, 1, true, fun _ s => s.when (bit v 0) fun s =>
    { s.setB t TIME_RTT_DONE false with time.rttBusy := smPut s.time.rttBusy t true false }⟩,
  ⟨CLKSUP, 4, 1, true, fun _ s => s.when (bit v 16) fun s => s.setF t CLKSUP_GLITCHES 0⟩,
  ⟨LC0_OFS_2, 4, 1, false, fun _ s => s.lcOfsApply⟩,
  ⟨LC0_RATE_HI, 4, 1, false, fun _ s => s.lcRateApply⟩,
  ⟨TC_SERVO 0, 0x40, 4, false, fun _ s => s.freezeServos⟩,
  ⟨CAP_CTL 0, 0x20, 6, true, fun k s => s.capCtlWrite k fun s => s.regStore t (CAP_CTL k) v⟩,
  ⟨GY_CTL 0, 0x40, 32, true, fun g s => s.geyCtl t g v⟩,
  ⟨GY_TGT_HI 0, 0x40, 32, true, fun g s => s.geyTarget t g v⟩,
  ⟨GY_STAT 0, 0x40, 32, false, fun g s => s.when (bit v 1) fun s => s.setF t (GY_STAT_MISSED g) 0⟩]

/-- A byte for a sensor-control FIFO (R179, R180). -/
def State.spiPush (s : State) (t p v : Nat) : State := s.setSpiQ t p { s.spiQ t p with tx := fifoPush (s.spiQ t p).tx (v % 256) }
def State.i2cPush (s : State) (t p v : Nat) : State := s.setI2cQ t p { s.i2cQ t p with tx := fifoPush (s.i2cQ t p).tx (v % 256) }

/-- LANE and ADIT. -/
def hooksLane (t off v : Nat) : List Hook := [
  ⟨LANE_CTL 0, 0x800, 24, true, fun l s => s.laneCtlWrite t l v⟩,
  ⟨LANE_RATE 0, 0x800, 24, true, fun l s => s.laneRateWrite t l v⟩,
  ⟨LANE_TXEQ 0, 0x800, 24, true, fun l s => s.laneTxeqWrite t l v⟩,
  ⟨LANE_ALIGN 0, 0x800, 24, true, fun l s => s.laneAlignWrite t l v⟩,
  ⟨LANE_TEST 0, 0x800, 24, true, fun l s => s.laneTestWrite t l v⟩,
  ⟨EYE_CTL 0, 0x800, 24, true, fun l s => s.eyeCtlWrite t l v⟩,
  ⟨AD_CTL 0, 0x100, 4, true, fun p s => s.adEnable t p (bit v 0)⟩,
  ⟨SPI_CMD 0, 0x40, 4, true, fun p s =>
    if s.on t (SPI_STAT_BUSY p) then s else if bit v 8 then s.spiStart t p v else s.regStore t off v⟩,
  ⟨SPI_DATA 0, 0x40, 4, true, fun p s => s.spiPush t p v⟩,
  ⟨I2C_CMD 0, 0x40, 4, true, fun p s =>
    if s.on t (I2C_STAT_BUSY p) then s else if bit v 23 then s.i2cStart t p v else s.regStore t off v⟩,
  ⟨I2C_DATA 0, 0x40, 4, true, fun p s => s.i2cPush t p v⟩]

/-- CSs_CMD: APPEND, RESUME, CANCEL. -/
def State.csCmd (s : State) (t k v : Nat) : State :=
  let s := s.when (bit v 0) fun s => s.crAppend t k
  let s := s.when (bit v 1) fun s => s.crResume t k
  s.when (bit v 2) fun s => s.crCancel t k

/-- CJj_CTL: the job's fields, then its commands. -/
def State.cjCtl (s : State) (t j off v : Nat) : State :=
  let s := s.regStore t off v
  let s := s.when (bit v 0) fun s => s.cjStart t j
  let s := s.when (bit v 1) fun s => s.cjSuspend t j
  let s := s.when (bit v 2) fun s => s.cjResume t j
  s.when (bit v 3) fun s => s.cjCancel t j

/-- HEc_CMD. -/
def State.heCmd (s : State) (t c v : Nat) : State :=
  let s := s.when (bit v 0) fun s => s.heForce t c
  let s := s.when (bit v 1) fun s => s.heStart t c
  let s := s.when (bit v 2) fun s => s.heSuspend t c
  let s := s.when (bit v 3) fun s => s.heResume t c
  s.when (bit v 4) fun s => s.heCancel t c

/-- HDc_CMD. -/
def State.hdCmd (s : State) (t c v : Nat) : State :=
  let s := s.when (bit v 0) fun s => s.hdStart t c
  let s := s.when (bit v 1) fun s => s.hdSuspend t c
  let s := s.when (bit v 2) fun s => s.hdResume t c
  let s := s.when (bit v 3) fun s => s.hdCancel t c
  let s := s.when (bit v 4) fun s => s.hdRestart t c
  s.when (bit v 5) fun s => s.hdFinal t c

/-- BS_CMD: TRIGGER on T0, RELEASE. -/
def State.bsCmd (s : State) (t v : Nat) : State :=
  let s := s.when (t == 0 && bit v 0) fun s => s.bsTrigger
  s.when (bit v 1) fun s => s.bsRelease t

/-- PLk_CTL: settings, EN, RETRAIN, RESET (R326, R333, R349). LANE_BASE of link 0 is fixed; link 1 has one or two lanes. -/
def State.plCtl (s : State) (t l v : Nat) : State :=
  let s := s.setB t (PL_CTL_IDLE_EN l) (bit v 3)
  let s := s.when (l ≠ 0) fun s => s.setF t (PL_CTL_LANE_BASE l) (bits v 4 3)
  let w := bits v 7 2
  let s := s.when (w ≠ 3 && (l = 0 || w ≠ 0)) fun s => s.setF t (PL_CTL_WIDTH_MAX l) w
  let s := s.linkEnable t l (bit v 0)
  let s := s.when (bit v 1) fun s => s.retrainWrite t l
  s.when (bit v 2) fun s => s.resetWrite t l

/-- CRUSH, REC, HEVC and PLINK. -/
def hooksMid (t off v : Nat) : List Hook := [
  ⟨CS_CMD 0, 0x40, 4, true, fun k s => s.csCmd t k v⟩,
  ⟨CJ_CTL 0, 0x80, 4, true, fun j s => s.cjCtl t j off v⟩,
  ⟨BS_CMD, 4, 1, true, fun _ s => s.bsCmd t v⟩,
  ⟨HE_CMD 0, 0x40, 4, true, fun c s => s.heCmd t c v⟩,
  ⟨HD_CMD 0, 0x40, 4, true, fun c s => s.hdCmd t c v⟩,
  ⟨HD_IN_END_HI 0, 0x40, 4, true, fun c s => s.hdInEnd t c v⟩,
  ⟨HD_OUT_ACK 0, 0x40, 4, true, fun c s => s.hdAck t c (v % 512)⟩,
  ⟨PL_CTL 0, 0x400, 2, true, fun l s => s.plCtl t l v⟩]

/-- A write of MC_CFG: a combination that R388 does not list sets CFG_ERR. -/
def State.mcCfgWrite (s : State) (t v : Nat) : State :=
  let s := s.regStore t MC_CFG v
  if s.dramSize t = 0 then (s.setB t MC_CFG_CFG_ERR true).raise t 233 else s

/-- A write of MC_ROWMAP: one whose XMASK holds bit XSEL is ignored with CFG_ERR on every channel (R404). -/
def State.rowMapWrite (s : State) (t v : Nat) : State :=
  if bits v 16 5 < 16 ∧ bit v (bits v 16 5) then
    (s.each (List.range 8) fun s c => s.setB t (MCC_STAT_CFG_ERR c) true).raise t 233
  else s.regStore t MC_ROWMAP v

/-- A limit of THERM_CFG may not be raised above its reset value. -/
def State.thermCfgWrite (s : State) (t v : Nat) : State :=
  let r := resetReg s.member s.grade t THERM_CFG
  let le := fun lo w => sx w (bits v lo w) ≤ sx w (bits r lo w)
  let s := s.when (le 0 16) fun s => s.setReg t THERM_CFG (setBits (s.reg t THERM_CFG) 0 16 v)
  s.when (le 16 16) fun s => s.setReg t THERM_CFG (setBits (s.reg t THERM_CFG) 16 16 (v / 65536))

/-- THERM_SHDN: ARM, then FIRE (R469). -/
def State.shdnWrite (s : State) (v : Nat) : State :=
  let s := s.when (bit v 0) fun s => s.shdnArm
  s.when (bit v 1) fun s => s.shdnFire

/-- MC, INTEG, THERM, CREW, BENCH, SEAM. -/
def hooksMem (t off v : Nat) (who : Who) : List Hook := [
  ⟨MC_CFG, 4, 1, true, fun _ s => s.mcCfgWrite t v⟩,
  ⟨MC_ROWMAP, 4, 1, true, fun _ s => s.rowMapWrite t v⟩,
  ⟨MC_PORT_PANIC 0, 0x10, 15, true, fun p s => if rtPort p then s.regStore t off v else s⟩,
  ⟨MCC_CTL 0, 0x400, 8, true, fun c s => s.mccCtlWrite t c v⟩,
  ⟨MCC_TIMING0 0, 0x400, 8, true, fun c s => s.timingWrite t c off v⟩,
  ⟨MCC_TIMING1 0, 0x400, 8, true, fun c s => s.timingWrite t c off v⟩,
  ⟨MCC_TIMING2 0, 0x400, 8, true, fun c s => s.timingWrite t c off v⟩,
  ⟨MCC_TIMING3 0, 0x400, 8, true, fun c s => s.timingWrite t c off (v &&& 0x0FFFFFFF)⟩,
  ⟨MCC_REFI 0, 0x400, 8, true, fun c s => s.timingWrite t c off (v % 65536)⟩,
  ⟨MCC_MRCMD 0, 0x400, 8, true, fun c s => s.mrcmdWrite t c v⟩,
  ⟨MCC_TRAIN_CTL 0, 0x400, 8, true, fun c s => s.trainWrite t c v⟩,
  ⟨INTEG_STAT, 4, 1, true, fun _ s => s.when (bit v 7) fun s => s.logClear t⟩,
  ⟨INJ_CTL, 4, 1, true, fun _ s => s.injWrite t v⟩,
  ⟨SRAM_INJ, 4, 1, true, fun _ s => s.sramInjWrite t v⟩,
  ⟨THERM_CFG, 4, 1, true, fun _ s => s.thermCfgWrite t v⟩,
  ⟨PLIM_HOST, 4, 1, false, fun _ s => s.plimUpdate⟩,
  ⟨THERM_SHDN, 4, 1, true, fun _ s => s.shdnWrite v⟩,
  ⟨CREW_GRANT 0, 0x40, 8, true, fun _ s => if appCrew who then s else s.regStore t off v⟩,
  ⟨EPOCH_CTL, 4, 1, true, fun _ s => s.when (t == 0 && bit v 0) fun s => s.epochAdvance⟩,
  ⟨UNIT_CTL 0, 0x20, 25, true, fun u s => s.unitCtlWrite t u v who⟩,
  ⟨SEAM_PORT_CTL 0, 4, 4, true, fun p s => s.when (bit v 0) fun s => s.portRestart t p⟩]

/-- CMPk_CTL: the settings, then DISARM, then ARM; LINE and COND keep their values when reserved (R7). -/
def State.cmpCtlWrite (s : State) (c k off v : Nat) : State :=
  let s := s.regStore 0 off v
  let s := s.when (bit v 1) fun s => s.cmpDisarm c k
  s.when (bit v 0) fun s => s.cmpArm c k

/-- POS and AUDIO. SPD_LO stays below SPD_HI (R435); IDX_EXP is held to be below IDX_N as it stands at the write (R7; DEDUCED, log
87). -/
def hooksPos (off v : Nat) : List Hook := [
  ⟨PC_CTL 0, 0x400, 4, true, fun c s => s.posCtlWrite c v⟩,
  ⟨PC_SPD_HI_T 0, 0x400, 4, true, fun c s => s.when (decide (s.reg 0 (PC_SPD_LO_T c) < v)) fun s => s.regStore 0 off v⟩,
  ⟨PC_SPD_LO_T 0, 0x400, 4, true, fun c s => s.when (decide (v < s.reg 0 (PC_SPD_HI_T c))) fun s => s.regStore 0 off v⟩,
  ⟨PC_IDX_EXP 0, 0x400, 4, true, fun c s => s.when (decide (v < s.reg 0 (PC_IDX_N c))) fun s => s.regStore 0 off v⟩,
  ⟨AUD_CTL, 4, 1, true, fun _ s => s.audCtlWrite v⟩,
  ⟨AUD_MASK, 4, 1, true, fun _ s => s.audMask (v % 65536)⟩,
  ⟨AUD_BASE_LO 0, 0x20, 16, true, fun _ s => s.when (v % 64 == 0) fun s => s.audCfgWrite off v⟩,
  ⟨AUD_BASE_HI 0, 0x20, 16, true, fun _ s => s.audCfgWrite off v⟩,
  ⟨AUD_NBLK 0, 0x20, 16, true, fun _ s => s.audCfgWrite off (v % 65536)⟩]

/-- Compares of a position channel, on its page. -/
def cmpHook (off v : Nat) (s : State) : Option State :=
  let c := (off - 0x220000) / 0x400
  let r := off % 0x400
  if 0x220000 ≤ off ∧ c < 4 ∧ 0x100 ≤ r ∧ r < 0x200 then
    let k := (r - 0x100) / 0x20
    if r % 0x20 = 0 then some (s.cmpCtlWrite c k off v)
    else if r % 0x20 = 8 then some (s.cmpTarget c k v)
    else none
  else none

/-- The actions of the block that holds an offset. -/
def hooksOf (t off v : Nat) (who : Who) : List Hook :=
  if off < 0x40000 then hooksCtl t v who
  else if off < 0x80000 then hooksLane t off v
  else if off < 0x160000 then hooksMid t off v
  else if off < 0x220000 then hooksMem t off v who
  else hooksPos off v

/-- A write to a register that is not bench-backed takes effect (R36). -/
def State.regEffect (s : State) (who : Who) (t off v : Nat) : State :=
  if regAt t off = none then s
  else match cmpHook off v s with
    | some s' => s'
    | none =>
      match hookAt (hooksOf t off v who) off with
      | some (h, i) => if h.own then h.act i s else h.act i (s.regStore t off v)
      | none => s.regStore t off v

/-! ### Pairs (R8) -/

/-- Low halves of writable pairs that are not bench-backed: base, stride, count. -/
def heldPairs : List (Nat × Nat × Nat) := [
  (TC_INC_LO 0, 0x40, 4), (TC_BASE_LO 0, 0x40, 4), (TC_OFS_LO 0, 0x40, 4), (TC_STEP_LO 0, 0x40, 4), (LC0_RATE_LO, 4, 1),
  (CAP_PER_LO 0, 0x20, 6), (GY_TGT_LO 0, 0x40, 32), (GY_PER_FRAC 0, 0x40, 32), (CS_APPEND_LO 0, 0x40, 4), (CJ_CHAIN_LO 0, 0x80, 4),
  (CJ_FRM_LO 0, 0x80, 4), (HD_IN_END_LO 0, 0x40, 4), (MCC_TRAIN_PAT_LO 0, 0x400, 8), (INJ_ADDR_LO, 4, 1), (PC_POS_LO 0, 0x400, 4),
  (CMP_TGT_LO 0 0, 0x20, 8), (CMP_TGT_LO 1 0, 0x20, 8), (CMP_TGT_LO 2 0, 0x20, 8), (CMP_TGT_LO 3 0, 0x20, 8), (LM_BASE_LO 0, 0x20, 8),
  (AUD_BASE_LO 0, 0x20, 16)]

/-- Low halves of other pairs, and first words of records whose read snapshots what follows: base, stride, count, words after. -/
def snapSets : List (Nat × Nat × Nat × Nat) := [
  (SPOIL_ROOT, 4, 1, 4), (SPOIL_ROOT_T_LO, 4, 1, 1), (TC_FRAC 0, 0x40, 4, 3), (TC_SEC_LO 0, 0x40, 4, 1), (LC0_TICK_LO, 4, 1, 1),
  (LC0_VAL_LO, 4, 1, 1), (CAP_FRAC 0, 0x20, 6, 3), (CAP_SEC_LO 0, 0x20, 6, 1), (EYE_ERR_LO 0, 0x800, 24, 1), (AD_EMB_LO 0, 0x100, 4, 1),
  (ADIT_FSTAT 0, 0x40, 4, 8), (ADIT_FTS_LO 0, 0x40, 4, 1), (RC_POSA_LO 0, 0x80, 4, 1), (RC_DTHR_LO 0, 0x80, 4, 1),
  (RC_SBASE_LO 0, 0x80, 4, 1), (RC_FCNT 0, 0x40, 4, 9), (RC_DIFF_LO 0, 0x40, 4, 1), (DV_FCNT 0, 0x10000, 2, 2), (OC_HP0_LO 0, 0x100, 4, 1),
  (OC_VP0_LO 0, 0x100, 4, 1), (OC_FS_LO 0, 0x100, 4, 1), (OC_OFCNT 0, 0x40, 4, 5), (CS_FREC_LO 0, 0x40, 4, 1), (TK_START_LO 0, 0x20, 8, 1),
  (REC_STG_LO, 4, 1, 1), (BS_BASE_LO, 4, 1, 1), (BS_TTIME_LO, 4, 1, 1), (HE_AU_LO 0, 0x100, 4, 1), (HE_IN_LO 0, 0x100, 4, 1),
  (HE_POOL_LO 0, 0x100, 4, 1), (HE_FCNT 0, 0x40, 4, 2), (HD_IN_LO 0, 0x100, 4, 1), (HD_POOL_LO 0, 0x100, 4, 1), (HD_OUT_LO 0, 0x100, 4, 1),
  (HD_REC_LO 0, 0x100, 4, 1), (HD_ERR 0, 0x40, 4, 5), (HD_ERR_OFS_LO 0, 0x40, 4, 1), (PL1_ASYNC 0, 4, 1, 3), (INTEG_LAST_UE_LO, 4, 1, 2),
  (CREW_PEND_LO 0, 0x40, 8, 1), (PC_SPD_LO 0, 0x400, 4, 1), (CMP_CAP_LO 0 0, 0x20, 8, 1), (CMP_CAP_LO 1 0, 0x20, 8, 1),
  (CMP_CAP_LO 2 0, 0x20, 8, 1), (CMP_CAP_LO 3 0, 0x20, 8, 1), (AUD_TS_LO, 4, 1, 1)]

def arrHas (off base st n : Nat) : Bool := decide (base ≤ off) && (off - base) % st == 0 && decide ((off - base) / st < n)

/-- The offset is the low half of a pair whose writes are held. -/
def heldLo (off : Nat) : Bool := heldPairs.any fun p => arrHas off p.1 p.2.1 p.2.2

/-- How many following words a read of an offset snapshots. -/
def snapCount (off : Nat) : Nat :=
  if heldLo off then 1
  else
    let o := (mirrorOf off).getD off
    match snapSets.find? fun p => arrHas o p.1 p.2.1 p.2.2.1 with
    | some p => p.2.2.2
    | none => 0

/-- The offset is the low half of a 64-bit pair, which LD and SD may name (R66). -/
def pairLo (off : Nat) : Bool :=
  heldLo off || (let o := (mirrorOf off).getD off
    snapSets.any fun p => arrHas o p.1 p.2.1 p.2.2.1 && (p.2.2.2 == 1 || p.1 == INTEG_LAST_UE_LO))

/-- Key of an accessor's snapshot. -/
def snapKey (who : Who) (t off : Nat) : Nat := (who * 8 + t) * 0x1000000 + off

/-- The low half that has been written on a tile and that waits for its high half, whoever wrote it (R8, R544). -/
def State.heldHalf (s : State) (t off : Nat) : Option Nat := (smLook s.held (t * 0x1000000 + off)).map (·.toNat)

/-- The host's writes of TC0_INC and of TCn_STEP are ignored (R105). -/
def hostIgnored (off : Nat) : Bool :=
  off == TC_INC_LO 0 || off == TC_INC_HI 0 || arrHas off (TC_STEP_LO 0) 0x40 4 || arrHas off (TC_STEP_HI 0) 0x40 4

/-- Both halves of a pair take effect together (R8). A period that CAP5 does not accept is refused (R113). -/
def State.pairWrite (s : State) (who : Who) (t lo vlo vhi : Nat) : State :=
  if 0x220000 ≤ lo ∧ arrHas lo (PC_POS_LO 0) 0x400 4 then s.posWrite ((lo - 0x220000) / 0x400) vlo vhi
  else if lo = CAP_PER_LO 5 ∧ ¬ frefPeriodOk (vhi * 2 ^ 32 + vlo) then s
  else
    let s := match cmpHook lo vlo s with
      | some _ => s.regStore t lo vlo
      | none =>
        if arrHas lo (TC_OFS_LO 0) 0x40 4 || arrHas lo (TC_INC_LO 0) 0x40 4 then s.setReg t lo vlo
        else if arrHas lo (AUD_BASE_LO 0) 0x20 16 then s.regEffect who t lo vlo
        else s.regStore t lo vlo
    s.regEffect who t (lo + 4) vhi

/-! ### Reads -/

/-- Mask of the units of a tile that satisfy a test. -/
def unitMask (p : Nat → Bool) : Nat := (List.range unitCount).foldl (fun m u => if p u then orBit m u else m) 0

/-- CREWc_STAT. -/
def State.crewStat (s : State) (t c : Nat) : Nat :=
  let x := s.crew t c
  x.state + (if c < 2 then 8 else 0) + x.cause % 16 * 16

/-- A correction-log entry as R375 lays it out, as eight words. -/
def CorrEnt.wordsOf (e : CorrEnt) (ch : Nat) : List Nat :=
  let a := 0x100000000 + e.addr
  [a % 2 ^ 32, a / 2 ^ 32, e.first % 2 ^ 32, e.first / 2 ^ 32, e.last % 2 ^ 32, e.last / 2 ^ 32, min e.count (2 ^ 32 - 1),
    1 + 2 * b2n e.recurrent + 256 * ch]

/-- Registers of the TXN table (chapter 2). -/
def State.txnWord (s : State) (i r : Nat) : Nat :=
  let x := s.txn i
  match r with
  | 0 => x.stateReg
  | 1 => x.units.length + x.words.length * 256
  | 2 => x.masksReg
  | 3 => x.kind + x.sel * 8
  | 4 => x.seq
  | 5 => if x.state = 0 then 0 else x.epoch
  | _ => 0

/-- HEc_CMD and HDc_CMD: the command bits whose effect is still to come read 1 (R6; DEDUCED, log 16). FINAL stands until
RESTART (log 56). -/
def State.codecCmd (s : State) (t off : Nat) : Option Nat :=
  if arrHas off (HE_CMD 0) 0x40 4 then
    let x := s.enc t ((off - HE_CMD 0) / 0x40)
    some (b2n x.forceIrap + 4 * b2n x.suspendDue + 16 * b2n x.cancelDue)
  else if arrHas off (HD_CMD 0) 0x40 4 then
    let x := s.dec t ((off - HD_CMD 0) / 0x40)
    some (2 * b2n x.suspendDue + 8 * b2n x.cancelDue + 32 * b2n x.final)
  else none

/-- What a register shows of state that is held elsewhere. -/
def State.liveWord (s : State) (t off : Nat) : Option Nat :=
  let at_ := fun (base st n : Nat) => if arrHas off base st n then some ((off - base) / st) else none
  if off < 0x40000 then
    if off = EVT_SUMMARY then
      some ((List.range 10).foldl (fun m g => if s.reg t (EVT_STAT g) &&& s.reg t (EVT_EN g) = 0 then m else orBit m g) 0)
    else if 0x30000 ≤ off ∧ off < 0x30100 then
      let n := (off - 0x30000) / 0x40
      let c := s.chan t n
      match off % 0x40 with
      | 0x00 => some c.frac
      | 0x04 => some c.ns
      | 0x08 => some (c.sec % 2 ^ 32)
      | 0x0C => some (c.sec / 2 ^ 32)
      | 0x10 => some ((s.steer n).acc % 2 ^ 32)
      | 0x14 => some ((s.steer n).acc / 2 ^ 32)
      | _ => none
    else if off = CLKSUP_PPM then some (ux 16 (s.refclkDev t))
    else if off = LC0_TICK_LO then some (s.time.lcTicks % 2 ^ 32)
    else if off = LC0_TICK_HI then some (s.time.lcTicks / 2 ^ 32)
    else if off = LC0_VAL_LO then some (s.lc0 % 2 ^ 32)
    else if off = LC0_VAL_HI then some (s.lc0 / 2 ^ 32)
    else if off = TIME_RTT then some (setBits (s.reg t off) 0 1 (b2n (smGet s.time.rttBusy t false)))
    else match at_ (GY_STAT 0) 0x40 32 with
      | some g => some (setBits (s.reg t off) 2 1 (b2n (s.geyHeld t g)))
      | none => none
  else if off < 0x80000 then
    match at_ (AD_LEVEL 0) 0x100 4 with
    | some p => some (s.adLevel t p)
    | none => match at_ (XTRIG_CTL 0) 4 8 with
      | some k => some (setBits (s.reg t off) 3 1 (b2n (s.xtrigLevel t k)))
      | none => none
  else if off < 0x1A0000 then
    if 0x180400 ≤ off ∧ off < 0x180C00 then
      some (((s.corrLog t)[(off - 0x180400) / 32]?).map (fun e => (e.wordsOf (s.chanOf t e.addr)).getD ((off - 0x180400) % 32 / 4) 0) |>.getD 0)
    else s.codecCmd t off
  else if off < 0x1C0000 then
    if off = THERM_SHDN then some (b2n (t = 0 ∧ s.shdnArmed))
    else if off = PWR_TRIM then some (setBits (s.reg t off) 16 1 (b2n (s.trimValid t)))
    else if off = JOB_STAT ∧ t = 0 then
      let n := fun st => (s.arbSettle.pwr.jobs.filter fun j => j.st = st || (st = 1 && j.st = 3)).length
      some (setBits (setBits (setBits (s.reg t off) 0 7 (n 0)) 7 7 (n 1)) 14 7 (n 2))
    else none
  else if off < 0x1E0000 then
    let c := (off - 0x1C0000) / 0x40
    if 8 ≤ c then none
    else match off % 0x40 with
      | 0x00 => some (s.crewStat t c)
      | 0x04 => some ((s.crew t c).pc % 2 ^ 32)
      | 0x08 => some ((s.crew t c).pending % 2 ^ 32)
      | 0x0C => some ((s.crew t c).pending / 2 ^ 32 % 2 ^ 32)
      | _ => none
  else if off < 0x200000 then
    if off = STALE_MASK then some (unitMask fun u => s.stale t u)
    else if off = ARMED_MASK then some (unitMask fun u => s.armed t u)
    else if off = OWNED_MASK then some (unitMask fun u => (s.ownerOf t u).isSome)
    else if 0x1E0800 ≤ off ∧ off < 0x1E0A00 then some (s.txnWord ((off - 0x1E0800) / 0x20) (off % 0x20 / 4))
    else match at_ (UNIT_GEN 0) 0x20 25 with
      | some u =>
        let o := s.ownerOf t u
        some (setBits (setBits (setBits (s.reg t off) 17 1 (b2n (s.armed t u))) 18 1 (b2n o.isSome)) 19 4 (o.getD 0))
      | none => none
  else match at_ (PC_SPD_LO 0) 0x400 4 with
    | some c => some (ux 64 (s.posSpeedNow c) % 2 ^ 32)
    | none => match at_ (PC_SPD_HI 0) 0x400 4 with
      | some c => some (ux 64 (s.posSpeedNow c) / 2 ^ 32)
      | none => none

/-- A register word as it reads now, without a snapshot. A low half that waits for its high half reads as it was written (R6), but for
TCn_INC (R106). -/
def State.peek (s : State) (t off : Nat) : Nat :=
  let t := homeTile t off
  match regAt t off with
  | none =>
    match mirrorOf off with
    | some o =>
      match regDef? o with
      | some d => if d.isBench then s.reg t off &&& readMask d.fields else 0
      | none => 0
    | none => 0
  | some d =>
    let v := if heldLo off && !arrHas off (TC_INC_LO 0) 0x40 4 then s.heldHalf t off else none
    (v.getD ((s.liveWord t off).getD (s.reg t off))) &&& readMask (d.fields.filter (hasField t off))

/-- Reads that take something away: FIFOs of sensor control, capture queues (R111, R179, R180, R439). The value read replaces the
word. The spec states no value for a read of an empty one: a free value (DESIGN CHOICE, log 20). -/
def State.readTakes (s : State) (t off : Nat) : State :=
  let at_ := fun (base st n : Nat) => if arrHas off base st n then some ((off - base) / st) else none
  let freeByte := fun (s : State) => s.fresh.2.setReg t off (s.fresh.1 % 256)
  match at_ (SPI_DATA 0) 0x40 4 with
  | some p =>
    match (s.spiQ t p).rx with
    | [] => freeByte s
    | b :: l => (s.setReg t off b).setSpiQ t p { s.spiQ t p with rx := l }
  | none => match at_ (I2C_DATA 0) 0x40 4 with
    | some p =>
      match (s.i2cQ t p).rx with
      | [] => freeByte s
      | b :: l => (s.setReg t off b).setI2cQ t p { s.i2cQ t p with rx := l }
    | none => match at_ (CAP_FRAC 0) 0x20 6 with
      | some k =>
        if t ≠ 0 then s
        else
          let show_ := fun (s : State) (sec ns frac : Nat) =>
            let s := (s.setReg 0 (CAP_FRAC k) frac).setReg 0 (CAP_NS k) ns
            (s.setReg 0 (CAP_SEC_LO k) (sec % 2 ^ 32)).setReg 0 (CAP_SEC_HI k) (sec / 2 ^ 32)
          match s.capturePop k with
          | (s, some (sec, ns, frac)) => show_ s sec ns frac
          | (s, none) =>
            let sec := s.fresh
            let ns := sec.2.fresh
            let frac := ns.2.fresh
            show_ frac.2 (sec.1 % 2 ^ 48) (ns.1 % 2 ^ 30) (frac.1 % 2 ^ 32)
      | none =>
        if t = 0 ∧ 0x220000 ≤ off ∧ off < 0x221000 ∧ 0x100 ≤ off % 0x400 ∧ off % 0x400 < 0x200 ∧ off % 0x20 = 0x18 then
          let c := (off - 0x220000) / 0x400
          let k := (off % 0x400 - 0x100) / 0x20
          match s.cmpPop c k with
          | (s, some n) => s.setReg64 0 (CMP_CAP_LO c k) n
          | (s, none) => s.fresh.2.setReg64 0 (CMP_CAP_LO c k) s.fresh.1
        else s

/-- A read of a register or mirror word: a snapshot of the accessor's own, or the word itself, which may snapshot what follows it
(R8). -/
def State.regRead (s : State) (who : Who) (t off : Nat) : State × Nat :=
  match smLook s.snaps (snapKey who t off) with
  | some v => ({ s with snaps := smDel (snapKey who t off) s.snaps }, v.toNat)
  | none =>
    let s := s.readTakes t off
    let v := s.peek t off
    let ks := (List.range (snapCount off)).map fun i => off + 4 * (i + 1)
    (s.each ks fun s o => { s with snaps := smIns (snapKey who t o) (BitVec.ofNat 32 (s.peek t o)) s.snaps }, v)

/-! ### Writes -/

/-- The firing of a geyser due in the tick of a write to its registers comes first (R121). -/
def State.geyDue (s : State) (t off : Nat) : State :=
  s.when (decide (GY_CTL 0 ≤ off) && decide (off < GY_CTL 32)) fun s => s.geyFire t ((off - GY_CTL 0) / 0x40)

/-- A write to a register that is not bench-backed: a low half is held, the next write of its high half brings both (R8). -/
def State.regWrite (s : State) (who : Who) (t off v : Nat) : State :=
  let t := homeTile t off
  if regAt t off = none ∨ who = 0 ∧ hostIgnored off = true then s
  else
    let s := s.geyDue t off
    if heldLo off then { s with held := smIns (t * 0x1000000 + off) (BitVec.ofNat 32 v) s.held }
    else if heldLo (off - 4) ∧ 4 ≤ off then
      match s.heldHalf t (off - 4) with
      | some lo => ({ s with held := smDel (t * 0x1000000 + (off - 4)) s.held }).pairWrite who t (off - 4) lo v
      | none => s.pairWrite who t (off - 4) (s.peek t (off - 4)) v
    else s.regEffect who t off v

/-! ### Bench words -/

/-- A write of a bench word (R36, R50, R52): within a transaction, or alone where no transaction owns the unit and none is armed. -/
def State.benchWrite (s : State) (who : Who) (t u w v : Nat) (txn : Option Nat) : State × BusEnd :=
  if !s.granted who u then (s, .grant)
  else match txn with
    | some i =>
      let (s, ok) := s.txnWrite i t u w v
      (s, if ok then .ok else .doomed)
    | none =>
      if (s.ownerOf t u).isSome || s.armed t u then (s, .busy) else (s.shadowWrite t u w v, .ok)

/-- The offset lies in a window of a parameter table (R547, R251). -/
def inTables (off : Nat) : Bool :=
  (decide (0x400000 ≤ off) && decide (off < 0x800000)) || (decide (0xD0000 ≤ off) && decide (off < 0xD4000))

/-- A write of one word of a tile's window by the host or a crew. -/
def State.busWrite (s : State) (who : Who) (t off v : Nat) (txn : Option Nat) : State × BusEnd :=
  match s.busGate t off with
  | .ok =>
    match s.denies who t off true with
    | .ok =>
      if inTables off then (s.tableWrite t off v, .ok)
      else match unitAt off with
        | some (u, w) => s.benchWrite who t u w v txn
        | none => if (mirrorOf off).isSome then (s, .ok) else (s.regWrite who t off v, .ok)
    | e => (s, e)
  | e => (s, e)

/-- A read of one word of a tile's window by the host or a crew. -/
def State.busRead (s : State) (who : Who) (t off : Nat) : State × Nat × BusEnd :=
  match s.busGate t off with
  | .ok =>
    match s.denies who t off false with
    | .ok =>
      if inTables off then (s, s.tableRead t off, .ok)
      else
        let r := s.regRead who t off
        (r.1, r.2, .ok)
    | e => (s, 0, e)
  | e => (s, 0, e)

/-- A read command of an accessor: what the word read is its answer; a read that is refused answers nothing. -/
def State.readBy (s : State) (who : Who) (t off : Nat) : State :=
  match s.busRead who t off with
  | (r, v, .ok) => { r with answers := smIns who (BitVec.ofNat 32 v) r.answers }
  | (r, _, _) => { r with answers := smDel who r.answers }

/-- A broadcast write: every tile in RUN, in the tiles' order; the first refusal is the word's (R544). -/
def State.broadcast (s : State) (who : Who) (off v : Nat) (txn : Option Nat) : State × BusEnd :=
  s.runTiles.foldl (fun (r : State × BusEnd) t =>
    let w := r.1.seamReach 0 t
    let q := if w.2 then w.1.busWrite who t off v txn else (w.1, .closed)
    (q.1, if r.2 = .ok then q.2 else r.2)) (s, .ok)

end Sys2Proof.Machine
end

