-- ==== Sys2Proof/Machine/Tcm.lean ====
section
/-!
DEFINITION. Memory as a crew sees it (R64 to R69, R76 to R78): TCM with poison marks and parity, register windows, the broadcast
window, own and remote DRAM, loads, stores and atomics.
-/

namespace Sys2Proof.Machine

/-! ### TCM words -/

/-- SRAM number of a TCM word (R425): 0 code, 1 data. -/
def tcmSram (w : Nat) : Nat := if w < 65536 then 0 else 1

def State.tcmWord (s : State) (t w : Nat) : Nat := (smGet s.core.tcm (tk t w) 0).toNat

def State.tcmMarked (s : State) (t w : Nat) : Bool := smGet s.core.tcmPoison (tk t w) false

def State.setTcmMark (s : State) (t w : Nat) (b : Bool) : State :=
  { s with core.tcmPoison := smPut s.core.tcmPoison (tk t w) b false }

/-- A parity error in a TCM word: its mark, its SRAM's bit and EV_INTEG_TCM_PARITY (R69, R416, R417). -/
def State.tcmParityError (s : State) (t w : Nat) (inj : Bool) : State :=
  let k := tcmSram w
  let s := { s.setTcmMark t w true with core.tcmParity := smPut s.core.tcmParity (tk t w) 0 0 }
  (s.setReg t INTEG_SRAM_PERR (orBit (s.reg t INTEG_SRAM_PERR) k)).raiseX t 245 inj

/-- A read of a TCM word: a byte whose parity was flipped is found, and the mark says whether the word is poisoned (R69). -/
def State.tcmRead (s : State) (t w : Nat) : State × Nat × Bool :=
  let s := if smGet s.core.tcmParity (tk t w) 0 = 0 then s else s.tcmParityError t w true
  (s, s.tcmWord t w, s.tcmMarked t w)

/-- A store of n bytes at byte b of a TCM word: a whole word sets or clears the mark, a narrower store only sets it (R69); the
injector flips the parity of the first byte (R425). -/
def State.tcmWrite (s : State) (t w b n v : Nat) (poison : Bool) : State :=
  let s := { s with core.tcm := smPut s.core.tcm (tk t w) (BitVec.ofNat 64 (setBits (s.tcmWord t w) (8 * b) (8 * n) v)) 0 }
  let s := s.setTcmMark t w (if n = 8 then poison else poison || s.tcmMarked t w)
  let bad := setBits (smGet s.core.tcmParity (tk t w) 0) b n 0
  let hit := s.on t SRAM_INJ_ARMED && s.f t SRAM_INJ_SRAM == tcmSram w
  let bad := if hit then orBit bad b else bad
  { s.sramWritten t (tcmSram w) with core.tcmParity := smPut s.core.tcmParity (tk t w) bad 0 }

/-- The system region covers a TCM address (R65). -/
def State.sysRegion (s : State) (t a : Nat) : Bool :=
  let b := smGet s.core.sysbound t (128 + 65536 * 128)
  if a < 0x80000 then decide (a < bits b 0 10 * 1024) else decide (a - 0x80000 < bits b 16 10 * 1024)

/-! ### What an address names -/

/-- The place that an address of R64 names: TCM, the window of a tile, every tile's window, DRAM, or nothing. -/
inductive Place where
  | tcm (code : Bool) (w : Nat)
  | window (t off : Nat)
  | every (off : Nat)
  | dram
  | nothing
  deriving DecidableEq, Repr

/-- The place of an address (R64). -/
def placeOf (t a : Nat) : Place :=
  match tcmIndex a with
  | some w => .tcm (decide (a < 0x80000)) w
  | none =>
    if 0x40000000 ≤ a ∧ a < 0x48000000 then .window ((a - 0x40000000) / 0x1000000) (a % 0x1000000)
    else if 0x48000000 ≤ a ∧ a < 0x49000000 then .every (a % 0x1000000)
    else if 0x4F000000 ≤ a ∧ a < 0x50000000 then .window t (a % 0x1000000)
    else if 0x100000000 ≤ a ∧ a < 0x800000000 then .dram
    else if 0x1000000000 ≤ a ∧ a < 0x5000000000 then .dram
    else .nothing

/-- An access of a crew: done with a value, an exception cause with what has come about on the way, or still waiting. -/
inductive CrewAcc where
  | ok (s : State) (v : Nat)
  | exc (s : State) (cause : Nat)
  | hold

/-- Exception cause of an access that does not reach its register (R12, R49, R50, R64, R66). -/
def BusEnd.cause : BusEnd → Option Nat
  | .ok => none
  | .doomed => none
  | .denied => some 1
  | .busy => some 5
  | .grant => some 5
  | _ => some 3

/-- A crew of tile t reaches tile n: its own tile, or one with a route that is not isolated (R64). -/
def State.crewReach (s : State) (t n : Nat) : State × Bool :=
  if n = t then (s, true) else if !s.has n || s.isolated n then (s, false) else s.seamReach t n

/-- The DRAM of an address can be reached: the memory exists (R64) and its tile has a route. -/
def State.dramReach (s : State) (t a n : Nat) : State × Bool :=
  if s.dramOk t a n then s.crewReach t (dramAt t a).1 else (s, false)

def State.dramStalls (s : State) (t a : Nat) : Bool := s.dramWaits (dramAt t a).1 (dramAt t a).2

/-! ### Loads and stores -/

/-- A load of n bytes (1, 2, 4 or 8), zero-extended (R64 to R69). -/
def State.crewLoad (s : State) (t c a n : Nat) : CrewAcc :=
  let who := whoCrew t c
  if a % n ≠ 0 then .exc s 2
  else match placeOf t a with
    | .tcm _ w =>
      if appCrew who && s.sysRegion t a then .exc s 1
      else
        let r := s.tcmRead t w
        if r.2.2 then .exc r.1 4 else .ok r.1 (bits r.2.1 (8 * (a % 8)) (8 * n))
    | .window u off =>
      if n < 4 ∨ n = 8 ∧ !pairLo off then .exc s 3
      else
        let q := s.crewReach t u
        if !q.2 then .exc q.1 3
        else
          let r := q.1.busRead who u off
          match r.2.2.cause with
          | some k => .exc q.1 k
          | none =>
            if n = 4 then .ok r.1 r.2.1
            else
              let h := r.1.busRead who u (off + 4)
              .ok h.1 (r.2.1 + h.2.1 * 2 ^ 32)
    | .every _ => .exc s 3
    | .dram =>
      let q := s.dramReach t a n
      if !q.2 then .exc q.1 3
      else if s.dramStalls t a then .hold
      else
        let r := q.1.rdNumAt t a n 9
        if r.2.2 then .exc r.1 4 else .ok r.1 r.2.1
    | .nothing => .exc s 3

/-- A store of the low n bytes of a value (R64 to R69). -/
def State.crewStore (s : State) (t c a n v : Nat) : CrewAcc :=
  let who := whoCrew t c
  if a % n ≠ 0 then .exc s 2
  else match placeOf t a with
    | .tcm code w =>
      if appCrew who && (code || s.sysRegion t a) then .exc s 1 else .ok (s.tcmWrite t w (a % 8) n v false) 0
    | .window u off =>
      if n < 4 ∨ n = 8 ∧ !pairLo off then .exc s 3
      else
        let q := s.crewReach t u
        if !q.2 then .exc q.1 3
        else
          let r := q.1.busWrite who u off (v % 2 ^ 32) none
          match r.2.cause with
          | some k => .exc q.1 k
          | none =>
            if n = 4 then .ok r.1 0
            else
              let h := r.1.busWrite who u (off + 4) (v / 2 ^ 32 % 2 ^ 32) none
              match h.2.cause with
              | some k => .exc q.1 k
              | none => .ok h.1 0
    | .every off =>
      if n < 4 ∨ n = 8 ∧ !pairLo off then .exc s 3
      else
        let q := s.crewReach t 0
        if !q.2 then .exc q.1 3
        else
        let r := q.1.broadcast who off (v % 2 ^ 32) none
        match r.2.cause with
        | some k => .exc r.1 k
        | none => if n = 4 then .ok r.1 0 else .ok (r.1.broadcast who (off + 4) (v / 2 ^ 32 % 2 ^ 32) none).1 0
    | .dram =>
      let q := s.dramReach t a n
      if !q.2 then .exc q.1 3
      else if s.dramStalls t a then .hold
      else .ok (q.1.wrAt t a (leBytes n v) false) 0
    | .nothing => .exc s 3

/-! ### Atomics -/

/-- The new value of an atomic (R76), for n bytes; `d` is gd on entry, which CAS compares. -/
def amoNew (op n old b d : Nat) : Nat :=
  let m := 2 ^ (8 * n)
  match op with
  | 0 => b % m
  | 1 => (old + b) % m
  | 2 => old &&& (b % m)
  | 3 => old ||| (b % m)
  | _ => if old = d % m then b % m else old

/-- An atomic of n bytes (4 or 8) at an address (R76, R77): the old value. -/
def State.crewAmo (s : State) (t c a n op b d : Nat) : CrewAcc :=
  if a % n ≠ 0 then .exc s 2
  else match placeOf t a with
    | .tcm code w =>
      if appCrew (whoCrew t c) && (code || s.sysRegion t a) then .exc s 1
      else
        let r := s.tcmRead t w
        let old := bits r.2.1 (8 * (a % 8)) (8 * n)
        if r.2.2 then .exc r.1 4 else .ok (r.1.tcmWrite t w (a % 8) n (amoNew op n old b d) false) old
    | .dram =>
      let q := s.dramReach t a n
      if !q.2 then .exc q.1 3
      else if s.dramStalls t a then .hold
      else
        let r := q.1.rdNumAt t a n 9
        if r.2.2 then .exc r.1 4 else .ok (r.1.wrAt t a (leBytes n (amoNew op n r.2.1 b d)) false) r.2.1
    | _ => .exc s 3

end Sys2Proof.Machine
end

