-- ==== Sys2Proof/Machine/Crew.lean ====
section
/-!
DEFINITION. A crew issuing an instruction (chapter 3): fetch, the rows of the instruction tables, exceptions, control-status
registers, stopping and restarting.
-/

namespace Sys2Proof.Machine

/-! ### Registers of a crew -/

/-- General register g, with g0 reading 0 (R62). -/
def Crew.gr (x : Crew) (i : Nat) : Nat := if i = 0 then 0 else (smGet x.g i 0).toNat

/-- Write a general register; writes of g0 are discarded (R62). -/
def Crew.setG (x : Crew) (i v : Nat) : Crew := if i = 0 then x else { x with g := smPut x.g i (BitVec.ofNat 64 v) 0 }

/-- Predicate i, with p0 reading 1 (R62). -/
def Crew.pr (x : Crew) (i : Nat) : Bool := i = 0 || bit x.p i

/-- Write a predicate; writes of p0 are discarded (R62). -/
def Crew.setP (x : Crew) (i : Nat) (b : Bool) : Crew := if i = 0 then x else { x with p := if b then orBit x.p i else clrBit x.p i }

def State.gr (s : State) (t c i : Nat) : Nat := (s.crew t c).gr i

def State.setG (s : State) (t c i v : Nat) : State := s.setCrew t c ((s.crew t c).setG i v)

/-! ### Fields of an instruction word (R70) -/

def opOf (w : Nat) : Nat := bits w 26 6
def gdOf (w : Nat) : Nat := bits w 21 5
def gaOf (w : Nat) : Nat := bits w 16 5
def gbOf (w : Nat) : Nat := bits w 11 5
def funcOf (w : Nat) : Nat := bits w 0 11
def immOf (w : Nat) : Nat := bits w 0 16
def subOf (w : Nat) : Nat := bits w 8 8
def imm8Of (w : Nat) : Nat := bits w 0 8

/-- The row of the instruction tables that a word belongs to (R72, R79, R80, R82, R84 to R86, R89): the major opcode times 256,
plus the function within it. -/
def insnRow (w : Nat) : Option Nat :=
  let op := opOf w
  let base := op * 256
  if op ≤ 0x0B ∨ 0x10 ≤ op ∧ op ≤ 0x16 ∨ 0x18 ≤ op ∧ op ≤ 0x1C ∨ 0x20 ≤ op ∧ op ≤ 0x22 then some base
  else if op = 0x30 then (if bits w 0 2 = 3 then none else some (base + bits w 0 2))
  else if op = 0x31 ∨ op = 0x32 then some (base + bits w 0 2)
  else if op = 0x33 then (if bits w 0 4 ∈ [0, 1, 2, 8, 9] then some (base + bits w 0 4) else none)
  else if op = 0x34 ∨ op = 0x35 then some (base + bits w 0 1)
  else if op = 0x3F then (if subOf w ∈ [0, 1, 2, 3, 4, 5, 8, 9, 10] then some (base + subOf w) else none)
  else none

/-- What an instruction does to its crew: it completes, completes with a jump, takes an exception, begins a wait that the state
now holds, or cannot go on yet. -/
inductive Act where
  | next (s : State)
  | jump (s : State) (pc : Nat)
  | exc (s : State) (cause eval : Nat)
  | wait (s : State)
  | stop (s : State)
  | hold

/-! ### Exceptions -/

/-- A crew takes an exception (R91), or goes to FAULTED where it has no handler or is in it (R51, R92); crews 0 and 1 then raise
EV_TILE_CTL_FAULT. `epc` is the address that EPC takes. -/
def State.crewExc (s : State) (t c cause code eval epc : Nat) : State :=
  let x := s.crew t c
  let y := { x with epc := epc, cause := cause, code := code, eval := eval, wait := none, fetch := [], lastIssue := s.now }
  if x.evec = 0 ∨ x.inexc then
    let s := (s.setCrew t c { y with state := 3 }).raise t 306
    s.when (decide (c < 2)) fun s => s.raise t 3
  else s.setCrew t c { y with state := 1, inexc := true, pc := x.evec }

/-! ### Fetch -/

/-- Fetch one instruction word, or the cause of the fetch fault (R64, R65, R69). -/
def State.fetchWord (s : State) (t c pc : Nat) : State × Option Nat × Nat :=
  if 0x80000 ≤ pc then (s, none, 3)
  else if appCrew (whoCrew t c) ∧ s.sysRegion t pc then (s, none, 1)
  else
    let r := s.tcmRead t (pc / 8)
    if r.2.2 then (r.1, none, 4) else (r.1, some (bits r.2.1 (8 * (pc % 8)) 32), 0)

/-- The words after the first that fill the fetch buffer, up to one that cannot be fetched (R68). -/
def State.prefetch (s : State) (t c : Nat) : Nat → Nat → List (Nat × Nat)
  | 0, _ => []
  | k + 1, pc =>
    if 0x80000 ≤ pc ∨ smGet s.core.tcmParity (tk t (pc / 8)) 0 ≠ 0 then []
    else match (s.fetchWord t c pc).2.1 with
      | some w => (pc, w) :: s.prefetch t c k (pc + 4)
      | none => []

/-- The instruction at a crew's PC: from its fetch buffer where that holds it, else from code TCM, filling the buffer (R68). -/
def State.crewFetch (s : State) (t c : Nat) : State × Option Nat × Nat :=
  let x := s.crew t c
  match x.fetch.dropWhile (·.1 ≠ x.pc) with
  | (a, w) :: l => (s.setCrew t c { x with fetch := (a, w) :: l }, some w, 0)
  | [] =>
    let r := s.fetchWord t c x.pc
    match r.2.1 with
    | some w => (r.1.setCrew t c { x with fetch := (x.pc, w) :: r.1.prefetch t c 3 (x.pc + 4) }, some w, 0)
    | none => (r.1, none, r.2.2)

/-! ### Issue -/

/-- A crew that may issue: READY with its previous instruction complete, on a tile whose core runs (R47, R59, R67, R96). -/
def State.crewReady (s : State) (t c : Nat) : Bool :=
  s.live t 0 && decide (c < 8) && !smGet s.core.ctlBusy t false && (s.crew t c).state == 1 && (s.crew t c).wait.isNone

/-- Complete an instruction: the count of R95 and the next PC. -/
def State.crewDone (s : State) (t c pc : Nat) : State :=
  let x := s.crew t c
  s.setCrew t c { x with pc := pc % 2 ^ 64, instret := (x.instret + 1) % 2 ^ 64, lastIssue := s.now }

/-- The code that ECAUSE takes for a cause: TRAP's imm8, else 0 (R90, R91). -/
def trapCode (cause w : Nat) : Nat := if cause = 8 then imm8Of w else 0

/-- What EVAL takes for the cause of an instruction that was fetched: its word for cause 0, the data address for causes 2 to 5, else 0
(R91). -/
def evalOf (cause e : Nat) : Nat := if cause = 0 ∨ 2 ≤ cause ∧ cause ≤ 5 then e else 0

/-- What follows from an instruction's act (R91, R95). -/
def State.crewEnd (s : State) (t c w : Nat) (r : Act) : State :=
  let pc := (s.crew t c).pc
  match r with
  | .next u => u.crewDone t c (pc + 4)
  | .jump u dest => u.crewDone t c dest
  | .exc u k e => u.crewExc t c k (trapCode k w) (evalOf k e) (if k = 8 then (pc + 4) % 2 ^ 64 else pc)
  | .wait u => u
  | .stop u => u
  | .hold => s

/-- Issue the instruction at a crew's PC, if it belongs to the row that the command names (R47, R72). A word that belongs to no
row, or cannot be fetched, takes its exception under any row's command; a word of another row is left to that row's. -/
def State.crewIssue (s : State) (t c row : Nat) (act : State → Nat → Act) : State :=
  if !s.crewReady t c then s
  else
    let r := s.crewFetch t c
    let pc := (s.crew t c).pc
    match r.2.1 with
    | none => r.1.crewExc t c r.2.2 0 pc pc
    | some w =>
      match insnRow w with
      | none => r.1.crewExc t c 0 0 w pc
      | some k => if k = row then r.1.crewEnd t c w (act r.1 w) else s

/-- Cause 0 with the instruction word in EVAL, where a field that must be 0 is not (R71, R91). -/
def State.illegal (s : State) (w : Nat) : Act := .exc s 0 w

/-- An act that goes on only where the fields that must be 0 are (R71). -/
def State.mustZero (s : State) (w v : Nat) (f : State → Act) : Act := if v = 0 then f s else s.illegal w

/-- Write gd and complete. -/
def State.result (s : State) (t c w v : Nat) : Act := .next (s.setG t c (gdOf w) v)

/-! ### Stopping and starting -/

/-- Take a transaction away from its crew (R60, R80): one not decided ends ABORTED. -/
def State.dropTx (s : State) (t c : Nat) : State :=
  match (s.crew t c).tx with
  | none => s
  | some i =>
    let s := s.setCrew t c { s.crew t c with tx := none }
    (s.txnAbort i).txnFree i

/-- A crew stops at an instruction boundary; one in WAIT, WAITT or TXCOMMIT before that instruction (R60, R94), and so one whose SEND
awaits its acknowledgement or whose FENCE awaits DMA, of which R94 says nothing (DESIGN CHOICE, log 89). -/
def State.crewHalt (s : State) (t c : Nat) : State :=
  let s := s.setCrew t c { s.crew t c with state := 0, wait := none, fetch := [] }
  s.dropTx t c

/-- The watchdog of a crew (R51): four fifths of a tick to a CTL cycle (R2). -/
def State.watchdogDue (s : State) (t c : Nat) : Bool :=
  let n := s.f t (CREW_WDOG_TIMEOUT c)
  let x := s.crew t c
  n != 0 && (x.state == 1 || x.state == 2) && decide (x.lastIssue * 5 + n * 1024 * 4 ≤ s.now * 5)

/-- CREW_WATCHDOG (R51, R91): cause 9, whose EPC names the WAIT or WAITT the crew was in, else the next instruction not yet
issued. -/
def State.crewWatchdog (s : State) (t c : Nat) : State :=
  if s.live t 0 && decide (c < 8) && !smGet s.core.ctlBusy t false && s.watchdogDue t c then
    let x := s.crew t c
    let pc := match x.wait with
      | none => x.pc
      | some (.lines _ _ _) => x.pc
      | _ => (x.pc + 4) % 2 ^ 64
    (s.raise t 307).crewExc t c 9 0 0 pc
  else s

/-! ### Waiting -/

/-- A wait on event lines completes with the lines matched, which leave PENDING (R48). -/
def State.linesDone (s : State) (t c gd matched : Nat) : State :=
  let x := s.crew t c
  (s.setCrew t c ({ x with state := 1, wait := none, pending := x.pending - (x.pending &&& matched) }.setG gd matched)).crewDone t c (x.pc + 4)

/-- CREW_WAKE: a crew that waits on event lines finds one of them pending (R47, R48, R82). -/
def State.crewWake (s : State) (t c : Nat) : State :=
  let x := s.crew t c
  match x.wait with
  | some (.lines mask gd _) =>
    if s.live t 0 ∧ x.pending &&& mask ≠ 0 then s.linesDone t c gd (x.pending &&& mask) else s
  | _ => s

/-- WAITT_DEADLINE: the deadline of a WAITT has passed and no line matches; gd takes 0 (R82). -/
def State.waittDeadline (s : State) (t c : Nat) : State :=
  let x := s.crew t c
  match x.wait with
  | some (.lines mask gd (some (dl, n))) =>
    if ¬ s.live t 0 ∨ !atOrAfter (s.tcN t n) dl then s
    else if x.pending &&& mask ≠ 0 then s.linesDone t c gd (x.pending &&& mask)
    else s.linesDone t c gd 0
  | _ => s

/-! ### Control-status registers -/

/-- SYSBOUND of a tile. -/
def State.sysbound (s : State) (t : Nat) : Nat := smGet s.core.sysbound t (128 + 65536 * 128)

/-- A control-status register as it reads (R95), or none for an unassigned number. -/
def State.csrGet (s : State) (t c n : Nat) : Option Nat :=
  let x := s.crew t c
  match n with
  | 0x00 => some (c + 8 * t + 64 * b2n (decide (c < 2)))
  | 0x01 => some (b2n x.inexc)
  | 0x02 => some x.epc
  | 0x03 => some (x.cause % 16 + 256 * (x.code % 256))
  | 0x04 => some x.eval
  | 0x05 => some x.evec
  | 0x06 => some x.escratch
  | 0x07 => some (x.p % 256)
  | 0x08 => some x.pending
  | 0x09 => some (match x.tx with | some i => i + 16 | none => 0)
  | 0x0A => some (((s.now - smGet s.core.tileReset t 0) * 5 / 4) % 2 ^ 64)
  | 0x0B => some x.instret
  | 0x0C => some x.tsnapS
  | 0x0D => some x.tsnapF
  | 0x40 => some (s.sysbound t)
  | _ => none

/-- A multiple of 4 from 0 to 512, as the fields of SYSBOUND take it. -/
def sysboundOk (v : Nat) : Bool := v ≤ 512 && v % 4 == 0

/-- A write of a control-status register (R95): fields that are read-only keep their values. -/
def State.csrSet (s : State) (t c n v : Nat) : State :=
  let x := s.crew t c
  match n with
  | 0x02 => s.setCrew t c { x with epc := v - v % 4 }
  | 0x05 => s.setCrew t c { x with evec := v - v % 4 }
  | 0x06 => s.setCrew t c { x with escratch := v }
  | 0x07 => s.setCrew t c { x with p := orBit (v % 256) 0 }
  | 0x40 =>
    let b := s.sysbound t
    let b := if sysboundOk (bits v 0 10) then setBits b 0 10 v else b
    let b := if sysboundOk (bits v 16 10) then setBits b 16 10 (bits v 16 10) else b
    { s with core.sysbound := smPut s.core.sysbound t b (128 + 65536 * 128) }
  | _ => s

/-- An access to a control-status register by number: the system ones need privilege, unassigned numbers are illegal (R95). -/
def State.csrAct (s : State) (t c w : Nat) (f : State → Nat → Act) : Act :=
  let n := imm8Of w
  if 0x40 ≤ n ∧ n < 0x80 ∧ 2 ≤ c then .exc s 1 0
  else match s.csrGet t c n with
    | none => s.illegal w
    | some v => f s v

end Sys2Proof.Machine
end

