-- ==== Sys2Proof/Machine/Predict.lean ====
section
/-!
DEFINITION. The predicted time of a commit point (R54): a geyser's firing, a Frame Start (R168), an output frame (R250).
-/

namespace Sys2Proof.Machine

/-- Ticks of the 800 MHz clock in a number of nanoseconds. -/
def nsTicks (ns : Int) : Int := (ns * 4).fdiv 5

/-- Firings of a geyser: armed, with a count that steps over 0 (R118, R119). -/
def State.predictGeyser (s : State) (t g : Nat) : Option Predict :=
  if ¬ s.on t (GY_CTL_ARMED g) then none
  else
    let per := s.geyPer t g
    some {
      next := nextFrame (s.reg t (GY_COUNT g))
      ticks := -((s.geyPast t g * 4).fdiv (5 * (2 ^ 32 : Nat)))
      period := per * 4 / (5 * 2 ^ 32) }

/-- The tile whose port leads the group of a tile's port (R168, R169). -/
def State.leadOf (s : State) (t p : Nat) : Nat := if s.adSg t p then s.a t (AD_SG_LEAD p) else t

/-- Frame Starts of a port or of its group: T + (N - C) * PER (R168). -/
def State.predictFrame (s : State) (t p : Nat) : Option Predict :=
  let u := s.leadOf t p
  match (s.port u p).lastN, (s.port u p).lastCnt, s.adPeriod u p with
  | some n, some c, some per =>
    let now := s.tcN u (s.a u (AD_PED_TS_CHAN p))
    some {
      next := if s.aOn u (AD_FMT_CNT_MODE p) then nextFrame c else (c + 1) % 2 ^ 32
      ticks := nsTicks (sx 64 ((n + per + 2 ^ 64 - now % 2 ^ 64) % 2 ^ 64))
      period := (nsTicks per).toNat }
  | _, _, _ => none

/-- Output frames of a channel on its home tile (R250): the next one not yet announced, which the input frame whose Frame Start has come
last may be going to build. -/
def State.predictOut (s : State) (t c : Nat) : Option Predict :=
  let x := s.out t c
  if s.a t (OC_CFG_DEST c) = 1 ∧ s.aOn t (OC_CFG_TIMING c) then
    let span := s.chSpan t c 1
    if x.raster then some { next := nextFrame x.outFrame, ticks := ((x.rasterTick + span : Nat) : Int).fdiv 5 - s.now, period := span / 5 }
    else none
  else
    let p := s.a t (DV_CFG_SRC (s.a t (OC_CFG_PIPE c)))
    let m := s.a t (OC_CFG_DECIM c) + 1
    match s.predictFrame t p with
    | none => none
    | some q =>
      let u := s.leadOf t p
      let begun : Bool := match (s.port u p).lastCnt, x.pointed with
        | some n, some (_, a, _) => n % m = 0 && !seqAtOrAfter a n
        | _, _ => false
      let k := (m - q.next % m) % m
      let delay := if s.outDirect t c then nsTicks (s.a t (OC_RDELAY_RDELAY c)) else 0
      let ahead : Int := if begun then -(q.period : Int) else (k * q.period : Nat)
      some { next := x.nextNum, ticks := q.ticks + ahead + delay, period := q.period * m }

/-- The prediction of a commit point for a transaction coordinated by tile t (R54). -/
def State.predict (s : State) (t kind sel : Nat) : Option Predict :=
  match kind with
  | 1 => if s.has (sel / 4) then s.predictFrame (sel / 4) (sel % 4) else none
  | 2 => if s.has (sel / 4) then s.predictOut (sel / 4) (sel % 4) else none
  | 3 => s.predictGeyser t sel
  | _ => none

end Sys2Proof.Machine
end

