-- ==== Sys2Proof/Machine/CrewOps.lean ====
section
/-!
DEFINITION. What each crew instruction does (chapter 3), as an act on the state in which it issues; DMA (R86 to R88).
-/

namespace Sys2Proof.Machine

/-! ### Arithmetic -/

def m64 : Nat := 2 ^ 64

/-- A signed 64-bit quotient or remainder with the fixed cases of R74. -/
def divS (a b : Nat) : Nat :=
  if b = 0 then m64 - 1 else ux 64 ((sx 64 a).tdiv (sx 64 b))
def remS (a b : Nat) : Nat := if b = 0 then a else ux 64 ((sx 64 a).tmod (sx 64 b))
def divU (a b : Nat) : Nat := if b = 0 then m64 - 1 else a / b
def remU (a b : Nat) : Nat := if b = 0 then a else a % b

/-- Sign extension of the low w bits to 64 bits. -/
def sext (w v : Nat) : Nat := ux 64 (sx w v)

/-- Rotate right (R73). -/
def ror64 (a n : Nat) : Nat := (a >>> n ||| a <<< (64 - n)) % m64

/-- Number of leading zeros. -/
def clz64 (a : Nat) : Nat := if a = 0 then 64 else 63 - a.log2

/-- Number of trailing zeros. -/
def ctz64 (a : Nat) : Nat := ((List.range 64).find? a.testBit).getD 64

def popc64 (a : Nat) : Nat := ((List.range 64).filter a.testBit).length

/-- Shifts by kind: 0 SLL, 1 SRL, 2 SRA, 3 ROR (R72). -/
def shift64 (kind a n : Nat) : Nat :=
  match kind with
  | 0 => a <<< n % m64
  | 1 => a >>> n
  | 2 => ux 64 (sra (sx 64 a) n)
  | _ => ror64 a n

/-- The functions of OPR but SEL (R73, R74); none for a value that the table does not list. The flag says that gb must be g0. -/
def aluOf (f a b : Nat) : Option (Nat × Bool) :=
  match f with
  | 0x00 => some ((a + b) % m64, false)
  | 0x01 => some ((a + m64 - b) % m64, false)
  | 0x02 => some (a &&& b, false)
  | 0x03 => some (a ||| b, false)
  | 0x04 => some (a ^^^ b, false)
  | 0x05 => some (a &&& (m64 - 1 - b), false)
  | 0x08 => some (shift64 0 a (b % 64), false)
  | 0x09 => some (shift64 1 a (b % 64), false)
  | 0x0A => some (shift64 2 a (b % 64), false)
  | 0x0B => some (shift64 3 a (b % 64), false)
  | 0x10 => some (a * b % m64, false)
  | 0x11 => some (ux 64 (sra (sx 64 a * sx 64 b) 64), false)
  | 0x12 => some (a * b / m64, false)
  | 0x14 => some (divS a b, false)
  | 0x15 => some (divU a b, false)
  | 0x16 => some (remS a b, false)
  | 0x17 => some (remU a b, false)
  | 0x20 => some (sext 32 (a + b), false)
  | 0x21 => some (sext 32 (a + m64 - b), false)
  | 0x22 => some (sext 32 (a * b), false)
  | 0x30 => some (if sx 64 a ≤ sx 64 b then a else b, false)
  | 0x31 => some (if sx 64 a ≤ sx 64 b then b else a, false)
  | 0x32 => some (min a b, false)
  | 0x33 => some (max a b, false)
  | 0x50 => some (clz64 a, true)
  | 0x51 => some (ctz64 a, true)
  | 0x52 => some (popc64 a, true)
  | 0x58 => some (sext 32 a, true)
  | _ => none

/-- OPR (R73). -/
def actOpr (t c : Nat) (s : State) (w : Nat) : Act :=
  let x := s.crew t c
  let a := x.gr (gaOf w)
  let b := x.gr (gbOf w)
  let f := funcOf w
  if f % 256 = 0x40 then s.result t c w (if x.pr (f / 256) then a else b)
  else if 256 ≤ f then s.illegal w
  else match aluOf f a b with
    | none => s.illegal w
    | some (v, one) => if one && gbOf w != 0 then s.illegal w else s.result t c w v

def actAddi (t c : Nat) (s : State) (w : Nat) : Act := s.result t c w ((s.gr t c (gaOf w) + sext 16 (immOf w)) % m64)
def actAndi (t c : Nat) (s : State) (w : Nat) : Act := s.result t c w (s.gr t c (gaOf w) &&& immOf w)
def actOri (t c : Nat) (s : State) (w : Nat) : Act := s.result t c w (s.gr t c (gaOf w) ||| immOf w)
def actXori (t c : Nat) (s : State) (w : Nat) : Act := s.result t c w (s.gr t c (gaOf w) ^^^ immOf w)

/-- SHI (R72). -/
def actShi (t c : Nat) (s : State) (w : Nat) : Act :=
  s.mustZero w (bits w 8 8) fun s => s.result t c w (shift64 (bits w 6 2) (s.gr t c (gaOf w)) (bits w 0 6))

def actLui (t c : Nat) (s : State) (w : Nat) : Act := s.mustZero w (gaOf w) fun s => s.result t c w (immOf w * 65536)

def actLmi (t c : Nat) (s : State) (w : Nat) : Act :=
  s.mustZero w (gaOf w) fun s => s.result t c w (setBits (s.gr t c (gdOf w)) 32 16 (immOf w))

def actLhi (t c : Nat) (s : State) (w : Nat) : Act :=
  s.mustZero w (gaOf w) fun s => s.result t c w (setBits (s.gr t c (gdOf w)) 48 16 (immOf w))

/-- The conditions of R75. -/
def condOf (k a b : Nat) : Bool :=
  match k with
  | 0 => a == b
  | 1 => a != b
  | 2 => decide (sx 64 a < sx 64 b)
  | 3 => decide (sx 64 b ≤ sx 64 a)
  | 4 => decide (a < b)
  | 5 => decide (b ≤ a)
  | 6 => a &&& b != 0
  | _ => a &&& b == 0

/-- CMP: the predicate is in [23:21] (R70, R75). -/
def actCmp (t c : Nat) (s : State) (w : Nat) : Act :=
  s.mustZero w (bits w 24 2 + bits w 3 8) fun s =>
    let x := s.crew t c
    .next (s.setCrew t c (x.setP (bits w 21 3) (condOf (bits w 0 3) (x.gr (gaOf w)) (x.gr (gbOf w)))))

/-- CMPI: the condition is in imm16[15:13], imm13 below it (R72, R75). -/
def actCmpi (t c : Nat) (s : State) (w : Nat) : Act :=
  s.mustZero w (bits w 24 2) fun s =>
    let x := s.crew t c
    .next (s.setCrew t c (x.setP (bits w 21 3) (condOf (bits w 13 3) (x.gr (gaOf w)) (sext 13 (bits w 0 13)))))

/-- The operations of PSET (R75). -/
def psetOf (k : Nat) (a b : Bool) : Bool :=
  match k with
  | 0 => a && b
  | 1 => a || b
  | 2 => a != b
  | 3 => a && !b
  | 4 => a || !b
  | 5 => !a
  | 6 => true
  | _ => false

/-- PSET (R75): predicates in the gd, ga and gb fields, unused ones 0. -/
def actPset (t c : Nat) (s : State) (w : Nat) : Act :=
  let k := bits w 0 3
  let unused := (if 5 ≤ k then bits w 11 3 else 0) + (if 6 ≤ k then bits w 16 3 else 0)
  s.mustZero w (bits w 24 2 + bits w 19 2 + bits w 14 2 + bits w 3 8 + unused) fun s =>
    let x := s.crew t c
    .next (s.setCrew t c (x.setP (bits w 21 3) (psetOf k (x.pr (bits w 16 3)) (x.pr (bits w 11 3)))))

/-! ### Loads, stores, atomics -/

/-- The address of a load or store: ga + sext(imm16) (R72). -/
def State.addrOf' (s : State) (t c w : Nat) : Nat := (s.gr t c (gaOf w) + sext 16 (immOf w)) % m64

/-- A load of n bytes, extended by `ext` (R72, R91). -/
def State.loadAct (s : State) (t c w n : Nat) (ext : Nat → Nat) : Act :=
  let a := s.addrOf' t c w
  match s.crewLoad t c a n with
  | .ok s v => s.result t c w (ext v)
  | .exc s k => .exc s k a
  | .hold => .hold

/-- A store of the low n bytes of gs (R72, R91). -/
def State.storeAct (s : State) (t c w n : Nat) : Act :=
  let a := s.addrOf' t c w
  match s.crewStore t c a n (s.gr t c (gdOf w) % 2 ^ (8 * n)) with
  | .ok s _ => .next s
  | .exc s k => .exc s k a
  | .hold => .hold

def actLb (t c : Nat) (s : State) (w : Nat) : Act := s.loadAct t c w 1 (sext 8)
def actLbu (t c : Nat) (s : State) (w : Nat) : Act := s.loadAct t c w 1 id
def actLh (t c : Nat) (s : State) (w : Nat) : Act := s.loadAct t c w 2 (sext 16)
def actLhu (t c : Nat) (s : State) (w : Nat) : Act := s.loadAct t c w 2 id
def actLw (t c : Nat) (s : State) (w : Nat) : Act := s.loadAct t c w 4 (sext 32)
def actLwu (t c : Nat) (s : State) (w : Nat) : Act := s.loadAct t c w 4 id
def actLd (t c : Nat) (s : State) (w : Nat) : Act := s.loadAct t c w 8 id
def actSb (t c : Nat) (s : State) (w : Nat) : Act := s.storeAct t c w 1
def actSh (t c : Nat) (s : State) (w : Nat) : Act := s.storeAct t c w 2
def actSw (t c : Nat) (s : State) (w : Nat) : Act := s.storeAct t c w 4
def actSd (t c : Nat) (s : State) (w : Nat) : Act := s.storeAct t c w 8

/-- AMO (R76, R77): operations 0 to 4, the other bits of func 0. -/
def actAmo (t c : Nat) (s : State) (w : Nat) : Act :=
  let f := funcOf w
  if 16 ≤ f ∨ 5 ≤ f % 8 then s.illegal w
  else
    let n := if bit f 3 then 4 else 8
    let a := s.gr t c (gaOf w)
    match s.crewAmo t c a n (f % 8) (s.gr t c (gbOf w)) (s.gr t c (gdOf w)) with
    | .ok s v => s.result t c w (if n = 4 then sext 32 v else v)
    | .exc s k => .exc s k a
    | .hold => .hold

/-! ### Branches -/

/-- BC: taken if p[predicate] XOR negate = 1 (R72). -/
def actBc (t c : Nat) (s : State) (w : Nat) : Act :=
  let x := s.crew t c
  if x.pr (bits w 23 3) != bit w 22 then .jump s (ux 64 ((x.pc : Int) + sx 22 (bits w 0 22) * 4)) else .next s

def actJal (t c : Nat) (s : State) (w : Nat) : Act :=
  let pc := (s.crew t c).pc
  .jump (s.setG t c 1 ((pc + 4) % m64)) (ux 64 ((pc : Int) + sx 26 (bits w 0 26) * 4))

/-- JALR reads ga before it writes gd; a target that is no multiple of 4 raises cause 2 (R72). -/
def actJalr (t c : Nat) (s : State) (w : Nat) : Act :=
  let dest := s.addrOf' t c w
  if dest % 4 ≠ 0 then .exc s 2 dest else .jump (s.setG t c (gdOf w) (((s.crew t c).pc + 4) % m64)) dest

/-! ### Benches -/

/-- The tile, unit and word of a bench address, or the cause that it raises (R50, R79). A unit whose island is off raises cause 3, as R12
has it for loads and stores (DESIGN CHOICE, log 89), but not for a BWR that is posted to another tile: there the participant refuses it. -/
def State.benchAddr (s : State) (t c a : Nat) (posted : Bool) : State × (Nat ⊕ (Nat × Nat × Nat)) :=
  let n := if bit a 19 then bits a 16 3 else t
  let u := bits a 11 5
  let w := bits a 0 11
  if a / 2 ^ 20 ≠ 0 ∨ !s.has n then (s, .inl 3)
  else
    let q := s.crewReach t n
    if !q.2 then (q.1, .inl 3)
    else if unitCount ≤ u ∨ !s.granted (whoCrew t c) u then (q.1, .inl 5)
    else if unitWords u ≤ w then (q.1, .inl 5)
    else if !(posted && n != t) && !s.island n (blockIsland (benchBase u)) then (q.1, .inl 3)
    else (q.1, .inr (n, u, w))

/-- BWR (R52, R53, R79). A refusal of a posted write at the participant dooms the transaction; that of a unit whose island is off does
so with CONFLICT (DESIGN CHOICE, log 89). -/
def actBwr (t c : Nat) (s : State) (w : Nat) : Act :=
  s.mustZero w (bits w 2 9 + gdOf w) fun s =>
    let a := s.gr t c (gaOf w)
    let open_ := match (s.crew t c).tx with
      | some x => if (s.txn x).state = 1 then some x else none
      | none => none
    let q := s.benchAddr t c a open_.isSome
    match q.2 with
    | .inl k => .exc q.1 k a
    | .inr (n, u, i) =>
      if !q.1.island n (blockIsland (benchBase u)) then .next (q.1.txnDoom (open_.getD 0) 1) else
      let r := q.1.benchWrite (whoCrew t c) n u i (s.gr t c (gbOf w) % 2 ^ 32) open_
      match r.2.cause with
      | some k => .exc q.1 k a
      | none => .next r.1

/-- BRD and BRS: the active or the shadow word (R36, R79). -/
def State.benchRead (s : State) (t c w base : Nat) : Act :=
  s.mustZero w (bits w 2 9 + gbOf w) fun s =>
    let a := s.gr t c (gaOf w)
    let q := s.benchAddr t c a false
    match q.2 with
    | .inl k => .exc q.1 k a
    | .inr (n, u, i) => q.1.result t c w (q.1.peek n (benchBase u + 4 * i + base))

def actBrd (t c : Nat) (s : State) (w : Nat) : Act := s.benchRead t c w 0x8000
def actBrs (t c : Nat) (s : State) (w : Nat) : Act := s.benchRead t c w 0

/-! ### Transactions -/

/-- TXBEGIN (R52, R80). -/
def actTxbegin (t c : Nat) (s : State) (w : Nat) : Act :=
  s.mustZero w (bits w 2 9 + gaOf w + gbOf w) fun s =>
    let held := match (s.crew t c).tx with
      | some i => decide ((s.txn i).state ≠ 4) && decide ((s.txn i).state ≠ 0)
      | none => false
    if held then .exc s 6 0
    else
      let q := s.crewReach t 0
      if !q.2 then .exc q.1 3 0
      else
        let s := q.1.dropTx t c
        let r := s.txnOpen false t c
        match r.2 with
        | none => r.1.result t c w 0x8000000000001400
        | some i => (r.1.setCrew t c { r.1.crew t c with tx := some i }).result t c w i

/-- TXCOMMIT (R54, R80, R81): the crew waits until its transaction is DECIDED or ENDED. -/
def actTxcommit (t c : Nat) (s : State) (w : Nat) : Act :=
  let x := s.crew t c
  let a := x.gr (gaOf w)
  let b := x.gr (gbOf w)
  s.mustZero w (bits w 2 9 + a / 256 + b / 2 ^ 32) fun s =>
    match x.tx with
    | none => .exc s 6 0
    | some i =>
      if 5 ≤ a % 8 ∨ (s.txn i).committed then .exc s 6 0
      else if (s.txn i).state ≠ 1 then s.result t c w (s.txn i).stateWord
      else
        let s := s.setCrew t c { x with state := 2, wait := some (.commit (gdOf w)), lastIssue := s.now }
        .wait ((s.txnCommit i (a % 8) (bits a 3 5) b (s.predict t (a % 8) (bits a 3 5))).wakeCommit i)

/-- TXABORT (R56, R80). -/
def actTxabort (t c : Nat) (s : State) (w : Nat) : Act :=
  s.mustZero w (bits w 2 9 + gaOf w + gbOf w) fun s =>
    match (s.crew t c).tx with
    | none => .exc s 6 0
    | some i =>
      let s := s.txnAbort i
      s.result t c w (s.txn i).stateWord

/-- TXSTAT; a transaction whose ENDED state is returned becomes FREE (R80). -/
def actTxstat (t c : Nat) (s : State) (w : Nat) : Act :=
  s.mustZero w (bits w 2 9 + gaOf w + gbOf w) fun s =>
    match (s.crew t c).tx with
    | none => .exc s 6 0
    | some i =>
      let v := (s.txn i).stateWord
      if (s.txn i).state = 4 then ((s.setCrew t c { s.crew t c with tx := none }).txnFree i).result t c w v
      else s.result t c w v

/-! ### Events and time -/

/-- Begin or complete a wait on lines (R48, R82). -/
def State.waitAct (s : State) (t c w mask : Nat) (deadline : Option (Nat × Nat)) : Act :=
  let x := s.crew t c
  let hit := x.pending &&& mask
  let passed := match deadline with
    | some (d, n) => atOrAfter (s.tcN t n) d
    | none => false
  if hit ≠ 0 then .next (s.setCrew t c ({ x with pending := x.pending - hit }.setG (gdOf w) hit))
  else if passed then s.result t c w 0
  else .wait (s.setCrew t c { x with state := 2, wait := some (.lines mask (gdOf w) deadline), lastIssue := s.now })

def actWait (t c : Nat) (s : State) (w : Nat) : Act :=
  let mask := s.gr t c (gaOf w)
  if bits w 2 9 + gbOf w ≠ 0 ∨ mask = 0 then s.illegal w else s.waitAct t c w mask none

/-- WAITT takes its channel from func[5:4] (R82). -/
def actWaitt (t c : Nat) (s : State) (w : Nat) : Act :=
  s.mustZero w (bits w 2 2 + bits w 6 5) fun s =>
    s.waitAct t c w (s.gr t c (gaOf w)) (some (s.gr t c (gbOf w), bits w 4 2))

/-- FIRE (R82, R83). -/
def actFire (t c : Nat) (s : State) (w : Nat) : Act :=
  let v := s.gr t c (gaOf w)
  s.mustZero w (bits w 2 9 + gdOf w + gbOf w + v / 2 ^ 12 + bits v 6 2) fun s =>
    let l := bits v 0 6
    let n := if bit v 11 then bits v 8 3 else t
    if 2 ≤ c ∧ l < 48 then .exc s 1 0
    else if n = t then .next (s.assertLine t l)
    else .next (s.seamForward t n (.fire l))

/-- ARM (R82): the geyser's target is written and it arms; gd says whether it lies further back than LATE_LIMIT. -/
def actArm (t c : Nat) (s : State) (w : Nat) : Act :=
  let g := s.gr t c (gaOf w)
  s.mustZero w (bits w 2 9 + g / 32) fun s =>
    let r := s.geyArmAt t g (s.gr t c (gbOf w))
    r.1.result t c w (b2n r.2)

/-- TRD (R84): seconds and fraction stay in TSNAP_S and TSNAP_F. -/
def actTrd (t c : Nat) (s : State) (w : Nat) : Act :=
  s.mustZero w (bits w 6 5 + gaOf w + gbOf w) fun s =>
    let k := s.chan t (bits w 4 2)
    .next (s.setCrew t c ({ s.crew t c with tsnapS := k.sec % 2 ^ 48, tsnapF := k.frac % 2 ^ 32 }.setG (gdOf w) k.n))

def actLrd (t c : Nat) (s : State) (w : Nat) : Act :=
  s.mustZero w (bits w 4 7 + gaOf w + gbOf w) fun s => s.result t c w (s.lc0 % m64)

def actLtick (t c : Nat) (s : State) (w : Nat) : Act :=
  s.mustZero w (bits w 4 7 + gaOf w + gbOf w) fun s => s.result t c w (s.time.lcTicks % m64)

/-- TINC (R84, R106): privileged on TC0. -/
def actTinc (t c : Nat) (s : State) (w : Nat) : Act :=
  let v := s.gr t c (gaOf w)
  let n := bits w 4 2
  s.mustZero w (bits w 6 5 + gbOf w + v / 2 ^ 36) fun s =>
    if 2 ≤ c ∧ n = 0 then .exc s 1 0
    else
      let r := s.requestInc t n v
      r.1.result t c w (b2n (!r.2))

/-- TSTEP (R84, R107): privileged. -/
def actTstep (t c : Nat) (s : State) (w : Nat) : Act :=
  s.mustZero w (bits w 6 5 + gbOf w) fun s =>
    if 2 ≤ c then .exc s 1 0
    else
      let r := s.requestStep t (bits w 4 2) (sx 64 (s.gr t c (gaOf w)))
      r.1.result t c w (b2n (!r.2))

/-! ### Messages -/

/-- The cause that a buffer of n bytes in data TCM raises, aligned to m bytes (R65, R66, R85, R86). -/
def State.dataFault (s : State) (t c a n m : Nat) : Option Nat :=
  if a % m ≠ 0 then some 2
  else if a < 0x80000 ∨ 0x100000 < a + n then some 3
  else if appCrew (whoCrew t c) ∧ s.sysRegion t a then some 1
  else none

/-- Bytes of data TCM, with what reading them finds, and whether a word is poisoned. -/
def State.tcmTake (s : State) (t : Nat) : Nat → Nat → State × List Nat × Bool
  | 0, _ => (s, [], false)
  | k + 1, a =>
    let r := s.tcmRead t ((tcmIndex a).getD 0)
    let q := r.1.tcmTake t k (a + 8)
    (q.1, leBytes 8 r.2.1 ++ q.2.1, r.2.2 || q.2.2)

/-- Bytes put into data TCM word by word. -/
def State.tcmPut (s : State) (t : Nat) : Nat → Nat → List Nat → State
  | 0, _, _ => s
  | k + 1, a, bs => (s.tcmWrite t ((tcmIndex a).getD 0) 0 8 (leNum (bs.take 8)) false).tcmPut t k (a + 8) (bs.drop 8)

/-- SEND (R85). A length that is no multiple of 8 from 8 to 64 is no header, cause 0 (DEDUCED). -/
def actSend (t c : Nat) (s : State) (w : Nat) : Act :=
  let a := s.gr t c (gaOf w)
  let h := s.gr t c (gbOf w)
  let n := bits h 6 7
  if bits w 1 10 ≠ 0 ∨ h / 2 ^ 13 ≠ 0 ∨ n = 0 ∨ 64 < n ∨ n % 8 ≠ 0 then s.illegal w
  else match s.dataFault t c a n 8 with
    | some k => .exc s k a
    | none =>
      let r := s.tcmTake t (n / 8) a
      if r.2.2 then .exc r.1 4 a
      else
        let m : CrewMsg := { num := s.core.sends, srcTile := t, srcCrew := c, dstCrew := bits h 3 3, payload := r.2.1 }
        if bits h 0 3 = t then
          let q := r.1.crewMsgArrive t m
          q.1.result t c w q.2
        else
          let u := r.1.setCrew t c { r.1.crew t c with wait := some (.send (gdOf w) m.num), lastIssue := s.now }
          .wait (({ u with core.sends := u.core.sends + 1 } : State).seamForward t (bits h 0 3) (.msg m))

/-- RECV (R85). -/
def actRecv (t c : Nat) (s : State) (w : Nat) : Act :=
  let a := s.gr t c (gaOf w)
  s.mustZero w (bits w 1 10 + gbOf w) fun s =>
    match s.dataFault t c a 64 8 with
    | some k => .exc s k a
    | none =>
      let x := s.crew t c
      match x.recvq with
      | [] => s.result t c w 0
      | m :: l =>
        let s := (s.setCrew t c { x with recvq := l }).tcmPut t (m.payload.length / 8) a m.payload
        s.result t c w (m.srcTile + 8 * m.srcCrew + 64 * m.payload.length + 2 ^ 13)

/-! ### DMA -/

/-- A range touches a register window (R64, R87). -/
def touchesWindow (a n : Nat) : Bool := decide (a < 0x50000000) && decide (0x40000000 < a + n)

/-- A range that the address map has and that its crew's privilege allows (R64, R65, R87): TCM without the system region, and to write
none of code TCM, for an application crew; or DRAM that exists, in one window. -/
def State.rangeOk (s : State) (t c a n : Nat) (write : Bool) : Bool :=
  if a + n ≤ 0x100000 then
    let b := s.sysbound t
    !appCrew (whoCrew t c) ||
      (!(write && decide (a < 0x80000)) && decide (bits b 0 10 * 1024 ≤ a) &&
        (decide (a + n ≤ 0x80000) || decide (0x80000 + bits b 16 10 * 1024 ≤ a)))
  else placeOf t a = .dram && s.dramOk t a n

/-- A descriptor that keeps the rules of R86 and of R87: the address map and privilege are those of the crew that posted it. -/
def State.dmaSound (s : State) (t : Nat) (d : DmaDesc) : Bool :=
  !d.bad && decide (8 ≤ d.len) && decide (d.len ≤ 16777216) && d.len % 8 == 0 && d.dst % 8 == 0 && !touchesWindow d.dst d.len &&
    s.rangeOk t d.crew d.dst d.len true &&
    (d.fill || (d.src % 8 == 0 && !touchesWindow d.src d.len && s.rangeOk t d.crew d.src d.len false)) &&
    (!d.lineEn || decide (d.crew < 2) || decide (48 ≤ d.line))

/-- A ticket takes its status and bytes, and the descriptor's line is asserted (R86). The line of a descriptor that completes because an
application crew's LINE is forbidden is asserted all the same (DESIGN CHOICE, log 89). -/
def State.dmaStatus (s : State) (t : Nat) (d : DmaDesc) (st n : Nat) : State :=
  let s := s.setDma t { s.dma t with status := smIns d.ticket (st, n) (s.dma t).status }
  s.when d.lineEn fun s => s.assertLine t d.line

/-- POST (R86): the descriptor is read, its ticket issued; one that breaks a rule completes at once (R87). -/
def actPost (t c : Nat) (s : State) (w : Nat) : Act :=
  let a := s.gr t c (gaOf w)
  s.mustZero w (bits w 1 10 + gbOf w) fun s =>
    match s.dataFault t c a 32 32 with
    | some k => .exc s k a
    | none =>
      let r := s.tcmTake t 4 a
      if r.2.2 then .exc r.1 4 a
      else
        let s := r.1
        let d := s.dma t
        if 32 ≤ d.queue.length then s.result t c w (m64 - 1)
        else
          let at_ := fun i n => leNum ((r.2.1.drop i).take n)
          let k := at_ 0x14 4
          let e : DmaDesc := {
            ticket := d.next, crew := c, src := at_ 0 8, dst := at_ 8 8, len := at_ 0x10 4, line := bits k 0 6, lineEn := bit k 6
            fill := bit k 7, bad := decide (k / 256 ≠ 0) || decide (at_ 0x18 8 ≠ 0) }
          let sound := s.dmaSound t e
          let s := s.setDma t { d with
            queue := if sound then d.queue ++ [e] else d.queue
            next := (d.next + 1) % 65536
            status := smDel ((d.next + 65536 - 64) % 65536) d.status }
          let s := if sound then s.sramWritten t 15 else s.dmaStatus t e 4 0
          s.result t c w e.ticket

/-- The status of a ticket (R86, R87). -/
def DmaSt.statusOf (d : DmaSt) (k : Nat) : Nat :=
  match d.queue.findIdx? (·.ticket = k) with
  | some 0 => 1
  | some _ => 0
  | none => match smLook d.status k with
    | some (st, n) => st + n * 2 ^ 32
    | none => 5

def actPoll (t c : Nat) (s : State) (w : Nat) : Act :=
  s.mustZero w (bits w 1 10 + gbOf w) fun s => s.result t c w ((s.dma t).statusOf (s.gr t c (gaOf w) % 65536))

/-- A word that DMA reads: its value and whether it is poisoned, or nothing where the access faults (R64, R65, R87). -/
def State.dmaRead (s : State) (t c a : Nat) : State × Option (Nat × Bool) :=
  match placeOf t a with
  | .tcm _ w =>
    if appCrew (whoCrew t c) && s.sysRegion t a then (s, none)
    else
      let r := s.tcmRead t w
      (r.1, some (r.2.1, r.2.2))
  | .dram =>
    let q := s.dramReach t a 8
    if !q.2 then (q.1, none)
    else
      let r := q.1.rdNumAt t a 8 10
      (r.1, some (r.2.1, r.2.2))
  | _ => (s, none)

/-- A word that DMA writes. -/
def State.dmaWrite (s : State) (t c a v : Nat) (poison : Bool) : State × Bool :=
  match placeOf t a with
  | .tcm code w =>
    if appCrew (whoCrew t c) && (code || s.sysRegion t a) then (s, false) else (s.tcmWrite t w 0 8 v poison, true)
  | .dram =>
    let q := s.dramReach t a 8
    if q.2 then (q.1.wrAt (port := 10) t a (leBytes 8 v) poison, true) else (q.1, false)
  | _ => (s, false)

/-- Words of a transfer in order: what was reached, the words written, poison met, and whether it went to its end (R87). -/
def State.dmaWords (s : State) (t : Nat) (d : DmaDesc) : Nat → Nat → Bool → State × Nat × Bool × Bool
  | 0, i, p => (s, i, p, true)
  | k + 1, i, p =>
    let r := if d.fill then (s, some (d.src, false)) else s.dmaRead t d.crew (d.src + 8 * i)
    match r.2 with
    | none => (r.1, i, p, false)
    | some (v, q) =>
      let z := r.1.dmaWrite t d.crew (d.dst + 8 * i) v q
      if z.2 then z.1.dmaWords t d k (i + 1) (p || q) else (z.1, i, p, false)

/-- Record the end of a descriptor: status and bytes, its line, and a FENCE that waited for it (R86, R89). -/
def State.dmaEnd (s : State) (t : Nat) (d : DmaDesc) (st n : Nat) : State :=
  let s := s.setDma t { s.dma t with queue := (s.dma t).queue.drop 1 }
  let s := s.dmaStatus t d st n
  s.each (List.range 8) fun s c =>
    let y := s.crew t c
    match y.wait with
    | some .dma =>
      if (s.dma t).queue.any fun (e : DmaDesc) => decide (e.crew = c) then s
      else (s.setCrew t c { y with wait := none }).crewDone t c (y.pc + 4)
    | _ => s

/-- The engine would wait: a word of the transfer lies in DRAM that cannot answer now. -/
def State.dmaStalls (s : State) (t : Nat) (d : DmaDesc) : Bool :=
  let at_ := fun a => placeOf t a = .dram && s.dramOk t a 8 && s.dramStalls t a
  at_ d.dst || (!d.fill && at_ d.src)

/-- DMA_TRANSFER: the oldest descriptor (R86, R87). -/
def State.dmaRun (s : State) (t : Nat) : State :=
  match (s.dma t).queue with
  | [] => s
  | d :: _ =>
    let r := s.dmaWords t d (d.len / 8) 0 false
    r.1.dmaEnd t d (if !r.2.2.2 then 4 else if r.2.2.1 then 3 else 2) (8 * r.2.1)

/-- DMA_TRANSFER on a tile whose engine runs. -/
def State.dmaTransfer (s : State) (t : Nat) : State :=
  match (s.dma t).queue with
  | [] => s
  | d :: _ => if s.live t 0 ∧ ¬ smGet s.core.ctlBusy t false ∧ ¬ s.dmaStalls t d then s.dmaRun t else s

/-! ### System instructions -/

def actTrap (_t _c : Nat) (s : State) (w : Nat) : Act := s.mustZero w (gdOf w + gaOf w) fun s => .exc s 8 0

/-- RETX (R89). -/
def actRetx (t c : Nat) (s : State) (w : Nat) : Act :=
  let x := s.crew t c
  if gdOf w + gaOf w + imm8Of w ≠ 0 ∨ !x.inexc then s.illegal w
  else .jump (s.setCrew t c { x with inexc := false, fetch := [] }) x.epc

def actCsrr (t c : Nat) (s : State) (w : Nat) : Act :=
  s.mustZero w (gaOf w) fun s => s.csrAct t c w fun s v => s.result t c w v

def actCsrw (t c : Nat) (s : State) (w : Nat) : Act :=
  s.mustZero w (gdOf w) fun s => s.csrAct t c w fun s _ => .next (s.csrSet t c (imm8Of w) (s.gr t c (gaOf w)))

def actCsrs (t c : Nat) (s : State) (w : Nat) : Act :=
  s.csrAct t c w fun s v => (s.csrSet t c (imm8Of w) (v ||| s.gr t c (gaOf w))).result t c w v

def actCsrc (t c : Nat) (s : State) (w : Nat) : Act :=
  s.csrAct t c w fun s v => (s.csrSet t c (imm8Of w) (v &&& (m64 - 1 - s.gr t c (gaOf w)))).result t c w v

/-- FENCE (R68, R89). Posted BWRs are applied as they are issued, so BENCH has nothing to wait for. -/
def actFence (t c : Nat) (s : State) (w : Nat) : Act :=
  s.mustZero w (gdOf w + gaOf w + bits w 3 5) fun s =>
    let x := s.crew t c
    let x := if bit w 0 then { x with fetch := [] } else x
    if bit w 1 && (s.dma t).queue.any fun (e : DmaDesc) => decide (e.crew = c) then
      .wait (s.setCrew t c { x with wait := some .dma, lastIssue := s.now })
    else .next (s.setCrew t c x)

/-- HALT: STOPPED, with PC naming the next instruction (R89). -/
def actHalt (t c : Nat) (s : State) (w : Nat) : Act :=
  s.mustZero w (gdOf w + gaOf w + imm8Of w) fun s => .stop ((s.crewDone t c ((s.crew t c).pc + 4)).crewHalt t c)

def actYield (_t _c : Nat) (s : State) (w : Nat) : Act := s.mustZero w (gdOf w + gaOf w + imm8Of w) fun s => .next s

end Sys2Proof.Machine
end

