-- ==== Sys2Proof/Machine/Restart.lean ====
section
/-!
DEFINITION. A restart of the CTL island (R59, R63, R83, R85, R88): what ends when it begins, what starts when it ends.
-/

namespace Sys2Proof.Machine

/-- Messages of firmware pass between two tiles: neither is in a restart of its CTL, which holds class 4 traffic back (R59). -/
def State.msgOpen (s : State) (a b : Nat) : Bool := a == b || (!smGet s.core.ctlBusy a false && !smGet s.core.ctlBusy b false)

/-- A transaction that a restart of tile t's CTL ends: not decided, coordinated by that tile, or the host's on T0 (R52, R59). -/
def Txn.restartEnds (x : Txn) (t : Nat) : Bool := (x.state == 1 || x.state == 2) && x.tile == t

/-- COMMITs of host transactions that the restart of T0's CTL ends answer ABORTED (R363): `n2` marks them. -/
def State.commitsLost (s : State) : State :=
  { s with host.cmds := s.host.cmds.map fun c =>
      if c.cap.getD 0 0 = 0x35 ∧ c.n1 = 1 ∧ (s.txn (c.cap.getD 5 0)).restartEnds 0 then { c with n2 := 1 } else c }

/-- The CTL island of a tile restarts: transactions not yet decided end ABORTED, the transfer that DMA has in flight completes and
the rest is discarded with every ticket, crews stop and their PENDING words clear (R59, R88). -/
def State.ctlBegin (s : State) (t : Nat) : State :=
  let s := s.when (t == 0) State.commitsLost
  let s := s.each (List.range 16) fun s i => s.when ((s.txn i).restartEnds t) fun s => s.txnNoSwap i 6
  let s := s.dmaRun t
  let s := s.setDma t { s.dma t with queue := [], status := [] }
  let s := s.each (List.range 8) fun s c =>
    s.setCrew t c { s.crew t c with state := 0, wait := none, fetch := [], pending := 0, tx := none }
  { s with core.ctlBusy := smPut s.core.ctlBusy t true false }

/-- The restart ends: crews 0 and 1 start at their entry points, and with them every crew that restarts by itself; the others stay
STOPPED. Lines asserted meanwhile are lost with the PENDING words (R59, R444), a reroute that waited is made (R17). -/
def State.ctlEnd (s : State) (t : Nat) : State :=
  let s := { s with core.ctlBusy := smPut s.core.ctlBusy t false false }
  let s := s.each (List.range 8) fun s c =>
    let s := s.setCrew t c { s.crew t c with pending := 0 }
    s.when (decide (c < 2) || s.on t (CREW_CTL_AUTORESTART c)) fun s => s.crewBegin t c (s.crew t c).entry
  s.when (t == 0 && s.seam.rerouteDue) State.reroute

/-- CTL_RESTART: the restart of a tile in RUN begins, or one under way ends. -/
def State.ctlRestart (s : State) (t : Nat) (ends : Bool) : State :=
  let busy := smGet s.core.ctlBusy t false
  if ends then s.when busy fun s => s.ctlEnd t else s.when (s.run t && !busy) fun s => s.ctlBegin t

end Sys2Proof.Machine
end

