-- ==== Sys2Proof/Machine/Parity.lean ====
section
/-!
DEFINITION. A parity error in an SRAM (R416 to R419): poison in a data SRAM, a fault of the block for a parameter table, the entry
lost in a control SRAM.
-/

namespace Sys2Proof.Machine

/-- Flag sample j of a row as poisoned (R415). -/
def flagSample (j : Nat) (px : List Nat) : List Nat :=
  (px.zip (List.range px.length)).map fun x => if x.2 = j then x.1 ||| flagPoison else x.1

/-- A word of DRAM is delivered poisoned from now on (R413, R415). -/
def State.poisonWord (s : State) (t a : Nat) : State := s.setEcc t a poisonPattern true

/-- Sample c of row b in the line store of source a. -/
def State.poisonStore (s : State) (t a b c : Nat) : State :=
  s.setAdStore t a ((s.adStore t a).map fun (i : Item) => match i with
    | .row y px held => if y = b then .row y (flagSample c px) held else i
    | i => i)

/-- Sample c of slab b waiting in the Crusher's input store for stream a. -/
def State.poisonInput (s : State) (t a b c : Nat) : State :=
  let x := s.crs t a
  s.setCrs t a { x with jobs := x.jobs.map fun (j : SlabJob) => if j.seq = b then { j with px := flagSample c j.px } else j }

/-- The picture in progress in context b of HOME a has read a poisoned word of tile t's sump (R307). -/
def State.poisonSump (s : State) (t a b : Nat) : State :=
  s.hePicUpd a b t (fun _ => true) fun (k : EncCoding) => { k with sumpBad := true }

/-- Entry a of the burst-store index is DAMAGED, with no rows (R419). -/
def State.burstDamaged (s : State) (t a : Nat) : State :=
  let x := s.bur t
  s.setBur t { x with index := x.index.map fun e => if e.1 = a then (e.1, { e.2 with status := orBit e.2.status stDamaged, rows := 0 }) else e }

/-- Entry b of the write queue of channel a is poisoned. -/
def State.poisonQueue (s : State) (t a b : Nat) : State :=
  let x := s.mcChan t a
  s.setMcChan t a { x with wq := (x.wq.zip (List.range x.wq.length)).map fun e => if e.2 = b then { e.1 with poison := true } else e.1 }

/-- Packet b that waits to be sent on link a is poisoned. -/
def State.poisonPacket (s : State) (t a b : Nat) : State :=
  let x := s.link t a
  s.setLink t a { x with txq := (x.txq.zip (List.range x.txq.length)).map fun (e : Pkt × Nat) => if e.2 = b then { e.1 with poison := true } else e.1 }

/-- An entry of a descriptor or receive queue (R419): a = 0 message c of crew b, a = 1 DMA descriptor b, otherwise the buffer chain
of Crusher stream b. -/
def State.queueLost (s : State) (t a b c : Nat) : State :=
  if a = 0 then
    let x := s.crew t b
    s.setCrew t b { x with recvq := x.recvq.eraseIdx c }
  else if a = 1 then
    let x := s.dma t
    s.setDma t { x with queue := (x.queue.zip (List.range x.queue.length)).map fun (e : DmaDesc × Nat) => if e.2 = b then { e.1 with bad := true } else e.1 }
  else if b < 4 ∧ s.f t (CS_STAT_STATE b) ≠ 0 then s.wStop t b true
  else s

/-- What the error does, by the SRAM's number (R425); a, b and c say where in it. -/
def State.sramEffect (s : State) (t k a b c : Nat) (inj : Bool) : State :=
  match k with
  | 2 => s.poisonStore t a b c
  | 3 => s.rawTableFault t (a % 4) true inj
  | 4 => s.rawTableFault t (a % 4) false inj
  | 5 => s.devTableFault t (a % 2) false inj
  | 6 => s.devTableFault t (a % 2) true inj
  | 7 => s.outTableFault t (a % 4) inj
  | 8 => s.poisonInput t a b c
  | 9 => s.poisonSump t a b
  | 10 => s.burstDamaged t a
  | 11 => s.each (List.range 8) fun s w => s.poisonWord t (a / 64 * 64 + 8 * w)
  | 12 => s.poisonWord t a
  | 13 => s.poisonQueue t a b
  | 14 => s.poisonPacket t a b
  | _ => s.queueLost t a b c

/-- SRAM_PARITY_ERROR (R416 to R419): the SRAM's bit, its event or its block's own, and the effect. -/
def State.sramParity (s : State) (t k a b c : Nat) : State :=
  if k < 2 then
    let w := a % 65536 + 65536 * k
    s.tcmParityError t w (smGet s.core.tcmParity (tk t w) 0 != 0)
  else
    let inj := smGet s.mem.sramFlip (tk t k) false
    let s := { s with mem.sramFlip := smPut s.mem.sramFlip (tk t k) false false }
    let s := s.setReg t INTEG_SRAM_PERR (orBit (s.reg t INTEG_SRAM_PERR) k)
    let s := s.sramEffect t k a b c inj
    s.when (decide (k < 3) || decide (7 < k)) fun s => s.raiseX t 244 inj

end Sys2Proof.Machine
end

