-- ==== Sys2Proof/Machine/HostBase.lean ====
section
/-!
DEFINITION. The target of the host link (R338 to R348, R360 to R363): capsules and their checks, the order in which commands start,
windows and their DATA, responses, the activation window's holding of commands (R351), the wake to P0 (R353, R354).
-/

namespace Sys2Proof.Machine

/-! ### Status codes (R363) -/

def rcSuccess : Nat := 0x00
def rcAborted : Nat := 0x01
def rcNotFound : Nat := 0x03
def rcOpcode : Nat := 0x04
def rcField : Nat := 0x05
def rcBusy : Nat := 0x06
def rcPoison : Nat := 0x07
def rcMedium : Nat := 0x08
def rcCancelled : Nat := 0x09
def rcSuspended : Nat := 0x0A
def rcAbandoned : Nat := 0x0B
def rcAuth : Nat := 0x0C
def rcRollback : Nat := 0x0D
def rcLimited : Nat := 0x0E
def rcSpace : Nat := 0x0F
def rcTxn : Nat := 0x10
def rcNotReady : Nat := 0x11
def rcCheck : Nat := 0x12
def rcStream : Nat := 0x13
def rcDenied : Nat := 0x14
def rcTime : Nat := 0x15
def rcTest : Nat := 0x16
def rcIsolated : Nat := 0x17
def rcActivation : Nat := 0x18

/-- The status of an access that a block or the bus refused (R381, R12, R50, R53). No route to the tile answers NOT_READY. -/
def BusEnd.status : BusEnd → Nat
  | .ok => rcSuccess
  | .absent => rcField
  | .isolated => rcIsolated
  | .dark => rcNotReady
  | .denied => rcDenied
  | .busy => rcBusy
  | .grant => rcDenied
  | .doomed => rcTxn
  | .closed => rcNotReady

/-! ### Commands -/

/-- Flag b of a capsule (R360). -/
def HostCmd.flag (c : HostCmd) (b : Nat) : Bool := bit (c.cap.getD 1 0) b

/-- The command has ORDERED = 1 (R341). -/
def HostCmd.ordered (c : HostCmd) : Bool := c.flag 0

def State.hostCmd (s : State) (tag : Nat) : Option HostCmd := s.host.cmds.find? (·.tag = tag)

/-- Replace the command of a tag. -/
def State.setCmd (s : State) (c : HostCmd) : State :=
  s.setCmds (s.host.cmds.map fun d => if d.tag = c.tag then c else d)

/-- A queue-control command, or UNIT_ABORT: it cannot be aborted (R347), and as its bounds run from its arrival it neither waits for
commands with ORDERED nor holds any (R341, R347, R384, R386; DEDUCED). RESUME becomes an operation and waits as one. -/
def HostCmd.control (c : HostCmd) : Bool := [0x20, 0x21, 0x23, 0x24].contains c.op

/-- A long operation (R384). -/
def HostCmd.long (c : HostCmd) : Bool := [0x04, 0x40, 0x41, 0x42].contains c.op

/-- The kind of background job that a command is (R464). -/
def HostCmd.jobKind (c : HostCmd) : Option Nat :=
  match c.op with
  | 0x04 => some 0
  | 0x40 => some 1
  | 0x41 => some 2
  | 0x42 => some 3
  | 0x01 => if c.fld 4 1 = 0 then none else some 4
  | _ => none

/-- Tiles that a command's job involves (R464). -/
def State.jobTiles (s : State) (c : HostCmd) : Nat :=
  match c.op with
  | 0x40 => popcount 8 (c.fld 4 1)
  | 0x42 => popcount 8 (c.fld 5 1)
  | 0x41 => (s.hdMembers (c.fld 4 1) (c.fld 5 1) ++ s.heMembers (c.fld 4 1) (c.fld 6 1)).eraseDups.length
  | _ => 1

/-- The job of a command has been admitted and runs; a command that is no job always may. -/
def State.jobRuns (s : State) (c : HostCmd) : Bool :=
  match c.jobKind with
  | none => true
  | some k => match s.arbFind k 0 c.tag with
    | some j => j.st == 1
    | none => false

/-! ### Capsules (R360) -/

/-- Bytes of a capsule that an opcode lists beside bytes 0 and 1, as (first, count), and its FLAGS bits. -/
def capLayout (op : Nat) : Option (List (Nat × Nat) × Nat) :=
  match op with
  | 0x01 | 0x02 => some ([(4, 1), (8, 12)], 0)
  | 0x03 => some ([(4, 2)], 0)
  | 0x04 => some ([(4, 1), (8, 12)], 2)
  | 0x10 => some ([], 0)
  | 0x11 => some ([(4, 1), (8, 12)], 2)
  | 0x12 => some ([(4, 1), (8, 16)], 0)
  | 0x13 => some ([(4, 1)], 0)
  | 0x14 => some ([(8, 12)], 0)
  | 0x15 => some ([(4, 2), (8, 4)], 0)
  | 0x16 => some ([(8, 32)], 0)
  | 0x20 | 0x21 => some ([(4, 1)], 0)
  | 0x22 => some ([(8, 8)], 0)
  | 0x23 => some ([(4, 1), (8, 8)], 2)
  | 0x24 => some ([(4, 1), (8, 4)], 0)
  | 0x30 => some ([(8, 13)], 2)
  | 0x31 => some ([(8, 13)], 6)
  | 0x32 => some ([(4, 2), (8, 24)], 0)
  | 0x33 | 0x34 => some ([(4, 2)], 0)
  | 0x35 => some ([(4, 2), (8, 2), (12, 4)], 0)
  | 0x37 => some ([(4, 1)], 0)
  | 0x40 => some ([(4, 2), (8, 4)], 0)
  | 0x41 => some ([(4, 3)], 0)
  | 0x42 => some ([(4, 2), (8, 16)], 0)
  | _ => none

/-- Every byte and flag that the layout does not list is 0 (R360). -/
def HostCmd.zerosOk (c : HostCmd) (l : List (Nat × Nat)) (flags : Nat) : Bool :=
  (c.cap.getD 1 0 &&& (254 - flags)) == 0 &&
  (List.range 64).all fun i => decide (i < 2) || (l.any fun p => decide (p.1 ≤ i) && decide (i < p.1 + p.2)) || c.cap.getD i 0 == 0

/-- A volume of R364. -/
def volOk (v : Nat) : Bool := decide (v ≤ 9) || v == 15

/-- Fields in their stated ranges, reserved encodings (R360 step 3). -/
def HostCmd.rangesOk (c : HostCmd) : Bool :=
  let count := c.fld 16 4
  match c.op with
  | 0x01 | 0x02 | 0x04 => volOk (c.fld 4 1) && decide (1 ≤ count) && decide (count ≤ 2 ^ 28)
  | 0x03 => (c.fld 4 2 &&& 0x7C00) == 0
  | 0x11 =>
    let page := c.fld 4 1
    decide (1 ≤ page) && page ≤ 5 && c.fld 8 8 % 8 == 0 && count % 8 == 0 && decide (8 ≤ count) && decide (count ≤ 1048576) &&
      (page != 5 || !c.flag 1)
  | 0x12 =>
    let v := c.fld 8 8
    (c.fld 4 1 == 4 || c.fld 16 8 == 0) && match c.fld 4 1 with
    | 1 => v ≤ 3
    | 2 => v ≤ 1
    | 3 => decide (v < 2 ^ 36)
    | 4 => c.fld 16 8 ≤ 3
    | 5 => v ≤ 1
    | _ => false
  | 0x13 => [1, 2, 3, 5].contains (c.fld 4 1)
  | 0x14 => c.fld 8 8 % 4096 == 0 && count % 4096 == 0
  | 0x15 => c.fld 4 1 ≤ 4 && c.fld 5 1 ≤ 1
  | 0x30 | 0x31 => c.fld 8 8 % 4 == 0 && decide (1 ≤ count) && count ≤ 1024 && c.fld 20 1 ≤ 15
  | 0x32 =>
    decide (2 ≤ c.fld 5 1) && c.fld 5 1 ≤ 7 && c.fld 16 4 % 8 == 0 && c.fld 24 4 % 8 == 0
  | 0x33 | 0x34 => decide (2 ≤ c.fld 5 1) && c.fld 5 1 ≤ 7
  | 0x35 =>
    c.fld 4 1 ≤ 3 && c.fld 5 1 ≤ 15 && c.fld 8 1 ≤ 4 && c.fld 9 1 ≤ 31 &&
      (c.fld 4 1 == 1 || (c.fld 8 2 == 0 && c.fld 12 4 == 0)) && (c.fld 4 1 != 0 || c.fld 5 1 == 0)
  | 0x37 => c.fld 4 1 ≤ 2
  | 0x40 => true
  | 0x41 => c.fld 4 1 ≤ 7 && c.fld 5 1 ≤ 3 && c.fld 6 1 ≤ 3
  | 0x42 => c.fld 4 1 ≤ 4
  | _ => true

/-- Start-up step reached (R521). -/
def State.step_ (s : State) : Nat := s.f 0 BOOT_STAT_STEP

/-- The part is ready (R521). -/
def State.ready (s : State) : Bool := s.step_ == 8

/-- A command is allowed at the current step (R362, R526); with T0's regulator silent the part answers as at step 4 (R536). -/
def State.opAllowed (s : State) (op : Nat) : Bool :=
  if s.ready then true
  else if s.step_ ≤ 3 then s.boot.hostSel && [0x14, 0x15, 0x20].contains op
  else [0x10, 0x11, 0x13, 0x16, 0x20].contains op

/-- In the ROM FW_COMMIT takes ACTION 0 and 3 and ignores SLOT (R526). -/
def State.romCommitOk (s : State) (c : HostCmd) : Bool :=
  decide (s.step_ ≠ 3) || c.fld 4 1 == 0 || c.fld 4 1 == 3

/-- The first three checks of R360: 0, or the status that answers. -/
def State.capCheck (s : State) (c : HostCmd) : Nat :=
  match capLayout c.op with
  | none => rcOpcode
  | some (l, flags) =>
    if !s.opAllowed c.op then rcNotReady
    else if !c.zerosOk l flags then rcField
    else if c.op = 0x15 ∧ s.step_ = 3 then (if s.romCommitOk c then rcSuccess else rcField)
    else if !c.rangesOk then rcField
    else rcSuccess

/-! ### Responses (R338) -/

/-- Body of a RESPONSE. -/
def respBody (status xfer : Nat) (info : List Nat) : List Nat :=
  leBytes 2 status ++ leBytes 6 0 ++ leBytes 8 xfer ++ (info ++ leBytes 16 0).take 16

/-- Statuses that the error log records (R372). -/
def loggedStatus (st : Nat) : Bool := [rcPoison, rcMedium, rcCheck, rcStream, rcTest, rcActivation].contains st

/-- The part is LIMITED and the command says so in place of SUCCESS (R387). -/
def State.limitedStatus (s : State) (c : HostCmd) (st : Nat) : Nat :=
  if st = 0 ∧ s.on 0 PLIM_STAT_LIMITED ∧ (c.op = 0x10 ∨ c.op = 0x13 ∨ (c.op = 0x11 ∧ c.fld 4 1 ≠ 3)) then rcLimited else st

/-- A WRITE that did not end SUCCESS is noted for the FLUSHes that cover it (R342). -/
def State.noteWrite (s : State) (c : HostCmd) (st : Nat) : State :=
  if c.op = 0x02 ∧ st ≠ 0 then { s with host.failed := s.host.failed ++ [(c.arr, c.fld 4 1, st, c.tag)] } else s

/-- Capsule fields that the error log shows: volume, first block, blocks (R372). -/
def HostCmd.place (c : HostCmd) : Nat × Nat × Nat :=
  if c.op = 0x01 ∨ c.op = 0x02 ∨ c.op = 0x04 then (c.fld 4 1, c.fld 8 8, c.fld 16 4)
  else if c.op = 0x14 then (15, c.fld 8 8 / 4096, c.fld 16 4 / 4096)
  else (0, 0, 0)

/-- A crew left LOADING by a LOAD_PROGRAM that ends is STOPPED. -/
def State.loadOver (s : State) (c : HostCmd) : State :=
  let t := c.fld 4 1
  let k := c.fld 5 1
  if c.op = 0x32 ∧ (s.crew t k).state = 4 then s.setCrew t k { s.crew t k with state := 0 } else s

/-- What a command still waits for on magazine links concerns nobody any more. -/
def State.dropReads (s : State) (tag : Nat) : State :=
  s.each (s.tileList.filter fun t => (s.mag t).any fun m => m.use = 2 && m.who = tag) fun s t =>
    s.setMag t ((s.mag t).filterMap fun (m : MagCmd) =>
      if m.use = 2 ∧ m.who = tag then (if m.status.isSome then none else some { m with who := orphan }) else some m)

/-- Send the RESPONSE of a command and forget the command. -/
def State.reply (s : State) (c : HostCmd) (st xfer : Nat) (info : List Nat) : State :=
  let st := s.limitedStatus c st
  let s := s.linkSend 0 0 { ty := 4, tag := c.tag, body := respBody st xfer info }
  let s := s.setCmds (s.host.cmds.filter (·.tag ≠ c.tag))
  let s := ((s.noteWrite c st).loadOver c).dropReads c.tag
  let p := c.place
  let s := s.when (loggedStatus st) fun s => s.logError 1 c.tag c.op 0 st p.1 p.2.1 p.2.2 info
  match c.jobKind with
  | some k => s.arbRemove k 0 c.tag
  | none => s

/-- A command completes; a SUSPEND or CANCEL that waited for its checkpoint finds it gone (R384). -/
def State.respond (s : State) (c : HostCmd) (st xfer : Nat) (info : List Nat) : State :=
  let s := s.reply c st xfer info
  match c.stop with
  | none => s
  | some (_, g) => match s.hostCmd g with
    | some d => s.reply d rcNotFound 0 []
    | none => s

/-- DATA packets of up to 4,096 bytes to the initiator, from an offset of the command's data upwards (R344, R345); `poison` is the
place of the first poisoned byte in them. -/
def dataPkts (tag : Nat) (poison : Option Nat) : Nat → Nat → List Nat → List Pkt
  | 0, _, _ => []
  | n + 1, o, data =>
    if data = [] then []
    else
      let b := data.take 4096
      let here : Bool := match poison with
        | some p => decide (o ≤ p) && decide (p < o + b.length)
        | none => false
      { ty := 3, poison := here, tag := tag, ofs := o, param := if here then (poison.getD 0 - o) / 8 else 0, body := b } ::
        dataPkts tag poison n (o + 4096) (data.drop 4096)

def padTo8 (l : List Nat) : List Nat := l ++ List.replicate ((8 - l.length % 8) % 8) 0

/-- Send DATA of a command. -/
def State.sendData (s : State) (c : HostCmd) (o : Nat) (data : List Nat) (poison : Option Nat) : State :=
  (dataPkts c.tag poison (data.length / 4096 + 1) o data).foldl (fun s p => s.linkSend 0 0 p) s

/-- A command that returns data in one piece and completes (R361). -/
def State.answerData (s : State) (c : HostCmd) (data info : List Nat) : State :=
  (s.sendData c 0 (padTo8 data) none).respond c rcSuccess data.length info

/-! ### Order (R340, R341) -/

/-- A command may start: no earlier one with ORDERED is outstanding, none at all if it has ORDERED itself, and of the 64 that execute
at once the earlier ones have their place. -/
def State.mayStart (s : State) (c : HostCmd) : Bool :=
  let before := s.host.cmds.filter fun d => d.arr < c.arr && !d.control
  !c.held && (c.control || (!(before.any (·.ordered)) && (!c.ordered || before = []) &&
    decide ((s.host.cmds.filter fun d => d.tag ≠ c.tag && (d.started || decide (d.arr < c.arr))).length < 64)))

/-- Firmware, or the ROM, of T0 runs and takes commands. -/
def State.firmware (s : State) : Bool := s.up 0 0 && s.boot.romRunning && !smGet s.core.ctlBusy 0 false

/-- Act on the command of a tag, which must have the opcode of the row and be free to run: it counts as started, and the step says
whether this is its first. -/
def State.onCmd (s : State) (tag op : Nat) (k : State → HostCmd → Bool → State) : State :=
  match s.host.cmds.find? fun c => c.tag = tag && c.op = op with
  | none => s
  | some c =>
    if s.firmware && (c.started || s.mayStart c) && s.jobRuns c then
      let d := { c with started := true }
      k (s.setCmd d) d (!c.started)
    else s

/-! ### Windows and their data (R343) -/

/-- Bytes that a command takes from the initiator (R367, R378, R380 to R382). A debug token has 824 bytes (R539). -/
def HostCmd.dataLen (c : HostCmd) : Nat :=
  match c.op with
  | 0x02 => c.fld 16 4 * 4096
  | 0x14 => c.fld 16 4
  | 0x31 => (4 * c.fld 16 4 + 7) / 8 * 8
  | 0x32 => c.fld 16 4 + c.fld 24 4
  | 0x37 => if c.fld 4 1 = 1 then 824 else 0
  | _ => 0

/-- Open windows of up to 262,144 bytes while fewer than 4 are open. -/
def State.openWindows (s : State) (tag : Nat) : Nat → State
  | 0 => s
  | n + 1 =>
    match s.hostCmd tag with
    | none => s
    | some c =>
      if 4 ≤ c.wins.length ∨ c.dataLen ≤ c.winNext then s
      else
        let len := min 262144 (c.dataLen - c.winNext)
        let s := s.setCmd { c with wins := c.wins ++ [(c.winNext, c.winNext + len, c.winNext)], winNext := c.winNext + len }
        (s.linkSend 0 0 { ty := 2, tag := tag, ofs := c.winNext, param := len }).openWindows tag n

/-- The bytes of [o, o + n) that have come, in order. -/
def HostCmd.got (c : HostCmd) (o n : Nat) : List Nat :=
  c.parts.flatMap fun p => if p.1 + p.2.length ≤ o ∨ o + n ≤ p.1 then [] else (p.2.drop (o - p.1)).take (o + n - max o p.1)

/-- All of [o, o + n) has come. -/
def HostCmd.has (c : HostCmd) (o n : Nat) : Bool := (c.got o n).length == n

/-- Some of [o, o + n) came poisoned. -/
def HostCmd.isBad (c : HostCmd) (o n : Nat) : Bool := c.bad.any fun p => decide (p.1 < o + n) && decide (o < p.2)

/-- Forget the data below an offset. -/
def HostCmd.forget (c : HostCmd) (o : Nat) : HostCmd := { c with parts := c.parts.filter fun p => decide (o < p.1 + p.2.length) }

/-- A DATA packet that its window takes: in order, within the window, LAST exactly at its end. -/
def winTakes (w : Nat × Nat × Nat) (p : Pkt) : Bool :=
  p.ofs == w.2.2 && decide (p.ofs + p.body.length ≤ w.2.1) && p.last == (p.ofs + p.body.length == w.2.1)

/-- Bytes of a poisoned packet from its first poisoned word to its end (R345; the packet names no other word). -/
def badRun (p : Pkt) : List (Nat × Nat) := if p.poison then [(p.ofs + 8 * p.param, p.ofs + p.body.length)] else []

/-- DATA: accepted in an open window of its tag, or discarded; outside every window it ends its command (R339, R343, R348). -/
def State.hostData (s : State) : State :=
  match s.linkTake 0 0 3 with
  | (s, none) => s
  | (s, some p) =>
    match s.hostCmd p.tag with
    | none => s.linkProto 0 0 5
    | some c =>
      if c.dataLen = 0 then s.linkProto 0 0 2
      else if !(c.wins.any fun w => winTakes w p) then
        (s.linkProto 0 0 4).respond c rcField (if c.op = 0x02 then 4096 * c.pos else 0) []
      else
        let e := p.ofs + p.body.length
        let wins := (c.wins.map fun w => if winTakes w p then (w.1, w.2.1, e) else w).filter fun w => w.2.2 ≠ w.2.1
        let c := { c with wins := wins, parts := smIns p.ofs p.body c.parts, bad := c.bad ++ badRun p }
        (s.setCmd c).openWindows c.tag 4

/-- The oldest packet that waits at a link is DATA. -/
def State.dataFront (s : State) (t l : Nat) : Bool := (s.link t l).rxq.head?.any (·.ty == 3)

/-- The magazine link whose DATA comes next: that of the lowest tile with one waiting. -/
def State.dataTile (s : State) : Option Nat := s.tileList.find? fun t => s.live t 6 && s.dataFront t 1

/-- DATA: of a WRITE of the host's where the host link's oldest packet is one, else of a READ of the part's at a magazine link (R343,
R344; DESIGN CHOICE, log 24). -/
def State.dataTake (s : State) : State :=
  if s.dataFront 0 0 then s.hostData
  else match s.dataTile with
    | some t => s.magData t
    | none => s

/-! ### Acceptance -/

/-- A command enters the queue; what is a background job goes to the arbiter, which may have no room (R464). -/
def State.arrive (s : State) (c : HostCmd) : State :=
  let st := s.capCheck c
  if st ≠ 0 then s.reply c st 0 []
  else if (c.op = 0x14 ∨ (c.op = 0x02 ∧ c.fld 4 1 = 15)) ∧ s.host.cmds.any (fun d => d.op = 0x15 ∧ d.started) then s.reply c rcBusy 0 []
  else
    let s := s.when (c.op == 0x15 && s.ready && decide (3 ≤ c.fld 4 1)) fun s => { s with host.act := 1, host.actTag := c.tag }
    match c.jobKind with
    | none => s
    | some k =>
      let r := s.arbSubmit k 0 c.tag (s.jobTiles c) false
      if r.2 then r.1 else s.reply c rcBusy 0 []

/-- Commands held in an activation window enter the queue in arrival order; a further activation holds those behind it. -/
def State.releaseCmds (s : State) : State :=
  s.each ((s.host.cmds.filter (·.held)).map (·.tag)) fun s g =>
    if s.host.act ≠ 0 then s
    else match s.hostCmd g with
      | some c => (s.setCmd { c with held := false }).arrive { c with held := false }
      | none => s

/-- A new command joins the list. -/
def State.enlist (s : State) (c : HostCmd) : State := s.setCmds (s.host.cmds ++ [c])

/-- Commands held now (R351). -/
def State.heldCount (s : State) : Nat := (s.host.cmds.filter (·.held)).length

/-! ### Power states (R352 to R354) -/

/-- Units that live in an island that P2 or P3 switches off on a tile (R12, R46). -/
def sleptUnits (t state : Nat) : List Nat :=
  if state = 2 then (List.range 12) ++ (List.range 8).map (13 + ·)
  else if state = 3 then (if t = 0 then (List.range 12) ++ (List.range 8).map (13 + ·) else List.range unitCount)
  else []

/-- Islands on a tile that a power state leaves on: P2 all but PIX, CODP, CODE and CRU; P3 T0's CTL alone (R352). -/
def islandsOf (t state : Nat) : Nat :=
  if state = 2 then 0xE1 else if state = 3 then (if t = 0 then 1 else 0) else 0xFF

/-- Command the islands of a tile without what a switch-off ends: in a power state links sleep and ports come back as they were. -/
def State.powerIslands (s : State) (t v : Nat) : State := (s.setF t ISL_PWR_ON v).showIslands t

/-- The event fabric of a tile starts clear after a reset of its CTL island (R44). -/
def State.clearFabric (s : State) (t : Nat) : State :=
  let mine := fun k => decide (k / 0x1000000 = t) && decide (k % 0x1000000 / 0x10000 = 1 ∨ k % 0x1000000 / 0x10000 = 2)
  { s with
    regs := s.regs.filter fun x => !mine x.1
    evt.occ := s.evt.occ.filter fun x => decide (x.1 / 512 ≠ t)
    evt.remote := s.evt.remote.filter fun x => decide (x.1 / 4096 ≠ t)
    evt.latched := s.evt.latched.filter fun x => decide (x.1 ≠ t)
    evt.heldOccs := s.evt.heldOccs.filter (·.tile ≠ t) }

/-- A tile comes back to P0 (R12, R46, R354, R408): its islands, its DRAM, its links; the units that slept are stale; after P3 the
firmware of a tile whose CTL was off is loaded and started again, and its stale units raise nothing (R44). -/
def State.wakeTile (s : State) (state : Nat) (mr4 : List (Nat × Bool × Bool)) (t : Nat) : State :=
  let s := s.powerIslands t 0xFF
  let s := s.each [0, 1] fun s l => s.when (s.linkState t l == 5) fun s => s.linkWake t l
  let s := s.each (List.range 24) fun s l => s.lanePllBack t l
  let s := s.when (decide (2 ≤ state)) fun s =>
    let s := s.each (List.range 8) fun s c =>
      let m := mr4.getD (8 * t + c) (2, false, false)
      s.selfRefreshExit t c m.1 m.2.1 m.2.2
    let s := s.each (List.range 4) fun s k => s.rawForget t k
    (s.each (sleptUnits t state) fun s u => s.becomeStale t u (state != 3 || t == 0)).emptyBanks t
  s.when (state == 3 && t != 0) fun s => ((s.clearFabric t).imgLoad t s.boot.img).sysCrews t s.boot.img

/-- The part returns to P0 (R354). -/
def State.powerUp (s : State) (mr4 : List (Nat × Bool × Bool)) : State :=
  let st := s.f 0 PL_PSTATE_STATE
  if st = 0 then s
  else
    let s := s.setF 0 PL_PSTATE_STATE 0
    (s.each s.runTiles fun s t => s.wakeTile st mr4 t).raise 0 209

/-- A COMMAND during the entry into a power state abandons it (R353). -/
def State.abandonEntry (s : State) : State :=
  match s.host.entryTag with
  | none => s
  | some g =>
    let s := { s with host.entryTag := none }
    let s := ((s.setB 0 PL_PSTATE_ENTERING false).setF 0 PL_PSTATE_TARGET 0).setB 0 PL_PSTATE_ABANDONED true
    match s.hostCmd g with
    | some c => s.respond c rcAbandoned 0 []
    | none => s

/-- COMMAND: the oldest packet received, if it is one, is accepted, held or refused (R339 to R341, R351, R353, R354). `mr4` is what
each channel's MR4 reads if the command wakes the part. -/
def State.hostCommand (s : State) (mr4 : List (Nat × Bool × Bool)) : State :=
  match s.linkTake 0 0 1 with
  | (s, none) => s
  | (s, some p) =>
    if (s.hostCmd p.tag).isSome then s.linkProto 0 0 1
    else
      let s := (s.powerUp mr4).abandonEntry
      let c : HostCmd := { tag := p.tag, cap := p.body, arr := s.host.nextArr }
      let s := { s with host.nextArr := s.host.nextArr + 1 }
      if s.host.act ≠ 0 ∧ c.op ≠ 0x20 then
        if s.heldCount < 64 then s.enlist { c with held := true } else ((s.enlist c).reply c rcBusy 0 []).raise 0 208
      else (s.enlist c).arrive c

end Sys2Proof.Machine
end

