-- ==== Sys2Proof/Machine/Finish.lean ====
section
/-!
DEFINITION. How every command ends: what follows from it within the same command, then its stores reach DRAM.
-/

namespace Sys2Proof.Machine

/-- The unit that owns a section acts on its exchange (R41); `key` names tile, unit and section as `secKey` does. -/
def State.actExchange (s : State) (key : Nat) : State :=
  let t := key / 1024
  let u := key / 32 % 32
  let sec := key % 32
  if u = 4 then s.rawExchanged t sec
  else if u = 5 ∨ u = 6 then s.devExchanged t (u - 5)
  else if 7 ≤ u ∧ u ≤ 10 then s.outExchanged t (u - 7)
  else if u = 11 then s.crExchanged t sec
  else if u = 12 then s.recExchanged t sec
  else if 13 ≤ u ∧ u ≤ 16 then s.heExchanged t (u - 13)
  else if 17 ≤ u ∧ u ≤ 20 then s.hdExchanged t (u - 17)
  else s

/-- Every unit has acted on the exchanges that came about. -/
def State.actExchanges (s : State) : State :=
  let s := s.each (s.bench.exchanged.map (·.1)) State.actExchange
  { s with bench.exchanged := [] }

/-- Isolations that occurrences call for are made, and those that they call for in turn (R487). -/
def State.isolateAll (s : State) : Nat → State
  | 0 => s
  | k + 1 => if s.evt.isoDue = [] then s else (s.isolateDue).isolateAll k

/-- Encode contexts that have become stale drop what they hold (R309). -/
def State.staleContexts (s : State) : State :=
  s.each (s.hevc.enc.map (·.1)) fun s k => s.heStale (k / 0x100000) (k % 0x100000)

/-- A transaction that has ended and whose crew no longer holds it is FREE: the crew was stopped (R60, R80). -/
def State.freeEnded (s : State) : State :=
  s.each (s.bench.txns.map (·.1)) fun s i =>
    let x := s.txn i
    s.when (x.state == 4 && !x.host && (s.crew x.tile x.crew).tx != some i) fun s => s.txnFree i

/-- Links whose lanes have lost lock retrain, and links that are UP send what waits (R333, R337, R356). -/
def State.linksRun (s : State) : State :=
  s.each (s.lpl.map (·.1)) fun s k =>
    let t := k / 0x100000
    let l := k % 0x100000
    let s := s.linkWatch t l
    s.when ((s.link t l).txq != [] || (k == 0 && s.evt.asyncQ != [])) fun s => s.linkPump t l

/-- An activation window closes with its FW_COMMIT, and the commands it held enter the queue (R351). -/
def State.hostSettle (s : State) : State :=
  let s := s.when (s.host.act == 1 && (s.hostCmd s.host.actTag).isNone) fun s => { s with host.act := 0 }
  s.when (s.host.act == 0 && s.host.cmds.any (·.held)) State.releaseCmds

/-- What follows from a command within the same command. -/
def State.settle (s : State) : State :=
  (((s.actExchanges).isolateAll 8).staleContexts.freeEnded.hostSettle).linksRun

/-- The state a command ends in that began in s0 and led to s1: what follows from it, then the bytes stored reach memory; the queue
stays as it was, and the part stays the member it is. -/
def State.ended (s0 s1 : State) : State :=
  let s := s1.settle
  { s with dram := memCommit s0.dram s.writes, writes := [], pending := s0.pending, member := s0.member, grade := s0.grade }

/-- How every command ends. -/
def State.finish (s0 s1 : State) : Host.Outcome State Fault Refusal := .next (s0.ended s1)

end Sys2Proof.Machine
end

