-- ==== Sys2Proof/Machine/CmdAdit.lean ====
section
/-!
DEFINITION. The meanings of the Adit commands: when each applies, and the operation that is its effect. A command that does not
apply in the state it meets changes nothing (log 1).
-/

namespace Sys2Proof.Machine

/-- ADIT_ENABLE (R154). -/
def execAditEnable (t p : Nat) (s : State) : Host.Outcome State Fault Refusal :=
  s.finish (s.when (s.live t 1 && p < 4) fun s => s.adEnable t p true)

/-- ADIT_DISABLE (R154). -/
def execAditDisable (t p : Nat) (s : State) : Host.Outcome State Fault Refusal :=
  s.finish (s.when (s.live t 1 && p < 4) fun s => s.adEnable t p false)

/-- ADIT_FRAME_START (R165). -/
def execAditFrameStart (t p srcId fcnt : Nat) (lags : List Nat) (s : State) : Host.Outcome State Fault Refusal :=
  s.finish (s.when (s.live t 1 && p < 4) fun s => s.frameStart t p (srcId % 256) (fcnt % 2 ^ 32) lags)

/-- ADIT_LINE_START (R164). -/
def execAditLineStart (t p k line glane flags : Nat) (s : State) : Host.Outcome State Fault Refusal :=
  s.finish (s.when (s.live t 1 && p < 4) fun s => s.adStart t p k 1 (line % 65536) (glane % 256) (bit flags 0))

/-- ADIT_EMBEDDED_START (R155). -/
def execAditEmbeddedStart (t p k eline glane : Nat) (s : State) : Host.Outcome State Fault Refusal :=
  s.finish (s.when (s.live t 1 && p < 4) fun s => s.adStart t p k 2 (eline % 256) (glane % 256) false)

/-- ADIT_DATA_BLOCK (R157). -/
def execAditDataBlock (t p k payload : Nat) (s : State) : Host.Outcome State Fault Refusal :=
  s.finish (s.when (s.live t 1 && p < 4) fun s => s.adData t p k payload)

/-- ADIT_LINE_END (R161). -/
def execAditLineEnd (t p k count crc : Nat) (s : State) : Host.Outcome State Fault Refusal :=
  s.finish (s.when (s.live t 1 && p < 4) fun s => s.adEnd t p k (count % 2 ^ 24) (crc % 2 ^ 32))

/-- ADIT_LINE_CLOSE (R162). -/
def execAditLineClose (t p : Nat) (s : State) : Host.Outcome State Fault Refusal :=
  s.finish (s.when (s.live t 1 && p < 4 && s.adAllEnded t p) fun s => s.adCloseLine t p)

/-- ADIT_LINE_CLOSE_TIMEOUT (R162). -/
def execAditLineCloseTimeout (t p : Nat) (s : State) : Host.Outcome State Fault Refusal :=
  s.finish (s.when (s.live t 1 && p < 4 && s.adSomeEnded t p) fun s => s.adCloseLine t p)

/-- ADIT_FRAME_END (R165). -/
def execAditFrameEnd (t p lines sstat : Nat) (s : State) : Host.Outcome State Fault Refusal :=
  s.finish (s.when (s.live t 1 && p < 4) fun s => s.adFrameEnd t p (lines % 65536) (sstat % 65536))

/-- ADIT_FRAME_LATE (R166). -/
def execAditFrameLate (t p : Nat) (s : State) : Host.Outcome State Fault Refusal :=
  s.finish (s.when (s.live t 1 && p < 4) fun s => s.adLate t p)

/-- SG_FRAME_START_RECORD (R170). -/
def execSgFrameStartRecord (t p : Nat) (s : State) : Host.Outcome State Fault Refusal :=
  s.finish (s.when (s.live t 1 && p < 4) fun s => s.frameRecord t p)

/-- SG_LINE_REPORT (R171). -/
def execSgLineReport (t p : Nat) (s : State) : Host.Outcome State Fault Refusal :=
  s.finish (s.when (s.live t 1 && p < 4) fun s => s.sgReport t p)

/-- SG_FRAME_STATUS (R171). -/
def execSgFrameStatus (t p : Nat) (s : State) : Host.Outcome State Fault Refusal :=
  s.finish (s.when (s.live t 1 && p < 4) fun s => s.sgStatus t p)

/-- SG_RAW_RECEIVE (R169). -/
def execSgRawReceive (t p : Nat) (s : State) : Host.Outcome State Fault Refusal :=
  s.finish (s.when (s.live t 1 && p < 4) fun s => s.sgRaw t p)

/-- LINE_STORE_DISPATCH (R173). -/
def execLineStoreDispatch (t : Nat) (s : State) : Host.Outcome State Fault Refusal :=
  s.finish (s.when (s.live t 1) fun s => s.adDispatch t)

/-- SPI_START (R179). -/
def execSpiStart (t p v : Nat) (s : State) : Host.Outcome State Fault Refusal :=
  s.finish (s.when (s.live t 1 && p < 4) fun s => s.spiStart t p v)

/-- SPI_DONE (R179). -/
def execSpiDone (t p : Nat) (rx : List Nat) (s : State) : Host.Outcome State Fault Refusal :=
  s.finish (s.when (s.live t 1 && p < 4) fun s => s.spiDone t p rx)

/-- I2C_START (R180). -/
def execI2cStart (t p v : Nat) (s : State) : Host.Outcome State Fault Refusal :=
  s.finish (s.when (s.live t 1 && p < 4) fun s => s.i2cStart t p v)

/-- I2C_DONE (R180). -/
def execI2cDone (t p : Nat) (nack : Bool) (sent : Nat) (rx : List Nat) (s : State) : Host.Outcome State Fault Refusal :=
  s.finish (s.when (s.live t 1 && p < 4) fun s => s.i2cDone t p nack sent rx)

/-- I2C_TIMEOUT (R180). -/
def execI2cTimeout (t p : Nat) (s : State) : Host.Outcome State Fault Refusal :=
  s.finish (s.when (s.live t 1 && p < 4) fun s => s.i2cTimeout t p)

end Sys2Proof.Machine
end

