-- ==== Sys2Proof/Machine/CmdAudio.lean ====
section
/-!
DEFINITION. The meanings of the Audio commands: when each applies, and the operation that is its effect. A command that does not
apply in the state it meets changes nothing (log 1).
-/

namespace Sys2Proof.Machine

/-- AUDIO_RUN (R447). -/
def execAudioRun (s : State) : Host.Outcome State Fault Refusal :=
  s.finish (s.when (s.live 0 0) fun s => s.audRun)

/-- AUDIO_BLOCK (R449). -/
def execAudioBlock (samples : List (List Int)) (s : State) : Host.Outcome State Fault Refusal :=
  s.finish (s.when (s.live 0 0) fun s => s.audBlock samples)

/-- AUD_MASK_WRITE (R450). -/
def execAudMaskWrite (mask : Nat) (s : State) : Host.Outcome State Fault Refusal :=
  s.finish (s.when (s.live 0 0) fun s => s.audMask (mask % 65536))

/-- AUDIO_ZC_TIMEOUT (R451). -/
def execAudioZcTimeout (ch : Nat) (s : State) : Host.Outcome State Fault Refusal :=
  s.finish (s.when (s.live 0 0 && ch < 16) fun s => s.audZcTimeout ch)

/-- AUDIO_STOP (R454). -/
def execAudioStop (s : State) : Host.Outcome State Fault Refusal :=
  s.finish (s.when (s.live 0 0) fun s => s.audStop)

/-- TIME_CHANGE_APPLY (R102). -/
def execTimeChangeApply (n : Nat) (s : State) : Host.Outcome State Fault Refusal :=
  s.finish (s.when (n < 4) fun s => s.changeApply n)

end Sys2Proof.Machine
end

