-- ==== Sys2Proof/Machine/CmdBench.lean ====
section
/-!
DEFINITION. The meanings of the Bench commands: when each applies, and the operation that is its effect. A command that does not
apply in the state it meets changes nothing (log 1).
-/

namespace Sys2Proof.Machine

/-- UNIT_ARM (R42). -/
def execUnitArm (t u : Nat) (s : State) : Host.Outcome State Fault Refusal :=
  s.finish (s.when (s.live t 0 && decide (u < 25)) fun s => s.unitArm t u)

/-- UNIT_DISARM (R42). -/
def execUnitDisarm (t u : Nat) (s : State) : Host.Outcome State Fault Refusal :=
  s.finish (s.when (s.live t 0 && decide (u < 25)) fun s => s.unitDisarm t u)

/-- SECTION_EXCHANGE (R41). -/
def execSectionExchange (t u sec : Nat) (s : State) : Host.Outcome State Fault Refusal :=
  s.finish (s.when (s.live t 0 && decide (u < 25)) fun s => s.exchangeIdle t u sec)

/-- EPOCH_ADVANCE (R43). -/
def execEpochAdvance (s : State) : Host.Outcome State Fault Refusal :=
  s.finish (s.when (s.live 0 0) fun s => s.epochAdvance)

/-- EPOCH_UPDATE_RECEIVE (R43). -/
def execEpochUpdateReceive (t : Nat) (s : State) : Host.Outcome State Fault Refusal :=
  s.finish (s.when (s.live t 0 && s.msgOpen 0 t) fun s => s.epochReceive t)

/-- TXN_PREPARE_RECEIVE (R54). -/
def execTxnPrepareReceive (x t : Nat) (s : State) : Host.Outcome State Fault Refusal :=
  s.finish (s.when (s.live t 0 && s.msgOpen (s.txn x).tile t) fun s => s.prepareReceive x t)

/-- TXN_PREPARED_RECEIVE (R54). -/
def execTxnPreparedReceive (x t : Nat) (s : State) : Host.Outcome State Fault Refusal :=
  s.finish (s.when (s.live (s.txn x).tile 0 && s.msgOpen (s.txn x).tile t) fun s => s.answerReceive x t)

/-- TXN_GUARD_DEADLINE (R54). -/
def execTxnGuardDeadline (x : Nat) (s : State) : Host.Outcome State Fault Refusal :=
  s.finish (s.when (s.live (s.txn x).tile 0) fun s => s.guardDeadline x)

/-- TXN_DECISION_RECEIVE (R54). -/
def execTxnDecisionReceive (x t : Nat) (s : State) : Host.Outcome State Fault Refusal :=
  s.finish (s.when (s.live t 0 && s.msgOpen (s.txn x).tile t) fun s => s.decisionReceive x t)

/-- TXN_IMMEDIATE_TIMEOUT (R58). -/
def execTxnImmediateTimeout (x t : Nat) (s : State) : Host.Outcome State Fault Refusal :=
  s.finish (s.when (s.live t 0) fun s => s.immediateTimeout x t)

/-- TXN_SWAP_REPORT_RECEIVE (R58). -/
def execTxnSwapReportReceive (x t : Nat) (s : State) : Host.Outcome State Fault Refusal :=
  s.finish (s.when (s.live (s.txn x).tile 0 && s.msgOpen (s.txn x).tile t) fun s => s.reportReceive x t)

/-- TXN_REPORT_RESEND (R58). -/
def execTxnReportResend (x t : Nat) (s : State) : Host.Outcome State Fault Refusal :=
  s.finish (s.when (s.live t 0 && s.msgOpen (s.txn x).tile t) fun s => s.reportResend x t)

/-- TXN_END_TIMEOUT (R58). -/
def execTxnEndTimeout (x : Nat) (s : State) : Host.Outcome State Fault Refusal :=
  s.finish (s.when (s.live (s.txn x).tile 0) fun s => s.endTimeout x)

/-- TXN_POS_ACK_TIMEOUT (R54). -/
def execTxnPosAckTimeout (x : Nat) (s : State) : Host.Outcome State Fault Refusal :=
  s.finish (s.when (s.live (s.txn x).tile 0) fun s => s.posAckTimeout x)

/-- TXN_POS_ACK_RECEIVE (R54). -/
def execTxnPosAckReceive (x t : Nat) (s : State) : Host.Outcome State Fault Refusal :=
  s.finish (s.when (s.live (s.txn x).tile 0 && s.msgOpen (s.txn x).tile t) fun s => s.posAck x t)

end Sys2Proof.Machine
end

