-- ==== Sys2Proof/Machine/CmdCrew.lean ====
section
/-!
DEFINITION. The meanings of the Crew commands: when each applies, and the operation that is its effect. A command that does not
apply in the state it meets changes nothing (log 1).
-/

namespace Sys2Proof.Machine

/-- CTL_RESTART (R59). -/
def execCtlRestart (t : Nat) (ends : Bool) (s : State) : Host.Outcome State Fault Refusal :=
  s.finish (s.when (s.live t 0) fun s => s.ctlRestart t ends)

/-- CREW_WATCHDOG (R51). -/
def execCrewWatchdog (t c : Nat) (s : State) : Host.Outcome State Fault Refusal :=
  s.finish (s.when (s.live t 0) fun s => s.crewWatchdog t c)

/-- CREW_WAKE (R47). -/
def execCrewWake (t c : Nat) (s : State) : Host.Outcome State Fault Refusal :=
  s.finish (s.when (s.live t 0) fun s => s.crewWake t c)

/-- WAITT_DEADLINE (R82). -/
def execWaittDeadline (t c : Nat) (s : State) : Host.Outcome State Fault Refusal :=
  s.finish (s.when (s.live t 0) fun s => s.waittDeadline t c)

/-- DMA_TRANSFER (R87). -/
def execDmaTransfer (t : Nat) (s : State) : Host.Outcome State Fault Refusal :=
  s.finish (s.when (s.live t 0) fun s => s.dmaTransfer t)

/-- OPR (R73). -/
def execOpr (t c : Nat) (s : State) : Host.Outcome State Fault Refusal :=
  s.finish (s.when (s.live t 0) fun s => s.crewIssue t c 0x0000 (actOpr t c))

/-- ADDI (R72). -/
def execAddi (t c : Nat) (s : State) : Host.Outcome State Fault Refusal :=
  s.finish (s.when (s.live t 0) fun s => s.crewIssue t c 0x0100 (actAddi t c))

/-- ANDI (R72). -/
def execAndi (t c : Nat) (s : State) : Host.Outcome State Fault Refusal :=
  s.finish (s.when (s.live t 0) fun s => s.crewIssue t c 0x0200 (actAndi t c))

/-- ORI (R72). -/
def execOri (t c : Nat) (s : State) : Host.Outcome State Fault Refusal :=
  s.finish (s.when (s.live t 0) fun s => s.crewIssue t c 0x0300 (actOri t c))

/-- XORI (R72). -/
def execXori (t c : Nat) (s : State) : Host.Outcome State Fault Refusal :=
  s.finish (s.when (s.live t 0) fun s => s.crewIssue t c 0x0400 (actXori t c))

/-- SHI (R72). -/
def execShi (t c : Nat) (s : State) : Host.Outcome State Fault Refusal :=
  s.finish (s.when (s.live t 0) fun s => s.crewIssue t c 0x0500 (actShi t c))

/-- LUI (R72). -/
def execLui (t c : Nat) (s : State) : Host.Outcome State Fault Refusal :=
  s.finish (s.when (s.live t 0) fun s => s.crewIssue t c 0x0600 (actLui t c))

/-- LMI (R72). -/
def execLmi (t c : Nat) (s : State) : Host.Outcome State Fault Refusal :=
  s.finish (s.when (s.live t 0) fun s => s.crewIssue t c 0x0700 (actLmi t c))

/-- LHI (R72). -/
def execLhi (t c : Nat) (s : State) : Host.Outcome State Fault Refusal :=
  s.finish (s.when (s.live t 0) fun s => s.crewIssue t c 0x0800 (actLhi t c))

/-- CMP (R75). -/
def execCmp (t c : Nat) (s : State) : Host.Outcome State Fault Refusal :=
  s.finish (s.when (s.live t 0) fun s => s.crewIssue t c 0x0900 (actCmp t c))

/-- CMPI (R75). -/
def execCmpi (t c : Nat) (s : State) : Host.Outcome State Fault Refusal :=
  s.finish (s.when (s.live t 0) fun s => s.crewIssue t c 0x0A00 (actCmpi t c))

/-- PSET (R75). -/
def execPset (t c : Nat) (s : State) : Host.Outcome State Fault Refusal :=
  s.finish (s.when (s.live t 0) fun s => s.crewIssue t c 0x0B00 (actPset t c))

/-- LB (R72). -/
def execLb (t c : Nat) (s : State) : Host.Outcome State Fault Refusal :=
  s.finish (s.when (s.live t 0) fun s => s.crewIssue t c 0x1000 (actLb t c))

/-- LBU (R72). -/
def execLbu (t c : Nat) (s : State) : Host.Outcome State Fault Refusal :=
  s.finish (s.when (s.live t 0) fun s => s.crewIssue t c 0x1100 (actLbu t c))

/-- LH (R72). -/
def execLh (t c : Nat) (s : State) : Host.Outcome State Fault Refusal :=
  s.finish (s.when (s.live t 0) fun s => s.crewIssue t c 0x1200 (actLh t c))

/-- LHU (R72). -/
def execLhu (t c : Nat) (s : State) : Host.Outcome State Fault Refusal :=
  s.finish (s.when (s.live t 0) fun s => s.crewIssue t c 0x1300 (actLhu t c))

/-- LW (R72). -/
def execLw (t c : Nat) (s : State) : Host.Outcome State Fault Refusal :=
  s.finish (s.when (s.live t 0) fun s => s.crewIssue t c 0x1400 (actLw t c))

/-- LWU (R72). -/
def execLwu (t c : Nat) (s : State) : Host.Outcome State Fault Refusal :=
  s.finish (s.when (s.live t 0) fun s => s.crewIssue t c 0x1500 (actLwu t c))

/-- LD (R66). -/
def execLd (t c : Nat) (s : State) : Host.Outcome State Fault Refusal :=
  s.finish (s.when (s.live t 0) fun s => s.crewIssue t c 0x1600 (actLd t c))

/-- SB (R72). -/
def execSb (t c : Nat) (s : State) : Host.Outcome State Fault Refusal :=
  s.finish (s.when (s.live t 0) fun s => s.crewIssue t c 0x1800 (actSb t c))

/-- SH (R72). -/
def execSh (t c : Nat) (s : State) : Host.Outcome State Fault Refusal :=
  s.finish (s.when (s.live t 0) fun s => s.crewIssue t c 0x1900 (actSh t c))

/-- SW (R72). -/
def execSw (t c : Nat) (s : State) : Host.Outcome State Fault Refusal :=
  s.finish (s.when (s.live t 0) fun s => s.crewIssue t c 0x1A00 (actSw t c))

/-- SD (R66). -/
def execSd (t c : Nat) (s : State) : Host.Outcome State Fault Refusal :=
  s.finish (s.when (s.live t 0) fun s => s.crewIssue t c 0x1B00 (actSd t c))

/-- AMO (R76). -/
def execAmo (t c : Nat) (s : State) : Host.Outcome State Fault Refusal :=
  s.finish (s.when (s.live t 0) fun s => s.crewIssue t c 0x1C00 (actAmo t c))

/-- BC (R72). -/
def execBc (t c : Nat) (s : State) : Host.Outcome State Fault Refusal :=
  s.finish (s.when (s.live t 0) fun s => s.crewIssue t c 0x2000 (actBc t c))

/-- JAL (R72). -/
def execJal (t c : Nat) (s : State) : Host.Outcome State Fault Refusal :=
  s.finish (s.when (s.live t 0) fun s => s.crewIssue t c 0x2100 (actJal t c))

/-- JALR (R72). -/
def execJalr (t c : Nat) (s : State) : Host.Outcome State Fault Refusal :=
  s.finish (s.when (s.live t 0) fun s => s.crewIssue t c 0x2200 (actJalr t c))

/-- BWR (R79). -/
def execBwr (t c : Nat) (s : State) : Host.Outcome State Fault Refusal :=
  s.finish (s.when (s.live t 0) fun s => s.crewIssue t c 0x3000 (actBwr t c))

/-- BRD (R79). -/
def execBrd (t c : Nat) (s : State) : Host.Outcome State Fault Refusal :=
  s.finish (s.when (s.live t 0) fun s => s.crewIssue t c 0x3001 (actBrd t c))

/-- BRS (R79). -/
def execBrs (t c : Nat) (s : State) : Host.Outcome State Fault Refusal :=
  s.finish (s.when (s.live t 0) fun s => s.crewIssue t c 0x3002 (actBrs t c))

/-- TXBEGIN (R80). -/
def execTxbegin (t c : Nat) (s : State) : Host.Outcome State Fault Refusal :=
  s.finish (s.when (s.live t 0) fun s => s.crewIssue t c 0x3100 (actTxbegin t c))

/-- TXCOMMIT (R54). -/
def execTxcommit (t c : Nat) (s : State) : Host.Outcome State Fault Refusal :=
  s.finish (s.when (s.live t 0) fun s => s.crewIssue t c 0x3101 (actTxcommit t c))

/-- TXABORT (R80). -/
def execTxabort (t c : Nat) (s : State) : Host.Outcome State Fault Refusal :=
  s.finish (s.when (s.live t 0) fun s => s.crewIssue t c 0x3102 (actTxabort t c))

/-- TXSTAT (R80). -/
def execTxstat (t c : Nat) (s : State) : Host.Outcome State Fault Refusal :=
  s.finish (s.when (s.live t 0) fun s => s.crewIssue t c 0x3103 (actTxstat t c))

/-- WAIT (R82). -/
def execWait (t c : Nat) (s : State) : Host.Outcome State Fault Refusal :=
  s.finish (s.when (s.live t 0) fun s => s.crewIssue t c 0x3200 (actWait t c))

/-- WAITT (R82). -/
def execWaitt (t c : Nat) (s : State) : Host.Outcome State Fault Refusal :=
  s.finish (s.when (s.live t 0) fun s => s.crewIssue t c 0x3201 (actWaitt t c))

/-- FIRE (R82). -/
def execFire (t c : Nat) (s : State) : Host.Outcome State Fault Refusal :=
  s.finish (s.when (s.live t 0) fun s => s.crewIssue t c 0x3202 (actFire t c))

/-- ARM (R82). -/
def execArm (t c : Nat) (s : State) : Host.Outcome State Fault Refusal :=
  s.finish (s.when (s.live t 0) fun s => s.crewIssue t c 0x3203 (actArm t c))

/-- TRD (R84). -/
def execTrd (t c : Nat) (s : State) : Host.Outcome State Fault Refusal :=
  s.finish (s.when (s.live t 0) fun s => s.crewIssue t c 0x3300 (actTrd t c))

/-- LRD (R84). -/
def execLrd (t c : Nat) (s : State) : Host.Outcome State Fault Refusal :=
  s.finish (s.when (s.live t 0) fun s => s.crewIssue t c 0x3301 (actLrd t c))

/-- LTICK (R84). -/
def execLtick (t c : Nat) (s : State) : Host.Outcome State Fault Refusal :=
  s.finish (s.when (s.live t 0) fun s => s.crewIssue t c 0x3302 (actLtick t c))

/-- TINC (R106). -/
def execTinc (t c : Nat) (s : State) : Host.Outcome State Fault Refusal :=
  s.finish (s.when (s.live t 0) fun s => s.crewIssue t c 0x3308 (actTinc t c))

/-- TSTEP (R107). -/
def execTstep (t c : Nat) (s : State) : Host.Outcome State Fault Refusal :=
  s.finish (s.when (s.live t 0) fun s => s.crewIssue t c 0x3309 (actTstep t c))

/-- SEND (R85). -/
def execSend (t c : Nat) (s : State) : Host.Outcome State Fault Refusal :=
  s.finish (s.when (s.live t 0) fun s => s.crewIssue t c 0x3400 (actSend t c))

/-- RECV (R85). -/
def execRecv (t c : Nat) (s : State) : Host.Outcome State Fault Refusal :=
  s.finish (s.when (s.live t 0) fun s => s.crewIssue t c 0x3401 (actRecv t c))

/-- POST (R86). -/
def execPost (t c : Nat) (s : State) : Host.Outcome State Fault Refusal :=
  s.finish (s.when (s.live t 0) fun s => s.crewIssue t c 0x3500 (actPost t c))

/-- POLL (R86). -/
def execPoll (t c : Nat) (s : State) : Host.Outcome State Fault Refusal :=
  s.finish (s.when (s.live t 0) fun s => s.crewIssue t c 0x3501 (actPoll t c))

/-- TRAP (R89). -/
def execTrap (t c : Nat) (s : State) : Host.Outcome State Fault Refusal :=
  s.finish (s.when (s.live t 0) fun s => s.crewIssue t c 0x3F00 (actTrap t c))

/-- RETX (R89). -/
def execRetx (t c : Nat) (s : State) : Host.Outcome State Fault Refusal :=
  s.finish (s.when (s.live t 0) fun s => s.crewIssue t c 0x3F01 (actRetx t c))

/-- CSRR (R89). -/
def execCsrr (t c : Nat) (s : State) : Host.Outcome State Fault Refusal :=
  s.finish (s.when (s.live t 0) fun s => s.crewIssue t c 0x3F02 (actCsrr t c))

/-- CSRW (R89). -/
def execCsrw (t c : Nat) (s : State) : Host.Outcome State Fault Refusal :=
  s.finish (s.when (s.live t 0) fun s => s.crewIssue t c 0x3F03 (actCsrw t c))

/-- CSRS (R89). -/
def execCsrs (t c : Nat) (s : State) : Host.Outcome State Fault Refusal :=
  s.finish (s.when (s.live t 0) fun s => s.crewIssue t c 0x3F04 (actCsrs t c))

/-- CSRC (R89). -/
def execCsrc (t c : Nat) (s : State) : Host.Outcome State Fault Refusal :=
  s.finish (s.when (s.live t 0) fun s => s.crewIssue t c 0x3F05 (actCsrc t c))

/-- FENCE (R89). -/
def execFence (t c : Nat) (s : State) : Host.Outcome State Fault Refusal :=
  s.finish (s.when (s.live t 0) fun s => s.crewIssue t c 0x3F08 (actFence t c))

/-- HALT (R89). -/
def execHalt (t c : Nat) (s : State) : Host.Outcome State Fault Refusal :=
  s.finish (s.when (s.live t 0) fun s => s.crewIssue t c 0x3F09 (actHalt t c))

/-- YIELD (R89). -/
def execYield (t c : Nat) (s : State) : Host.Outcome State Fault Refusal :=
  s.finish (s.when (s.live t 0) fun s => s.crewIssue t c 0x3F0A (actYield t c))

end Sys2Proof.Machine
end

