-- ==== Sys2Proof/Machine/CmdCrush.lean ====
section
/-!
DEFINITION. The meanings of the Crush commands: when each applies, and the operation that is its effect. A command that does not
apply in the state it meets changes nothing (log 1).
-/

namespace Sys2Proof.Machine

/-- CRUSH_ROW_IN (R268). -/
def execCrushRowIn (t k : Nat) (s : State) : Host.Outcome State Fault Refusal :=
  s.finish (s.when (s.live t 4 && k < 4) fun s => s.crRowIn t k)

/-- CRUSH_SLAB_START (R269). -/
def execCrushSlabStart (t k : Nat) (s : State) : Host.Outcome State Fault Refusal :=
  s.finish (s.when (s.live t 4 && k < 4) fun s => s.crStart t k)

/-- CRUSH_SLAB_DONE (R261). -/
def execCrushSlabDone (t k n : Nat) (s : State) : Host.Outcome State Fault Refusal :=
  s.finish (s.when (s.live t 4 && k < 4) fun s => s.crDone t k n)

/-- CRUSH_SLAB_PLACE (R263). -/
def execCrushSlabPlace (t k : Nat) (s : State) : Host.Outcome State Fault Refusal :=
  s.finish (s.when (s.live t 4 && k < 8) fun s => s.slabPlace t k)

/-- CRUSH_APPEND (R265). -/
def execCrushAppend (t k : Nat) (s : State) : Host.Outcome State Fault Refusal :=
  s.finish (s.when (s.live t 4 && k < 4) fun s => s.crAppend t k)

/-- CRUSH_RESUME (R266). -/
def execCrushResume (t k : Nat) (s : State) : Host.Outcome State Fault Refusal :=
  s.finish (s.when (s.live t 4 && k < 4) fun s => s.crResume t k)

/-- CRUSH_CANCEL (R267). -/
def execCrushCancel (t k : Nat) (s : State) : Host.Outcome State Fault Refusal :=
  s.finish (s.when (s.live t 4 && k < 4) fun s => s.crCancel t k)

/-- CRUSH_JOB_START (R271). -/
def execCrushJobStart (t j : Nat) (s : State) : Host.Outcome State Fault Refusal :=
  s.finish (s.when (s.live t 4 && j < 4) fun s => s.cjStart t j)

/-- CRUSH_JOB_SUSPEND (R273). -/
def execCrushJobSuspend (t j : Nat) (s : State) : Host.Outcome State Fault Refusal :=
  s.finish (s.when (s.live t 4 && j < 4) fun s => s.cjSuspend t j)

/-- CRUSH_JOB_RESUME (R273). -/
def execCrushJobResume (t j : Nat) (s : State) : Host.Outcome State Fault Refusal :=
  s.finish (s.when (s.live t 4 && j < 4) fun s => s.cjResume t j)

/-- CRUSH_JOB_CANCEL (R273). -/
def execCrushJobCancel (t j : Nat) (s : State) : Host.Outcome State Fault Refusal :=
  s.finish (s.when (s.live t 4 && j < 4) fun s => s.cjCancel t j)

/-- CRUSH_DECODE_SLAB (R272). -/
def execCrushDecodeSlab (t j : Nat) (s : State) : Host.Outcome State Fault Refusal :=
  s.finish (s.when (s.live t 4 && j < 4) fun s => s.cjDecode t j)

end Sys2Proof.Machine
end

