-- ==== Sys2Proof/Machine/CmdDev.lean ====
section
/-!
DEFINITION. The meanings of the Dev commands: when each applies, and the operation that is its effect. A command that does not
apply in the state it meets changes nothing (log 1).
-/

namespace Sys2Proof.Machine

/-- DEV_ROW (R210). -/
def execDevRow (t n : Nat) (s : State) : Host.Outcome State Fault Refusal :=
  s.finish (s.when (s.live t 1 && n < 2) fun s => s.devRow t n)

end Sys2Proof.Machine
end

