-- ==== Sys2Proof/Machine/CmdHevcd.lean ====
section
/-!
DEFINITION. The meanings of the Hevcd commands: when each applies, and the operation that is its effect. A command that does not
apply in the state it meets changes nothing (log 1).
-/

namespace Sys2Proof.Machine

/-- HEVCD_START (R318). -/
def execHevcdStart (t c : Nat) (s : State) : Host.Outcome State Fault Refusal :=
  s.finish (s.when (s.live t 2 && c < 4) fun s => s.hdStart t c)

/-- HEVCD_RESTART (R318). -/
def execHevcdRestart (t c : Nat) (s : State) : Host.Outcome State Fault Refusal :=
  s.finish (s.when (s.live t 2 && c < 4) fun s => s.hdRestart t c)

/-- HEVCD_SUSPEND (R323). -/
def execHevcdSuspend (t c : Nat) (s : State) : Host.Outcome State Fault Refusal :=
  s.finish (s.when (s.live t 2 && c < 4) fun s => s.hdSuspend t c)

/-- HEVCD_RESUME (R323). -/
def execHevcdResume (t c : Nat) (s : State) : Host.Outcome State Fault Refusal :=
  s.finish (s.when (s.live t 2 && c < 4) fun s => s.hdResume t c)

/-- HEVCD_CANCEL (R323). -/
def execHevcdCancel (t c : Nat) (s : State) : Host.Outcome State Fault Refusal :=
  s.finish (s.when (s.live t 2 && c < 4) fun s => s.hdCancel t c)

/-- HEVCD_FINAL (R312). -/
def execHevcdFinal (t c : Nat) (s : State) : Host.Outcome State Fault Refusal :=
  s.finish (s.when (s.live t 2 && c < 4) fun s => s.hdFinal t c)

/-- HEVCD_IN_END_WRITE (R312). -/
def execHevcdInEndWrite (t c : Nat) (hi : Word) (s : State) : Host.Outcome State Fault Refusal :=
  s.finish (s.when (s.live t 2 && c < 4) fun s => s.hdInEnd t c hi.toNat)

/-- HEVCD_OUT_ACK_WRITE (R316). -/
def execHevcdOutAckWrite (t c ack : Nat) (s : State) : Host.Outcome State Fault Refusal :=
  s.finish (s.when (s.live t 2 && c < 4) fun s => s.hdAck t c (ack % 512))

/-- HEVCD_PICTURE_DECODE (R321). -/
def execHevcdPictureDecode (t c : Nat) (pic : CodedPic) (s : State) : Host.Outcome State Fault Refusal :=
  s.finish (s.when (s.live t 2 && c < 4) fun s => s.hdDecode t c pic)

/-- HEVCD_PICTURE_OUTPUT (R316). -/
def execHevcdPictureOutput (t c : Nat) (s : State) : Host.Outcome State Fault Refusal :=
  s.finish (s.when (s.live t 2 && c < 4) fun s => s.hdOutput t c)

end Sys2Proof.Machine
end

