-- ==== Sys2Proof/Machine/CmdHevce.lean ====
section
/-!
DEFINITION. The meanings of the Hevce commands: when each applies, and the operation that is its effect. A command that does not
apply in the state it meets changes nothing (log 1).
-/

namespace Sys2Proof.Machine

/-- HEVCE_INPUT_ROW (R296). -/
def execHevceInputRow (t c : Nat) (s : State) : Host.Outcome State Fault Refusal :=
  s.finish (s.when (s.live t 2 && c < 4) fun s => s.heInput t c)

/-- HEVCE_CTU (R304). -/
def execHevceCtu (t c regular bypass terminating : Nat) (motion : Nat × Nat) (size : Nat) (s : State) : Host.Outcome State Fault Refusal :=
  s.finish (s.when (s.live t 2 && c < 4) fun s => s.heCtu t c regular bypass terminating motion.1 size motion.2)

/-- HEVCE_CTU_FINISHED (R304). -/
def execHevceCtuFinished (t c size : Nat) (s : State) : Host.Outcome State Fault Refusal :=
  s.finish (s.when (s.live t 3 && c < 4) fun s => s.heFinished t c size)

/-- HEVCE_SUMP_DRAIN (R299). -/
def execHevceSumpDrain (t c : Nat) (s : State) : Host.Outcome State Fault Refusal :=
  s.finish (s.when (s.live t 2 && c < 4) fun s => s.heDrain t c)

/-- HEVCE_MARGIN_RECEIVE (R297). -/
def execHevceMarginReceive (t c : Nat) (s : State) : Host.Outcome State Fault Refusal :=
  s.finish (s.when (s.live t 2 && c < 4) fun s => s.heMargin t c)

/-- HEVCE_AU_WRITE (R296). -/
def execHevceAuWrite (t c : Nat) (au : List Byte × List (List Byte)) (s : State) : Host.Outcome State Fault Refusal :=
  s.finish (s.when (s.live t 3 && c < 4) fun s => s.heAuWrite t c (au.1.map (·.toNat)) (au.2.map fun l => l.map (·.toNat)))

/-- HEVCE_FORCE_IRAP (R307). -/
def execHevceForceIrap (t c : Nat) (s : State) : Host.Outcome State Fault Refusal :=
  s.finish (s.when (s.live t 2 && c < 4) fun s => s.heForce t c)

/-- HEVCE_START (R309). -/
def execHevceStart (t c : Nat) (s : State) : Host.Outcome State Fault Refusal :=
  s.finish (s.when (s.live t 2 && c < 4) fun s => s.heStart t c)

/-- HEVCE_SUSPEND (R309). -/
def execHevceSuspend (t c : Nat) (s : State) : Host.Outcome State Fault Refusal :=
  s.finish (s.when (s.live t 2 && c < 4) fun s => s.heSuspend t c)

/-- HEVCE_RESUME (R309). -/
def execHevceResume (t c : Nat) (s : State) : Host.Outcome State Fault Refusal :=
  s.finish (s.when (s.live t 2 && c < 4) fun s => s.heResume t c)

/-- HEVCE_CANCEL (R309). -/
def execHevceCancel (t c : Nat) (s : State) : Host.Outcome State Fault Refusal :=
  s.finish (s.when (s.live t 2 && c < 4) fun s => s.heCancel t c)

end Sys2Proof.Machine
end

