-- ==== Sys2Proof/Machine/HostVol.lean ====
section
/-!
DEFINITION. The volumes of the host link (R364 to R368, R283, R288, R289): what a block reads as and where a block written goes; READ,
WRITE, FLUSH and VERIFY.
-/

namespace Sys2Proof.Machine

/-! ### V0: registers and tables (R365) -/

/-- The host reads the word at an offset of V0, over Seam for a tile other than T0. -/
def State.hostRead (s : State) (o : Nat) : State × Nat × BusEnd :=
  let t := o / 0x1000000
  if 0x8000000 ≤ o then (s, 0, .absent)
  else if s.has t ∧ ¬ s.isolated t then
    let r := s.seamReach 0 t
    if r.2 then r.1.busRead 0 t (o % 0x1000000) else (r.1, 0, .closed)
  else s.busRead 0 t (o % 0x1000000)

/-- The host writes the word at an offset of V0; the last of its windows is the broadcast window. -/
def State.hostWrite (s : State) (o v : Nat) (txn : Option Nat) : State × BusEnd :=
  let t := o / 0x1000000
  if 0x9000000 ≤ o then (s, .absent)
  else if 0x8000000 ≤ o then s.broadcast 0 (o % 0x1000000) v txn
  else if s.has t ∧ ¬ s.isolated t then
    let r := s.seamReach 0 t
    if r.2 then r.1.busWrite 0 t (o % 0x1000000) v txn else (r.1, .closed)
  else s.busWrite 0 t (o % 0x1000000) v txn

/-- Read words in ascending order, or one place again and again, up to the first refused. -/
def State.hostReads (s : State) (o step : Nat) : Nat → List Nat → State × List Nat × BusEnd
  | 0, acc => (s, acc, .ok)
  | n + 1, acc =>
    let r := s.hostRead o
    if r.2.2 = .ok then r.1.hostReads (o + step) step n (acc ++ leBytes 4 r.2.1) else (r.1, acc, r.2.2)

/-- Write words in ascending order, or one place again and again, up to the first refused; the count of those written. -/
def State.hostWrites (s : State) (o step : Nat) (txn : Option Nat) : List Nat → Nat → State × Nat × BusEnd
  | [], k => (s, k, .ok)
  | v :: l, k =>
    let r := s.hostWrite o v txn
    if r.2 = .ok then r.1.hostWrites (o + step) step txn l (k + 1) else (r.1, k, r.2)

/-- The 32-bit words of bytes. -/
def wordsOf : Nat → List Nat → List Nat
  | 0, _ => []
  | n + 1, l => leNum (l.take 4) :: wordsOf n (l.drop 4)

/-- A range of V0 touches no window of an absent tile and, for a READ, not the broadcast window (R365). -/
def State.v0Ok (s : State) (block count : Nat) (write : Bool) : Bool :=
  let first := block / 4096
  let last := (block + count - 1) / 4096
  (List.range 9).all fun t => decide (t < first) || decide (last < t) || decide (t < s.tiles) || (t == 8 && write)

/-! ### V1: a frozen burst (R288, R289) -/

/-- A tile of the burst that can be read. -/
def State.v1Live (s : State) (t : Nat) : Bool := s.run t && s.f t BS_STAT_STATE == 3

/-- The frozen burst as T0 keeps it from the freeze on. -/
def State.v1 (s : State) : BurV1 := (s.bur 0).v1.getD {}

/-- Bytes of a frame's row over all tiles, RB_F. -/
def State.v1Row (s : State) : Nat := ((s.bur 0).cols.map (·.2.2)).foldl (· + ·) 0

/-- Frames of the burst. -/
def State.v1Frames (s : State) : Nat := s.v1.n

/-- Blocks of records. -/
def State.v1Records (s : State) : Nat := (32 * s.v1Frames + 4095) / 4096

/-- Blocks of a frame. -/
def State.v1FrameBlocks (s : State) : Nat := (s.v1.h * s.v1Row + 4095) / 4096

/-- Size of V1 (R364). -/
def State.v1Blocks (s : State) : Nat :=
  if s.f 0 BS_STAT_STATE = 3 then 1 + s.v1Records + s.v1Frames * s.v1FrameBlocks else 0

/-- The tiles of the burst that can be read, from left to right. -/
def State.v1Tiles (s : State) : List Nat := ((s.bur 0).cols.map (·.1)).filter s.v1Live

/-- The place of the burst's frame j on a tile that has stored every frame of it: slot and index entry. -/
def State.v1Own (s : State) (t j : Nat) : Option (Nat × BurstEnt) :=
  let b := s.bur t
  let i := (b.first + j) % b.geo.slots
  (smLook b.index i).map fun e => (i, e)

/-- Slot and index entry of frame j on a tile: the frame with the counter that the leftmost tile that can be read has for it. -/
def State.v1Ent (s : State) (t j : Nat) : Option (Nat × BurstEnt) :=
  match s.v1Own (s.v1Tiles.headD 0) j with
  | none => none
  | some (_, r) =>
    match s.v1Own t j with
    | some x => if x.2.cnt = r.cnt then some x else (s.bur t).index.find? fun y => y.2.cnt = r.cnt && decide (y.2.ser ≤ (s.bur t).stopAt)
    | none => (s.bur t).index.find? fun y => y.2.cnt = r.cnt && decide (y.2.ser ≤ (s.bur t).stopAt)

/-- Index entries of frame j on the tiles that can be read. -/
def State.v1Entries (s : State) (j : Nat) : List BurstEnt := s.v1Tiles.filterMap fun t => (s.v1Ent t j).map (·.2)

/-- Rows of frame j: the least over the tiles. -/
def State.v1RowsOf (s : State) (j : Nat) : Nat :=
  match s.v1Entries j with
  | [] => 0
  | e :: l => l.foldl (fun m x => min m x.rows) e.rows

/-- The record of frame j. -/
def State.v1Record (s : State) (j : Nat) : List Nat :=
  let l := s.v1Entries j
  let e := l.headD {}
  let lost := decide (l.length < (s.bur 0).cols.length)
  let st := (l.foldl (fun m x => m ||| x.status) 0) ||| (if lost then 2 ^ stDamaged else 0)
  leBytes 4 e.cnt ++ leBytes 4 st ++ leBytes 8 e.n ++ leBytes 4 (s.v1RowsOf j) ++ leBytes 12 0

/-- Block 0 of V1. -/
def State.v1Header (s : State) : List Nat :=
  let v := s.v1
  let l := leBytes 4 1 ++ leBytes 4 v.n ++ leBytes 2 v.w ++ leBytes 2 v.h ++ leBytes 4 v.bits ++ leBytes 4 s.v1Row ++ leBytes 4 v.pre ++
    leBytes 8 (s.reg 0 BS_TFCNT) ++ leBytes 8 (s.reg64 0 BS_TTIME_LO) ++ leBytes 4 (s.bur 0).kind ++ leBytes 4 (b2n v.short) ++ leBytes 4 v.lost
  l ++ List.replicate (4096 - l.length) 0

/-- The tile and the place in its stored row that a byte of a frame's row comes from. -/
def colOf : List (Nat × Nat × Nat) → Nat → Option (Nat × Nat × Nat)
  | [], _ => none
  | (t, _, rb) :: l, x => if x < rb then some (t, rb, x) else colOf l (x - rb)

/-- DRAM place of the 8-byte word at an offset of the frame region; none where a word reads as 0. -/
def State.v1Place (s : State) (o : Nat) : Option (Nat × Nat) :=
  let fb := s.v1FrameBlocks * 4096
  let j := o / fb
  let y := o % fb / s.v1Row
  if s.v1Row = 0 ∨ s.v1.h ≤ y ∨ s.v1RowsOf j ≤ y then none
  else match colOf (s.bur 0).cols (o % fb % s.v1Row) with
    | some (t, rb, x) =>
      let g := (s.bur t).geo
      if s.v1Live t then (s.v1Ent t j).map fun e => (t, g.base + e.1 * g.bytes + y * rb + x) else none
    | none => none

/-- Read words of the frame region: bytes and the places of poisoned words. T0 gathers what other tiles hold over Seam. -/
def State.v1Words (s : State) (o : Nat) : Nat → List Nat → Option Nat → State × List Nat × Option Nat
  | 0, acc, p => (s, acc, p)
  | n + 1, acc, p =>
    match s.v1Place o with
    | none => s.v1Words (o + 8) n (acc ++ leBytes 8 0) p
    | some (t, a) =>
      let r := s.rdAt t a 8 11
      r.1.v1Words (o + 8) n (acc ++ r.2.1) (if r.2.2 ∧ p.isNone then some acc.length else p)

/-- Write a word of V1 (R289): a record's fields go to every tile's index, a frame's bytes to the tile that stores them. -/
def State.v1Put (s : State) (o : Nat) (bs : List Nat) (poison : Bool) : State :=
  match s.v1Place o with
  | some (t, a) => s.wrAt (port := 11) t a bs poison
  | none => s

/-- Write record j. -/
def State.v1PutRecord (s : State) (j : Nat) (bs : List Nat) : State :=
  let at_ := s.v1Tiles.filterMap fun t => (s.v1Ent t j).map fun x => (t, x)
  s.each at_ fun s (t, i, e) =>
    let b := s.bur t
    s.setBur t { b with index := smIns i { e with
      cnt := pktField bs 0 4, status := pktField bs 4 4, n := pktField bs 8 8, rows := pktField bs 16 4 } b.index }

/-! ### V15 (R366) -/

def State.v15Bytes (s : State) (o n : Nat) : List Nat := (List.range n).map fun i => smGet s.host.v15 (o + i) 0

/-- First poisoned byte of a run of V15, from its start. -/
def State.v15Bad (s : State) (o n : Nat) : Option Nat :=
  ((List.range ((n + 7) / 8)).find? fun i => smGet s.host.v15Poison (o / 8 + i) false).map (8 * ·)

/-- Store bytes in V15. -/
def State.v15Put (s : State) (o : Nat) : List Nat → State
  | [] => s
  | b :: l => { s with host.v15 := smPut s.host.v15 o b 0 }.v15Put (o + 1) l

/-- Store a block in V15 with the poison marks of the data it came with. -/
def State.v15Block (s : State) (c : HostCmd) (o from_ : Nat) : State :=
  let s := s.v15Put o (c.got from_ 4096)
  s.each (List.range 512) fun s i =>
    { s with host.v15Poison := smPut s.host.v15Poison (o / 8 + i) (c.isBad (from_ + 8 * i) 8) false }

/-! ### Blocks -/

/-- What a block gave: not there yet; its bytes, the first poisoned one, whether a word of it failed its check; a failure with the
bytes that came before it. -/
inductive BlockEnd where
  | wait
  | done (data : List Nat) (poison : Option Nat) (ue : Bool)
  | fail (status : Nat) (data : List Nat)

/-- Blocks of an extent of a take (R280). -/
def State.extBlocks (s : State) (k : Nat) : Nat := s.extBytes k / 4096

/-- Size of a volume (R364). -/
def State.volBlocks (s : State) (v : Nat) : Nat :=
  if v = 0 then 36864
  else if v = 1 then s.v1Blocks
  else if v = 15 then 16384
  else s.f 0 (TK_DUR_EXTENTS (v - 2)) * s.extBlocks (v - 2)

/-- A block of a take, read from its extent's magazine (R283). -/
def State.takeBlock (s : State) (c : HostCmd) (k b : Nat) : State × BlockEnd :=
  let per := s.extBlocks k
  match s.extPlace k (b / per) with
  | none => (s, .fail rcField [])
  | some (m, base) =>
    let blk := base + b % per
    match (s.mag m).find? fun q => q.use = 2 && q.who = c.tag with
    | none =>
      if s.isolated m then (s, .fail rcIsolated [])
      else ((s.magIssue m 1 2 c.tag blk (ioCapsule 1 blk 1) [] []).1, .wait)
    | some q => match q.status with
      | none => (s, .wait)
      | some st =>
        let s := (s.magDrop m q.tag).magFreed
        if q.num ≠ blk then (s, .wait)
        else if st = rcSuccess ∨ st = rcPoison then (s, .done (q.data ++ List.replicate (4096 - q.data.length) 0) q.poison false)
        else (s, .fail rcMedium [])

/-- Read block b of volume v for a command. -/
def State.blockRead (s : State) (c : HostCmd) (v b : Nat) : State × BlockEnd :=
  if v = 0 then
    let r := s.hostReads (b * 4096) 4 1024 []
    (r.1, if r.2.2 = .ok then .done r.2.1 none false else .fail r.2.2.status r.2.1)
  else if v = 1 then
    if b = 0 then (s, .done s.v1Header none false)
    else if b ≤ s.v1Records then
      let l := (List.range 128).flatMap fun i => let j := (b - 1) * 128 + i
        if j < s.v1Frames then s.v1Record j else leBytes 32 0
      (s, .done l none false)
    else
      let r := s.v1Words ((b - 1 - s.v1Records) * 4096) 512 [] none
      (r.1, .done r.2.1 r.2.2 (decide (r.1.mem.ueTotal ≠ s.mem.ueTotal)))
  else if v = 15 then (s, .done (s.v15Bytes (b * 4096) 4096) (s.v15Bad (b * 4096) 4096) false)
  else s.takeBlock c (v - 2) b

/-- Own checks of a command on blocks (R364, R365, R283, R288, R289): 0 or the status that answers. -/
def State.volCheck (s : State) (c : HostCmd) (write : Bool) : Nat :=
  let v := c.fld 4 1
  let b := c.fld 8 8
  let n := c.fld 16 4
  if v = 1 ∧ ¬ write ∧ s.f 0 BS_STAT_STATE ≠ 3 then rcNotFound
  else if s.volBlocks v < b + n then rcField
  else if v = 0 ∧ ¬ s.v0Ok b n write then rcField
  else if write ∧ (2 ≤ v ∧ v ≤ 9 ∨ v = 1 ∧ b = 0) then rcField
  else rcSuccess

/-- READ: its checks, then one block with each step (R344, R345). -/
def State.readStep (s : State) (tag : Nat) : State :=
  s.onCmd tag 0x01 fun s c first =>
    let st := if first then s.volCheck c false else 0
    if st ≠ 0 then s.respond c st 0 []
    else
      let b := c.fld 8 8 + c.pos
      let o := 4096 * c.pos
      match s.blockRead c (c.fld 4 1) b with
      | (s, .wait) => s
      | (s, .fail st data) =>
        (s.sendData c o (padTo8 data) none).respond c st (o + data.length) (if st = rcMedium then leBytes 8 b else [])
      | (s, .done data p _) =>
        let p := p.map (o + ·)
        let s := s.sendData c o data p
        let c := { c with pos := c.pos + 1, poison := c.poison.orElse fun _ => p }
        if c.fld 16 4 ≤ c.pos then
          match c.poison with
          | some a => s.respond c rcPoison (4096 * c.pos) (leBytes 8 a)
          | none => s.respond c rcSuccess (4096 * c.pos) []
        else s.setCmd c

/-- Write the next block of a WRITE to its medium (R346): the status that ends the command, and the words that a V0 block wrote. A V0
block that came poisoned is not written, as registers keep no poison (R345). -/
def State.blockWrite (s : State) (c : HostCmd) : State × Nat × Nat :=
  let v := c.fld 4 1
  let b := c.fld 8 8 + c.pos
  let o := 4096 * c.pos
  if v = 0 then
    if c.isBad o 4096 then (s, rcPoison, 0)
    else
      let r := s.hostWrites (b * 4096) 4 none (wordsOf 1024 (c.got o 4096)) 0
      (r.1, r.2.2.status, r.2.1)
  else if v = 15 then (s.v15Block c (b * 4096) o, rcSuccess, 0)
  else if b ≤ s.v1Records then
    (s.each (List.range 128) fun s i => s.v1PutRecord ((b - 1) * 128 + i) (c.got (o + 32 * i) 32), rcSuccess, 0)
  else
    let q := (b - 1 - s.v1Records) * 4096
    (s.each (List.range 512) fun s i => s.v1Put (q + 8 * i) (c.got (o + 8 * i) 8) (c.isBad (o + 8 * i) 8), rcSuccess, 0)

/-- WRITE: its checks and windows, then one block with each step once the block's data has come (R343, R346). -/
def State.writeStep (s : State) (tag : Nat) : State :=
  s.onCmd tag 0x02 fun s c first =>
    let st := if first then s.volCheck c true else 0
    if st ≠ 0 then s.respond c st 0 []
    else if first then s.openWindows tag 4
    else if !c.has (4096 * c.pos) 4096 then s
    else
      let r := s.blockWrite c
      let s := r.1
      if r.2.1 ≠ 0 then s.respond c r.2.1 (4096 * c.pos + 4 * r.2.2) []
      else
        let c := ({ c with pos := c.pos + 1 } : HostCmd).forget (4096 * (c.pos + 1))
        if c.fld 16 4 ≤ c.pos then s.respond c rcSuccess (4096 * c.pos) [] else (s.setCmd c).openWindows tag 4

/-- The WRITEs that a FLUSH covers: earlier ones, of the volumes it names (R342). -/
def covers (c : HostCmd) (arr vol : Nat) : Bool := decide (arr < c.arr) && bit (c.fld 4 2) vol

/-- FLUSH: completes when every covered WRITE has (R342). -/
def State.flushStep (s : State) (tag : Nat) : State :=
  s.onCmd tag 0x03 fun s c _ =>
    if s.host.cmds.any fun d => d.op = 0x02 && covers c d.arr (d.fld 4 1) then s
    else
      let bad := s.host.failed.filter fun x => covers c x.1 x.2.1
      match bad.foldl (fun (a : Option (Nat × Nat × Nat × Nat)) x => match a with
          | some y => if x.1 < y.1 then some x else some y
          | none => some x) none with
      | some x => s.respond c x.2.2.1 0 [x.2.2.2]
      | none => s.respond c rcSuccess 0 []

/-! ### VERIFY (R368) -/

/-- The slabs that lie whole in a RAW chunk's buffer pass the checks of R272: fields, CRC, code words. -/
def slabsOk (e v : Nat) : Nat → Nat → Bool
  | 0, _ => true
  | k + 1, pos =>
    let h := bits v pos 64
    let cb := bits h 25 17
    let n := bits h 12 13
    let b := 8 + 2 * bits h 8 3
    if e < pos + 64 + cb then true
    else
      let pay := bits v (pos + 64) cb
      bits h 5 3 == 0 && bits h 42 6 == 0 && n != 0 && (!bit h 0 || cb == n * b) &&
        crc16 (leBytes 6 h ++ leBytes ((cb + 7) / 8) pay) == bits h 48 16 &&
        (bit h 0 || match lzwDecode (n * resBytes b) (cb + 1) pay cb 1 [] [] [] with
          | .ok _ => true
          | .error _ => false) &&
        slabsOk e v k ((pos + 64 + cb + 63) / 64 * 64)

/-- The payload of a RAW chunk decodes: the buffer's write-back words, then the buffer (R276, R271). -/
def rawChunkOk (p : List Nat) : Bool :=
  let w := pktField p 4 4
  bit w 28 || slabsOk (pktField p 0 4) (leNum (p.drop 16)) (p.length / 8 + 1) (w % 2 ^ 25 * 64)

/-- Chunks that end in the bytes gathered since a chunk began: how many fail, and what remains; none remains where padding begins
(R277, R280). -/
def chunkScan (deep : Bool) : Nat → List Nat → Nat → Nat × Option (List Nat)
  | 0, l, bad => (bad, some l)
  | k + 1, l, bad =>
    if l.length < 32 then (bad, some l)
    else if pktField l 0 4 = 0 then (bad, none)
    else
      let len := pktField l 0x18 4
      let total := 32 + (len + 7) / 8 * 8
      if l.length < total then (bad, some l)
      else
        let pay := (l.drop 32).take len
        let ok := crc32 (l.take 0x1C ++ pay) == pktField l 0x1C 4 &&
          (!deep || bits (pktField l 4 4) 4 3 != 0 || bit (pktField l 4 4) 8 || rawChunkOk pay)
        chunkScan deep k (l.drop total) (if ok then bad else bad + 1)

/-- Check the chunks of a take's block: chunks are followed from an extent's start. The failures, and the command with what it has
gathered. -/
def State.chunkCheck (s : State) (c : HostCmd) (b : Nat) (data : List Nat) : Nat × HostCmd :=
  let fresh := b % s.extBlocks (c.fld 4 1 - 2) = 0
  if c.n2 = 0 ∧ ¬ fresh then (0, c)
  else
    match chunkScan (c.flag 1) 4096 ((if fresh then [] else c.bytes) ++ data) 0 with
    | (bad, some l) => (bad, { c with n2 := 1, bytes := l })
    | (bad, none) => (bad, { c with n2 := 0, bytes := [] })

/-! ### Checkpoints of long operations (R384, R466) -/

/-- Bytes, or elements, that a long operation has dealt with: what SUSPENDED reports. -/
def HostCmd.progress (c : HostCmd) : Nat := if c.op = 0x04 then 4096 * c.pos else c.pos

/-- XFERRED of a long operation: VERIFY counts the bytes checked (R368), the others move no data (R361). -/
def HostCmd.longMoved (c : HostCmd) : Nat := if c.op = 0x04 then 4096 * c.pos else 0

/-- Answer the SUSPEND or CANCEL of a tag. -/
def State.replyTag (s : State) (g st : Nat) : State :=
  match s.hostCmd g with
  | some d => s.reply d st 0 []
  | none => s

/-- An operation is suspended: it answers SUSPENDED and is kept under a new OPID; SUSPEND answers after it. With 16 kept already SUSPEND
answers BUSY_RETRY and the operation runs on. -/
def State.opSuspend (s : State) (c : HostCmd) (g : Nat) : State :=
  if 16 ≤ s.host.ops.length then (s.setCmd { c with stop := none }).replyTag g rcBusy
  else
    let id := s.host.nextOpid
    let s := { s with host.nextOpid := id + 1, host.ops := s.host.ops ++ [(⟨id, { c with stop := none, started := false }⟩ : HostOp)] }
    (s.reply c rcSuspended c.longMoved (leBytes 8 id ++ leBytes 8 c.progress)).replyTag g rcSuccess

/-- An operation ends CANCELLED; CANCEL answers after it. -/
def State.opCancel (s : State) (c : HostCmd) (g : Nat) : State :=
  ((s.transStop c).reply c rcCancelled c.longMoved []).replyTag g rcSuccess

/-- A checkpoint of an operation: what waits for it takes effect, or the arbiter's pause does. -/
def State.checkpoint (s : State) (c : HostCmd) : State :=
  match c.stop with
  | some (0x21, g) => (s.setCmd c).opSuspend c g
  | some (_, g) => s.opCancel c g
  | none =>
    let s := s.setCmd c
    match c.jobKind with
    | some k => s.arbSet k 0 c.tag fun (j : ArbJob) => if j.st = 3 then { j with st := 2, pausedAt := s.now } else j
    | none => s

/-- As `onCmd`, for a long operation, which also goes on to the checkpoint of a pause that it has been asked for. -/
def State.onLong (s : State) (tag op : Nat) (k : State → HostCmd → Bool → State) : State :=
  match s.host.cmds.find? fun c => c.tag = tag && c.op = op with
  | none => s
  | some c =>
    let runs : Bool := match c.jobKind with
      | some j => match s.arbFind j 0 tag with
        | some j => j.st == 1 || j.st == 3
        | none => false
      | none => false
    if s.firmware && (c.started || s.mayStart c) && runs then
      let d := { c with started := true }
      k (s.setCmd d) d (!c.started && c.pos == 0)
    else s

/-- A failure that VERIFY found (R368, R372). -/
def State.verifyFail (s : State) (c : HostCmd) (b n : Nat) : State × HostCmd :=
  let s := s.logError 4 c.tag c.op 0 rcCheck (c.fld 4 1) b 1 []
  (s, { c with n1 := c.n1 + n, first := c.first.orElse fun _ => some b })

/-- VERIFY: its checks, then one block with each step (R368). -/
def State.verifyStep (s : State) (tag : Nat) : State :=
  s.onLong tag 0x04 fun s c first =>
    let st := if first then s.volCheck c false else 0
    if st ≠ 0 then s.respond c st 0 []
    else
      let v := c.fld 4 1
      let b := c.fld 8 8 + c.pos
      match s.blockRead c v b with
      | (s, .wait) => s
      | (s, .fail st _) => s.respond c st c.longMoved (if st = rcMedium then leBytes 8 b else [])
      | (s, .done data p ue) =>
        let q : Nat × HostCmd := if 2 ≤ v ∧ v ≤ 9 then s.chunkCheck c b data else (b2n ue, c)
        let r : State × HostCmd := if q.1 = 0 then (s, q.2) else s.verifyFail q.2 b q.1
        let s := r.1
        let c : HostCmd := { r.2 with pos := r.2.pos + 1, poison := if p.isSome && !ue then r.2.poison.orElse fun _ => some b else r.2.poison }
        if c.fld 16 4 ≤ c.pos then
          match c.first, c.poison with
          | some x, _ => s.respond c rcCheck c.longMoved (leBytes 8 x ++ leBytes 4 c.n1)
          | none, some x => s.respond c rcPoison c.longMoved (leBytes 8 x ++ leBytes 4 0)
          | none, none => s.respond c rcSuccess c.longMoved []
        else s.checkpoint c

end Sys2Proof.Machine
end

