-- ==== Sys2Proof/Machine/HostSys.lean ====
section
/-!
DEFINITION. Commands of the host on the part as a whole (R352, R353, R357, R369 to R380, R539, R540): IDENTIFY, logs, features, power
states, attestation, debug unlock, time exchange.
-/

namespace Sys2Proof.Machine

/-- A list of bytes with a run of it replaced. -/
def putAt (o : Nat) (bs l : List Nat) : List Nat := l.take o ++ bs ++ l.drop (o + bs.length)

/-- Place fields, as (offset, bytes), in n bytes of 0. -/
def layout (n : Nat) (l : List (Nat × List Nat)) : List Nat := l.foldl (fun a f => putAt f.1 f.2 a) (List.replicate n 0)

/-- A mask of the tiles for which p holds. -/
def State.tileMask (s : State) (p : Nat → Bool) : Nat := (s.tileList.filter p).foldl orBit 0

/-! ### The boot flash (R525, R527) -/

/-- The image that a slot of the flash holds, up to its PAYLOAD_LEN. -/
def State.flashImg (s : State) (slot : Nat) : List Nat :=
  let b := (if slot = 1 then s.boot.flash.slotB else s.boot.flash.slotA).map (·.toNat)
  b.take (4096 + imgF b 0x10 4)

/-- A read of the slot fails. -/
def State.flashErr (s : State) (slot : Nat) : Bool := if slot = 1 then s.boot.flash.errB else s.boot.flash.errA

/-- IMAGE_VERSION of a slot, 0 if empty (R369). -/
def State.slotVersion (s : State) (slot : Nat) : Nat :=
  let b := s.flashImg slot
  if imgF b 0 4 = 0x45424D46 then imgF b 8 4 else 0

/-- Store an image in a slot. -/
def State.flashPut (s : State) (slot : Nat) (b : List Nat) : State :=
  let l : List Byte := b.map (BitVec.ofNat 8 ·)
  if slot = 1 then { s with boot.flash := { s.boot.flash with slotB := l, errB := false } }
  else { s with boot.flash := { s.boot.flash with slotA := l, errA := false } }

/-- The directory in force: the valid copy with the higher SEQ; the flag says that it is copy 1. -/
def flashDir (f : FlashData) : Option ((Nat × Nat × Nat) × Bool) :=
  match f.dir0, f.dir1 with
  | some a, some b => if a.1 < b.1 then some (b, true) else some (a, false)
  | some a, none => some (a, false)
  | none, some b => some (b, true)
  | none, none => none

/-- The slot booted at the next reset. -/
def State.bootSlot (s : State) : Nat := match flashDir s.boot.flash with
  | some (d, _) => d.2.1
  | none => 0

/-- Write the directory copy that does not hold the higher SEQ (R527). With no valid copy the spec gives no SEQ: a free value. -/
def State.setBootSlot (s : State) (slot : Nat) : State :=
  match flashDir s.boot.flash with
  | some (d, true) => { s with boot.flash := { s.boot.flash with dir0 := some ((d.1 + 1) % 2 ^ 32, slot, d.2.2) } }
  | some (d, false) => { s with boot.flash := { s.boot.flash with dir1 := some ((d.1 + 1) % 2 ^ 32, slot, d.2.2) } }
  | none =>
    let r := s.fresh
    { r.2 with boot.flash := { r.2.boot.flash with dir0 := some (r.1 % 2 ^ 32, slot, 100) } }

/-! ### IDENTIFY (R369) -/

/-- The part's number. -/
def Member.part : Member → Nat
  | .tiles2 => 8802
  | .tiles4 => 8804
  | .tiles8 => 8808

/-- The serial number of the package. -/
def State.serial (s : State) : List Nat := (List.range 4).flatMap fun w => leBytes 4 (s.reg 0 (SEC_SERIAL w))

/-- Bytes of ID_CERT. -/
def idCert : List Nat := (List.range (min 2032 Config.idCertLen.toNat)).map fun i => (Config.idCertByte i).toNat

/-- The 4,096 bytes of IDENTIFY. -/
def State.identifyData (s : State) : List Nat :=
  let usable := if s.step_ < 6 then 0 else s.dramSize 0 / 2 ^ 20
  layout 4096 [
    (0x000, leBytes 4 1), (0x004, leBytes 2 s.member.part), (0x006, [s.tiles]), (0x007, [if s.grade = .x then 1 else 0]), (0x008, [0xA1]),
    (0x009, [s.step_]),
    (0x00A, [b2n s.ready + 2 * b2n (s.on 0 PLIM_STAT_LIMITED) + 4 * b2n (s.on 0 SEC_STAT_DEBUG_UNLOCKED) + 8 * s.boot.slot + 16]),
    (0x00B, [s.tileMask s.run]), (0x00C, [s.tileMask s.isolated]), (0x00D, [s.f 0 PL_PSTATE_STATE]),
    (0x010, leBytes 4 (s.reg 0 BOOT_ROMVER)), (0x014, leBytes 4 (s.reg 0 BOOT_FWVER)),
    (0x018, leBytes 4 (s.slotVersion 0)), (0x01C, leBytes 4 (s.slotVersion 1)), (0x020, leBytes 4 (s.f 0 BOOT_ROLLBACK_COUNT)),
    (0x024, leBytes 4 (s.reg 0 EPOCH)), (0x028, leBytes 8 (s.tcN 0 0)), (0x030, s.serial), (0x040, leBytes 4 usable),
    (0x044, leBytes 4 (s.v1Blocks)),
    (0x048, (List.range 8).flatMap fun k => leBytes 8 (s.volBlocks (2 + k))),
    (0x088, leBytes 2 256), (0x08A, leBytes 2 64), (0x08C, leBytes 4 262144),
    (0x090, [s.tileMask fun t => s.on t (PL_CTL_EN 1)]), (0x091, [s.tileMask fun t => s.linkState t 1 == 2]),
    (0x800, leBytes 2 idCert.length), (0x810, idCert)]

/-- IDENTIFY. -/
def State.identifyStep (s : State) (tag : Nat) : State :=
  s.onCmd tag 0x10 fun s c _ => s.answerData c s.identifyData []

/-! ### Logs (R370 to R376) -/

/-- A log as its page shows it: entry size, capacity, SEQ to come, LOST, entries with their SEQ. -/
structure LogPage where
  size : Nat
  cap : Nat
  seq : Nat
  lost : Nat
  ents : List (Nat × List Nat)

/-- An error-log entry (R372). -/
def ErrEnt.bytes (e : ErrEnt) : List Nat :=
  leBytes 8 e.seq ++ leBytes 8 e.n ++ [e.kind, e.tag, e.op, e.link] ++ leBytes 2 e.status ++ [e.vol, 0] ++ leBytes 8 e.first ++
    leBytes 8 e.blocks ++ (e.info ++ leBytes 16 0).take 16 ++ leBytes 8 0

/-- A fault-log entry (R373). -/
def FaultEnt.bytes (e : FaultEnt) : List Nat :=
  leBytes 8 e.seq ++ leBytes 8 e.n ++ leBytes 2 e.id ++ [e.tile, e.sev + 4 * b2n e.inj] ++ leBytes 4 e.dep ++ leBytes 8 0

/-- A record of the MRAM ring (R374). -/
def ThermRec.bytes (e : ThermRec) : List Nat :=
  leBytes 8 e.seq ++ leBytes 8 e.n ++ [e.tile, e.site, e.cause, e.plim] ++ leBytes 2 e.temp ++ [b2n e.ack] ++ leBytes 9 0

/-- Pages 1 to 3. -/
def State.logPage (s : State) (page : Nat) : LogPage :=
  if page = 1 then
    { size := 64, cap := 256, seq := s.host.errSeq, lost := s.host.errLost, ents := s.host.errLog.map fun e => (e.seq, e.bytes) }
  else if page = 2 then
    { size := 32, cap := 256, seq := s.evt.faultSeq, lost := s.evt.faultLost, ents := s.evt.faultLog.map fun e => (e.seq, e.bytes) }
  else
    { size := 32, cap := 64, seq := s.pwr.mram.seq, lost := s.pwr.mram.lost, ents := s.pwr.mram.ring.map fun e => (e.seq, e.bytes) }

/-- The 32-byte header of a page (R371). -/
def logHeader (page size valid cap seq lost : Nat) : List Nat :=
  [page, 0, 0, 0] ++ leBytes 4 size ++ leBytes 4 valid ++ leBytes 4 cap ++ leBytes 8 seq ++ leBytes 4 (min lost (2 ^ 32 - 1)) ++ leBytes 4 0

/-- The correction page: every entry at its place (R375). -/
def State.corrPage (s : State) : List Nat :=
  let n := (s.tileList.map fun t => (s.corrLog t).length).foldl (· + ·) 0
  let lost := (s.tileList.map fun t => smGet s.mem.corrLost t 0).foldl (· + ·) 0
  logHeader 4 32 n (64 * s.tiles) s.mem.corrSeq lost ++ s.tileList.flatMap fun t =>
    let l := (s.corrLog t).flatMap fun e => (e.wordsOf (s.chanOf t e.addr)).flatMap (leBytes 4)
    l ++ List.replicate (2048 - l.length) 0

/-- The health page (R376). -/
def State.healthPage (s : State) : List Nat :=
  let cap := fun n v => leBytes n (min v (2 ^ (8 * n) - 1))
  layout 256 [
    (0x00, cap 8 s.pwr.mram.secs), (0x08, cap 4 s.pwr.mram.shutdowns), (0x0C, [s.f 0 PLIM_STAT_PLIM]), (0x10, leBytes 4 (s.reg 0 PKG_PWR)),
    (0x14, cap 4 s.pwr.rtCount), (0x18, (List.range 8).flatMap fun t => leBytes 2 (s.f t THERM_TILE_MAX)),
    (0x28, (List.range 8).flatMap fun t => cap 8 (smGet s.mem.ceTotal t 0)),
    (0x68, (List.range 8).flatMap fun t => cap 8 (smGet s.mem.ueTotal t 0)), (0xA8, cap 8 s.mem.passTotal),
    (0xB0, cap 4 s.pwr.laneLosses), (0xB4, cap 4 s.pwr.lplReplays), (0xB8, cap 4 s.pwr.seamReplays), (0xBC, cap 4 s.bench.refused)]

/-- The bytes of a page. -/
def State.pageBytes (s : State) (page : Nat) : List Nat :=
  if page = 4 then s.corrPage
  else if page = 5 then s.healthPage
  else
    let p := s.logPage page
    logHeader page p.size p.ents.length p.cap p.seq p.lost ++ p.ents.flatMap (·.2)

/-- The SEQ after the highest among the entries of a page that lie whole in bytes [o, o + n), and 0 with none (R370). -/
def LogPage.delivered (p : LogPage) (o n : Nat) : Nat :=
  ((List.range p.ents.length).zip p.ents).foldl (fun m e =>
    let at_ := 32 + e.1 * p.size
    if o ≤ at_ ∧ at_ + p.size ≤ o + n then max m (e.2.1 + 1) else m) 0

/-- CLEAR of what a command delivered, the entries with a SEQ below top (R370, R374, R375). -/
def State.clearPage (s : State) (page top : Nat) : State :=
  if page = 1 then { s with host.errLog := s.host.errLog.filter fun e => decide (top ≤ e.seq), host.errLost := 0 }
  else if page = 2 then { s with evt.faultLog := s.evt.faultLog.filter fun e => decide (top ≤ e.seq), evt.faultLost := 0 }
  else if page = 3 then
    let s := { s with pwr.mram := { s.pwr.mram with lost := 0, ring := s.pwr.mram.ring.map fun (e : ThermRec) => if e.seq < top then { e with ack := true } else e } }
    s.when (!s.mramPending) fun s => s.setB 0 PLIM_STAT_LIMITED false
  else s.each s.tileList State.logClear

/-- GET_LOG. -/
def State.getLogStep (s : State) (tag : Nat) : State :=
  s.onCmd tag 0x11 fun s c _ =>
    let page := c.fld 4 1
    let o := c.fld 8 8
    let n := c.fld 16 4
    let all := s.pageBytes page
    let got := (all.drop o).take n
    let top := (s.logPage page).delivered o n
    let s := s.when (c.flag 1) fun s => s.clearPage page top
    s.answerData c (got ++ List.replicate (n - got.length) 0) (leBytes 4 all.length)

/-! ### Features (R377) -/

/-- The unit that bars a power state, as (bench number, tile): an Adit port with EN, an output channel that is ON, a take (R352). -/
def State.pstateBlock (s : State) : Option (Nat × Nat) :=
  let unit := fun t => ((List.range 4).find? fun p => s.on t (AD_CTL_EN p)).orElse fun _ =>
    ((List.range 4).find? fun k => s.aOn t (OC_CFG_ON k)).map (7 + ·)
  match s.runTiles.findSome? fun t => (unit t).map fun u => (u, t) with
  | some x => some x
  | none => if (List.range 8).any fun k => s.takeState k == 1 || s.takeState k == 2 then some (12, 0) else none

/-- SET_FEATURE of a power state: it waits for every command before it; entry begins, or is refused, or is abandoned at once by a
command that already waits behind it (R352, R353). -/
def State.pstateBegin (s : State) (c : HostCmd) (v : Nat) : State :=
  if v = 0 then s.respond c rcSuccess 0 []
  else if s.host.entryTag.isSome ∨ s.host.cmds.any fun d => decide (d.arr < c.arr) then s
  else
    match s.pstateBlock with
    | some (u, t) => s.respond c rcField 0 [u, t]
    | none =>
      if s.host.cmds.any fun d => decide (c.arr < d.arr) then (s.setB 0 PL_PSTATE_ABANDONED true).respond c rcAbandoned 0 []
      else
        let s := { s with host.entryTag := some c.tag }
        let s := (s.setB 0 PL_PSTATE_ENTERING true).setF 0 PL_PSTATE_TARGET v
        s.when (decide (2 ≤ v)) State.arbPauseAll

/-- SET_FEATURE. `flashOk` says that a write of the flash succeeds. -/
def State.setFeatureStep (s : State) (tag : Nat) (flashOk : Bool) : State :=
  s.onCmd tag 0x12 fun s c _ =>
    let v := c.fld 8 8
    let time := fun (r : State × Bool) => r.1.respond c (if r.2 then rcSuccess else rcTime) 0 []
    match c.fld 4 1 with
    | 1 => s.pstateBegin c v
    | 2 => { s with evt.asyncEnable := v == 1 }.respond c rcSuccess 0 []
    | 3 => time (s.requestInc 0 0 v)
    | 4 => time (s.requestStep 0 (c.fld 16 1) (sx 64 v))
    | _ => if flashOk then (s.setBootSlot v).respond c rcSuccess 0 [] else s.respond c rcMedium 0 []

/-- GET_FEATURE. -/
def State.getFeatureStep (s : State) (tag : Nat) : State :=
  s.onCmd tag 0x13 fun s c _ =>
    let v := match c.fld 4 1 with
      | 1 => s.f 0 PL_PSTATE_STATE
      | 2 => b2n s.evt.asyncEnable
      | 3 => (s.steer 0).acc
      | _ => s.bootSlot
    s.respond c rcSuccess 0 (leBytes 8 v)

/-! ### Power states (R352, R353) -/

/-- The lanes of a tile that carry no sleeping link lose their synthesiser. -/
def State.lanesOff (s : State) (t : Nat) : State :=
  s.each (List.range 24) fun s l => s.when (s.on t (LANE_CTL_EN l) && s.on t (LANE_STAT_PLL_OK l)) fun s =>
    let s := ((s.eyeAbort t l).setB t (LANE_STAT_PLL_OK l) false).laneMute t l
    ((s.setB t (LANE_STAT_LOCKED l) false).setB t (LANE_STAT_HUNTING l) false).setB t (LANE_STAT_SIGNAL l) false

/-- What P3 loses beside what P2 does (R289, R366, R384, R422, R444). -/
def State.deepSleep (s : State) : State :=
  let s := s.posHalt
  let s := s.each s.host.ops fun s (o : HostOp) => s.transStop o.cmd
  let s := { s with host.ops := [], host.v15 := [], host.v15Poison := [], store.burst := [], mem.corr := [], mem.corrLost := [] }
  let s := s.each s.tileList fun s t => (s.setF t BS_STAT_STATE 0).setF t INTEG_STAT_LOST 0
  s.each (s.runTiles.filter (· ≠ 0)) fun s t => s.each (List.range 8) fun s c => s.crewHalt t c

/-- A tile goes to sleep (R352, R408). -/
def State.sleepTile (s : State) (v t : Nat) : State :=
  let s := s.each [0, 1] fun s l => s.linkSleep t l
  let s := s.lanesOff t
  let s := s.when (decide (2 ≤ v)) fun s => s.each (List.range 8) fun s c => s.selfRefresh t c false
  s.powerIslands t (islandsOf t v)

/-- POWER_STATE_ENTRY: once every pausable job is at rest the state is entered and the SET_FEATURE answered (R353, R472); the RESPONSE
must find credit. -/
def State.powerEntry (s : State) : State :=
  match s.host.entryTag with
  | none => s
  | some g =>
    let v := s.f 0 PL_PSTATE_TARGET
    match s.hostCmd g with
    | none => s
    | some c =>
      if 2 ≤ v ∧ ¬ s.arbQuiet then s
      else
        let s1 := s.arbSettle.respond c rcSuccess 0 []
        if (s1.link 0 0).txq ≠ [] then s
        else
          let s := s1.when (decide (2 ≤ v)) fun s => s.audCut false
          let s := s.when (v == 3) State.deepSleep
          let s := s.raise 0 209
          let s := s.each s.runTiles fun s t => s.sleepTile v t
          let s := ((s.setF 0 PL_PSTATE_STATE v).setF 0 PL_PSTATE_TARGET 0).setB 0 PL_PSTATE_ENTERING false
          { s with host.entryTag := none }

/-! ### ATTEST (R379, R538) -/

/-- Hash of the firmware that runs on a tile; 0 with none. -/
def State.fwHash (s : State) (t : Nat) : List Nat :=
  if s.run t then sha256 (((imgSecs s.boot.img).filter fun x => bit x.tiles t).flatMap (·.hash)) else List.replicate 32 0

/-- Hash of the program of crew c on tile t; 0 with none loaded. -/
def State.progHash (s : State) (t c : Nat) : List Nat :=
  match smLook s.host.programs (8 * t + c) with
  | some b => sha256 b
  | none => List.replicate 32 0

/-- Bytes 0x000 to 0x7FF of the report. -/
def State.attestData (s : State) (nonce : List Nat) : List Nat :=
  layout 2048 [
    (0x000, leBytes 4 1), (0x004, leBytes 4 2432), (0x008, leBytes 8 (s.tcN 0 0)), (0x010, nonce), (0x030, leBytes 4 (s.reg 0 BOOT_ROMVER)),
    (0x034, leBytes 4 (s.reg 0 BOOT_FWVER)), (0x038, leBytes 4 (s.f 0 BOOT_ROLLBACK_COUNT)),
    (0x03C, leBytes 4 (b2n (s.on 0 SEC_STAT_DEBUG_UNLOCKED) + 2 * (s.tiles - 1))),
    (0x040, (List.range 16).flatMap fun w => leBytes 4 (s.reg 0 (BOOT_FUSE w))),
    (0x100, (List.range 8).flatMap fun t => (List.range 6).flatMap fun c => s.progHash t (c + 2)),
    (0x700, (List.range 8).flatMap s.fwHash)]

/-- ATTEST; nothing outside the key engine knows ID_KEY, so the signature is 384 free bytes. -/
def State.attestStep (s : State) (tag : Nat) : State :=
  s.onCmd tag 0x16 fun s c _ =>
    let d := s.attestData ((c.cap.drop 8).take 32)
    let r := s.freshBytes 384
    r.1.answerData c (d ++ r.2) []

/-! ### Debug unlock (R380, R539, R540) -/

/-- A token passes every check of R540. -/
def State.tokenOk (s : State) (b : List Nat) : Bool :=
  let m := (b.drop 0x38).take 384
  imgF b 0 4 == 1 && decide (imgF b 4 4 < 4) && (b.drop 8).take 16 == s.serial && s.host.nonce == some ((b.drop 0x18).take 32) &&
    beNum (sha256 m) == Config.dbgKeyHash.toNat && pssOk m ((b.drop 0x1B8).take 384) (b.take 0x1B8)

/-- UNLOCK: good or bad, the nonce is used up. -/
def State.unlock (s : State) (c : HostCmd) (b : List Nat) : State :=
  let good : Bool := s.tokenOk b && !c.isBad 0 824
  let s := { s with host.nonce := none }.setB 0 SEC_STAT_NONCE_VALID false
  if good then
    (((s.setB 0 SEC_STAT_DEBUG_UNLOCKED true).setF 0 SEC_PERMS_PERMS (imgF b 4 4)).raise 0 19).respond c rcSuccess 824 []
  else ((s.addF 0 SEC_STAT_UNLOCK_FAILS 1).raise 0 20).respond c rcAuth 824 []

/-- DEBUG_UNLOCK. -/
def State.debugStep (s : State) (tag : Nat) : State :=
  s.onCmd tag 0x37 fun s c first =>
    match c.fld 4 1 with
    | 0 =>
      let r := s.freshBytes 32
      ({ r.1 with host.nonce := some r.2 }.setB 0 SEC_STAT_NONCE_VALID true).answerData c r.2 []
    | 1 =>
      if first then s.openWindows tag 4
      else if c.has 0 824 then s.unlock c (c.got 0 824) else s
    | _ => ((s.setB 0 SEC_STAT_DEBUG_UNLOCKED false).setF 0 SEC_PERMS_PERMS 0).respond c rcSuccess 0 []

/-! ### TIME_EXCHANGE (R114, R357) -/

/-- TC0 moved by a number of increments, as a stamp of seconds and nanoseconds. -/
def State.texStamp (s : State) (incs : Int) : Nat × Nat :=
  let c := s.chan 0 0
  let d := c.setValue (c.value + incs * (c.inc : Nat))
  (d.sec, d.ns)

def stampBytes (p : Nat × Nat) : List Nat := leBytes 8 p.1 ++ leBytes 4 p.2 ++ leBytes 4 0

/-- The body of an answer. -/
def texBody (xid flags : Nat) (t1 : List Nat) (t2 t3 : Nat × Nat) : List Nat :=
  leBytes 4 xid ++ leBytes 4 flags ++ t1 ++ stampBytes t2 ++ stampBytes t3 ++ leBytes 4 200 ++ leBytes 4 0

/-- A request arrives: held with its receive stamp, or answered DISCARDED beyond four and while no firmware of T0 runs. -/
def State.texReceive (s : State) : State :=
  match s.linkTake 0 0 6 with
  | (s, none) => s
  | (s, some p) =>
    let xid := pktField p.body 0 4
    let t1 := (p.body.drop 8).take 16
    let late := b2n (s.f 0 PL_PSTATE_STATE ≠ 0)
    if 4 ≤ s.host.texs.length ∨ s.step_ < 4 ∨ ¬ s.firmware then
      s.linkSend 0 0 { ty := 6, body := texBody xid (3 + 4 * late) t1 (0, 0) (0, 0) }
    else { s with host.texs := s.host.texs ++ [(xid, t1, s.texStamp (-(s.f 0 TEX_COMP_RX : Int)), late == 1)] }

/-- The oldest request held is answered. -/
def State.texAnswer (s : State) : State :=
  match s.host.texs with
  | [] => s
  | (xid, t1, t2, late) :: l =>
    if ¬ s.firmware then s
    else
      let s := { s with host.texs := l }
      s.linkSend 0 0 { ty := 6, body := texBody xid (1 + 4 * b2n late) t1 t2 (s.texStamp (s.f 0 TEX_COMP_TX : Int)) }

end Sys2Proof.Machine
end

