-- ==== Sys2Proof/Machine/HostFw.lean ====
section
/-!
DEFINITION. Firmware over the host link (R351, R366, R378, R526): download, commit, activation and its timeout.
-/

namespace Sys2Proof.Machine

/-- Bytes that an image can have: a slot, or the boot region (R526, R527). -/
def slotBytes : Nat := 4194304

/-- Where FW_DOWNLOAD does not fit: beyond the boot region in the ROM, past V15's size when ready (R364, R526). -/
def State.downloadCheck (s : State) (c : HostCmd) : Nat :=
  let e := c.fld 8 8 + c.fld 16 4
  if s.step_ ≤ 3 then (if slotBytes < e then rcSpace else rcSuccess) else if 16384 * 4096 < e then rcField else rcSuccess

/-- FW_DOWNLOAD: its checks and windows, then one block with each step once the block's data has come (R378). -/
def State.downloadStep (s : State) (tag : Nat) : State :=
  s.onCmd tag 0x14 fun s c first =>
    let st := if first then s.downloadCheck c else 0
    if st ≠ 0 then s.respond c st 0 []
    else if c.dataLen = 0 then s.respond c rcSuccess 0 []
    else if first then s.openWindows tag 4
    else if !c.has (4096 * c.pos) 4096 then s
    else
      let s := s.v15Block c (c.fld 8 8 + 4096 * c.pos) (4096 * c.pos)
      let c := ({ c with pos := c.pos + 1 } : HostCmd).forget (4096 * (c.pos + 1))
      if c.dataLen ≤ 4096 * c.pos then s.respond c rcSuccess (4096 * c.pos) [] else (s.setCmd c).openWindows tag 4

/-! ### FW_COMMIT -/

/-- Status for a code of R531. -/
def imgStatus (code : Nat) : Nat := if code = 0 then rcSuccess else if code = 6 then rcRollback else if code = 7 then rcMedium else rcAuth

/-- INFO: image version and slot. -/
def commitInfo (b : List Nat) (slot : Nat) : List Nat := leBytes 4 (imgF b 8 4) ++ [slot]

/-- The image that FW_COMMIT checks, and the code of its check: V15 from offset 0, or for ACTION 4 the slot (R378). -/
def State.commitImage (s : State) (c : HostCmd) : List Nat × Nat :=
  if c.fld 4 1 = 4 then
    let b := s.flashImg (c.fld 5 1)
    (b, if s.flashErr (c.fld 5 1) then 7 else s.imgCheck b)
  else
    let b := s.v15Bytes 0 (c.fld 8 4)
    (b, s.imgCheck b)

/-- Write the image into its slot, for ACTION 2 and 3 also the directory; a failed write leaves free bytes in the slot (R378). -/
def State.commitFlash (s : State) (c : HostCmd) (b : List Nat) (flashOk : Bool) : State :=
  let a := c.fld 4 1
  let slot := c.fld 5 1
  if a = 0 ∨ a = 4 then s
  else if !flashOk then
    let r := s.freshBytes b.length
    r.1.flashPut slot r.2
  else
    let s := s.flashPut slot b
    s.when (decide (2 ≤ a)) fun s => s.setBootSlot slot

/-- The ROM takes the image of ACTION 3: it will run from the boot region (R521, R526). -/
def State.romTake (s : State) (c : HostCmd) (b : List Nat) : State :=
  let s := { s with boot.img := b, boot.imgOk := true, boot.runTag := some c.tag }
  ((s.setB 0 BOOT_STAT_SOURCE true).imgLoad 0 b).setCmd { c with n1 := 1 }

/-- What follows once the image has passed its checks. -/
def State.commitGo (s : State) (c : HostCmd) (b : List Nat) (flashOk : Bool) : State :=
  let a := c.fld 4 1
  let info := commitInfo b (c.fld 5 1)
  if s.step_ ≤ 3 then (if a = 0 then s.respond c rcSuccess 0 info else s.romTake c b)
  else
    let s := s.commitFlash c b flashOk
    if 1 ≤ a ∧ a ≤ 3 ∧ ¬ flashOk then s.respond c rcMedium 0 info
    else if a ≤ 2 then s.respond c rcSuccess 0 info
    else s.setCmd { c with n1 := 1, bytes := b }

/-- FW_COMMIT (R378, R526, R531). `flashOk` says that a write of the flash succeeds. -/
def State.commitStep (s : State) (tag : Nat) (flashOk : Bool) : State :=
  s.onCmd tag 0x15 fun s c _ =>
    if c.n1 = 1 then s
    else if s.step_ ≤ 3 ∧ s.boot.imgOk then s.respond c rcBusy 0 []
    else if s.host.cmds.any fun d => decide (d.arr < c.arr) && (d.op == 0x14 || (d.op == 0x02 && d.fld 4 1 == 15)) then s
    else if c.fld 4 1 ≠ 4 ∧ slotBytes < c.fld 8 4 then s.respond c rcSpace 0 []
    else
      match if c.fld 4 1 = 4 then none else s.v15Bad 0 (c.fld 8 4) with
      | some o => s.respond c rcPoison 0 (leBytes 8 o)
      | none =>
        let r := s.commitImage c
        if r.2 ≠ 0 then (s.imgReject r.2).respond c (imgStatus r.2) 0 [] else s.commitGo c r.1 flashOk

/-! ### Activation (R351, R378) -/

/-- The CTL restart ends on a tile with the image that runs now. -/
def State.ctlRun (s : State) (t : Nat) : State :=
  let b := s.boot.img
  let s := s.imgLoad t b
  let s := s.setCrew t 0 { s.crew t 0 with entry := imgF b 0x18 4 }
  let s := s.setCrew t 1 { s.crew t 1 with entry := imgF b 0x1C 4 }
  s.ctlEnd t

/-- Step 2 of R351: the restart begins once every command that arrived before the FW_COMMIT has completed. -/
def State.activateBegin (s : State) : State :=
  match s.hostCmd s.host.actTag with
  | none => s
  | some c =>
    if s.host.act ≠ 1 ∨ c.n1 ≠ 1 ∨ s.host.cmds.any fun d => decide (d.arr < c.arr) then s
    else
      let s := { s with
        boot.imgOld := s.boot.img, boot.img := c.bytes, host.actOld := s.boot.slot, boot.slot := c.fld 5 1
        host.act := 2, host.actAt := s.now }
      s.each s.runTiles State.ctlBegin

/-- The FW_COMMIT of the window answers, if it is still there. -/
def State.activateAnswer (s : State) (st : Nat) : State :=
  match s.hostCmd s.host.actTag with
  | some c => if c.n1 = 1 then s.respond c st 0 (commitInfo c.bytes (c.fld 5 1)) else s
  | none => s

/-- Step 4 of R351: the activated firmware is ready within 30 ms; it answers, and OTP follows (R534). -/
def State.activateEnd (s : State) : State :=
  if s.host.act ≠ 2 ∨ s.host.actAt + 30000 * usTicks ≤ s.now then s
  else
    let s := s.each s.runTiles State.ctlRun
    let s := s.setReg 0 BOOT_FWVER (imgF s.boot.img 8 4)
    let s := { s.activateAnswer rcSuccess with boot.imgOld := [], host.act := 0 }
    s.otpCommit s.boot.img

/-- FW_ACTIVATION. -/
def State.activation (s : State) (ends : Bool) : State := if ends then s.activateEnd else s.activateBegin

/-- ACTIVATION_TIMEOUT: 30 ms have passed, and the ROM starts the previous firmware again (R378). -/
def State.activationTimeout (s : State) : State :=
  if s.host.act ≠ 2 ∨ s.now < s.host.actAt + 30000 * usTicks then s
  else
    let s := { s with boot.img := s.boot.imgOld, boot.imgOld := [], boot.slot := s.host.actOld }
    let s := s.each s.runTiles State.ctlRun
    { s.activateAnswer rcActivation with host.act := 0 }

end Sys2Proof.Machine
end

