-- ==== Sys2Proof/Machine/HostOps.lean ====
section
/-!
DEFINITION. Commands of the host on registers, crews, transactions, other commands and units, and the long operations (R347, R348,
R381 to R386).
-/

namespace Sys2Proof.Machine

/-! ### Registers (R381, R542) -/

/-- The register space starts here in host addresses. -/
def hostBase : Nat := 0x40000000

/-- All addresses of a register command lie in the host's space; the broadcast window cannot be read. -/
def HostCmd.spaceOk (c : HostCmd) (write : Bool) : Bool :=
  let a := c.fld 8 8
  let last := if c.flag 1 then a else a + 4 * (c.fld 16 4 - 1)
  decide (hostBase ≤ a) && decide (last < hostBase + (if write then 0x9000000 else 0x8000000))

def HostCmd.wordStep (c : HostCmd) : Nat := if c.flag 1 then 0 else 4

/-- REG_READ. -/
def State.regReadStep (s : State) (tag : Nat) : State :=
  s.onCmd tag 0x30 fun s c _ =>
    if !c.spaceOk false then s.respond c rcField 0 []
    else
      let r := s.hostReads (c.fld 8 8 - hostBase) c.wordStep (c.fld 16 4) []
      (r.1.sendData c 0 (padTo8 r.2.1) none).respond c r.2.2.status r.2.1.length (r.2.1.take 4)

/-- Own checks of REG_WRITE: the space, and with IN_TXN a transaction that is OPEN and the host's. -/
def State.regWriteCheck (s : State) (c : HostCmd) : Nat :=
  let x := s.txn (c.fld 20 1)
  if !c.spaceOk true then rcField
  else if c.flag 2 ∧ ¬ (x.host ∧ x.state = 1) then rcNotFound
  else rcSuccess

/-- INFO of a doomed transaction: its RESULT in the layout of TXNt_STATE. -/
def doomInfo (x : Txn) : List Nat := leBytes 4 ({ x with result := x.doom.getD 0 } : Txn).stateReg

/-- Write the words of a REG_WRITE; poisoned data is not written, as registers keep no poison (R345). -/
def State.regWriteGo (s : State) (c : HostCmd) : State :=
  let id := c.fld 20 1
  let txn := if c.flag 2 then some id else none
  if c.isBad 0 (4 * c.fld 16 4) then s.respond c rcPoison 0 []
  else if c.flag 2 ∧ (s.txn id).doom.isSome then s.respond c rcTxn 0 (doomInfo (s.txn id))
  else
    let r := s.hostWrites (c.fld 8 8 - hostBase) c.wordStep txn (wordsOf (c.fld 16 4) (c.got 0 (4 * c.fld 16 4))) 0
    r.1.respond c r.2.2.status (4 * r.2.1) (if r.2.2 = .doomed then doomInfo (r.1.txn id) else [])

/-- REG_WRITE: its checks and window, then every word once the data has come. -/
def State.regWriteStep (s : State) (tag : Nat) : State :=
  s.onCmd tag 0x31 fun s c first =>
    let st := s.regWriteCheck c
    if st ≠ 0 then s.respond c st 0 []
    else if first then s.openWindows tag 4
    else if c.has 0 c.dataLen then s.regWriteGo c
    else s

/-! ### Crews (R60, R382) -/

/-- A crew command reaches its tile: 0, or the status that answers. -/
def State.crewTile (s : State) (t : Nat) : State × Nat :=
  if !s.has t then (s, rcField)
  else if s.isolated t then (s, rcIsolated)
  else
    let r := s.seamReach 0 t
    (r.1, if r.2 then rcSuccess else rcNotReady)

/-- A range stays clear of the system region and within its TCM, from address lo to hi. -/
def State.loadFits (s : State) (t lo hi a n : Nat) : Bool :=
  n == 0 || (decide (lo ≤ a) && decide (a + n ≤ hi) && !s.sysRegion t a)

/-- Load bytes of a LOAD_PROGRAM into TCM, with the poison marks of the data (R69). -/
def State.loadPart (s : State) (c : HostCmd) (t a o n : Nat) : State :=
  let s := s.tcmLoad t a (c.got o n)
  let s := s.when (n != 0) fun s => s.sramWritten t (if a < 0x80000 then 0 else 1)
  s.each ((List.range n).filter fun i => c.isBad (o + i) 1) fun s i => match tcmIndex (a + i) with
    | some w => s.setTcmMark t w true
    | none => s

/-- LOAD_PROGRAM with its data: TCM, grant, entry; the crew is STOPPED. -/
def State.loadGo (s : State) (c : HostCmd) : State :=
  let t := c.fld 4 1
  let k := c.fld 5 1
  let n := c.fld 16 4
  let s := s.loadPart c t (c.fld 12 4) 0 n
  let s := s.loadPart c t (c.fld 20 4) n (c.fld 24 4)
  let s := s.regStore t (CREW_GRANT k) (c.fld 28 4)
  let s := s.setCrew t k { s.crew t k with state := 0, entry := c.fld 8 4 }
  let s := { s with host.programs := smIns (8 * t + k) (c.got 0 c.dataLen) s.host.programs }
  s.respond c rcSuccess c.dataLen []

/-- LOAD_PROGRAM: the crew stops and its window opens; it is loaded once the data has come. -/
def State.loadStep (s : State) (tag : Nat) : State :=
  s.onCmd tag 0x32 fun s c first =>
    let t := c.fld 4 1
    let k := c.fld 5 1
    if first then
      let r := s.crewTile t
      let s := r.1
      if r.2 ≠ 0 then s.respond c r.2 0 []
      else if !(s.loadFits t 0 0x80000 (c.fld 12 4) (c.fld 16 4) && s.loadFits t 0x80000 0x100000 (c.fld 20 4) (c.fld 24 4)) then
        s.respond c rcSpace 0 []
      else
        let s := s.crewHalt t k
        let s := s.setCrew t k { s.crew t k with state := 4 }
        if c.dataLen = 0 then s.loadGo c else s.openWindows tag 4
    else if c.has 0 c.dataLen then s.loadGo c
    else s

/-- CREW_START. -/
def State.crewStartStep (s : State) (tag : Nat) : State :=
  s.onCmd tag 0x33 fun s c _ =>
    let t := c.fld 4 1
    let k := c.fld 5 1
    let r := s.crewTile t
    let s := r.1
    if r.2 ≠ 0 then s.respond c r.2 0 []
    else if (s.crew t k).state ≠ 0 then s.respond c rcField 0 []
    else (s.crewBegin t k (s.crew t k).entry).respond c rcSuccess 0 []

/-- CREW_STOP. -/
def State.crewStopStep (s : State) (tag : Nat) : State :=
  s.onCmd tag 0x34 fun s c _ =>
    let t := c.fld 4 1
    let k := c.fld 5 1
    let r := s.crewTile t
    let s := r.1
    if r.2 ≠ 0 then s.respond c r.2 0 []
    else
      let s := s.crewHalt t k
      s.respond c rcSuccess 0 (leBytes 4 ((s.crew t k).pc % 2 ^ 32))

/-! ### Transactions (R383) -/

/-- INFO of a TXN command. -/
def txnInfo (x : Txn) : List Nat := leBytes 4 x.stateReg ++ leBytes 4 x.masksReg ++ leBytes 4 x.seq

/-- The COMMIT outstanding for transaction i answers once the transaction has ENDED, which is then FREE. -/
def State.commitAnswer (s : State) (i : Nat) : State :=
  match s.host.cmds.find? fun c => c.op = 0x35 && c.fld 4 1 = 1 && c.fld 5 1 = i && c.n1 = 1 with
  | none => s
  | some c =>
    let x := s.txn i
    if x.state = 4 then
      (s.respond c (if c.n2 = 1 then rcAborted else if x.result = 0 then rcSuccess else rcTxn) 0 (txnInfo x)).txnFree i
    else s

/-- A RESPONSE that returns the state; one that has returned ENDED frees the transaction. -/
def State.txnReply (s : State) (c : HostCmd) (i : Nat) : State :=
  let x := s.txn i
  let s := s.commitAnswer i
  let s := s.respond c rcSuccess 0 (txnInfo x)
  if x.state = 4 then s.txnFree i else s

/-- BEGIN: the id stands in INFO byte 0, in the place of the low bits of TXNt_STATE. -/
def State.txnBegin (s : State) (c : HostCmd) : State :=
  let r := s.txnOpen true 0 0
  match r.2 with
  | some i => r.1.respond c rcSuccess 0 (i :: (txnInfo (r.1.txn i)).drop 1)
  | none => r.1.respond c rcTxn 0 (leBytes 4 (5 * 1024))

/-- TXN. -/
def State.txnStep (s : State) (tag : Nat) : State :=
  s.onCmd tag 0x35 fun s c _ =>
    let i := c.fld 5 1
    let x := s.txn i
    let a := c.fld 4 1
    if a = 0 then s.txnBegin c
    else if c.n1 = 1 then s.commitAnswer i
    else if ¬ x.host ∨ x.state = 0 ∨ (a = 1 ∧ x.state ≠ 1) then s.respond c rcNotFound 0 []
    else if a = 1 then
      let kind := c.fld 8 1
      let s := s.setCmd { c with n1 := 1 }
      (s.txnCommit i kind (c.fld 9 1) (c.fld 12 4) (s.predict 0 kind (c.fld 9 1))).commitAnswer i
    else if a = 2 then (s.txnAbort i).txnReply c i
    else s.txnReply c i

/-! ### Queue control (R347, R348, R384) -/

/-- Bytes that an ended command moved (R344, R348, R368). -/
def HostCmd.ended (c : HostCmd) : Nat := if [0x01, 0x02, 0x04, 0x14].contains c.op then 4096 * c.pos else 0

/-- What an ABORT undoes beside the command: an undecided COMMIT, a TRANSCODE's contexts, an entry into a power state. -/
def State.abortSide (s : State) (c : HostCmd) : State :=
  let i := c.fld 5 1
  let s := s.when (c.op == 0x35 && c.n1 == 1 && decide ((s.txn i).state < 3)) fun s => s.txnAbort i
  let s := s.transStop c
  if s.host.entryTag = some c.tag then
    { (s.setB 0 PL_PSTATE_ENTERING false).setF 0 PL_PSTATE_TARGET 0 with host.entryTag := none }
  else s

/-- ABORT: answered also during a restart of CTL, when the link's hardware does it (R347, R351). -/
def State.abortStep (s : State) (tag : Nat) : State :=
  match s.host.cmds.find? fun c => c.tag = tag && c.op = 0x20 with
  | none => s
  | some c =>
    match s.hostCmd (c.fld 4 1) with
    | none => s.respond c rcNotFound 0 []
    | some d =>
      if [0x20, 0x21, 0x22, 0x23, 0x24].contains d.op then s.respond c rcField 0 []
      else ((s.abortSide d).respond d rcAborted d.ended []).respond c rcSuccess 0 []

/-- A long operation is not at work: it waits for its turn, for the arbiter, or the arbiter has paused it. -/
def State.atRest (s : State) (d : HostCmd) : Bool :=
  !d.started || match d.jobKind with
    | some k => match s.arbFind k 0 d.tag with
      | some j => j.st == 0 || j.st == 2
      | none => true
    | none => true

/-- SUSPEND and CANCEL of the operation with a tag: at once where it is at rest, else at its next checkpoint; a second one while
the first waits answers BUSY_RETRY. -/
def State.stopOp (s : State) (c : HostCmd) (now later : State → HostCmd → State) : State :=
  match s.hostCmd (c.fld 4 1) with
  | none => s.respond c rcNotFound 0 []
  | some d =>
    if !d.long then s.respond c rcNotFound 0 []
    else if d.stop.isSome then s.respond c rcBusy 0 []
    else if s.atRest d then now s d
    else
      let d := { d with stop := some (c.op, c.tag) }
      later (s.setCmd d) d

/-- The contexts of a TRANSCODE are to stop at their next boundary and wait there. -/
def State.transPause (s : State) (d : HostCmd) : State :=
  if d.op = 0x41 ∧ d.n1 = 1 then (s.hdPause (d.fld 4 1) (d.fld 5 1)).hePause (d.fld 4 1) (d.fld 6 1) else s

/-- SUSPEND. -/
def State.suspendStep (s : State) (tag : Nat) : State :=
  s.onCmd tag 0x21 fun s c first =>
    if !first then s else s.stopOp c (fun s d => s.opSuspend d c.tag) (fun s d => s.transPause d)

/-- CANCEL, by tag or by OPID. -/
def State.cancelStep (s : State) (tag : Nat) : State :=
  s.onCmd tag 0x23 fun s c first =>
    if !first then s
    else if c.flag 1 then
      match s.host.ops.find? fun (o : HostOp) => o.opid = c.fld 8 8 with
      | none => s.respond c rcNotFound 0 []
      | some o =>
        let s := { s with host.ops := s.host.ops.filter fun (p : HostOp) => p.opid ≠ o.opid }
        (s.transStop o.cmd).respond c rcSuccess 0 []
    else s.stopOp c (fun s d => s.opCancel d c.tag) (fun s d => s.transStop d)

/-- RESUME: the command becomes the operation, in its own place of the queue and through the arbiter (R384, R468). -/
def State.resumeStep (s : State) (tag : Nat) : State :=
  s.onCmd tag 0x22 fun s c _ =>
    match s.host.ops.find? fun (o : HostOp) => o.opid = c.fld 8 8 with
    | none => s.respond c rcNotFound 0 []
    | some o =>
      let k := o.cmd.jobKind.getD 0
      let r := s.arbSubmit k 0 tag (s.jobTiles o.cmd) true
      if !r.2 then s.respond c rcBusy 0 []
      else
        let s := { r.1 with host.ops := s.host.ops.filter fun (p : HostOp) => p.opid ≠ o.opid }
        let f := o.cmd.cap.getD 1 0 / 2 * 2 + b2n c.ordered
        s.setCmd { o.cmd with tag := tag, arr := c.arr, cap := o.cmd.cap.set 1 f, started := false, stop := none, resumed := true }

/-! ### UNIT_ABORT (R386) -/

/-- A long operation at work uses a unit of the mask on a tile of the mask. -/
def State.opUses (s : State) (d : HostCmd) (tiles units : Nat) : Bool :=
  let some_ := fun (l : List Nat) => l.any (bit units)
  d.started && match d.op with
  | 0x41 =>
    d.n1 == 1 && (((s.hdMembers (d.fld 4 1) (d.fld 5 1)).any (bit tiles) && bit units (17 + d.fld 5 1)) ||
      ((s.heMembers (d.fld 4 1) (d.fld 6 1)).any (bit tiles) && bit units (13 + d.fld 6 1)))
  | 0x42 =>
    (tiles &&& d.fld 5 1) != 0 && match d.fld 4 1 with
      | 1 => some_ [4, 5, 6, 7, 8, 9, 10]
      | 2 => some_ [11, 13, 14, 15, 16, 17, 18, 19, 20]
      | _ => false
  | 0x04 => d.flag 1 && decide (2 ≤ d.fld 4 1) && d.fld 4 1 != 15 && bit tiles 0 && bit units 11
  | _ => false

/-- Own checks of UNIT_ABORT. -/
def State.unitAbortCheck (s : State) (tiles units : Nat) : Nat :=
  let ts := (List.range 8).filter (bit tiles)
  if 2 ^ unitCount ≤ units ∨ ts.any (fun t => !s.has t) then rcField
  else if ts.any s.isolated then rcIsolated
  else rcSuccess

/-- UNIT_ABORT: operations that use the units end first, then the units; it answers once every unit is IDLE. -/
def State.unitAbortStep (s : State) (tag : Nat) : State :=
  s.onCmd tag 0x24 fun s c first =>
    let tiles := c.fld 4 1
    let units := c.fld 8 4
    let st := if first then s.unitAbortCheck tiles units else 0
    if st ≠ 0 then s.respond c st 0 []
    else
      let s := if first then
          let s := s.each (s.host.cmds.filter fun d => s.opUses d tiles units) fun s d => s.respond d rcAborted d.longMoved []
          s.each ((List.range 8).filter (bit tiles)) fun s t => s.uabort t units
        else s
      if s.evt.aborts.any fun r => bit tiles r.1 && (r.2 &&& units) != 0 then s else s.respond c rcSuccess 0 []

/-! ### SCRUB_PASS (R385, R420) -/

/-- Tiles and channels of a pass, each with its number of MiB. -/
def State.scrubPlan (s : State) (c : HostCmd) : List (Nat × Nat × Nat) :=
  ((List.range 8).filter (bit (c.fld 4 1))).flatMap fun t =>
    ((List.range 8).filter (bit (c.fld 5 1))).map fun k => (t, k, s.chanLines t / 16384)

/-- The tile, channel and first line of the MiB at a position. -/
def scrubAt : List (Nat × Nat × Nat) → Nat → Option (Nat × Nat × Nat)
  | [], _ => none
  | x :: l, n => if n < x.2.2 then some (x.1, x.2.1, n * 16384) else scrubAt l (n - x.2.2)

/-- Words found on every tile since POR_N. -/
def State.foundWords (s : State) (m : SMap Nat) : Nat := (s.tileList.map fun t => smGet m t 0).foldl (· + ·) 0

/-- Own checks of a command with a tile mask. -/
def State.maskCheck (s : State) (mask : Nat) : Nat :=
  let ts := (List.range 8).filter (bit mask)
  if ts.any fun t => !s.has t then rcField else if ts.any s.isolated then rcIsolated else rcSuccess

/-- Scrub one MiB of a channel in RUN. -/
def State.scrubMib (s : State) (x : Nat × Nat × Nat) : State :=
  if s.f x.1 (MCC_STAT_STATE x.2.1) = 2 then s.each (List.range 16384) fun s i => s.scrubLine x.1 x.2.1 (x.2.2 + i) else s

/-- SCRUB_PASS: one MiB with each step; a channel in self-refresh holds the pass up. -/
def State.scrubPassStep (s : State) (tag : Nat) : State :=
  s.onLong tag 0x40 fun s c first =>
    let st := if first then s.maskCheck (c.fld 4 1) else 0
    if st ≠ 0 then s.respond c st 0 []
    else
      match scrubAt (s.scrubPlan c) c.pos with
      | none => s.respond c rcSuccess 0 (leBytes 8 c.n1 ++ leBytes 8 c.n2)
      | some x =>
        if s.f x.1 (MCC_STAT_STATE x.2.1) = 3 then s
        else
          let ce := s.foundWords s.mem.ceTotal
          let ue := s.foundWords s.mem.ueTotal
          let s := s.scrubMib x
          let c : HostCmd := { c with
            pos := c.pos + 1, n1 := c.n1 + (s.foundWords s.mem.ceTotal - ce), n2 := c.n2 + (s.foundWords s.mem.ueTotal - ue) }
          if (scrubAt (s.scrubPlan c) c.pos).isNone then s.respond c rcSuccess 0 (leBytes 8 c.n1 ++ leBytes 8 c.n2)
          else s.checkpoint c

/-! ### TRANSCODE (R322, R385) -/

/-- The pair is linked, committed and idle. -/
def State.transReady (s : State) (h d e : Nat) : Bool :=
  s.hdOn h d && s.heOn h e && s.heLink h e == some d && [0, 3, 4, 5].contains (s.hdState h d) && !s.hdWaiting h d &&
    !([1, 2].contains (s.f h (HE_STAT_STATE e))) && (s.arbFind 6 h e).isNone

/-- Checks, and the pair starts. -/
def State.transBegin (s : State) (c : HostCmd) (h d e : Nat) : State :=
  if !s.has h then s.respond c rcField 0 []
  else if s.isolated h then s.respond c rcIsolated 0 []
  else if !s.transReady h d e then s.respond c rcField 0 []
  else
    let s := (s.setCmd { c with n1 := 1 })
    let s := ((s.hdPrepare h d).hdGo h d).heGo h e false
    match s.arbFind 2 0 c.tag with
    | some j => s.when (j.st == 3) fun s => s.transPause { c with n1 := 1 }
    | none => s

/-- INFO of a decoder error: its code and offset. -/
def State.streamInfo (s : State) (h d : Nat) : List Nat :=
  leBytes 4 (s.reg h (HD_ERR d)) ++ leBytes 4 0 ++ leBytes 8 (s.reg64 h (HD_ERR_OFS_LO d))

/-- TRANSCODE: it starts the pair, then sees how the pair stands. -/
def State.transStep (s : State) (tag : Nat) : State :=
  s.onLong tag 0x41 fun s c _ =>
    let h := c.fld 4 1
    let d := c.fld 5 1
    let e := c.fld 6 1
    let hd := s.hdState h d
    let he := s.f h (HE_STAT_STATE e)
    if c.n1 = 0 then s.transBegin c h d e
    else if hd = 6 then
      let info := s.streamInfo h d
      (s.heCancel h e).respond c rcStream 0 info
    else if hd = 5 ∨ he = 5 then (s.transStop c).respond c rcAborted 0 []
    else if hd = 4 ∨ he = 4 then
      match c.stop with
      | some (0x23, g) => if he = 1 ∨ hd = 1 ∨ hd = 7 then s else s.opCancel c g
      | _ => (s.transStop c).respond c rcCancelled 0 []
    else if hd = 3 ∧ he = 3 then s.respond c rcSuccess 0 []
    else if he = 2 ∧ (hd = 2 ∨ hd = 3) then s.checkpoint { c with pos := s.f h (HE_JOB_DONE e) }
    else s

/-! ### SELF_TEST (R385) -/

/-- A unit that TEST 1 or 2 would use is running on a tile. -/
def State.testBusy (s : State) (test t : Nat) : Bool :=
  let busy := fun u => (List.range 32).any fun sec => s.secBusy t u sec
  match test with
  | 1 => [4, 5, 6, 7, 8, 9, 10].any busy
  | 2 => [11, 13, 14, 15, 16, 17, 18, 19, 20].any busy ||
      (List.range 4).any fun k => [1, 2].contains (s.f t (HE_STAT_STATE k)) || [1, 2, 7].contains (s.hdState t k)
  | _ => false

/-- Own checks of SELF_TEST. -/
def State.testCheck (s : State) (c : HostCmd) : Nat :=
  let ts := (List.range 8).filter (bit (c.fld 5 1))
  let st := s.maskCheck (c.fld 5 1)
  if st ≠ 0 then st
  else if ts.any fun t => s.testBusy (c.fld 4 1) t then rcField
  else if c.fld 4 1 = 3 ∧ ts.any fun t => decide (s.dramSize t < c.fld 8 8 + c.fld 16 8) then rcField
  else rcSuccess

/-- TEST 3 destroys what its range held on every tile named: free values (R385). -/
def State.testDram (s : State) (c : HostCmd) : State :=
  if c.fld 4 1 = 3 then
    s.each ((List.range 8).filter (bit (c.fld 5 1))) fun s t =>
      let r := s.freshBytes (c.fld 16 8)
      r.1.wr (port := 11) t (c.fld 8 8) r.2 false
  else s

/-- SELF_TEST: one element with each step; `last` marks the last element, `fail` a fault found, as (tile, element). -/
def State.testStep (s : State) (tag : Nat) (last : Bool) (fail : Option (Nat × Nat)) : State :=
  s.onLong tag 0x42 fun s c first =>
    let st := if first then s.testCheck c else 0
    if st ≠ 0 then s.respond c st 0 []
    else
      let s := s.when first fun s => s.testDram c
      match fail with
      | some x => s.respond c rcTest 0 (x.1 % 256 :: leBytes 3 x.2)
      | none => if last then s.respond c rcSuccess 0 [] else s.checkpoint { c with pos := c.pos + 1 }

end Sys2Proof.Machine
end

