-- ==== Sys2Proof/Machine/Startup.lean ====
section
/-!
DEFINITION. POR_N, rails and the steps of start-up (R12, R407, R504, R508, R509, R521 to R536); the JTAG TAPs (R512, R513).
-/

namespace Sys2Proof.Machine

/-! ### POR_N and rails -/

/-- A register of T0 that shows OTP (R532). -/
def otpReg (k : Nat) : Bool :=
  [BOOT_ROLLBACK, BOOT_KEYSLOT, BOOT_LIFECYCLE, BOOT_HOSTRATE].contains k || (List.range 4).any (fun w => SEC_SERIAL w == k) ||
    (List.range 16).any fun w => BOOT_FUSE w == k

/-- Instructions that hold the data path (R513). -/
def jtagHolds (v : Nat) : Bool := [0x00, 0x03, 0x04, 0x08, 0x09].contains v

/-- The instruction of a tile's TAP. -/
def State.tapInstr (s : State) (t : Nat) : Nat := smGet s.boot.jtag t 1

/-- POR_N low for at least 10 us: everything at its reset value but OTP, the MRAM, the boot flash and the TAPs (R508). DRAM, whose
contents are lost, reads as never written. -/
def State.porReset (s : State) : State :=
  { ({} : State) with
    member := s.member, grade := s.grade, freeCtr := s.freeCtr, dram := s.dram, writes := s.dram.map fun x => (x.1, 0)
    pending := s.pending, regs := s.regs.filter fun x => otpReg x.1
    pwr := { mram := s.pwr.mram }
    boot := { porLow := true, flash := s.boot.flash, jtag := s.boot.jtag, jtagData := s.boot.jtagData } }

/-- POR_N_ASSERT with a defined effect: a low shorter than 1 us is filtered out, one of 10 us and more resets (R508). -/
def State.porAssert (s : State) (widthNs : Nat) : State := if widthNs < 1000 then s else s.porReset

/-- POR_N_RELEASE: BOOTSEL is sampled (R509); AON powers the islands of R12, which the reset values of ISL_PWR show. A TAP that still
selects a boundary test keeps the data path held (R513). -/
def State.porRelease (s : State) (bootsel : Nat) : State :=
  if s.boot.porLow then
    { s with boot.porLow := false, boot.jtagHold := s.tileList.any fun t => jtagHolds (s.tapInstr t) }.setF 0 BOOT_STAT_BOOTSEL bootsel
  else s

/-- RAIL_OUT_OF_RANGE (R504). -/
def State.railOut (s : State) : State := if s.boot.porLow then s else { s with boot.railBad := true }

/-! ### Step 3: the ROM (R521, R523 to R525) -/

/-- Line rate of the host link in kbit/s (R524). -/
def hostRate (v : Nat) : Nat := if v = 1 then 10000000 else if v = 2 then 5000000 else if v = 3 then 2500000 else 16000000

/-- The ROM switches LNK on and enables the host link (R12, R524). -/
def State.romLink (s : State) : State :=
  let s := (s.setF 0 ISL_PWR_ON (orBit (s.f 0 ISL_PWR_ON) 6)).showIslands 0
  let s := s.each [20, 21, 22, 23] fun s l =>
    ((s.setF 0 (LANE_CTL_ROLE l) 2).setF 0 (LANE_RATE_KBPS l) (hostRate (s.f 0 BOOT_HOSTRATE_RATE))).laneEnable 0 l
  s.linkEnable 0 0 true

/-- The ROM reads the MRAM ring: the part starts LIMITED while a record is not acknowledged (R471). -/
def State.romLimit (s : State) : State :=
  if s.mramPending then { s.setB 0 PLIM_STAT_LIMITED true with pwr.limCap := true }.plimUpdate else s

/-- The ROM checks a slot of the flash: the code of R531. -/
def State.slotCheck (s : State) (slot : Nat) : Nat := if s.flashErr slot then 7 else s.imgCheck (s.flashImg slot)

/-- The image of a slot has passed: it will run (R521). -/
def State.romSlot (s : State) (slot : Nat) : State :=
  let b := s.flashImg slot
  let s := { s with boot.img := b, boot.imgOk := true, boot.slot := slot }
  ((s.setF 0 BOOT_STAT_SLOT slot).setB 0 BOOT_STAT_SOURCE false).imgLoad 0 b

/-- A flash boot; the flag says that a slot was found (R525). -/
def State.flashBoot (s : State) : State × Bool :=
  let a := s.bootSlot
  let c := s.slotCheck a
  if c = 0 then (s.romSlot a, true)
  else
    let s := (s.imgReject c).setB 0 BOOT_STAT_FALLBACK true
    let d := s.slotCheck (1 - a)
    if d = 0 then (s.romSlot (1 - a), true) else (s.imgReject d, false)

/-- The boot source that BOOTSEL and LIFECYCLE select (R523). -/
def State.bootSource (s : State) : State :=
  let sel := s.f 0 BOOT_STAT_BOOTSEL
  if sel = 3 ∧ s.f 0 BOOT_LIFECYCLE_STATE = 0 then s
  else if sel = 1 then { s with boot.hostSel := true }
  else
    let r := s.flashBoot
    if r.2 then r.1
    else if sel = 0 then { r.1 with boot.failed := true }.raise 0 14
    else { r.1 with boot.hostSel := true }

/-- The AON watch of every tile has found REFCLK good (R123, R507, R510). -/
def State.refclkGood (s : State) : State := s.each s.tileList fun s t => s.setB t CLKSUP_REFCLK_OK true

/-- BOOT_ROM_START; `flash` is what the boot flash holds where it was written outside the part. -/
def State.romStart (s : State) (flash : Option FlashData) : State :=
  if s.boot.romRunning then s
  else
    let s := { s with boot.romRunning := true, boot.flash := flash.getD s.boot.flash }
    (((s.setF 0 BOOT_STAT_STEP 3).refclkGood).romLink.romLimit).bootSource

/-! ### Steps 4 to 8 -/

/-- FIRMWARE_START: step 4 (R521, R523, R525, R526). -/
def State.firmwareStart (s : State) : State :=
  if s.step_ ≠ 3 ∨ ¬ s.boot.imgOk then s
  else
    let b := s.boot.img
    let s := (s.setF 0 BOOT_STAT_STEP 4).setReg 0 BOOT_FWVER (imgF b 8 4)
    let s := (s.setF 0 TILE_STATE_STATE 1).sysCrews 0 b
    let s := s.when (s.on 0 BOOT_STAT_FALLBACK) fun s => s.raise 0 13
    let s := s.when (s.f 0 BOOT_STAT_BOOTSEL == 3) fun s => (s.setB 0 BOOT_STAT_STRAP_MFG true).raise 0 17
    let s := { s with host.v15 := [], host.v15Poison := [] }
    match s.boot.runTag.bind s.hostCmd with
    | some c => { s with boot.runTag := none }.respond c rcSuccess 0 (commitInfo b (c.fld 5 1))
    | none => s

/-- Switch islands on beside those that are on. -/
def State.islandsOn (s : State) (t m : Nat) : State := (s.setF t ISL_PWR_ON (s.f t ISL_PWR_ON ||| m)).showIslands t

/-- A secondary tile at step 5 (R535, R536): its regulator answered or not, failed attempts at its authentication, its ROUTE_LAT. Its
follower is in HOLD until its first stamp, with its event (R104; DEDUCED, log 88). -/
def State.startTile (s : State) (t : Nat) (r : Bool × Nat × Nat) : State :=
  if !r.1 then ((s.setB 0 (BOOT_TILE_AUTH_VCORE t) true).raise t 16).isolate t 16 t false
  else if 3 ≤ r.2.1 then
    (((s.setF 0 (BOOT_TILE_AUTH_STATE t) 2).setF 0 (BOOT_TILE_AUTH_ATTEMPTS t) 3).raise 0 15).isolate t 15 0 false
  else
    let b := s.boot.img
    let s := (s.setF 0 (BOOT_TILE_AUTH_STATE t) 1).setF 0 (BOOT_TILE_AUTH_ATTEMPTS t) (r.2.1 + 1)
    let s := (s.imgLoad t b).setF t TILE_STATE_STATE 1
    let s := s.setReg t EPOCH (s.reg 0 EPOCH)
    ((s.sysCrews t b).setF t FOLLOW_ROUTE_LAT r.2.2).raise t 262

/-- STARTUP_TILES: step 5. Without T0's own regulator the part stops there (R536). -/
def State.startupTiles (s : State) (t0ok : Bool) (res : List (Bool × Nat × Nat)) : State :=
  if s.step_ ≠ 4 then s
  else
    let s := (s.setF 0 BOOT_STAT_STEP 5).islandsOn 0 128
    let s := s.trainSeam.routeDefaults
    if !t0ok then { s with boot.stuck := true }.raise 0 16
    else
      let s := s.each ((List.range 8).filter fun t => !s.has t) fun s t => s.setF 0 (BOOT_TILE_AUTH_STATE t) 3
      s.each (s.tileList.filter (· ≠ 0)) fun s t => s.startTile t (res.getD (t - 1) (true, 0, 0))

/-- Firmware writes registers of one kind of block: (tile, offset, value). -/
def State.recordWrites (s : State) (lo hi : Nat) (l : List (Nat × Nat × Nat)) : State :=
  s.each (l.filter fun w => decide (lo ≤ w.2.1) && decide (w.2.1 < hi) && s.run w.1) fun s w => s.regWrite 1 w.1 w.2.1 w.2.2

/-- A channel is set and runs (R407), and its scrubber is on (R420). -/
def State.startChannel (s : State) (t c : Nat) : State := ((s.mcEnable t c true).mcRun t c).setB t (SCRUB_CTL_EN c) true

/-- STARTUP_DRAM: step 6. `writes` are the values of the board record, or those that training found where it is missing. -/
def State.startupDram (s : State) (boardOk : Bool) (writes : List (Nat × Nat × Nat)) : State :=
  if s.step_ ≠ 5 ∨ s.boot.stuck then s
  else
    let s := { s.setF 0 BOOT_STAT_STEP 6 with boot.boardOk := boardOk }
    let s := s.each s.runTiles fun s t => s.islandsOn t 32
    let s := s.recordWrites 0x160000 0x180000 writes
    let s := s.each s.runTiles fun s t => s.each (List.range 8) fun s c => s.startChannel t c
    let s := s.when (!boardOk) fun s => s.raise 0 23
    { s with host.v15 := [], host.v15Poison := [] }

/-- STARTUP_LANES: step 7. `writes` are lane values of the board record, `mags` the tiles whose magazine link is enabled, after its
registers. -/
def State.startupLanes (s : State) (writes : List (Nat × Nat × Nat)) (mags : List Nat) : State :=
  if s.step_ ≠ 6 then s
  else
    let s := s.setF 0 BOOT_STAT_STEP 7
    let s := s.each (s.runTiles.filter (· ≠ 0)) fun s t => s.islandsOn t 64
    let s := (s.recordWrites 0x40000 0x60000 writes).recordWrites 0x140000 0x160000 writes
    s.each (mags.filter s.run) fun s t => s.linkEnable t 1 true

/-- STARTUP_READY: step 8 (R12, R471, R521, R534). -/
def State.startupReady (s : State) : State :=
  if s.step_ ≠ 7 then s
  else
    let s := s.each s.runTiles fun s t => s.islandsOn t 255
    let s := (s.setF 0 BOOT_STAT_STEP 8).raise 0 12
    let s := s.when (s.on 0 PLIM_STAT_LIMITED) fun s => s.raise 0 298
    s.otpCommit s.boot.img

/-! ### JTAG (R512, R513) -/

/-- IDCODE of a tile. -/
def State.idcode (s : State) (t : Nat) : Nat :=
  let part := match s.member with
    | .tiles2 => 0x882
    | .tiles4 => 0x884
    | .tiles8 => 0x888
  2 ^ 28 + t * 2 ^ 24 + part * 2 ^ 12 + Config.manufacturer.toNat * 2 + 1

/-- A tile's TAP takes an instruction; the data register it selects holds v. -/
def State.tapSelect (s : State) (t instr v : Nat) : State :=
  { s with
    boot.jtag := smPut s.boot.jtag t instr 1
    boot.jtagData := smIns t v (smDel t s.boot.jtagData)
    boot.jtagHold := s.boot.jtagHold || jtagHolds instr }

/-- An instruction that selects the boundary register, which holds what the pins carry: a free value. -/
def State.tapBoundary (s : State) (t instr : Nat) : State :=
  let r := s.fresh
  r.2.tapSelect t instr r.1

/-- JTAG_TAP_RESET: every TAP selects IDCODE; a data path that is held stays held until POR_N (R508, R513). -/
def State.tapReset (s : State) : State := s.each s.tileList fun s t => s.tapSelect t 1 (s.idcode t)

end Sys2Proof.Machine
end

