-- ==== Sys2Proof/Machine/CmdHost.lean ====
section
/-!
DEFINITION. The meanings of the Host commands: when each applies, and the operation that is its effect. A command that does not
apply in the state it meets changes nothing (log 1).
-/

namespace Sys2Proof.Machine

/-- COMMAND (R340). -/
def execCommand (mr4 : List (Nat × Bool × Bool)) (s : State) : Host.Outcome State Fault Refusal :=
  s.finish (s.when (!s.holds) fun s => s.hostCommand mr4)

/-- DATA (R343, R344). -/
def execData (s : State) : Host.Outcome State Fault Refusal :=
  s.finish (s.when (!s.holds) State.dataTake)

/-- TIME_EXCHANGE (R357). -/
def execTimeExchange (answer : Bool) (s : State) : Host.Outcome State Fault Refusal :=
  s.finish (s.when (!s.holds) fun s => if answer then s.texAnswer else s.texReceive)

/-- READ (R367). -/
def execRead (tag : Nat) (s : State) : Host.Outcome State Fault Refusal :=
  s.finish (s.when (!s.holds) fun s => s.readStep tag)

/-- WRITE (R367). -/
def execWrite (tag : Nat) (s : State) : Host.Outcome State Fault Refusal :=
  s.finish (s.when (!s.holds) fun s => s.writeStep tag)

/-- FLUSH (R342). -/
def execFlush (tag : Nat) (s : State) : Host.Outcome State Fault Refusal :=
  s.finish (s.when (!s.holds) fun s => s.flushStep tag)

/-- VERIFY (R368). -/
def execVerify (tag : Nat) (s : State) : Host.Outcome State Fault Refusal :=
  s.finish (s.when (!s.holds) fun s => s.verifyStep tag)

/-- IDENTIFY (R369). -/
def execIdentify (tag : Nat) (s : State) : Host.Outcome State Fault Refusal :=
  s.finish (s.when (!s.holds) fun s => s.identifyStep tag)

/-- GET_LOG (R370). -/
def execGetLog (tag : Nat) (s : State) : Host.Outcome State Fault Refusal :=
  s.finish (s.when (!s.holds) fun s => s.getLogStep tag)

/-- SET_FEATURE (R377). -/
def execSetFeature (tag : Nat) (flashOk : Bool) (s : State) : Host.Outcome State Fault Refusal :=
  s.finish (s.when (!s.holds) fun s => s.setFeatureStep tag flashOk)

/-- GET_FEATURE (R377). -/
def execGetFeature (tag : Nat) (s : State) : Host.Outcome State Fault Refusal :=
  s.finish (s.when (!s.holds) fun s => s.getFeatureStep tag)

/-- POWER_STATE_ENTRY (R353). -/
def execPowerStateEntry (s : State) : Host.Outcome State Fault Refusal :=
  s.finish (s.when (!s.holds) fun s => s.powerEntry)

/-- FW_DOWNLOAD (R378). -/
def execFwDownload (tag : Nat) (s : State) : Host.Outcome State Fault Refusal :=
  s.finish (s.when (!s.holds) fun s => s.downloadStep tag)

/-- FW_COMMIT (R378). -/
def execFwCommit (tag : Nat) (flashOk : Bool) (s : State) : Host.Outcome State Fault Refusal :=
  s.finish (s.when (!s.holds) fun s => s.commitStep tag flashOk)

/-- FW_ACTIVATION (R351). -/
def execFwActivation (ends : Bool) (s : State) : Host.Outcome State Fault Refusal :=
  s.finish (s.when (!s.holds) fun s => s.activation ends)

/-- ACTIVATION_TIMEOUT (R378). -/
def execActivationTimeout (s : State) : Host.Outcome State Fault Refusal :=
  s.finish (s.when (!s.holds) fun s => s.activationTimeout)

/-- ATTEST (R379). -/
def execAttest (tag : Nat) (s : State) : Host.Outcome State Fault Refusal :=
  s.finish (s.when (!s.holds) fun s => s.attestStep tag)

/-- DEBUG_UNLOCK (R540). -/
def execDebugUnlock (tag : Nat) (s : State) : Host.Outcome State Fault Refusal :=
  s.finish (s.when (!s.holds) fun s => s.debugStep tag)

/-- REG_READ (R381). -/
def execRegRead (tag : Nat) (s : State) : Host.Outcome State Fault Refusal :=
  s.finish (s.when (!s.holds) fun s => s.regReadStep tag)

/-- REG_WRITE (R381). -/
def execRegWrite (tag : Nat) (s : State) : Host.Outcome State Fault Refusal :=
  s.finish (s.when (!s.holds) fun s => s.regWriteStep tag)

/-- LOAD_PROGRAM (R382). -/
def execLoadProgram (tag : Nat) (s : State) : Host.Outcome State Fault Refusal :=
  s.finish (s.when (!s.holds) fun s => s.loadStep tag)

/-- CREW_START (R382). -/
def execCrewStart (tag : Nat) (s : State) : Host.Outcome State Fault Refusal :=
  s.finish (s.when (!s.holds) fun s => s.crewStartStep tag)

/-- CREW_STOP (R60). -/
def execCrewStop (tag : Nat) (s : State) : Host.Outcome State Fault Refusal :=
  s.finish (s.when (!s.holds) fun s => s.crewStopStep tag)

/-- TXN (R383). -/
def execTxn (tag : Nat) (s : State) : Host.Outcome State Fault Refusal :=
  s.finish (s.when (!s.holds) fun s => s.txnStep tag)

/-- ABORT (R347). -/
def execAbort (tag : Nat) (s : State) : Host.Outcome State Fault Refusal :=
  s.finish (s.when (!s.holds) fun s => s.abortStep tag)

/-- SUSPEND (R384). -/
def execSuspend (tag : Nat) (s : State) : Host.Outcome State Fault Refusal :=
  s.finish (s.when (!s.holds) fun s => s.suspendStep tag)

/-- RESUME (R384). -/
def execResume (tag : Nat) (s : State) : Host.Outcome State Fault Refusal :=
  s.finish (s.when (!s.holds) fun s => s.resumeStep tag)

/-- CANCEL (R384). -/
def execCancel (tag : Nat) (s : State) : Host.Outcome State Fault Refusal :=
  s.finish (s.when (!s.holds) fun s => s.cancelStep tag)

/-- UNIT_ABORT (R386). -/
def execUnitAbort (tag : Nat) (s : State) : Host.Outcome State Fault Refusal :=
  s.finish (s.when (!s.holds) fun s => s.unitAbortStep tag)

/-- SCRUB_PASS (R385). -/
def execScrubPass (tag : Nat) (s : State) : Host.Outcome State Fault Refusal :=
  s.finish (s.when (!s.holds) fun s => s.scrubPassStep tag)

/-- TRANSCODE (R385). -/
def execTranscode (tag : Nat) (s : State) : Host.Outcome State Fault Refusal :=
  s.finish (s.when (!s.holds) fun s => s.transStep tag)

/-- SELF_TEST (R385). -/
def execSelfTest (tag : Nat) (last : Bool) (fail : Option (Nat × Nat)) (s : State) : Host.Outcome State Fault Refusal :=
  s.finish (s.when (!s.holds) fun s => s.testStep tag last fail)

end Sys2Proof.Machine
end

