-- ==== Sys2Proof/Machine/CmdIso.lean ====
section
/-!
DEFINITION. The meanings of the Iso commands: when each applies, and the operation that is its effect. A command that does not
apply in the state it meets changes nothing (log 1).
-/

namespace Sys2Proof.Machine

/-- REFCLK_STOP (R123). -/
def execRefclkStop (s : State) : Host.Outcome State Fault Refusal :=
  s.finish (s.when (!s.holds) fun s => s.refclkLost 8 CLKSUP_STOP)

/-- REFCLK_GLITCH (R123). -/
def execRefclkGlitch (s : State) : Host.Outcome State Fault Refusal :=
  s.finish (s.when (!s.holds && !s.time.clockLost) fun s => s.refclkGlitch)

/-- REFCLK_RATE (R123). -/
def execRefclkRate (s : State) : Host.Outcome State Fault Refusal :=
  s.finish (s.when (!s.holds) fun s => s.refclkLost 9 CLKSUP_RATE)

/-- REFCLK_RECOVERY (R125). -/
def execRefclkRecovery (mr4 : List (Nat × Bool × Bool)) (s : State) : Host.Outcome State Fault Refusal :=
  s.finish (s.when (!s.holds) fun s => s.refclkRecovery mr4)

/-- ISL_PWR_WRITE (R12). -/
def execIslPwrWrite (t v : Nat) (s : State) : Host.Outcome State Fault Refusal :=
  s.finish (s.when (s.up t 0) fun s => s.setIslands t v)

/-- UABORT_REQ_WRITE (R485). -/
def execUabortReqWrite (t who mask : Nat) (s : State) : Host.Outcome State Fault Refusal :=
  s.finish (s.when (s.live t 0) fun s => s.uabortWrite t who mask)

/-- UNIT_ABORT_DONE (R485). -/
def execUnitAbortDone (t : Nat) (s : State) : Host.Outcome State Fault Refusal :=
  s.finish (s.when (s.live t 0) fun s => s.uabortDone t)

/-- EVENT_OCCURRENCE (R474). -/
def execEventOccurrence (t id : Nat) (s : State) : Host.Outcome State Fault Refusal :=
  s.finish (s.when (s.up t 0 && decide (id < 320)) fun s => s.raise t id)

/-- SPOIL_HOLD_EXPIRE (R481). -/
def execSpoilHoldExpire (t id : Nat) (s : State) : Host.Outcome State Fault Refusal :=
  s.finish (s.when (s.live t 0) fun s => s.holdExpire t id)

/-- REMOTE_OCCURRENCE (R480). -/
def execRemoteOccurrence (t u id : Nat) (s : State) : Host.Outcome State Fault Refusal :=
  s.finish (s.when (s.live t 0 && s.has u && t != u) fun s => s.remoteOcc t u id)

/-- EVT_INJ_WRITE (R479). -/
def execEvtInjWrite (t g mask : Nat) (s : State) : Host.Outcome State Fault Refusal :=
  s.finish (s.when (s.up t 0 && decide (g < 10)) fun s => s.inject t g mask)

/-- EVT_STAT_CLEAR (R475). -/
def execEvtStatClear (t g mask : Nat) (s : State) : Host.Outcome State Fault Refusal :=
  s.finish (s.when (s.up t 0 && decide (g < 10)) fun s => s.clearStats t g mask)

/-- EVT_CNT_CLR (R475). -/
def execEvtCntClr (t id : Nat) (s : State) : Host.Outcome State Fault Refusal :=
  s.finish (s.when (s.up t 0 && decide (id < 320)) fun s => s.setF t (EVT_CNT_COUNT id) 0)

/-- SPOIL_ROOT_CLEAR (R482). -/
def execSpoilRootClear (t : Nat) (s : State) : Host.Outcome State Fault Refusal :=
  s.finish (s.when (s.up t 0) fun s => s.clearRoot t)

/-- TILE_HEARTBEAT_LOST (R487). -/
def execTileHeartbeatLost (t : Nat) (s : State) : Host.Outcome State Fault Refusal :=
  s.finish (s.when (s.up 0 0) fun s => s.heartbeatLost t)

/-- TILE_SELF_ISOLATE (R487). -/
def execTileSelfIsolate (t : Nat) (s : State) : Host.Outcome State Fault Refusal :=
  s.finish (s.when (!s.holds) fun s => s.selfIsolate t)

/-- ISO_ISOLATE_WRITE (R487). -/
def execIsoIsolateWrite (mask : Nat) (s : State) : Host.Outcome State Fault Refusal :=
  s.finish (s.when (s.live 0 0) fun s => s.isoWrite mask)

/-- TILE_READMIT (R490). -/
def execTileReadmit (t : Nat) (ok : Bool) (mr4 : List (Nat × Bool × Bool)) (s : State) : Host.Outcome State Fault Refusal :=
  s.finish (s.when (s.live 0 0) fun s => s.readmit t ok mr4)

end Sys2Proof.Machine
end

