-- ==== Sys2Proof/Machine/CmdJtag.lean ====
section
/-!
DEFINITION. The meanings of the Jtag commands: when each applies, and the operation that is its effect. A command that does not
apply in the state it meets changes nothing (log 1).
-/

namespace Sys2Proof.Machine

/-- EXTEST (R512). -/
def execExtest (t : Nat) (s : State) : Host.Outcome State Fault Refusal :=
  s.finish (s.when (s.has t) fun s => s.tapBoundary t 0x00)

/-- IDCODE (R512). -/
def execIdcode (t : Nat) (s : State) : Host.Outcome State Fault Refusal :=
  s.finish (s.when (s.has t) fun s => s.tapSelect t 0x01 (s.idcode t))

/-- SAMPLE_PRELOAD (R512). -/
def execSamplePreload (t : Nat) (s : State) : Host.Outcome State Fault Refusal :=
  s.finish (s.when (s.has t) fun s => s.tapBoundary t 0x02)

/-- CLAMP (R512). -/
def execClamp (t : Nat) (s : State) : Host.Outcome State Fault Refusal :=
  s.finish (s.when (s.has t) fun s => s.tapSelect t 0x03 0)

/-- HIGHZ (R512). -/
def execHighz (t : Nat) (s : State) : Host.Outcome State Fault Refusal :=
  s.finish (s.when (s.has t) fun s => s.tapSelect t 0x04 0)

/-- EXTEST_PULSE (R512). -/
def execExtestPulse (t : Nat) (s : State) : Host.Outcome State Fault Refusal :=
  s.finish (s.when (s.has t) fun s => s.tapBoundary t 0x08)

/-- EXTEST_TRAIN (R512). -/
def execExtestTrain (t : Nat) (s : State) : Host.Outcome State Fault Refusal :=
  s.finish (s.when (s.has t) fun s => s.tapBoundary t 0x09)

/-- BYPASS (R512). -/
def execBypass (t : Nat) (s : State) : Host.Outcome State Fault Refusal :=
  s.finish (s.when (s.has t) fun s => s.tapSelect t 0xFF 0)

/-- JTAG_TAP_RESET (R508). -/
def execJtagTapReset (s : State) : Host.Outcome State Fault Refusal :=
  s.finish (s.when (true) fun s => s.tapReset)

end Sys2Proof.Machine
end

