-- ==== Sys2Proof/Machine/CmdLanes.lean ====
section
/-!
DEFINITION. The meanings of the Lanes commands: when each applies, and the operation that is its effect. A command that does not
apply in the state it meets changes nothing (log 1).
-/

namespace Sys2Proof.Machine

/-- LANE_CTL_WRITE (R128). -/
def execLaneCtlWrite (t l v : Nat) (s : State) : Host.Outcome State Fault Refusal :=
  s.finish (s.when (s.up t 6 && l < 24) fun s => s.laneCtlWrite t l v)

/-- LANE_CNT_CLR (R127). -/
def execLaneCntClr (t l : Nat) (s : State) : Host.Outcome State Fault Refusal :=
  s.finish (s.when (s.up t 6 && l < 24) fun s => s.laneCntClr t l)

/-- LANE_ALIGN_WRITE (R136). -/
def execLaneAlignWrite (t l v : Nat) (s : State) : Host.Outcome State Fault Refusal :=
  s.finish (s.when (s.up t 6 && l < 24) fun s => s.laneAlignWrite t l v)

/-- LANE_BLOCK_RECEIVE (R134). -/
def execLaneBlockReceive (t l hdr payload : Nat) (s : State) : Host.Outcome State Fault Refusal :=
  s.finish (s.when (s.up t 6 && l < 24) fun s => s.laneReceive t l (hdr % 4) payload)

/-- LANE_LOCK (R135). -/
def execLaneLock (t l : Nat) (s : State) : Host.Outcome State Fault Refusal :=
  s.finish (s.when (s.up t 6 && l < 24 && s.laneLive t l && s.on t (LANE_STAT_HUNTING l)) fun s => s.laneLock t l)

/-- LANE_LOCK_LOST (R137). -/
def execLaneLockLost (t l : Nat) (s : State) : Host.Outcome State Fault Refusal :=
  s.finish (s.when (s.up t 6 && l < 24 && s.laneLive t l && s.laneLocked t l && !s.on t (LANE_STAT_IDLE l)) fun s => s.laneLose t l)

/-- LANE_PLL_UNLOCK (R131). -/
def execLanePllUnlock (t l : Nat) (s : State) : Host.Outcome State Fault Refusal :=
  s.finish (s.when (s.up t 6 && l < 24) fun s => s.lanePllLost t l)

/-- LANE_PLL_RELOCK (R131). -/
def execLanePllRelock (t l : Nat) (s : State) : Host.Outcome State Fault Refusal :=
  s.finish (s.when (s.up t 6 && l < 24) fun s => s.lanePllBack t l)

/-- LANE_IDLE_ENTRY (R142). -/
def execLaneIdleEntry (t l : Nat) (s : State) : Host.Outcome State Fault Refusal :=
  s.finish (s.when (s.up t 6 && l < 24) fun s => s.laneQuiet t l)

/-- LANE_IDLE_EXIT (R143). -/
def execLaneIdleExit (t l : Nat) (wakes : List Nat) (s : State) : Host.Outcome State Fault Refusal :=
  s.finish (s.when (s.up t 6 && l < 24) fun s => s.laneWake t l wakes)

/-- LANE_WAKE_HUNT_TIMEOUT (R144). -/
def execLaneWakeHuntTimeout (t l : Nat) (s : State) : Host.Outcome State Fault Refusal :=
  s.finish (s.when (s.up t 6 && l < 24) fun s => s.laneWakeTimeout t l)

/-- EYE_SCAN_START (R148). -/
def execEyeScanStart (t l v : Nat) (s : State) : Host.Outcome State Fault Refusal :=
  s.finish (s.when (s.up t 6 && l < 24) fun s => s.eyeCtlWrite t l (orBit v 0))

/-- EYE_SCAN_STOP (R148). -/
def execEyeScanStop (t l v : Nat) (s : State) : Host.Outcome State Fault Refusal :=
  s.finish (s.when (s.up t 6 && l < 24) fun s => s.eyeCtlWrite t l (orBit v 1))

/-- EYE_SCAN_DONE (R148). -/
def execEyeScanDone (t l errs : Nat) (s : State) : Host.Outcome State Fault Refusal :=
  s.finish (s.when (s.up t 6 && l < 24) fun s => s.eyeDone t l errs)

/-- PRBS_CHECK_ERROR (R151). -/
def execPrbsCheckError (t l correct : Nat) (s : State) : Host.Outcome State Fault Refusal :=
  s.finish (s.when (s.up t 6 && l < 24) fun s => s.prbsError t l correct)

end Sys2Proof.Machine
end

