-- ==== Sys2Proof/Machine/CmdMc.lean ====
section
/-!
DEFINITION. The meanings of the Mc commands: when each applies, and the operation that is its effect. A command that does not
apply in the state it meets changes nothing (log 1).
-/

namespace Sys2Proof.Machine

/-- MC_REQUEST (R393). -/
def execMcRequest (t p a : Nat) (wr rt : Bool) (mask : Nat) (data : List Nat) (d stream : Nat) (s : State) : Host.Outcome State Fault Refusal :=
  s.finish (s.when (s.live t 5 && decide (p < 15)) fun s => s.mcRequest t p a wr mask data d stream rt)

/-- MC_READ_DECODE (R413). -/
def execMcReadDecode (t a port : Nat) (s : State) : Host.Outcome State Fault Refusal :=
  s.finish (s.when (s.live t 5 && decide (port < 15)) fun s => s.readDecode t a port)

/-- MC_REFRESH_DUE (R399). -/
def execMcRefreshDue (t c r : Nat) (s : State) : Host.Outcome State Fault Refusal :=
  s.finish (s.when (s.live t 5 && decide (c < 8)) fun s => s.refreshDue t c r)

/-- MC_MR4_POLL (R398). -/
def execMcMr4Poll (t c m : Nat) (derate hot : Bool) (s : State) : Host.Outcome State Fault Refusal :=
  s.finish (s.when (s.live t 5 && decide (c < 8) && s.f t (MCC_STAT_STATE c) == 2 && s.mr4Ready t c) fun s => (s.setPeriod 0 (8 * t + c)).mr4 t c m derate hot)

/-- MC_PAGE_IDLE (R396). -/
def execMcPageIdle (t c bank : Nat) (s : State) : Host.Outcome State Fault Refusal :=
  s.finish (s.when (s.live t 5 && decide (c < 8)) fun s => s.pageIdle t c bank)

/-- MC_MIT_WINDOW_END (R403). -/
def execMcMitWindowEnd (t c : Nat) (s : State) : Host.Outcome State Fault Refusal :=
  s.finish (s.when (s.live t 5 && decide (c < 8)) fun s => s.mitWindowEnd t c)

/-- MC_THROTTLE_WINDOW_END (R405). -/
def execMcThrottleWindowEnd (t : Nat) (s : State) : Host.Outcome State Fault Refusal :=
  s.finish (s.when (s.live t 5) fun s => s.throttleWindowEnd t)

/-- MC_CHANNEL_EN_WRITE (R409). -/
def execMcChannelEnWrite (t c : Nat) (en : Bool) (s : State) : Host.Outcome State Fault Refusal :=
  s.finish (s.when (s.up t 5 && decide (c < 8)) fun s => s.mcEnable t c en)

/-- MC_FAIL_WRITE (R409). -/
def execMcFailWrite (t c : Nat) (s : State) : Host.Outcome State Fault Refusal :=
  s.finish (s.when (s.up t 5 && decide (c < 8)) fun s => s.mcFail t c)

/-- MRCMD_START (R406). -/
def execMrcmdStart (t c v : Nat) (s : State) : Host.Outcome State Fault Refusal :=
  s.finish (s.when (s.live t 5 && decide (c < 8)) fun s => s.mrcmdWrite t c (orBit v 18))

/-- MRCMD_DONE (R406). -/
def execMrcmdDone (t c data : Nat) (s : State) : Host.Outcome State Fault Refusal :=
  s.finish (s.when (s.live t 5 && decide (c < 8)) fun s => s.mrcmdDone t c data)

/-- TRAIN_START (R406). -/
def execTrainStart (t c v : Nat) (s : State) : Host.Outcome State Fault Refusal :=
  s.finish (s.when (s.live t 5 && decide (c < 8)) fun s => s.trainWrite t c (orBit v 5))

/-- MC_TRAIN_DONE (R406). -/
def execMcTrainDone (t c : Nat) (errs : List Nat) (s : State) : Host.Outcome State Fault Refusal :=
  s.finish (s.when (s.live t 5 && decide (c < 8)) fun s => s.trainDone t c errs)

/-- SELF_REFRESH_EXIT (R408). -/
def execSelfRefreshExit (t c m : Nat) (derate hot : Bool) (s : State) : Host.Outcome State Fault Refusal :=
  s.finish (s.when (s.live t 5 && decide (c < 8)) fun s => s.selfRefreshExit t c m derate hot)

/-- SCRUB_READ (R421). -/
def execScrubRead (t c : Nat) (s : State) : Host.Outcome State Fault Refusal :=
  s.finish (s.when (s.live t 5 && decide (c < 8)) fun s => s.scrubRead t c)

/-- LOG_CLR (R424). -/
def execLogClr (t : Nat) (s : State) : Host.Outcome State Fault Refusal :=
  s.finish (s.when (s.up t 5) fun s => s.logClear t)

/-- INJ_ARM (R425). -/
def execInjArm (t v : Nat) (s : State) : Host.Outcome State Fault Refusal :=
  s.finish (s.when (s.up t 5) fun s => s.injWrite t (orBit v 19))

/-- SRAM_INJ_ARM (R425). -/
def execSramInjArm (t v : Nat) (s : State) : Host.Outcome State Fault Refusal :=
  s.finish (s.when (s.up t 5) fun s => s.sramInjWrite t (orBit v 4))

/-- SRAM_PARITY_ERROR (R416). -/
def execSramParityError (t k a b c : Nat) (s : State) : Host.Outcome State Fault Refusal :=
  s.finish (s.when (s.live t 0 && decide (k < 16)) fun s => s.sramParity t k a b c)

end Sys2Proof.Machine
end

