-- ==== Sys2Proof/Machine/CmdOut.lean ====
section
/-!
DEFINITION. The meanings of the Out commands: when each applies, and the operation that is its effect. A command that does not
apply in the state it meets changes nothing (log 1).
-/

namespace Sys2Proof.Machine

/-- OUT_ROW (R231). -/
def execOutRow (t c : Nat) (s : State) : Host.Outcome State Fault Refusal :=
  s.finish (s.when (s.live t 1 && c < 4) fun s => s.outRow t c)

/-- ASM_RANGE_RECEIVE (R237). -/
def execAsmRangeReceive (t c : Nat) (s : State) : Host.Outcome State Fault Refusal :=
  s.finish (s.when (s.live t 1 && c < 4) fun s => s.asmReceive t c)

/-- ASM_TIMEOUT (R238). -/
def execAsmTimeout (t c : Nat) (s : State) : Host.Outcome State Fault Refusal :=
  s.finish (s.when (s.live t 1 && c < 4) fun s => s.asmTimeout t c)

/-- SDI_SLOT_OPEN (R246). -/
def execSdiSlotOpen (t c : Nat) (s : State) : Host.Outcome State Fault Refusal :=
  s.finish (s.when (s.live t 1 && c < 4) fun s => s.sdiSlotOpen t c)

/-- SDI_RASTER_FRAME_START (R248). -/
def execSdiRasterFrameStart (t c : Nat) (s : State) : Host.Outcome State Fault Refusal :=
  s.finish (s.when (s.live t 1 && c < 4) fun s => s.sdiFrame t c fun s => s.sdiAudio t c)

end Sys2Proof.Machine
end

