-- ==== Sys2Proof/Machine/CmdPlink.lean ====
section
/-!
DEFINITION. The meanings of the Plink commands: when each applies, and the operation that is its effect. A command that does not
apply in the state it meets changes nothing (log 1).
-/

namespace Sys2Proof.Machine

/-- PL_LINK_ENABLE (R326). -/
def execPlLinkEnable (t l : Nat) (en : Bool) (s : State) : Host.Outcome State Fault Refusal :=
  s.finish (s.when (s.live t 6 && linkHere t l) fun s => s.linkEnable t l en)

/-- LPL_TRAIN_RECEIVE (R332). -/
def execLplTrainReceive (t l k widths role version : Nat) (seen : Bool) (s : State) : Host.Outcome State Fault Refusal :=
  s.finish (s.when (s.live t 6 && linkHere t l) fun s => s.linkTrainRx t l k widths role version seen)

/-- LPL_ALIGN_RECEIVE (R329). -/
def execLplAlignReceive (t l k width lag : Nat) (s : State) : Host.Outcome State Fault Refusal :=
  s.finish (s.when (s.live t 6 && linkHere t l) fun s => s.linkAlignRx t l k width lag)

/-- LPL_PACKET_RECEIVE (R334). -/
def execLplPacketReceive (t l seq words crc : Nat) (clean : Bool) (data : List Byte) (s : State) : Host.Outcome State Fault Refusal :=
  s.finish (s.when (s.live t 6 && linkHere t l) fun s => s.linkPacket t l (seq % 4096) words crc clean (data.map (·.toNat)))

/-- LPL_ACK_RECEIVE (R335). -/
def execLplAckReceive (t l seq : Nat) (s : State) : Host.Outcome State Fault Refusal :=
  s.finish (s.when (s.live t 6 && linkHere t l) fun s => s.linkAck t l (seq % 4096))

/-- LPL_NAK_RECEIVE (R335). -/
def execLplNakReceive (t l seq : Nat) (s : State) : Host.Outcome State Fault Refusal :=
  s.finish (s.when (s.live t 6 && linkHere t l) fun s => s.linkNak t l (seq % 4096))

/-- LPL_REPLAY_TIMEOUT (R335). -/
def execLplReplayTimeout (t l : Nat) (s : State) : Host.Outcome State Fault Refusal :=
  s.finish (s.when (s.live t 6 && linkHere t l) fun s => s.linkTimeout t l)

/-- LPL_CREDIT_RECEIVE (R336). -/
def execLplCreditReceive (t l h d : Nat) (s : State) : Host.Outcome State Fault Refusal :=
  s.finish (s.when (s.live t 6 && linkHere t l) fun s => s.linkCredits t l h d)

/-- LPL_CREDIT_SEND (R336). -/
def execLplCreditSend (t l : Nat) (s : State) : Host.Outcome State Fault Refusal :=
  s.finish (s.when (s.live t 6 && linkHere t l) fun s => s.linkCreditSend t l)

/-- LINK_IDLE_ENTRY (R355). -/
def execLinkIdleEntry (t l : Nat) (s : State) : Host.Outcome State Fault Refusal :=
  s.finish (s.when (s.live t 6 && linkHere t l) fun s => s.linkIdle t l)

/-- XFER_READY (R343). -/
def execXferReady (t : Nat) (s : State) : Host.Outcome State Fault Refusal :=
  s.finish (s.when (s.live t 6) fun s => s.xferReady t)

/-- RESPONSE (R337). -/
def execResponse (t : Nat) (s : State) : Host.Outcome State Fault Refusal :=
  s.finish (s.when (s.live t 6) fun s => s.magAnswer t)

/-- ASYNC_EVENT (R358). -/
def execAsyncEvent (t : Nat) (s : State) : Host.Outcome State Fault Refusal :=
  s.finish (s.when (s.live t 6) fun s => s.magAsync t)

/-- MAG_COMMAND_TIMEOUT (R358). -/
def execMagCommandTimeout (t tag : Nat) (s : State) : Host.Outcome State Fault Refusal :=
  s.finish (s.when (s.live t 6) fun s => s.magTimeout t tag)

/-- PL_RETRAIN_WRITE (R333). -/
def execPlRetrainWrite (t l : Nat) (s : State) : Host.Outcome State Fault Refusal :=
  s.finish (s.when (s.live t 6 && linkHere t l) fun s => s.retrainWrite t l)

/-- LPL_RETRAIN_TIMEOUT (R333). -/
def execLplRetrainTimeout (t l : Nat) (s : State) : Host.Outcome State Fault Refusal :=
  s.finish (s.when (s.live t 6 && linkHere t l) fun s => s.retrainTimeout t l)

/-- PL_RESET_WRITE (R349). -/
def execPlResetWrite (t l : Nat) (s : State) : Host.Outcome State Fault Refusal :=
  s.finish (s.when (s.live t 6 && linkHere t l) fun s => s.resetWrite t l)

/-- LPL_LRST_RECEIVE (R349). -/
def execLplLrstReceive (t l : Nat) (s : State) : Host.Outcome State Fault Refusal :=
  s.finish (s.when (s.live t 6 && linkHere t l) fun s => s.lrstReceive t l)

/-- LINK_WAKE (R354). -/
def execLinkWake (t l : Nat) (s : State) : Host.Outcome State Fault Refusal :=
  s.finish (s.when (s.has t && !s.isolated t && !s.time.clockLost && linkHere t l) fun s => s.linkWake t l)

/-- MAG_ABORT_TIMEOUT (R358). -/
def execMagAbortTimeout (t : Nat) (s : State) : Host.Outcome State Fault Refusal :=
  s.finish (s.when (s.live t 6) fun s => s.magAbortTimeout t)

end Sys2Proof.Machine
end

