-- ==== Sys2Proof/Machine/CmdPos.lean ====
section
/-!
DEFINITION. The meanings of the Pos commands: when each applies, and the operation that is its effect. A command that does not
apply in the state it meets changes nothing (log 1).
-/

namespace Sys2Proof.Machine

/-- POS_SAMPLE (R428). -/
def execPosSample (c : Nat) (sin cos : Int) (s : State) : Host.Outcome State Fault Refusal :=
  s.finish (s.when (s.live 0 0 && c < 4) fun s => s.posSample c sin cos)

/-- POS_QUAD_EDGE (R430). -/
def execPosQuadEdge (c : Nat) (a0 b0 a1 b1 : Bool) (s : State) : Host.Outcome State Fault Refusal :=
  s.finish (s.when (s.live 0 0 && c < 4) fun s => s.posQuad c a0 b0 a1 b1)

/-- POS_WIRE_FAULT (R431). -/
def execPosWireFault (c pair st : Nat) (s : State) : Host.Outcome State Fault Refusal :=
  s.finish (s.when (s.live 0 0 && c < 4 && pair < 3) fun s => s.posWire c pair st)

/-- POS_SPEED_WINDOW (R435). -/
def execPosSpeedWindow (c : Nat) (s : State) : Host.Outcome State Fault Refusal :=
  s.finish (s.when (s.live 0 0 && c < 4) fun s => s.posWindow c)

/-- POS_STOPPED (R435). -/
def execPosStopped (c : Nat) (s : State) : Host.Outcome State Fault Refusal :=
  s.finish (s.when (s.live 0 0 && c < 4) fun s => s.posStopped c)

/-- POS_INDEX (R437). -/
def execPosIndex (c : Nat) (active : Bool) (ago : Nat) (s : State) : Host.Outcome State Fault Refusal :=
  s.finish (s.when (s.live 0 0 && c < 4) fun s => s.posIndex c active ago)

/-- CMP_ARM (R440). -/
def execCmpArm (c k : Nat) (s : State) : Host.Outcome State Fault Refusal :=
  s.finish (s.when (s.live 0 0 && c < 4 && k < 8) fun s => s.cmpArm c k)

/-- CMP_DISARM (R439). -/
def execCmpDisarm (c k : Nat) (s : State) : Host.Outcome State Fault Refusal :=
  s.finish (s.when (s.live 0 0 && c < 4 && k < 8) fun s => s.cmpDisarm c k)

/-- CMP_TARGET_WRITE (R440). -/
def execCmpTargetWrite (c k lo hi : Nat) (s : State) : Host.Outcome State Fault Refusal :=
  s.finish (s.when (s.live 0 0 && c < 4 && k < 8) fun s => (s.setReg 0 (CMP_TGT_LO c k) (lo % 2 ^ 32)).cmpTarget c k hi)

/-- POS_WRITE (R441). -/
def execPosWrite (c lo hi : Nat) (s : State) : Host.Outcome State Fault Refusal :=
  s.finish (s.when (s.live 0 0 && c < 4) fun s => s.posWrite c lo hi)

/-- LENS_TRIGGER (R442). -/
def execLensTrigger (k : Nat) (s : State) : Host.Outcome State Fault Refusal :=
  s.finish (s.when (s.live 0 0 && k < 8) fun s => s.lensTrigger k)

/-- LENS_RECORD (R443). -/
def execLensRecord (k : Nat) (s : State) : Host.Outcome State Fault Refusal :=
  s.finish (s.when (s.live 0 0 && k < 8) fun s => s.lensRecord k)

end Sys2Proof.Machine
end

