-- ==== Sys2Proof/Machine/CmdRawc.lean ====
section
/-!
DEFINITION. The meanings of the Rawc commands: when each applies, and the operation that is its effect. A command that does not
apply in the state it meets changes nothing (log 1).
-/

namespace Sys2Proof.Machine

/-- RAWC_ROW (R183). -/
def execRawcRow (t k : Nat) (s : State) : Host.Outcome State Fault Refusal :=
  s.finish (s.when (s.live t 1 && k < 4) fun s => s.rawRow t k)

/-- HALO_RECEIVE (R22). -/
def execHaloReceive (t point n side : Nat) (s : State) : Host.Outcome State Fault Refusal :=
  s.finish (s.when (s.live t 1 && 1 ≤ point && point ≤ 3 && n < 4 && side < 2) fun s => s.haloReceive t point n side)

/-- OB_SUMS_RECEIVE (R187). -/
def execObSumsReceive (t k : Nat) (s : State) : Host.Outcome State Fault Refusal :=
  s.finish (s.when (s.live t 1 && k < 4) fun s => s.obReceive t k)

/-- STATS_PARTIAL_RECEIVE (R205). -/
def execStatsPartialReceive (k : Nat) (s : State) : Host.Outcome State Fault Refusal :=
  s.finish (s.when (s.live 0 1 && k < 4) fun s => (s.statsReceive k).burDiff)

/-- RAWC_TABLE_WRITE (R208). -/
def execRawcTableWrite (t off v : Nat) (s : State) : Host.Outcome State Fault Refusal :=
  s.finish (s.when (s.live t 1 && ((0x400000 ≤ off && off < 0x700000)) && off % 4 == 0) fun s => s.tableWrite t off v)

/-- DEV_TABLE_WRITE (R229). -/
def execDevTableWrite (t off v : Nat) (s : State) : Host.Outcome State Fault Refusal :=
  s.finish (s.when (s.live t 1 && (0x700000 ≤ off && off < 0x800000) && off % 4 == 0) fun s => s.tableWrite t off v)

/-- COEF_TABLE_WRITE (R251). -/
def execCoefTableWrite (t off v : Nat) (s : State) : Host.Outcome State Fault Refusal :=
  s.finish (s.when (s.live t 1 && (0xD0000 ≤ off && off < 0xD4000) && off % 4 == 0) fun s => s.tableWrite t off v)

end Sys2Proof.Machine
end

