-- ==== Sys2Proof/Machine/CmdRec.lean ====
section
/-!
DEFINITION. The meanings of the Rec commands: when each applies, and the operation that is its effect. A command that does not
apply in the state it meets changes nothing (log 1).
-/

namespace Sys2Proof.Machine

/-- REC_CHUNK (R277). -/
def execRecChunk (t k : Nat) (s : State) : Host.Outcome State Fault Refusal :=
  s.finish (s.when (s.live t 0 && k < 16) fun s => s.recChunk t k)

/-- EXTENT_FLUSH_TIMEOUT (R280). -/
def execExtentFlushTimeout (t k : Nat) (s : State) : Host.Outcome State Fault Refusal :=
  s.finish (s.when (s.live t 0 && k < 8) fun s => s.extTimeout t k)

/-- MAG_RESPONSE (R281). -/
def execMagResponse (t tag : Nat) (s : State) : Host.Outcome State Fault Refusal :=
  s.finish (s.when (s.live t 6 && s.live 0 0) fun s => s.magResponse t tag)

/-- BURST_FRAME_WRITE (R284). -/
def execBurstFrameWrite (t : Nat) (s : State) : Host.Outcome State Fault Refusal :=
  s.finish (s.when (s.live t 0) fun s => s.burstFrame t)

/-- BURST_TRIGGER (R286). -/
def execBurstTrigger (pin : Nat) (rising : Bool) (s : State) : Host.Outcome State Fault Refusal :=
  s.finish (s.when (s.live 0 0) fun s => s.burPin pin rising)

/-- BS_TRIGGER (R286). -/
def execBsTrigger (s : State) : Host.Outcome State Fault Refusal :=
  s.finish (s.when (s.live 0 0) fun s => s.bsTrigger)

/-- BURST_TRIGGER_NOTICE (R287). -/
def execBurstTriggerNotice (t : Nat) (s : State) : Host.Outcome State Fault Refusal :=
  s.finish (s.when (s.live t 0) fun s => s.burNotice t)

/-- BS_RELEASE (R290). -/
def execBsRelease (t : Nat) (s : State) : Host.Outcome State Fault Refusal :=
  s.finish (s.when (s.live t 0) fun s => s.bsRelease t)

end Sys2Proof.Machine
end

