-- ==== Sys2Proof/Machine/CmdRegs.lean ====
section
/-!
DEFINITION. The meanings of the Regs commands: when each applies, and the operation that is its effect. A command that does not
apply in the state it meets changes nothing (log 1).
-/

namespace Sys2Proof.Machine

/-- REGISTER_WRITE (R6). -/
def execRegisterWrite (who t off v : Nat) (s : State) : Host.Outcome State Fault Refusal :=
  s.finish (s.when (!s.holds && decide (who ≤ 64)) fun s => (s.busWrite who t off (v % 2 ^ 32) none).1)

/-- TC_INC_WRITE (R106). -/
def execTcIncWrite (who t n hi : Nat) (s : State) : Host.Outcome State Fault Refusal :=
  s.finish (s.when (!s.holds && decide (who ≤ 64) && decide (n < 4)) fun s => (s.busWrite who t (TC_INC_HI n) (hi % 2 ^ 32) none).1)

/-- TC_STEP_WRITE (R107). -/
def execTcStepWrite (who t n hi : Nat) (s : State) : Host.Outcome State Fault Refusal :=
  s.finish (s.when (!s.holds && decide (who ≤ 64) && decide (n < 4)) fun s => (s.busWrite who t (TC_STEP_HI n) (hi % 2 ^ 32) none).1)

/-- TC_OFS_WRITE (R110). -/
def execTcOfsWrite (who n hi : Nat) (s : State) : Host.Outcome State Fault Refusal :=
  s.finish (s.when (!s.holds && decide (who ≤ 64) && decide (0 < n) && decide (n < 4)) fun s => (s.busWrite who 0 (TC_OFS_HI n) (hi % 2 ^ 32) none).1)

/-- LC0_OFFSET_WRITE (R116). -/
def execLc0OffsetWrite (who v : Nat) (s : State) : Host.Outcome State Fault Refusal :=
  s.finish (s.when (!s.holds && decide (who ≤ 64)) fun s => (s.busWrite who 0 LC0_OFS_2 (v % 2 ^ 32) none).1)

/-- LC0_RATE_WRITE (R116). -/
def execLc0RateWrite (who v : Nat) (s : State) : Host.Outcome State Fault Refusal :=
  s.finish (s.when (!s.holds && decide (who ≤ 64)) fun s => (s.busWrite who 0 LC0_RATE_HI (v % 2 ^ 32) none).1)

/-- GLITCH_CLR (R123). -/
def execGlitchClr (who t : Nat) (s : State) : Host.Outcome State Fault Refusal :=
  s.finish (s.when (!s.holds && decide (who ≤ 64)) fun s => (s.busWrite who t CLKSUP 0x10000 none).1)

/-- GEYSER_ARM (R121). -/
def execGeyserArm (who t g v : Nat) (s : State) : Host.Outcome State Fault Refusal :=
  s.finish (s.when (!s.holds && decide (who ≤ 64) && decide (g < 32) && bit v 0) fun s => (s.busWrite who t (GY_CTL g) (v % 2 ^ 32) none).1)

/-- GEYSER_DISARM (R121). -/
def execGeyserDisarm (who t g v : Nat) (s : State) : Host.Outcome State Fault Refusal :=
  s.finish (s.when (!s.holds && decide (who ≤ 64) && decide (g < 32) && bit v 1) fun s => (s.busWrite who t (GY_CTL g) (v % 2 ^ 32) none).1)

/-- GEYSER_TARGET_WRITE (R118). -/
def execGeyserTargetWrite (who t g hi : Nat) (s : State) : Host.Outcome State Fault Refusal :=
  s.finish (s.when (!s.holds && decide (who ≤ 64) && decide (g < 32)) fun s => (s.busWrite who t (GY_TGT_HI g) (hi % 2 ^ 32) none).1)

/-- TIME_RTT_START (R101). -/
def execTimeRttStart (who t : Nat) (s : State) : Host.Outcome State Fault Refusal :=
  s.finish (s.when (!s.holds && decide (who ≤ 64)) fun s => (s.busWrite who t TIME_RTT 1 none).1)

/-- CAPTURE_READ (R111). -/
def execCaptureRead (who k : Nat) (s : State) : Host.Outcome State Fault Refusal :=
  s.finish (s.when (!s.holds && decide (who ≤ 64) && decide (k < 6)) fun s => s.readBy who 0 (CAP_FRAC k))

/-- ADIT_FSTAT_READ (R176). -/
def execAditFstatRead (who t p : Nat) (s : State) : Host.Outcome State Fault Refusal :=
  s.finish (s.when (!s.holds && decide (who ≤ 64) && decide (p < 4)) fun s => s.readBy who t (ADIT_FSTAT p))

/-- RAWC_RECORD_READ (R207). -/
def execRawcRecordRead (who t k : Nat) (s : State) : Host.Outcome State Fault Refusal :=
  s.finish (s.when (!s.holds && decide (who ≤ 64) && decide (k < 4)) fun s => s.readBy who t (RC_FCNT k))

/-- DEV_RECORD_READ (R228). -/
def execDevRecordRead (who t n : Nat) (s : State) : Host.Outcome State Fault Refusal :=
  s.finish (s.when (!s.holds && decide (who ≤ 64) && decide (n < 2)) fun s => s.readBy who t (DV_FCNT n))

/-- OUT_RECORD_READ (R250). -/
def execOutRecordRead (who t c : Nat) (s : State) : Host.Outcome State Fault Refusal :=
  s.finish (s.when (!s.holds && decide (who ≤ 64) && decide (c < 4)) fun s => s.readBy who t (OC_OFCNT c))

/-- HEVCE_RECORD_READ (R308). -/
def execHevceRecordRead (who t c : Nat) (s : State) : Host.Outcome State Fault Refusal :=
  s.finish (s.when (!s.holds && decide (who ≤ 64) && decide (c < 4)) fun s => s.readBy who t (HE_FCNT c))

/-- HEVCD_ERR_READ (R324). -/
def execHevcdErrRead (who t c : Nat) (s : State) : Host.Outcome State Fault Refusal :=
  s.finish (s.when (!s.holds && decide (who ≤ 64) && decide (c < 4)) fun s => s.readBy who t (HD_ERR c))

/-- CMP_CAPTURE_READ (R439). -/
def execCmpCaptureRead (who c k : Nat) (s : State) : Host.Outcome State Fault Refusal :=
  s.finish (s.when (!s.holds && decide (who ≤ 64) && decide (c < 4) && decide (k < 8)) fun s => s.readBy who 0 (CMP_CAP_LO c k))

/-- SPOIL_ROOT_READ (R482). -/
def execSpoilRootRead (who t : Nat) (s : State) : Host.Outcome State Fault Refusal :=
  s.finish (s.when (!s.holds && decide (who ≤ 64)) fun s => s.readBy who t SPOIL_ROOT)

end Sys2Proof.Machine
end

