-- ==== Sys2Proof/Machine/SeamArb.lean ====
section
/-!
DEFINITION. The arbitration of a Seam port by traffic class (R16): what waits at each port of a tile, its class, and what its arrival
does. Traffic of classes 1 to 4 passes the tiles on its way within the command that sends it; class 5 crosses within its command; packets
of class 6 go tile by tile (log 9).
-/

namespace Sys2Proof.Machine

/-- A message that stands at the end of its way: a time stamp, a lens trigger report; a halo, a range of an output row, margins of a
reference picture; raw samples, a Frame Start record, a line report, optical-black sums, statistics; an epoch, a transaction's PREPARE,
answer, decision, acknowledgement and report, a burst notice; a packet of firmware traffic. -/
inductive SeamMsg where
  | stamp
  | lens (k : Nat)
  | halo (point i side : Nat)
  | range (c : Nat)
  | margin (c : Nat)
  | raw (p : Nat)
  | record (p : Nat)
  | report (p : Nat)
  | sums (k : Nat)
  | partials (k : Nat)
  | epoch
  | prepare (x : Nat)
  | answer (x t : Nat)
  | decision (x : Nat)
  | posAck (x t : Nat)
  | swapReport (x t : Nat)
  | notice
  | packet (x : SeamPkt)
  deriving DecidableEq, Repr

/-- The traffic class of a message; the lower number goes first (R16). -/
def SeamMsg.cls : SeamMsg → Nat
  | .stamp | .lens _ => 1
  | .halo .. | .range _ | .margin _ => 2
  | .raw _ | .record _ | .report _ | .sums _ | .partials _ => 3
  | .epoch | .prepare _ | .answer .. | .decision _ | .posAck .. | .swapReport .. | .notice => 4
  | .packet _ => 6

/-- The port of tile dst by which traffic from tile t comes in, over the routes (R14). -/
def State.arrivePort (s : State) (dst : Nat) : Nat → Nat → Option Nat
  | 0, _ => none
  | k + 1, t =>
    match s.routePort t dst with
    | none => none
    | some p =>
      let q := seamPartner s.member t p
      if q.1 = dst then some q.2 else s.arrivePort dst k q.1

/-- A message with the tile it comes from, where there is one at the front. -/
def fromHead {α : Type} (l : List α) (src : α → Nat) (m : SeamMsg) : List (Nat × SeamMsg) :=
  (l.take 1).map fun x => (src x, m)

/-- Class 1 for tile t: master stamps, and on T0 the reports of lens triggers. -/
def State.waits1 (s : State) (t : Nat) : List (Nat × SeamMsg) :=
  (if s.live t 0 then fromHead (smGet s.time.stamps t []) (fun _ => 0) .stamp else []) ++
    if t = 0 ∧ s.live 0 0 then
      (List.range 8).flatMap fun k => fromHead (smGet s.pos.lens k {}).reports (fun _ => s.f 0 (LM_CFG_TILE k)) (.lens k)
    else []

/-- Class 2 for tile t: halos, ranges, margins. -/
def State.waits2 (s : State) (t : Nat) : List (Nat × SeamMsg) :=
  (if s.live t 1 then
    ([1, 2, 3].flatMap fun point => (List.range 4).flatMap fun i => [0, 1].flatMap fun side =>
      fromHead (smGet s.pix.haloOut (hkey t point i side) []) (·.src) (.halo point i side)) ++
    ((List.range 4).flatMap fun c => fromHead (smGet s.pix.ranges (tk t c) []) (·.src) (.range c))
  else []) ++
  if s.live t 2 then (List.range 4).flatMap fun c => fromHead (s.enc t c).margins (·.src) (.margin c) else []

/-- Class 3 for tile t: samples, records and reports of sensor groups, optical-black sums, statistics. -/
def State.waits3 (s : State) (t : Nat) : List (Nat × SeamMsg) :=
  if s.live t 1 then
    ((List.range 4).flatMap fun p =>
      fromHead (smGet s.adit.pieces (tk t p) []) (·.src) (.raw p) ++
      fromHead (smGet s.adit.records (tk t p) []) (fun _ => s.a t (AD_SG_LEAD p)) (.record p) ++
      fromHead ((smGet s.adit.reports (tk t p) []).filter (s.sgReady t p)) (·.tile) (.report p) ++
      fromHead (smGet s.pix.obOut (tk t p) []) (·.src) (.sums p)) ++
    if t = 0 then (List.range 4).flatMap fun k => fromHead (smGet s.pix.partials k []) (·.tile) (.partials k) else []
  else []

/-- Class 4 of one transaction for tile t (R54, R58). -/
def State.waitsTxn (s : State) (t i : Nat) : List (Nat × SeamMsg) :=
  let x := s.txn i
  (if bit x.prepSent t ∧ s.msgOpen x.tile t then [(x.tile, SeamMsg.prepare i)] else []) ++
  (if bit x.decSent t ∧ s.msgOpen x.tile t then [(x.tile, SeamMsg.decision i)] else []) ++
  if t = x.tile then
    (s.tileList.filter (s.msgOpen t)).flatMap fun u =>
      (if bit x.answerSent u then [(u, SeamMsg.answer i u)] else []) ++
      (if bit x.ackSent u then [(u, SeamMsg.posAck i u)] else []) ++
      if bit x.reportSent u then [(u, SeamMsg.swapReport i u)] else []
  else []

/-- Class 4 for tile t: it pauses while either end's CTL restarts (R59). -/
def State.waits4 (s : State) (t : Nat) : List (Nat × SeamMsg) :=
  if s.live t 0 then
    (if s.msgOpen 0 t then fromHead (smGet s.bench.epochs t []) (fun _ => 0) .epoch else []) ++
    ((List.range 16).flatMap (s.waitsTxn t)) ++
    if (s.bur t).notice.isSome then [(0, SeamMsg.notice)] else []
  else []

/-- Everything of classes 1 to 4 that waits at a port of tile t, by class. -/
def State.waitsAt (s : State) (t p : Nat) : List SeamMsg :=
  ((s.waits1 t ++ s.waits2 t ++ s.waits3 t ++ s.waits4 t).filter fun x => s.arrivePort t 8 x.1 = some p).map (·.2)

/-- The packet that port p of tile t takes next: of the highest class that waits there (R16). -/
def State.seamNext (s : State) (t p : Nat) : Option SeamMsg :=
  match s.waitsAt t p with
  | m :: _ => some m
  | [] => (s.seam.flight.find? fun x => x.hop = t ∧ x.port = p).map SeamMsg.packet

/-- The port that the next arrival at tile t comes by: that of the packet of firmware traffic longest there, or the lowest at which
anything waits (log 9). -/
def State.seamTurn (s : State) (t : Nat) : Option Nat :=
  match s.seam.flight.find? fun x => x.hop = t with
  | some x => some x.port
  | none => (List.range 4).find? fun p => (s.waitsAt t p) != []

/-- A message arrives at tile t. -/
def State.seamArrive (s : State) (t : Nat) : SeamMsg → State
  | .stamp => s.stampTake t
  | .lens k => s.lensTrigger k
  | .halo point i side => s.haloReceive t point i side
  | .range c => s.asmReceive t c
  | .margin c => s.heMargin t c
  | .raw p => s.sgRaw t p
  | .record p => s.frameRecord t p
  | .report p => s.sgReport t p
  | .sums k => s.obReceive t k
  | .partials k => (s.statsReceive k).burDiff
  | .epoch => s.epochReceive t
  | .prepare x => s.prepareReceive x t
  | .answer x u => s.answerReceive x u
  | .decision x => s.decisionReceive x t
  | .posAck x u => s.posAck x u
  | .swapReport x u => s.reportReceive x u
  | .notice => s.burNotice t
  | .packet x =>
    let s := { s with seam.flight := s.seam.flight.erase x }
    if x.dst = t then s.seamDeliver t x.body else s.seamForward t x.dst x.body

/-- SEAM_PACKET_RECEIVE: the next packet of a port is checked, replayed once if its CRC fails, then delivered or forwarded (R14, R16,
R17). One whose replay fails too stays with the link (DESIGN CHOICE, log 8). -/
def State.seamReceive (s : State) (t : Nat) (crcOk replayOk : Bool) : State :=
  match s.seamTurn t with
  | none => s
  | some p =>
    match s.seamNext t p with
    | none => s
    | some m =>
      let s := s.seamCheck t p crcOk replayOk
      s.when (crcOk || replayOk) fun s => s.seamArrive t m

end Sys2Proof.Machine
end

