-- ==== Sys2Proof/Machine/CmdSeam.lean ====
section
/-!
DEFINITION. The meanings of the Seam commands: when each applies, and the operation that is its effect. A command that does not
apply in the state it meets changes nothing (log 1).
-/

namespace Sys2Proof.Machine

/-- SEAM_PACKET_RECEIVE (R14, R16, R17). -/
def execSeamPacketReceive (t : Nat) (crcOk replayOk : Bool) (s : State) : Host.Outcome State Fault Refusal :=
  s.finish (s.when (s.live t 7) fun s => s.seamReceive t crcOk replayOk)

/-- SEAM_PORT_DOWN (R17). -/
def execSeamPortDown (t p : Nat) (s : State) : Host.Outcome State Fault Refusal :=
  s.finish (s.when (s.live t 7 && decide (p < 4)) fun s => s.portDown t p)

/-- SEAM_PORT_RESTART (R17). -/
def execSeamPortRestart (t p : Nat) (s : State) : Host.Outcome State Fault Refusal :=
  s.finish (s.when (s.live t 7 && decide (p < 4)) fun s => s.portRestart t p)

/-- SEAM_PORT_UP (R17). -/
def execSeamPortUp (t p : Nat) (s : State) : Host.Outcome State Fault Refusal :=
  s.finish (s.when (s.live t 7 && decide (p < 4)) fun s => s.portUpNow t p)

/-- XING_FAULT (R20). -/
def execXingFault (t x src : Nat) (s : State) : Host.Outcome State Fault Refusal :=
  s.finish (s.when (s.live t 0 && decide (x < 9) && decide (src < 4)) fun s => s.xingFault t x src)

end Sys2Proof.Machine
end

