-- ==== Sys2Proof/Machine/CmdStart.lean ====
section
/-!
DEFINITION. The meanings of the Start commands: when each applies, and the operation that is its effect. A command that does not
apply in the state it meets changes nothing (log 1).
-/

namespace Sys2Proof.Machine

/-- POR_N_ASSERT (R508). -/
def execPorNAssert (widthNs : Nat) (s : State) : Host.Outcome State Fault Refusal :=
  if 1000 ≤ widthNs ∧ widthNs < 10000 then .fault .porWidthUndefined else s.finish (s.porAssert widthNs)

/-- POR_N_RELEASE (R12). -/
def execPorNRelease (bootsel : Nat) (s : State) : Host.Outcome State Fault Refusal :=
  s.finish (s.when (s.boot.porLow) fun s => s.porRelease bootsel)

/-- RAIL_OUT_OF_RANGE (R504). -/
def execRailOutOfRange (s : State) : Host.Outcome State Fault Refusal :=
  s.finish (s.when (!s.boot.porLow) fun s => s.railOut)

/-- BOOT_ROM_START (R521). -/
def execBootRomStart (flash : Option FlashData) (s : State) : Host.Outcome State Fault Refusal :=
  s.finish (s.when (!s.holds) fun s => s.romStart flash)

/-- FIRMWARE_START (R521). -/
def execFirmwareStart (s : State) : Host.Outcome State Fault Refusal :=
  s.finish (s.when (!s.holds) fun s => s.firmwareStart)

/-- STARTUP_TILES (R535). -/
def execStartupTiles (t0ok : Bool) (results : List (Bool × Nat × Nat)) (s : State) : Host.Outcome State Fault Refusal :=
  s.finish (s.when (!s.holds) fun s => s.startupTiles t0ok results)

/-- STARTUP_DRAM (R407). -/
def execStartupDram (boardOk : Bool) (writes : List (Nat × Nat × Nat)) (s : State) : Host.Outcome State Fault Refusal :=
  s.finish (s.when (!s.holds) fun s => s.startupDram boardOk writes)

/-- STARTUP_LANES (R521). -/
def execStartupLanes (writes : List (Nat × Nat × Nat)) (mags : List Nat) (s : State) : Host.Outcome State Fault Refusal :=
  s.finish (s.when (!s.holds) fun s => s.startupLanes writes mags)

/-- STARTUP_READY (R521). -/
def execStartupReady (s : State) : Host.Outcome State Fault Refusal :=
  s.finish (s.when (!s.holds) fun s => s.startupReady)

end Sys2Proof.Machine
end

