-- ==== Sys2Proof/Machine/CmdTherm.lean ====
section
/-!
DEFINITION. The meanings of the Therm commands: when each applies, and the operation that is its effect. A command that does not
apply in the state it meets changes nothing (log 1).
-/

namespace Sys2Proof.Machine

/-- THERM_SAMPLE (R456). -/
def execThermSample (t : Nat) (temps : List Int) (s : State) : Host.Outcome State Fault Refusal :=
  s.finish (s.when (s.has t && !s.boot.porLow) fun s => s.thermSample t temps)

/-- POWER_ESTIMATE (R461). -/
def execPowerEstimate (t : Nat) (mw : List Nat) (s : State) : Host.Outcome State Fault Refusal :=
  s.finish (s.when (s.live t 0) fun s => s.powerEstimate t mw)

/-- PLIM_TICK (R460). -/
def execPlimTick (s : State) : Host.Outcome State Fault Refusal :=
  s.finish (s.when (s.live 0 0) fun s => s.plimTick)

/-- PMBUS_POLL (R462). -/
def execPmbusPoll (results : List (Bool × Nat × Nat)) (s : State) : Host.Outcome State Fault Refusal :=
  s.finish (s.when (s.live 0 0) fun s => s.pmbusPoll results)

/-- ARBITER_PASS (R465). -/
def execArbiterPass (s : State) : Host.Outcome State Fault Refusal :=
  s.finish (s.when (s.live 0 0) fun s => s.arbiterPass)

/-- THERM_SHUTDOWN (R469). -/
def execThermShutdown (s : State) : Host.Outcome State Fault Refusal :=
  s.finish (s.when (true) fun s => s.thermShutdown)

/-- THERM_SHDN_ARM (R469). -/
def execThermShdnArm (s : State) : Host.Outcome State Fault Refusal :=
  s.finish (s.when (s.up 0 0) fun s => s.shdnArm)

/-- THERM_SHDN_FIRE (R469). -/
def execThermShdnFire (s : State) : Host.Outcome State Fault Refusal :=
  s.finish (s.when (s.up 0 0) fun s => s.shdnFire)

end Sys2Proof.Machine
end

