-- ==== Sys2Proof/Machine/CmdTime.lean ====
section
/-!
DEFINITION. The meanings of the Time commands: when each applies, and the operation that is its effect. A command that does not
apply in the state it meets changes nothing (log 1).
-/

namespace Sys2Proof.Machine

/-- TIME_STAMP_SEND (R101). -/
def execTimeStampSend (s : State) : Host.Outcome State Fault Refusal :=
  s.finish (s.when (s.live 0 0) fun s => s.stampSend)

/-- FOLLOWER_STAMP_RECEIVE (R103). -/
def execFollowerStampReceive (t : Nat) (s : State) : Host.Outcome State Fault Refusal :=
  s.finish (s.when (s.live t 0) fun s => s.stampTake t)

/-- CAPTURE_EDGE (R111). -/
def execCaptureEdge (k : Nat) (rising : Bool) (s : State) : Host.Outcome State Fault Refusal :=
  s.finish (s.when (s.live 0 0 && decide (k < 6)) fun s => s.captureEdge k rising)

/-- CAPTURE_LOST (R112). -/
def execCaptureLost (k : Nat) (s : State) : Host.Outcome State Fault Refusal :=
  s.finish (s.when (s.live 0 0 && decide (k < 6)) fun s => s.captureLost k)

/-- GEYSER_FIRE (R119). -/
def execGeyserFire (t g : Nat) (s : State) : Host.Outcome State Fault Refusal :=
  s.finish (s.when (s.live t 0 && decide (g < 32)) fun s => s.geyFire t g)

/-- TIME_RTT_DONE (R101). -/
def execTimeRttDone (t ticks : Nat) (s : State) : Host.Outcome State Fault Refusal :=
  s.finish (s.when (s.live t 0) fun s => s.rttDone t ticks)

/-- TIME_TICK (R98). -/
def execTimeTick (s : State) : Host.Outcome State Fault Refusal :=
  s.finish (s.when (!s.holds) fun s => s.timeTick.resetsOver)

end Sys2Proof.Machine
end

