-- ==== Sys2Proof/Machine/Dispatch.lean ====
section
/-!
DEFINITION. Every command and the meaning it calls.
-/

namespace Sys2Proof.Machine

/-- The effect of a command on everything but the queue. -/
def exec (i : Instr) (s : State) : Host.Outcome State Fault Refusal :=
  match i with
  | .porNAssert widthNs => Sys2Proof.Machine.execPorNAssert widthNs s
  | .porNRelease bootsel => Sys2Proof.Machine.execPorNRelease bootsel s
  | .railOutOfRange => Sys2Proof.Machine.execRailOutOfRange s
  | .bootRomStart flash => Sys2Proof.Machine.execBootRomStart flash s
  | .firmwareStart => Sys2Proof.Machine.execFirmwareStart s
  | .startupTiles t0ok results => Sys2Proof.Machine.execStartupTiles t0ok results s
  | .startupDram boardOk writes => Sys2Proof.Machine.execStartupDram boardOk writes s
  | .startupLanes writes mags => Sys2Proof.Machine.execStartupLanes writes mags s
  | .startupReady => Sys2Proof.Machine.execStartupReady s
  | .refclkStop => Sys2Proof.Machine.execRefclkStop s
  | .refclkGlitch => Sys2Proof.Machine.execRefclkGlitch s
  | .refclkRate => Sys2Proof.Machine.execRefclkRate s
  | .refclkRecovery mr4 => Sys2Proof.Machine.execRefclkRecovery mr4 s
  | .islPwrWrite t v => Sys2Proof.Machine.execIslPwrWrite t v s
  | .seamPacketReceive t crcOk replayOk => Sys2Proof.Machine.execSeamPacketReceive t crcOk replayOk s
  | .seamPortDown t p => Sys2Proof.Machine.execSeamPortDown t p s
  | .seamPortRestart t p => Sys2Proof.Machine.execSeamPortRestart t p s
  | .xingFault t x src => Sys2Proof.Machine.execXingFault t x src s
  | .regRead tag => Sys2Proof.Machine.execRegRead tag s
  | .regWrite tag => Sys2Proof.Machine.execRegWrite tag s
  | .registerWrite who t off v => Sys2Proof.Machine.execRegisterWrite who t off v s
  | .bwr t c => Sys2Proof.Machine.execBwr t c s
  | .brd t c => Sys2Proof.Machine.execBrd t c s
  | .brs t c => Sys2Proof.Machine.execBrs t c s
  | .unitArm t u => Sys2Proof.Machine.execUnitArm t u s
  | .unitDisarm t u => Sys2Proof.Machine.execUnitDisarm t u s
  | .sectionExchange t u sec => Sys2Proof.Machine.execSectionExchange t u sec s
  | .epochAdvance => Sys2Proof.Machine.execEpochAdvance s
  | .epochUpdateReceive t => Sys2Proof.Machine.execEpochUpdateReceive t s
  | .txbegin t c => Sys2Proof.Machine.execTxbegin t c s
  | .txcommit t c => Sys2Proof.Machine.execTxcommit t c s
  | .txabort t c => Sys2Proof.Machine.execTxabort t c s
  | .txstat t c => Sys2Proof.Machine.execTxstat t c s
  | .txnPrepareReceive x t => Sys2Proof.Machine.execTxnPrepareReceive x t s
  | .txnPreparedReceive x t => Sys2Proof.Machine.execTxnPreparedReceive x t s
  | .txnGuardDeadline x => Sys2Proof.Machine.execTxnGuardDeadline x s
  | .txnDecisionReceive x t => Sys2Proof.Machine.execTxnDecisionReceive x t s
  | .txnImmediateTimeout x t => Sys2Proof.Machine.execTxnImmediateTimeout x t s
  | .txnSwapReportReceive x t => Sys2Proof.Machine.execTxnSwapReportReceive x t s
  | .txnReportResend x t => Sys2Proof.Machine.execTxnReportResend x t s
  | .txnEndTimeout x => Sys2Proof.Machine.execTxnEndTimeout x s
  | .txnPosAckTimeout x => Sys2Proof.Machine.execTxnPosAckTimeout x s
  | .txnPosAckReceive x t => Sys2Proof.Machine.execTxnPosAckReceive x t s
  | .ctlRestart t ends => Sys2Proof.Machine.execCtlRestart t ends s
  | .crewWatchdog t c => Sys2Proof.Machine.execCrewWatchdog t c s
  | .crewWake t c => Sys2Proof.Machine.execCrewWake t c s
  | .opr t c => Sys2Proof.Machine.execOpr t c s
  | .addi t c => Sys2Proof.Machine.execAddi t c s
  | .andi t c => Sys2Proof.Machine.execAndi t c s
  | .ori t c => Sys2Proof.Machine.execOri t c s
  | .xori t c => Sys2Proof.Machine.execXori t c s
  | .shi t c => Sys2Proof.Machine.execShi t c s
  | .lui t c => Sys2Proof.Machine.execLui t c s
  | .lmi t c => Sys2Proof.Machine.execLmi t c s
  | .lhi t c => Sys2Proof.Machine.execLhi t c s
  | .cmp t c => Sys2Proof.Machine.execCmp t c s
  | .cmpi t c => Sys2Proof.Machine.execCmpi t c s
  | .pset t c => Sys2Proof.Machine.execPset t c s
  | .lb t c => Sys2Proof.Machine.execLb t c s
  | .lbu t c => Sys2Proof.Machine.execLbu t c s
  | .lh t c => Sys2Proof.Machine.execLh t c s
  | .lhu t c => Sys2Proof.Machine.execLhu t c s
  | .lw t c => Sys2Proof.Machine.execLw t c s
  | .lwu t c => Sys2Proof.Machine.execLwu t c s
  | .ld t c => Sys2Proof.Machine.execLd t c s
  | .sb t c => Sys2Proof.Machine.execSb t c s
  | .sh t c => Sys2Proof.Machine.execSh t c s
  | .sw t c => Sys2Proof.Machine.execSw t c s
  | .sd t c => Sys2Proof.Machine.execSd t c s
  | .amo t c => Sys2Proof.Machine.execAmo t c s
  | .bc t c => Sys2Proof.Machine.execBc t c s
  | .jal t c => Sys2Proof.Machine.execJal t c s
  | .jalr t c => Sys2Proof.Machine.execJalr t c s
  | .wait t c => Sys2Proof.Machine.execWait t c s
  | .waitt t c => Sys2Proof.Machine.execWaitt t c s
  | .waittDeadline t c => Sys2Proof.Machine.execWaittDeadline t c s
  | .fire t c => Sys2Proof.Machine.execFire t c s
  | .arm t c => Sys2Proof.Machine.execArm t c s
  | .trd t c => Sys2Proof.Machine.execTrd t c s
  | .lrd t c => Sys2Proof.Machine.execLrd t c s
  | .ltick t c => Sys2Proof.Machine.execLtick t c s
  | .tinc t c => Sys2Proof.Machine.execTinc t c s
  | .tstep t c => Sys2Proof.Machine.execTstep t c s
  | .send t c => Sys2Proof.Machine.execSend t c s
  | .recv t c => Sys2Proof.Machine.execRecv t c s
  | .post t c => Sys2Proof.Machine.execPost t c s
  | .poll t c => Sys2Proof.Machine.execPoll t c s
  | .dmaTransfer t => Sys2Proof.Machine.execDmaTransfer t s
  | .trap t c => Sys2Proof.Machine.execTrap t c s
  | .retx t c => Sys2Proof.Machine.execRetx t c s
  | .csrr t c => Sys2Proof.Machine.execCsrr t c s
  | .csrw t c => Sys2Proof.Machine.execCsrw t c s
  | .csrs t c => Sys2Proof.Machine.execCsrs t c s
  | .csrc t c => Sys2Proof.Machine.execCsrc t c s
  | .fence t c => Sys2Proof.Machine.execFence t c s
  | .halt t c => Sys2Proof.Machine.execHalt t c s
  | .yield t c => Sys2Proof.Machine.execYield t c s
  | .timeStampSend => Sys2Proof.Machine.execTimeStampSend s
  | .followerStampReceive t => Sys2Proof.Machine.execFollowerStampReceive t s
  | .timeRttStart who t => Sys2Proof.Machine.execTimeRttStart who t s
  | .timeChangeApply n => Sys2Proof.Machine.execTimeChangeApply n s
  | .tcIncWrite who t n hi => Sys2Proof.Machine.execTcIncWrite who t n hi s
  | .tcStepWrite who t n hi => Sys2Proof.Machine.execTcStepWrite who t n hi s
  | .tcOfsWrite who n hi => Sys2Proof.Machine.execTcOfsWrite who n hi s
  | .captureEdge k rising => Sys2Proof.Machine.execCaptureEdge k rising s
  | .captureRead who k => Sys2Proof.Machine.execCaptureRead who k s
  | .captureLost k => Sys2Proof.Machine.execCaptureLost k s
  | .timeExchange answer => Sys2Proof.Machine.execTimeExchange answer s
  | .lc0OffsetWrite who v => Sys2Proof.Machine.execLc0OffsetWrite who v s
  | .lc0RateWrite who v => Sys2Proof.Machine.execLc0RateWrite who v s
  | .glitchClr who t => Sys2Proof.Machine.execGlitchClr who t s
  | .geyserFire t g => Sys2Proof.Machine.execGeyserFire t g s
  | .geyserArm who t g v => Sys2Proof.Machine.execGeyserArm who t g v s
  | .geyserDisarm who t g v => Sys2Proof.Machine.execGeyserDisarm who t g v s
  | .geyserTargetWrite who t g hi => Sys2Proof.Machine.execGeyserTargetWrite who t g hi s
  | .laneCtlWrite t l v => Sys2Proof.Machine.execLaneCtlWrite t l v s
  | .laneCntClr t l => Sys2Proof.Machine.execLaneCntClr t l s
  | .laneAlignWrite t l v => Sys2Proof.Machine.execLaneAlignWrite t l v s
  | .laneBlockReceive t l hdr payload => Sys2Proof.Machine.execLaneBlockReceive t l hdr payload s
  | .laneLock t l => Sys2Proof.Machine.execLaneLock t l s
  | .laneLockLost t l => Sys2Proof.Machine.execLaneLockLost t l s
  | .lanePllUnlock t l => Sys2Proof.Machine.execLanePllUnlock t l s
  | .lanePllRelock t l => Sys2Proof.Machine.execLanePllRelock t l s
  | .laneIdleEntry t l => Sys2Proof.Machine.execLaneIdleEntry t l s
  | .laneIdleExit t l wakes => Sys2Proof.Machine.execLaneIdleExit t l wakes s
  | .laneWakeHuntTimeout t l => Sys2Proof.Machine.execLaneWakeHuntTimeout t l s
  | .eyeScanStart t l v => Sys2Proof.Machine.execEyeScanStart t l v s
  | .eyeScanStop t l v => Sys2Proof.Machine.execEyeScanStop t l v s
  | .eyeScanDone t l errs => Sys2Proof.Machine.execEyeScanDone t l errs s
  | .prbsCheckError t l correct => Sys2Proof.Machine.execPrbsCheckError t l correct s
  | .aditEnable t p => Sys2Proof.Machine.execAditEnable t p s
  | .aditDisable t p => Sys2Proof.Machine.execAditDisable t p s
  | .aditFrameStart t p srcId fcnt lags => Sys2Proof.Machine.execAditFrameStart t p srcId fcnt lags s
  | .aditLineStart t p k line glane flags => Sys2Proof.Machine.execAditLineStart t p k line glane flags s
  | .aditEmbeddedStart t p k eline glane => Sys2Proof.Machine.execAditEmbeddedStart t p k eline glane s
  | .aditDataBlock t p k payload => Sys2Proof.Machine.execAditDataBlock t p k payload s
  | .aditLineEnd t p k count crc => Sys2Proof.Machine.execAditLineEnd t p k count crc s
  | .aditLineClose t p => Sys2Proof.Machine.execAditLineClose t p s
  | .aditLineCloseTimeout t p => Sys2Proof.Machine.execAditLineCloseTimeout t p s
  | .aditFrameEnd t p lines sstat => Sys2Proof.Machine.execAditFrameEnd t p lines sstat s
  | .aditFrameLate t p => Sys2Proof.Machine.execAditFrameLate t p s
  | .aditFstatRead who t p => Sys2Proof.Machine.execAditFstatRead who t p s
  | .sgFrameStartRecord t p => Sys2Proof.Machine.execSgFrameStartRecord t p s
  | .sgLineReport t p => Sys2Proof.Machine.execSgLineReport t p s
  | .sgFrameStatus t p => Sys2Proof.Machine.execSgFrameStatus t p s
  | .sgRawReceive t p => Sys2Proof.Machine.execSgRawReceive t p s
  | .lineStoreDispatch t => Sys2Proof.Machine.execLineStoreDispatch t s
  | .spiStart t p v => Sys2Proof.Machine.execSpiStart t p v s
  | .spiDone t p rx => Sys2Proof.Machine.execSpiDone t p rx s
  | .i2cStart t p v => Sys2Proof.Machine.execI2cStart t p v s
  | .i2cDone t p nack sent rx => Sys2Proof.Machine.execI2cDone t p nack sent rx s
  | .i2cTimeout t p => Sys2Proof.Machine.execI2cTimeout t p s
  | .rawcRow t k => Sys2Proof.Machine.execRawcRow t k s
  | .haloReceive t point n side => Sys2Proof.Machine.execHaloReceive t point n side s
  | .obSumsReceive t k => Sys2Proof.Machine.execObSumsReceive t k s
  | .statsPartialReceive k => Sys2Proof.Machine.execStatsPartialReceive k s
  | .rawcTableWrite t off v => Sys2Proof.Machine.execRawcTableWrite t off v s
  | .rawcRecordRead who t k => Sys2Proof.Machine.execRawcRecordRead who t k s
  | .devRow t n => Sys2Proof.Machine.execDevRow t n s
  | .devTableWrite t off v => Sys2Proof.Machine.execDevTableWrite t off v s
  | .devRecordRead who t n => Sys2Proof.Machine.execDevRecordRead who t n s
  | .outRow t c => Sys2Proof.Machine.execOutRow t c s
  | .asmRangeReceive t c => Sys2Proof.Machine.execAsmRangeReceive t c s
  | .asmTimeout t c => Sys2Proof.Machine.execAsmTimeout t c s
  | .sdiSlotOpen t c => Sys2Proof.Machine.execSdiSlotOpen t c s
  | .sdiRasterFrameStart t c => Sys2Proof.Machine.execSdiRasterFrameStart t c s
  | .coefTableWrite t off v => Sys2Proof.Machine.execCoefTableWrite t off v s
  | .outRecordRead who t c => Sys2Proof.Machine.execOutRecordRead who t c s
  | .crushRowIn t k => Sys2Proof.Machine.execCrushRowIn t k s
  | .crushSlabStart t k => Sys2Proof.Machine.execCrushSlabStart t k s
  | .crushSlabDone t k n => Sys2Proof.Machine.execCrushSlabDone t k n s
  | .crushSlabPlace t k => Sys2Proof.Machine.execCrushSlabPlace t k s
  | .crushAppend t k => Sys2Proof.Machine.execCrushAppend t k s
  | .crushResume t k => Sys2Proof.Machine.execCrushResume t k s
  | .crushCancel t k => Sys2Proof.Machine.execCrushCancel t k s
  | .crushJobStart t j => Sys2Proof.Machine.execCrushJobStart t j s
  | .crushJobSuspend t j => Sys2Proof.Machine.execCrushJobSuspend t j s
  | .crushJobResume t j => Sys2Proof.Machine.execCrushJobResume t j s
  | .crushJobCancel t j => Sys2Proof.Machine.execCrushJobCancel t j s
  | .crushDecodeSlab t j => Sys2Proof.Machine.execCrushDecodeSlab t j s
  | .recChunk t k => Sys2Proof.Machine.execRecChunk t k s
  | .extentFlushTimeout t k => Sys2Proof.Machine.execExtentFlushTimeout t k s
  | .magResponse t tag => Sys2Proof.Machine.execMagResponse t tag s
  | .burstFrameWrite t => Sys2Proof.Machine.execBurstFrameWrite t s
  | .burstTrigger pin rising => Sys2Proof.Machine.execBurstTrigger pin rising s
  | .bsTrigger => Sys2Proof.Machine.execBsTrigger s
  | .burstTriggerNotice t => Sys2Proof.Machine.execBurstTriggerNotice t s
  | .bsRelease t => Sys2Proof.Machine.execBsRelease t s
  | .hevceInputRow t c => Sys2Proof.Machine.execHevceInputRow t c s
  | .hevceCtu t c regular bypass terminating motion size => Sys2Proof.Machine.execHevceCtu t c regular bypass terminating motion size s
  | .hevceCtuFinished t c size => Sys2Proof.Machine.execHevceCtuFinished t c size s
  | .hevceSumpDrain t c => Sys2Proof.Machine.execHevceSumpDrain t c s
  | .hevceMarginReceive t c => Sys2Proof.Machine.execHevceMarginReceive t c s
  | .hevceAuWrite t c au => Sys2Proof.Machine.execHevceAuWrite t c au s
  | .hevceForceIrap t c => Sys2Proof.Machine.execHevceForceIrap t c s
  | .hevceStart t c => Sys2Proof.Machine.execHevceStart t c s
  | .hevceSuspend t c => Sys2Proof.Machine.execHevceSuspend t c s
  | .hevceResume t c => Sys2Proof.Machine.execHevceResume t c s
  | .hevceCancel t c => Sys2Proof.Machine.execHevceCancel t c s
  | .hevceRecordRead who t c => Sys2Proof.Machine.execHevceRecordRead who t c s
  | .hevcdStart t c => Sys2Proof.Machine.execHevcdStart t c s
  | .hevcdRestart t c => Sys2Proof.Machine.execHevcdRestart t c s
  | .hevcdSuspend t c => Sys2Proof.Machine.execHevcdSuspend t c s
  | .hevcdResume t c => Sys2Proof.Machine.execHevcdResume t c s
  | .hevcdCancel t c => Sys2Proof.Machine.execHevcdCancel t c s
  | .hevcdFinal t c => Sys2Proof.Machine.execHevcdFinal t c s
  | .hevcdInEndWrite t c hi => Sys2Proof.Machine.execHevcdInEndWrite t c hi s
  | .hevcdOutAckWrite t c ack => Sys2Proof.Machine.execHevcdOutAckWrite t c ack s
  | .hevcdPictureDecode t c pic => Sys2Proof.Machine.execHevcdPictureDecode t c pic s
  | .hevcdPictureOutput t c => Sys2Proof.Machine.execHevcdPictureOutput t c s
  | .hevcdErrRead who t c => Sys2Proof.Machine.execHevcdErrRead who t c s
  | .lplTrainReceive t l k widths role version seen => Sys2Proof.Machine.execLplTrainReceive t l k widths role version seen s
  | .lplAlignReceive t l k width lag => Sys2Proof.Machine.execLplAlignReceive t l k width lag s
  | .lplPacketReceive t l seq words crc clean data => Sys2Proof.Machine.execLplPacketReceive t l seq words crc clean data s
  | .lplAckReceive t l seq => Sys2Proof.Machine.execLplAckReceive t l seq s
  | .lplNakReceive t l seq => Sys2Proof.Machine.execLplNakReceive t l seq s
  | .lplReplayTimeout t l => Sys2Proof.Machine.execLplReplayTimeout t l s
  | .lplCreditReceive t l h d => Sys2Proof.Machine.execLplCreditReceive t l h d s
  | .lplCreditSend t l => Sys2Proof.Machine.execLplCreditSend t l s
  | .plRetrainWrite t l => Sys2Proof.Machine.execPlRetrainWrite t l s
  | .lplRetrainTimeout t l => Sys2Proof.Machine.execLplRetrainTimeout t l s
  | .plResetWrite t l => Sys2Proof.Machine.execPlResetWrite t l s
  | .lplLrstReceive t l => Sys2Proof.Machine.execLplLrstReceive t l s
  | .linkIdleEntry t l => Sys2Proof.Machine.execLinkIdleEntry t l s
  | .linkWake t l => Sys2Proof.Machine.execLinkWake t l s
  | .command mr4 => Sys2Proof.Machine.execCommand mr4 s
  | .xferReady t => Sys2Proof.Machine.execXferReady t s
  | .data => Sys2Proof.Machine.execData s
  | .response t => Sys2Proof.Machine.execResponse t s
  | .asyncEvent t => Sys2Proof.Machine.execAsyncEvent t s
  | .magCommandTimeout t tag => Sys2Proof.Machine.execMagCommandTimeout t tag s
  | .magAbortTimeout t => Sys2Proof.Machine.execMagAbortTimeout t s
  | .read tag => Sys2Proof.Machine.execRead tag s
  | .write tag => Sys2Proof.Machine.execWrite tag s
  | .flush tag => Sys2Proof.Machine.execFlush tag s
  | .verify tag => Sys2Proof.Machine.execVerify tag s
  | .identify tag => Sys2Proof.Machine.execIdentify tag s
  | .getLog tag => Sys2Proof.Machine.execGetLog tag s
  | .setFeature tag flashOk => Sys2Proof.Machine.execSetFeature tag flashOk s
  | .getFeature tag => Sys2Proof.Machine.execGetFeature tag s
  | .powerStateEntry => Sys2Proof.Machine.execPowerStateEntry s
  | .fwDownload tag => Sys2Proof.Machine.execFwDownload tag s
  | .fwCommit tag flashOk => Sys2Proof.Machine.execFwCommit tag flashOk s
  | .fwActivation ends => Sys2Proof.Machine.execFwActivation ends s
  | .activationTimeout => Sys2Proof.Machine.execActivationTimeout s
  | .attest tag => Sys2Proof.Machine.execAttest tag s
  | .debugUnlock tag => Sys2Proof.Machine.execDebugUnlock tag s
  | .loadProgram tag => Sys2Proof.Machine.execLoadProgram tag s
  | .crewStart tag => Sys2Proof.Machine.execCrewStart tag s
  | .crewStop tag => Sys2Proof.Machine.execCrewStop tag s
  | .txn tag => Sys2Proof.Machine.execTxn tag s
  | .abort tag => Sys2Proof.Machine.execAbort tag s
  | .suspend tag => Sys2Proof.Machine.execSuspend tag s
  | .resume tag => Sys2Proof.Machine.execResume tag s
  | .cancel tag => Sys2Proof.Machine.execCancel tag s
  | .unitAbort tag => Sys2Proof.Machine.execUnitAbort tag s
  | .scrubPass tag => Sys2Proof.Machine.execScrubPass tag s
  | .transcode tag => Sys2Proof.Machine.execTranscode tag s
  | .selfTest tag last fail => Sys2Proof.Machine.execSelfTest tag last fail s
  | .uabortReqWrite t who mask => Sys2Proof.Machine.execUabortReqWrite t who mask s
  | .unitAbortDone t => Sys2Proof.Machine.execUnitAbortDone t s
  | .mcRequest t p a wr rt mask data d stream => Sys2Proof.Machine.execMcRequest t p a wr rt mask data d stream s
  | .mcReadDecode t a port => Sys2Proof.Machine.execMcReadDecode t a port s
  | .mcRefreshDue t c r => Sys2Proof.Machine.execMcRefreshDue t c r s
  | .mcMr4Poll t c m derate hot => Sys2Proof.Machine.execMcMr4Poll t c m derate hot s
  | .mcPageIdle t c bank => Sys2Proof.Machine.execMcPageIdle t c bank s
  | .mcMitWindowEnd t c => Sys2Proof.Machine.execMcMitWindowEnd t c s
  | .mcThrottleWindowEnd t => Sys2Proof.Machine.execMcThrottleWindowEnd t s
  | .mcChannelEnWrite t c en => Sys2Proof.Machine.execMcChannelEnWrite t c en s
  | .mcFailWrite t c => Sys2Proof.Machine.execMcFailWrite t c s
  | .mrcmdStart t c v => Sys2Proof.Machine.execMrcmdStart t c v s
  | .trainStart t c v => Sys2Proof.Machine.execTrainStart t c v s
  | .selfRefreshExit t c m derate hot => Sys2Proof.Machine.execSelfRefreshExit t c m derate hot s
  | .scrubRead t c => Sys2Proof.Machine.execScrubRead t c s
  | .logClr t => Sys2Proof.Machine.execLogClr t s
  | .injArm t v => Sys2Proof.Machine.execInjArm t v s
  | .sramInjArm t v => Sys2Proof.Machine.execSramInjArm t v s
  | .sramParityError t k a b c => Sys2Proof.Machine.execSramParityError t k a b c s
  | .posSample c sin cos => Sys2Proof.Machine.execPosSample c sin cos s
  | .posQuadEdge c a0 b0 a1 b1 => Sys2Proof.Machine.execPosQuadEdge c a0 b0 a1 b1 s
  | .posWireFault c pair st => Sys2Proof.Machine.execPosWireFault c pair st s
  | .posSpeedWindow c => Sys2Proof.Machine.execPosSpeedWindow c s
  | .posStopped c => Sys2Proof.Machine.execPosStopped c s
  | .posIndex c active ago => Sys2Proof.Machine.execPosIndex c active ago s
  | .cmpArm c k => Sys2Proof.Machine.execCmpArm c k s
  | .cmpDisarm c k => Sys2Proof.Machine.execCmpDisarm c k s
  | .cmpTargetWrite c k lo hi => Sys2Proof.Machine.execCmpTargetWrite c k lo hi s
  | .cmpCaptureRead who c k => Sys2Proof.Machine.execCmpCaptureRead who c k s
  | .posWrite c lo hi => Sys2Proof.Machine.execPosWrite c lo hi s
  | .lensTrigger k => Sys2Proof.Machine.execLensTrigger k s
  | .lensRecord k => Sys2Proof.Machine.execLensRecord k s
  | .audioRun => Sys2Proof.Machine.execAudioRun s
  | .audioBlock samples => Sys2Proof.Machine.execAudioBlock samples s
  | .audMaskWrite mask => Sys2Proof.Machine.execAudMaskWrite mask s
  | .audioZcTimeout ch => Sys2Proof.Machine.execAudioZcTimeout ch s
  | .audioStop => Sys2Proof.Machine.execAudioStop s
  | .thermSample t temps => Sys2Proof.Machine.execThermSample t temps s
  | .powerEstimate t mw => Sys2Proof.Machine.execPowerEstimate t mw s
  | .plimTick => Sys2Proof.Machine.execPlimTick s
  | .pmbusPoll results => Sys2Proof.Machine.execPmbusPoll results s
  | .arbiterPass => Sys2Proof.Machine.execArbiterPass s
  | .thermShutdown => Sys2Proof.Machine.execThermShutdown s
  | .thermShdnArm => Sys2Proof.Machine.execThermShdnArm s
  | .thermShdnFire => Sys2Proof.Machine.execThermShdnFire s
  | .eventOccurrence t id => Sys2Proof.Machine.execEventOccurrence t id s
  | .spoilHoldExpire t id => Sys2Proof.Machine.execSpoilHoldExpire t id s
  | .remoteOccurrence t u id => Sys2Proof.Machine.execRemoteOccurrence t u id s
  | .evtInjWrite t g mask => Sys2Proof.Machine.execEvtInjWrite t g mask s
  | .evtStatClear t g mask => Sys2Proof.Machine.execEvtStatClear t g mask s
  | .evtCntClr t id => Sys2Proof.Machine.execEvtCntClr t id s
  | .spoilRootClear t => Sys2Proof.Machine.execSpoilRootClear t s
  | .spoilRootRead who t => Sys2Proof.Machine.execSpoilRootRead who t s
  | .tileHeartbeatLost t => Sys2Proof.Machine.execTileHeartbeatLost t s
  | .tileSelfIsolate t => Sys2Proof.Machine.execTileSelfIsolate t s
  | .isoIsolateWrite mask => Sys2Proof.Machine.execIsoIsolateWrite mask s
  | .tileReadmit t ok mr4 => Sys2Proof.Machine.execTileReadmit t ok mr4 s
  | .extest t => Sys2Proof.Machine.execExtest t s
  | .idcode t => Sys2Proof.Machine.execIdcode t s
  | .samplePreload t => Sys2Proof.Machine.execSamplePreload t s
  | .clamp t => Sys2Proof.Machine.execClamp t s
  | .highz t => Sys2Proof.Machine.execHighz t s
  | .extestPulse t => Sys2Proof.Machine.execExtestPulse t s
  | .extestTrain t => Sys2Proof.Machine.execExtestTrain t s
  | .bypass t => Sys2Proof.Machine.execBypass t s
  | .plLinkEnable t l en => Sys2Proof.Machine.execPlLinkEnable t l en s
  | .mcTrainDone t c errs => Sys2Proof.Machine.execMcTrainDone t c errs s
  | .mrcmdDone t c data => Sys2Proof.Machine.execMrcmdDone t c data s
  | .timeRttDone t ticks => Sys2Proof.Machine.execTimeRttDone t ticks s
  | .seamPortUp t p => Sys2Proof.Machine.execSeamPortUp t p s
  | .timeTick => Sys2Proof.Machine.execTimeTick s
  | .jtagTapReset => Sys2Proof.Machine.execJtagTapReset s

end Sys2Proof.Machine
end

