-- ==== Sys2Proof/Safety.lean ====
section
/-!
DEFINITION. The terms that claims about the package are made in: what a command's effect leads to, what it leaves alone, and the
invariant that every step keeps.
-/

namespace Sys2Proof.Machine

/-- The invariant of the package: memory is in its canonical form and no store of a past command is still on its way to it. -/
def State.Inv (s : State) : Prop := memWf s.dram = true ∧ s.writes = []

/-- A command answers a next state. Its own effect leads to r, which P describes; what every command ends with (`State.ended`: what
follows within the same command, then its stores reach memory) is added to r. -/
def Does (i : Instr) (s : State) (P : State → Prop) : Prop := ∃ r, exec i s = .next (s.ended r) ∧ P r

/-- Nothing waits for the end of a command: no exchange and no isolation is due, no encode context, transaction, host command or
link holds anything, and no activation window stands. -/
def State.Quiet (s : State) : Prop :=
  s.bench.exchanged = [] ∧ s.evt.isoDue = [] ∧ s.hevc.enc = [] ∧ s.bench.txns = [] ∧ s.host.cmds = [] ∧ s.host.act = 0 ∧ s.lpl = []

/-- Only registers differ. -/
def State.OnlyRegs (s r : State) : Prop := r = { s with regs := r.regs }

/-- An offset of the blocks EVT and SPOIL. -/
def eventOff (off : Nat) : Bool := decide (0x10000 ≤ off) && decide (off < 0x30000)

/-- Only registers at offsets that p allows, the event state and the PENDING words of crews differ. -/
def State.OnlyIn (p : Nat → Bool) (s r : State) : Prop :=
  r = { s with regs := r.regs, evt := r.evt, core.crews := r.core.crews } ∧
    (∀ t off, p off = false → off < 0x1000000 → r.word t off = s.word t off) ∧
    ∀ t c, r.crew t c = { s.crew t c with pending := (r.crew t c).pending }

/-- Only what an occurrence may touch differs: the registers of the blocks EVT and SPOIL, the event state, the PENDING words of
crews. -/
def State.OnlyEvents (s r : State) : Prop := s.OnlyIn eventOff r

/-- Every register word outside a list of (tile, offset) pairs is as it was. -/
def State.WordsBut (s r : State) (l : List (Nat × Nat)) : Prop :=
  ∀ t off, off < 0x1000000 → (t, off) ∉ l → r.word t off = s.word t off

/-- Every register word outside a list of (tile, offset) pairs and outside the blocks EVT and SPOIL is as it was. -/
def State.WordsButEvents (s r : State) (l : List (Nat × Nat)) : Prop :=
  ∀ t off, off < 0x1000000 → eventOff off = false → (t, off) ∉ l → r.word t off = s.word t off

/-- A read by accessor `who` of the word at an offset has answered what the word reads as, has kept what the n words after it read as
for that accessor, and changed nothing else (R8). -/
def State.Snapshots (s r : State) (who t off n : Nat) : Prop :=
  r = { s with snaps := r.snaps, answers := r.answers } ∧ smLook r.answers who = some (BitVec.ofNat 32 (s.peek t off)) ∧
    ∀ i, i < n → smLook r.snaps (snapKey who t (off + 4 * (i + 1))) = some (BitVec.ofNat 32 (s.peek t (off + 4 * (i + 1))))

/-- A read by an accessor, the host or a crew, meets a block that is up and that it may read, with no snapshot of its own at the
offset (R8, R12, R49). -/
def State.Readable (s : State) (who t isl off : Nat) : Prop :=
  who ≤ 64 ∧ s.up t isl = true ∧ s.denies who t off false = .ok ∧ smLook s.snaps (snapKey who t off) = none

/-- Crew c of tile t may issue, and the word at the front of its fetch buffer is the instruction at its PC (R47, R68). -/
def State.Issues (s : State) (t c w : Nat) : Prop :=
  s.crewReady t c = true ∧ ∃ l, (s.crew t c).fetch = ((s.crew t c).pc, w) :: l

/-- Of the crews only crew c of tile t differs, and it is x. -/
def State.CrewIs (s r : State) (t c : Nat) (x : Crew) : Prop :=
  r.crew t c = x ∧ ∀ u d, d < 8 → ¬(u = t ∧ d = c) → r.crew u d = s.crew u d

/-- Only crew c of tile t differs, and it is x. -/
def State.OnlyCrew (s r : State) (t c : Nat) (x : Crew) : Prop :=
  r = { s with core.crews := r.core.crews } ∧ s.CrewIs r t c x

/-- A crew that completes an instruction at a tick and goes on at pc (R47, R95). -/
def Crew.completed (x : Crew) (now pc : Nat) : Crew :=
  { x with pc := pc % 2 ^ 64, instret := (x.instret + 1) % 2 ^ 64, lastIssue := now }

/-- A crew that takes an exception at a tick (R91). -/
def Crew.excepted (x : Crew) (now cause code eval epc : Nat) : Crew :=
  { x with
    state := 1, epc := epc, cause := cause, code := code, eval := eval, inexc := true, pc := x.evec, wait := none, fetch := []
    lastIssue := now }

/-- The value of a general register (R62). -/
def Crew.val (x : Crew) (i : Nat) : BitVec 64 := if i = 0 then 0 else smGet x.g i 0

/-- Of the whole state only what the controller keeps of channel c of tile t differs, and that is x. -/
def State.OnlyChan (s r : State) (t c : Nat) (x : McChan) : Prop :=
  r = { s with mem.chans := r.mem.chans } ∧ r.mcChan t c = x ∧ ∀ u d, d < 8 → ¬(u = t ∧ d = c) → r.mcChan u d = s.mcChan u d

/-- A message from one tile reaches another along the routes in force (R14, R15). -/
def State.Routed (s : State) (a b : Nat) : Prop := s.seamWalk 8 a b = none

/-- The n bytes from a DRAM address of tile t on lie in one window of the address map (R64). -/
def oneWindow (t a n : Nat) : Prop := ∀ i, i < n → dramAt t (a + i) = ((dramAt t a).1, (dramAt t a).2 + i)

/-- Every DRAM byte outside the n bytes at a DRAM address of tile t is stored as it was. -/
def State.BytesBut (s r : State) (t a n : Nat) : Prop :=
  let x := dramAt t a
  ∀ u b, b < 2 ^ 36 → ¬(u = x.1 ∧ x.2 ≤ b ∧ b < x.2 + n) → r.dbyte u b = s.dbyte u b

/-- Every DRAM byte outside the runs of a list, each a DRAM address of tile t with a length, is stored as it was. -/
def State.BytesButRuns (s r : State) (t : Nat) (l : List (Nat × Nat)) : Prop :=
  ∀ u b, b < 2 ^ 36 → (∀ q ∈ l, ¬(u = (dramAt t q.1).1 ∧ (dramAt t q.1).2 ≤ b ∧ b < (dramAt t q.1).2 + q.2)) → r.dbyte u b = s.dbyte u b

/-- No word of DRAM holds an error, no write waits in a queue, no injector is armed: a write of part of a word leaves its other bytes
as they are (R401, R414, R425). -/
def State.CleanMem (s : State) : Prop :=
  (∀ u a, s.eccErr u a = 0) ∧ (∀ u c, (s.mcChan u c).wq = []) ∧ ∀ u, s.on u INJ_CTL_ARMED = false

/-- What the part has handed to the host link and the far end has not yet acknowledged (R335, R337). -/
def State.hostPkts (s : State) : List Pkt := (s.link 0 0).replay.map (·.2) ++ (s.link 0 0).txq

/-- A command of the host has its RESPONSE and is gone from the queue (R337, R338). -/
def State.Answered (r : State) (tag status xfer : Nat) (info : List Nat) : Prop :=
  r.hostCmd tag = none ∧ ({ ty := 4, tag := tag, body := respBody status xfer info } : Pkt) ∈ r.hostPkts

/-- Data of a command has been handed to the link in packets of up to 4,096 bytes (R344). -/
def State.Sent (r : State) (tag o : Nat) (data : List Nat) (poison : Option Nat) : Prop :=
  ∀ p ∈ dataPkts tag poison (data.length / 4096 + 1) o data, p ∈ r.hostPkts

/-- The host's command of a tag is c, of the row's opcode, free to run, with no SUSPEND or CANCEL waiting for it (R340, R341). -/
def State.Ready (s : State) (tag op : Nat) (c : HostCmd) : Prop :=
  s.holds = false ∧ s.firmware = true ∧ (s.host.cmds.find? fun c => c.tag = tag && c.op = op) = some c ∧
    (c.started = true ∨ s.mayStart c = true) ∧ c.stop = none

/-- As `Ready`, for a command that the arbiter has nothing to say about, or has admitted (R464). -/
def State.Runs (s : State) (tag op : Nat) (c : HostCmd) : Prop := s.Ready tag op c ∧ s.jobRuns c = true

/-- A long operation at work: the arbiter has admitted it (R384, R464). -/
def State.RunsLong (s : State) (tag op : Nat) (c : HostCmd) : Prop :=
  s.Ready tag op c ∧ ∃ k j, c.jobKind = some k ∧ s.arbFind k 0 tag = some j ∧ j.st = 1

/-- The state in which a command acts: it counts as started. -/
def State.begun (s : State) (c : HostCmd) : State := s.setCmd { c with started := true }

/-- Only what a RESPONSE with its data touches differs: the host link and its lanes, the queue and their registers, reads from magazines that served
the command. -/
def State.OnlyReply (s r : State) : Prop :=
  r = { s with regs := r.regs, lpl := r.lpl, pins := r.pins, host := r.host, mags := r.mags, evt.asyncQ := r.evt.asyncQ } ∧
    s.WordsBut r ([(0, PL_QUEUE 0), (0, PL_SEQ 0), (0, PL_CRED_TX 0)] ++ s.tileList.map fun t => (t, PL_QUEUE 1))

end Sys2Proof.Machine
end

