-- ==== Sys2Proof/Certificates/Slice0/Obligations.lean ====
section
/-!
DEFINITION. The statements about the package that the provers are to settle.
-/

open Sys2Proof Sys2Proof.Machine

/-- A step takes the command at the front of the queue; on an empty queue it idles (DESIGN CHOICE, log 2). -/
def Obligations.StepRunsFrontCommand : Prop :=
  (∀ (s : State) (c : Instr) (rest : List Instr), s.pending = c :: rest → step s = exec c { s with pending := rest }) ∧
  (∀ s : State, s.pending = [] → step s = .next s)

/-- The reset state meets the invariant. -/
def Obligations.ResetMeetsInvariant : Prop :=
  State.reset.Inv ∧ State.reset.dram = [] ∧ State.reset.pending = [] ∧ State.reset.now = 0 ∧
    (∀ t n, State.reset.chan t n = { sec := 0, ns := 0, frac := 0, inc := nominalInc }) ∧
    State.reset.f 0 TILE_STATE_STATE = 0 ∧ State.reset.holds = false

/-- Every step keeps the invariant, the member and the grade, and takes exactly the front command off the queue. -/
def Obligations.EveryStepKeepsInvariant : Prop :=
  ∀ s s' : State, s.Inv → step s = .next s' →
    s'.Inv ∧ s'.member = s.member ∧ s'.grade = s.grade ∧ s'.pending = s.pending.tail

/-- No command is refused, and only a POR_N low of the width that R508 leaves undefined stops. -/
def Obligations.OnlyUndefinedPorWidthStops : Prop :=
  (∀ (i : Instr) (s : State), (∀ w, i = .porNAssert w → w < 1000 ∨ 10000 ≤ w) → ∃ t, exec i s = .next t) ∧
  (∀ (w : Nat) (s : State), 1000 ≤ w → w < 10000 → exec (.porNAssert w) s = .fault .porWidthUndefined)

/-- What the end of a command adds: its stores reach memory, newest first to be read; where nothing waits, nothing else changes. -/
def Obligations.CommandEndStoresAndNothingElse : Prop :=
  (∀ (s r : State) (k : Nat), smGet (s.ended r).dram k 0 = (smLook r.settle.writes k).getD (smGet s.dram k 0)) ∧
  (∀ s r : State, r.Quiet →
    s.ended r = { r with dram := memCommit s.dram r.writes, writes := [], pending := s.pending, member := s.member, grade := s.grade })

/-- POR_N_ASSERT (R508). -/
def Obligations.PorResetKeepsOtpAndMram : Prop :=
  (∀ (w : Nat) (s : State), 10000 ≤ w → Does (.porNAssert w) s fun r =>
    r.boot.porLow = true ∧ r.pwr = { mram := s.pwr.mram } ∧ r.boot.flash = s.boot.flash ∧ r.boot.jtag = s.boot.jtag ∧
    (∀ t off, off < 0x1000000 → (t ≠ 0 ∨ otpReg off = false) → r.word t off = BitVec.ofNat 32 (resetReg s.member s.grade t off)) ∧
    (∀ off, off < 0x1000000 → otpReg off = true → r.word 0 off = s.word 0 off) ∧
    r.mem = {} ∧ r.host = {} ∧ r.store = {} ∧ r.lpl = [] ∧ r.mags = [] ∧ r.lanes = [] ∧ r.now = 0 ∧ r.seam = {} ∧ r.bench = {} ∧ r.core = {} ∧
    r.time = {} ∧ r.adit = {} ∧ r.pix = {} ∧ r.hevc = {} ∧ r.pos = {} ∧ r.audio = {} ∧ r.evt = {} ∧ r.snaps = [] ∧ r.held = [] ∧ r.pins = {} ∧ r.answers = [] ∧
    (∀ k, (smLook s.dram k).isSome → smLook r.writes k = some 0)) ∧
  (∀ (w : Nat) (s : State), w < 1000 → Does (.porNAssert w) s fun r => r = s) ∧
  (∀ (w : Nat) (s : State), 1000 ≤ w → w < 10000 → exec (.porNAssert w) s = .fault .porWidthUndefined)

/-- Steps 1 to 5 of start-up. -/
def Obligations.StartupFirstStepsComplete : Prop :=
  (∀ (b : Nat) (s : State), s.boot.porLow = true → Does (.porNRelease b) s fun r =>
    r.boot.porLow = false ∧ r.f 0 BOOT_STAT_BOOTSEL = b % 4 ∧ r.WordsBut s [(0, BOOT_STAT)]) ∧
  (∀ s : State, s.boot.porLow = false → Does .railOutOfRange s fun r => r = { s with boot.railBad := true }) ∧
  (∀ s : State, s.holds = false → s.boot.romRunning = false → s.f 0 BOOT_STAT_BOOTSEL = 1 →
    Does (.bootRomStart none) s fun r => r.boot.romRunning = true ∧ r.boot.hostSel = true ∧ r.boot.flash = s.boot.flash) ∧
  (∀ s : State, s.holds = false → s.f 0 BOOT_STAT_STEP = 3 → s.boot.imgOk = true → s.boot.runTag = none →
    Does .firmwareStart s fun r => r.f 0 BOOT_STAT_STEP = 4 ∧ r.run 0 = true ∧ r.reg 0 BOOT_FWVER = imgF s.boot.img 8 4 % 2 ^ 32 ∧
      (r.crew 0 0).state = 1 ∧ (r.crew 0 0).pc = imgF s.boot.img 0x18 4 ∧ r.host.v15 = []) ∧
  (∀ (l : List (Bool × Nat × Nat)) (s : State), s.holds = false → s.f 0 BOOT_STAT_STEP = 4 →
    Does (.startupTiles false l) s fun r => r.boot.stuck = true ∧ r.f 0 BOOT_STAT_STEP = 5 ∧ r.evtStat 0 16 = true) ∧
  (∀ (l : List (Bool × Nat × Nat)) (s : State), s.holds = false → s.f 0 BOOT_STAT_STEP = 4 →
    (∀ x ∈ l, x.1 = true ∧ x.2.1 < 3) → Does (.startupTiles true l) s fun r =>
      ∀ t, 0 < t → t < s.tiles → r.f t TILE_STATE_STATE = 1 ∧ (r.crew t 0).pc = imgF s.boot.img 0x18 4)

/-- Steps 6 to 8 of start-up. -/
def Obligations.StartupLastStepsComplete : Prop :=
  (∀ (b : Bool) (s : State), s.holds = false → s.f 0 BOOT_STAT_STEP = 5 → s.boot.stuck = false → (∀ t c, (s.mcChan t c).waits = []) →
    Does (.startupDram b []) s fun r => r.boot.boardOk = b ∧ r.host.v15 = [] ∧
      ∀ t c, s.run t = true → c < 8 → r.on t (SCRUB_CTL_EN c) = true) ∧
  (∀ s : State, s.holds = false → s.f 0 BOOT_STAT_STEP = 6 → Does (.startupLanes [] []) s fun r =>
    r.f 0 BOOT_STAT_STEP = 7 ∧ ∀ t, 0 < t → s.run t = true → bit (r.f t ISL_PWR_ON) 6 = true ∧ r.island t 6 = true) ∧
  (∀ s : State, s.holds = false → s.f 0 BOOT_STAT_STEP = 7 → Does .startupReady s fun r =>
    r.f 0 BOOT_STAT_STEP = 8 ∧ r.evtStat 0 12 = true ∧ ∀ t, s.run t = true → r.f t ISL_PWR_ON = 255 ∧ r.f t ISL_STAT_PGOOD = 255)

/-- An occurrence of a source, detected or injected (R474, R479). -/
def Obligations.OccurrenceSetsStatusAndCounts : Prop :=
  (∀ (t id : Nat) (s : State), s.up t 0 = true → id < 320 → Does (.eventOccurrence t id) s fun r =>
    s.OnlyEvents r ∧ r.evtStat t id = true ∧ (∀ u k, k < 320 → s.evtStat u k = true → r.evtStat u k = true) ∧
    (id ≠ 309 → r.f t (EVT_CNT_COUNT id) = min 255 (s.f t (EVT_CNT_COUNT id) + 1) ∧ r.on t (EVT_CNT_INJECTED id) = false)) ∧
  (∀ (t g b : Nat) (s : State), s.up t 0 = true → g < 10 → b < 32 → Does (.evtInjWrite t g (2 ^ b)) s fun r =>
    s.OnlyEvents r ∧ r.evtStat t (32 * g + b) = true ∧ r.evt.isoDue = s.evt.isoDue ∧
    (32 * g + b ≠ 309 → r.f t (EVT_CNT_COUNT (32 * g + b)) = min 255 (s.f t (EVT_CNT_COUNT (32 * g + b)) + 1) ∧
      r.on t (EVT_CNT_INJECTED (32 * g + b)) = true))

/-- What clears and moves the state of the event fabric (R475, R480 to R482). -/
def Obligations.EventFabricCommandsComplete : Prop :=
  (∀ (t g mask : Nat) (s : State), s.up t 0 = true → g < 10 → Does (.evtStatClear t g mask) s fun r =>
    (∀ b, b < 32 → r.evtStat t (32 * g + b) = (s.evtStat t (32 * g + b) && !bit mask b)) ∧ r.WordsBut s [(t, EVT_STAT g)] ∧
    r = { s with regs := r.regs, evt.occ := r.evt.occ }) ∧
  (∀ (t id : Nat) (s : State), s.up t 0 = true → id < 320 → Does (.evtCntClr t id) s fun r =>
    r.f t (EVT_CNT_COUNT id) = 0 ∧ r.evtStat t id = s.evtStat t id ∧ r.WordsBut s [(t, EVT_CNT id)] ∧ s.OnlyRegs r) ∧
  (∀ (t : Nat) (s : State), s.up t 0 = true → Does (.spoilRootClear t) s fun r =>
    r.on t SPOIL_ROOT_VALID = false ∧ r.reg t SPOIL_DEPCNT = 0 ∧ r.reg t SPOIL_ROOTS = 0 ∧ smGet r.evt.latched t 0 = 0 ∧
    r.WordsBut s [(t, SPOIL_ROOT), (t, SPOIL_ROOT_T_LO), (t, SPOIL_ROOT_T_HI), (t, SPOIL_DEPCNT), (t, SPOIL_ROOTS)]) ∧
  (∀ (t id : Nat) (h : HeldOcc) (s : State), s.live t 0 = true →
    s.evt.heldOccs.find? (fun h => h.tile = t ∧ h.id = id) = some h → h.expiry ≤ s.now → Does (.spoilHoldExpire t id) s fun r =>
      s.OnlyEvents r ∧ ∀ h ∈ r.evt.heldOccs, ¬(h.tile = t ∧ h.id = id)) ∧
  (∀ (t u id l : Nat) (s : State), s.live t 0 = true → s.has u = true → t ≠ u → (s.occ u id).last = some l →
    Does (.remoteOccurrence t u id) s fun r => s.OnlyEvents r ∧ smGet r.evt.remote (rkey t u id) 0 = l + 1)

/-- Islands are switched as written, but for CTL of T0 (R11). -/
def Obligations.IslandWriteNeverClearsT0Ctl : Prop :=
  ∀ (t v : Nat) (s : State), s.up t 0 = true → Does (.islPwrWrite t v) s fun r =>
    r.f t ISL_PWR_ON = (if t = 0 then v ||| 1 else v) % 256 ∧ r.f t ISL_STAT_PGOOD = r.f t ISL_PWR_ON ∧
    (t = 0 → bit (r.f 0 ISL_PWR_ON) 0 = true)

/-- Seam packets and ports (R13, R14, R17, R83). -/
def Obligations.SeamCommandsComplete : Prop :=
  (∀ (t p : Nat) (ok : Bool) (s : State), s.live t 7 = true → s.seamTurn t = some p → Does (.seamPacketReceive t true ok) s fun r =>
    ∃ m, s.seamNext t p = some m ∧ r = s.seamArrive t m ∧ (∀ m' ∈ s.waitsAt t p, m.cls ≤ m'.cls) ∧
      (s.waitsAt t p ≠ [] → m ∈ s.waitsAt t p)) ∧
  (∀ (t line p : Nat) (ok : Bool) (l : List SeamPkt) (s : State), s.live t 7 = true →
    s.seam.flight = { hop := t, port := p, dst := t, body := .fire line } :: l → s.waitsAt t p = [] → smGet s.core.ctlBusy t false = false →
    Does (.seamPacketReceive t true ok) s fun r => r.seam.flight = l ∧
      r = { s with seam.flight := l, core.crews := r.core.crews } ∧ ∀ c, c < 8 → bit (r.crew t c).pending line = true) ∧
  (∀ (t p : Nat) (s : State), s.live t 7 = true → p < 4 → s.portUp t p = false → Does (.seamPortRestart t p) s fun r =>
    smGet r.seam.retraining (tk t p) false = true ∧ r = { s with seam.retraining := r.seam.retraining }) ∧
  (∀ (t p : Nat) (s : State), s.live t 7 = true → p < 4 → s.portUp t p = false → smGet s.seam.retraining (tk t p) false = true →
    s.island (seamPartner s.member t p).1 7 = true → Does (.seamPortUp t p) s fun r =>
      r.portUp t p = true ∧ r.portUp (seamPartner s.member t p).1 (seamPartner s.member t p).2 = true) ∧
  (∀ (m : Member) (t p : Nat), t < m.tiles → p < 4 →
    seamPartner m (seamPartner m t p).1 (seamPartner m t p).2 = (t, p) ∧ seamPartner m t 1 = ((t + 1) % m.tiles, 0))

/-- A port down, a crossing fault, unit abort (R17, R20, R485). -/
def Obligations.PortDownCrossingAbortComplete : Prop :=
  (∀ (t p : Nat) (s : State), s.live t 7 = true → p < 4 → s.portUp t p = true → Does (.seamPortDown t p) s fun r =>
    r.portUp t p = false ∧ r.portUp (seamPartner s.member t p).1 (seamPartner s.member t p).2 = false ∧
    r.on t (SEAM_PORT_STAT_DOWN p) = true ∧ (s.isolated t = false → r.evtStat t (192 + p) = true)) ∧
  (∀ (t x src : Nat) (s : State), s.live t 0 = true → x < 9 → src < 4 → Does (.xingFault t x src) s fun r =>
    bit (r.f t XING_STAT_FAULT) x = true ∧ r.evtStat t 4 = true ∧ (x < 7 → r.discarding t x src = true) ∧
    (∀ f, x = 0 → (s.port t src).frame = some f → ∃ g, (r.port t src).frame = some g ∧ bit g.status stDamaged = true)) ∧
  (∀ (t u : Nat) (s : State), s.live t 0 = true → u < unitCount → Does (.uabortReqWrite t 0 (2 ^ u)) s fun r =>
    (t, 2 ^ u) ∈ r.evt.aborts) ∧
  (∀ (t mask : Nat) (l : List (Nat × Nat)) (s : State), s.live t 0 = true → s.evt.aborts = (t, mask) :: l →
    Does (.unitAbortDone t) s fun r => r.evt.aborts = l ∧ r.evtStat t 308 = true ∧
      (l = [] → r.reg t UABORT_STAT = 0))

/-- REFCLK stops, leaves its range, glitches, recovers (R123 to R125). -/
def Obligations.RefclkLossAndRecovery : Prop :=
  (∀ s : State, s.holds = false → s.time.clockLost = false → Does .refclkStop s fun r => r.time.clockLost = true ∧ r.time.xtrig = []) ∧
  (∀ s : State, s.holds = false → s.time.clockLost = false → Does .refclkRate s fun r => r.time.clockLost = true ∧ r.time.xtrig = []) ∧
  (∀ s : State, s.holds = false → s.time.clockLost = false → Does .refclkGlitch s fun r =>
    (∀ t, t < s.tiles → s.isolated t = false → r.evtStat t 10 = true ∧
      r.f t CLKSUP_GLITCHES = satAdd (2 ^ CLKSUP_GLITCHES.w - 1) (s.f t CLKSUP_GLITCHES) 1) ∧
    r = { s with regs := r.regs, evt := r.evt, core.crews := r.core.crews } ∧
    r.WordsButEvents s ((List.range 8).map fun t => (t, CLKSUP))) ∧
  (∀ (mr4 : List (Nat × Bool × Bool)) (s : State), s.holds = false → s.time.clockLost = true → s.time.goodFrom + recoveryTicks ≤ s.now →
    Does (.refclkRecovery mr4) s fun r => r.time.clockLost = false) ∧
  (∀ (mr4 : List (Nat × Bool × Bool)) (s : State), s.holds = false → s.now < s.time.goodFrom + recoveryTicks →
    Does (.refclkRecovery mr4) s fun r => r = s)

/-- A tile switches itself off, and comes back (R487, R488, R490). -/
def Obligations.SelfIsolationAndReadmission : Prop :=
  (∀ (t : Nat) (s : State), s.holds = false → t ≠ 0 → s.has t = true → s.isolated t = false → s.f t ISL_PWR_ON ≠ 0 →
    Does (.tileSelfIsolate t) s fun r => r.isolated t = true ∧ r.f t ISL_PWR_ON = 0 ∧ r.f t ISL_STAT_PGOOD = 0) ∧
  (∀ (t : Nat) (mr4 : List (Nat × Bool × Bool)) (s : State), s.live 0 0 = true → t ≠ 0 → s.has t = true → s.isolated t = true →
    Does (.tileReadmit t false mr4) s fun r => r.isolated t = true ∧ bit (r.f 0 ISO_STAT_READMIT_FAIL) t = true ∧
      bit (r.f 0 ISO_STAT_READMITTING) t = false ∧ r.evtStat 0 5 = true) ∧
  (∀ (t : Nat) (mr4 : List (Nat × Bool × Bool)) (s : State), s.live 0 0 = true → t ≠ 0 → s.has t = true → s.isolated t = true →
    Does (.tileReadmit t true mr4) s fun r => r.run t = true ∧ r.reg t EPOCH = r.reg 0 EPOCH ∧
      bit (r.f 0 ISO_STAT_ISOLATED) t = false ∧ r.evtStat 0 1 = true)

/-- T0 isolates a tile (R487 to R489). -/
def Obligations.IsolationLeadsToIsolated : Prop :=
  (∀ (t : Nat) (s : State), s.live 0 0 = true → t ≠ 0 → s.has t = true → s.isolated t = false →
    Does (.isoIsolateWrite (2 ^ t)) s fun r => r.isolated t = true) ∧
  (∀ (t : Nat) (s : State), s.up 0 0 = true → t ≠ 0 → s.has t = true → s.isolated t = false →
    Does (.tileHeartbeatLost t) s fun r => r.isolated t = true) ∧
  (∀ s : State, s.live 0 0 = true → Does (.isoIsolateWrite 1) s fun r => r = s)

/-- One tick of the time clock (R98). -/
def Obligations.TickAdvancesEveryChannel : Prop :=
  ∀ s : State, s.holds = false → s.time.clockLost = false →
    (∀ n, n < 4 → (s.steer n).incs = [] ∧ (s.steer n).step = none) →
    (∀ t n, t < s.tiles → n < 4 → (s.chan t n).ns < 1000000000 ∧ (s.chan t n).sec < 2 ^ 48 ∧
      (s.chan t n).frac < 2 ^ 32 ∧ (s.chan t n).inc < 2 ^ 36) →
    (∀ t l, t < s.tiles → l < 2 → s.f t (PL_STAT_STATE l) ≠ 4) →
    Does .timeTick s fun r =>
      (∀ t n, t < s.tiles → n < 4 →
        let c := s.chan t n
        let f := c.frac + c.inc % 2 ^ 32
        let ns := c.ns + c.inc / 2 ^ 32 + f / 2 ^ 32
        r.chan t n = if 1000000000 ≤ ns then { c with frac := f % 2 ^ 32, ns := ns - 1000000000, sec := (c.sec + 1) % 2 ^ 48 }
          else { c with frac := f % 2 ^ 32, ns := ns }) ∧
      r.time.lcTicks = (s.time.lcTicks + 1) % 2 ^ 64 ∧ r.now = s.now + 1 ∧
      r = { s with
        now := r.now, regs := r.regs, pins.pdm := r.pins.pdm
        time.chans := r.time.chans, time.steer := r.time.steer, time.lcTicks := r.time.lcTicks, time.calAcc := r.time.calAcc } ∧
      r.WordsBut s ((List.range 8).map fun t => (t, AON_CAL)) ∧
      ((s.now + 1) % 25 ≠ 0 → r.regs = s.regs ∧ r.time.calAcc = s.time.calAcc) ∧
      (s.f 0 AUD_STAT_STATE = 0 → s.pins.pdm.clk = false → r.pins.pdm = s.pins.pdm)

/-- Changes, stamps, the round trip (R101 to R103, R107). -/
def Obligations.ChangesAndStampsComplete : Prop :=
  (∀ (n d inc : Nat) (s : State), n < 4 → (s.steer n).incs = [(d, inc)] → d ≤ s.now → (s.steer n).step = none →
    Does (.timeChangeApply n) s fun r => (r.steer n).incs = [] ∧ ∀ t, t < s.tiles → r.chan t n = { s.chan t n with inc := inc }) ∧
  (∀ s : State, s.live 0 0 = true → s.now % 4096 = 0 → Does .timeStampSend s fun r =>
    ∀ t, t ≠ 0 → s.run t = true → s.seamWalk 8 0 t = none →
      smGet r.time.stamps t [] = smGet s.time.stamps t [] ++ [(s.now, (List.range 4).map fun n => s.chan 0 n)]) ∧
  (∀ (t k : Nat) (cs : List Chan) (l : List (Nat × List Chan)) (s : State), s.live t 0 = true → t ≠ 0 →
    smGet s.time.stamps t [] = (k, cs) :: l → smGet s.time.holdRaised t false = false →
    (∀ g, g < 32 → s.on t (GY_CTL_ARMED g) = false) → Does (.followerStampReceive t) s fun r =>
      smGet r.time.stamps t [] = l ∧ r.f t FOLLOW_STATE = 0 ∧
      (∀ n, n < 4 →
        let m := cs.getD n {}
        let want := m.add (m.inc * s.f t FOLLOW_ROUTE_LAT)
        let inc := (s.chan 0 n).inc
        r.chan t n = if (inc : Int) < absI ((s.chan t n).value - want.value) then { want with inc := inc }
          else { s.chan t n with inc := inc }) ∧
      ((∃ n, n < 4 ∧ ((s.chan 0 n).inc : Int) <
          absI ((s.chan t n).value - ((cs.getD n {}).add ((cs.getD n {}).inc * s.f t FOLLOW_ROUTE_LAT)).value)) →
        r.evtStat t 261 = true)) ∧
  (∀ (t k : Nat) (s : State), s.live t 0 = true → smGet s.time.rttBusy t false = true → Does (.timeRttDone t k) s fun r =>
    r.f t TIME_RTT_RTT = min 4095 k ∧ r.on t TIME_RTT_DONE = true ∧ smGet r.time.rttBusy t false = false)

/-- Captures (R110 to R112). -/
def Obligations.CapturesComplete : Prop :=
  (∀ (k : Nat) (rising : Bool) (s : State), s.live 0 0 = true → k < 5 → s.on 0 (CAP_CTL_EN k) = true → s.f 0 (CAP_CTL_EDGE k) = 2 →
    (s.cap k).queue.length < 4 → (∀ n, 0 < n → n < 4 → s.on 0 (TC_SERVO_EN n) = false) → Does (.captureEdge k rising) s fun r =>
      let c := s.chan 0 (s.f 0 (CAP_CTL_CHAN k))
      let v := c.setValue (c.value - 3 * c.inc)
      (r.cap k).queue = (s.cap k).queue ++ [(v.sec, v.ns, v.frac)] ∧ r.f 0 (CAP_STAT_LEVEL k) = (s.cap k).queue.length + 1 ∧
      r.on 0 (CAP_STAT_LOST k) = false ∧ r.time.chans = s.time.chans) ∧
  (∀ (k : Nat) (s : State), s.live 0 0 = true → k < 6 → s.on 0 (CAP_CTL_EN k) = true → s.on 0 (CAP_STAT_LOST k) = false →
    3 * s.capPeriod k ≤ 2 * (s.now - (s.cap k).last) * nominalInc → Does (.captureLost k) s fun r => r.on 0 (CAP_STAT_LOST k) = true ∧ r.evtStat 0 260 = true ∧
      ∀ n, 0 < n → n < 4 → s.f 0 (TC_SERVO_SRC n) = k + 1 → s.on 0 (TC_SERVO_EN n) = true → r.on 0 (TC_STAT_SERVO_FROZEN n) = true) ∧
  (∀ (k : Nat) (s : State), s.live 0 0 = true → k < 6 → 2 * (s.now - (s.cap k).last) * nominalInc < 3 * s.capPeriod k →
    Does (.captureLost k) s fun r => r = s)

/-- A one-shot geyser at or after its target (R117 to R120). -/
def Obligations.GeyserFiresOrIsSuppressed : Prop :=
  (∀ (t g : Nat) (s : State), s.live t 0 = true → g < 32 → s.on t (GY_CTL_ARMED g) = true → s.geyHold t = false → 0 ≤ s.geyPast t g →
    (s.geyTgt t g).last ≠ s.now + 1 → s.geyPer t g = 0 →
    ((s.lateLimit t : Int) < s.geyPast t g → s.on t (GY_CTL_LATE_MODE g) = true) → Does (.geyserFire t g) s fun r =>
      r.on t (GY_CTL_ARMED g) = false ∧
      (if (s.lateLimit t : Int) < s.geyPast t g then r.reg t (GY_COUNT g) = s.reg t (GY_COUNT g) ∧ r.evtStat t 265 = true
       else r.reg t (GY_COUNT g) = if s.reg t (GY_COUNT g) = 0xFFFFFFFF then 1 else s.reg t (GY_COUNT g) + 1))

/-- Register writes that steer time (R102, R106, R107, R109, R110). -/
def Obligations.TimeSteeringWritesComplete : Prop :=
  (∀ (t g v : Nat) (s : State), s.up t 0 = true → g < 10 → Does (.registerWrite 0 t (EVT_EN g) v) s fun r =>
    r.reg t (EVT_EN g) = v % 2 ^ 32 ∧ r.WordsBut s [(t, EVT_EN g)] ∧ s.OnlyRegs r) ∧
  (∀ (who t off v : Nat) (s : State), s.holds = false → who ≤ 64 → regAt t off = none → inTables off = false → unitAt off = none →
    Does (.registerWrite who t off v) s fun r => r = s) ∧
  (∀ (n hi : Nat) (s : State), s.up 0 0 = true → 0 < n → n < 4 → s.heldHalf 0 (TC_INC_LO n) = none →
    s.holdover n = false → s.on 0 (TC_SERVO_EN n) = false →
    let inc := hi % 16 * 2 ^ 32 + (s.steer n).acc % 2 ^ 32
    nominalInc ≤ inc + 5368709 → inc ≤ nominalInc + 5368709 → Does (.tcIncWrite 0 0 n hi) s fun r => r.steer n = { s.steer n with
      acc := inc
      incs := (s.steer n).incs ++ [(s.now + 400, inc)] }) ∧
  (∀ (n hi : Nat) (s : State), s.up 0 0 = true → n < 4 → s.heldHalf 0 (TC_STEP_LO n) = none → s.holdover n = false →
    (s.steer n).step = none → Does (.tcStepWrite 1 0 n hi) s fun r =>
      (r.steer n).step = some (s.now + 400, sx 64 (s.reg 0 (TC_STEP_LO n) + hi % 2 ^ 32 * 2 ^ 32)) ∧
      ∀ t, t < s.tiles → r.on t (TC_STAT_STEP_PEND n) = true) ∧
  (∀ (n hi : Nat) (s : State), s.up 0 0 = true → 0 < n → n < 4 → s.heldHalf 0 (TC_OFS_LO n) = none → s.f 0 (TC_SERVO_SRC n) ≠ 0 →
    Does (.tcOfsWrite 0 n hi) s fun r => r.on 0 (TC_STAT_OFS_IGNORED n) = true ∧ r.steer n = s.steer n) ∧
  (∀ (n hi : Nat) (s : State), s.up 0 0 = true → 0 < n → n < 4 → s.heldHalf 0 (TC_OFS_LO n) = none → s.f 0 (TC_SERVO_SRC n) = 0 →
    s.on 0 (TC_SERVO_EN n) = true → s.holdover n = false → s.on 0 (TC_STAT_SERVO_FROZEN n) = false →
    let e := sx 64 (hi % 2 ^ 32 * 2 ^ 32 + s.reg 0 (TC_OFS_LO n))
    absI e ≤ (s.reg 0 STEP_LIMIT * 2 ^ 32 : Nat) → Does (.tcOfsWrite 0 n hi) s fun r =>
      let flim : Int := s.f 0 (TC_FLIM_LIMIT n)
      let i := sx 32 (s.reg 0 (TC_INTEG n))
      let i1 := clampI (-(2 ^ 31 : Int)) (2 ^ 31 - 1) (i + sra e (s.f 0 (TC_SERVO_KI n)))
      let i2 := if flim < absI (sra e (s.f 0 (TC_SERVO_KP n)) + i1) ∧ absI i < absI i1 then i else i1
      let corr := sra e (s.f 0 (TC_SERVO_KP n)) + i2
      let base : Nat := s.f 0 (TC_BASE_HI_NS n) * 2 ^ 32 + s.reg 0 (TC_BASE_LO n)
      r.reg 0 (TC_INTEG n) = ux 32 i2 ∧ (r.steer n).acc = (base + clampI (-flim) flim corr).toNat ∧
      r.on 0 (TC_STAT_CLAMP n) = decide (flim < absI corr))

/-- Register writes of LC0, geysers, TIME_RTT, CLKSUP (R101, R116, R118, R121, R123). -/
def Obligations.TimeRegisterWritesComplete : Prop :=
  (∀ (v : Nat) (s : State), s.up 0 0 = true → Does (.lc0OffsetWrite 0 v) s fun r =>
    r.time.lcOfs = s.reg 0 LC0_OFS_0 + s.reg 0 LC0_OFS_1 * 2 ^ 32 + v % 2 ^ 32 * 2 ^ 64 ∧ r.WordsBut s [(0, LC0_OFS_2)]) ∧
  (∀ (v : Nat) (s : State), s.up 0 0 = true → s.heldHalf 0 LC0_RATE_LO = none → s.on 0 LC0_CTL_REBASE = false →
    Does (.lc0RateWrite 0 v) s fun r =>
      r.time.lcRate = sx 64 (s.reg 0 LC0_RATE_LO + v % 2 ^ 32 * 2 ^ 32) ∧ r.time.lcOfs = s.time.lcOfs) ∧
  (∀ (v : Nat) (s : State), s.up 0 0 = true → s.heldHalf 0 LC0_RATE_LO = none → s.on 0 LC0_CTL_REBASE = true →
    Does (.lc0RateWrite 0 v) s fun r =>
      r.time.lcRate = sx 64 (s.reg 0 LC0_RATE_LO + v % 2 ^ 32 * 2 ^ 32) ∧ r.lc0 = s.lc0) ∧
  (∀ (t : Nat) (s : State), s.up t 0 = true → Does (.glitchClr 0 t) s fun r =>
    r.f t CLKSUP_GLITCHES = 0 ∧ r.WordsBut s [(t, CLKSUP)] ∧ s.OnlyRegs r) ∧
  (∀ (t g v : Nat) (s : State), s.up t 0 = true → g < 32 → bit v 0 = true → bit v 1 = false →
    (∀ n, n < 4 → (s.chanPast t n (s.geyTgt t g) : Int) < 0) → Does (.geyserArm 0 t g v) s fun r =>
    r.on t (GY_CTL_ARMED g) = true ∧ r.WordsBut s [(t, GY_CTL g)] ∧ s.OnlyRegs r) ∧
  (∀ (t g v : Nat) (s : State), s.up t 0 = true → g < 32 → s.geyHold t = false → s.on t (GY_CTL_ARMED g) = false → bit v 0 = true →
    bit v 1 = false → bit v 5 = true → s.geyPer t g = 0 → (s.geyTgt t g).last ≠ s.now + 1 →
    (∀ n, n < 4 → (s.lateLimit t : Int) < s.chanPast t n (s.geyTgt t g)) → Does (.geyserArm 0 t g v) s fun r =>
      r.on t (GY_CTL_ARMED g) = false ∧ r.reg t (GY_COUNT g) = s.reg t (GY_COUNT g) ∧ r.evtStat t 265 = true) ∧
  (∀ (t g v : Nat) (s : State), s.up t 0 = true → g < 32 → bit v 1 = true → Does (.geyserDisarm 0 t g v) s fun r =>
    r.on t (GY_CTL_ARMED g) = false ∧
    (s.on t (GY_CTL_ARMED g) = false ∨ s.geyHold t = true ∨ s.geyPast t g < 0 → r.WordsBut s [(t, GY_CTL g)] ∧ s.OnlyRegs r)) ∧
  (∀ (t g hi : Nat) (s : State), s.up t 0 = true → g < 32 → s.heldHalf t (GY_TGT_LO g) = none →
    let x := { s.geyTgt t g with n := s.reg t (GY_TGT_LO g) + hi % 2 ^ 32 * 2 ^ 32, frac := s.reg t (GY_TGT_FRAC g) }
    (s.on t (GY_CTL_ARMED g) = false ∨ s.geyHold t = true ∨
      s.geyPast t g < 0 ∧ (s.chanPast t (s.f t (GY_CTL_CHAN g)) x : Int) < 0) →
    Does (.geyserTargetWrite 0 t g hi) s fun r => r.geyTgt t g = x) ∧
  (∀ (t : Nat) (s : State), s.up t 0 = true → Does (.timeRttStart 0 t) s fun r =>
    smGet r.time.rttBusy t false = true ∧ r.on t TIME_RTT_DONE = false)

/-- Reads of records (R8). -/
def Obligations.RecordReadsSnapshot : Prop :=
  (∀ (who t p : Nat) (s : State), p < 4 → s.Readable who t 1 (ADIT_FSTAT p) →
    Does (.aditFstatRead who t p) s fun r => s.Snapshots r who t (ADIT_FSTAT p) 8) ∧
  (∀ (who t k : Nat) (s : State), k < 4 → s.Readable who t 1 (RC_FCNT k) →
    Does (.rawcRecordRead who t k) s fun r => s.Snapshots r who t (RC_FCNT k) 9) ∧
  (∀ (who t n : Nat) (s : State), n < 2 → s.Readable who t 1 (DV_FCNT n) →
    Does (.devRecordRead who t n) s fun r => s.Snapshots r who t (DV_FCNT n) 2) ∧
  (∀ (who t c : Nat) (s : State), c < 4 → s.Readable who t 1 (OC_OFCNT c) →
    Does (.outRecordRead who t c) s fun r => s.Snapshots r who t (OC_OFCNT c) 5) ∧
  (∀ (who t c : Nat) (s : State), c < 4 → s.Readable who t 2 (HE_FCNT c) →
    Does (.hevceRecordRead who t c) s fun r => s.Snapshots r who t (HE_FCNT c) 2) ∧
  (∀ (who t c : Nat) (s : State), c < 4 → s.Readable who t 2 (HD_ERR c) →
    Does (.hevcdErrRead who t c) s fun r => s.Snapshots r who t (HD_ERR c) 5) ∧
  (∀ (who t : Nat) (s : State), s.Readable who t 0 SPOIL_ROOT → Does (.spoilRootRead who t) s fun r => s.Snapshots r who t SPOIL_ROOT 4) ∧
  (∀ (who k sec ns frac : Nat) (l : List (Nat × Nat × Nat)) (s : State), k < 6 → s.Readable who 0 0 (CAP_FRAC k) →
    sec < 2 ^ 48 → ns < 2 ^ 30 → (s.cap k).queue = (sec, ns, frac) :: l → Does (.captureRead who k) s fun r =>
      (r.cap k).queue = l ∧ smLook r.answers who = some (BitVec.ofNat 32 frac) ∧
      smLook r.snaps (snapKey who 0 (CAP_NS k)) = some (BitVec.ofNat 32 ns) ∧
      smLook r.snaps (snapKey who 0 (CAP_SEC_LO k)) = some (BitVec.ofNat 32 (sec % 2 ^ 32)) ∧
      smLook r.snaps (snapKey who 0 (CAP_SEC_HI k)) = some (BitVec.ofNat 32 (sec / 2 ^ 32))) ∧
  (∀ (who c k n : Nat) (l : List Nat) (s : State), c < 4 → k < 8 → s.Readable who 0 0 (CMP_CAP_LO c k) →
    smGet s.pos.caps (8 * c + k) [] = n :: l → Does (.cmpCaptureRead who c k) s fun r =>
      smGet r.pos.caps (8 * c + k) [] = l ∧ smLook r.answers who = some (BitVec.ofNat 32 n) ∧
      smLook r.snaps (snapKey who 0 (CMP_CAP_HI c k)) = some (BitVec.ofNat 32 (n / 2 ^ 32)))

/-- OPR (R73). -/
def Obligations.OprFunctionsGiveR73Results : Prop :=
  ∀ (t c w : Nat) (s : State), s.Issues t c w → opOf w = 0 →
    let x := s.crew t c
    let A := x.val (gaOf w)
    let B := x.val (gbOf w)
    let n := B.toNat % 64
    let gives := fun (V : BitVec 64) => Does (.opr t c) s fun r => s.OnlyCrew r t c ((x.setG (gdOf w) V.toNat).completed s.now (x.pc + 4))
    let traps := Does (.opr t c) s fun r => s.OnlyCrew r t c (x.excepted s.now 0 0 w x.pc)
    (funcOf w = 0x00 → gives (A + B)) ∧ (funcOf w = 0x01 → gives (A - B)) ∧ (funcOf w = 0x02 → gives (A &&& B)) ∧
    (funcOf w = 0x03 → gives (A ||| B)) ∧ (funcOf w = 0x04 → gives (A ^^^ B)) ∧ (funcOf w = 0x05 → gives (A &&& ~~~B)) ∧
    (funcOf w = 0x08 → gives (A <<< n)) ∧ (funcOf w = 0x09 → gives (A >>> n)) ∧ (funcOf w = 0x0A → gives (A.sshiftRight n)) ∧
    (funcOf w = 0x0B → gives (A.rotateRight n)) ∧ (funcOf w = 0x10 → gives (A * B)) ∧
    (funcOf w = 0x11 → gives (BitVec.ofInt 64 ((A.toInt * B.toInt).fdiv (2 ^ 64)))) ∧
    (funcOf w = 0x12 → gives (BitVec.ofNat 64 (A.toNat * B.toNat / 2 ^ 64))) ∧
    (funcOf w = 0x14 → B ≠ 0 → gives (A.sdiv B)) ∧ (funcOf w = 0x15 → B ≠ 0 → gives (A / B)) ∧
    (funcOf w = 0x16 → B ≠ 0 → gives (A.srem B)) ∧ (funcOf w = 0x17 → B ≠ 0 → gives (A % B)) ∧
    (funcOf w = 0x20 → gives (((A + B).setWidth 32).signExtend 64)) ∧ (funcOf w = 0x21 → gives (((A - B).setWidth 32).signExtend 64)) ∧
    (funcOf w = 0x22 → gives (((A * B).setWidth 32).signExtend 64)) ∧
    (funcOf w = 0x30 → gives (if A.toInt ≤ B.toInt then A else B)) ∧ (funcOf w = 0x31 → gives (if A.toInt ≤ B.toInt then B else A)) ∧
    (funcOf w = 0x32 → gives (if A.toNat ≤ B.toNat then A else B)) ∧ (funcOf w = 0x33 → gives (if A.toNat ≤ B.toNat then B else A)) ∧
    (∀ p, p < 8 → funcOf w = p * 0x100 + 0x40 → gives (if x.pr p then A else B)) ∧
    (∀ v, funcOf w = 0x50 → gbOf w = 0 → v ≤ 64 → A.toNat < 2 ^ (64 - v) → (v < 64 → 2 ^ (63 - v) ≤ A.toNat) → gives (BitVec.ofNat 64 v)) ∧
    (∀ v, funcOf w = 0x51 → gbOf w = 0 → v ≤ 64 → A.toNat % 2 ^ v = 0 → (v < 64 → A.toNat % 2 ^ (v + 1) ≠ 0) → gives (BitVec.ofNat 64 v)) ∧
    (funcOf w = 0x52 → gbOf w = 0 → gives (BitVec.ofNat 64 ((List.range 64).filter A.toNat.testBit).length)) ∧
    (funcOf w = 0x58 → gbOf w = 0 → gives ((A.setWidth 32).signExtend 64)) ∧
    (funcOf w ∈ [0x50, 0x51, 0x52, 0x58] → gbOf w ≠ 0 → x.evec ≠ 0 → x.inexc = false → traps) ∧
    (256 ≤ funcOf w → funcOf w % 256 ≠ 0x40 → x.evec ≠ 0 → x.inexc = false → traps)

/-- Register instructions with an immediate, compares, predicates (R72, R75). -/
def Obligations.CrewRegisterInstructionsComplete : Prop :=
  ∀ (t c w : Nat) (s : State), s.Issues t c w →
    let x := s.crew t c
    let a := x.gr (gaOf w)
    let b := x.gr (gbOf w)
    let imm := immOf w
    let only := fun (y : Crew) (r : State) => s.OnlyCrew r t c (y.completed s.now (x.pc + 4))
    let gives := fun (v : Nat) => only (x.setG (gdOf w) v)
    (opOf w = 0x01 → Does (.addi t c) s (gives (ux 64 ((a : Int) + sx 16 imm)))) ∧
    (opOf w = 0x02 → Does (.andi t c) s (gives (a &&& imm))) ∧
    (opOf w = 0x03 → Does (.ori t c) s (gives (a ||| imm))) ∧
    (opOf w = 0x04 → Does (.xori t c) s (gives (a ^^^ imm))) ∧
    (opOf w = 0x05 → bits w 8 8 = 0 → bits w 6 2 = 0 → Does (.shi t c) s (gives (a * 2 ^ bits w 0 6 % 2 ^ 64))) ∧
    (opOf w = 0x05 → bits w 8 8 = 0 → bits w 6 2 = 1 → Does (.shi t c) s (gives (a / 2 ^ bits w 0 6))) ∧
    (opOf w = 0x05 → bits w 8 8 = 0 → bits w 6 2 = 2 → Does (.shi t c) s (gives (ux 64 ((sx 64 a).fdiv (2 ^ bits w 0 6 : Nat))))) ∧
    (opOf w = 0x05 → bits w 8 8 = 0 → bits w 6 2 = 3 →
      Does (.shi t c) s (gives ((x.val (gaOf w)).rotateRight (bits w 0 6)).toNat)) ∧
    (opOf w = 0x06 → gaOf w = 0 → Does (.lui t c) s (gives (imm * 2 ^ 16))) ∧
    (opOf w = 0x07 → gaOf w = 0 → Does (.lmi t c) s (gives (setBits (x.gr (gdOf w)) 32 16 imm))) ∧
    (opOf w = 0x08 → gaOf w = 0 → Does (.lhi t c) s (gives (setBits (x.gr (gdOf w)) 48 16 imm))) ∧
    (opOf w = 0x09 → bits w 24 2 = 0 → bits w 3 8 = 0 →
      Does (.cmp t c) s (only (x.setP (bits w 21 3) (condOf (bits w 0 3) a b)))) ∧
    (opOf w = 0x0A → bits w 24 2 = 0 →
      Does (.cmpi t c) s (only (x.setP (bits w 21 3) (condOf (bits w 13 3) a (ux 64 (sx 13 (bits w 0 13))))))) ∧
    (opOf w = 0x0B → bits w 24 2 = 0 → bits w 19 2 = 0 → bits w 14 2 = 0 → bits w 3 8 = 0 → (5 ≤ bits w 0 3 → bits w 11 3 = 0) →
      (6 ≤ bits w 0 3 → bits w 16 3 = 0) →
      Does (.pset t c) s (only (x.setP (bits w 21 3) (psetOf (bits w 0 3) (x.pr (bits w 16 3)) (x.pr (bits w 11 3))))))

/-- Loads, stores and atomics of TCM (R65, R69, R72, R76). -/
def Obligations.CrewTcmAccessesComplete : Prop :=
  ∀ (t c w : Nat) (s : State), s.Issues t c w →
    let x := s.crew t c
    let a := s.addrOf' t c w
    let wi := (tcmIndex a).getD 0
    let loads := [(Instr.lb t c, 0x10, 1, true), (Instr.lbu t c, 0x11, 1, false), (Instr.lh t c, 0x12, 2, true), (Instr.lhu t c, 0x13, 2, false),
      (Instr.lw t c, 0x14, 4, true), (Instr.lwu t c, 0x15, 4, false), (Instr.ld t c, 0x16, 8, false)]
    let stores := [(Instr.sb t c, 0x18, 1), (Instr.sh t c, 0x19, 2), (Instr.sw t c, 0x1A, 4), (Instr.sd t c, 0x1B, 8)]
    (∀ q ∈ loads, opOf w = q.2.1 → a % q.2.2.1 = 0 → a < 0x100000 → (c < 2 ∨ s.sysRegion t a = false) →
      smGet s.core.tcmParity (tk t wi) 0 = 0 → s.tcmMarked t wi = false → Does q.1 s fun r =>
        let v := bits (s.tcmWord t wi) (8 * (a % 8)) (8 * q.2.2.1)
        s.OnlyCrew r t c ((x.setG (gdOf w) (if q.2.2.2 then ux 64 (sx (8 * q.2.2.1) v) else v)).completed s.now (x.pc + 4))) ∧
    (∀ q ∈ loads, opOf w = q.2.1 → a % q.2.2.1 ≠ 0 → x.evec ≠ 0 → x.inexc = false → Does q.1 s fun r =>
      s.OnlyCrew r t c (x.excepted s.now 2 0 a x.pc)) ∧
    (∀ q ∈ stores, opOf w = q.2.1 → a % q.2.2 = 0 → a < 0x100000 → (c < 2 ∨ 0x80000 ≤ a ∧ s.sysRegion t a = false) →
      s.on t SRAM_INJ_ARMED = false → Does q.1 s fun r =>
        r = { s with core := r.core } ∧ s.CrewIs r t c (x.completed s.now (x.pc + 4)) ∧
        bits (r.tcmWord t wi) (8 * (a % 8)) (8 * q.2.2) = x.gr (gdOf w) % 2 ^ (8 * q.2.2) ∧
        (∀ k, k < 8 → (k < a % 8 ∨ a % 8 + q.2.2 ≤ k) → bits (r.tcmWord t wi) (8 * k) 8 = bits (s.tcmWord t wi) (8 * k) 8) ∧
        r.tcmMarked t wi = (q.2.2 != 8 && s.tcmMarked t wi) ∧
        ∀ u i, i < 131072 → ¬(u = t ∧ i = wi) → r.tcmWord u i = s.tcmWord u i ∧ r.tcmMarked u i = s.tcmMarked u i) ∧
    (∀ q ∈ stores, opOf w = q.2.1 → a % q.2.2 ≠ 0 → x.evec ≠ 0 → x.inexc = false → Does q.1 s fun r =>
      s.OnlyCrew r t c (x.excepted s.now 2 0 a x.pc)) ∧
    (∀ f, opOf w = 0x1C → funcOf w = f → f < 16 → f % 8 < 5 →
      let m := x.gr (gaOf w)
      let mi := (tcmIndex m).getD 0
      let n := if bit f 3 then 4 else 8
      let old := bits (s.tcmWord t mi) (8 * (m % 8)) (8 * n)
      m % n = 0 → m < 0x100000 → (c < 2 ∨ 0x80000 ≤ m ∧ s.sysRegion t m = false) → smGet s.core.tcmParity (tk t mi) 0 = 0 →
      s.tcmMarked t mi = false → s.on t SRAM_INJ_ARMED = false → Does (.amo t c) s fun r =>
        r = { s with core := r.core } ∧ s.CrewIs r t c ((x.setG (gdOf w) (if n = 4 then ux 64 (sx 32 old) else old)).completed s.now (x.pc + 4)) ∧
        bits (r.tcmWord t mi) (8 * (m % 8)) (8 * n) = (match f % 8 with
          | 0 => x.gr (gbOf w) % 2 ^ (8 * n)
          | 1 => (old + x.gr (gbOf w)) % 2 ^ (8 * n)
          | 2 => old &&& x.gr (gbOf w) % 2 ^ (8 * n)
          | 3 => old ||| x.gr (gbOf w) % 2 ^ (8 * n)
          | _ => if old = x.gr (gdOf w) % 2 ^ (8 * n) then x.gr (gbOf w) % 2 ^ (8 * n) else old) ∧
        ∀ u i, i < 131072 → ¬(u = t ∧ i = mi) → r.tcmWord u i = s.tcmWord u i)

/-- Control flow and system instructions (R72, R89, R91, R95). -/
def Obligations.CrewControlInstructionsComplete : Prop :=
  ∀ (t c w : Nat) (s : State), s.Issues t c w →
    let x := s.crew t c
    let a := x.gr (gaOf w)
    let pc4 := (x.pc + 4) % 2 ^ 64
    let only := fun (y : Crew) (dest : Nat) (r : State) => s.OnlyCrew r t c (y.completed s.now dest)
    (opOf w = 0x20 → Does (.bc t c) s (only x
      (if (x.pr (bits w 23 3)) = !bit w 22 then ux 64 ((x.pc : Int) + 4 * sx 22 (bits w 0 22)) else x.pc + 4))) ∧
    (opOf w = 0x21 → Does (.jal t c) s (only (x.setG 1 pc4) (ux 64 ((x.pc : Int) + 4 * sx 26 (bits w 0 26))))) ∧
    (opOf w = 0x22 → s.addrOf' t c w % 4 = 0 → Does (.jalr t c) s (only (x.setG (gdOf w) pc4) (s.addrOf' t c w))) ∧
    (opOf w = 0x22 → s.addrOf' t c w % 4 ≠ 0 → x.evec ≠ 0 → x.inexc = false → Does (.jalr t c) s fun r =>
      s.OnlyCrew r t c (x.excepted s.now 2 0 (s.addrOf' t c w) x.pc)) ∧
    (opOf w = 0x3F → subOf w = 0 → gdOf w = 0 → gaOf w = 0 → x.evec ≠ 0 → x.inexc = false → Does (.trap t c) s fun r =>
      s.OnlyCrew r t c (x.excepted s.now 8 (imm8Of w) 0 pc4)) ∧
    (opOf w = 0x3F → subOf w = 1 → gdOf w = 0 → gaOf w = 0 → imm8Of w = 0 → x.inexc = true →
      Does (.retx t c) s (only { x with inexc := false, fetch := [] } x.epc)) ∧
    (∀ v, opOf w = 0x3F → subOf w = 2 → gaOf w = 0 → (imm8Of w < 0x40 ∨ c < 2) → s.csrGet t c (imm8Of w) = some v →
      Does (.csrr t c) s (only (x.setG (gdOf w) v) (x.pc + 4))) ∧
    (opOf w = 0x3F → subOf w = 3 → gdOf w = 0 → imm8Of w = 5 → Does (.csrw t c) s (only { x with evec := a / 4 * 4 } (x.pc + 4))) ∧
    (opOf w = 0x3F → subOf w = 3 → gdOf w = 0 → imm8Of w = 6 → Does (.csrw t c) s (only { x with escratch := a } (x.pc + 4))) ∧
    (opOf w = 0x3F → subOf w = 4 → imm8Of w = 6 →
      Does (.csrs t c) s (only (({ x with escratch := x.escratch ||| a } : Crew).setG (gdOf w) x.escratch) (x.pc + 4))) ∧
    (opOf w = 0x3F → subOf w = 5 → imm8Of w = 6 →
      Does (.csrc t c) s (only (({ x with escratch := x.escratch &&& (2 ^ 64 - 1 - a) } : Crew).setG (gdOf w) x.escratch) (x.pc + 4))) ∧
    (opOf w = 0x3F → subOf w = 8 → gdOf w = 0 → gaOf w = 0 → bits w 3 5 = 0 → (∀ e ∈ (s.dma t).queue, e.crew ≠ c) →
      Does (.fence t c) s (only (if bit w 0 then { x with fetch := [] } else x) (x.pc + 4))) ∧
    (opOf w = 0x3F → subOf w = 9 → gdOf w = 0 → gaOf w = 0 → imm8Of w = 0 → x.tx = none → Does (.halt t c) s fun r =>
      s.OnlyCrew r t c { x.completed s.now (x.pc + 4) with state := 0, wait := none, fetch := [] }) ∧
    (opOf w = 0x3F → subOf w = 10 → gdOf w = 0 → gaOf w = 0 → imm8Of w = 0 → Does (.yield t c) s (only x (x.pc + 4))) ∧
    (insnRow w = none → x.evec ≠ 0 → x.inexc = false → Does (.yield t c) s fun r => s.OnlyCrew r t c (x.excepted s.now 0 0 w x.pc)) ∧
    (insnRow w = none → x.evec = 0 → Does (.yield t c) s fun r =>
      (r.crew t c).state = 3 ∧ (r.crew t c).cause = 0 ∧ (r.crew t c).eval = w ∧ (r.crew t c).pc = x.pc ∧ r.evtStat t 306 = true ∧
      (c < 2 → r.evtStat t 3 = true))

/-- Waiting, firing, time (R48, R82, R84). -/
def Obligations.CrewTimeInstructionsComplete : Prop :=
  (∀ (t c w : Nat) (s : State), s.Issues t c w →
    let x := s.crew t c
    let a := x.gr (gaOf w)
    let b := x.gr (gbOf w)
    let hit := x.pending &&& a
    let only := fun (y : Crew) (r : State) => s.OnlyCrew r t c (y.completed s.now (x.pc + 4))
    let waits := fun (d : Option (Nat × Nat)) (r : State) =>
      s.OnlyCrew r t c { x with state := 2, wait := some (.lines a (gdOf w) d), lastIssue := s.now }
    let took := ({ x with pending := x.pending - hit } : Crew).setG (gdOf w) hit
    let n := bits w 4 2
    (opOf w = 0x32 → bits w 0 11 = 0 → gbOf w = 0 → hit ≠ 0 → Does (.wait t c) s (only took)) ∧
    (opOf w = 0x32 → bits w 0 11 = 0 → gbOf w = 0 → a ≠ 0 → hit = 0 → Does (.wait t c) s (waits none)) ∧
    (opOf w = 0x32 → bits w 0 4 = 1 → bits w 6 5 = 0 → hit ≠ 0 → Does (.waitt t c) s (only took)) ∧
    (opOf w = 0x32 → bits w 0 4 = 1 → bits w 6 5 = 0 → hit = 0 → atOrAfter (s.tcN t n) b = true →
      Does (.waitt t c) s (only (x.setG (gdOf w) 0))) ∧
    (opOf w = 0x32 → bits w 0 4 = 1 → bits w 6 5 = 0 → hit = 0 → atOrAfter (s.tcN t n) b = false → Does (.waitt t c) s (waits (some (b, n)))) ∧
    (opOf w = 0x32 → bits w 0 11 = 2 → gdOf w = 0 → gbOf w = 0 → a < 2 ^ 12 → bits a 6 2 = 0 → (bit a 11 = false ∨ bits a 8 3 = t) →
      (c < 2 ∨ 48 ≤ bits a 0 6) → Does (.fire t c) s fun r =>
        r = { s with core.crews := r.core.crews } ∧
        r.crew t c = ({ x with pending := orBit x.pending (bits a 0 6) } : Crew).completed s.now (x.pc + 4) ∧
        ∀ d, d < 8 → d ≠ c → r.crew t d = { s.crew t d with pending := orBit (s.crew t d).pending (bits a 0 6) }) ∧
    (let tgt := { s.geyTgt t a with n := b, frac := 0 }
     let past := s.chanPast t (s.f t (GY_CTL_CHAN a)) tgt
     opOf w = 0x32 → bits w 0 11 = 3 → a < 32 → (s.on t (GY_CTL_ARMED a) = false ∨ s.geyHold t = true ∨ s.geyPast t a < 0) →
     (s.geyHold t = true ∨ past < 0) → Does (.arm t c) s fun r =>
      r.geyTgt t a = tgt ∧ r.on t (GY_CTL_ARMED a) = true ∧ r.reg64 t (GY_TGT_LO a) = b ∧
      r.reg t (GY_TGT_FRAC a) = 0 ∧ r.WordsBut s [(t, GY_CTL a), (t, GY_TGT_LO a), (t, GY_TGT_HI a), (t, GY_TGT_FRAC a)] ∧
      s.CrewIs r t c ((x.setG (gdOf w) (if (s.lateLimit t : Int) < past then 1 else 0)).completed s.now (x.pc + 4))) ∧
    (opOf w = 0x32 → bits w 0 11 = 3 → a < 32 → s.on t (GY_CTL_ARMED a) = false → s.geyHold t = false → s.geyPer t a = 0 →
     s.on t (GY_CTL_LATE_MODE a) = true → (s.geyTgt t a).last ≠ s.now + 1 →
     (s.lateLimit t : Int) < s.chanPast t (s.f t (GY_CTL_CHAN a)) { s.geyTgt t a with n := b, frac := 0 } → Does (.arm t c) s fun r =>
      r.on t (GY_CTL_ARMED a) = false ∧ r.evtStat t 265 = true ∧ r.reg t (GY_COUNT a) = s.reg t (GY_COUNT a) ∧
      (gdOf w ≠ 0 → (r.crew t c).gr (gdOf w) = 1) ∧ (r.crew t c).pc = (x.pc + 4) % 2 ^ 64) ∧
    (opOf w = 0x33 → bits w 0 4 = 0 → bits w 6 5 = 0 → gaOf w = 0 → gbOf w = 0 →
      let k := s.chan t n
      Does (.trd t c) s (only (({ x with tsnapS := k.sec % 2 ^ 48, tsnapF := k.frac % 2 ^ 32 } : Crew).setG (gdOf w)
        ((k.sec * 1000000000 + k.ns) % 2 ^ 64)))) ∧
    (opOf w = 0x33 → bits w 0 11 = 1 → gaOf w = 0 → gbOf w = 0 → Does (.lrd t c) s (only (x.setG (gdOf w) (s.lc0 % 2 ^ 64)))) ∧
    (opOf w = 0x33 → bits w 0 11 = 2 → gaOf w = 0 → gbOf w = 0 →
      Does (.ltick t c) s (only (x.setG (gdOf w) (s.time.lcTicks % 2 ^ 64)))) ∧
    (opOf w = 0x33 → bits w 0 4 = 8 → bits w 6 5 = 0 → gbOf w = 0 → a < 2 ^ 36 → (c < 2 ∨ n ≠ 0) → nominalInc ≤ a + 5368709 →
      a ≤ nominalInc + 5368709 → s.holdover n = false → (n = 0 ∨ s.on 0 (TC_SERVO_EN n) = false) → Does (.tinc t c) s fun r =>
        r.steer n = { s.steer n with acc := a, incs := (s.steer n).incs ++ [(s.now + 400, a)] } ∧ r.regs = s.regs ∧
        s.CrewIs r t c ((x.setG (gdOf w) 0).completed s.now (x.pc + 4))) ∧
    (opOf w = 0x33 → bits w 0 4 = 9 → bits w 6 5 = 0 → gbOf w = 0 → c < 2 → (s.steer n).step = none → s.holdover n = false →
      Does (.tstep t c) s fun r =>
        (r.steer n).step = some (s.now + 400, sx 64 a) ∧ (∀ u, u < s.tiles → r.on u (TC_STAT_STEP_PEND n) = true) ∧
        s.CrewIs r t c ((x.setG (gdOf w) 0).completed s.now (x.pc + 4)))) ∧
  (∀ (t c mask gd : Nat) (d : Option (Nat × Nat)) (s : State), s.live t 0 = true → c < 8 → (s.crew t c).wait = some (.lines mask gd d) →
    (s.crew t c).pending &&& mask ≠ 0 → Does (.crewWake t c) s fun r =>
      let x := s.crew t c
      let hit := x.pending &&& mask
      s.OnlyCrew r t c ((({ x with state := 1, wait := none, pending := x.pending - hit } : Crew).setG gd hit).completed s.now (x.pc + 4))) ∧
  (∀ (t c mask gd dl n : Nat) (s : State), s.live t 0 = true → c < 8 → (s.crew t c).wait = some (.lines mask gd (some (dl, n))) →
    atOrAfter (s.tcN t n) dl = true → (s.crew t c).pending &&& mask = 0 → Does (.waittDeadline t c) s fun r =>
      let x := s.crew t c
      s.OnlyCrew r t c ((({ x with state := 1, wait := none } : Crew).setG gd 0).completed s.now (x.pc + 4)))

/-- Messages, DMA, watchdog, restart (R51, R59, R85 to R87). -/
def Obligations.CrewMessagesAndDmaComplete : Prop :=
  (∀ (t c w : Nat) (s : State), s.Issues t c w →
    let x := s.crew t c
    let a := x.gr (gaOf w)
    let b := x.gr (gbOf w)
    let open_ := fun n => a % 8 = 0 ∧ 0x80000 ≤ a ∧ a + n ≤ 0x100000 ∧ (c < 2 ∨ s.sysRegion t a = false) ∧
      ∀ i, i < n → smGet s.core.tcmParity (tk t ((tcmIndex (a + i)).getD 0)) 0 = 0 ∧ s.tcmMarked t ((tcmIndex (a + i)).getD 0) = false
    (∀ n, opOf w = 0x34 → bits w 0 11 = 0 → b < 2 ^ 13 → bits b 6 7 = n → n % 8 = 0 → 8 ≤ n → n ≤ 64 → bits b 0 3 = t → open_ n →
      (s.crew t (bits b 3 3)).recvq.length < 8 → Does (.send t c) s fun r =>
        (r.crew t (bits b 3 3)).recvq = (s.crew t (bits b 3 3)).recvq ++ [{
          num := s.core.sends, srcTile := t, srcCrew := c, dstCrew := bits b 3 3, payload := (List.range n).map fun i => s.tcmByte t (a + i) }] ∧
        (r.crew t c).gr (gdOf w) = 0 ∧ (r.crew t c).pc = (x.pc + 4) % 2 ^ 64 ∧
        ∀ d, d < 8 → bit (r.crew t d).pending (40 + bits b 3 3) = true) ∧
    (opOf w = 0x34 → bits w 0 11 = 1 → gbOf w = 0 → open_ 64 → x.recvq = [] → Does (.recv t c) s fun r =>
      s.OnlyCrew r t c ((x.setG (gdOf w) 0).completed s.now (x.pc + 4))) ∧
    (∀ m l, opOf w = 0x34 → bits w 0 11 = 1 → gbOf w = 0 → open_ 64 → x.recvq = m :: l → m.payload.length % 8 = 0 → m.payload.length ≤ 64 →
      (∀ v ∈ m.payload, v < 256) → gdOf w ≠ 0 → Does (.recv t c) s fun r =>
        (r.crew t c).recvq = l ∧ (r.crew t c).gr (gdOf w) = (m.srcTile + 8 * m.srcCrew + 64 * m.payload.length + 2 ^ 13) % 2 ^ 64 ∧
        (r.crew t c).pc = (x.pc + 4) % 2 ^ 64 ∧ ∀ i, i < m.payload.length → r.tcmByte t (a + i) = m.payload.getD i 0) ∧
    (opOf w = 0x35 → bits w 0 11 = 0 → gbOf w = 0 → a % 32 = 0 → open_ 32 → (s.dma t).queue.length < 32 → (s.dma t).next < 65536 →
      gdOf w ≠ 0 → (∀ q ∈ (s.dma t).queue, q.ticket ≠ (s.dma t).next) → Does (.post t c) s fun r =>
        let at_ := fun i n => leNum ((List.range n).map fun k => s.tcmByte t (a + i + k))
        (∃ e : DmaDesc, e.ticket = (s.dma t).next ∧ e.crew = c ∧ e.src = at_ 0 8 ∧ e.dst = at_ 8 8 ∧ e.len = at_ 16 4 ∧
          if s.dmaSound t e = true then (r.dma t).queue = (s.dma t).queue ++ [e]
          else (r.dma t).queue = (s.dma t).queue ∧ (r.dma t).statusOf e.ticket = 4) ∧
        (r.dma t).next = ((s.dma t).next + 1) % 65536 ∧ (r.crew t c).gr (gdOf w) = (s.dma t).next) ∧
    (opOf w = 0x35 → bits w 0 11 = 1 → gbOf w = 0 → Does (.poll t c) s fun r =>
      s.OnlyCrew r t c ((x.setG (gdOf w) ((s.dma t).statusOf (a % 65536))).completed s.now (x.pc + 4)))) ∧
  (∀ (t : Nat) (d : DmaDesc) (l : List DmaDesc) (s : State), s.live t 0 = true → smGet s.core.ctlBusy t false = false →
    (s.dma t).queue = d :: l → s.dmaSound t d = true → d.fill = true → d.lineEn = false → d.crew < 2 → 0x80000 ≤ d.dst → d.dst + d.len ≤ 0x100000 →
    d.src < 2 ^ 64 → (∀ e ∈ l, e.ticket ≠ d.ticket) → Does (.dmaTransfer t) s fun r =>
      (r.dma t).queue = l ∧ (r.dma t).statusOf d.ticket = 2 + d.len * 2 ^ 32 ∧
      ∀ i, i < d.len / 8 → r.tcmWord t (65536 + (d.dst - 0x80000) / 8 + i) = d.src) ∧
  (∀ (t c : Nat) (s : State), s.live t 0 = true → c < 8 → smGet s.core.ctlBusy t false = false → s.watchdogDue t c = true →
    (s.crew t c).evec ≠ 0 → (s.crew t c).inexc = false → (s.crew t c).wait = none → Does (.crewWatchdog t c) s fun r =>
      let x := s.crew t c
      r.crew t c = { x.excepted s.now 9 0 0 x.pc with pending := (r.crew t c).pending } ∧ r.evtStat t 307 = true) ∧
  (∀ (t : Nat) (s : State), s.live t 0 = true → s.run t = true → smGet s.core.ctlBusy t false = false → Does (.ctlRestart t false) s fun r =>
    smGet r.core.ctlBusy t false = true ∧ (r.dma t).queue = [] ∧
    ∀ c, c < 8 → (r.crew t c).state = 0 ∧ (r.crew t c).pending = 0 ∧ (r.crew t c).tx = none) ∧
  (∀ (t : Nat) (s : State), s.live t 0 = true → smGet s.core.ctlBusy t false = true → Does (.ctlRestart t true) s fun r =>
    smGet r.core.ctlBusy t false = false ∧ ∀ c, c < 2 → (r.crew t c).state = 1 ∧ (r.crew t c).pc = (s.crew t c).entry)

/-- Benches, solo commits, the epoch (R36, R37, R41 to R43, R79). -/
def Obligations.BenchCommandsComplete : Prop :=
  (∀ (t c w : Nat) (s : State), s.Issues t c w → opOf w = 0x30 →
    let x := s.crew t c
    let a := x.gr (gaOf w)
    let u := bits a 11 5
    let i := bits a 0 11
    let base := benchBase u + 4 * i
    a < 2 ^ 19 → u < 25 → i < unitWords u → s.granted (whoCrew t c) u = true → s.island t (blockIsland (benchBase u)) = true →
    (bits w 0 11 = 0 → gdOf w = 0 → x.tx = none → s.ownerOf t u = none → s.armed t u = false → Does (.bwr t c) s fun r =>
      r.reg t base = x.gr (gbOf w) % 2 ^ 32 ∧ r.WordsBut s [(t, base), (t, UNIT_GEN u)] ∧
      s.CrewIs r t c (x.completed s.now (x.pc + 4))) ∧
    (bits w 0 11 = 1 → gbOf w = 0 → Does (.brd t c) s fun r =>
      s.OnlyCrew r t c ((x.setG (gdOf w) (s.peek t (base + 0x8000))).completed s.now (x.pc + 4))) ∧
    (bits w 0 11 = 2 → gbOf w = 0 → Does (.brs t c) s fun r =>
      s.OnlyCrew r t c ((x.setG (gdOf w) (s.peek t base)).completed s.now (x.pc + 4)))) ∧
  (∀ (t u : Nat) (s : State), s.live t 0 = true → u < 21 → s.f t (UNIT_CTL_KIND u) ≠ 0 → s.ownerOf t u = none → s.armed t u = false →
    s.kindOk u (s.f t (UNIT_CTL_KIND u)) (s.f t (UNIT_CTL_SEL u)) = true → s.shadowOk (orBit 0 u) t u = true →
    s.staleOk t u (s.reg t EPOCH) = true → Does (.unitArm t u) s fun r =>
      (r.unit t u).solo = true ∧ (r.unit t u).point = (s.f t (UNIT_CTL_KIND u), s.f t (UNIT_CTL_SEL u), s.reg t (UNIT_SEQ u)) ∧
      r.reg t (UNIT_EPOCH u) = s.reg t EPOCH ∧ r.WordsBut s [(t, UNIT_EPOCH u)] ∧ r.armed t u = true) ∧
  (∀ (t u : Nat) (s : State), s.live t 0 = true → u < 25 → (21 ≤ u ∨ (s.ownerOf t u).isSome = true ∨ s.armed t u = true) →
    Does (.unitArm t u) s fun r => s.OnlyEvents r ∧ r.evtStat t 301 = true) ∧
  (∀ (t u : Nat) (s : State), s.live t 0 = true → u < 25 → Does (.unitDisarm t u) s fun r =>
    r = { s with bench.units := r.bench.units } ∧ r.unit t u = { s.unit t u with solo := false }) ∧
  (∀ (t u sec : Nat) (s : State), s.live t 0 = true → u < 25 → u ≠ 4 → sec < sectionCount u → s.secBusy t u sec = false →
    (s.unit t u).waits.any (·.sec = sec) = true → Does (.sectionExchange t u sec) s fun r =>
      let ws := (sectionWords u).getD sec []
      (∀ w ∈ ws, r.reg t (wordAt u w + 0x8000) = s.reg t (wordAt u w)) ∧ r.WordsBut s (ws.map fun w => (t, wordAt u w + 0x8000)) ∧
      ((r.unit t u).waits.any (·.sec = sec)) = false) ∧
  (∀ s : State, s.live 0 0 = true → Does .epochAdvance s fun r =>
    r.reg 0 EPOCH = (s.reg 0 EPOCH + 1) % 2 ^ 32 ∧ r.evtStat 0 303 = true ∧ r.WordsButEvents s [(0, EPOCH)] ∧
    ∀ t, t ≠ 0 → s.run t = true → s.Routed 0 t →
      smGet r.bench.epochs t [] = smGet s.bench.epochs t [] ++ [(s.reg 0 EPOCH + 1) % 2 ^ 32]) ∧
  (∀ (t e : Nat) (l : List Nat) (s : State), s.live t 0 = true → s.msgOpen 0 t = true → smGet s.bench.epochs t [] = e :: l →
    Does (.epochUpdateReceive t) s fun r =>
      r.reg t EPOCH = e % 2 ^ 32 ∧ r.evtStat t 303 = true ∧ r.WordsButEvents s [(t, EPOCH)] ∧ smGet r.bench.epochs t [] = l)

/-- TXBEGIN, TXCOMMIT, TXABORT, TXSTAT (R52, R54, R56, R80). -/
def Obligations.CrewTransactionInstructionsComplete : Prop :=
  ∀ (t c w : Nat) (s : State), s.Issues t c w → opOf w = 0x31 →
    let x := s.crew t c
    let a := x.gr (gaOf w)
    (∀ i, bits w 0 11 = 0 → gaOf w = 0 → gbOf w = 0 → x.tx = none → (t = 0 ∨ s.isolated 0 = false ∧ s.Routed t 0) → i < 16 →
      (s.txn i).state = 0 → (∀ j, j < i → (s.txn j).state ≠ 0) → Does (.txbegin t c) s fun r =>
        r.txn i = { state := 1, tile := t, crew := c, epoch := s.reg 0 EPOCH } ∧ (∀ j, j ≠ i → r.txn j = s.txn j) ∧ r.regs = s.regs ∧
        s.CrewIs r t c ((({ x with tx := some i } : Crew).setG (gdOf w) i).completed s.now (x.pc + 4))) ∧
    (∀ i, bits w 0 11 = 1 → a < 256 → a % 8 < 5 → x.gr (gbOf w) < 2 ^ 32 → x.tx = some i → (s.txn i).state = 1 →
      (s.txn i).committed = false → (s.txn i).doom = none → (s.txn i).part = 0 → (s.txn i).host = false → (s.txn i).tile = t →
      (s.txn i).crew = c → (s.txn i).epoch = s.reg 0 EPOCH → Does (.txcommit t c) s fun r =>
        r.txn i = { s.txn i with kind := a % 8, sel := bits a 3 5, committed := true, seq := 0, state := 4, result := 0 } ∧ r.regs = s.regs ∧
        s.CrewIs r t c ((x.setG (gdOf w) (r.txn i).stateWord).completed s.now (x.pc + 4))) ∧
    (∀ i, bits w 0 11 = 2 → gaOf w = 0 → gbOf w = 0 → gdOf w ≠ 0 → x.tx = some i → (s.txn i).state = 1 → (s.txn i).doom = none →
      Does (.txabort t c) s fun r =>
        (r.txn i).state = 4 ∧ (r.txn i).result = 6 ∧ (r.crew t c).gr (gdOf w) = (r.txn i).stateWord % 2 ^ 64 ∧
        (r.crew t c).pc = (x.pc + 4) % 2 ^ 64) ∧
    (∀ i, bits w 0 11 = 3 → gaOf w = 0 → gbOf w = 0 → x.tx = some i → (s.txn i).state ≠ 4 → Does (.txstat t c) s fun r =>
      s.OnlyCrew r t c ((x.setG (gdOf w) (s.txn i).stateWord).completed s.now (x.pc + 4))) ∧
    (∀ i, bits w 0 11 = 3 → gaOf w = 0 → gbOf w = 0 → x.tx = some i → (s.txn i).state = 4 → Does (.txstat t c) s fun r =>
      r.txn i = {} ∧ s.CrewIs r t c ((({ x with tx := none } : Crew).setG (gdOf w) (s.txn i).stateWord).completed s.now (x.pc + 4)))

/-- The commit protocol (R54, R56, R58). -/
def Obligations.CommitProtocolCommandsComplete : Prop :=
  ∀ (i t : Nat) (s : State),
    let x := s.txn i
    let m := x.tile
    let here := s.live t 0 = true ∧ s.msgOpen m t = true
    let home := s.live m 0 = true ∧ s.msgOpen m t = true
    (here → bit x.prepSent t = true → x.state = 2 → t ≠ m → s.Routed t m → Does (.txnPrepareReceive i t) s fun r =>
      r = { s with bench.txns := r.bench.txns } ∧
      r.txn i = (let y := { x with prepSent := clrBit x.prepSent t, answerSent := orBit x.answerSent t }
        if s.txnCheck i t = 0 then { y with prepared := orBit x.prepared t }
        else if s.txnCheck i t = 1 then { y with failFault := orBit x.failFault t } else { y with failStale := orBit x.failStale t })) ∧
    (home → bit x.answerSent t = true → x.state = 2 → x.overdue s.now = false → x.allIn (orBit x.answerGot t ||| x.noRoute) = false →
      Does (.txnPreparedReceive i t) s fun r =>
        r = { s with bench.txns := r.bench.txns } ∧
        r.txn i = { x with answerSent := clrBit x.answerSent t, answerGot := orBit x.answerGot t }) ∧
    (home → bit x.answerSent t = true → x.state = 2 → x.kind = 0 → x.overdue s.now = false → x.occurred = none → bit x.part m = false →
      bit x.part t = true → bit x.reported t = false → s.isolated t = false → x.allIn (x.prepared &&& orBit x.answerGot t) = true →
      (∀ u k, u < s.tiles → k < 4 → x.holds u (21 + k) = false) → (∀ v, v < s.tiles → bit x.part v = true → s.Routed m v) →
      Does (.txnPreparedReceive i t) s fun r =>
        (r.txn i).state = 3 ∧ (r.txn i).commit = some true ∧ (r.txn i).occurred = some s.now) ∧
    (home → bit x.answerSent t = true → x.state = 2 → x.overdue s.now = true → x.allIn (x.prepared &&& x.answerGot) = false →
      s.reg 0 EPOCH = x.epoch → x.failFault &&& x.answerGot = 0 → x.noRoute = 0 → x.failStale &&& x.answerGot = 0 →
      Does (.txnPreparedReceive i t) s fun r =>
        (r.txn i).state = 4 ∧ (r.txn i).result = 2 ∧ (r.txn i).late = x.part - (x.part &&& x.answerGot) ∧ r.evtStat m 304 = true) ∧
    (∀ d, s.live m 0 = true → x.deadline = some d → d ≤ s.now → x.state = 2 → x.allIn (x.prepared &&& x.answerGot) = false →
      s.reg 0 EPOCH = x.epoch → x.failFault &&& x.answerGot = 0 → x.noRoute = 0 → x.failStale &&& x.answerGot = 0 →
      Does (.txnGuardDeadline i) s fun r =>
        (r.txn i).state = 4 ∧ (r.txn i).result = 2 ∧ (r.txn i).late = x.part - (x.part &&& x.answerGot) ∧ (r.txn i).failed = 0 ∧
        r.evtStat m 304 = true) ∧
    (here → bit x.decSent t = true → x.commit = some false → bit x.reached t = false → bit x.released t = false → x.state ≠ 0 →
      Does (.txnDecisionReceive i t) s fun r =>
        bit (r.txn i).released t = true ∧ bit (r.txn i).decGot t = true ∧ bit (r.txn i).decSent t = false ∧
        ∀ u w, u < 25 → w < unitWords u → x.holds t u = true → r.reg t (wordAt u w) = s.reg t (wordAt u w + 0x8000)) ∧
    (here → bit x.decSent t = true → x.commit = some true → bit x.reached t = false → x.kind ≠ 4 → x.occurred = none →
      Does (.txnDecisionReceive i t) s fun r =>
        r = { s with bench.txns := r.bench.txns } ∧ r.txn i = { x with decSent := clrBit x.decSent t, decGot := orBit x.decGot t }) ∧
    (∀ d, s.live t 0 = true → x.deadline = some d → x.kind = 0 → bit x.part t = true → bit x.prepared t = true → bit x.decGot t = false →
      bit x.reached t = false → d + 800000 ≤ s.now → Does (.txnImmediateTimeout i t) s fun r =>
        bit (r.txn i).reached t = true ∧ ∀ u, u < 25 → x.holds t u = true → smGet r.bench.marks (tk t u) 0 = 1) ∧
    (home → bit x.reportSent t = true → bit x.decGot t = true → x.state = 3 → x.occurred.isSome = true → bit x.didSwap t = true →
      orBit x.swapped t = x.part → (∀ v, v < s.tiles → bit x.part v = true → s.isolated v = false → v = t ∨ bit x.reported v = true) →
      Does (.txnSwapReportReceive i t) s fun r => (r.txn i).state = 4 ∧ (r.txn i).result = 0 ∧ (r.txn i).swapped = x.part) ∧
    (here → t ≠ m → x.state ≠ 0 → bit x.reached t = true → bit x.reported t = false → bit x.reportSent t = false → s.Routed t m →
      s.now ≤ (if x.kind = 0 then x.decidedAt else x.occurred.getD 0) + 800000 → Does (.txnReportResend i t) s fun r =>
        r = { s with bench.txns := r.bench.txns } ∧ r.txn i = { x with reportSent := orBit x.reportSent t }) ∧
    (∀ o, s.live m 0 = true → x.occurred = some o → x.state = 3 → o + 800000 ≤ s.now → x.swapped ≠ x.part →
      Does (.txnEndTimeout i) s fun r => (r.txn i).state = 4 ∧ (r.txn i).result = 7 ∧ r.evtStat m 304 = true ∧
        ∀ v, v < s.tiles → bit x.part v = true → bit x.reported v = false → r.evtStat m 305 = true) ∧
    (s.live m 0 = true → x.state = 3 → x.kind = 4 → x.cmpArmed = false → x.decidedAt + 800000 ≤ s.now →
      Does (.txnPosAckTimeout i) s fun r =>
        (r.txn i).state = 4 ∧ (r.txn i).result = 2 ∧ (r.txn i).late = x.part - (x.part &&& x.acked)) ∧
    (home → bit x.ackSent t = true → x.state = 3 → x.kind = 4 → x.cmpArmed = false → x.allIn (orBit x.acked t) = true →
      Does (.txnPosAckReceive i t) s fun r =>
        r = { s with bench.txns := r.bench.txns } ∧
        r.txn i = { x with
          ackSent := clrBit x.ackSent t, acked := orBit x.acked t, cmpArmed := true
          seq := seqStep (s.reg 0 (CMP_COUNT (x.sel / 8) (x.sel % 8))) (max 1 x.seq) })

/-- Lanes: control, lock, idle (R127, R131, R135 to R144). -/
def Obligations.LaneStateCommandsComplete : Prop :=
  ∀ (t l : Nat) (s : State), s.up t 6 = true → l < 24 →
    let live := s.laneLive t l = true
    let lost := fun (r : State) => r.on t (LANE_STAT_LOCKED l) = false ∧ r.on t (LANE_STAT_HUNTING l) = true ∧
      r.f t (LANE_STAT_LOSSES l) = min 255 (s.f t (LANE_STAT_LOSSES l) + 1) ∧ r.evtStat t (32 + l) = true ∧
      r.WordsButEvents s [(t, LANE_STAT l), (t, EYE_STAT l)]
    (∀ v, hostLane t l = false → s.on t (LANE_CTL_EN l) = false → bit v 0 = true → roleOk t l (bits v 1 2) = true → bits v 1 2 ≠ 3 →
      Does (.laneCtlWrite t l v) s fun r =>
        r.on t (LANE_CTL_EN l) = true ∧ r.f t (LANE_CTL_ROLE l) = bits v 1 2 ∧ r.on t (LANE_CTL_RX_INV l) = bit v 3 ∧
        r.on t (LANE_STAT_PLL_OK l) = true ∧ r.on t (LANE_STAT_LOCKED l) = false ∧ r.on t (LANE_STAT_HUNTING l) = true ∧
        r.WordsBut s [(t, LANE_CTL l), (t, LANE_RATE l), (t, LANE_STAT l), (t, LANE_HDRERR l), (t, LANE_TEST l)]) ∧
    (∀ v, hostLane t l = false → s.on t (LANE_CTL_EN l) = true → bit v 0 = false → Does (.laneCtlWrite t l v) s fun r =>
      r.on t (LANE_CTL_EN l) = false ∧ r.f t ⟨LANE_STAT l, 0, 6⟩ = 0 ∧
      r.WordsBut s [(t, LANE_CTL l), (t, LANE_STAT l), (t, LANE_HDRERR l), (t, LANE_TEST l), (t, EYE_STAT l)]) ∧
    (live → s.on t (LANE_STAT_HUNTING l) = true → Does (.laneLock t l) s fun r =>
      r.on t (LANE_STAT_LOCKED l) = true ∧ r.on t (LANE_STAT_HUNTING l) = false ∧ r.WordsBut s [(t, LANE_STAT l)] ∧
      r = { s with regs := r.regs, lanes := r.lanes }) ∧
    (live → s.on t (LANE_STAT_LOCKED l) = true → s.on t (LANE_STAT_IDLE l) = false → Does (.laneLockLost t l) s lost) ∧
    (s.on t (LANE_CTL_EN l) = true → s.on t (LANE_STAT_PLL_OK l) = true → Does (.lanePllUnlock t l) s fun r =>
      r.on t (LANE_STAT_PLL_OK l) = false ∧ r.on t (LANE_STAT_PLL_LOST l) = true ∧ r.on t (LANE_STAT_HUNTING l) = false ∧
      r.on t (LANE_STAT_LOCKED l) = false ∧ r.evtStat t 58 = true) ∧
    (live → s.on t (LANE_STAT_PLL_OK l) = false → s.f t (LANE_CTL_ROLE l) ≠ 3 → Does (.lanePllRelock t l) s fun r =>
      r.on t (LANE_STAT_PLL_OK l) = true ∧ r.on t (LANE_STAT_HUNTING l) = true ∧ r.WordsBut s [(t, LANE_STAT l)]) ∧
    (live → s.on t (LANE_STAT_SIGNAL l) = true → s.on t (LANE_STAT_LOCKED l) = true → 8 ≤ (s.lane t l).idles →
      Does (.laneIdleEntry t l) s fun r =>
        r.on t (LANE_STAT_IDLE l) = true ∧ r.on t (LANE_STAT_SIGNAL l) = false ∧ r.on t (LANE_STAT_LOCKED l) = true ∧
        r.WordsBut s [(t, LANE_STAT l), (t, EYE_STAT l)]) ∧
    (live → s.on t (LANE_STAT_SIGNAL l) = true → s.on t (LANE_STAT_LOCKED l) = true → (s.lane t l).idles < 8 →
      Does (.laneIdleEntry t l) s fun r => r.on t (LANE_STAT_SIGNAL l) = false ∧ lost r) ∧
    (∀ i wakes, live → s.on t (LANE_STAT_SIGNAL l) = false → s.on t (LANE_STAT_IDLE l) = true → i < 9 → 4 ≤ wakes.getD i 0 →
      (∀ j, j < i → wakes.getD j 0 < 4) → Does (.laneIdleExit t l wakes) s fun r =>
        r.on t (LANE_STAT_IDLE l) = false ∧ r.on t (LANE_STAT_SIGNAL l) = true ∧
        r.lane t l = { s.lane t l with boundary := ((s.lane t l).boundary + 62 + i) % 66, idles := 0 } ∧ r.WordsBut s [(t, LANE_STAT l)]) ∧
    (s.on t (LANE_STAT_HUNTING l) = true → (s.lane t l).wakeHunt = true →
      64000 ≤ s.laneUi t l (s.now - (s.lane t l).wakeAt) → Does (.laneWakeHuntTimeout t l) s fun r =>
      lost r ∧ (r.lane t l).wakeHunt = false) ∧
    (s.laneUi t l (s.now - (s.lane t l).wakeAt) < 64000 → Does (.laneWakeHuntTimeout t l) s fun r => r = s)

/-- Lanes: blocks, counters, eye scans, test patterns (R134 to R136, R147, R148, R151). -/
def Obligations.LaneTrafficCommandsComplete : Prop :=
  ∀ (t l : Nat) (s : State), s.up t 6 = true → l < 24 →
    let x := s.lane t l
    let live := s.laneLive t l = true
    let checks := s.f t (LANE_CTL_ROLE l) = 0 ∧ s.f t (LANE_TEST_CHK l) ≠ 0
    let hears := live ∧ s.on t (LANE_STAT_IDLE l) = false ∧ s.f t (LANE_CTL_ROLE l) ≠ 3 ∧ ¬checks
    (∀ p, hears → s.on t (LANE_STAT_LOCKED l) = true → Does (.laneBlockReceive t l 2 p) s fun r =>
      r = { s with lanes := r.lanes } ∧ r.lane t l = { x with desc := (r.lane t l).desc, pos := x.pos + 1, idles := 0 }) ∧
    (∀ p, hears → s.on t (LANE_STAT_LOCKED l) = false → s.on t (LANE_STAT_HUNTING l) = true → x.valid < 63 →
      Does (.laneBlockReceive t l 2 p) s fun r =>
        r = { s with lanes := r.lanes } ∧ r.lane t l = { x with desc := (r.lane t l).desc, valid := x.valid + 1 }) ∧
    (∀ p, hears → s.on t (LANE_STAT_LOCKED l) = false → s.on t (LANE_STAT_HUNTING l) = true → x.valid = 63 →
      Does (.laneBlockReceive t l 2 p) s fun r =>
        r.on t (LANE_STAT_LOCKED l) = true ∧ r.on t (LANE_STAT_HUNTING l) = false ∧ r.WordsBut s [(t, LANE_STAT l)]) ∧
    (∀ p h, hears → h ∈ [0, 3] → s.on t (LANE_STAT_LOCKED l) = false → s.on t (LANE_STAT_HUNTING l) = true →
      Does (.laneBlockReceive t l h p) s fun r =>
        r = { s with lanes := r.lanes } ∧ r.lane t l = { x with desc := (r.lane t l).desc, valid := 0, boundary := (x.boundary + 1) % 66 }) ∧
    (∀ p h, hears → h ∈ [0, 3] → s.on t (LANE_STAT_LOCKED l) = true → x.invalid.length + 1 < s.f t (LANE_ALIGN_LOSS_CNT l) →
      Does (.laneBlockReceive t l h p) s fun r =>
        r.f t (LANE_HDRERR_COUNT l) = min (2 ^ 32 - 1) (s.f t (LANE_HDRERR_COUNT l) + 1) ∧ r.on t (LANE_STAT_LOCKED l) = true ∧
        (r.lane t l).invalid = x.invalid ++ [x.pos + 1] ∧ r.WordsBut s [(t, LANE_HDRERR l)]) ∧
    (∀ p h, live → s.on t (LANE_STAT_IDLE l) = false → checks → Does (.laneBlockReceive t l h p) s fun r =>
      r.WordsButEvents s [(t, LANE_TEST l), (t, LANE_STAT l), (t, LANE_HDRERR l), (t, EYE_STAT l)]) ∧
    (∀ st p, p < 2 ^ 64 → descramble 64 st (scramble 64 st p 0).2 0 = ((scramble 64 st p 0).1, p)) ∧
    Does (.laneCntClr t l) s (fun r =>
      r.f t (LANE_STAT_LOSSES l) = 0 ∧ r.reg t (LANE_HDRERR l) = 0 ∧ r.f t (LANE_TEST_ERRS l) = 0 ∧ s.OnlyRegs r ∧
      r.WordsBut s [(t, LANE_STAT l), (t, LANE_HDRERR l), (t, LANE_TEST l)]) ∧
    (∀ v, 4 ≤ bits v 0 7 → bits v 0 7 ≤ 64 → 64 ≤ bits v 8 13 → bits v 8 13 ≤ 4096 → Does (.laneAlignWrite t l v) s fun r =>
      r.f t (LANE_ALIGN_LOSS_CNT l) = bits v 0 7 ∧ r.f t (LANE_ALIGN_LOSS_WIN l) = bits v 8 13 ∧ (r.lane t l).invalid = [] ∧
      r.WordsBut s [(t, LANE_ALIGN l)]) ∧
    (∀ v, live → s.on t (LANE_STAT_LOCKED l) = true → s.f t (EYE_STAT_STATE l) ≠ 1 → Does (.eyeScanStart t l v) s fun r =>
      r.f t (EYE_STAT_STATE l) = 1 ∧ r.f t (EYE_CTL_H l) = bits v 2 7 ∧ r.reg t (EYE_ERR_LO l) = 0 ∧ r.reg t (EYE_ERR_HI l) = 0 ∧
      (r.lane t l).eyeAt = s.now ∧ r.WordsBut s [(t, EYE_CTL l), (t, EYE_STAT l), (t, EYE_ERR_LO l), (t, EYE_ERR_HI l)]) ∧
    (∀ v, s.f t (EYE_STAT_STATE l) = 1 → Does (.eyeScanStop t l v) s fun r =>
      r.f t (EYE_STAT_STATE l) = 3 ∧ r.WordsBut s [(t, EYE_STAT l)] ∧ s.OnlyRegs r) ∧
    (∀ errs, s.laneUi t l (s.now - x.eyeAt) < 2 ^ s.f t (EYE_CTL_WIN l) → Does (.eyeScanDone t l errs) s fun r => r = s) ∧
    (∀ errs, s.f t (EYE_STAT_STATE l) = 1 → 2 ^ s.f t (EYE_CTL_WIN l) ≤ s.laneUi t l (s.now - x.eyeAt) → Does (.eyeScanDone t l errs) s fun r =>
      r.f t (EYE_STAT_STATE l) = 2 ∧ r.reg64 t (EYE_ERR_LO l) = min errs (2 ^ s.f t (EYE_CTL_WIN l)) % 2 ^ 40 ∧ r.evtStat t 59 = true ∧
      r.WordsButEvents s [(t, EYE_STAT l), (t, EYE_ERR_LO l), (t, EYE_ERR_HI l)]) ∧
    (∀ n, live → s.f t (LANE_CTL_ROLE l) = 0 → s.f t (LANE_TEST_CHK l) ≠ 0 → s.on t (LANE_TEST_CHK_LOCK l) = true → x.prbsErr = false →
      Does (.prbsCheckError t l n) s fun r =>
        r.f t (LANE_TEST_ERRS l) = min (2 ^ 24 - 1) (s.f t (LANE_TEST_ERRS l) + 1) ∧ r.on t (LANE_STAT_PRBS_ERR l) = true ∧
        r.evtStat t 60 = true ∧ r.WordsButEvents s [(t, LANE_TEST l), (t, LANE_STAT l)])

/-- Adit: ports, lines, dispatch (R154 to R164, R173). -/
def Obligations.AditLineCommandsComplete : Prop :=
  (∀ (t p : Nat) (s : State), s.live t 1 = true → p < 4 → s.on t (AD_CTL_EN p) = false →
    (∀ k, k < s.adN t p → s.reg t (LANE_RATE (s.adLaneNo t p k)) = s.reg t (LANE_RATE (s.adLaneNo t p 0)) ∧
      s.f t (LANE_CTL_ROLE (s.adLaneNo t p k)) = s.f t (LANE_CTL_ROLE (s.adLaneNo t p 0))) →
    ((List.range 4).map fun q => if q = p ∨ s.on t (AD_CTL_EN q) = true then s.a t (AD_ARB_QUOTA q) else 0).sum ≤ 4096 →
    Does (.aditEnable t p) s fun r =>
      r.on t (AD_CTL_EN p) = true ∧ r.f t (AD_PSTAT_STATE p) = 1 ∧ (r.port t p).intervals = [] ∧ (r.port t p).lastN = none ∧
      r.WordsBut s [(t, AD_CTL p), (t, AD_PSTAT p)]) ∧
  (∀ (t p : Nat) (s : State), s.live t 1 = true → p < 4 → s.on t (AD_CTL_EN p) = true → (s.port t p).frame = none →
    Does (.aditDisable t p) s fun r =>
      r.on t (AD_CTL_EN p) = false ∧ r.f t (AD_PSTAT_STATE p) = 0 ∧ (r.port t p).lanes = [] ∧
      r.WordsBut s [(t, AD_CTL p), (t, AD_PSTAT p)]) ∧
  (∀ (t p k : Nat) (s : State), s.live t 1 = true → p < 4 → s.adDeaf t p = false → s.adTakes t p k = true →
    let a := s.adPart t p k
    let only := fun (b : AdLane) (r : State) => r = { s with adit.ports := r.adit.ports } ∧ r.adPart t p k = b ∧
      r.port t p = { s.port t p with lanes := (r.port t p).lanes } ∧ ∀ j, j ≠ k → r.adPart t p j = s.adPart t p j
    (∀ line g fl, s.adNextLine t p k 1 (line % 65536) = false → k ≠ (s.port t p).refLane →
      Does (.aditLineStart t p k line g fl) s (only { kind := 1, line := line % 65536, glane := g % 256, serr := bit fl 0 })) ∧
    (∀ e g, s.adNextLine t p k 2 (e % 256) = false →
      Does (.aditEmbeddedStart t p k e g) s (only { kind := 2, line := e % 256, glane := g % 256 })) ∧
    (∀ w, a.kind ≠ 0 → a.stop = none → Does (.aditDataBlock t p k w) s (only { a with data := a.data ++ [w % 2 ^ 64] })) ∧
    (∀ w, a.kind = 0 → Does (.aditDataBlock t p k w) s fun r =>
      r.f t (AD_PSTAT_STRAY p) = min 65535 (s.f t (AD_PSTAT_STRAY p) + 1) ∧ r.evtStat t 78 = true ∧ r.adit = s.adit ∧
      r.WordsButEvents s [(t, AD_PSTAT p)]) ∧
    (∀ n c, a.kind ≠ 0 → a.stop = none → Does (.aditLineEnd t p k n c) s (only { a with stop := some (n % 2 ^ 24, c % 2 ^ 32) })) ∧
    (∀ n c, a.kind = 0 → Does (.aditLineEnd t p k n c) s fun r => r = s)) ∧
  (∀ (t p line : Nat) (f : AdFrame) (s : State), s.live t 1 = true → p < 4 → s.adSg t p = false → (s.port t p).frame = some f →
    (s.adPart t p (s.port t p).refLane).kind = 1 → (s.adPart t p (s.port t p).refLane).line = line →
    s.adTakes t p (s.port t p).refLane = true → (s.port t p).closing = none → (s.port t p).judged = none → f.e ≤ line → line < s.a t (AD_GEOM_H p) →
    let closed := fun (r : State) => (r.port t p).frame.map (·.e) = some (line + s.adGroupLines t p line) ∧
      (r.port t p).frame.map (·.pos) = some (f.pos + 1) ∧ (r.port t p).lanes = [] ∧ (r.port t p).judged = none ∧ (r.port t p).reserved = 0
    (s.adAllEnded t p = true → Does (.aditLineClose t p) s closed) ∧ (s.adSomeEnded t p = true → Does (.aditLineCloseTimeout t p) s closed)) ∧
  (∀ (t : Nat) (s : State), s.live t 1 = true → Does (.lineStoreDispatch t) s fun r =>
    r = { s with adit.store := r.adit.store, pix.rawIn := r.pix.rawIn } ∧
    ∀ p, p < 4 →
      let turn := takeTurn (max 1 (s.a t (AD_ARB_WEIGHT p))) (s.adStore t p)
      r.adStore t p = turn.2 ∧ smGet r.pix.rawIn (tk t p) [] = smGet s.pix.rawIn (tk t p) [] ++ turn.1)

/-- Adit: frames and sensor groups (R165 to R171, R176). -/
def Obligations.AditFrameCommandsComplete : Prop :=
  (∀ (t p k fcnt : Nat) (lags : List Nat) (s : State), s.live t 1 = true → p < 4 → s.on t (AD_CTL_EN p) = true → s.stale t p = false →
    s.stale t (21 + p) = false → (s.port t p).frame = none → (s.port t p).lanes = [] → s.aOn t (AD_FMT_CNT_MODE p) = false →
    k < s.adN t p → lags.getD k 65536 < 32 → s.laneLocked t (s.adLaneNo t p k) = true → s.laneLive t (s.adLaneNo t p k) = true →
    s.a t (AD_FMT_SRC_ID p) < 256 → Does (.aditFrameStart t p (s.a t (AD_FMT_SRC_ID p)) fcnt lags) s fun r =>
      r.f t (AD_PSTAT_STATE p) = 2 ∧ ∃ f, (r.port t p).frame = some f ∧ f.started = true ∧ f.hdr.src = p ∧ f.hdr.cnt = fcnt % 2 ^ 32 ∧
        f.hdr.tick = s.now ∧ f.e = 0) ∧
  (∀ (t p lines sstat : Nat) (f : AdFrame) (s : State), s.live t 1 = true → p < 4 → s.adDeaf t p = false → (s.port t p).frame = some f →
    (s.port t p).closing = none → (s.port t p).lanes = [] → f.started = true → s.adSg t p = false → s.a t (AD_GEOM_H p) ≤ f.e →
    s.a t (AD_EMB_SLOT_SLOT p) = 0 → Does (.aditFrameEnd t p lines sstat) s fun r =>
      (r.port t p).frame = none ∧ (r.port t p).lanes = [] ∧ r.f t (AD_PSTAT_STATE p) = 1 ∧ r.evtStat t (64 + p) = true ∧
      bit (r.reg t (ADIT_FSTAT p)) 31 = true ∧ r.reg t (ADIT_FCNT p) = f.hdr.cnt % 2 ^ 32) ∧
  (∀ (t p : Nat) (s : State), s.live t 1 = true → p < 4 → s.on t (AD_CTL_EN p) = true → s.adOverdue t p = true →
    (s.port t p).lateRaised = false → Does (.aditFrameLate t p) s fun r =>
      r.evtStat t 68 = true ∧ r.port t p = { s.port t p with lateRaised := true } ∧ r.WordsButEvents s []) ∧
  (∀ (t p : Nat) (h : FrameHdr) (l : List (FrameHdr × List Nat)) (f : AdFrame) (s : State), s.live t 1 = true → p < 4 →
    smGet s.adit.records (tk t p) [] = (h, s.sgGeometry t p) :: l → s.on t (AD_CTL_EN p) = true → s.stale t p = false →
    s.stale t (21 + p) = false → (s.port t p).frame = some f → f.started = true → f.recorded = false → (s.port t p).quiet = false →
    (s.aOn t (AD_FMT_CNT_MODE p) = true ∨ f.hdr.cnt = h.cnt) → s.adN t p ≠ 0 →
    Does (.sgFrameStartRecord t p) s fun r =>
      smGet r.adit.records (tk t p) [] = l ∧ r.f t (AD_PSTAT_STATE p) = 2 ∧
      ∃ g, (r.port t p).frame = some g ∧ g.recorded = true ∧ g.hdr.cnt = h.cnt ∧ g.hdr.n = h.n ∧ g.hdr.tick = h.tick ∧ g.status = f.status) ∧
  (∀ (t p : Nat) (x : LineReport) (l : List LineReport) (s : State), s.live t 1 = true → p < 4 →
    smGet s.adit.reports (tk t p) [] = x :: l → s.sgReady t p x = true →
    let mine := (smGet s.adit.leadLines (tk t p) []).find? fun y => y.1 = x.pos
    (((s.port t p).lastCnt = some x.cnt → ∃ tm, mine = some (x.pos, x.line, tm) ∧ (x.tick - tm) * 10 ≤ s.a t (AD_SG_SKEW_SKEW p) * 8) →
      Does (.sgLineReport t p) s fun r => smGet r.adit.reports (tk t p) [] = l ∧ r = { s with adit.reports := r.adit.reports }) ∧
    (∀ ln tm f, (s.port t p).lastCnt = some x.cnt → mine = some (x.pos, ln, tm) → ln ≠ x.line → (s.port x.tile p).frame = some f →
      Does (.sgLineReport t p) s fun r => smGet r.adit.reports (tk t p) [] = l ∧
        ∃ g, (r.port x.tile p).frame = some g ∧ bit g.status stSgMismatch = true)) ∧
  (∀ (t p : Nat) (f : AdFrame) (s : State), s.live t 1 = true → p < 4 → (s.port t p).closing = some f → f.combined = true →
    s.adLead t p = false → s.Routed (s.a t (AD_SG_LEAD p)) t → s.a t (AD_EMB_SLOT_SLOT p) = 0 → Does (.sgFrameStatus t p) s fun r =>
      (r.port t p).frame = none ∧ (r.port t p).closing = none ∧ r.evtStat t (64 + p) = true) ∧
  (∀ (t p : Nat) (x : RawPiece) (l : List RawPiece) (s : State), s.live t 1 = true → p < 4 → smGet s.adit.pieces (tk t p) [] = x :: l →
    s.stale t p = false → s.on t (AD_CTL_EN p) = true →
    let takes := fun (q : AdPort) => Does (.sgRawReceive t p) s fun r =>
      smGet r.adit.pieces (tk t p) [] = l ∧ r.port t p = q ∧ r.regs = s.regs
    let q := s.port t p
    (∀ f, q.frame = some f → f.hdr.cnt = x.cnt → f.recorded = false → takes { q with asm := asmAdd x.row x.cols q.asm }) ∧
    ((∀ f, q.frame = some f → f.hdr.cnt ≠ x.cnt) → q.gone ≠ some x.cnt → takes { q with early := q.early ++ [x] }) ∧
    ((∀ f, q.frame = some f → f.hdr.cnt ≠ x.cnt) → q.gone = some x.cnt → takes q))

/-- Sensor control (R179, R180). -/
def Obligations.SensorControlCommandsComplete : Prop :=
  ∀ (t p : Nat) (s : State), s.live t 1 = true → p < 4 →
    (∀ v, s.on t (SPI_STAT_BUSY p) = false → 1 ≤ bits v 0 7 → bits v 0 7 ≤ 64 → Does (.spiStart t p v) s fun r =>
      r.on t (SPI_STAT_BUSY p) = true ∧ r.f t (SPI_CMD_LEN p) = bits v 0 7 ∧ r.f t (SPI_CMD_CS p) = bits v 7 1 ∧ s.OnlyRegs r ∧
      r.WordsBut s [(t, SPI_CMD p), (t, SPI_STAT p)]) ∧
    (∀ v, s.on t (SPI_STAT_BUSY p) = true → Does (.spiStart t p v) s fun r => r = s) ∧
    (∀ rx, s.on t (SPI_STAT_BUSY p) = true → (s.spiQ t p).rx.length + rx.length ≤ 64 → rx.length = s.f t (SPI_CMD_LEN p) →
      (∀ b ∈ rx, b < 256) → Does (.spiDone t p rx) s fun r =>
        r.on t (SPI_STAT_BUSY p) = false ∧ r.on t (SPI_STAT_DONE p) = true ∧ r.evtStat t 82 = true ∧
        r.spiQ t p = { tx := (s.spiQ t p).tx.drop rx.length, rx := (s.spiQ t p).rx ++ rx } ∧ r.WordsButEvents s [(t, SPI_STAT p)]) ∧
    (∀ v, s.on t (I2C_STAT_BUSY p) = false → bits v 8 7 ≤ 64 → bits v 16 7 ≤ 64 → Does (.i2cStart t p v) s fun r =>
      r.on t (I2C_STAT_BUSY p) = true ∧ r.f t (I2C_CMD_ADDR p) = bits v 0 7 ∧ r.f t (I2C_CMD_WLEN p) = bits v 8 7 ∧
      r.f t (I2C_CMD_RLEN p) = bits v 16 7 ∧ s.OnlyRegs { r with time := s.time } ∧ r.WordsBut s [(t, I2C_CMD p), (t, I2C_STAT p)]) ∧
    (∀ n rx, s.on t (I2C_STAT_BUSY p) = true → (s.i2cQ t p).rx.length + rx.length ≤ 64 → rx.length = s.f t (I2C_CMD_RLEN p) →
      (∀ b ∈ rx, b < 256) → Does (.i2cDone t p false n rx) s fun r =>
        r.on t (I2C_STAT_BUSY p) = false ∧ r.on t (I2C_STAT_DONE p) = true ∧ r.evtStat t 83 = true ∧
        r.i2cQ t p = { tx := (s.i2cQ t p).tx.drop (s.f t (I2C_CMD_WLEN p)), rx := (s.i2cQ t p).rx ++ rx } ∧
        r.WordsButEvents s [(t, I2C_STAT p)]) ∧
    (∀ n rx, s.on t (I2C_STAT_BUSY p) = true → Does (.i2cDone t p true n rx) s fun r =>
      r.on t (I2C_STAT_BUSY p) = false ∧ r.on t (I2C_STAT_NACK p) = true ∧ r.evtStat t 84 = true ∧ (r.i2cQ t p).rx = (s.i2cQ t p).rx ∧
      r.WordsButEvents s [(t, I2C_STAT p)]) ∧
    (s.periodDue 10 (4 * t + p) (10000 * usTicks) = false → Does (.i2cTimeout t p) s (· = s)) ∧
    (s.on t (I2C_STAT_BUSY p) = true → s.periodDue 10 (4 * t + p) (10000 * usTicks) = true → Does (.i2cTimeout t p) s fun r =>
      r.on t (I2C_STAT_BUSY p) = false ∧ r.on t (I2C_STAT_TIMEOUT p) = true ∧ r.evtStat t 84 = true ∧ r.adit = s.adit ∧
      r.WordsButEvents s [(t, I2C_STAT p)])

/-- Raw correction and table writes (R22, R39, R183 to R187, R205, R206). -/
def Obligations.RawcCommandsComplete : Prop :=
  (∀ (t k : Nat) (s : State), s.live t 1 = true → k < 4 →
    let c := s.raw t k
    let rest := fun (l : List Item) (r : State) => smGet r.pix.rawIn (tk t k) [] = l
    (∀ f l, c.frame = none → smGet s.pix.rawIn (tk t k) [] = .openF f :: l → s.stale t 4 = false → Does (.rawcRow t k) s fun r =>
      rest l r ∧ (r.raw t k).rows = 0 ∧ (r.raw t k).next = 0 ∧ (r.raw t k).closed = none ∧
      ∃ g, (r.raw t k).frame = some g ∧ g.cnt = f.cnt ∧ g.src = f.src ∧ g.w = f.w ∧ g.h = f.h ∧ g.stripe = f.stripe) ∧
    (∀ f y px held l, c.frame = some f → c.closed = none → c.next = c.rows → s.aOn t (RC_CFG_CLAMP_EN k) = false →
      smGet s.pix.rawIn (tk t k) [] = .row y px held :: l → Does (.rawcRow t k) s fun r =>
        rest l r ∧ (r.raw t k).rows = y + 1 ∧ (r.raw t k).next = c.next ∧
        (r.raw t k).x1 = c.x1 ++ [(y, (px.zip (List.range px.length)).map fun z =>
          (clampI 0 0xFFFFF ((z.1 % 0x100000 : Nat) - 16 * s.rcOfs t k (cfaPhase f.cfa y (f.x0 + z.2)) + f.ped)).toNat + z.1 / 0x100000 * 0x100000)]) ∧
    (∀ f st, c.frame = some f → c.closed = some st → c.next = c.rows → s.aOn t (RC_CFG_CLAMP_EN k) = false →
      smGet s.pix.rawIn (tk t k) [] = [] → Does (.rawcRow t k) s fun r =>
        (r.raw t k).frame = none ∧ r.reg t (RC_FCNT k) = f.cnt % 2 ^ 32 ∧ r.reg t (RC_LOST k) = c.lost % 2 ^ 32 ∧
        r.reg t (RC_CRC k) = c.crc % 2 ^ 32 ∧ r.reg t (RC_POISON k) = c.poison % 2 ^ 32 ∧ r.reg t (RC_STATIC k) = c.stat % 2 ^ 32 ∧
        r.reg t (RC_DYN k) = c.dyn % 2 ^ 32 ∧ r.reg t (RC_UNREP k) = c.unrep % 2 ^ 32 ∧ (c.unrep ≠ 0 → r.evtStat t 96 = true)) ∧
    (∀ m l, smGet s.pix.obOut (tk t k) [] = m :: l → Does (.obSumsReceive t k) s fun r =>
      r = { s with pix.obOut := r.pix.obOut, pix.raw := r.pix.raw } ∧ smGet r.pix.obOut (tk t k) [] = l ∧
      r.raw t k = { c with obIn := c.obIn ++ [m] }) ∧
    (∀ point side h l, 1 ≤ point → point ≤ 3 → side < 2 → smGet s.pix.haloOut (hkey t point k side) [] = h :: l →
      Does (.haloReceive t point k side) s fun r =>
        r = { s with pix.haloOut := r.pix.haloOut, pix.haloIn := r.pix.haloIn } ∧ smGet r.pix.haloOut (hkey t point k side) [] = l ∧
        smGet r.pix.haloIn (hkey t point k side) [] =
          ((smGet s.pix.haloIn (hkey t point k side) []).filter fun x => s.haloUsed t point k || x.cnt = h.cnt) ++ [h])) ∧
  (∀ (k : Nat) (p : RawStats) (l : List RawStats) (s : State), s.live 0 1 = true → k < 4 → s.pix.diffOver = [] →
    smGet s.pix.partials k [] = p :: l → smGet s.pix.combine k ([], {}) = ([], {}) →
    ((∃ u ∈ s.runOf k, u ≠ p.tile ∧ s.stale u 4 = false) → Does (.statsPartialReceive k) s fun r =>
      smGet r.pix.partials k [] = l ∧ smGet r.pix.combine k ([], {}) = ([p.tile], p) ∧ r.regs = s.regs) ∧
    ((∀ u ∈ s.runOf k, u = p.tile ∨ s.stale u 4 = true) → p.diffOk = false → Does (.statsPartialReceive k) s fun r =>
      smGet r.pix.partials k [] = l ∧ smGet r.pix.combine k ([], {}) = ([], {}) ∧ r.reg 0 (RC_DIFF_LO k) = p.d % 2 ^ 32 ∧
      r.reg 0 (RC_DIFF_HI k) = p.d / 2 ^ 32 % 2 ^ 32 ∧ r.on 0 (RC_FFLAGS_DIFF_VALID k) = false ∧ r.evtStat 0 102 = true)) ∧
  (∀ (t off v b at_ : Nat) (s : State), s.live t 1 = true → off % 4 = 0 → s.tableAt t off = some (b, at_) →
    let stored := s.bankInUse t b = false
    let holds := fun (r : State) => r.tbl t at_ = v % 2 ^ 32 ∧ r.bankWritten t b = true ∧ r.WordsButEvents s [(t, SRAM_INJ)]
    let live := s.bankInUse t b = true
    let only := fun (r : State) => s.OnlyEvents r ∧ r.evtStat t 302 = true
    (0x400000 ≤ off → off < 0x700000 → (stored → Does (.rawcTableWrite t off v) s holds) ∧ (live → Does (.rawcTableWrite t off v) s only)) ∧
    (0x700000 ≤ off → off < 0x800000 → (stored → Does (.devTableWrite t off v) s holds) ∧ (live → Does (.devTableWrite t off v) s only)) ∧
    (0xD0000 ≤ off → off < 0xD4000 → (stored → Does (.coefTableWrite t off v) s holds) ∧ (live → Does (.coefTableWrite t off v) s only))) ∧
  (∀ (t off v : Nat) (s : State), s.tableAt t off = none →
    Does (.rawcTableWrite t off v) s (· = s) ∧ Does (.devTableWrite t off v) s (· = s) ∧ Does (.coefTableWrite t off v) s (· = s))

/-- Develop and outputs (R210, R227, R228, R231, R237, R238, R242, R248, R250). -/
def Obligations.DevelopAndOutputCommandsComplete : Prop :=
  (∀ (t n : Nat) (s : State), s.live t 1 = true → n < 2 →
    let c := s.dev t n
    (∀ f l, c.frame = none → smGet s.pix.x2 (tk t n) [] = .openF f :: l → s.stale t (5 + n) = false → (s.unit t (5 + n)).waits = [] →
      s.a t (DV_CFG_SRC n) = f.src → f.sw ≠ 0 → Does (.devRow t n) s fun r =>
        smGet r.pix.x2 (tk t n) [] = l ∧
        ∃ st, r.dev t n = { frame := some { f with fmt := s.reg t (DV_CFG n + 0x8000) }, status := st } ∧
          (¬(s.aOn t (DV_CFG_TONE_EN n) ∧ s.on t (DV_STAT_TONE_TFAULT n)) → ¬(s.aOn t (DV_CFG_LUT_EN n) ∧ s.on t (DV_STAT_LUT_TFAULT n)) → st = 0)) ∧
    (∀ f y px held l, c.frame = some f → c.closed = none → c.next = c.rows → c.nextOut = c.next →
      smGet s.pix.x2 (tk t n) [] = .row y px held :: l → Does (.devRow t n) s fun r =>
        r = { s with pix.x2 := r.pix.x2, pix.dev := r.pix.dev } ∧ smGet r.pix.x2 (tk t n) [] = l ∧
        r.dev t n = { c with x2 := c.x2 ++ [(y, px)], rows := y + 1 }) ∧
    (∀ f st, c.frame = some f → c.closed = some st → c.next = c.rows → c.nextOut = c.next → smGet s.pix.x2 (tk t n) [] = [] →
      Does (.devRow t n) s fun r =>
        r.dev t n = {} ∧ r.reg t (DV_FCNT n) = f.cnt % 2 ^ 32 ∧ r.reg t (DV_CLIPS n) = c.clips % 2 ^ 32 ∧ r.evtStat t (107 + n) = true ∧
        (c.clips ≠ 0 → r.evtStat t 106 = true))) ∧
  (∀ (t c : Nat) (s : State), s.live t 1 = true → c < 4 →
    let x := s.out t c
    (∀ f l, x.frame = none → smGet s.pix.x3 (tk t c) [] = .openF f :: l → s.stale t (7 + c) = false → (s.unit t (7 + c)).waits = [] →
      s.bench.exchanged = [] → s.aOn t (OC_CFG_ON c) = true → f.cnt % (s.a t (OC_CFG_DECIM c) + 1) = 0 → Does (.outRow t c) s fun r =>
        let y := r.out t c
        let bad := s.aOn t (OC_CFG_SCALE_EN c) ∧ s.on t (OC_STAT_COEF_TFAULT c)
        smGet r.pix.x3 (tk t c) [] = l ∧
        ((s.out (s.outHome t c) c).announced f = true ∨ (s.bench.txns = [] ∧ ∀ v u, (s.unit v u).solo = false) → r.regs = s.regs ∧
          y = { x with
            frame := some f, status := y.status, x3 := [], rows := 0, next := 0, closed := none, haloLate := false, lates := [], coefCut := false
            points := y.points, pointed := y.pointed } ∧
          (¬ bad → y.status = f.status))) ∧
    (∀ f y d l, x.frame = some f → x.closed = none → x.rows = 0 → smGet s.pix.x3 (tk t c) [] = .row y d :: l → Does (.outRow t c) s fun r =>
      r = { s with pix.x3 := r.pix.x3, pix.out := r.pix.out } ∧ smGet r.pix.x3 (tk t c) [] = l ∧
      r.out t c = { x with x3 := x.x3 ++ [(y, d)], rows := y + 1 }) ∧
    (∀ m l, x.asm = none → smGet s.pix.ranges (tk t c) [] = m :: l → s.stale t (7 + c) = false → x.late m = false →
      m.row ≠ 0 → m.last = false → m.src ∈ s.asmTiles t c m.hdr → Does (.asmRangeReceive t c) s fun r =>
        smGet r.pix.ranges (tk t c) [] = l ∧ (m.crc ≠ s.benchCrc t c → r.evtStat t 116 = true) ∧
        ∃ a, (r.out t c).asm = some a ∧ a.hdr = m.hdr ∧ smGet a.rows m.row [] = [m] ∧ a.next = 0 ∧
          a.mismatch = decide (m.crc ≠ s.benchCrc t c) ∧ smLook a.first m.row = some s.now) ∧
    (∀ m l, x.asm = none → smGet s.pix.ranges (tk t c) [] = m :: l → x.late m = true → Does (.asmRangeReceive t c) s fun r =>
      r = { s with pix.ranges := r.pix.ranges } ∧ smGet r.pix.ranges (tk t c) [] = l) ∧
    (∀ a, x.asm = some a → s.asmDue t c a = true → Does (.asmTimeout t c) s fun r =>
      (∀ b, (r.out t c).asm = some b → a.next < b.next) ∧
      ((a.rows.any fun w => decide (a.next ≤ w.1)) = false → s.asmSlot t c a = false → (r.out t c).asm = none ∧ (r.out t c).open_ = none)) ∧
    (s.sdiOut t c = true → s.outDirect t c = false → s.stale t (7 + c) = false → x.rasterRow < s.a t (OC_PLACE_PY c) →
      x.rasterRow + 1 < (sdiRaster (s.a t (OC_SDI_FORMAT c)) (s.aOn t (OC_SDI_WIDE c))).2 → Does (.sdiSlotOpen t c) s fun r =>
        r = { s with pix.out := r.pix.out, pins := r.pins } ∧
        r.out t c = { x with pid := s.sdiPid t c, laneRow := s.sdiLine t c {}, rasterRow := x.rasterRow + 1 } ∧
        ∀ l ∈ s.sdiLanes t c, (r.pin t l).sdi = sdiCode ((Config.laneBits t l s.now).toNat % 1024) (s.sdiLine t c {}).sdiWords) ∧
    (∀ z, s.sdiOut t c = true → s.outDirect t c = false → s.stale t (7 + c) = false → x.ready.getLast? = some z →
      badFrame z.2.2 = false → Does (.sdiRasterFrameStart t c) s fun r =>
        (r.out t c).outFrame = nextFrame x.outFrame ∧ (r.out t c).sending = some z ∧ (r.out t c).lastSent = some z ∧ (r.out t c).ready = [] ∧ (r.out t c).rasterRow = 0 ∧
        r.reg t (OC_OFCNT c) = nextFrame x.outFrame % 2 ^ 32 ∧ r.reg t (OC_IFCNT c) = z.2.1.cnt % 2 ^ 32 ∧
        (r.reg t (OC_FSTAT c) = z.2.2 % 2 ^ 32 ∨ r.reg t (OC_FSTAT c) = orBit z.2.2 stDamagedData % 2 ^ 32) ∧
        (x.audBad = false → r.aOn t (OC_AUDIO_AUD_EN c) = false → r.reg t (OC_FSTAT c) = z.2.2 % 2 ^ 32) ∧ r.evtStat t (109 + c) = true))

/-- Prediction, residuals, restart rows, code word widths, RAW slabs (R254, R255, R257, R261). -/
def Obligations.CrusherCodingRules : Prop :=
  (∀ (b x : Nat) (pred : Int), 0 < b → x < 2 ^ b → residual b pred x < 2 ^ b ∧ restore b pred (residual b pred x) = x) ∧
  (∀ y d rst : Nat, restartRow y d rst = true ↔ y < d ∨ (rst ≠ 0 ∧ y % rst < d)) ∧
  (∀ w a b c : Nat,
    predict true w (some a) b (some c) = a ∧ predict true w none b none = 2 ^ (w - 1) ∧ predict false w none b none = b ∧
    (max a b ≤ c → predict false w (some a) b (some c) = min a b) ∧
    (c < max a b → c ≤ min a b → predict false w (some a) b (some c) = max a b) ∧
    (min a b < c → c < max a b → predict false w (some a) b (some c) = (a : Int) + b - c)) ∧
  (∀ k, 1 ≤ k → codeWidth k = if k ≤ 255 then 9 else if k ≤ 767 then 10 else if k ≤ 1791 then 11 else 12) ∧
  (∀ j : SlabJob,
    ((codeSlab j).damaged = true ↔ ∃ v ∈ j.px, bit (sflags v) 2 = true) ∧
    ((codeSlab j).raw = false → wordBits (codeSlab j).words < j.px.length * j.b) ∧
    ((codeSlab j).raw = true → (codeSlab j).words = j.px.map fun v => (sval v % 2 ^ j.b, j.b)))

/-- Crusher streams (R253, R261 to R269). -/
def Obligations.CrusherStreamCommandsComplete : Prop :=
  ∀ (t k : Nat) (s : State), s.live t 4 = true → k < 4 →
    let c := s.crs t k
    let stat := [(t, CS_STAT k), (t, CS_INLVL k)]
    let calm := s.bench.exchanged = [] ∧ ∀ g ∈ c.frames, g.closed = false
    let only := fun (r : State) => r = { s with regs := r.regs, store.streams := r.store.streams, pix.tap := r.pix.tap } ∧
      (∀ q, q < 4 → q ≠ k → r.crs t q = s.crs t q) ∧ r.WordsBut s stat
    (∀ f l, smGet s.pix.tap (tk t k) [] = .openF f :: l → calm → s.stale t 11 = false → (s.unit t 11).waits = [] →
      s.aOn t (CS_CFG_EN k) = true → s.f t (CS_STAT_STATE k) = 1 → c.dropping = false → Does (.crushRowIn t k) s fun r =>
        (r.crs t k).taking = some c.nextFid ∧ (r.crs t k).frames.map (·.fid) = c.frames.map (·.fid) ++ [c.nextFid] ∧
        ((r.crs t k).frames.getLast?).map (fun x => (x.hdr, x.b, x.d, x.slabW, x.rst)) =
          some (f, f.tapBits, f.tapPitch, s.a t (CS_CFG_SLAB_W k), s.a t (CS_RST_RST_ROWS k)) ∧
        ((r.crs t k).frames.getLast?).map (fun x => (x.closeAt, x.ring)) =
          some (s.aOn t (CS_CFG_CLOSE_AT_FRAME k), (s.a64 t (CS_FREC_LO k), s.a t (CS_FREC_N_NREC k))) ∧
        smGet r.pix.tap (tk t k) [] = l ∧ r.secBusy t 11 k = true ∧ r.WordsBut s stat) ∧
    (∀ y px fl l fid, smGet s.pix.tap (tk t k) [] = .row y px fl :: l → calm → s.on t SRAM_INJ_ARMED = false → c.taking = some fid →
      let f := s.crFrame t k fid
      f.ended = false →
      (s.inqBytes t k + 2 * px.length + 64 ≤ s.a t (CS_INQ_QUOTA k) * 1024 → Does (.crushRowIn t k) s fun r =>
        let js := slabRow f c.nextSeq y px (((c.prev.find? (·.1 + f.d = y)).map (·.2)).getD [])
        (r.crs t k).jobs = c.jobs ++ js ∧ (r.crs t k).nextSeq = c.nextSeq + js.length ∧ (r.crs t k).prev = (y, px) :: c.prev.take 1 ∧
        (r.crs t k).lanes = c.lanes ∧ (r.crs t k).w = c.w ∧ smGet r.pix.tap (tk t k) [] = l ∧ only r) ∧
      (s.a t (CS_INQ_QUOTA k) * 1024 < s.inqBytes t k + 2 * px.length + 64 → Does (.crushRowIn t k) s fun r =>
        (r.crs t k).jobs = c.jobs ∧ (r.crs t k).dropping = true ∧ r.on t (CS_STAT_DROP k) = true ∧ r.evtStat t 130 = true ∧
        (∀ g ∈ (r.crs t k).frames, g.fid = fid → g.ended = true ∧ g.trunc = true) ∧ r.WordsButEvents s stat)) ∧
    (∀ st l fid, smGet s.pix.tap (tk t k) [] = .closeF st :: l → calm → (s.unit t 11).waits = [] → c.taking = some fid →
      c.slabs.any (·.fid = fid) = true → Does (.crushRowIn t k) s fun r =>
        r.crs t k = { c with
          taking := none, frames := c.frames.map fun g => if g.fid = fid then { g with ended := true, closed := true, status := st ||| g.status } else g } ∧
        smGet r.pix.tap (tk t k) [] = l ∧ r.secBusy t 11 k = false ∧ r.WordsBut s stat) ∧
    (∀ j l, c.jobs = j :: l → c.lanes.length + c.done.length + b2n c.hand.isSome < s.a t (CS_CFG_LANES k) →
      s.lanesHeld t + s.jobLanes t < crLanes → Does (.crushSlabStart t k) s fun r => r.crs t k = { c with jobs := l, lanes := c.lanes ++ [j] } ∧ only r) ∧
    (∀ n j, c.lanes[n]? = some j → (codeSlab j).damaged = false → Does (.crushSlabDone t k n) s fun r =>
      r.crs t k = { c with lanes := c.lanes.eraseIdx n, done := c.done ++ [codeSlab j] } ∧ only r ∧ r.regs = s.regs) ∧
    (∀ n j, c.lanes[n]? = some j → (codeSlab j).damaged = true → (s.crFrame t k j.fid).damaged = false →
      Does (.crushSlabDone t k n) s fun r =>
        (r.crs t k).done = c.done ++ [codeSlab j] ∧ (r.crs t k).lanes = c.lanes.eraseIdx n ∧ r.evtStat t 131 = true ∧
        (∀ g ∈ (r.crs t k).frames, g.fid = j.fid → g.damaged = true) ∧ r.WordsButEvents s []) ∧
    (∀ x last, s.f t (CS_STAT_STATE k) = 1 → s.aOn t (CS_CFG_EN k) = true → (∀ g ∈ c.frames, g.closed = false) →
      c.jobs = [] → c.lanes = [] → c.hand = none → c.done = [x] → slabLast (s.crFrame t k x.job.fid) x.job = some last →
      (s.crFrame t k x.job.fid).lost = false → (last && (s.crFrame t k x.job.fid).closeAt) = false → c.w.inBuf = true → c.w.own = false → c.w.bitPos % 64 = 0 → c.w.addr % 8 = 0 →
      c.w.len % 8 = 0 → oneWindow t c.w.addr c.w.len → c.w.bitPos + 64 + wordBits x.words ≤ c.w.len * 8 → Does (.crushSlabPlace t k) s fun r =>
        let next := (c.w.bitPos + 64 + wordBits x.words + 63) / 64 * 64
        (r.crs t k).done = [] ∧ (r.crs t k).hand = none ∧
        (r.crs t k).w = { c.w with
          bitPos := next, poison := c.w.poison || x.damaged
          first := if c.w.first.isSome then c.w.first else some (c.w.bitPos / 64, (s.crFrame t k x.job.fid).hdr.cnt, x.job.row) } ∧
        r.BytesBut s t (c.w.addr + c.w.bitPos / 8) ((next - c.w.bitPos) / 8) ∧
        (s.dramOk t (c.w.addr + c.w.bitPos / 8) 8 = true → (∀ u a, s.failedAt u a = false) →
          (let a := dramAt t (c.w.addr + c.w.bitPos / 8); r.dbytes a.1 a.2 8) = x.header last)) ∧
    (∀ x last, s.f t (CS_STAT_STATE k) = 1 → s.aOn t (CS_CFG_EN k) = true → (∀ g ∈ c.frames, g.closed = false) →
      c.jobs = [] → c.lanes = [] → c.hand = none → c.done = [x] → slabLast (s.crFrame t k x.job.fid) x.job = some last →
      (s.crFrame t k x.job.fid).lost = true → (last && (s.crFrame t k x.job.fid).closeAt) = false → Does (.crushSlabPlace t k) s fun r =>
        r.crs t k = { c with done := [] } ∧ only r) ∧
    (c.chains.length < 4 → s.rawRec t k = false → Does (.crushAppend t k) s fun r =>
      r.crs t k = { c with chains := c.chains ++ [(s.reg64 t (CS_APPEND_LO k), s.f t (CS_APPEND_N_COUNT k))] } ∧
      r.f t (CS_STAT_QUEUED k) = c.chains.length + 1 ∧ only r) ∧
    (4 ≤ c.chains.length → Does (.crushAppend t k) s fun r => r.on t (CS_STAT_CMD_ERR k) = true ∧ s.OnlyRegs r ∧ r.WordsBut s stat) ∧
    (s.f t (CS_STAT_STATE k) = 2 → c.chains ≠ [] → c.hand = none → Does (.crushResume t k) s fun r =>
      r.f t (CS_STAT_STATE k) = 1 ∧ r.crs t k = { c with w := { c.w with haveChain := false } } ∧ only r) ∧
    (s.f t (CS_STAT_STATE k) ≠ 2 → Does (.crushResume t k) s fun r =>
      r.on t (CS_STAT_CMD_ERR k) = true ∧ r.f t (CS_STAT_STATE k) = s.f t (CS_STAT_STATE k) ∧ s.OnlyRegs r ∧ r.WordsBut s stat) ∧
    (s.f t (CS_STAT_STATE k) = 2 → c.hand = none → s.aOn t (CS_CFG_EN k) = true → (∀ g ∈ c.frames, g.closed = false) →
      Does (.crushCancel t k) s fun r =>
        r.f t (CS_STAT_STATE k) = 3 ∧
        r.crs t k = { c with
          jobs := [], lanes := [], done := [], prev := [], frames := c.frames.map fun f => { f with dropped := true, ended := true } } ∧ only r)

/-- Crusher jobs (R266, R271 to R273). -/
def Obligations.CrusherJobCommandsComplete : Prop :=
  ∀ (t j : Nat) (s : State), s.live t 4 = true → j < 4 →
    let st := s.f t (CJ_STAT_STATE j)
    let job : ArbJob := { kind := 5, tile := t, idx := j, tiles := 1, arrived := s.now, resume := false }
    let left := s.pwr.jobs.filter fun x => !x.is 5 t j
    (st ∉ [1, 2, 6] → s.arbFind 5 t j = none → s.f t (CJ_CTL_BITS j) ≤ 4 → s.arbHeld < 64 → Does (.crushJobStart t j) s fun r =>
      r = { s with pwr.jobs := s.pwr.jobs ++ [job] }) ∧
    (st = 1 → Does (.crushJobStart t j) s fun r => r = s) ∧
    (st = 1 → Does (.crushJobSuspend t j) s fun r =>
      r.f t (CJ_STAT_STATE j) = 2 ∧ r = { s with regs := r.regs, pwr.jobs := left } ∧ r.WordsBut s [(t, CJ_STAT j)]) ∧
    (st = 2 → s.arbFind 5 t j = none → s.arbHeld < 64 → Does (.crushJobResume t j) s fun r =>
      r = { s with pwr.jobs := s.pwr.jobs ++ [{ job with resume := true }] }) ∧
    (st = 6 → (s.crj t j).hand = none → (s.crj t j).resync = false → Does (.crushJobResume t j) s fun r =>
      r.f t (CJ_STAT_STATE j) = 1 ∧ r.WordsBut s [(t, CJ_STAT j)] ∧
      r.crj t j = { s.crj t j with
        desc := 0, bitPos := 0
        w := { base := s.reg64 t (CJ_CHAIN_LO j), count := s.f t (CJ_CHAIN_N_COUNT j), haveChain := true } }) ∧
    (st = 2 → (s.crj t j).hand = none → (s.crj t j).w.inBuf = false → Does (.crushJobCancel t j) s fun r =>
      r.f t (CJ_STAT_STATE j) = 4 ∧ r = { s with regs := r.regs, pwr.jobs := left } ∧ r.WordsBut s [(t, CJ_STAT j)]) ∧
    (st = 1 → s.f t (CJ_CTL_MODE j) ∈ [1, 2] → s.f t (CJ_GEOM_W j) ≠ 0 → s.f t (CJ_GEOM_H j) ≠ 0 → s.f t (CJ_NFRM_FRAMES j) ≠ 0 →
      s.lanesHeld t < crLanes →
      (s.f t (CJ_CHAIN_N_COUNT j) ≤ (s.crj t j).desc → Does (.crushDecodeSlab t j) s fun r =>
        r.f t (CJ_STAT_STATE j) = 6 ∧ s.OnlyRegs r ∧ r.WordsBut s [(t, CJ_STAT j)]) ∧
      (∀ (s1 s2 s3 : State) (addr : Nat) (de : Nat × Nat × Nat × Nat) (hb : List Nat) (pay : Nat),
        let x := s1.crj t j
        let y := s3.crj t j
        let v := leNum hb
        let n := bits v 12 13
        let b := s1.cjB t j
        let d := s1.cjD t j
        s.cjHeader t j 257 = (s1, some (addr, de)) → s1.rdAt t (addr + x.bitPos / 8) 8 5 = (s2, hb, false) →
        bit v 0 = true → bit v 1 = false → bits v 5 3 = 0 → bits v 42 6 = 0 → bits v 8 3 = bitsCode b → bit v 11 = (d == 1) →
        n ≠ 0 → x.col + n < s.f t (CJ_GEOM_W j) → bits v 25 17 = n * b →
        (s2.setCrj t j { x with bitPos := x.bitPos + 64 }).cjGather t j 257 (bits v 25 17) 0 0 false = (s3, pay, false, false) →
        crc16 (hb.take 6 ++ leBytes ((bits v 25 17 + 7) / 8) pay) = bits v 48 16 →
        bit v 3 = (x.row == 0 && x.col == 0) → bit v 4 = false →
        restartRow x.row d (s3.f t (CJ_SLAB_RST_ROWS j)) = true → s3.f t (CJ_CTL_MODE j) = 2 → y.col + n < s3.f t (CJ_GEOM_W j) →
        Does (.crushDecodeSlab t j) s fun r =>
          r = { s3 with store.jobs := r.store.jobs } ∧
          r.crj t j = { y with
            col := y.col + n, slab := y.slab + 1, prev := smPut y.prev (cjKey x.row x.slab) (rawSamples b n pay) []
            failed := smPut y.failed (cjKey x.row x.slab) false false }))

/-- Recording (R276 to R282). -/
def Obligations.RecordingCommandsComplete : Prop :=
  ∀ (t : Nat) (s : State),
    (∀ k u l, s.live t 0 = true → k < 16 → smGet s.store.units (tk t k) [] = u :: l → s.f 0 (TK_STAT_STATE u.take) = 1 →
      let q := { s with store.units := smPut s.store.units (tk t k) l [] }
      let e := s.extBytes u.take
      let n := u.payload.length
      let needs := chunksLen e (chunkFuel n) (((s.openExtent t u.take).map fun x => e - x.len).getD e) n
      let counted := s.inTake t u = true ∧ s.on 0 (TK_STAT_FULL u.take) = false
      let bs := chunkBytes (s.take u.take).id k u.ty false false t u.cnt u.status u.n u.payload
      (s.inTake t u = false → Does (.recChunk t k) s fun r => r = q) ∧
      (∀ x, counted → s.openExtent t u.take = some x → u.ty = 0 ∨ 32 + (n + 7) / 8 * 8 ≤ q.stgRoom t →
        x.len + 64 + (n + 7) / 8 * 8 ≤ e → Does (.recChunk t k) s fun r =>
          let y := { x with
            len := x.len + bs.length, parts := x.parts ++ (q.stgPut t false bs).2
            frames := if x.frames.contains u.cnt then x.frames else u.cnt :: x.frames }
          r = { (q.stgPut t false bs).1 with store.extents := s.store.extents.map fun z => if z.take = x.take ∧ z.num = x.num then y else z }) ∧
      (∀ x, counted → s.openExtent t u.take = some x → u.ty ≠ 0 → q.stgRoom t < needs → q.stgHeld t true + 32 ≤ stgReserve → x.len + 64 ≤ e →
        Does (.recChunk t k) s fun r => r.f t (RS_STAT_GAPS k) = min (2 ^ 16 - 1) (s.f t (RS_STAT_GAPS k) + 1) ∧ r.evtStat t 143 = true) ∧
      (counted → u.ty ≠ 0 → q.stgRoom t < needs → stgReserve < q.stgHeld t true + 32 →
        Does (.recChunk t k) s fun r =>
          r.f t (RS_STAT_LOST k) = min (2 ^ 16 - 1) (s.f t (RS_STAT_LOST k) + 1) ∧ r.evtStat t 143 = true ∧
          r.store = q.store ∧ r.WordsButEvents s [(t, RS_STAT k)])) ∧
    (∀ k, s.live t 0 = true → k < 8 → (s.take k).flush = 0 → Does (.extentFlushTimeout t k) s fun r => r = s) ∧
    (∀ k e, s.live t 0 = true → k < 8 → s.openExtent t k = some e → (s.take k).flush ≠ 0 →
      e.since + (s.take k).flush * 1000 * usTicks ≤ s.now → Does (.extentFlushTimeout t k) s fun r =>
        (∃ y ∈ r.store.extents, y = { e with sent := true, issued := y.issued }) ∧
        ((∀ z ∈ s.store.extents, z.sent = false) → e.issued = false → s.isolated t = false → ∀ block g, s.extPlace k e.num = some (t, block) →
          s.magTag t = some g → ∃ m ∈ r.mag t, m.tag = g ∧ m.op = 2 ∧ m.who = k ∧ m.num = e.num ∧
            m.cap = ioCapsule 2 block (s.extBytes k / 4096) ∧ s.extBytes k ≤ m.data.length)) ∧
    (∀ (tag : Nat) (m : MagCmd) (st : Nat), s.live t 6 = true → s.live 0 0 = true →
      (s.mag t).find? (fun m => m.tag = tag && m.status.isSome && m.use ≤ 1) = some m → m.use = 0 → m.status = some st → m.who < 8 →
      s.f 0 (TK_STAT_STATE m.who) = 1 → (∀ e ∈ s.store.extents, e.sent = true → e.issued = true) → (∀ q, q < 8 → s.f 0 (TK_STAT_STATE q) ≠ 2) →
      let k := m.who
      (st = 0 → (∃ e ∈ s.store.extents, e.take = k ∧ e.num = m.num) → Does (.magResponse t tag) s fun r =>
        let done := m.num :: (s.take k).done
        let n := durable done done.length (s.f 0 (TK_DUR_EXTENTS k))
        r.f 0 (TK_DUR_EXTENTS k) = n % 2 ^ 32 ∧ r.take k = { s.take k with done := done.filter (n ≤ ·) } ∧
        r.store.extents = s.store.extents.filter (fun e => ¬(e.take = k ∧ e.num = m.num)) ∧
        r.mag t = (s.mag t).filter (·.tag ≠ tag) ∧
        r = { s with regs := r.regs, mags := r.mags, store.extents := r.store.extents, store.takes := r.store.takes } ∧
        r.WordsBut s [(0, TK_DUR k), (t, PL_QUEUE 1)]) ∧
      (st ≠ 0 → Does (.magResponse t tag) s fun r =>
        r.f 0 (TK_STAT_STATE k) = 4 ∧ r.f 0 (TK_STAT_CAUSE k) = st % 2 ^ 16 ∧ r.evtStat 0 142 = true ∧
        r.f 0 (TK_LOST_FRAMES k) =
          min (2 ^ 32 - 1) (s.f 0 (TK_LOST_FRAMES k) +
            (((s.store.extents.filter (·.take = k)).flatMap (·.frames) ++ (s.takeLeft k).map (·.cnt)).eraseDups).length) ∧
        r.store.extents = s.store.extents.filter (·.take ≠ k) ∧ (r.host.errLog.getLast?).map (·.kind) = some 3 ∧
        (∀ x ∈ r.mag t, x.tag ≠ tag) ∧ (∀ u ∈ s.tileList, ∀ x ∈ r.mag u, x.use ≤ 1 → x.who ≠ k) ∧
        r.WordsButEvents s ([(0, TK_STAT k), (0, TK_LOST k)] ++ s.tileList.map fun u => (u, PL_QUEUE 1))))

/-- The burst store (R284 to R290). -/
def Obligations.BurstStoreCommandsComplete : Prop :=
  ∀ (t : Nat) (s : State), s.live t 0 = true →
    let b := s.bur t
    let due := fun (c : Nat) (kind : Nat) (i : Instr) =>
      (s.burTiles = [] ∨ (s.f 0 BS_STAT_STATE ≠ 1 ∧ s.f 0 BS_STAT_STATE ≠ 2) → Does i s fun r =>
        r.f 0 BS_STAT_IGNORED = min (2 ^ 16 - 1) (s.f 0 BS_STAT_IGNORED + 1) ∧ r.evtStat 0 146 = true ∧ r.store = s.store ∧
        r.WordsButEvents s [(0, BS_STAT)]) ∧
      (∀ f : Nat × Nat × Nat, f.2.1 = c → s.burTiles = [0] → s.f 0 BS_STAT_STATE = 1 → (s.bur 0).frame.isSome = true →
        ((s.burFrames 0).filter fun g => atOrAfter s.burNow g.2.2) = [f] → (s.burFrames 0).find? (·.2.1 = c) = some f → Does i s fun r =>
          r.f 0 BS_STAT_STATE = 2 ∧ r.reg 0 BS_TFCNT = c % 2 ^ 32 ∧ r.reg64 0 BS_TTIME_LO = s.burNow % 2 ^ 64 ∧ r.evtStat 0 144 = true ∧
          r.bur 0 = { s.bur 0 with
            kind := kind, cmdTick := if kind = 0 then some s.now else none, notice := none, trig := some f.1
            stopAt := f.1 + s.a 0 BS_POST_POST, post := s.a 0 BS_POST_POST } ∧
          r.WordsButEvents s [(0, BS_STAT), (0, BS_TFCNT), (0, BS_TTIME_LO), (0, BS_TTIME_HI)])
    (∀ q f, q < 4 → (∀ p, p < 4 → p ≠ q → smGet s.pix.tap (tk t (16 + p)) [] = []) → b.frame = some f →
      (∀ y px fl, smGet s.pix.tap (tk t (16 + q)) [] = [.row y px fl] →
        let g := b.geo
        let at_ := g.base + b.stored % g.slots * g.bytes + y * g.rb
        s.overrunning t 1 f.src = false → px.length * g.bits ≤ g.rb * 8 → at_ % 8 = 0 → g.rb % 8 = 0 → oneWindow t at_ g.rb →
        Does (.burstFrameWrite t) s fun r =>
          r.bur t = { b with rows := max b.rows (y + 1) } ∧ smGet r.pix.tap (tk t (16 + q)) [] = [] ∧ r.BytesBut s t at_ g.rb) ∧
      (∀ y px fl, smGet s.pix.tap (tk t (16 + q)) [] = [.row y px fl] → s.overrunning t 1 f.src = true → Does (.burstFrameWrite t) s fun r =>
        r.bur t = { b with rows := max b.rows (y + 1) } ∧ smGet r.pix.tap (tk t (16 + q)) [] = [] ∧ r.writes = s.writes ∧ r.regs = s.regs) ∧
      (∀ st, smGet s.pix.tap (tk t (16 + q)) [] = [.closeF st] → s.f t BS_STAT_STATE = 1 → s.bench.exchanged = [] → (s.unit t 12).waits = [] →
        s.on t SRAM_INJ_ARMED = false → s.marking t 12 = false → Does (.burstFrameWrite t) s fun r =>
          let st := if s.overrunning t 1 f.src then orBit st stDamaged else st
          r.bur t = { b with
            index := smIns (b.stored % b.geo.slots) { ser := b.stored, cnt := f.cnt, status := st, n := f.n, rows := b.rows } b.index
            stored := b.stored + 1, frame := none, rows := 0 } ∧
          r.overrunning t 1 f.src = false ∧ r.reg t BS_FRAMES = min (2 ^ 32 - 1) (b.stored + 1) ∧ r.WordsBut s [(t, BS_FRAMES)] ∧ r.writes = s.writes)) ∧
    (∀ pin rising, s.live 0 0 = true → s.a 0 BS_TRIG_KIND = 1 → s.a 0 BS_TRIG_ARG % 16 = pin →
      s.aOn 0 BS_TRIG_EDGE = !rising → ∀ c, due c 1 (.burstTrigger pin rising)) ∧
    (s.live 0 0 = true → ∀ c, due c 0 .bsTrigger) ∧
    (b.notice = none → Does (.burstTriggerNotice t) s fun r => r = s) ∧
    (∀ cnt n, b.notice = some (cnt, n) → s.f t BS_STAT_STATE ≠ 1 → s.f t BS_STAT_STATE ≠ 2 ∨ b.stopped = true →
      Does (.burstTriggerNotice t) s fun r => r = { s with store.burst := r.store.burst } ∧ r.bur t = { b with notice := none }) ∧
    (∀ cnt n g, b.notice = some (cnt, n) → s.f t BS_STAT_STATE = 1 → b.frame.isSome = true →
      ((s.burFrames t).find? (·.2.1 = cnt)).orElse (fun _ => lastFrame ((s.burFrames t).filter fun f => atOrAfter n f.2.2)) = some g →
      Does (.burstTriggerNotice t) s fun r =>
        r.f t BS_STAT_STATE = 2 ∧
        r.bur t = { b with notice := none, trig := some g.1, stopAt := g.1 + s.a t BS_POST_POST, post := s.a t BS_POST_POST } ∧
        r.WordsBut s [(t, BS_STAT)]) ∧
    (s.f t BS_STAT_STATE ≠ 3 ∨ s.v1Busy = true → Does (.bsRelease t) s fun r =>
      r.on t BS_STAT_CMD_ERR = true ∧ s.OnlyRegs r ∧ r.WordsBut s [(t, BS_STAT)]) ∧
    (s.f t BS_STAT_STATE = 3 → s.v1Busy = false → Does (.bsRelease t) s fun r =>
      (∀ u ∈ s.tileList, s.f u BS_STAT_STATE = 3 → r.f u BS_STAT_STATE = 0 ∧ r.bur u = { armDue := s.aOn u BS_CFG_EN }) ∧
      (∀ u ∈ s.tileList, s.f u BS_STAT_STATE ≠ 3 → r.bur u = s.bur u) ∧
      r = { s with regs := r.regs, store.burst := r.store.burst } ∧ r.WordsBut s (s.tileList.map fun u => (u, BS_STAT)))

/-- HEVC encoder: input and commands (R296, R297, R306, R307, R309). -/
def Obligations.EncoderInputAndCommandsComplete : Prop :=
  ∀ (t c : Nat) (s : State), s.live t 2 = true → c < 4 →
    let x := s.enc t c
    let st := s.f t (HE_STAT_STATE c)
    let mem := s.aOn t (HE_CFG_INPUT c) = true
    let job : ArbJob := { kind := 6, tile := t, idx := c, tiles := (s.heMembers t c).length, arrived := s.now, resume := false }
    let left := s.pwr.jobs.filter fun j => !j.is 6 t c
    let only := fun (r : State) => r = { s with regs := r.regs, hevc := r.hevc, pwr.jobs := left } ∧ r.WordsBut s [(t, HE_STAT c)]
    let marks := (t :: s.heMembers t c).flatMap fun u => [(u, HE_MARKS c), (u, HE_STAT c)]
    (∀ f l, smGet s.hevc.encIn (tk t c) [] = .openF f :: l → s.stale t (13 + c) = false → (s.unit t (13 + c)).waits = [] →
      s.bench.exchanged = [] → s.heOn t c = true → s.aOn t (HE_CFG_INPUT c) = false → (∀ n, x.lastCnt = some n → f.cnt = (n + 1) % 2 ^ 32) →
      (∀ i, ((List.range 16).find? fun i => s.heMark t c i = 0) = some i → Does (.hevceInputRow t c) s fun r =>
        r.enc t c = { x with queue := x.queue ++ [{ hdr := f, buf := some i }], lastCnt := some f.cnt } ∧ r.heMark t c i = 1 ∧
        (∀ j, j < 16 → j ≠ i → r.heMark t c j = s.heMark t c j) ∧ r.f t (HE_STAT_STATE c) = 1 ∧ r.secBusy t (13 + c) 0 = true ∧
        smGet r.hevc.encIn (tk t c) [] = l ∧ r.WordsBut s marks) ∧
      ((∀ i, i < 16 → s.heMark t c i ≠ 0) → Does (.hevceInputRow t c) s fun r =>
        r.enc t c = { x with queue := x.queue ++ [{ hdr := f, rept := true, overrun := true }], lastCnt := some f.cnt } ∧
        r.evtStat t 166 = true ∧ r.f t (HE_STAT_STATE c) = 1 ∧ r.WordsButEvents s [(t, HE_STAT c)])) ∧
    (∀ y px l p, smGet s.hevc.encIn (tk t c) [] = .row y px :: l → x.queue.getLast? = some p → p.whole = false →
      (∀ u ∈ s.heMembers t c, s.Routed t u) → Does (.hevceInputRow t c) s fun r =>
        let q := { s with hevc.encIn := smPut s.hevc.encIn (tk t c) l [] }.setEnc t c { x with queue := x.queue.dropLast ++ [{ p with rows := max p.rows (y + 1) }] }
        r = match p.buf with
          | some b => q.heSource t c b y px
          | none => q) ∧
    (x.margins = [] → Does (.hevceMarginReceive t c) s fun r => r = s) ∧
    (∀ h m l, s.a t (HE_CFG_HOME c) = h → x.margins = m :: l → (s.enc h c).queue = [] → (s.enc h c).plan = [] →
      s.aOn h (HE_CFG_INPUT c) = false →
        Does (.hevceMarginReceive t c) s fun r =>
          r = (s.setEnc t c { x with margins := l, marginGot := smPut x.marginGot m.buf (smGet x.marginGot m.buf 0 + 1) 0 }).marginPut h c t m) ∧
    Does (.hevceForceIrap t c) s (fun r => r.enc t c = { x with forceIrap := true } ∧ r = { s with hevc := r.hevc }) ∧
    (mem → s.heOn t c = true → st ∉ [1, 2] → s.arbFind 6 t c = none → s.arbHeld < 64 → Does (.hevceStart t c) s fun r =>
      r = { s with pwr.jobs := s.pwr.jobs ++ [job] }) ∧
    (st ∈ [1, 2] → Does (.hevceStart t c) s fun r => r = s) ∧
    (mem → st = 1 → x.pics = [] → x.cancelDue = false → Does (.hevceSuspend t c) s fun r =>
      r.f t (HE_STAT_STATE c) = 2 ∧ r.enc t c = { x with suspendDue := false } ∧ only r) ∧
    (mem → st = 1 → x.pics ≠ [] → Does (.hevceSuspend t c) s fun r =>
      r.f t (HE_STAT_STATE c) = 1 ∧ r.enc t c = { x with suspendDue := true } ∧ only r) ∧
    (mem → st = 2 → s.arbFind 6 t c = none → s.arbHeld < 64 → Does (.hevceResume t c) s fun r =>
      r = { s with pwr.jobs := s.pwr.jobs ++ [{ job with resume := true }] }) ∧
    (mem → st = 1 → x.pics = [] → Does (.hevceCancel t c) s fun r =>
      r.f t (HE_STAT_STATE c) = 4 ∧ r.enc t c = { x with cancelDue := false, suspendDue := false } ∧ only r) ∧
    (mem → st = 1 → x.pics ≠ [] → Does (.hevceCancel t c) s fun r => r.enc t c = { x with cancelDue := true } ∧ r = { s with hevc := r.hevc }) ∧
    (mem → st = 2 → Does (.hevceCancel t c) s fun r => r.f t (HE_STAT_STATE c) = 4 ∧ r.enc t c = x ∧ only r)

/-- HEVC encoder: coding (R296, R299 to R304, R306, R308). What else H.265 asks of a unit is `auHeadOk` (PRESUMED, log 94). -/
def Obligations.EncoderCodingCommandsComplete : Prop :=
  ∀ (t c : Nat) (s : State), c < 4 →
    let h := s.a t (HE_CFG_HOME c)
    let e := s.enc h c
    let rests := e.queue = [] ∧ e.plan = [] ∧ s.aOn h (HE_CFG_INPUT c) = false
    (∀ cod, e.coding = some cod →
      let m := smGet cod.members t {}
      let put := fun (r : State) (m : EncMember) =>
        r.enc h c = { e with coding := some { cod with members := smPut cod.members t m {} } } ∧ r.WordsBut s [(t, HE_STAT c)] ∧
        r = { s with regs := r.regs, hevc := r.hevc }
      (∀ reg byp ter sad bytes reach x rs, s.live t 2 = true → s.heRows h c t = x :: rs → m.ctu + 1 < x.2.1 → m.stalled = false →
        s.stale t (13 + c) = false → s.on t SRAM_INJ_ARMED = false → reach ≤ s.a h (HE_ME_SR_X c) + 8 →
        (s.a t (HE_SUMP_QUOTA c) * 1024 < e.sump t + bytes → Does (.hevceCtu t c reg byp ter (sad, reach) bytes) s fun r =>
          put r { m with stalled := true } ∧ r.f t (HE_STAT_STALLS c) = min (2 ^ 11 - 1) (s.f t (HE_STAT_STALLS c) + 1)) ∧
        (e.sump t + bytes ≤ s.a t (HE_SUMP_QUOTA c) * 1024 → Does (.hevceCtu t c reg byp ter (sad, reach) bytes) s fun r =>
          let cls := heClass cod.plan.ty
          let cu := heCuBits cls
          let u := (3 * (6 * reg + byp + ter) + 1) / 2
          let cus := ctuCus (s.a h (HE_SIZE_W c)) (s.a h (HE_SIZE_H c)) (x.1 + m.ctu) x.2.2
          let fl := m.floored || decide (m.cap < m.ub + u + s.hePhi h c t m.ctu cu)
          let spent := if fl then cus * cu else u
          let col := (s.heCols 0 h c).findIdx fun y => y.1 = x.1
          let how := if fl then some (floorCode (s.aOn h (HE_CFG_SAO_EN c)) cls cus m.ctu x.2.2) else none
          ∃ q, put q { m with
              ub := m.ub + spent, ctu := m.ctu + 1, floored := fl, floorCtus := m.floorCtus + b2n fl
              pend := if m.lost then m.pend else m.pend ++ [{ bound := spent, bytes := bytes, col := col, floor := how }]
              qpSum := m.qpSum + (if fl then 51 else m.qp.toNat), sad := smPut m.sad 0 (smGet m.sad 0 0 + sad) 0 } ∧
            r = match cod.plan.pic.buf with
              | some b => if cod.plan.ref ∧ m.noPool = false then q.heRecon h c t b (x.1 + m.ctu) x.2.2 cod.plan.pic.hdr.d else q
              | none => q)) ∧
      (∀ reg byp ter sad bytes reach, s.live t 2 = true → m.ctu + 1 = s.heTotal h c t → m.stalled = false → s.stale t (13 + c) = false →
        reach ≤ s.a h (HE_ME_SR_X c) + 8 → e.sump t + bytes ≤ s.a t (HE_SUMP_QUOTA c) * 1024 → rests →
        (∀ u ∈ s.heMembers h c, u ≠ t → (smGet cod.members u {}).ctu = s.heTotal h c u) →
        Does (.hevceCtu t c reg byp ter (sad, reach) bytes) s fun r =>
          ∃ k l, (r.enc h c).leaving = e.leaving ++ [k] ∧ k.plan = cod.plan ∧ (smGet k.members t {}).ctu = s.heTotal h c t ∧
            l = min (if s.heCbr h c then (s.heB h c : Int) - 56 else s.heB h c) (cod.l - (s.heBound h c k : Nat) + s.heIn h c) ∧
            (r.enc h c).coding = none ∧ (r.enc h c).l = some l ∧ r.reg h (HE_LBOUND c) = ux 32 l ∧
            ∀ b, cod.plan.pic.buf = some b → b < 16 → r.heMark h c b = if cod.plan.ref then 2 else 0) ∧
      (∀ n p rest, s.live t 3 = true → m.pend = p :: rest → (e.leaving.any fun k => (smGet k.members t {}).pend != []) = false →
        (n ≤ p.bound → Does (.hevceCtuFinished t c n) s fun r =>
          put r { m with ub := m.ub - p.bound + n, pend := rest, done := smPut m.done p.col (smGet m.done p.col 0 + n) 0 }) ∧
        (p.bound < n → Does (.hevceCtuFinished t c n) s fun r => r = s)) ∧
      (s.live t 2 = true → m.stalled = true → e.sump t < s.a t (HE_SUMP_QUOTA c) * 1024 → Does (.hevceSumpDrain t c) s fun r =>
        put r { m with stalled := false })) ∧
    (∀ cod ls (head : List Byte) (subs : List (List Byte)), e.leaving = cod :: ls → h = t → s.live t 3 = true → rests →
      let hd := head.map (·.toNat)
      let sb := subs.map fun l => l.map (·.toNat)
      let ms := s.heMembers t c
      ((∃ u ∈ ms, s.isolated u = true ∨ (smGet cod.members u {}).lost = true) → Does (.hevceAuWrite t c (head, subs)) s fun r =>
        (r.enc t c).pics = [] ∧ (r.enc t c).needCvs = true) ∧
      ((∀ u ∈ ms, s.isolated u = false ∧ (smGet cod.members u {}).lost = false) → s.heAllDone t c cod = true →
        s.heUnitOk t c cod hd sb = true → cod.mismatch = false → cod.plan.pic.rept = false → s.aOn t (HE_OUT_REC_EN c) = false →
        (∀ u ∈ ms, (smGet cod.members u {}).floorCtus = 0) →
        let au := (hd ++ sb.flatten).length
        let b : Int := s.heB t c
        let f := s.heFull t c cod.start e.full (8 * au)
        let n := au + if s.heCbr t c ∧ b * f.2 < f.1 then max 7 (((f.1 - b * f.2).toNat + 8 * f.2 - 1) / (8 * f.2)) else 0
        Does (.hevceAuWrite t c (head, subs)) s fun r =>
          let g := s.heFull t c cod.start e.full (8 * n)
          (r.enc t c).leaving = ls ∧ (r.enc t c).coding = e.coding ∧ (r.enc t c).full = (if b * g.2 < g.1 then (b, 1) else g) ∧
          r.reg t (HE_FCNT c) = cod.plan.pic.hdr.cnt % 2 ^ 32 ∧ r.reg t (HE_AUBYTES c) = n % 2 ^ 32 ∧ r.evtStat t (160 + c) = true ∧
          (s.aOn t (HE_OUT_DRAM_EN c) = false →
            r.WordsButEvents s [(t, HE_FCNT c), (t, HE_AUSTAT c), (t, HE_AUBYTES c)] ∧ r.writes = s.writes) ∧
          (let size := s.a t (HE_AU_SIZE_KIB c) * 1024
            let base := s.a64 t (HE_AU_LO c)
            let ofs := s.reg t (HE_NEXT c)
            let len := (32 + n + 63) / 64 * 64
            s.aOn t (HE_OUT_DRAM_EN c) = true → ofs < size → ofs % 8 = 0 → len ≤ size → base % 8 = 0 → oneWindow t base size →
              r.BytesBut s t base size ∧ r.reg t (HE_NEXT c) = (ofs + len) % size)))

/-- HEVC decoder: commands of a context (R312, R316, R318, R323). -/
def Obligations.DecoderContextCommandsComplete : Prop :=
  ∀ (t c : Nat) (s : State), s.live t 2 = true → c < 4 →
    let x := s.dec t c
    let st := s.f t (HD_STAT_STATE c)
    let job : ArbJob := { kind := 7, tile := t, idx := c, tiles := (s.hdMembers t c).length, arrived := s.now, resume := false }
    let left := s.pwr.jobs.filter fun j => !j.is 7 t c
    let only := fun (r : State) => r = { s with regs := r.regs, hevc := r.hevc, pwr.jobs := left } ∧ r.WordsBut s [(t, HD_STAT c)]
    let pool := (t :: s.hdMembers t c).flatMap fun u => [(u, HD_MARKS c), (u, HD_OUTPEND c), (u, HD_STAT c)]
    let emptied := fun (r : State) => (∀ i, i < 16 → r.hdMark t c i = 0 ∧ r.hdOut t c i = false)
    (s.hdOn t c = true → st ∈ [0, 3, 4, 5] → s.arbFind 7 t c = none → s.arbHeld < 64 → Does (.hevcdStart t c) s fun r =>
      r.dec t c = { inEnd := x.inEnd, final := x.final } ∧ emptied r ∧ r.reg t (HD_PICS c) = 0 ∧ r.reg t (HD_SKIPPED c) = 0 ∧
      r.f t (HD_STAT_LEVEL c) = 0 ∧ r.pwr.jobs = s.pwr.jobs ++ [job] ∧ r.f t (HD_STAT_STATE c) = st ∧
      r.WordsBut s (pool ++ [(t, HD_OUT_ACK c), (t, HD_PICS c), (t, HD_SKIPPED c), (t, HD_SKIPPED_BYTES c)])) ∧
    (st = 6 → Does (.hevcdStart t c) s fun r => r = s) ∧
    (s.hdOn t c = true → st = 6 → s.arbFind 7 t c = none → s.arbHeld < 64 → Does (.hevcdRestart t c) s fun r =>
      let p := s.reg64 t (HD_IN_END_LO c)
      r.dec t c = { pos := p, inEnd := p, written := x.written, slot := x.slot, readSlot := x.readSlot } ∧ emptied r ∧
      r.pwr.jobs = s.pwr.jobs ++ [job] ∧ r.WordsBut s pool) ∧
    (st ∈ [1, 7] → x.stop = none → x.cancelDue = false → Does (.hevcdSuspend t c) s fun r =>
      r.f t (HD_STAT_STATE c) = 2 ∧ r.dec t c = { x with suspendDue := false } ∧ only r) ∧
    (st = 2 → s.arbFind 7 t c = none → s.arbHeld < 64 → Does (.hevcdResume t c) s fun r =>
      r = { s with pwr.jobs := s.pwr.jobs ++ [{ job with resume := true }] }) ∧
    (st ∈ [1, 7] → x.stop = none → Does (.hevcdCancel t c) s fun r =>
      r.f t (HD_STAT_STATE c) = 4 ∧ only r ∧
      r.dec t c = { x with suspendDue := false, cancelDue := false, flush := false, waiting := false }) ∧
    Does (.hevcdFinal t c) s (fun r =>
      r.dec t c = { x with final := true } ∧ r.f t (HD_STAT_STATE c) = (if st = 7 then 1 else st) ∧ r.WordsBut s [(t, HD_STAT c)]) ∧
    (∀ hi : Word, Does (.hevcdInEndWrite t c hi) s fun r =>
      r.word t (HD_IN_END_HI c) = hi ∧ r.dec t c = { x with inEnd := s.reg t (HD_IN_END_LO c) + hi.toNat * 2 ^ 32 } ∧
      r.f t (HD_STAT_STATE c) = (if st = 7 then 1 else st) ∧ r.WordsBut s [(t, HD_STAT c), (t, HD_IN_END_HI c)]) ∧
    (∀ ack, let level := (x.written + 512 - ack % 512) % 512
      (s.aOn t (HD_CFG_LINK_EN c) = false → level ≤ s.f t (HD_STAT_LEVEL c) → Does (.hevcdOutAckWrite t c ack) s fun r =>
        r.f t (HD_OUT_ACK_ACK c) = ack % 512 ∧ r.f t (HD_STAT_LEVEL c) = level ∧ s.OnlyRegs r ∧
        r.WordsBut s [(t, HD_OUT_ACK c), (t, HD_STAT c)]) ∧
      (s.aOn t (HD_CFG_LINK_EN c) = true ∨ s.f t (HD_STAT_LEVEL c) < level → Does (.hevcdOutAckWrite t c ack) s fun r => r = s))

/-- HEVC decoder: pictures (R312, R315 to R317, R319). -/
def Obligations.DecoderPictureCommandsComplete : Prop :=
  ∀ (t c : Nat) (s : State), s.live t 2 = true → c < 4 → s.hdOn t c = true →
    let x := s.dec t c
    let left := x.inEnd - x.pos
    (∀ p : CodedPic, s.f t (HD_STAT_STATE c) = 1 → x.stop = none → x.flush = false → s.aOn t (HD_CFG_INPUT c) = false →
      (∀ u ∈ s.hdMembers t c, s.stale u (17 + c) = false) →
      (left < p.len → x.final = false → Does (.hevcdPictureDecode t c p) s fun r =>
        r.f t (HD_STAT_STATE c) = 7 ∧ r.evtStat t 183 = true ∧ r.hevc = s.hevc ∧ r.WordsButEvents s [(t, HD_STAT c)]) ∧
      (left = 0 → x.final = true → s.hdPending t c = [] → Does (.hevcdPictureDecode t c p) s fun r =>
        r.f t (HD_STAT_STATE c) = 3 ∧ r.evtStat t 182 = true ∧
        r.pwr.jobs = s.pwr.jobs.filter (fun j => !j.is 7 t c) ∧ r.WordsButEvents s [(t, HD_STAT c)]) ∧
      (p.len ≤ left → left ≠ 0 → s.poisonAt t (s.a64 t (HD_IN_LO c) + x.pos) p.len = false → p.fault = none → x.first = true →
        picIrap p = true → s.hdLimit t c p = false → s.hdPending t c = [] →
        (∀ u ∈ s.hdMembers t c, u ≠ t → s.seamWalk 8 t u = none ∧ s.seamWalk 8 u t = none) →
        p.hash ≠ some false → x.cancelDue = false → x.suspendDue = false → Does (.hevcdPictureDecode t c p) s fun r =>
          r.hdMark t c 0 = 2 ∧ r.hdOut t c 0 = p.output ∧ (∀ i, 0 < i → i < 16 → r.hdMark t c i = 0) ∧
          (r.dec t c).pos = x.pos + p.len ∧ (r.dec t c).order = x.order + 1 ∧ (r.dec t c).first = false ∧
          (let q := smGet (r.dec t c).pool 0 {}; (q.poc, q.w, q.h, q.codedW, q.codedH) = (p.poc, p.w, p.h, p.codedW, p.codedH)) ∧
          (let a := s.a64 t (HD_POOL_LO c); let n := s.a t (HD_POOL_SLOT_POOL_SLOT c)
           s.hdMembers t c = [t] → s.CleanMem → s.dramOk t a n = true → r.BytesButRuns s t [(a, n)]) ∧
          r.f t (HD_STAT_STATE c) = 1 ∧ r.f t (HD_SKIPPED_COUNT c) = min (2 ^ 32 - 1) (s.f t (HD_SKIPPED_COUNT c) + p.skipped) ∧
          r.WordsBut s ((t, HD_SKIPPED c) :: (t :: s.hdMembers t c).flatMap fun u => [(u, HD_MARKS c), (u, HD_OUTPEND c), (u, HD_STAT c)]))) ∧
    (s.f t (HD_STAT_STATE c) ∈ [1, 7] → s.hdDue t c = true →
      let slots := s.a t (HD_OUT_STRIDE_NSLOT c) + 1
      (s.f t (HD_STAT_LEVEL c) = slots → x.waiting = false → Does (.hevcdPictureOutput t c) s fun r =>
        r.dec t c = { x with waiting := true } ∧ r.f t (HD_STAT_OUT_WAITS c) = min (2 ^ 15 - 1) (s.f t (HD_STAT_OUT_WAITS c) + 1) ∧
        r.WordsBut s [(t, HD_STAT c)]) ∧
      (s.f t (HD_STAT_LEVEL c) = slots → x.waiting = true → Does (.hevcdPictureOutput t c) s fun r => r = s) ∧
      (∀ i, s.f t (HD_STAT_LEVEL c) ≠ slots → s.hdNext t c = some i → x.stop = none → s.CleanMem →
        (let p := smGet x.pool i {}; s.hdPoison t c i p.codedW p.codedH p.c422 = false) → Does (.hevcdPictureOutput t c) s fun r =>
        let p := smGet x.pool i {}
        let base := s.a64 t (HD_OUT_LO c) + x.slot * s.a t (HD_OUT_SLOT_SLOT_BYTES c)
        let rows := fun (at_ k n : Nat) => (List.range k).map fun j => (at_ + j * s.a t (HD_OUT_STRIDE_STRIDE c), n)
        (r.dec t c).written = (x.written + 1) % 512 ∧ (r.dec t c).slot = (x.slot + 1) % slots ∧ (r.dec t c).lastOut = some p.poc ∧
        r.hdOut t c i = false ∧ r.hdMark t c i = (if s.hdMark t c i = 1 then 0 else s.hdMark t c i) ∧
        r.f t (HD_PICS_COUNT c) = min (2 ^ 32 - 1) (s.f t (HD_PICS_COUNT c) + 1) ∧ r.evtStat t (176 + c) = true ∧
        r.BytesButRuns s t (rows base p.h (2 * p.w) ++ rows (base + s.a t (HD_OUT_COFS_C_OFS c)) p.chromaRows (4 * ((p.w + 1) / 2)) ++ [(s.a64 t (HD_REC_LO c) + 32 * x.slot, 32)])))

/-- Packet link: states of a link (R326, R332, R333, R349 to R355, R358). -/
def Obligations.LinkStateCommandsComplete : Prop :=
  ∀ (t l : Nat) (s : State), linkHere t l = true → s.live t 6 = true →
    let x := s.link t l
    let st := s.f t (PL_STAT_STATE l)
    let calm := x.txq = [] ∧ (l = 0 → s.evt.asyncQ = [])
    let reset := fun (cause : Nat) (r : State) =>
      r.f t (PL_STAT_STATE l) = 4 ∧ r.f t (PL_STAT_LRST_CAUSE l) = cause ∧ r.f t (PL_STAT_RESETS l) ≠ 0 ∧ r.evtStat t 206 = true ∧
      r.link t l = {} ∧ (l = 0 → r.host.cmds = [] ∧ r.f 0 (PL_QUEUE_QUEUED 0) = 0 ∧ r.f 0 (PL_QUEUE_EXEC 0) = 0) ∧
      (l = 1 → ∀ m ∈ r.mag t, m.use = 2 ∧ m.status.isSome = true)
    (s.on t (PL_CTL_EN l) = false → s.linkOk t l = true → Does (.plLinkEnable t l true) s fun r =>
      r.on t (PL_CTL_EN l) = true ∧ r.f t (PL_STAT_STATE l) = 1 ∧ r.link t l = { txq := x.txq } ∧
      r = { s with regs := r.regs, lpl := r.lpl, pins := r.pins } ∧ r.WordsBut s [(t, PL_CTL l), (t, PL_STAT l)]) ∧
    (s.linkOk t l = false → Does (.plLinkEnable t l true) s fun r => r = s) ∧
    (st = 2 → Does (.plLinkEnable t l false) s fun r =>
      r.on t (PL_CTL_EN l) = false ∧ r.f t (PL_STAT_STATE l) = 0 ∧ r.link t l = {} ∧ r.evtStat t (if l = 0 then 199 else 201) = true ∧
      r.WordsButEvents s [(t, PL_CTL l), (t, PL_STAT l)]) ∧
    (∀ k widths role, st = 1 → k < s.linkLanes t l → s.laneLocked t (s.linkLane t l k) = true →
      let n := smGet x.trains k 0 + 1
      (role = s.f t (PL_CTL_ROLE l) → x.wrongRole = false → ∀ seen, Does (.lplTrainReceive t l k widths role 1 seen) s fun r =>
        r.f t (PL_PROTO_CODE l) = 6 ∧ r.evtStat t 205 = true ∧ (r.link t l).wrongRole = true ∧ r.f t (PL_STAT_STATE l) = 1 ∧
        r.WordsButEvents s [(t, PL_PROTO l)]) ∧
      (role ≠ s.f t (PL_CTL_ROLE l) → n < 8 → x.seen &&& x.far = 0 → Does (.lplTrainReceive t l k widths role 1 false) s fun r =>
        r.link t l = { x with trains := smPut x.trains k n 0, farWidths := widths % 8, bothAt := none } ∧
        r = { s with lpl := r.lpl, pins := r.pins }) ∧
      (∀ w, role ≠ s.f t (PL_CTL_ROLE l) → 8 ≤ n → x.chosen = none →
        linkWidth (s.linkOffer t l &&& widths % 8) (orBit x.seen k &&& orBit x.far k) = some w →
        (∀ v, w < v → v < 3 → bit (s.linkOffer t l &&& widths % 8) v = false) → Does (.lplTrainReceive t l k widths role 1 true) s fun r =>
          (r.link t l).chosen = some w ∧ (r.link t l).seen = orBit x.seen k ∧ (r.link t l).far = orBit x.far k ∧
          r = { s with lpl := r.lpl, pins := r.pins })) ∧
    (∀ k w lag, st = 1 → x.chosen = some w → w ≤ 2 → k < 2 ^ w → k < s.linkLanes t l → lag < 32 →
      let a := s.linkLane t l k
      let n := orBit x.aligned k
      a < 24 → s.laneLocked t a = true → s.laneLive t a = true →
      (n % 2 ^ 2 ^ w ≠ 2 ^ 2 ^ w - 1 → Does (.lplAlignReceive t l k w lag) s fun r =>
        r.link t l = { x with aligned := n } ∧ r.f t (LANE_SKEW_SKEW a) = lag ∧ r.on t (LANE_STAT_HELD a) = false ∧
        r.WordsBut s [(t, LANE_SKEW a), (t, LANE_STAT a)]) ∧
      (n % 2 ^ 2 ^ w = 2 ^ 2 ^ w - 1 → x.txq = [] → Does (.lplAlignReceive t l k w lag) s fun r =>
        r.f t (PL_STAT_STATE l) = 2 ∧ r.f t (PL_STAT_WIDTH l) = w ∧ r.evtStat t (if l = 0 then 198 else 200) = true ∧
        r.link t l = { seen := x.seen, far := x.far, aligned := n, hTot := (linkCredit l).1, dTot := (linkCredit l).2, progress := s.now } ∧
        r.WordsButEvents s [(t, LANE_SKEW a), (t, LANE_STAT a), (t, PL_STAT l), (t, PL_SEQ l), (t, PL_CRED_TX l)])) ∧
    (st = 2 → Does (.plRetrainWrite t l) s fun r =>
      r.f t (PL_STAT_STATE l) = 3 ∧ r.evtStat t 204 = true ∧ (r.link t l).since = s.now ∧ (r.link t l).replay = x.replay ∧
      r.WordsButEvents s [(t, PL_STAT l)]) ∧
    (st ≠ 2 → Does (.plRetrainWrite t l) s fun r => r = s) ∧
    (st = 3 → x.since + max 1 (s.f t (PL_RETRAIN_TO_TO l)) * usTicks ≤ s.now → Does (.lplRetrainTimeout t l) s (reset 1)) ∧
    (st ∉ [0, 4] → Does (.plResetWrite t l) s (reset 3) ∧ Does (.lplLrstReceive t l) s (reset 2)) ∧
    (st = 4 → (∀ n, n < 4 → (s.steer n).incs = [] ∧ (s.steer n).step = none) → Does .timeTick s fun r =>
      r.f t (PL_STAT_STATE l) = 1 ∧ r.link t l = { txq := x.txq }) ∧
    (st ∈ [0, 4] → Does (.plResetWrite t l) s (fun r => r = s) ∧ Does (.lplLrstReceive t l) s fun r => r = s) ∧
    (∀ m ∈ s.mag t, l = 1 → m.use = 3 → m.status = none → m.issued + 100 * usTicks ≤ s.now → Does (.magAbortTimeout t) s (reset 5)) ∧
    (st = 2 → s.on t (PL_CTL_IDLE_EN l) = true → calm → x.replay = [] → x.progress + s.f t (PL_TIMER_IDLE_ENTRY l) * 80 ≤ s.now →
      Does (.linkIdleEntry t l) s fun r => r.link t l = { x with idle := true } ∧ r = { s with lpl := r.lpl, pins := r.pins }) ∧
    (st = 5 → calm → Does (.linkWake t l) s fun r =>
      r.f t (PL_STAT_STATE l) = 2 ∧ r.link t l = { x with idle := false, progress := s.now } ∧
      ∀ k, k < 2 ^ s.f t (PL_STAT_WIDTH l) → s.linkLane t l k < 24 →
        r.on t (LANE_STAT_IDLE (s.linkLane t l k)) = false ∧ r.on t (LANE_STAT_SIGNAL (s.linkLane t l k)) = true ∧
        r.on t (LANE_STAT_PLL_OK (s.linkLane t l k)) = true)

/-- Packet link: traffic of an UP link (R330, R333 to R339). -/
def Obligations.LinkTrafficCommandsComplete : Prop :=
  ∀ (t l : Nat) (s : State), linkHere t l = true → s.live t 6 = true → s.f t (PL_STAT_STATE l) = 2 →
    let x := s.link t l
    let calm := x.txq = [] ∧ (l = 0 → s.evt.asyncQ = [])
    let sender := [(t, PL_SEQ l), (t, PL_CRED_TX l)]
    let lim := max 1 (s.f t (PL_TIMER_REPLAY_MAX l))
    let replayed := fun (r : State) =>
      r.f t (PL_REPLAYS_COUNT l) = min (2 ^ 32 - 1) (s.f t (PL_REPLAYS_COUNT l) + 1) ∧ r.evtStat t 203 = true ∧
      r.pwr.lplReplays = s.pwr.lplReplays + 1
    (∀ (seq words : Nat) (data : List Byte),
      let b := data.map (·.toNat)
      let crc := packetCrc seq words b
      (seq = (x.rxSeq + 1) % 4096 → b.length = 8 * words → 2 ≤ words → words ≤ 514 →
        (pktError (s.on t (PL_CTL_ROLE l)) b = 0 → Does (.lplPacketReceive t l seq words crc true data) s fun r =>
          r.link t l = { x with rxSeq := seq, ackSent := seq, nakAt := none, rxq := x.rxq ++ [pktOf b], idle := false } ∧
          r = { s with lpl := r.lpl, pins := r.pins }) ∧
        (∀ e, e ≠ 0 → pktError (s.on t (PL_CTL_ROLE l)) b = e → Does (.lplPacketReceive t l seq words crc true data) s fun r =>
          (r.link t l).rxSeq = seq ∧ (r.link t l).rxq = x.rxq ∧ r.f t (PL_PROTO_CODE l) = e ∧ r.evtStat t 205 = true ∧
          r.f t (PL_PROTO_COUNT l) = min (2 ^ 24 - 1) (s.f t (PL_PROTO_COUNT l) + 1) ∧ r.WordsButEvents s [(t, PL_PROTO l)])) ∧
      (x.nakAt = none → Does (.lplPacketReceive t l seq words crc false data) s fun r =>
        r.link t l = { x with nakAt := some s.now, nakSent := x.rxSeq, idle := false } ∧ r.WordsBut s [(t, PL_CRCERR l)] ∧
        r.f t (PL_CRCERR_COUNT l) = min (2 ^ 32 - 1) (s.f t (PL_CRCERR_COUNT l) + 1) ∧
        r = { s with regs := r.regs, lpl := r.lpl, pins := r.pins })) ∧
    (∀ seq i, seq < 4096 → calm → x.replay.findIdx? (·.1 = seq) = some i →
      let y := { x with replay := x.replay.drop (i + 1), acked := seq, noAdv := 0, progress := s.now }
      (Does (.lplAckReceive t l seq) s fun r =>
        r.link t l = y ∧ r.f t (PL_SEQ_LAST_ACKED l) = seq ∧ r = { s with regs := r.regs, lpl := r.lpl } ∧ r.WordsBut s sender) ∧
      (x.replay.drop (i + 1) = [] → Does (.lplNakReceive t l seq) s fun r => r.link t l = y ∧ r.WordsBut s sender) ∧
      (x.replay.drop (i + 1) ≠ [] → 2 ≤ lim → Does (.lplNakReceive t l seq) s fun r =>
        r.link t l = { y with noAdv := 1, idle := false } ∧ replayed r ∧ r.f t (PL_STAT_STATE l) = 2 ∧ r.WordsButEvents s ((t, PL_REPLAYS l) :: sender))) ∧
    (x.replay ≠ [] → x.progress + max 1 (s.f t (PL_TIMER_REPLAY_TO l)) * usTicks ≤ s.now →
      (x.noAdv + 1 < lim → Does (.lplReplayTimeout t l) s fun r =>
        r.link t l = { x with noAdv := x.noAdv + 1, progress := s.now, idle := false } ∧ replayed r ∧ r.f t (PL_STAT_STATE l) = 2 ∧
        r.WordsButEvents s [(t, PL_REPLAYS l)]) ∧
      (lim ≤ x.noAdv + 1 → Does (.lplReplayTimeout t l) s fun r =>
        r.f t (PL_STAT_STATE l) = 3 ∧ replayed r ∧ r.evtStat t 204 = true ∧ (r.link t l).replay = x.replay ∧
        r.WordsButEvents s [(t, PL_REPLAYS l), (t, PL_STAT l)])) ∧
    (∀ h d, calm → Does (.lplCreditReceive t l h d) s fun r =>
      let y := { x with hFar := h % 0x10000, dFar := d % 0x1000000 }
      r.link t l = y ∧ r.f t (PL_CRED_TX_H l) = y.credit.1 ∧ r.f t (PL_CRED_TX_D l) = min 65535 y.credit.2 ∧ r.WordsBut s sender) ∧
    Does (.lplCreditSend t l) s (fun r =>
      r.link t l = { x with hSent := x.hTot, dSent := x.dTot, idle := false } ∧ r = { s with lpl := r.lpl, pins := r.pins })

/-- Packets of a magazine link (R337, R339, R343, R344, R358). -/
def Obligations.MagazinePacketCommandsComplete : Prop :=
  ∀ (t : Nat) (s : State), s.live t 6 = true →
    let x := s.link t 1
    let out := fun (r : State) => (r.link t 1).replay.map (·.2) ++ (r.link t 1).txq
    let plain := ∀ q ∈ x.txq, q.ty ≠ 4
    (∀ p q, x.rxq = p :: q → p.ty = 2 →
      (∀ m, s.magFind t p.tag = some m → m.op = 2 → m.who = orphan → Does (.xferReady t) s fun r =>
        out r = out s ∧ r.mags = s.mags ∧ (r.link t 1).rxq = q) ∧
      (∀ m, s.magFind t p.tag = some m → m.op = 2 → m.who ≠ orphan → plain → Does (.xferReady t) s fun r =>
        out r = out s ++ windowPkts p.tag m.data m.bad (p.param / 4096 + 1) p.ofs (min p.param (m.data.length - p.ofs)) ∧
        r.mag t = (s.mag t).map (fun m => if m.tag = p.tag then { m with sent := m.sent + p.param } else m) ∧ (r.link t 1).rxq = q) ∧
      (s.magFind t p.tag = none → Does (.xferReady t) s fun r =>
        r.f t (PL_PROTO_CODE 1) = 5 ∧ r.evtStat t 205 = true ∧ (r.link t 1).rxq = q ∧ r.mags = s.mags ∧ r.WordsButEvents s [(t, PL_PROTO 1)])) ∧
    (∀ p q m, x.rxq = p :: q → p.ty = 4 → s.magFind t p.tag = some m → m.use ≠ 3 → m.who ≠ orphan → Does (.response t) s fun r =>
      r.mag t = (s.mag t).map (fun m => if m.tag = p.tag then
        { m with status := some (pktField p.body 0 2), info := (p.body.drop 16).take 16 } else m) ∧
      r.link t 1 = { x with rxq := q } ∧ r = { s with regs := r.regs, mags := r.mags, lpl := r.lpl } ∧ r.WordsBut s [(t, PL_QUEUE 1)]) ∧
    (∀ p q m, x.rxq = p :: q → p.ty = 3 → s.dataFront 0 0 = false → s.dataTile = some t → s.magFind t p.tag = some m →
      (m.op = 1 → Does .data s fun r =>
        r.mag t = (s.mag t).map (fun m => if m.tag = p.tag then { m with
          data := m.data.take p.ofs ++ List.replicate (p.ofs - m.data.length) 0 ++ p.body
          poison := if p.poison ∧ m.poison.isNone then some (p.ofs + 8 * p.param) else m.poison } else m) ∧
        (r.link t 1).rxq = q ∧ r = { s with regs := r.regs, mags := r.mags, lpl := r.lpl } ∧ r.WordsBut s [(t, PL_QUEUE 1)]) ∧
      (m.op ≠ 1 → Does .data s fun r =>
        r.f t (PL_PROTO_CODE 1) = 2 ∧ r.evtStat t 205 = true ∧ (r.link t 1).rxq = q ∧ r.mags = s.mags ∧ r.WordsButEvents s [(t, PL_PROTO 1)])) ∧
    (∀ p q, x.rxq = p :: q → p.ty = 5 → Does (.asyncEvent t) s fun r =>
      (∀ w, w < 4 → r.reg t (PL1_ASYNC w) = pktField p.body (4 * w) 4 % 2 ^ 32) ∧ r.evtStat t 207 = true ∧ (r.link t 1).rxq = q ∧
      r.WordsButEvents s ((List.range 4).map fun w => (t, PL1_ASYNC w))) ∧
    (∀ tag m g, s.magFind t tag = some m → s.f t PL1_TMO_MAG_TMO ≠ 0 → m.use ≠ 3 → m.aborting = false →
      m.issued + s.f t PL1_TMO_MAG_TMO * 1000 * usTicks ≤ s.now → s.magTag t = some g → plain → Does (.magCommandTimeout t tag) s fun r =>
        r.mag t = (s.mag t).map (fun m => if m.tag = tag then { m with aborting := true } else m) ++
          [{ tag := g, op := 0x20, use := 3, who := 0, num := tag, cap := abortCapsule tag, data := [], issued := s.now }] ∧
        out r = out s ++ [{ ty := 1, tag := g, body := abortCapsule tag }])

/-- Host link: the queue (R339 to R343, R347, R351, R353, R357, R360, R384). -/
def Obligations.HostQueueCommandsComplete : Prop :=
  ∀ s : State, s.holds = false →
    let x := s.link 0 0
    let proto := fun (code : Nat) (r : State) =>
      r.f 0 (PL_PROTO_CODE 0) = code ∧ r.evtStat 0 205 = true ∧ r.host = s.host ∧ r.WordsButEvents s [(0, PL_PROTO 0)]
    let job := fun (k tag tiles : Nat) (again : Bool) =>
      ({ kind := k, tile := 0, idx := tag, tiles := tiles, arrived := s.now, resume := again } : ArbJob)
    (∀ p q mr4, x.rxq = p :: q → p.ty = 1 →
      let c : HostCmd := { tag := p.tag, cap := p.body, arr := s.host.nextArr }
      let queued := fun (c : HostCmd) (r : State) =>
        r.host = { s.host with cmds := s.host.cmds ++ [c], nextArr := s.host.nextArr + 1 } ∧ (r.link 0 0).rxq = q ∧ r.WordsBut s [(0, PL_QUEUE 0)]
      ((s.hostCmd p.tag).isSome = true → Does (.command mr4) s fun r => proto 1 r ∧ (r.link 0 0).rxq = q) ∧
      (s.hostCmd p.tag = none → s.f 0 PL_PSTATE_STATE = 0 → s.host.entryTag = none →
        (s.host.act = 0 ∨ c.op = 0x20 →
          (s.capCheck c ≠ 0 → Does (.command mr4) s fun r => r.Answered p.tag (s.capCheck c) 0 [] ∧ r.host.nextArr = s.host.nextArr + 1) ∧
          (s.capCheck c = 0 → c.op ≠ 0x15 → (∀ d ∈ s.host.cmds, d.op ≠ 0x15) →
            (c.jobKind = none → Does (.command mr4) s fun r => queued c r ∧ r.pwr = s.pwr) ∧
            (∀ k, c.jobKind = some k → s.arbHeld < 64 → Does (.command mr4) s fun r =>
              queued c r ∧ r.pwr.jobs = s.pwr.jobs ++ [job k p.tag (s.jobTiles c) false]))) ∧
        (s.host.act ≠ 0 → c.op ≠ 0x20 → s.heldCount < 64 → Does (.command mr4) s fun r => queued { c with held := true } r ∧ r.pwr = s.pwr))) ∧
    (∀ p q, x.rxq = p :: q → p.ty = 3 →
      (s.hostCmd p.tag = none → Does .data s fun r => proto 5 r ∧ (r.link 0 0).rxq = q) ∧
      (∀ c, s.hostCmd p.tag = some c → c.dataLen ≠ 0 →
        ((c.wins.any fun w => winTakes w p) = true → c.dataLen ≤ c.winNext → Does .data s fun r =>
          r.hostCmd p.tag = some { c with
            wins := (c.wins.map fun w => if winTakes w p then (w.1, w.2.1, p.ofs + p.body.length) else w).filter fun w => w.2.2 ≠ w.2.1
            parts := smIns p.ofs p.body c.parts, bad := c.bad ++ badRun p } ∧
          (r.link 0 0).rxq = q ∧ r.WordsBut s [(0, PL_QUEUE 0)]) ∧
        ((c.wins.any fun w => winTakes w p) = false → c.stop = none → Does .data s fun r =>
          r.Answered p.tag rcField (if c.op = 0x02 then 4096 * c.pos else 0) [] ∧ r.f 0 (PL_PROTO_CODE 0) = 4 ∧ r.evtStat 0 205 = true))) ∧
    (∀ p q, x.rxq = p :: q → p.ty = 6 →
      let xid := pktField p.body 0 4
      let t1 := (p.body.drop 8).take 16
      let late := decide (s.f 0 PL_PSTATE_STATE ≠ 0)
      (s.host.texs.length < 4 → 4 ≤ s.step_ → s.firmware = true → Does (.timeExchange false) s fun r =>
        r.host = { s.host with texs := s.host.texs ++ [(xid, t1, s.texStamp (-(s.f 0 TEX_COMP_RX : Int)), late)] } ∧ r.regs = s.regs) ∧
      (4 ≤ s.host.texs.length → Does (.timeExchange false) s fun r =>
        ({ ty := 6, body := texBody xid (3 + 4 * b2n late) t1 (0, 0) (0, 0) } : Pkt) ∈ r.hostPkts ∧ r.host = s.host)) ∧
    (∀ xid t1 t2 late l, s.host.texs = (xid, t1, t2, late) :: l → s.firmware = true → Does (.timeExchange true) s fun r =>
      ({ ty := 6, body := texBody xid (1 + 4 * b2n late) t1 t2 (s.texStamp (s.f 0 TEX_COMP_TX : Int)) } : Pkt) ∈ r.hostPkts ∧
      r.host = { s.host with texs := l }) ∧
    (∀ tag c, (s.host.cmds.find? fun c => c.tag = tag && c.op = 0x20) = some c → c.stop = none →
      (s.hostCmd (c.fld 4 1) = none → Does (.abort tag) s fun r => r.Answered tag rcNotFound 0 []) ∧
      (∀ d, s.hostCmd (c.fld 4 1) = some d → d.op ∉ [0x20, 0x21, 0x22, 0x23, 0x24, 0x35, 0x41] → s.host.entryTag ≠ some d.tag → d.stop = none →
        Does (.abort tag) s fun r => r.Answered d.tag rcAborted d.ended [] ∧ r.Answered tag rcSuccess 0 [])) ∧
    (∀ tag c, s.Runs tag 0x21 c → c.started = false →
      (s.hostCmd (c.fld 4 1) = none → Does (.suspend tag) s fun r => r.Answered tag rcNotFound 0 []) ∧
      (∀ d, s.hostCmd (c.fld 4 1) = some d → d.tag ≠ tag → d.long = true → d.stop = none → d.started = false → s.host.ops.length < 16 →
        s.hostCmd tag = some c → Does (.suspend tag) s fun r =>
          r.host.ops = s.host.ops ++ [⟨s.host.nextOpid, d⟩] ∧ r.host.nextOpid = s.host.nextOpid + 1 ∧ r.Answered tag rcSuccess 0 [] ∧
          r.Answered d.tag rcSuspended d.longMoved (leBytes 8 s.host.nextOpid ++ leBytes 8 d.progress))) ∧
    (∀ tag c, s.Runs tag 0x22 c →
      ((s.host.ops.find? fun (o : HostOp) => o.opid = c.fld 8 8) = none → Does (.resume tag) s fun r => r.Answered tag rcNotFound 0 []) ∧
      (∀ o, (s.host.ops.find? fun (o : HostOp) => o.opid = c.fld 8 8) = some o → s.arbHeld < 64 → Does (.resume tag) s fun r =>
        r.host.ops = (s.host.ops.filter fun (p : HostOp) => p.opid ≠ o.opid) ∧
        r.pwr.jobs = s.pwr.jobs ++ [job (o.cmd.jobKind.getD 0) tag (s.jobTiles o.cmd) true] ∧
        r.hostCmd tag = some { o.cmd with
          tag := tag, arr := c.arr, cap := o.cmd.cap.set 1 (o.cmd.cap.getD 1 0 / 2 * 2 + b2n c.ordered), started := false, stop := none
          resumed := true })) ∧
    (∀ tag c, s.Runs tag 0x23 c → c.started = false → c.flag 1 = true →
      ((s.host.ops.find? fun (o : HostOp) => o.opid = c.fld 8 8) = none → Does (.cancel tag) s fun r => r.Answered tag rcNotFound 0 []) ∧
      (∀ o, (s.host.ops.find? fun (o : HostOp) => o.opid = c.fld 8 8) = some o → o.cmd.op ≠ 0x41 → Does (.cancel tag) s fun r =>
        r.host.ops = (s.host.ops.filter fun (p : HostOp) => p.opid ≠ o.opid) ∧ r.Answered tag rcSuccess 0 [])) ∧
    (∀ tag c d, s.Runs tag 0x23 c → c.started = false → c.flag 1 = false → s.hostCmd tag = some c → s.hostCmd (c.fld 4 1) = some d →
      d.tag ≠ tag → d.long = true → d.op ≠ 0x41 → d.stop = none → d.started = false → Does (.cancel tag) s fun r =>
        r.Answered d.tag rcCancelled d.longMoved [] ∧ r.Answered tag rcSuccess 0 []) ∧
    (s.host.entryTag = none → Does .powerStateEntry s fun r => r = s) ∧
    (∀ g c, s.host.entryTag = some g → s.hostCmd g = some c → s.arbQuiet = true → ((s.arbSettle.respond c rcSuccess 0 []).link 0 0).txq = [] →
      Does .powerStateEntry s fun r =>
        r.f 0 PL_PSTATE_STATE = s.f 0 PL_PSTATE_TARGET ∧ r.f 0 PL_PSTATE_TARGET = 0 ∧ r.on 0 PL_PSTATE_ENTERING = false ∧
        r.host.entryTag = none) ∧
    (∀ c, s.host.act = 1 → s.hostCmd s.host.actTag = some c → c.n1 = 1 → (∀ d ∈ s.host.cmds, c.arr ≤ d.arr) → Does (.fwActivation false) s fun r =>
      r.host.act = 2 ∧ r.host.actAt = s.now ∧ r.boot.img = c.bytes ∧ r.boot.imgOld = s.boot.img ∧ r.boot.slot = c.fld 5 1) ∧
    (s.host.act = 2 → s.now < s.host.actAt + 30000 * usTicks → Does (.fwActivation true) s fun r =>
      r.host.act = 0 ∧ r.boot.img = s.boot.img ∧ r.boot.imgOld = []) ∧
    (s.host.act = 2 → s.host.actAt + 30000 * usTicks ≤ s.now → Does .activationTimeout s fun r =>
      r.host.act = 0 ∧ r.boot.img = s.boot.imgOld ∧ r.boot.imgOld = [] ∧ r.boot.slot = s.host.actOld) ∧
    (s.host.act = 0 → Does (.fwActivation false) s (fun r => r = s) ∧ Does (.fwActivation true) s (fun r => r = s) ∧
      Does .activationTimeout s fun r => r = s)

/-- Host commands on data and on the part as a whole (R342 to R344, R364 to R380). -/
def Obligations.HostDataCommandsComplete : Prop :=
  ∀ (s : State) (tag : Nat) (c : HostCmd),
    let d : HostCmd := { c with started := true }
    let s0 := s.begun c
    let count := c.fld 16 4
    let window := fun (r : State) => ({ ty := 2, tag := tag, ofs := 0, param := min 262144 c.dataLen } : Pkt) ∈ r.hostPkts
    let calm := s.on 0 SRAM_INJ_ARMED = false
    (s.Runs tag 0x01 c →
      (c.started = false → s0.volCheck d false ≠ 0 → Does (.read tag) s fun r => r.Answered tag (s0.volCheck d false) 0 []) ∧
      (∀ s1 data ue, c.started = true ∨ s0.volCheck d false = 0 → s0.blockRead d (c.fld 4 1) (c.fld 8 8 + c.pos) = (s1, .done data none ue) →
        (count ≤ c.pos + 1 → c.poison = none → Does (.read tag) s fun r =>
          r.Answered tag rcSuccess (4096 * (c.pos + 1)) [] ∧ r.Sent tag (4096 * c.pos) data none) ∧
        (c.pos + 1 < count → s1.host = s0.host → Does (.read tag) s fun r =>
          r.hostCmd tag = some { d with pos := c.pos + 1 } ∧ r.Sent tag (4096 * c.pos) data none))) ∧
    (s.Runs tag 0x02 c →
      (c.started = false → s0.volCheck d true ≠ 0 → Does (.write tag) s fun r => r.Answered tag (s0.volCheck d true) 0 []) ∧
      (c.started = false → s0.volCheck d true = 0 → c.wins = [] → c.winNext = 0 → 1 ≤ count → Does (.write tag) s window) ∧
      (c.started = true → c.fld 4 1 = 15 → count = c.pos + 1 → c.has (4096 * c.pos) 4096 = true → calm → Does (.write tag) s fun r =>
        r.Answered tag rcSuccess (4096 * count) [] ∧ s.OnlyReply r ∧
        r.v15Bytes ((c.fld 8 8 + c.pos) * 4096) 4096 = c.got (4096 * c.pos) 4096)) ∧
    (s.Runs tag 0x03 c →
      ((s0.host.cmds.any fun e => e.op = 0x02 && covers c e.arr (e.fld 4 1)) = true → Does (.flush tag) s fun r => r = s0) ∧
      ((s0.host.cmds.any fun e => e.op = 0x02 && covers c e.arr (e.fld 4 1)) = false →
        ((s.host.failed.filter fun x => covers c x.1 x.2.1) = [] → calm → Does (.flush tag) s fun r =>
          r.Answered tag rcSuccess 0 [] ∧ s.OnlyReply r) ∧
        (∀ x, (s.host.failed.filter fun x => covers c x.1 x.2.1) = [x] → Does (.flush tag) s fun r =>
          r.Answered tag x.2.2.1 0 [x.2.2.2]))) ∧
    (s.RunsLong tag 0x04 c → ∀ s1 data, c.started = true → c.first = none → c.poison = none → c.fld 4 1 ∉ [2, 3, 4, 5, 6, 7, 8, 9] →
      s0.blockRead d (c.fld 4 1) (c.fld 8 8 + c.pos) = (s1, .done data none false) → count ≤ c.pos + 1 → Does (.verify tag) s fun r =>
        r.Answered tag rcSuccess (4096 * (c.pos + 1)) []) ∧
    (s.Runs tag 0x10 c → calm → Does (.identify tag) s fun r =>
      r.Answered tag (s0.limitedStatus d 0) s0.identifyData.length [] ∧ r.Sent tag 0 (padTo8 s0.identifyData) none ∧ s.OnlyReply r) ∧
    (s.Runs tag 0x11 c →
      let all := s0.pageBytes (c.fld 4 1)
      let got := (all.drop (c.fld 8 8)).take count
      let data := got ++ List.replicate (count - got.length) 0
      (c.flag 1 = false → calm → Does (.getLog tag) s fun r =>
        r.Answered tag (s0.limitedStatus d 0) data.length (leBytes 4 all.length) ∧ r.Sent tag 0 (padTo8 data) none ∧ s.OnlyReply r) ∧
      (c.flag 1 = true → c.fld 4 1 = 1 → Does (.getLog tag) s fun r =>
        r.Answered tag (s0.limitedStatus d 0) data.length (leBytes 4 all.length) ∧ r.host.errLost = 0 ∧
        r.host.errLog = s.host.errLog.filter fun e => (s0.logPage 1).delivered (c.fld 8 8) count ≤ e.seq)) ∧
    (s.Runs tag 0x12 c → ∀ ok,
      (c.fld 4 1 = 2 → Does (.setFeature tag ok) s fun r => r.Answered tag rcSuccess 0 [] ∧ r.evt.asyncEnable = (c.fld 8 8 == 1)) ∧
      (c.fld 4 1 = 5 → Does (.setFeature tag false) s fun r => r.Answered tag rcMedium 0 [] ∧ r.boot.flash = s.boot.flash) ∧
      (c.fld 4 1 = 1 → 1 ≤ c.fld 8 8 → c.fld 8 8 ≤ 3 → s.host.entryTag = none → s.host.cmds = [c] → s.pstateBlock = none →
        Does (.setFeature tag ok) s fun r =>
          r.host.entryTag = some tag ∧ r.on 0 PL_PSTATE_ENTERING = true ∧ r.f 0 PL_PSTATE_TARGET = c.fld 8 8)) ∧
    (s.Runs tag 0x13 c → c.fld 4 1 = 2 → calm → Does (.getFeature tag) s fun r =>
      r.Answered tag (s0.limitedStatus d 0) 0 (leBytes 8 (b2n s.evt.asyncEnable)) ∧ s.OnlyReply r) ∧
    (s.Runs tag 0x14 c → c.started = false →
      (s0.downloadCheck d = 0 → count = 0 → Does (.fwDownload tag) s fun r => r.Answered tag rcSuccess 0 []) ∧
      (s0.downloadCheck d = 0 → count ≠ 0 → c.wins = [] → c.winNext = 0 → Does (.fwDownload tag) s window) ∧
      (s0.downloadCheck d ≠ 0 → Does (.fwDownload tag) s fun r => r.Answered tag (s0.downloadCheck d) 0 [])) ∧
    (s.Runs tag 0x15 c → ∀ ok, c.n1 = 0 → 4 ≤ s.step_ → c.fld 4 1 = 0 → c.fld 8 4 ≤ slotBytes → s0.v15Bad 0 (c.fld 8 4) = none →
      (∀ e ∈ s.host.cmds, e.arr < c.arr → e.op ≠ 0x14 ∧ e.op ≠ 0x02) →
      let b := s0.v15Bytes 0 (c.fld 8 4)
      Does (.fwCommit tag ok) s fun r =>
        r.boot.flash = s.boot.flash ∧
        if s0.imgCheck b = 0 then r.Answered tag rcSuccess 0 (commitInfo b (c.fld 5 1))
        else r.Answered tag (imgStatus (s0.imgCheck b)) 0 [] ∧ r.evtStat 0 18 = true) ∧
    (s.Runs tag 0x16 c → Does (.attest tag) s fun r =>
      let rep := s0.attestData ((c.cap.drop 8).take 32)
      ∃ sig : List Nat, sig.length = 384 ∧ r.Answered tag rcSuccess (rep.length + 384) [] ∧ r.Sent tag 0 (padTo8 (rep ++ sig)) none) ∧
    (s.Runs tag 0x37 c →
      (c.fld 4 1 = 0 → Does (.debugUnlock tag) s fun r =>
        ∃ n : List Nat, n.length = 32 ∧ r.host.nonce = some n ∧ r.on 0 SEC_STAT_NONCE_VALID = true ∧ r.Answered tag rcSuccess 32 [] ∧
          r.Sent tag 0 n none) ∧
      (c.fld 4 1 = 2 → Does (.debugUnlock tag) s fun r =>
        r.Answered tag rcSuccess 0 [] ∧ r.on 0 SEC_STAT_DEBUG_UNLOCKED = false ∧ r.f 0 SEC_PERMS_PERMS = 0) ∧
      (c.fld 4 1 = 1 → c.started = true → c.has 0 824 = true →
        Does (.debugUnlock tag) s fun r =>
          r.host.nonce = none ∧
          if s0.tokenOk (c.got 0 824) = true ∧ c.isBad 0 824 = false then
            r.Answered tag rcSuccess 824 [] ∧ r.on 0 SEC_STAT_DEBUG_UNLOCKED = true ∧ r.evtStat 0 19 = true ∧
            r.f 0 SEC_PERMS_PERMS = imgF (c.got 0 824) 4 4 % 4
          else
            r.Answered tag rcAuth 824 [] ∧ r.on 0 SEC_STAT_DEBUG_UNLOCKED = s.on 0 SEC_STAT_DEBUG_UNLOCKED ∧ r.evtStat 0 20 = true ∧
            r.f 0 SEC_STAT_UNLOCK_FAILS = min 255 (s.f 0 SEC_STAT_UNLOCK_FAILS + 1)))

/-- Host commands on units (R381 to R386). -/
def Obligations.HostUnitCommandsComplete : Prop :=
  ∀ (s : State) (tag : Nat) (c : HostCmd),
    let d : HostCmd := { c with started := true }
    let s0 := s.begun c
    let t := c.fld 4 1
    let k := c.fld 5 1
    let reached := s.has t = true ∧ s.isolated t = false ∧ s.Routed 0 t
    (s.Runs tag 0x30 c →
      (c.spaceOk false = false → Does (.regRead tag) s fun r => r.Answered tag rcField 0 []) ∧
      (∀ s1 bs e, c.spaceOk false = true → s0.hostReads (c.fld 8 8 - hostBase) c.wordStep (c.fld 16 4) [] = (s1, bs, e) →
        Does (.regRead tag) s fun r => r.Answered tag e.status bs.length (bs.take 4) ∧ r.Sent tag 0 (padTo8 bs) none)) ∧
    (s.Runs tag 0x31 c →
      (s0.regWriteCheck d ≠ 0 → Does (.regWrite tag) s fun r => r.Answered tag (s0.regWriteCheck d) 0 []) ∧
      (∀ s1 n e, c.started = true → s0.regWriteCheck d = 0 → c.has 0 c.dataLen = true → c.isBad 0 (4 * c.fld 16 4) = false →
        c.flag 2 = false → e ≠ .doomed →
        s0.hostWrites (c.fld 8 8 - hostBase) c.wordStep none (wordsOf (c.fld 16 4) (c.got 0 (4 * c.fld 16 4))) 0 = (s1, n, e) →
        Does (.regWrite tag) s fun r => r.Answered tag e.status (4 * n) [])) ∧
    (s.Runs tag 0x32 c → c.started = true → c.has 0 c.dataLen = true → k < 8 → Does (.loadProgram tag) s fun r =>
      r.Answered tag rcSuccess c.dataLen [] ∧ (r.crew t k).state = 0 ∧ (r.crew t k).entry = c.fld 8 4 ∧
      smLook r.host.programs (8 * t + k) = some (c.got 0 c.dataLen)) ∧
    (s.Runs tag 0x33 c → k < 8 → reached → s.on 0 SRAM_INJ_ARMED = false →
      ((s.crew t k).state = 0 → Does (.crewStart tag) s fun r =>
        r.Answered tag rcSuccess 0 [] ∧ (r.crew t k).state = 1 ∧ (r.crew t k).pc = (s.crew t k).entry ∧ (r.crew t k).instret = 0 ∧
        r = { s with regs := r.regs, lpl := r.lpl, pins := r.pins, host := r.host, mags := r.mags, evt.asyncQ := r.evt.asyncQ, core.crews := r.core.crews }) ∧
      ((s.crew t k).state ≠ 0 → Does (.crewStart tag) s fun r => r.Answered tag rcField 0 [] ∧ r.crew t k = s.crew t k)) ∧
    (s.Runs tag 0x34 c → k < 8 → reached → s.on 0 SRAM_INJ_ARMED = false → (s.crew t k).tx = none → Does (.crewStop tag) s fun r =>
      r.Answered tag rcSuccess 0 (leBytes 4 ((s.crew t k).pc % 2 ^ 32)) ∧ r.crew t k = { s.crew t k with state := 0, wait := none, fetch := [] }) ∧
    (s.Runs tag 0x35 c →
      (∀ i, t = 0 → ((List.range 16).find? fun i => (s.txn i).state = 0) = some i → Does (.txn tag) s fun r =>
        r.txn i = { state := 1, host := true, epoch := s.reg 0 EPOCH } ∧ r.Answered tag rcSuccess 0 (i :: (txnInfo (r.txn i)).drop 1)) ∧
      (t = 3 → c.n1 = 0 → (s.txn k).host = true → (s.txn k).state ∈ [1, 2, 3] → Does (.txn tag) s fun r =>
        r.Answered tag rcSuccess 0 (txnInfo (s.txn k)) ∧ r.txn k = s.txn k) ∧
      (t ≠ 0 → c.n1 = 0 → (s.txn k).host = false → Does (.txn tag) s fun r => r.Answered tag rcNotFound 0 [])) ∧
    (s.Runs tag 0x24 c → c.started = true → (s.evt.aborts.any fun r => bit (c.fld 4 1) r.1 && (r.2 &&& c.fld 8 4) != 0) = false →
      Does (.unitAbort tag) s fun r => r.Answered tag rcSuccess 0 [] ∧ r.evt.aborts = s.evt.aborts) ∧
    (s.Runs tag 0x24 c → c.started = false → s0.unitAbortCheck (c.fld 4 1) (c.fld 8 4) ≠ 0 → Does (.unitAbort tag) s fun r =>
      r.Answered tag (s0.unitAbortCheck (c.fld 4 1) (c.fld 8 4)) 0 []) ∧
    (s.RunsLong tag 0x40 c → c.started = true →
      (scrubAt (s0.scrubPlan d) c.pos = none → Does (.scrubPass tag) s fun r => r.Answered tag rcSuccess 0 (leBytes 8 c.n1 ++ leBytes 8 c.n2)) ∧
      (∀ x, scrubAt (s0.scrubPlan d) c.pos = some x → s.f x.1 (MCC_STAT_STATE x.2.1) ∉ [2, 3] →
        (scrubAt (s0.scrubPlan d) (c.pos + 1)).isSome = true → Does (.scrubPass tag) s fun r =>
          r.hostCmd tag = some { d with pos := c.pos + 1 })) ∧
    (s.RunsLong tag 0x41 c →
      (c.n1 = 0 → s.has t = false → Does (.transcode tag) s fun r => r.Answered tag rcField 0 []) ∧
      (c.n1 = 1 → s.hdState t k = 3 → s.f t (HE_STAT_STATE (c.fld 6 1)) = 3 → Does (.transcode tag) s fun r => r.Answered tag rcSuccess 0 [])) ∧
    (s.RunsLong tag 0x42 c → c.started = true →
      Does (.selfTest tag true none) s (fun r => r.Answered tag rcSuccess 0 []) ∧
      (∀ last f, Does (.selfTest tag last (some f)) s fun r => r.Answered tag rcTest 0 (f.1 % 256 :: leBytes 3 f.2)) ∧
      Does (.selfTest tag false none) s (fun r => r.hostCmd tag = some { d with pos := c.pos + 1 }))

/-- Memory requests and what follows from them (R389, R393 to R396, R399, R403 to R405, R413, R420, R421). -/
def Obligations.MemoryRequestCommandsComplete : Prop :=
  ∀ (t : Nat) (s : State), s.live t 5 = true →
    (∀ p a, 5 ≤ p → p < 15 → a < s.dramSize t →
      let c := s.chanOf t a
      let st := s.f t (MCC_STAT_STATE c)
      st ≠ 2 → st ≠ 4 → ¬(st = 1 ∧ p = 14) → ∀ wr rt mask data d stream, Does (.mcRequest t p a wr rt mask data d stream) s fun r =>
        s.OnlyChan r t c { s.mcChan t c with
          waits := (s.mcChan t c).waits ++
            [{ port := p, addr := a, wr := wr, rt := rt, mask := if wr then mask else 0, data := if wr then data else [] }] }) ∧
    (∀ p a wr rt mask data d stream, p < 15 → s.dramSize t ≤ a ∨ s.f t (MCC_STAT_STATE (s.chanOf t a)) = 4 →
      Does (.mcRequest t p a wr rt mask data d stream) s fun r => r = s) ∧
    (∀ p a, p < 15 → a < s.dramSize t → s.on t SRAM_INJ_ARMED = false →
      let c := s.chanOf t a
      let x := s.mcChan t c
      let bank := s.bankOf t (chanOffset a)
      let row := s.rowOf t (chanOffset a)
      let tab := (smGet x.tables bank {}).act row
      let opened := if s.f t (MCC_PAGE_PAGE_IDLE c) ≠ 0 then smIns bank row x.openRows else smDel bank x.openRows
      s.f t (MCC_STAT_STATE c) = 2 →
      (x.wq = [] → x.victims = [] → 5 ≤ p →
        (smLook x.openRows bank = some row → ∀ rt mask data d stream,
          Does (.mcRequest t p a false rt mask data d stream) s fun r => s.OnlyChan r t c { x with used := smIns bank (s.now + 1) x.used }) ∧
        (smLook x.openRows bank ≠ some row → tab.count row < s.f t MC_MIT_MIT_THR → ∀ rt mask data d stream,
          Does (.mcRequest t p a false rt mask data d stream) s fun r =>
            s.OnlyChan r t c { x with openRows := opened, used := smIns bank (s.now + 1) x.used, tables := smPut x.tables bank tab {} }) ∧
        (smLook x.openRows bank ≠ some row → s.f t MC_MIT_MIT_THR ≤ tab.count row → ∀ rt mask data d stream,
          Does (.mcRequest t p a false rt mask data d stream) s fun r =>
            (r.mcChan t c).openRows = opened ∧ (r.mcChan t c).victims = (s.victimsOf t row).map (fun v => (bank, v)) ∧
            smGet (r.mcChan t c).charges p 0 = smGet x.charges p 0 + 1 ∧ r.evtStat t 227 = true ∧
            r.f t (MC_PORT_MIT_COUNT p) = satAdd (2 ^ 32 - 1) (s.f t (MC_PORT_MIT_COUNT p)) 1 ∧
            r.f t (MCC_MIT_CNT_COUNT c) = satAdd (2 ^ 32 - 1) (s.f t (MCC_MIT_CNT_COUNT c)) 1 ∧
            r.WordsButEvents s [(t, MC_PORT_MIT p), (t, MCC_MIT_CNT c)])) ∧
      (5 ≤ p → (x.wq.any fun e => e.line = a / 64) = false → x.wq.length < s.f t (MCC_PAGE_WQ_LO c) → ∀ rt mask data d stream,
        Does (.mcRequest t p a true rt mask data d stream) s fun r =>
          r.mcChan t c = { x with
            wq := x.wq ++ [{ line := a / 64, mask := 0 ||| mask, poison := false
                             data := (List.range 64).map fun k => if bit mask k then data.getD k 0 else (List.replicate 64 0).getD k 0 }] } ∧
          r.f t (MCC_STAT_WQ c) = x.wq.length + 1 ∧ r.WordsBut s [(t, MCC_STAT c)] ∧ r.dram = s.dram ∧ r.writes = s.writes) ∧
      (∀ d stream rt mask data, p < 5 →
        (portBuffer p < d → Does (.mcRequest t p a true rt mask data d stream) s fun r =>
          bit (r.f t (MC_PORT_STAT_OVERRUN p)) c = true ∧ r.evtStat t 226 = true ∧
          smGet r.mem.overrun (tk t (p * 32 + stream)) false = true ∧ r.mcChan t c = x ∧ r.writes = s.writes) ∧
        (d ≤ portBuffer p → x.wq = [] → x.victims = [] →
          (s.f t (MC_PORT_PANIC_PANIC p) ≤ d → bit (s.f t (MC_PORT_STAT_PANIC p)) c = false →
            Does (.mcRequest t p a false rt mask data d stream) s fun r =>
              bit (r.f t (MC_PORT_STAT_PANIC p)) c = true ∧ r.evtStat t 224 = true) ∧
          (d < s.f t (MC_PORT_PANIC_PANIC p) → d ≤ s.f t (MC_PORT_PANIC_CALM p) →
            Does (.mcRequest t p a false rt mask data d stream) s fun r => bit (r.f t (MC_PORT_STAT_PANIC p)) c = false)))) ∧
    (∀ a p, p < 15 → a < s.dramSize t →
      let c := s.chanOf t a
      let syn := eccSyndrome (s.eccErr t a)
      let dec := eccDecode syn (s.mapBit t a)
      let one := fun (r : FRef) (u : State) => u.f t r = satAdd (2 ^ 32 - 1) (s.f t r) 1
      s.f t (MCC_STAT_STATE c) = 2 → (s.mcChan t c).wq = [] →
      (dec = .clean → Does (.mcReadDecode t a p) s fun r => r = s) ∧
      (dec = .poisoned → Does (.mcReadDecode t a p) s fun r =>
        s.OnlyRegs r ∧ one (SCRUB_POISON_SEEN_COUNT c) r ∧ r.WordsBut s [(t, SCRUB_POISON_SEEN c)]) ∧
      (∀ j, dec = .corrected j → Does (.mcReadDecode t a p) s fun r =>
        r.eccErr t a = 0 ∧ r.mapBit t a = s.mapBit t a ∧ one (SCRUB_CE_COUNT c) r ∧ r.evtStat t 240 = true ∧
        r.BytesBut s t (0x100000000 + a / 8 * 8) 8) ∧
      (dec = .uncorrectable → Does (.mcReadDecode t a p) s fun r =>
        r.eccErr t a = poisonPattern ∧ r.mapBit t a = true ∧ one (SCRUB_UE_COUNT c) r ∧ r.evtStat t 241 = true ∧
        r.reg64 t INTEG_LAST_UE_LO = a / 8 * 8 ∧ r.reg t INTEG_LAST_UE_INFO = (c + p * 8 + syn * 256) % 2 ^ 32 ∧
        r.BytesBut s t (0x100000000 + a / 8 * 8) 8)) ∧
    (∀ c, c < 8 →
      let x := s.mcChan t c
      (∀ k, s.f t (MCC_STAT_STATE c) = 2 → s.refreshReady t c k = false → Does (.mcRefreshDue t c k) s (· = s)) ∧
      (∀ k, k < 2 → k = 0 ∨ s.on t MC_CFG_RANKS2 = true → s.f t (MCC_STAT_STATE c) = 2 → s.refreshReady t c k = true →
        let n := s.f t (owedF c k)
        let closed := fun (r : State) =>
          r.f t (owedF c k) = 0 ∧ r.mcChan t c = { x with openRows := x.openRows.filter fun e => e.1 / 16 ≠ k }
        (s.panicOn t c = false → Does (.mcRefreshDue t c k) s fun r => closed r ∧ r.WordsBut s [(t, MCC_STAT c)]) ∧
        (s.panicOn t c = true → n < 8 → Does (.mcRefreshDue t c k) s fun r =>
          r.f t (owedF c k) = n + 1 ∧ s.OnlyRegs { r with time := s.time } ∧ r.WordsBut s [(t, MCC_STAT c)]) ∧
        (s.panicOn t c = true → 8 ≤ n → Does (.mcRefreshDue t c k) s fun r =>
          closed r ∧ r.f t (MCC_FORCED_COUNT c) = satAdd (2 ^ 32 - 1) (s.f t (MCC_FORCED_COUNT c)) 1 ∧ r.evtStat t 225 = true)) ∧
      (∀ bank, s.pageReady t c bank = true → Does (.mcPageIdle t c bank) s fun r => s.OnlyChan r t c { x with openRows := smDel bank x.openRows }) ∧
      (∀ bank, s.pageReady t c bank = false → Does (.mcPageIdle t c bank) s (· = s)) ∧
      (s.mitReady t c = true → Does (.mcMitWindowEnd t c) s fun r => s.OnlyChan { r with time := s.time } t c { x with tables := [] }) ∧
      (s.mitReady t c = false → Does (.mcMitWindowEnd t c) s (· = s)) ∧
      (s.periodDue 3 (8 * t + c) (s.scrubTicks t c) = false → Does (.scrubRead t c) s (· = s)) ∧
      (s.on t (SCRUB_CTL_EN c) = true → s.f t (MCC_STAT_STATE c) = 2 → s.periodDue 3 (8 * t + c) (s.scrubTicks t c) = true →
        (∀ w, w < 8 → let a := s.addrOf t c (s.f t (SCRUB_POS_LINE c) * 64) + 8 * w
          s.eccErr t a = 0 ∧ s.mapBit t a = false) →
        (s.f t (SCRUB_POS_LINE c) + 1 < s.chanLines t → Does (.scrubRead t c) s fun r =>
          s.OnlyRegs { r with time := s.time } ∧ r.f t (SCRUB_POS_LINE c) = s.f t (SCRUB_POS_LINE c) + 1 ∧ r.WordsBut s [(t, SCRUB_POS c)]) ∧
        (s.chanLines t ≤ s.f t (SCRUB_POS_LINE c) + 1 → Does (.scrubRead t c) s fun r =>
          r.f t (SCRUB_POS_LINE c) = 0 ∧ r.f t (SCRUB_PASSES_COUNT c) = satAdd (2 ^ 32 - 1) (s.f t (SCRUB_PASSES_COUNT c)) 1 ∧
          r.evtStat t 247 = true ∧ r.WordsButEvents s [(t, SCRUB_POS c), (t, SCRUB_PASSES c)]))) ∧
    (s.throtReady t = false → Does (.mcThrottleWindowEnd t) s (· = s)) ∧
    (s.throtReady t = true → Does (.mcThrottleWindowEnd t) s fun r => ∀ c, c < 8 →
      let lead := leadPort (s.mcChan t c).charges
      let rt := rtPort lead.1 || (lead.1 == 13 && (s.mcChan t c).remoteRt)
      (r.mcChan t c).charges = [] ∧ (r.mcChan t c).tables = (s.mcChan t c).tables ∧
      r.reg t (MC_THROT_STAT c) =
        (if lead.2 = 0 then 0 else if rt then 32 else if s.f t MC_THROT_THR_MIN ≤ lead.2 then lead.1 + 16 else 0) ∧
      (lead.2 ≠ 0 → rt = true → r.evtStat t 229 = true) ∧
      (lead.2 ≠ 0 → rt = false → s.f t MC_THROT_THR_MIN ≤ lead.2 → r.evtStat t 228 = true))

/-- Memory channels and integrity (R388, R398, R406, R408, R409, R415, R416, R424, R425). -/
def Obligations.MemoryChannelCommandsComplete : Prop :=
  (∀ (t c : Nat) (s : State), s.up t 5 = true → c < 8 →
    let x := s.mcChan t c
    (s.on t (MCC_CTL_EN c) = false → s.dramSize t = 0 → Does (.mcChannelEnWrite t c true) s fun r =>
      s.OnlyRegs { r with evt := s.evt, core := s.core } ∧ r.on t MC_CFG_CFG_ERR = true ∧ r.evtStat t 233 = true ∧ r.on t (MCC_CTL_EN c) = false) ∧
    (s.on t (MCC_CTL_EN c) = false → s.dramSize t ≠ 0 → Does (.mcChannelEnWrite t c true) s fun r =>
      r.on t (MCC_CTL_EN c) = true ∧ r.f t (MCC_STAT_STATE c) = 1 ∧ r.f t (MCC_STAT_WQ c) = 0 ∧ r.mcChan t c = { waits := x.waits } ∧
      r.WordsBut s [(t, MCC_CTL c), (t, MCC_STAT c)] ∧
      (s.f t (MCC_STAT_STATE c) ≠ 4 → r.writes = s.writes ∧ r.mem.ecc = s.mem.ecc) ∧
      (s.f t (MCC_STAT_STATE c) = 4 → s.writes = [] → ∀ a, a < 2 ^ 36 →
        r.dbyte t a = if s.chanOf t a = c then 0 else s.dbyte t a)) ∧
    (s.on t (MCC_CTL_EN c) = true → Does (.mcChannelEnWrite t c true) s fun r => r = s) ∧
    (s.on t (MCC_CTL_EN c) = true → x.wq = [] → Does (.mcChannelEnWrite t c false) s fun r =>
      r.on t (MCC_CTL_EN c) = false ∧
      r.f t (MCC_STAT_STATE c) = (if s.f t (MCC_STAT_STATE c) = 4 then 4 else 0) ∧ r.WordsBut s [(t, MCC_CTL c), (t, MCC_STAT c)]) ∧
    (s.f t (MCC_STAT_STATE c) = 4 → Does (.mcFailWrite t c) s fun r => r = s) ∧
    (s.f t (MCC_STAT_STATE c) ≠ 4 → Does (.mcFailWrite t c) s fun r =>
      r.f t (MCC_STAT_STATE c) = 4 ∧ r.f t (MCC_STAT_WQ c) = 0 ∧ r.mcChan t c = { x with wq := [], waits := [], openRows := [] } ∧
      r.evtStat t 234 = true ∧ r.WordsButEvents s [(t, MCC_STAT c)] ∧ r.dram = s.dram)) ∧
  (∀ (t c m : Nat) (derate hot : Bool) (s : State), s.live t 5 = true → c < 8 → m < 8 →
    let mm := if s.on t MC_CFG_MR4_LONG then m else max 2 m
    let shown := fun (r : State) =>
      r.f t (MCC_STAT_M c) = mm ∧ r.on t (MCC_STAT_DERATE_ON c) = derate ∧ r.on t THERM_STAT_DRAM_HOT = ((List.range 8).any fun k => if k = c then hot else smGet s.mem.hot (tk t k) false) ∧
      (s.f t (MCC_STAT_M c) ≠ mm ∨ s.on t (MCC_STAT_DERATE_ON c) ≠ derate → r.evtStat t 230 = true) ∧
      (hot = true → r.evtStat t 231 = true) ∧ r.WordsButEvents s [(t, MCC_STAT c), (t, THERM_STAT)]
    (s.f t (MCC_STAT_STATE c) = 2 → s.mr4Ready t c = true → Does (.mcMr4Poll t c m derate hot) s shown) ∧
    (s.f t (MCC_STAT_STATE c) = 2 → s.mr4Ready t c = false → Does (.mcMr4Poll t c m derate hot) s (· = s)) ∧
    (s.f t (MCC_STAT_STATE c) = 3 → (s.mcChan t c).waits = [] → Does (.selfRefreshExit t c m derate hot) s fun r =>
      shown r ∧ r.f t (MCC_STAT_STATE c) = 2 ∧ r.f t (MCC_STAT_OWED0 c) = 0 ∧ r.f t (MCC_STAT_OWED1 c) = 0 ∧
      r.mcChan t c = { s.mcChan t c with clockSr := false }) ∧
    (∀ q, s.f t (MCC_STAT_STATE c) = 3 → s.mcChan t c = { waits := [q] } → q.wr = false → 5 ≤ q.port → s.on t SRAM_INJ_ARMED = false →
      Does (.selfRefreshExit t c m derate hot) s fun r =>
        r.f t (MCC_STAT_STATE c) = 2 ∧ (r.mcChan t c).waits = [] ∧
        smLook (r.mcChan t c).used (s.bankOf t (chanOffset q.addr)) = some (s.now + 1))) ∧
  (∀ (t c : Nat) (s : State), s.live t 5 = true → c < 8 →
    (∀ v, bits v 0 2 ≠ 3 → Does (.mrcmdStart t c v) s fun r =>
      r.f t (MCC_MRCMD_OP c) = bits v 0 2 ∧ r.f t (MCC_MRCMD_RANK c) = bits v 2 1 ∧ r.f t (MCC_MRCMD_MA c) = bits v 3 7 ∧
      r.f t (MCC_MRCMD_DATA c) = bits v 10 8 ∧ r.on t (MCC_MRCMD_DONE c) = false ∧ smGet r.mem.mrBusy (tk t c) false = true ∧
      r.WordsBut s [(t, MCC_MRCMD c)]) ∧
    (∀ v, bits v 0 2 = 3 → Does (.mrcmdStart t c v) s fun r => r.f t (MCC_MRCMD_OP c) = s.f t (MCC_MRCMD_OP c) ∧ r.on t (MCC_MRCMD_DONE c) = false) ∧
    (∀ d, smGet s.mem.mrBusy (tk t c) false = true → Does (.mrcmdDone t c d) s fun r =>
      r.on t (MCC_MRCMD_DONE c) = true ∧ smGet r.mem.mrBusy (tk t c) false = false ∧
      r.f t (MCC_MRDATA_DATA c) = (if s.f t (MCC_MRCMD_OP c) = 1 then d % 256 else s.f t (MCC_MRDATA_DATA c)) ∧
      r.WordsBut s [(t, MCC_MRCMD c), (t, MCC_MRDATA c)]) ∧
    (∀ d, smGet s.mem.mrBusy (tk t c) false = false → Does (.mrcmdDone t c d) s fun r => r = s) ∧
    (∀ v, bits v 0 2 ≠ 3 → bits v 2 2 ≠ 3 → bits v 16 16 ≠ 0 → Does (.trainStart t c v) s fun r =>
      r.f t (MCC_TRAIN_CTL_MODE c) = bits v 0 2 ∧ r.f t (MCC_TRAIN_CTL_PAT c) = bits v 2 2 ∧ r.f t (MCC_TRAIN_CTL_RANK c) = bits v 4 1 ∧
      r.f t (MCC_TRAIN_CTL_BURSTS c) = bits v 16 16 ∧ r.on t (MCC_TRAIN_CTL_DONE c) = false ∧
      smGet r.mem.trBusy (tk t c) false = true ∧ (∀ k, k < 18 → r.reg t (MCC_TRAIN_ERR c k) = 0)) ∧
    (∀ errs, smGet s.mem.trBusy (tk t c) false = true → s.f t (MCC_STAT_STATE c) = 1 → Does (.mcTrainDone t c errs) s fun r =>
      r.on t (MCC_TRAIN_CTL_DONE c) = true ∧ smGet r.mem.trBusy (tk t c) false = false ∧ r.evtStat t 232 = true ∧
      ∀ k, k < 18 → r.reg t (MCC_TRAIN_ERR c k) = min 65535 (errs.getD k 0)) ∧
    (∀ errs, smGet s.mem.trBusy (tk t c) false = false ∨ s.f t (MCC_STAT_STATE c) ≠ 1 → Does (.mcTrainDone t c errs) s fun r => r = s)) ∧
  (∀ (t : Nat) (s : State), s.up t 5 = true →
    Does (.logClr t) s (fun r => r.corrLog t = [] ∧ r.f t INTEG_STAT_VALID = 0 ∧ r.f t INTEG_STAT_LOST = 0 ∧
      smGet r.mem.corrLost t 0 = 0 ∧ (∀ u, u ≠ t → r.corrLog u = s.corrLog u) ∧ r.WordsBut s [(t, INTEG_STAT)]) ∧
    (∀ v, Does (.injArm t v) s fun r =>
      s.OnlyRegs r ∧ r.WordsBut s [(t, INJ_CTL)] ∧ r.on t INJ_CTL_ARMED = true ∧ r.f t INJ_CTL_KIND = bits v 0 2 ∧ r.f t INJ_CTL_WORD = bits v 2 3 ∧
      r.f t INJ_CTL_BIT0 = (if bits v 5 7 ≤ 71 then bits v 5 7 else s.f t INJ_CTL_BIT0) ∧
      r.f t INJ_CTL_BIT1 = (if bits v 12 7 ≤ 71 then bits v 12 7 else s.f t INJ_CTL_BIT1)) ∧
    (∀ v, Does (.sramInjArm t v) s fun r =>
      s.OnlyRegs r ∧ r.WordsBut s [(t, SRAM_INJ)] ∧ r.on t SRAM_INJ_ARMED = true ∧ r.f t SRAM_INJ_SRAM = bits v 0 4)) ∧
  (∀ (t a b c : Nat) (s : State), s.live t 0 = true →
    let bitSet := fun (k : Nat) (r : State) => bit (r.reg t INTEG_SRAM_PERR) k = true
    (∀ k, k < 2 → Does (.sramParityError t k a b c) s fun r => bitSet (tcmSram (a % 65536 + 65536 * k)) r ∧ r.evtStat t 245 = true ∧
      r.tcmMarked t (a % 65536 + 65536 * k) = true ∧ r.WordsButEvents s [(t, INTEG_SRAM_PERR)]) ∧
    (∀ k, k = 2 ∨ 8 ≤ k ∧ k < 15 → Does (.sramParityError t k a b c) s fun r =>
      bitSet k r ∧ r.evtStat t 244 = true ∧ r.WordsButEvents s [(t, INTEG_SRAM_PERR)] ∧
      (k = 12 → r.eccErr t a = poisonPattern ∧ r.mapBit t a = true) ∧
      (k = 13 → (r.mcChan t a).wq.length = (s.mcChan t a).wq.length ∧ ∀ e, (r.mcChan t a).wq[b]? = some e → e.poison = true)) ∧
    Does (.sramParityError t 3 a b c) s (fun r => bitSet 3 r ∧ r.on t RC_STAT_DEF_TFAULT = true ∧ r.evtStat t 99 = true) ∧
    Does (.sramParityError t 4 a b c) s (fun r => bitSet 4 r ∧ bit (r.f t RC_STAT_LSC_TFAULT) (a % 4) = true ∧ r.evtStat t 99 = true) ∧
    Does (.sramParityError t 5 a b c) s (fun r => bitSet 5 r ∧ r.on t (DV_STAT_TONE_TFAULT (a % 2)) = true ∧ r.evtStat t 105 = true) ∧
    Does (.sramParityError t 6 a b c) s (fun r => bitSet 6 r ∧ r.on t (DV_STAT_LUT_TFAULT (a % 2)) = true ∧ r.evtStat t 105 = true) ∧
    Does (.sramParityError t 7 a b c) s (fun r => bitSet 7 r ∧ r.on t (OC_STAT_COEF_TFAULT (a % 4)) = true ∧ r.evtStat t 117 = true) ∧
    Does (.sramParityError t 15 0 b c) s (fun r => bitSet 15 r ∧ r.evtStat t 244 = true ∧
      (b < 8 → (r.crew t b).recvq = (s.crew t b).recvq.eraseIdx c)) ∧
    Does (.sramParityError t 15 1 b c) s (fun r => bitSet 15 r ∧ r.evtStat t 244 = true ∧
      (r.dma t).queue.length = (s.dma t).queue.length ∧ ∀ e, (r.dma t).queue[b]? = some e → e.bad = true))

/-- Position feedback (R428 to R443). -/
def Obligations.PositionCommandsComplete : Prop :=
  (∀ (c : Nat) (s : State), s.live 0 0 = true → c < 4 →
    let x := s.posCh c
    let mode := s.f 0 (PC_CTL_MODE c)
    let idle : Prop := s.posHalted = false ∧ x.faulty = false ∧ s.posFault c = false ∧ ∀ k, k < 8 → s.on 0 (CMP_CTL_ARMED c k) = false
    let doubt := fun (r : State) => r.on 0 (PC_STAT_UNCERTAIN c) = true ∧ r.on 0 (PC_STAT_HOMED c) = false
    let moved := fun (d : Int) (r : State) => r.posP c = ux 48 ((s.posP c : Int) + d)
    (∀ sin cos, s.posHalted = true ∨ mode ≠ 1 ∨ s.periodDue 9 c 200 = false → Does (.posSample c sin cos) s fun r => r = s) ∧
    (∀ sin cos, s.posHalted = false → mode = 1 → s.periodDue 9 c 200 = true → x.angle = none → Does (.posSample c sin cos) s fun r =>
      r.posP c = s.posP c ∧ ∃ a, a < 4096 ∧ (r.posCh c).angle = some a) ∧
    (∀ sin cos b, idle → mode = 1 → s.periodDue 9 c 200 = true → x.angle = some b → x.bad + 1 < s.f 0 (PC_WIRE_AMP_CNT c) → Does (.posSample c sin cos) s fun r =>
      ∃ a, a < 4096 ∧ (r.posCh c).angle = some a ∧
        let d : Int := (((a + 4096 - b + 2048) % 4096 : Nat) : Int) - 2048
        moved d r ∧ (((s.f 0 (PC_OVS_OVS_LIM c) : Nat) : Int) < absI d →
          r.on 0 (PC_STAT_OVERSPEED c) = true ∧ doubt r ∧ r.evtStat 0 275 = true)) ∧
    (∀ a0 b0 a1 b1, s.posHalted = true ∨ mode ≠ 2 → Does (.posQuadEdge c a0 b0 a1 b1) s fun r => r = s) ∧
    (∀ a0 b0 a1 b1, idle → mode = 2 →
      let k := (quadIndex a1 b1 + 4 - quadIndex a0 b0) % 4
      (k = 0 → Does (.posQuadEdge c a0 b0 a1 b1) s fun r => r = s) ∧
      (k = 1 → Does (.posQuadEdge c a0 b0 a1 b1) s (moved 1024)) ∧
      (k = 3 → Does (.posQuadEdge c a0 b0 a1 b1) s (moved (-1024))) ∧
      (k = 2 → Does (.posQuadEdge c a0 b0 a1 b1) s fun r =>
        r.posP c = s.posP c ∧ r.on 0 (PC_STAT_QUAD_ERR c) = true ∧ doubt r ∧ r.evtStat 0 275 = true)) ∧
    (∀ pair st, pair < 3 → s.posHalted = false → mode = 1 ∨ mode = 2 → Does (.posWireFault c pair st) s fun r =>
      let w := if pair = 0 then PC_STAT_SIN_W c else if pair = 1 then PC_STAT_COS_W c else PC_STAT_IDX_W c
      r.f 0 w = st % 4 ∧ r.posP c = s.posP c ∧ (s.f 0 w = 0 → st % 4 ≠ 0 → r.evtStat 0 273 = true) ∧
      (pair < 2 → st % 4 ≠ 0 → r.reg64 0 (PC_SPD_LO c) = 0 ∧ doubt r ∧ (r.posCh c).faulty = true)) ∧
    (s.posHalted = false → s.on 0 (PC_STAT_METHOD c) = true → s.posFault c = false →
      x.winTick + s.f 0 (PC_SPDCFG_WIN c) * usTicks ≤ s.now → Does (.posSpeedWindow c) s fun r =>
        let v := divRnd (rel48 (s.posP c) x.winP * 65536000000) (s.f 0 (PC_SPDCFG_WIN c))
        r.reg64 0 (PC_SPD_LO c) = ux 64 v ∧ (r.posCh c).winP = s.posP c ∧ (r.posCh c).winTick = s.now ∧
        r.on 0 (PC_STAT_METHOD c) = !decide (absI v < thrSpeed (s.reg 0 (PC_SPD_LO_T c)))) ∧
    (s.on 0 (PC_STAT_METHOD c) = false → Does (.posSpeedWindow c) s fun r => r = s) ∧
    (∀ t0, s.posHalted = false → x.edgeTick = some t0 → s.on 0 (PC_STAT_METHOD c) = false →
      t0 + max 1 (s.f 0 (PC_PER_MAX_PER_MAX c)) * 1000 * usTicks ≤ s.now → Does (.posStopped c) s fun r =>
        r.reg64 0 (PC_SPD_LO c) = 0 ∧ r.on 0 (PC_STAT_STOPPED c) = true ∧ r.posP c = s.posP c) ∧
    (x.edgeTick = none → Does (.posStopped c) s fun r => r = s) ∧
    (∀ active ago, s.on 0 (PC_CTL_IDX_EN c) = false ∨ active = s.on 0 (PC_STAT_DIR c) → Does (.posIndex c active ago) s fun r => r = s) ∧
    (∀ active ago, s.posHalted = false → mode ≠ 0 → s.on 0 (PC_CTL_IDX_EN c) = true → s.reg 0 (PC_IDX_N c) ≠ 0 →
      s.f 0 (PC_STAT_IDX_W c) = 0 → active ≠ s.on 0 (PC_STAT_DIR c) →
      let n := s.reg 0 (PC_IDX_N c)
      let p := s.posAt c (s.now - ago)
      let m := ((p - (s.reg 0 (PC_IDX_EXP c) : Nat)) % (n : Nat)).toNat
      let d : Int := if n ≤ 2 * m then (m : Int) - n else m
      let near := absI d ≤ ((s.f 0 (PC_IDX_TOL_IDX_TOL c) : Nat) : Int)
      let counted := fun (r : State) => r.reg 0 (PC_IDX_CNT c) = min (2 ^ 32 - 1) (s.reg 0 (PC_IDX_CNT c) + 1)
      (s.on 0 (PC_CTL_IDX_MODE c) = false → near → Does (.posIndex c active ago) s fun r =>
        counted r ∧ s.OnlyRegs r ∧ r.WordsBut s [(0, PC_IDX_CNT c)]) ∧
      (s.on 0 (PC_CTL_IDX_MODE c) = false → ¬ near → Does (.posIndex c active ago) s fun r =>
        counted r ∧ r.reg 0 (PC_IDX_ACT c) = (p % (n : Nat)).toNat ∧ r.on 0 (PC_STAT_INDEX_MISMATCH c) = true ∧ r.evtStat 0 276 = true ∧
        r.posP c = s.posP c) ∧
      (s.on 0 (PC_CTL_IDX_MODE c) = true → (s.on 0 (PC_STAT_HOMED c) = true → near) → Does (.posIndex c active ago) s fun r =>
        counted r ∧ moved (-d) r ∧ r.on 0 (PC_STAT_HOMED c) = true ∧ r.on 0 (PC_STAT_UNCERTAIN c) = false)) ∧
    (∀ lo hi, Does (.posWrite c lo hi) s fun r =>
      r.posP c = lo % 2 ^ 32 + hi % 65536 * 2 ^ 32 ∧ r.on 0 (PC_STAT_UNCERTAIN c) = false ∧ r.pos.tgt = s.pos.tgt ∧
      (∀ k, k < 8 → s.on 0 (CMP_CTL_ARMED c k) = true → r.on 0 (CMP_STAT_BEHIND c k) = r.cmpBehind c k) ∧
      ∀ k, k < 8 → r.reg 0 (CMP_COUNT c k) = s.reg 0 (CMP_COUNT c k))) ∧
  (∀ (c k : Nat) (s : State), s.live 0 0 = true → c < 4 → k < 8 →
    let words := [(0, CMP_CTL c k), (0, CMP_STAT c k)]
    let behind := fun (t : Nat) =>
      !s.on 0 (PC_STAT_STOPPED c) && (if s.on 0 (PC_STAT_DIR c) then decide (0 ≤ rel48 t (s.posP c)) else decide (rel48 t (s.posP c) ≤ 0))
    Does (.cmpDisarm c k) s (fun r => s.OnlyRegs r ∧ r.on 0 (CMP_CTL_ARMED c k) = false ∧ r.WordsBut s [(0, CMP_CTL c k)]) ∧
    (behind (s.cmpTgt c k) = false ∨ s.on 0 (CMP_CTL_ARM_IMMEDIATE c k) = false → Does (.cmpArm c k) s fun r =>
      s.OnlyRegs r ∧ r.on 0 (CMP_CTL_ARMED c k) = true ∧ r.on 0 (CMP_STAT_BEHIND c k) = behind (s.cmpTgt c k) ∧ r.WordsBut s words) ∧
    (behind (s.cmpTgt c k) = true → s.on 0 (CMP_CTL_ARM_IMMEDIATE c k) = true → s.on 0 (CMP_CTL_ACT_EVT c k) = true →
      s.on 0 (CMP_CTL_ACT_XTRIG c k) = false → s.on 0 (CMP_CTL_ACT_GEY c k) = false → s.on 0 (CMP_CTL_ACT_CAP c k) = false →
      s.on 0 (CMP_CTL_ACT_COMMIT c k) = false → s.a 0 BS_TRIG_KIND ≠ 2 → Does (.cmpArm c k) s fun r =>
        let n := s.reg 0 (CMP_COUNT c k)
        let step := sx 32 (s.reg 0 (CMP_STEP c k))
        r.reg 0 (CMP_COUNT c k) = (if n = 0xFFFFFFFF then 1 else n + 1) ∧ r.on 0 (CMP_STAT_LATE c k) = true ∧
        r.on 0 (CMP_STAT_BEHIND c k) = false ∧ r.evtStat 0 278 = true ∧ r.evtStat 0 272 = true ∧
        (step = 0 → r.on 0 (CMP_CTL_ARMED c k) = false ∧ r.cmpTgt c k = s.cmpTgt c k) ∧
        (step ≠ 0 → r.on 0 (CMP_CTL_ARMED c k) = true ∧ r.cmpTgt c k = ux 48 (s.cmpTgt c k + step))) ∧
    (∀ lo hi, s.on 0 (CMP_CTL_ARMED c k) = false → Does (.cmpTargetWrite c k lo hi) s fun r =>
      let t := lo % 2 ^ 32 + hi % 65536 * 2 ^ 32
      r.cmpTgt c k = t ∧ r.on 0 (CMP_STAT_BEHIND c k) = behind t ∧ r.on 0 (CMP_CTL_ARMED c k) = false ∧ r.posP c = s.posP c)) ∧
  (∀ (k : Nat) (s : State), s.live 0 0 = true → k < 8 →
    let x := smGet s.pos.lens k {}
    let port := smGet s.adit.ports (tk (s.f 0 (LM_CFG_TILE k)) (s.f 0 (LM_CFG_SRC k))) {}
    (∀ tick n l, x.reports = (tick, n) :: l → Does (.lensTrigger k) s fun r =>
      r = { s with pos.lens := r.pos.lens } ∧ smGet r.pos.lens k {} = { x with
        reports := l
        trigs := { tick := tick, n := n, at_ := s.now, pos := (List.range 4).map fun c => s.posAt c tick } :: x.trigs }) ∧
    (x.reports = [] → Does (.lensTrigger k) s fun r => r = s) ∧
    (port.lastN = none ∨ s.on 0 (LM_CFG_EN k) = false → Does (.lensRecord k) s fun r => r = s) ∧
    (∀ n, port.lastN = some n → s.on 0 (LM_CFG_EN k) = true → x.lastN ≠ some n →
      let next := s.f 0 (LM_NEXT_NEXT k)
      let at_ := s.reg64 0 (LM_BASE_LO k) + 64 * next
      let cnt := port.lastCnt.getD 0
      Does (.lensRecord k) s fun r =>
        r.f 0 (LM_NEXT_NEXT k) = (if s.f 0 (LM_NSLOT_NSLOT k) ≤ next then 0 else next + 1) ∧ r.reg 0 (LM_FCNT k) = cnt % 2 ^ 32 ∧
        (smGet r.pos.lens k {}).lastN = some n ∧ (smGet r.pos.lens k {}).reports = x.reports ∧
        (s.CleanMem → oneWindow 0 at_ 64 → r.BytesBut s 0 at_ 64) ∧
        (let a := dramAt 0 at_
         s.CleanMem → s.dramOk 0 at_ 64 = true → a.2 % 64 = 0 → s.failedAt a.1 a.2 = false →
          r.dbytes a.1 a.2 4 = leBytes 4 cnt ∧ r.dbytes a.1 (a.2 + 8) 8 = leBytes 8 n)))

/-- PDM audio (R447, R449 to R452, R454). -/
def Obligations.AudioCommandsComplete : Prop :=
  (∀ s : State, s.live 0 0 = true →
    let st := s.f 0 AUD_STAT_STATE
    let k := s.reg 0 AUD_BLOCK
    let due := atOrAfter s.audNow (s.audT (k + 1))
    (st ≠ 1 ∨ atOrAfter s.audNow (s.audT 0) = false → Does .audioRun s fun r => r = s) ∧
    (st = 1 → atOrAfter s.audNow (s.audT 0) = true →
      let runs := fun (r : State) => r.f 0 AUD_STAT_STATE = 2 ∧ r.audio.warm = false ∧ r.evtStat 0 280 = true
      (s.on 0 AUD_STAT_PEND = false → Does .audioRun s fun r =>
        runs r ∧ r.audio.ch = s.audio.ch ∧ r.WordsButEvents s [(0, AUD_STAT)]) ∧
      (s.on 0 AUD_STAT_PEND = true → (∀ ch, ch < 16 → (s.aud ch).fade = 0) → Does .audioRun s fun r =>
        runs r ∧ r.f 0 AUD_MASK_ACTIVE = s.f 0 AUD_MASK_MASK ∧ r.on 0 AUD_STAT_PEND = false ∧
        (s.f 0 AUD_MASK_MASK = s.f 0 AUD_MASK_ACTIVE → r.evtStat 0 282 = true) ∧
        ∀ ch, ch < 16 →
          if bit (s.f 0 AUD_MASK_MASK) ch = s.audActive ch then (r.aud ch).fade = 0
          else (r.aud ch).fade = (if s.audActive ch then 2 else 1) ∧ (r.aud ch).since = 0)) ∧
    (∀ xs, st = 0 ∨ (s.audio.warm = false ∧ due = false) ∨ (s.audio.warm = true ∧ s.periodDue 11 0 (1000 * usTicks) = false) → Does (.audioBlock xs) s fun r => r = s) ∧
    (∀ xs, st ≠ 0 → s.audio.warm = true → s.periodDue 11 0 (1000 * usTicks) = true →
      (st ≠ 3 → Does (.audioBlock xs) s fun r =>
        r.f 0 AUD_STAT_STATE = st ∧ r.reg 0 AUD_BLOCK = k ∧ r.writes = s.writes ∧ r.dram = s.dram) ∧
      (st = 3 → Does (.audioBlock xs) s fun r => r.f 0 AUD_STAT_STATE = 0 ∧ r.audio.warm = false ∧ r.writes = s.writes ∧ r.evtStat 0 286 = true)) ∧
    (∀ xs, st ≠ 0 → s.audio.warm = false → due = true →
      let out := fun (v : Int) => decide (v < -8388608) || decide (8388607 < v)
      let written := fun (r : State) => ∀ ch, ch < 16 →
        r.f 0 (AUD_CLIPS_COUNT ch) =
          satAdd (2 ^ 32 - 1) (s.f 0 (AUD_CLIPS_COUNT ch)) (((List.range s.audB).map fun i => (xs.getD ch []).getD i 0).filter out).length ∧
        ((s.aud ch).fade = 0 → s.audActive ch = true → s.overrunning 0 4 ch = false →
          r.f 0 (AUD_NEXT_NEXT ch) = (if s.f 0 (AUD_NBLK_NBLK ch) ≤ s.f 0 (AUD_NEXT_NEXT ch) then 0 else s.f 0 (AUD_NEXT_NEXT ch) + 1) ∧
          (r.aud ch).lost = 0 ∧ r.evtStat 0 281 = true) ∧
        ((s.aud ch).fade = 0 → s.audActive ch = true → s.overrunning 0 4 ch = true →
          r.f 0 (AUD_NEXT_NEXT ch) = s.f 0 (AUD_NEXT_NEXT ch) ∧ (r.aud ch).lost = (s.aud ch).lost + 1 ∧
          r.f 0 (AUD_LOST_COUNT ch) = satAdd (2 ^ 32 - 1) (s.f 0 (AUD_LOST_COUNT ch)) 1 ∧ r.evtStat 0 285 = true) ∧
        ((s.aud ch).fade = 0 → s.audActive ch = false → r.f 0 (AUD_NEXT_NEXT ch) = s.f 0 (AUD_NEXT_NEXT ch))
      (st ≠ 3 → Does (.audioBlock xs) s fun r => written r ∧ r.reg 0 AUD_BLOCK = (k + 1) % 2 ^ 32 ∧ r.f 0 AUD_STAT_STATE = st) ∧
      (st = 3 → Does (.audioBlock xs) s fun r =>
        written r ∧ r.reg 0 AUD_BLOCK = k ∧ r.f 0 AUD_STAT_STATE = 0 ∧ r.evtStat 0 286 = true ∧ ∀ ch, ch < 16 → (r.aud ch).fade = 0)) ∧
    (∀ m, Does (.audMaskWrite m) s fun r =>
      s.OnlyRegs r ∧ r.f 0 AUD_MASK_MASK = m % 65536 ∧ r.f 0 AUD_MASK_ACTIVE = s.f 0 AUD_MASK_ACTIVE ∧ r.on 0 AUD_STAT_PEND = true ∧
      r.f 0 AUD_STAT_STATE = st ∧ r.WordsBut s [(0, AUD_MASK), (0, AUD_STAT)]) ∧
    (∀ ch, ch < 16 →
      let x := s.aud ch
      let due : Prop := (x.fade = 1 ∨ x.fade = 2) ∧ x.since + max 1 (s.f 0 AUD_CTL_ZC_TMO) ≤ k ∧ st ≠ 0
      (due → Does (.audioZcTimeout ch) s fun r =>
        r.aud ch = { x with fade := x.fade + 2 } ∧ r.evtStat 0 283 = true ∧ r.WordsButEvents s []) ∧
      (¬ due → Does (.audioZcTimeout ch) s fun r => r = s)) ∧
    (st = 1 ∨ st = 2 → Does .audioStop s fun r => s.OnlyRegs r ∧ r.f 0 AUD_STAT_STATE = 3 ∧ r.WordsBut s [(0, AUD_STAT)]) ∧
    (st = 0 ∨ st = 3 → Does .audioStop s fun r => r = s)) ∧
  (∀ (prev : Option Int) (xs : List Int) (k i : Nat), firstCrossing prev xs 0 = some k → i < xs.length →
    (audFade 1 prev xs).1.getD i 0 = (if i < k then 0 else xs.getD i 0) ∧ (audFade 1 prev xs).2 = (true, 1) ∧
    (audFade 2 prev xs).1.getD i 0 = (if i < k then xs.getD i 0 else 0) ∧ (audFade 2 prev xs).2 = (true, 10))

/-- Thermal, power and the arbiter (R456 to R467, R469). -/
def Obligations.ThermalAndPowerCommandsComplete : Prop :=
  (∀ (t : Nat) (temps : List Int) (s : State), s.periodDue 4 t (100 * usTicks) = false → Does (.thermSample t temps) s (· = s)) ∧
  (∀ (t : Nat) (temps : List Int) (s : State), s.has t = true → s.boot.porLow = false → s.periodDue 4 t (100 * usTicks) = true →
    let v := fun (k : Nat) => sx 16 (ux 16 (temps.getD k 0))
    let failed := fun (r : State) => ((List.range 24).filter fun k => r.on t (THERM_SITE_FAULT k)).length
    Does (.thermSample t temps) s fun r =>
      let m := r.fi t THERM_TILE_MAX
      let p := r.fi 0 PKG_TEMP_MAX
      (∀ k, k < 24 →
        r.siteTemp t k = v k ∧ (s.on t (THERM_SITE_FAULT k) = true → r.on t (THERM_SITE_FAULT k) = true) ∧
        (v k < -960 ∨ 2400 < v k → r.on t (THERM_SITE_FAULT k) = true ∧ (s.on t (THERM_SITE_FAULT k) = false → r.evtStat t 291 = true)) ∧
        (-960 ≤ v k → v k ≤ 2400 → (s.thSite t k).same + 1 < 10000 → r.on t (THERM_SITE_FAULT k) = s.on t (THERM_SITE_FAULT k)) ∧
        (r.on t (THERM_SITE_FAULT k) = false → v k ≤ m)) ∧
      r.f t THERM_STAT_FAILED_SITES = failed r ∧
      (failed r < 5 → v (r.f t THERM_TILE_SITE) = m) ∧ (5 ≤ failed r → s.fi t THERM_CFG_THROTTLE ≤ m) ∧
      (s.fi t THERM_CFG_WARN ≤ m → r.on t THERM_STAT_WARN = true ∧ (s.on t THERM_STAT_WARN = false → r.evtStat t 288 = true)) ∧
      (m < s.fi t THERM_CFG_WARN - 48 → r.on t THERM_STAT_WARN = false) ∧
      (∀ u, u < s.tiles → r.fi u THERM_TILE_MAX ≤ p) ∧ p = r.fi (r.f 0 PKG_TEMP_TILE) THERM_TILE_MAX ∧
      r.on 0 THERM_STAT_THROTTLE = decide (s.fi 0 THERM_CFG_THROTTLE ≤ p) ∧
      (s.on 0 THERM_STAT_THROTTLE = false → s.fi 0 THERM_CFG_THROTTLE ≤ p → r.evtStat 0 289 = true) ∧
      (s.pwr.shutdown = none → s.pwr.pwrOff = false →
        ((∃ k, k < 24 ∧ r.on t (THERM_SITE_FAULT k) = false ∧ (s.thSite t k).crit = true ∧ s.fi t THERM_CRIT_CRIT ≤ v k) ↔
          ∃ k, k < 24 ∧ r.pwr.shutdown = some (1, t, k, ux 16 (v k))))) ∧
  (∀ (t : Nat) (mw : List Nat) (s : State), s.periodDue 5 t (10 * usTicks) = false → Does (.powerEstimate t mw) s (· = s)) ∧
  (∀ (t : Nat) (mw : List Nat) (s : State), s.live t 0 = true → s.periodDue 5 t (10 * usTicks) = true → Does (.powerEstimate t mw) s fun r =>
    s.OnlyRegs { r with time := s.time } ∧ r.WordsBut s ((0, PKG_PWR) :: (t, PWR_TILE) :: (List.range 8).map fun i => (t, PWR_ISL i)) ∧
    (∀ i, i < 8 → r.f t (PWR_ISL_MW i) = if s.island t i then min 65535 (mw.getD i 0) else 0) ∧
    r.f t PWR_TILE_MW = min 65535 ((rnd 14 ((r.coreSum t * s.f t PWR_TRIM_TRIM : Nat) : Int)).toNat + r.f t (PWR_ISL_MW 6)) ∧
    r.reg 0 PKG_PWR = ((s.tileList.filter fun u => !s.isolated u).map fun u => r.f u PWR_TILE_MW).foldl (· + ·) 0) ∧
  (∀ s : State, s.live 0 0 = true →
    let n := s.now / (1000 * usTicks)
    let th := s.f 0 PLIM_STAT_THERMAL
    let cool : Prop := s.pwr.hotTick = 0 ∨ s.pwr.hotTick - 1 + 10000 * usTicks ≤ s.now
    (n ≤ s.pwr.plimTick → Does .plimTick s fun r => r = s) ∧
    (s.pwr.plimTick < n → Does .plimTick s fun r =>
      let p := min (min (r.f 0 PLIM_STAT_THERMAL) (s.f 0 PLIM_HOST_HOST_CAP)) (if s.on 0 PLIM_STAT_LIMITED then 14 else 31)
      (s.on 0 THERM_STAT_THROTTLE = true ∨ s.dramHot = true → r.f 0 PLIM_STAT_THERMAL = th - 1) ∧
      (s.on 0 THERM_STAT_THROTTLE = false → s.dramHot = false → n % 10 = 0 → cool → r.f 0 PLIM_STAT_THERMAL = min 31 (th + 1)) ∧
      (s.on 0 THERM_STAT_THROTTLE = false → s.dramHot = false → n % 10 ≠ 0 ∨ ¬ cool → r.f 0 PLIM_STAT_THERMAL = th) ∧
      r.f 0 PLIM_STAT_PLIM = p ∧ r.reg 0 PKG_LIMIT = (7 + 3 * p) * s.tdp / 100 ∧ (p ≠ s.f 0 PLIM_STAT_PLIM → r.evtStat 0 292 = true) ∧
      r.pwr.plimTick = n ∧ r.WordsButEvents s [(0, PLIM_STAT), (0, PKG_LIMIT)])) ∧
  (∀ (l : List (Bool × Nat × Nat)) (s : State), s.live 0 0 = true →
    (s.on 0 PMB_CFG_EN = false → Does (.pmbusPoll l) s fun r => r = s) ∧
    (s.periodDue 6 0 (max 1 (s.f 0 PMB_CFG_POLL) * 1000 * usTicks) = false → Does (.pmbusPoll l) s (· = s)) ∧
    (s.on 0 PMB_CFG_EN = true → s.periodDue 6 0 (max 1 (s.f 0 PMB_CFG_POLL) * 1000 * usTicks) = true → Does (.pmbusPoll l) s fun r =>
      (∀ d ok pout st, d < 8 → l[d]? = some (ok, pout, st) →
        let nack := bit (s.f 0 PMB_STAT_NACK) d
        (s.on 0 (PMB_DEV_EN d) = false → bit (r.f 0 PMB_STAT_NACK) d = nack ∧ r.reg 0 (PMB_POW d) = s.reg 0 (PMB_POW d)) ∧
        (s.on 0 (PMB_DEV_EN d) = true → ok = false →
          bit (r.f 0 PMB_STAT_NACK) d = true ∧ r.reg 0 (PMB_POW d) = s.reg 0 (PMB_POW d) ∧ (nack = false → r.evtStat 0 295 = true)) ∧
        (s.on 0 (PMB_DEV_EN d) = true → ok = true →
          bit (r.f 0 PMB_STAT_NACK) d = nack ∧ r.f 0 (PMB_POW_STATUS d) = st % 65536 ∧
          r.f 0 (PMB_POW_MW d) = (clampI 0 65535 (divRnd (linear11 (pout % 65536)).1 (linear11 (pout % 65536)).2)).toNat ∧
          (regWarn st = true → bit (r.f 0 PMB_STAT_WARN) d = true ∧ r.evtStat 0 296 = true) ∧
          (∀ t, s.trimTile d = some t → (∀ e, e < 8 → s.trimTile e = some t → e = d) → nack = false → s.coreSum t ≠ 0 →
            let q := linear11 (pout % 65536)
            r.f t PWR_TRIM_TRIM = (clampI 8192 32768
              (divRnd (15 * s.f t PWR_TRIM_TRIM * (s.coreSum t * q.2) + q.1 * 16384) (16 * (s.coreSum t * q.2)))).toNat) ∧
          (regFault st = true → s.on 0 (PMB_DEV_FAULT_EN d) = true → s.f 0 PL_PSTATE_STATE ≤ 1 → s.pwr.shutdown = none → s.pwr.pwrOff = false →
            r.pwr.shutdown = some (2, 0, 255, s.f 0 PKG_TEMP_MAX)))))) ∧
  (∀ s : State, s.periodDue 7 0 (10 * usTicks) = false → Does .arbiterPass s (· = s)) ∧
  (∀ s : State, s.live 0 0 = true → s.periodDue 7 0 (10 * usTicks) = true → s.on 0 PLIM_STAT_RT_SHORT = false → s.f 0 PL_PSTATE_STATE < 2 →
    let lim : Int := (s.reg 0 PKG_LIMIT : Nat)
    let p : Int := (s.reg 0 PKG_PWR : Nat)
    let late := s.pwr.recent.filter fun e => s.now < e.1 + 100 * usTicks
    let h := lim - p - ((late.map (·.2)).foldl (· + ·) 0 : Nat)
    let shown := fun (f : Int) (r : State) => r.reg 0 HEADROOM = ux 32 h ∧ r.reg 0 RT_FLOOR = ux 32 f
    (∀ j : ArbJob, s.pwr.jobs = [j] → j.st = 0 → j.kind ∉ [2, 5, 6, 7] → p ≤ lim → 0 ≤ h →
      ((s.jobCost j : Int) ≤ h → Does .arbiterPass s fun r =>
        shown p r ∧ r.pwr.jobs = [{ j with st := 1, started := s.now }] ∧ r.pwr.recent = late ++ [(s.now, s.jobCost j)] ∧
        r.pwr.negRun = 0 ∧ r.f 0 JOB_NEG_TIME = 0) ∧
      (h < (s.jobCost j : Int) → Does .arbiterPass s fun r => shown p r ∧ r.pwr.jobs = [j] ∧ r.pwr.recent = late)) ∧
    (s.pwr.jobs = [] → h < 0 → p ≤ lim → s.pwr.negRun + 1 < 500 → Does .arbiterPass s fun r =>
      shown p r ∧ r.pwr.negRun = s.pwr.negRun + 1 ∧ r.f 0 JOB_NEG_TIME = min 65535 (s.f 0 JOB_NEG_TIME + 1)) ∧
    (s.pwr.jobs = [] → lim < p → Does .arbiterPass s fun r => shown p r ∧ r.on 0 PLIM_STAT_RT_SHORT = true ∧ r.evtStat 0 293 = true) ∧
    (∀ j : ArbJob, s.pwr.jobs = [j] → j.st = 1 → j.kind ∉ [2, 4, 5, 6, 7] →
      let f := p - (s.jobCost j : Nat)
      h < 0 → f ≤ lim → 500 ≤ s.pwr.negRun + 1 → Does .arbiterPass s fun r =>
        shown f r ∧ r.pwr.jobs = [{ j with st := 3 }] ∧ r.evtStat 0 294 = true ∧ r.pwr.negRun = 0)) ∧
  (∀ s : State,
    (s.pwr.shutdown = none → Does .thermShutdown s fun r => r = s) ∧
    (∀ cause t site temp, s.pwr.shutdown = some (cause, t, site, temp) → s.boot.railBad = false → s.pwr.mram.ring.length < 64 →
      Does .thermShutdown s fun r =>
        r.pwr.thermtrip = true ∧ r.pwr.pwrOff = true ∧ r.pwr.shutdown = none ∧ r.pwr.mram.seq = s.pwr.mram.seq + 1 ∧
        r.pwr.mram.ring = s.pwr.mram.ring ++ [{
          seq := s.pwr.mram.seq, n := s.tcN 0 0, tile := t, site := site, cause := cause, plim := s.f 0 PLIM_STAT_PLIM, temp := temp
          ack := decide (cause = 3) }] ∧
        (cause = 1 → r.evtStat t 290 = true) ∧ (cause = 2 → r.evtStat 0 297 = true)) ∧
    (s.up 0 0 = true →
      Does .thermShdnArm s (fun r => r = { s with pwr.armTick := s.now + 1 }) ∧
      (s.pwr.armTick = 0 ∨ s.pwr.armTick - 1 + 1000 * usTicks < s.now → Does .thermShdnFire s fun r => r = s) ∧
      (s.pwr.armTick ≠ 0 → s.now ≤ s.pwr.armTick - 1 + 1000 * usTicks → s.pwr.shutdown = none → s.pwr.pwrOff = false →
        Does .thermShdnFire s fun r =>
          r = { s with pwr.armTick := 0, pwr.shutdown := some (3, s.f 0 PKG_TEMP_TILE, s.f 0 PKG_TEMP_SITE, s.f 0 PKG_TEMP_MAX) })))

/-- The TAPs (R508, R512, R513). -/
def Obligations.JtagInstructionsComplete : Prop :=
  ∀ s : State,
    let only := fun (r : State) => r = { s with
      freeCtr := r.freeCtr, boot.jtag := r.boot.jtag, boot.jtagData := r.boot.jtagData, boot.jtagHold := r.boot.jtagHold }
    (∀ t, s.has t = true →
      let sel := fun (v : Nat) (hold : Bool) (r : State) =>
        only r ∧ r.tapInstr t = v ∧ (∀ u, u ≠ t → r.tapInstr u = s.tapInstr u ∧ smLook r.boot.jtagData u = smLook s.boot.jtagData u) ∧
        r.boot.jtagHold = (hold || s.boot.jtagHold)
      let holds := fun (v : Nat) (r : State) => smLook r.boot.jtagData t = some v
      let full := fun (r : State) => (smLook r.boot.jtagData t).isSome = true
      Does (.idcode t) s (fun r => sel 0x01 false r ∧ holds (s.idcode t) r) ∧
      Does (.extest t) s (fun r => sel 0x00 true r ∧ full r) ∧
      Does (.samplePreload t) s (fun r => sel 0x02 false r ∧ full r) ∧
      Does (.clamp t) s (fun r => sel 0x03 true r ∧ holds 0 r) ∧
      Does (.highz t) s (fun r => sel 0x04 true r ∧ holds 0 r) ∧
      Does (.extestPulse t) s (fun r => sel 0x08 true r ∧ full r) ∧
      Does (.extestTrain t) s (fun r => sel 0x09 true r ∧ full r) ∧
      Does (.bypass t) s (fun r => sel 0xFF false r ∧ holds 0 r) ∧
      bits (s.idcode t) 28 4 = 1 ∧ bits (s.idcode t) 24 4 = t ∧ bits (s.idcode t) 0 1 = 1 ∧
      bits (s.idcode t) 12 12 = (match s.member with
        | .tiles2 => 0x882
        | .tiles4 => 0x884
        | .tiles8 => 0x888)) ∧
    Does .jtagTapReset s (fun r => only r ∧ r.boot.jtagHold = s.boot.jtagHold ∧
      ∀ t, s.has t = true → r.tapInstr t = 1 ∧ smLook r.boot.jtagData t = some (s.idcode t))
end

