-- ==== Sys2Proof/Laws/Does.lean ====
section
/-!
SUPPORT. How a claim about a command's effect is opened and closed: the guard of a meaning, loops, the end of a command.
-/

namespace Sys2Proof.Machine

@[simp] theorem when_true (s : State) (f : State → State) : s.when true f = f s := rfl

@[simp] theorem when_false (s : State) (f : State → State) : s.when false f = s := rfl

@[simp] theorem each_nil {α : Type} (s : State) (f : State → α → State) : s.each [] f = s := rfl

@[simp] theorem each_cons {α : Type} (s : State) (a : α) (l : List α) (f : State → α → State) : s.each (a :: l) f = (f s a).each l f := rfl

/-- A property that every round of a loop keeps holds after the loop. -/
theorem each_induct {α : Type} (P : State → Prop) (s : State) (l : List α) (f : State → α → State) (h0 : P s)
    (h : ∀ (s : State) a, a ∈ l → P s → P (f s a)) : P (s.each l f) := by
  induction l generalizing s with
  | nil => exact h0
  | cons a l ih => exact ih (f s a) (h s a (by simp) h0) fun s b hb => h s b (by simp [hb])

/-- A meaning is a guard and an effect: where the guard holds, the command's own effect is the effect. -/
theorem does_of {i : Instr} {s : State} {P : State → Prop} (r : State) (h : exec i s = s.finish r) (hp : P r) : Does i s P := ⟨r, h, hp⟩

/-- Where the guard of a meaning holds, the meaning ends with its effect. -/
theorem finish_when_pos (s : State) {b : Bool} (f : State → State) (h : b = true) : s.finish (s.when b f) = s.finish (f s) := by
  rw [h]
  rfl

/-- Where it does not hold, nothing happens but what every command ends with (log 1). -/
theorem finish_when_neg (s : State) {b : Bool} (f : State → State) (h : b = false) : s.finish (s.when b f) = s.finish s := by
  rw [h]
  rfl

theorem Does.mono {i : Instr} {s : State} {P Q : State → Prop} (h : Does i s P) (k : ∀ r, P r → Q r) : Does i s Q := by
  obtain ⟨r, e, p⟩ := h
  exact ⟨r, e, k r p⟩

theorem has_of_up {s : State} {t i : Nat} (h : s.up t i = true) : s.has t = true := by
  simp only [State.up, Bool.and_eq_true] at h
  exact h.1.1.1

theorem up_of_live {s : State} {t i : Nat} (h : s.live t i = true) : s.up t i = true := by
  simp only [State.live, Bool.and_eq_true] at h
  exact h.1

end Sys2Proof.Machine
end

