-- ==== Sys2Proof/Laws/Maps.lean ====
section
/-!
SUPPORT. The sparse maps and memory: what a read gives after a write, and the canonical form.
-/

namespace Sys2Proof.Machine

theorem smLook_smIns_same {α : Type} (k : Nat) (v : α) (m : SMap α) : smLook (smIns k v m) k = some v := by
  induction m with
  | nil => simp [smIns, smLook]
  | cons e m ih =>
    obtain ⟨j, w⟩ := e
    unfold smIns
    split
    · simp [smLook]
    · split
      · simp [smLook]
      · rename_i h
        simp [smLook, h, ih]

theorem smLook_smIns_ne {α : Type} {k k' : Nat} (v : α) (m : SMap α) (h : k ≠ k') :
    smLook (smIns k v m) k' = smLook m k' := by
  induction m with
  | nil => simp [smIns, smLook, h]
  | cons e m ih =>
    obtain ⟨j, w⟩ := e
    unfold smIns
    split
    · simp [smLook, h]
    · split
      · rename_i hj
        subst hj
        simp [smLook, h]
      · simp [smLook, ih]

theorem smLook_smDel_same {α : Type} (k : Nat) (m : SMap α) : smLook (smDel k m) k = none := by
  induction m with
  | nil => simp [smDel, smLook]
  | cons e m ih =>
    obtain ⟨j, w⟩ := e
    unfold smDel
    split
    · exact ih
    · rename_i h
      simp [smLook, h, ih]

theorem smLook_smDel_ne {α : Type} {k k' : Nat} (m : SMap α) (h : k ≠ k') : smLook (smDel k m) k' = smLook m k' := by
  induction m with
  | nil => simp [smDel]
  | cons e m ih =>
    obtain ⟨j, w⟩ := e
    unfold smDel
    split
    · rename_i hj
      subst hj
      simp [smLook, h, ih]
    · simp [smLook, ih]

/-- A key reads as what was written to it last. -/
@[simp] theorem smGet_smPut_same {α : Type} [DecidableEq α] (m : SMap α) (k : Nat) (v d : α) :
    smGet (smPut m k v d) k d = v := by
  unfold smGet smPut
  split
  · rename_i h
    simp [smLook_smDel_same, h]
  · simp [smLook_smIns_same]

/-- A write leaves every other key as it was. -/
theorem smGet_smPut_ne {α : Type} [DecidableEq α] (m : SMap α) {k k' : Nat} (v d d' : α) (h : k ≠ k') :
    smGet (smPut m k v d) k' d' = smGet m k' d' := by
  unfold smGet smPut
  split
  · simp [smLook_smDel_ne _ h]
  · simp [smLook_smIns_ne _ _ h]

@[simp] theorem smGet_nil {α : Type} (k : Nat) (d : α) : smGet ([] : SMap α) k d = d := rfl

/-- A filter by key keeps or drops each key whole. -/
theorem smLook_filter {α : Type} (p : Nat → Bool) (m : SMap α) (k : Nat) :
    smLook (m.filter fun e => p e.1) k = if p k then smLook m k else none := by
  induction m with
  | nil => simp [smLook]
  | cons e m ih =>
    obtain ⟨j, w⟩ := e
    by_cases hj : p j = true
    · simp only [List.filter_cons_of_pos (p := fun e : Nat × α => p e.1) (a := (j, w)) (l := m) hj, smLook]
      by_cases h : j = k
      · subst h
        simp [hj]
      · simp [h, ih]
    · simp only [List.filter_cons_of_neg (p := fun e : Nat × α => p e.1) (a := (j, w)) (l := m) hj, smLook]
      by_cases h : j = k
      · subst h
        simp [hj, ih]
      · simp [h, ih]

/-! ### The canonical form of memory -/

theorem memWf_cons (a : Nat) (v : BitVec 8) (m : List Host.Cell) :
    memWf ((a, v) :: m) = true ↔ v ≠ 0 ∧ (∀ e ∈ m.head?, a < e.1) ∧ memWf m = true := by
  cases m with
  | nil => simp [memWf]
  | cons e m =>
    obtain ⟨b, w⟩ := e
    simp [memWf, and_assoc]

theorem smIns_head (k : Nat) (v : BitVec 8) (m : List Host.Cell) (a : Nat) (ha : a < k) (h : ∀ e ∈ m.head?, a < e.1) :
    ∀ e ∈ (smIns k v m).head?, a < e.1 := by
  cases m with
  | nil => simpa [smIns] using ha
  | cons e m =>
    obtain ⟨j, w⟩ := e
    simp only [List.head?_cons, Option.mem_def, Option.some.injEq, forall_eq'] at h
    unfold smIns
    split
    · simpa using ha
    · split
      · simpa using ha
      · simpa using h

theorem memWf_smIns (k : Nat) (v : BitVec 8) (m : List Host.Cell) (hv : v ≠ 0) (h : memWf m = true) :
    memWf (smIns k v m) = true := by
  induction m with
  | nil => simpa [smIns, memWf] using hv
  | cons e m ih =>
    obtain ⟨j, w⟩ := e
    have hm := (memWf_cons j w m).1 h
    unfold smIns
    split
    · rename_i hk
      exact (memWf_cons _ _ _).2 ⟨hv, by simpa using hk, h⟩
    · split
      · rename_i hk
        subst hk
        exact (memWf_cons _ _ _).2 ⟨hv, hm.2.1, hm.2.2⟩
      · rename_i h1 h2
        exact (memWf_cons _ _ _).2 ⟨hm.1, smIns_head _ _ _ _ (by omega) hm.2.1, ih hm.2.2⟩

/-- Every entry of a canonical memory lies above its bound. -/
theorem memWf_above (m : List Host.Cell) (a : Nat) (h : memWf m = true) (ha : ∀ e ∈ m.head?, a < e.1) : ∀ e ∈ m, a < e.1 := by
  induction m generalizing a with
  | nil => simp
  | cons e m ih =>
    obtain ⟨j, w⟩ := e
    have hm := (memWf_cons j w m).1 h
    have hj : a < j := by simpa using ha
    intro x hx
    rcases List.mem_cons.1 hx with rfl | hx
    · exact hj
    · exact Nat.lt_trans hj (ih j hm.2.2 hm.2.1 x hx)

theorem mem_smDel {α : Type} (k : Nat) (m : SMap α) : ∀ e ∈ smDel k m, e ∈ m := by
  induction m with
  | nil => simp [smDel]
  | cons e m ih =>
    obtain ⟨j, w⟩ := e
    unfold smDel
    split
    · exact fun x hx => List.mem_cons_of_mem _ (ih x hx)
    · intro x hx
      rcases List.mem_cons.1 hx with rfl | hx
      · simp
      · exact List.mem_cons_of_mem _ (ih x hx)

theorem memWf_smDel (k : Nat) (m : List Host.Cell) (h : memWf m = true) : memWf (smDel k m) = true := by
  induction m with
  | nil => simpa [smDel] using h
  | cons e m ih =>
    obtain ⟨j, w⟩ := e
    have hm := (memWf_cons j w m).1 h
    unfold smDel
    split
    · exact ih hm.2.2
    · refine (memWf_cons _ _ _).2 ⟨hm.1, ?_, ih hm.2.2⟩
      intro x hx
      exact memWf_above m j hm.2.2 hm.2.1 x (mem_smDel k m x (List.mem_of_mem_head? hx))

/-- Storing one byte keeps memory in its canonical form. -/
theorem memWf_smPut (m : List Host.Cell) (k : Nat) (v : BitVec 8) (h : memWf m = true) : memWf (smPut m k v 0) = true := by
  unfold smPut
  split
  · exact memWf_smDel k m h
  · rename_i hv
    exact memWf_smIns k v m hv h

/-- The stores of a command keep memory in its canonical form. -/
theorem memWf_memCommit (m ws : List Host.Cell) (h : memWf m = true) : memWf (memCommit m ws) = true := by
  induction ws with
  | nil => simpa [memCommit] using h
  | cons c ws ih => exact memWf_smPut _ _ _ ih

/-- After the stores of a command a byte of memory reads as the newest of them that names it, else as before. -/
theorem smGet_memCommit (m ws : List Host.Cell) (k : Nat) :
    smGet (memCommit m ws) k 0 = (smLook ws k).getD (smGet m k 0) := by
  induction ws with
  | nil => simp [memCommit, smLook]
  | cons c ws ih =>
    obtain ⟨j, v⟩ := c
    show smGet (smPut (memCommit m ws) j v 0) k 0 = _
    by_cases h : j = k
    · subst h
      simp [smLook]
    · rw [smGet_smPut_ne _ _ _ _ h, ih]
      simp [smLook, h]

end Sys2Proof.Machine
end

