-- ==== Sys2Proof/Laws/Regs.lean ====
section
/-!
SUPPORT. Register words and fields: what they read as after a write.
-/

namespace Sys2Proof.Machine

/-! ### Fields of a number -/

theorem bits_lt (n lo w : Nat) : bits n lo w < 2 ^ w := Nat.mod_lt _ (Nat.two_pow_pos w)

theorem testBit_bits (n lo w i : Nat) : (bits n lo w).testBit i = (decide (i < w) && n.testBit (lo + i)) := by
  simp [bits, Nat.testBit_mod_two_pow, Nat.testBit_shiftRight]

/-- A number splits at a field into what lies below, the field and what lies above. -/
theorem bits_split (n lo w : Nat) : n = n / 2 ^ (lo + w) * 2 ^ (lo + w) + bits n lo w * 2 ^ lo + n % 2 ^ lo := by
  have h1 : n = n / 2 ^ lo * 2 ^ lo + n % 2 ^ lo := (Nat.div_add_mod' n (2 ^ lo)).symm
  have h2 : n / 2 ^ lo = n / 2 ^ lo / 2 ^ w * 2 ^ w + n / 2 ^ lo % 2 ^ w := (Nat.div_add_mod' _ _).symm
  have h3 : n / 2 ^ lo / 2 ^ w = n / 2 ^ (lo + w) := by rw [Nat.div_div_eq_div_mul, ← Nat.pow_add]
  have h4 : bits n lo w = n / 2 ^ lo % 2 ^ w := by simp [bits, Nat.shiftRight_eq_div_pow]
  rw [h3] at h2
  rw [h4]
  calc n = n / 2 ^ lo * 2 ^ lo + n % 2 ^ lo := h1
    _ = (n / 2 ^ (lo + w) * 2 ^ w + n / 2 ^ lo % 2 ^ w) * 2 ^ lo + n % 2 ^ lo := by rw [← h2]
    _ = _ := by ring

theorem setBits_eq (n lo w v : Nat) :
    setBits n lo w v = n / 2 ^ (lo + w) * 2 ^ (lo + w) + v % 2 ^ w * 2 ^ lo + n % 2 ^ lo := by
  have h := bits_split n lo w
  unfold setBits
  omega

/-- Bit by bit: a written field holds the value, every other bit is as it was. -/
theorem testBit_setBits (n lo w v i : Nat) :
    (setBits n lo w v).testBit i = if lo ≤ i ∧ i < lo + w then v.testBit (i - lo) else n.testBit i := by
  have e : setBits n lo w v = 2 ^ lo * (2 ^ w * (n / 2 ^ (lo + w)) + v % 2 ^ w) + n % 2 ^ lo := by
    rw [setBits_eq, Nat.pow_add]
    ring
  rw [e, Nat.testBit_two_pow_mul_add _ (Nat.mod_lt _ (Nat.two_pow_pos lo))]
  split
  · rename_i h
    rw [if_neg (by omega), Nat.testBit_mod_two_pow]
    simp [h]
  · rename_i h
    rw [Nat.testBit_two_pow_mul_add _ (Nat.mod_lt _ (Nat.two_pow_pos w))]
    split
    · rename_i h2
      rw [if_pos (by omega), Nat.testBit_mod_two_pow]
      simp [h2]
    · rename_i h2
      rw [if_neg (by omega), ← Nat.shiftRight_eq_div_pow, Nat.testBit_shiftRight]
      congr 1
      omega

theorem bits_setBits_same (n lo w v : Nat) : bits (setBits n lo w v) lo w = v % 2 ^ w := by
  apply Nat.eq_of_testBit_eq
  intro i
  rw [testBit_bits, testBit_setBits, Nat.testBit_mod_two_pow]
  by_cases h : i < w
  · simp [h]
  · simp [h]

theorem bits_setBits_ne (n lo w v lo' w' : Nat) (h : lo + w ≤ lo' ∨ lo' + w' ≤ lo) :
    bits (setBits n lo w v) lo' w' = bits n lo' w' := by
  apply Nat.eq_of_testBit_eq
  intro i
  rw [testBit_bits, testBit_bits, testBit_setBits]
  by_cases hi : i < w'
  · rw [if_neg (by omega)]
  · simp [hi]

theorem setBits_lt (n lo w v k : Nat) (hn : n < 2 ^ k) (h : lo + w ≤ k) : setBits n lo w v < 2 ^ k := by
  apply Nat.lt_pow_two_of_testBit
  intro i hi
  rw [testBit_setBits, if_neg (by omega)]
  exact Nat.testBit_lt_two_pow (Nat.lt_of_lt_of_le hn (Nat.pow_le_pow_right (by decide) hi))

/-! ### Register words -/

theorem regKey_ne {t u a b : Nat} (ha : a < 0x1000000) (hb : b < 0x1000000) (h : (t, a) ≠ (u, b)) : regKey t a ≠ regKey u b := by
  unfold regKey
  intro e
  apply h
  have h1 : t = u := by omega
  have h2 : a = b := by omega
  rw [h1, h2]

@[simp] theorem setReg_member (s : State) (t off v : Nat) : (s.setReg t off v).member = s.member := rfl

@[simp] theorem setReg_grade (s : State) (t off v : Nat) : (s.setReg t off v).grade = s.grade := rfl

/-- A register reads as the word written to it. -/
@[simp] theorem word_setReg_same (s : State) (t off v : Nat) : (s.setReg t off v).word t off = BitVec.ofNat 32 v := by
  simp [State.word, State.setReg]

/-- A write leaves every other register as it was. -/
theorem word_setReg_ne (s : State) {t off u o : Nat} (v : Nat) (h : regKey t off ≠ regKey u o) :
    (s.setReg t off v).word u o = s.word u o := by
  simp [State.word, State.setReg, smGet_smPut_ne _ _ _ _ h]

theorem reg_lt (s : State) (t off : Nat) : s.reg t off < 2 ^ 32 := (s.word t off).isLt

theorem reg_setReg_same (s : State) (t off v : Nat) : (s.setReg t off v).reg t off = v % 2 ^ 32 := by
  simp [State.reg, BitVec.toNat_ofNat]

theorem reg_setReg_ne (s : State) {t off u o : Nat} (v : Nat) (h : regKey t off ≠ regKey u o) :
    (s.setReg t off v).reg u o = s.reg u o := by
  simp [State.reg, word_setReg_ne s v h]

/-- A field reads as the value written to it, cut to its width. -/
theorem f_setF_same (s : State) (t : Nat) (r : FRef) (v : Nat) (hr : r.lo + r.w ≤ 32) : (s.setF t r v).f t r = v % 2 ^ r.w := by
  unfold State.f State.setF
  rw [reg_setReg_same, Nat.mod_eq_of_lt (setBits_lt _ _ _ _ _ (reg_lt s t r.off) hr), bits_setBits_same]

/-- A write of a field leaves other registers as they were. -/
theorem f_setF_ne (s : State) {t u : Nat} {r q : FRef} (v : Nat) (h : regKey t r.off ≠ regKey u q.off) :
    (s.setF t r v).f u q = s.f u q := by
  unfold State.f State.setF
  rw [reg_setReg_ne s _ h]

/-- A write of a field leaves the other bits of its register as they were. -/
theorem f_setF_apart (s : State) (t : Nat) {r q : FRef} (v : Nat) (ho : r.off = q.off) (hr : r.lo + r.w ≤ 32)
    (h : r.lo + r.w ≤ q.lo ∨ q.lo + q.w ≤ r.lo) : (s.setF t r v).f t q = s.f t q := by
  unfold State.f State.setF
  rw [ho, reg_setReg_same, Nat.mod_eq_of_lt (setBits_lt _ _ _ _ _ (reg_lt s t q.off) hr), bits_setBits_ne _ _ _ _ _ _ h]

theorem word_setF_ne (s : State) {t u o : Nat} (r : FRef) (v : Nat) (h : regKey t r.off ≠ regKey u o) :
    (s.setF t r v).word u o = s.word u o := word_setReg_ne s _ h

theorem on_setB_same (s : State) (t : Nat) (r : FRef) (b : Bool) (hr : r.lo + r.w ≤ 32) (hw : 0 < r.w) :
    (s.setB t r b).on t r = b := by
  have h1 : 1 < 2 ^ r.w := Nat.one_lt_two_pow (by omega)
  unfold State.on State.setB
  rw [f_setF_same s t r _ hr]
  cases b <;> simp [b2n, Nat.mod_eq_of_lt h1]

theorem addF_same (s : State) (t : Nat) (r : FRef) (n : Nat) (hr : r.lo + r.w ≤ 32) :
    (s.addF t r n).f t r = satAdd (2 ^ r.w - 1) (s.f t r) n := by
  have : 0 < 2 ^ r.w := Nat.two_pow_pos _
  unfold State.addF
  rw [f_setF_same s t r _ hr, Nat.mod_eq_of_lt]
  unfold satAdd
  omega

end Sys2Proof.Machine
end

