-- ==== Sys2Proof/Laws/Events.lean ====
section
/-!
SUPPORT. What an occurrence of an event may touch: `raise_onlyEvents` says all of it at once.
-/

namespace Sys2Proof.Machine

variable {p : Nat → Bool}

/-- The registers SPOIL_CFG to SPOIL_HELD. -/
def spoilOff (o : Nat) : Bool := decide (0x20000 ≤ o) && decide (o < 0x20020)

theorem onlyIn_refl (s : State) : State.OnlyIn p s s := ⟨rfl, fun _ _ _ _ => rfl, fun _ _ => rfl⟩

theorem onlyIn_trans_fields {a b c : State} (h : b = { a with regs := b.regs, evt := b.evt, core.crews := b.core.crews })
    (g : c = { b with regs := c.regs, evt := c.evt, core.crews := c.core.crews }) :
    c = { a with regs := c.regs, evt := c.evt, core.crews := c.core.crews } := by
  rw [h] at g
  exact g

theorem onlyIn_trans {a b c : State} (h : State.OnlyIn p a b) (g : State.OnlyIn p b c) : State.OnlyIn p a c := by
  refine ⟨?_, fun t off h1 h2 => (g.2.1 t off h1 h2).trans (h.2.1 t off h1 h2), fun t c => ?_⟩
  · exact onlyIn_trans_fields h.1 g.1
  · have e := g.2.2 t c
    rw [h.2.2 t c] at e
    exact e

theorem onlyIn_setReg (s : State) (t o v : Nat) (h : p o = true) (ho : o < 0x1000000) :
    State.OnlyIn p s (s.setReg t o v) := by
  refine ⟨rfl, fun u off h1 h2 => word_setReg_ne s v (regKey_ne ho h2 ?_), fun _ _ => rfl⟩
  rintro ⟨⟩
  rw [h] at h1
  cases h1

theorem onlyIn_setF (s : State) (t : Nat) (r : FRef) (v : Nat) (h : p r.off = true) (ho : r.off < 0x1000000) :
    State.OnlyIn p s (s.setF t r v) := onlyIn_setReg s t r.off _ h ho

theorem onlyIn_setB (s : State) (t : Nat) (r : FRef) (v : Bool) (h : p r.off = true) (ho : r.off < 0x1000000) :
    State.OnlyIn p s (s.setB t r v) := onlyIn_setReg s t r.off _ h ho

theorem onlyIn_evt (s : State) (e : EvtSt) : State.OnlyIn p s { s with evt := e } := ⟨rfl, fun _ _ _ _ => rfl, fun _ _ => rfl⟩

theorem onlyIn_setOcc (s : State) (t id : Nat) (o : Occ) : State.OnlyIn p s (s.setOcc t id o) := onlyIn_evt s _

theorem crew_setCrew (s : State) (t c u d : Nat) (x : Crew) :
    (s.setCrew t c x).crew u d = if tk t c = tk u d then x else s.crew u d := by
  unfold State.crew State.setCrew
  split
  · rename_i h
    simp [h]
  · rename_i h
    simp [smGet_smPut_ne _ _ _ _ h]

/-- Setting a PENDING word leaves the rest of every crew. -/
theorem onlyIn_pending (s : State) (t c n : Nat) : State.OnlyIn p s (s.setCrew t c { s.crew t c with pending := n }) := by
  refine ⟨rfl, fun _ _ _ _ => rfl, fun u d => ?_⟩
  rw [crew_setCrew]
  split
  · rename_i h
    have : s.crew u d = s.crew t c := by unfold State.crew; rw [h]
    rw [this]
  · rfl

theorem onlyIn_when (s : State) (b : Bool) (f : State → State) (h : State.OnlyIn p s (f s)) : State.OnlyIn p s (s.when b f) := by
  unfold State.when
  split
  · exact h
  · exact onlyIn_refl s

theorem onlyIn_each {α : Type} (s : State) (l : List α) (f : State → α → State) (h : ∀ (s : State) a, State.OnlyIn p s (f s a)) :
    State.OnlyIn p s (s.each l f) := by
  unfold State.each
  induction l generalizing s with
  | nil => exact onlyIn_refl s
  | cons a l ih => exact onlyIn_trans (h s a) (ih (f s a))

theorem onlyIn_assertLine (s : State) (t line : Nat) : State.OnlyIn p s (s.assertLine t line) :=
  onlyIn_each s _ _ fun s c => onlyIn_pending s t c _

theorem onlyIn_queueAsync (s : State) (m : AsyncMsg) : State.OnlyIn p s (s.queueAsync m) := by
  unfold State.queueAsync
  split
  · exact onlyIn_evt s _
  · exact onlyIn_refl s

theorem onlyIn_latchRoot (s : State) (a t id sev : Nat) (inj : Bool) (n seq : Nat) (hp : ∀ o, spoilOff o = true → p o = true) :
    State.OnlyIn p s (s.latchRoot a t id sev inj n seq) := by
  unfold State.latchRoot
  have h0 := onlyIn_setF s a SPOIL_ROOTS_COUNT (satAdd (2 ^ SPOIL_ROOTS_COUNT.w - 1) (s.f a SPOIL_ROOTS_COUNT) 1) (hp _ (by decide)) (by decide)
  dsimp only
  split
  · exact h0
  · refine onlyIn_trans h0 (onlyIn_trans ?_ (onlyIn_evt _ _))
    refine onlyIn_trans (onlyIn_setF _ a SPOIL_ROOT_ID id (hp _ (by decide)) (by decide)) ?_
    refine onlyIn_trans (onlyIn_setF _ a SPOIL_ROOT_TILE t (hp _ (by decide)) (by decide)) ?_
    refine onlyIn_trans (onlyIn_setF _ a SPOIL_ROOT_SEV sev (hp _ (by decide)) (by decide)) ?_
    refine onlyIn_trans (onlyIn_setB _ a SPOIL_ROOT_INJECTED inj (hp _ (by decide)) (by decide)) ?_
    refine onlyIn_trans (onlyIn_setB _ a SPOIL_ROOT_VALID true (hp _ (by decide)) (by decide)) ?_
    exact onlyIn_trans (onlyIn_setReg _ a SPOIL_ROOT_T_LO _ (hp _ (by decide)) (by decide))
      (onlyIn_setReg _ a (SPOIL_ROOT_T_LO + 4) _ (hp _ (by decide)) (by decide))

theorem onlyIn_logFault (s : State) (e : FaultEnt) : State.OnlyIn p s (s.logFault e) := onlyIn_evt s _

theorem onlyIn_enterRoot (s : State) (t id : Nat) (inj : Bool) (n : Nat) (hp : ∀ o, spoilOff o = true → p o = true) : State.OnlyIn p s (s.enterRoot t id inj n) := by
  unfold State.enterRoot
  dsimp only
  split
  · refine onlyIn_trans ?_ (onlyIn_setOcc _ _ _ _)
    refine onlyIn_trans ?_ (onlyIn_when _ _ _ (onlyIn_latchRoot _ _ _ _ _ _ _ _ hp))
    exact onlyIn_trans (onlyIn_logFault s _) (onlyIn_latchRoot _ _ _ _ _ _ _ _ hp)
  · exact onlyIn_setOcc _ _ _ _

theorem onlyIn_sendRoutes (s : State) (t id : Nat) (inj : Bool) (n : Nat) : State.OnlyIn p s (s.sendRoutes t id inj n) := by
  unfold State.sendRoutes
  dsimp only
  split
  · refine onlyIn_trans ?_ (onlyIn_when _ _ _ (onlyIn_queueAsync _ _))
    exact onlyIn_when _ _ _ (onlyIn_assertLine _ _ _)
  · exact onlyIn_refl s

theorem onlyIn_route (s : State) (t id : Nat) (inj : Bool) (n : Nat) (hp : ∀ o, spoilOff o = true → p o = true) : State.OnlyIn p s (s.route t id inj n) :=
  onlyIn_trans (onlyIn_enterRoot s t id inj n hp) (onlyIn_sendRoutes _ t id inj n)

theorem onlyIn_setHeldCount (s : State) (t : Nat) (hp : ∀ o, spoilOff o = true → p o = true) : State.OnlyIn p s (s.setHeldCount t) :=
  onlyIn_setF s t SPOIL_HELD_HELD _ (hp _ (by decide)) (by decide)

theorem onlyIn_countDep (s : State) (root : Option Nat) (n : Nat) (hp : ∀ o, spoilOff o = true → p o = true) : State.OnlyIn p s (s.countDep root n) := by
  unfold State.countDep
  split
  · exact onlyIn_refl s
  · refine onlyIn_trans (onlyIn_evt s _) (onlyIn_each _ _ _ fun s t => onlyIn_when _ _ _ ?_)
    exact onlyIn_setF s t SPOIL_DEPCNT_COUNT _ (hp _ (by decide)) (by decide)

theorem onlyIn_chargeDep (s : State) (x : Nat × Nat) (n : Nat) (hp : ∀ o, spoilOff o = true → p o = true) : State.OnlyIn p s (s.chargeDep x n) := by
  unfold State.chargeDep
  split
  · exact onlyIn_evt s _
  · exact onlyIn_countDep _ _ _ hp

theorem onlyIn_releaseHeld (s : State) (t u id : Nat) (hp : ∀ o, spoilOff o = true → p o = true) : State.OnlyIn p s (s.releaseHeld t u id) := by
  unfold State.releaseHeld
  dsimp only
  refine onlyIn_trans ?_ (onlyIn_setHeldCount _ t hp)
  refine onlyIn_trans ?_ (onlyIn_each _ _ _ fun s h => ?_)
  · exact onlyIn_evt s _
  · refine onlyIn_trans ?_ (onlyIn_setOcc _ _ _ _)
    exact onlyIn_chargeDep _ _ _ hp

theorem onlyIn_verdict (s : State) (t id : Nat) (inj had : Bool) (n : Nat) (hp : ∀ o, spoilOff o = true → p o = true) : State.OnlyIn p s (s.verdict t id inj had n).1 := by
  have h0 : State.OnlyIn p s (s.setOcc t id { s.occ t id with last := some s.now }) := onlyIn_setOcc _ _ _ _
  unfold State.verdict
  dsimp only
  split
  · refine onlyIn_trans h0 (onlyIn_trans ?_ (onlyIn_setOcc _ _ _ _))
    exact onlyIn_chargeDep _ _ _ hp
  · split
    · exact onlyIn_trans h0 (onlyIn_countDep _ _ _ hp)
    · split
      · split
        · exact onlyIn_trans h0 (onlyIn_evt _ _)
        · split
          · refine onlyIn_trans h0 (onlyIn_trans ?_ (onlyIn_setHeldCount _ t hp))
            exact onlyIn_evt _ _
          · exact onlyIn_trans h0 (onlyIn_route _ _ _ _ _ hp)
      · exact onlyIn_trans h0 (onlyIn_route _ _ _ _ _ hp)

theorem evtStat_off (id : Nat) (h : id < 320) : EVT_STAT (id / 32) < 0x10040 ∧ 0x10000 ≤ EVT_STAT (id / 32) := by
  have : id / 32 < 10 := by omega
  unfold EVT_STAT
  omega

theorem evtCnt_off (id : Nat) (h : id < 320) : EVT_CNT id < 0x20000 ∧ 0x10A00 ≤ EVT_CNT id := by
  unfold EVT_CNT
  omega

theorem eventOff_spoil (o : Nat) (h : spoilOff o = true) : eventOff o = true := by
  simp only [spoilOff, Bool.and_eq_true, decide_eq_true_eq] at h
  simp only [eventOff, Bool.and_eq_true, decide_eq_true_eq]
  omega

/-- An occurrence before the spoil judges it: status bit, counter, injected flag. -/
def State.noted (s : State) (t id : Nat) (inj : Bool) : State :=
  ((s.setReg t (EVT_STAT (id / 32)) (orBit (s.reg t (EVT_STAT (id / 32))) (id % 32))).addF t (EVT_CNT_COUNT id) 1).setB t
    (EVT_CNT_INJECTED id) inj

/-- The spoil's verdict leaves the registers of the block EVT as they are. -/
theorem occur_spoil (s : State) (t id : Nat) (inj : Bool) : State.OnlyIn spoilOff (s.noted t id inj) (s.occur t id inj).1 := by
  unfold State.occur State.noted
  dsimp only
  refine onlyIn_trans ?_ (onlyIn_releaseHeld _ _ _ _ fun _ h => h)
  exact onlyIn_verdict _ _ _ _ _ _ fun _ h => h

theorem spoilOff_evt (o : Nat) (h : o < 0x20000) : spoilOff o = false := by
  simp [spoilOff]
  omega

theorem orBit_testBit (m i j : Nat) : (orBit m i).testBit j = (m.testBit j || decide (i = j)) := by
  simp [orBit, Nat.testBit_or, Nat.one_shiftLeft, Nat.testBit_two_pow]

theorem noted_stat (s : State) (t id : Nat) (inj : Bool) (h : id < 320) (u g : Nat) (hg : g < 10) :
    (s.noted t id inj).reg u (EVT_STAT g) =
      if t = u ∧ id / 32 = g then orBit (s.reg u (EVT_STAT g)) (id % 32) % 2 ^ 32 else s.reg u (EVT_STAT g) := by
  have hc := evtCnt_off id h
  have hs := evtStat_off id h
  have ne : regKey t (EVT_CNT id) ≠ regKey u (EVT_STAT g) :=
    regKey_ne (by omega) (by unfold EVT_STAT; omega) (by intro e; injection e with _ e; unfold EVT_STAT at e; omega)
  have e1 : (s.noted t id inj).reg u (EVT_STAT g) = (s.setReg t (EVT_STAT (id / 32)) (orBit (s.reg t (EVT_STAT (id / 32))) (id % 32))).reg u (EVT_STAT g) := by
    unfold State.noted State.setB State.addF State.setF
    exact (reg_setReg_ne _ _ ne).trans (reg_setReg_ne _ _ ne)
  rw [e1]
  split
  · rename_i hh
    obtain ⟨rfl, rfl⟩ := hh
    rw [reg_setReg_same]
  · rename_i hh
    rw [reg_setReg_ne _ _ (regKey_ne (by omega) (by unfold EVT_STAT; omega) _)]
    intro e
    injection e with e1 e2
    unfold EVT_STAT at e2
    exact hh ⟨e1, by omega⟩

/-- Source ids lie below 320. -/
theorem onlyEvents_occur (s : State) (t id : Nat) (inj : Bool) (h : id < 320) : s.OnlyEvents (s.occur t id inj).1 := by
  have hs := evtStat_off id h
  have hc := evtCnt_off id h
  have e1 : eventOff (EVT_STAT (id / 32)) = true := by simp only [eventOff, Bool.and_eq_true, decide_eq_true_eq]; omega
  have e3 : eventOff (EVT_CNT id) = true := by simp only [eventOff, Bool.and_eq_true, decide_eq_true_eq]; omega
  refine onlyIn_trans ?_ ⟨(occur_spoil s t id inj).1, fun u off h1 h2 => (occur_spoil s t id inj).2.1 u off ?_ h2, (occur_spoil s t id inj).2.2⟩
  · unfold State.noted
    refine onlyIn_trans ?_ (onlyIn_setB _ t (EVT_CNT_INJECTED id) inj e3 (by show EVT_CNT id < _; omega))
    refine onlyIn_trans ?_ (onlyIn_setF _ t (EVT_CNT_COUNT id) _ e3 (by show EVT_CNT id < _; omega))
    exact onlyIn_setReg s t _ _ e1 (by omega)
  · cases hq : spoilOff off with
    | false => rfl
    | true => rw [eventOff_spoil off hq] at h1; cases h1

/-- All that an occurrence touches: the registers of the blocks EVT and SPOIL, the event state, PENDING words of crews. -/
theorem raiseX_onlyEvents (s : State) (t id : Nat) (inj : Bool) (h : id < 320) : s.OnlyEvents (s.raiseX t id inj) := by
  unfold State.raiseX
  dsimp only
  have h1 := onlyEvents_occur s t id inj h
  have h2 := onlyIn_trans h1 (onlyEvents_occur (s.occur t id inj).1 t 309 false (by decide))
  generalize (s.occur t id inj).2 = full at *
  generalize (s.occur t id inj).1 = a at *
  generalize (a.occur t 309 false).1 = b at *
  have h3 : s.OnlyEvents (if full = true then b else a) := by
    split
    · exact h2
    · exact h1
  generalize (if full = true then b else a) = x at *
  split
  · exact onlyIn_trans h3 (onlyIn_evt x _)
  · exact h3

theorem raise_onlyEvents (s : State) (t id : Nat) (h : id < 320) : s.OnlyEvents (s.raise t id) := raiseX_onlyEvents s t id false h

/-- A register outside the blocks EVT and SPOIL is as it was after an occurrence. -/
theorem word_raise (s : State) (t id u off : Nat) (h : id < 320) (ho : off < 0x1000000) (he : eventOff off = false) :
    (s.raise t id).word u off = s.word u off := (raise_onlyEvents s t id h).2.1 u off he ho

/-- After an occurrence every crew is as it was, but for its PENDING word. -/
theorem crew_raise (s : State) (t id u c : Nat) (h : id < 320) :
    (s.raise t id).crew u c = { s.crew u c with pending := ((s.raise t id).crew u c).pending } := (raise_onlyEvents s t id h).2.2 u c

theorem f_raise (s : State) (t id u : Nat) (r : FRef) (h : id < 320) (ho : r.off < 0x1000000) (he : eventOff r.off = false) :
    (s.raise t id).f u r = s.f u r := by
  unfold State.f State.reg
  rw [word_raise s t id u r.off h ho he]

/-- Status bits that were set stay set, and the occurrence sets its own. -/
theorem occur_stat (s : State) (t id : Nat) (inj : Bool) (h : id < 320) (u k : Nat) (hk : k < 320)
    (hb : (t = u ∧ id = k) ∨ s.evtStat u k = true) : (s.occur t id inj).1.evtStat u k = true := by
  have hs := evtStat_off k hk
  have hw := (occur_spoil s t id inj).2.1 u (EVT_STAT (k / 32)) (spoilOff_evt _ (by omega)) (by omega)
  have hr : (s.occur t id inj).1.reg u (EVT_STAT (k / 32)) = (s.noted t id inj).reg u (EVT_STAT (k / 32)) := by
    unfold State.reg
    rw [hw]
  unfold State.evtStat bit at hb ⊢
  rw [hr, noted_stat s t id inj h u (k / 32) (by omega)]
  have h32 : k % 32 < 32 := Nat.mod_lt _ (by decide)
  split
  · rename_i hh
    obtain ⟨rfl, hd⟩ := hh
    rw [Nat.testBit_mod_two_pow, orBit_testBit]
    rcases hb with ⟨_, rfl⟩ | hb
    · simp [h32]
    · simp [h32, hb]
  · rename_i hh
    rcases hb with ⟨rfl, rfl⟩ | hb
    · exact absurd ⟨rfl, rfl⟩ hh
    · exact hb

/-- After an occurrence the status bit of its source is set, and those set before are. -/
theorem raiseX_stat_or (s : State) (t id : Nat) (inj : Bool) (h : id < 320) (u k : Nat) (hk : k < 320)
    (hb : (t = u ∧ id = k) ∨ s.evtStat u k = true) : (s.raiseX t id inj).evtStat u k = true := by
  have h1 := occur_stat s t id inj h u k hk hb
  have h2 := occur_stat (s.occur t id inj).1 t 309 false (by decide) u k hk (Or.inr h1)
  unfold State.raiseX
  dsimp only
  generalize (s.occur t id inj).2 = full at *
  generalize (s.occur t id inj).1 = a at *
  generalize (a.occur t 309 false).1 = b at *
  have h3 : (if full = true then b else a).evtStat u k = true := by
    split
    · exact h2
    · exact h1
  generalize (if full = true then b else a) = x at *
  split
  · exact h3
  · exact h3

theorem raise_stat (s : State) (t id : Nat) (h : id < 320) : (s.raise t id).evtStat t id = true :=
  raiseX_stat_or s t id false h t id h (Or.inl ⟨rfl, rfl⟩)

theorem raise_stat_keep (s : State) (t id u k : Nat) (h : id < 320) (hk : k < 320) (hb : s.evtStat u k = true) :
    (s.raise t id).evtStat u k = true := raiseX_stat_or s t id false h u k hk (Or.inr hb)

end Sys2Proof.Machine
end

