-- ==== Sys2Proof/Laws/Memory.lean ====
section
/-!
SUPPORT. DRAM bytes: a store is read back, other bytes stay, and the stored form is canonical whenever a command has ended.
-/

namespace Sys2Proof.Machine

/-- Two numbers below a base, each above a multiple of it, are equal only in both parts. -/
theorem base_inj {K t u a b : Nat} (ha : a < K) (hb : b < K) (e : t * K + a = u * K + b) : t = u ∧ a = b := by
  have h1 : t = u := by
    have hd := congrArg (· / K) e
    simpa [Nat.mul_comm _ K, Nat.mul_add_div (Nat.zero_lt_of_lt ha), Nat.div_eq_of_lt ha, Nat.div_eq_of_lt hb] using hd
  exact ⟨h1, by rw [h1] at e; exact Nat.add_left_cancel e⟩

theorem dkey_ne {t u a b : Nat} (ha : a < 2 ^ 36) (hb : b < 2 ^ 36) (h : (t, a) ≠ (u, b)) : dkey t a ≠ dkey u b := by
  unfold dkey
  rw [Nat.mod_eq_of_lt ha, Nat.mod_eq_of_lt hb]
  intro e
  obtain ⟨h1, h2⟩ := base_inj ha hb e
  exact h (by rw [h1, h2])

theorem setDbyte_writes (s : State) (t a v : Nat) : (s.setDbyte t a v).writes = (dkey t a, BitVec.ofNat 8 v) :: s.writes := rfl

theorem setDbyte_keeps_dram (s : State) (t a v : Nat) : (s.setDbyte t a v).dram = s.dram := rfl

theorem smLook_head {α : Type} (k : Nat) (v : α) (m : SMap α) : smLook ((k, v) :: m) k = some v := by simp [smLook]

theorem smLook_tail {α : Type} {k j : Nat} (v : α) (m : SMap α) (h : k ≠ j) : smLook ((k, v) :: m) j = smLook m j := by simp [smLook, h]

/-- A byte reads as what was stored in it. -/
@[simp] theorem dbyte_setDbyte_same (s : State) (t a v : Nat) : (s.setDbyte t a v).dbyte t a = v % 256 := by
  rw [State.dbyte, setDbyte_writes, smLook_head]
  exact BitVec.toNat_ofNat v 8

/-- A store leaves every other byte. -/
theorem dbyte_setDbyte_ne (s : State) {t a u b : Nat} (v : Nat) (h : dkey t a ≠ dkey u b) :
    (s.setDbyte t a v).dbyte u b = s.dbyte u b := by
  rw [State.dbyte, setDbyte_writes, smLook_tail _ _ h, setDbyte_keeps_dram, State.dbyte]

theorem dbyte_lt (s : State) (t a : Nat) : s.dbyte t a < 256 := by
  unfold State.dbyte
  split <;> exact BitVec.isLt _

/-- A run of bytes leaves every byte outside it. -/
theorem dbyte_setDbytes_ne (s : State) (t a : Nat) (bs : List Nat) (u b : Nat) (h : ∀ i, i < bs.length → dkey t (a + i) ≠ dkey u b) :
    (s.setDbytes t a bs).dbyte u b = s.dbyte u b := by
  induction bs generalizing s a with
  | nil => rfl
  | cons v bs ih =>
    rw [State.setDbytes, ih]
    · exact dbyte_setDbyte_ne s v (h 0 (by simp))
    · intro i hi
      have := h (i + 1) (by simpa using hi)
      rwa [Nat.add_assoc, Nat.add_comm 1 i]

/-- A run of bytes changes registers and nothing else but the stores under way. -/
theorem setDbytes_regs (s : State) (t a : Nat) (bs : List Nat) : (s.setDbytes t a bs).regs = s.regs := by
  induction bs generalizing s a with
  | nil => rfl
  | cons v bs ih => rw [State.setDbytes, ih]; rfl

/-- Memory is in its canonical form after every command, if it was before. -/
theorem memWf_ended (s r : State) (h : memWf s.dram = true) : memWf (s.ended r).dram = true := memWf_memCommit _ _ h

/-- Memory is in its canonical form at reset. -/
theorem memWf_reset : memWf State.reset.dram = true := rfl

end Sys2Proof.Machine
end

