-- ==== Sys2Proof/Laws/Seam.lean ====
section
/-!
SUPPORT. What waits at a Seam port stands in the order in which the arbitration takes it (R16), and what a ring gives out lies in it
(R278).
-/

namespace Sys2Proof.Machine

theorem fromHead_msg {α : Type} {l : List α} {src : α → Nat} {m : SeamMsg} {x : Nat × SeamMsg} (h : x ∈ fromHead l src m) : x.2 = m := by
  simp only [fromHead, List.mem_map] at h
  obtain ⟨_, _, rfl⟩ := h
  rfl

theorem waits1_cls {s : State} {t : Nat} {x : Nat × SeamMsg} (h : x ∈ s.waits1 t) : x.2.cls = 1 := by
  simp only [State.waits1, List.mem_append] at h
  rcases h with h | h
  · split at h
    · rw [fromHead_msg h]; rfl
    · simp at h
  · split at h
    · simp only [List.mem_flatMap] at h
      obtain ⟨_, _, h⟩ := h
      rw [fromHead_msg h]; rfl
    · simp at h

theorem waits2_cls {s : State} {t : Nat} {x : Nat × SeamMsg} (h : x ∈ s.waits2 t) : x.2.cls = 2 := by
  simp only [State.waits2, List.mem_append] at h
  rcases h with h | h
  · split at h
    · simp only [List.mem_append, List.mem_flatMap] at h
      rcases h with ⟨_, _, _, _, _, _, h⟩ | ⟨_, _, h⟩ <;> rw [fromHead_msg h] <;> rfl
    · simp at h
  · split at h
    · simp only [List.mem_flatMap] at h
      obtain ⟨_, _, h⟩ := h
      rw [fromHead_msg h]; rfl
    · simp at h

theorem waits3_cls {s : State} {t : Nat} {x : Nat × SeamMsg} (h : x ∈ s.waits3 t) : x.2.cls = 3 := by
  simp only [State.waits3] at h
  split at h
  · simp only [List.mem_append, List.mem_flatMap] at h
    rcases h with ⟨_, _, ((h | h) | h) | h⟩ | h
    · rw [fromHead_msg h]; rfl
    · rw [fromHead_msg h]; rfl
    · rw [fromHead_msg h]; rfl
    · rw [fromHead_msg h]; rfl
    · split at h
      · simp only [List.mem_flatMap] at h
        obtain ⟨_, _, h⟩ := h
        rw [fromHead_msg h]; rfl
      · simp at h
  · simp at h

theorem waitsTxn_cls {s : State} {t i : Nat} {x : Nat × SeamMsg} (h : x ∈ s.waitsTxn t i) : x.2.cls = 4 := by
  simp only [State.waitsTxn, List.mem_append] at h
  rcases h with (h | h) | h
  · split at h
    · simp only [List.mem_singleton] at h; rw [h]; rfl
    · simp at h
  · split at h
    · simp only [List.mem_singleton] at h; rw [h]; rfl
    · simp at h
  · split at h
    · simp only [List.mem_flatMap, List.mem_append] at h
      obtain ⟨_, _, (h | h) | h⟩ := h <;> split at h <;>
        first
          | (simp only [List.mem_singleton] at h; rw [h]; rfl)
          | simp at h
    · simp at h

theorem waits4_cls {s : State} {t : Nat} {x : Nat × SeamMsg} (h : x ∈ s.waits4 t) : x.2.cls = 4 := by
  simp only [State.waits4] at h
  split at h
  · simp only [List.mem_append, List.mem_flatMap] at h
    rcases h with (h | ⟨_, _, h⟩) | h
    · split at h
      · rw [fromHead_msg h]; rfl
      · simp at h
    · exact waitsTxn_cls h
    · split at h
      · simp only [List.mem_singleton] at h; rw [h]; rfl
      · simp at h
  · simp at h

/-- What waits at a port is listed by class, the lowest class first (R16). -/
theorem waitsAt_pairwise (s : State) (t p : Nat) : (s.waitsAt t p).Pairwise fun m n => m.cls ≤ n.cls := by
  have flat : ∀ {l : List (Nat × SeamMsg)} {k : Nat}, (∀ x ∈ l, x.2.cls = k) → l.Pairwise fun x y => x.2.cls ≤ y.2.cls :=
    fun h => List.pairwise_of_forall_mem_list fun x hx y hy => by rw [h x hx, h y hy]
  have all : (s.waits1 t ++ s.waits2 t ++ s.waits3 t ++ s.waits4 t).Pairwise fun x y => x.2.cls ≤ y.2.cls := by
    simp only [List.pairwise_append, List.mem_append]
    refine ⟨⟨⟨flat fun _ => waits1_cls, flat fun _ => waits2_cls, ?_⟩, flat fun _ => waits3_cls, ?_⟩, flat fun _ => waits4_cls, ?_⟩
    · intro x hx y hy
      rw [waits1_cls hx, waits2_cls hy]; omega
    · rintro x (hx | hx) y hy
      · rw [waits1_cls hx, waits3_cls hy]; omega
      · rw [waits2_cls hx, waits3_cls hy]; omega
    · rintro x ((hx | hx) | hx) y hy
      · rw [waits1_cls hx, waits4_cls hy]; omega
      · rw [waits2_cls hx, waits4_cls hy]; omega
      · rw [waits3_cls hx, waits4_cls hy]; omega
  exact (all.filter _).map (R := fun x y : Nat × SeamMsg => x.2.cls ≤ y.2.cls) _ fun _ _ h => h

/-- Nothing of a lower class number waits at the port than what the arbitration takes there (R16). -/
theorem seamNext_least {s : State} {t p : Nat} {m : SeamMsg} (h : m ∈ (s.waitsAt t p).head?) : ∀ n ∈ s.waitsAt t p, m.cls ≤ n.cls := by
  have hp := waitsAt_pairwise s t p
  cases hl : s.waitsAt t p with
  | nil => simp
  | cons a l =>
    rw [hl] at h hp
    simp only [List.head?_cons, Option.mem_def, Option.some.injEq] at h
    subst h
    intro n hn
    rcases List.mem_cons.mp hn with rfl | hn
    · exact Nat.le_refl _
    · exact (List.pairwise_cons.mp hp).1 n hn

/-- The runs that a ring gives out lie within it. -/
theorem ringTake_inside {live : List (Nat × Nat)} {size : Nat} :
    ∀ {k p n : Nat} {r : Nat × Nat}, r ∈ ringTake live size k p n → r.1 + r.2 ≤ size := by
  intro k
  induction k with
  | zero => intro p n r h; simp [ringTake] at h
  | succ k ih =>
    intro p n r h
    unfold ringTake at h
    split at h
    · simp at h
    · split at h
      · exact ih h
      · split at h
        · exact ih h
        · rename_i hp _ _
          have room : ∀ (l : List (Nat × Nat)) (a : Nat), l.foldl (fun m x => if p < x.1 then min m x.1 else m) a ≤ a := by
            intro l
            induction l with
            | nil => intro a; exact Nat.le_refl a
            | cons x l ih =>
              intro a
              simp only [List.foldl_cons]
              refine Nat.le_trans (ih _) ?_
              split
              · exact Nat.min_le_left ..
              · exact Nat.le_refl a
          have hr := room live size
          simp only [List.mem_cons] at h
          rcases h with rfl | h
          · simp only; omega
          · exact ih h

end Sys2Proof.Machine
end

