-- ==== Sys2Proof/Laws/State.lean ====
section
/-!
SUPPORT. One lemma for each field of the state that an update leaves as it was: the writes of registers and of DRAM bytes, then the
updates of what the state keeps beside registers.
-/

namespace Sys2Proof.Machine

/-! ### setReg -/

@[simp] theorem setReg_now (s : State) (t off v : Nat) : (s.setReg t off v).now = s.now := rfl
@[simp] theorem setReg_dram (s : State) (t off v : Nat) : (s.setReg t off v).dram = s.dram := rfl
@[simp] theorem setReg_writes (s : State) (t off v : Nat) : (s.setReg t off v).writes = s.writes := rfl
@[simp] theorem setReg_freeCtr (s : State) (t off v : Nat) : (s.setReg t off v).freeCtr = s.freeCtr := rfl
@[simp] theorem setReg_snaps (s : State) (t off v : Nat) : (s.setReg t off v).snaps = s.snaps := rfl
@[simp] theorem setReg_held (s : State) (t off v : Nat) : (s.setReg t off v).held = s.held := rfl
@[simp] theorem setReg_answers (s : State) (t off v : Nat) : (s.setReg t off v).answers = s.answers := rfl
@[simp] theorem setReg_seam (s : State) (t off v : Nat) : (s.setReg t off v).seam = s.seam := rfl
@[simp] theorem setReg_bench (s : State) (t off v : Nat) : (s.setReg t off v).bench = s.bench := rfl
@[simp] theorem setReg_core (s : State) (t off v : Nat) : (s.setReg t off v).core = s.core := rfl
@[simp] theorem setReg_time (s : State) (t off v : Nat) : (s.setReg t off v).time = s.time := rfl
@[simp] theorem setReg_lanes (s : State) (t off v : Nat) : (s.setReg t off v).lanes = s.lanes := rfl
@[simp] theorem setReg_pins (s : State) (t off v : Nat) : (s.setReg t off v).pins = s.pins := rfl
@[simp] theorem setReg_adit (s : State) (t off v : Nat) : (s.setReg t off v).adit = s.adit := rfl
@[simp] theorem setReg_pix (s : State) (t off v : Nat) : (s.setReg t off v).pix = s.pix := rfl
@[simp] theorem setReg_store (s : State) (t off v : Nat) : (s.setReg t off v).store = s.store := rfl
@[simp] theorem setReg_hevc (s : State) (t off v : Nat) : (s.setReg t off v).hevc = s.hevc := rfl
@[simp] theorem setReg_lpl (s : State) (t off v : Nat) : (s.setReg t off v).lpl = s.lpl := rfl
@[simp] theorem setReg_mags (s : State) (t off v : Nat) : (s.setReg t off v).mags = s.mags := rfl
@[simp] theorem setReg_host (s : State) (t off v : Nat) : (s.setReg t off v).host = s.host := rfl
@[simp] theorem setReg_mem (s : State) (t off v : Nat) : (s.setReg t off v).mem = s.mem := rfl
@[simp] theorem setReg_pos (s : State) (t off v : Nat) : (s.setReg t off v).pos = s.pos := rfl
@[simp] theorem setReg_audio (s : State) (t off v : Nat) : (s.setReg t off v).audio = s.audio := rfl
@[simp] theorem setReg_pwr (s : State) (t off v : Nat) : (s.setReg t off v).pwr = s.pwr := rfl
@[simp] theorem setReg_evt (s : State) (t off v : Nat) : (s.setReg t off v).evt = s.evt := rfl
@[simp] theorem setReg_boot (s : State) (t off v : Nat) : (s.setReg t off v).boot = s.boot := rfl
@[simp] theorem setReg_pending (s : State) (t off v : Nat) : (s.setReg t off v).pending = s.pending := rfl

/-! ### setF -/

@[simp] theorem setF_member (s : State) (t : Nat) (r : FRef) (v : Nat) : (s.setF t r v).member = s.member := rfl
@[simp] theorem setF_grade (s : State) (t : Nat) (r : FRef) (v : Nat) : (s.setF t r v).grade = s.grade := rfl
@[simp] theorem setF_now (s : State) (t : Nat) (r : FRef) (v : Nat) : (s.setF t r v).now = s.now := rfl
@[simp] theorem setF_dram (s : State) (t : Nat) (r : FRef) (v : Nat) : (s.setF t r v).dram = s.dram := rfl
@[simp] theorem setF_writes (s : State) (t : Nat) (r : FRef) (v : Nat) : (s.setF t r v).writes = s.writes := rfl
@[simp] theorem setF_freeCtr (s : State) (t : Nat) (r : FRef) (v : Nat) : (s.setF t r v).freeCtr = s.freeCtr := rfl
@[simp] theorem setF_snaps (s : State) (t : Nat) (r : FRef) (v : Nat) : (s.setF t r v).snaps = s.snaps := rfl
@[simp] theorem setF_held (s : State) (t : Nat) (r : FRef) (v : Nat) : (s.setF t r v).held = s.held := rfl
@[simp] theorem setF_answers (s : State) (t : Nat) (r : FRef) (v : Nat) : (s.setF t r v).answers = s.answers := rfl
@[simp] theorem setF_seam (s : State) (t : Nat) (r : FRef) (v : Nat) : (s.setF t r v).seam = s.seam := rfl
@[simp] theorem setF_bench (s : State) (t : Nat) (r : FRef) (v : Nat) : (s.setF t r v).bench = s.bench := rfl
@[simp] theorem setF_core (s : State) (t : Nat) (r : FRef) (v : Nat) : (s.setF t r v).core = s.core := rfl
@[simp] theorem setF_time (s : State) (t : Nat) (r : FRef) (v : Nat) : (s.setF t r v).time = s.time := rfl
@[simp] theorem setF_lanes (s : State) (t : Nat) (r : FRef) (v : Nat) : (s.setF t r v).lanes = s.lanes := rfl
@[simp] theorem setF_pins (s : State) (t : Nat) (r : FRef) (v : Nat) : (s.setF t r v).pins = s.pins := rfl
@[simp] theorem setF_adit (s : State) (t : Nat) (r : FRef) (v : Nat) : (s.setF t r v).adit = s.adit := rfl
@[simp] theorem setF_pix (s : State) (t : Nat) (r : FRef) (v : Nat) : (s.setF t r v).pix = s.pix := rfl
@[simp] theorem setF_store (s : State) (t : Nat) (r : FRef) (v : Nat) : (s.setF t r v).store = s.store := rfl
@[simp] theorem setF_hevc (s : State) (t : Nat) (r : FRef) (v : Nat) : (s.setF t r v).hevc = s.hevc := rfl
@[simp] theorem setF_lpl (s : State) (t : Nat) (r : FRef) (v : Nat) : (s.setF t r v).lpl = s.lpl := rfl
@[simp] theorem setF_mags (s : State) (t : Nat) (r : FRef) (v : Nat) : (s.setF t r v).mags = s.mags := rfl
@[simp] theorem setF_host (s : State) (t : Nat) (r : FRef) (v : Nat) : (s.setF t r v).host = s.host := rfl
@[simp] theorem setF_mem (s : State) (t : Nat) (r : FRef) (v : Nat) : (s.setF t r v).mem = s.mem := rfl
@[simp] theorem setF_pos (s : State) (t : Nat) (r : FRef) (v : Nat) : (s.setF t r v).pos = s.pos := rfl
@[simp] theorem setF_audio (s : State) (t : Nat) (r : FRef) (v : Nat) : (s.setF t r v).audio = s.audio := rfl
@[simp] theorem setF_pwr (s : State) (t : Nat) (r : FRef) (v : Nat) : (s.setF t r v).pwr = s.pwr := rfl
@[simp] theorem setF_evt (s : State) (t : Nat) (r : FRef) (v : Nat) : (s.setF t r v).evt = s.evt := rfl
@[simp] theorem setF_boot (s : State) (t : Nat) (r : FRef) (v : Nat) : (s.setF t r v).boot = s.boot := rfl
@[simp] theorem setF_pending (s : State) (t : Nat) (r : FRef) (v : Nat) : (s.setF t r v).pending = s.pending := rfl

/-! ### setB -/

@[simp] theorem setB_member (s : State) (t : Nat) (r : FRef) (b : Bool) : (s.setB t r b).member = s.member := rfl
@[simp] theorem setB_grade (s : State) (t : Nat) (r : FRef) (b : Bool) : (s.setB t r b).grade = s.grade := rfl
@[simp] theorem setB_now (s : State) (t : Nat) (r : FRef) (b : Bool) : (s.setB t r b).now = s.now := rfl
@[simp] theorem setB_dram (s : State) (t : Nat) (r : FRef) (b : Bool) : (s.setB t r b).dram = s.dram := rfl
@[simp] theorem setB_writes (s : State) (t : Nat) (r : FRef) (b : Bool) : (s.setB t r b).writes = s.writes := rfl
@[simp] theorem setB_freeCtr (s : State) (t : Nat) (r : FRef) (b : Bool) : (s.setB t r b).freeCtr = s.freeCtr := rfl
@[simp] theorem setB_snaps (s : State) (t : Nat) (r : FRef) (b : Bool) : (s.setB t r b).snaps = s.snaps := rfl
@[simp] theorem setB_held (s : State) (t : Nat) (r : FRef) (b : Bool) : (s.setB t r b).held = s.held := rfl
@[simp] theorem setB_answers (s : State) (t : Nat) (r : FRef) (b : Bool) : (s.setB t r b).answers = s.answers := rfl
@[simp] theorem setB_seam (s : State) (t : Nat) (r : FRef) (b : Bool) : (s.setB t r b).seam = s.seam := rfl
@[simp] theorem setB_bench (s : State) (t : Nat) (r : FRef) (b : Bool) : (s.setB t r b).bench = s.bench := rfl
@[simp] theorem setB_core (s : State) (t : Nat) (r : FRef) (b : Bool) : (s.setB t r b).core = s.core := rfl
@[simp] theorem setB_time (s : State) (t : Nat) (r : FRef) (b : Bool) : (s.setB t r b).time = s.time := rfl
@[simp] theorem setB_lanes (s : State) (t : Nat) (r : FRef) (b : Bool) : (s.setB t r b).lanes = s.lanes := rfl
@[simp] theorem setB_pins (s : State) (t : Nat) (r : FRef) (b : Bool) : (s.setB t r b).pins = s.pins := rfl
@[simp] theorem setB_adit (s : State) (t : Nat) (r : FRef) (b : Bool) : (s.setB t r b).adit = s.adit := rfl
@[simp] theorem setB_pix (s : State) (t : Nat) (r : FRef) (b : Bool) : (s.setB t r b).pix = s.pix := rfl
@[simp] theorem setB_store (s : State) (t : Nat) (r : FRef) (b : Bool) : (s.setB t r b).store = s.store := rfl
@[simp] theorem setB_hevc (s : State) (t : Nat) (r : FRef) (b : Bool) : (s.setB t r b).hevc = s.hevc := rfl
@[simp] theorem setB_lpl (s : State) (t : Nat) (r : FRef) (b : Bool) : (s.setB t r b).lpl = s.lpl := rfl
@[simp] theorem setB_mags (s : State) (t : Nat) (r : FRef) (b : Bool) : (s.setB t r b).mags = s.mags := rfl
@[simp] theorem setB_host (s : State) (t : Nat) (r : FRef) (b : Bool) : (s.setB t r b).host = s.host := rfl
@[simp] theorem setB_mem (s : State) (t : Nat) (r : FRef) (b : Bool) : (s.setB t r b).mem = s.mem := rfl
@[simp] theorem setB_pos (s : State) (t : Nat) (r : FRef) (b : Bool) : (s.setB t r b).pos = s.pos := rfl
@[simp] theorem setB_audio (s : State) (t : Nat) (r : FRef) (b : Bool) : (s.setB t r b).audio = s.audio := rfl
@[simp] theorem setB_pwr (s : State) (t : Nat) (r : FRef) (b : Bool) : (s.setB t r b).pwr = s.pwr := rfl
@[simp] theorem setB_evt (s : State) (t : Nat) (r : FRef) (b : Bool) : (s.setB t r b).evt = s.evt := rfl
@[simp] theorem setB_boot (s : State) (t : Nat) (r : FRef) (b : Bool) : (s.setB t r b).boot = s.boot := rfl
@[simp] theorem setB_pending (s : State) (t : Nat) (r : FRef) (b : Bool) : (s.setB t r b).pending = s.pending := rfl

/-! ### addF -/

@[simp] theorem addF_member (s : State) (t : Nat) (r : FRef) (n : Nat) : (s.addF t r n).member = s.member := rfl
@[simp] theorem addF_grade (s : State) (t : Nat) (r : FRef) (n : Nat) : (s.addF t r n).grade = s.grade := rfl
@[simp] theorem addF_now (s : State) (t : Nat) (r : FRef) (n : Nat) : (s.addF t r n).now = s.now := rfl
@[simp] theorem addF_dram (s : State) (t : Nat) (r : FRef) (n : Nat) : (s.addF t r n).dram = s.dram := rfl
@[simp] theorem addF_writes (s : State) (t : Nat) (r : FRef) (n : Nat) : (s.addF t r n).writes = s.writes := rfl
@[simp] theorem addF_freeCtr (s : State) (t : Nat) (r : FRef) (n : Nat) : (s.addF t r n).freeCtr = s.freeCtr := rfl
@[simp] theorem addF_snaps (s : State) (t : Nat) (r : FRef) (n : Nat) : (s.addF t r n).snaps = s.snaps := rfl
@[simp] theorem addF_held (s : State) (t : Nat) (r : FRef) (n : Nat) : (s.addF t r n).held = s.held := rfl
@[simp] theorem addF_answers (s : State) (t : Nat) (r : FRef) (n : Nat) : (s.addF t r n).answers = s.answers := rfl
@[simp] theorem addF_seam (s : State) (t : Nat) (r : FRef) (n : Nat) : (s.addF t r n).seam = s.seam := rfl
@[simp] theorem addF_bench (s : State) (t : Nat) (r : FRef) (n : Nat) : (s.addF t r n).bench = s.bench := rfl
@[simp] theorem addF_core (s : State) (t : Nat) (r : FRef) (n : Nat) : (s.addF t r n).core = s.core := rfl
@[simp] theorem addF_time (s : State) (t : Nat) (r : FRef) (n : Nat) : (s.addF t r n).time = s.time := rfl
@[simp] theorem addF_lanes (s : State) (t : Nat) (r : FRef) (n : Nat) : (s.addF t r n).lanes = s.lanes := rfl
@[simp] theorem addF_pins (s : State) (t : Nat) (r : FRef) (n : Nat) : (s.addF t r n).pins = s.pins := rfl
@[simp] theorem addF_adit (s : State) (t : Nat) (r : FRef) (n : Nat) : (s.addF t r n).adit = s.adit := rfl
@[simp] theorem addF_pix (s : State) (t : Nat) (r : FRef) (n : Nat) : (s.addF t r n).pix = s.pix := rfl
@[simp] theorem addF_store (s : State) (t : Nat) (r : FRef) (n : Nat) : (s.addF t r n).store = s.store := rfl
@[simp] theorem addF_hevc (s : State) (t : Nat) (r : FRef) (n : Nat) : (s.addF t r n).hevc = s.hevc := rfl
@[simp] theorem addF_lpl (s : State) (t : Nat) (r : FRef) (n : Nat) : (s.addF t r n).lpl = s.lpl := rfl
@[simp] theorem addF_mags (s : State) (t : Nat) (r : FRef) (n : Nat) : (s.addF t r n).mags = s.mags := rfl
@[simp] theorem addF_host (s : State) (t : Nat) (r : FRef) (n : Nat) : (s.addF t r n).host = s.host := rfl
@[simp] theorem addF_mem (s : State) (t : Nat) (r : FRef) (n : Nat) : (s.addF t r n).mem = s.mem := rfl
@[simp] theorem addF_pos (s : State) (t : Nat) (r : FRef) (n : Nat) : (s.addF t r n).pos = s.pos := rfl
@[simp] theorem addF_audio (s : State) (t : Nat) (r : FRef) (n : Nat) : (s.addF t r n).audio = s.audio := rfl
@[simp] theorem addF_pwr (s : State) (t : Nat) (r : FRef) (n : Nat) : (s.addF t r n).pwr = s.pwr := rfl
@[simp] theorem addF_evt (s : State) (t : Nat) (r : FRef) (n : Nat) : (s.addF t r n).evt = s.evt := rfl
@[simp] theorem addF_boot (s : State) (t : Nat) (r : FRef) (n : Nat) : (s.addF t r n).boot = s.boot := rfl
@[simp] theorem addF_pending (s : State) (t : Nat) (r : FRef) (n : Nat) : (s.addF t r n).pending = s.pending := rfl

/-! ### setReg64 -/

@[simp] theorem setReg64_member (s : State) (t lo v : Nat) : (s.setReg64 t lo v).member = s.member := rfl
@[simp] theorem setReg64_grade (s : State) (t lo v : Nat) : (s.setReg64 t lo v).grade = s.grade := rfl
@[simp] theorem setReg64_now (s : State) (t lo v : Nat) : (s.setReg64 t lo v).now = s.now := rfl
@[simp] theorem setReg64_dram (s : State) (t lo v : Nat) : (s.setReg64 t lo v).dram = s.dram := rfl
@[simp] theorem setReg64_writes (s : State) (t lo v : Nat) : (s.setReg64 t lo v).writes = s.writes := rfl
@[simp] theorem setReg64_freeCtr (s : State) (t lo v : Nat) : (s.setReg64 t lo v).freeCtr = s.freeCtr := rfl
@[simp] theorem setReg64_snaps (s : State) (t lo v : Nat) : (s.setReg64 t lo v).snaps = s.snaps := rfl
@[simp] theorem setReg64_held (s : State) (t lo v : Nat) : (s.setReg64 t lo v).held = s.held := rfl
@[simp] theorem setReg64_answers (s : State) (t lo v : Nat) : (s.setReg64 t lo v).answers = s.answers := rfl
@[simp] theorem setReg64_seam (s : State) (t lo v : Nat) : (s.setReg64 t lo v).seam = s.seam := rfl
@[simp] theorem setReg64_bench (s : State) (t lo v : Nat) : (s.setReg64 t lo v).bench = s.bench := rfl
@[simp] theorem setReg64_core (s : State) (t lo v : Nat) : (s.setReg64 t lo v).core = s.core := rfl
@[simp] theorem setReg64_time (s : State) (t lo v : Nat) : (s.setReg64 t lo v).time = s.time := rfl
@[simp] theorem setReg64_lanes (s : State) (t lo v : Nat) : (s.setReg64 t lo v).lanes = s.lanes := rfl
@[simp] theorem setReg64_pins (s : State) (t lo v : Nat) : (s.setReg64 t lo v).pins = s.pins := rfl
@[simp] theorem setReg64_adit (s : State) (t lo v : Nat) : (s.setReg64 t lo v).adit = s.adit := rfl
@[simp] theorem setReg64_pix (s : State) (t lo v : Nat) : (s.setReg64 t lo v).pix = s.pix := rfl
@[simp] theorem setReg64_store (s : State) (t lo v : Nat) : (s.setReg64 t lo v).store = s.store := rfl
@[simp] theorem setReg64_hevc (s : State) (t lo v : Nat) : (s.setReg64 t lo v).hevc = s.hevc := rfl
@[simp] theorem setReg64_lpl (s : State) (t lo v : Nat) : (s.setReg64 t lo v).lpl = s.lpl := rfl
@[simp] theorem setReg64_mags (s : State) (t lo v : Nat) : (s.setReg64 t lo v).mags = s.mags := rfl
@[simp] theorem setReg64_host (s : State) (t lo v : Nat) : (s.setReg64 t lo v).host = s.host := rfl
@[simp] theorem setReg64_mem (s : State) (t lo v : Nat) : (s.setReg64 t lo v).mem = s.mem := rfl
@[simp] theorem setReg64_pos (s : State) (t lo v : Nat) : (s.setReg64 t lo v).pos = s.pos := rfl
@[simp] theorem setReg64_audio (s : State) (t lo v : Nat) : (s.setReg64 t lo v).audio = s.audio := rfl
@[simp] theorem setReg64_pwr (s : State) (t lo v : Nat) : (s.setReg64 t lo v).pwr = s.pwr := rfl
@[simp] theorem setReg64_evt (s : State) (t lo v : Nat) : (s.setReg64 t lo v).evt = s.evt := rfl
@[simp] theorem setReg64_boot (s : State) (t lo v : Nat) : (s.setReg64 t lo v).boot = s.boot := rfl
@[simp] theorem setReg64_pending (s : State) (t lo v : Nat) : (s.setReg64 t lo v).pending = s.pending := rfl

/-! ### setDbyte -/

@[simp] theorem setDbyte_member (s : State) (t a v : Nat) : (s.setDbyte t a v).member = s.member := rfl
@[simp] theorem setDbyte_grade (s : State) (t a v : Nat) : (s.setDbyte t a v).grade = s.grade := rfl
@[simp] theorem setDbyte_now (s : State) (t a v : Nat) : (s.setDbyte t a v).now = s.now := rfl
@[simp] theorem setDbyte_regs (s : State) (t a v : Nat) : (s.setDbyte t a v).regs = s.regs := rfl
@[simp] theorem setDbyte_dram (s : State) (t a v : Nat) : (s.setDbyte t a v).dram = s.dram := rfl
@[simp] theorem setDbyte_freeCtr (s : State) (t a v : Nat) : (s.setDbyte t a v).freeCtr = s.freeCtr := rfl
@[simp] theorem setDbyte_snaps (s : State) (t a v : Nat) : (s.setDbyte t a v).snaps = s.snaps := rfl
@[simp] theorem setDbyte_held (s : State) (t a v : Nat) : (s.setDbyte t a v).held = s.held := rfl
@[simp] theorem setDbyte_answers (s : State) (t a v : Nat) : (s.setDbyte t a v).answers = s.answers := rfl
@[simp] theorem setDbyte_seam (s : State) (t a v : Nat) : (s.setDbyte t a v).seam = s.seam := rfl
@[simp] theorem setDbyte_bench (s : State) (t a v : Nat) : (s.setDbyte t a v).bench = s.bench := rfl
@[simp] theorem setDbyte_core (s : State) (t a v : Nat) : (s.setDbyte t a v).core = s.core := rfl
@[simp] theorem setDbyte_time (s : State) (t a v : Nat) : (s.setDbyte t a v).time = s.time := rfl
@[simp] theorem setDbyte_lanes (s : State) (t a v : Nat) : (s.setDbyte t a v).lanes = s.lanes := rfl
@[simp] theorem setDbyte_pins (s : State) (t a v : Nat) : (s.setDbyte t a v).pins = s.pins := rfl
@[simp] theorem setDbyte_adit (s : State) (t a v : Nat) : (s.setDbyte t a v).adit = s.adit := rfl
@[simp] theorem setDbyte_pix (s : State) (t a v : Nat) : (s.setDbyte t a v).pix = s.pix := rfl
@[simp] theorem setDbyte_store (s : State) (t a v : Nat) : (s.setDbyte t a v).store = s.store := rfl
@[simp] theorem setDbyte_hevc (s : State) (t a v : Nat) : (s.setDbyte t a v).hevc = s.hevc := rfl
@[simp] theorem setDbyte_lpl (s : State) (t a v : Nat) : (s.setDbyte t a v).lpl = s.lpl := rfl
@[simp] theorem setDbyte_mags (s : State) (t a v : Nat) : (s.setDbyte t a v).mags = s.mags := rfl
@[simp] theorem setDbyte_host (s : State) (t a v : Nat) : (s.setDbyte t a v).host = s.host := rfl
@[simp] theorem setDbyte_mem (s : State) (t a v : Nat) : (s.setDbyte t a v).mem = s.mem := rfl
@[simp] theorem setDbyte_pos (s : State) (t a v : Nat) : (s.setDbyte t a v).pos = s.pos := rfl
@[simp] theorem setDbyte_audio (s : State) (t a v : Nat) : (s.setDbyte t a v).audio = s.audio := rfl
@[simp] theorem setDbyte_pwr (s : State) (t a v : Nat) : (s.setDbyte t a v).pwr = s.pwr := rfl
@[simp] theorem setDbyte_evt (s : State) (t a v : Nat) : (s.setDbyte t a v).evt = s.evt := rfl
@[simp] theorem setDbyte_boot (s : State) (t a v : Nat) : (s.setDbyte t a v).boot = s.boot := rfl
@[simp] theorem setDbyte_pending (s : State) (t a v : Nat) : (s.setDbyte t a v).pending = s.pending := rfl

/-! ### setAdStore -/

@[simp] theorem setAdStore_member (s : State) (t p : Nat) (l : List Item) : (s.setAdStore t p l).member = s.member := rfl
@[simp] theorem setAdStore_grade (s : State) (t p : Nat) (l : List Item) : (s.setAdStore t p l).grade = s.grade := rfl
@[simp] theorem setAdStore_now (s : State) (t p : Nat) (l : List Item) : (s.setAdStore t p l).now = s.now := rfl
@[simp] theorem setAdStore_regs (s : State) (t p : Nat) (l : List Item) : (s.setAdStore t p l).regs = s.regs := rfl
@[simp] theorem setAdStore_dram (s : State) (t p : Nat) (l : List Item) : (s.setAdStore t p l).dram = s.dram := rfl
@[simp] theorem setAdStore_writes (s : State) (t p : Nat) (l : List Item) : (s.setAdStore t p l).writes = s.writes := rfl
@[simp] theorem setAdStore_freeCtr (s : State) (t p : Nat) (l : List Item) : (s.setAdStore t p l).freeCtr = s.freeCtr := rfl
@[simp] theorem setAdStore_snaps (s : State) (t p : Nat) (l : List Item) : (s.setAdStore t p l).snaps = s.snaps := rfl
@[simp] theorem setAdStore_held (s : State) (t p : Nat) (l : List Item) : (s.setAdStore t p l).held = s.held := rfl
@[simp] theorem setAdStore_answers (s : State) (t p : Nat) (l : List Item) : (s.setAdStore t p l).answers = s.answers := rfl
@[simp] theorem setAdStore_seam (s : State) (t p : Nat) (l : List Item) : (s.setAdStore t p l).seam = s.seam := rfl
@[simp] theorem setAdStore_bench (s : State) (t p : Nat) (l : List Item) : (s.setAdStore t p l).bench = s.bench := rfl
@[simp] theorem setAdStore_core (s : State) (t p : Nat) (l : List Item) : (s.setAdStore t p l).core = s.core := rfl
@[simp] theorem setAdStore_time (s : State) (t p : Nat) (l : List Item) : (s.setAdStore t p l).time = s.time := rfl
@[simp] theorem setAdStore_lanes (s : State) (t p : Nat) (l : List Item) : (s.setAdStore t p l).lanes = s.lanes := rfl
@[simp] theorem setAdStore_pins (s : State) (t p : Nat) (l : List Item) : (s.setAdStore t p l).pins = s.pins := rfl
@[simp] theorem setAdStore_pix (s : State) (t p : Nat) (l : List Item) : (s.setAdStore t p l).pix = s.pix := rfl
@[simp] theorem setAdStore_store (s : State) (t p : Nat) (l : List Item) : (s.setAdStore t p l).store = s.store := rfl
@[simp] theorem setAdStore_hevc (s : State) (t p : Nat) (l : List Item) : (s.setAdStore t p l).hevc = s.hevc := rfl
@[simp] theorem setAdStore_lpl (s : State) (t p : Nat) (l : List Item) : (s.setAdStore t p l).lpl = s.lpl := rfl
@[simp] theorem setAdStore_mags (s : State) (t p : Nat) (l : List Item) : (s.setAdStore t p l).mags = s.mags := rfl
@[simp] theorem setAdStore_host (s : State) (t p : Nat) (l : List Item) : (s.setAdStore t p l).host = s.host := rfl
@[simp] theorem setAdStore_mem (s : State) (t p : Nat) (l : List Item) : (s.setAdStore t p l).mem = s.mem := rfl
@[simp] theorem setAdStore_pos (s : State) (t p : Nat) (l : List Item) : (s.setAdStore t p l).pos = s.pos := rfl
@[simp] theorem setAdStore_audio (s : State) (t p : Nat) (l : List Item) : (s.setAdStore t p l).audio = s.audio := rfl
@[simp] theorem setAdStore_pwr (s : State) (t p : Nat) (l : List Item) : (s.setAdStore t p l).pwr = s.pwr := rfl
@[simp] theorem setAdStore_evt (s : State) (t p : Nat) (l : List Item) : (s.setAdStore t p l).evt = s.evt := rfl
@[simp] theorem setAdStore_boot (s : State) (t p : Nat) (l : List Item) : (s.setAdStore t p l).boot = s.boot := rfl
@[simp] theorem setAdStore_pending (s : State) (t p : Nat) (l : List Item) : (s.setAdStore t p l).pending = s.pending := rfl
@[simp] theorem setAdStore_adit_ports (s : State) (t p : Nat) (l : List Item) : (s.setAdStore t p l).adit.ports = s.adit.ports := rfl
@[simp] theorem setAdStore_adit_stripes (s : State) (t p : Nat) (l : List Item) : (s.setAdStore t p l).adit.stripes = s.adit.stripes := rfl
@[simp] theorem setAdStore_adit_pieces (s : State) (t p : Nat) (l : List Item) : (s.setAdStore t p l).adit.pieces = s.adit.pieces := rfl
@[simp] theorem setAdStore_adit_records (s : State) (t p : Nat) (l : List Item) : (s.setAdStore t p l).adit.records = s.adit.records := rfl
@[simp] theorem setAdStore_adit_reports (s : State) (t p : Nat) (l : List Item) : (s.setAdStore t p l).adit.reports = s.adit.reports := rfl
@[simp] theorem setAdStore_adit_leadLines (s : State) (t p : Nat) (l : List Item) : (s.setAdStore t p l).adit.leadLines = s.adit.leadLines := rfl
@[simp] theorem setAdStore_adit_spi (s : State) (t p : Nat) (l : List Item) : (s.setAdStore t p l).adit.spi = s.adit.spi := rfl
@[simp] theorem setAdStore_adit_i2c (s : State) (t p : Nat) (l : List Item) : (s.setAdStore t p l).adit.i2c = s.adit.i2c := rfl

/-! ### setAud -/

@[simp] theorem setAud_member (s : State) (ch : Nat) (x : AudCh) : (s.setAud ch x).member = s.member := rfl
@[simp] theorem setAud_grade (s : State) (ch : Nat) (x : AudCh) : (s.setAud ch x).grade = s.grade := rfl
@[simp] theorem setAud_now (s : State) (ch : Nat) (x : AudCh) : (s.setAud ch x).now = s.now := rfl
@[simp] theorem setAud_regs (s : State) (ch : Nat) (x : AudCh) : (s.setAud ch x).regs = s.regs := rfl
@[simp] theorem setAud_dram (s : State) (ch : Nat) (x : AudCh) : (s.setAud ch x).dram = s.dram := rfl
@[simp] theorem setAud_writes (s : State) (ch : Nat) (x : AudCh) : (s.setAud ch x).writes = s.writes := rfl
@[simp] theorem setAud_freeCtr (s : State) (ch : Nat) (x : AudCh) : (s.setAud ch x).freeCtr = s.freeCtr := rfl
@[simp] theorem setAud_snaps (s : State) (ch : Nat) (x : AudCh) : (s.setAud ch x).snaps = s.snaps := rfl
@[simp] theorem setAud_held (s : State) (ch : Nat) (x : AudCh) : (s.setAud ch x).held = s.held := rfl
@[simp] theorem setAud_answers (s : State) (ch : Nat) (x : AudCh) : (s.setAud ch x).answers = s.answers := rfl
@[simp] theorem setAud_seam (s : State) (ch : Nat) (x : AudCh) : (s.setAud ch x).seam = s.seam := rfl
@[simp] theorem setAud_bench (s : State) (ch : Nat) (x : AudCh) : (s.setAud ch x).bench = s.bench := rfl
@[simp] theorem setAud_core (s : State) (ch : Nat) (x : AudCh) : (s.setAud ch x).core = s.core := rfl
@[simp] theorem setAud_time (s : State) (ch : Nat) (x : AudCh) : (s.setAud ch x).time = s.time := rfl
@[simp] theorem setAud_lanes (s : State) (ch : Nat) (x : AudCh) : (s.setAud ch x).lanes = s.lanes := rfl
@[simp] theorem setAud_pins (s : State) (ch : Nat) (x : AudCh) : (s.setAud ch x).pins = s.pins := rfl
@[simp] theorem setAud_adit (s : State) (ch : Nat) (x : AudCh) : (s.setAud ch x).adit = s.adit := rfl
@[simp] theorem setAud_pix (s : State) (ch : Nat) (x : AudCh) : (s.setAud ch x).pix = s.pix := rfl
@[simp] theorem setAud_store (s : State) (ch : Nat) (x : AudCh) : (s.setAud ch x).store = s.store := rfl
@[simp] theorem setAud_hevc (s : State) (ch : Nat) (x : AudCh) : (s.setAud ch x).hevc = s.hevc := rfl
@[simp] theorem setAud_lpl (s : State) (ch : Nat) (x : AudCh) : (s.setAud ch x).lpl = s.lpl := rfl
@[simp] theorem setAud_mags (s : State) (ch : Nat) (x : AudCh) : (s.setAud ch x).mags = s.mags := rfl
@[simp] theorem setAud_host (s : State) (ch : Nat) (x : AudCh) : (s.setAud ch x).host = s.host := rfl
@[simp] theorem setAud_mem (s : State) (ch : Nat) (x : AudCh) : (s.setAud ch x).mem = s.mem := rfl
@[simp] theorem setAud_pos (s : State) (ch : Nat) (x : AudCh) : (s.setAud ch x).pos = s.pos := rfl
@[simp] theorem setAud_pwr (s : State) (ch : Nat) (x : AudCh) : (s.setAud ch x).pwr = s.pwr := rfl
@[simp] theorem setAud_evt (s : State) (ch : Nat) (x : AudCh) : (s.setAud ch x).evt = s.evt := rfl
@[simp] theorem setAud_boot (s : State) (ch : Nat) (x : AudCh) : (s.setAud ch x).boot = s.boot := rfl
@[simp] theorem setAud_pending (s : State) (ch : Nat) (x : AudCh) : (s.setAud ch x).pending = s.pending := rfl
@[simp] theorem setAud_audio_stepped (s : State) (ch : Nat) (x : AudCh) : (s.setAud ch x).audio.stepped = s.audio.stepped := rfl
@[simp] theorem setAud_audio_fading (s : State) (ch : Nat) (x : AudCh) : (s.setAud ch x).audio.fading = s.audio.fading := rfl
@[simp] theorem setAud_audio_warm (s : State) (ch : Nat) (x : AudCh) : (s.setAud ch x).audio.warm = s.audio.warm := rfl

/-! ### setBank -/

@[simp] theorem setBank_member (s : State) (t b : Nat) (v : Bool) : (s.setBank t b v).member = s.member := rfl
@[simp] theorem setBank_grade (s : State) (t b : Nat) (v : Bool) : (s.setBank t b v).grade = s.grade := rfl
@[simp] theorem setBank_now (s : State) (t b : Nat) (v : Bool) : (s.setBank t b v).now = s.now := rfl
@[simp] theorem setBank_regs (s : State) (t b : Nat) (v : Bool) : (s.setBank t b v).regs = s.regs := rfl
@[simp] theorem setBank_dram (s : State) (t b : Nat) (v : Bool) : (s.setBank t b v).dram = s.dram := rfl
@[simp] theorem setBank_writes (s : State) (t b : Nat) (v : Bool) : (s.setBank t b v).writes = s.writes := rfl
@[simp] theorem setBank_freeCtr (s : State) (t b : Nat) (v : Bool) : (s.setBank t b v).freeCtr = s.freeCtr := rfl
@[simp] theorem setBank_snaps (s : State) (t b : Nat) (v : Bool) : (s.setBank t b v).snaps = s.snaps := rfl
@[simp] theorem setBank_held (s : State) (t b : Nat) (v : Bool) : (s.setBank t b v).held = s.held := rfl
@[simp] theorem setBank_answers (s : State) (t b : Nat) (v : Bool) : (s.setBank t b v).answers = s.answers := rfl
@[simp] theorem setBank_seam (s : State) (t b : Nat) (v : Bool) : (s.setBank t b v).seam = s.seam := rfl
@[simp] theorem setBank_core (s : State) (t b : Nat) (v : Bool) : (s.setBank t b v).core = s.core := rfl
@[simp] theorem setBank_time (s : State) (t b : Nat) (v : Bool) : (s.setBank t b v).time = s.time := rfl
@[simp] theorem setBank_lanes (s : State) (t b : Nat) (v : Bool) : (s.setBank t b v).lanes = s.lanes := rfl
@[simp] theorem setBank_pins (s : State) (t b : Nat) (v : Bool) : (s.setBank t b v).pins = s.pins := rfl
@[simp] theorem setBank_adit (s : State) (t b : Nat) (v : Bool) : (s.setBank t b v).adit = s.adit := rfl
@[simp] theorem setBank_pix (s : State) (t b : Nat) (v : Bool) : (s.setBank t b v).pix = s.pix := rfl
@[simp] theorem setBank_store (s : State) (t b : Nat) (v : Bool) : (s.setBank t b v).store = s.store := rfl
@[simp] theorem setBank_hevc (s : State) (t b : Nat) (v : Bool) : (s.setBank t b v).hevc = s.hevc := rfl
@[simp] theorem setBank_lpl (s : State) (t b : Nat) (v : Bool) : (s.setBank t b v).lpl = s.lpl := rfl
@[simp] theorem setBank_mags (s : State) (t b : Nat) (v : Bool) : (s.setBank t b v).mags = s.mags := rfl
@[simp] theorem setBank_host (s : State) (t b : Nat) (v : Bool) : (s.setBank t b v).host = s.host := rfl
@[simp] theorem setBank_mem (s : State) (t b : Nat) (v : Bool) : (s.setBank t b v).mem = s.mem := rfl
@[simp] theorem setBank_pos (s : State) (t b : Nat) (v : Bool) : (s.setBank t b v).pos = s.pos := rfl
@[simp] theorem setBank_audio (s : State) (t b : Nat) (v : Bool) : (s.setBank t b v).audio = s.audio := rfl
@[simp] theorem setBank_pwr (s : State) (t b : Nat) (v : Bool) : (s.setBank t b v).pwr = s.pwr := rfl
@[simp] theorem setBank_evt (s : State) (t b : Nat) (v : Bool) : (s.setBank t b v).evt = s.evt := rfl
@[simp] theorem setBank_boot (s : State) (t b : Nat) (v : Bool) : (s.setBank t b v).boot = s.boot := rfl
@[simp] theorem setBank_pending (s : State) (t b : Nat) (v : Bool) : (s.setBank t b v).pending = s.pending := rfl
@[simp] theorem setBank_bench_units (s : State) (t b : Nat) (v : Bool) : (s.setBank t b v).bench.units = s.bench.units := rfl
@[simp] theorem setBank_bench_txns (s : State) (t b : Nat) (v : Bool) : (s.setBank t b v).bench.txns = s.bench.txns := rfl
@[simp] theorem setBank_bench_defView (s : State) (t b : Nat) (v : Bool) : (s.setBank t b v).bench.defView = s.bench.defView := rfl
@[simp] theorem setBank_bench_marks (s : State) (t b : Nat) (v : Bool) : (s.setBank t b v).bench.marks = s.bench.marks := rfl
@[simp] theorem setBank_bench_epochs (s : State) (t b : Nat) (v : Bool) : (s.setBank t b v).bench.epochs = s.bench.epochs := rfl
@[simp] theorem setBank_bench_refused (s : State) (t b : Nat) (v : Bool) : (s.setBank t b v).bench.refused = s.bench.refused := rfl
@[simp] theorem setBank_bench_busy (s : State) (t b : Nat) (v : Bool) : (s.setBank t b v).bench.busy = s.bench.busy := rfl
@[simp] theorem setBank_bench_exchanged (s : State) (t b : Nat) (v : Bool) : (s.setBank t b v).bench.exchanged = s.bench.exchanged := rfl

/-! ### setBur -/

@[simp] theorem setBur_member (s : State) (t : Nat) (b : Burst) : (s.setBur t b).member = s.member := rfl
@[simp] theorem setBur_grade (s : State) (t : Nat) (b : Burst) : (s.setBur t b).grade = s.grade := rfl
@[simp] theorem setBur_now (s : State) (t : Nat) (b : Burst) : (s.setBur t b).now = s.now := rfl
@[simp] theorem setBur_regs (s : State) (t : Nat) (b : Burst) : (s.setBur t b).regs = s.regs := rfl
@[simp] theorem setBur_dram (s : State) (t : Nat) (b : Burst) : (s.setBur t b).dram = s.dram := rfl
@[simp] theorem setBur_writes (s : State) (t : Nat) (b : Burst) : (s.setBur t b).writes = s.writes := rfl
@[simp] theorem setBur_freeCtr (s : State) (t : Nat) (b : Burst) : (s.setBur t b).freeCtr = s.freeCtr := rfl
@[simp] theorem setBur_snaps (s : State) (t : Nat) (b : Burst) : (s.setBur t b).snaps = s.snaps := rfl
@[simp] theorem setBur_held (s : State) (t : Nat) (b : Burst) : (s.setBur t b).held = s.held := rfl
@[simp] theorem setBur_answers (s : State) (t : Nat) (b : Burst) : (s.setBur t b).answers = s.answers := rfl
@[simp] theorem setBur_seam (s : State) (t : Nat) (b : Burst) : (s.setBur t b).seam = s.seam := rfl
@[simp] theorem setBur_bench (s : State) (t : Nat) (b : Burst) : (s.setBur t b).bench = s.bench := rfl
@[simp] theorem setBur_core (s : State) (t : Nat) (b : Burst) : (s.setBur t b).core = s.core := rfl
@[simp] theorem setBur_time (s : State) (t : Nat) (b : Burst) : (s.setBur t b).time = s.time := rfl
@[simp] theorem setBur_lanes (s : State) (t : Nat) (b : Burst) : (s.setBur t b).lanes = s.lanes := rfl
@[simp] theorem setBur_pins (s : State) (t : Nat) (b : Burst) : (s.setBur t b).pins = s.pins := rfl
@[simp] theorem setBur_adit (s : State) (t : Nat) (b : Burst) : (s.setBur t b).adit = s.adit := rfl
@[simp] theorem setBur_pix (s : State) (t : Nat) (b : Burst) : (s.setBur t b).pix = s.pix := rfl
@[simp] theorem setBur_hevc (s : State) (t : Nat) (b : Burst) : (s.setBur t b).hevc = s.hevc := rfl
@[simp] theorem setBur_lpl (s : State) (t : Nat) (b : Burst) : (s.setBur t b).lpl = s.lpl := rfl
@[simp] theorem setBur_mags (s : State) (t : Nat) (b : Burst) : (s.setBur t b).mags = s.mags := rfl
@[simp] theorem setBur_host (s : State) (t : Nat) (b : Burst) : (s.setBur t b).host = s.host := rfl
@[simp] theorem setBur_mem (s : State) (t : Nat) (b : Burst) : (s.setBur t b).mem = s.mem := rfl
@[simp] theorem setBur_pos (s : State) (t : Nat) (b : Burst) : (s.setBur t b).pos = s.pos := rfl
@[simp] theorem setBur_audio (s : State) (t : Nat) (b : Burst) : (s.setBur t b).audio = s.audio := rfl
@[simp] theorem setBur_pwr (s : State) (t : Nat) (b : Burst) : (s.setBur t b).pwr = s.pwr := rfl
@[simp] theorem setBur_evt (s : State) (t : Nat) (b : Burst) : (s.setBur t b).evt = s.evt := rfl
@[simp] theorem setBur_boot (s : State) (t : Nat) (b : Burst) : (s.setBur t b).boot = s.boot := rfl
@[simp] theorem setBur_pending (s : State) (t : Nat) (b : Burst) : (s.setBur t b).pending = s.pending := rfl
@[simp] theorem setBur_store_streams (s : State) (t : Nat) (b : Burst) : (s.setBur t b).store.streams = s.store.streams := rfl
@[simp] theorem setBur_store_jobs (s : State) (t : Nat) (b : Burst) : (s.setBur t b).store.jobs = s.store.jobs := rfl
@[simp] theorem setBur_store_units (s : State) (t : Nat) (b : Burst) : (s.setBur t b).store.units = s.store.units := rfl
@[simp] theorem setBur_store_before (s : State) (t : Nat) (b : Burst) : (s.setBur t b).store.before = s.store.before := rfl
@[simp] theorem setBur_store_extents (s : State) (t : Nat) (b : Burst) : (s.setBur t b).store.extents = s.store.extents := rfl
@[simp] theorem setBur_store_rings (s : State) (t : Nat) (b : Burst) : (s.setBur t b).store.rings = s.store.rings := rfl
@[simp] theorem setBur_store_takes (s : State) (t : Nat) (b : Burst) : (s.setBur t b).store.takes = s.store.takes := rfl

/-! ### setBusy -/

@[simp] theorem setBusy_member (s : State) (t u sec : Nat) (b : Bool) : (s.setBusy t u sec b).member = s.member := rfl
@[simp] theorem setBusy_grade (s : State) (t u sec : Nat) (b : Bool) : (s.setBusy t u sec b).grade = s.grade := rfl
@[simp] theorem setBusy_now (s : State) (t u sec : Nat) (b : Bool) : (s.setBusy t u sec b).now = s.now := rfl
@[simp] theorem setBusy_regs (s : State) (t u sec : Nat) (b : Bool) : (s.setBusy t u sec b).regs = s.regs := rfl
@[simp] theorem setBusy_dram (s : State) (t u sec : Nat) (b : Bool) : (s.setBusy t u sec b).dram = s.dram := rfl
@[simp] theorem setBusy_writes (s : State) (t u sec : Nat) (b : Bool) : (s.setBusy t u sec b).writes = s.writes := rfl
@[simp] theorem setBusy_freeCtr (s : State) (t u sec : Nat) (b : Bool) : (s.setBusy t u sec b).freeCtr = s.freeCtr := rfl
@[simp] theorem setBusy_snaps (s : State) (t u sec : Nat) (b : Bool) : (s.setBusy t u sec b).snaps = s.snaps := rfl
@[simp] theorem setBusy_held (s : State) (t u sec : Nat) (b : Bool) : (s.setBusy t u sec b).held = s.held := rfl
@[simp] theorem setBusy_answers (s : State) (t u sec : Nat) (b : Bool) : (s.setBusy t u sec b).answers = s.answers := rfl
@[simp] theorem setBusy_seam (s : State) (t u sec : Nat) (b : Bool) : (s.setBusy t u sec b).seam = s.seam := rfl
@[simp] theorem setBusy_core (s : State) (t u sec : Nat) (b : Bool) : (s.setBusy t u sec b).core = s.core := rfl
@[simp] theorem setBusy_time (s : State) (t u sec : Nat) (b : Bool) : (s.setBusy t u sec b).time = s.time := rfl
@[simp] theorem setBusy_lanes (s : State) (t u sec : Nat) (b : Bool) : (s.setBusy t u sec b).lanes = s.lanes := rfl
@[simp] theorem setBusy_pins (s : State) (t u sec : Nat) (b : Bool) : (s.setBusy t u sec b).pins = s.pins := rfl
@[simp] theorem setBusy_adit (s : State) (t u sec : Nat) (b : Bool) : (s.setBusy t u sec b).adit = s.adit := rfl
@[simp] theorem setBusy_pix (s : State) (t u sec : Nat) (b : Bool) : (s.setBusy t u sec b).pix = s.pix := rfl
@[simp] theorem setBusy_store (s : State) (t u sec : Nat) (b : Bool) : (s.setBusy t u sec b).store = s.store := rfl
@[simp] theorem setBusy_hevc (s : State) (t u sec : Nat) (b : Bool) : (s.setBusy t u sec b).hevc = s.hevc := rfl
@[simp] theorem setBusy_lpl (s : State) (t u sec : Nat) (b : Bool) : (s.setBusy t u sec b).lpl = s.lpl := rfl
@[simp] theorem setBusy_mags (s : State) (t u sec : Nat) (b : Bool) : (s.setBusy t u sec b).mags = s.mags := rfl
@[simp] theorem setBusy_host (s : State) (t u sec : Nat) (b : Bool) : (s.setBusy t u sec b).host = s.host := rfl
@[simp] theorem setBusy_mem (s : State) (t u sec : Nat) (b : Bool) : (s.setBusy t u sec b).mem = s.mem := rfl
@[simp] theorem setBusy_pos (s : State) (t u sec : Nat) (b : Bool) : (s.setBusy t u sec b).pos = s.pos := rfl
@[simp] theorem setBusy_audio (s : State) (t u sec : Nat) (b : Bool) : (s.setBusy t u sec b).audio = s.audio := rfl
@[simp] theorem setBusy_pwr (s : State) (t u sec : Nat) (b : Bool) : (s.setBusy t u sec b).pwr = s.pwr := rfl
@[simp] theorem setBusy_evt (s : State) (t u sec : Nat) (b : Bool) : (s.setBusy t u sec b).evt = s.evt := rfl
@[simp] theorem setBusy_boot (s : State) (t u sec : Nat) (b : Bool) : (s.setBusy t u sec b).boot = s.boot := rfl
@[simp] theorem setBusy_pending (s : State) (t u sec : Nat) (b : Bool) : (s.setBusy t u sec b).pending = s.pending := rfl
@[simp] theorem setBusy_bench_units (s : State) (t u sec : Nat) (b : Bool) : (s.setBusy t u sec b).bench.units = s.bench.units := rfl
@[simp] theorem setBusy_bench_txns (s : State) (t u sec : Nat) (b : Bool) : (s.setBusy t u sec b).bench.txns = s.bench.txns := rfl
@[simp] theorem setBusy_bench_defView (s : State) (t u sec : Nat) (b : Bool) : (s.setBusy t u sec b).bench.defView = s.bench.defView := rfl
@[simp] theorem setBusy_bench_bankFull (s : State) (t u sec : Nat) (b : Bool) : (s.setBusy t u sec b).bench.bankFull = s.bench.bankFull := rfl
@[simp] theorem setBusy_bench_marks (s : State) (t u sec : Nat) (b : Bool) : (s.setBusy t u sec b).bench.marks = s.bench.marks := rfl
@[simp] theorem setBusy_bench_epochs (s : State) (t u sec : Nat) (b : Bool) : (s.setBusy t u sec b).bench.epochs = s.bench.epochs := rfl
@[simp] theorem setBusy_bench_refused (s : State) (t u sec : Nat) (b : Bool) : (s.setBusy t u sec b).bench.refused = s.bench.refused := rfl
@[simp] theorem setBusy_bench_exchanged (s : State) (t u sec : Nat) (b : Bool) : (s.setBusy t u sec b).bench.exchanged = s.bench.exchanged := rfl

/-! ### setCap -/

@[simp] theorem setCap_member (s : State) (k : Nat) (c : CapUnit) : (s.setCap k c).member = s.member := rfl
@[simp] theorem setCap_grade (s : State) (k : Nat) (c : CapUnit) : (s.setCap k c).grade = s.grade := rfl
@[simp] theorem setCap_now (s : State) (k : Nat) (c : CapUnit) : (s.setCap k c).now = s.now := rfl
@[simp] theorem setCap_regs (s : State) (k : Nat) (c : CapUnit) : (s.setCap k c).regs = s.regs := rfl
@[simp] theorem setCap_dram (s : State) (k : Nat) (c : CapUnit) : (s.setCap k c).dram = s.dram := rfl
@[simp] theorem setCap_writes (s : State) (k : Nat) (c : CapUnit) : (s.setCap k c).writes = s.writes := rfl
@[simp] theorem setCap_freeCtr (s : State) (k : Nat) (c : CapUnit) : (s.setCap k c).freeCtr = s.freeCtr := rfl
@[simp] theorem setCap_snaps (s : State) (k : Nat) (c : CapUnit) : (s.setCap k c).snaps = s.snaps := rfl
@[simp] theorem setCap_held (s : State) (k : Nat) (c : CapUnit) : (s.setCap k c).held = s.held := rfl
@[simp] theorem setCap_answers (s : State) (k : Nat) (c : CapUnit) : (s.setCap k c).answers = s.answers := rfl
@[simp] theorem setCap_seam (s : State) (k : Nat) (c : CapUnit) : (s.setCap k c).seam = s.seam := rfl
@[simp] theorem setCap_bench (s : State) (k : Nat) (c : CapUnit) : (s.setCap k c).bench = s.bench := rfl
@[simp] theorem setCap_core (s : State) (k : Nat) (c : CapUnit) : (s.setCap k c).core = s.core := rfl
@[simp] theorem setCap_lanes (s : State) (k : Nat) (c : CapUnit) : (s.setCap k c).lanes = s.lanes := rfl
@[simp] theorem setCap_pins (s : State) (k : Nat) (c : CapUnit) : (s.setCap k c).pins = s.pins := rfl
@[simp] theorem setCap_adit (s : State) (k : Nat) (c : CapUnit) : (s.setCap k c).adit = s.adit := rfl
@[simp] theorem setCap_pix (s : State) (k : Nat) (c : CapUnit) : (s.setCap k c).pix = s.pix := rfl
@[simp] theorem setCap_store (s : State) (k : Nat) (c : CapUnit) : (s.setCap k c).store = s.store := rfl
@[simp] theorem setCap_hevc (s : State) (k : Nat) (c : CapUnit) : (s.setCap k c).hevc = s.hevc := rfl
@[simp] theorem setCap_lpl (s : State) (k : Nat) (c : CapUnit) : (s.setCap k c).lpl = s.lpl := rfl
@[simp] theorem setCap_mags (s : State) (k : Nat) (c : CapUnit) : (s.setCap k c).mags = s.mags := rfl
@[simp] theorem setCap_host (s : State) (k : Nat) (c : CapUnit) : (s.setCap k c).host = s.host := rfl
@[simp] theorem setCap_mem (s : State) (k : Nat) (c : CapUnit) : (s.setCap k c).mem = s.mem := rfl
@[simp] theorem setCap_pos (s : State) (k : Nat) (c : CapUnit) : (s.setCap k c).pos = s.pos := rfl
@[simp] theorem setCap_audio (s : State) (k : Nat) (c : CapUnit) : (s.setCap k c).audio = s.audio := rfl
@[simp] theorem setCap_pwr (s : State) (k : Nat) (c : CapUnit) : (s.setCap k c).pwr = s.pwr := rfl
@[simp] theorem setCap_evt (s : State) (k : Nat) (c : CapUnit) : (s.setCap k c).evt = s.evt := rfl
@[simp] theorem setCap_boot (s : State) (k : Nat) (c : CapUnit) : (s.setCap k c).boot = s.boot := rfl
@[simp] theorem setCap_pending (s : State) (k : Nat) (c : CapUnit) : (s.setCap k c).pending = s.pending := rfl
@[simp] theorem setCap_time_chans (s : State) (k : Nat) (c : CapUnit) : (s.setCap k c).time.chans = s.time.chans := rfl
@[simp] theorem setCap_time_steer (s : State) (k : Nat) (c : CapUnit) : (s.setCap k c).time.steer = s.time.steer := rfl
@[simp] theorem setCap_time_gey (s : State) (k : Nat) (c : CapUnit) : (s.setCap k c).time.gey = s.time.gey := rfl
@[simp] theorem setCap_time_lcTicks (s : State) (k : Nat) (c : CapUnit) : (s.setCap k c).time.lcTicks = s.time.lcTicks := rfl
@[simp] theorem setCap_time_lcFrac (s : State) (k : Nat) (c : CapUnit) : (s.setCap k c).time.lcFrac = s.time.lcFrac := rfl
@[simp] theorem setCap_time_lcOfs (s : State) (k : Nat) (c : CapUnit) : (s.setCap k c).time.lcOfs = s.time.lcOfs := rfl
@[simp] theorem setCap_time_lcRate (s : State) (k : Nat) (c : CapUnit) : (s.setCap k c).time.lcRate = s.time.lcRate := rfl
@[simp] theorem setCap_time_xtrig (s : State) (k : Nat) (c : CapUnit) : (s.setCap k c).time.xtrig = s.time.xtrig := rfl
@[simp] theorem setCap_time_clockLost (s : State) (k : Nat) (c : CapUnit) : (s.setCap k c).time.clockLost = s.time.clockLost := rfl
@[simp] theorem setCap_time_lostAt (s : State) (k : Nat) (c : CapUnit) : (s.setCap k c).time.lostAt = s.time.lostAt := rfl
@[simp] theorem setCap_time_goodFrom (s : State) (k : Nat) (c : CapUnit) : (s.setCap k c).time.goodFrom = s.time.goodFrom := rfl
@[simp] theorem setCap_time_holdRaised (s : State) (k : Nat) (c : CapUnit) : (s.setCap k c).time.holdRaised = s.time.holdRaised := rfl
@[simp] theorem setCap_time_stamped (s : State) (k : Nat) (c : CapUnit) : (s.setCap k c).time.stamped = s.time.stamped := rfl
@[simp] theorem setCap_time_aon (s : State) (k : Nat) (c : CapUnit) : (s.setCap k c).time.aon = s.time.aon := rfl
@[simp] theorem setCap_time_calAcc (s : State) (k : Nat) (c : CapUnit) : (s.setCap k c).time.calAcc = s.time.calAcc := rfl
@[simp] theorem setCap_time_rttBusy (s : State) (k : Nat) (c : CapUnit) : (s.setCap k c).time.rttBusy = s.time.rttBusy := rfl
@[simp] theorem setCap_time_periods (s : State) (k : Nat) (c : CapUnit) : (s.setCap k c).time.periods = s.time.periods := rfl
@[simp] theorem setCap_time_stamps (s : State) (k : Nat) (c : CapUnit) : (s.setCap k c).time.stamps = s.time.stamps := rfl

/-! ### setChan -/

@[simp] theorem setChan_member (s : State) (t n : Nat) (c : Chan) : (s.setChan t n c).member = s.member := rfl
@[simp] theorem setChan_grade (s : State) (t n : Nat) (c : Chan) : (s.setChan t n c).grade = s.grade := rfl
@[simp] theorem setChan_now (s : State) (t n : Nat) (c : Chan) : (s.setChan t n c).now = s.now := rfl
@[simp] theorem setChan_regs (s : State) (t n : Nat) (c : Chan) : (s.setChan t n c).regs = s.regs := rfl
@[simp] theorem setChan_dram (s : State) (t n : Nat) (c : Chan) : (s.setChan t n c).dram = s.dram := rfl
@[simp] theorem setChan_writes (s : State) (t n : Nat) (c : Chan) : (s.setChan t n c).writes = s.writes := rfl
@[simp] theorem setChan_freeCtr (s : State) (t n : Nat) (c : Chan) : (s.setChan t n c).freeCtr = s.freeCtr := rfl
@[simp] theorem setChan_snaps (s : State) (t n : Nat) (c : Chan) : (s.setChan t n c).snaps = s.snaps := rfl
@[simp] theorem setChan_held (s : State) (t n : Nat) (c : Chan) : (s.setChan t n c).held = s.held := rfl
@[simp] theorem setChan_answers (s : State) (t n : Nat) (c : Chan) : (s.setChan t n c).answers = s.answers := rfl
@[simp] theorem setChan_seam (s : State) (t n : Nat) (c : Chan) : (s.setChan t n c).seam = s.seam := rfl
@[simp] theorem setChan_bench (s : State) (t n : Nat) (c : Chan) : (s.setChan t n c).bench = s.bench := rfl
@[simp] theorem setChan_core (s : State) (t n : Nat) (c : Chan) : (s.setChan t n c).core = s.core := rfl
@[simp] theorem setChan_lanes (s : State) (t n : Nat) (c : Chan) : (s.setChan t n c).lanes = s.lanes := rfl
@[simp] theorem setChan_pins (s : State) (t n : Nat) (c : Chan) : (s.setChan t n c).pins = s.pins := rfl
@[simp] theorem setChan_adit (s : State) (t n : Nat) (c : Chan) : (s.setChan t n c).adit = s.adit := rfl
@[simp] theorem setChan_pix (s : State) (t n : Nat) (c : Chan) : (s.setChan t n c).pix = s.pix := rfl
@[simp] theorem setChan_store (s : State) (t n : Nat) (c : Chan) : (s.setChan t n c).store = s.store := rfl
@[simp] theorem setChan_hevc (s : State) (t n : Nat) (c : Chan) : (s.setChan t n c).hevc = s.hevc := rfl
@[simp] theorem setChan_lpl (s : State) (t n : Nat) (c : Chan) : (s.setChan t n c).lpl = s.lpl := rfl
@[simp] theorem setChan_mags (s : State) (t n : Nat) (c : Chan) : (s.setChan t n c).mags = s.mags := rfl
@[simp] theorem setChan_host (s : State) (t n : Nat) (c : Chan) : (s.setChan t n c).host = s.host := rfl
@[simp] theorem setChan_mem (s : State) (t n : Nat) (c : Chan) : (s.setChan t n c).mem = s.mem := rfl
@[simp] theorem setChan_pos (s : State) (t n : Nat) (c : Chan) : (s.setChan t n c).pos = s.pos := rfl
@[simp] theorem setChan_audio (s : State) (t n : Nat) (c : Chan) : (s.setChan t n c).audio = s.audio := rfl
@[simp] theorem setChan_pwr (s : State) (t n : Nat) (c : Chan) : (s.setChan t n c).pwr = s.pwr := rfl
@[simp] theorem setChan_evt (s : State) (t n : Nat) (c : Chan) : (s.setChan t n c).evt = s.evt := rfl
@[simp] theorem setChan_boot (s : State) (t n : Nat) (c : Chan) : (s.setChan t n c).boot = s.boot := rfl
@[simp] theorem setChan_pending (s : State) (t n : Nat) (c : Chan) : (s.setChan t n c).pending = s.pending := rfl
@[simp] theorem setChan_time_steer (s : State) (t n : Nat) (c : Chan) : (s.setChan t n c).time.steer = s.time.steer := rfl
@[simp] theorem setChan_time_caps (s : State) (t n : Nat) (c : Chan) : (s.setChan t n c).time.caps = s.time.caps := rfl
@[simp] theorem setChan_time_gey (s : State) (t n : Nat) (c : Chan) : (s.setChan t n c).time.gey = s.time.gey := rfl
@[simp] theorem setChan_time_lcTicks (s : State) (t n : Nat) (c : Chan) : (s.setChan t n c).time.lcTicks = s.time.lcTicks := rfl
@[simp] theorem setChan_time_lcFrac (s : State) (t n : Nat) (c : Chan) : (s.setChan t n c).time.lcFrac = s.time.lcFrac := rfl
@[simp] theorem setChan_time_lcOfs (s : State) (t n : Nat) (c : Chan) : (s.setChan t n c).time.lcOfs = s.time.lcOfs := rfl
@[simp] theorem setChan_time_lcRate (s : State) (t n : Nat) (c : Chan) : (s.setChan t n c).time.lcRate = s.time.lcRate := rfl
@[simp] theorem setChan_time_xtrig (s : State) (t n : Nat) (c : Chan) : (s.setChan t n c).time.xtrig = s.time.xtrig := rfl
@[simp] theorem setChan_time_clockLost (s : State) (t n : Nat) (c : Chan) : (s.setChan t n c).time.clockLost = s.time.clockLost := rfl
@[simp] theorem setChan_time_lostAt (s : State) (t n : Nat) (c : Chan) : (s.setChan t n c).time.lostAt = s.time.lostAt := rfl
@[simp] theorem setChan_time_goodFrom (s : State) (t n : Nat) (c : Chan) : (s.setChan t n c).time.goodFrom = s.time.goodFrom := rfl
@[simp] theorem setChan_time_holdRaised (s : State) (t n : Nat) (c : Chan) : (s.setChan t n c).time.holdRaised = s.time.holdRaised := rfl
@[simp] theorem setChan_time_stamped (s : State) (t n : Nat) (c : Chan) : (s.setChan t n c).time.stamped = s.time.stamped := rfl
@[simp] theorem setChan_time_aon (s : State) (t n : Nat) (c : Chan) : (s.setChan t n c).time.aon = s.time.aon := rfl
@[simp] theorem setChan_time_calAcc (s : State) (t n : Nat) (c : Chan) : (s.setChan t n c).time.calAcc = s.time.calAcc := rfl
@[simp] theorem setChan_time_rttBusy (s : State) (t n : Nat) (c : Chan) : (s.setChan t n c).time.rttBusy = s.time.rttBusy := rfl
@[simp] theorem setChan_time_periods (s : State) (t n : Nat) (c : Chan) : (s.setChan t n c).time.periods = s.time.periods := rfl
@[simp] theorem setChan_time_stamps (s : State) (t n : Nat) (c : Chan) : (s.setChan t n c).time.stamps = s.time.stamps := rfl

/-! ### setCmpTgt -/

@[simp] theorem setCmpTgt_member (s : State) (c k : Nat) (t : Int) : (s.setCmpTgt c k t).member = s.member := rfl
@[simp] theorem setCmpTgt_grade (s : State) (c k : Nat) (t : Int) : (s.setCmpTgt c k t).grade = s.grade := rfl
@[simp] theorem setCmpTgt_now (s : State) (c k : Nat) (t : Int) : (s.setCmpTgt c k t).now = s.now := rfl
@[simp] theorem setCmpTgt_regs (s : State) (c k : Nat) (t : Int) : (s.setCmpTgt c k t).regs = s.regs := rfl
@[simp] theorem setCmpTgt_dram (s : State) (c k : Nat) (t : Int) : (s.setCmpTgt c k t).dram = s.dram := rfl
@[simp] theorem setCmpTgt_writes (s : State) (c k : Nat) (t : Int) : (s.setCmpTgt c k t).writes = s.writes := rfl
@[simp] theorem setCmpTgt_freeCtr (s : State) (c k : Nat) (t : Int) : (s.setCmpTgt c k t).freeCtr = s.freeCtr := rfl
@[simp] theorem setCmpTgt_snaps (s : State) (c k : Nat) (t : Int) : (s.setCmpTgt c k t).snaps = s.snaps := rfl
@[simp] theorem setCmpTgt_held (s : State) (c k : Nat) (t : Int) : (s.setCmpTgt c k t).held = s.held := rfl
@[simp] theorem setCmpTgt_answers (s : State) (c k : Nat) (t : Int) : (s.setCmpTgt c k t).answers = s.answers := rfl
@[simp] theorem setCmpTgt_seam (s : State) (c k : Nat) (t : Int) : (s.setCmpTgt c k t).seam = s.seam := rfl
@[simp] theorem setCmpTgt_bench (s : State) (c k : Nat) (t : Int) : (s.setCmpTgt c k t).bench = s.bench := rfl
@[simp] theorem setCmpTgt_core (s : State) (c k : Nat) (t : Int) : (s.setCmpTgt c k t).core = s.core := rfl
@[simp] theorem setCmpTgt_time (s : State) (c k : Nat) (t : Int) : (s.setCmpTgt c k t).time = s.time := rfl
@[simp] theorem setCmpTgt_lanes (s : State) (c k : Nat) (t : Int) : (s.setCmpTgt c k t).lanes = s.lanes := rfl
@[simp] theorem setCmpTgt_pins (s : State) (c k : Nat) (t : Int) : (s.setCmpTgt c k t).pins = s.pins := rfl
@[simp] theorem setCmpTgt_adit (s : State) (c k : Nat) (t : Int) : (s.setCmpTgt c k t).adit = s.adit := rfl
@[simp] theorem setCmpTgt_pix (s : State) (c k : Nat) (t : Int) : (s.setCmpTgt c k t).pix = s.pix := rfl
@[simp] theorem setCmpTgt_store (s : State) (c k : Nat) (t : Int) : (s.setCmpTgt c k t).store = s.store := rfl
@[simp] theorem setCmpTgt_hevc (s : State) (c k : Nat) (t : Int) : (s.setCmpTgt c k t).hevc = s.hevc := rfl
@[simp] theorem setCmpTgt_lpl (s : State) (c k : Nat) (t : Int) : (s.setCmpTgt c k t).lpl = s.lpl := rfl
@[simp] theorem setCmpTgt_mags (s : State) (c k : Nat) (t : Int) : (s.setCmpTgt c k t).mags = s.mags := rfl
@[simp] theorem setCmpTgt_host (s : State) (c k : Nat) (t : Int) : (s.setCmpTgt c k t).host = s.host := rfl
@[simp] theorem setCmpTgt_mem (s : State) (c k : Nat) (t : Int) : (s.setCmpTgt c k t).mem = s.mem := rfl
@[simp] theorem setCmpTgt_audio (s : State) (c k : Nat) (t : Int) : (s.setCmpTgt c k t).audio = s.audio := rfl
@[simp] theorem setCmpTgt_pwr (s : State) (c k : Nat) (t : Int) : (s.setCmpTgt c k t).pwr = s.pwr := rfl
@[simp] theorem setCmpTgt_evt (s : State) (c k : Nat) (t : Int) : (s.setCmpTgt c k t).evt = s.evt := rfl
@[simp] theorem setCmpTgt_boot (s : State) (c k : Nat) (t : Int) : (s.setCmpTgt c k t).boot = s.boot := rfl
@[simp] theorem setCmpTgt_pending (s : State) (c k : Nat) (t : Int) : (s.setCmpTgt c k t).pending = s.pending := rfl
@[simp] theorem setCmpTgt_pos_ch (s : State) (c k : Nat) (t : Int) : (s.setCmpTgt c k t).pos.ch = s.pos.ch := rfl
@[simp] theorem setCmpTgt_pos_caps (s : State) (c k : Nat) (t : Int) : (s.setCmpTgt c k t).pos.caps = s.pos.caps := rfl
@[simp] theorem setCmpTgt_pos_lens (s : State) (c k : Nat) (t : Int) : (s.setCmpTgt c k t).pos.lens = s.pos.lens := rfl

/-! ### setCrew -/

@[simp] theorem setCrew_member (s : State) (t c : Nat) (x : Crew) : (s.setCrew t c x).member = s.member := rfl
@[simp] theorem setCrew_grade (s : State) (t c : Nat) (x : Crew) : (s.setCrew t c x).grade = s.grade := rfl
@[simp] theorem setCrew_now (s : State) (t c : Nat) (x : Crew) : (s.setCrew t c x).now = s.now := rfl
@[simp] theorem setCrew_regs (s : State) (t c : Nat) (x : Crew) : (s.setCrew t c x).regs = s.regs := rfl
@[simp] theorem setCrew_dram (s : State) (t c : Nat) (x : Crew) : (s.setCrew t c x).dram = s.dram := rfl
@[simp] theorem setCrew_writes (s : State) (t c : Nat) (x : Crew) : (s.setCrew t c x).writes = s.writes := rfl
@[simp] theorem setCrew_freeCtr (s : State) (t c : Nat) (x : Crew) : (s.setCrew t c x).freeCtr = s.freeCtr := rfl
@[simp] theorem setCrew_snaps (s : State) (t c : Nat) (x : Crew) : (s.setCrew t c x).snaps = s.snaps := rfl
@[simp] theorem setCrew_held (s : State) (t c : Nat) (x : Crew) : (s.setCrew t c x).held = s.held := rfl
@[simp] theorem setCrew_answers (s : State) (t c : Nat) (x : Crew) : (s.setCrew t c x).answers = s.answers := rfl
@[simp] theorem setCrew_seam (s : State) (t c : Nat) (x : Crew) : (s.setCrew t c x).seam = s.seam := rfl
@[simp] theorem setCrew_bench (s : State) (t c : Nat) (x : Crew) : (s.setCrew t c x).bench = s.bench := rfl
@[simp] theorem setCrew_time (s : State) (t c : Nat) (x : Crew) : (s.setCrew t c x).time = s.time := rfl
@[simp] theorem setCrew_lanes (s : State) (t c : Nat) (x : Crew) : (s.setCrew t c x).lanes = s.lanes := rfl
@[simp] theorem setCrew_pins (s : State) (t c : Nat) (x : Crew) : (s.setCrew t c x).pins = s.pins := rfl
@[simp] theorem setCrew_adit (s : State) (t c : Nat) (x : Crew) : (s.setCrew t c x).adit = s.adit := rfl
@[simp] theorem setCrew_pix (s : State) (t c : Nat) (x : Crew) : (s.setCrew t c x).pix = s.pix := rfl
@[simp] theorem setCrew_store (s : State) (t c : Nat) (x : Crew) : (s.setCrew t c x).store = s.store := rfl
@[simp] theorem setCrew_hevc (s : State) (t c : Nat) (x : Crew) : (s.setCrew t c x).hevc = s.hevc := rfl
@[simp] theorem setCrew_lpl (s : State) (t c : Nat) (x : Crew) : (s.setCrew t c x).lpl = s.lpl := rfl
@[simp] theorem setCrew_mags (s : State) (t c : Nat) (x : Crew) : (s.setCrew t c x).mags = s.mags := rfl
@[simp] theorem setCrew_host (s : State) (t c : Nat) (x : Crew) : (s.setCrew t c x).host = s.host := rfl
@[simp] theorem setCrew_mem (s : State) (t c : Nat) (x : Crew) : (s.setCrew t c x).mem = s.mem := rfl
@[simp] theorem setCrew_pos (s : State) (t c : Nat) (x : Crew) : (s.setCrew t c x).pos = s.pos := rfl
@[simp] theorem setCrew_audio (s : State) (t c : Nat) (x : Crew) : (s.setCrew t c x).audio = s.audio := rfl
@[simp] theorem setCrew_pwr (s : State) (t c : Nat) (x : Crew) : (s.setCrew t c x).pwr = s.pwr := rfl
@[simp] theorem setCrew_evt (s : State) (t c : Nat) (x : Crew) : (s.setCrew t c x).evt = s.evt := rfl
@[simp] theorem setCrew_boot (s : State) (t c : Nat) (x : Crew) : (s.setCrew t c x).boot = s.boot := rfl
@[simp] theorem setCrew_pending (s : State) (t c : Nat) (x : Crew) : (s.setCrew t c x).pending = s.pending := rfl
@[simp] theorem setCrew_core_tcm (s : State) (t c : Nat) (x : Crew) : (s.setCrew t c x).core.tcm = s.core.tcm := rfl
@[simp] theorem setCrew_core_tcmPoison (s : State) (t c : Nat) (x : Crew) : (s.setCrew t c x).core.tcmPoison = s.core.tcmPoison := rfl
@[simp] theorem setCrew_core_tcmParity (s : State) (t c : Nat) (x : Crew) : (s.setCrew t c x).core.tcmParity = s.core.tcmParity := rfl
@[simp] theorem setCrew_core_dma (s : State) (t c : Nat) (x : Crew) : (s.setCrew t c x).core.dma = s.core.dma := rfl
@[simp] theorem setCrew_core_sysbound (s : State) (t c : Nat) (x : Crew) : (s.setCrew t c x).core.sysbound = s.core.sysbound := rfl
@[simp] theorem setCrew_core_tileReset (s : State) (t c : Nat) (x : Crew) : (s.setCrew t c x).core.tileReset = s.core.tileReset := rfl
@[simp] theorem setCrew_core_sends (s : State) (t c : Nat) (x : Crew) : (s.setCrew t c x).core.sends = s.core.sends := rfl
@[simp] theorem setCrew_core_ctlBusy (s : State) (t c : Nat) (x : Crew) : (s.setCrew t c x).core.ctlBusy = s.core.ctlBusy := rfl

/-! ### setCrj -/

@[simp] theorem setCrj_member (s : State) (t j : Nat) (x : CrJob) : (s.setCrj t j x).member = s.member := rfl
@[simp] theorem setCrj_grade (s : State) (t j : Nat) (x : CrJob) : (s.setCrj t j x).grade = s.grade := rfl
@[simp] theorem setCrj_now (s : State) (t j : Nat) (x : CrJob) : (s.setCrj t j x).now = s.now := rfl
@[simp] theorem setCrj_regs (s : State) (t j : Nat) (x : CrJob) : (s.setCrj t j x).regs = s.regs := rfl
@[simp] theorem setCrj_dram (s : State) (t j : Nat) (x : CrJob) : (s.setCrj t j x).dram = s.dram := rfl
@[simp] theorem setCrj_writes (s : State) (t j : Nat) (x : CrJob) : (s.setCrj t j x).writes = s.writes := rfl
@[simp] theorem setCrj_freeCtr (s : State) (t j : Nat) (x : CrJob) : (s.setCrj t j x).freeCtr = s.freeCtr := rfl
@[simp] theorem setCrj_snaps (s : State) (t j : Nat) (x : CrJob) : (s.setCrj t j x).snaps = s.snaps := rfl
@[simp] theorem setCrj_held (s : State) (t j : Nat) (x : CrJob) : (s.setCrj t j x).held = s.held := rfl
@[simp] theorem setCrj_answers (s : State) (t j : Nat) (x : CrJob) : (s.setCrj t j x).answers = s.answers := rfl
@[simp] theorem setCrj_seam (s : State) (t j : Nat) (x : CrJob) : (s.setCrj t j x).seam = s.seam := rfl
@[simp] theorem setCrj_bench (s : State) (t j : Nat) (x : CrJob) : (s.setCrj t j x).bench = s.bench := rfl
@[simp] theorem setCrj_core (s : State) (t j : Nat) (x : CrJob) : (s.setCrj t j x).core = s.core := rfl
@[simp] theorem setCrj_time (s : State) (t j : Nat) (x : CrJob) : (s.setCrj t j x).time = s.time := rfl
@[simp] theorem setCrj_lanes (s : State) (t j : Nat) (x : CrJob) : (s.setCrj t j x).lanes = s.lanes := rfl
@[simp] theorem setCrj_pins (s : State) (t j : Nat) (x : CrJob) : (s.setCrj t j x).pins = s.pins := rfl
@[simp] theorem setCrj_adit (s : State) (t j : Nat) (x : CrJob) : (s.setCrj t j x).adit = s.adit := rfl
@[simp] theorem setCrj_pix (s : State) (t j : Nat) (x : CrJob) : (s.setCrj t j x).pix = s.pix := rfl
@[simp] theorem setCrj_hevc (s : State) (t j : Nat) (x : CrJob) : (s.setCrj t j x).hevc = s.hevc := rfl
@[simp] theorem setCrj_lpl (s : State) (t j : Nat) (x : CrJob) : (s.setCrj t j x).lpl = s.lpl := rfl
@[simp] theorem setCrj_mags (s : State) (t j : Nat) (x : CrJob) : (s.setCrj t j x).mags = s.mags := rfl
@[simp] theorem setCrj_host (s : State) (t j : Nat) (x : CrJob) : (s.setCrj t j x).host = s.host := rfl
@[simp] theorem setCrj_mem (s : State) (t j : Nat) (x : CrJob) : (s.setCrj t j x).mem = s.mem := rfl
@[simp] theorem setCrj_pos (s : State) (t j : Nat) (x : CrJob) : (s.setCrj t j x).pos = s.pos := rfl
@[simp] theorem setCrj_audio (s : State) (t j : Nat) (x : CrJob) : (s.setCrj t j x).audio = s.audio := rfl
@[simp] theorem setCrj_pwr (s : State) (t j : Nat) (x : CrJob) : (s.setCrj t j x).pwr = s.pwr := rfl
@[simp] theorem setCrj_evt (s : State) (t j : Nat) (x : CrJob) : (s.setCrj t j x).evt = s.evt := rfl
@[simp] theorem setCrj_boot (s : State) (t j : Nat) (x : CrJob) : (s.setCrj t j x).boot = s.boot := rfl
@[simp] theorem setCrj_pending (s : State) (t j : Nat) (x : CrJob) : (s.setCrj t j x).pending = s.pending := rfl
@[simp] theorem setCrj_store_streams (s : State) (t j : Nat) (x : CrJob) : (s.setCrj t j x).store.streams = s.store.streams := rfl
@[simp] theorem setCrj_store_units (s : State) (t j : Nat) (x : CrJob) : (s.setCrj t j x).store.units = s.store.units := rfl
@[simp] theorem setCrj_store_before (s : State) (t j : Nat) (x : CrJob) : (s.setCrj t j x).store.before = s.store.before := rfl
@[simp] theorem setCrj_store_extents (s : State) (t j : Nat) (x : CrJob) : (s.setCrj t j x).store.extents = s.store.extents := rfl
@[simp] theorem setCrj_store_rings (s : State) (t j : Nat) (x : CrJob) : (s.setCrj t j x).store.rings = s.store.rings := rfl
@[simp] theorem setCrj_store_takes (s : State) (t j : Nat) (x : CrJob) : (s.setCrj t j x).store.takes = s.store.takes := rfl
@[simp] theorem setCrj_store_burst (s : State) (t j : Nat) (x : CrJob) : (s.setCrj t j x).store.burst = s.store.burst := rfl

/-! ### setCrs -/

@[simp] theorem setCrs_member (s : State) (t k : Nat) (x : CrStream) : (s.setCrs t k x).member = s.member := rfl
@[simp] theorem setCrs_grade (s : State) (t k : Nat) (x : CrStream) : (s.setCrs t k x).grade = s.grade := rfl
@[simp] theorem setCrs_now (s : State) (t k : Nat) (x : CrStream) : (s.setCrs t k x).now = s.now := rfl
@[simp] theorem setCrs_regs (s : State) (t k : Nat) (x : CrStream) : (s.setCrs t k x).regs = s.regs := rfl
@[simp] theorem setCrs_dram (s : State) (t k : Nat) (x : CrStream) : (s.setCrs t k x).dram = s.dram := rfl
@[simp] theorem setCrs_writes (s : State) (t k : Nat) (x : CrStream) : (s.setCrs t k x).writes = s.writes := rfl
@[simp] theorem setCrs_freeCtr (s : State) (t k : Nat) (x : CrStream) : (s.setCrs t k x).freeCtr = s.freeCtr := rfl
@[simp] theorem setCrs_snaps (s : State) (t k : Nat) (x : CrStream) : (s.setCrs t k x).snaps = s.snaps := rfl
@[simp] theorem setCrs_held (s : State) (t k : Nat) (x : CrStream) : (s.setCrs t k x).held = s.held := rfl
@[simp] theorem setCrs_answers (s : State) (t k : Nat) (x : CrStream) : (s.setCrs t k x).answers = s.answers := rfl
@[simp] theorem setCrs_seam (s : State) (t k : Nat) (x : CrStream) : (s.setCrs t k x).seam = s.seam := rfl
@[simp] theorem setCrs_bench (s : State) (t k : Nat) (x : CrStream) : (s.setCrs t k x).bench = s.bench := rfl
@[simp] theorem setCrs_core (s : State) (t k : Nat) (x : CrStream) : (s.setCrs t k x).core = s.core := rfl
@[simp] theorem setCrs_time (s : State) (t k : Nat) (x : CrStream) : (s.setCrs t k x).time = s.time := rfl
@[simp] theorem setCrs_lanes (s : State) (t k : Nat) (x : CrStream) : (s.setCrs t k x).lanes = s.lanes := rfl
@[simp] theorem setCrs_pins (s : State) (t k : Nat) (x : CrStream) : (s.setCrs t k x).pins = s.pins := rfl
@[simp] theorem setCrs_adit (s : State) (t k : Nat) (x : CrStream) : (s.setCrs t k x).adit = s.adit := rfl
@[simp] theorem setCrs_pix (s : State) (t k : Nat) (x : CrStream) : (s.setCrs t k x).pix = s.pix := rfl
@[simp] theorem setCrs_hevc (s : State) (t k : Nat) (x : CrStream) : (s.setCrs t k x).hevc = s.hevc := rfl
@[simp] theorem setCrs_lpl (s : State) (t k : Nat) (x : CrStream) : (s.setCrs t k x).lpl = s.lpl := rfl
@[simp] theorem setCrs_mags (s : State) (t k : Nat) (x : CrStream) : (s.setCrs t k x).mags = s.mags := rfl
@[simp] theorem setCrs_host (s : State) (t k : Nat) (x : CrStream) : (s.setCrs t k x).host = s.host := rfl
@[simp] theorem setCrs_mem (s : State) (t k : Nat) (x : CrStream) : (s.setCrs t k x).mem = s.mem := rfl
@[simp] theorem setCrs_pos (s : State) (t k : Nat) (x : CrStream) : (s.setCrs t k x).pos = s.pos := rfl
@[simp] theorem setCrs_audio (s : State) (t k : Nat) (x : CrStream) : (s.setCrs t k x).audio = s.audio := rfl
@[simp] theorem setCrs_pwr (s : State) (t k : Nat) (x : CrStream) : (s.setCrs t k x).pwr = s.pwr := rfl
@[simp] theorem setCrs_evt (s : State) (t k : Nat) (x : CrStream) : (s.setCrs t k x).evt = s.evt := rfl
@[simp] theorem setCrs_boot (s : State) (t k : Nat) (x : CrStream) : (s.setCrs t k x).boot = s.boot := rfl
@[simp] theorem setCrs_pending (s : State) (t k : Nat) (x : CrStream) : (s.setCrs t k x).pending = s.pending := rfl
@[simp] theorem setCrs_store_jobs (s : State) (t k : Nat) (x : CrStream) : (s.setCrs t k x).store.jobs = s.store.jobs := rfl
@[simp] theorem setCrs_store_units (s : State) (t k : Nat) (x : CrStream) : (s.setCrs t k x).store.units = s.store.units := rfl
@[simp] theorem setCrs_store_before (s : State) (t k : Nat) (x : CrStream) : (s.setCrs t k x).store.before = s.store.before := rfl
@[simp] theorem setCrs_store_extents (s : State) (t k : Nat) (x : CrStream) : (s.setCrs t k x).store.extents = s.store.extents := rfl
@[simp] theorem setCrs_store_rings (s : State) (t k : Nat) (x : CrStream) : (s.setCrs t k x).store.rings = s.store.rings := rfl
@[simp] theorem setCrs_store_takes (s : State) (t k : Nat) (x : CrStream) : (s.setCrs t k x).store.takes = s.store.takes := rfl
@[simp] theorem setCrs_store_burst (s : State) (t k : Nat) (x : CrStream) : (s.setCrs t k x).store.burst = s.store.burst := rfl

/-! ### setDec -/

@[simp] theorem setDec_member (s : State) (h c : Nat) (x : DecCtx) : (s.setDec h c x).member = s.member := rfl
@[simp] theorem setDec_grade (s : State) (h c : Nat) (x : DecCtx) : (s.setDec h c x).grade = s.grade := rfl
@[simp] theorem setDec_now (s : State) (h c : Nat) (x : DecCtx) : (s.setDec h c x).now = s.now := rfl
@[simp] theorem setDec_regs (s : State) (h c : Nat) (x : DecCtx) : (s.setDec h c x).regs = s.regs := rfl
@[simp] theorem setDec_dram (s : State) (h c : Nat) (x : DecCtx) : (s.setDec h c x).dram = s.dram := rfl
@[simp] theorem setDec_writes (s : State) (h c : Nat) (x : DecCtx) : (s.setDec h c x).writes = s.writes := rfl
@[simp] theorem setDec_freeCtr (s : State) (h c : Nat) (x : DecCtx) : (s.setDec h c x).freeCtr = s.freeCtr := rfl
@[simp] theorem setDec_snaps (s : State) (h c : Nat) (x : DecCtx) : (s.setDec h c x).snaps = s.snaps := rfl
@[simp] theorem setDec_held (s : State) (h c : Nat) (x : DecCtx) : (s.setDec h c x).held = s.held := rfl
@[simp] theorem setDec_answers (s : State) (h c : Nat) (x : DecCtx) : (s.setDec h c x).answers = s.answers := rfl
@[simp] theorem setDec_seam (s : State) (h c : Nat) (x : DecCtx) : (s.setDec h c x).seam = s.seam := rfl
@[simp] theorem setDec_bench (s : State) (h c : Nat) (x : DecCtx) : (s.setDec h c x).bench = s.bench := rfl
@[simp] theorem setDec_core (s : State) (h c : Nat) (x : DecCtx) : (s.setDec h c x).core = s.core := rfl
@[simp] theorem setDec_time (s : State) (h c : Nat) (x : DecCtx) : (s.setDec h c x).time = s.time := rfl
@[simp] theorem setDec_lanes (s : State) (h c : Nat) (x : DecCtx) : (s.setDec h c x).lanes = s.lanes := rfl
@[simp] theorem setDec_pins (s : State) (h c : Nat) (x : DecCtx) : (s.setDec h c x).pins = s.pins := rfl
@[simp] theorem setDec_adit (s : State) (h c : Nat) (x : DecCtx) : (s.setDec h c x).adit = s.adit := rfl
@[simp] theorem setDec_pix (s : State) (h c : Nat) (x : DecCtx) : (s.setDec h c x).pix = s.pix := rfl
@[simp] theorem setDec_store (s : State) (h c : Nat) (x : DecCtx) : (s.setDec h c x).store = s.store := rfl
@[simp] theorem setDec_lpl (s : State) (h c : Nat) (x : DecCtx) : (s.setDec h c x).lpl = s.lpl := rfl
@[simp] theorem setDec_mags (s : State) (h c : Nat) (x : DecCtx) : (s.setDec h c x).mags = s.mags := rfl
@[simp] theorem setDec_host (s : State) (h c : Nat) (x : DecCtx) : (s.setDec h c x).host = s.host := rfl
@[simp] theorem setDec_mem (s : State) (h c : Nat) (x : DecCtx) : (s.setDec h c x).mem = s.mem := rfl
@[simp] theorem setDec_pos (s : State) (h c : Nat) (x : DecCtx) : (s.setDec h c x).pos = s.pos := rfl
@[simp] theorem setDec_audio (s : State) (h c : Nat) (x : DecCtx) : (s.setDec h c x).audio = s.audio := rfl
@[simp] theorem setDec_pwr (s : State) (h c : Nat) (x : DecCtx) : (s.setDec h c x).pwr = s.pwr := rfl
@[simp] theorem setDec_evt (s : State) (h c : Nat) (x : DecCtx) : (s.setDec h c x).evt = s.evt := rfl
@[simp] theorem setDec_boot (s : State) (h c : Nat) (x : DecCtx) : (s.setDec h c x).boot = s.boot := rfl
@[simp] theorem setDec_pending (s : State) (h c : Nat) (x : DecCtx) : (s.setDec h c x).pending = s.pending := rfl
@[simp] theorem setDec_hevc_encIn (s : State) (h c : Nat) (x : DecCtx) : (s.setDec h c x).hevc.encIn = s.hevc.encIn := rfl
@[simp] theorem setDec_hevc_enc (s : State) (h c : Nat) (x : DecCtx) : (s.setDec h c x).hevc.enc = s.hevc.enc := rfl

/-! ### setDev -/

@[simp] theorem setDev_member (s : State) (t n : Nat) (c : DevCtx) : (s.setDev t n c).member = s.member := rfl
@[simp] theorem setDev_grade (s : State) (t n : Nat) (c : DevCtx) : (s.setDev t n c).grade = s.grade := rfl
@[simp] theorem setDev_now (s : State) (t n : Nat) (c : DevCtx) : (s.setDev t n c).now = s.now := rfl
@[simp] theorem setDev_regs (s : State) (t n : Nat) (c : DevCtx) : (s.setDev t n c).regs = s.regs := rfl
@[simp] theorem setDev_dram (s : State) (t n : Nat) (c : DevCtx) : (s.setDev t n c).dram = s.dram := rfl
@[simp] theorem setDev_writes (s : State) (t n : Nat) (c : DevCtx) : (s.setDev t n c).writes = s.writes := rfl
@[simp] theorem setDev_freeCtr (s : State) (t n : Nat) (c : DevCtx) : (s.setDev t n c).freeCtr = s.freeCtr := rfl
@[simp] theorem setDev_snaps (s : State) (t n : Nat) (c : DevCtx) : (s.setDev t n c).snaps = s.snaps := rfl
@[simp] theorem setDev_held (s : State) (t n : Nat) (c : DevCtx) : (s.setDev t n c).held = s.held := rfl
@[simp] theorem setDev_answers (s : State) (t n : Nat) (c : DevCtx) : (s.setDev t n c).answers = s.answers := rfl
@[simp] theorem setDev_seam (s : State) (t n : Nat) (c : DevCtx) : (s.setDev t n c).seam = s.seam := rfl
@[simp] theorem setDev_bench (s : State) (t n : Nat) (c : DevCtx) : (s.setDev t n c).bench = s.bench := rfl
@[simp] theorem setDev_core (s : State) (t n : Nat) (c : DevCtx) : (s.setDev t n c).core = s.core := rfl
@[simp] theorem setDev_time (s : State) (t n : Nat) (c : DevCtx) : (s.setDev t n c).time = s.time := rfl
@[simp] theorem setDev_lanes (s : State) (t n : Nat) (c : DevCtx) : (s.setDev t n c).lanes = s.lanes := rfl
@[simp] theorem setDev_pins (s : State) (t n : Nat) (c : DevCtx) : (s.setDev t n c).pins = s.pins := rfl
@[simp] theorem setDev_adit (s : State) (t n : Nat) (c : DevCtx) : (s.setDev t n c).adit = s.adit := rfl
@[simp] theorem setDev_store (s : State) (t n : Nat) (c : DevCtx) : (s.setDev t n c).store = s.store := rfl
@[simp] theorem setDev_hevc (s : State) (t n : Nat) (c : DevCtx) : (s.setDev t n c).hevc = s.hevc := rfl
@[simp] theorem setDev_lpl (s : State) (t n : Nat) (c : DevCtx) : (s.setDev t n c).lpl = s.lpl := rfl
@[simp] theorem setDev_mags (s : State) (t n : Nat) (c : DevCtx) : (s.setDev t n c).mags = s.mags := rfl
@[simp] theorem setDev_host (s : State) (t n : Nat) (c : DevCtx) : (s.setDev t n c).host = s.host := rfl
@[simp] theorem setDev_mem (s : State) (t n : Nat) (c : DevCtx) : (s.setDev t n c).mem = s.mem := rfl
@[simp] theorem setDev_pos (s : State) (t n : Nat) (c : DevCtx) : (s.setDev t n c).pos = s.pos := rfl
@[simp] theorem setDev_audio (s : State) (t n : Nat) (c : DevCtx) : (s.setDev t n c).audio = s.audio := rfl
@[simp] theorem setDev_pwr (s : State) (t n : Nat) (c : DevCtx) : (s.setDev t n c).pwr = s.pwr := rfl
@[simp] theorem setDev_evt (s : State) (t n : Nat) (c : DevCtx) : (s.setDev t n c).evt = s.evt := rfl
@[simp] theorem setDev_boot (s : State) (t n : Nat) (c : DevCtx) : (s.setDev t n c).boot = s.boot := rfl
@[simp] theorem setDev_pending (s : State) (t n : Nat) (c : DevCtx) : (s.setDev t n c).pending = s.pending := rfl
@[simp] theorem setDev_pix_rawIn (s : State) (t n : Nat) (c : DevCtx) : (s.setDev t n c).pix.rawIn = s.pix.rawIn := rfl
@[simp] theorem setDev_pix_raw (s : State) (t n : Nat) (c : DevCtx) : (s.setDev t n c).pix.raw = s.pix.raw := rfl
@[simp] theorem setDev_pix_haloOut (s : State) (t n : Nat) (c : DevCtx) : (s.setDev t n c).pix.haloOut = s.pix.haloOut := rfl
@[simp] theorem setDev_pix_haloIn (s : State) (t n : Nat) (c : DevCtx) : (s.setDev t n c).pix.haloIn = s.pix.haloIn := rfl
@[simp] theorem setDev_pix_obOut (s : State) (t n : Nat) (c : DevCtx) : (s.setDev t n c).pix.obOut = s.pix.obOut := rfl
@[simp] theorem setDev_pix_partials (s : State) (t n : Nat) (c : DevCtx) : (s.setDev t n c).pix.partials = s.pix.partials := rfl
@[simp] theorem setDev_pix_combine (s : State) (t n : Nat) (c : DevCtx) : (s.setDev t n c).pix.combine = s.pix.combine := rfl
@[simp] theorem setDev_pix_x2 (s : State) (t n : Nat) (c : DevCtx) : (s.setDev t n c).pix.x2 = s.pix.x2 := rfl
@[simp] theorem setDev_pix_x3 (s : State) (t n : Nat) (c : DevCtx) : (s.setDev t n c).pix.x3 = s.pix.x3 := rfl
@[simp] theorem setDev_pix_out (s : State) (t n : Nat) (c : DevCtx) : (s.setDev t n c).pix.out = s.pix.out := rfl
@[simp] theorem setDev_pix_ranges (s : State) (t n : Nat) (c : DevCtx) : (s.setDev t n c).pix.ranges = s.pix.ranges := rfl
@[simp] theorem setDev_pix_defBad (s : State) (t n : Nat) (c : DevCtx) : (s.setDev t n c).pix.defBad = s.pix.defBad := rfl
@[simp] theorem setDev_pix_alpha (s : State) (t n : Nat) (c : DevCtx) : (s.setDev t n c).pix.alpha = s.pix.alpha := rfl
@[simp] theorem setDev_pix_expo (s : State) (t n : Nat) (c : DevCtx) : (s.setDev t n c).pix.expo = s.pix.expo := rfl
@[simp] theorem setDev_pix_tap (s : State) (t n : Nat) (c : DevCtx) : (s.setDev t n c).pix.tap = s.pix.tap := rfl
@[simp] theorem setDev_pix_sdiFmt (s : State) (t n : Nat) (c : DevCtx) : (s.setDev t n c).pix.sdiFmt = s.pix.sdiFmt := rfl
@[simp] theorem setDev_pix_diffOver (s : State) (t n : Nat) (c : DevCtx) : (s.setDev t n c).pix.diffOver = s.pix.diffOver := rfl
@[simp] theorem setDev_pix_tables (s : State) (t n : Nat) (c : DevCtx) : (s.setDev t n c).pix.tables = s.pix.tables := rfl

/-! ### setDiscard -/

@[simp] theorem setDiscard_member (s : State) (t x src : Nat) (b : Bool) : (s.setDiscard t x src b).member = s.member := rfl
@[simp] theorem setDiscard_grade (s : State) (t x src : Nat) (b : Bool) : (s.setDiscard t x src b).grade = s.grade := rfl
@[simp] theorem setDiscard_now (s : State) (t x src : Nat) (b : Bool) : (s.setDiscard t x src b).now = s.now := rfl
@[simp] theorem setDiscard_regs (s : State) (t x src : Nat) (b : Bool) : (s.setDiscard t x src b).regs = s.regs := rfl
@[simp] theorem setDiscard_dram (s : State) (t x src : Nat) (b : Bool) : (s.setDiscard t x src b).dram = s.dram := rfl
@[simp] theorem setDiscard_writes (s : State) (t x src : Nat) (b : Bool) : (s.setDiscard t x src b).writes = s.writes := rfl
@[simp] theorem setDiscard_freeCtr (s : State) (t x src : Nat) (b : Bool) : (s.setDiscard t x src b).freeCtr = s.freeCtr := rfl
@[simp] theorem setDiscard_snaps (s : State) (t x src : Nat) (b : Bool) : (s.setDiscard t x src b).snaps = s.snaps := rfl
@[simp] theorem setDiscard_held (s : State) (t x src : Nat) (b : Bool) : (s.setDiscard t x src b).held = s.held := rfl
@[simp] theorem setDiscard_answers (s : State) (t x src : Nat) (b : Bool) : (s.setDiscard t x src b).answers = s.answers := rfl
@[simp] theorem setDiscard_bench (s : State) (t x src : Nat) (b : Bool) : (s.setDiscard t x src b).bench = s.bench := rfl
@[simp] theorem setDiscard_core (s : State) (t x src : Nat) (b : Bool) : (s.setDiscard t x src b).core = s.core := rfl
@[simp] theorem setDiscard_time (s : State) (t x src : Nat) (b : Bool) : (s.setDiscard t x src b).time = s.time := rfl
@[simp] theorem setDiscard_lanes (s : State) (t x src : Nat) (b : Bool) : (s.setDiscard t x src b).lanes = s.lanes := rfl
@[simp] theorem setDiscard_pins (s : State) (t x src : Nat) (b : Bool) : (s.setDiscard t x src b).pins = s.pins := rfl
@[simp] theorem setDiscard_adit (s : State) (t x src : Nat) (b : Bool) : (s.setDiscard t x src b).adit = s.adit := rfl
@[simp] theorem setDiscard_pix (s : State) (t x src : Nat) (b : Bool) : (s.setDiscard t x src b).pix = s.pix := rfl
@[simp] theorem setDiscard_store (s : State) (t x src : Nat) (b : Bool) : (s.setDiscard t x src b).store = s.store := rfl
@[simp] theorem setDiscard_hevc (s : State) (t x src : Nat) (b : Bool) : (s.setDiscard t x src b).hevc = s.hevc := rfl
@[simp] theorem setDiscard_lpl (s : State) (t x src : Nat) (b : Bool) : (s.setDiscard t x src b).lpl = s.lpl := rfl
@[simp] theorem setDiscard_mags (s : State) (t x src : Nat) (b : Bool) : (s.setDiscard t x src b).mags = s.mags := rfl
@[simp] theorem setDiscard_host (s : State) (t x src : Nat) (b : Bool) : (s.setDiscard t x src b).host = s.host := rfl
@[simp] theorem setDiscard_mem (s : State) (t x src : Nat) (b : Bool) : (s.setDiscard t x src b).mem = s.mem := rfl
@[simp] theorem setDiscard_pos (s : State) (t x src : Nat) (b : Bool) : (s.setDiscard t x src b).pos = s.pos := rfl
@[simp] theorem setDiscard_audio (s : State) (t x src : Nat) (b : Bool) : (s.setDiscard t x src b).audio = s.audio := rfl
@[simp] theorem setDiscard_pwr (s : State) (t x src : Nat) (b : Bool) : (s.setDiscard t x src b).pwr = s.pwr := rfl
@[simp] theorem setDiscard_evt (s : State) (t x src : Nat) (b : Bool) : (s.setDiscard t x src b).evt = s.evt := rfl
@[simp] theorem setDiscard_boot (s : State) (t x src : Nat) (b : Bool) : (s.setDiscard t x src b).boot = s.boot := rfl
@[simp] theorem setDiscard_pending (s : State) (t x src : Nat) (b : Bool) : (s.setDiscard t x src b).pending = s.pending := rfl
@[simp] theorem setDiscard_seam_flight (s : State) (t x src : Nat) (b : Bool) : (s.setDiscard t x src b).seam.flight = s.seam.flight := rfl
@[simp] theorem setDiscard_seam_fails (s : State) (t x src : Nat) (b : Bool) : (s.setDiscard t x src b).seam.fails = s.seam.fails := rfl
@[simp] theorem setDiscard_seam_retraining (s : State) (t x src : Nat) (b : Bool) : (s.setDiscard t x src b).seam.retraining = s.seam.retraining := rfl
@[simp] theorem setDiscard_seam_rerouteDue (s : State) (t x src : Nat) (b : Bool) : (s.setDiscard t x src b).seam.rerouteDue = s.seam.rerouteDue := rfl

/-! ### setDma -/

@[simp] theorem setDma_member (s : State) (t : Nat) (d : DmaSt) : (s.setDma t d).member = s.member := rfl
@[simp] theorem setDma_grade (s : State) (t : Nat) (d : DmaSt) : (s.setDma t d).grade = s.grade := rfl
@[simp] theorem setDma_now (s : State) (t : Nat) (d : DmaSt) : (s.setDma t d).now = s.now := rfl
@[simp] theorem setDma_regs (s : State) (t : Nat) (d : DmaSt) : (s.setDma t d).regs = s.regs := rfl
@[simp] theorem setDma_dram (s : State) (t : Nat) (d : DmaSt) : (s.setDma t d).dram = s.dram := rfl
@[simp] theorem setDma_writes (s : State) (t : Nat) (d : DmaSt) : (s.setDma t d).writes = s.writes := rfl
@[simp] theorem setDma_freeCtr (s : State) (t : Nat) (d : DmaSt) : (s.setDma t d).freeCtr = s.freeCtr := rfl
@[simp] theorem setDma_snaps (s : State) (t : Nat) (d : DmaSt) : (s.setDma t d).snaps = s.snaps := rfl
@[simp] theorem setDma_held (s : State) (t : Nat) (d : DmaSt) : (s.setDma t d).held = s.held := rfl
@[simp] theorem setDma_answers (s : State) (t : Nat) (d : DmaSt) : (s.setDma t d).answers = s.answers := rfl
@[simp] theorem setDma_seam (s : State) (t : Nat) (d : DmaSt) : (s.setDma t d).seam = s.seam := rfl
@[simp] theorem setDma_bench (s : State) (t : Nat) (d : DmaSt) : (s.setDma t d).bench = s.bench := rfl
@[simp] theorem setDma_time (s : State) (t : Nat) (d : DmaSt) : (s.setDma t d).time = s.time := rfl
@[simp] theorem setDma_lanes (s : State) (t : Nat) (d : DmaSt) : (s.setDma t d).lanes = s.lanes := rfl
@[simp] theorem setDma_pins (s : State) (t : Nat) (d : DmaSt) : (s.setDma t d).pins = s.pins := rfl
@[simp] theorem setDma_adit (s : State) (t : Nat) (d : DmaSt) : (s.setDma t d).adit = s.adit := rfl
@[simp] theorem setDma_pix (s : State) (t : Nat) (d : DmaSt) : (s.setDma t d).pix = s.pix := rfl
@[simp] theorem setDma_store (s : State) (t : Nat) (d : DmaSt) : (s.setDma t d).store = s.store := rfl
@[simp] theorem setDma_hevc (s : State) (t : Nat) (d : DmaSt) : (s.setDma t d).hevc = s.hevc := rfl
@[simp] theorem setDma_lpl (s : State) (t : Nat) (d : DmaSt) : (s.setDma t d).lpl = s.lpl := rfl
@[simp] theorem setDma_mags (s : State) (t : Nat) (d : DmaSt) : (s.setDma t d).mags = s.mags := rfl
@[simp] theorem setDma_host (s : State) (t : Nat) (d : DmaSt) : (s.setDma t d).host = s.host := rfl
@[simp] theorem setDma_mem (s : State) (t : Nat) (d : DmaSt) : (s.setDma t d).mem = s.mem := rfl
@[simp] theorem setDma_pos (s : State) (t : Nat) (d : DmaSt) : (s.setDma t d).pos = s.pos := rfl
@[simp] theorem setDma_audio (s : State) (t : Nat) (d : DmaSt) : (s.setDma t d).audio = s.audio := rfl
@[simp] theorem setDma_pwr (s : State) (t : Nat) (d : DmaSt) : (s.setDma t d).pwr = s.pwr := rfl
@[simp] theorem setDma_evt (s : State) (t : Nat) (d : DmaSt) : (s.setDma t d).evt = s.evt := rfl
@[simp] theorem setDma_boot (s : State) (t : Nat) (d : DmaSt) : (s.setDma t d).boot = s.boot := rfl
@[simp] theorem setDma_pending (s : State) (t : Nat) (d : DmaSt) : (s.setDma t d).pending = s.pending := rfl
@[simp] theorem setDma_core_crews (s : State) (t : Nat) (d : DmaSt) : (s.setDma t d).core.crews = s.core.crews := rfl
@[simp] theorem setDma_core_tcm (s : State) (t : Nat) (d : DmaSt) : (s.setDma t d).core.tcm = s.core.tcm := rfl
@[simp] theorem setDma_core_tcmPoison (s : State) (t : Nat) (d : DmaSt) : (s.setDma t d).core.tcmPoison = s.core.tcmPoison := rfl
@[simp] theorem setDma_core_tcmParity (s : State) (t : Nat) (d : DmaSt) : (s.setDma t d).core.tcmParity = s.core.tcmParity := rfl
@[simp] theorem setDma_core_sysbound (s : State) (t : Nat) (d : DmaSt) : (s.setDma t d).core.sysbound = s.core.sysbound := rfl
@[simp] theorem setDma_core_tileReset (s : State) (t : Nat) (d : DmaSt) : (s.setDma t d).core.tileReset = s.core.tileReset := rfl
@[simp] theorem setDma_core_sends (s : State) (t : Nat) (d : DmaSt) : (s.setDma t d).core.sends = s.core.sends := rfl
@[simp] theorem setDma_core_ctlBusy (s : State) (t : Nat) (d : DmaSt) : (s.setDma t d).core.ctlBusy = s.core.ctlBusy := rfl

/-! ### setEcc -/

@[simp] theorem setEcc_member (s : State) (t a err : Nat) (map : Bool) : (s.setEcc t a err map).member = s.member := rfl
@[simp] theorem setEcc_grade (s : State) (t a err : Nat) (map : Bool) : (s.setEcc t a err map).grade = s.grade := rfl
@[simp] theorem setEcc_now (s : State) (t a err : Nat) (map : Bool) : (s.setEcc t a err map).now = s.now := rfl
@[simp] theorem setEcc_regs (s : State) (t a err : Nat) (map : Bool) : (s.setEcc t a err map).regs = s.regs := rfl
@[simp] theorem setEcc_dram (s : State) (t a err : Nat) (map : Bool) : (s.setEcc t a err map).dram = s.dram := rfl
@[simp] theorem setEcc_writes (s : State) (t a err : Nat) (map : Bool) : (s.setEcc t a err map).writes = s.writes := rfl
@[simp] theorem setEcc_freeCtr (s : State) (t a err : Nat) (map : Bool) : (s.setEcc t a err map).freeCtr = s.freeCtr := rfl
@[simp] theorem setEcc_snaps (s : State) (t a err : Nat) (map : Bool) : (s.setEcc t a err map).snaps = s.snaps := rfl
@[simp] theorem setEcc_held (s : State) (t a err : Nat) (map : Bool) : (s.setEcc t a err map).held = s.held := rfl
@[simp] theorem setEcc_answers (s : State) (t a err : Nat) (map : Bool) : (s.setEcc t a err map).answers = s.answers := rfl
@[simp] theorem setEcc_seam (s : State) (t a err : Nat) (map : Bool) : (s.setEcc t a err map).seam = s.seam := rfl
@[simp] theorem setEcc_bench (s : State) (t a err : Nat) (map : Bool) : (s.setEcc t a err map).bench = s.bench := rfl
@[simp] theorem setEcc_core (s : State) (t a err : Nat) (map : Bool) : (s.setEcc t a err map).core = s.core := rfl
@[simp] theorem setEcc_time (s : State) (t a err : Nat) (map : Bool) : (s.setEcc t a err map).time = s.time := rfl
@[simp] theorem setEcc_lanes (s : State) (t a err : Nat) (map : Bool) : (s.setEcc t a err map).lanes = s.lanes := rfl
@[simp] theorem setEcc_pins (s : State) (t a err : Nat) (map : Bool) : (s.setEcc t a err map).pins = s.pins := rfl
@[simp] theorem setEcc_adit (s : State) (t a err : Nat) (map : Bool) : (s.setEcc t a err map).adit = s.adit := rfl
@[simp] theorem setEcc_pix (s : State) (t a err : Nat) (map : Bool) : (s.setEcc t a err map).pix = s.pix := rfl
@[simp] theorem setEcc_store (s : State) (t a err : Nat) (map : Bool) : (s.setEcc t a err map).store = s.store := rfl
@[simp] theorem setEcc_hevc (s : State) (t a err : Nat) (map : Bool) : (s.setEcc t a err map).hevc = s.hevc := rfl
@[simp] theorem setEcc_lpl (s : State) (t a err : Nat) (map : Bool) : (s.setEcc t a err map).lpl = s.lpl := rfl
@[simp] theorem setEcc_mags (s : State) (t a err : Nat) (map : Bool) : (s.setEcc t a err map).mags = s.mags := rfl
@[simp] theorem setEcc_host (s : State) (t a err : Nat) (map : Bool) : (s.setEcc t a err map).host = s.host := rfl
@[simp] theorem setEcc_pos (s : State) (t a err : Nat) (map : Bool) : (s.setEcc t a err map).pos = s.pos := rfl
@[simp] theorem setEcc_audio (s : State) (t a err : Nat) (map : Bool) : (s.setEcc t a err map).audio = s.audio := rfl
@[simp] theorem setEcc_pwr (s : State) (t a err : Nat) (map : Bool) : (s.setEcc t a err map).pwr = s.pwr := rfl
@[simp] theorem setEcc_evt (s : State) (t a err : Nat) (map : Bool) : (s.setEcc t a err map).evt = s.evt := rfl
@[simp] theorem setEcc_boot (s : State) (t a err : Nat) (map : Bool) : (s.setEcc t a err map).boot = s.boot := rfl
@[simp] theorem setEcc_pending (s : State) (t a err : Nat) (map : Bool) : (s.setEcc t a err map).pending = s.pending := rfl
@[simp] theorem setEcc_mem_chans (s : State) (t a err : Nat) (map : Bool) : (s.setEcc t a err map).mem.chans = s.mem.chans := rfl
@[simp] theorem setEcc_mem_injected (s : State) (t a err : Nat) (map : Bool) : (s.setEcc t a err map).mem.injected = s.mem.injected := rfl
@[simp] theorem setEcc_mem_corr (s : State) (t a err : Nat) (map : Bool) : (s.setEcc t a err map).mem.corr = s.mem.corr := rfl
@[simp] theorem setEcc_mem_corrSeq (s : State) (t a err : Nat) (map : Bool) : (s.setEcc t a err map).mem.corrSeq = s.mem.corrSeq := rfl
@[simp] theorem setEcc_mem_corrLost (s : State) (t a err : Nat) (map : Bool) : (s.setEcc t a err map).mem.corrLost = s.mem.corrLost := rfl
@[simp] theorem setEcc_mem_deficit (s : State) (t a err : Nat) (map : Bool) : (s.setEcc t a err map).mem.deficit = s.mem.deficit := rfl
@[simp] theorem setEcc_mem_overrun (s : State) (t a err : Nat) (map : Bool) : (s.setEcc t a err map).mem.overrun = s.mem.overrun := rfl
@[simp] theorem setEcc_mem_sramFlip (s : State) (t a err : Nat) (map : Bool) : (s.setEcc t a err map).mem.sramFlip = s.mem.sramFlip := rfl
@[simp] theorem setEcc_mem_ceTotal (s : State) (t a err : Nat) (map : Bool) : (s.setEcc t a err map).mem.ceTotal = s.mem.ceTotal := rfl
@[simp] theorem setEcc_mem_ueTotal (s : State) (t a err : Nat) (map : Bool) : (s.setEcc t a err map).mem.ueTotal = s.mem.ueTotal := rfl
@[simp] theorem setEcc_mem_passTotal (s : State) (t a err : Nat) (map : Bool) : (s.setEcc t a err map).mem.passTotal = s.mem.passTotal := rfl
@[simp] theorem setEcc_mem_hot (s : State) (t a err : Nat) (map : Bool) : (s.setEcc t a err map).mem.hot = s.mem.hot := rfl
@[simp] theorem setEcc_mem_mrBusy (s : State) (t a err : Nat) (map : Bool) : (s.setEcc t a err map).mem.mrBusy = s.mem.mrBusy := rfl
@[simp] theorem setEcc_mem_trBusy (s : State) (t a err : Nat) (map : Bool) : (s.setEcc t a err map).mem.trBusy = s.mem.trBusy := rfl

/-! ### setEnc -/

@[simp] theorem setEnc_member (s : State) (h c : Nat) (x : EncCtx) : (s.setEnc h c x).member = s.member := rfl
@[simp] theorem setEnc_grade (s : State) (h c : Nat) (x : EncCtx) : (s.setEnc h c x).grade = s.grade := rfl
@[simp] theorem setEnc_now (s : State) (h c : Nat) (x : EncCtx) : (s.setEnc h c x).now = s.now := rfl
@[simp] theorem setEnc_regs (s : State) (h c : Nat) (x : EncCtx) : (s.setEnc h c x).regs = s.regs := rfl
@[simp] theorem setEnc_dram (s : State) (h c : Nat) (x : EncCtx) : (s.setEnc h c x).dram = s.dram := rfl
@[simp] theorem setEnc_writes (s : State) (h c : Nat) (x : EncCtx) : (s.setEnc h c x).writes = s.writes := rfl
@[simp] theorem setEnc_freeCtr (s : State) (h c : Nat) (x : EncCtx) : (s.setEnc h c x).freeCtr = s.freeCtr := rfl
@[simp] theorem setEnc_snaps (s : State) (h c : Nat) (x : EncCtx) : (s.setEnc h c x).snaps = s.snaps := rfl
@[simp] theorem setEnc_held (s : State) (h c : Nat) (x : EncCtx) : (s.setEnc h c x).held = s.held := rfl
@[simp] theorem setEnc_answers (s : State) (h c : Nat) (x : EncCtx) : (s.setEnc h c x).answers = s.answers := rfl
@[simp] theorem setEnc_seam (s : State) (h c : Nat) (x : EncCtx) : (s.setEnc h c x).seam = s.seam := rfl
@[simp] theorem setEnc_bench (s : State) (h c : Nat) (x : EncCtx) : (s.setEnc h c x).bench = s.bench := rfl
@[simp] theorem setEnc_core (s : State) (h c : Nat) (x : EncCtx) : (s.setEnc h c x).core = s.core := rfl
@[simp] theorem setEnc_time (s : State) (h c : Nat) (x : EncCtx) : (s.setEnc h c x).time = s.time := rfl
@[simp] theorem setEnc_lanes (s : State) (h c : Nat) (x : EncCtx) : (s.setEnc h c x).lanes = s.lanes := rfl
@[simp] theorem setEnc_pins (s : State) (h c : Nat) (x : EncCtx) : (s.setEnc h c x).pins = s.pins := rfl
@[simp] theorem setEnc_adit (s : State) (h c : Nat) (x : EncCtx) : (s.setEnc h c x).adit = s.adit := rfl
@[simp] theorem setEnc_pix (s : State) (h c : Nat) (x : EncCtx) : (s.setEnc h c x).pix = s.pix := rfl
@[simp] theorem setEnc_store (s : State) (h c : Nat) (x : EncCtx) : (s.setEnc h c x).store = s.store := rfl
@[simp] theorem setEnc_lpl (s : State) (h c : Nat) (x : EncCtx) : (s.setEnc h c x).lpl = s.lpl := rfl
@[simp] theorem setEnc_mags (s : State) (h c : Nat) (x : EncCtx) : (s.setEnc h c x).mags = s.mags := rfl
@[simp] theorem setEnc_host (s : State) (h c : Nat) (x : EncCtx) : (s.setEnc h c x).host = s.host := rfl
@[simp] theorem setEnc_mem (s : State) (h c : Nat) (x : EncCtx) : (s.setEnc h c x).mem = s.mem := rfl
@[simp] theorem setEnc_pos (s : State) (h c : Nat) (x : EncCtx) : (s.setEnc h c x).pos = s.pos := rfl
@[simp] theorem setEnc_audio (s : State) (h c : Nat) (x : EncCtx) : (s.setEnc h c x).audio = s.audio := rfl
@[simp] theorem setEnc_pwr (s : State) (h c : Nat) (x : EncCtx) : (s.setEnc h c x).pwr = s.pwr := rfl
@[simp] theorem setEnc_evt (s : State) (h c : Nat) (x : EncCtx) : (s.setEnc h c x).evt = s.evt := rfl
@[simp] theorem setEnc_boot (s : State) (h c : Nat) (x : EncCtx) : (s.setEnc h c x).boot = s.boot := rfl
@[simp] theorem setEnc_pending (s : State) (h c : Nat) (x : EncCtx) : (s.setEnc h c x).pending = s.pending := rfl
@[simp] theorem setEnc_hevc_encIn (s : State) (h c : Nat) (x : EncCtx) : (s.setEnc h c x).hevc.encIn = s.hevc.encIn := rfl
@[simp] theorem setEnc_hevc_dec (s : State) (h c : Nat) (x : EncCtx) : (s.setEnc h c x).hevc.dec = s.hevc.dec := rfl

/-! ### setExtent -/

@[simp] theorem setExtent_member (s : State) (e : Extent) : (s.setExtent e).member = s.member := rfl
@[simp] theorem setExtent_grade (s : State) (e : Extent) : (s.setExtent e).grade = s.grade := rfl
@[simp] theorem setExtent_now (s : State) (e : Extent) : (s.setExtent e).now = s.now := rfl
@[simp] theorem setExtent_regs (s : State) (e : Extent) : (s.setExtent e).regs = s.regs := rfl
@[simp] theorem setExtent_dram (s : State) (e : Extent) : (s.setExtent e).dram = s.dram := rfl
@[simp] theorem setExtent_writes (s : State) (e : Extent) : (s.setExtent e).writes = s.writes := rfl
@[simp] theorem setExtent_freeCtr (s : State) (e : Extent) : (s.setExtent e).freeCtr = s.freeCtr := rfl
@[simp] theorem setExtent_snaps (s : State) (e : Extent) : (s.setExtent e).snaps = s.snaps := rfl
@[simp] theorem setExtent_held (s : State) (e : Extent) : (s.setExtent e).held = s.held := rfl
@[simp] theorem setExtent_answers (s : State) (e : Extent) : (s.setExtent e).answers = s.answers := rfl
@[simp] theorem setExtent_seam (s : State) (e : Extent) : (s.setExtent e).seam = s.seam := rfl
@[simp] theorem setExtent_bench (s : State) (e : Extent) : (s.setExtent e).bench = s.bench := rfl
@[simp] theorem setExtent_core (s : State) (e : Extent) : (s.setExtent e).core = s.core := rfl
@[simp] theorem setExtent_time (s : State) (e : Extent) : (s.setExtent e).time = s.time := rfl
@[simp] theorem setExtent_lanes (s : State) (e : Extent) : (s.setExtent e).lanes = s.lanes := rfl
@[simp] theorem setExtent_pins (s : State) (e : Extent) : (s.setExtent e).pins = s.pins := rfl
@[simp] theorem setExtent_adit (s : State) (e : Extent) : (s.setExtent e).adit = s.adit := rfl
@[simp] theorem setExtent_pix (s : State) (e : Extent) : (s.setExtent e).pix = s.pix := rfl
@[simp] theorem setExtent_hevc (s : State) (e : Extent) : (s.setExtent e).hevc = s.hevc := rfl
@[simp] theorem setExtent_lpl (s : State) (e : Extent) : (s.setExtent e).lpl = s.lpl := rfl
@[simp] theorem setExtent_mags (s : State) (e : Extent) : (s.setExtent e).mags = s.mags := rfl
@[simp] theorem setExtent_host (s : State) (e : Extent) : (s.setExtent e).host = s.host := rfl
@[simp] theorem setExtent_mem (s : State) (e : Extent) : (s.setExtent e).mem = s.mem := rfl
@[simp] theorem setExtent_pos (s : State) (e : Extent) : (s.setExtent e).pos = s.pos := rfl
@[simp] theorem setExtent_audio (s : State) (e : Extent) : (s.setExtent e).audio = s.audio := rfl
@[simp] theorem setExtent_pwr (s : State) (e : Extent) : (s.setExtent e).pwr = s.pwr := rfl
@[simp] theorem setExtent_evt (s : State) (e : Extent) : (s.setExtent e).evt = s.evt := rfl
@[simp] theorem setExtent_boot (s : State) (e : Extent) : (s.setExtent e).boot = s.boot := rfl
@[simp] theorem setExtent_pending (s : State) (e : Extent) : (s.setExtent e).pending = s.pending := rfl
@[simp] theorem setExtent_store_streams (s : State) (e : Extent) : (s.setExtent e).store.streams = s.store.streams := rfl
@[simp] theorem setExtent_store_jobs (s : State) (e : Extent) : (s.setExtent e).store.jobs = s.store.jobs := rfl
@[simp] theorem setExtent_store_units (s : State) (e : Extent) : (s.setExtent e).store.units = s.store.units := rfl
@[simp] theorem setExtent_store_before (s : State) (e : Extent) : (s.setExtent e).store.before = s.store.before := rfl
@[simp] theorem setExtent_store_rings (s : State) (e : Extent) : (s.setExtent e).store.rings = s.store.rings := rfl
@[simp] theorem setExtent_store_takes (s : State) (e : Extent) : (s.setExtent e).store.takes = s.store.takes := rfl
@[simp] theorem setExtent_store_burst (s : State) (e : Extent) : (s.setExtent e).store.burst = s.store.burst := rfl

/-! ### setGeyTgt -/

@[simp] theorem setGeyTgt_member (s : State) (t g : Nat) (x : GeyTgt) : (s.setGeyTgt t g x).member = s.member := rfl
@[simp] theorem setGeyTgt_grade (s : State) (t g : Nat) (x : GeyTgt) : (s.setGeyTgt t g x).grade = s.grade := rfl
@[simp] theorem setGeyTgt_now (s : State) (t g : Nat) (x : GeyTgt) : (s.setGeyTgt t g x).now = s.now := rfl
@[simp] theorem setGeyTgt_regs (s : State) (t g : Nat) (x : GeyTgt) : (s.setGeyTgt t g x).regs = s.regs := rfl
@[simp] theorem setGeyTgt_dram (s : State) (t g : Nat) (x : GeyTgt) : (s.setGeyTgt t g x).dram = s.dram := rfl
@[simp] theorem setGeyTgt_writes (s : State) (t g : Nat) (x : GeyTgt) : (s.setGeyTgt t g x).writes = s.writes := rfl
@[simp] theorem setGeyTgt_freeCtr (s : State) (t g : Nat) (x : GeyTgt) : (s.setGeyTgt t g x).freeCtr = s.freeCtr := rfl
@[simp] theorem setGeyTgt_snaps (s : State) (t g : Nat) (x : GeyTgt) : (s.setGeyTgt t g x).snaps = s.snaps := rfl
@[simp] theorem setGeyTgt_held (s : State) (t g : Nat) (x : GeyTgt) : (s.setGeyTgt t g x).held = s.held := rfl
@[simp] theorem setGeyTgt_answers (s : State) (t g : Nat) (x : GeyTgt) : (s.setGeyTgt t g x).answers = s.answers := rfl
@[simp] theorem setGeyTgt_seam (s : State) (t g : Nat) (x : GeyTgt) : (s.setGeyTgt t g x).seam = s.seam := rfl
@[simp] theorem setGeyTgt_bench (s : State) (t g : Nat) (x : GeyTgt) : (s.setGeyTgt t g x).bench = s.bench := rfl
@[simp] theorem setGeyTgt_core (s : State) (t g : Nat) (x : GeyTgt) : (s.setGeyTgt t g x).core = s.core := rfl
@[simp] theorem setGeyTgt_lanes (s : State) (t g : Nat) (x : GeyTgt) : (s.setGeyTgt t g x).lanes = s.lanes := rfl
@[simp] theorem setGeyTgt_pins (s : State) (t g : Nat) (x : GeyTgt) : (s.setGeyTgt t g x).pins = s.pins := rfl
@[simp] theorem setGeyTgt_adit (s : State) (t g : Nat) (x : GeyTgt) : (s.setGeyTgt t g x).adit = s.adit := rfl
@[simp] theorem setGeyTgt_pix (s : State) (t g : Nat) (x : GeyTgt) : (s.setGeyTgt t g x).pix = s.pix := rfl
@[simp] theorem setGeyTgt_store (s : State) (t g : Nat) (x : GeyTgt) : (s.setGeyTgt t g x).store = s.store := rfl
@[simp] theorem setGeyTgt_hevc (s : State) (t g : Nat) (x : GeyTgt) : (s.setGeyTgt t g x).hevc = s.hevc := rfl
@[simp] theorem setGeyTgt_lpl (s : State) (t g : Nat) (x : GeyTgt) : (s.setGeyTgt t g x).lpl = s.lpl := rfl
@[simp] theorem setGeyTgt_mags (s : State) (t g : Nat) (x : GeyTgt) : (s.setGeyTgt t g x).mags = s.mags := rfl
@[simp] theorem setGeyTgt_host (s : State) (t g : Nat) (x : GeyTgt) : (s.setGeyTgt t g x).host = s.host := rfl
@[simp] theorem setGeyTgt_mem (s : State) (t g : Nat) (x : GeyTgt) : (s.setGeyTgt t g x).mem = s.mem := rfl
@[simp] theorem setGeyTgt_pos (s : State) (t g : Nat) (x : GeyTgt) : (s.setGeyTgt t g x).pos = s.pos := rfl
@[simp] theorem setGeyTgt_audio (s : State) (t g : Nat) (x : GeyTgt) : (s.setGeyTgt t g x).audio = s.audio := rfl
@[simp] theorem setGeyTgt_pwr (s : State) (t g : Nat) (x : GeyTgt) : (s.setGeyTgt t g x).pwr = s.pwr := rfl
@[simp] theorem setGeyTgt_evt (s : State) (t g : Nat) (x : GeyTgt) : (s.setGeyTgt t g x).evt = s.evt := rfl
@[simp] theorem setGeyTgt_boot (s : State) (t g : Nat) (x : GeyTgt) : (s.setGeyTgt t g x).boot = s.boot := rfl
@[simp] theorem setGeyTgt_pending (s : State) (t g : Nat) (x : GeyTgt) : (s.setGeyTgt t g x).pending = s.pending := rfl
@[simp] theorem setGeyTgt_time_chans (s : State) (t g : Nat) (x : GeyTgt) : (s.setGeyTgt t g x).time.chans = s.time.chans := rfl
@[simp] theorem setGeyTgt_time_steer (s : State) (t g : Nat) (x : GeyTgt) : (s.setGeyTgt t g x).time.steer = s.time.steer := rfl
@[simp] theorem setGeyTgt_time_caps (s : State) (t g : Nat) (x : GeyTgt) : (s.setGeyTgt t g x).time.caps = s.time.caps := rfl
@[simp] theorem setGeyTgt_time_lcTicks (s : State) (t g : Nat) (x : GeyTgt) : (s.setGeyTgt t g x).time.lcTicks = s.time.lcTicks := rfl
@[simp] theorem setGeyTgt_time_lcFrac (s : State) (t g : Nat) (x : GeyTgt) : (s.setGeyTgt t g x).time.lcFrac = s.time.lcFrac := rfl
@[simp] theorem setGeyTgt_time_lcOfs (s : State) (t g : Nat) (x : GeyTgt) : (s.setGeyTgt t g x).time.lcOfs = s.time.lcOfs := rfl
@[simp] theorem setGeyTgt_time_lcRate (s : State) (t g : Nat) (x : GeyTgt) : (s.setGeyTgt t g x).time.lcRate = s.time.lcRate := rfl
@[simp] theorem setGeyTgt_time_xtrig (s : State) (t g : Nat) (x : GeyTgt) : (s.setGeyTgt t g x).time.xtrig = s.time.xtrig := rfl
@[simp] theorem setGeyTgt_time_clockLost (s : State) (t g : Nat) (x : GeyTgt) : (s.setGeyTgt t g x).time.clockLost = s.time.clockLost := rfl
@[simp] theorem setGeyTgt_time_lostAt (s : State) (t g : Nat) (x : GeyTgt) : (s.setGeyTgt t g x).time.lostAt = s.time.lostAt := rfl
@[simp] theorem setGeyTgt_time_goodFrom (s : State) (t g : Nat) (x : GeyTgt) : (s.setGeyTgt t g x).time.goodFrom = s.time.goodFrom := rfl
@[simp] theorem setGeyTgt_time_holdRaised (s : State) (t g : Nat) (x : GeyTgt) : (s.setGeyTgt t g x).time.holdRaised = s.time.holdRaised := rfl
@[simp] theorem setGeyTgt_time_stamped (s : State) (t g : Nat) (x : GeyTgt) : (s.setGeyTgt t g x).time.stamped = s.time.stamped := rfl
@[simp] theorem setGeyTgt_time_aon (s : State) (t g : Nat) (x : GeyTgt) : (s.setGeyTgt t g x).time.aon = s.time.aon := rfl
@[simp] theorem setGeyTgt_time_calAcc (s : State) (t g : Nat) (x : GeyTgt) : (s.setGeyTgt t g x).time.calAcc = s.time.calAcc := rfl
@[simp] theorem setGeyTgt_time_rttBusy (s : State) (t g : Nat) (x : GeyTgt) : (s.setGeyTgt t g x).time.rttBusy = s.time.rttBusy := rfl
@[simp] theorem setGeyTgt_time_periods (s : State) (t g : Nat) (x : GeyTgt) : (s.setGeyTgt t g x).time.periods = s.time.periods := rfl
@[simp] theorem setGeyTgt_time_stamps (s : State) (t g : Nat) (x : GeyTgt) : (s.setGeyTgt t g x).time.stamps = s.time.stamps := rfl

/-! ### setI2cQ -/

@[simp] theorem setI2cQ_member (s : State) (t p : Nat) (q : SerialSt) : (s.setI2cQ t p q).member = s.member := rfl
@[simp] theorem setI2cQ_grade (s : State) (t p : Nat) (q : SerialSt) : (s.setI2cQ t p q).grade = s.grade := rfl
@[simp] theorem setI2cQ_now (s : State) (t p : Nat) (q : SerialSt) : (s.setI2cQ t p q).now = s.now := rfl
@[simp] theorem setI2cQ_regs (s : State) (t p : Nat) (q : SerialSt) : (s.setI2cQ t p q).regs = s.regs := rfl
@[simp] theorem setI2cQ_dram (s : State) (t p : Nat) (q : SerialSt) : (s.setI2cQ t p q).dram = s.dram := rfl
@[simp] theorem setI2cQ_writes (s : State) (t p : Nat) (q : SerialSt) : (s.setI2cQ t p q).writes = s.writes := rfl
@[simp] theorem setI2cQ_freeCtr (s : State) (t p : Nat) (q : SerialSt) : (s.setI2cQ t p q).freeCtr = s.freeCtr := rfl
@[simp] theorem setI2cQ_snaps (s : State) (t p : Nat) (q : SerialSt) : (s.setI2cQ t p q).snaps = s.snaps := rfl
@[simp] theorem setI2cQ_held (s : State) (t p : Nat) (q : SerialSt) : (s.setI2cQ t p q).held = s.held := rfl
@[simp] theorem setI2cQ_answers (s : State) (t p : Nat) (q : SerialSt) : (s.setI2cQ t p q).answers = s.answers := rfl
@[simp] theorem setI2cQ_seam (s : State) (t p : Nat) (q : SerialSt) : (s.setI2cQ t p q).seam = s.seam := rfl
@[simp] theorem setI2cQ_bench (s : State) (t p : Nat) (q : SerialSt) : (s.setI2cQ t p q).bench = s.bench := rfl
@[simp] theorem setI2cQ_core (s : State) (t p : Nat) (q : SerialSt) : (s.setI2cQ t p q).core = s.core := rfl
@[simp] theorem setI2cQ_time (s : State) (t p : Nat) (q : SerialSt) : (s.setI2cQ t p q).time = s.time := rfl
@[simp] theorem setI2cQ_lanes (s : State) (t p : Nat) (q : SerialSt) : (s.setI2cQ t p q).lanes = s.lanes := rfl
@[simp] theorem setI2cQ_pins (s : State) (t p : Nat) (q : SerialSt) : (s.setI2cQ t p q).pins = s.pins := rfl
@[simp] theorem setI2cQ_pix (s : State) (t p : Nat) (q : SerialSt) : (s.setI2cQ t p q).pix = s.pix := rfl
@[simp] theorem setI2cQ_store (s : State) (t p : Nat) (q : SerialSt) : (s.setI2cQ t p q).store = s.store := rfl
@[simp] theorem setI2cQ_hevc (s : State) (t p : Nat) (q : SerialSt) : (s.setI2cQ t p q).hevc = s.hevc := rfl
@[simp] theorem setI2cQ_lpl (s : State) (t p : Nat) (q : SerialSt) : (s.setI2cQ t p q).lpl = s.lpl := rfl
@[simp] theorem setI2cQ_mags (s : State) (t p : Nat) (q : SerialSt) : (s.setI2cQ t p q).mags = s.mags := rfl
@[simp] theorem setI2cQ_host (s : State) (t p : Nat) (q : SerialSt) : (s.setI2cQ t p q).host = s.host := rfl
@[simp] theorem setI2cQ_mem (s : State) (t p : Nat) (q : SerialSt) : (s.setI2cQ t p q).mem = s.mem := rfl
@[simp] theorem setI2cQ_pos (s : State) (t p : Nat) (q : SerialSt) : (s.setI2cQ t p q).pos = s.pos := rfl
@[simp] theorem setI2cQ_audio (s : State) (t p : Nat) (q : SerialSt) : (s.setI2cQ t p q).audio = s.audio := rfl
@[simp] theorem setI2cQ_pwr (s : State) (t p : Nat) (q : SerialSt) : (s.setI2cQ t p q).pwr = s.pwr := rfl
@[simp] theorem setI2cQ_evt (s : State) (t p : Nat) (q : SerialSt) : (s.setI2cQ t p q).evt = s.evt := rfl
@[simp] theorem setI2cQ_boot (s : State) (t p : Nat) (q : SerialSt) : (s.setI2cQ t p q).boot = s.boot := rfl
@[simp] theorem setI2cQ_pending (s : State) (t p : Nat) (q : SerialSt) : (s.setI2cQ t p q).pending = s.pending := rfl
@[simp] theorem setI2cQ_adit_ports (s : State) (t p : Nat) (q : SerialSt) : (s.setI2cQ t p q).adit.ports = s.adit.ports := rfl
@[simp] theorem setI2cQ_adit_store (s : State) (t p : Nat) (q : SerialSt) : (s.setI2cQ t p q).adit.store = s.adit.store := rfl
@[simp] theorem setI2cQ_adit_stripes (s : State) (t p : Nat) (q : SerialSt) : (s.setI2cQ t p q).adit.stripes = s.adit.stripes := rfl
@[simp] theorem setI2cQ_adit_pieces (s : State) (t p : Nat) (q : SerialSt) : (s.setI2cQ t p q).adit.pieces = s.adit.pieces := rfl
@[simp] theorem setI2cQ_adit_records (s : State) (t p : Nat) (q : SerialSt) : (s.setI2cQ t p q).adit.records = s.adit.records := rfl
@[simp] theorem setI2cQ_adit_reports (s : State) (t p : Nat) (q : SerialSt) : (s.setI2cQ t p q).adit.reports = s.adit.reports := rfl
@[simp] theorem setI2cQ_adit_leadLines (s : State) (t p : Nat) (q : SerialSt) : (s.setI2cQ t p q).adit.leadLines = s.adit.leadLines := rfl
@[simp] theorem setI2cQ_adit_spi (s : State) (t p : Nat) (q : SerialSt) : (s.setI2cQ t p q).adit.spi = s.adit.spi := rfl

/-! ### setInjected -/

@[simp] theorem setInjected_member (s : State) (t a : Nat) (b : Bool) : (s.setInjected t a b).member = s.member := rfl
@[simp] theorem setInjected_grade (s : State) (t a : Nat) (b : Bool) : (s.setInjected t a b).grade = s.grade := rfl
@[simp] theorem setInjected_now (s : State) (t a : Nat) (b : Bool) : (s.setInjected t a b).now = s.now := rfl
@[simp] theorem setInjected_regs (s : State) (t a : Nat) (b : Bool) : (s.setInjected t a b).regs = s.regs := rfl
@[simp] theorem setInjected_dram (s : State) (t a : Nat) (b : Bool) : (s.setInjected t a b).dram = s.dram := rfl
@[simp] theorem setInjected_writes (s : State) (t a : Nat) (b : Bool) : (s.setInjected t a b).writes = s.writes := rfl
@[simp] theorem setInjected_freeCtr (s : State) (t a : Nat) (b : Bool) : (s.setInjected t a b).freeCtr = s.freeCtr := rfl
@[simp] theorem setInjected_snaps (s : State) (t a : Nat) (b : Bool) : (s.setInjected t a b).snaps = s.snaps := rfl
@[simp] theorem setInjected_held (s : State) (t a : Nat) (b : Bool) : (s.setInjected t a b).held = s.held := rfl
@[simp] theorem setInjected_answers (s : State) (t a : Nat) (b : Bool) : (s.setInjected t a b).answers = s.answers := rfl
@[simp] theorem setInjected_seam (s : State) (t a : Nat) (b : Bool) : (s.setInjected t a b).seam = s.seam := rfl
@[simp] theorem setInjected_bench (s : State) (t a : Nat) (b : Bool) : (s.setInjected t a b).bench = s.bench := rfl
@[simp] theorem setInjected_core (s : State) (t a : Nat) (b : Bool) : (s.setInjected t a b).core = s.core := rfl
@[simp] theorem setInjected_time (s : State) (t a : Nat) (b : Bool) : (s.setInjected t a b).time = s.time := rfl
@[simp] theorem setInjected_lanes (s : State) (t a : Nat) (b : Bool) : (s.setInjected t a b).lanes = s.lanes := rfl
@[simp] theorem setInjected_pins (s : State) (t a : Nat) (b : Bool) : (s.setInjected t a b).pins = s.pins := rfl
@[simp] theorem setInjected_adit (s : State) (t a : Nat) (b : Bool) : (s.setInjected t a b).adit = s.adit := rfl
@[simp] theorem setInjected_pix (s : State) (t a : Nat) (b : Bool) : (s.setInjected t a b).pix = s.pix := rfl
@[simp] theorem setInjected_store (s : State) (t a : Nat) (b : Bool) : (s.setInjected t a b).store = s.store := rfl
@[simp] theorem setInjected_hevc (s : State) (t a : Nat) (b : Bool) : (s.setInjected t a b).hevc = s.hevc := rfl
@[simp] theorem setInjected_lpl (s : State) (t a : Nat) (b : Bool) : (s.setInjected t a b).lpl = s.lpl := rfl
@[simp] theorem setInjected_mags (s : State) (t a : Nat) (b : Bool) : (s.setInjected t a b).mags = s.mags := rfl
@[simp] theorem setInjected_host (s : State) (t a : Nat) (b : Bool) : (s.setInjected t a b).host = s.host := rfl
@[simp] theorem setInjected_pos (s : State) (t a : Nat) (b : Bool) : (s.setInjected t a b).pos = s.pos := rfl
@[simp] theorem setInjected_audio (s : State) (t a : Nat) (b : Bool) : (s.setInjected t a b).audio = s.audio := rfl
@[simp] theorem setInjected_pwr (s : State) (t a : Nat) (b : Bool) : (s.setInjected t a b).pwr = s.pwr := rfl
@[simp] theorem setInjected_evt (s : State) (t a : Nat) (b : Bool) : (s.setInjected t a b).evt = s.evt := rfl
@[simp] theorem setInjected_boot (s : State) (t a : Nat) (b : Bool) : (s.setInjected t a b).boot = s.boot := rfl
@[simp] theorem setInjected_pending (s : State) (t a : Nat) (b : Bool) : (s.setInjected t a b).pending = s.pending := rfl
@[simp] theorem setInjected_mem_chans (s : State) (t a : Nat) (b : Bool) : (s.setInjected t a b).mem.chans = s.mem.chans := rfl
@[simp] theorem setInjected_mem_ecc (s : State) (t a : Nat) (b : Bool) : (s.setInjected t a b).mem.ecc = s.mem.ecc := rfl
@[simp] theorem setInjected_mem_pmap (s : State) (t a : Nat) (b : Bool) : (s.setInjected t a b).mem.pmap = s.mem.pmap := rfl
@[simp] theorem setInjected_mem_corr (s : State) (t a : Nat) (b : Bool) : (s.setInjected t a b).mem.corr = s.mem.corr := rfl
@[simp] theorem setInjected_mem_corrSeq (s : State) (t a : Nat) (b : Bool) : (s.setInjected t a b).mem.corrSeq = s.mem.corrSeq := rfl
@[simp] theorem setInjected_mem_corrLost (s : State) (t a : Nat) (b : Bool) : (s.setInjected t a b).mem.corrLost = s.mem.corrLost := rfl
@[simp] theorem setInjected_mem_deficit (s : State) (t a : Nat) (b : Bool) : (s.setInjected t a b).mem.deficit = s.mem.deficit := rfl
@[simp] theorem setInjected_mem_overrun (s : State) (t a : Nat) (b : Bool) : (s.setInjected t a b).mem.overrun = s.mem.overrun := rfl
@[simp] theorem setInjected_mem_sramFlip (s : State) (t a : Nat) (b : Bool) : (s.setInjected t a b).mem.sramFlip = s.mem.sramFlip := rfl
@[simp] theorem setInjected_mem_ceTotal (s : State) (t a : Nat) (b : Bool) : (s.setInjected t a b).mem.ceTotal = s.mem.ceTotal := rfl
@[simp] theorem setInjected_mem_ueTotal (s : State) (t a : Nat) (b : Bool) : (s.setInjected t a b).mem.ueTotal = s.mem.ueTotal := rfl
@[simp] theorem setInjected_mem_passTotal (s : State) (t a : Nat) (b : Bool) : (s.setInjected t a b).mem.passTotal = s.mem.passTotal := rfl
@[simp] theorem setInjected_mem_hot (s : State) (t a : Nat) (b : Bool) : (s.setInjected t a b).mem.hot = s.mem.hot := rfl
@[simp] theorem setInjected_mem_mrBusy (s : State) (t a : Nat) (b : Bool) : (s.setInjected t a b).mem.mrBusy = s.mem.mrBusy := rfl
@[simp] theorem setInjected_mem_trBusy (s : State) (t a : Nat) (b : Bool) : (s.setInjected t a b).mem.trBusy = s.mem.trBusy := rfl

/-! ### setLane -/

@[simp] theorem setLane_member (s : State) (t l : Nat) (x : LaneSt) : (s.setLane t l x).member = s.member := rfl
@[simp] theorem setLane_grade (s : State) (t l : Nat) (x : LaneSt) : (s.setLane t l x).grade = s.grade := rfl
@[simp] theorem setLane_now (s : State) (t l : Nat) (x : LaneSt) : (s.setLane t l x).now = s.now := rfl
@[simp] theorem setLane_regs (s : State) (t l : Nat) (x : LaneSt) : (s.setLane t l x).regs = s.regs := rfl
@[simp] theorem setLane_dram (s : State) (t l : Nat) (x : LaneSt) : (s.setLane t l x).dram = s.dram := rfl
@[simp] theorem setLane_writes (s : State) (t l : Nat) (x : LaneSt) : (s.setLane t l x).writes = s.writes := rfl
@[simp] theorem setLane_freeCtr (s : State) (t l : Nat) (x : LaneSt) : (s.setLane t l x).freeCtr = s.freeCtr := rfl
@[simp] theorem setLane_snaps (s : State) (t l : Nat) (x : LaneSt) : (s.setLane t l x).snaps = s.snaps := rfl
@[simp] theorem setLane_held (s : State) (t l : Nat) (x : LaneSt) : (s.setLane t l x).held = s.held := rfl
@[simp] theorem setLane_answers (s : State) (t l : Nat) (x : LaneSt) : (s.setLane t l x).answers = s.answers := rfl
@[simp] theorem setLane_seam (s : State) (t l : Nat) (x : LaneSt) : (s.setLane t l x).seam = s.seam := rfl
@[simp] theorem setLane_bench (s : State) (t l : Nat) (x : LaneSt) : (s.setLane t l x).bench = s.bench := rfl
@[simp] theorem setLane_core (s : State) (t l : Nat) (x : LaneSt) : (s.setLane t l x).core = s.core := rfl
@[simp] theorem setLane_time (s : State) (t l : Nat) (x : LaneSt) : (s.setLane t l x).time = s.time := rfl
@[simp] theorem setLane_pins (s : State) (t l : Nat) (x : LaneSt) : (s.setLane t l x).pins = s.pins := rfl
@[simp] theorem setLane_adit (s : State) (t l : Nat) (x : LaneSt) : (s.setLane t l x).adit = s.adit := rfl
@[simp] theorem setLane_pix (s : State) (t l : Nat) (x : LaneSt) : (s.setLane t l x).pix = s.pix := rfl
@[simp] theorem setLane_store (s : State) (t l : Nat) (x : LaneSt) : (s.setLane t l x).store = s.store := rfl
@[simp] theorem setLane_hevc (s : State) (t l : Nat) (x : LaneSt) : (s.setLane t l x).hevc = s.hevc := rfl
@[simp] theorem setLane_lpl (s : State) (t l : Nat) (x : LaneSt) : (s.setLane t l x).lpl = s.lpl := rfl
@[simp] theorem setLane_mags (s : State) (t l : Nat) (x : LaneSt) : (s.setLane t l x).mags = s.mags := rfl
@[simp] theorem setLane_host (s : State) (t l : Nat) (x : LaneSt) : (s.setLane t l x).host = s.host := rfl
@[simp] theorem setLane_mem (s : State) (t l : Nat) (x : LaneSt) : (s.setLane t l x).mem = s.mem := rfl
@[simp] theorem setLane_pos (s : State) (t l : Nat) (x : LaneSt) : (s.setLane t l x).pos = s.pos := rfl
@[simp] theorem setLane_audio (s : State) (t l : Nat) (x : LaneSt) : (s.setLane t l x).audio = s.audio := rfl
@[simp] theorem setLane_pwr (s : State) (t l : Nat) (x : LaneSt) : (s.setLane t l x).pwr = s.pwr := rfl
@[simp] theorem setLane_evt (s : State) (t l : Nat) (x : LaneSt) : (s.setLane t l x).evt = s.evt := rfl
@[simp] theorem setLane_boot (s : State) (t l : Nat) (x : LaneSt) : (s.setLane t l x).boot = s.boot := rfl
@[simp] theorem setLane_pending (s : State) (t l : Nat) (x : LaneSt) : (s.setLane t l x).pending = s.pending := rfl

/-! ### setLink -/

@[simp] theorem setLink_member (s : State) (t l : Nat) (x : Lpl) : (s.setLink t l x).member = s.member := rfl
@[simp] theorem setLink_grade (s : State) (t l : Nat) (x : Lpl) : (s.setLink t l x).grade = s.grade := rfl
@[simp] theorem setLink_now (s : State) (t l : Nat) (x : Lpl) : (s.setLink t l x).now = s.now := rfl
@[simp] theorem setLink_regs (s : State) (t l : Nat) (x : Lpl) : (s.setLink t l x).regs = s.regs := rfl
@[simp] theorem setLink_dram (s : State) (t l : Nat) (x : Lpl) : (s.setLink t l x).dram = s.dram := rfl
@[simp] theorem setLink_writes (s : State) (t l : Nat) (x : Lpl) : (s.setLink t l x).writes = s.writes := rfl
@[simp] theorem setLink_freeCtr (s : State) (t l : Nat) (x : Lpl) : (s.setLink t l x).freeCtr = s.freeCtr := rfl
@[simp] theorem setLink_snaps (s : State) (t l : Nat) (x : Lpl) : (s.setLink t l x).snaps = s.snaps := rfl
@[simp] theorem setLink_held (s : State) (t l : Nat) (x : Lpl) : (s.setLink t l x).held = s.held := rfl
@[simp] theorem setLink_answers (s : State) (t l : Nat) (x : Lpl) : (s.setLink t l x).answers = s.answers := rfl
@[simp] theorem setLink_seam (s : State) (t l : Nat) (x : Lpl) : (s.setLink t l x).seam = s.seam := rfl
@[simp] theorem setLink_bench (s : State) (t l : Nat) (x : Lpl) : (s.setLink t l x).bench = s.bench := rfl
@[simp] theorem setLink_core (s : State) (t l : Nat) (x : Lpl) : (s.setLink t l x).core = s.core := rfl
@[simp] theorem setLink_time (s : State) (t l : Nat) (x : Lpl) : (s.setLink t l x).time = s.time := rfl
@[simp] theorem setLink_lanes (s : State) (t l : Nat) (x : Lpl) : (s.setLink t l x).lanes = s.lanes := rfl
@[simp] theorem setLink_pins (s : State) (t l : Nat) (x : Lpl) : (s.setLink t l x).pins = s.pins := rfl
@[simp] theorem setLink_adit (s : State) (t l : Nat) (x : Lpl) : (s.setLink t l x).adit = s.adit := rfl
@[simp] theorem setLink_pix (s : State) (t l : Nat) (x : Lpl) : (s.setLink t l x).pix = s.pix := rfl
@[simp] theorem setLink_store (s : State) (t l : Nat) (x : Lpl) : (s.setLink t l x).store = s.store := rfl
@[simp] theorem setLink_hevc (s : State) (t l : Nat) (x : Lpl) : (s.setLink t l x).hevc = s.hevc := rfl
@[simp] theorem setLink_mags (s : State) (t l : Nat) (x : Lpl) : (s.setLink t l x).mags = s.mags := rfl
@[simp] theorem setLink_host (s : State) (t l : Nat) (x : Lpl) : (s.setLink t l x).host = s.host := rfl
@[simp] theorem setLink_mem (s : State) (t l : Nat) (x : Lpl) : (s.setLink t l x).mem = s.mem := rfl
@[simp] theorem setLink_pos (s : State) (t l : Nat) (x : Lpl) : (s.setLink t l x).pos = s.pos := rfl
@[simp] theorem setLink_audio (s : State) (t l : Nat) (x : Lpl) : (s.setLink t l x).audio = s.audio := rfl
@[simp] theorem setLink_pwr (s : State) (t l : Nat) (x : Lpl) : (s.setLink t l x).pwr = s.pwr := rfl
@[simp] theorem setLink_evt (s : State) (t l : Nat) (x : Lpl) : (s.setLink t l x).evt = s.evt := rfl
@[simp] theorem setLink_boot (s : State) (t l : Nat) (x : Lpl) : (s.setLink t l x).boot = s.boot := rfl
@[simp] theorem setLink_pending (s : State) (t l : Nat) (x : Lpl) : (s.setLink t l x).pending = s.pending := rfl

/-! ### setMcChan -/

@[simp] theorem setMcChan_member (s : State) (t c : Nat) (x : McChan) : (s.setMcChan t c x).member = s.member := rfl
@[simp] theorem setMcChan_grade (s : State) (t c : Nat) (x : McChan) : (s.setMcChan t c x).grade = s.grade := rfl
@[simp] theorem setMcChan_now (s : State) (t c : Nat) (x : McChan) : (s.setMcChan t c x).now = s.now := rfl
@[simp] theorem setMcChan_regs (s : State) (t c : Nat) (x : McChan) : (s.setMcChan t c x).regs = s.regs := rfl
@[simp] theorem setMcChan_dram (s : State) (t c : Nat) (x : McChan) : (s.setMcChan t c x).dram = s.dram := rfl
@[simp] theorem setMcChan_writes (s : State) (t c : Nat) (x : McChan) : (s.setMcChan t c x).writes = s.writes := rfl
@[simp] theorem setMcChan_freeCtr (s : State) (t c : Nat) (x : McChan) : (s.setMcChan t c x).freeCtr = s.freeCtr := rfl
@[simp] theorem setMcChan_snaps (s : State) (t c : Nat) (x : McChan) : (s.setMcChan t c x).snaps = s.snaps := rfl
@[simp] theorem setMcChan_held (s : State) (t c : Nat) (x : McChan) : (s.setMcChan t c x).held = s.held := rfl
@[simp] theorem setMcChan_answers (s : State) (t c : Nat) (x : McChan) : (s.setMcChan t c x).answers = s.answers := rfl
@[simp] theorem setMcChan_seam (s : State) (t c : Nat) (x : McChan) : (s.setMcChan t c x).seam = s.seam := rfl
@[simp] theorem setMcChan_bench (s : State) (t c : Nat) (x : McChan) : (s.setMcChan t c x).bench = s.bench := rfl
@[simp] theorem setMcChan_core (s : State) (t c : Nat) (x : McChan) : (s.setMcChan t c x).core = s.core := rfl
@[simp] theorem setMcChan_time (s : State) (t c : Nat) (x : McChan) : (s.setMcChan t c x).time = s.time := rfl
@[simp] theorem setMcChan_lanes (s : State) (t c : Nat) (x : McChan) : (s.setMcChan t c x).lanes = s.lanes := rfl
@[simp] theorem setMcChan_pins (s : State) (t c : Nat) (x : McChan) : (s.setMcChan t c x).pins = s.pins := rfl
@[simp] theorem setMcChan_adit (s : State) (t c : Nat) (x : McChan) : (s.setMcChan t c x).adit = s.adit := rfl
@[simp] theorem setMcChan_pix (s : State) (t c : Nat) (x : McChan) : (s.setMcChan t c x).pix = s.pix := rfl
@[simp] theorem setMcChan_store (s : State) (t c : Nat) (x : McChan) : (s.setMcChan t c x).store = s.store := rfl
@[simp] theorem setMcChan_hevc (s : State) (t c : Nat) (x : McChan) : (s.setMcChan t c x).hevc = s.hevc := rfl
@[simp] theorem setMcChan_lpl (s : State) (t c : Nat) (x : McChan) : (s.setMcChan t c x).lpl = s.lpl := rfl
@[simp] theorem setMcChan_mags (s : State) (t c : Nat) (x : McChan) : (s.setMcChan t c x).mags = s.mags := rfl
@[simp] theorem setMcChan_host (s : State) (t c : Nat) (x : McChan) : (s.setMcChan t c x).host = s.host := rfl
@[simp] theorem setMcChan_pos (s : State) (t c : Nat) (x : McChan) : (s.setMcChan t c x).pos = s.pos := rfl
@[simp] theorem setMcChan_audio (s : State) (t c : Nat) (x : McChan) : (s.setMcChan t c x).audio = s.audio := rfl
@[simp] theorem setMcChan_pwr (s : State) (t c : Nat) (x : McChan) : (s.setMcChan t c x).pwr = s.pwr := rfl
@[simp] theorem setMcChan_evt (s : State) (t c : Nat) (x : McChan) : (s.setMcChan t c x).evt = s.evt := rfl
@[simp] theorem setMcChan_boot (s : State) (t c : Nat) (x : McChan) : (s.setMcChan t c x).boot = s.boot := rfl
@[simp] theorem setMcChan_pending (s : State) (t c : Nat) (x : McChan) : (s.setMcChan t c x).pending = s.pending := rfl
@[simp] theorem setMcChan_mem_ecc (s : State) (t c : Nat) (x : McChan) : (s.setMcChan t c x).mem.ecc = s.mem.ecc := rfl
@[simp] theorem setMcChan_mem_pmap (s : State) (t c : Nat) (x : McChan) : (s.setMcChan t c x).mem.pmap = s.mem.pmap := rfl
@[simp] theorem setMcChan_mem_injected (s : State) (t c : Nat) (x : McChan) : (s.setMcChan t c x).mem.injected = s.mem.injected := rfl
@[simp] theorem setMcChan_mem_corr (s : State) (t c : Nat) (x : McChan) : (s.setMcChan t c x).mem.corr = s.mem.corr := rfl
@[simp] theorem setMcChan_mem_corrSeq (s : State) (t c : Nat) (x : McChan) : (s.setMcChan t c x).mem.corrSeq = s.mem.corrSeq := rfl
@[simp] theorem setMcChan_mem_corrLost (s : State) (t c : Nat) (x : McChan) : (s.setMcChan t c x).mem.corrLost = s.mem.corrLost := rfl
@[simp] theorem setMcChan_mem_deficit (s : State) (t c : Nat) (x : McChan) : (s.setMcChan t c x).mem.deficit = s.mem.deficit := rfl
@[simp] theorem setMcChan_mem_overrun (s : State) (t c : Nat) (x : McChan) : (s.setMcChan t c x).mem.overrun = s.mem.overrun := rfl
@[simp] theorem setMcChan_mem_sramFlip (s : State) (t c : Nat) (x : McChan) : (s.setMcChan t c x).mem.sramFlip = s.mem.sramFlip := rfl
@[simp] theorem setMcChan_mem_ceTotal (s : State) (t c : Nat) (x : McChan) : (s.setMcChan t c x).mem.ceTotal = s.mem.ceTotal := rfl
@[simp] theorem setMcChan_mem_ueTotal (s : State) (t c : Nat) (x : McChan) : (s.setMcChan t c x).mem.ueTotal = s.mem.ueTotal := rfl
@[simp] theorem setMcChan_mem_passTotal (s : State) (t c : Nat) (x : McChan) : (s.setMcChan t c x).mem.passTotal = s.mem.passTotal := rfl
@[simp] theorem setMcChan_mem_hot (s : State) (t c : Nat) (x : McChan) : (s.setMcChan t c x).mem.hot = s.mem.hot := rfl
@[simp] theorem setMcChan_mem_mrBusy (s : State) (t c : Nat) (x : McChan) : (s.setMcChan t c x).mem.mrBusy = s.mem.mrBusy := rfl
@[simp] theorem setMcChan_mem_trBusy (s : State) (t c : Nat) (x : McChan) : (s.setMcChan t c x).mem.trBusy = s.mem.trBusy := rfl

/-! ### setOcc -/

@[simp] theorem setOcc_member (s : State) (t id : Nat) (o : Occ) : (s.setOcc t id o).member = s.member := rfl
@[simp] theorem setOcc_grade (s : State) (t id : Nat) (o : Occ) : (s.setOcc t id o).grade = s.grade := rfl
@[simp] theorem setOcc_now (s : State) (t id : Nat) (o : Occ) : (s.setOcc t id o).now = s.now := rfl
@[simp] theorem setOcc_regs (s : State) (t id : Nat) (o : Occ) : (s.setOcc t id o).regs = s.regs := rfl
@[simp] theorem setOcc_dram (s : State) (t id : Nat) (o : Occ) : (s.setOcc t id o).dram = s.dram := rfl
@[simp] theorem setOcc_writes (s : State) (t id : Nat) (o : Occ) : (s.setOcc t id o).writes = s.writes := rfl
@[simp] theorem setOcc_freeCtr (s : State) (t id : Nat) (o : Occ) : (s.setOcc t id o).freeCtr = s.freeCtr := rfl
@[simp] theorem setOcc_snaps (s : State) (t id : Nat) (o : Occ) : (s.setOcc t id o).snaps = s.snaps := rfl
@[simp] theorem setOcc_held (s : State) (t id : Nat) (o : Occ) : (s.setOcc t id o).held = s.held := rfl
@[simp] theorem setOcc_answers (s : State) (t id : Nat) (o : Occ) : (s.setOcc t id o).answers = s.answers := rfl
@[simp] theorem setOcc_seam (s : State) (t id : Nat) (o : Occ) : (s.setOcc t id o).seam = s.seam := rfl
@[simp] theorem setOcc_bench (s : State) (t id : Nat) (o : Occ) : (s.setOcc t id o).bench = s.bench := rfl
@[simp] theorem setOcc_core (s : State) (t id : Nat) (o : Occ) : (s.setOcc t id o).core = s.core := rfl
@[simp] theorem setOcc_time (s : State) (t id : Nat) (o : Occ) : (s.setOcc t id o).time = s.time := rfl
@[simp] theorem setOcc_lanes (s : State) (t id : Nat) (o : Occ) : (s.setOcc t id o).lanes = s.lanes := rfl
@[simp] theorem setOcc_pins (s : State) (t id : Nat) (o : Occ) : (s.setOcc t id o).pins = s.pins := rfl
@[simp] theorem setOcc_adit (s : State) (t id : Nat) (o : Occ) : (s.setOcc t id o).adit = s.adit := rfl
@[simp] theorem setOcc_pix (s : State) (t id : Nat) (o : Occ) : (s.setOcc t id o).pix = s.pix := rfl
@[simp] theorem setOcc_store (s : State) (t id : Nat) (o : Occ) : (s.setOcc t id o).store = s.store := rfl
@[simp] theorem setOcc_hevc (s : State) (t id : Nat) (o : Occ) : (s.setOcc t id o).hevc = s.hevc := rfl
@[simp] theorem setOcc_lpl (s : State) (t id : Nat) (o : Occ) : (s.setOcc t id o).lpl = s.lpl := rfl
@[simp] theorem setOcc_mags (s : State) (t id : Nat) (o : Occ) : (s.setOcc t id o).mags = s.mags := rfl
@[simp] theorem setOcc_host (s : State) (t id : Nat) (o : Occ) : (s.setOcc t id o).host = s.host := rfl
@[simp] theorem setOcc_mem (s : State) (t id : Nat) (o : Occ) : (s.setOcc t id o).mem = s.mem := rfl
@[simp] theorem setOcc_pos (s : State) (t id : Nat) (o : Occ) : (s.setOcc t id o).pos = s.pos := rfl
@[simp] theorem setOcc_audio (s : State) (t id : Nat) (o : Occ) : (s.setOcc t id o).audio = s.audio := rfl
@[simp] theorem setOcc_pwr (s : State) (t id : Nat) (o : Occ) : (s.setOcc t id o).pwr = s.pwr := rfl
@[simp] theorem setOcc_boot (s : State) (t id : Nat) (o : Occ) : (s.setOcc t id o).boot = s.boot := rfl
@[simp] theorem setOcc_pending (s : State) (t id : Nat) (o : Occ) : (s.setOcc t id o).pending = s.pending := rfl
@[simp] theorem setOcc_evt_remote (s : State) (t id : Nat) (o : Occ) : (s.setOcc t id o).evt.remote = s.evt.remote := rfl
@[simp] theorem setOcc_evt_heldOccs (s : State) (t id : Nat) (o : Occ) : (s.setOcc t id o).evt.heldOccs = s.evt.heldOccs := rfl
@[simp] theorem setOcc_evt_faultLog (s : State) (t id : Nat) (o : Occ) : (s.setOcc t id o).evt.faultLog = s.evt.faultLog := rfl
@[simp] theorem setOcc_evt_faultSeq (s : State) (t id : Nat) (o : Occ) : (s.setOcc t id o).evt.faultSeq = s.evt.faultSeq := rfl
@[simp] theorem setOcc_evt_faultLost (s : State) (t id : Nat) (o : Occ) : (s.setOcc t id o).evt.faultLost = s.evt.faultLost := rfl
@[simp] theorem setOcc_evt_latched (s : State) (t id : Nat) (o : Occ) : (s.setOcc t id o).evt.latched = s.evt.latched := rfl
@[simp] theorem setOcc_evt_asyncQ (s : State) (t id : Nat) (o : Occ) : (s.setOcc t id o).evt.asyncQ = s.evt.asyncQ := rfl
@[simp] theorem setOcc_evt_asyncEnable (s : State) (t id : Nat) (o : Occ) : (s.setOcc t id o).evt.asyncEnable = s.evt.asyncEnable := rfl
@[simp] theorem setOcc_evt_isoDue (s : State) (t id : Nat) (o : Occ) : (s.setOcc t id o).evt.isoDue = s.evt.isoDue := rfl
@[simp] theorem setOcc_evt_aborts (s : State) (t id : Nat) (o : Occ) : (s.setOcc t id o).evt.aborts = s.evt.aborts := rfl

/-! ### setOut -/

@[simp] theorem setOut_member (s : State) (t c : Nat) (x : OutCtx) : (s.setOut t c x).member = s.member := rfl
@[simp] theorem setOut_grade (s : State) (t c : Nat) (x : OutCtx) : (s.setOut t c x).grade = s.grade := rfl
@[simp] theorem setOut_now (s : State) (t c : Nat) (x : OutCtx) : (s.setOut t c x).now = s.now := rfl
@[simp] theorem setOut_regs (s : State) (t c : Nat) (x : OutCtx) : (s.setOut t c x).regs = s.regs := rfl
@[simp] theorem setOut_dram (s : State) (t c : Nat) (x : OutCtx) : (s.setOut t c x).dram = s.dram := rfl
@[simp] theorem setOut_writes (s : State) (t c : Nat) (x : OutCtx) : (s.setOut t c x).writes = s.writes := rfl
@[simp] theorem setOut_freeCtr (s : State) (t c : Nat) (x : OutCtx) : (s.setOut t c x).freeCtr = s.freeCtr := rfl
@[simp] theorem setOut_snaps (s : State) (t c : Nat) (x : OutCtx) : (s.setOut t c x).snaps = s.snaps := rfl
@[simp] theorem setOut_held (s : State) (t c : Nat) (x : OutCtx) : (s.setOut t c x).held = s.held := rfl
@[simp] theorem setOut_answers (s : State) (t c : Nat) (x : OutCtx) : (s.setOut t c x).answers = s.answers := rfl
@[simp] theorem setOut_seam (s : State) (t c : Nat) (x : OutCtx) : (s.setOut t c x).seam = s.seam := rfl
@[simp] theorem setOut_bench (s : State) (t c : Nat) (x : OutCtx) : (s.setOut t c x).bench = s.bench := rfl
@[simp] theorem setOut_core (s : State) (t c : Nat) (x : OutCtx) : (s.setOut t c x).core = s.core := rfl
@[simp] theorem setOut_time (s : State) (t c : Nat) (x : OutCtx) : (s.setOut t c x).time = s.time := rfl
@[simp] theorem setOut_lanes (s : State) (t c : Nat) (x : OutCtx) : (s.setOut t c x).lanes = s.lanes := rfl
@[simp] theorem setOut_pins (s : State) (t c : Nat) (x : OutCtx) : (s.setOut t c x).pins = s.pins := rfl
@[simp] theorem setOut_adit (s : State) (t c : Nat) (x : OutCtx) : (s.setOut t c x).adit = s.adit := rfl
@[simp] theorem setOut_store (s : State) (t c : Nat) (x : OutCtx) : (s.setOut t c x).store = s.store := rfl
@[simp] theorem setOut_hevc (s : State) (t c : Nat) (x : OutCtx) : (s.setOut t c x).hevc = s.hevc := rfl
@[simp] theorem setOut_lpl (s : State) (t c : Nat) (x : OutCtx) : (s.setOut t c x).lpl = s.lpl := rfl
@[simp] theorem setOut_mags (s : State) (t c : Nat) (x : OutCtx) : (s.setOut t c x).mags = s.mags := rfl
@[simp] theorem setOut_host (s : State) (t c : Nat) (x : OutCtx) : (s.setOut t c x).host = s.host := rfl
@[simp] theorem setOut_mem (s : State) (t c : Nat) (x : OutCtx) : (s.setOut t c x).mem = s.mem := rfl
@[simp] theorem setOut_pos (s : State) (t c : Nat) (x : OutCtx) : (s.setOut t c x).pos = s.pos := rfl
@[simp] theorem setOut_audio (s : State) (t c : Nat) (x : OutCtx) : (s.setOut t c x).audio = s.audio := rfl
@[simp] theorem setOut_pwr (s : State) (t c : Nat) (x : OutCtx) : (s.setOut t c x).pwr = s.pwr := rfl
@[simp] theorem setOut_evt (s : State) (t c : Nat) (x : OutCtx) : (s.setOut t c x).evt = s.evt := rfl
@[simp] theorem setOut_boot (s : State) (t c : Nat) (x : OutCtx) : (s.setOut t c x).boot = s.boot := rfl
@[simp] theorem setOut_pending (s : State) (t c : Nat) (x : OutCtx) : (s.setOut t c x).pending = s.pending := rfl
@[simp] theorem setOut_pix_rawIn (s : State) (t c : Nat) (x : OutCtx) : (s.setOut t c x).pix.rawIn = s.pix.rawIn := rfl
@[simp] theorem setOut_pix_raw (s : State) (t c : Nat) (x : OutCtx) : (s.setOut t c x).pix.raw = s.pix.raw := rfl
@[simp] theorem setOut_pix_haloOut (s : State) (t c : Nat) (x : OutCtx) : (s.setOut t c x).pix.haloOut = s.pix.haloOut := rfl
@[simp] theorem setOut_pix_haloIn (s : State) (t c : Nat) (x : OutCtx) : (s.setOut t c x).pix.haloIn = s.pix.haloIn := rfl
@[simp] theorem setOut_pix_obOut (s : State) (t c : Nat) (x : OutCtx) : (s.setOut t c x).pix.obOut = s.pix.obOut := rfl
@[simp] theorem setOut_pix_partials (s : State) (t c : Nat) (x : OutCtx) : (s.setOut t c x).pix.partials = s.pix.partials := rfl
@[simp] theorem setOut_pix_combine (s : State) (t c : Nat) (x : OutCtx) : (s.setOut t c x).pix.combine = s.pix.combine := rfl
@[simp] theorem setOut_pix_x2 (s : State) (t c : Nat) (x : OutCtx) : (s.setOut t c x).pix.x2 = s.pix.x2 := rfl
@[simp] theorem setOut_pix_dev (s : State) (t c : Nat) (x : OutCtx) : (s.setOut t c x).pix.dev = s.pix.dev := rfl
@[simp] theorem setOut_pix_x3 (s : State) (t c : Nat) (x : OutCtx) : (s.setOut t c x).pix.x3 = s.pix.x3 := rfl
@[simp] theorem setOut_pix_ranges (s : State) (t c : Nat) (x : OutCtx) : (s.setOut t c x).pix.ranges = s.pix.ranges := rfl
@[simp] theorem setOut_pix_defBad (s : State) (t c : Nat) (x : OutCtx) : (s.setOut t c x).pix.defBad = s.pix.defBad := rfl
@[simp] theorem setOut_pix_alpha (s : State) (t c : Nat) (x : OutCtx) : (s.setOut t c x).pix.alpha = s.pix.alpha := rfl
@[simp] theorem setOut_pix_expo (s : State) (t c : Nat) (x : OutCtx) : (s.setOut t c x).pix.expo = s.pix.expo := rfl
@[simp] theorem setOut_pix_tap (s : State) (t c : Nat) (x : OutCtx) : (s.setOut t c x).pix.tap = s.pix.tap := rfl
@[simp] theorem setOut_pix_sdiFmt (s : State) (t c : Nat) (x : OutCtx) : (s.setOut t c x).pix.sdiFmt = s.pix.sdiFmt := rfl
@[simp] theorem setOut_pix_diffOver (s : State) (t c : Nat) (x : OutCtx) : (s.setOut t c x).pix.diffOver = s.pix.diffOver := rfl
@[simp] theorem setOut_pix_tables (s : State) (t c : Nat) (x : OutCtx) : (s.setOut t c x).pix.tables = s.pix.tables := rfl

/-! ### setPeriod -/

@[simp] theorem setPeriod_member (s : State) (kind i : Nat) : (s.setPeriod kind i).member = s.member := rfl
@[simp] theorem setPeriod_grade (s : State) (kind i : Nat) : (s.setPeriod kind i).grade = s.grade := rfl
@[simp] theorem setPeriod_now (s : State) (kind i : Nat) : (s.setPeriod kind i).now = s.now := rfl
@[simp] theorem setPeriod_regs (s : State) (kind i : Nat) : (s.setPeriod kind i).regs = s.regs := rfl
@[simp] theorem setPeriod_dram (s : State) (kind i : Nat) : (s.setPeriod kind i).dram = s.dram := rfl
@[simp] theorem setPeriod_writes (s : State) (kind i : Nat) : (s.setPeriod kind i).writes = s.writes := rfl
@[simp] theorem setPeriod_freeCtr (s : State) (kind i : Nat) : (s.setPeriod kind i).freeCtr = s.freeCtr := rfl
@[simp] theorem setPeriod_snaps (s : State) (kind i : Nat) : (s.setPeriod kind i).snaps = s.snaps := rfl
@[simp] theorem setPeriod_held (s : State) (kind i : Nat) : (s.setPeriod kind i).held = s.held := rfl
@[simp] theorem setPeriod_answers (s : State) (kind i : Nat) : (s.setPeriod kind i).answers = s.answers := rfl
@[simp] theorem setPeriod_seam (s : State) (kind i : Nat) : (s.setPeriod kind i).seam = s.seam := rfl
@[simp] theorem setPeriod_bench (s : State) (kind i : Nat) : (s.setPeriod kind i).bench = s.bench := rfl
@[simp] theorem setPeriod_core (s : State) (kind i : Nat) : (s.setPeriod kind i).core = s.core := rfl
@[simp] theorem setPeriod_lanes (s : State) (kind i : Nat) : (s.setPeriod kind i).lanes = s.lanes := rfl
@[simp] theorem setPeriod_pins (s : State) (kind i : Nat) : (s.setPeriod kind i).pins = s.pins := rfl
@[simp] theorem setPeriod_adit (s : State) (kind i : Nat) : (s.setPeriod kind i).adit = s.adit := rfl
@[simp] theorem setPeriod_pix (s : State) (kind i : Nat) : (s.setPeriod kind i).pix = s.pix := rfl
@[simp] theorem setPeriod_store (s : State) (kind i : Nat) : (s.setPeriod kind i).store = s.store := rfl
@[simp] theorem setPeriod_hevc (s : State) (kind i : Nat) : (s.setPeriod kind i).hevc = s.hevc := rfl
@[simp] theorem setPeriod_lpl (s : State) (kind i : Nat) : (s.setPeriod kind i).lpl = s.lpl := rfl
@[simp] theorem setPeriod_mags (s : State) (kind i : Nat) : (s.setPeriod kind i).mags = s.mags := rfl
@[simp] theorem setPeriod_host (s : State) (kind i : Nat) : (s.setPeriod kind i).host = s.host := rfl
@[simp] theorem setPeriod_mem (s : State) (kind i : Nat) : (s.setPeriod kind i).mem = s.mem := rfl
@[simp] theorem setPeriod_pos (s : State) (kind i : Nat) : (s.setPeriod kind i).pos = s.pos := rfl
@[simp] theorem setPeriod_audio (s : State) (kind i : Nat) : (s.setPeriod kind i).audio = s.audio := rfl
@[simp] theorem setPeriod_pwr (s : State) (kind i : Nat) : (s.setPeriod kind i).pwr = s.pwr := rfl
@[simp] theorem setPeriod_evt (s : State) (kind i : Nat) : (s.setPeriod kind i).evt = s.evt := rfl
@[simp] theorem setPeriod_boot (s : State) (kind i : Nat) : (s.setPeriod kind i).boot = s.boot := rfl
@[simp] theorem setPeriod_pending (s : State) (kind i : Nat) : (s.setPeriod kind i).pending = s.pending := rfl
@[simp] theorem setPeriod_time_chans (s : State) (kind i : Nat) : (s.setPeriod kind i).time.chans = s.time.chans := rfl
@[simp] theorem setPeriod_time_steer (s : State) (kind i : Nat) : (s.setPeriod kind i).time.steer = s.time.steer := rfl
@[simp] theorem setPeriod_time_caps (s : State) (kind i : Nat) : (s.setPeriod kind i).time.caps = s.time.caps := rfl
@[simp] theorem setPeriod_time_gey (s : State) (kind i : Nat) : (s.setPeriod kind i).time.gey = s.time.gey := rfl
@[simp] theorem setPeriod_time_lcTicks (s : State) (kind i : Nat) : (s.setPeriod kind i).time.lcTicks = s.time.lcTicks := rfl
@[simp] theorem setPeriod_time_lcFrac (s : State) (kind i : Nat) : (s.setPeriod kind i).time.lcFrac = s.time.lcFrac := rfl
@[simp] theorem setPeriod_time_lcOfs (s : State) (kind i : Nat) : (s.setPeriod kind i).time.lcOfs = s.time.lcOfs := rfl
@[simp] theorem setPeriod_time_lcRate (s : State) (kind i : Nat) : (s.setPeriod kind i).time.lcRate = s.time.lcRate := rfl
@[simp] theorem setPeriod_time_xtrig (s : State) (kind i : Nat) : (s.setPeriod kind i).time.xtrig = s.time.xtrig := rfl
@[simp] theorem setPeriod_time_clockLost (s : State) (kind i : Nat) : (s.setPeriod kind i).time.clockLost = s.time.clockLost := rfl
@[simp] theorem setPeriod_time_lostAt (s : State) (kind i : Nat) : (s.setPeriod kind i).time.lostAt = s.time.lostAt := rfl
@[simp] theorem setPeriod_time_goodFrom (s : State) (kind i : Nat) : (s.setPeriod kind i).time.goodFrom = s.time.goodFrom := rfl
@[simp] theorem setPeriod_time_holdRaised (s : State) (kind i : Nat) : (s.setPeriod kind i).time.holdRaised = s.time.holdRaised := rfl
@[simp] theorem setPeriod_time_stamped (s : State) (kind i : Nat) : (s.setPeriod kind i).time.stamped = s.time.stamped := rfl
@[simp] theorem setPeriod_time_aon (s : State) (kind i : Nat) : (s.setPeriod kind i).time.aon = s.time.aon := rfl
@[simp] theorem setPeriod_time_calAcc (s : State) (kind i : Nat) : (s.setPeriod kind i).time.calAcc = s.time.calAcc := rfl
@[simp] theorem setPeriod_time_rttBusy (s : State) (kind i : Nat) : (s.setPeriod kind i).time.rttBusy = s.time.rttBusy := rfl
@[simp] theorem setPeriod_time_stamps (s : State) (kind i : Nat) : (s.setPeriod kind i).time.stamps = s.time.stamps := rfl

/-! ### setPin -/

@[simp] theorem setPin_member (s : State) (t l : Nat) (x : LanePins) : (s.setPin t l x).member = s.member := rfl
@[simp] theorem setPin_grade (s : State) (t l : Nat) (x : LanePins) : (s.setPin t l x).grade = s.grade := rfl
@[simp] theorem setPin_now (s : State) (t l : Nat) (x : LanePins) : (s.setPin t l x).now = s.now := rfl
@[simp] theorem setPin_regs (s : State) (t l : Nat) (x : LanePins) : (s.setPin t l x).regs = s.regs := rfl
@[simp] theorem setPin_dram (s : State) (t l : Nat) (x : LanePins) : (s.setPin t l x).dram = s.dram := rfl
@[simp] theorem setPin_writes (s : State) (t l : Nat) (x : LanePins) : (s.setPin t l x).writes = s.writes := rfl
@[simp] theorem setPin_freeCtr (s : State) (t l : Nat) (x : LanePins) : (s.setPin t l x).freeCtr = s.freeCtr := rfl
@[simp] theorem setPin_snaps (s : State) (t l : Nat) (x : LanePins) : (s.setPin t l x).snaps = s.snaps := rfl
@[simp] theorem setPin_held (s : State) (t l : Nat) (x : LanePins) : (s.setPin t l x).held = s.held := rfl
@[simp] theorem setPin_answers (s : State) (t l : Nat) (x : LanePins) : (s.setPin t l x).answers = s.answers := rfl
@[simp] theorem setPin_seam (s : State) (t l : Nat) (x : LanePins) : (s.setPin t l x).seam = s.seam := rfl
@[simp] theorem setPin_bench (s : State) (t l : Nat) (x : LanePins) : (s.setPin t l x).bench = s.bench := rfl
@[simp] theorem setPin_core (s : State) (t l : Nat) (x : LanePins) : (s.setPin t l x).core = s.core := rfl
@[simp] theorem setPin_time (s : State) (t l : Nat) (x : LanePins) : (s.setPin t l x).time = s.time := rfl
@[simp] theorem setPin_lanes (s : State) (t l : Nat) (x : LanePins) : (s.setPin t l x).lanes = s.lanes := rfl
@[simp] theorem setPin_adit (s : State) (t l : Nat) (x : LanePins) : (s.setPin t l x).adit = s.adit := rfl
@[simp] theorem setPin_pix (s : State) (t l : Nat) (x : LanePins) : (s.setPin t l x).pix = s.pix := rfl
@[simp] theorem setPin_store (s : State) (t l : Nat) (x : LanePins) : (s.setPin t l x).store = s.store := rfl
@[simp] theorem setPin_hevc (s : State) (t l : Nat) (x : LanePins) : (s.setPin t l x).hevc = s.hevc := rfl
@[simp] theorem setPin_lpl (s : State) (t l : Nat) (x : LanePins) : (s.setPin t l x).lpl = s.lpl := rfl
@[simp] theorem setPin_mags (s : State) (t l : Nat) (x : LanePins) : (s.setPin t l x).mags = s.mags := rfl
@[simp] theorem setPin_host (s : State) (t l : Nat) (x : LanePins) : (s.setPin t l x).host = s.host := rfl
@[simp] theorem setPin_mem (s : State) (t l : Nat) (x : LanePins) : (s.setPin t l x).mem = s.mem := rfl
@[simp] theorem setPin_pos (s : State) (t l : Nat) (x : LanePins) : (s.setPin t l x).pos = s.pos := rfl
@[simp] theorem setPin_audio (s : State) (t l : Nat) (x : LanePins) : (s.setPin t l x).audio = s.audio := rfl
@[simp] theorem setPin_pwr (s : State) (t l : Nat) (x : LanePins) : (s.setPin t l x).pwr = s.pwr := rfl
@[simp] theorem setPin_evt (s : State) (t l : Nat) (x : LanePins) : (s.setPin t l x).evt = s.evt := rfl
@[simp] theorem setPin_boot (s : State) (t l : Nat) (x : LanePins) : (s.setPin t l x).boot = s.boot := rfl
@[simp] theorem setPin_pending (s : State) (t l : Nat) (x : LanePins) : (s.setPin t l x).pending = s.pending := rfl
@[simp] theorem setPin_pins_pdm (s : State) (t l : Nat) (x : LanePins) : (s.setPin t l x).pins.pdm = s.pins.pdm := rfl

/-! ### setPort -/

@[simp] theorem setPort_member (s : State) (t p : Nat) (x : AdPort) : (s.setPort t p x).member = s.member := rfl
@[simp] theorem setPort_grade (s : State) (t p : Nat) (x : AdPort) : (s.setPort t p x).grade = s.grade := rfl
@[simp] theorem setPort_now (s : State) (t p : Nat) (x : AdPort) : (s.setPort t p x).now = s.now := rfl
@[simp] theorem setPort_regs (s : State) (t p : Nat) (x : AdPort) : (s.setPort t p x).regs = s.regs := rfl
@[simp] theorem setPort_dram (s : State) (t p : Nat) (x : AdPort) : (s.setPort t p x).dram = s.dram := rfl
@[simp] theorem setPort_writes (s : State) (t p : Nat) (x : AdPort) : (s.setPort t p x).writes = s.writes := rfl
@[simp] theorem setPort_freeCtr (s : State) (t p : Nat) (x : AdPort) : (s.setPort t p x).freeCtr = s.freeCtr := rfl
@[simp] theorem setPort_snaps (s : State) (t p : Nat) (x : AdPort) : (s.setPort t p x).snaps = s.snaps := rfl
@[simp] theorem setPort_held (s : State) (t p : Nat) (x : AdPort) : (s.setPort t p x).held = s.held := rfl
@[simp] theorem setPort_answers (s : State) (t p : Nat) (x : AdPort) : (s.setPort t p x).answers = s.answers := rfl
@[simp] theorem setPort_seam (s : State) (t p : Nat) (x : AdPort) : (s.setPort t p x).seam = s.seam := rfl
@[simp] theorem setPort_bench (s : State) (t p : Nat) (x : AdPort) : (s.setPort t p x).bench = s.bench := rfl
@[simp] theorem setPort_core (s : State) (t p : Nat) (x : AdPort) : (s.setPort t p x).core = s.core := rfl
@[simp] theorem setPort_time (s : State) (t p : Nat) (x : AdPort) : (s.setPort t p x).time = s.time := rfl
@[simp] theorem setPort_lanes (s : State) (t p : Nat) (x : AdPort) : (s.setPort t p x).lanes = s.lanes := rfl
@[simp] theorem setPort_pins (s : State) (t p : Nat) (x : AdPort) : (s.setPort t p x).pins = s.pins := rfl
@[simp] theorem setPort_pix (s : State) (t p : Nat) (x : AdPort) : (s.setPort t p x).pix = s.pix := rfl
@[simp] theorem setPort_store (s : State) (t p : Nat) (x : AdPort) : (s.setPort t p x).store = s.store := rfl
@[simp] theorem setPort_hevc (s : State) (t p : Nat) (x : AdPort) : (s.setPort t p x).hevc = s.hevc := rfl
@[simp] theorem setPort_lpl (s : State) (t p : Nat) (x : AdPort) : (s.setPort t p x).lpl = s.lpl := rfl
@[simp] theorem setPort_mags (s : State) (t p : Nat) (x : AdPort) : (s.setPort t p x).mags = s.mags := rfl
@[simp] theorem setPort_host (s : State) (t p : Nat) (x : AdPort) : (s.setPort t p x).host = s.host := rfl
@[simp] theorem setPort_mem (s : State) (t p : Nat) (x : AdPort) : (s.setPort t p x).mem = s.mem := rfl
@[simp] theorem setPort_pos (s : State) (t p : Nat) (x : AdPort) : (s.setPort t p x).pos = s.pos := rfl
@[simp] theorem setPort_audio (s : State) (t p : Nat) (x : AdPort) : (s.setPort t p x).audio = s.audio := rfl
@[simp] theorem setPort_pwr (s : State) (t p : Nat) (x : AdPort) : (s.setPort t p x).pwr = s.pwr := rfl
@[simp] theorem setPort_evt (s : State) (t p : Nat) (x : AdPort) : (s.setPort t p x).evt = s.evt := rfl
@[simp] theorem setPort_boot (s : State) (t p : Nat) (x : AdPort) : (s.setPort t p x).boot = s.boot := rfl
@[simp] theorem setPort_pending (s : State) (t p : Nat) (x : AdPort) : (s.setPort t p x).pending = s.pending := rfl
@[simp] theorem setPort_adit_store (s : State) (t p : Nat) (x : AdPort) : (s.setPort t p x).adit.store = s.adit.store := rfl
@[simp] theorem setPort_adit_stripes (s : State) (t p : Nat) (x : AdPort) : (s.setPort t p x).adit.stripes = s.adit.stripes := rfl
@[simp] theorem setPort_adit_pieces (s : State) (t p : Nat) (x : AdPort) : (s.setPort t p x).adit.pieces = s.adit.pieces := rfl
@[simp] theorem setPort_adit_records (s : State) (t p : Nat) (x : AdPort) : (s.setPort t p x).adit.records = s.adit.records := rfl
@[simp] theorem setPort_adit_reports (s : State) (t p : Nat) (x : AdPort) : (s.setPort t p x).adit.reports = s.adit.reports := rfl
@[simp] theorem setPort_adit_leadLines (s : State) (t p : Nat) (x : AdPort) : (s.setPort t p x).adit.leadLines = s.adit.leadLines := rfl
@[simp] theorem setPort_adit_spi (s : State) (t p : Nat) (x : AdPort) : (s.setPort t p x).adit.spi = s.adit.spi := rfl
@[simp] theorem setPort_adit_i2c (s : State) (t p : Nat) (x : AdPort) : (s.setPort t p x).adit.i2c = s.adit.i2c := rfl

/-! ### setPosCh -/

@[simp] theorem setPosCh_member (s : State) (c : Nat) (x : PosCh) : (s.setPosCh c x).member = s.member := rfl
@[simp] theorem setPosCh_grade (s : State) (c : Nat) (x : PosCh) : (s.setPosCh c x).grade = s.grade := rfl
@[simp] theorem setPosCh_now (s : State) (c : Nat) (x : PosCh) : (s.setPosCh c x).now = s.now := rfl
@[simp] theorem setPosCh_regs (s : State) (c : Nat) (x : PosCh) : (s.setPosCh c x).regs = s.regs := rfl
@[simp] theorem setPosCh_dram (s : State) (c : Nat) (x : PosCh) : (s.setPosCh c x).dram = s.dram := rfl
@[simp] theorem setPosCh_writes (s : State) (c : Nat) (x : PosCh) : (s.setPosCh c x).writes = s.writes := rfl
@[simp] theorem setPosCh_freeCtr (s : State) (c : Nat) (x : PosCh) : (s.setPosCh c x).freeCtr = s.freeCtr := rfl
@[simp] theorem setPosCh_snaps (s : State) (c : Nat) (x : PosCh) : (s.setPosCh c x).snaps = s.snaps := rfl
@[simp] theorem setPosCh_held (s : State) (c : Nat) (x : PosCh) : (s.setPosCh c x).held = s.held := rfl
@[simp] theorem setPosCh_answers (s : State) (c : Nat) (x : PosCh) : (s.setPosCh c x).answers = s.answers := rfl
@[simp] theorem setPosCh_seam (s : State) (c : Nat) (x : PosCh) : (s.setPosCh c x).seam = s.seam := rfl
@[simp] theorem setPosCh_bench (s : State) (c : Nat) (x : PosCh) : (s.setPosCh c x).bench = s.bench := rfl
@[simp] theorem setPosCh_core (s : State) (c : Nat) (x : PosCh) : (s.setPosCh c x).core = s.core := rfl
@[simp] theorem setPosCh_time (s : State) (c : Nat) (x : PosCh) : (s.setPosCh c x).time = s.time := rfl
@[simp] theorem setPosCh_lanes (s : State) (c : Nat) (x : PosCh) : (s.setPosCh c x).lanes = s.lanes := rfl
@[simp] theorem setPosCh_pins (s : State) (c : Nat) (x : PosCh) : (s.setPosCh c x).pins = s.pins := rfl
@[simp] theorem setPosCh_adit (s : State) (c : Nat) (x : PosCh) : (s.setPosCh c x).adit = s.adit := rfl
@[simp] theorem setPosCh_pix (s : State) (c : Nat) (x : PosCh) : (s.setPosCh c x).pix = s.pix := rfl
@[simp] theorem setPosCh_store (s : State) (c : Nat) (x : PosCh) : (s.setPosCh c x).store = s.store := rfl
@[simp] theorem setPosCh_hevc (s : State) (c : Nat) (x : PosCh) : (s.setPosCh c x).hevc = s.hevc := rfl
@[simp] theorem setPosCh_lpl (s : State) (c : Nat) (x : PosCh) : (s.setPosCh c x).lpl = s.lpl := rfl
@[simp] theorem setPosCh_mags (s : State) (c : Nat) (x : PosCh) : (s.setPosCh c x).mags = s.mags := rfl
@[simp] theorem setPosCh_host (s : State) (c : Nat) (x : PosCh) : (s.setPosCh c x).host = s.host := rfl
@[simp] theorem setPosCh_mem (s : State) (c : Nat) (x : PosCh) : (s.setPosCh c x).mem = s.mem := rfl
@[simp] theorem setPosCh_audio (s : State) (c : Nat) (x : PosCh) : (s.setPosCh c x).audio = s.audio := rfl
@[simp] theorem setPosCh_pwr (s : State) (c : Nat) (x : PosCh) : (s.setPosCh c x).pwr = s.pwr := rfl
@[simp] theorem setPosCh_evt (s : State) (c : Nat) (x : PosCh) : (s.setPosCh c x).evt = s.evt := rfl
@[simp] theorem setPosCh_boot (s : State) (c : Nat) (x : PosCh) : (s.setPosCh c x).boot = s.boot := rfl
@[simp] theorem setPosCh_pending (s : State) (c : Nat) (x : PosCh) : (s.setPosCh c x).pending = s.pending := rfl
@[simp] theorem setPosCh_pos_tgt (s : State) (c : Nat) (x : PosCh) : (s.setPosCh c x).pos.tgt = s.pos.tgt := rfl
@[simp] theorem setPosCh_pos_caps (s : State) (c : Nat) (x : PosCh) : (s.setPosCh c x).pos.caps = s.pos.caps := rfl
@[simp] theorem setPosCh_pos_lens (s : State) (c : Nat) (x : PosCh) : (s.setPosCh c x).pos.lens = s.pos.lens := rfl

/-! ### setRaw -/

@[simp] theorem setRaw_member (s : State) (t k : Nat) (c : RawCtx) : (s.setRaw t k c).member = s.member := rfl
@[simp] theorem setRaw_grade (s : State) (t k : Nat) (c : RawCtx) : (s.setRaw t k c).grade = s.grade := rfl
@[simp] theorem setRaw_now (s : State) (t k : Nat) (c : RawCtx) : (s.setRaw t k c).now = s.now := rfl
@[simp] theorem setRaw_regs (s : State) (t k : Nat) (c : RawCtx) : (s.setRaw t k c).regs = s.regs := rfl
@[simp] theorem setRaw_dram (s : State) (t k : Nat) (c : RawCtx) : (s.setRaw t k c).dram = s.dram := rfl
@[simp] theorem setRaw_writes (s : State) (t k : Nat) (c : RawCtx) : (s.setRaw t k c).writes = s.writes := rfl
@[simp] theorem setRaw_freeCtr (s : State) (t k : Nat) (c : RawCtx) : (s.setRaw t k c).freeCtr = s.freeCtr := rfl
@[simp] theorem setRaw_snaps (s : State) (t k : Nat) (c : RawCtx) : (s.setRaw t k c).snaps = s.snaps := rfl
@[simp] theorem setRaw_held (s : State) (t k : Nat) (c : RawCtx) : (s.setRaw t k c).held = s.held := rfl
@[simp] theorem setRaw_answers (s : State) (t k : Nat) (c : RawCtx) : (s.setRaw t k c).answers = s.answers := rfl
@[simp] theorem setRaw_seam (s : State) (t k : Nat) (c : RawCtx) : (s.setRaw t k c).seam = s.seam := rfl
@[simp] theorem setRaw_bench (s : State) (t k : Nat) (c : RawCtx) : (s.setRaw t k c).bench = s.bench := rfl
@[simp] theorem setRaw_core (s : State) (t k : Nat) (c : RawCtx) : (s.setRaw t k c).core = s.core := rfl
@[simp] theorem setRaw_time (s : State) (t k : Nat) (c : RawCtx) : (s.setRaw t k c).time = s.time := rfl
@[simp] theorem setRaw_lanes (s : State) (t k : Nat) (c : RawCtx) : (s.setRaw t k c).lanes = s.lanes := rfl
@[simp] theorem setRaw_pins (s : State) (t k : Nat) (c : RawCtx) : (s.setRaw t k c).pins = s.pins := rfl
@[simp] theorem setRaw_adit (s : State) (t k : Nat) (c : RawCtx) : (s.setRaw t k c).adit = s.adit := rfl
@[simp] theorem setRaw_store (s : State) (t k : Nat) (c : RawCtx) : (s.setRaw t k c).store = s.store := rfl
@[simp] theorem setRaw_hevc (s : State) (t k : Nat) (c : RawCtx) : (s.setRaw t k c).hevc = s.hevc := rfl
@[simp] theorem setRaw_lpl (s : State) (t k : Nat) (c : RawCtx) : (s.setRaw t k c).lpl = s.lpl := rfl
@[simp] theorem setRaw_mags (s : State) (t k : Nat) (c : RawCtx) : (s.setRaw t k c).mags = s.mags := rfl
@[simp] theorem setRaw_host (s : State) (t k : Nat) (c : RawCtx) : (s.setRaw t k c).host = s.host := rfl
@[simp] theorem setRaw_mem (s : State) (t k : Nat) (c : RawCtx) : (s.setRaw t k c).mem = s.mem := rfl
@[simp] theorem setRaw_pos (s : State) (t k : Nat) (c : RawCtx) : (s.setRaw t k c).pos = s.pos := rfl
@[simp] theorem setRaw_audio (s : State) (t k : Nat) (c : RawCtx) : (s.setRaw t k c).audio = s.audio := rfl
@[simp] theorem setRaw_pwr (s : State) (t k : Nat) (c : RawCtx) : (s.setRaw t k c).pwr = s.pwr := rfl
@[simp] theorem setRaw_evt (s : State) (t k : Nat) (c : RawCtx) : (s.setRaw t k c).evt = s.evt := rfl
@[simp] theorem setRaw_boot (s : State) (t k : Nat) (c : RawCtx) : (s.setRaw t k c).boot = s.boot := rfl
@[simp] theorem setRaw_pending (s : State) (t k : Nat) (c : RawCtx) : (s.setRaw t k c).pending = s.pending := rfl
@[simp] theorem setRaw_pix_rawIn (s : State) (t k : Nat) (c : RawCtx) : (s.setRaw t k c).pix.rawIn = s.pix.rawIn := rfl
@[simp] theorem setRaw_pix_haloOut (s : State) (t k : Nat) (c : RawCtx) : (s.setRaw t k c).pix.haloOut = s.pix.haloOut := rfl
@[simp] theorem setRaw_pix_haloIn (s : State) (t k : Nat) (c : RawCtx) : (s.setRaw t k c).pix.haloIn = s.pix.haloIn := rfl
@[simp] theorem setRaw_pix_obOut (s : State) (t k : Nat) (c : RawCtx) : (s.setRaw t k c).pix.obOut = s.pix.obOut := rfl
@[simp] theorem setRaw_pix_partials (s : State) (t k : Nat) (c : RawCtx) : (s.setRaw t k c).pix.partials = s.pix.partials := rfl
@[simp] theorem setRaw_pix_combine (s : State) (t k : Nat) (c : RawCtx) : (s.setRaw t k c).pix.combine = s.pix.combine := rfl
@[simp] theorem setRaw_pix_x2 (s : State) (t k : Nat) (c : RawCtx) : (s.setRaw t k c).pix.x2 = s.pix.x2 := rfl
@[simp] theorem setRaw_pix_dev (s : State) (t k : Nat) (c : RawCtx) : (s.setRaw t k c).pix.dev = s.pix.dev := rfl
@[simp] theorem setRaw_pix_x3 (s : State) (t k : Nat) (c : RawCtx) : (s.setRaw t k c).pix.x3 = s.pix.x3 := rfl
@[simp] theorem setRaw_pix_out (s : State) (t k : Nat) (c : RawCtx) : (s.setRaw t k c).pix.out = s.pix.out := rfl
@[simp] theorem setRaw_pix_ranges (s : State) (t k : Nat) (c : RawCtx) : (s.setRaw t k c).pix.ranges = s.pix.ranges := rfl
@[simp] theorem setRaw_pix_defBad (s : State) (t k : Nat) (c : RawCtx) : (s.setRaw t k c).pix.defBad = s.pix.defBad := rfl
@[simp] theorem setRaw_pix_alpha (s : State) (t k : Nat) (c : RawCtx) : (s.setRaw t k c).pix.alpha = s.pix.alpha := rfl
@[simp] theorem setRaw_pix_expo (s : State) (t k : Nat) (c : RawCtx) : (s.setRaw t k c).pix.expo = s.pix.expo := rfl
@[simp] theorem setRaw_pix_tap (s : State) (t k : Nat) (c : RawCtx) : (s.setRaw t k c).pix.tap = s.pix.tap := rfl
@[simp] theorem setRaw_pix_sdiFmt (s : State) (t k : Nat) (c : RawCtx) : (s.setRaw t k c).pix.sdiFmt = s.pix.sdiFmt := rfl
@[simp] theorem setRaw_pix_diffOver (s : State) (t k : Nat) (c : RawCtx) : (s.setRaw t k c).pix.diffOver = s.pix.diffOver := rfl
@[simp] theorem setRaw_pix_tables (s : State) (t k : Nat) (c : RawCtx) : (s.setRaw t k c).pix.tables = s.pix.tables := rfl

/-! ### setSpiQ -/

@[simp] theorem setSpiQ_member (s : State) (t p : Nat) (q : SerialSt) : (s.setSpiQ t p q).member = s.member := rfl
@[simp] theorem setSpiQ_grade (s : State) (t p : Nat) (q : SerialSt) : (s.setSpiQ t p q).grade = s.grade := rfl
@[simp] theorem setSpiQ_now (s : State) (t p : Nat) (q : SerialSt) : (s.setSpiQ t p q).now = s.now := rfl
@[simp] theorem setSpiQ_regs (s : State) (t p : Nat) (q : SerialSt) : (s.setSpiQ t p q).regs = s.regs := rfl
@[simp] theorem setSpiQ_dram (s : State) (t p : Nat) (q : SerialSt) : (s.setSpiQ t p q).dram = s.dram := rfl
@[simp] theorem setSpiQ_writes (s : State) (t p : Nat) (q : SerialSt) : (s.setSpiQ t p q).writes = s.writes := rfl
@[simp] theorem setSpiQ_freeCtr (s : State) (t p : Nat) (q : SerialSt) : (s.setSpiQ t p q).freeCtr = s.freeCtr := rfl
@[simp] theorem setSpiQ_snaps (s : State) (t p : Nat) (q : SerialSt) : (s.setSpiQ t p q).snaps = s.snaps := rfl
@[simp] theorem setSpiQ_held (s : State) (t p : Nat) (q : SerialSt) : (s.setSpiQ t p q).held = s.held := rfl
@[simp] theorem setSpiQ_answers (s : State) (t p : Nat) (q : SerialSt) : (s.setSpiQ t p q).answers = s.answers := rfl
@[simp] theorem setSpiQ_seam (s : State) (t p : Nat) (q : SerialSt) : (s.setSpiQ t p q).seam = s.seam := rfl
@[simp] theorem setSpiQ_bench (s : State) (t p : Nat) (q : SerialSt) : (s.setSpiQ t p q).bench = s.bench := rfl
@[simp] theorem setSpiQ_core (s : State) (t p : Nat) (q : SerialSt) : (s.setSpiQ t p q).core = s.core := rfl
@[simp] theorem setSpiQ_time (s : State) (t p : Nat) (q : SerialSt) : (s.setSpiQ t p q).time = s.time := rfl
@[simp] theorem setSpiQ_lanes (s : State) (t p : Nat) (q : SerialSt) : (s.setSpiQ t p q).lanes = s.lanes := rfl
@[simp] theorem setSpiQ_pins (s : State) (t p : Nat) (q : SerialSt) : (s.setSpiQ t p q).pins = s.pins := rfl
@[simp] theorem setSpiQ_pix (s : State) (t p : Nat) (q : SerialSt) : (s.setSpiQ t p q).pix = s.pix := rfl
@[simp] theorem setSpiQ_store (s : State) (t p : Nat) (q : SerialSt) : (s.setSpiQ t p q).store = s.store := rfl
@[simp] theorem setSpiQ_hevc (s : State) (t p : Nat) (q : SerialSt) : (s.setSpiQ t p q).hevc = s.hevc := rfl
@[simp] theorem setSpiQ_lpl (s : State) (t p : Nat) (q : SerialSt) : (s.setSpiQ t p q).lpl = s.lpl := rfl
@[simp] theorem setSpiQ_mags (s : State) (t p : Nat) (q : SerialSt) : (s.setSpiQ t p q).mags = s.mags := rfl
@[simp] theorem setSpiQ_host (s : State) (t p : Nat) (q : SerialSt) : (s.setSpiQ t p q).host = s.host := rfl
@[simp] theorem setSpiQ_mem (s : State) (t p : Nat) (q : SerialSt) : (s.setSpiQ t p q).mem = s.mem := rfl
@[simp] theorem setSpiQ_pos (s : State) (t p : Nat) (q : SerialSt) : (s.setSpiQ t p q).pos = s.pos := rfl
@[simp] theorem setSpiQ_audio (s : State) (t p : Nat) (q : SerialSt) : (s.setSpiQ t p q).audio = s.audio := rfl
@[simp] theorem setSpiQ_pwr (s : State) (t p : Nat) (q : SerialSt) : (s.setSpiQ t p q).pwr = s.pwr := rfl
@[simp] theorem setSpiQ_evt (s : State) (t p : Nat) (q : SerialSt) : (s.setSpiQ t p q).evt = s.evt := rfl
@[simp] theorem setSpiQ_boot (s : State) (t p : Nat) (q : SerialSt) : (s.setSpiQ t p q).boot = s.boot := rfl
@[simp] theorem setSpiQ_pending (s : State) (t p : Nat) (q : SerialSt) : (s.setSpiQ t p q).pending = s.pending := rfl
@[simp] theorem setSpiQ_adit_ports (s : State) (t p : Nat) (q : SerialSt) : (s.setSpiQ t p q).adit.ports = s.adit.ports := rfl
@[simp] theorem setSpiQ_adit_store (s : State) (t p : Nat) (q : SerialSt) : (s.setSpiQ t p q).adit.store = s.adit.store := rfl
@[simp] theorem setSpiQ_adit_stripes (s : State) (t p : Nat) (q : SerialSt) : (s.setSpiQ t p q).adit.stripes = s.adit.stripes := rfl
@[simp] theorem setSpiQ_adit_pieces (s : State) (t p : Nat) (q : SerialSt) : (s.setSpiQ t p q).adit.pieces = s.adit.pieces := rfl
@[simp] theorem setSpiQ_adit_records (s : State) (t p : Nat) (q : SerialSt) : (s.setSpiQ t p q).adit.records = s.adit.records := rfl
@[simp] theorem setSpiQ_adit_reports (s : State) (t p : Nat) (q : SerialSt) : (s.setSpiQ t p q).adit.reports = s.adit.reports := rfl
@[simp] theorem setSpiQ_adit_leadLines (s : State) (t p : Nat) (q : SerialSt) : (s.setSpiQ t p q).adit.leadLines = s.adit.leadLines := rfl
@[simp] theorem setSpiQ_adit_i2c (s : State) (t p : Nat) (q : SerialSt) : (s.setSpiQ t p q).adit.i2c = s.adit.i2c := rfl

/-! ### setSteer -/

@[simp] theorem setSteer_member (s : State) (n : Nat) (c : Steer) : (s.setSteer n c).member = s.member := rfl
@[simp] theorem setSteer_grade (s : State) (n : Nat) (c : Steer) : (s.setSteer n c).grade = s.grade := rfl
@[simp] theorem setSteer_now (s : State) (n : Nat) (c : Steer) : (s.setSteer n c).now = s.now := rfl
@[simp] theorem setSteer_regs (s : State) (n : Nat) (c : Steer) : (s.setSteer n c).regs = s.regs := rfl
@[simp] theorem setSteer_dram (s : State) (n : Nat) (c : Steer) : (s.setSteer n c).dram = s.dram := rfl
@[simp] theorem setSteer_writes (s : State) (n : Nat) (c : Steer) : (s.setSteer n c).writes = s.writes := rfl
@[simp] theorem setSteer_freeCtr (s : State) (n : Nat) (c : Steer) : (s.setSteer n c).freeCtr = s.freeCtr := rfl
@[simp] theorem setSteer_snaps (s : State) (n : Nat) (c : Steer) : (s.setSteer n c).snaps = s.snaps := rfl
@[simp] theorem setSteer_held (s : State) (n : Nat) (c : Steer) : (s.setSteer n c).held = s.held := rfl
@[simp] theorem setSteer_answers (s : State) (n : Nat) (c : Steer) : (s.setSteer n c).answers = s.answers := rfl
@[simp] theorem setSteer_seam (s : State) (n : Nat) (c : Steer) : (s.setSteer n c).seam = s.seam := rfl
@[simp] theorem setSteer_bench (s : State) (n : Nat) (c : Steer) : (s.setSteer n c).bench = s.bench := rfl
@[simp] theorem setSteer_core (s : State) (n : Nat) (c : Steer) : (s.setSteer n c).core = s.core := rfl
@[simp] theorem setSteer_lanes (s : State) (n : Nat) (c : Steer) : (s.setSteer n c).lanes = s.lanes := rfl
@[simp] theorem setSteer_pins (s : State) (n : Nat) (c : Steer) : (s.setSteer n c).pins = s.pins := rfl
@[simp] theorem setSteer_adit (s : State) (n : Nat) (c : Steer) : (s.setSteer n c).adit = s.adit := rfl
@[simp] theorem setSteer_pix (s : State) (n : Nat) (c : Steer) : (s.setSteer n c).pix = s.pix := rfl
@[simp] theorem setSteer_store (s : State) (n : Nat) (c : Steer) : (s.setSteer n c).store = s.store := rfl
@[simp] theorem setSteer_hevc (s : State) (n : Nat) (c : Steer) : (s.setSteer n c).hevc = s.hevc := rfl
@[simp] theorem setSteer_lpl (s : State) (n : Nat) (c : Steer) : (s.setSteer n c).lpl = s.lpl := rfl
@[simp] theorem setSteer_mags (s : State) (n : Nat) (c : Steer) : (s.setSteer n c).mags = s.mags := rfl
@[simp] theorem setSteer_host (s : State) (n : Nat) (c : Steer) : (s.setSteer n c).host = s.host := rfl
@[simp] theorem setSteer_mem (s : State) (n : Nat) (c : Steer) : (s.setSteer n c).mem = s.mem := rfl
@[simp] theorem setSteer_pos (s : State) (n : Nat) (c : Steer) : (s.setSteer n c).pos = s.pos := rfl
@[simp] theorem setSteer_audio (s : State) (n : Nat) (c : Steer) : (s.setSteer n c).audio = s.audio := rfl
@[simp] theorem setSteer_pwr (s : State) (n : Nat) (c : Steer) : (s.setSteer n c).pwr = s.pwr := rfl
@[simp] theorem setSteer_evt (s : State) (n : Nat) (c : Steer) : (s.setSteer n c).evt = s.evt := rfl
@[simp] theorem setSteer_boot (s : State) (n : Nat) (c : Steer) : (s.setSteer n c).boot = s.boot := rfl
@[simp] theorem setSteer_pending (s : State) (n : Nat) (c : Steer) : (s.setSteer n c).pending = s.pending := rfl
@[simp] theorem setSteer_time_chans (s : State) (n : Nat) (c : Steer) : (s.setSteer n c).time.chans = s.time.chans := rfl
@[simp] theorem setSteer_time_caps (s : State) (n : Nat) (c : Steer) : (s.setSteer n c).time.caps = s.time.caps := rfl
@[simp] theorem setSteer_time_gey (s : State) (n : Nat) (c : Steer) : (s.setSteer n c).time.gey = s.time.gey := rfl
@[simp] theorem setSteer_time_lcTicks (s : State) (n : Nat) (c : Steer) : (s.setSteer n c).time.lcTicks = s.time.lcTicks := rfl
@[simp] theorem setSteer_time_lcFrac (s : State) (n : Nat) (c : Steer) : (s.setSteer n c).time.lcFrac = s.time.lcFrac := rfl
@[simp] theorem setSteer_time_lcOfs (s : State) (n : Nat) (c : Steer) : (s.setSteer n c).time.lcOfs = s.time.lcOfs := rfl
@[simp] theorem setSteer_time_lcRate (s : State) (n : Nat) (c : Steer) : (s.setSteer n c).time.lcRate = s.time.lcRate := rfl
@[simp] theorem setSteer_time_xtrig (s : State) (n : Nat) (c : Steer) : (s.setSteer n c).time.xtrig = s.time.xtrig := rfl
@[simp] theorem setSteer_time_clockLost (s : State) (n : Nat) (c : Steer) : (s.setSteer n c).time.clockLost = s.time.clockLost := rfl
@[simp] theorem setSteer_time_lostAt (s : State) (n : Nat) (c : Steer) : (s.setSteer n c).time.lostAt = s.time.lostAt := rfl
@[simp] theorem setSteer_time_goodFrom (s : State) (n : Nat) (c : Steer) : (s.setSteer n c).time.goodFrom = s.time.goodFrom := rfl
@[simp] theorem setSteer_time_holdRaised (s : State) (n : Nat) (c : Steer) : (s.setSteer n c).time.holdRaised = s.time.holdRaised := rfl
@[simp] theorem setSteer_time_stamped (s : State) (n : Nat) (c : Steer) : (s.setSteer n c).time.stamped = s.time.stamped := rfl
@[simp] theorem setSteer_time_aon (s : State) (n : Nat) (c : Steer) : (s.setSteer n c).time.aon = s.time.aon := rfl
@[simp] theorem setSteer_time_calAcc (s : State) (n : Nat) (c : Steer) : (s.setSteer n c).time.calAcc = s.time.calAcc := rfl
@[simp] theorem setSteer_time_rttBusy (s : State) (n : Nat) (c : Steer) : (s.setSteer n c).time.rttBusy = s.time.rttBusy := rfl
@[simp] theorem setSteer_time_periods (s : State) (n : Nat) (c : Steer) : (s.setSteer n c).time.periods = s.time.periods := rfl
@[simp] theorem setSteer_time_stamps (s : State) (n : Nat) (c : Steer) : (s.setSteer n c).time.stamps = s.time.stamps := rfl

/-! ### setTake -/

@[simp] theorem setTake_member (s : State) (k : Nat) (x : Take) : (s.setTake k x).member = s.member := rfl
@[simp] theorem setTake_grade (s : State) (k : Nat) (x : Take) : (s.setTake k x).grade = s.grade := rfl
@[simp] theorem setTake_now (s : State) (k : Nat) (x : Take) : (s.setTake k x).now = s.now := rfl
@[simp] theorem setTake_regs (s : State) (k : Nat) (x : Take) : (s.setTake k x).regs = s.regs := rfl
@[simp] theorem setTake_dram (s : State) (k : Nat) (x : Take) : (s.setTake k x).dram = s.dram := rfl
@[simp] theorem setTake_writes (s : State) (k : Nat) (x : Take) : (s.setTake k x).writes = s.writes := rfl
@[simp] theorem setTake_freeCtr (s : State) (k : Nat) (x : Take) : (s.setTake k x).freeCtr = s.freeCtr := rfl
@[simp] theorem setTake_snaps (s : State) (k : Nat) (x : Take) : (s.setTake k x).snaps = s.snaps := rfl
@[simp] theorem setTake_held (s : State) (k : Nat) (x : Take) : (s.setTake k x).held = s.held := rfl
@[simp] theorem setTake_answers (s : State) (k : Nat) (x : Take) : (s.setTake k x).answers = s.answers := rfl
@[simp] theorem setTake_seam (s : State) (k : Nat) (x : Take) : (s.setTake k x).seam = s.seam := rfl
@[simp] theorem setTake_bench (s : State) (k : Nat) (x : Take) : (s.setTake k x).bench = s.bench := rfl
@[simp] theorem setTake_core (s : State) (k : Nat) (x : Take) : (s.setTake k x).core = s.core := rfl
@[simp] theorem setTake_time (s : State) (k : Nat) (x : Take) : (s.setTake k x).time = s.time := rfl
@[simp] theorem setTake_lanes (s : State) (k : Nat) (x : Take) : (s.setTake k x).lanes = s.lanes := rfl
@[simp] theorem setTake_pins (s : State) (k : Nat) (x : Take) : (s.setTake k x).pins = s.pins := rfl
@[simp] theorem setTake_adit (s : State) (k : Nat) (x : Take) : (s.setTake k x).adit = s.adit := rfl
@[simp] theorem setTake_pix (s : State) (k : Nat) (x : Take) : (s.setTake k x).pix = s.pix := rfl
@[simp] theorem setTake_hevc (s : State) (k : Nat) (x : Take) : (s.setTake k x).hevc = s.hevc := rfl
@[simp] theorem setTake_lpl (s : State) (k : Nat) (x : Take) : (s.setTake k x).lpl = s.lpl := rfl
@[simp] theorem setTake_mags (s : State) (k : Nat) (x : Take) : (s.setTake k x).mags = s.mags := rfl
@[simp] theorem setTake_host (s : State) (k : Nat) (x : Take) : (s.setTake k x).host = s.host := rfl
@[simp] theorem setTake_mem (s : State) (k : Nat) (x : Take) : (s.setTake k x).mem = s.mem := rfl
@[simp] theorem setTake_pos (s : State) (k : Nat) (x : Take) : (s.setTake k x).pos = s.pos := rfl
@[simp] theorem setTake_audio (s : State) (k : Nat) (x : Take) : (s.setTake k x).audio = s.audio := rfl
@[simp] theorem setTake_pwr (s : State) (k : Nat) (x : Take) : (s.setTake k x).pwr = s.pwr := rfl
@[simp] theorem setTake_evt (s : State) (k : Nat) (x : Take) : (s.setTake k x).evt = s.evt := rfl
@[simp] theorem setTake_boot (s : State) (k : Nat) (x : Take) : (s.setTake k x).boot = s.boot := rfl
@[simp] theorem setTake_pending (s : State) (k : Nat) (x : Take) : (s.setTake k x).pending = s.pending := rfl
@[simp] theorem setTake_store_streams (s : State) (k : Nat) (x : Take) : (s.setTake k x).store.streams = s.store.streams := rfl
@[simp] theorem setTake_store_jobs (s : State) (k : Nat) (x : Take) : (s.setTake k x).store.jobs = s.store.jobs := rfl
@[simp] theorem setTake_store_units (s : State) (k : Nat) (x : Take) : (s.setTake k x).store.units = s.store.units := rfl
@[simp] theorem setTake_store_before (s : State) (k : Nat) (x : Take) : (s.setTake k x).store.before = s.store.before := rfl
@[simp] theorem setTake_store_extents (s : State) (k : Nat) (x : Take) : (s.setTake k x).store.extents = s.store.extents := rfl
@[simp] theorem setTake_store_rings (s : State) (k : Nat) (x : Take) : (s.setTake k x).store.rings = s.store.rings := rfl
@[simp] theorem setTake_store_burst (s : State) (k : Nat) (x : Take) : (s.setTake k x).store.burst = s.store.burst := rfl

/-! ### setTbl -/

@[simp] theorem setTbl_member (s : State) (t at_ v : Nat) : (s.setTbl t at_ v).member = s.member := rfl
@[simp] theorem setTbl_grade (s : State) (t at_ v : Nat) : (s.setTbl t at_ v).grade = s.grade := rfl
@[simp] theorem setTbl_now (s : State) (t at_ v : Nat) : (s.setTbl t at_ v).now = s.now := rfl
@[simp] theorem setTbl_regs (s : State) (t at_ v : Nat) : (s.setTbl t at_ v).regs = s.regs := rfl
@[simp] theorem setTbl_dram (s : State) (t at_ v : Nat) : (s.setTbl t at_ v).dram = s.dram := rfl
@[simp] theorem setTbl_writes (s : State) (t at_ v : Nat) : (s.setTbl t at_ v).writes = s.writes := rfl
@[simp] theorem setTbl_freeCtr (s : State) (t at_ v : Nat) : (s.setTbl t at_ v).freeCtr = s.freeCtr := rfl
@[simp] theorem setTbl_snaps (s : State) (t at_ v : Nat) : (s.setTbl t at_ v).snaps = s.snaps := rfl
@[simp] theorem setTbl_held (s : State) (t at_ v : Nat) : (s.setTbl t at_ v).held = s.held := rfl
@[simp] theorem setTbl_answers (s : State) (t at_ v : Nat) : (s.setTbl t at_ v).answers = s.answers := rfl
@[simp] theorem setTbl_seam (s : State) (t at_ v : Nat) : (s.setTbl t at_ v).seam = s.seam := rfl
@[simp] theorem setTbl_bench (s : State) (t at_ v : Nat) : (s.setTbl t at_ v).bench = s.bench := rfl
@[simp] theorem setTbl_core (s : State) (t at_ v : Nat) : (s.setTbl t at_ v).core = s.core := rfl
@[simp] theorem setTbl_time (s : State) (t at_ v : Nat) : (s.setTbl t at_ v).time = s.time := rfl
@[simp] theorem setTbl_lanes (s : State) (t at_ v : Nat) : (s.setTbl t at_ v).lanes = s.lanes := rfl
@[simp] theorem setTbl_pins (s : State) (t at_ v : Nat) : (s.setTbl t at_ v).pins = s.pins := rfl
@[simp] theorem setTbl_adit (s : State) (t at_ v : Nat) : (s.setTbl t at_ v).adit = s.adit := rfl
@[simp] theorem setTbl_store (s : State) (t at_ v : Nat) : (s.setTbl t at_ v).store = s.store := rfl
@[simp] theorem setTbl_hevc (s : State) (t at_ v : Nat) : (s.setTbl t at_ v).hevc = s.hevc := rfl
@[simp] theorem setTbl_lpl (s : State) (t at_ v : Nat) : (s.setTbl t at_ v).lpl = s.lpl := rfl
@[simp] theorem setTbl_mags (s : State) (t at_ v : Nat) : (s.setTbl t at_ v).mags = s.mags := rfl
@[simp] theorem setTbl_host (s : State) (t at_ v : Nat) : (s.setTbl t at_ v).host = s.host := rfl
@[simp] theorem setTbl_mem (s : State) (t at_ v : Nat) : (s.setTbl t at_ v).mem = s.mem := rfl
@[simp] theorem setTbl_pos (s : State) (t at_ v : Nat) : (s.setTbl t at_ v).pos = s.pos := rfl
@[simp] theorem setTbl_audio (s : State) (t at_ v : Nat) : (s.setTbl t at_ v).audio = s.audio := rfl
@[simp] theorem setTbl_pwr (s : State) (t at_ v : Nat) : (s.setTbl t at_ v).pwr = s.pwr := rfl
@[simp] theorem setTbl_evt (s : State) (t at_ v : Nat) : (s.setTbl t at_ v).evt = s.evt := rfl
@[simp] theorem setTbl_boot (s : State) (t at_ v : Nat) : (s.setTbl t at_ v).boot = s.boot := rfl
@[simp] theorem setTbl_pending (s : State) (t at_ v : Nat) : (s.setTbl t at_ v).pending = s.pending := rfl
@[simp] theorem setTbl_pix_rawIn (s : State) (t at_ v : Nat) : (s.setTbl t at_ v).pix.rawIn = s.pix.rawIn := rfl
@[simp] theorem setTbl_pix_raw (s : State) (t at_ v : Nat) : (s.setTbl t at_ v).pix.raw = s.pix.raw := rfl
@[simp] theorem setTbl_pix_haloOut (s : State) (t at_ v : Nat) : (s.setTbl t at_ v).pix.haloOut = s.pix.haloOut := rfl
@[simp] theorem setTbl_pix_haloIn (s : State) (t at_ v : Nat) : (s.setTbl t at_ v).pix.haloIn = s.pix.haloIn := rfl
@[simp] theorem setTbl_pix_obOut (s : State) (t at_ v : Nat) : (s.setTbl t at_ v).pix.obOut = s.pix.obOut := rfl
@[simp] theorem setTbl_pix_partials (s : State) (t at_ v : Nat) : (s.setTbl t at_ v).pix.partials = s.pix.partials := rfl
@[simp] theorem setTbl_pix_combine (s : State) (t at_ v : Nat) : (s.setTbl t at_ v).pix.combine = s.pix.combine := rfl
@[simp] theorem setTbl_pix_x2 (s : State) (t at_ v : Nat) : (s.setTbl t at_ v).pix.x2 = s.pix.x2 := rfl
@[simp] theorem setTbl_pix_dev (s : State) (t at_ v : Nat) : (s.setTbl t at_ v).pix.dev = s.pix.dev := rfl
@[simp] theorem setTbl_pix_x3 (s : State) (t at_ v : Nat) : (s.setTbl t at_ v).pix.x3 = s.pix.x3 := rfl
@[simp] theorem setTbl_pix_out (s : State) (t at_ v : Nat) : (s.setTbl t at_ v).pix.out = s.pix.out := rfl
@[simp] theorem setTbl_pix_ranges (s : State) (t at_ v : Nat) : (s.setTbl t at_ v).pix.ranges = s.pix.ranges := rfl
@[simp] theorem setTbl_pix_defBad (s : State) (t at_ v : Nat) : (s.setTbl t at_ v).pix.defBad = s.pix.defBad := rfl
@[simp] theorem setTbl_pix_alpha (s : State) (t at_ v : Nat) : (s.setTbl t at_ v).pix.alpha = s.pix.alpha := rfl
@[simp] theorem setTbl_pix_expo (s : State) (t at_ v : Nat) : (s.setTbl t at_ v).pix.expo = s.pix.expo := rfl
@[simp] theorem setTbl_pix_tap (s : State) (t at_ v : Nat) : (s.setTbl t at_ v).pix.tap = s.pix.tap := rfl
@[simp] theorem setTbl_pix_sdiFmt (s : State) (t at_ v : Nat) : (s.setTbl t at_ v).pix.sdiFmt = s.pix.sdiFmt := rfl
@[simp] theorem setTbl_pix_diffOver (s : State) (t at_ v : Nat) : (s.setTbl t at_ v).pix.diffOver = s.pix.diffOver := rfl

/-! ### setTcmMark -/

@[simp] theorem setTcmMark_member (s : State) (t w : Nat) (b : Bool) : (s.setTcmMark t w b).member = s.member := rfl
@[simp] theorem setTcmMark_grade (s : State) (t w : Nat) (b : Bool) : (s.setTcmMark t w b).grade = s.grade := rfl
@[simp] theorem setTcmMark_now (s : State) (t w : Nat) (b : Bool) : (s.setTcmMark t w b).now = s.now := rfl
@[simp] theorem setTcmMark_regs (s : State) (t w : Nat) (b : Bool) : (s.setTcmMark t w b).regs = s.regs := rfl
@[simp] theorem setTcmMark_dram (s : State) (t w : Nat) (b : Bool) : (s.setTcmMark t w b).dram = s.dram := rfl
@[simp] theorem setTcmMark_writes (s : State) (t w : Nat) (b : Bool) : (s.setTcmMark t w b).writes = s.writes := rfl
@[simp] theorem setTcmMark_freeCtr (s : State) (t w : Nat) (b : Bool) : (s.setTcmMark t w b).freeCtr = s.freeCtr := rfl
@[simp] theorem setTcmMark_snaps (s : State) (t w : Nat) (b : Bool) : (s.setTcmMark t w b).snaps = s.snaps := rfl
@[simp] theorem setTcmMark_held (s : State) (t w : Nat) (b : Bool) : (s.setTcmMark t w b).held = s.held := rfl
@[simp] theorem setTcmMark_answers (s : State) (t w : Nat) (b : Bool) : (s.setTcmMark t w b).answers = s.answers := rfl
@[simp] theorem setTcmMark_seam (s : State) (t w : Nat) (b : Bool) : (s.setTcmMark t w b).seam = s.seam := rfl
@[simp] theorem setTcmMark_bench (s : State) (t w : Nat) (b : Bool) : (s.setTcmMark t w b).bench = s.bench := rfl
@[simp] theorem setTcmMark_time (s : State) (t w : Nat) (b : Bool) : (s.setTcmMark t w b).time = s.time := rfl
@[simp] theorem setTcmMark_lanes (s : State) (t w : Nat) (b : Bool) : (s.setTcmMark t w b).lanes = s.lanes := rfl
@[simp] theorem setTcmMark_pins (s : State) (t w : Nat) (b : Bool) : (s.setTcmMark t w b).pins = s.pins := rfl
@[simp] theorem setTcmMark_adit (s : State) (t w : Nat) (b : Bool) : (s.setTcmMark t w b).adit = s.adit := rfl
@[simp] theorem setTcmMark_pix (s : State) (t w : Nat) (b : Bool) : (s.setTcmMark t w b).pix = s.pix := rfl
@[simp] theorem setTcmMark_store (s : State) (t w : Nat) (b : Bool) : (s.setTcmMark t w b).store = s.store := rfl
@[simp] theorem setTcmMark_hevc (s : State) (t w : Nat) (b : Bool) : (s.setTcmMark t w b).hevc = s.hevc := rfl
@[simp] theorem setTcmMark_lpl (s : State) (t w : Nat) (b : Bool) : (s.setTcmMark t w b).lpl = s.lpl := rfl
@[simp] theorem setTcmMark_mags (s : State) (t w : Nat) (b : Bool) : (s.setTcmMark t w b).mags = s.mags := rfl
@[simp] theorem setTcmMark_host (s : State) (t w : Nat) (b : Bool) : (s.setTcmMark t w b).host = s.host := rfl
@[simp] theorem setTcmMark_mem (s : State) (t w : Nat) (b : Bool) : (s.setTcmMark t w b).mem = s.mem := rfl
@[simp] theorem setTcmMark_pos (s : State) (t w : Nat) (b : Bool) : (s.setTcmMark t w b).pos = s.pos := rfl
@[simp] theorem setTcmMark_audio (s : State) (t w : Nat) (b : Bool) : (s.setTcmMark t w b).audio = s.audio := rfl
@[simp] theorem setTcmMark_pwr (s : State) (t w : Nat) (b : Bool) : (s.setTcmMark t w b).pwr = s.pwr := rfl
@[simp] theorem setTcmMark_evt (s : State) (t w : Nat) (b : Bool) : (s.setTcmMark t w b).evt = s.evt := rfl
@[simp] theorem setTcmMark_boot (s : State) (t w : Nat) (b : Bool) : (s.setTcmMark t w b).boot = s.boot := rfl
@[simp] theorem setTcmMark_pending (s : State) (t w : Nat) (b : Bool) : (s.setTcmMark t w b).pending = s.pending := rfl
@[simp] theorem setTcmMark_core_crews (s : State) (t w : Nat) (b : Bool) : (s.setTcmMark t w b).core.crews = s.core.crews := rfl
@[simp] theorem setTcmMark_core_tcm (s : State) (t w : Nat) (b : Bool) : (s.setTcmMark t w b).core.tcm = s.core.tcm := rfl
@[simp] theorem setTcmMark_core_tcmParity (s : State) (t w : Nat) (b : Bool) : (s.setTcmMark t w b).core.tcmParity = s.core.tcmParity := rfl
@[simp] theorem setTcmMark_core_dma (s : State) (t w : Nat) (b : Bool) : (s.setTcmMark t w b).core.dma = s.core.dma := rfl
@[simp] theorem setTcmMark_core_sysbound (s : State) (t w : Nat) (b : Bool) : (s.setTcmMark t w b).core.sysbound = s.core.sysbound := rfl
@[simp] theorem setTcmMark_core_tileReset (s : State) (t w : Nat) (b : Bool) : (s.setTcmMark t w b).core.tileReset = s.core.tileReset := rfl
@[simp] theorem setTcmMark_core_sends (s : State) (t w : Nat) (b : Bool) : (s.setTcmMark t w b).core.sends = s.core.sends := rfl
@[simp] theorem setTcmMark_core_ctlBusy (s : State) (t w : Nat) (b : Bool) : (s.setTcmMark t w b).core.ctlBusy = s.core.ctlBusy := rfl

/-! ### setThSite -/

@[simp] theorem setThSite_member (s : State) (t k : Nat) (x : ThSite) : (s.setThSite t k x).member = s.member := rfl
@[simp] theorem setThSite_grade (s : State) (t k : Nat) (x : ThSite) : (s.setThSite t k x).grade = s.grade := rfl
@[simp] theorem setThSite_now (s : State) (t k : Nat) (x : ThSite) : (s.setThSite t k x).now = s.now := rfl
@[simp] theorem setThSite_regs (s : State) (t k : Nat) (x : ThSite) : (s.setThSite t k x).regs = s.regs := rfl
@[simp] theorem setThSite_dram (s : State) (t k : Nat) (x : ThSite) : (s.setThSite t k x).dram = s.dram := rfl
@[simp] theorem setThSite_writes (s : State) (t k : Nat) (x : ThSite) : (s.setThSite t k x).writes = s.writes := rfl
@[simp] theorem setThSite_freeCtr (s : State) (t k : Nat) (x : ThSite) : (s.setThSite t k x).freeCtr = s.freeCtr := rfl
@[simp] theorem setThSite_snaps (s : State) (t k : Nat) (x : ThSite) : (s.setThSite t k x).snaps = s.snaps := rfl
@[simp] theorem setThSite_held (s : State) (t k : Nat) (x : ThSite) : (s.setThSite t k x).held = s.held := rfl
@[simp] theorem setThSite_answers (s : State) (t k : Nat) (x : ThSite) : (s.setThSite t k x).answers = s.answers := rfl
@[simp] theorem setThSite_seam (s : State) (t k : Nat) (x : ThSite) : (s.setThSite t k x).seam = s.seam := rfl
@[simp] theorem setThSite_bench (s : State) (t k : Nat) (x : ThSite) : (s.setThSite t k x).bench = s.bench := rfl
@[simp] theorem setThSite_core (s : State) (t k : Nat) (x : ThSite) : (s.setThSite t k x).core = s.core := rfl
@[simp] theorem setThSite_time (s : State) (t k : Nat) (x : ThSite) : (s.setThSite t k x).time = s.time := rfl
@[simp] theorem setThSite_lanes (s : State) (t k : Nat) (x : ThSite) : (s.setThSite t k x).lanes = s.lanes := rfl
@[simp] theorem setThSite_pins (s : State) (t k : Nat) (x : ThSite) : (s.setThSite t k x).pins = s.pins := rfl
@[simp] theorem setThSite_adit (s : State) (t k : Nat) (x : ThSite) : (s.setThSite t k x).adit = s.adit := rfl
@[simp] theorem setThSite_pix (s : State) (t k : Nat) (x : ThSite) : (s.setThSite t k x).pix = s.pix := rfl
@[simp] theorem setThSite_store (s : State) (t k : Nat) (x : ThSite) : (s.setThSite t k x).store = s.store := rfl
@[simp] theorem setThSite_hevc (s : State) (t k : Nat) (x : ThSite) : (s.setThSite t k x).hevc = s.hevc := rfl
@[simp] theorem setThSite_lpl (s : State) (t k : Nat) (x : ThSite) : (s.setThSite t k x).lpl = s.lpl := rfl
@[simp] theorem setThSite_mags (s : State) (t k : Nat) (x : ThSite) : (s.setThSite t k x).mags = s.mags := rfl
@[simp] theorem setThSite_host (s : State) (t k : Nat) (x : ThSite) : (s.setThSite t k x).host = s.host := rfl
@[simp] theorem setThSite_mem (s : State) (t k : Nat) (x : ThSite) : (s.setThSite t k x).mem = s.mem := rfl
@[simp] theorem setThSite_pos (s : State) (t k : Nat) (x : ThSite) : (s.setThSite t k x).pos = s.pos := rfl
@[simp] theorem setThSite_audio (s : State) (t k : Nat) (x : ThSite) : (s.setThSite t k x).audio = s.audio := rfl
@[simp] theorem setThSite_evt (s : State) (t k : Nat) (x : ThSite) : (s.setThSite t k x).evt = s.evt := rfl
@[simp] theorem setThSite_boot (s : State) (t k : Nat) (x : ThSite) : (s.setThSite t k x).boot = s.boot := rfl
@[simp] theorem setThSite_pending (s : State) (t k : Nat) (x : ThSite) : (s.setThSite t k x).pending = s.pending := rfl
@[simp] theorem setThSite_pwr_hotTick (s : State) (t k : Nat) (x : ThSite) : (s.setThSite t k x).pwr.hotTick = s.pwr.hotTick := rfl
@[simp] theorem setThSite_pwr_plimTick (s : State) (t k : Nat) (x : ThSite) : (s.setThSite t k x).pwr.plimTick = s.pwr.plimTick := rfl
@[simp] theorem setThSite_pwr_limCap (s : State) (t k : Nat) (x : ThSite) : (s.setThSite t k x).pwr.limCap = s.pwr.limCap := rfl
@[simp] theorem setThSite_pwr_jobs (s : State) (t k : Nat) (x : ThSite) : (s.setThSite t k x).pwr.jobs = s.pwr.jobs := rfl
@[simp] theorem setThSite_pwr_recent (s : State) (t k : Nat) (x : ThSite) : (s.setThSite t k x).pwr.recent = s.pwr.recent := rfl
@[simp] theorem setThSite_pwr_negRun (s : State) (t k : Nat) (x : ThSite) : (s.setThSite t k x).pwr.negRun = s.pwr.negRun := rfl
@[simp] theorem setThSite_pwr_rtCount (s : State) (t k : Nat) (x : ThSite) : (s.setThSite t k x).pwr.rtCount = s.pwr.rtCount := rfl
@[simp] theorem setThSite_pwr_rtTick (s : State) (t k : Nat) (x : ThSite) : (s.setThSite t k x).pwr.rtTick = s.pwr.rtTick := rfl
@[simp] theorem setThSite_pwr_armTick (s : State) (t k : Nat) (x : ThSite) : (s.setThSite t k x).pwr.armTick = s.pwr.armTick := rfl
@[simp] theorem setThSite_pwr_shutdown (s : State) (t k : Nat) (x : ThSite) : (s.setThSite t k x).pwr.shutdown = s.pwr.shutdown := rfl
@[simp] theorem setThSite_pwr_thermtrip (s : State) (t k : Nat) (x : ThSite) : (s.setThSite t k x).pwr.thermtrip = s.pwr.thermtrip := rfl
@[simp] theorem setThSite_pwr_pwrOff (s : State) (t k : Nat) (x : ThSite) : (s.setThSite t k x).pwr.pwrOff = s.pwr.pwrOff := rfl
@[simp] theorem setThSite_pwr_mram (s : State) (t k : Nat) (x : ThSite) : (s.setThSite t k x).pwr.mram = s.pwr.mram := rfl
@[simp] theorem setThSite_pwr_secTick (s : State) (t k : Nat) (x : ThSite) : (s.setThSite t k x).pwr.secTick = s.pwr.secTick := rfl
@[simp] theorem setThSite_pwr_laneLosses (s : State) (t k : Nat) (x : ThSite) : (s.setThSite t k x).pwr.laneLosses = s.pwr.laneLosses := rfl
@[simp] theorem setThSite_pwr_lplReplays (s : State) (t k : Nat) (x : ThSite) : (s.setThSite t k x).pwr.lplReplays = s.pwr.lplReplays := rfl
@[simp] theorem setThSite_pwr_seamReplays (s : State) (t k : Nat) (x : ThSite) : (s.setThSite t k x).pwr.seamReplays = s.pwr.seamReplays := rfl

/-! ### setTxn -/

@[simp] theorem setTxn_member (s : State) (i : Nat) (x : Txn) : (s.setTxn i x).member = s.member := rfl
@[simp] theorem setTxn_grade (s : State) (i : Nat) (x : Txn) : (s.setTxn i x).grade = s.grade := rfl
@[simp] theorem setTxn_now (s : State) (i : Nat) (x : Txn) : (s.setTxn i x).now = s.now := rfl
@[simp] theorem setTxn_regs (s : State) (i : Nat) (x : Txn) : (s.setTxn i x).regs = s.regs := rfl
@[simp] theorem setTxn_dram (s : State) (i : Nat) (x : Txn) : (s.setTxn i x).dram = s.dram := rfl
@[simp] theorem setTxn_writes (s : State) (i : Nat) (x : Txn) : (s.setTxn i x).writes = s.writes := rfl
@[simp] theorem setTxn_freeCtr (s : State) (i : Nat) (x : Txn) : (s.setTxn i x).freeCtr = s.freeCtr := rfl
@[simp] theorem setTxn_snaps (s : State) (i : Nat) (x : Txn) : (s.setTxn i x).snaps = s.snaps := rfl
@[simp] theorem setTxn_held (s : State) (i : Nat) (x : Txn) : (s.setTxn i x).held = s.held := rfl
@[simp] theorem setTxn_answers (s : State) (i : Nat) (x : Txn) : (s.setTxn i x).answers = s.answers := rfl
@[simp] theorem setTxn_seam (s : State) (i : Nat) (x : Txn) : (s.setTxn i x).seam = s.seam := rfl
@[simp] theorem setTxn_core (s : State) (i : Nat) (x : Txn) : (s.setTxn i x).core = s.core := rfl
@[simp] theorem setTxn_time (s : State) (i : Nat) (x : Txn) : (s.setTxn i x).time = s.time := rfl
@[simp] theorem setTxn_lanes (s : State) (i : Nat) (x : Txn) : (s.setTxn i x).lanes = s.lanes := rfl
@[simp] theorem setTxn_pins (s : State) (i : Nat) (x : Txn) : (s.setTxn i x).pins = s.pins := rfl
@[simp] theorem setTxn_adit (s : State) (i : Nat) (x : Txn) : (s.setTxn i x).adit = s.adit := rfl
@[simp] theorem setTxn_pix (s : State) (i : Nat) (x : Txn) : (s.setTxn i x).pix = s.pix := rfl
@[simp] theorem setTxn_store (s : State) (i : Nat) (x : Txn) : (s.setTxn i x).store = s.store := rfl
@[simp] theorem setTxn_hevc (s : State) (i : Nat) (x : Txn) : (s.setTxn i x).hevc = s.hevc := rfl
@[simp] theorem setTxn_lpl (s : State) (i : Nat) (x : Txn) : (s.setTxn i x).lpl = s.lpl := rfl
@[simp] theorem setTxn_mags (s : State) (i : Nat) (x : Txn) : (s.setTxn i x).mags = s.mags := rfl
@[simp] theorem setTxn_host (s : State) (i : Nat) (x : Txn) : (s.setTxn i x).host = s.host := rfl
@[simp] theorem setTxn_mem (s : State) (i : Nat) (x : Txn) : (s.setTxn i x).mem = s.mem := rfl
@[simp] theorem setTxn_pos (s : State) (i : Nat) (x : Txn) : (s.setTxn i x).pos = s.pos := rfl
@[simp] theorem setTxn_audio (s : State) (i : Nat) (x : Txn) : (s.setTxn i x).audio = s.audio := rfl
@[simp] theorem setTxn_pwr (s : State) (i : Nat) (x : Txn) : (s.setTxn i x).pwr = s.pwr := rfl
@[simp] theorem setTxn_evt (s : State) (i : Nat) (x : Txn) : (s.setTxn i x).evt = s.evt := rfl
@[simp] theorem setTxn_boot (s : State) (i : Nat) (x : Txn) : (s.setTxn i x).boot = s.boot := rfl
@[simp] theorem setTxn_pending (s : State) (i : Nat) (x : Txn) : (s.setTxn i x).pending = s.pending := rfl
@[simp] theorem setTxn_bench_units (s : State) (i : Nat) (x : Txn) : (s.setTxn i x).bench.units = s.bench.units := rfl
@[simp] theorem setTxn_bench_defView (s : State) (i : Nat) (x : Txn) : (s.setTxn i x).bench.defView = s.bench.defView := rfl
@[simp] theorem setTxn_bench_bankFull (s : State) (i : Nat) (x : Txn) : (s.setTxn i x).bench.bankFull = s.bench.bankFull := rfl
@[simp] theorem setTxn_bench_marks (s : State) (i : Nat) (x : Txn) : (s.setTxn i x).bench.marks = s.bench.marks := rfl
@[simp] theorem setTxn_bench_epochs (s : State) (i : Nat) (x : Txn) : (s.setTxn i x).bench.epochs = s.bench.epochs := rfl
@[simp] theorem setTxn_bench_refused (s : State) (i : Nat) (x : Txn) : (s.setTxn i x).bench.refused = s.bench.refused := rfl
@[simp] theorem setTxn_bench_busy (s : State) (i : Nat) (x : Txn) : (s.setTxn i x).bench.busy = s.bench.busy := rfl
@[simp] theorem setTxn_bench_exchanged (s : State) (i : Nat) (x : Txn) : (s.setTxn i x).bench.exchanged = s.bench.exchanged := rfl

/-! ### setUnit -/

@[simp] theorem setUnit_member (s : State) (t u : Nat) (x : UnitSt) : (s.setUnit t u x).member = s.member := rfl
@[simp] theorem setUnit_grade (s : State) (t u : Nat) (x : UnitSt) : (s.setUnit t u x).grade = s.grade := rfl
@[simp] theorem setUnit_now (s : State) (t u : Nat) (x : UnitSt) : (s.setUnit t u x).now = s.now := rfl
@[simp] theorem setUnit_regs (s : State) (t u : Nat) (x : UnitSt) : (s.setUnit t u x).regs = s.regs := rfl
@[simp] theorem setUnit_dram (s : State) (t u : Nat) (x : UnitSt) : (s.setUnit t u x).dram = s.dram := rfl
@[simp] theorem setUnit_writes (s : State) (t u : Nat) (x : UnitSt) : (s.setUnit t u x).writes = s.writes := rfl
@[simp] theorem setUnit_freeCtr (s : State) (t u : Nat) (x : UnitSt) : (s.setUnit t u x).freeCtr = s.freeCtr := rfl
@[simp] theorem setUnit_snaps (s : State) (t u : Nat) (x : UnitSt) : (s.setUnit t u x).snaps = s.snaps := rfl
@[simp] theorem setUnit_held (s : State) (t u : Nat) (x : UnitSt) : (s.setUnit t u x).held = s.held := rfl
@[simp] theorem setUnit_answers (s : State) (t u : Nat) (x : UnitSt) : (s.setUnit t u x).answers = s.answers := rfl
@[simp] theorem setUnit_seam (s : State) (t u : Nat) (x : UnitSt) : (s.setUnit t u x).seam = s.seam := rfl
@[simp] theorem setUnit_core (s : State) (t u : Nat) (x : UnitSt) : (s.setUnit t u x).core = s.core := rfl
@[simp] theorem setUnit_time (s : State) (t u : Nat) (x : UnitSt) : (s.setUnit t u x).time = s.time := rfl
@[simp] theorem setUnit_lanes (s : State) (t u : Nat) (x : UnitSt) : (s.setUnit t u x).lanes = s.lanes := rfl
@[simp] theorem setUnit_pins (s : State) (t u : Nat) (x : UnitSt) : (s.setUnit t u x).pins = s.pins := rfl
@[simp] theorem setUnit_adit (s : State) (t u : Nat) (x : UnitSt) : (s.setUnit t u x).adit = s.adit := rfl
@[simp] theorem setUnit_pix (s : State) (t u : Nat) (x : UnitSt) : (s.setUnit t u x).pix = s.pix := rfl
@[simp] theorem setUnit_store (s : State) (t u : Nat) (x : UnitSt) : (s.setUnit t u x).store = s.store := rfl
@[simp] theorem setUnit_hevc (s : State) (t u : Nat) (x : UnitSt) : (s.setUnit t u x).hevc = s.hevc := rfl
@[simp] theorem setUnit_lpl (s : State) (t u : Nat) (x : UnitSt) : (s.setUnit t u x).lpl = s.lpl := rfl
@[simp] theorem setUnit_mags (s : State) (t u : Nat) (x : UnitSt) : (s.setUnit t u x).mags = s.mags := rfl
@[simp] theorem setUnit_host (s : State) (t u : Nat) (x : UnitSt) : (s.setUnit t u x).host = s.host := rfl
@[simp] theorem setUnit_mem (s : State) (t u : Nat) (x : UnitSt) : (s.setUnit t u x).mem = s.mem := rfl
@[simp] theorem setUnit_pos (s : State) (t u : Nat) (x : UnitSt) : (s.setUnit t u x).pos = s.pos := rfl
@[simp] theorem setUnit_audio (s : State) (t u : Nat) (x : UnitSt) : (s.setUnit t u x).audio = s.audio := rfl
@[simp] theorem setUnit_pwr (s : State) (t u : Nat) (x : UnitSt) : (s.setUnit t u x).pwr = s.pwr := rfl
@[simp] theorem setUnit_evt (s : State) (t u : Nat) (x : UnitSt) : (s.setUnit t u x).evt = s.evt := rfl
@[simp] theorem setUnit_boot (s : State) (t u : Nat) (x : UnitSt) : (s.setUnit t u x).boot = s.boot := rfl
@[simp] theorem setUnit_pending (s : State) (t u : Nat) (x : UnitSt) : (s.setUnit t u x).pending = s.pending := rfl
@[simp] theorem setUnit_bench_txns (s : State) (t u : Nat) (x : UnitSt) : (s.setUnit t u x).bench.txns = s.bench.txns := rfl
@[simp] theorem setUnit_bench_defView (s : State) (t u : Nat) (x : UnitSt) : (s.setUnit t u x).bench.defView = s.bench.defView := rfl
@[simp] theorem setUnit_bench_bankFull (s : State) (t u : Nat) (x : UnitSt) : (s.setUnit t u x).bench.bankFull = s.bench.bankFull := rfl
@[simp] theorem setUnit_bench_marks (s : State) (t u : Nat) (x : UnitSt) : (s.setUnit t u x).bench.marks = s.bench.marks := rfl
@[simp] theorem setUnit_bench_epochs (s : State) (t u : Nat) (x : UnitSt) : (s.setUnit t u x).bench.epochs = s.bench.epochs := rfl
@[simp] theorem setUnit_bench_refused (s : State) (t u : Nat) (x : UnitSt) : (s.setUnit t u x).bench.refused = s.bench.refused := rfl
@[simp] theorem setUnit_bench_busy (s : State) (t u : Nat) (x : UnitSt) : (s.setUnit t u x).bench.busy = s.bench.busy := rfl
@[simp] theorem setUnit_bench_exchanged (s : State) (t u : Nat) (x : UnitSt) : (s.setUnit t u x).bench.exchanged = s.bench.exchanged := rfl

end Sys2Proof.Machine
end

