-- ==== Sys2Proof/Laws/Units.lean ====
section
/-!
SUPPORT. What the state keeps by tile and number reads as what was last written to it, and a write leaves every other entry.
-/

namespace Sys2Proof.Machine

/-- Keys of items of tiles are different for different tiles and items. -/
theorem tk_ne {t i u j : Nat} (hi : i < 0x100000) (hj : j < 0x100000) (h : (t, i) ≠ (u, j)) : tk t i ≠ tk u j := by
  unfold tk
  intro e
  apply h
  have h1 : t = u := by omega
  have h2 : i = j := by omega
  rw [h1, h2]

@[simp] theorem adStore_setAdStore_same (s : State) (t p : Nat) (l : List Item) : (s.setAdStore t p l).adStore t p = l := by
  simp [State.adStore, State.setAdStore]

theorem adStore_setAdStore_ne (s : State) (t p : Nat) (l : List Item) (t' p' : Nat) (hk : tk t p ≠ tk t' p') :
    (s.setAdStore t p l).adStore t' p' = s.adStore t' p' := smGet_smPut_ne _ _ _ _ hk

@[simp] theorem aud_setAud_same (s : State) (ch : Nat) (x : AudCh) : (s.setAud ch x).aud ch = x := by
  simp [State.aud, State.setAud]

theorem aud_setAud_ne (s : State) (ch : Nat) (x : AudCh) (ch' : Nat) (hk : ch ≠ ch') :
    (s.setAud ch x).aud ch' = s.aud ch' := smGet_smPut_ne _ _ _ _ hk

@[simp] theorem bankWritten_setBank_same (s : State) (t b : Nat) (v : Bool) : (s.setBank t b v).bankWritten t b = v := by
  simp [State.bankWritten, State.setBank]

theorem bankWritten_setBank_ne (s : State) (t b : Nat) (v : Bool) (t' b' : Nat) (hk : tk t b ≠ tk t' b') :
    (s.setBank t b v).bankWritten t' b' = s.bankWritten t' b' := smGet_smPut_ne _ _ _ _ hk

@[simp] theorem bur_setBur_same (s : State) (t : Nat) (b : Burst) : (s.setBur t b).bur t = b := by
  simp [State.bur, State.setBur]

theorem bur_setBur_ne (s : State) (t : Nat) (b : Burst) (t' : Nat) (hk : t ≠ t') :
    (s.setBur t b).bur t' = s.bur t' := smGet_smPut_ne _ _ _ _ hk

@[simp] theorem secBusy_setBusy_same (s : State) (t u sec : Nat) (b : Bool) : (s.setBusy t u sec b).secBusy t u sec = b := by
  simp [State.secBusy, State.setBusy]

theorem secBusy_setBusy_ne (s : State) (t u sec : Nat) (b : Bool) (t' u' sec' : Nat) (hk : secKey t u sec ≠ secKey t' u' sec') :
    (s.setBusy t u sec b).secBusy t' u' sec' = s.secBusy t' u' sec' := smGet_smPut_ne _ _ _ _ hk

@[simp] theorem cap_setCap_same (s : State) (k : Nat) (c : CapUnit) : (s.setCap k c).cap k = c := by
  simp [State.cap, State.setCap]

theorem cap_setCap_ne (s : State) (k : Nat) (c : CapUnit) (k' : Nat) (hk : k ≠ k') :
    (s.setCap k c).cap k' = s.cap k' := smGet_smPut_ne _ _ _ _ hk

@[simp] theorem chan_setChan_same (s : State) (t n : Nat) (c : Chan) : (s.setChan t n c).chan t n = c := by
  simp [State.chan, State.setChan]

theorem chan_setChan_ne (s : State) (t n : Nat) (c : Chan) (t' n' : Nat) (hk : tk t n ≠ tk t' n') :
    (s.setChan t n c).chan t' n' = s.chan t' n' := smGet_smPut_ne _ _ _ _ hk

@[simp] theorem crew_setCrew_same (s : State) (t c : Nat) (x : Crew) : (s.setCrew t c x).crew t c = x := by
  simp [State.crew, State.setCrew]

theorem crew_setCrew_ne (s : State) (t c : Nat) (x : Crew) (t' c' : Nat) (hk : tk t c ≠ tk t' c') :
    (s.setCrew t c x).crew t' c' = s.crew t' c' := smGet_smPut_ne _ _ _ _ hk

@[simp] theorem crj_setCrj_same (s : State) (t j : Nat) (x : CrJob) : (s.setCrj t j x).crj t j = x := by
  simp [State.crj, State.setCrj]

theorem crj_setCrj_ne (s : State) (t j : Nat) (x : CrJob) (t' j' : Nat) (hk : tk t j ≠ tk t' j') :
    (s.setCrj t j x).crj t' j' = s.crj t' j' := smGet_smPut_ne _ _ _ _ hk

@[simp] theorem crs_setCrs_same (s : State) (t k : Nat) (x : CrStream) : (s.setCrs t k x).crs t k = x := by
  simp [State.crs, State.setCrs]

theorem crs_setCrs_ne (s : State) (t k : Nat) (x : CrStream) (t' k' : Nat) (hk : tk t k ≠ tk t' k') :
    (s.setCrs t k x).crs t' k' = s.crs t' k' := smGet_smPut_ne _ _ _ _ hk

@[simp] theorem dec_setDec_same (s : State) (h c : Nat) (x : DecCtx) : (s.setDec h c x).dec h c = x := by
  simp [State.dec, State.setDec]

theorem dec_setDec_ne (s : State) (h c : Nat) (x : DecCtx) (h' c' : Nat) (hk : tk h c ≠ tk h' c') :
    (s.setDec h c x).dec h' c' = s.dec h' c' := smGet_smPut_ne _ _ _ _ hk

@[simp] theorem dev_setDev_same (s : State) (t n : Nat) (c : DevCtx) : (s.setDev t n c).dev t n = c := by
  simp [State.dev, State.setDev]

theorem dev_setDev_ne (s : State) (t n : Nat) (c : DevCtx) (t' n' : Nat) (hk : tk t n ≠ tk t' n') :
    (s.setDev t n c).dev t' n' = s.dev t' n' := smGet_smPut_ne _ _ _ _ hk

@[simp] theorem discarding_setDiscard_same (s : State) (t x src : Nat) (b : Bool) : (s.setDiscard t x src b).discarding t x src = b := by
  simp [State.discarding, State.setDiscard]

theorem discarding_setDiscard_ne (s : State) (t x src : Nat) (b : Bool) (t' x' src' : Nat) (hk : xkey t x src ≠ xkey t' x' src') :
    (s.setDiscard t x src b).discarding t' x' src' = s.discarding t' x' src' := smGet_smPut_ne _ _ _ _ hk

@[simp] theorem dma_setDma_same (s : State) (t : Nat) (d : DmaSt) : (s.setDma t d).dma t = d := by
  simp [State.dma, State.setDma]

theorem dma_setDma_ne (s : State) (t : Nat) (d : DmaSt) (t' : Nat) (hk : t ≠ t') :
    (s.setDma t d).dma t' = s.dma t' := smGet_smPut_ne _ _ _ _ hk

@[simp] theorem enc_setEnc_same (s : State) (h c : Nat) (x : EncCtx) : (s.setEnc h c x).enc h c = x := by
  simp [State.enc, State.setEnc]

theorem enc_setEnc_ne (s : State) (h c : Nat) (x : EncCtx) (h' c' : Nat) (hk : tk h c ≠ tk h' c') :
    (s.setEnc h c x).enc h' c' = s.enc h' c' := smGet_smPut_ne _ _ _ _ hk

@[simp] theorem geyTgt_setGeyTgt_same (s : State) (t g : Nat) (x : GeyTgt) : (s.setGeyTgt t g x).geyTgt t g = x := by
  simp [State.geyTgt, State.setGeyTgt]

theorem geyTgt_setGeyTgt_ne (s : State) (t g : Nat) (x : GeyTgt) (t' g' : Nat) (hk : tk t g ≠ tk t' g') :
    (s.setGeyTgt t g x).geyTgt t' g' = s.geyTgt t' g' := smGet_smPut_ne _ _ _ _ hk

@[simp] theorem i2cQ_setI2cQ_same (s : State) (t p : Nat) (q : SerialSt) : (s.setI2cQ t p q).i2cQ t p = q := by
  simp [State.i2cQ, State.setI2cQ]

theorem i2cQ_setI2cQ_ne (s : State) (t p : Nat) (q : SerialSt) (t' p' : Nat) (hk : tk t p ≠ tk t' p') :
    (s.setI2cQ t p q).i2cQ t' p' = s.i2cQ t' p' := smGet_smPut_ne _ _ _ _ hk

@[simp] theorem lane_setLane_same (s : State) (t l : Nat) (x : LaneSt) : (s.setLane t l x).lane t l = x := by
  simp [State.lane, State.setLane]

theorem lane_setLane_ne (s : State) (t l : Nat) (x : LaneSt) (t' l' : Nat) (hk : tk t l ≠ tk t' l') :
    (s.setLane t l x).lane t' l' = s.lane t' l' := smGet_smPut_ne _ _ _ _ hk

@[simp] theorem link_setLink_same (s : State) (t l : Nat) (x : Lpl) : (s.setLink t l x).link t l = x := by
  simp [State.link, State.setLink]

theorem link_setLink_ne (s : State) (t l : Nat) (x : Lpl) (t' l' : Nat) (hk : tk t l ≠ tk t' l') :
    (s.setLink t l x).link t' l' = s.link t' l' := smGet_smPut_ne _ _ _ _ hk

@[simp] theorem mcChan_setMcChan_same (s : State) (t c : Nat) (x : McChan) : (s.setMcChan t c x).mcChan t c = x := by
  simp [State.mcChan, State.setMcChan]

theorem mcChan_setMcChan_ne (s : State) (t c : Nat) (x : McChan) (t' c' : Nat) (hk : tk t c ≠ tk t' c') :
    (s.setMcChan t c x).mcChan t' c' = s.mcChan t' c' := smGet_smPut_ne _ _ _ _ hk

@[simp] theorem occ_setOcc_same (s : State) (t id : Nat) (o : Occ) : (s.setOcc t id o).occ t id = o := by
  simp [State.occ, State.setOcc]

theorem occ_setOcc_ne (s : State) (t id : Nat) (o : Occ) (t' id' : Nat) (hk : okey t id ≠ okey t' id') :
    (s.setOcc t id o).occ t' id' = s.occ t' id' := smGet_smPut_ne _ _ _ _ hk

@[simp] theorem out_setOut_same (s : State) (t c : Nat) (x : OutCtx) : (s.setOut t c x).out t c = x := by
  simp [State.out, State.setOut]

theorem out_setOut_ne (s : State) (t c : Nat) (x : OutCtx) (t' c' : Nat) (hk : tk t c ≠ tk t' c') :
    (s.setOut t c x).out t' c' = s.out t' c' := smGet_smPut_ne _ _ _ _ hk

@[simp] theorem port_setPort_same (s : State) (t p : Nat) (x : AdPort) : (s.setPort t p x).port t p = x := by
  simp [State.port, State.setPort]

theorem port_setPort_ne (s : State) (t p : Nat) (x : AdPort) (t' p' : Nat) (hk : tk t p ≠ tk t' p') :
    (s.setPort t p x).port t' p' = s.port t' p' := smGet_smPut_ne _ _ _ _ hk

@[simp] theorem posCh_setPosCh_same (s : State) (c : Nat) (x : PosCh) : (s.setPosCh c x).posCh c = x := by
  simp [State.posCh, State.setPosCh]

theorem posCh_setPosCh_ne (s : State) (c : Nat) (x : PosCh) (c' : Nat) (hk : c ≠ c') :
    (s.setPosCh c x).posCh c' = s.posCh c' := smGet_smPut_ne _ _ _ _ hk

@[simp] theorem raw_setRaw_same (s : State) (t k : Nat) (c : RawCtx) : (s.setRaw t k c).raw t k = c := by
  simp [State.raw, State.setRaw]

theorem raw_setRaw_ne (s : State) (t k : Nat) (c : RawCtx) (t' k' : Nat) (hk : tk t k ≠ tk t' k') :
    (s.setRaw t k c).raw t' k' = s.raw t' k' := smGet_smPut_ne _ _ _ _ hk

@[simp] theorem spiQ_setSpiQ_same (s : State) (t p : Nat) (q : SerialSt) : (s.setSpiQ t p q).spiQ t p = q := by
  simp [State.spiQ, State.setSpiQ]

theorem spiQ_setSpiQ_ne (s : State) (t p : Nat) (q : SerialSt) (t' p' : Nat) (hk : tk t p ≠ tk t' p') :
    (s.setSpiQ t p q).spiQ t' p' = s.spiQ t' p' := smGet_smPut_ne _ _ _ _ hk

@[simp] theorem steer_setSteer_same (s : State) (n : Nat) (c : Steer) : (s.setSteer n c).steer n = c := by
  simp [State.steer, State.setSteer]

theorem steer_setSteer_ne (s : State) (n : Nat) (c : Steer) (n' : Nat) (hk : n ≠ n') :
    (s.setSteer n c).steer n' = s.steer n' := smGet_smPut_ne _ _ _ _ hk

@[simp] theorem take_setTake_same (s : State) (k : Nat) (x : Take) : (s.setTake k x).take k = x := by
  simp [State.take, State.setTake]

theorem take_setTake_ne (s : State) (k : Nat) (x : Take) (k' : Nat) (hk : k ≠ k') :
    (s.setTake k x).take k' = s.take k' := smGet_smPut_ne _ _ _ _ hk

@[simp] theorem tcmMarked_setTcmMark_same (s : State) (t w : Nat) (b : Bool) : (s.setTcmMark t w b).tcmMarked t w = b := by
  simp [State.tcmMarked, State.setTcmMark]

theorem tcmMarked_setTcmMark_ne (s : State) (t w : Nat) (b : Bool) (t' w' : Nat) (hk : tk t w ≠ tk t' w') :
    (s.setTcmMark t w b).tcmMarked t' w' = s.tcmMarked t' w' := smGet_smPut_ne _ _ _ _ hk

@[simp] theorem thSite_setThSite_same (s : State) (t k : Nat) (x : ThSite) : (s.setThSite t k x).thSite t k = x := by
  simp [State.thSite, State.setThSite]

theorem thSite_setThSite_ne (s : State) (t k : Nat) (x : ThSite) (t' k' : Nat) (hk : tk t k ≠ tk t' k') :
    (s.setThSite t k x).thSite t' k' = s.thSite t' k' := smGet_smPut_ne _ _ _ _ hk

@[simp] theorem txn_setTxn_same (s : State) (i : Nat) (x : Txn) : (s.setTxn i x).txn i = x := by
  simp [State.txn, State.setTxn]

theorem txn_setTxn_ne (s : State) (i : Nat) (x : Txn) (i' : Nat) (hk : i ≠ i') :
    (s.setTxn i x).txn i' = s.txn i' := smGet_smPut_ne _ _ _ _ hk

@[simp] theorem unit_setUnit_same (s : State) (t u : Nat) (x : UnitSt) : (s.setUnit t u x).unit t u = x := by
  simp [State.unit, State.setUnit]

theorem unit_setUnit_ne (s : State) (t u : Nat) (x : UnitSt) (t' u' : Nat) (hk : tk t u ≠ tk t' u') :
    (s.setUnit t u x).unit t' u' = s.unit t' u' := smGet_smPut_ne _ _ _ _ hk

end Sys2Proof.Machine
end

