-- ==== Sys2Proof/Tests/Slice0.lean ====
section
/-!
SUPPORT. Tests of the model: terms that each check of well-formedness refuses, the worked examples that the spec gives, and for every
statement a state and operands that meet its hypotheses, one conjunct or theorem for each of its clauses that has hypotheses.
-/

namespace Sys2Proof.Tests

open Sys2Proof.Machine

set_option maxRecDepth 100000

/-! ### Well-formed commands: a term that each check refuses, and one that it takes -/

theorem test_wf_tile : (Instr.plimTick).wf = true ∧ (Instr.spoilRootClear 7).wf = true ∧ (Instr.spoilRootClear 8).wf = false := by decide
theorem test_wf_who : (Instr.registerWrite 64 0 0 0).wf = true ∧ (Instr.registerWrite 65 0 0 0).wf = false := by decide
theorem test_wf_off : (Instr.registerWrite 0 0 0xFFFFFC 0).wf = true ∧ (Instr.registerWrite 0 0 0x1000000 0).wf = false := by decide
theorem test_wf_word : (Instr.registerWrite 0 0 0 0xFFFFFFFF).wf = true ∧ (Instr.registerWrite 0 0 0 0x100000000).wf = false := by decide
theorem test_wf_chan : (Instr.timeChangeApply 3).wf = true ∧ (Instr.timeChangeApply 4).wf = false := by decide
theorem test_wf_geyser : (Instr.geyserFire 0 31).wf = true ∧ (Instr.geyserFire 0 32).wf = false := by decide
theorem test_wf_capture : (Instr.captureEdge 5 true).wf = true ∧ (Instr.captureEdge 6 true).wf = false := by decide
theorem test_wf_unit : (Instr.unitArm 0 24).wf = true ∧ (Instr.unitArm 0 25).wf = false := by decide
theorem test_wf_section : (Instr.sectionExchange 0 24 31).wf = true ∧ (Instr.sectionExchange 0 24 32).wf = false := by decide
theorem test_wf_txn : (Instr.txnPrepareReceive 15 0).wf = true ∧ (Instr.txnPrepareReceive 16 0).wf = false := by decide
theorem test_wf_lane : (Instr.laneCtlWrite 0 23 0).wf = true ∧ (Instr.laneCtlWrite 0 24 0).wf = false := by decide
theorem test_wf_link : (Instr.linkWake 0 1).wf = true ∧ (Instr.linkWake 0 2).wf = false := by decide
theorem test_wf_four : (Instr.porNRelease 3).wf = true ∧ (Instr.porNRelease 4).wf = false := by decide
theorem test_wf_eight : (Instr.bwr 0 7).wf = true ∧ (Instr.bwr 0 8).wf = false := by decide
theorem test_wf_sixteen : (Instr.audioZcTimeout 15).wf = true ∧ (Instr.audioZcTimeout 16).wf = false := by decide
theorem test_wf_side : (Instr.haloReceive 0 1 0 1).wf = true ∧ (Instr.haloReceive 0 1 0 2).wf = false := by decide
theorem test_wf_point : (Instr.haloReceive 0 3 0 1).wf = true ∧ (Instr.haloReceive 0 0 0 1).wf = false ∧ (Instr.haloReceive 0 4 0 1).wf = false := by decide
theorem test_wf_tag : (Instr.regRead 255).wf = true ∧ (Instr.regRead 256).wf = false := by decide
theorem test_wf_bank : (Instr.mcPageIdle 0 0 31).wf = true ∧ (Instr.mcPageIdle 0 0 32).wf = false := by decide
theorem test_wf_event : (Instr.eventOccurrence 0 319).wf = true ∧ (Instr.eventOccurrence 0 320).wf = false := by decide
theorem test_wf_group : (Instr.evtInjWrite 0 9 0).wf = true ∧ (Instr.evtInjWrite 0 10 0).wf = false := by decide
theorem test_wf_crossing : (Instr.xingFault 0 8 0).wf = true ∧ (Instr.xingFault 0 9 0).wf = false := by decide

/-! ### States for the witnesses -/

/-- Tiles 0 and 1 in RUN with every island up. -/
def allUp : State :=
  (((State.reset.setF 0 ISL_STAT_PGOOD 255).setF 1 ISL_STAT_PGOOD 255).setF 0 TILE_STATE_STATE 1).setF 1 TILE_STATE_STATE 1

/-- The same with POR_N low, and with the clock lost. -/
def porLow : State := { allUp with boot.porLow := true }

def noClock : State := { allUp with time.clockLost := true }

/-- Tiles 0 and 1 with a Seam port between them UP and routed both ways. -/
def joined : State :=
  (((allUp.setReg 0 SEAM_ROUTE 0x90).setReg 1 SEAM_ROUTE 8).setB 0 (SEAM_PORT_STAT_UP 1) true).setB 1 (SEAM_PORT_STAT_UP 0) true

theorem smLook_absent {α : Type} (m : SMap α) (k : Nat) (h : ∀ e ∈ m, e.1 ≠ k) : smLook m k = none := by
  induction m with
  | nil => rfl
  | cons e m ih =>
    have he : e.1 ≠ k := h e (by simp)
    simp only [smLook, if_neg he]
    exact ih fun x hx => h x (by simp [hx])

/-- No word holds an error, no write waits and no injector is armed: what has to be seen of a concrete state. -/
theorem clean_of (s : State) (h1 : s.mem.ecc = []) (h2 : s.mem.chans = []) (h3 : (s.regs.all fun e => e.1 % 0x1000000 != INJ_CTL) = true) :
    s.CleanMem := by
  refine ⟨fun u a => by rw [State.eccErr, h1]; rfl, fun u c => by rw [State.mcChan, h2]; rfl, fun u => ?_⟩
  have hn : smLook s.regs (regKey u INJ_CTL) = none := by
    refine smLook_absent _ _ fun e he hk => ?_
    have := List.all_eq_true.mp h3 e he
    rw [hk] at this
    have h5 : regKey u INJ_CTL % 0x1000000 = INJ_CTL := by unfold regKey INJ_CTL; omega
    simp [h5] at this
  have hw : s.word u INJ_CTL = 0 := by
    unfold State.word smGet
    rw [hn]
    rfl
  simp [State.on, State.f, State.reg, INJ_CTL_ARMED, hw, bits]

theorem failed_of (s : State) (h : (s.regs.all fun e => (List.range 8).all fun c => e.1 % 0x1000000 != MCC_STAT c) = true) (u a : Nat) :
    s.failedAt u a = false := by
  have hb (x k : Nat) : bits x k 3 < 2 ^ 3 := Nat.mod_lt _ (by decide)
  have hc : s.chanOf u a < 8 := by
    unfold State.chanOf
    split
    · exact Nat.xor_lt_two_pow (Nat.xor_lt_two_pow (hb ..) (hb ..)) (hb ..)
    · exact hb ..
  generalize hk : s.chanOf u a = c at hc
  have hn : smLook s.regs (regKey u (MCC_STAT c)) = none := by
    refine smLook_absent _ _ fun e he hx => ?_
    have h1 := List.all_eq_true.mp (List.all_eq_true.mp h e he) c (by simpa using hc)
    have h5 : regKey u (MCC_STAT c) % 0x1000000 = MCC_STAT c := by unfold regKey MCC_STAT; omega
    rw [hx, h5] at h1
    simp at h1
  have hr : resetReg s.member s.grade u (MCC_STAT c) = 8192 := by
    match c, hc with
    | 0, _ | 1, _ | 2, _ | 3, _ | 4, _ | 5, _ | 6, _ | 7, _ => rfl
  have hw : s.word u (MCC_STAT c) = 8192 := by
    unfold State.word smGet
    rw [hn, hr]
    rfl
  simp [State.failedAt, hk, State.f, State.reg, MCC_STAT_STATE, hw, bits]

/-! ### Witnesses: the general statements, start-up, events -/

theorem witness_StepRunsFrontCommand : ({ allUp with pending := [.plimTick, .audioStop] } : State).pending = .plimTick :: [.audioStop] ∧
    allUp.pending = [] := ⟨rfl, rfl⟩

theorem witness_EveryStepKeepsInvariant :
    ({ allUp with pending := [.audioStop] } : State).Inv ∧ ∃ s', step { allUp with pending := [.audioStop] } = .next s' :=
  ⟨⟨rfl, rfl⟩, ⟨_, rfl⟩⟩

theorem witness_OnlyUndefinedPorWidthStops :
    (∀ w, Instr.porNAssert 10000 = .porNAssert w → w < 1000 ∨ 10000 ≤ w) ∧ (∀ w, Instr.plimTick = .porNAssert w → w < 1000 ∨ 10000 ≤ w) ∧
    (1000 ≤ 1000 ∧ 1000 < 10000) ∧ (1000 ≤ 9999 ∧ 9999 < 10000) := by
  refine ⟨fun w h => ?_, fun w h => ?_, by decide, by decide⟩
  · cases h
    decide
  · cases h

theorem witness_CommandEndStoresAndNothingElse : allUp.Quiet := ⟨rfl, rfl, rfl, rfl, rfl, rfl, rfl⟩

theorem witness_PorResetKeepsOtpAndMram : 10000 ≤ 10000 ∧ 0 < 1000 ∧ 999 < 1000 ∧ (1000 ≤ 1000 ∧ 1000 < 10000) := by decide

/-- Start-up at a step. -/
def atStep (n : Nat) : State := allUp.setF 0 BOOT_STAT_STEP n

theorem witness_StartupFirstStepsComplete :
    porLow.boot.porLow = true ∧ allUp.boot.porLow = false ∧
    (let s := allUp.setF 0 BOOT_STAT_BOOTSEL 1; s.holds = false ∧ s.boot.romRunning = false ∧ s.f 0 BOOT_STAT_BOOTSEL = 1) ∧
    (let s : State := { atStep 3 with boot.imgOk := true }
     s.holds = false ∧ s.f 0 BOOT_STAT_STEP = 3 ∧ s.boot.imgOk = true ∧ s.boot.runTag = none) ∧
    ((atStep 4).holds = false ∧ (atStep 4).f 0 BOOT_STAT_STEP = 4 ∧ ∀ x ∈ [((true, 0, 0) : Bool × Nat × Nat)], x.1 = true ∧ x.2.1 < 3) := by
  decide

theorem witness_StartupLastStepsComplete :
    ((atStep 5).holds = false ∧ (atStep 5).f 0 BOOT_STAT_STEP = 5 ∧ (atStep 5).boot.stuck = false) ∧
    ((atStep 6).holds = false ∧ (atStep 6).f 0 BOOT_STAT_STEP = 6) ∧ ((atStep 7).holds = false ∧ (atStep 7).f 0 BOOT_STAT_STEP = 7) := by decide

theorem witness_OccurrenceSetsStatusAndCounts :
    (allUp.up 1 0 = true ∧ 319 < 320 ∧ 319 ≠ 309) ∧ (allUp.up 0 0 = true ∧ 9 < 10 ∧ 31 < 32 ∧ 32 * 9 + 31 ≠ 309) ∧ allUp.up 0 0 = true := by decide

theorem witness_EventFabricCommandsComplete :
    (allUp.up 1 0 = true ∧ 9 < 10) ∧ (allUp.up 0 0 = true ∧ 319 < 320) ∧
    (let h : HeldOcc := { tile := 1, id := 99, inj := false, count := 1, n := 0, expiry := 800 }
     let s : State := { allUp with now := 800, evt.heldOccs := [h] }
     s.live 1 0 = true ∧ s.evt.heldOccs.find? (fun h => h.tile = 1 ∧ h.id = 99) = some h ∧ h.expiry ≤ s.now) ∧
    (let s := allUp.setOcc 1 234 { last := some 7 }
     s.live 0 0 = true ∧ s.has 1 = true ∧ 0 ≠ 1 ∧ (s.occ 1 234).last = some 7) := by decide

theorem witness_IslandWriteNeverClearsT0Ctl : allUp.up 0 0 = true ∧ allUp.up 1 0 = true := by decide

theorem witness_SeamCommandsComplete :
    (let s : State := { joined with time.stamps := smPut [] 1 [(4096, [{}, {}, {}, {}])] [] }
     s.live 1 7 = true ∧ s.seamTurn 1 = some 0 ∧ s.waitsAt 1 0 ≠ []) ∧
    (let s : State := { allUp with seam.flight := [{ hop := 1, port := 0, dst := 1, body := .fire 63 }] }
     s.live 1 7 = true ∧ s.seamTurn 1 = some 0 ∧ s.seam.flight = { hop := 1, port := 0, dst := 1, body := .fire 63 } :: [] ∧
     s.waitsAt 1 0 = [] ∧ smGet s.core.ctlBusy 1 false = false) ∧
    (let s := allUp.setB 0 (SEAM_PORT_STAT_UP 1) false
     s.live 0 7 = true ∧ 1 < 4 ∧ s.portUp 0 1 = false) ∧
    (let s : State := { allUp.setB 0 (SEAM_PORT_STAT_UP 1) false with seam.retraining := smPut [] (tk 0 1) true false }
     s.live 0 7 = true ∧ s.portUp 0 1 = false ∧ smGet s.seam.retraining (tk 0 1) false = true ∧ s.island (seamPartner s.member 0 1).1 7 = true) ∧
    (7 < Member.tiles8.tiles ∧ 3 < 4) := by decide

theorem witness_PortDownCrossingAbortComplete :
    (let s := allUp.setB 0 (SEAM_PORT_STAT_UP 1) true
     s.live 0 7 = true ∧ 1 < 4 ∧ s.portUp 0 1 = true ∧ s.run 0 = true) ∧
    (allUp.live 0 0 = true ∧ 8 < 9 ∧ 3 < 4 ∧ 6 < 7 ∧ 0 = 0 ∧ ((allUp.setPort 0 3 { frame := some {} }).port 0 3).frame = some {}) ∧
    (allUp.live 1 0 = true ∧ 20 < unitCount) ∧
    (let s : State := { allUp with evt.aborts := [(0, 16)] }
     s.live 0 0 = true ∧ s.evt.aborts = (0, 16) :: []) := by decide

theorem witness_RefclkLossAndRecovery :
    (allUp.holds = false ∧ allUp.time.clockLost = false ∧ 0 < allUp.tiles ∧ allUp.isolated 0 = false) ∧
    (let s : State := { noClock with now := recoveryTicks }
     s.holds = false ∧ s.time.clockLost = true ∧ s.time.goodFrom + recoveryTicks ≤ s.now) ∧
    (let s : State := { noClock with now := recoveryTicks - 1 }
     s.holds = false ∧ s.now < s.time.goodFrom + recoveryTicks) := by decide

/-- Tile 1 isolated. -/
def isolated1 : State := allUp.setF 1 TILE_STATE_STATE 2

theorem witness_SelfIsolationAndReadmission :
    (allUp.holds = false ∧ allUp.has 1 = true ∧ allUp.isolated 1 = false ∧ (allUp.setF 1 ISL_PWR_ON 1).f 1 ISL_PWR_ON ≠ 0) ∧
    (isolated1.live 0 0 = true ∧ isolated1.has 1 = true ∧ isolated1.isolated 1 = true) := by decide

theorem witness_IsolationLeadsToIsolated :
    allUp.live 0 0 = true ∧ allUp.has 7 = true ∧ allUp.isolated 7 = false ∧ allUp.up 0 0 = true := by decide

/-! ### Witnesses: time and geysers -/

theorem witness_TickAdvancesEveryChannel :
    allUp.holds = false ∧ allUp.time.clockLost = false ∧ (∀ n, n < 4 → (allUp.steer n).incs = [] ∧ (allUp.steer n).step = none) ∧
    ∀ t, t < allUp.tiles → ∀ n, n < 4 → (allUp.chan t n).ns < 1000000000 ∧ (allUp.chan t n).sec < 2 ^ 48 ∧ (allUp.chan t n).frac < 2 ^ 32 ∧
      (allUp.chan t n).inc < 2 ^ 36 := by decide

theorem witness_TickAdvancesEveryChannel_links : ∀ t, t < allUp.tiles → ∀ l, l < 2 → allUp.f t (PL_STAT_STATE l) ≠ 4 := by decide

theorem witness_TickAdvancesEveryChannel_idle : allUp.f 0 AUD_STAT_STATE = 0 ∧ allUp.pins.pdm.clk = false ∧ (allUp.now + 1) % 25 ≠ 0 := by decide

theorem witness_ChangesAndStampsComplete :
    (let s : State := { allUp.setSteer 3 { incs := [(400, nominalInc + 1)] } with now := 400 }
     3 < 4 ∧ (s.steer 3).incs = [(400, nominalInc + 1)] ∧ 400 ≤ s.now ∧ (s.steer 3).step = none) ∧
    (let s : State := { allUp with now := 4096 }
     s.live 0 0 = true ∧ s.now % 4096 = 0) ∧
    (let s : State := { joined with now := 4096 }
     s.now % 4096 = 0 ∧ 1 ≠ 0 ∧ s.run 1 = true ∧ s.seamWalk 8 0 1 = none) ∧
    (let s : State := { allUp with time.stamps := smPut [] 1 [(4096, [{}, {}, {}, {}])] [] }
     s.live 1 0 = true ∧ 1 ≠ 0 ∧ smGet s.time.stamps 1 [] = (4096, [{}, {}, {}, {}]) :: [] ∧ smGet s.time.holdRaised 1 false = false ∧
     ∀ g, g < 32 → s.on 1 (GY_CTL_ARMED g) = false) ∧
    (let s : State := { allUp with time.rttBusy := smPut [] 0 true false }
     s.live 0 0 = true ∧ smGet s.time.rttBusy 0 false = true) := by decide

theorem witness_CapturesComplete :
    (let s := (allUp.setB 0 (CAP_CTL_EN 4) true).setF 0 (CAP_CTL_EDGE 4) 2
     s.live 0 0 = true ∧ 4 < 5 ∧ s.on 0 (CAP_CTL_EN 4) = true ∧ s.f 0 (CAP_CTL_EDGE 4) = 2 ∧ (s.cap 4).queue.length < 4 ∧
     ∀ n, n < 4 → 0 < n → s.on 0 (TC_SERVO_EN n) = false) ∧
    (let s := (((({ allUp with now := 50000000 } : State).setB 0 (CAP_CTL_EN 5) true).setF 0 (TC_SERVO_SRC 3) 6).setB 0 (TC_SERVO_EN 3) true).setReg 0 (CAP_PER_HI 5) 1
     s.live 0 0 = true ∧ 5 < 6 ∧
     3 * s.capPeriod 5 ≤ 2 * (s.now - (s.cap 5).last) * nominalInc ∧ s.on 0 (CAP_CTL_EN 5) = true ∧ s.on 0 (CAP_STAT_LOST 5) = false ∧ s.f 0 (TC_SERVO_SRC 3) = 5 + 1 ∧
     s.on 0 (TC_SERVO_EN 3) = true) ∧
    (allUp.live 0 0 = true ∧ 0 < 6 ∧ 2 * (allUp.now - (allUp.cap 0).last) * nominalInc < 3 * allUp.capPeriod 0) := by decide

theorem witness_GeyserFiresOrIsSuppressed :
    (let s := allUp.setB 0 (GY_CTL_ARMED 31) true
     s.live 0 0 = true ∧ 31 < 32 ∧ s.on 0 (GY_CTL_ARMED 31) = true ∧ s.geyHold 0 = false ∧ 0 ≤ s.geyPast 0 31 ∧
     (s.geyTgt 0 31).last ≠ s.now + 1 ∧ s.geyPer 0 31 = 0 ∧ ¬ ((s.lateLimit 0 : Int) < s.geyPast 0 31)) ∧
    (let s := (((allUp.setB 0 (GY_CTL_ARMED 31) true).setB 0 (GY_CTL_LATE_MODE 31) true).setReg 0 LATE_LIMIT 0).setChan 0 0 { ns := 1 }
     s.live 0 0 = true ∧ s.on 0 (GY_CTL_ARMED 31) = true ∧ s.geyHold 0 = false ∧ (s.geyTgt 0 31).last ≠ s.now + 1 ∧ s.geyPer 0 31 = 0 ∧
     (s.lateLimit 0 : Int) < s.geyPast 0 31 ∧ s.on 0 (GY_CTL_LATE_MODE 31) = true) := by decide

theorem witness_TimeSteeringWritesComplete :
    (allUp.up 1 0 = true ∧ 9 < 10) ∧
    (allUp.holds = false ∧ 64 ≤ 64 ∧ regAt 1 0xFFFFFC = none ∧ inTables 0xFFFFFC = false ∧ unitAt 0xFFFFFC = none) ∧
    (let s := allUp.setSteer 3 { acc := nominalInc + 5368709 }
     s.up 0 0 = true ∧ 0 < 3 ∧ 3 < 4 ∧ s.heldHalf 0 (TC_INC_LO 3) = none ∧ s.holdover 3 = false ∧ s.on 0 (TC_SERVO_EN 3) = false ∧
     nominalInc ≤ 1 % 16 * 2 ^ 32 + (s.steer 3).acc % 2 ^ 32 + 5368709 ∧ 1 % 16 * 2 ^ 32 + (s.steer 3).acc % 2 ^ 32 ≤ nominalInc + 5368709) ∧
    (allUp.up 0 0 = true ∧ allUp.heldHalf 0 (TC_STEP_LO 3) = none ∧ allUp.holdover 3 = false ∧ (allUp.steer 3).step = none) ∧
    (let s := allUp.setF 0 (TC_SERVO_SRC 1) 1
     s.up 0 0 = true ∧ s.heldHalf 0 (TC_OFS_LO 1) = none ∧ s.f 0 (TC_SERVO_SRC 1) ≠ 0) ∧
    (let s := allUp.setB 0 (TC_SERVO_EN 1) true
     s.up 0 0 = true ∧ s.heldHalf 0 (TC_OFS_LO 1) = none ∧ s.f 0 (TC_SERVO_SRC 1) = 0 ∧ s.on 0 (TC_SERVO_EN 1) = true ∧
     s.holdover 1 = false ∧ s.on 0 (TC_STAT_SERVO_FROZEN 1) = false ∧
     absI (sx 64 (0 % 2 ^ 32 * 2 ^ 32 + s.reg 0 (TC_OFS_LO 1))) ≤ (s.reg 0 STEP_LIMIT * 2 ^ 32 : Nat)) := by decide

theorem witness_TimeRegisterWritesComplete :
    allUp.up 0 0 = true ∧ (allUp.heldHalf 0 LC0_RATE_LO = none ∧ (allUp.setB 0 LC0_CTL_REBASE false).on 0 LC0_CTL_REBASE = false) ∧
    (let s := allUp.setB 0 LC0_CTL_REBASE true; s.up 0 0 = true ∧ s.heldHalf 0 LC0_RATE_LO = none ∧ s.on 0 LC0_CTL_REBASE = true) ∧
    (let s := allUp.setGeyTgt 1 31 { n := 5 }
     s.up 1 0 = true ∧ 31 < 32 ∧ bit 1 0 = true ∧ bit 1 1 = false ∧ ∀ n, n < 4 → (s.chanPast 1 n (s.geyTgt 1 31) : Int) < 0) ∧
    (let s := [0, 1, 2, 3].foldl (fun (s : State) n => s.setChan 0 n { ns := 1 }) (allUp.setReg 0 LATE_LIMIT 0)
     s.up 0 0 = true ∧ s.geyHold 0 = false ∧ s.on 0 (GY_CTL_ARMED 31) = false ∧ bit 33 0 = true ∧ bit 33 1 = false ∧ bit 33 5 = true ∧
     s.geyPer 0 31 = 0 ∧ (s.geyTgt 0 31).last ≠ s.now + 1 ∧ ∀ n, n < 4 → (s.lateLimit 0 : Int) < s.chanPast 0 n (s.geyTgt 0 31)) ∧
    (bit 3 1 = true ∧ allUp.on 1 (GY_CTL_ARMED 31) = false ∧ allUp.heldHalf 1 (GY_TGT_LO 31) = none) ∧
    (let s := (allUp.setB 1 (GY_CTL_ARMED 31) true).setGeyTgt 1 31 { n := 5 }
     s.reg 1 (GY_TGT_LO 31) = 0 ∧ s.reg 1 (GY_TGT_FRAC 31) = 0 ∧ s.geyPast 1 31 < 0 ∧ (s.chanPast 1 (s.f 1 (GY_CTL_CHAN 31)) { n := 2 ^ 32, frac := 0, last := 0 } : Int) < 0) := by
  decide

theorem readable_of (s : State) (who t isl off : Nat)
    (h : (decide (who ≤ 64) && s.up t isl && s.denies who t off false == .ok && (smLook s.snaps (snapKey who t off)).isNone) = true) :
    s.Readable who t isl off := by
  simp only [Bool.and_eq_true, decide_eq_true_eq, beq_iff_eq, Option.isNone_iff_eq_none] at h
  exact ⟨h.1.1.1, h.1.1.2, h.1.2, h.2⟩

theorem witness_RecordReadsSnapshot :
    allUp.Readable 64 1 1 (ADIT_FSTAT 3) ∧ allUp.Readable 64 1 1 (RC_FCNT 3) ∧ allUp.Readable 0 1 1 (DV_FCNT 1) ∧ allUp.Readable 64 1 1 (OC_OFCNT 3) ∧
    allUp.Readable 0 1 2 (HE_FCNT 3) ∧ allUp.Readable 64 1 2 (HD_ERR 3) ∧ allUp.Readable 1 1 0 SPOIL_ROOT ∧
    (let s := allUp.setCap 5 { queue := [(1, 2, 3)] }; s.Readable 0 0 0 (CAP_FRAC 5) ∧ 1 < 2 ^ 48 ∧ 2 < 2 ^ 30 ∧ (s.cap 5).queue = (1, 2, 3) :: []) ∧
    (let s : State := { allUp with pos.caps := smPut [] 31 [9] [] }
     s.Readable 64 0 0 (CMP_CAP_LO 3 7) ∧ smGet s.pos.caps (8 * 3 + 7) [] = 9 :: []) :=
  ⟨readable_of _ _ _ _ _ (by decide), readable_of _ _ _ _ _ (by decide), readable_of _ _ _ _ _ (by decide), readable_of _ _ _ _ _ (by decide),
    readable_of _ _ _ _ _ (by decide), readable_of _ _ _ _ _ (by decide), readable_of _ _ _ _ _ (by decide),
    ⟨readable_of _ _ _ _ _ (by decide), by decide, by decide, by decide⟩, ⟨readable_of _ _ _ _ _ (by decide), by decide⟩⟩

/-! ### Witnesses: crews -/

/-- Crew 0 of tile 0 about to issue the word w. -/
def crewW (w : Nat) (x : Crew) : State := allUp.setCrew 0 0 { x with state := 1, fetch := [(x.pc, w)] }

/-- An instruction word by its fields (R70). -/
def word (op gd ga gb f : Nat) : Nat := op * 2 ^ 26 + gd * 2 ^ 21 + ga * 2 ^ 16 + gb * 2 ^ 11 + f

theorem crew_crewW (w : Nat) (x : Crew) : (crewW w x).crew 0 0 = { x with state := 1, fetch := [(x.pc, w)] } := by simp [crewW]

theorem issues_crewW (w : Nat) (x : Crew) (h : x.wait = none) : (crewW w x).Issues 0 0 w := by
  have l : (crewW w x).live 0 0 = true := by
    show allUp.live 0 0 = true
    decide
  refine ⟨?_, [], by rw [crew_crewW]⟩
  have b : smGet (crewW w x).core.ctlBusy 0 false = false := rfl
  simp [State.crewReady, l, b, crew_crewW, h]

/-- A crew with a handler, and g1 and g2 set. -/
def armed (a b : Nat) : Crew := { evec := 0x100, g := [(1, BitVec.ofNat 64 a), (2, BitVec.ofNat 64 b)] }

theorem witness_OprFunctionsGiveR73Results :
    (∀ w x, x.wait = none → (crewW w x).Issues 0 0 w) ∧
    (∀ f ∈ [0, 1, 2, 3, 4, 5, 8, 9, 10, 11, 0x10, 0x11, 0x12, 0x20, 0x21, 0x22, 0x30, 0x31, 0x32, 0x33, 0x40, 0x740],
      opOf (word 0 3 1 2 f) = 0 ∧ funcOf (word 0 3 1 2 f) = f) ∧
    (∀ f ∈ [0x14, 0x15, 0x16, 0x17], opOf (word 0 3 1 2 f) = 0 ∧ funcOf (word 0 3 1 2 f) = f ∧
      ((crewW (word 0 3 1 2 f) (armed 5 3)).crew 0 0).val (gbOf (word 0 3 1 2 f)) ≠ 0) ∧
    (∀ f ∈ [0x50, 0x51, 0x52, 0x58], opOf (word 0 3 1 0 f) = 0 ∧ funcOf (word 0 3 1 0 f) = f ∧ gbOf (word 0 3 1 0 f) = 0) ∧
    (let A := ((crewW (word 0 3 1 0 0x50) (armed 5 3)).crew 0 0).val (gaOf (word 0 3 1 0 0x50))
     61 ≤ 64 ∧ A.toNat < 2 ^ (64 - 61) ∧ 2 ^ (63 - 61) ≤ A.toNat ∧ A.toNat % 2 ^ 0 = 0 ∧ A.toNat % 2 ^ (0 + 1) ≠ 0) ∧
    (∀ f ∈ [0x50, 0x51, 0x52, 0x58], gbOf (word 0 3 1 2 f) ≠ 0 ∧
      ((crewW (word 0 3 1 2 f) (armed 5 3)).crew 0 0).evec ≠ 0 ∧ ((crewW (word 0 3 1 2 f) (armed 5 3)).crew 0 0).inexc = false) ∧
    (256 ≤ funcOf (word 0 3 1 2 0x101) ∧ funcOf (word 0 3 1 2 0x101) % 256 ≠ 0x40 ∧
      ((crewW (word 0 3 1 2 0x101) (armed 5 3)).crew 0 0).evec ≠ 0 ∧ ((crewW (word 0 3 1 2 0x101) (armed 5 3)).crew 0 0).inexc = false) :=
  ⟨issues_crewW, by decide, by decide, by decide, by decide, by decide, by decide⟩

theorem witness_CrewRegisterInstructionsComplete :
    (∀ w x, x.wait = none → (crewW w x).Issues 0 0 w) ∧
    (∀ op ∈ [1, 2, 3, 4], opOf (word op 3 1 0 7) = op) ∧
    (∀ k ∈ [0, 1, 2, 3], let w := word 5 3 1 0 (k * 64 + 63); opOf w = 5 ∧ bits w 8 8 = 0 ∧ bits w 6 2 = k) ∧
    (∀ op ∈ [6, 7, 8], opOf (word op 3 0 0 7) = op ∧ gaOf (word op 3 0 0 7) = 0) ∧
    (let w := word 9 7 1 2 5; opOf w = 9 ∧ bits w 24 2 = 0 ∧ bits w 3 8 = 0) ∧
    (let w := word 10 7 1 31 0x7FF; opOf w = 10 ∧ bits w 24 2 = 0) ∧
    (let w := word 11 7 2 3 0; opOf w = 11 ∧ bits w 24 2 = 0 ∧ bits w 19 2 = 0 ∧ bits w 14 2 = 0 ∧ bits w 3 8 = 0 ∧
      (5 ≤ bits w 0 3 → bits w 11 3 = 0) ∧ (6 ≤ bits w 0 3 → bits w 16 3 = 0)) :=
  ⟨issues_crewW, by decide, by decide, by decide, by decide, by decide, by decide⟩

theorem witness_CrewTcmAccessesComplete :
    (∀ w x, x.wait = none → (crewW w x).Issues 0 0 w) ∧
    (∀ q ∈ [(0x10, 1), (0x11, 1), (0x12, 2), (0x13, 2), (0x14, 4), (0x15, 4), (0x16, 8)],
      let w := word q.1 3 1 0 0; let s := crewW w (armed 0xFFFF8 0)
      opOf w = q.1 ∧ s.addrOf' 0 0 w % q.2 = 0 ∧ s.addrOf' 0 0 w < 0x100000 ∧
      smGet s.core.tcmParity (tk 0 ((tcmIndex (s.addrOf' 0 0 w)).getD 0)) 0 = 0 ∧ s.tcmMarked 0 ((tcmIndex (s.addrOf' 0 0 w)).getD 0) = false) ∧
    (∀ q ∈ [(0x12, 2), (0x13, 2), (0x14, 4), (0x15, 4), (0x16, 8), (0x19, 2), (0x1A, 4), (0x1B, 8)],
      let w := word q.1 3 1 0 0; let s := crewW w (armed 0x80001 0)
      opOf w = q.1 ∧ s.addrOf' 0 0 w % q.2 ≠ 0 ∧ (s.crew 0 0).evec ≠ 0 ∧ (s.crew 0 0).inexc = false) ∧
    (∀ q ∈ [(0x18, 1), (0x19, 2), (0x1A, 4), (0x1B, 8)],
      let w := word q.1 3 1 0 0; let s := crewW w (armed 0x80000 0)
      opOf w = q.1 ∧ s.addrOf' 0 0 w % q.2 = 0 ∧ s.addrOf' 0 0 w < 0x100000 ∧ s.on 0 SRAM_INJ_ARMED = false) ∧
    (∀ f ∈ [0, 1, 2, 3, 4, 8, 9, 10, 11, 12],
      let w := word 0x1C 3 1 2 f; let s := crewW w (armed 0x80000 7); let m := (s.crew 0 0).gr (gaOf w)
      opOf w = 0x1C ∧ funcOf w = f ∧ f < 16 ∧ f % 8 < 5 ∧ m % 8 = 0 ∧ m < 0x100000 ∧
      smGet s.core.tcmParity (tk 0 ((tcmIndex m).getD 0)) 0 = 0 ∧ s.tcmMarked 0 ((tcmIndex m).getD 0) = false ∧ s.on 0 SRAM_INJ_ARMED = false) :=
  ⟨issues_crewW, by decide, by decide, by decide, by decide⟩

theorem witness_CrewControlInstructionsComplete :
    (∀ w x, x.wait = none → (crewW w x).Issues 0 0 w) ∧
    (opOf (word 0x20 0 0 0 5) = 0x20 ∧ opOf (word 0x21 0 0 0 5) = 0x21) ∧
    (let w := word 0x22 3 1 0 0; opOf w = 0x22 ∧ (crewW w (armed 8 0)).addrOf' 0 0 w % 4 = 0 ∧ (crewW w (armed 6 0)).addrOf' 0 0 w % 4 ≠ 0 ∧
      (armed 6 0).evec ≠ 0 ∧ (armed 6 0).inexc = false) ∧
    (let w := word 0x3F 0 0 0 0xFF; opOf w = 0x3F ∧ subOf w = 0 ∧ gdOf w = 0 ∧ gaOf w = 0) ∧
    (let w := word 0x3F 0 0 0 0x100; opOf w = 0x3F ∧ subOf w = 1 ∧ gdOf w = 0 ∧ gaOf w = 0 ∧ imm8Of w = 0 ∧
      ((crewW w { armed 0 0 with inexc := true }).crew 0 0).inexc = true) ∧
    (let w := word 0x3F 3 0 0 0x206; opOf w = 0x3F ∧ subOf w = 2 ∧ gaOf w = 0 ∧ imm8Of w < 0x40 ∧
      (crewW w { armed 0 0 with escratch := 9 }).csrGet 0 0 (imm8Of w) = some 9) ∧
    (let w := word 0x3F 0 1 0 0x305; opOf w = 0x3F ∧ subOf w = 3 ∧ gdOf w = 0 ∧ imm8Of w = 5) ∧
    (let w := word 0x3F 0 1 0 0x306; opOf w = 0x3F ∧ subOf w = 3 ∧ gdOf w = 0 ∧ imm8Of w = 6) ∧
    (let w := word 0x3F 3 1 0 0x406; opOf w = 0x3F ∧ subOf w = 4 ∧ imm8Of w = 6) ∧
    (let w := word 0x3F 3 1 0 0x506; opOf w = 0x3F ∧ subOf w = 5 ∧ imm8Of w = 6) ∧
    (let w := word 0x3F 0 0 1 7; let s := crewW w {}; opOf w = 0x3F ∧ subOf w = 8 ∧ gdOf w = 0 ∧ gaOf w = 0 ∧ bits w 3 5 = 0 ∧
      ∀ e ∈ (s.dma 0).queue, e.crew ≠ 0) ∧
    (let w := word 0x3F 0 0 1 0x100; opOf w = 0x3F ∧ subOf w = 9 ∧ gdOf w = 0 ∧ gaOf w = 0 ∧ imm8Of w = 0 ∧ ((crewW w {}).crew 0 0).tx = none) ∧
    (let w := word 0x3F 0 0 1 0x200; opOf w = 0x3F ∧ subOf w = 10 ∧ gdOf w = 0 ∧ gaOf w = 0 ∧ imm8Of w = 0) ∧
    (let w := word 0x0C 0 0 0 0; insnRow w = none ∧ ((crewW w (armed 0 0)).crew 0 0).evec ≠ 0 ∧ ((crewW w (armed 0 0)).crew 0 0).inexc = false ∧
      ((crewW w {}).crew 0 0).evec = 0) :=
  ⟨issues_crewW, by decide, by decide, by decide, by decide, by decide, by decide, by decide, by decide, by decide, by decide, by decide,
    by decide, by decide⟩

/-- Crew 7 of tile 0 waiting for line 63, with a deadline on TC3 or none. -/
def waiting (p : Nat) (d : Option (Nat × Nat)) : State :=
  allUp.setCrew 0 7 { state := 2, pending := p, wait := some (.lines (2 ^ 63) 3 d) }

theorem witness_CrewTimeInstructionsComplete :
    (∀ w x, x.wait = none → (crewW w x).Issues 0 0 w) ∧
    (let w := word 0x32 3 1 0 0; opOf w = 0x32 ∧ bits w 0 11 = 0 ∧ gbOf w = 0 ∧
      (let x := (crewW w { armed 6 0 with pending := 2 }).crew 0 0; x.pending &&& x.gr (gaOf w) ≠ 0) ∧
      (let x := (crewW w (armed 6 0)).crew 0 0; x.gr (gaOf w) ≠ 0 ∧ x.pending &&& x.gr (gaOf w) = 0)) ∧
    (let w := word 0x32 3 1 2 1; opOf w = 0x32 ∧ bits w 0 4 = 1 ∧ bits w 6 5 = 0 ∧
      (let x := (crewW w { armed 6 0 with pending := 2 }).crew 0 0; x.pending &&& x.gr (gaOf w) ≠ 0) ∧
      (let s := crewW w (armed 6 0)
       (s.crew 0 0).pending &&& (s.crew 0 0).gr (gaOf w) = 0 ∧ atOrAfter (s.tcN 0 (bits w 4 2)) ((s.crew 0 0).gr (gbOf w)) = true) ∧
      (let s := crewW w (armed 6 9)
       (s.crew 0 0).pending &&& (s.crew 0 0).gr (gaOf w) = 0 ∧ atOrAfter (s.tcN 0 (bits w 4 2)) ((s.crew 0 0).gr (gbOf w)) = false)) ∧
    (let w := word 0x32 0 1 0 2; let a := ((crewW w (armed 63 0)).crew 0 0).gr (gaOf w)
     opOf w = 0x32 ∧ bits w 0 11 = 2 ∧ gdOf w = 0 ∧ gbOf w = 0 ∧ a < 2 ^ 12 ∧ bits a 6 2 = 0 ∧ bit a 11 = false) ∧
    (let w := word 0x32 3 1 2 3; let s := crewW w (armed 31 9); let b := (s.crew 0 0).gr (gbOf w)
     opOf w = 0x32 ∧ bits w 0 11 = 3 ∧ (s.crew 0 0).gr (gaOf w) < 32 ∧ s.on 0 (GY_CTL_ARMED 31) = false ∧
     (s.chanPast 0 (s.f 0 (GY_CTL_CHAN 31)) { s.geyTgt 0 31 with n := b, frac := 0 } : Int) < 0) ∧
    (let w := word 0x32 3 1 2 3
     let s := (((crewW w (armed 31 9)).setB 0 (GY_CTL_LATE_MODE 31) true).setReg 0 LATE_LIMIT 0).setChan 0 0 { ns := 10 }
     let b := (s.crew 0 0).gr (gbOf w)
     (s.crew 0 0).gr (gaOf w) = 31 ∧ s.on 0 (GY_CTL_ARMED 31) = false ∧ s.geyHold 0 = false ∧ s.geyPer 0 31 = 0 ∧
     s.on 0 (GY_CTL_LATE_MODE 31) = true ∧ (s.geyTgt 0 31).last ≠ s.now + 1 ∧
     (s.lateLimit 0 : Int) < s.chanPast 0 (s.f 0 (GY_CTL_CHAN 31)) { s.geyTgt 0 31 with n := b, frac := 0 }) ∧
    (let w := word 0x33 3 0 0 0x30; opOf w = 0x33 ∧ bits w 0 4 = 0 ∧ bits w 6 5 = 0 ∧ gaOf w = 0 ∧ gbOf w = 0) ∧
    (let w := word 0x33 3 0 0 1; opOf w = 0x33 ∧ bits w 0 11 = 1 ∧ gaOf w = 0 ∧ gbOf w = 0) ∧
    (let w := word 0x33 3 0 0 2; opOf w = 0x33 ∧ bits w 0 11 = 2 ∧ gaOf w = 0 ∧ gbOf w = 0) ∧
    (let w := word 0x33 3 1 0 0x38; let s := crewW w (armed (nominalInc + 5368709) 0); let a := (s.crew 0 0).gr (gaOf w)
     opOf w = 0x33 ∧ bits w 0 4 = 8 ∧ bits w 6 5 = 0 ∧ gbOf w = 0 ∧ a < 2 ^ 36 ∧ nominalInc ≤ a + 5368709 ∧ a ≤ nominalInc + 5368709 ∧
     s.holdover (bits w 4 2) = false ∧ s.on 0 (TC_SERVO_EN (bits w 4 2)) = false) ∧
    (let w := word 0x33 3 1 0 9; let s := crewW w (armed 5 0)
     opOf w = 0x33 ∧ bits w 0 4 = 9 ∧ bits w 6 5 = 0 ∧ gbOf w = 0 ∧ (s.steer (bits w 4 2)).step = none ∧ s.holdover (bits w 4 2) = false) ∧
    (let s := waiting (2 ^ 63) none
     s.live 0 0 = true ∧ 7 < 8 ∧ (s.crew 0 7).wait = some (.lines (2 ^ 63) 3 none) ∧ (s.crew 0 7).pending &&& 2 ^ 63 ≠ 0) ∧
    (let s := waiting 0 (some (0, 3))
     s.live 0 0 = true ∧ (s.crew 0 7).wait = some (.lines (2 ^ 63) 3 (some (0, 3))) ∧ atOrAfter (s.tcN 0 3) 0 = true ∧
     (s.crew 0 7).pending &&& 2 ^ 63 = 0) :=
  ⟨issues_crewW, by decide, by decide, by decide, by decide, by decide, by decide, by decide, by decide, by decide, by decide, by decide, by decide⟩

/-- A descriptor that fills 8 bytes at the end of data TCM. -/
def fill : DmaDesc := { ticket := 5, crew := 1, src := 2 ^ 64 - 1, dst := 0xFFFF8, len := 8, line := 0, lineEn := false, fill := true, bad := false }

theorem witness_CrewMessagesAndDmaComplete :
    (∀ w x, x.wait = none → (crewW w x).Issues 0 0 w) ∧
    (let w := word 0x34 3 1 2 0; let s := crewW w (armed 0x80000 (64 * 64 + 7 * 8)); let b := (s.crew 0 0).gr (gbOf w)
     let a := (s.crew 0 0).gr (gaOf w)
     opOf w = 0x34 ∧ bits w 0 11 = 0 ∧ b < 2 ^ 13 ∧ bits b 6 7 = 64 ∧ bits b 0 3 = 0 ∧ a % 8 = 0 ∧ 0x80000 ≤ a ∧ a + 64 ≤ 0x100000 ∧
     (∀ i, i < 64 → smGet s.core.tcmParity (tk 0 ((tcmIndex (a + i)).getD 0)) 0 = 0 ∧ s.tcmMarked 0 ((tcmIndex (a + i)).getD 0) = false) ∧
     (s.crew 0 (bits b 3 3)).recvq.length < 8) ∧
    (let w := word 0x34 3 1 0 1; let m : CrewMsg := { srcTile := 1, srcCrew := 2, dstCrew := 0, payload := [255, 0, 0, 0, 0, 0, 0, 1] }
     opOf w = 0x34 ∧ bits w 0 11 = 1 ∧ gbOf w = 0 ∧ gdOf w ≠ 0 ∧ ((crewW w (armed 0x80000 0)).crew 0 0).recvq = [] ∧
     ((crewW w { armed 0x80000 0 with recvq := [m] }).crew 0 0).recvq = m :: [] ∧ m.payload.length % 8 = 0 ∧ m.payload.length ≤ 64 ∧
     ∀ v ∈ m.payload, v < 256) ∧
    (let w := word 0x35 3 1 0 0; let s := crewW w (armed 0x80000 0)
     opOf w = 0x35 ∧ bits w 0 11 = 0 ∧ gbOf w = 0 ∧ (s.crew 0 0).gr (gaOf w) % 32 = 0 ∧ (s.dma 0).queue.length < 32 ∧ (s.dma 0).next < 65536 ∧
     gdOf w ≠ 0 ∧ ∀ q ∈ (s.dma 0).queue, q.ticket ≠ (s.dma 0).next) ∧
    (let w := word 0x35 3 1 0 1; opOf w = 0x35 ∧ bits w 0 11 = 1 ∧ gbOf w = 0) ∧
    (let s := allUp.setDma 0 { queue := [fill] }
     s.live 0 0 = true ∧ smGet s.core.ctlBusy 0 false = false ∧ (s.dma 0).queue = fill :: [] ∧ s.dmaSound 0 fill = true ∧ fill.lineEn = false ∧ fill.crew < 2 ∧
     0x80000 ≤ fill.dst ∧ fill.dst + fill.len ≤ 0x100000 ∧ fill.src < 2 ^ 64) ∧
    (let s : State := { (allUp.setF 0 (CREW_WDOG_TIMEOUT 7) 1).setCrew 0 7 { state := 1, evec := 4 } with now := 820 }
     s.live 0 0 = true ∧ smGet s.core.ctlBusy 0 false = false ∧ s.watchdogDue 0 7 = true ∧ (s.crew 0 7).evec ≠ 0 ∧
     (s.crew 0 7).inexc = false ∧ (s.crew 0 7).wait = none) ∧
    (allUp.live 1 0 = true ∧ allUp.run 1 = true ∧ smGet allUp.core.ctlBusy 1 false = false) ∧
    (let s : State := { allUp with core.ctlBusy := [(1, true)] }; s.live 1 0 = true ∧ smGet s.core.ctlBusy 1 false = true) :=
  ⟨issues_crewW, by decide, by decide, by decide, by decide, by decide, by decide, by decide, by decide⟩

/-! ### Witnesses: benches and transactions -/

theorem witness_BenchCommandsComplete :
    (∀ w x, x.wait = none → (crewW w x).Issues 0 0 w) ∧
    (∀ f ∈ [0, 1, 2], let w := word 0x30 (if f = 0 then 0 else 3) 1 (if f = 0 then 2 else 0) f
      let s := (crewW w (armed (4 * 2048 + 128) 7)).setReg 0 (CREW_GRANT 0) 0x1FFFFFF; let x := s.crew 0 0
      let a := x.gr (gaOf w); let u := bits a 11 5; let i := bits a 0 11
      opOf w = 0x30 ∧ a < 2 ^ 19 ∧ u < 25 ∧ i < unitWords u ∧ s.granted (whoCrew 0 0) u = true ∧ s.island 0 (blockIsland (benchBase u)) = true ∧
      bits w 0 11 = f ∧ x.tx = none ∧ s.ownerOf 0 u = none ∧ s.armed 0 u = false) ∧
    (let s := (allUp.setF 1 (UNIT_CTL_KIND 20) 1).setReg 1 (UNIT_GEN 20) 1
     s.live 1 0 = true ∧ s.f 1 (UNIT_CTL_KIND 20) ≠ 0 ∧ s.ownerOf 1 20 = none ∧ s.armed 1 20 = false ∧
     s.kindOk 20 (s.f 1 (UNIT_CTL_KIND 20)) (s.f 1 (UNIT_CTL_SEL 20)) = true ∧ s.shadowOk (orBit 0 20) 1 20 = true ∧
     s.staleOk 1 20 (s.reg 1 EPOCH) = true) ∧
    (allUp.live 1 0 = true ∧ 21 ≤ 24 ∧ (allUp.setUnit 1 20 { solo := true }).armed 1 20 = true) ∧
    (let s := allUp.setUnit 1 24 { waits := [{ sec := 0, kind := 1, sel := 0, seq := 1, n := 0 }] }
     s.live 1 0 = true ∧ 24 ≠ 4 ∧ 0 < sectionCount 24 ∧ s.secBusy 1 24 0 = false ∧ (s.unit 1 24).waits.any (·.sec = 0) = true) ∧
    (joined.live 0 0 = true ∧ 1 ≠ 0 ∧ joined.run 1 = true ∧ joined.seamWalk 8 0 1 = none) ∧
    (let s : State := { joined with bench.epochs := smPut [] 1 [5] [] }
     s.live 1 0 = true ∧ s.msgOpen 0 1 = true ∧ smGet s.bench.epochs 1 [] = 5 :: []) :=
  ⟨issues_crewW, by decide, by decide, by decide, by decide, by decide, by decide⟩

/-- A crew of tile 0 with transaction 15. -/
def holder (a b : Nat) : Crew := { armed a b with tx := some 15 }

def withTxn (s : State) (x : Txn) : State := s.setTxn 15 x

theorem witness_CrewTransactionInstructionsComplete :
    (∀ w x y, x.wait = none → (withTxn (crewW w x) y).Issues 0 0 w) ∧
    (let w := word 0x31 3 0 0 0; let s := crewW w (armed 0 0)
     opOf w = 0x31 ∧ bits w 0 11 = 0 ∧ gaOf w = 0 ∧ gbOf w = 0 ∧ (s.crew 0 0).tx = none ∧ (s.txn 0).state = 0) ∧
    (let w := word 0x31 3 1 2 1; let s := withTxn (crewW w (holder 0xFC 0xFFFFFFFF)) { state := 1, epoch := 1 }; let x := s.crew 0 0; let a := x.gr (gaOf w)
     opOf w = 0x31 ∧ bits w 0 11 = 1 ∧ a < 256 ∧ a % 8 < 5 ∧ x.gr (gbOf w) < 2 ^ 32 ∧ x.tx = some 15 ∧ (s.txn 15).state = 1 ∧
     (s.txn 15).committed = false ∧ (s.txn 15).doom = none ∧ (s.txn 15).part = 0 ∧ (s.txn 15).host = false ∧ (s.txn 15).tile = 0 ∧
     (s.txn 15).crew = 0 ∧ (s.txn 15).epoch = s.reg 0 EPOCH) ∧
    (let w := word 0x31 3 0 0 2; let s := withTxn (crewW w (holder 0 0)) { state := 1 }; let x := s.crew 0 0
     opOf w = 0x31 ∧ bits w 0 11 = 2 ∧ gaOf w = 0 ∧ gbOf w = 0 ∧ gdOf w ≠ 0 ∧ x.tx = some 15 ∧ (s.txn 15).state = 1 ∧ (s.txn 15).doom = none) ∧
    (let w := word 0x31 3 0 0 3; let x := (crewW w (holder 0 0)).crew 0 0
     opOf w = 0x31 ∧ bits w 0 11 = 3 ∧ gaOf w = 0 ∧ gbOf w = 0 ∧ x.tx = some 15 ∧
     ((withTxn (crewW w (holder 0 0)) { state := 3 }).txn 15).state ≠ 4 ∧ ((withTxn (crewW w (holder 0 0)) { state := 4 }).txn 15).state = 4) :=
  ⟨fun w x y h => issues_crewW w x h, by decide, by decide, by decide, by decide⟩

theorem witness_CommitProtocolCommandsComplete :
    (let s := withTxn joined { state := 2, prepSent := 2 }; let x := s.txn 15
     (s.live 1 0 = true ∧ s.msgOpen 0 1 = true) ∧ bit x.prepSent 1 = true ∧ x.state = 2 ∧ s.seamWalk 8 1 0 = none) ∧
    (let s := withTxn joined { state := 2, part := 3, answerSent := 2 }; let x := s.txn 15
     (s.live 0 0 = true ∧ s.msgOpen 0 1 = true) ∧ bit x.answerSent 1 = true ∧ x.state = 2 ∧
     x.overdue s.now = false ∧ x.allIn (orBit x.answerGot 1 ||| x.noRoute) = false) ∧
    (let s := withTxn joined { state := 2, part := 2, prepared := 2, answerSent := 2, deadline := some 0, units := [32 + 5] }; let x := s.txn 15
     bit x.answerSent 1 = true ∧ x.state = 2 ∧ x.kind = 0 ∧ x.overdue s.now = false ∧ x.occurred = none ∧ bit x.part 0 = false ∧
     bit x.part 1 = true ∧ bit x.reported 1 = false ∧ s.isolated 1 = false ∧ x.allIn (x.prepared &&& orBit x.answerGot 1) = true ∧
     (∀ u, u < s.tiles → ∀ k, k < 4 → x.holds u (21 + k) = false) ∧ s.seamWalk 8 0 1 = none) ∧
    (let s : State := { withTxn joined { state := 2, part := 2, prepared := 2, answerSent := 2, epoch := 1, deadline := some 0 } with now := 1 }
     let x := s.txn 15
     bit x.answerSent 1 = true ∧ x.state = 2 ∧ x.overdue s.now = true ∧ x.allIn (x.prepared &&& x.answerGot) = false ∧
     s.reg 0 EPOCH = x.epoch ∧ x.failFault &&& x.answerGot = 0 ∧ x.noRoute = 0 ∧ x.failStale &&& x.answerGot = 0) ∧
    (let s := withTxn joined { state := 2, part := 3, epoch := 1, answerGot := 2, prepared := 2, deadline := some 0 }; let x := s.txn 15
     s.live 0 0 = true ∧ x.deadline = some 0 ∧ 0 ≤ s.now ∧ x.state = 2 ∧ x.allIn (x.prepared &&& x.answerGot) = false ∧
     s.reg 0 EPOCH = x.epoch ∧ x.failFault &&& x.answerGot = 0 ∧ x.noRoute = 0 ∧ x.failStale &&& x.answerGot = 0) ∧
    (let x := (withTxn joined { state := 3, commit := some false, decSent := 2, units := [32 + 24] }).txn 15
     bit x.decSent 1 = true ∧ x.commit = some false ∧ bit x.reached 1 = false ∧ bit x.released 1 = false ∧ x.state ≠ 0 ∧ x.holds 1 24 = true) ∧
    (let x := (withTxn joined { state := 3, commit := some true, decSent := 2 }).txn 15
     bit x.decSent 1 = true ∧ x.commit = some true ∧ bit x.reached 1 = false ∧ x.kind ≠ 4 ∧ x.occurred = none) ∧
    (let s : State := { withTxn joined { state := 3, part := 2, prepared := 2, deadline := some 0, units := [32 + 24] } with now := 800000 }
     let x := s.txn 15
     s.live 1 0 = true ∧ x.deadline = some 0 ∧ x.kind = 0 ∧ bit x.part 1 = true ∧ bit x.prepared 1 = true ∧ bit x.decGot 1 = false ∧
     bit x.reached 1 = false ∧ 0 + 800000 ≤ s.now ∧ x.holds 1 24 = true) ∧
    (let s := withTxn joined { state := 3, part := 3, decGot := 2, reportSent := 2, didSwap := 2, swapped := 1, reported := 1, occurred := some 0 }
     let x := s.txn 15
     (s.live 0 0 = true ∧ s.msgOpen 0 1 = true) ∧ bit x.reportSent 1 = true ∧ bit x.decGot 1 = true ∧ x.state = 3 ∧
     x.occurred.isSome = true ∧ bit x.didSwap 1 = true ∧ orBit x.swapped 1 = x.part ∧
     ∀ v, v < s.tiles → bit x.part v = true → s.isolated v = false → v = 1 ∨ bit x.reported v = true) ∧
    (let s : State := { withTxn joined { state := 3, reached := 2 } with now := 800000 }; let x := s.txn 15
     bit x.reached 1 = true ∧ bit x.reported 1 = false ∧ bit x.reportSent 1 = false ∧ s.seamWalk 8 1 0 = none ∧
     s.now ≤ (if x.kind = 0 then x.decidedAt else x.occurred.getD 0) + 800000) ∧
    (let s : State := { withTxn joined { state := 3, part := 3, swapped := 1, occurred := some 0 } with now := 800000 }; let x := s.txn 15
     s.live 0 0 = true ∧ x.occurred = some 0 ∧ x.state = 3 ∧ 0 + 800000 ≤ s.now ∧ x.swapped ≠ x.part) ∧
    (let s : State := { withTxn joined { state := 3, kind := 4, part := 3 } with now := 800000 }; let x := s.txn 15
     x.state = 3 ∧ x.kind = 4 ∧ x.cmpArmed = false ∧ x.decidedAt + 800000 ≤ s.now) ∧
    (let x := (withTxn joined { state := 3, kind := 4, part := 3, seq := 1, ackSent := 2, acked := 1 }).txn 15
     bit x.ackSent 1 = true ∧ x.state = 3 ∧ x.kind = 4 ∧ x.cmpArmed = false ∧ x.allIn (orBit x.acked 1) = true) :=
  ⟨by decide, by decide, by decide, by decide, by decide, by decide, by decide, by decide, by decide, by decide, by decide, by decide, by decide⟩

/-! ### Witnesses: lanes, Adit, sensor control -/

/-- A lane enabled in a role, its PLL locked, with further status bits. -/
def laneUp (t l role stat : Nat) : State :=
  ((((allUp.setB t (LANE_CTL_EN l) true).setF t (LANE_CTL_ROLE l) role).setF t ⟨LANE_STAT l, 0, 6⟩ stat)).setB t (LANE_STAT_PLL_OK l) true

/-- Whether lane l of tile t is SIGNAL, LOCKED, IDLE, HUNTING in a state, in this order. -/
def laneFlags (s : State) (t l : Nat) : Bool × Bool × Bool × Bool :=
  (s.on t (LANE_STAT_SIGNAL l), s.on t (LANE_STAT_LOCKED l), s.on t (LANE_STAT_IDLE l), s.on t (LANE_STAT_HUNTING l))

/-- The lane with the four flags set as told. -/
def laneAs (t l role : Nat) (sig lock idle hunt : Bool) : State :=
  ((((laneUp t l role 0).setB t (LANE_STAT_SIGNAL l) sig).setB t (LANE_STAT_LOCKED l) lock).setB t (LANE_STAT_IDLE l) idle).setB t (LANE_STAT_HUNTING l) hunt

theorem witness_LaneStateCommandsComplete :
    (allUp.up 1 6 = true ∧ hostLane 1 23 = false ∧ allUp.on 1 (LANE_CTL_EN 23) = false ∧ bit 5 0 = true ∧ roleOk 1 23 (bits 5 1 2) = true ∧
      bits 5 1 2 ≠ 3) ∧
    (let s := laneUp 1 23 0 0; s.up 1 6 = true ∧ s.on 1 (LANE_CTL_EN 23) = true ∧ bit 0 0 = false) ∧
    (let s := laneAs 1 23 0 true false false true; s.laneLive 1 23 = true ∧ s.on 1 (LANE_STAT_HUNTING 23) = true) ∧
    (let s := laneAs 1 23 0 true true false false
     s.laneLive 1 23 = true ∧ s.on 1 (LANE_STAT_LOCKED 23) = true ∧ s.on 1 (LANE_STAT_IDLE 23) = false ∧ s.on 1 (LANE_CTL_EN 23) = true ∧
     s.on 1 (LANE_STAT_PLL_OK 23) = true ∧ s.on 1 (LANE_STAT_SIGNAL 23) = true ∧ (s.lane 1 23).idles < 8 ∧
     8 ≤ ((s.setLane 1 23 { idles := 8 }).lane 1 23).idles) ∧
    (let s := (laneAs 1 23 0 true false false false).setB 1 (LANE_STAT_PLL_OK 23) false
     s.laneLive 1 23 = true ∧ s.on 1 (LANE_STAT_PLL_OK 23) = false ∧ s.f 1 (LANE_CTL_ROLE 23) ≠ 3) ∧
    (let s := laneAs 1 23 0 false true true false
     s.laneLive 1 23 = true ∧ s.on 1 (LANE_STAT_SIGNAL 23) = false ∧ s.on 1 (LANE_STAT_IDLE 23) = true ∧ 8 < 9 ∧
     4 ≤ [0, 1, 2, 3, 3, 3, 3, 3, 4].getD 8 0 ∧ ∀ j, j < 8 → [0, 1, 2, 3, 3, 3, 3, 3, 4].getD j 0 < 4) ∧
    (let s : State := { (laneAs 1 23 0 true false false true).setLane 1 23 { wakeHunt := true } with now := 2 ^ 40 }
     s.on 1 (LANE_STAT_HUNTING 23) = true ∧ (s.lane 1 23).wakeHunt = true ∧ 64000 ≤ s.laneUi 1 23 (s.now - (s.lane 1 23).wakeAt)) ∧
    allUp.laneUi 1 23 (allUp.now - (allUp.lane 1 23).wakeAt) < 64000 :=
  ⟨by decide, by decide, by decide, by decide, by decide, by decide, by decide, by decide⟩

theorem witness_LaneTrafficCommandsComplete :
    (let s := laneAs 1 23 0 true true false false
     s.up 1 6 = true ∧ (s.laneLive 1 23 = true ∧ s.on 1 (LANE_STAT_IDLE 23) = false ∧ s.f 1 (LANE_CTL_ROLE 23) ≠ 3 ∧
       ¬(s.f 1 (LANE_CTL_ROLE 23) = 0 ∧ s.f 1 (LANE_TEST_CHK 23) ≠ 0)) ∧
     s.on 1 (LANE_STAT_LOCKED 23) = true ∧ (s.lane 1 23).invalid.length + 1 < s.f 1 (LANE_ALIGN_LOSS_CNT 23) ∧
     s.f 1 (EYE_STAT_STATE 23) ≠ 1) ∧
    (let s := (laneAs 1 23 0 true true false false).setB 1 (LANE_TEST_CHK_LOCK 23) true
     let s := s.setF 1 (LANE_TEST_CHK 23) 1
     s.laneLive 1 23 = true ∧ s.on 1 (LANE_STAT_IDLE 23) = false ∧ s.f 1 (LANE_CTL_ROLE 23) = 0 ∧ s.f 1 (LANE_TEST_CHK 23) ≠ 0 ∧ s.on 1 (LANE_TEST_CHK_LOCK 23) = true ∧
     (s.lane 1 23).prbsErr = false) ∧
    (let s := laneAs 1 23 0 true false false true
     (s.laneLive 1 23 = true ∧ s.on 1 (LANE_STAT_IDLE 23) = false ∧ s.f 1 (LANE_CTL_ROLE 23) ≠ 3 ∧
       ¬(s.f 1 (LANE_CTL_ROLE 23) = 0 ∧ s.f 1 (LANE_TEST_CHK 23) ≠ 0)) ∧ s.on 1 (LANE_STAT_LOCKED 23) = false ∧
     s.on 1 (LANE_STAT_HUNTING 23) = true ∧ ((s.setLane 1 23 { valid := 62 }).lane 1 23).valid < 63 ∧
     ((s.setLane 1 23 { valid := 63 }).lane 1 23).valid = 63) ∧
    (∀ v ∈ [64 * 256 + 4, 4096 * 256 + 64], 4 ≤ bits v 0 7 ∧ bits v 0 7 ≤ 64 ∧ 64 ≤ bits v 8 13 ∧ bits v 8 13 ≤ 4096) ∧
    (let s : State := { (laneUp 1 23 0 0).setF 1 (EYE_STAT_STATE 23) 1 with now := 2 ^ 60 }
     s.f 1 (EYE_STAT_STATE 23) = 1 ∧ 2 ^ s.f 1 (EYE_CTL_WIN 23) ≤ s.laneUi 1 23 (s.now - (s.lane 1 23).eyeAt)) ∧
    allUp.laneUi 1 23 (allUp.now - (allUp.lane 1 23).eyeAt) < 2 ^ allUp.f 1 (EYE_CTL_WIN 23) :=
  ⟨by decide, by decide, by decide, by decide, by decide, by decide⟩

/-- Port 3 of tile 1 enabled with its benches in service: one lane, lane 12, locked; frames of 16 by 4 samples. -/
def portUp : State :=
  let s := laneAs 1 12 0 true true false false
  let s := ((s.setReg 1 (UNIT_GEN 3) 1).setReg 1 (UNIT_GEN 24) 1).setB 1 (AD_CTL_EN 3) true
  (((s.setF 1 (AD_GEOM_W 3).act 16).setF 1 (AD_GEOM_H 3).act 4).setF 1 (AD_LANES_LANE_BASE 3).act 12).setF 1 (AD_LANES_NL 3).act 1

/-- The same with an open frame. -/
def frameOpen (f : AdFrame) (p : AdPort) : State := portUp.setPort 1 3 { p with frame := some f }

theorem witness_AditLineCommandsComplete :
    (let s := portUp.setB 1 (AD_CTL_EN 3) false
     s.live 1 1 = true ∧ s.on 1 (AD_CTL_EN 3) = false ∧ (∀ k, k < s.adN 1 3 →
       s.reg 1 (LANE_RATE (s.adLaneNo 1 3 k)) = s.reg 1 (LANE_RATE (s.adLaneNo 1 3 0)) ∧
       s.f 1 (LANE_CTL_ROLE (s.adLaneNo 1 3 k)) = s.f 1 (LANE_CTL_ROLE (s.adLaneNo 1 3 0))) ∧
     ((List.range 4).map fun q => if q = 3 ∨ s.on 1 (AD_CTL_EN q) = true then s.a 1 (AD_ARB_QUOTA q) else 0).sum ≤ 4096) ∧
    (portUp.on 1 (AD_CTL_EN 3) = true ∧ (portUp.port 1 3).frame = none) ∧
    (let s := frameOpen {} { refLane := 1 }
     s.live 1 1 = true ∧ s.adDeaf 1 3 = false ∧ s.adTakes 1 3 0 = true ∧ s.adNextLine 1 3 0 1 7 = false ∧ s.adNextLine 1 3 0 2 7 = false ∧
     (s.adPart 1 3 0).kind = 0 ∧ 0 ≠ (s.port 1 3).refLane) ∧
    (let s := frameOpen {} { lanes := [(0, { kind := 1 })] }
     s.adDeaf 1 3 = false ∧ s.adTakes 1 3 0 = true ∧ (s.adPart 1 3 0).kind ≠ 0 ∧ (s.adPart 1 3 0).stop = none) ∧
    (let s := frameOpen { e := 3 } { lanes := [(0, { kind := 1, line := 3, stop := some (16, 0) })] }
     s.live 1 1 = true ∧ s.adSg 1 3 = false ∧ (s.port 1 3).frame = some { e := 3 } ∧ (s.adPart 1 3 (s.port 1 3).refLane).kind = 1 ∧
     (s.adPart 1 3 (s.port 1 3).refLane).line = 3 ∧ s.adTakes 1 3 (s.port 1 3).refLane = true ∧ (s.port 1 3).closing = none ∧ (s.port 1 3).judged = none ∧
     ({ e := 3 } : AdFrame).e ≤ 3 ∧ 3 < s.a 1 (AD_GEOM_H 3) ∧ s.adAllEnded 1 3 = true ∧ s.adSomeEnded 1 3 = true) :=
  ⟨by decide, by decide, by decide, by decide, by decide⟩

theorem witness_AditFrameCommandsComplete :
    (let s := portUp
     s.live 1 1 = true ∧ s.on 1 (AD_CTL_EN 3) = true ∧ s.stale 1 3 = false ∧ s.stale 1 (21 + 3) = false ∧ (s.port 1 3).frame = none ∧
     (s.port 1 3).lanes = [] ∧ s.aOn 1 (AD_FMT_CNT_MODE 3) = false ∧ 0 < s.adN 1 3 ∧ [31].getD 0 65536 < 32 ∧
     s.laneLocked 1 (s.adLaneNo 1 3 0) = true ∧ s.laneLive 1 (s.adLaneNo 1 3 0) = true ∧ s.a 1 (AD_FMT_SRC_ID 3) < 256) ∧
    (let f : AdFrame := { started := true, e := 4 }; let s := frameOpen f {}
     s.adDeaf 1 3 = false ∧ (s.port 1 3).frame = some f ∧ (s.port 1 3).closing = none ∧ (s.port 1 3).lanes = [] ∧ f.started = true ∧
     s.adSg 1 3 = false ∧ s.a 1 (AD_GEOM_H 3) ≤ f.e ∧ s.a 1 (AD_EMB_SLOT_SLOT 3) = 0) ∧
    (let s := ((portUp.setPort 1 3 { lastN := some 0 }).setReg 1 ((AD_PER_NS_PER 3).act).off 5).setChan 1 (portUp.a 1 (AD_PED_TS_CHAN 3)) { sec := 10 }
     s.on 1 (AD_CTL_EN 3) = true ∧ s.adOverdue 1 3 = true ∧ (s.port 1 3).lateRaised = false) ∧
    (let h : FrameHdr := { cnt := 9 }; let f : AdFrame := { started := true, hdr := h }
     let s := frameOpen f {}
     let s : State := { s with adit.records := smPut [] (tk 1 3) [(h, s.sgGeometry 1 3)] [] }
     smGet s.adit.records (tk 1 3) [] = (h, s.sgGeometry 1 3) :: [] ∧ s.on 1 (AD_CTL_EN 3) = true ∧ s.stale 1 3 = false ∧
     s.stale 1 (21 + 3) = false ∧ (s.port 1 3).frame = some f ∧ f.started = true ∧ f.recorded = false ∧ (s.port 1 3).quiet = false ∧ f.hdr.cnt = h.cnt ∧ s.adN 1 3 ≠ 0) ∧
    (let x : LineReport := { tile := 0, cnt := 9, pos := 7, line := 7, tick := 0 }
     let s : State := { frameOpen {} { lastCnt := some 9 } with adit.reports := smPut [] (tk 1 3) [x] [], adit.leadLines := smPut [] (tk 1 3) [(7, 7, 0)] [] }
     smGet s.adit.reports (tk 1 3) [] = x :: [] ∧ s.sgReady 1 3 x = true ∧ (s.port 1 3).lastCnt = some x.cnt ∧
     (smGet s.adit.leadLines (tk 1 3) []).find? (fun y => y.1 = 7) = some (x.pos, x.line, 0) ∧ (x.tick - 0) * 10 ≤ s.a 1 (AD_SG_SKEW_SKEW 3) * 8) ∧
    (let x : LineReport := { tile := 1, cnt := 9, pos := 7, line := 8, tick := 0 }
     let s : State := { frameOpen {} { lastCnt := some 9 } with adit.reports := smPut [] (tk 1 3) [x] [], adit.leadLines := smPut [] (tk 1 3) [(7, 7, 0)] [] }
     smGet s.adit.reports (tk 1 3) [] = x :: [] ∧ s.sgReady 1 3 x = true ∧ (s.port 1 3).lastCnt = some x.cnt ∧
     (smGet s.adit.leadLines (tk 1 3) []).find? (fun y => y.1 = 7) = some (x.pos, 7, 0) ∧ 7 ≠ x.line ∧ (s.port x.tile 3).frame = some {}) ∧
    (let x : LineReport := { tile := 0, cnt := 8, pos := 7, line := 7, tick := 0 }
     let s : State := { portUp.setPort 1 3 { lastCnt := some 9 } with adit.reports := smPut [] (tk 1 3) [x] [] }
     s.sgReady 1 3 x = true ∧ (s.port 1 3).lastCnt ≠ some x.cnt) ∧
    (let f : AdFrame := { started := true, combined := true }
     let s := ((portUp.setPort 1 3 { closing := some f }).setB 1 (AD_SG_SG_EN 3).act true)
     s.live 1 1 = true ∧ (s.port 1 3).closing = some f ∧ s.adLead 1 3 = false ∧ s.a 1 (AD_SG_LEAD 3) = 0 ∧ s.a 1 (AD_EMB_SLOT_SLOT 3) = 0) ∧
    (joined.seamWalk 8 0 1 = none) ∧
    (let x : RawPiece := { src := 0, cnt := 0, row := 3, cols := [] }
     let s : State := { frameOpen {} {} with adit.pieces := smPut [] (tk 1 3) [x] [] }
     smGet s.adit.pieces (tk 1 3) [] = x :: [] ∧ s.stale 1 3 = false ∧ s.on 1 (AD_CTL_EN 3) = true ∧ ({} : AdFrame).recorded = false ∧
     (s.port 1 3).frame = some {} ∧ ({} : AdFrame).hdr.cnt = x.cnt) ∧
    (let x : RawPiece := { src := 0, cnt := 1, row := 3, cols := [] }
     let s : State := { frameOpen {} {} with adit.pieces := smPut [] (tk 1 3) [x] [] }
     smGet s.adit.pieces (tk 1 3) [] = x :: [] ∧ (s.port 1 3).frame = some {} ∧ ({} : AdFrame).hdr.cnt ≠ x.cnt ∧ (s.port 1 3).gone ≠ some x.cnt ∧
     ((s.setPort 1 3 { gone := some 1 }).port 1 3).gone = some x.cnt) :=
  ⟨by decide, by decide, by decide, by decide, by decide, by decide, by decide, by decide, by decide, by decide, by decide⟩

theorem witness_SensorControlCommandsComplete :
    (allUp.live 1 1 = true ∧ 3 < 4 ∧ allUp.on 1 (SPI_STAT_BUSY 3) = false ∧ 1 ≤ bits 64 0 7 ∧ bits 64 0 7 ≤ 64) ∧
    (let s := (allUp.setB 1 (SPI_STAT_BUSY 3) true).setF 1 (SPI_CMD_LEN 3) 64
     s.on 1 (SPI_STAT_BUSY 3) = true ∧ (s.spiQ 1 3).rx.length + (List.replicate 64 255).length ≤ 64 ∧
     (List.replicate 64 255).length = s.f 1 (SPI_CMD_LEN 3) ∧ ∀ b ∈ List.replicate 64 255, b < 256) ∧
    (allUp.on 1 (I2C_STAT_BUSY 3) = false ∧ bits 0x404000 8 7 ≤ 64 ∧ bits 0x404000 16 7 ≤ 64) ∧
    (let s := (allUp.setB 1 (I2C_STAT_BUSY 3) true).setF 1 (I2C_CMD_RLEN 3) 64
     s.on 1 (I2C_STAT_BUSY 3) = true ∧ (s.i2cQ 1 3).rx.length + (List.replicate 64 255).length ≤ 64 ∧
     (List.replicate 64 255).length = s.f 1 (I2C_CMD_RLEN 3)) :=
  ⟨by decide, by decide, by decide, by decide⟩

/-! ### Witnesses: raw correction, develop, outputs -/

/-- Every bench unit of tiles 0 and 1 in service (generation 1). -/
def benchUp : State := (List.range 25).foldl (fun s u => (s.setReg 0 (UNIT_GEN u) 1).setReg 1 (UNIT_GEN u) 1) allUp

/-- A frame of 4 by 2 samples over the stripe of columns 0 to 3. -/
def frame4 : FrameHdr := { src := 3, cnt := 8, w := 4, h := 2, stripe := 4 * 65536 }

def rawWith (c : RawCtx) (l : List Item) : State :=
  let s := benchUp.setRaw 1 3 c
  { s with pix.rawIn := smPut [] (tk 1 3) l [] }

/-- Partial statistics of tile 1 waiting at T0; the run of source 3 is tiles 0 and 1, or tile 1 alone. -/
def partials (both : Bool) : State :=
  let s := (benchUp.setF 1 ⟨STRIPE_CFG 3 + 0x8000, 16, 14⟩ 4).setF 0 ⟨STRIPE_CFG 3 + 0x8000, 16, 14⟩ (if both then 4 else 0)
  { s with pix.partials := smPut [] 3 [{ tile := 1 }] [] }

theorem witness_RawcCommandsComplete :
    (let s := rawWith {} [.openF frame4]
     s.live 1 1 = true ∧ (s.raw 1 3).frame = none ∧ smGet s.pix.rawIn (tk 1 3) [] = .openF frame4 :: [] ∧ s.stale 1 4 = false) ∧
    (let s := rawWith { frame := some frame4 } [.row 0 [1, 2, 3, 4] false]
     (s.raw 1 3).frame = some frame4 ∧ (s.raw 1 3).closed = none ∧ (s.raw 1 3).next = (s.raw 1 3).rows ∧
     s.aOn 1 (RC_CFG_CLAMP_EN 3) = false ∧ smGet s.pix.rawIn (tk 1 3) [] = .row 0 [1, 2, 3, 4] false :: []) ∧
    (let s := rawWith { frame := some frame4, closed := some 0, unrep := 1 } []
     (s.raw 1 3).frame = some frame4 ∧ (s.raw 1 3).closed = some 0 ∧ (s.raw 1 3).next = (s.raw 1 3).rows ∧
     s.aOn 1 (RC_CFG_CLAMP_EN 3) = false ∧ smGet s.pix.rawIn (tk 1 3) [] = [] ∧ (s.raw 1 3).unrep ≠ 0) ∧
    (let m : ObMsg := { cnt := 0, row := 0, sums := [1, 1, 1, 1], counts := [1, 1, 1, 1] }
     let s : State := { benchUp with pix.obOut := smPut [] (tk 1 3) [m] [] }; smGet s.pix.obOut (tk 1 3) [] = m :: []) ∧
    (let h : Halo := { cnt := 8, row := 0, px := [1] }
     let s : State := { benchUp with pix.haloOut := smPut [] (hkey 1 3 3 1) [h] [] }; smGet s.pix.haloOut (hkey 1 3 3 1) [] = h :: []) ∧
    (let s := partials true
     s.live 0 1 = true ∧ s.pix.diffOver = [] ∧ smGet s.pix.partials 3 [] = { tile := 1 } :: [] ∧ smGet s.pix.combine 3 ([], {}) = ([], {}) ∧
     ∃ u ∈ s.runOf 3, u ≠ 1 ∧ s.stale u 4 = false) ∧
    (let s := partials false
     (∀ u ∈ s.runOf 3, u = 1 ∨ s.stale u 4 = true) ∧ ({ tile := 1 } : RawStats).diffOk = false ∧ s.runOf 3 = [1]) ∧
    (∀ off ∈ [0x400000, 0x6FFFFC, 0x700000, 0x7AFFFC - 0xFFFC, 0xD0000, 0xD37F8], (allUp.tableAt 1 off).isSome = true ∧ off % 4 = 0) ∧
    (allUp.tableAt 1 0x400000 = some (0, 0x400000) ∧ allUp.bankInUse 1 0 = true ∧ allUp.tableAt 1 0x480000 = some (1, 0x480000) ∧
      allUp.bankInUse 1 1 = false) ∧
    (allUp.tableAt 1 0x700000 = some (11, 0xF00000) ∧ allUp.bankInUse 1 11 = false ∧
      (let s := ((allUp.setF 1 (DV_CFG_TONE_BANK 0) 1).setUnit 1 5 { solo := true }); s.bankInUse 1 11 = true ∧ s.tableAt 1 0x700000 = some (11, 0xF00000))) ∧
    (allUp.tableAt 1 0xD37F8 = some (25, 0x8D37F8) ∧ allUp.bankInUse 1 25 = false ∧
      (let s := ((allUp.setF 1 (OC_CFG_COEF_BANK 3) 1).setUnit 1 10 { solo := true }); s.bankInUse 1 25 = true ∧ s.tableAt 1 0xD37F8 = some (25, 0x8D37F8))) ∧
    (∀ off ∈ [0xCFFFC, 0xD37FC, 0xD0800, 0x706000], allUp.tableAt 1 off = none) :=
  ⟨by decide, by decide, by decide, by decide, by decide, by decide, by decide, by decide, by decide, by decide, by decide, by decide⟩

def devWith (c : DevCtx) (l : List Item) : State :=
  let s := (benchUp.setDev 1 1 c).setF 1 (DV_CFG_SRC 1).act 3
  { s with pix.x2 := smPut [] (tk 1 1) l [] }

def outWith (x : OutCtx) (l : List Item3) : State :=
  let s := (benchUp.setOut 1 3 x).setB 1 (OC_CFG_ON 3).act true
  { s with pix.x3 := smPut [] (tk 1 3) l [] }

/-- The channel sends SDI in FRAMED timing. -/
def framed (x : OutCtx) : State := ((outWith x []).setF 1 (OC_CFG_DEST 3).act 1).setB 1 (OC_CFG_TIMING 3).act true

theorem witness_DevelopAndOutputCommandsComplete :
    (let s := devWith {} [.openF frame4]
     s.live 1 1 = true ∧ (s.dev 1 1).frame = none ∧ smGet s.pix.x2 (tk 1 1) [] = .openF frame4 :: [] ∧ s.stale 1 (5 + 1) = false ∧
     (s.unit 1 (5 + 1)).waits = [] ∧ s.a 1 (DV_CFG_SRC 1) = frame4.src ∧ frame4.sw ≠ 0) ∧
    (let s := devWith { frame := some frame4 } [.row 0 [1, 2, 3, 4] false]; let c := s.dev 1 1
     c.frame = some frame4 ∧ c.closed = none ∧ c.next = c.rows ∧ c.nextOut = c.next ∧ smGet s.pix.x2 (tk 1 1) [] = .row 0 [1, 2, 3, 4] false :: []) ∧
    (let s := devWith { frame := some frame4, closed := some 0, clips := 1 } []; let c := s.dev 1 1
     c.frame = some frame4 ∧ c.closed = some 0 ∧ c.next = c.rows ∧ c.nextOut = c.next ∧ smGet s.pix.x2 (tk 1 1) [] = [] ∧ c.clips ≠ 0) ∧
    (let s := outWith {} [.openF frame4]
     (s.out 1 3).frame = none ∧ smGet s.pix.x3 (tk 1 3) [] = .openF frame4 :: [] ∧ s.stale 1 (7 + 3) = false ∧ (s.unit 1 (7 + 3)).waits = [] ∧
     s.bench.exchanged = [] ∧ s.aOn 1 (OC_CFG_ON 3) = true ∧ frame4.cnt % (s.a 1 (OC_CFG_DECIM 3) + 1) = 0 ∧ s.bench.txns = []) ∧
    (∀ v u, ((outWith {} [.openF frame4]).unit v u).solo = false) ∧
    (let s := outWith { pointed := some (1, 8, 0) } [.openF frame4]; (s.out (s.outHome 1 3) 3).announced frame4 = true) ∧
    (let s := outWith { frame := some frame4 } [.row 0 {}]
     (s.out 1 3).frame = some frame4 ∧ (s.out 1 3).closed = none ∧ (s.out 1 3).rows = 0 ∧ smGet s.pix.x3 (tk 1 3) [] = .row 0 {} :: []) ∧
    (let m : RangeMsg := { src := 1, hdr := frame4, row := 1, j0 := 0, i0 := 0, data := {}, status := 0, crc := 0, last := false }
     let s : State := { outWith {} [] with pix.ranges := smPut [] (tk 1 3) [m] [] }
     (s.out 1 3).asm = none ∧ smGet s.pix.ranges (tk 1 3) [] = m :: [] ∧ s.stale 1 (7 + 3) = false ∧ (s.out 1 3).late m = false ∧
     m.row ≠ 0 ∧ m.last = false ∧
     (let s : State := { (s.setF 1 (OC_OSIZE_OW 3).act 4).setF 1 (OC_CROPX_CW 3).act 4 with adit.stripes := smPut [] (tk 1 3) [(8, 4 * 65536)] [] }
      m.src ∈ s.asmTiles 1 3 m.hdr) ∧
     ((s.setOut 1 3 { asmGone := some 0 }).out 1 3).late m = true) ∧
    (let a : AsmFrame := { hdr := frame4, next := 2, closedBy := [1], closedAt := some 0 }; let s : State := { outWith { asm := some a } [] with now := 2 ^ 20 }
     (s.out 1 3).asm = some a ∧ s.asmDue 1 3 a = true ∧ (a.rows.any fun w => decide (a.next ≤ w.1)) = false ∧ s.asmSlot 1 3 a = false) ∧
    (let s := (framed {}).setF 1 (OC_PLACE_PY 3).act 1
     s.sdiOut 1 3 = true ∧ s.outDirect 1 3 = false ∧ s.stale 1 (7 + 3) = false ∧ (s.out 1 3).rasterRow < s.a 1 (OC_PLACE_PY 3) ∧
     (s.out 1 3).rasterRow + 1 < (sdiRaster (s.a 1 (OC_SDI_FORMAT 3)) (s.aOn 1 (OC_SDI_WIDE 3))).2) ∧
    (let s := framed { ready := [(0, frame4, 0)] }
     s.sdiOut 1 3 = true ∧ s.outDirect 1 3 = false ∧ (s.out 1 3).ready.getLast? = some (0, frame4, 0) ∧ badFrame 0 = false) :=
  ⟨by decide, by decide, by decide, by decide, fun _ _ => rfl, by decide, by decide, by decide, by decide, by decide, by decide⟩

/-! ### Witnesses: Crusher -/

/-- A slab of two samples coded RAW at 8 bits. -/
def tiny : SlabJob := { px := [5, 9] }

theorem witness_CrusherCodingRules :
    (0 < 16 ∧ 65535 < 2 ^ 16) ∧ (max 3 7 ≤ 7 ∧ ¬ max 3 7 ≤ 6) ∧ (6 < max 3 7 ∧ 3 ≤ min 3 7 ∧ min 3 7 < 6) ∧
    ((codeSlab tiny).raw = true ∧ (codeSlab { px := List.replicate 40 7 }).raw = false) := by decide

/-- Stream 3 of tile 1 in a state, with a frame being taken or not and rows waiting at its tap. -/
def crush (stt : Nat) (c : CrStream) (l : List Item) : State :=
  let s := ((benchUp.setCrs 1 3 c).setF 1 (CS_STAT_STATE 3) stt).setB 1 (CS_CFG_EN 3).act true
  let s := (s.setF 1 (CS_CFG_LANES 3).act 1).setF 1 (CS_INQ_QUOTA 3).act 1
  { s with pix.tap := smPut [] (tk 1 3) l [] }

def frame7 : CrFrame := { fid := 7, hdr := frame4, rowsIn := 2 }

theorem witness_CrusherStreamCommandsComplete :
    (let s := crush 1 {} [.openF frame4]; let c := s.crs 1 3
     s.live 1 4 = true ∧ smGet s.pix.tap (tk 1 3) [] = .openF frame4 :: [] ∧ (s.bench.exchanged = [] ∧ ∀ g ∈ c.frames, g.closed = false) ∧
     s.stale 1 11 = false ∧ (s.unit 1 11).waits = [] ∧ s.aOn 1 (CS_CFG_EN 3) = true ∧ s.f 1 (CS_STAT_STATE 3) = 1 ∧ c.dropping = false) ∧
    (let s := crush 1 { frames := [frame7], taking := some 7 } [.row 0 [1, 2, 3, 4] false]; let c := s.crs 1 3
     smGet s.pix.tap (tk 1 3) [] = .row 0 [1, 2, 3, 4] false :: [] ∧ (∀ g ∈ c.frames, g.closed = false) ∧ s.on 1 SRAM_INJ_ARMED = false ∧
     c.taking = some 7 ∧ (s.crFrame 1 3 7).ended = false ∧ s.inqBytes 1 3 + 2 * 4 + 64 ≤ s.a 1 (CS_INQ_QUOTA 3) * 1024 ∧
     (let s := s.setF 1 (CS_INQ_QUOTA 3).act 0; s.a 1 (CS_INQ_QUOTA 3) * 1024 < s.inqBytes 1 3 + 2 * 4 + 64)) ∧
    (let s := crush 1 { frames := [frame7], taking := some 7, jobs := [{ tiny with fid := 7 }] } [.closeF 0]; let c := s.crs 1 3
     smGet s.pix.tap (tk 1 3) [] = .closeF 0 :: [] ∧ (s.unit 1 11).waits = [] ∧ c.taking = some 7 ∧ c.slabs.any (·.fid = 7) = true ∧
     c.jobs = { tiny with fid := 7 } :: [] ∧ c.lanes.length + c.done.length + b2n c.hand.isSome < s.a 1 (CS_CFG_LANES 3) ∧
     s.lanesHeld 1 + s.jobLanes 1 < crLanes) ∧
    (let c := (crush 1 { lanes := [tiny] } []).crs 1 3; c.lanes[0]? = some tiny ∧ (codeSlab tiny).damaged = false) ∧
    (let j : SlabJob := { fid := 7, px := [4 * 0x100000, 1] }; let s := crush 1 { lanes := [j], frames := [frame7] } []
     (s.crs 1 3).lanes[0]? = some j ∧ (codeSlab j).damaged = true ∧ (s.crFrame 1 3 j.fid).damaged = false) ∧
    (let x := codeSlab { tiny with fid := 7 }
     let s := crush 1 { done := [x], frames := [frame7], w := { inBuf := true, addr := 0x100000, len := 16 } } []; let c := s.crs 1 3
     s.f 1 (CS_STAT_STATE 3) = 1 ∧ s.aOn 1 (CS_CFG_EN 3) = true ∧ (∀ g ∈ c.frames, g.closed = false) ∧ c.jobs = [] ∧ c.lanes = [] ∧
     c.hand = none ∧ c.done = [x] ∧ slabLast (s.crFrame 1 3 x.job.fid) x.job = some false ∧
     (s.crFrame 1 3 x.job.fid).lost = false ∧ (false && (s.crFrame 1 3 x.job.fid).closeAt) = false ∧
     c.w.inBuf = true ∧ c.w.own = false ∧ c.w.bitPos % 64 = 0 ∧ c.w.addr % 8 = 0 ∧ c.w.len % 8 = 0 ∧
     (∀ i, i < c.w.len → dramAt 1 (c.w.addr + i) = ((dramAt 1 c.w.addr).1, (dramAt 1 c.w.addr).2 + i)) ∧
     c.w.bitPos + 64 + wordBits x.words ≤ c.w.len * 8 ∧ s.dramOk 1 (c.w.addr + c.w.bitPos / 8) 8 = true) ∧
    (let x := codeSlab { tiny with fid := 7 }
     let s := crush 1 { done := [x], frames := [{ frame7 with lost := true }] } []; let c := s.crs 1 3
     s.f 1 (CS_STAT_STATE 3) = 1 ∧ s.aOn 1 (CS_CFG_EN 3) = true ∧ (∀ g ∈ c.frames, g.closed = false) ∧ c.jobs = [] ∧ c.lanes = [] ∧
     c.hand = none ∧ c.done = [x] ∧ slabLast (s.crFrame 1 3 x.job.fid) x.job = some false ∧ (s.crFrame 1 3 x.job.fid).lost = true) ∧
    (let s := crush 2 { frames := [frame7] } []
     s.f 1 (CS_STAT_STATE 3) = 2 ∧ (s.crs 1 3).hand = none ∧ s.aOn 1 (CS_CFG_EN 3) = true ∧ ∀ g ∈ (s.crs 1 3).frames, g.closed = false) ∧
    (∀ u a, (crush 1 {} []).failedAt u a = false) ∧
    ((crush 1 {} []).rawRec 1 3 = false ∧ ((crush 1 { chains := [(0, 1), (0, 1), (0, 1)] } []).crs 1 3).chains.length < 4 ∧
     4 ≤ ((crush 1 { chains := [(0, 1), (0, 1), (0, 1), (0, 1)] } []).crs 1 3).chains.length) ∧
    (let s := crush 2 { chains := [(0, 1)] } []; s.f 1 (CS_STAT_STATE 3) = 2 ∧ (s.crs 1 3).chains ≠ [] ∧ (s.crs 1 3).hand = none) ∧
    (crush 3 {} []).f 1 (CS_STAT_STATE 3) ≠ 2 :=
  ⟨by decide, by decide, by decide, by decide, by decide, by decide, by decide, by decide, failed_of _ (by decide), by decide, by decide, by decide⟩

/-- Job 3 of tile 1 in a state, mode CHECK, one frame of 4 by 1 samples of 8 bits, one chain of one buffer, whose buffer holds
the slab `tiny`. -/
def cjob (stt : Nat) (x : CrJob) : State :=
  let s := ((((benchUp.setCrj 1 3 x).setF 1 (CJ_STAT_STATE 3) stt).setF 1 (CJ_CTL_MODE 3) 2).setB 1 (CJ_CTL_MONO 3) true)
  let s := ((s.setF 1 (CJ_GEOM_W 3) 4).setF 1 (CJ_GEOM_H 3) 1).setF 1 (CJ_NFRM_FRAMES 3) 1
  let s := (s.setReg 1 (CJ_CHAIN_LO 3) 0x100000).setF 1 (CJ_CHAIN_N_COUNT 3) 1
  let bs := (codeSlab tiny).header false ++ packWords (codeSlab tiny).words
  let d := leBytes 8 0x200000 ++ leBytes 4 16 ++ leBytes 4 0 ++ leBytes 4 80 ++ leBytes 4 (2 ^ 25) ++ leBytes 4 8 ++ leBytes 4 0
  (s.setDbytes 1 0x100000 d).setDbytes 1 0x200000 bs

theorem witness_CrusherJobCommandsComplete :
    (∀ st ∈ [0, 3, 4, 5], let s := cjob st {}
      s.live 1 4 = true ∧ s.f 1 (CJ_STAT_STATE 3) = st ∧ st ∉ [1, 2, 6] ∧ s.arbFind 5 1 3 = none ∧ s.f 1 (CJ_CTL_BITS 3) ≤ 4 ∧ s.arbHeld < 64) ∧
    (∀ st ∈ [1, 2, 6], (cjob st {}).f 1 (CJ_STAT_STATE 3) = st) ∧
    (let s := cjob 2 {}; s.arbFind 5 1 3 = none ∧ s.arbHeld < 64 ∧ (s.crj 1 3).hand = none ∧ (s.crj 1 3).w.inBuf = false ∧
      ((cjob 6 {}).crj 1 3).hand = none ∧ ((cjob 6 {}).crj 1 3).resync = false) ∧
    (let s := cjob 1 { desc := 1 }
     s.f 1 (CJ_CTL_MODE 3) ∈ [1, 2] ∧ s.f 1 (CJ_GEOM_W 3) ≠ 0 ∧ s.f 1 (CJ_GEOM_H 3) ≠ 0 ∧ s.f 1 (CJ_NFRM_FRAMES 3) ≠ 0 ∧ s.lanesHeld 1 < crLanes ∧
     s.f 1 (CJ_CHAIN_N_COUNT 3) ≤ (s.crj 1 3).desc) := by
  refine ⟨by decide, by decide, by decide, by decide⟩

theorem witness_CrusherJobCommandsComplete_slab :
    let s := cjob 1 {}
    let s1 := (s.cjHeader 1 3 257).1
    let s2 := (s1.rdAt 1 0x200000 8 5).1
    let hb := (s1.rdAt 1 0x200000 8 5).2.1
    let v := leNum hb
    let x := s1.crj 1 3
    let g := (s2.setCrj 1 3 { x with bitPos := x.bitPos + 64 }).cjGather 1 3 257 (bits v 25 17) 0 0 false
    (s.cjHeader 1 3 257).2 = some (0x200000, 80, 2 ^ 25, 8, 0) ∧ (s1.rdAt 1 (0x200000 + x.bitPos / 8) 8 5).2 = (hb, false) ∧
    bit v 0 = true ∧ bit v 1 = false ∧ bits v 5 3 = 0 ∧ bits v 42 6 = 0 ∧ bits v 8 3 = bitsCode (s1.cjB 1 3) ∧
    bit v 11 = (s1.cjD 1 3 == 1) ∧ bits v 12 13 = 2 ∧ x.col + 2 < s.f 1 (CJ_GEOM_W 3) ∧ bits v 25 17 = 2 * s1.cjB 1 3 ∧
    g.2 = (g.2.1, false, false) ∧ crc16 (hb.take 6 ++ leBytes ((bits v 25 17 + 7) / 8) g.2.1) = bits v 48 16 ∧
    bit v 3 = (x.row == 0 && x.col == 0) ∧ bit v 4 = false ∧ restartRow x.row (s1.cjD 1 3) (g.1.f 1 (CJ_SLAB_RST_ROWS 3)) = true ∧
    g.1.f 1 (CJ_CTL_MODE 3) = 2 ∧ (g.1.crj 1 3).col + 2 < g.1.f 1 (CJ_GEOM_W 3) := by decide

/-! ### Witnesses: recording and burst store -/

/-- Take slot 7, started at tick 0 by a stream of tile 1, on the magazine of tile 1. -/
def take7 : Take := { starts := [(1, {})], tiles := [1], mags := 2 }

/-- Stream 15 of tile 1 with a unit waiting for take slot 7, which is RECORDING. -/
def recording (x : Take) (u : RecUnit) (kib : Nat) (es : List Extent) : State :=
  let s := ((allUp.setF 0 (TK_STAT_STATE 7) 1).setF 1 REC_STG_SIZE_KIB.act kib).setTake 7 x
  { s with store.units := smPut [] (tk 1 15) [u] [], store.extents := es }

def unit5 : RecUnit := { ty := 1, take := 7, cnt := 5, status := 0, n := 0, tick := 0, payload := [1, 2, 3] }

def extent5 : Extent := { take := 7, num := 2, tile := 1 }

/-- An extent that has gone and whose GAP chunks fill the reserve. -/
def gaps : Extent := { take := 7, num := 1, tile := 1, len := 65536, parts := [(0, 65520, true)], sent := true, issued := true }

/-- A WRITE of the magazine link of tile 1, answered. -/
def answered (st : Nat) : MagCmd := { tag := 9, op := 2, use := 0, who := 7, num := 2, status := some st }

theorem witness_RecordingCommandsComplete :
    (let s := recording take7 unit5 1024 [extent5]
     s.live 1 0 = true ∧ smGet s.store.units (tk 1 15) [] = unit5 :: [] ∧ s.f 0 (TK_STAT_STATE unit5.take) = 1 ∧
     s.inTake 1 unit5 = true ∧ s.on 0 (TK_STAT_FULL unit5.take) = false ∧ s.openExtent 1 unit5.take = some extent5 ∧
     (let q := { s with store.units := smPut s.store.units (tk 1 15) [] [] }; 32 + (unit5.payload.length + 7) / 8 * 8 ≤ q.stgRoom 1) ∧
     extent5.len + 64 + (unit5.payload.length + 7) / 8 * 8 ≤ s.extBytes unit5.take) ∧
    ((recording { take7 with starts := [(1, { tick := 1 })] } unit5 1024 []).inTake 1 unit5 = false) ∧
    (let s := recording take7 unit5 64 [extent5]; let e := s.extBytes 7; let q := { s with store.units := smPut s.store.units (tk 1 15) [] [] }
     unit5.ty ≠ 0 ∧ s.openExtent 1 7 = some extent5 ∧ s.inTake 1 unit5 = true ∧ s.on 0 (TK_STAT_FULL 7) = false ∧
     q.stgRoom 1 < chunksLen e (chunkFuel 3) (((s.openExtent 1 7).map fun x => e - x.len).getD e) 3 ∧ q.stgHeld 1 true + 32 ≤ stgReserve ∧
     extent5.len + 64 ≤ e) ∧
    (let s := recording take7 unit5 64 [gaps]; let e := s.extBytes 7; let q := { s with store.units := smPut s.store.units (tk 1 15) [] [] }
     s.inTake 1 unit5 = true ∧ s.on 0 (TK_STAT_FULL 7) = false ∧
     q.stgRoom 1 < chunksLen e (chunkFuel 3) (((s.openExtent 1 7).map fun x => e - x.len).getD e) 3 ∧ stgReserve < q.stgHeld 1 true + 32) ∧
    ((recording take7 unit5 64 []).take 7).flush = 0 ∧
    (let s : State := { recording { take7 with flush := 1 } unit5 1024 [extent5] with now := 800000 }
     s.openExtent 1 7 = some extent5 ∧ (s.take 7).flush ≠ 0 ∧ extent5.since + (s.take 7).flush * 1000 * usTicks ≤ s.now ∧
     (∀ z ∈ s.store.extents, z.sent = false) ∧ extent5.issued = false ∧ s.isolated 1 = false ∧
     s.extPlace 7 extent5.num = some (1, 2 * 16) ∧ s.magTag 1 = some 0) ∧
    (∀ st ∈ [0, 3], let e := { extent5 with sent := true, issued := true }; let s := (recording take7 unit5 1024 [e]).setMag 1 [answered st]
      s.live 1 6 = true ∧ s.live 0 0 = true ∧
      (s.mag 1).find? (fun m => m.tag = 9 && m.status.isSome && m.use ≤ 1) = some (answered st) ∧ (answered st).use = 0 ∧
      (answered st).status = some st ∧ (answered st).who < 8 ∧ s.f 0 (TK_STAT_STATE (answered st).who) = 1 ∧
      (∀ e ∈ s.store.extents, e.sent = true → e.issued = true) ∧ (∀ q, q < 8 → s.f 0 (TK_STAT_STATE q) ≠ 2) ∧
      ∃ e ∈ s.store.extents, e.take = 7 ∧ e.num = 2) := by
  refine ⟨by decide, by decide, by decide, by decide, by decide, by decide, by decide⟩

/-- Tile 0 stores the bursts of source 3, whose run is tile 0 alone. -/
def bursting (stt : Nat) (b : Burst) (l : List Item) : State :=
  let s := (((benchUp.setBur 0 b).setF 0 BS_STAT_STATE stt).setF 0 BS_CFG_SRC.act 3).setF 0 ⟨STRIPE_CFG 3 + 0x8000, 16, 14⟩ 8
  let s := (((s.setF 0 BS_SLOTS_SLOTS.act 4).setF 0 BS_SLOT_BYTES_BYTES.act 4096).setB 0 BS_CFG_EN.act true).setF 0 BS_TRIG_KIND.act 1
  { s with pix.tap := smPut [] (tk 0 19) l [] }

/-- Geometry of the frames that tile 0 stores: rows of 16 bytes, slots of 4,096. -/
def geo8 : BurGeo := { src := 3, sw := 8, w := 8, h := 2, bits := 12, rb := 16, base := 0x100000, bytes := 4096, slots := 4 }

theorem witness_BurstStoreCommandsComplete :
    (let b : Burst := { frame := some frame4, stored := 5, geo := geo8 }; let s := bursting 1 b [.row 1 [1, 2, 3, 4, 5, 6, 7, 8] false]
     let g := (s.bur 0).geo; let at_ := g.base + b.stored % g.slots * g.bytes + 1 * g.rb
     s.live 0 0 = true ∧ (∀ p, p < 4 → p ≠ 3 → smGet s.pix.tap (tk 0 (16 + p)) [] = []) ∧ (s.bur 0).frame = some frame4 ∧
     smGet s.pix.tap (tk 0 (16 + 3)) [] = [.row 1 [1, 2, 3, 4, 5, 6, 7, 8] false] ∧
     8 * g.bits ≤ g.rb * 8 ∧ at_ % 8 = 0 ∧ 0 < g.rb ∧ g.rb % 8 = 0 ∧ s.overrunning 0 1 frame4.src = false ∧
     ({ s with mem.overrun := smPut s.mem.overrun (tk 0 (32 + frame4.src)) true false } : State).overrunning 0 1 frame4.src = true ∧
     ∀ i, i < g.rb → dramAt 0 (at_ + i) = ((dramAt 0 at_).1, (dramAt 0 at_).2 + i)) ∧
    (let s := bursting 1 { frame := some frame4, stored := 5, geo := geo8 } [.closeF 0]
     smGet s.pix.tap (tk 0 (16 + 3)) [] = [.closeF 0] ∧ s.f 0 BS_STAT_STATE = 1 ∧ s.bench.exchanged = [] ∧ (s.unit 0 12).waits = [] ∧
     s.on 0 SRAM_INJ_ARMED = false ∧ s.marking 0 12 = false) ∧
    (let s := bursting 1 { frame := some frame4, stored := 5 } []
     s.a 0 BS_TRIG_KIND = 1 ∧ s.a 0 BS_TRIG_ARG % 16 = 0 ∧ s.aOn 0 BS_TRIG_EDGE = !true ∧ s.burTiles = [0] ∧
     (s.bur 0).frame.isSome = true ∧ ((s.burFrames 0).filter fun g => atOrAfter s.burNow g.2.2) = [(5, 8, 0)] ∧
     (s.burFrames 0).find? (·.2.1 = 8) = some (5, 8, 0)) ∧
    (benchUp.burTiles = [] ∧ benchUp.live 0 0 = true ∧ (benchUp.bur 0).notice = none ∧
      (bursting 3 {} []).f 0 BS_STAT_STATE ≠ 1 ∧ (bursting 3 {} []).f 0 BS_STAT_STATE ≠ 2) ∧
    (let s := bursting 1 { frame := some frame4, stored := 5, notice := some (8, 0) } []
     (s.bur 0).notice = some (8, 0) ∧ s.f 0 BS_STAT_STATE = 1 ∧ (s.bur 0).frame.isSome = true ∧
     ((s.burFrames 0).find? (·.2.1 = 8)).orElse (fun _ => lastFrame ((s.burFrames 0).filter fun f => atOrAfter 0 f.2.2)) = some (5, 8, 0)) ∧
    (let s := bursting 2 { notice := some (8, 0), stopped := true } []
     (s.bur 0).notice = some (8, 0) ∧ s.f 0 BS_STAT_STATE ≠ 1 ∧ (s.bur 0).stopped = true) ∧
    ((bursting 2 {} []).f 0 BS_STAT_STATE ≠ 3 ∧ (bursting 3 {} []).f 0 BS_STAT_STATE = 3 ∧ (bursting 3 {} []).v1Busy = false) := by
  refine ⟨by decide, by decide, by decide, by decide, by decide, by decide, by decide⟩

/-! ### Witnesses: HEVC encoder and decoder -/

/-- Encode context 3 of tile 1, its HOME and only member: pictures of 128 by 64, input from an output channel or from memory. -/
def encWith (mem : Bool) (stt : Nat) (x : EncCtx) (l : List Item3) : State :=
  let s := (((benchUp.setB 1 (HE_CFG_EN 3).act true).setF 1 (HE_CFG_HOME 3).act 1).setB 1 (HE_CFG_INPUT 3).act mem).setF 1 (HE_STAT_STATE 3) stt
  let s := ((s.setF 1 (HE_SIZE_W 3).act 128).setF 1 (HE_SIZE_H 3).act 64).setF 1 (HE_COLS_NCOL 3).act 1
  let s := ((s.setF 1 (HE_COLMAP_W0 3 0).act 2).setF 1 (HE_COLMAP_T0 3 0).act 1).setF 1 (HE_CPB_CPB 3).act 1
  let s := (s.setB 1 (HE_OUT_DRAM_EN 3).act false).setB 1 (HE_OUT_REC_EN 3).act false
  { s.setEnc 1 3 x with hevc.encIn := smPut [] (tk 1 3) l [] }

theorem witness_EncoderInputAndCommandsComplete :
    (let s := encWith false 0 { lastCnt := some 7 } [.openF frame4]
     s.live 1 2 = true ∧ smGet s.hevc.encIn (tk 1 3) [] = .openF frame4 :: [] ∧ s.stale 1 (13 + 3) = false ∧ (s.unit 1 (13 + 3)).waits = [] ∧
     s.bench.exchanged = [] ∧ s.heOn 1 3 = true ∧ s.aOn 1 (HE_CFG_INPUT 3) = false ∧ (s.enc 1 3).lastCnt = some 7 ∧
     frame4.cnt = (7 + 1) % 2 ^ 32 ∧ ((List.range 16).find? fun i => s.heMark 1 3 i = 0) = some 0 ∧
     (let s := s.setReg 1 (HE_MARKS 3) 0xFFFFFFFF; ∀ i, i < 16 → s.heMark 1 3 i ≠ 0)) ∧
    (let s := encWith false 1 { queue := [{ hdr := frame4, buf := some 0 }] } [.row 0 {}]
     smGet s.hevc.encIn (tk 1 3) [] = .row 0 {} :: [] ∧ (s.enc 1 3).queue.getLast? = some { hdr := frame4, buf := some 0 } ∧
     ({ hdr := frame4, buf := some 0 } : EncPic).whole = false ∧ ∀ u ∈ s.heMembers 1 3, s.seamWalk 8 1 u = none) ∧
    (let s := encWith false 1 { margins := [{ src := 0, buf := 15, puts := [(64, [1, 2])] }] } []
     s.a 1 (HE_CFG_HOME 3) = 1 ∧ (s.enc 1 3).margins = { src := 0, buf := 15, puts := [(64, [1, 2])] } :: [] ∧
     (encWith false 1 {} []).enc 1 3 = {} ∧ (s.enc 1 3).queue = [] ∧ (s.enc 1 3).plan = [] ∧ s.aOn 1 (HE_CFG_INPUT 3) = false) ∧
    (let s := encWith true 0 {} []
     s.aOn 1 (HE_CFG_INPUT 3) = true ∧ s.heOn 1 3 = true ∧ s.f 1 (HE_STAT_STATE 3) ∉ [1, 2] ∧ s.arbFind 6 1 3 = none ∧ s.arbHeld < 64) ∧
    (let s := encWith true 1 {} []
     s.f 1 (HE_STAT_STATE 3) = 1 ∧ (s.enc 1 3).pics = [] ∧ (s.enc 1 3).cancelDue = false ∧
     ((encWith true 1 { coding := some {} } []).enc 1 3).pics ≠ []) ∧
    (let s := encWith true 2 {} []; s.f 1 (HE_STAT_STATE 3) = 2 ∧ s.arbFind 6 1 3 = none) := by
  refine ⟨by decide, by decide, by decide, by decide, by decide, by decide⟩

/-- A P picture in buffer 15, in the pixel engines or past them; member tile 1 stands as told. -/
def picP (m : EncMember) : EncCoding :=
  { plan := { pic := { hdr := frame4, buf := some 15 }, ty := 3, ref := true }, h := 1000, members := [(1, m)] }

/-- The context codes that picture. -/
def encCoding (m : EncMember) (quota : Nat) : State := (encWith false 1 { coding := some (picP m) } []).setF 1 (HE_SUMP_QUOTA 3).act quota

/-- An access unit's head for it: picture timing SEI, slice segment header. -/
def headP : List Byte := [0, 0, 0, 1, 78, 1, 1, 2, 9, 9, 128, 0, 0, 1, 2, 1, 213, 86].map (BitVec.ofNat 8)

def subsP : List (List Byte) := [[0, 0, 1]]

theorem witness_EncoderCodingCommandsComplete :
    (∀ q ∈ [0, 1], let s := encCoding {} q; let h := s.a 1 (HE_CFG_HOME 3)
      h = 1 ∧ (s.enc h 3).coding = some (picP {}) ∧ s.live 1 2 = true ∧ s.heRows h 3 1 = (0, 2, 0) :: [] ∧ 0 + 1 < 2 ∧
      (smGet (picP {}).members 1 {}).stalled = false ∧ s.stale 1 (13 + 3) = false ∧ s.on 1 SRAM_INJ_ARMED = false ∧ 8 ≤ s.a h (HE_ME_SR_X 3) + 8 ∧
      (if q = 0 then s.a 1 (HE_SUMP_QUOTA 3) * 1024 < (s.enc h 3).sump 1 + 1024 else (s.enc h 3).sump 1 + 1024 ≤ s.a 1 (HE_SUMP_QUOTA 3) * 1024)) ∧
    (let s := encCoding { ctu := 1 } 1
     (smGet (picP { ctu := 1 }).members 1 {}).ctu + 1 = s.heTotal 1 3 1 ∧ (s.enc 1 3).queue = [] ∧ (s.enc 1 3).plan = [] ∧
     s.aOn 1 (HE_CFG_INPUT 3) = false ∧ (s.enc 1 3).sump 1 + 1024 ≤ s.a 1 (HE_SUMP_QUOTA 3) * 1024 ∧
     ∀ u ∈ s.heMembers 1 3, u = 1) ∧
    (let m : EncMember := { pend := [{ bound := 50, bytes := 8 }] }; let s := encCoding m 1
     s.live 1 3 = true ∧ (s.enc 1 3).coding = some (picP m) ∧ (smGet (picP m).members 1 {}).pend = { bound := 50, bytes := 8 } :: [] ∧
     ((s.enc 1 3).leaving.any fun k => (smGet k.members 1 {}).pend != []) = false) ∧
    (let m : EncMember := { stalled := true }; let s := encCoding m 1
     (s.enc 1 3).coding = some (picP m) ∧ (smGet (picP m).members 1 {}).stalled = true ∧
     (s.enc 1 3).sump 1 < s.a 1 (HE_SUMP_QUOTA 3) * 1024) ∧
    (let s := encWith false 1 { leaving := [picP { lost := true }] } []
     (s.enc 1 3).leaving = picP { lost := true } :: [] ∧ s.a 1 (HE_CFG_HOME 3) = 1 ∧ s.live 1 3 = true ∧
     ∃ u ∈ s.heMembers 1 3, s.isolated u = true ∨ (smGet (picP { lost := true }).members u {}).lost = true) := by
  refine ⟨by decide, by decide, by decide, by decide, by decide⟩

theorem witness_EncoderCodingCommandsComplete_unit :
    ∀ dram ∈ [false, true], let k := picP { ctu := 2, done := [(0, 20)] }
      let s := (encWith false 1 { leaving := [k] } []).setB 1 (HE_OUT_DRAM_EN 3).act dram
      let s := (s.setF 1 (HE_AU_SIZE_KIB 3).act 1).setReg 1 ((HE_AU_LO 3) + 0x8000) 0x100000
      (s.enc 1 3).leaving = k :: [] ∧ s.a 1 (HE_CFG_HOME 3) = 1 ∧ s.live 1 3 = true ∧ (s.enc 1 3).queue = [] ∧ (s.enc 1 3).plan = [] ∧
      s.aOn 1 (HE_CFG_INPUT 3) = false ∧ s.aOn 1 (HE_OUT_REC_EN 3) = false ∧
      (∀ u ∈ s.heMembers 1 3, s.isolated u = false ∧ (smGet k.members u {}).lost = false ∧ (smGet k.members u {}).floorCtus = 0) ∧
      s.heAllDone 1 3 k = true ∧ s.heUnitOk 1 3 k (headP.map (·.toNat)) (subsP.map fun l => l.map (·.toNat)) = true ∧
      k.mismatch = false ∧ k.plan.pic.rept = false ∧ s.aOn 1 (HE_OUT_DRAM_EN 3) = dram ∧
      (let size := s.a 1 (HE_AU_SIZE_KIB 3) * 1024; let base := s.a64 1 (HE_AU_LO 3); let ofs := s.reg 1 (HE_NEXT 3)
       let b : Int := s.heB 1 3; let f := s.heFull 1 3 k.start (s.enc 1 3).full (8 * 21)
       let n := 21 + if s.heCbr 1 3 ∧ b * f.2 < f.1 then max 7 (((f.1 - b * f.2).toNat + 8 * f.2 - 1) / (8 * f.2)) else 0
       ofs < size ∧ ofs % 8 = 0 ∧ (32 + n + 63) / 64 * 64 ≤ size ∧ base % 8 = 0 ∧ dramAt 1 base = (1, base) ∧ base + size < 0x100000000) := by
  decide

/-- Decode context 3 of tile 1, alone. -/
def decWith (stt : Nat) (x : DecCtx) : State :=
  let s := ((benchUp.setB 1 (HD_CFG_EN 3).act true).setF 1 (HD_CFG_HOME 3).act 1).setF 1 (HD_STAT_STATE 3) stt
  let s := ((s.setF 1 (HD_OUT_STRIDE_STRIDE 3).act 64).setF 1 (HD_OUT_SLOT_SLOT_BYTES 3).act 65536).setF 1 (HD_OUT_STRIDE_NSLOT 3).act 3
  s.setDec 1 3 x

theorem witness_DecoderContextCommandsComplete :
    (∀ st ∈ [0, 3, 4, 5, 6, 1, 7, 2], let s := decWith st { written := 3 }; let x := s.dec 1 3
      s.live 1 2 = true ∧ s.f 1 (HD_STAT_STATE 3) = st ∧ s.hdOn 1 3 = true ∧ s.arbFind 7 1 3 = none ∧ s.arbHeld < 64 ∧ x.stop = none ∧
      x.cancelDue = false) ∧
    (let s := (decWith 1 { written := 3 }).setF 1 (HD_STAT_LEVEL 3) 3
     s.aOn 1 (HD_CFG_LINK_EN 3) = false ∧ ((s.dec 1 3).written + 512 - 1 % 512) % 512 ≤ s.f 1 (HD_STAT_LEVEL 3) ∧
     s.f 1 (HD_STAT_LEVEL 3) < ((s.dec 1 3).written + 512 - 511 % 512) % 512) := by
  refine ⟨by decide, by decide⟩

/-- An IDR picture of 2 by 1 samples. -/
def idr : CodedPic := { len := 16, nal := 19, w := 2, h := 1, luma := [[1, 2]] }

theorem witness_DecoderPictureCommandsComplete :
    (let s := decWith 1 { inEnd := 15 }
     s.live 1 2 = true ∧ s.hdOn 1 3 = true ∧ s.f 1 (HD_STAT_STATE 3) = 1 ∧ s.aOn 1 (HD_CFG_INPUT 3) = false ∧ (s.dec 1 3).stop = none ∧
     (s.dec 1 3).flush = false ∧ (s.dec 1 3).inEnd - (s.dec 1 3).pos < idr.len ∧ (s.dec 1 3).final = false) ∧
    (let s := decWith 1 { inEnd := 15, pos := 15, final := true }
     (s.dec 1 3).inEnd - (s.dec 1 3).pos = 0 ∧ (s.dec 1 3).final = true ∧ s.hdPending 1 3 = []) ∧
    (let s := decWith 1 { inEnd := 16 }
     idr.len ≤ (s.dec 1 3).inEnd - (s.dec 1 3).pos ∧ s.poisonAt 1 (s.a64 1 (HD_IN_LO 3) + (s.dec 1 3).pos) idr.len = false ∧
     idr.fault = none ∧ (s.dec 1 3).first = true ∧ picIrap idr = true ∧ s.hdLimit 1 3 idr = false ∧ s.hdPending 1 3 = [] ∧
     (∀ u ∈ s.hdMembers 1 3, s.stale u 20 = false ∧ u = 1) ∧
     idr.hash ≠ some false ∧ (s.dec 1 3).cancelDue = false ∧ (s.dec 1 3).suspendDue = false) ∧
    (∀ w ∈ [false, true], let s := ((decWith 1 { waiting := w }).setF 1 (HD_OUTPEND_OUT 3) 0x8000).setF 1 (HD_STAT_LEVEL 3) 4
      s.hdDue 1 3 = true ∧ s.f 1 (HD_STAT_LEVEL 3) = s.a 1 (HD_OUT_STRIDE_NSLOT 3) + 1 ∧ (s.dec 1 3).waiting = w) := by
  refine ⟨by decide, by decide, by decide, by decide⟩

theorem witness_DecoderPictureCommandsComplete_output :
    let s := (decWith 1 {}).setF 1 (HD_OUTPEND_OUT 3) 0x8000
    (s.f 1 (HD_STAT_STATE 3) ∈ [1, 7] ∧ s.hdDue 1 3 = true ∧ s.f 1 (HD_STAT_LEVEL 3) ≠ s.a 1 (HD_OUT_STRIDE_NSLOT 3) + 1 ∧
      s.hdNext 1 3 = some 15 ∧ (s.dec 1 3).stop = none ∧ s.hdPoison 1 3 15 0 0 false = false) ∧ s.CleanMem :=
  ⟨by decide, clean_of _ (by decide) (by decide) (by decide)⟩

/-! ### Witnesses: packet links -/

/-- Link l of tile t (the host link 0 of tile 0, or a magazine link) in a state; two lanes, 16 and 17 with the link's base. -/
def linkWith (t l stt : Nat) (x : Lpl) : State :=
  let s := (((allUp.setF t (PL_STAT_STATE l) stt).setF t (PL_CTL_WIDTH_MAX l) 1).setF t (PL_CTL_LANE_BASE l) 0).setLink t l x
  (List.range 2).foldl (fun s k => ((s.setB t (LANE_CTL_EN (16 + k)) true).setF t (LANE_CTL_ROLE (16 + k)) 2).setB t (LANE_STAT_LOCKED (16 + k)) true) s

def extentCmd : MagCmd := { tag := 9, op := 2, use := 0, who := 7, num := 2, data := List.replicate 64 1 }

theorem witness_LinkStateCommandsComplete :
    (let s := linkWith 1 1 0 {}
     linkHere 1 1 = true ∧ linkHere 0 0 = true ∧ s.live 1 6 = true ∧ s.on 1 (PL_CTL_EN 1) = false ∧ s.linkOk 1 1 = true ∧
     ((linkWith 1 1 0 {}).setF 1 (PL_CTL_LANE_BASE 1) 1).linkOk 1 1 = false ∧ s.f 1 (PL_STAT_STATE 1) ∈ [0, 4]) ∧
    ((linkWith 0 0 2 {}).f 0 (PL_STAT_STATE 0) = 2) ∧
    (let s := linkWith 1 1 1 {}
     s.f 1 (PL_STAT_STATE 1) = 1 ∧ 1 < s.linkLanes 1 1 ∧ s.laneLocked 1 (s.linkLane 1 1 1) = true ∧ 0 = s.f 1 (PL_CTL_ROLE 1) ∧
     (s.link 1 1).wrongRole = false ∧ 1 ≠ s.f 1 (PL_CTL_ROLE 1) ∧ smGet (s.link 1 1).trains 1 0 + 1 < 8 ∧ (s.link 1 1).seen &&& (s.link 1 1).far = 0) ∧
    (let s := linkWith 1 1 1 { trains := [(1, 7)], seen := 1, far := 1 }; let x := s.link 1 1
     8 ≤ smGet x.trains 1 0 + 1 ∧ x.chosen = none ∧ linkWidth (s.linkOffer 1 1 &&& 7 % 8) (orBit x.seen 1 &&& orBit x.far 1) = some 1 ∧
     ∀ v, v < 3 → 1 < v → bit (s.linkOffer 1 1 &&& 7 % 8) v = false) ∧
    (∀ al ∈ [0, 1], let s := linkWith 1 1 1 { chosen := some 1, aligned := al }; let x := s.link 1 1; let n := orBit x.aligned 1
      x.chosen = some 1 ∧ 1 < 2 ^ 1 ∧ 1 < s.linkLanes 1 1 ∧ s.linkLane 1 1 1 < 24 ∧ s.laneLocked 1 (s.linkLane 1 1 1) = true ∧
      s.laneLive 1 (s.linkLane 1 1 1) = true ∧ x.txq = [] ∧ (n % 2 ^ 2 ^ 1 = 2 ^ 2 ^ 1 - 1 ↔ al = 1)) ∧
    (let s : State := { linkWith 1 1 3 {} with now := 80000000 }
     (linkWith 1 1 4 {}).f 1 (PL_STAT_STATE 1) = 4 ∧
     (∀ n, n < 4 → ((linkWith 1 1 4 {}).steer n).incs = [] ∧ ((linkWith 1 1 4 {}).steer n).step = none) ∧ s.f 1 (PL_STAT_STATE 1) = 3 ∧ (s.link 1 1).since + max 1 (s.f 1 (PL_RETRAIN_TO_TO 1)) * usTicks ≤ s.now ∧ s.f 1 (PL_STAT_STATE 1) ∉ [0, 4]) ∧
    (let m : MagCmd := { tag := 0, op := 0x20, use := 3, who := 0, num := 9 }; let s : State := { (linkWith 1 1 2 {}).setMag 1 [m] with now := 80000 }
     m ∈ s.mag 1 ∧ m.use = 3 ∧ m.status = none ∧ m.issued + 100 * usTicks ≤ s.now) ∧
    (let s : State := { (linkWith 0 0 2 {}).setB 0 (PL_CTL_IDLE_EN 0) true with now := 80000000 }; let x := s.link 0 0
     s.on 0 (PL_CTL_IDLE_EN 0) = true ∧ (x.txq = [] ∧ s.evt.asyncQ = []) ∧ x.replay = [] ∧
     x.progress + s.f 0 (PL_TIMER_IDLE_ENTRY 0) * 80 ≤ s.now) ∧
    (let s := linkWith 0 0 5 {}; s.f 0 (PL_STAT_STATE 0) = 5 ∧ (s.link 0 0).txq = [] ∧ s.evt.asyncQ = []) := by
  refine ⟨by decide, by decide, by decide, by decide, by decide, by decide, by decide, by decide, by decide⟩

/-- An ASYNC_EVENT packet and a packet whose length field is wrong. -/
def asyncBytes : List Nat := [5, 0, 0, 0, 32, 0, 0, 0] ++ List.replicate 40 0
def shortBytes : List Nat := [5, 0, 0, 0, 8, 0, 0, 0] ++ List.replicate 40 0

theorem witness_LinkTrafficCommandsComplete :
    (let s := linkWith 1 1 2 {}; let x := s.link 1 1
     linkHere 1 1 = true ∧ s.live 1 6 = true ∧ s.f 1 (PL_STAT_STATE 1) = 2 ∧ 0 = (x.rxSeq + 1) % 4096 ∧ asyncBytes.length = 8 * 6 ∧ shortBytes.length = 8 * 6 ∧
     2 ≤ 6 ∧ 6 ≤ 514 ∧ pktError (s.on 1 (PL_CTL_ROLE 1)) asyncBytes = 0 ∧ pktError (s.on 1 (PL_CTL_ROLE 1)) shortBytes = 3 ∧ x.nakAt = none) ∧
    (∀ l ∈ [[(7, ({} : Pkt))], [(7, {}), (8, {})]], let s := linkWith 1 1 2 { replay := l }; let x := s.link 1 1
      x.txq = [] ∧ x.replay.findIdx? (·.1 = 7) = some 0 ∧ (x.replay.drop (0 + 1) = [] ↔ l.length = 1) ∧
      2 ≤ max 1 ((s.setF 1 (PL_TIMER_REPLAY_MAX 1) 2).f 1 (PL_TIMER_REPLAY_MAX 1))) ∧
    (∀ n ∈ [0, 1], let s : State := { (linkWith 1 1 2 { replay := [(7, {})], noAdv := n }).setF 1 (PL_TIMER_REPLAY_MAX 1) 2 with now := 80000000 }
      let x := s.link 1 1; let lim := max 1 (s.f 1 (PL_TIMER_REPLAY_MAX 1))
      x.replay ≠ [] ∧ x.progress + max 1 (s.f 1 (PL_TIMER_REPLAY_TO 1)) * usTicks ≤ s.now ∧ (x.noAdv + 1 < lim ↔ n = 0)) := by
  refine ⟨by decide, by decide, by decide⟩

theorem witness_MagazinePacketCommandsComplete :
    (let p : Pkt := { ty := 2, tag := 9, param := 64 }; let s := (linkWith 1 1 2 { rxq := [p] }).setMag 1 [extentCmd]
     s.live 1 6 = true ∧ (s.link 1 1).rxq = p :: [] ∧ p.ty = 2 ∧ s.magFind 1 p.tag = some extentCmd ∧ extentCmd.op = 2 ∧ extentCmd.who ≠ orphan ∧
     (let m := { extentCmd with who := orphan }; ((linkWith 1 1 2 { rxq := [p] }).setMag 1 [m]).magFind 1 p.tag = some m ∧ m.op = 2) ∧
     (∀ q ∈ (s.link 1 1).txq, q.ty ≠ 4) ∧ (linkWith 1 1 2 { rxq := [p] }).magFind 1 p.tag = none) ∧
    (let p : Pkt := { ty := 4, tag := 9 }; let s := (linkWith 1 1 2 { rxq := [p] }).setMag 1 [extentCmd]
     (s.link 1 1).rxq = p :: [] ∧ s.magFind 1 p.tag = some extentCmd ∧ extentCmd.use ≠ 3 ∧ extentCmd.who ≠ orphan) ∧
    (∀ o ∈ [1, 2], let p : Pkt := { ty := 3, tag := 9 }; let m := { extentCmd with op := o }; let s := (linkWith 1 1 2 { rxq := [p] }).setMag 1 [m]
     (s.link 1 1).rxq = p :: [] ∧ p.ty = 3 ∧ s.dataFront 0 0 = false ∧ s.dataTile = some 1 ∧ s.magFind 1 p.tag = some m ∧ (m.op = 1 ↔ o = 1)) ∧
    (let p : Pkt := { ty := 5 }; ((linkWith 1 1 2 { rxq := [p] }).link 1 1).rxq = p :: []) ∧
    (let s : State := { ((linkWith 1 1 2 {}).setMag 1 [extentCmd]).setF 1 PL1_TMO_MAG_TMO 1 with now := 800000 }
     s.magFind 1 9 = some extentCmd ∧ s.f 1 PL1_TMO_MAG_TMO ≠ 0 ∧ extentCmd.aborting = false ∧
     extentCmd.issued + s.f 1 PL1_TMO_MAG_TMO * 1000 * usTicks ≤ s.now ∧ s.magTag 1 = some 0) := by
  refine ⟨by decide, by decide, by decide, by decide, by decide⟩

/-! ### Witnesses: host link and command set -/

/-- A capsule with the bytes told, zeros elsewhere (R360). -/
def capsule (l : List (Nat × Nat)) : List Nat := (List.range 64).map fun i => (l.lookup i).getD 0

/-- Commands of the host before T0's firmware, with packets come on the host link. -/
def hostAt (cmds : List HostCmd) (rxq : List Pkt) : State :=
  let s := ((benchUp.setF 0 BOOT_STAT_STEP 8).setLink 0 0 { rxq := rxq }).setF 0 (PL_STAT_STATE 0) 2
  { s with boot.romRunning := true, host.cmds := cmds, host.nextArr := 9 }

theorem ready_of (s : State) (tag op : Nat) (c : HostCmd)
    (h : s.holds = false ∧ s.firmware = true ∧ (s.host.cmds.find? fun c => c.tag = tag && c.op = op) = some c ∧
      (c.started || s.mayStart c) = true ∧ c.stop = none) : s.Ready tag op c := by
  refine ⟨h.1, h.2.1, h.2.2.1, ?_, h.2.2.2.2⟩
  simpa using h.2.2.2.1

theorem runs_of (s : State) (tag op : Nat) (c : HostCmd)
    (h : s.holds = false ∧ s.firmware = true ∧ (s.host.cmds.find? fun c => c.tag = tag && c.op = op) = some c ∧
      (c.started || s.mayStart c) = true ∧ c.stop = none) (j : s.jobRuns c = true) : s.Runs tag op c := ⟨ready_of s tag op c h, j⟩

/-- A command of tag 7 with an opcode and further capsule bytes. -/
def cmd (op : Nat) (l : List (Nat × Nat)) : HostCmd := { tag := 7, cap := capsule ((0, op) :: l), arr := 3 }

/-- A long operation of tag 8 that has not started: a VERIFY of one block. -/
def verify8 : HostCmd := { tag := 8, cap := capsule [(0, 4), (4, 15), (16, 1)], arr := 2 }

theorem witness_HostQueueCommandsComplete_packets :
    (hostAt [] []).holds = false ∧
    (let p : Pkt := { ty := 1, tag := 8, body := capsule [(0, 0x10)] }; let s := hostAt [verify8] [p]
     (s.link 0 0).rxq = p :: [] ∧ p.ty = 1 ∧ (s.hostCmd p.tag).isSome = true) ∧
    (∀ b ∈ [capsule [(0, 0xFF)], capsule [(0, 0x10)], capsule [(0, 4), (4, 15), (16, 1)]],
      let p : Pkt := { ty := 1, tag := 7, body := b }; let s := hostAt [] [p]
      let c : HostCmd := { tag := p.tag, cap := p.body, arr := s.host.nextArr }
      s.hostCmd p.tag = none ∧ s.f 0 PL_PSTATE_STATE = 0 ∧ s.host.entryTag = none ∧ s.host.act = 0 ∧ c.op ≠ 0x15 ∧
      (s.capCheck c ≠ 0 ↔ c.op = 0xFF) ∧ (c.jobKind = none ↔ c.op ≠ 4) ∧ s.arbHeld < 64) ∧
    (let p : Pkt := { ty := 1, tag := 7, body := capsule [(0, 0x10)] }; let s : State := { hostAt [] [p] with host.act := 1 }
     s.host.act ≠ 0 ∧ s.heldCount < 64 ∧ s.hostCmd p.tag = none) ∧
    (let p : Pkt := { ty := 3, tag := 7, last := true, body := List.replicate 8 1 }
     let c : HostCmd := { cmd 0x31 [(16, 2)] with wins := [(0, 8, 0)], winNext := 8 }; let s := hostAt [c] [p]
     (s.link 0 0).rxq = p :: [] ∧ p.ty = 3 ∧ s.hostCmd p.tag = some c ∧ c.dataLen ≠ 0 ∧ (c.wins.any fun w => winTakes w p) = true ∧
     c.dataLen ≤ c.winNext ∧ c.stop = none ∧ (({ c with wins := [] } : HostCmd).wins.any fun w => winTakes w p) = false ∧
     (hostAt [] [p]).hostCmd p.tag = none) ∧
    (let p : Pkt := { ty := 6, body := List.replicate 64 1 }; let s := hostAt [] [p]
     (s.link 0 0).rxq = p :: [] ∧ s.host.texs.length < 4 ∧ 4 ≤ s.step_ ∧ s.firmware = true ∧
     (let s : State := { s with host.texs := List.replicate 4 (1, [], (0, 0), false) }
      4 ≤ s.host.texs.length ∧ s.host.texs = (1, [], (0, 0), false) :: List.replicate 3 (1, [], (0, 0), false) ∧ s.firmware = true)) := by
  refine ⟨by decide, by decide, by decide, by decide, by decide, by decide⟩

theorem witness_HostQueueCommandsComplete_control :
    (let c := cmd 0x20 [(4, 8)]; let s := hostAt [verify8, c] []
     (s.host.cmds.find? fun c => c.tag = 7 && c.op = 0x20) = some c ∧ c.stop = none ∧ s.hostCmd (c.fld 4 1) = some verify8 ∧
     verify8.op ∉ [0x20, 0x21, 0x22, 0x23, 0x24, 0x35, 0x41] ∧ s.host.entryTag ≠ some verify8.tag ∧ verify8.stop = none ∧
     (hostAt [c] []).hostCmd (c.fld 4 1) = none) ∧
    (let c := cmd 0x21 [(4, 8)]; let s := hostAt [verify8, c] []
     c.started = false ∧ s.hostCmd (c.fld 4 1) = some verify8 ∧ verify8.tag ≠ 7 ∧ verify8.long = true ∧ verify8.started = false ∧
     s.host.ops.length < 16 ∧ s.hostCmd 7 = some c ∧ (hostAt [c] []).hostCmd (c.fld 4 1) = none) ∧
    (∀ op ∈ [0x22, 0x23], let c := cmd op ((8, 1) :: (if op = 0x23 then [(1, 2)] else [])); let s : State := { hostAt [c] [] with host.ops := [⟨1, verify8⟩] }
      (s.host.ops.find? fun (o : HostOp) => o.opid = c.fld 8 8) = some ⟨1, verify8⟩ ∧ s.arbHeld < 64 ∧ verify8.op ≠ 0x41 ∧ c.started = false ∧
      (op = 0x23 → c.flag 1 = true) ∧ ((hostAt [c] []).host.ops.find? fun (o : HostOp) => o.opid = c.fld 8 8) = none) ∧
    (let c := cmd 0x23 [(4, 8)]; let s := hostAt [verify8, c] []
     c.flag 1 = false ∧ s.hostCmd 7 = some c ∧ s.hostCmd (c.fld 4 1) = some verify8 ∧ verify8.tag ≠ 7 ∧ verify8.op ≠ 0x41) ∧
    (let c := cmd 0x12 [(4, 1), (8, 2)]; let s : State := { hostAt [c] [] with host.entryTag := some 7 }
     s.host.entryTag = some 7 ∧ s.hostCmd 7 = some c ∧ s.arbQuiet = true ∧ ((s.arbSettle.respond c rcSuccess 0 []).link 0 0).txq = []) ∧
    (let c := { cmd 0x15 [(5, 1)] with n1 := 1, started := true, bytes := [1, 2] }
     let s : State := { hostAt [c] [] with host.act := 1, host.actTag := 7 }
     s.host.act = 1 ∧ s.hostCmd s.host.actTag = some c ∧ c.n1 = 1 ∧ ∀ d ∈ s.host.cmds, c.arr ≤ d.arr) ∧
    (let s : State := { hostAt [] [] with host.act := 2, now := 23999999 }
     s.host.act = 2 ∧ s.now < s.host.actAt + 30000 * usTicks ∧ s.host.actAt + 30000 * usTicks ≤ s.now + 1) := by
  refine ⟨by decide, by decide, by decide, by decide, by decide, by decide, by decide⟩

theorem witness_HostQueueCommandsComplete_runs :
    (let c := cmd 0x21 [(4, 8)]; (hostAt [verify8, c] []).Runs 7 0x21 c) ∧
    (let c := cmd 0x22 [(8, 1)]; ({ hostAt [c] [] with host.ops := [⟨1, verify8⟩] } : State).Runs 7 0x22 c) ∧
    (let c := cmd 0x23 [(8, 1), (1, 2)]; ({ hostAt [c] [] with host.ops := [⟨1, verify8⟩] } : State).Runs 7 0x23 c) ∧
    (let c := cmd 0x23 [(4, 8)]; (hostAt [verify8, c] []).Runs 7 0x23 c) :=
  ⟨runs_of _ _ _ _ (by decide) (by decide), runs_of _ _ _ _ (by decide) (by decide), runs_of _ _ _ _ (by decide) (by decide),
    runs_of _ _ _ _ (by decide) (by decide)⟩

theorem witness_HostDataCommandsComplete_runs :
    (∀ x : HostCmd, x = cmd 0x01 [(4, 15), (16, 2)] → (hostAt [x] [⟨0, false, false, 0, 0, 0, []⟩]).arbFind 4 0 7 = none) ∧
    (let c := cmd 0x02 [(4, 15), (16, 1)]; (hostAt [c] []).Runs 7 0x02 c) ∧ (let c := cmd 0x03 [(4, 255)]; (hostAt [c] []).Runs 7 0x03 c) ∧
    (let c := cmd 0x10 []; (hostAt [c] []).Runs 7 0x10 c) ∧ (let c := cmd 0x11 [(4, 1), (16, 64)]; (hostAt [c] []).Runs 7 0x11 c) ∧
    (let c := cmd 0x12 [(4, 2), (8, 1)]; (hostAt [c] []).Runs 7 0x12 c) ∧ (let c := cmd 0x13 [(4, 2)]; (hostAt [c] []).Runs 7 0x13 c) ∧
    (let c := cmd 0x14 []; (hostAt [c] []).Runs 7 0x14 c) ∧ (let c := cmd 0x15 []; (hostAt [c] []).Runs 7 0x15 c) ∧
    (let c := cmd 0x16 []; (hostAt [c] []).Runs 7 0x16 c) ∧ (let c := cmd 0x37 [(4, 1)]; (hostAt [c] []).Runs 7 0x37 c) :=
  ⟨fun x h => by subst h; decide, runs_of _ _ _ _ (by decide) (by decide), runs_of _ _ _ _ (by decide) (by decide),
    runs_of _ _ _ _ (by decide) (by decide), runs_of _ _ _ _ (by decide) (by decide), runs_of _ _ _ _ (by decide) (by decide),
    runs_of _ _ _ _ (by decide) (by decide), runs_of _ _ _ _ (by decide) (by decide), runs_of _ _ _ _ (by decide) (by decide),
    runs_of _ _ _ _ (by decide) (by decide), runs_of _ _ _ _ (by decide) (by decide)⟩

/-- The same commands with the job that the arbiter has admitted. -/
def jobFor (k : Nat) (c : HostCmd) : State :=
  { hostAt [c] [] with pwr.jobs := [{ kind := k, tile := 0, idx := 7, tiles := 1, arrived := 0, resume := false, st := 1 }] }

def started (c : HostCmd) : HostCmd := { c with started := true }

theorem witness_HostDataCommandsComplete_jobs :
    (let c := cmd 0x01 [(4, 15), (16, 2)]; (jobFor 4 c).Runs 7 0x01 c) ∧
    (let c := started (cmd 0x04 [(4, 15), (16, 1)]); (jobFor 0 c).RunsLong 7 0x04 c) :=
  ⟨runs_of _ _ _ _ (by decide) (by decide), ready_of _ _ _ _ (by decide), 0, _, by decide, rfl, by decide⟩

theorem witness_HostDataCommandsComplete_reads :
    (let c := cmd 0x01 [(4, 15), (8, 255), (9, 255), (10, 255), (16, 1)]; ((jobFor 4 c).begun c).volCheck (started c) false ≠ 0) ∧
    (∀ n ∈ [1, 2], let c := cmd 0x01 [(4, 15), (16, n)]; let s0 := (jobFor 4 c).begun c
      c.started = false ∧ s0.volCheck (started c) false = 0 ∧ c.fld 4 1 = 15 ∧ c.poison = none ∧
      s0.v15Bad ((c.fld 8 8 + c.pos) * 4096) 4096 = none ∧ (c.fld 16 4 ≤ c.pos + 1 ↔ n = 1)) ∧
    (∀ (s : State) (c : HostCmd), s.blockRead (started c) 15 0 = (s, .done (s.v15Bytes (0 * 4096) 4096) (s.v15Bad (0 * 4096) 4096) false)) ∧
    (let c := started (cmd 0x04 [(4, 15), (16, 1)]); let s0 := (jobFor 0 c).begun c
     c.first = none ∧ c.poison = none ∧ c.fld 4 1 ∉ [2, 3, 4, 5, 6, 7, 8, 9] ∧ s0.v15Bad ((c.fld 8 8 + c.pos) * 4096) 4096 = none ∧
     c.fld 16 4 ≤ c.pos + 1) := by
  refine ⟨by decide, by decide, fun s c => rfl, by decide⟩

theorem witness_HostDataCommandsComplete_rest :
    (let c := cmd 0x02 [(4, 15), (8, 255), (9, 255), (10, 255), (16, 1)]; ((hostAt [c] []).begun c).volCheck (started c) true ≠ 0) ∧
    (let c := cmd 0x02 [(4, 15), (16, 1)]
     c.started = false ∧ ((hostAt [c] []).begun c).volCheck (started c) true = 0 ∧ c.wins = [] ∧ c.winNext = 0 ∧ 1 ≤ c.fld 16 4) ∧
    (let c := started (cmd 0x02 [(4, 15), (16, 1)])
     c.fld 4 1 = 15 ∧ c.fld 16 4 = c.pos + 1 ∧ ({ c with parts := [(0, List.replicate 4096 1)] } : HostCmd).has (4096 * c.pos) 4096 = true ∧
     (hostAt [c] []).on 0 SRAM_INJ_ARMED = false) ∧
    (let c := cmd 0x03 [(4, 255)]; let w : HostCmd := { tag := 8, cap := capsule [(0, 2), (4, 0)], arr := 2 }
     ((hostAt [w, c] []).begun c).host.cmds.any (fun e => e.op = 0x02 && covers c e.arr (e.fld 4 1)) = true ∧
     ((hostAt [c] []).begun c).host.cmds.any (fun e => e.op = 0x02 && covers c e.arr (e.fld 4 1)) = false ∧
     (hostAt [c] []).host.failed.filter (fun x => covers c x.1 x.2.1) = [] ∧
     ({ hostAt [c] [] with host.failed := [(2, 0, 8, 5)] } : State).host.failed.filter (fun x => covers c x.1 x.2.1) = [(2, 0, 8, 5)]) ∧
    (∀ f ∈ [0, 2], let c := cmd 0x11 [(1, f), (4, 1), (16, 64)]; c.fld 4 1 = 1 ∧ (c.flag 1 = true ↔ f = 2)) ∧
    (let c := cmd 0x12 [(4, 2), (8, 1)]; c.fld 4 1 = 2) ∧ (let c := cmd 0x12 [(4, 5), (8, 1)]; c.fld 4 1 = 5) ∧
    (let c := cmd 0x12 [(4, 1), (8, 3)]; let s := hostAt [c] []
     c.fld 4 1 = 1 ∧ 1 ≤ c.fld 8 8 ∧ c.fld 8 8 ≤ 3 ∧ s.host.entryTag = none ∧ s.host.cmds = [c] ∧ s.pstateBlock = none) ∧
    (∀ n ∈ [0, 16], let c := cmd 0x14 [(17, n)]
      c.started = false ∧ ((hostAt [c] []).begun c).downloadCheck (started c) = 0 ∧ (c.fld 16 4 = 0 ↔ n = 0) ∧ c.wins = [] ∧ c.winNext = 0) ∧
    (let c := cmd 0x14 [(11, 255), (17, 16)]; ((hostAt [c] []).begun c).downloadCheck (started c) ≠ 0) ∧
    (let c := cmd 0x15 [(8, 64)]; let s := hostAt [c] []
     c.n1 = 0 ∧ 4 ≤ s.step_ ∧ c.fld 4 1 = 0 ∧ c.fld 8 4 ≤ slotBytes ∧ (s.begun c).v15Bad 0 (c.fld 8 4) = none ∧
     ∀ e ∈ s.host.cmds, e.arr < c.arr → e.op ≠ 0x14 ∧ e.op ≠ 0x02) ∧
    (∀ a ∈ [0, 1, 2], (cmd 0x37 [(4, a)]).fld 4 1 = a) ∧
    (({ started (cmd 0x37 [(4, 1)]) with parts := [(0, List.replicate 824 1)] } : HostCmd).has 0 824 = true) := by
  refine ⟨by decide, by decide, by decide, by decide, by decide, by decide, by decide, by decide, by decide, by decide, by decide, by decide, by decide⟩

theorem witness_HostUnitCommandsComplete_runs :
    (∀ f ∈ [0, 2], (cmd 0x30 [(1, f)]).op = 0x30) ∧ (let c := cmd 0x30 [(11, 0x40), (16, 1)]; (hostAt [c] []).Runs 7 0x30 c) ∧
    (let c := started (cmd 0x31 [(11, 0x40), (16, 2)]); (hostAt [c] []).Runs 7 0x31 c) ∧
    (let c := started (cmd 0x32 [(4, 1), (5, 7)]); (hostAt [c] []).Runs 7 0x32 c) ∧
    (let c := cmd 0x33 [(5, 7)]; (hostAt [c] []).Runs 7 0x33 c) ∧ (let c := cmd 0x34 [(5, 7)]; (hostAt [c] []).Runs 7 0x34 c) ∧
    (let c := cmd 0x35 [(4, 3), (5, 15)]; (hostAt [c] []).Runs 7 0x35 c) ∧ (let c := cmd 0x24 [(4, 3), (8, 1)]; (hostAt [c] []).Runs 7 0x24 c) ∧
    (let c := started (cmd 0x40 [(4, 1), (5, 1)]); (jobFor 1 c).RunsLong 7 0x40 c) ∧
    (let c := started (cmd 0x41 [(4, 0), (5, 0)]); (jobFor 2 c).RunsLong 7 0x41 c) ∧
    (let c := started (cmd 0x42 [(4, 0), (5, 1)]); (jobFor 3 c).RunsLong 7 0x42 c) :=
  ⟨by decide, runs_of _ _ _ _ (by decide) (by decide), runs_of _ _ _ _ (by decide) (by decide), runs_of _ _ _ _ (by decide) (by decide),
    runs_of _ _ _ _ (by decide) (by decide), runs_of _ _ _ _ (by decide) (by decide), runs_of _ _ _ _ (by decide) (by decide),
    runs_of _ _ _ _ (by decide) (by decide), ⟨ready_of _ _ _ _ (by decide), 1, _, by decide, rfl, by decide⟩,
    ⟨ready_of _ _ _ _ (by decide), 2, _, by decide, rfl, by decide⟩, ⟨ready_of _ _ _ _ (by decide), 3, _, by decide, rfl, by decide⟩⟩

theorem witness_HostUnitCommandsComplete_fields :
    ((cmd 0x30 [(16, 1)]).spaceOk false = false ∧ (cmd 0x30 [(11, 0x40), (16, 1)]).spaceOk false = true) ∧
    (let c := cmd 0x30 [(11, 0x40), (16, 1)]; let r := ((hostAt [c] []).begun c).hostReads (c.fld 8 8 - hostBase) c.wordStep (c.fld 16 4) []
     r.2.1.length = 4 ∧ r.2.2 = .ok) ∧
    (let c := started (cmd 0x31 [(16, 2)]); ((hostAt [c] []).begun c).regWriteCheck c ≠ 0) ∧
    (let c : HostCmd := { started (cmd 0x31 [(11, 0x40), (16, 2)]) with parts := [(0, List.replicate 8 0)] }
     ((hostAt [c] []).begun c).regWriteCheck c = 0 ∧ c.has 0 c.dataLen = true ∧ c.isBad 0 (4 * c.fld 16 4) = false ∧ c.flag 2 = false ∧
     (((hostAt [c] []).begun c).hostWrites (c.fld 8 8 - hostBase) c.wordStep none (wordsOf (c.fld 16 4) (c.got 0 (4 * c.fld 16 4))) 0).2.2 ≠ .doomed) ∧
    (let c := started (cmd 0x32 [(4, 1), (5, 7), (16, 8)]); c.fld 5 1 < 8 ∧ ({ c with parts := [(0, List.replicate 8 0)] } : HostCmd).has 0 c.dataLen = true) ∧
    (∀ op ∈ [0x33, 0x34], let c := cmd op [(5, 7)]; let s := hostAt [c] []
      c.fld 5 1 < 8 ∧ s.has (c.fld 4 1) = true ∧ s.isolated (c.fld 4 1) = false ∧ s.seamWalk 8 0 (c.fld 4 1) = none ∧ s.on 0 SRAM_INJ_ARMED = false ∧
      (s.crew 0 7).state = 0 ∧ (s.crew 0 7).tx = none ∧ ((s.setCrew 0 7 { state := 1 }).crew 0 7).state ≠ 0) ∧
    (let s := hostAt [cmd 0x35 []] []; (cmd 0x35 []).fld 4 1 = 0 ∧ ((List.range 16).find? fun i => (s.txn i).state = 0) = some 0) ∧
    (let c := cmd 0x35 [(4, 3), (5, 15)]; let s := hostAt [c] []
     c.fld 4 1 = 3 ∧ c.n1 = 0 ∧ ((s.setTxn 15 { state := 1, host := true }).txn (c.fld 5 1)).host = true ∧
     ((s.setTxn 15 { state := 1, host := true }).txn (c.fld 5 1)).state ∈ [1, 2, 3] ∧ (s.txn (c.fld 5 1)).host = false) ∧
    (let c := started (cmd 0x24 [(4, 3), (8, 1)]); ((hostAt [c] []).evt.aborts.any fun r => bit (c.fld 4 1) r.1 && (r.2 &&& c.fld 8 4) != 0) = false) ∧
    (let c := cmd 0x24 [(4, 3), (11, 255)]; ((hostAt [c] []).begun c).unitAbortCheck (c.fld 4 1) (c.fld 8 4) ≠ 0) ∧
    (let c := started (cmd 0x40 []); scrubAt (((jobFor 1 c).begun c).scrubPlan c) c.pos = none) ∧
    (let c := started (cmd 0x40 [(4, 1), (5, 1)]); let s0 := (jobFor 1 c).begun c
     scrubAt (s0.scrubPlan c) c.pos = some (0, 0, 0) ∧ s0.f 0 (MCC_STAT_STATE 0) ∉ [2, 3] ∧ (scrubAt (s0.scrubPlan c) (c.pos + 1)).isSome = true) ∧
    (let c := started (cmd 0x41 [(4, 9)]); c.n1 = 0 ∧ (jobFor 2 c).has (c.fld 4 1) = false) ∧
    (let c : HostCmd := { started (cmd 0x41 []) with n1 := 1 }; let s := ((jobFor 2 c).setF 0 (HD_STAT_STATE 0) 3).setF 0 (HE_STAT_STATE 0) 3
     c.n1 = 1 ∧ s.hdState 0 0 = 3 ∧ s.f 0 (HE_STAT_STATE (c.fld 6 1)) = 3) := by
  refine ⟨by decide, by decide, by decide, by decide, by decide, by decide, by decide, by decide, by decide, by decide, by decide, by decide, by decide,
    by decide⟩

/-! ### Witnesses: memory controller -/

/-- Channel c of tile 1 in a state; address 0x700 lies in channel 7. -/
def chanIn (c st : Nat) (x : McChan) : State := (allUp.setF 1 (MCC_STAT_STATE c) st).setMcChan 1 c x

/-- The word at address 0x700 of tile 1 with error bits. -/
def wordErr (e : Nat) (m : Bool) : State := (chanIn 7 2 {}).setEcc 1 0x700 e m

theorem witness_MemoryRequestCommandsComplete_requests :
    (allUp.live 1 5 = true ∧ allUp.dramSize 1 ≤ 2 ^ 36 ∧ (chanIn 7 4 {}).f 1 (MCC_STAT_STATE ((chanIn 7 4 {}).chanOf 1 0x700)) = 4) ∧
    (let s := chanIn 7 2 {}; let x := s.mcChan 1 (s.chanOf 1 0x700)
     0x700 < s.dramSize 1 ∧ s.on 1 SRAM_INJ_ARMED = false ∧ s.chanOf 1 0x700 = 7 ∧ s.f 1 (MCC_STAT_STATE 7) = 2 ∧ x.wq = [] ∧ x.victims = [] ∧
     smLook x.openRows (s.bankOf 1 (chanOffset 0x700)) ≠ some (s.rowOf 1 (chanOffset 0x700)) ∧
     ((smGet x.tables (s.bankOf 1 (chanOffset 0x700)) {}).act (s.rowOf 1 (chanOffset 0x700))).count (s.rowOf 1 (chanOffset 0x700)) < s.f 1 MC_MIT_MIT_THR ∧
     (x.wq.any fun e => e.line = 0x700 / 64) = false ∧ x.wq.length < s.f 1 (MCC_PAGE_WQ_LO 7)) ∧
    (let s := (chanIn 7 2 { openRows := [(0, 0)] }).setF 1 MC_MIT_MIT_THR 1
     smLook (s.mcChan 1 7).openRows (s.bankOf 1 (chanOffset 0x700)) = some (s.rowOf 1 (chanOffset 0x700))) ∧
    (let s := (chanIn 7 2 { openRows := [(0, 5)] }).setF 1 MC_MIT_MIT_THR 1; let x := s.mcChan 1 7
     smLook x.openRows 0 ≠ some 0 ∧ s.f 1 MC_MIT_MIT_THR ≤ ((smGet x.tables 0 {}).act 0).count 0) ∧
    ((chanIn 7 1 {}).f 1 (MCC_STAT_STATE ((chanIn 7 1 {}).chanOf 1 0x700)) = 1 ∧ (chanIn 7 1 {}).chanOf 1 0x700 = 7 ∧ ¬((1 : Nat) = 1 ∧ 5 = 14)) ∧
    (let s := (chanIn 7 2 {}).setReg 1 (MC_PORT_PANIC_PANIC 4).off 0x00100008
     portBuffer 4 < portBuffer 4 + 1 ∧ s.f 1 (MC_PORT_PANIC_PANIC 4) ≤ 16 ∧ 16 ≤ portBuffer 4 ∧ bit (s.f 1 (MC_PORT_STAT_PANIC 4)) 7 = false ∧
     0 ≤ s.f 1 (MC_PORT_PANIC_CALM 4) ∧ 0 < s.f 1 (MC_PORT_PANIC_PANIC 4)) := by
  refine ⟨by decide, by decide, by decide, by decide, by decide, by decide⟩

theorem witness_MemoryRequestCommandsComplete_rest :
    (let s := wordErr 0 false
     s.f 1 (MCC_STAT_STATE (s.chanOf 1 0x700)) = 2 ∧ (s.mcChan 1 (s.chanOf 1 0x700)).wq = [] ∧ 0x700 < s.dramSize 1 ∧
     eccDecode (eccSyndrome (s.eccErr 1 0x700)) (s.mapBit 1 0x700) = .clean) ∧
    (let s := wordErr poisonPattern true; eccDecode (eccSyndrome (s.eccErr 1 0x700)) (s.mapBit 1 0x700) = .poisoned) ∧
    (let s := wordErr (2 ^ 71) false; eccDecode (eccSyndrome (s.eccErr 1 0x700)) (s.mapBit 1 0x700) = .corrected 71) ∧
    (let s := wordErr 3 false; eccDecode (eccSyndrome (s.eccErr 1 0x700)) (s.mapBit 1 0x700) = .uncorrectable) ∧
    (∀ n ∈ [0, 7, 8], let s := ((chanIn 7 2 {}).setF 1 (owedF 7 0) n).setF 1 (MC_PORT_STAT_PANIC 4) 128
      s.panicOn 1 7 = true ∧ s.f 1 (owedF 7 0) = n ∧ s.f 1 (MCC_STAT_STATE 7) = 2) ∧
    (let s : State := { chanIn 7 2 {} with now := 10 ^ 9 }
     s.refreshReady 1 7 0 = true ∧ s.mitReady 1 7 = true ∧ s.pageReady 1 7 3 = true ∧ s.throtReady 1 = true ∧ s.mr4Ready 1 7 = true ∧
     s.periodDue 3 15 (s.scrubTicks 1 7) = true ∧ (s.setPeriod 8 30).refreshReady 1 7 0 = false ∧ (s.setPeriod 1 15).mitReady 1 7 = false ∧
     (s.setPeriod 2 1).throtReady 1 = false ∧ (s.setPeriod 0 15).mr4Ready 1 7 = false ∧ (s.setPeriod 3 15).periodDue 3 15 ((s.setPeriod 3 15).scrubTicks 1 7) = false ∧
     ((s.setF 1 (MCC_PAGE_PAGE_IDLE 7) 5).setMcChan 1 7 { used := [(3, 10 ^ 9)] }).pageReady 1 7 3 = false) ∧
    ((chanIn 7 2 {}).panicOn 1 7 = false ∧ ((chanIn 7 2 {}).setB 1 MC_CFG_RANKS2 true).on 1 MC_CFG_RANKS2 = true) ∧
    (let s := (chanIn 7 2 {}).setB 1 (SCRUB_CTL_EN 7) true
     s.on 1 (SCRUB_CTL_EN 7) = true ∧ s.f 1 (SCRUB_POS_LINE 7) + 1 < s.chanLines 1 ∧
     (∀ w, w < 8 → s.eccErr 1 (s.addrOf 1 7 (s.f 1 (SCRUB_POS_LINE 7) * 64) + 8 * w) = 0 ∧
       s.mapBit 1 (s.addrOf 1 7 (s.f 1 (SCRUB_POS_LINE 7) * 64) + 8 * w) = false) ∧
     (let s := s.setF 1 (SCRUB_POS_LINE 7) (s.chanLines 1 - 1); s.chanLines 1 ≤ s.f 1 (SCRUB_POS_LINE 7) + 1)) ∧
    (let c : McChan := { charges := [(13, 5)], remoteRt := true }
     (leadPort c.charges).2 ≠ 0 ∧ (rtPort (leadPort c.charges).1 || ((leadPort c.charges).1 == 13 && c.remoteRt)) = true ∧
     (rtPort (leadPort [(13, 5)]).1 || ((leadPort [(13, 5)]).1 == 13 && false)) = false ∧ (allUp.setF 1 MC_THROT_THR_MIN 5).f 1 MC_THROT_THR_MIN ≤ 5) := by
  refine ⟨by decide, by decide, by decide, by decide, by decide, by decide, by decide, by decide, by decide⟩

theorem witness_MemoryChannelCommandsComplete :
    (allUp.up 1 5 = true ∧ allUp.on 1 (MCC_CTL_EN 7) = false ∧ (allUp.setF 1 MC_CFG_DENSITY 3).dramSize 1 = 0 ∧ allUp.dramSize 1 ≠ 0 ∧
      (allUp.setF 1 MC_CFG_DENSITY 3).on 1 (MCC_CTL_EN 7) = false) ∧
    (let s := chanIn 7 4 {}; s.f 1 (MCC_STAT_STATE 7) = 4 ∧ s.writes = [] ∧ s.dramSize 1 ≠ 0 ∧ s.on 1 (MCC_CTL_EN 7) = false) ∧
    (let s := (chanIn 7 2 {}).setB 1 (MCC_CTL_EN 7) true; s.on 1 (MCC_CTL_EN 7) = true ∧ (s.mcChan 1 7).wq = [] ∧ s.f 1 (MCC_STAT_STATE 7) ≠ 4) ∧
    ((chanIn 7 3 {}).f 1 (MCC_STAT_STATE 7) = 3 ∧ (chanIn 7 3 {}).on 1 SRAM_INJ_ARMED = false ∧ ((chanIn 7 3 {}).mcChan 1 7).waits = [] ∧
      (let q : McReq := { port := 5, addr := 0x700, wr := false, rt := false }; (chanIn 7 3 { waits := [q] }).mcChan 1 7 = { waits := [q] } ∧ q.wr = false) ∧ (chanIn 7 2 {}).f 1 (MCC_STAT_STATE 7) = 2) ∧
    (bits 2 0 2 ≠ 3 ∧ bits 3 0 2 = 3 ∧ bits 0x1000A 0 2 ≠ 3 ∧ bits 0x1000A 2 2 ≠ 3 ∧ bits 0x1000A 16 16 ≠ 0) ∧
    (let s : State := { chanIn 7 1 {} with mem.mrBusy := smPut [] (tk 1 7) true false, mem.trBusy := smPut [] (tk 1 7) true false }
     smGet s.mem.mrBusy (tk 1 7) false = true ∧ smGet s.mem.trBusy (tk 1 7) false = true ∧ s.f 1 (MCC_STAT_STATE 7) = 1) ∧
    (smGet allUp.mem.mrBusy (tk 1 7) false = false ∧ smGet allUp.mem.trBusy (tk 1 7) false = false) ∧
    (∀ k, k = 2 ∨ 8 ≤ k ∧ k < 15 → k < 16) ∧
    (let e : WqEnt := ⟨0, 1, List.replicate 64 0, false⟩; ((chanIn 7 2 { wq := [e] }).mcChan 1 7).wq[0]? = some e) ∧
    (allUp.live 1 0 = true ∧ 7 < 8) := by
  refine ⟨by decide, by decide, by decide, by decide, by decide, by decide, by decide, by omega, by decide, by decide⟩

/-! ### Witnesses: position, audio, power, JTAG -/

/-- Position channel 3 in a mode, no fault. -/
def posIn (mode : Nat) (x : PosCh) : State := ((allUp.setF 0 (PC_CTL_MODE 3) mode).setPosCh 3 x).setF 0 (PC_WIRE_AMP_CNT 3) 4

def idxIn (m : Nat) (md : Bool) : State :=
  (((((posIn m {}).setB 0 (PC_CTL_IDX_EN 3) true).setReg 0 (PC_IDX_N 3) 7).setB 0 (PC_CTL_IDX_MODE 3) md).setB 0 (PC_STAT_DIR 3) true).setReg 0 (PC_POS_LO 3) 3

theorem witness_PositionCommandsComplete_channels :
    (∀ m ∈ [0, 1, 2], let s := posIn m {}; s.live 0 0 = true ∧ s.f 0 (PC_CTL_MODE 3) = m ∧ s.posHalted = false ∧ (s.posCh 3).angle = none ∧
      (s.posCh 3).faulty = false ∧ s.posFault 3 = false ∧ (∀ k, k < 8 → s.on 0 (CMP_CTL_ARMED 3 k) = false) ∧ s.f 0 (PC_STAT_IDX_W 3) = 0) ∧
    (let s := posIn 1 { angle := some 4095 }; (s.posCh 3).angle = some 4095 ∧ (s.posCh 3).bad + 1 < s.f 0 (PC_WIRE_AMP_CNT 3)) ∧
    ((quadIndex false false + 4 - quadIndex false false) % 4 = 0 ∧ (quadIndex true false + 4 - quadIndex false false) % 4 = 1 ∧
      (quadIndex false false + 4 - quadIndex true false) % 4 = 3 ∧ (quadIndex true true + 4 - quadIndex false false) % 4 = 2) ∧
    (let s : State := { (posIn 1 {}).setB 0 (PC_STAT_METHOD 3) true with now := 80000000 }
     s.on 0 (PC_STAT_METHOD 3) = true ∧ (s.posCh 3).winTick + s.f 0 (PC_SPDCFG_WIN 3) * usTicks ≤ s.now) ∧
    (let s : State := { posIn 1 { edgeTick := some 0 } with now := 800000000 }
     (s.posCh 3).edgeTick = some 0 ∧ s.on 0 (PC_STAT_METHOD 3) = false ∧ 0 + max 1 (s.f 0 (PC_PER_MAX_PER_MAX 3)) * 1000 * usTicks ≤ s.now) ∧
    (∀ md ∈ [false, true], let s := idxIn 1 md
      s.on 0 (PC_CTL_IDX_EN 3) = true ∧ s.reg 0 (PC_IDX_N 3) ≠ 0 ∧ s.on 0 (PC_CTL_IDX_MODE 3) = md ∧ true = s.on 0 (PC_STAT_DIR 3) ∧
      false ≠ s.on 0 (PC_STAT_DIR 3) ∧ s.on 0 (PC_STAT_HOMED 3) = false ∧ s.posAt 3 (s.now - 0) = 3) ∧
    (let s := (idxIn 1 false).setF 0 (PC_IDX_TOL_IDX_TOL 3) 0
     let m := ((s.posAt 3 0 - (s.reg 0 (PC_IDX_EXP 3) : Nat)) % (7 : Nat)).toNat
     m = 3 ∧ ¬ absI (if 7 ≤ 2 * m then (m : Int) - 7 else m) ≤ ((s.f 0 (PC_IDX_TOL_IDX_TOL 3) : Nat) : Int) ∧
     (let s := s.setReg 0 (PC_IDX_EXP 3) 3; ((s.posAt 3 0 - (s.reg 0 (PC_IDX_EXP 3) : Nat)) % (7 : Nat)).toNat = 0)) := by
  refine ⟨by decide, by decide, by decide, by decide, by decide, by decide, by decide⟩

theorem witness_PositionCommandsComplete_compares :
    (allUp.live 0 0 = true ∧ allUp.on 0 (CMP_CTL_ARMED 3 7) = false) ∧
    (∀ step ∈ [0, 100], let s := ((allUp.setB 0 (PC_STAT_STOPPED 3) false).setB 0 (PC_STAT_DIR 3) true).setReg 0 (CMP_STEP 3 7) step
      let s := (s.setB 0 (CMP_CTL_ARM_IMMEDIATE 3 7) true).setB 0 (CMP_CTL_ACT_EVT 3 7) true
      (!s.on 0 (PC_STAT_STOPPED 3) && (if s.on 0 (PC_STAT_DIR 3) then decide (0 ≤ rel48 (s.cmpTgt 3 7) (s.posP 3))
        else decide (rel48 (s.cmpTgt 3 7) (s.posP 3) ≤ 0))) = true ∧ s.on 0 (CMP_CTL_ARM_IMMEDIATE 3 7) = true ∧
      s.on 0 (CMP_CTL_ACT_EVT 3 7) = true ∧ s.on 0 (CMP_CTL_ACT_XTRIG 3 7) = false ∧ s.on 0 (CMP_CTL_ACT_GEY 3 7) = false ∧
      s.on 0 (CMP_CTL_ACT_CAP 3 7) = false ∧ s.on 0 (CMP_CTL_ACT_COMMIT 3 7) = false ∧ s.a 0 BS_TRIG_KIND ≠ 2 ∧
      (sx 32 (s.reg 0 (CMP_STEP 3 7)) = 0 ↔ step = 0)) ∧
    (let s : State := { allUp with pos.lens := smPut [] 7 { reports := [(0, 5)] } {} }; (smGet s.pos.lens 7 {}).reports = (0, 5) :: []) ∧
    ((smGet allUp.pos.lens 7 {}).reports = [] ∧ (smGet allUp.adit.ports (tk 0 0) {}).lastN = none) ∧
    (let s := ((allUp.setB 0 (LM_CFG_EN 7) true).setF 0 (LM_CFG_TILE 7) 1).setPort 1 0 { lastN := some 9, lastCnt := some 4 }
     (smGet s.adit.ports (tk (s.f 0 (LM_CFG_TILE 7)) (s.f 0 (LM_CFG_SRC 7))) {}).lastN = some 9 ∧ s.on 0 (LM_CFG_EN 7) = true ∧
     (smGet s.pos.lens 7 {}).lastN ≠ some 9) := by
  refine ⟨by decide, by decide, by decide, by decide, by decide⟩

theorem witness_PositionCommandsComplete_memory :
    let s := ((allUp.setB 0 (LM_CFG_EN 7) true).setF 0 (LM_CFG_TILE 7) 1).setPort 1 0 { lastN := some 9, lastCnt := some 4 }
    s.CleanMem ∧ (∀ u a, s.failedAt u a = false) ∧
      (let at_ := s.reg64 0 (LM_BASE_LO 7) + 64 * s.f 0 (LM_NEXT_NEXT 7); s.dramOk 0 at_ 64 = true ∧ (dramAt 0 at_).2 % 64 = 0 ∧
        ∀ i, i < 64 → dramAt 0 (at_ + i) = ((dramAt 0 at_).1, (dramAt 0 at_).2 + i)) :=
  ⟨clean_of _ (by decide) (by decide) (by decide), failed_of _ (by decide), by decide⟩

/-- Audio in a state at a block number, with the set MASK and the channels ACTIVE. -/
def audioIn (st : Nat) (warm : Bool) (m a : Nat) : State :=
  { ((allUp.setF 0 AUD_STAT_STATE st).setF 0 AUD_MASK_MASK m).setF 0 AUD_MASK_ACTIVE a with audio.warm := warm }

theorem witness_AudioCommandsComplete :
    (∀ st ∈ [0, 1, 2, 3], let s := audioIn st false 5 5
      s.live 0 0 = true ∧ s.f 0 AUD_STAT_STATE = st ∧ (∀ ch, ch < 16 → (s.aud ch).fade = 0) ∧ s.audActive 0 = true ∧ s.audActive 1 = false ∧
      s.overrunning 0 4 0 = false) ∧
    (let s := (audioIn 1 true 5 3).setChan 0 (allUp.f 0 AUD_CTL_CHAN) { sec := 1 }; atOrAfter s.audNow (s.audT 0) = true ∧ s.on 0 AUD_STAT_PEND = false ∧ (s.setB 0 AUD_STAT_PEND true).on 0 AUD_STAT_PEND = true) ∧
    (let s := audioIn 2 false 5 5; atOrAfter s.audNow (s.audT (s.reg 0 AUD_BLOCK + 1)) = false) ∧
    (let s := (audioIn 2 false 5 5).setChan 0 (allUp.f 0 AUD_CTL_CHAN) { sec := 1 }
     atOrAfter s.audNow (s.audT (s.reg 0 AUD_BLOCK + 1)) = true) ∧
    (let s := ((audioIn 2 false 5 5).setReg 0 AUD_BLOCK 200).setAud 15 { fade := 2, since := 0 }
     ((s.aud 15).fade = 1 ∨ (s.aud 15).fade = 2) ∧ (s.aud 15).since + max 1 (s.f 0 AUD_CTL_ZC_TMO) ≤ s.reg 0 AUD_BLOCK ∧ s.f 0 AUD_STAT_STATE ≠ 0) ∧
    ¬ (((audioIn 2 false 5 5).aud 15).fade = 1 ∨ ((audioIn 2 false 5 5).aud 15).fade = 2) ∧
    (firstCrossing (some (-5)) [-3, 2, 4] 0 = some 1 ∧ 2 < [-3, 2, 4].length) := by
  refine ⟨by decide, by decide, by decide, by decide, by decide, by decide, by decide⟩

def oneJob (j : ArbJob) (lim pwr : Nat) : State :=
  let s := (allUp.setReg 0 PKG_LIMIT lim).setReg 0 PKG_PWR pwr
  { s with pwr.jobs := [j] }

/-- The periodic actions of R180, R428, R447, R456, R461, R462 and R465: due at first, not due again at once. -/
theorem witness_periods :
    ∀ e ∈ [(4, 7, 100 * usTicks), (5, 7, 10 * usTicks), (6, 0, 1000 * usTicks), (7, 0, 10 * usTicks), (9, 3, 200), (10, 7, 10000 * usTicks), (11, 0, 1000 * usTicks)],
      allUp.periodDue e.1 e.2.1 e.2.2 = true ∧ (allUp.setPeriod e.1 e.2.1).periodDue e.1 e.2.1 e.2.2 = false := by decide

theorem witness_ThermalAndPowerCommandsComplete_sites :
    (allUp.has 7 = true ∧ allUp.boot.porLow = false ∧ (sx 16 (ux 16 (-961)) < -960) ∧ sx 16 (ux 16 2400) = 2400 ∧ sx 16 (ux 16 (-960)) = -960 ∧
      (allUp.thSite 7 23).same + 1 < 10000 ∧ allUp.pwr.shutdown = none ∧ allUp.pwr.pwrOff = false) ∧
    (∀ now ∈ [0, 8000000, 800000], let s : State := { allUp with now := now }
      s.live 0 0 = true ∧ (s.now / (1000 * usTicks) ≤ s.pwr.plimTick ↔ now = 0) ∧ s.on 0 THERM_STAT_THROTTLE = false ∧ s.dramHot = false ∧
      (s.now / (1000 * usTicks) % 10 = 0 ↔ now ≠ 800000) ∧ (s.pwr.hotTick = 0 ∨ s.pwr.hotTick - 1 + 10000 * usTicks ≤ s.now)) ∧
    (let s : State := { allUp with now := 8000000, pwr.hotTick := 2 }; ¬ (s.pwr.hotTick = 0 ∨ s.pwr.hotTick - 1 + 10000 * usTicks ≤ s.now)) ∧
    (allUp.setB 0 THERM_STAT_THROTTLE true).on 0 THERM_STAT_THROTTLE = true := by
  refine ⟨by decide, by decide, by decide, by decide⟩

theorem witness_ThermalAndPowerCommandsComplete_devices :
    (∀ en ∈ [false, true], (allUp.setB 0 PMB_CFG_EN en).on 0 PMB_CFG_EN = en) ∧
    (let s := (((allUp.setB 0 (PMB_DEV_EN 7) true).setB 0 (PMB_DEV_TRIM 7) true).setF 0 (PMB_DEV_TILES 7) 2).setF 0 (PMB_DEV_RAIL 7) 0
     let s := (s.setB 0 (PMB_DEV_FAULT_EN 7) true).setF 1 (PWR_ISL_MW 0) 5
     s.on 0 (PMB_DEV_EN 7) = true ∧ s.trimTile 7 = some 1 ∧ (∀ e, e < 8 → s.trimTile e = some 1 → e = 7) ∧ bit (s.f 0 PMB_STAT_NACK) 7 = false ∧
     s.coreSum 1 ≠ 0 ∧ s.on 0 (PMB_DEV_FAULT_EN 7) = true ∧ s.f 0 PL_PSTATE_STATE ≤ 1) ∧
    (regWarn 4 = true ∧ regFault 8 = true) ∧ allUp.on 0 (PMB_DEV_EN 6) = false := by
  refine ⟨by decide, by decide, by decide, by decide⟩

theorem witness_ThermalAndPowerCommandsComplete_jobs :
    (∀ lim ∈ [100, 100000], let j : ArbJob := { kind := 0, tile := 0, idx := 7, tiles := 1 }; let s := (oneJob j lim 50).setF 0 (JOB_COST_MW 0) 500
      let h : Int := (s.reg 0 PKG_LIMIT : Nat) - (s.reg 0 PKG_PWR : Nat) - ((((s.pwr.recent.filter fun e => s.now < e.1 + 100 * usTicks).map (·.2)).foldl (· + ·) 0 : Nat))
      s.live 0 0 = true ∧ s.on 0 PLIM_STAT_RT_SHORT = false ∧ s.f 0 PL_PSTATE_STATE < 2 ∧ s.pwr.jobs = [j] ∧ j.st = 0 ∧ j.kind ∉ [2, 5, 6, 7] ∧
      s.reg 0 PKG_PWR ≤ s.reg 0 PKG_LIMIT ∧ 0 ≤ h ∧ ((s.jobCost j : Int) ≤ h ↔ lim = 100000)) ∧
    (let s : State := { (allUp.setReg 0 PKG_LIMIT 100).setReg 0 PKG_PWR 50 with pwr.recent := [(0, 60)] }
     s.pwr.jobs = [] ∧ ((s.reg 0 PKG_LIMIT : Nat) : Int) - (s.reg 0 PKG_PWR : Nat) -
       ((((s.pwr.recent.filter fun e => s.now < e.1 + 100 * usTicks).map (·.2)).foldl (· + ·) 0 : Nat)) < 0 ∧ s.pwr.negRun + 1 < 500) ∧
    (let s := (allUp.setReg 0 PKG_LIMIT 100).setReg 0 PKG_PWR 101; s.pwr.jobs = [] ∧ s.reg 0 PKG_LIMIT < s.reg 0 PKG_PWR) ∧
    (let j : ArbJob := { kind := 0, tile := 0, idx := 7, tiles := 1, st := 1 }
     let s : State := { (oneJob j 100 101).setF 0 (JOB_COST_MW 0) 500 with pwr.negRun := 499 }
     s.pwr.jobs = [j] ∧ j.st = 1 ∧ j.kind ∉ [2, 4, 5, 6, 7] ∧ ((s.reg 0 PKG_LIMIT : Nat) : Int) - (s.reg 0 PKG_PWR : Nat) < 0 ∧
     ((s.reg 0 PKG_PWR : Nat) : Int) - (s.jobCost j : Nat) ≤ (s.reg 0 PKG_LIMIT : Nat) ∧ 500 ≤ s.pwr.negRun + 1) ∧
    (let s : State := { allUp with pwr.shutdown := some (1, 7, 23, 2000) }
     s.pwr.shutdown = some (1, 7, 23, 2000) ∧ s.boot.railBad = false ∧ s.pwr.mram.ring.length < 64) ∧
    (let s : State := { allUp with now := 800000, pwr.armTick := 1 }
     s.up 0 0 = true ∧ s.pwr.armTick ≠ 0 ∧ s.now ≤ s.pwr.armTick - 1 + 1000 * usTicks ∧ s.pwr.armTick - 1 + 1000 * usTicks < s.now + 1 ∧
     s.pwr.shutdown = none ∧ s.pwr.pwrOff = false) := by
  refine ⟨by decide, by decide, by decide, by decide, by decide, by decide⟩

theorem witness_JtagInstructionsComplete : State.reset.has 7 = true ∧ State.reset.has 8 = false := by decide

/-! ### The spec's own examples -/

/-- The encodings worked from R70 to R75: the row that each word names, and its fields. -/
theorem test_encodings :
    (opOf 0x00642800, gdOf 0x00642800, gaOf 0x00642800, gbOf 0x00642800, funcOf 0x00642800) = (0, 3, 4, 5, 0) ∧
    (opOf 0x04A6FFFC, gdOf 0x04A6FFFC, gaOf 0x04A6FFFC, immOf 0x04A6FFFC) = (1, 5, 6, 0xFFFC) ∧
    (opOf 0x24453002, bits 0x24453002 21 3, gaOf 0x24453002, gbOf 0x24453002, bits 0x24453002 0 3) = (9, 2, 5, 6, 2) ∧
    (opOf 0x58E20018, gdOf 0x58E20018, gaOf 0x58E20018, immOf 0x58E20018) = (0x16, 7, 2, 0x18) ∧
    (opOf 0x81FFFFFE, sx 22 (bits 0x81FFFFFE 0 22)) = (0x20, -2) ∧
    (opOf 0xFC000021, subOf 0xFC000021, imm8Of 0xFC000021) = (0x3F, 0, 0x21) := by decide

/-- add g3, g4, g5 run by a crew (R73). -/
theorem test_add : (match exec (.opr 0 0) (crewW 0x00642800 { g := [(4, 0xFFFFFFFFFFFFFFFF), (5, 2)] }) with
    | .next r => (r.crew 0 0).gr 3 == 1 && (r.crew 0 0).pc == 4
    | _ => false) = true := by decide

/-- The servo of TC1 with KP 31, KI 34 takes 200 ns, then 156.181 ns: corrections of 450 and 401 units (R108, R109). -/
theorem test_servo :
    let s := (((allUp.setB 0 (TC_SERVO_EN 1) true).setF 0 (TC_SERVO_KP 1) 31).setF 0 (TC_SERVO_KI 1) 34)
    let s := (s.setReg 0 (TC_BASE_LO 1) (nominalInc % 2 ^ 32)).setReg 0 (TC_BASE_HI 1) (nominalInc / 2 ^ 32)
    let a := s.servoSample 1 (200 * 2 ^ 32)
    let b := a.servoSample 1 (156181 * 2 ^ 32 / 1000)
    (a.steer 1).acc = nominalInc + 450 ∧ (b.steer 1).acc = nominalInc + 401 := by decide

/-- The black level of the giant-screen row (R185, R186). -/
theorem test_black_level :
    obMean 1049280 64 = 4197120 ∧ clampStep 3 [0] [4195840, 0, 0, 0] 1 [1049280, 0, 0, 0] [64, 0, 0, 0] = ([4196000, 0, 0, 0], 1, false) ∧
    (allUp.setB 0 (RC_CFG_CLAMP_EN 0).act true).blackLevel 0 0 { clamp := [4196000, 0, 0, 0], sValid := 1 } { ped := 4096 } 0 0 40000 = 27705 := by decide

/-- Weights and coordinate of the shading example (R197, R198), and the shaded sample (R200). -/
theorem test_shading :
    gridCoord 0 104858 12345 = (77, 641) ∧ catmull 641 = [-912, 15475, 1990, -169] ∧
    rnd 28 (16384 * (-912 * 5120 + 15475 * 5160 + 1990 * 5200 + -169 * 5240)) = 5166 ∧ rnd 8 ((256 - 96) * 5166 + 96 * 4802) = 5030 ∧
    4096 + rnd 12 ((27705 - 4096) * 5030) = 33088 := by decide

/-- The tone entry of the red value (R217), and the BT.709 pixel (R221, R222). -/
theorem test_develop :
    toneIndex 123456 = (3298, 1024) ∧ 40000 + rnd 12 ((40100 - 40000) * 1024) = 40025 ∧ quantise 0 false 10 (40025, 36000, 30000) = (551, 465, 543) := by decide

/-- Columns 1,080 and 1,079 of the scaled giant-screen view (R233). -/
theorem test_scaler :
    let s := (allUp.setB 3 (OC_CFG_SCALE_EN 0).act true).setF 3 (OC_HDELTA_HDELTA 0).act 119304647
    let s := s.setReg 3 (OC_HP0_LO 0 + 0x8000) 51263716
    posIndex 24 (s.hPos 3 0 1080) = (7683, 3) ∧ posIndex 24 (s.hPos 3 0 1079) = (7675, 60) := by decide

/-- The coded slab after R267: its residuals, code words and header (R255 to R259). -/
theorem test_slab :
    let j : SlabJob := { n := 2, idx := 1, px := ((List.range 23).map fun i => 128 + 2 * i) ++ [173] }
    slabResiduals j = 0 :: List.replicate 22 4 ++ [2] ∧
    (codeSlab j).words = [0, 4, 259, 260, 261, 262, 263, 4, 2, 257].map (·, 9) ∧ (codeSlab j).raw = false ∧
    ((codeSlab j).header false).take 6 = [0x04, 0x88, 0x01, 0xB4, 0, 0] := by decide

/-- The check byte of 0x8000_0000_0000_0001, and the correction of bit 63 (R411, R413). -/
theorem test_ecc :
    eccCheck 0x8000000000000001 = 0x50 ∧ eccCheck 1 = 0x07 ∧ eccSyndrome (2 ^ 63) = 0x57 ∧ eccDecode 0x57 false = .corrected 63 ∧
    eccDecode 0xFF false = .uncorrectable ∧ eccDecode 0xFF true = .poisoned := by decide

/-- The time of the turntable's crossing (R438). -/
theorem test_crossing : betweenNs (2500000000 * 2 ^ 32) (2500000250 * 2 ^ 32) (41943040 - 41942900) (41943110 - 41942900) = 2500000167 := by decide

/-- The package limit at PLIM 31 and 23 of the part of 128 W (R459, R471). -/
theorem test_power_limit : (7 + 3 * 31) * State.reset.tdp / 100 = 128000 ∧ (7 + 3 * 23) * State.reset.tdp / 100 = 97280 := by decide

/-- RC2_CFG on T5: shadow, active copy (R545, R546). -/
theorem test_addresses : RC_CFG 2 = 0x80100 ∧ benchBase 4 + 4 * 64 = 0x80100 ∧ hostBase + 5 * 0x1000000 + RC_CFG 2 = 0x45080100 := by decide

/-- The fades of channel 3: a crossing at sample 30, and a ramp over samples 0 to 31 (R451). -/
theorem test_fades :
    let xs := List.replicate 30 (-7) ++ List.replicate 18 (9 : Int)
    audFade 1 (some (-7)) xs = (List.replicate 30 0 ++ List.replicate 18 9, true, 1) ∧
    (audFade 4 (some 9) (List.replicate 48 9)).1.drop 32 = List.replicate 16 0 ∧ (audFade 4 (some 9) (List.replicate 48 9)).2 = (true, 14) := by decide

/-- The hash of the message "abc" (FIPS 180-4's own example). -/
theorem test_sha : beNum (sha256 [0x61, 0x62, 0x63]) = 0xBA7816BF8F01CFEA414140DE5DAE2223B00361A396177A9CB410FF61F20015AD := by decide

end Sys2Proof.Tests
end

/-!
# Tiles, islands and the Seam

What the commands of chapter 1 do (R9 to R20) and unit abort (R485). First the rules about registers, occurrences and crew lines that the
proofs share, then each operation's own lemmas, then the statements.
-/

namespace Sys2Proof.Machine

/-! ### Opening a command -/

/-- A command whose meaning is a guard and an effect does the effect where the guard holds. -/
theorem does_when {i : Instr} {s : State} {b : Bool} {f : State → State} {P : State → Prop} (h : exec i s = s.finish (s.when b f))
    (hb : b = true) (hp : P (f s)) : Does i s P :=
  does_of (f s) (h.trans (finish_when_pos s f hb)) hp

theorem isolated_of_up {s : State} {t i : Nat} (h : s.up t i = true) : s.isolated t = false := by
  simp only [State.up, Bool.and_eq_true, Bool.not_eq_true'] at h
  exact h.1.1.2

theorem island_of_up {s : State} {t i : Nat} (h : s.up t i = true) : s.island t i = true := by
  simp only [State.up, Bool.and_eq_true] at h
  exact h.1.2

/-- What no round of a loop changes, the loop does not change. -/
theorem each_keeps {α β : Type} (g : State → β) (s : State) (l : List α) (f : State → α → State) (h : ∀ s a, g (f s a) = g s) :
    g (s.each l f) = g s :=
  each_induct (fun r => g r = g s) s l f rfl fun r a _ hr => (h r a).trans hr

theorem when_keeps {β : Type} (g : State → β) (s : State) (b : Bool) (f : State → State) (h : ∀ r, g (f r) = g r) :
    g (s.when b f) = g s := by
  cases b with
  | false => rfl
  | true => exact h s

/-! ### Registers -/

/-- Registers at different offsets are different registers. -/
theorem regKey_off_ne {t u a b : Nat} (ha : a < 0x1000000) (hb : b < 0x1000000) (h : a ≠ b) : regKey t a ≠ regKey u b :=
  regKey_ne ha hb fun e => h (Prod.mk.inj e).2

/-- A write of a field leaves the fields of registers at other offsets, on every tile. -/
theorem f_setF_off_ne (s : State) {t u : Nat} {r q : FRef} (v : Nat) (hr : r.off < 0x1000000) (hq : q.off < 0x1000000) (h : r.off ≠ q.off) :
    (s.setF t r v).f u q = s.f u q :=
  f_setF_ne s v (regKey_off_ne hr hq h)

/-- A write of a register outside the block EVT leaves every status bit. -/
theorem evtStat_setReg (s : State) (t off v u k : Nat) (ho : off < 0x1000000) (he : off < 0x10000 ∨ 0x20000 ≤ off) (hk : k < 320) :
    (s.setReg t off v).evtStat u k = s.evtStat u k := by
  have hs := evtStat_off k hk
  unfold State.evtStat
  rw [reg_setReg_ne s v (regKey_off_ne ho (by omega) (by omega))]

/-- What registers read as follows from the words written, the member and the grade. -/
theorem reg_congr {s r : State} (hr : r.regs = s.regs) (hm : r.member = s.member) (hg : r.grade = s.grade) (t off : Nat) :
    r.reg t off = s.reg t off := by
  unfold State.reg State.word
  rw [hr, hm, hg]

theorem f_congr {s r : State} {t : Nat} {q : FRef} (h : r.reg t q.off = s.reg t q.off) : r.f t q = s.f t q := by
  unfold State.f
  rw [h]

theorem evtStat_congr {s r : State} {t k : Nat} (h : r.reg t (EVT_STAT (k / 32)) = s.reg t (EVT_STAT (k / 32))) :
    r.evtStat t k = s.evtStat t k := by
  unfold State.evtStat
  rw [h]

/-! ### Occurrences of events: what they leave -/

theorem raise_fields (s : State) (t id : Nat) (h : id < 320) :
    s.raise t id = { s with regs := (s.raise t id).regs, evt := (s.raise t id).evt, core.crews := (s.raise t id).core.crews } :=
  (raise_onlyEvents s t id h).1

theorem raise_member (s : State) (t id : Nat) (h : id < 320) : (s.raise t id).member = s.member := by
  rw [raise_fields s t id h]

theorem raise_adit (s : State) (t id : Nat) (h : id < 320) : (s.raise t id).adit = s.adit := by
  rw [raise_fields s t id h]

theorem reg_raise (s : State) (t id u off : Nat) (h : id < 320) (ho : off < 0x1000000) (he : eventOff off = false) :
    (s.raise t id).reg u off = s.reg u off := by
  unfold State.reg
  rw [word_raise s t id u off h ho he]

/-! An occurrence leaves the unit-abort requests that are outstanding. -/

@[simp] theorem setOcc_aborts (s : State) (t id : Nat) (o : Occ) : (s.setOcc t id o).evt.aborts = s.evt.aborts := rfl

@[simp] theorem logFault_aborts (s : State) (e : FaultEnt) : (s.logFault e).evt.aborts = s.evt.aborts := rfl

@[simp] theorem assertLine_evt (s : State) (t line : Nat) : (s.assertLine t line).evt = s.evt :=
  each_keeps State.evt s _ _ fun _ _ => rfl

@[simp] theorem latchRoot_aborts (s : State) (a t id sev : Nat) (inj : Bool) (n seq : Nat) :
    (s.latchRoot a t id sev inj n seq).evt.aborts = s.evt.aborts := by
  unfold State.latchRoot
  dsimp only
  split <;> rfl

@[simp] theorem countDep_aborts (s : State) (root : Option Nat) (n : Nat) : (s.countDep root n).evt.aborts = s.evt.aborts := by
  unfold State.countDep
  cases root with
  | none => rfl
  | some q => exact each_keeps (·.evt.aborts) _ _ _ fun r t => when_keeps (·.evt.aborts) r _ _ fun _ => rfl

@[simp] theorem chargeDep_aborts (s : State) (x : Nat × Nat) (n : Nat) : (s.chargeDep x n).evt.aborts = s.evt.aborts := by
  unfold State.chargeDep
  split
  · rfl
  · exact countDep_aborts s _ n

@[simp] theorem releaseHeld_aborts (s : State) (t u id : Nat) : (s.releaseHeld t u id).evt.aborts = s.evt.aborts :=
  each_keeps (·.evt.aborts) _ _ _ fun r _ => chargeDep_aborts r _ _

@[simp] theorem enterRoot_aborts (s : State) (t id : Nat) (inj : Bool) (n : Nat) :
    (s.enterRoot t id inj n).evt.aborts = s.evt.aborts := by
  unfold State.enterRoot
  dsimp only
  split
  · rw [setOcc_aborts, when_keeps (·.evt.aborts) _ _ _ fun r => latchRoot_aborts r .., latchRoot_aborts, logFault_aborts]
  · rfl

@[simp] theorem queueAsync_aborts (s : State) (m : AsyncMsg) : (s.queueAsync m).evt.aborts = s.evt.aborts := by
  unfold State.queueAsync
  split <;> rfl

@[simp] theorem sendRoutes_aborts (s : State) (t id : Nat) (inj : Bool) (n : Nat) :
    (s.sendRoutes t id inj n).evt.aborts = s.evt.aborts := by
  unfold State.sendRoutes
  dsimp only
  split
  · rw [when_keeps (·.evt.aborts) _ _ _ fun r => queueAsync_aborts r _, when_keeps State.evt _ _ _ fun r => assertLine_evt r ..]
  · rfl

@[simp] theorem route_aborts (s : State) (t id : Nat) (inj : Bool) (n : Nat) : (s.route t id inj n).evt.aborts = s.evt.aborts := by
  rw [State.route, sendRoutes_aborts, enterRoot_aborts]

@[simp] theorem verdict_aborts (s : State) (t id : Nat) (inj had : Bool) (n : Nat) :
    (s.verdict t id inj had n).1.evt.aborts = s.evt.aborts := by
  unfold State.verdict
  dsimp only
  split
  · rw [setOcc_aborts, chargeDep_aborts, setOcc_aborts]
  · split
    · rw [countDep_aborts, setOcc_aborts]
    · split
      · split
        · rfl
        · split
          · rfl
          · rw [route_aborts, setOcc_aborts]
      · rw [route_aborts, setOcc_aborts]

@[simp] theorem occur_aborts (s : State) (t id : Nat) (inj : Bool) : (s.occur t id inj).1.evt.aborts = s.evt.aborts := by
  unfold State.occur
  dsimp only
  rw [releaseHeld_aborts, verdict_aborts]
  rfl

theorem raiseX_aborts (s : State) (t id : Nat) (inj : Bool) : (s.raiseX t id inj).evt.aborts = s.evt.aborts := by
  unfold State.raiseX
  dsimp only
  split <;> split <;> simp

theorem raise_aborts (s : State) (t id : Nat) : (s.raise t id).evt.aborts = s.evt.aborts := raiseX_aborts s t id false

/-! ### Crew lines -/

/-- Asserting a line changes crews and nothing else. -/
theorem assertLine_eq (s : State) (t line : Nat) :
    s.assertLine t line = { s with core.crews := (s.assertLine t line).core.crews } :=
  each_induct (fun r => r = { s with core.crews := r.core.crews }) s _ _ rfl fun r c _ hr => by
    rw [hr]
    rfl

/-- Raising a line in the PENDING word of one crew sets it there and keeps it where it was set. -/
theorem bit_pending_setCrew (s : State) (t c d line : Nat)
    (h : d = c ∨ bit (s.crew t c).pending line = true) :
    bit ((s.setCrew t d { s.crew t d with pending := orBit (s.crew t d).pending line }).crew t c).pending line = true := by
  rw [crew_setCrew]
  split
  · exact (orBit_testBit ..).trans (by simp)
  · rename_i hk
    rcases h with rfl | h
    · exact absurd rfl hk
    · exact h

/-- An asserted line stands in the PENDING word of every crew of the tile (R48). -/
theorem assertLine_pending (s : State) (t line c : Nat) (hc : c < 8) : bit ((s.assertLine t line).crew t c).pending line = true := by
  have loop : ∀ (l : List Nat) (s : State), c ∈ l ∨ bit (s.crew t c).pending line = true →
      bit ((s.each l fun s d => s.setCrew t d { s.crew t d with pending := orBit (s.crew t d).pending line }).crew t c).pending line = true := by
    intro l
    induction l with
    | nil => exact fun s h => h.resolve_left List.not_mem_nil
    | cons d l ih =>
      intro s h
      refine ih _ ?_
      rcases h with h | h
      · rcases List.mem_cons.1 h with rfl | h
        · exact Or.inr (bit_pending_setCrew s t c c line (Or.inl rfl))
        · exact Or.inl h
      · exact Or.inr (bit_pending_setCrew s t c d line (Or.inr h))
  exact loop _ s (Or.inl (List.mem_range.2 hc))

end Sys2Proof.Machine

namespace Sys2Proof.Machine

/-! ### Reset (R12, R388) -/

/-- Settles O2: each part is what the reset state holds. -/
theorem resetMeetsInvariant : Obligations.ResetMeetsInvariant := by
  unfold Obligations.ResetMeetsInvariant
  exact ⟨⟨memWf_reset, rfl⟩, rfl, rfl, rfl, fun _ _ => rfl, by decide, rfl⟩

/-! ### Islands (R11, R12) -/

/-- A port's restart touches no register. -/
theorem portRestart_f (s : State) (t p u : Nat) (q : FRef) : (s.portRestart t p).f u q = s.f u q := by
  unfold State.portRestart
  split <;> rfl

/-- Power good follows the islands commanded on, which stay as they are. -/
theorem showIslands_on (s : State) (t : Nat) : (s.showIslands t).f t ISL_PWR_ON = s.f t ISL_PWR_ON := by
  unfold State.showIslands
  rw [f_setF_off_ne _ _ (by decide) (by decide) (by decide), f_setF_off_ne _ _ (by decide) (by decide) (by decide)]

theorem showIslands_pgood (s : State) (t : Nat) : (s.showIslands t).f t ISL_STAT_PGOOD = s.f t ISL_PWR_ON := by
  unfold State.showIslands
  dsimp only
  rw [f_setF_apart (r := ISL_STAT_CLKOK) (q := ISL_STAT_PGOOD) _ _ _ rfl (by decide) (by decide), f_setF_same _ _ _ _ (by decide)]
  exact Nat.mod_eq_of_lt (bits_lt ..)

/-- The islands that a write of a value switches on: CTL of T0 always (R11). -/
def islandsWritten (t v : Nat) : Nat := (if t = 0 then v ||| 1 else v) % 256

/-- The last step of switching islands shows them; the restart of Seam ports that follows it touches no register. -/
theorem setIslands_shows (s : State) (t v : Nat) : 
    ∃ a : State, ∀ q, (s.setIslands t v).f t q = ((a.setF t ISL_PWR_ON (islandsWritten t v)).showIslands t).f t q := by
  unfold State.setIslands
  refine ⟨_, fun q => when_keeps (State.f · t q) _ _ _ fun r => ?_⟩
  exact each_keeps (State.f · t q) r _ _ fun r p => portRestart_f r t p t q

theorem setIslands_on (s : State) (t v : Nat) : (s.setIslands t v).f t ISL_PWR_ON = islandsWritten t v := by
  obtain ⟨a, h⟩ := setIslands_shows s t v
  rw [h, showIslands_on, f_setF_same _ _ _ _ (by decide)]
  exact Nat.mod_mod _ _

theorem setIslands_pgood (s : State) (t v : Nat) : (s.setIslands t v).f t ISL_STAT_PGOOD = (s.setIslands t v).f t ISL_PWR_ON := by
  obtain ⟨a, h⟩ := setIslands_shows s t v
  rw [h, h, showIslands_on, showIslands_pgood]

theorem bit_islandsWritten_zero (v : Nat) : bit (islandsWritten 0 v) 0 = true := by
  simp [bit, islandsWritten]

/-- Settles O11: switching islands ends by showing the value written, with CTL of T0 put back (R11, R12; the power switches at once,
logs 15 and 78). -/
theorem islandWriteNeverClearsT0Ctl : Obligations.IslandWriteNeverClearsT0Ctl := by
  unfold Obligations.IslandWriteNeverClearsT0Ctl
  intro t v s hup
  refine does_when rfl hup ⟨setIslands_on s t v, setIslands_pgood s t v, ?_⟩
  rintro rfl
  rw [setIslands_on, bit_islandsWritten_zero]

end Sys2Proof.Machine

namespace Sys2Proof.Machine

/-! ### Ports of the Seam (R13, R17) -/

/-- Both ends of a link name each other, and the ring joins S1 of a tile to S0 of the next (R13). -/
theorem seamPartner_partner (m : Member) (t p : Nat) (ht : t < m.tiles) (hp : p < 4) :
    seamPartner m (seamPartner m t p).1 (seamPartner m t p).2 = (t, p) := by
  have small : ∀ t < m.tiles, ∀ p < 4, seamPartner m (seamPartner m t p).1 (seamPartner m t p).2 = (t, p) := by
    cases m <;> decide
  exact small t ht p hp

theorem seamPartner_one (m : Member) (t : Nat) (ht : t < m.tiles) : seamPartner m t 1 = ((t + 1) % m.tiles, 0) := by
  cases m with
  | tiles2 =>
    have : t < 2 := ht
    show (1 - t, 0) = ((t + 1) % 2, 0)
    rw [show 1 - t = (t + 1) % 2 by omega]
  | tiles4 => rfl
  | tiles8 => rfl

/-- A port joins a port. -/
theorem seamPartner_lt (m : Member) (t p : Nat) (hp : p < 4) : (seamPartner m t p).2 < 4 := by
  unfold seamPartner
  cases m <;> split_ifs <;> dsimp only <;> omega

theorem portStat_off (p : Nat) (hp : p < 4) : 0x200000 ≤ SEAM_PORT_STAT p ∧ SEAM_PORT_STAT p < 0x200010 := by
  unfold SEAM_PORT_STAT
  omega

/-- Status registers of different ports are different registers. -/
theorem portStat_key_ne {t p u q : Nat} (hp : p < 4) (hq : q < 4) (h : (t, p) ≠ (u, q)) :
    regKey t (SEAM_PORT_STAT p) ≠ regKey u (SEAM_PORT_STAT q) := by
  have h1 := portStat_off p hp
  have h2 := portStat_off q hq
  refine regKey_ne (by omega) (by omega) fun e => h ?_
  obtain ⟨rfl, eo⟩ := Prod.mk.inj e
  rw [show p = q by unfold SEAM_PORT_STAT at eo; omega]

/-- A port is UP as last written, and a write leaves every other port. -/
theorem portUp_setB (s : State) (t p u q : Nat) (b : Bool) (hp : p < 4) (hq : q < 4) :
    (s.setB t (SEAM_PORT_STAT_UP p) b).portUp u q = if (t, p) = (u, q) then b else s.portUp u q := by
  split
  · rename_i h
    obtain ⟨rfl, rfl⟩ := Prod.mk.inj h
    exact on_setB_same s t _ b (by decide : 0 + 1 ≤ 32) Nat.one_pos
  · rename_i h
    unfold State.portUp State.on State.setB
    rw [f_setF_ne s _ (portStat_key_ne hp hq h)]

/-- What an operation leaves of the Seam ports: their status registers, and the status bits of events that were set. -/
structure State.PortsKept (s r : State) : Prop where
  member : r.member = s.member
  stat : ∀ t p, p < 4 → r.reg t (SEAM_PORT_STAT p) = s.reg t (SEAM_PORT_STAT p)
  events : ∀ t k, k < 320 → s.evtStat t k = true → r.evtStat t k = true

namespace State.PortsKept

variable {a b c : State}

/-- What leaves every register leaves the ports and the status bits. -/
theorem of_regs (hr : b.regs = a.regs) (hm : b.member = a.member) (hg : b.grade = a.grade) : a.PortsKept b :=
  ⟨hm, fun t _ _ => reg_congr hr hm hg t _, fun t _ _ h => (evtStat_congr (reg_congr hr hm hg t _)).trans h⟩

theorem refl (s : State) : s.PortsKept s := .of_regs rfl rfl rfl

theorem trans (h : a.PortsKept b) (g : b.PortsKept c) : a.PortsKept c :=
  ⟨g.member.trans h.member, fun t p hp => (g.stat t p hp).trans (h.stat t p hp), fun t k hk e => g.events t k hk (h.events t k hk e)⟩

theorem f_eq (h : a.PortsKept b) {t p : Nat} (hp : p < 4) {q : FRef} (hq : q.off = SEAM_PORT_STAT p) : b.f t q = a.f t q :=
  f_congr (by rw [hq, h.stat t p hp])

theorem portUp (h : a.PortsKept b) {t p : Nat} (hp : p < 4) : b.portUp t p = a.portUp t p := by
  unfold State.portUp State.on
  rw [h.f_eq hp rfl]

theorem when (b : Bool) {f : State → State} (h : ∀ r : State, r.PortsKept (f r)) (s : State) : s.PortsKept (s.when b f) := by
  cases b with
  | false => exact refl s
  | true => exact h s

theorem each {α : Type} (l : List α) {f : State → α → State} (h : ∀ (r : State) x, r.PortsKept (f r x)) (s : State) :
    s.PortsKept (s.each l f) :=
  each_induct (s.PortsKept ·) s l f (refl s) fun r x _ hr => hr.trans (h r x)

/-- A write of a register outside the blocks EVT and SEAM, or past the port status registers. -/
theorem setReg (s : State) (t off v : Nat) (ho : off < 0x1000000) (he : off < 0x10000 ∨ 0x20000 ≤ off)
    (hs : off < 0x200000 ∨ 0x200010 ≤ off) : s.PortsKept (s.setReg t off v) := by
  refine ⟨rfl, fun u p hp => ?_, fun u k hk h => by rw [evtStat_setReg s t off v u k ho he hk, h]⟩
  have := portStat_off p hp
  exact reg_setReg_ne s v (regKey_off_ne ho (by omega) (by omega))

theorem raise (s : State) (t id : Nat) (h : id < 320) : s.PortsKept (s.raise t id) := by
  refine ⟨raise_member s t id h, fun u p hp => ?_, fun u k hk => raise_stat_keep s t id u k h hk⟩
  have := portStat_off p hp
  exact reg_raise s t id u _ h (by omega) (by simp [eventOff]; omega)

end State.PortsKept

theorem followHold_portsKept (s : State) (t : Nat) : s.PortsKept (s.followHold t) := by
  unfold State.followHold
  split
  · exact .refl s
  · refine .trans (b := { s with time.holdRaised := smPut s.time.holdRaised t true false }) (.of_regs rfl rfl rfl) ?_
    refine .trans (.when _ (fun r => ?_) _) (.when _ (fun r => .raise r t 262 (by decide)) _)
    exact .setReg r t FOLLOW _ (by decide) (by decide) (by decide)

theorem rerouteOne_portsKept (s : State) (x : Nat × Nat) : s.PortsKept (s.rerouteOne x) := by
  unfold State.rerouteOne
  split <;> exact .setReg s _ _ _ (by decide) (by decide) (by decide)

theorem reroute_portsKept (s : State) : s.PortsKept s.reroute := by
  unfold State.reroute
  split
  · exact .of_regs rfl rfl rfl
  · exact .trans (.each _ rerouteOne_portsKept s) (.of_regs rfl rfl rfl)

/-! ### One end of a link goes down -/

/-- The status register of an end that goes down, before its event. -/
def State.endMarked (s : State) (t p : Nat) : State := (s.setB t (SEAM_PORT_STAT_UP p) false).setB t (SEAM_PORT_STAT_DOWN p) true

theorem portEndDown_eq (s : State) (t p : Nat) :
    s.portEndDown t p = (s.endMarked t p).when (!(s.endMarked t p).isolated t) fun s => s.raise t (192 + p) := rfl

theorem endMarked_isolated (s : State) (t p u : Nat) (hp : p < 4) : (s.endMarked t p).isolated u = s.isolated u := by
  have := portStat_off p hp
  have hk : ∀ q : FRef, q.off = SEAM_PORT_STAT p → ∀ (r : State) (v : Nat), (r.setF t q v).f u TILE_STATE_STATE = r.f u TILE_STATE_STATE :=
    fun q hq r v => f_setF_off_ne r v (by omega) (by decide) (by rw [hq]; show _ ≠ 4; omega)
  unfold State.isolated State.endMarked State.setB
  rw [hk _ rfl, hk _ rfl]

theorem portEndDown_kept (s : State) (t p : Nat) (hp : p < 4) : (s.endMarked t p).PortsKept (s.portEndDown t p) :=
  .when _ (fun r => .raise r t (192 + p) (by omega)) _

/-- The end that goes down is no longer UP; every other port is UP if it was. -/
theorem portEndDown_portUp (s : State) (t p u q : Nat) (hp : p < 4) (hq : q < 4) :
    (s.portEndDown t p).portUp u q = (s.portUp u q && !decide ((t, p) = (u, q))) := by
  rw [(portEndDown_kept s t p hp).portUp hq]
  have down : (s.endMarked t p).portUp u q = (s.setB t (SEAM_PORT_STAT_UP p) false).portUp u q := by
    unfold State.endMarked State.portUp State.on
    by_cases h : (t, p) = (u, q)
    · obtain ⟨rfl, rfl⟩ := Prod.mk.inj h
      rw [State.setB, f_setF_apart (r := SEAM_PORT_STAT_DOWN p) (q := SEAM_PORT_STAT_UP p) _ _ _ rfl
        (by decide : 1 + 1 ≤ 32) (by decide : 1 + 1 ≤ 0 ∨ 0 + 1 ≤ 1)]
    · rw [State.setB, f_setF_ne _ _ (portStat_key_ne hp hq h)]
  rw [down, portUp_setB s t p u q false hp hq]
  split <;> simp [*]

/-- The end that goes down shows DOWN; every other port shows it if it did. -/
theorem portEndDown_down (s : State) (t p u q : Nat) (hp : p < 4) (hq : q < 4) :
    (s.portEndDown t p).on u (SEAM_PORT_STAT_DOWN q) = (s.on u (SEAM_PORT_STAT_DOWN q) || decide ((t, p) = (u, q))) := by
  unfold State.on
  rw [(portEndDown_kept s t p hp).f_eq hq rfl]
  unfold State.endMarked
  by_cases h : (t, p) = (u, q)
  · obtain ⟨rfl, rfl⟩ := Prod.mk.inj h
    have := on_setB_same (s.setB t (SEAM_PORT_STAT_UP p) false) t (SEAM_PORT_STAT_DOWN p) true (by decide : 1 + 1 ≤ 32) Nat.one_pos
    unfold State.on at this
    simp [this]
  · rw [State.setB, f_setF_ne _ _ (portStat_key_ne hp hq h), State.setB, f_setF_ne _ _ (portStat_key_ne hp hq h)]
    simp [h]

/-- An end of a tile that is not isolated raises its event. -/
theorem portEndDown_event (s : State) (t p : Nat) (hp : p < 4) (hi : s.isolated t = false) :
    (s.portEndDown t p).evtStat t (192 + p) = true := by
  rw [portEndDown_eq, endMarked_isolated s t p t hp, hi]
  exact raise_stat _ t (192 + p) (by omega)

/-- Status bits that were set stay set when an end goes down. -/
theorem portEndDown_keeps_event (s : State) (t p u k : Nat) (hp : p < 4) (hk : k < 320) (h : s.evtStat u k = true) :
    (s.portEndDown t p).evtStat u k = true := by
  have := portStat_off p hp
  refine (portEndDown_kept s t p hp).events u k hk ?_
  have stat : ∀ (r : State) (v : Nat), (r.setReg t (SEAM_PORT_STAT p) v).evtStat u k = r.evtStat u k :=
    fun r v => evtStat_setReg r t _ v u k (by omega) (by omega) hk
  exact (stat _ _).trans ((stat _ _).trans h)

/-- Both ends of a link, when it goes down. -/
def State.linkEndsDown (s : State) (t p : Nat) : State :=
  (s.portEndDown t p).portEndDown (seamPartner s.member t p).1 (seamPartner s.member t p).2

/-- Beside its two ends, a link that goes down changes routes and followers only (R17, R104). -/
theorem portDown_kept (s : State) (t p : Nat) (hu : s.portUp t p = true) : (s.linkEndsDown t p).PortsKept (s.portDown t p) := by
  unfold State.portDown
  rw [if_pos hu]
  exact .trans (.each _ followHold_portsKept _) (reroute_portsKept _)

/-- A port that goes down is not UP afterwards, and neither is its partner; it shows DOWN and has raised its event (R17). -/
theorem portDown_spec (s : State) (t p : Nat) (hp : p < 4) (hu : s.portUp t p = true) :
    (s.portDown t p).portUp t p = false ∧
    (s.portDown t p).portUp (seamPartner s.member t p).1 (seamPartner s.member t p).2 = false ∧
    (s.portDown t p).on t (SEAM_PORT_STAT_DOWN p) = true ∧
    (s.isolated t = false → (s.portDown t p).evtStat t (192 + p) = true) := by
  have hq := seamPartner_lt s.member t p hp
  have kept := portDown_kept s t p hu
  refine ⟨?_, ?_, ?_, fun hi => ?_⟩
  · rw [kept.portUp hp, State.linkEndsDown, portEndDown_portUp _ _ _ _ _ hq hp, portEndDown_portUp _ _ _ _ _ hp hp]
    simp
  · rw [kept.portUp hq, State.linkEndsDown, portEndDown_portUp _ _ _ _ _ hq hq]
    simp
  · rw [State.on, kept.f_eq hp rfl]
    show (s.linkEndsDown t p).on t (SEAM_PORT_STAT_DOWN p) = true
    rw [State.linkEndsDown, portEndDown_down _ _ _ _ _ hq hp, portEndDown_down _ _ _ _ _ hp hp]
    simp
  · exact kept.events t _ (by omega) (portEndDown_keeps_event _ _ _ _ _ hq (by omega) (portEndDown_event s t p hp hi))

end Sys2Proof.Machine

namespace Sys2Proof.Machine

/-! ### Ports restart and come UP (R17) -/

theorem portRestart_of_down (s : State) (t p : Nat) (hd : s.portUp t p = false) :
    s.portRestart t p = { s with seam.retraining := smPut s.seam.retraining (tk t p) true false } := by
  unfold State.portRestart
  rw [if_neg (by simp [hd])]

/-- A retraining link whose ends both have power comes UP at both ends. -/
theorem portUpNow_spec (s : State) (t p : Nat) (hp : p < 4) (hi : s.island t 7 = true)
    (hj : s.island (seamPartner s.member t p).1 7 = true) (hd : s.portUp t p = false)
    (hr : smGet s.seam.retraining (tk t p) false = true) :
    (s.portUpNow t p).portUp t p = true ∧
    (s.portUpNow t p).portUp (seamPartner s.member t p).1 (seamPartner s.member t p).2 = true := by
  have hq := seamPartner_lt s.member t p hp
  have kept : ((s.setB t (SEAM_PORT_STAT_UP p) true).setB (seamPartner s.member t p).1
      (SEAM_PORT_STAT_UP (seamPartner s.member t p).2) true).PortsKept (s.portUpNow t p) := by
    unfold State.portUpNow
    rw [if_pos ⟨hi, hj, by simp [hd], hr⟩]
    exact .of_regs rfl rfl rfl
  rw [kept.portUp hp, kept.portUp hq, portUp_setB _ _ _ _ _ _ hq hp, portUp_setB _ _ _ _ _ _ hq hq, portUp_setB _ _ _ _ _ _ hp hp]
  simp

/-! ### Arrivals at a port (R14, R16, R83) -/

/-- At the port whose turn it is a message waits (R16). -/
theorem seamTurn_next {s : State} {t p : Nat} (h : s.seamTurn t = some p) : ∃ m, s.seamNext t p = some m := by
  unfold State.seamNext
  cases hw : s.waitsAt t p with
  | cons m l => exact ⟨m, rfl⟩
  | nil =>
    unfold State.seamTurn at h
    split at h
    · rename_i x hx
      obtain rfl := Option.some.inj h
      have here : (s.seam.flight.find? fun y => y.hop = t ∧ y.port = x.port).isSome := by
        rw [List.find?_isSome]
        exact ⟨x, List.mem_of_find?_eq_some hx, by simpa using List.find?_some hx⟩
      obtain ⟨y, hy⟩ := Option.isSome_iff_exists.1 here
      exact ⟨.packet y, by simp only [hy, Option.map_some]⟩
    · have := List.find?_some h
      rw [hw] at this
      cases this

/-- What waits of classes 1 to 4 goes before packets: the first of it is next (R16). -/
theorem seamNext_of_waits {s : State} {t p : Nat} {m : SeamMsg} (h : s.seamNext t p = some m) (hw : s.waitsAt t p ≠ []) :
    m ∈ (s.waitsAt t p).head? := by
  unfold State.seamNext at h
  cases hl : s.waitsAt t p with
  | nil => exact absurd hl hw
  | cons a l =>
    rw [hl] at h
    exact h

/-- With a good CRC the next message of the port whose turn it is arrives. -/
theorem seamReceive_good {s : State} {t p : Nat} {m : SeamMsg} (ht : s.seamTurn t = some p) (hn : s.seamNext t p = some m) (ok : Bool) :
    s.seamReceive t true ok = s.seamArrive t m := by
  unfold State.seamReceive
  rw [ht]
  dsimp only
  rw [hn]
  rfl

/-- The port of the packet of firmware traffic longest at a tile has its turn, and where nothing goes before it the packet is next
(log 9). -/
theorem seamTurn_flight {s : State} {x : SeamPkt} {l : List SeamPkt} (hf : s.seam.flight = x :: l) :
    s.seamTurn x.hop = some x.port := by
  simp [State.seamTurn, hf]

theorem seamNext_flight {s : State} {x : SeamPkt} {l : List SeamPkt} (hf : s.seam.flight = x :: l) (hw : s.waitsAt x.hop x.port = []) :
    s.seamNext x.hop x.port = some (.packet x) := by
  simp [State.seamNext, hw, hf]

/-- A FIRE at its destination, outside a CTL restart, leaves the flight and asserts its line (R83). -/
theorem seamArrive_fire {s : State} {t line p : Nat} {l : List SeamPkt}
    (hf : s.seam.flight = { hop := t, port := p, dst := t, body := .fire line } :: l) (hb : smGet s.core.ctlBusy t false = false) :
    s.seamArrive t (.packet { hop := t, port := p, dst := t, body := .fire line }) =
      ({ s with seam.flight := l } : State).assertLine t line := by
  unfold State.seamArrive
  simp only [hf, List.erase_cons_head, if_true]
  unfold State.seamDeliver
  simp only [hb]
  rfl

/-- Settles O12: the arbitration takes the head of what waits at the port (R16), and each port command does what its lemma above says
(R13, R17, R83). -/
theorem seamCommandsComplete : Obligations.SeamCommandsComplete := by
  unfold Obligations.SeamCommandsComplete
  refine ⟨?receive, ?fire, ?restart, ?up, fun m t p ht hp => ⟨seamPartner_partner m t p ht hp, seamPartner_one m t ht⟩⟩
  case receive =>
    intro t p ok s hl ht
    obtain ⟨m, hn⟩ := seamTurn_next ht
    refine does_when rfl hl ⟨m, hn, seamReceive_good ht hn ok, fun m' hm' => ?_, fun hw => ?_⟩
    · exact seamNext_least (seamNext_of_waits hn (List.ne_nil_of_mem hm')) m' hm'
    · exact List.mem_of_mem_head? (seamNext_of_waits hn hw)
  case fire =>
    intro t line p ok l s hl hf hw hb
    refine does_when rfl hl ?_
    rw [seamReceive_good (seamTurn_flight hf) (seamNext_flight hf hw) ok, seamArrive_fire hf hb]
    have eq := assertLine_eq ({ s with seam.flight := l } : State) t line
    exact ⟨by rw [eq], eq, fun c hc => assertLine_pending _ t line c hc⟩
  case restart =>
    intro t p s hl hp hd
    refine does_when rfl (by simp [hl, hp]) ?_
    rw [portRestart_of_down s t p hd]
    exact ⟨smGet_smPut_same s.seam.retraining (tk t p) true false, rfl⟩
  case up =>
    intro t p s hl hp hd hr hj
    exact does_when rfl (by simp [hl, hp]) (portUpNow_spec s t p hp (island_of_up (up_of_live hl)) hj hd hr)

end Sys2Proof.Machine

namespace Sys2Proof.Machine

/-! ### Crossings (R20) -/

/-- What an operation leaves that only marks frames in the pixel path, the stores and the codecs: everything else, and every register below
the codecs' blocks. -/
def State.MarksFrames (s r : State) : Prop :=
  r = { s with regs := r.regs, pix := r.pix, store := r.store, hevc := r.hevc } ∧ ∀ u off, off < 0x100000 → r.reg u off = s.reg u off

namespace State.MarksFrames

variable {a b c : State}

theorem refl (s : State) : s.MarksFrames s := ⟨rfl, fun _ _ _ => rfl⟩

theorem trans (h : a.MarksFrames b) (g : b.MarksFrames c) : a.MarksFrames c := by
  refine ⟨?_, fun u off ho => (g.2 u off ho).trans (h.2 u off ho)⟩
  have e := g.1
  rw [h.1] at e
  exact e

theorem when (b : Bool) {f : State → State} (h : ∀ r : State, r.MarksFrames (f r)) (s : State) : s.MarksFrames (s.when b f) := by
  cases b with
  | false => exact refl s
  | true => exact h s

theorem each {α : Type} (l : List α) {f : State → α → State} (h : ∀ (r : State) x, r.MarksFrames (f r x)) (s : State) :
    s.MarksFrames (s.each l f) :=
  each_induct (s.MarksFrames ·) s l f (refl s) fun r x _ hr => hr.trans (h r x)

theorem setRaw (s : State) (t k : Nat) (x : RawCtx) : s.MarksFrames (s.setRaw t k x) := ⟨rfl, fun _ _ _ => rfl⟩

theorem setOut (s : State) (t k : Nat) (x : OutCtx) : s.MarksFrames (s.setOut t k x) := ⟨rfl, fun _ _ _ => rfl⟩

theorem crUpd (s : State) (t k fid : Nat) (g : CrFrame → CrFrame) : s.MarksFrames (s.crUpd t k fid g) := ⟨rfl, fun _ _ _ => rfl⟩

theorem hdXing (s : State) (t k : Nat) : s.MarksFrames (s.hdXing t k) := by
  unfold State.hdXing
  dsimp only
  refine when _ (fun r => ?_) s
  exact ⟨rfl, fun _ _ _ => rfl⟩

/-- The encoder shows its sump again with the frame marked. -/
theorem heXing (s : State) (t k x : Nat) (hk : k < 4) : s.MarksFrames (s.heXing t k x) := by
  unfold State.heXing
  dsimp only
  refine when _ (fun r => ⟨rfl, fun u off ho => ?_⟩) s
  exact reg_setReg_ne _ _ (regKey_off_ne (by show HE_STAT k < _; unfold HE_STAT; omega) (by omega) (by show HE_STAT k ≠ _; unfold HE_STAT; omega))

theorem f_eq (h : a.MarksFrames b) (u : Nat) (q : FRef) (hq : q.off < 0x100000) : b.f u q = a.f u q :=
  f_congr (h.2 u q.off hq)

theorem evtStat (h : a.MarksFrames b) (u k : Nat) (hk : k < 320) : b.evtStat u k = a.evtStat u k := by
  have := evtStat_off k hk
  exact evtStat_congr (h.2 u _ (by omega))

theorem discarding (h : a.MarksFrames b) (t x src : Nat) : b.discarding t x src = a.discarding t x src := by
  rw [h.1]
  rfl

theorem port (h : a.MarksFrames b) (t p : Nat) : b.port t p = a.port t p := by
  rw [h.1]
  rfl

end State.MarksFrames

/-- A crossing's fault shown: its bit and its event. -/
def State.xingShown (s : State) (t x : Nat) : State := (s.setF t XING_STAT_FAULT (orBit (s.f t XING_STAT_FAULT) x)).raise t 4

/-- The streams that a crossing's fault discards; the crossing to DRAM keeps a second one. -/
def State.xingDiscards (s : State) (t x i : Nat) : State :=
  (s.when (decide (x < 7)) fun s => s.setDiscard t x i true).when (x == 3) fun s => s.setDiscard t 9 i true

/-- The frame that a port has open is damaged. -/
def State.portDamaged (s : State) (t i : Nat) : State :=
  match (s.port t i).frame with
  | some f => s.setPort t i { s.port t i with frame := some (f.st stDamaged) }
  | none => s

/-- What a crossing's fault does at the sensor ports. -/
def State.xingIngress (s : State) (t x i : Nat) : State :=
  if x = 0 then ((s.xingShown t x).xingDiscards t x i).portDamaged t i else (s.xingShown t x).xingDiscards t x i

/-- Past the sensor ports a crossing's fault only marks frames. -/
theorem xingFault_marks (s : State) (t x i : Nat) (hi : i < 4) : (s.xingIngress t x i).MarksFrames (s.xingFault t x i) := by
  unfold State.xingFault
  extract_lets shown source discards port ingress raws outs opens crusher codecs
  have raw : ingress.MarksFrames raws := .when _ (fun r => .when _ (fun r => .setRaw r t i _) r) _
  have out : raws.MarksFrames outs := by
    refine .when _ (fun r => .each _ (fun r c => ?_) r) _
    split
    · split
      · exact .setOut r t c _
      · exact .refl r
    · exact .refl r
  have opened : outs.MarksFrames opens := by
    refine .when _ (fun r => .each _ (fun r c => ?_) r) _
    split
    · split
      · exact .setOut r t c _
      · exact .refl r
    · exact .refl r
  have taking : opens.MarksFrames crusher := by
    refine .when _ (fun r => ?_) _
    split
    · exact .crUpd r t i _ _
    · exact .refl r
  have writing : crusher.MarksFrames codecs := by
    refine .when _ (fun r => ?_) _
    split
    · exact .crUpd r t i _ _
    · exact .refl r
  have coded : codecs.MarksFrames (if x = 7 ∨ x = 8 then (codecs.heXing t i x).hdXing t i else codecs) := by
    split
    · exact .trans (.heXing codecs t i x hi) (.hdXing _ t i)
    · exact .refl codecs
  exact .trans (.trans (.trans (.trans (.trans raw out) opened) taking) writing) coded

/-! What stands after the sensor ports. -/

theorem xingDiscards_eq (s : State) (t x i : Nat) : s.xingDiscards t x i = { s with seam.discard := (s.xingDiscards t x i).seam.discard } := by
  unfold State.xingDiscards
  cases decide (x < 7) <;> cases x == 3 <;> rfl

theorem portDamaged_eq (s : State) (t i : Nat) : s.portDamaged t i = { s with adit.ports := (s.portDamaged t i).adit.ports } := by
  unfold State.portDamaged
  split <;> rfl

/-- Only the discarded streams and the sensor ports differ from the state that shows the fault. -/
theorem xingIngress_eq (s : State) (t x i : Nat) :
    s.xingIngress t x i = { s.xingShown t x with
      seam.discard := (s.xingIngress t x i).seam.discard, adit.ports := (s.xingIngress t x i).adit.ports } := by
  have hd := xingDiscards_eq (s.xingShown t x) t x i
  have hp := portDamaged_eq ((s.xingShown t x).xingDiscards t x i) t i
  unfold State.xingIngress
  split
  · rw [hp, hd]
  · rw [hd]

theorem xingIngress_reg (s : State) (t x i u off : Nat) : (s.xingIngress t x i).reg u off = (s.xingShown t x).reg u off :=
  reg_congr (by rw [xingIngress_eq]) (by rw [xingIngress_eq]) (by rw [xingIngress_eq]) u off

theorem portDamaged_seam (s : State) (t i : Nat) : (s.portDamaged t i).seam = s.seam := by rw [portDamaged_eq]

theorem xingDiscards_adit (s : State) (t x i : Nat) : (s.xingDiscards t x i).adit = s.adit := by rw [xingDiscards_eq]

theorem bit_orBit (m i : Nat) : bit (orBit m i) i = true := (orBit_testBit m i i).trans (by simp)

theorem xingShown_fault (s : State) (t x : Nat) (hx : x < 16) : bit ((s.xingShown t x).f t XING_STAT_FAULT) x = true := by
  unfold State.xingShown
  rw [f_raise _ t 4 t XING_STAT_FAULT (by decide) (by decide) (by decide), f_setF_same _ _ _ _ (by decide)]
  show (orBit _ x % 2 ^ 16).testBit x = true
  rw [Nat.testBit_mod_two_pow, orBit_testBit]
  simp [hx]

theorem xingShown_adit (s : State) (t x : Nat) : (s.xingShown t x).adit = s.adit := raise_adit _ t 4 (by decide)

/-- A fault at a crossing below 7 discards the stream of its source. -/
theorem xingDiscards_discarding (s : State) (t x i : Nat) (hx : x < 7) : (s.xingDiscards t x i).discarding t x i = true := by
  unfold State.xingDiscards
  rw [decide_eq_true hx, when_true]
  cases x == 3 with
  | false => exact discarding_setDiscard_same ..
  | true =>
    rw [when_true]
    by_cases hk : xkey t 9 i = xkey t x i
    · rw [State.discarding, ← hk]
      exact discarding_setDiscard_same _ t 9 i true
    · rw [discarding_setDiscard_ne _ _ _ _ _ _ _ _ hk, discarding_setDiscard_same]

/-- At crossing 0 the open frame of the port is damaged. -/
theorem portDamaged_frame (s : State) (t i : Nat) {f : AdFrame} (h : (s.port t i).frame = some f) :
    ((s.portDamaged t i).port t i).frame = some (f.st stDamaged) := by
  unfold State.portDamaged
  rw [h]
  dsimp only
  rw [port_setPort_same]

/-- A crossing's fault sets its bit, raises event 4, discards below crossing 7, and damages a port's open frame at crossing 0 (R20). -/
theorem xingFault_spec (s : State) (t x i : Nat) (hx : x < 9) (hi : i < 4) :
    bit ((s.xingFault t x i).f t XING_STAT_FAULT) x = true ∧ (s.xingFault t x i).evtStat t 4 = true ∧
    (x < 7 → (s.xingFault t x i).discarding t x i = true) ∧
    ∀ f, x = 0 → (s.port t i).frame = some f → ((s.xingFault t x i).port t i).frame = some (f.st stDamaged) := by
  have marks := xingFault_marks s t x i hi
  refine ⟨?_, ?_, fun h7 => ?_, fun f h0 hf => ?_⟩
  · rw [marks.f_eq t _ (by decide), f_congr (xingIngress_reg s t x i t _)]
    exact xingShown_fault s t x (by omega)
  · rw [marks.evtStat t 4 (by decide), evtStat_congr (xingIngress_reg s t x i t _)]
    exact raise_stat _ t 4 (by decide)
  · rw [marks.discarding]
    have h := xingDiscards_discarding (s.xingShown t x) t x i h7
    unfold State.xingIngress
    split
    · rw [State.discarding, portDamaged_seam]
      exact h
    · exact h
  · rw [marks.port, State.xingIngress, if_pos h0]
    refine portDamaged_frame _ t i ?_
    rw [State.port, xingDiscards_adit, xingShown_adit]
    exact hf

/-! ### Unit abort (R485) -/

/-- A request of the host for at least one unit of a tile that is not isolated is entered last. -/
theorem uabortWrite_enters (s : State) (t u : Nat) (hu : u < unitCount) (hi : s.isolated t = false) :
    (t, 2 ^ u) ∈ (s.uabortWrite t 0 (2 ^ u)).evt.aborts := by
  have named : ¬((List.range unitCount).filter (bit (2 ^ u)) = [] ∨ s.isolated t = true) := by
    rintro (h | h)
    · have mem : u ∈ (List.range unitCount).filter (bit (2 ^ u)) := by
        simp [hu, bit, Nat.testBit_two_pow_self]
      rw [h] at mem
      cases mem
    · rw [hi] at h
      cases h
  have whole : 2 ^ u % 2 ^ unitCount = 2 ^ u := Nat.mod_eq_of_lt (Nat.pow_lt_pow_right (by decide) hu)
  show _ ∈ (s.uabort t (2 ^ u)).evt.aborts
  unfold State.uabort
  dsimp only
  rw [if_neg named, whole]
  exact List.mem_append_right _ (List.mem_singleton_self _)

/-- The oldest request of a tile leaves, and the rest stand in UABORT_STAT. -/
theorem uabortDone_cons (s : State) (t mask : Nat) (l : List (Nat × Nat)) (h : s.evt.aborts = (t, mask) :: l) :
    s.uabortDone t =
      (({ s with evt.aborts := l } : State).setReg t UABORT_STAT ((l.filter (·.1 = t)).foldl (fun m x => m ||| x.2) 0)).raise t 308 := by
  have first : s.evt.aborts.find? (·.1 = t) = some (t, mask) := by simp [h]
  have rest : s.evt.aborts.erase (t, mask) = l := by simp [h]
  unfold State.uabortDone
  rw [first]
  dsimp only
  rw [rest]

/-- Settles O13: each command's own lemma above gives its part (R17, R20, R485). -/
theorem portDownCrossingAbortComplete : Obligations.PortDownCrossingAbortComplete := by
  unfold Obligations.PortDownCrossingAbortComplete
  refine ⟨?down, ?crossing, ?request, ?done⟩
  case down =>
    intro t p s hl hp hu
    exact does_when rfl (by simp [hl, hp]) (portDown_spec s t p hp hu)
  case crossing =>
    intro t x src s hl hx hs
    obtain ⟨shown, raised, discards, damages⟩ := xingFault_spec s t x src hx hs
    exact does_when rfl (by simp [hl, hx, hs]) ⟨shown, raised, discards, fun f h0 hf => ⟨_, damages f h0 hf, bit_orBit _ _⟩⟩
  case request =>
    intro t u s hl hu
    exact does_when rfl hl (uabortWrite_enters s t u hu (isolated_of_up (up_of_live hl)))
  case done =>
    intro t mask l s hl ha
    refine does_when rfl hl ?_
    rw [uabortDone_cons s t mask l ha]
    refine ⟨raise_aborts _ t 308, raise_stat _ t 308 (by decide), ?_⟩
    rintro rfl
    rw [reg_raise _ t 308 t _ (by decide) (by decide) (by decide), reg_setReg_same]
    rfl

end Sys2Proof.Machine

/-!
# A crew issues an instruction

The rules that the instructions of crews share (R47, R68, R70): the fields of the word, what the fetch leaves, how an act ends.
-/

namespace Sys2Proof.Machine

/-! ### Fields of an instruction word (R70) -/

/-- A field within the low n bits is a field of their value. -/
theorem bits_of_low {w n k : Nat} (h : bits w 0 n = k) (a b : Nat) (hab : a + b ≤ n) : bits w a b = bits k a b := by
  subst h
  apply Nat.eq_of_testBit_eq
  intro i
  simp only [testBit_bits, Nat.zero_add]
  by_cases hi : i < b
  · simp [show a + i < n by omega]
  · simp [hi]

theorem insnRow_bench {w : Nat} (h : opOf w = 0x30) (hf : bits w 0 2 ≠ 3) : insnRow w = some (0x3000 + bits w 0 2) := by
  simp [insnRow, h, hf]

theorem insnRow_txn {w : Nat} (h : opOf w = 0x31) : insnRow w = some (0x3100 + bits w 0 2) := by
  simp [insnRow, h]

theorem insnRow_event {w : Nat} (h : opOf w = 0x32) : insnRow w = some (0x3200 + bits w 0 2) := by
  simp [insnRow, h]

theorem insnRow_time {w : Nat} (h : opOf w = 0x33) (hf : bits w 0 4 ∈ [0, 1, 2, 8, 9]) : insnRow w = some (0x3300 + bits w 0 4) := by
  simp [insnRow, h, hf]

theorem mustZero_of_zero {s : State} {w v : Nat} {f : State → Act} (h : v = 0) : s.mustZero w v f = f s := if_pos h

/-! ### Registers of a crew (R62) -/

theorem gr_lt (x : Crew) (i : Nat) : x.gr i < 2 ^ 64 := by
  unfold Crew.gr
  split
  · decide
  · exact BitVec.isLt _

theorem gr_setG_same (x : Crew) {i : Nat} (v : Nat) (h : i ≠ 0) : (x.setG i v).gr i = v % 2 ^ 64 := by
  simp [Crew.gr, Crew.setG, h]

/-! ### The state in which an instruction acts (R68) -/

/-- The state in which the instruction at the front of a crew's fetch buffer acts: the crew is written back as it was. -/
def State.refetched (s : State) (t c : Nat) : State := s.setCrew t c (s.crew t c)

@[simp] theorem refetched_crew (s : State) (t c u d : Nat) : (s.refetched t c).crew u d = s.crew u d := by
  rw [State.refetched, crew_setCrew]
  split
  · rename_i h
    unfold State.crew
    rw [h]
  · rfl

@[simp] theorem refetched_gr (s : State) (t c u d i : Nat) : (s.refetched t c).gr u d i = (s.crew u d).gr i := by
  rw [State.gr, refetched_crew]

section
variable {s r : State} {t c w : Nat} {x y : Crew}

theorem State.Issues.live (h : s.Issues t c w) : s.live t 0 = true := by
  have := h.1
  simp only [State.crewReady, Bool.and_eq_true] at this
  exact this.1.1.1.1

theorem State.Issues.crew_lt (h : s.Issues t c w) : c < 8 := by
  have := h.1
  simp only [State.crewReady, Bool.and_eq_true, decide_eq_true_eq] at this
  exact this.1.1.1.2

theorem State.Issues.state_eq (h : s.Issues t c w) : (s.crew t c).state = 1 := by
  have := h.1
  simp only [State.crewReady, Bool.and_eq_true, beq_iff_eq] at this
  exact this.1.2

theorem State.Issues.wait_eq (h : s.Issues t c w) : (s.crew t c).wait = none := by
  have := h.1
  simp only [State.crewReady, Bool.and_eq_true, Option.isNone_iff_eq_none] at this
  exact this.2

theorem State.Issues.crewFetch (h : s.Issues t c w) : s.crewFetch t c = (s.refetched t c, some w, 0) := by
  obtain ⟨-, l, hl⟩ := h
  simp only [State.crewFetch, State.refetched, hl, ne_eq, not_true_eq_false, decide_false, Bool.false_eq_true, not_false_eq_true,
    List.dropWhile_cons_of_neg]
  rw [← hl]

/-- A crew that issues an instruction of the row that the command names does that instruction's act. -/
theorem State.Issues.crewIssue (h : s.Issues t c w) {k : Nat} (hk : insnRow w = some k) (act : State → Nat → Act) :
    s.crewIssue t c k act = (s.refetched t c).crewEnd t c w (act (s.refetched t c) w) := by
  simp [State.crewIssue, h.1, h.crewFetch, hk]

/-! ### Claims about one crew -/

/-- A crew differs from the crew of a tile in the tile or, below 2^20, in its number. -/
theorem crewKey_ne {u d : Nat} (hc : c < 8) (hd : d < 8) (h : ¬(u = t ∧ d = c)) : tk t c ≠ tk u d :=
  tk_ne (by omega) (by omega) fun e => h ⟨(Prod.mk.inj e).1.symm, (Prod.mk.inj e).2.symm⟩

theorem State.CrewIs.setCrew (h : s.CrewIs r t c x) (hc : c < 8) (y : Crew) : s.CrewIs (r.setCrew t c y) t c y :=
  ⟨crew_setCrew_same r t c y, fun u d hd hn => (crew_setCrew_ne r t c y u d (crewKey_ne hc hd hn)).trans (h.2 u d hd hn)⟩

theorem State.CrewIs.setG (h : s.CrewIs r t c x) (hc : c < 8) (i v : Nat) : s.CrewIs (r.setG t c i v) t c (x.setG i v) := by
  have := h.setCrew hc (x.setG i v)
  rwa [← h.1] at this ⊢

theorem State.CrewIs.crewDone (h : s.CrewIs r t c x) (hc : c < 8) (hn : r.now = s.now) (pc : Nat) :
    s.CrewIs (r.crewDone t c pc) t c (x.completed s.now pc) := by
  have := h.setCrew hc (x.completed r.now pc)
  rw [hn] at this
  rw [State.crewDone, h.1, hn]
  exact this

/-- What leaves crews as they are keeps a claim about one of them. -/
theorem State.CrewIs.of_core {q : State} (h : s.CrewIs r t c x) (e : q.core = r.core) : s.CrewIs q t c x := by
  unfold State.CrewIs State.crew at h ⊢
  rwa [e]

theorem crewIs_refetched (s : State) (t c : Nat) : s.CrewIs (s.refetched t c) t c (s.crew t c) :=
  ⟨refetched_crew s t c t c, fun u d _ _ => refetched_crew s t c u d⟩

theorem onlyCrew_refetched (s : State) (t c : Nat) : s.OnlyCrew (s.refetched t c) t c (s.crew t c) := ⟨rfl, crewIs_refetched s t c⟩

/-- A change of a crew changes crews and nothing else. -/
theorem onlyCrews_setCrew (h : r = { s with core.crews := r.core.crews }) (t c : Nat) (y : Crew) :
    r.setCrew t c y = { s with core.crews := (r.setCrew t c y).core.crews } := by
  rw [h]
  rfl

theorem State.OnlyCrew.setCrew (h : s.OnlyCrew r t c x) (hc : c < 8) (y : Crew) : s.OnlyCrew (r.setCrew t c y) t c y :=
  ⟨onlyCrews_setCrew h.1 t c y, h.2.setCrew hc y⟩

theorem State.OnlyCrew.setG (h : s.OnlyCrew r t c x) (hc : c < 8) (i v : Nat) : s.OnlyCrew (r.setG t c i v) t c (x.setG i v) :=
  ⟨onlyCrews_setCrew h.1 t c _, h.2.setG hc i v⟩

theorem State.OnlyCrew.crewDone (h : s.OnlyCrew r t c x) (hc : c < 8) (pc : Nat) :
    s.OnlyCrew (r.crewDone t c pc) t c (x.completed s.now pc) :=
  ⟨onlyCrews_setCrew h.1 t c _, h.2.crewDone hc (by rw [h.1]) pc⟩

/-! ### How an act ends -/

/-- An instruction that completes: what its act leads to, with the crew past it (R95). -/
theorem does_next {i : Instr} {k : Nat} {act : State → Nat → Act} {u : State} {P : State → Prop} (h : s.Issues t c w)
    (hx : exec i s = s.finish (s.when (s.live t 0) fun s => s.crewIssue t c k act)) (hk : insnRow w = some k)
    (ha : act (s.refetched t c) w = .next u) (hp : P (u.crewDone t c ((s.crew t c).pc + 4))) : Does i s P := by
  refine does_when hx h.live ?_
  rw [h.crewIssue hk, ha]
  simpa [State.crewEnd] using hp

/-- An instruction that completes having changed its crew only. -/
theorem does_next_only {i : Instr} {k : Nat} {act : State → Nat → Act} {u : State} (h : s.Issues t c w)
    (hx : exec i s = s.finish (s.when (s.live t 0) fun s => s.crewIssue t c k act)) (hk : insnRow w = some k)
    (ha : act (s.refetched t c) w = .next u) (hu : s.OnlyCrew u t c y) :
    Does i s fun r => s.OnlyCrew r t c (y.completed s.now ((s.crew t c).pc + 4)) :=
  does_next h hx hk ha (hu.crewDone h.crew_lt _)

/-- An instruction that writes gd and completes. -/
theorem does_result_only {i : Instr} {k v : Nat} {act : State → Nat → Act} (h : s.Issues t c w)
    (hx : exec i s = s.finish (s.when (s.live t 0) fun s => s.crewIssue t c k act)) (hk : insnRow w = some k)
    (ha : act (s.refetched t c) w = (s.refetched t c).result t c w v) :
    Does i s fun r => s.OnlyCrew r t c (((s.crew t c).setG (gdOf w) v).completed s.now ((s.crew t c).pc + 4)) :=
  does_next_only h hx hk ha ((onlyCrew_refetched s t c).setG h.crew_lt _ _)

/-- An instruction whose crew begins to wait. -/
theorem does_wait {i : Instr} {k : Nat} {act : State → Nat → Act} {u : State} {P : State → Prop} (h : s.Issues t c w)
    (hx : exec i s = s.finish (s.when (s.live t 0) fun s => s.crewIssue t c k act)) (hk : insnRow w = some k)
    (ha : act (s.refetched t c) w = .wait u) (hp : P u) : Does i s P := by
  refine does_when hx h.live ?_
  rw [h.crewIssue hk, ha]
  exact hp

end

end Sys2Proof.Machine

/-!
# Waiting, firing and time

What WAIT, WAITT, FIRE, ARM and the time instructions do (R48, R82 to R84, R106, R107, R118, R120).
-/

namespace Sys2Proof.Machine

/-! ### What a change of registers leaves -/

/-- A write of a word of a list leaves every other word. -/
theorem State.WordsBut.setReg {s r : State} {l : List (Nat × Nat)} (h : s.WordsBut r l) {t off : Nat} (v : Nat) (ho : off < 0x1000000)
    (hm : (t, off) ∈ l) : s.WordsBut (r.setReg t off v) l := by
  intro u o hlt hn
  rw [word_setReg_ne r v (regKey_ne ho hlt fun e => hn (e ▸ hm)), h u o hlt hn]

theorem wordsBut_refl (s : State) (l : List (Nat × Nat)) : s.WordsBut s l := fun _ _ _ _ => rfl

/-- The states before and after a change differ in the same words. -/
theorem State.WordsBut.symm {s r : State} {l : List (Nat × Nat)} (h : s.WordsBut r l) : r.WordsBut s l :=
  fun u o hlt hn => (h u o hlt hn).symm

theorem State.WordsBut.reg {s r : State} {l : List (Nat × Nat)} (h : s.WordsBut r l) {t off : Nat} (ho : off < 0x1000000) (hn : (t, off) ∉ l) :
    r.reg t off = s.reg t off := by
  unfold State.reg
  rw [h t off ho hn]

/-! ### Waiting on lines (R48, R82) -/

theorem waitAct_hit {s : State} {t c w mask : Nat} {d : Option (Nat × Nat)} (h : (s.crew t c).pending &&& mask ≠ 0) :
    s.waitAct t c w mask d = .next (s.setCrew t c (({ s.crew t c with
      pending := (s.crew t c).pending - ((s.crew t c).pending &&& mask) } : Crew).setG (gdOf w) ((s.crew t c).pending &&& mask))) :=
  if_pos h

theorem waitAct_passed {s : State} {t c w mask dl n : Nat} (h : (s.crew t c).pending &&& mask = 0)
    (hd : atOrAfter (s.tcN t n) dl = true) : s.waitAct t c w mask (some (dl, n)) = s.result t c w 0 := by
  simp [State.waitAct, h, hd]

theorem waitAct_waits {s : State} {t c w mask : Nat} {d : Option (Nat × Nat)} (h : (s.crew t c).pending &&& mask = 0)
    (hd : ∀ e ∈ d, atOrAfter (s.tcN t e.2) e.1 = false) :
    s.waitAct t c w mask d = .wait (s.setCrew t c { s.crew t c with
      state := 2, wait := some (.lines mask (gdOf w) d), lastIssue := s.now }) := by
  cases d with
  | none => simp [State.waitAct, h]
  | some e => simp [State.waitAct, h, hd e rfl]

/-- A wait that ends takes the matched lines, which are all pending (R48). -/
theorem linesDone_onlyCrew (s : State) {t c : Nat} (gd matched : Nat) (hc : c < 8) :
    s.OnlyCrew (s.linesDone t c gd matched) t c
      ((({ s.crew t c with state := 1, wait := none, pending := (s.crew t c).pending - ((s.crew t c).pending &&& matched) } : Crew).setG gd
        matched).completed s.now ((s.crew t c).pc + 4)) := by
  have self : s.OnlyCrew s t c (s.crew t c) := ⟨rfl, rfl, fun _ _ _ _ => rfl⟩
  exact (self.setCrew hc _).crewDone hc _

theorem crewWake_hit {s : State} {t c mask gd : Nat} {d : Option (Nat × Nat)} (hl : s.live t 0 = true)
    (hw : (s.crew t c).wait = some (.lines mask gd d)) (h : (s.crew t c).pending &&& mask ≠ 0) :
    s.crewWake t c = s.linesDone t c gd ((s.crew t c).pending &&& mask) := by
  simp [State.crewWake, hw, hl, h]

theorem waittDeadline_none {s : State} {t c mask gd dl n : Nat} (hl : s.live t 0 = true)
    (hw : (s.crew t c).wait = some (.lines mask gd (some (dl, n)))) (hd : atOrAfter (s.tcN t n) dl = true)
    (h : (s.crew t c).pending &&& mask = 0) : s.waittDeadline t c = s.linesDone t c gd 0 := by
  simp [State.waittDeadline, hw, hl, hd, h]

/-! ### Lines asserted (R48, R83) -/

/-- Asserting a line on a list of crews, each named once, sets it in each of them once. -/
theorem assertOn_crew (t line d : Nat) (l : List Nat) (hl : l.Nodup) (s : State) :
    (s.each l fun s c => s.setCrew t c { s.crew t c with pending := orBit (s.crew t c).pending line }).crew t d =
      if d ∈ l then { s.crew t d with pending := orBit (s.crew t d).pending line } else s.crew t d := by
  induction l generalizing s with
  | nil => rfl
  | cons c l ih =>
    obtain ⟨hc, hl⟩ := List.nodup_cons.1 hl
    rw [each_cons, ih hl, crew_setCrew]
    by_cases h : c = d
    · subst h
      simp [hc]
    · have hk : tk t c ≠ tk t d := by unfold tk; omega
      simp [hk, Ne.symm h]

theorem assertLine_crew (s : State) (t line d : Nat) (hd : d < 8) :
    (s.assertLine t line).crew t d = { s.crew t d with pending := orBit (s.crew t d).pending line } := by
  rw [State.assertLine, assertOn_crew t line d _ List.nodup_range, if_pos (List.mem_range.2 hd)]

theorem actFire_here {s : State} {t c w : Nat} (hf : bits w 2 9 = 0) (hd : gdOf w = 0) (hb : gbOf w = 0)
    (ha : (s.gr t c (gaOf w)) < 2 ^ 12) (hr : bits (s.gr t c (gaOf w)) 6 2 = 0)
    (ht : bit (s.gr t c (gaOf w)) 11 = false ∨ bits (s.gr t c (gaOf w)) 8 3 = t) (hp : c < 2 ∨ 48 ≤ bits (s.gr t c (gaOf w)) 0 6) :
    actFire t c s w = .next (s.assertLine t (bits (s.gr t c (gaOf w)) 0 6)) := by
  have here : (if bit (s.gr t c (gaOf w)) 11 = true then bits (s.gr t c (gaOf w)) 8 3 else t) = t := by
    split
    · rename_i h
      exact ht.resolve_left (by simp [h])
    · rfl
  unfold actFire
  dsimp only
  rw [mustZero_of_zero (by rw [hf, hd, hb, hr, Nat.div_eq_of_lt ha]), here, if_neg (by omega), if_pos rfl]

/-! ### Geysers armed (R118, R120, R121) -/

theorem gyReg_off (g : Nat) (hg : g < 32) : 0x30400 ≤ GY_CTL g ∧ GY_CTL g < 0x30C00 ∧ GY_TGT_LO g = GY_CTL g + 4 ∧
    GY_TGT_HI g = GY_CTL g + 8 ∧ GY_TGT_FRAC g = GY_CTL g + 12 ∧ GY_PER_FRAC g = GY_CTL g + 16 ∧ GY_PER_NS g = GY_CTL g + 20 ∧
    GY_COUNT g = GY_CTL g + 28 ∧ GY_STAT g = GY_CTL g + 32 := by
  unfold GY_TGT_LO GY_TGT_HI GY_TGT_FRAC GY_PER_FRAC GY_PER_NS GY_COUNT GY_STAT GY_CTL
  omega

/-- A geyser that is not armed, is held, or has its target ahead does not fire (R117, R121). -/
theorem geyFire_idle {s : State} {t g : Nat} (h : s.on t (GY_CTL_ARMED g) = false ∨ s.geyHold t = true ∨ s.geyPast t g < 0) :
    s.geyFire t g = s := by
  unfold State.geyFire
  dsimp only
  rw [if_pos]
  rcases h with h | h | h
  · exact Or.inl (by simp [h])
  · exact Or.inr (Or.inl h)
  · exact Or.inr (Or.inr (Or.inl h))

/-- A one-shot geyser past LATE_LIMIT with LATE_MODE SUPPRESS disarms and is suppressed (R120). -/
theorem geyFire_suppressed {s : State} {t g : Nat} (ha : s.on t (GY_CTL_ARMED g) = true) (hh : s.geyHold t = false)
    (hl : (s.geyTgt t g).last ≠ s.now + 1) (hp : s.geyPer t g = 0) (hm : s.on t (GY_CTL_LATE_MODE g) = true)
    (late : (s.lateLimit t : Int) < s.geyPast t g) :
    s.geyFire t g = ((s.setB t (GY_CTL_ARMED g) false).setB t (GY_STAT_SUPPRESSED g) true).raise t 265 := by
  have past : ¬ s.geyPast t g < 0 := by omega
  simp [State.geyFire, ha, hh, past, hl, hp, hm, late]

/-- A geyser takes a target of whole nanoseconds and arms (R82). -/
def State.geyReady (s : State) (t g n : Nat) : State := (s.geyAim t g n).geyArm t g

section
variable (s : State) (t : Nat) {g n : Nat}

theorem geyReady_words (hg : g < 32) :
    s.WordsBut (s.geyReady t g n) [(t, GY_CTL g), (t, GY_TGT_LO g), (t, GY_TGT_HI g), (t, GY_TGT_FRAC g)] := by
  obtain ⟨lo, hi, e1, e2, e3, -⟩ := gyReg_off g hg
  have aimed : s.WordsBut (s.geyAim t g n) [(t, GY_CTL g), (t, GY_TGT_LO g), (t, GY_TGT_HI g), (t, GY_TGT_FRAC g)] := by
    have pair : s.WordsBut (s.setReg64 t (GY_TGT_LO g) n) [(t, GY_CTL g), (t, GY_TGT_LO g), (t, GY_TGT_HI g), (t, GY_TGT_FRAC g)] :=
      ((wordsBut_refl s _).setReg _ (by omega) (by simp)).setReg _ (by omega) (by simp [e1, e2])
    exact pair.setReg 0 (by omega) (by simp)
  exact aimed.setReg _ (by show GY_CTL g < _; omega) (by simp [GY_CTL_ARMED])

theorem geyAim_tgt (hn : n < 2 ^ 64) : (s.geyAim t g n).geyTgt t g = { s.geyTgt t g with n := n, frac := 0 } := by
  have set : (s.geyAim t g n).geyTgt t g = { s.geyTgt t g with n := n % 2 ^ 64, frac := 0 % 2 ^ 32 } :=
    geyTgt_setGeyTgt_same ((s.setReg64 t (GY_TGT_LO g) n).setReg t (GY_TGT_FRAC g) 0) t g _
  rw [set, Nat.mod_eq_of_lt hn, Nat.zero_mod]

theorem geyReady_time : (s.geyReady t g n).time = (s.geyAim t g n).time := rfl

theorem geyReady_core : (s.geyReady t g n).core = s.core := rfl

theorem geyReady_now : (s.geyReady t g n).now = s.now := rfl

theorem geyReady_tgt (hn : n < 2 ^ 64) : (s.geyReady t g n).geyTgt t g = { s.geyTgt t g with n := n, frac := 0 } := by
  rw [State.geyTgt, geyReady_time]
  exact geyAim_tgt s t hn

theorem geyReady_armed : (s.geyReady t g n).on t (GY_CTL_ARMED g) = true := on_setB_same _ t _ true (by decide : 2 + 1 ≤ 32) Nat.one_pos

theorem geyAim_ctl (hg : g < 32) {q : FRef} (hq : q.off = GY_CTL g) : (s.geyAim t g n).f t q = s.f t q := by
  obtain ⟨lo, hi, e1, e2, e3, -⟩ := gyReg_off g hg
  refine f_congr ?_
  rw [hq]
  refine (reg_setReg_ne (s.setReg64 t (GY_TGT_LO g) n) 0 (regKey_off_ne (by omega) (by omega) (by omega))).trans ?_
  exact (reg_setReg_ne _ _ (regKey_off_ne (by omega) (by omega) (by omega))).trans
    (reg_setReg_ne _ _ (regKey_off_ne (by omega) (by omega) (by omega)))

/-- Beside its ARMED bit, aiming and arming leave GYg_CTL. -/
theorem geyReady_ctl (hg : g < 32) {q : FRef} (hq : q.off = GY_CTL g) (ha : 3 ≤ q.lo) : (s.geyReady t g n).f t q = s.f t q :=
  (f_setF_apart (r := GY_CTL_ARMED g) (q := q) _ t _ hq.symm (by decide : 2 + 1 ≤ 32) (Or.inl ha)).trans (geyAim_ctl s t hg hq)

theorem geyReady_hold (hg : g < 32) : (s.geyReady t g n).geyHold t = s.geyHold t := by
  obtain ⟨lo, hi, e1, e2, e3, -⟩ := gyReg_off g hg
  have follow : (s.geyReady t g n).reg t FOLLOW = s.reg t FOLLOW :=
    (geyReady_words s t hg).reg (by decide) (by simp [FOLLOW]; omega)
  have state : (s.geyReady t g n).f t FOLLOW_STATE = s.f t FOLLOW_STATE := f_congr follow
  have lost : (s.geyReady t g n).time.clockLost = s.time.clockLost := rfl
  rw [State.geyHold, State.geyHold, state, lost]

/-- How far a channel lies past a target depends on the channel alone. -/
theorem chanPast_congr {s r : State} {t n : Nat} (h : r.chan t n = s.chan t n) (x : GeyTgt) : r.chanPast t n x = s.chanPast t n x := by
  unfold State.chanPast
  rw [h]

theorem geyAim_past (hg : g < 32) (hn : n < 2 ^ 64) :
    (s.geyAim t g n).geyPast t g = s.chanPast t (s.f t (GY_CTL_CHAN g)) { s.geyTgt t g with n := n, frac := 0 } := by
  rw [State.geyPast, geyAim_tgt s t hn, geyAim_ctl s t hg rfl]
  exact chanPast_congr rfl _

theorem geyReady_past (hg : g < 32) (hn : n < 2 ^ 64) :
    (s.geyReady t g n).geyPast t g = s.chanPast t (s.f t (GY_CTL_CHAN g)) { s.geyTgt t g with n := n, frac := 0 } := by
  rw [State.geyPast, geyReady_tgt s t hn, geyReady_ctl s t hg rfl (Nat.le_refl 3)]
  exact chanPast_congr rfl _

theorem geyReady_reg64 (hg : g < 32) (hn : n < 2 ^ 64) : (s.geyReady t g n).reg64 t (GY_TGT_LO g) = n := by
  obtain ⟨lo, hi, e1, e2, e3, -⟩ := gyReg_off g hg
  have key : ∀ a b : Nat, a < 0x1000000 → b < 0x1000000 → a ≠ b → regKey t a ≠ regKey t b := fun a b => regKey_off_ne
  have low : (s.geyReady t g n).reg t (GY_TGT_LO g) = n % 2 ^ 32 := by
    refine (reg_setReg_ne (s.geyAim t g n) _ (key (GY_CTL g) _ (by omega) (by omega) (by omega))).trans ?_
    refine (reg_setReg_ne (s.setReg64 t (GY_TGT_LO g) n) 0 (key _ _ (by omega) (by omega) (by omega))).trans ?_
    refine (reg_setReg_ne (s.setReg t (GY_TGT_LO g) (n % 2 ^ 32)) _ (key _ _ (by omega) (by omega) (by omega))).trans ?_
    rw [reg_setReg_same, Nat.mod_mod]
  have high : (s.geyReady t g n).reg t (GY_TGT_LO g + 4) = n / 2 ^ 32 := by
    refine (reg_setReg_ne (s.geyAim t g n) _ (key (GY_CTL g) _ (by omega) (by omega) (by omega))).trans ?_
    refine (reg_setReg_ne (s.setReg64 t (GY_TGT_LO g) n) 0 (key _ _ (by omega) (by omega) (by omega))).trans ?_
    refine (reg_setReg_same (s.setReg t (GY_TGT_LO g) (n % 2 ^ 32)) t (GY_TGT_LO g + 4) _).trans ?_
    omega
  unfold State.reg64
  rw [low, high]
  omega

theorem geyReady_frac (hg : g < 32) : (s.geyReady t g n).reg t (GY_TGT_FRAC g) = 0 := by
  obtain ⟨lo, hi, e1, e2, e3, -⟩ := gyReg_off g hg
  refine (reg_setReg_ne (s.geyAim t g n) _ (regKey_off_ne (a := GY_CTL g) (by omega) (by omega) (by omega))).trans ?_
  exact reg_setReg_same (s.setReg64 t (GY_TGT_LO g) n) t (GY_TGT_FRAC g) 0

/-- ARM of a geyser that does not fire before it: aiming, arming, then its late mode (R82, R120). -/
theorem geyArmAt_fst (h : s.on t (GY_CTL_ARMED g) = false ∨ s.geyHold t = true ∨ s.geyPast t g < 0) :
    (s.geyArmAt t g n).1 = (s.geyReady t g n).geyFire t g := by
  show (((s.geyFire t g).geyAim t g n).geyArm t g).geyFire t g = _
  rw [geyFire_idle h]
  rfl

theorem geyArmAt_snd (hg : g < 32) (hn : n < 2 ^ 64) :
    (s.geyArmAt t g n).2 = decide ((s.lateLimit t : Int) < s.chanPast t (s.f t (GY_CTL_CHAN g)) { s.geyTgt t g with n := n, frac := 0 }) := by
  unfold State.geyArmAt
  rw [geyAim_past s t hg hn]

/-- ARM of a geyser that is held or whose target lies ahead only aims and arms it. -/
theorem geyArmAt_ahead (hg : g < 32) (hn : n < 2 ^ 64) (h : s.on t (GY_CTL_ARMED g) = false ∨ s.geyHold t = true ∨ s.geyPast t g < 0)
    (ha : s.geyHold t = true ∨ s.chanPast t (s.f t (GY_CTL_CHAN g)) { s.geyTgt t g with n := n, frac := 0 } < 0) :
    (s.geyArmAt t g n).1 = s.geyReady t g n := by
  rw [geyArmAt_fst s t h, geyFire_idle]
  exact Or.inr (ha.imp (geyReady_hold s t hg).trans (geyReady_past s t hg hn ▸ ·))

/-- ARM of a one-shot geyser at a target past LATE_LIMIT, with LATE_MODE SUPPRESS, suppresses it at once (R120). -/
theorem geyArmAt_suppressed (hg : g < 32) (hn : n < 2 ^ 64) (ha : s.on t (GY_CTL_ARMED g) = false) (hh : s.geyHold t = false)
    (hp : s.geyPer t g = 0) (hm : s.on t (GY_CTL_LATE_MODE g) = true) (hl : (s.geyTgt t g).last ≠ s.now + 1)
    (late : (s.lateLimit t : Int) < s.chanPast t (s.f t (GY_CTL_CHAN g)) { s.geyTgt t g with n := n, frac := 0 }) :
    (s.geyArmAt t g n).1 =
      (((s.geyReady t g n).setB t (GY_CTL_ARMED g) false).setB t (GY_STAT_SUPPRESSED g) true).raise t 265 := by
  obtain ⟨lo, hi, e1, e2, e3, e4, e5, -⟩ := gyReg_off g hg
  have words := geyReady_words s t (n := n) hg
  have other : ∀ off, off < 0x1000000 → off < GY_CTL g ∨ GY_CTL g + 12 < off → (s.geyReady t g n).reg t off = s.reg t off :=
    fun off ho h => words.reg ho (by simp; omega)
  rw [geyArmAt_fst s t (Or.inl ha)]
  refine geyFire_suppressed (geyReady_armed s t) ((geyReady_hold s t hg).trans hh) ?_ ?_ ?_ ?_
  · rw [geyReady_tgt s t hn]
    exact hl
  · unfold State.geyPer
    rw [other _ (by omega) (by omega), other _ (by omega) (by omega)]
    exact hp
  · rw [State.on, geyReady_ctl s t hg (q := GY_CTL_LATE_MODE g) rfl (by decide : 3 ≤ 5)]
    exact hm
  · unfold State.lateLimit
    rw [other LATE_LIMIT (by decide) (by unfold LATE_LIMIT; omega), geyReady_past s t hg hn]
    exact late

end

/-- A geyser that is suppressed is disarmed, has raised its event and has not counted (R120). -/
theorem suppressed_spec (s : State) (t : Nat) {g : Nat} (hg : g < 32) :
    (((s.setB t (GY_CTL_ARMED g) false).setB t (GY_STAT_SUPPRESSED g) true).raise t 265).on t (GY_CTL_ARMED g) = false ∧
    (((s.setB t (GY_CTL_ARMED g) false).setB t (GY_STAT_SUPPRESSED g) true).raise t 265).evtStat t 265 = true ∧
    (((s.setB t (GY_CTL_ARMED g) false).setB t (GY_STAT_SUPPRESSED g) true).raise t 265).reg t (GY_COUNT g) = s.reg t (GY_COUNT g) := by
  obtain ⟨lo, hi, -, -, -, -, -, e6, e7⟩ := gyReg_off g hg
  refine ⟨?_, raise_stat _ t 265 (by decide), ?_⟩
  · have kept : ∀ r : State, (r.raise t 265).f t (GY_CTL_ARMED g) = r.f t (GY_CTL_ARMED g) :=
      fun r => f_raise r t 265 t _ (by decide) (by show GY_CTL g < _; omega) (by show eventOff (GY_CTL g) = false; simp [eventOff]; omega)
    have other : ∀ r : State, (r.setB t (GY_STAT_SUPPRESSED g) true).f t (GY_CTL_ARMED g) = r.f t (GY_CTL_ARMED g) :=
      fun r => f_setF_off_ne r _ (by show GY_STAT g < _; omega) (by show GY_CTL g < _; omega) (by show GY_STAT g ≠ GY_CTL g; omega)
    rw [State.on, kept, other]
    exact on_setB_same s t (GY_CTL_ARMED g) false (by decide : 2 + 1 ≤ 32) Nat.one_pos
  · refine (reg_raise _ t 265 t (GY_COUNT g) (by decide) (by omega) (by simp [eventOff]; omega)).trans ?_
    refine (reg_setReg_ne _ _ (regKey_off_ne (a := GY_STAT g) (by omega) (by omega) (by omega))).trans ?_
    exact reg_setReg_ne _ _ (regKey_off_ne (a := GY_CTL g) (by omega) (by omega) (by omega))

/-! ### Steering (R102, R106, R107) -/

theorem requestInc_ok {s : State} {t n inc : Nat} (h1 : nominalInc ≤ inc + 5368709) (h2 : inc ≤ nominalInc + 5368709)
    (hh : s.holdover n = false) (hs : n = 0 ∨ s.on 0 (TC_SERVO_EN n) = false) : s.requestInc t n inc = (s.acceptInc n inc, true) := by
  have no : ¬((nominalInc + 5368709 < inc ∨ inc + 5368709 < nominalInc) ∨ s.holdover n = true ∨ n ≠ 0 ∧ s.on 0 (TC_SERVO_EN n) = true) := by
    rintro ((h | h) | h | ⟨h, k⟩)
    · omega
    · omega
    · simp [hh] at h
    · exact absurd k (by simp [hs.resolve_left h])
  exact if_neg no

/-- The steps of a channel that are pending stand in TCn_STAT of every tile (R107). -/
def State.stepShown (s : State) (n : Nat) : State := s.each s.tileList fun s t => s.setB t (TC_STAT_STEP_PEND n) true

theorem requestStep_ok {s : State} {t n : Nat} {ns : Int} (hp : (s.steer n).step = none) (hh : s.holdover n = false) :
    s.requestStep t n ns = ((s.setSteer n { s.steer n with step := some (s.now + 400, ns) }).stepShown n, true) := by
  unfold State.requestStep
  dsimp only
  rw [if_neg (by simp [hp, hh])]
  rfl

theorem stepShown_steer (s : State) (n k : Nat) : (s.stepShown n).steer k = s.steer k := each_keeps (·.steer k) s _ _ fun _ _ => rfl

theorem stepShown_core (s : State) (n : Nat) : (s.stepShown n).core = s.core := each_keeps (·.core) s _ _ fun _ _ => rfl

theorem stepShown_now (s : State) (n : Nat) : (s.stepShown n).now = s.now := each_keeps (·.now) s _ _ fun _ _ => rfl

theorem stepShown_on (s : State) {n u : Nat} (hn : n < 4) (hu : u < s.tiles) : (s.stepShown n).on u (TC_STAT_STEP_PEND n) = true := by
  have off : TC_STAT n < 0x1000000 := by unfold TC_STAT; omega
  have loop : ∀ (l : List Nat) (s : State), u ∈ l ∨ s.on u (TC_STAT_STEP_PEND n) = true →
      (s.each l fun s t => s.setB t (TC_STAT_STEP_PEND n) true).on u (TC_STAT_STEP_PEND n) = true := by
    intro l
    induction l with
    | nil => exact fun s h => h.resolve_left List.not_mem_nil
    | cons t l ih =>
      intro s h
      refine ih _ ?_
      by_cases e : t = u
      · subst e
        exact Or.inr (on_setB_same s t _ true (by decide : 2 + 1 ≤ 32) Nat.one_pos)
      · refine h.imp (fun h => (List.mem_cons.1 h).resolve_left (Ne.symm e)) fun h => ?_
        have other : (s.setB t (TC_STAT_STEP_PEND n) true).f u (TC_STAT_STEP_PEND n) = s.f u (TC_STAT_STEP_PEND n) :=
          f_setF_ne s _ (regKey_ne off off fun k => e (Prod.mk.inj k).1)
        rw [State.on, other]
        exact h
  exact loop _ s (Or.inl (List.mem_range.2 hu))

/-! ### The instructions -/

section
variable {s : State} {t c w : Nat}

theorem actWait_eq (hf : bits w 0 11 = 0) (hb : gbOf w = 0) (ha : (s.crew t c).gr (gaOf w) ≠ 0) :
    actWait t c (s.refetched t c) w = (s.refetched t c).waitAct t c w ((s.crew t c).gr (gaOf w)) none := by
  have zero : bits w 2 9 = 0 := bits_of_low hf 2 9 (by decide)
  simp [actWait, zero, hb, ha]

theorem actWaitt_eq (hf : bits w 0 4 = 1) (hz : bits w 6 5 = 0) :
    actWaitt t c (s.refetched t c) w =
      (s.refetched t c).waitAct t c w ((s.crew t c).gr (gaOf w)) (some ((s.crew t c).gr (gbOf w), bits w 4 2)) := by
  have zero : bits w 2 2 = 0 := bits_of_low hf 2 2 (by decide)
  simp [actWaitt, mustZero_of_zero, zero, hz]

theorem does_took {i : Instr} {k mask : Nat} {d : Option (Nat × Nat)} {act : State → Nat → Act} (h : s.Issues t c w)
    (hx : exec i s = s.finish (s.when (s.live t 0) fun s => s.crewIssue t c k act)) (hk : insnRow w = some k)
    (ha : act (s.refetched t c) w = (s.refetched t c).waitAct t c w mask d) (hit : (s.crew t c).pending &&& mask ≠ 0) :
    Does i s fun r => s.OnlyCrew r t c ((({ s.crew t c with
      pending := (s.crew t c).pending - ((s.crew t c).pending &&& mask) } : Crew).setG (gdOf w)
        ((s.crew t c).pending &&& mask)).completed s.now ((s.crew t c).pc + 4)) := by
  refine does_next_only h hx hk (ha.trans (waitAct_hit (by simpa using hit))) ?_
  simp only [refetched_crew]
  exact (onlyCrew_refetched s t c).setCrew h.crew_lt _

theorem does_waits {i : Instr} {k mask : Nat} {d : Option (Nat × Nat)} {act : State → Nat → Act} (h : s.Issues t c w)
    (hx : exec i s = s.finish (s.when (s.live t 0) fun s => s.crewIssue t c k act)) (hk : insnRow w = some k)
    (ha : act (s.refetched t c) w = (s.refetched t c).waitAct t c w mask d) (hit : (s.crew t c).pending &&& mask = 0)
    (hd : ∀ e ∈ d, atOrAfter (s.tcN t e.2) e.1 = false) :
    Does i s fun r => s.OnlyCrew r t c { s.crew t c with state := 2, wait := some (.lines mask (gdOf w) d), lastIssue := s.now } := by
  refine does_wait h hx hk (ha.trans (waitAct_waits (by simpa using hit) hd)) ?_
  simp only [refetched_crew]
  exact (onlyCrew_refetched s t c).setCrew h.crew_lt _

theorem row_wait (ho : opOf w = 0x32) (hf : bits w 0 11 = 0) : insnRow w = some 0x3200 :=
  (insnRow_event ho).trans (by rw [bits_of_low hf 0 2 (by decide)]; rfl)

theorem row_waitt (ho : opOf w = 0x32) (hf : bits w 0 4 = 1) : insnRow w = some 0x3201 :=
  (insnRow_event ho).trans (by rw [bits_of_low hf 0 2 (by decide)]; rfl)

/-- FIRE on the own tile sets its line in every crew's PENDING word (R83). -/
theorem does_fire (h : s.Issues t c w) (ho : opOf w = 0x32) (hf : bits w 0 11 = 2) (hd : gdOf w = 0) (hb : gbOf w = 0)
    (ha : (s.crew t c).gr (gaOf w) < 2 ^ 12) (hr : bits ((s.crew t c).gr (gaOf w)) 6 2 = 0)
    (ht : bit ((s.crew t c).gr (gaOf w)) 11 = false ∨ bits ((s.crew t c).gr (gaOf w)) 8 3 = t)
    (hp : c < 2 ∨ 48 ≤ bits ((s.crew t c).gr (gaOf w)) 0 6) :
    Does (.fire t c) s fun r =>
      r = { s with core.crews := r.core.crews } ∧
      r.crew t c = ({ s.crew t c with pending := orBit (s.crew t c).pending (bits ((s.crew t c).gr (gaOf w)) 0 6) } : Crew).completed s.now
        ((s.crew t c).pc + 4) ∧
      ∀ d, d < 8 → d ≠ c → r.crew t d =
        { s.crew t d with pending := orBit (s.crew t d).pending (bits ((s.crew t c).gr (gaOf w)) 0 6) } := by
  have row : insnRow w = some 0x3202 := (insnRow_event ho).trans (by rw [bits_of_low hf 0 2 (by decide)]; rfl)
  have act := actFire_here (s := s.refetched t c) (t := t) (c := c) (bits_of_low hf 2 9 (by decide)) hd hb
    (by rwa [refetched_gr]) (by rwa [refetched_gr]) (by rwa [refetched_gr]) (by rwa [refetched_gr])
  refine does_next h rfl row act ?_
  rw [refetched_gr]
  have crews := assertLine_eq (s.refetched t c) t (bits ((s.crew t c).gr (gaOf w)) 0 6)
  have crew : ∀ d, d < 8 → _ := assertLine_crew (s.refetched t c) t (bits ((s.crew t c).gr (gaOf w)) 0 6)
  generalize (s.refetched t c).assertLine t (bits ((s.crew t c).gr (gaOf w)) 0 6) = u at crews crew ⊢
  have now : u.now = s.now := by rw [crews]; rfl
  simp only [refetched_crew] at crew
  refine ⟨onlyCrews_setCrew crews t c _, ?_, fun d hd hne => ?_⟩
  · rw [State.crewDone, crew_setCrew_same, now, crew c h.crew_lt]
    rfl
  · rw [State.crewDone, crew_setCrew_ne _ _ _ _ _ _ (crewKey_ne h.crew_lt hd fun e => hne e.2), crew d hd]

/-! ARM (R82, R118, R120). -/

theorem row_arm (ho : opOf w = 0x32) (hf : bits w 0 11 = 3) : insnRow w = some 0x3203 :=
  (insnRow_event ho).trans (by rw [bits_of_low hf 0 2 (by decide)]; rfl)

theorem actArm_eq {g n : Nat} (hf : bits w 0 11 = 3) (hg : g < 32) (ha : s.gr t c (gaOf w) = g) (hb : s.gr t c (gbOf w) = n) :
    actArm t c s w = (s.geyArmAt t g n).1.result t c w (b2n (s.geyArmAt t g n).2) := by
  subst ha hb
  rw [actArm]
  exact mustZero_of_zero (by rw [bits_of_low hf 2 9 (by decide), Nat.div_eq_of_lt hg]; rfl)

theorem does_arm_ahead {g n : Nat} (h : s.Issues t c w) (ho : opOf w = 0x32) (hf : bits w 0 11 = 3) (hg : g < 32)
    (ha : (s.crew t c).gr (gaOf w) = g) (hb : (s.crew t c).gr (gbOf w) = n)
    (idle : s.on t (GY_CTL_ARMED g) = false ∨ s.geyHold t = true ∨ s.geyPast t g < 0)
    (ahead : s.geyHold t = true ∨ s.chanPast t (s.f t (GY_CTL_CHAN g)) { s.geyTgt t g with n := n, frac := 0 } < 0) :
    Does (.arm t c) s fun r =>
      r.geyTgt t g = { s.geyTgt t g with n := n, frac := 0 } ∧ r.on t (GY_CTL_ARMED g) = true ∧ r.reg64 t (GY_TGT_LO g) = n ∧
      r.reg t (GY_TGT_FRAC g) = 0 ∧ r.WordsBut s [(t, GY_CTL g), (t, GY_TGT_LO g), (t, GY_TGT_HI g), (t, GY_TGT_FRAC g)] ∧
      s.CrewIs r t c (((s.crew t c).setG (gdOf w) (if (s.lateLimit t : Int) <
        s.chanPast t (s.f t (GY_CTL_CHAN g)) { s.geyTgt t g with n := n, frac := 0 } then 1 else 0)).completed s.now ((s.crew t c).pc + 4)) := by
  have hn : n < 2 ^ 64 := hb ▸ gr_lt ..
  have act := actArm_eq (s := s.refetched t c) hf hg (by rw [refetched_gr, ha]) (by rw [refetched_gr, hb])
  have fst : ((s.refetched t c).geyArmAt t g n).1 = (s.refetched t c).geyReady t g n := geyArmAt_ahead _ t hg hn idle ahead
  have snd : ((s.refetched t c).geyArmAt t g n).2 =
    decide ((s.lateLimit t : Int) < s.chanPast t (s.f t (GY_CTL_CHAN g)) { s.geyTgt t g with n := n, frac := 0 }) := geyArmAt_snd _ t hg hn
  rw [fst, snd] at act
  have tgt := geyReady_tgt (s.refetched t c) t (g := g) hn
  have armed := geyReady_armed (s.refetched t c) t (g := g) (n := n)
  have pair := geyReady_reg64 (s.refetched t c) t hg hn
  have frac := geyReady_frac (s.refetched t c) t (n := n) hg
  have words := geyReady_words (s.refetched t c) t (n := n) hg
  have crews := (crewIs_refetched s t c).of_core (geyReady_core (s.refetched t c) t (g := g) (n := n))
  have now := geyReady_now (s.refetched t c) t (g := g) (n := n)
  generalize (s.refetched t c).geyReady t g n = u at *
  refine does_next h rfl (row_arm ho hf) act ⟨tgt, armed, pair, frac, words.symm, ?_⟩
  have done := (crews.setG h.crew_lt (gdOf w) (b2n (decide ((s.lateLimit t : Int) <
    s.chanPast t (s.f t (GY_CTL_CHAN g)) { s.geyTgt t g with n := n, frac := 0 })))).crewDone h.crew_lt now ((s.crew t c).pc + 4)
  simpa only [b2n, decide_eq_true_eq] using done

theorem does_arm_suppressed {g n : Nat} (h : s.Issues t c w) (ho : opOf w = 0x32) (hf : bits w 0 11 = 3) (hg : g < 32)
    (ha : (s.crew t c).gr (gaOf w) = g) (hb : (s.crew t c).gr (gbOf w) = n)
    (off : s.on t (GY_CTL_ARMED g) = false) (hold : s.geyHold t = false) (per : s.geyPer t g = 0)
    (mode : s.on t (GY_CTL_LATE_MODE g) = true) (last : (s.geyTgt t g).last ≠ s.now + 1)
    (late : (s.lateLimit t : Int) < s.chanPast t (s.f t (GY_CTL_CHAN g)) { s.geyTgt t g with n := n, frac := 0 }) :
    Does (.arm t c) s fun r =>
      r.on t (GY_CTL_ARMED g) = false ∧ r.evtStat t 265 = true ∧ r.reg t (GY_COUNT g) = s.reg t (GY_COUNT g) ∧
      (gdOf w ≠ 0 → (r.crew t c).gr (gdOf w) = 1) ∧ (r.crew t c).pc = ((s.crew t c).pc + 4) % 2 ^ 64 := by
  obtain ⟨lo, hi, e1, e2, e3, -, -, e6, -⟩ := gyReg_off g hg
  have hn : n < 2 ^ 64 := hb ▸ gr_lt ..
  have act := actArm_eq (s := s.refetched t c) hf hg (by rw [refetched_gr, ha]) (by rw [refetched_gr, hb])
  have fst := geyArmAt_suppressed (s.refetched t c) t hg hn off hold per mode last late
  have snd : ((s.refetched t c).geyArmAt t g n).2 = true := (geyArmAt_snd _ t hg hn).trans (decide_eq_true late)
  rw [fst, snd] at act
  have count := (geyReady_words (s.refetched t c) t (n := n) hg).reg (t := t) (off := GY_COUNT g) (by omega) (by simp; omega)
  generalize (s.refetched t c).geyReady t g n = u at *
  obtain ⟨cleared, stat, kept⟩ := suppressed_spec u t hg
  rw [count] at kept
  generalize ((u.setB t (GY_CTL_ARMED g) false).setB t (GY_STAT_SUPPRESSED g) true).raise t 265 = v at *
  refine does_next h rfl (row_arm ho hf) act ⟨cleared, stat, kept, fun hd => ?_, ?_⟩
  · rw [State.crewDone, crew_setCrew_same, State.setG, crew_setCrew_same]
    exact gr_setG_same _ 1 hd
  · rw [State.crewDone, crew_setCrew_same]

/-! The time instructions (R84). -/

theorem does_trd (h : s.Issues t c w) (ho : opOf w = 0x33) (hf : bits w 0 4 = 0) (hz : bits w 6 5 = 0) (ha : gaOf w = 0) (hb : gbOf w = 0) :
    Does (.trd t c) s fun r => s.OnlyCrew r t c ((({ s.crew t c with
      tsnapS := (s.chan t (bits w 4 2)).sec % 2 ^ 48, tsnapF := (s.chan t (bits w 4 2)).frac % 2 ^ 32 } : Crew).setG (gdOf w)
        (((s.chan t (bits w 4 2)).sec * 1000000000 + (s.chan t (bits w 4 2)).ns) % 2 ^ 64)).completed s.now ((s.crew t c).pc + 4)) := by
  have row : insnRow w = some 0x3300 := (insnRow_time ho (by rw [hf]; decide)).trans (by rw [hf])
  refine does_next_only h rfl row (mustZero_of_zero (by rw [hz, ha, hb])) ?_
  simp only [refetched_crew]
  exact (onlyCrew_refetched s t c).setCrew h.crew_lt _

theorem row_func {k : Nat} (ho : opOf w = 0x33) (hf : bits w 0 11 = k) (hk : bits k 0 4 ∈ [0, 1, 2, 8, 9]) :
    insnRow w = some (0x3300 + bits k 0 4) := by
  have low : bits w 0 4 = bits k 0 4 := bits_of_low hf 0 4 (by decide)
  rw [insnRow_time ho (by rwa [low]), low]

theorem does_lrd (h : s.Issues t c w) (ho : opOf w = 0x33) (hf : bits w 0 11 = 1) (ha : gaOf w = 0) (hb : gbOf w = 0) :
    Does (.lrd t c) s fun r => s.OnlyCrew r t c (((s.crew t c).setG (gdOf w) (s.lc0 % 2 ^ 64)).completed s.now ((s.crew t c).pc + 4)) :=
  does_result_only h rfl (row_func ho hf (by decide)) (mustZero_of_zero (by rw [bits_of_low hf 4 7 (by decide), ha, hb]; rfl))

theorem does_ltick (h : s.Issues t c w) (ho : opOf w = 0x33) (hf : bits w 0 11 = 2) (ha : gaOf w = 0) (hb : gbOf w = 0) :
    Does (.ltick t c) s fun r =>
      s.OnlyCrew r t c (((s.crew t c).setG (gdOf w) (s.time.lcTicks % 2 ^ 64)).completed s.now ((s.crew t c).pc + 4)) :=
  does_result_only h rfl (row_func ho hf (by decide)) (mustZero_of_zero (by rw [bits_of_low hf 4 7 (by decide), ha, hb]; rfl))

theorem does_tinc {a n : Nat} (h : s.Issues t c w) (ho : opOf w = 0x33) (hf : bits w 0 4 = 8) (hz : bits w 6 5 = 0) (hb : gbOf w = 0)
    (ha : (s.crew t c).gr (gaOf w) = a) (hn : bits w 4 2 = n) (lt : a < 2 ^ 36) (priv : c < 2 ∨ n ≠ 0) (low : nominalInc ≤ a + 5368709)
    (high : a ≤ nominalInc + 5368709) (run : s.holdover n = false) (free : n = 0 ∨ s.on 0 (TC_SERVO_EN n) = false) :
    Does (.tinc t c) s fun r =>
      r.steer n = { s.steer n with acc := a, incs := (s.steer n).incs ++ [(s.now + 400, a)] } ∧ r.regs = s.regs ∧
      s.CrewIs r t c (((s.crew t c).setG (gdOf w) 0).completed s.now ((s.crew t c).pc + 4)) := by
  have row : insnRow w = some 0x3308 := (insnRow_time ho (by rw [hf]; decide)).trans (by rw [hf])
  have act : actTinc t c (s.refetched t c) w = ((s.refetched t c).acceptInc n a).result t c w 0 := by
    have ok : (s.refetched t c).requestInc t n a = _ := requestInc_ok low high run free
    unfold actTinc
    dsimp only
    rw [refetched_gr, ha, hn, mustZero_of_zero (by rw [hz, hb, Nat.div_eq_of_lt lt]), if_neg (by omega), ok]
    rfl
  have crews : s.CrewIs ((s.refetched t c).acceptInc n a) t c (s.crew t c) := (crewIs_refetched s t c).of_core rfl
  have now : ((s.refetched t c).acceptInc n a).now = s.now := rfl
  have regs : ((s.refetched t c).acceptInc n a).regs = s.regs := rfl
  have steer : ((s.refetched t c).acceptInc n a).steer n = { s.steer n with acc := a, incs := (s.steer n).incs ++ [(s.now + 400, a)] } :=
    steer_setSteer_same (s.refetched t c) n _
  generalize (s.refetched t c).acceptInc n a = u at *
  exact does_next h rfl row act ⟨steer, regs, (crews.setG h.crew_lt _ _).crewDone h.crew_lt now _⟩

theorem does_tstep {n : Nat} (h : s.Issues t c w) (ho : opOf w = 0x33) (hf : bits w 0 4 = 9) (hz : bits w 6 5 = 0) (hb : gbOf w = 0)
    (hn : bits w 4 2 = n) (priv : c < 2) (idle : (s.steer n).step = none) (run : s.holdover n = false) :
    Does (.tstep t c) s fun r =>
      (r.steer n).step = some (s.now + 400, sx 64 ((s.crew t c).gr (gaOf w))) ∧
      (∀ u, u < s.tiles → r.on u (TC_STAT_STEP_PEND n) = true) ∧
      s.CrewIs r t c (((s.crew t c).setG (gdOf w) 0).completed s.now ((s.crew t c).pc + 4)) := by
  have row : insnRow w = some 0x3309 := (insnRow_time ho (by rw [hf]; decide)).trans (by rw [hf])
  have small : n < 4 := hn ▸ bits_lt w 4 2
  let q : State := (s.refetched t c).setSteer n { s.steer n with step := some (s.now + 400, sx 64 ((s.crew t c).gr (gaOf w))) }
  have act : actTstep t c (s.refetched t c) w = (q.stepShown n).result t c w 0 := by
    have ok : ∀ ns, (s.refetched t c).requestStep t n ns = _ := fun ns => requestStep_ok idle run
    unfold actTstep
    dsimp only
    rw [mustZero_of_zero (by rw [hz, hb]), if_neg (by omega), hn, ok, refetched_gr]
    rfl
  have crews : s.CrewIs (q.stepShown n) t c (s.crew t c) :=
    (crewIs_refetched s t c).of_core (stepShown_core q n)
  refine does_next h rfl row act ⟨?_, fun u hu => stepShown_on q small hu,
    (crews.setG h.crew_lt _ _).crewDone h.crew_lt (stepShown_now q n) _⟩
  show ((q.stepShown n).steer n).step = _
  rw [stepShown_steer, steer_setSteer_same]

end

/-- Settles O28: each instruction's lemma above gives its part (R48, R82 to R84, R106, R107, R118, R120). -/
theorem crewTimeInstructionsComplete : Obligations.CrewTimeInstructionsComplete := by
  unfold Obligations.CrewTimeInstructionsComplete
  refine ⟨fun t c w s h => ?_, fun t c mask gd d s hl hc hw hit => ?_, fun t c mask gd dl n s hl hc hw hd hit => ?_⟩
  · refine ⟨fun ho hf hb hit => ?_, fun ho hf hb ha hit => ?_, fun ho hf hz hit => ?_, fun ho hf hz hit hd => ?_,
      fun ho hf hz hit hd => ?_, does_fire h, fun ho hf hg idle ahead => does_arm_ahead h ho hf hg rfl rfl idle ahead,
      fun ho hf hg off hold per mode last late => does_arm_suppressed h ho hf hg rfl rfl off hold per mode last late,
      does_trd h, does_lrd h, does_ltick h,
      fun ho hf hz hb lt priv low high run free => does_tinc h ho hf hz hb rfl rfl lt priv low high run free,
      fun ho hf hz hb priv idle run => does_tstep h ho hf hz hb rfl priv idle run⟩
    · have mask : (s.crew t c).gr (gaOf w) ≠ 0 := fun e => hit (by rw [e, Nat.and_zero])
      exact does_took h rfl (row_wait ho hf) (actWait_eq hf hb mask) hit
    · exact does_waits h rfl (row_wait ho hf) (actWait_eq hf hb ha) hit (by simp)
    · exact does_took h rfl (row_waitt ho hf) (actWaitt_eq hf hz) hit
    · exact does_result_only h rfl (row_waitt ho hf) ((actWaitt_eq hf hz).trans (waitAct_passed (by simpa using hit) hd))
    · exact does_waits h rfl (row_waitt ho hf) (actWaitt_eq hf hz) hit (by simpa using hd)
  · refine does_when rfl hl ?_
    have matched : (s.crew t c).pending &&& ((s.crew t c).pending &&& mask) = (s.crew t c).pending &&& mask := by
      rw [← Nat.and_assoc, Nat.and_self]
    have done := linesDone_onlyCrew s gd ((s.crew t c).pending &&& mask) hc (t := t)
    rw [matched] at done
    rw [crewWake_hit hl hw hit]
    exact done
  · refine does_when rfl hl ?_
    rw [waittDeadline_none hl hw hd hit]
    simpa using linesDone_onlyCrew s gd 0 hc (t := t)

end Sys2Proof.Machine

/-!
# Transactions of crews

What TXBEGIN, TXCOMMIT, TXABORT and TXSTAT do (R52, R54, R56, R80, R81).
-/

namespace Sys2Proof.Machine

/-! ### Decisions and rollback (R54, R56) -/

/-- What no write of a register or a unit changes, a rollback does not change. -/
theorem rollback_keeps {β : Type} (g : State → β) (hr : ∀ s t off v, g (State.setReg s t off v) = g s)
    (hu : ∀ s t u x, g (State.setUnit s t u x) = g s) (s : State) (t u : Nat) : g (s.rollback t u) = g s := by
  unfold State.rollback
  extract_lets copied unit cleared
  have copy : g copied = g s := each_keeps g s _ _ fun r w => hr r t _ _
  exact (when_keeps g cleared _ _ fun r => hr r t _ _).trans ((hu copied t u _).trans copy)

theorem txnRollback_keeps {β : Type} (g : State → β) (hr : ∀ s t off v, g (State.setReg s t off v) = g s)
    (hu : ∀ s t u x, g (State.setUnit s t u x) = g s) (ht : ∀ s i x, g (State.setTxn s i x) = g s) (s : State) (i t : Nat) :
    g (s.txnRollback i t) = g s :=
  (ht _ i _).trans (each_keeps g s _ _ fun r u => rollback_keeps g hr hu r t u)

theorem txnRollback_core (s : State) (i t : Nat) : (s.txnRollback i t).core = s.core :=
  txnRollback_keeps State.core (fun _ _ _ _ => rfl) (fun _ _ _ _ => rfl) (fun _ _ _ => rfl) s i t

theorem txnRollback_now (s : State) (i t : Nat) : (s.txnRollback i t).now = s.now :=
  txnRollback_keeps State.now (fun _ _ _ _ => rfl) (fun _ _ _ _ => rfl) (fun _ _ _ => rfl) s i t

theorem txnRollback_txn (s : State) (i t : Nat) : (s.txnRollback i t).txn i = { s.txn i with released := orBit (s.txn i).released t } :=
  txn_setTxn_same _ i _

theorem txn_raise (s : State) (t id i : Nat) (h : id < 320) : (s.raise t id).txn i = s.txn i := by
  rw [State.txn, raise_fields s t id h]
  rfl

theorem seamReach_txn (s : State) (a b i : Nat) : (s.seamReach a b).1.txn i = s.txn i := by
  unfold State.seamReach
  split
  · rfl
  · exact txn_raise s _ 197 i (by decide)

theorem txnLearn_txn (s : State) (i t : Nat) (commit : Bool) (j : Nat) : (s.txnLearn i t commit).txn j = s.txn j := by
  unfold State.txnLearn
  extract_lets x us marked
  have marks : marked.txn j = s.txn j := each_keeps (State.txn · j) s us _ fun _ _ => rfl
  exact (when_keeps (State.txn · j) marked _ _ fun r => txn_raise r t 305 j (by decide)).trans marks

/-- Sending the decision to one tile notes it as on its way, or not. -/
def State.sendDecisionTo (s : State) (i m t : Nat) : State :=
  let r := s.seamReach m t
  if r.2 then r.1.setTxn i { r.1.txn i with decSent := orBit (r.1.txn i).decSent t } else r.1

theorem txnSendDecision_eq (s : State) (i : Nat) : s.txnSendDecision i =
    s.each (s.tileList.filter fun t => bit (s.txn i).part t && t ≠ (s.txn i).tile) fun r t => r.sendDecisionTo i (s.txn i).tile t := rfl

theorem sendDecisionTo_txn (s : State) (i m t : Nat) : ∃ d, (s.sendDecisionTo i m t).txn i = { s.txn i with decSent := d } := by
  unfold State.sendDecisionTo
  dsimp only
  split
  · exact ⟨_, (txn_setTxn_same _ i _).trans (by rw [seamReach_txn])⟩
  · exact ⟨(s.txn i).decSent, seamReach_txn s m t i⟩

/-- Sending a decision changes of its transaction only where the decision is on its way. -/
theorem txnSendDecision_txn (s : State) (i : Nat) : ∃ d, (s.txnSendDecision i).txn i = { s.txn i with decSent := d } := by
  rw [txnSendDecision_eq]
  refine each_induct (fun r => ∃ d, r.txn i = { s.txn i with decSent := d }) s _ _ ⟨_, rfl⟩ fun r t _ ⟨d, hd⟩ => ?_
  obtain ⟨e, he⟩ := sendDecisionTo_txn r i (s.txn i).tile t
  exact ⟨e, by rw [he, hd]⟩

/-! ### The crew in TXCOMMIT wakes (R80, R81) -/

theorem wakeCommit_waiting {s : State} {i gd : Nat} (hh : (s.txn i).host = false) (hs : 3 ≤ (s.txn i).state)
    (hw : (s.crew (s.txn i).tile (s.txn i).crew).wait = some (.commit gd)) (ht : (s.crew (s.txn i).tile (s.txn i).crew).tx = some i) :
    s.wakeCommit i = s.setCrew (s.txn i).tile (s.txn i).crew
      ((({ s.crew (s.txn i).tile (s.txn i).crew with state := 1, wait := none } : Crew).setG gd (s.txn i).stateWord).completed s.now
        ((s.crew (s.txn i).tile (s.txn i).crew).pc + 4)) := by
  have awake : ¬((s.txn i).host = true ∨ (s.txn i).state < 3) := by simp [hh, hs]
  unfold State.wakeCommit
  dsimp only
  rw [if_neg awake, hw]
  dsimp only
  rw [if_pos ht]
  unfold Crew.setG Crew.completed
  split <;> rfl

/-- Nobody wakes where the transaction's crew does not wait. -/
theorem wakeCommit_awake {s : State} {i : Nat} (hw : (s.crew (s.txn i).tile (s.txn i).crew).wait = none) : s.wakeCommit i = s := by
  unfold State.wakeCommit
  dsimp only
  rw [hw]
  split <;> rfl

theorem wakeCommit_bench (s : State) (i : Nat) : (s.wakeCommit i).bench = s.bench := by
  unfold State.wakeCommit
  dsimp only
  split
  · rfl
  · split
    · split <;> rfl
    · rfl

theorem wakeCommit_txn (s : State) (i j : Nat) : (s.wakeCommit i).txn j = s.txn j := by
  rw [State.txn, wakeCommit_bench]
  rfl

/-! ### Ends (R56) -/

theorem txnEnd_txn (s : State) (i result : Nat) : (s.txnEnd i result).txn i = { s.txn i with state := 4, result := result } := by
  unfold State.txnEnd
  extract_lets x ended raised
  have set : ended.txn i = { s.txn i with state := 4, result := result } := txn_setTxn_same s i _
  have kept : raised.txn i = ended.txn i := when_keeps (State.txn · i) ended _ _ fun r => txn_raise r _ 304 i (by decide)
  rw [wakeCommit_txn, kept, set]

/-- A transaction that is decided not to swap ends with its result. -/
theorem txnNoSwap_txn (s : State) (i result : Nat) : ∃ d g l, (s.txnNoSwap i result).txn i =
    { s.txn i with commit := some false, decidedAt := s.now, decGot := g, decSent := d, released := l, state := 4, result := result } := by
  unfold State.txnNoSwap
  extract_lets x decided sent rolled learnt
  have decision : decided.txn i = { s.txn i with commit := some false, decidedAt := s.now, decGot := orBit x.decGot x.tile } :=
    txn_setTxn_same s i _
  obtain ⟨d, sending⟩ : ∃ d, sent.txn i = { decided.txn i with decSent := d } := txnSendDecision_txn decided i
  have rolling : rolled.txn i = { sent.txn i with released := orBit (sent.txn i).released x.tile } := txnRollback_txn sent i x.tile
  have learning : learnt.txn i = rolled.txn i := by
    show (if _ then _ else _ : State).txn i = _
    split
    · exact txnLearn_txn rolled i x.tile false i
    · rfl
  exact ⟨d, orBit x.decGot x.tile, orBit (sent.txn i).released x.tile, by rw [txnEnd_txn, learning, rolling, sending, decision]⟩

theorem txnAbort_open {s : State} {i : Nat} (hs : (s.txn i).state = 1) (hd : (s.txn i).doom = none) : s.txnAbort i = s.txnNoSwap i 6 := by
  simp [State.txnAbort, hs, hd]

/-- A transaction that has ended and is freed is FREE; crews are left alone (R80). -/
theorem txnFree_txn {s : State} {i : Nat} (h : (s.txn i).state = 4) : (s.txnFree i).txn i = {} := by
  unfold State.txnFree
  rw [if_pos h]
  exact txn_setTxn_same _ i _

theorem txnFree_keeps {β : Type} (g : State → β) (hr : ∀ s i t, g (State.txnRollback s i t) = g s)
    (ht : ∀ s i x, g (State.setTxn s i x) = g s) (s : State) (i : Nat) : g (s.txnFree i) = g s := by
  unfold State.txnFree
  split
  · refine (ht _ i _).trans (each_keeps g s _ _ fun r t => ?_)
    split
    · exact hr r i t
    · rfl
  · rfl

theorem txnFree_core (s : State) (i : Nat) : (s.txnFree i).core = s.core := txnFree_keeps State.core txnRollback_core (fun _ _ _ => rfl) s i

theorem txnFree_now (s : State) (i : Nat) : (s.txnFree i).now = s.now := txnFree_keeps State.now txnRollback_now (fun _ _ _ => rfl) s i

/-- The lowest free id opens (R52). -/
theorem txnOpen_lowest {s : State} {i : Nat} (hi : i < 16) (hf : (s.txn i).state = 0) (hl : ∀ j, j < i → (s.txn j).state ≠ 0) (t c : Nat) :
    s.txnOpen false t c = (s.setTxn i { state := 1, tile := t, crew := c, epoch := s.reg 0 EPOCH }, some i) := by
  have first : ((List.range 16).find? fun i => (s.txn i).state = 0) = some i := by
    rw [List.find?_range_eq_some]
    exact ⟨by simpa using hf, List.mem_range.2 hi, fun j hj => by simpa using hl j hj⟩
  unfold State.txnOpen
  rw [first]
  rfl

/-- A transaction whose crew has asked to commit it at a point. -/
def Txn.asked (x : Txn) (kind sel : Nat) : Txn := { x with kind := kind, sel := sel, committed := true }

/-- A commit with no writes and the epoch unchanged ends COMMITTED at once, and its crew wakes (R54, R80). -/
theorem txnCommit_empty {s : State} {i : Nat} (hd : (s.txn i).doom = none) (hp : (s.txn i).part = 0) (he : (s.txn i).epoch = s.reg 0 EPOCH)
    (kind sel seq : Nat) (p : Option Predict) : ∃ v : State, s.txnCommit i kind sel seq p = v.wakeCommit i ∧
      v = { s with bench.txns := v.bench.txns } ∧
      v.txn i = { s.txn i with kind := kind, sel := sel, committed := true, seq := 0, state := 4, result := 0 } := by
  unfold State.txnCommit
  extract_lets x y noted zero guard
  have doom : y.doom = none := hd
  have part : y.part = 0 := hp
  have epoch : zero.reg 0 EPOCH = y.epoch := he.symm
  have set : zero.txn i = { y with seq := 0 } := txn_setTxn_same noted i _
  have frame : zero = { s with bench.txns := zero.bench.txns } := rfl
  split
  · rename_i r hr
    exact absurd (hr.symm.trans doom) (by simp)
  · rw [if_pos part, if_pos epoch]
    clear_value zero
    refine ⟨zero.setTxn i { zero.txn i with state := 4, result := 0 }, rfl, ?_, ?_⟩
    · rw [frame]
      rfl
    · rw [txn_setTxn_same, set]

/-! ### The instructions -/

section
variable {s : State} {t c w i : Nat}

theorem row_txn (ho : opOf w = 0x31) {k : Nat} (hf : bits w 0 11 = k) : insnRow w = some (0x3100 + bits k 0 2) := by
  rw [insnRow_txn ho, bits_of_low hf 0 2 (by decide)]

theorem dropTx_none (h : (s.crew t c).tx = none) : s.dropTx t c = s := by
  unfold State.dropTx
  rw [h]

/-- A crew reaches T0 from T0, and from another tile where it is not isolated and the routes lead to it. -/
theorem crewReach_home (h : t = 0 ∨ s.isolated 0 = false ∧ s.Routed t 0) : s.crewReach t 0 = (s, true) := by
  have part : s.has 0 = true := by
    unfold State.has State.tiles
    cases s.member <;> rfl
  rcases h with rfl | ⟨hi, hr⟩
  · rfl
  · unfold State.crewReach State.seamReach
    rw [hr]
    simp [part, hi]

theorem actTxbegin_opens (hf : bits w 0 11 = 0) (ha : gaOf w = 0) (hb : gbOf w = 0) (hx : (s.crew t c).tx = none)
    (hr : t = 0 ∨ s.isolated 0 = false ∧ s.Routed t 0) (hi : i < 16) (hs : (s.txn i).state = 0)
    (hl : ∀ j, j < i → (s.txn j).state ≠ 0) :
    actTxbegin t c s w = ((s.setTxn i { state := 1, tile := t, crew := c, epoch := s.reg 0 EPOCH }).setCrew t c
      { s.crew t c with tx := some i }).result t c w i := by
  unfold actTxbegin
  rw [mustZero_of_zero (by rw [bits_of_low hf 2 9 (by decide), ha, hb]; rfl)]
  dsimp only
  rw [hx]
  dsimp only
  rw [if_neg (by decide), crewReach_home hr, dropTx_none hx, txnOpen_lowest hi hs hl]
  rfl

theorem does_txbegin (h : s.Issues t c w) (ho : opOf w = 0x31) (hf : bits w 0 11 = 0) (ha : gaOf w = 0) (hb : gbOf w = 0)
    (hx : (s.crew t c).tx = none) (hr : t = 0 ∨ s.isolated 0 = false ∧ s.Routed t 0) (hi : i < 16) (hs : (s.txn i).state = 0)
    (hl : ∀ j, j < i → (s.txn j).state ≠ 0) :
    Does (.txbegin t c) s fun r =>
      r.txn i = { state := 1, tile := t, crew := c, epoch := s.reg 0 EPOCH } ∧ (∀ j, j ≠ i → r.txn j = s.txn j) ∧ r.regs = s.regs ∧
      s.CrewIs r t c ((({ s.crew t c with tx := some i } : Crew).setG (gdOf w) i).completed s.now ((s.crew t c).pc + 4)) := by
  have act := actTxbegin_opens (s := s.refetched t c) hf ha hb (by rwa [refetched_crew]) hr hi hs hl
  rw [refetched_crew] at act
  have opened := txn_setTxn_same (s.refetched t c) i { state := 1, tile := t, crew := c, epoch := s.reg 0 EPOCH }
  have others : ∀ j, j ≠ i → ((s.refetched t c).setTxn i { state := 1, tile := t, crew := c, epoch := s.reg 0 EPOCH }).txn j = s.txn j :=
    fun j hj => txn_setTxn_ne _ i _ j (Ne.symm hj)
  have crews : s.CrewIs ((s.refetched t c).setTxn i { state := 1, tile := t, crew := c, epoch := s.reg 0 EPOCH }) t c (s.crew t c) :=
    (crewIs_refetched s t c).of_core rfl
  have now : ((s.refetched t c).setTxn i { state := 1, tile := t, crew := c, epoch := s.reg 0 EPOCH }).now = s.now := rfl
  have regs : ((s.refetched t c).setTxn i { state := 1, tile := t, crew := c, epoch := s.reg 0 EPOCH }).regs = s.regs := rfl
  change actTxbegin t c (s.refetched t c) w = State.result (State.setCrew
    ((s.refetched t c).setTxn i { state := 1, tile := t, crew := c, epoch := s.reg 0 EPOCH }) t c _) t c w i at act
  generalize (s.refetched t c).setTxn i { state := 1, tile := t, crew := c, epoch := s.reg 0 EPOCH } = u at *
  exact does_next h rfl (row_txn ho hf) act
    ⟨opened, others, regs, ((crews.setCrew h.crew_lt _).setG h.crew_lt _ _).crewDone h.crew_lt now _⟩

/-- A crew that waited in TXCOMMIT and woke in the same tick completes as if it had not waited. -/
theorem completed_awake {x : Crew} (hs : x.state = 1) (hw : x.wait = none) (gd v now pc : Nat) (z : Option CrewWait) :
    (({ ({ x with state := 2, wait := z, lastIssue := now } : Crew) with state := 1, wait := none } : Crew).setG gd v).completed now pc =
      (x.setG gd v).completed now pc := by
  obtain ⟨⟩ := x
  subst hs hw
  unfold Crew.setG
  split <;> rfl

theorem wait_completed {x : Crew} (hw : x.wait = none) (gd v now pc : Nat) : ((x.setG gd v).completed now pc).wait = none := by
  unfold Crew.setG
  split <;> exact hw

/-- A crew that has begun to wait in TXCOMMIT for a transaction that has ended wakes at once, and once. -/
theorem wakeCommit_ended {v : State} {x : Crew} {e : Txn} {gd : Nat} (he : v.txn i = e) (hh : e.host = false) (hs : e.state = 4)
    (ht : e.tile = t) (hc : e.crew = c) (hx : v.crew t c = { x with state := 2, wait := some (.commit gd), lastIssue := v.now })
    (h1 : x.state = 1) (h2 : x.wait = none) (h3 : x.tx = some i) :
    (v.wakeCommit i).wakeCommit i = v.setCrew t c ((x.setG gd e.stateWord).completed v.now (x.pc + 4)) := by
  have once : v.wakeCommit i = v.setCrew t c ((x.setG gd e.stateWord).completed v.now (x.pc + 4)) := by
    rw [wakeCommit_waiting (gd := gd) (by rw [he, hh]) (by rw [he, hs]; decide) (by rw [he, ht, hc, hx]) (by rw [he, ht, hc, hx, ← h3]),
      he, ht, hc, hx, completed_awake h1 h2]
  have kept : (v.wakeCommit i).txn i = e := by rw [wakeCommit_txn, he]
  rw [wakeCommit_awake, once]
  rw [kept, ht, hc, once, crew_setCrew_same]
  exact wait_completed h2 ..

/-- A crew in TXCOMMIT waits for the transaction that it has asked to commit (R54, R81). -/
def State.committing (s : State) (t c w : Nat) : State :=
  s.setCrew t c { s.crew t c with state := 2, wait := some (.commit (gdOf w)), lastIssue := s.now }

theorem actTxcommit_asks {a b : Nat} (hf : bits w 0 11 = 1) (ha : (s.crew t c).gr (gaOf w) = a) (hb : (s.crew t c).gr (gbOf w) = b)
    (ha8 : a < 256) (hk : a % 8 < 5) (hb32 : b < 2 ^ 32) (hx : (s.crew t c).tx = some i) (hs : (s.txn i).state = 1)
    (hcm : (s.txn i).committed = false) :
    ∃ p, actTxcommit t c s w = .wait (((s.committing t c w).txnCommit i (a % 8) (bits a 3 5) b p).wakeCommit i) := by
  have zero : bits w 2 9 + a / 256 + b / 2 ^ 32 = 0 := by
    rw [bits_of_low hf 2 9 (by decide), Nat.div_eq_of_lt ha8, Nat.div_eq_of_lt hb32]
    rfl
  have going : ¬(5 ≤ a % 8 ∨ (s.txn i).committed = true) := by
    rw [hcm]
    rintro (h | h)
    · omega
    · cases h
  unfold actTxcommit
  dsimp only
  rw [ha, hb, mustZero_of_zero zero]
  split
  · rename_i hn
    cases hx.symm.trans hn
  · rename_i j hj
    obtain rfl : i = j := Option.some.inj (hx.symm.trans hj)
    rw [if_neg going, if_neg (fun hn => hn hs)]
    exact ⟨_, rfl⟩

theorem does_txcommit (h : s.Issues t c w) (ho : opOf w = 0x31) (hf : bits w 0 11 = 1) {a : Nat} (ha : (s.crew t c).gr (gaOf w) = a)
    (ha8 : a < 256) (hk : a % 8 < 5) (hb : (s.crew t c).gr (gbOf w) < 2 ^ 32) (hx : (s.crew t c).tx = some i) (hs : (s.txn i).state = 1)
    (hcm : (s.txn i).committed = false) (hd : (s.txn i).doom = none) (hp : (s.txn i).part = 0) (hh : (s.txn i).host = false)
    (ht : (s.txn i).tile = t) (hc : (s.txn i).crew = c) (he : (s.txn i).epoch = s.reg 0 EPOCH) :
    Does (.txcommit t c) s fun r =>
      r.txn i = { s.txn i with kind := a % 8, sel := bits a 3 5, committed := true, seq := 0, state := 4, result := 0 } ∧ r.regs = s.regs ∧
      s.CrewIs r t c (((s.crew t c).setG (gdOf w) (r.txn i).stateWord).completed s.now ((s.crew t c).pc + 4)) := by
  obtain ⟨p, act⟩ := actTxcommit_asks (s := s.refetched t c) (i := i) hf (by rw [refetched_crew, ha])
    (congrArg (Crew.gr · (gbOf w)) (refetched_crew s t c t c)) ha8 hk hb (by rwa [refetched_crew]) hs hcm
  have asked := txnCommit_empty (s := (s.refetched t c).committing t c w) (i := i) hd hp he
  have waits := (crewIs_refetched s t c).setCrew h.crew_lt
    { (s.refetched t c).crew t c with state := 2, wait := some (.commit (gdOf w)), lastIssue := (s.refetched t c).now }
  change s.CrewIs ((s.refetched t c).committing t c w) t c _ at waits
  have same : ((s.refetched t c).committing t c w).txn i = s.txn i := rfl
  have now : ((s.refetched t c).committing t c w).now = s.now := rfl
  have regs : ((s.refetched t c).committing t c w).regs = s.regs := rfl
  generalize (s.refetched t c).committing t c w = u at *
  obtain ⟨v, commits, frame, ended⟩ := asked (a % 8) (bits a 3 5) ((s.crew t c).gr (gbOf w)) p
  rw [same] at ended
  have core : v.core = u.core := (congrArg State.core frame :)
  replace waits := waits.of_core core
  replace now : v.now = s.now := (congrArg State.now frame :).trans now
  replace regs : v.regs = s.regs := (congrArg State.regs frame :).trans regs
  have crew : v.crew t c = { s.crew t c with state := 2, wait := some (.commit (gdOf w)), lastIssue := v.now } := by
    rw [waits.1, refetched_crew, now]
    rfl
  rw [commits, wakeCommit_ended ended hh rfl ht hc crew h.state_eq h.wait_eq hx, ← ended] at act
  refine does_wait h rfl (row_txn ho hf) act ⟨ended, regs, ?_⟩
  rw [now]
  exact waits.setCrew h.crew_lt _

/-- TXABORT ends its transaction ABORTED and gives the state word (R56, R80). -/
theorem does_txabort (h : s.Issues t c w) (ho : opOf w = 0x31) (hf : bits w 0 11 = 2) (ha : gaOf w = 0) (hb : gbOf w = 0) (hg : gdOf w ≠ 0)
    (hx : (s.crew t c).tx = some i) (hs : (s.txn i).state = 1) (hd : (s.txn i).doom = none) :
    Does (.txabort t c) s fun r =>
      (r.txn i).state = 4 ∧ (r.txn i).result = 6 ∧ (r.crew t c).gr (gdOf w) = (r.txn i).stateWord % 2 ^ 64 ∧
      (r.crew t c).pc = ((s.crew t c).pc + 4) % 2 ^ 64 := by
  have act : actTxabort t c (s.refetched t c) w =
      ((s.refetched t c).txnNoSwap i 6).result t c w (((s.refetched t c).txnNoSwap i 6).txn i).stateWord := by
    unfold actTxabort
    rw [mustZero_of_zero (by rw [bits_of_low hf 2 9 (by decide), ha, hb]; rfl), refetched_crew, hx]
    have aborts : (s.refetched t c).txnAbort i = (s.refetched t c).txnNoSwap i 6 := txnAbort_open hs hd
    dsimp only
    rw [aborts]
  have ended : (((s.refetched t c).txnNoSwap i 6).txn i).state = 4 ∧ (((s.refetched t c).txnNoSwap i 6).txn i).result = 6 := by
    obtain ⟨d, g, l, e⟩ := txnNoSwap_txn (s.refetched t c) i 6
    rw [e]
    exact ⟨rfl, rfl⟩
  generalize (s.refetched t c).txnNoSwap i 6 = u at *
  refine does_next h rfl (row_txn ho hf) act ⟨ended.1, ended.2, ?_, ?_⟩
  · rw [State.crewDone, crew_setCrew_same, State.setG, crew_setCrew_same]
    exact gr_setG_same _ _ hg
  · rw [State.crewDone, crew_setCrew_same]

theorem does_txstat_going (h : s.Issues t c w) (ho : opOf w = 0x31) (hf : bits w 0 11 = 3) (ha : gaOf w = 0) (hb : gbOf w = 0)
    (hx : (s.crew t c).tx = some i) (hs : (s.txn i).state ≠ 4) :
    Does (.txstat t c) s fun r =>
      s.OnlyCrew r t c (((s.crew t c).setG (gdOf w) (s.txn i).stateWord).completed s.now ((s.crew t c).pc + 4)) := by
  refine does_result_only h rfl (row_txn ho hf) ?_
  unfold actTxstat
  rw [mustZero_of_zero (by rw [bits_of_low hf 2 9 (by decide), ha, hb]; rfl), refetched_crew, hx]
  exact if_neg hs

theorem does_txstat_ended (h : s.Issues t c w) (ho : opOf w = 0x31) (hf : bits w 0 11 = 3) (ha : gaOf w = 0) (hb : gbOf w = 0)
    (hx : (s.crew t c).tx = some i) (hs : (s.txn i).state = 4) :
    Does (.txstat t c) s fun r => r.txn i = {} ∧
      s.CrewIs r t c ((({ s.crew t c with tx := none } : Crew).setG (gdOf w) (s.txn i).stateWord).completed s.now ((s.crew t c).pc + 4)) := by
  have act : actTxstat t c (s.refetched t c) w =
      (((s.refetched t c).setCrew t c { s.crew t c with tx := none }).txnFree i).result t c w (s.txn i).stateWord := by
    unfold actTxstat
    rw [mustZero_of_zero (by rw [bits_of_low hf 2 9 (by decide), ha, hb]; rfl), refetched_crew, hx]
    exact if_pos hs
  have crews := (((crewIs_refetched s t c).setCrew h.crew_lt { s.crew t c with tx := none })).of_core
    (txnFree_core ((s.refetched t c).setCrew t c { s.crew t c with tx := none }) i)
  have free : (((s.refetched t c).setCrew t c { s.crew t c with tx := none }).txnFree i).txn i = {} := txnFree_txn hs
  have now := txnFree_now ((s.refetched t c).setCrew t c { s.crew t c with tx := none }) i
  generalize ((s.refetched t c).setCrew t c { s.crew t c with tx := none }).txnFree i = u at *
  exact does_next h rfl (row_txn ho hf) act ⟨free, (crews.setG h.crew_lt _ _).crewDone h.crew_lt now _⟩

end

/-- Settles O31: each instruction's lemma above gives its part (R52, R54, R56, R80, R81). -/
theorem crewTransactionInstructionsComplete : Obligations.CrewTransactionInstructionsComplete := by
  unfold Obligations.CrewTransactionInstructionsComplete
  intro t c w s h ho
  exact ⟨fun i hf ha hb hx hr hi hs hl => does_txbegin h ho hf ha hb hx hr hi hs hl,
    fun i hf ha hk hb hx hs hcm hd hp hh ht hc he => does_txcommit h ho hf rfl ha hk hb hx hs hcm hd hp hh ht hc he,
    fun i hf ha hb hg hx hs hd => does_txabort h ho hf ha hb hg hx hs hd,
    fun i hf ha hb hx hs => does_txstat_going h ho hf ha hb hx hs,
    fun i hf ha hb hx hs => does_txstat_ended h ho hf ha hb hx hs⟩

end Sys2Proof.Machine

/-!
# Benches

BWR, BRD and BRS (R36, R79), solo commits (R42), the exchange of sections (R37, R41), the epoch (R43).
-/

namespace Sys2Proof.Machine

/-! ### Offsets of bench words (R546) -/

theorem benchBase_lt (u : Nat) (h : u < 25) : benchBase u < 0x121000 := by
  unfold benchBase
  repeat' split
  all_goals omega

theorem unitWords_le (u : Nat) : unitWords u ≤ 129 := by
  unfold unitWords
  repeat' split
  all_goals omega

/-- The words of a section are words of its unit. -/
theorem sectionWord_lt (u sec : Nat) {w : Nat} (h : w ∈ (sectionWords u).getD sec []) : w < 129 := by
  have all : ∀ l ∈ sectionWords u, ∀ w ∈ l, w < 129 := by
    unfold sectionWords
    split
    · decide
    split
    · decide
    split
    · decide
    · have := unitWords_le u
      intro l hl w hw
      obtain rfl := List.mem_singleton.1 hl
      have := List.mem_range.1 hw
      omega
  by_cases hs : sec < (sectionWords u).length
  · rw [List.getD_eq_getElem _ _ hs] at h
    exact all _ (List.getElem_mem hs) w h
  · rw [List.getD_eq_default _ _ (by omega)] at h
    cases h

/-! ### Shadow writes (R36, R45) -/

/-- A write of a shadow word writes that word, and beside it only what notes that a stale unit has been written. -/
theorem shadowWrite_spec (s : State) (t u w v : Nat) (hu : u < 25) (hw : w < unitWords u) :
    (s.shadowWrite t u w v).reg t (wordAt u w) = v % 2 ^ 32 ∧
      s.WordsBut (s.shadowWrite t u w v) [(t, wordAt u w), (t, UNIT_GEN u)] ∧
      (s.shadowWrite t u w v).core = s.core ∧ (s.shadowWrite t u w v).now = s.now := by
  have := benchBase_lt u hu
  have := unitWords_le u
  have low : wordAt u w < 0x1E0000 := by
    unfold wordAt
    omega
  have gen : 0x1E0000 < UNIT_GEN u ∧ UNIT_GEN u < 0x1000000 := by
    unfold UNIT_GEN
    omega
  have words := (wordsBut_refl s [(t, wordAt u w), (t, UNIT_GEN u)]).setReg v (by omega) (List.mem_cons_self ..)
  unfold State.shadowWrite
  extract_lets r x l q
  have plain : r.reg t (wordAt u w) = v % 2 ^ 32 ∧ s.WordsBut r [(t, wordAt u w), (t, UNIT_GEN u)] ∧ r.core = s.core ∧ r.now = s.now := by
    refine ⟨?_, words, rfl, rfl⟩
    exact reg_setReg_same s t _ v
  split
  · split
    · exact plain
    · unfold State.when
      split
      · have apart : (UNIT_GEN_WRITTEN_ALL u).off ≠ wordAt u w := by
          show UNIT_GEN u ≠ _
          omega
        exact ⟨(reg_setReg_ne q _ (regKey_off_ne gen.2 (by omega) apart)).trans plain.1,
          State.WordsBut.setReg (r := q) plain.2.1 _ gen.2 (by simp [UNIT_GEN_WRITTEN_ALL]), setB_core q .., setB_now q ..⟩
      · exact plain
  · exact plain

/-! ### BWR, BRD and BRS (R36, R79) -/

/-- What a register reads as does not depend on crews, outside the registers of crews. -/
theorem peek_refetched (s : State) (t c n off : Nat) (h : off < 0x1C0000) : (s.refetched t c).peek n off = s.peek n off := by
  have live : ∀ m, (s.refetched t c).liveWord m off = s.liveWord m off := by
    intro m
    unfold State.liveWord
    exact ite_congr rfl (fun _ => rfl) fun _ => ite_congr rfl (fun _ => rfl) fun _ => ite_congr rfl (fun _ => rfl) fun _ =>
      ite_congr rfl (fun _ => rfl) fun hn => absurd h hn
  unfold State.peek
  dsimp only
  split
  · rfl
  · rw [live]
    rfl

section
variable {s : State} {t c w : Nat}

theorem row_bench (ho : opOf w = 0x30) {k : Nat} (hf : bits w 0 11 = k) (hk : bits k 0 2 ≠ 3) : insnRow w = some (0x3000 + bits k 0 2) := by
  rw [insnRow_bench ho (by rwa [bits_of_low hf 0 2 (by decide)]), bits_of_low hf 0 2 (by decide)]

/-- A crew's address of a bench word of its own tile, in a unit that it is granted and whose island is up (R50, R79). -/
theorem benchAddr_own {a : Nat} (hl : s.live t 0 = true) (ha : a < 2 ^ 19) (hu : bits a 11 5 < 25) (hi : bits a 0 11 < unitWords (bits a 11 5))
    (hg : s.granted (whoCrew t c) (bits a 11 5) = true) (hp : s.island t (blockIsland (benchBase (bits a 11 5))) = true) (posted : Bool) :
    s.benchAddr t c a posted = (s, .inr (t, bits a 11 5, bits a 0 11)) := by
  have own : bit a 19 = false := Nat.testBit_lt_two_pow ha
  have high : a / 2 ^ 20 = 0 := Nat.div_eq_of_lt (by omega)
  have here : s.has t = true := has_of_up (up_of_live hl)
  have reach : s.crewReach t t = (s, true) := if_pos rfl
  unfold State.benchAddr
  rw [own]
  dsimp only
  simp only [Bool.false_eq_true, if_false, reach, high, here, hg, hp]
  simp [unitCount, Nat.not_le.2 hu, Nat.not_le.2 hi]

/-- BWR outside a transaction writes its shadow word at once (R36, R50, R79). -/
theorem does_bwr (h : s.Issues t c w) (ho : opOf w = 0x30) {a : Nat} (ha : (s.crew t c).gr (gaOf w) = a) (hs : a < 2 ^ 19)
    (hu : bits a 11 5 < 25) (hi : bits a 0 11 < unitWords (bits a 11 5)) (hg : s.granted (whoCrew t c) (bits a 11 5) = true)
    (hp : s.island t (blockIsland (benchBase (bits a 11 5))) = true) (hf : bits w 0 11 = 0) (hd : gdOf w = 0) (hx : (s.crew t c).tx = none)
    (hown : s.ownerOf t (bits a 11 5) = none) (harm : s.armed t (bits a 11 5) = false) :
    Does (.bwr t c) s fun r =>
      r.reg t (wordAt (bits a 11 5) (bits a 0 11)) = (s.crew t c).gr (gbOf w) % 2 ^ 32 ∧
      r.WordsBut s [(t, wordAt (bits a 11 5) (bits a 0 11)), (t, UNIT_GEN (bits a 11 5))] ∧
      s.CrewIs r t c ((s.crew t c).completed s.now ((s.crew t c).pc + 4)) := by
  have addr := benchAddr_own (s := s.refetched t c) h.live hs hu hi hg hp false
  have act : actBwr t c (s.refetched t c) w =
      .next ((s.refetched t c).shadowWrite t (bits a 11 5) (bits a 0 11) ((s.crew t c).gr (gbOf w) % 2 ^ 32)) := by
    have writes : (s.refetched t c).benchWrite (whoCrew t c) t (bits a 11 5) (bits a 0 11) ((s.crew t c).gr (gbOf w) % 2 ^ 32) none =
        ((s.refetched t c).shadowWrite t (bits a 11 5) (bits a 0 11) ((s.crew t c).gr (gbOf w) % 2 ^ 32), .ok) := by
      have granted : (s.refetched t c).granted (whoCrew t c) (bits a 11 5) = true := hg
      have free : (((s.refetched t c).ownerOf t (bits a 11 5)).isSome || (s.refetched t c).armed t (bits a 11 5)) = false := by
        show ((s.ownerOf t (bits a 11 5)).isSome || s.armed t (bits a 11 5)) = false
        rw [hown, harm]
        rfl
      unfold State.benchWrite
      rw [granted, free]
      rfl
    have lit : (s.refetched t c).island t (blockIsland (benchBase (bits a 11 5))) = true := hp
    unfold actBwr
    rw [mustZero_of_zero (by rw [bits_of_low hf 2 9 (by decide), hd]; rfl), refetched_crew, hx]
    dsimp only
    rw [refetched_gr, refetched_gr, ha, show (none : Option Nat).isSome = false from rfl, addr]
    dsimp only
    rw [lit, writes]
    rfl
  obtain ⟨written, words, core, now⟩ := shadowWrite_spec (s.refetched t c) t (bits a 11 5) (bits a 0 11) ((s.crew t c).gr (gbOf w) % 2 ^ 32) hu hi
  have crews := (crewIs_refetched s t c).of_core core
  generalize (s.refetched t c).shadowWrite t (bits a 11 5) (bits a 0 11) ((s.crew t c).gr (gbOf w) % 2 ^ 32) = u at *
  refine does_next h rfl (row_bench ho hf (by decide)) act ⟨?_, ?_, crews.crewDone h.crew_lt now _⟩
  · rw [← Nat.mod_mod]
    exact written
  · exact words.symm

/-- BRD and BRS read a word of the bench and change their crew only (R36, R79). -/
theorem does_benchRead {i : Instr} {k base a : Nat} (h : s.Issues t c w)
    (hx : exec i s = s.finish (s.when (s.live t 0) fun s => s.crewIssue t c k fun s w => s.benchRead t c w base))
    (hk : insnRow w = some k) (ha : (s.crew t c).gr (gaOf w) = a) (hs : a < 2 ^ 19)
    (hu : bits a 11 5 < 25) (hi : bits a 0 11 < unitWords (bits a 11 5)) (hg : s.granted (whoCrew t c) (bits a 11 5) = true)
    (hp : s.island t (blockIsland (benchBase (bits a 11 5))) = true) (hz : bits w 2 9 + gbOf w = 0) (hb : base ≤ 0x8000) :
    Does i s fun r => s.OnlyCrew r t c
      (((s.crew t c).setG (gdOf w) (s.peek t (wordAt (bits a 11 5) (bits a 0 11) + base))).completed s.now ((s.crew t c).pc + 4)) := by
  have := benchBase_lt _ hu
  have := unitWords_le (bits a 11 5)
  have low : wordAt (bits a 11 5) (bits a 0 11) + base < 0x1C0000 := by
    unfold wordAt
    omega
  refine does_result_only h hx hk ?_
  unfold State.benchRead
  rw [mustZero_of_zero hz]
  dsimp only
  rw [refetched_gr, ha, benchAddr_own (s := s.refetched t c) h.live hs hu hi hg hp false, ← peek_refetched s t c t _ low]
  rfl

end

/-! ### Solo commits (R42) -/

section
variable {s : State} {t u : Nat}

/-- A refused UNIT_ARM raises EV_BENCH_FAULT and nothing else. -/
theorem unitArm_refused (h : 21 ≤ u ∨ (s.ownerOf t u).isSome = true ∨ s.armed t u = true) : s.unitArm t u = s.raise t 301 := by
  have refused : ((s.ownerOf t u).isSome || s.armed t u || 21 ≤ u) = true := by
    rcases h with h | h | h <;> simp [h]
  simp only [State.unitArm, refused, Bool.true_or, if_true]

/-- A unit free of refusals is armed at its point with the tile's EPOCH; one with a point other than IMMEDIATE stands pending. -/
theorem unitArm_pending (hu : u < 21) (hk : s.f t (UNIT_CTL_KIND u) ≠ 0) (hown : s.ownerOf t u = none) (harm : s.armed t u = false)
    (hkind : s.kindOk u (s.f t (UNIT_CTL_KIND u)) (s.f t (UNIT_CTL_SEL u)) = true) (hshadow : s.shadowOk (orBit 0 u) t u = true)
    (hstale : s.staleOk t u (s.reg t EPOCH) = true) :
    s.unitArm t u = (s.setReg t (UNIT_EPOCH u) (s.reg t EPOCH)).setUnit t u { s.unit t u with
      solo := true, point := (s.f t (UNIT_CTL_KIND u), s.f t (UNIT_CTL_SEL u), s.reg t (UNIT_SEQ u)) } := by
  have free : ¬((s.ownerOf t u).isSome || s.armed t u || 21 ≤ u || !s.kindOk u (s.f t (UNIT_CTL_KIND u)) (s.f t (UNIT_CTL_SEL u)) ||
      !s.shadowOk (orBit 0 u) t u || !s.staleOk t u (s.reg t EPOCH)) = true := by
    simp [hown, harm, hkind, hshadow, hstale, hu]
  have seq : (s.setReg t (UNIT_EPOCH u) (s.reg t EPOCH)).reg t (UNIT_SEQ u) = s.reg t (UNIT_SEQ u) :=
    reg_setReg_ne s _ (regKey_off_ne (by unfold UNIT_EPOCH; omega) (by unfold UNIT_SEQ; omega) (by unfold UNIT_EPOCH UNIT_SEQ; omega))
  unfold State.unitArm
  extract_lets
  rw [if_neg free, if_neg hk]
  show State.setUnit _ t u { s.unit t u with
    solo := true, point := (_, _, (s.setReg t (UNIT_EPOCH u) (s.reg t EPOCH)).reg t (UNIT_SEQ u)) } = _
  rw [seq]

theorem does_unitArm (hl : s.live t 0 = true) (hu : u < 21) (hk : s.f t (UNIT_CTL_KIND u) ≠ 0) (hown : s.ownerOf t u = none)
    (harm : s.armed t u = false) (hkind : s.kindOk u (s.f t (UNIT_CTL_KIND u)) (s.f t (UNIT_CTL_SEL u)) = true)
    (hshadow : s.shadowOk (orBit 0 u) t u = true) (hstale : s.staleOk t u (s.reg t EPOCH) = true) : Does (.unitArm t u) s fun r =>
      (r.unit t u).solo = true ∧ (r.unit t u).point = (s.f t (UNIT_CTL_KIND u), s.f t (UNIT_CTL_SEL u), s.reg t (UNIT_SEQ u)) ∧
      r.reg t (UNIT_EPOCH u) = s.reg t EPOCH ∧ r.WordsBut s [(t, UNIT_EPOCH u)] ∧ r.armed t u = true := by
  refine does_when rfl (by simp [hl]; omega) ?_
  rw [unitArm_pending hu hk hown harm hkind hshadow hstale]
  have epoch : (s.setReg t (UNIT_EPOCH u) (s.reg t EPOCH)).reg t (UNIT_EPOCH u) = s.reg t EPOCH :=
    (reg_setReg_same s t _ _).trans (Nat.mod_eq_of_lt (reg_lt s t EPOCH))
  have words := (wordsBut_refl s [(t, UNIT_EPOCH u)]).setReg (s.reg t EPOCH) (by unfold UNIT_EPOCH; omega) (List.mem_cons_self ..)
  generalize s.setReg t (UNIT_EPOCH u) (s.reg t EPOCH) = r at *
  refine ⟨?_, ?_, epoch, words.symm, ?_⟩
  · rw [unit_setUnit_same]
  · rw [unit_setUnit_same]
  · simp [State.armed]

end

/-! ### The exchange of a section (R37, R41) -/

/-- A register that no round of a copy writes is as it was. -/
theorem copy_words (t : Nat) (src dst : Nat → Nat) (l : List Nat) (hd : ∀ w ∈ l, dst w < 0x1000000) (s : State) :
    s.WordsBut (s.each l fun s w => s.setReg t (dst w) (s.reg t (src w))) (l.map fun w => (t, dst w)) :=
  each_induct (fun r => s.WordsBut r (l.map fun w => (t, dst w))) s l _ (wordsBut_refl s _) fun _ w hw hr =>
    hr.setReg _ (hd w hw) (List.mem_map.2 ⟨w, hw, rfl⟩)

/-- Registers copied to other registers, none of which is copied from, read the same afterwards. -/
theorem copy_reg (t : Nat) (src dst : Nat → Nat) (l : List Nat) (hs : ∀ w ∈ l, src w < 0x1000000) (hd : ∀ w ∈ l, dst w < 0x1000000)
    (apart : ∀ v ∈ l, ∀ w ∈ l, src v ≠ dst w) (inj : ∀ v ∈ l, ∀ w ∈ l, dst v = dst w → v = w) (s : State) {w : Nat} (hw : w ∈ l) :
    (s.each l fun s w => s.setReg t (dst w) (s.reg t (src w))).reg t (dst w) = s.reg t (src w) := by
  induction l generalizing s with
  | nil => cases hw
  | cons a l ih =>
    have sub : ∀ v ∈ l, v ∈ a :: l := fun v hv => List.mem_cons_of_mem a hv
    have first : ∀ v ∈ a :: l, (s.setReg t (dst a) (s.reg t (src a))).reg t (src v) = s.reg t (src v) := fun v hv =>
      reg_setReg_ne s _ (regKey_off_ne (hd a (by simp)) (hs v hv) (Ne.symm (apart v hv a (by simp))))
    by_cases ha : w ∈ l
    · exact (ih (fun v hv => hs v (sub v hv)) (fun v hv => hd v (sub v hv)) (fun v hv x hx => apart v (sub v hv) x (sub x hx))
        (fun v hv x hx => inj v (sub v hv) x (sub x hx)) (s.setReg t (dst a) (s.reg t (src a))) ha).trans (first w hw)
    · obtain rfl : w = a := by simpa [ha] using hw
      have out : (t, dst w) ∉ l.map fun v => (t, dst v) := by
        rw [List.mem_map]
        rintro ⟨v, hv, e⟩
        exact ha (inj v (sub v hv) w hw (Prod.mk.inj e).2 ▸ hv)
      exact ((copy_words t src dst l (fun v hv => hd v (sub v hv)) _).reg (hd w hw) out).trans
        ((reg_setReg_same s t _ _).trans (Nat.mod_eq_of_lt (reg_lt s t (src w))))

/-- The exchange of a section of a unit other than RAWC copies its shadow words to the active bench, and its wait is over. -/
theorem exchangeSec_spec (s : State) (t u sec : Nat) (hu : u < 25) (h4 : u ≠ 4) :
    (∀ w ∈ (sectionWords u).getD sec [], (s.exchangeSec t u sec).reg t (wordAt u w + 0x8000) = s.reg t (wordAt u w)) ∧
      s.WordsBut (s.exchangeSec t u sec) (((sectionWords u).getD sec []).map fun w => (t, wordAt u w + 0x8000)) ∧
      ((s.exchangeSec t u sec).unit t u).waits.any (·.sec = sec) = false := by
  have lt : ∀ w ∈ (sectionWords u).getD sec [], w < 129 := fun w hw => sectionWord_lt u sec hw
  have base := benchBase_lt u hu
  unfold State.exchangeSec
  extract_lets ws old copied moved x shown
  have other : moved = copied := if_neg (by simpa using h4)
  have offsets : ∀ w ∈ ws, wordAt u w + 0x8000 < 0x1000000 := fun w hw => by
    have := lt w hw
    unfold wordAt
    omega
  have words : s.WordsBut moved (ws.map fun w => (t, wordAt u w + 0x8000)) := by
    rw [other]
    exact copy_words t (wordAt u) (fun w => wordAt u w + 0x8000) ws offsets s
  have apart : ∀ v ∈ ws, ∀ w ∈ ws, wordAt u v ≠ wordAt u w + 0x8000 := fun v hv w _ => by
    have := lt v hv
    unfold wordAt
    omega
  have inj : ∀ v ∈ ws, ∀ w ∈ ws, wordAt u v + 0x8000 = wordAt u w + 0x8000 → v = w := fun v _ w _ => by
    unfold wordAt
    omega
  have copies : ∀ w ∈ ws, moved.reg t (wordAt u w + 0x8000) = s.reg t (wordAt u w) := fun w hw => by
    rw [other]
    exact copy_reg t (wordAt u) (fun w => wordAt u w + 0x8000) ws
      (fun v hv => Nat.lt_of_le_of_lt (Nat.le_add_right _ _) (offsets v hv)) offsets apart inj s hw
  have waits : (shown.unit t u).waits = x.waits.filter (·.sec ≠ sec) := congrArg UnitSt.waits (unit_setUnit_same moved t u _)
  refine ⟨copies, words, ?_⟩
  · show (shown.unit t u).waits.any _ = false
    rw [waits]
    simp

theorem does_sectionExchange {s : State} {t u sec : Nat} (hl : s.live t 0 = true) (hu : u < 25) (h4 : u ≠ 4) (hb : s.secBusy t u sec = false)
    (hw : (s.unit t u).waits.any (·.sec = sec) = true) : Does (.sectionExchange t u sec) s fun r =>
      (∀ w ∈ (sectionWords u).getD sec [], r.reg t (wordAt u w + 0x8000) = s.reg t (wordAt u w)) ∧
      r.WordsBut s (((sectionWords u).getD sec []).map fun w => (t, wordAt u w + 0x8000)) ∧
      (r.unit t u).waits.any (·.sec = sec) = false := by
  refine does_when rfl (by simp [hl, hu]) ?_
  obtain ⟨copies, words, waits⟩ := exchangeSec_spec s t u sec hu h4
  rw [show s.exchangeIdle t u sec = s.exchangeSec t u sec from if_pos ⟨by simp [hb], hw⟩]
  exact ⟨copies, words.symm, waits⟩

/-! ### The epoch (R43) -/

theorem seamPartner_port (m : Member) (t p : Nat) (h : p < 4) : (seamPartner m t p).2 < 4 := by
  unfold seamPartner
  cases m <;> simp only <;> split_ifs <;> simp only <;> omega

/-- Routes follow from the registers SEAM_ROUTE and SEAM_PORT_STAT and the member. -/
theorem seamWalk_congr {s r : State} (hm : r.member = s.member) (hroute : ∀ t, r.reg t SEAM_ROUTE = s.reg t SEAM_ROUTE)
    (hport : ∀ t p, p < 4 → r.reg t (SEAM_PORT_STAT p) = s.reg t (SEAM_PORT_STAT p)) (k a b : Nat) :
    r.seamWalk k a b = s.seamWalk k a b := by
  have up : ∀ t p, p < 4 → r.portUp t p = s.portUp t p := fun t p hp => by
    unfold State.portUp State.on
    rw [f_congr (hport t p hp)]
  have route : ∀ t, r.routePort t b = s.routePort t b := fun t => by
    have nib : bits (s.reg t SEAM_ROUTE) (4 * b) 4 % 4 < 4 := Nat.mod_lt _ (by decide)
    unfold State.routePort
    rw [hroute, hm]
    dsimp only
    rw [up t _ nib, up _ _ (seamPartner_port s.member t _ nib)]
  induction k generalizing a with
  | zero => rfl
  | succ k ih =>
    unfold State.seamWalk
    rw [route, hm]
    split
    · rfl
    · split
      · rfl
      · exact ih _

/-- States whose words differ in the blocks EVT and SPOIL and below the Seam's registers only have the same routes. -/
theorem routed_of_words {s r : State} {l : List (Nat × Nat)} (hm : r.member = s.member) (hw : r.WordsButEvents s l)
    (hl : ∀ x ∈ l, x.2 < 0x200000) (k a b : Nat) : r.seamWalk k a b = s.seamWalk k a b := by
  have same : ∀ t off, 0x200000 ≤ off → off < 0x1000000 → r.reg t off = s.reg t off := fun t off h1 h2 => by
    have event : eventOff off = false := by
      simp only [eventOff, Bool.and_eq_false_iff, decide_eq_false_iff_not]
      omega
    unfold State.reg
    rw [hw t off h2 event fun hin => absurd (hl _ hin) (by omega)]
  refine seamWalk_congr hm (fun t => same t SEAM_ROUTE (by decide) (by decide)) (fun t p hp => ?_) k a b
  exact same t _ (by unfold SEAM_PORT_STAT; omega) (by unfold SEAM_PORT_STAT; omega)

/-- T0 sends a new epoch to one tile. -/
def State.sendEpoch (s : State) (e t : Nat) : State :=
  let r := s.seamReach 0 t
  r.1.when r.2 fun s => { s with bench.epochs := smPut s.bench.epochs t (smGet s.bench.epochs t [] ++ [e]) [] }

theorem epochAdvance_eq (s : State) : s.epochAdvance =
    (((s.setReg 0 EPOCH ((s.reg 0 EPOCH + 1) % 2 ^ 32)).each ((s.setReg 0 EPOCH ((s.reg 0 EPOCH + 1) % 2 ^ 32)).runTiles.filter (· ≠ 0))
      fun r t => r.sendEpoch ((s.reg 0 EPOCH + 1) % 2 ^ 32) t)).raise 0 303 := rfl

/-- Sending the epoch changes registers of the blocks EVT and SPOIL only. -/
theorem sendEpoch_words (s : State) (e t : Nat) : (s.sendEpoch e t).WordsButEvents s [] ∧ (s.sendEpoch e t).member = s.member := by
  unfold State.sendEpoch State.seamReach
  split
  · exact ⟨fun _ _ _ _ _ => rfl, rfl⟩
  · exact ⟨fun u off ho he _ => (word_raise s _ 197 u off (by decide) ho he).symm, raise_member s _ 197 (by decide)⟩

theorem sendEpoch_self {s : State} {e t : Nat} (h : s.Routed 0 t) :
    smGet (s.sendEpoch e t).bench.epochs t [] = smGet s.bench.epochs t [] ++ [e] := by
  have reach : s.seamReach 0 t = (s, true) := by
    unfold State.seamReach
    rw [h]
  unfold State.sendEpoch
  rw [reach]
  exact smGet_smPut_same ..

theorem sendEpoch_other (s : State) (e t : Nat) {u : Nat} (h : t ≠ u) :
    smGet (s.sendEpoch e t).bench.epochs u [] = smGet s.bench.epochs u [] := by
  unfold State.sendEpoch State.seamReach
  split
  · exact smGet_smPut_ne _ _ _ _ h
  · rename_i x _
    have kept : (s.raise x 197).bench = s.bench := by rw [raise_fields s x 197 (by decide)]
    exact congrArg (fun b : BenchSt => smGet b.epochs u []) kept

/-- A tile named once in the list, which the routes reach, gets the epoch as its newest message. -/
theorem sendEpochs_epochs (e : Nat) {u : Nat} (l : List Nat) (hl : l.Nodup) (s : State) (hr : s.Routed 0 u) :
    smGet (s.each l fun r t => r.sendEpoch e t).bench.epochs u [] = smGet s.bench.epochs u [] ++ if u ∈ l then [e] else [] := by
  induction l generalizing s with
  | nil => simp [State.each]
  | cons a l ih =>
    obtain ⟨ha, hl⟩ := List.nodup_cons.1 hl
    obtain ⟨words, member⟩ := sendEpoch_words s e a
    have routed : (s.sendEpoch e a).Routed 0 u := (routed_of_words member words (fun _ h => nomatch h) 8 0 u).trans hr
    refine (ih hl (s.sendEpoch e a) routed).trans ?_
    by_cases hu : u = a
    · subst hu
      rw [sendEpoch_self hr]
      simp [ha]
    · rw [sendEpoch_other s e a (Ne.symm hu)]
      simp [hu]

theorem sendEpochs_words (e : Nat) (l : List Nat) (s : State) : (s.each l fun r t => r.sendEpoch e t).WordsButEvents s [] :=
  each_induct (fun r => r.WordsButEvents s []) s l _ (fun _ _ _ _ _ => rfl) fun r t _ hr u off ho he hn =>
    (hr u off ho he hn).trans ((sendEpoch_words r e t).1 u off ho he hn)

theorem does_epochAdvance {s : State} (hl : s.live 0 0 = true) : Does .epochAdvance s fun r =>
    r.reg 0 EPOCH = (s.reg 0 EPOCH + 1) % 2 ^ 32 ∧ r.evtStat 0 303 = true ∧ r.WordsButEvents s [(0, EPOCH)] ∧
    ∀ t, t ≠ 0 → s.run t = true → s.Routed 0 t →
      smGet r.bench.epochs t [] = smGet s.bench.epochs t [] ++ [(s.reg 0 EPOCH + 1) % 2 ^ 32] := by
  refine does_when rfl hl ?_
  rw [epochAdvance_eq]
  have epoch : (s.setReg 0 EPOCH ((s.reg 0 EPOCH + 1) % 2 ^ 32)).reg 0 EPOCH = (s.reg 0 EPOCH + 1) % 2 ^ 32 :=
    (reg_setReg_same s 0 EPOCH _).trans (Nat.mod_mod ..)
  have words := (wordsBut_refl s [(0, EPOCH)]).setReg ((s.reg 0 EPOCH + 1) % 2 ^ 32) (by decide) (List.mem_cons_self ..)
  have member : (s.setReg 0 EPOCH ((s.reg 0 EPOCH + 1) % 2 ^ 32)).member = s.member := rfl
  have epochs : (s.setReg 0 EPOCH ((s.reg 0 EPOCH + 1) % 2 ^ 32)).bench = s.bench := rfl
  generalize hn : (s.reg 0 EPOCH + 1) % 2 ^ 32 = e at *
  generalize s.setReg 0 EPOCH e = q at *
  have sent := sendEpochs_words e (q.runTiles.filter (· ≠ 0)) q
  have reached := fun t h => sendEpochs_epochs e (u := t) (q.runTiles.filter (· ≠ 0))
    (((List.nodup_range.filter _).filter _)) q h
  generalize (q.each (q.runTiles.filter (· ≠ 0)) fun r t => r.sendEpoch e t) = r at *
  have outside : r.WordsButEvents s [(0, EPOCH)] := fun u off ho he hn => (words u off ho hn).symm.trans (sent u off ho he (by simp))
  refine ⟨?_, raise_stat r 0 303 (by decide), fun u off ho he hn => ?_, fun t h0 hrun hroute => ?_⟩
  · rw [reg_raise r 0 303 0 EPOCH (by decide) (by decide) (by decide), ← epoch]
    unfold State.reg
    rw [sent 0 EPOCH (by decide) (by decide) (by simp)]
  · rw [word_raise r 0 303 u off (by decide) ho he]
    exact outside u off ho he hn
  · have runs : q.run t = true := by
      have state : q.reg t TILE_STATE = s.reg t TILE_STATE := words.reg (by decide) (by simp [TILE_STATE, EPOCH])
      rw [← hrun]
      unfold State.run State.has State.tiles
      rw [member, f_congr (r := q) (s := s) state]
    have listed : t ∈ q.runTiles.filter (· ≠ 0) := by
      have here := runs
      simp only [State.run, State.has, Bool.and_eq_true, decide_eq_true_eq] at here
      simp [State.runTiles, State.tileList, here.1, runs, h0]
    have routed : q.Routed 0 t :=
      (routed_of_words (l := [(0, EPOCH)]) member (fun u off ho _ hn => (words u off ho hn).symm) (by simp [EPOCH]) 8 0 t).trans hroute
    have kept : (r.raise 0 303).bench = r.bench := by rw [raise_fields r 0 303 (by decide)]
    rw [kept, reached t routed, epochs, if_pos listed]

theorem does_epochUpdateReceive {s : State} {t e : Nat} {l : List Nat} (hl : s.live t 0 = true) (ho : s.msgOpen 0 t = true)
    (he : smGet s.bench.epochs t [] = e :: l) : Does (.epochUpdateReceive t) s fun r =>
      r.reg t EPOCH = e % 2 ^ 32 ∧ r.evtStat t 303 = true ∧ r.WordsButEvents s [(t, EPOCH)] ∧ smGet r.bench.epochs t [] = l := by
  refine does_when rfl (by simp [hl, ho]) ?_
  have receives : s.epochReceive t =
      (({ s with bench.epochs := smPut s.bench.epochs t l [] } : State).setReg t EPOCH e).raise t 303 := by
    unfold State.epochReceive
    rw [he]
  rw [receives]
  have epoch := reg_setReg_same ({ s with bench.epochs := smPut s.bench.epochs t l [] } : State) t EPOCH e
  have words : s.WordsBut (({ s with bench.epochs := smPut s.bench.epochs t l [] } : State).setReg t EPOCH e) [(t, EPOCH)] :=
    State.WordsBut.setReg (r := { s with bench.epochs := smPut s.bench.epochs t l [] }) (fun _ _ _ _ => rfl) e (by decide) (by simp)
  have rest : smGet (({ s with bench.epochs := smPut s.bench.epochs t l [] } : State).setReg t EPOCH e).bench.epochs t [] = l :=
    smGet_smPut_same ..
  generalize ({ s with bench.epochs := smPut s.bench.epochs t l [] } : State).setReg t EPOCH e = r at *
  refine ⟨?_, raise_stat r t 303 (by decide), fun u off ho he hn => ?_, ?_⟩
  · rw [reg_raise r t 303 t EPOCH (by decide) (by decide) (by decide), epoch]
  · rw [word_raise r t 303 u off (by decide) ho he, words u off ho hn]
  · have kept : (r.raise t 303).bench = r.bench := by rw [raise_fields r t 303 (by decide)]
    rw [kept, rest]

/-- Settles O30: each command's lemma above gives its part (R36, R37, R41 to R43, R79). -/
theorem benchCommandsComplete : Obligations.BenchCommandsComplete := by
  unfold Obligations.BenchCommandsComplete
  refine ⟨fun t c w s h ho => ?_, fun t u s hl hu hk hown harm hkind hshadow hstale => does_unitArm hl hu hk hown harm hkind hshadow hstale,
    fun t u s hl hu hr => ?_, fun t u s hl hu => ?_, fun t u sec s hl hu h4 _ hb hw => does_sectionExchange hl hu h4 hb hw,
    fun s hl => does_epochAdvance hl, fun t e l s hl ho he => does_epochUpdateReceive hl ho he⟩
  · intro x a u i base ha hu hi hg hp
    refine ⟨fun hf hd hx hown harm => does_bwr h ho rfl ha hu hi hg hp hf hd hx hown harm, fun hf hz => ?_, fun hf hz => ?_⟩
    · exact does_benchRead h rfl (row_bench ho hf (by decide)) rfl ha hu hi hg hp (by rw [bits_of_low hf 2 9 (by decide), hz]; rfl) (by decide)
    · exact does_benchRead (base := 0) h rfl (row_bench ho hf (by decide)) rfl ha hu hi hg hp
        (by rw [bits_of_low hf 2 9 (by decide), hz]; rfl) (by decide)
  · refine does_when rfl (by simp [hl, hu]) ?_
    rw [unitArm_refused hr]
    exact ⟨raise_onlyEvents s t 301 (by decide), raise_stat s t 301 (by decide)⟩
  · exact does_when rfl (by simp [hl, hu]) ⟨rfl, unit_setUnit_same s t u _⟩

end Sys2Proof.Machine

/-!
# What a command's end leaves of a transaction

What follows within a command (`State.settle`: exchanges acted on, isolations, stale contexts, ended transactions, host commands,
links) leaves a transaction as it is whose number lies beyond the 16 ids, unless it has ended. One rule per operation, in the order of
the model.
-/

namespace Sys2Proof.Machine

/-- Transaction k is in the second state as it is in the first. -/
def State.SameTxn (k : Nat) (s r : State) : Prop := r.txn k = s.txn k

namespace State.SameTxn

variable {s r : State} {k t c u i l n m port bank row a id sec key : Nat} {bs : List Nat} {poison b : Bool}

theorem refl (s : State) : s.SameTxn k s := rfl

theorem of_bench {q : State} (h : s.SameTxn k r) (e : q.bench = r.bench) : s.SameTxn k q := by
  unfold State.SameTxn State.txn at h ⊢
  rwa [e]

theorem of_txns {q : State} (h : s.SameTxn k r) (e : q.bench.txns = r.bench.txns) : s.SameTxn k q := by
  unfold State.SameTxn State.txn at h ⊢
  rwa [e]

theorem each_mem {α : Type} {l : List α} {f : State → α → State} (h : s.SameTxn k r)
    (hf : ∀ q a, a ∈ l → s.SameTxn k q → s.SameTxn k (f q a)) : s.SameTxn k (r.each l f) := each_induct (s.SameTxn k) r l f h hf

theorem each {α : Type} {l : List α} {f : State → α → State} (h : s.SameTxn k r)
    (hf : ∀ q a, s.SameTxn k q → s.SameTxn k (f q a)) : s.SameTxn k (r.each l f) :=
  h.each_mem fun q a _ hq => hf q a hq

theorem when {f : State → State} (h : s.SameTxn k r) (hf : s.SameTxn k r → s.SameTxn k (f r)) : s.SameTxn k (r.when b f) := by
  cases b with
  | false => exact h
  | true => exact hf h

theorem ite {q : State} {p : Prop} [Decidable p] (hr : s.SameTxn k r) (hq : s.SameTxn k q) :
    s.SameTxn k (if p then r else q) := by
  split
  · exact hr
  · exact hq

/-! ### Registers, bytes, records of single items -/

theorem setReg {off v : Nat} (h : s.SameTxn k r) : s.SameTxn k (r.setReg t off v) := h.of_bench (setReg_bench ..)
theorem setF {f : FRef} {v : Nat} (h : s.SameTxn k r) : s.SameTxn k (r.setF t f v) := h.of_bench (setF_bench ..)
theorem setB {f : FRef} {v : Bool} (h : s.SameTxn k r) : s.SameTxn k (r.setB t f v) := h.of_bench (setB_bench ..)
theorem addF {f : FRef} {v : Nat} (h : s.SameTxn k r) : s.SameTxn k (r.addF t f v) := h.of_bench (addF_bench ..)
theorem setReg64 {lo v : Nat} (h : s.SameTxn k r) : s.SameTxn k (r.setReg64 t lo v) := h.of_bench (setReg64_bench ..)
theorem setCrew {x : Crew} (h : s.SameTxn k r) : s.SameTxn k (r.setCrew t c x) := h.of_bench (setCrew_bench ..)
theorem setMcChan {x : McChan} (h : s.SameTxn k r) : s.SameTxn k (r.setMcChan t c x) := h.of_bench (setMcChan_bench ..)
theorem setEcc {err : Nat} (h : s.SameTxn k r) : s.SameTxn k (r.setEcc t a err b) := h.of_bench (setEcc_bench ..)
theorem setInjected (h : s.SameTxn k r) : s.SameTxn k (r.setInjected t a b) := h.of_bench (setInjected_bench ..)
theorem setPin {x : LanePins} (h : s.SameTxn k r) : s.SameTxn k (r.setPin t c x) := h.of_bench (setPin_bench ..)
theorem setLink {x : Lpl} (h : s.SameTxn k r) : s.SameTxn k (r.setLink t c x) := h.of_bench (setLink_bench ..)
theorem setRaw {x : RawCtx} (h : s.SameTxn k r) : s.SameTxn k (r.setRaw t c x) := h.of_bench (setRaw_bench ..)
theorem setOut {x : OutCtx} (h : s.SameTxn k r) : s.SameTxn k (r.setOut t c x) := h.of_bench (setOut_bench ..)
theorem setEnc {x : EncCtx} (h : s.SameTxn k r) : s.SameTxn k (r.setEnc t c x) := h.of_bench (setEnc_bench ..)
theorem setDec {x : DecCtx} (h : s.SameTxn k r) : s.SameTxn k (r.setDec t c x) := h.of_bench (setDec_bench ..)
theorem setCrs {x : CrStream} (h : s.SameTxn k r) : s.SameTxn k (r.setCrs t c x) := h.of_bench (setCrs_bench ..)
theorem setCrj {x : CrJob} (h : s.SameTxn k r) : s.SameTxn k (r.setCrj t c x) := h.of_bench (setCrj_bench ..)
theorem setTake {x : Take} (h : s.SameTxn k r) : s.SameTxn k (r.setTake c x) := h.of_bench (setTake_bench ..)
theorem setBur {x : Burst} (h : s.SameTxn k r) : s.SameTxn k (r.setBur t x) := h.of_bench (setBur_bench ..)
theorem setDiscard (h : s.SameTxn k r) : s.SameTxn k (r.setDiscard t c u b) := h.of_bench (setDiscard_bench ..)
theorem setUnit {x : UnitSt} (h : s.SameTxn k r) : s.SameTxn k (r.setUnit t u x) := h.of_txns rfl
theorem setBusy (h : s.SameTxn k r) : s.SameTxn k (r.setBusy t u c b) := h.of_txns rfl

/-- A change of one transaction leaves the others. -/
theorem setTxn {x : Txn} (h : s.SameTxn k r) (hi : i ≠ k) : s.SameTxn k (r.setTxn i x) :=
  (txn_setTxn_ne r i x k hi).trans h

/-! A change of a part of the state, of the benches but for their transactions. -/

theorem bench {x : BenchSt} (h : s.SameTxn k r) (e : x.txns = r.bench.txns) : s.SameTxn k { r with bench := x } := h.of_txns e
theorem evt {e : EvtSt} (h : s.SameTxn k r) : s.SameTxn k { r with evt := e } := h.of_bench rfl
theorem mem {x : MemSt} (h : s.SameTxn k r) : s.SameTxn k { r with mem := x } := h.of_bench rfl
theorem store {x : RecSt} (h : s.SameTxn k r) : s.SameTxn k { r with store := x } := h.of_bench rfl
theorem hevc {x : HevcSt} (h : s.SameTxn k r) : s.SameTxn k { r with hevc := x } := h.of_bench rfl
theorem pix {x : PixSt} (h : s.SameTxn k r) : s.SameTxn k { r with pix := x } := h.of_bench rfl
theorem seam {x : SeamSt} (h : s.SameTxn k r) : s.SameTxn k { r with seam := x } := h.of_bench rfl
theorem pwr {x : PwrSt} (h : s.SameTxn k r) : s.SameTxn k { r with pwr := x } := h.of_bench rfl
theorem host {x : HostSt} (h : s.SameTxn k r) : s.SameTxn k { r with host := x } := h.of_bench rfl
theorem mags {x : SMap (List MagCmd)} (h : s.SameTxn k r) : s.SameTxn k { r with mags := x } := h.of_bench rfl

/-! ### Occurrences and the Seam -/

theorem occur {id : Nat} (h : s.SameTxn k r) : s.SameTxn k (r.occur t id b).1 := by
  have noted : s.SameTxn k (r.noted t id b) := h.setReg.addF.setB
  exact noted.of_bench (congrArg State.bench (occur_spoil r t id b).1 :)

theorem raiseX {id : Nat} (h : s.SameTxn k r) : s.SameTxn k (r.raiseX t id b) := by
  have occurred := h.occur (t := t) (id := id) (b := b)
  unfold State.raiseX
  dsimp only
  exact (occurred.occur.ite occurred).evt.ite (occurred.occur.ite occurred)

theorem raise {id : Nat} (h : s.SameTxn k r) : s.SameTxn k (r.raise t id) := h.raiseX

theorem sramWritten (h : s.SameTxn k r) : s.SameTxn k (r.sramWritten t n) := h.setB.mem.raise.ite h

theorem seamReach (h : s.SameTxn k r) : s.SameTxn k (r.seamReach t u).1 := by
  unfold State.seamReach
  split
  · exact h
  · exact h.raise

theorem unroute (h : s.SameTxn k r) : s.SameTxn k (r.unroute n) := h.each fun _ _ hq => hq.setReg

theorem sendAck {x : CrewMsg} (h : s.SameTxn k r) : s.SameTxn k (r.sendAck x n) := by
  unfold State.sendAck
  dsimp only
  split
  · exact h.when fun h => h.setCrew
  · exact h

theorem dropPackets (h : s.SameTxn k r) : s.SameTxn k (r.dropPackets t) := by
  unfold State.dropPackets
  refine h.seam.each fun q x hq => ?_
  split
  · exact hq.ite hq.sendAck
  · exact hq

/-! ### Memory controllers and DRAM words -/

theorem setDbytes (h : s.SameTxn k r) : s.SameTxn k (r.setDbytes t a bs) := by
  induction bs generalizing r a with
  | nil => exact h
  | cons _ _ ih => exact ih (h.of_bench (setDbyte_bench ..))

theorem setCorr {l : List CorrEnt} (h : s.SameTxn k r) : s.SameTxn k (r.setCorr t l) := h.mem.setF

theorem logCorr (h : s.SameTxn k r) : s.SameTxn k (r.logCorr t a b).1 := by
  unfold State.logCorr
  extract_lets n l x q lim addr
  have counted : s.SameTxn k q := h.mem
  clear_value q
  split
  · dsimp only
    split
    · exact counted.setCorr.raiseX
    · exact counted.setCorr
  · generalize hp : (if l.length < corrCap then _ else _ : State × Bool) = p
    have placed : s.SameTxn k p.1 := by
      rw [← hp]
      split
      · exact counted.setCorr
      · split
        · exact counted.mem.setCorr.raise
        · exact counted.addF
    obtain ⟨v, _⟩ := p
    dsimp only
    split
    · exact placed.raiseX
    · exact placed

theorem corrWritten (h : s.SameTxn k r) : s.SameTxn k (r.corrWritten t a) := h.setCorr.ite h

theorem mcFail (h : s.SameTxn k r) : s.SameTxn k (r.mcFail t c) := h.ite h.setF.setMcChan.setF.raise

theorem countUe (h : s.SameTxn k r) : s.SameTxn k (r.countUe t c) := by
  unfold State.countUe
  extract_lets x l q
  have noted : s.SameTxn k q := h.setMcChan
  exact noted.when fun h => h.mcFail

theorem putWord (h : s.SameTxn k r) : s.SameTxn k (r.putWord t a n) := h.setDbytes

theorem addCe (h : s.SameTxn k r) : s.SameTxn k (r.addCe t) := h.mem
theorem addUe (h : s.SameTxn k r) : s.SameTxn k (r.addUe t) := h.mem

theorem readWord (h : s.SameTxn k r) : s.SameTxn k (r.readWord t a port b).1 := by
  unfold State.readWord
  dsimp only
  split
  · exact h
  · split
    · exact h.setEcc.ite h
    · exact h.addF
    · exact h.addF.addCe.raiseX.logCorr.putWord.setEcc.setInjected
    · exact (h.addF.addUe.setReg64.setReg.raiseX.ite h.addF.addUe.setReg64.setReg.raiseX.countUe).putWord.setEcc.setInjected

theorem injectLine (h : s.SameTxn k r) : s.SameTxn k (r.injectLine t n) := by
  unfold State.injectLine
  dsimp only
  split
  · refine State.SameTxn.raise ?_
    split
    · exact h.setB.setEcc.setInjected
    · exact h.setB.setEcc.setInjected
    · exact h.setB.setEcc.setInjected
    · exact h.setB
  · exact h

theorem writeWord (h : s.SameTxn k r) : s.SameTxn k (r.writeWord t a port bs poison) := by
  unfold State.writeWord
  dsimp only
  exact (h.setDbytes.setEcc.setInjected.corrWritten).ite h.readWord.putWord.setDbytes.setEcc.setInjected.corrWritten

theorem writeRun (h : s.SameTxn k r) : s.SameTxn k (r.writeRun t port poison n a bs) := by
  induction n generalizing r a bs with
  | zero => exact h
  | succ n ih => exact h.ite (ih h.writeWord)

theorem injectRun (h : s.SameTxn k r) : s.SameTxn k (r.injectRun t a n) := (h.injectLine.ite h).ite h

theorem mergeQueued (h : s.SameTxn k r) : s.SameTxn k (r.mergeQueued t a bs poison) := h.each fun _ _ hq => hq.setMcChan.ite hq

theorem wr (h : s.SameTxn k r) : s.SameTxn k (r.wr t a bs poison port) := h.ite h.mergeQueued.writeRun.injectRun

theorem wrAt (h : s.SameTxn k r) : s.SameTxn k (r.wrAt t a bs poison port) := h.wr.ite h

theorem rdWords (h : s.SameTxn k r) : s.SameTxn k (r.rdWords t port n a).1 := by
  induction n generalizing r a with
  | zero => exact h
  | succ n ih => exact ih h.readWord

theorem rdAt (h : s.SameTxn k r) : s.SameTxn k (r.rdAt t a n port).1 := by
  unfold State.rdAt
  split
  · exact h.rdWords
  · exact h

theorem mitigate (h : s.SameTxn k r) : s.SameTxn k (r.mitigate t c bank row port b) := h.setMcChan.addF.addF.raise

theorem access (h : s.SameTxn k r) : s.SameTxn k (r.access t c bank row port b) :=
  h.setMcChan.ite (h.setMcChan.when fun h => h.mitigate)

theorem refreshVictims (h : s.SameTxn k r) : s.SameTxn k (r.refreshVictims t c bank port) :=
  (h.setMcChan.each fun _ _ hq => hq.access).ite (h.setMcChan.each fun _ _ hq => hq.access).setMcChan

theorem issueEntry {e : WqEnt} (h : s.SameTxn k r) : s.SameTxn k (r.issueEntry t c port e) := by
  unfold State.issueEntry
  dsimp only
  refine State.SameTxn.injectLine (h.refreshVictims.access.each fun q w hq => ?_)
  exact hq.writeWord.ite (hq.ite (hq.each fun _ _ hp => hp.writeWord))

theorem drainTo (h : s.SameTxn k r) : s.SameTxn k (r.drainTo t c port n) := State.SameTxn.setF (h.setMcChan.each fun _ _ hq => hq.issueEntry)

theorem selfRefresh (h : s.SameTxn k r) : s.SameTxn k (r.selfRefresh t c b) := h.drainTo.setMcChan.setF.raise.ite h

/-! ### Links -/

theorem laneSend {bs : List (Nat × Nat)} (h : s.SameTxn k r) : s.SameTxn k (r.laneSend t l bs) := h.ite h.setPin

theorem linkEach {f : Nat → Nat × Nat} (h : s.SameTxn k r) : s.SameTxn k (r.linkEach t l n f) := h.each fun _ _ hq => hq.laneSend

theorem linkOut {bs : List (Nat × Nat)} (h : s.SameTxn k r) : s.SameTxn k (r.linkOut t l bs) :=
  h.ite (h.setLink.each fun _ _ hq => hq.laneSend)

theorem linkRetrain (h : s.SameTxn k r) : s.SameTxn k (r.linkRetrain t l) := by
  unfold State.linkRetrain State.sendTrain
  exact h.setLink.setF.raise.linkEach

theorem linkWatch (h : s.SameTxn k r) : s.SameTxn k (r.linkWatch t l) := h.linkRetrain.ite h

theorem pumpAsync (h : s.SameTxn k r) : s.SameTxn k (r.pumpAsync n) := by
  induction n generalizing r with
  | zero => exact h
  | succ n ih =>
    unfold State.pumpAsync
    split
    · exact h
    · exact (ih h.evt.setLink).ite h

theorem linkSync (h : s.SameTxn k r) : s.SameTxn k (r.linkSync t l) := h.setF.setF.setF

theorem linkPump (h : s.SameTxn k r) : s.SameTxn k (r.linkPump t l) := by
  unfold State.linkPump
  extract_lets x q v
  have pumped : s.SameTxn k q := h.ite h.setLink
  have sent : s.SameTxn k v := pumped.pumpAsync.ite pumped
  exact h.ite sent.linkOut.linkSync

theorem linkSend {p : Pkt} (h : s.SameTxn k r) : s.SameTxn k (r.linkSend t l p) := h.setLink.sramWritten.linkPump

/-! ### Sections and epochs -/

theorem moveDefTab (h : s.SameTxn k r) : s.SameTxn k (r.moveDefTab t n) := by
  unfold State.moveDefTab
  extract_lets v d q bad
  have noted : s.SameTxn k q := h.bench rfl
  split
  · exact State.SameTxn.bench (noted.when fun h => h.pix.setB).setReg rfl
  · exact noted

theorem exchangeSec (h : s.SameTxn k r) : s.SameTxn k (r.exchangeSec t u sec) := by
  unfold State.exchangeSec
  extract_lets ws old copied moved x shown
  have copies : s.SameTxn k copied := h.each fun _ _ hq => hq.setReg
  have moves : s.SameTxn k moved := copies.when fun h => h.moveDefTab
  have shows : s.SameTxn k shown := moves.setUnit
  exact shows.bench rfl

theorem takeExchange (h : s.SameTxn k r) : s.SameTxn k (r.takeExchange t u sec).1 := by
  unfold State.takeExchange
  split
  · exact h
  · exact h.bench rfl

theorem endMark (h : s.SameTxn k r) : s.SameTxn k (r.endMark t u) := h.when fun h => h.bench rfl

theorem swapUnit (h : s.SameTxn k r) : s.SameTxn k (r.swapUnit t u n m c) := by
  unfold State.swapUnit
  extract_lets g a b x d v
  have marked : s.SameTxn k v := State.SameTxn.each h.setF.setReg.setUnit fun _ _ hq => hq.endMark
  exact marked.each fun _ _ hq => hq.setUnit.ite hq.exchangeSec

theorem endSec (h : s.SameTxn k r) : s.SameTxn k (r.endSec t u sec) := h.setBusy.exchangeSec.ite h.setBusy

theorem refuseFrame (h : s.SameTxn k r) : s.SameTxn k (r.refuseFrame t) := h.raise.bench rfl

theorem rollback (h : s.SameTxn k r) : s.SameTxn k (r.rollback t u) := by
  unfold State.rollback
  extract_lets copied x q
  have copies : s.SameTxn k copied := h.each fun _ _ hq => hq.setReg
  have cleared : s.SameTxn k q := copies.setUnit
  exact cleared.when fun h => h.setB

theorem soloPoint (h : s.SameTxn k r) : s.SameTxn k (r.soloPoint t u n) := h.swapUnit.ite h.setUnit.raise

theorem epochAdvance (h : s.SameTxn k r) : s.SameTxn k r.epochAdvance := by
  rw [epochAdvance_eq]
  refine State.SameTxn.raise (h.setReg.each fun q a hq => ?_)
  exact hq.seamReach.when fun h => h.bench rfl

/-! ### Transactions other than the one -/

theorem txnRollback (h : s.SameTxn k r) (hi : i ≠ k) : s.SameTxn k (r.txnRollback i t) :=
  State.SameTxn.setTxn (h.each fun _ _ hq => hq.rollback) hi

theorem wakeCommit (h : s.SameTxn k r) : s.SameTxn k (r.wakeCommit i) := h.of_bench (wakeCommit_bench r i)

theorem txnEnd (h : s.SameTxn k r) (hi : i ≠ k) : s.SameTxn k (r.txnEnd i n) := by
  unfold State.txnEnd
  exact State.SameTxn.wakeCommit ((h.setTxn hi).when fun h => h.raise)

theorem txnSendDecision (h : s.SameTxn k r) (hi : i ≠ k) : s.SameTxn k (r.txnSendDecision i) := by
  rw [txnSendDecision_eq]
  refine h.each fun q a hq => ?_
  unfold State.sendDecisionTo
  exact (hq.seamReach.setTxn hi).ite hq.seamReach

theorem txnLearn (h : s.SameTxn k r) : s.SameTxn k (r.txnLearn i t b) := by
  unfold State.txnLearn
  extract_lets x us marked
  have marks : s.SameTxn k marked := h.each fun _ _ hq => hq.bench rfl
  exact marks.when fun h => h.raise

theorem txnNoSwap (h : s.SameTxn k r) (hi : i ≠ k) : s.SameTxn k (r.txnNoSwap i n) := by
  unfold State.txnNoSwap
  extract_lets x decided sent rolled learnt
  have decides : s.SameTxn k decided := h.setTxn hi
  have rolls : s.SameTxn k rolled := (decides.txnSendDecision hi).txnRollback hi
  have learns : s.SameTxn k learnt := rolls.txnLearn.ite rolls
  exact learns.txnEnd hi

theorem txnFree (h : s.SameTxn k r) (hi : i ≠ k) : s.SameTxn k (r.txnFree i) := by
  unfold State.txnFree
  exact (State.SameTxn.setTxn (h.each fun _ _ hq => (hq.txnRollback hi).ite hq) hi).ite h

theorem txnSwapTile (h : s.SameTxn k r) (hi : i ≠ k) : s.SameTxn k (r.txnSwapTile i t n) :=
  State.SameTxn.setTxn (h.each fun _ _ hq => hq.swapUnit) hi

theorem txnMiss (h : s.SameTxn k r) (hi : i ≠ k) : s.SameTxn k (r.txnMiss i t) :=
  State.SameTxn.setTxn ((h.txnRollback hi).each fun _ _ hq => hq.bench rfl) hi

theorem txnReport (h : s.SameTxn k r) (hi : i ≠ k) : s.SameTxn k (r.txnReport i t) := by
  unfold State.txnReport
  dsimp only
  exact (h.setTxn hi).ite ((h.seamReach.setTxn hi).ite h.seamReach)

theorem txnReach (h : s.SameTxn k r) (hi : i ≠ k) : s.SameTxn k (r.txnReach i t n) := by
  unfold State.txnReach
  dsimp only
  exact h.ite (((h.txnSwapTile hi).txnReport hi).ite (((h.txnMiss hi).txnReport hi).ite h))

theorem txnFinal (h : s.SameTxn k r) (hi : i ≠ k) : s.SameTxn k (r.txnFinal i) := by
  unfold State.txnFinal
  dsimp only
  exact (h.txnEnd hi).ite (State.SameTxn.txnEnd (h.each fun _ _ hq => hq.raise) hi)

theorem txnTryEnd (h : s.SameTxn k r) (hi : i ≠ k) : s.SameTxn k (r.txnTryEnd i) := (h.txnFinal hi).ite h

theorem txnPoint (h : s.SameTxn k r) (hi : i ≠ k) : s.SameTxn k (r.txnPoint i n) := by
  unfold State.txnPoint
  dsimp only
  exact h.ite (State.SameTxn.txnTryEnd ((h.setTxn hi).each fun _ _ hq => hq.txnReach hi) hi)

theorem occurrence (h : s.SameTxn k r) (hk : 16 ≤ k) : s.SameTxn k (r.occurrence n m c t) := by
  unfold State.occurrence
  extract_lets q
  have solos : s.SameTxn k q := h.each fun _ _ hv => hv.each fun _ _ hu => hu.soloPoint.ite hu
  refine solos.each_mem fun v i hi hv => ?_
  have other : i ≠ k := Nat.ne_of_lt (Nat.lt_of_lt_of_le (List.mem_range.1 hi) hk)
  exact (hv.txnPoint other).ite hv

/-! ### Crusher, recording and the burst store -/

theorem recFeed {x : RecUnit} (h : s.SameTxn k r) : s.SameTxn k (r.recFeed t c n x) :=
  h.ite (h.refuseFrame.ite (h.each fun _ _ hq => hq.store))

theorem arbRemove (h : s.SameTxn k r) : s.SameTxn k (r.arbRemove n t i) := h.pwr

theorem rawExchanged (h : s.SameTxn k r) : s.SameTxn k (r.rawExchanged t c) := by
  have taken := h.takeExchange (t := t) (u := 4) (sec := c)
  unfold State.rawExchanged
  generalize r.takeExchange t 4 c = p at taken ⊢
  obtain ⟨q, _ | old⟩ := p
  · exact taken
  · exact State.SameTxn.when (taken.when fun h => h.setRaw) fun h => h.setF

theorem setWr {x : Writer} (h : s.SameTxn k r) : s.SameTxn k (r.setWr t c x) := h.setCrs.ite h.setCrj

theorem setHand {x : Option Hand} (h : s.SameTxn k r) : s.SameTxn k (r.setHand t c x) := h.setCrs.ite h.setCrj

theorem wRelease (h : s.SameTxn k r) : s.SameTxn k (r.wRelease t c n b) := by
  unfold State.wRelease
  extract_lets w wb q f y
  have written : s.SameTxn k q := h.setWr
  refine h.ite (State.SameTxn.ite ?_ (written.wrAt.when fun h => h.raise))
  split
  · exact written.setHand.ite written.recFeed
  · exact written.recFeed

theorem crStopped (h : s.SameTxn k r) : s.SameTxn k (r.crStopped t c) := h.ite h.wRelease.setF

theorem crExchanged (h : s.SameTxn k r) : s.SameTxn k (r.crExchanged t c) := by
  have taken := h.takeExchange (t := t) (u := 11) (sec := c)
  unfold State.crExchanged
  generalize r.takeExchange t 11 c = p at taken ⊢
  obtain ⟨q, _ | old⟩ := p
  · exact taken
  · exact (taken.ite taken.setCrs.setF).ite taken.crStopped

theorem logError {link status vol first blocks : Nat} {info : List Nat} (h : s.SameTxn k r) :
    s.SameTxn k (r.logError n m i link status vol first blocks info) := h.host

theorem setMag {x : List MagCmd} (h : s.SameTxn k r) : s.SameTxn k (r.setMag t x) := h.mags.setF

theorem magIssue {use who num : Nat} {cap data bad : List Nat} (h : s.SameTxn k r) :
    s.SameTxn k (r.magIssue t n use who num cap data bad).1 := by
  unfold State.magIssue
  split
  · exact h
  · exact h.setMag.linkSend

theorem magOrphan (h : s.SameTxn k r) : s.SameTxn k (r.magOrphan n) := h.each fun _ _ hq => hq.setMag

theorem takeFail (h : s.SameTxn k r) : s.SameTxn k (r.takeFail n m) := by
  unfold State.takeFail
  extract_lets frames x q v w y
  have dropped : s.SameTxn k q := h.store
  exact h.ite dropped.magOrphan.addF.setF.setF.logError.raise

theorem stgRead (h : s.SameTxn k r) : s.SameTxn k (r.stgRead t n m i).1 := by
  induction n generalizing r m i with
  | zero => exact h
  | succ n ih => exact ih h.rdAt

theorem extRead {parts : List (Nat × Nat × Bool)} (h : s.SameTxn k r) : s.SameTxn k (r.extRead t parts i).1 := by
  induction parts generalizing r i with
  | nil => exact h
  | cons p parts ih => exact ih h.stgRead

/-- What a tile reaches, itself or another over the Seam. -/
theorem reach {p : Prop} [Decidable p] (h : s.SameTxn k r) : s.SameTxn k (if p then (r, true) else r.seamReach t u).1 := by
  split
  · exact h
  · exact h.seamReach

theorem extIssue (h : s.SameTxn k r) : s.SameTxn k r.extIssue := by
  unfold State.extIssue
  refine h.each fun q e hq => hq.ite ?_
  split
  · exact hq
  · rename_i m block _
    have reached := hq.reach (t := e.tile) (u := m) (p := m = e.tile)
    generalize (if m = e.tile then (q, true) else q.seamReach e.tile m) = p at reached ⊢
    obtain ⟨v, ok⟩ := p
    exact reached.ite reached.extRead.magIssue.store

theorem takeFlush (h : s.SameTxn k r) : s.SameTxn k (r.takeFlush n m) := by
  unfold State.takeFlush
  have reached := h.reach (t := 0) (u := m) (p := m = 0)
  generalize (if m = 0 then (r, true) else r.seamReach 0 m) = p at reached ⊢
  obtain ⟨v, ok⟩ := p
  exact reached.ite reached.magIssue.setTake

theorem takeClosing (h : s.SameTxn k r) : s.SameTxn k (r.takeClosing n) := by
  unfold State.takeClosing
  extract_lets more x issued y flushed out z
  have issues : s.SameTxn k issued := h.ite h.store.extIssue
  have flushes : s.SameTxn k flushed := issues.setTake.ite issues
  have outs : s.SameTxn k out := flushes.each fun _ _ hq => hq.takeFlush
  exact h.ite (issues.ite (outs.setF.raise.ite outs))

theorem takesNote (h : s.SameTxn k r) : s.SameTxn k (r.takesNote t) := h.each fun _ _ hq => hq.setTake

theorem takeStart (h : s.SameTxn k r) : s.SameTxn k (r.takeStart t n) := by
  unfold State.takeStart
  dsimp only
  exact h.ite (h.setTake.ite h.setReg.setReg.setReg.setTake)

theorem takeStop (h : s.SameTxn k r) : s.SameTxn k (r.takeStop t n) := by
  unfold State.takeStop
  dsimp only
  exact (h.ite h.setTake).setF.takeClosing.ite h

theorem recExchanged (h : s.SameTxn k r) : s.SameTxn k (r.recExchanged t sec) := by
  have taken := h.takeExchange (t := t) (u := 12) (sec := sec)
  unfold State.recExchanged
  generalize r.takeExchange t 12 sec = p at taken ⊢
  obtain ⟨q, _ | old⟩ := p
  · exact taken
  · dsimp only
    refine (taken.each fun v n hv => hv.takeStart.ite (hv.takeStop.ite hv)).ite (taken.store.takesNote.ite ?_)
    exact (taken.ite taken.store).ite (taken.store.ite taken.store.setF)

theorem magEndAll (h : s.SameTxn k r) : s.SameTxn k (r.magEndAll t n) := State.SameTxn.each h.setMag fun _ _ hq => hq.takeFail

theorem takesIsolated (h : s.SameTxn k r) : s.SameTxn k (r.takesIsolated t) := by
  unfold State.takesIsolated
  extract_lets q
  have failed : s.SameTxn k q := h.each fun _ _ hq => hq.when fun h => h.takeFail
  exact failed.store

theorem burFreeze (h : s.SameTxn k r) : s.SameTxn k r.burFreeze := by
  unfold State.burFreeze
  extract_lets ts l pre x n v q w z
  have firsts : s.SameTxn k q := h.each fun _ _ hq => hq.setBur
  have frozen : s.SameTxn k w := firsts.each fun _ _ hq => hq.setF.setReg
  have shown : s.SameTxn k z := frozen.when fun h => h.setB.setF
  exact shown.setBur.raise.ite h

/-! ### The HEVC coders -/

theorem heSetMarks (h : s.SameTxn k r) : s.SameTxn k (r.heSetMarks t c n) := h.each fun _ _ hq => hq.setReg.setF

theorem heNoMargins {bufs : List Nat} (h : s.SameTxn k r) : s.SameTxn k (r.heNoMargins t c bufs) := h.each fun _ _ hq => hq.setEnc

theorem heExchanged (h : s.SameTxn k r) : s.SameTxn k (r.heExchanged t c) := by
  have taken := h.takeExchange (t := t) (u := 13 + c) (sec := 0)
  unfold State.heExchanged
  generalize r.takeExchange t (13 + c) 0 = p at taken ⊢
  obtain ⟨q, _ | old⟩ := p
  · exact taken
  · dsimp only
    exact taken.ite (taken.heSetMarks.heNoMargins.setEnc.ite taken.heSetMarks.heNoMargins.setEnc.setF.arbRemove)

theorem heStale (h : s.SameTxn k r) : s.SameTxn k (r.heStale t c) := h.setReg.setEnc.ite h

theorem hdSetMark (h : s.SameTxn k r) : s.SameTxn k (r.hdSetMark t c i n b) := h.each fun _ _ hq => hq.setReg.setF.setF

theorem hdFreeAll (h : s.SameTxn k r) : s.SameTxn k (r.hdFreeAll t c) := h.each fun _ _ hq => hq.hdSetMark.setDec

theorem hdEnd (h : s.SameTxn k r) : s.SameTxn k (r.hdEnd t c n) := h.setDec.setF.arbRemove

theorem hdAbort (h : s.SameTxn k r) : s.SameTxn k (r.hdAbort t c) := h.ite h.hdFreeAll.hdEnd

theorem hdExchanged (h : s.SameTxn k r) : s.SameTxn k (r.hdExchanged t c) := by
  have taken := h.takeExchange (t := t) (u := 17 + c) (sec := 0)
  unfold State.hdExchanged
  generalize r.takeExchange t (17 + c) 0 = p at taken ⊢
  obtain ⟨q, _ | old⟩ := p
  · exact taken
  · exact taken.ite taken.hdFreeAll.hdEnd

/-! ### Outputs and assembly -/

theorem devExchanged (h : s.SameTxn k r) : s.SameTxn k (r.devExchanged t n) := by
  have taken := h.takeExchange (t := t) (u := 5 + n) (sec := 0)
  unfold State.devExchanged
  generalize r.takeExchange t (5 + n) 0 = p at taken ⊢
  obtain ⟨q, _ | old⟩ := p
  · exact taken
  · exact State.SameTxn.when (taken.when fun h => h.setB) fun h => h.setB

theorem outRecord {f : FrameHdr} (h : s.SameTxn k r) : s.SameTxn k (r.outRecord t c f n m) :=
  h.setReg.setReg.setReg.setReg.setReg.setOut.raise

theorem outPoint {f : FrameHdr} (h : s.SameTxn k r) (hk : 16 ≤ k) : s.SameTxn k (r.outPoint t c f) := by
  unfold State.outPoint
  dsimp only
  exact h.ite (h.setOut.ite (h.setOut.occurrence hk))

theorem outBegin {f : FrameHdr} (h : s.SameTxn k r) (hk : 16 ≤ k) : s.SameTxn k (r.outBegin t c f) := by
  unfold State.outBegin
  extract_lets framed q x num direct known v e d1 d2
  have pointed : s.SameTxn k q := h.ite (h.outPoint hk)
  have begun : s.SameTxn k e := State.SameTxn.mem (r := v) pointed.setOut
  exact begun.setDiscard.setDiscard.when fun h => h.setDiscard.hevc

theorem outPut {f : FrameHdr} {x : Row3} (h : s.SameTxn k r) : s.SameTxn k (r.outPut t c f i x) := by
  unfold State.outPut
  extract_lets dest y q
  have sent : s.SameTxn k q := h.setOut
  clear_value q
  dsimp only
  refine State.SameTxn.ite (sent.setOut.ite ?_) (sent.setOut.ite (State.SameTxn.ite (sent.ite sent.hevc) ?_))
  · exact sent.wrAt.when fun h => h.wrAt
  · exact (sent.ite sent.setOut).ite sent

theorem outFill {f : FrameHdr} (h : s.SameTxn k r) : s.SameTxn k (r.outFill t c f) := h.ite (h.each fun _ _ hq => hq.outPut)

theorem outEnd (h : s.SameTxn k r) : s.SameTxn k (r.outEnd t c n) := by
  unfold State.outEnd
  split
  · exact h
  · rename_i f _
    extract_lets q x st1 st2 v
    have filled : s.SameTxn k q := h.outFill
    have closed : s.SameTxn k v := filled.setOut
    refine closed.setOut.ite (closed.setReg.setOut.ite (State.SameTxn.outRecord ?_))
    exact closed.setReg.setOut.ite (closed.recFeed.setOut.ite (closed.hevc.ite closed))

theorem outBegun {f : FrameHdr} (h : s.SameTxn k r) (hk : 16 ≤ k) :
    s.SameTxn k (if (r.out t c).open_ = some f then r else r.outBegin t c f) := h.ite (h.outBegin hk)

theorem outDeliver {f : FrameHdr} {x : Row3} (h : s.SameTxn k r) (hk : 16 ≤ k) : s.SameTxn k (r.outDeliver t c f i x) :=
  (h.outBegun hk).outPut

theorem outClose {f : FrameHdr} (h : s.SameTxn k r) (hk : 16 ≤ k) : s.SameTxn k (r.outClose t c f n) := (h.outBegun hk).outEnd

theorem asmLate (h : s.SameTxn k r) : s.SameTxn k (r.asmLate t c) := by
  unfold State.asmLate
  split
  · exact h.ite h.setOut.raise
  · exact h

theorem asmEnd {x : AsmFrame} (h : s.SameTxn k r) (hk : 16 ≤ k) : s.SameTxn k (r.asmEnd t c x n) :=
  (h.outClose hk).setOut.ite (h.outClose hk).setOut.endSec

theorem asmDrain (h : s.SameTxn k r) (hk : 16 ≤ k) : s.SameTxn k (r.asmDrain t c b n) := by
  induction n generalizing r b with
  | zero => exact h
  | succ n ih =>
    unfold State.asmDrain
    dsimp only
    split
    · exact h
    · refine State.SameTxn.ite (ih ?_) ((h.asmEnd hk).ite h)
      refine State.SameTxn.when (State.SameTxn.outDeliver (h.setOut.when fun h => h.asmLate) hk) fun h => h.setOut

theorem outExchanged (h : s.SameTxn k r) : s.SameTxn k (r.outExchanged t c) := by
  have taken := h.takeExchange (t := t) (u := 7 + c) (sec := 0)
  unfold State.outExchanged
  generalize r.takeExchange t (7 + c) 0 = p at taken ⊢
  obtain ⟨q, _ | old⟩ := p
  · exact taken
  · exact State.SameTxn.when (taken.when fun h => h.setB) fun h => h.setOut

/-! ### Isolation -/

theorem wipePix (h : s.SameTxn k r) : s.SameTxn k (r.wipePix t) := h.of_bench rfl

theorem wipeCtl (h : s.SameTxn k r) : s.SameTxn k (r.wipeCtl t) := h.of_txns rfl

theorem tileOff (h : s.SameTxn k r) : s.SameTxn k (r.tileOff t) := by
  unfold State.tileOff
  extract_lets st refreshed dropped wiped off
  have refreshes : s.SameTxn k refreshed := h.when fun h => h.each fun _ _ hq => hq.selfRefresh
  have drops : s.SameTxn k dropped := refreshes.each fun _ _ hq => hq.setMcChan
  have wipes : s.SameTxn k wiped := drops.wipePix.wipeCtl
  have offs : s.SameTxn k off := wipes.setF.setF
  exact State.SameTxn.dropPackets offs.setF.setF

theorem txnsIsolated (h : s.SameTxn k r) (hk : 16 ≤ k) : s.SameTxn k (r.txnsIsolated t) := by
  refine h.each_mem fun q i hi hq => ?_
  have other : i ≠ k := Nat.ne_of_lt (Nat.lt_of_lt_of_le (List.mem_range.1 hi) hk)
  exact hq.ite (((hq.txnNoSwap other).ite hq).ite (hq.txnTryEnd other))

theorem isolate (h : s.SameTxn k r) (hk : 16 ≤ k) : s.SameTxn k (r.isolate t id n b) := by
  unfold State.isolate
  extract_lets advanced caused shown raised off kept noted unrouted drained ended
  have advances : s.SameTxn k advanced := h.setF.epochAdvance
  have raises : s.SameTxn k raised := advances.setReg.setF.raise
  have offs : s.SameTxn k off := raises.tileOff
  have notes : s.SameTxn k noted := offs.when fun h => h.setF
  have unroutes : s.SameTxn k unrouted := notes.unroute
  have drains : s.SameTxn k drained := unroutes.each fun _ _ hv => hv.each fun _ _ hq => (hq.asmDrain hk).hdAbort.ite (hq.asmDrain hk)
  have ends : s.SameTxn k ended := (drains.txnsIsolated hk).takesIsolated.magEndAll
  exact h.ite ends.burFreeze

theorem isolateDue (h : s.SameTxn k r) (hk : 16 ≤ k) : s.SameTxn k r.isolateDue := State.SameTxn.each h.evt fun _ _ hq => hq.isolate hk

theorem isolateAll (h : s.SameTxn k r) (hk : 16 ≤ k) : s.SameTxn k (r.isolateAll n) := by
  induction n generalizing r with
  | zero => exact h
  | succ n ih => exact h.ite (ih (h.isolateDue hk))

/-! ### Host commands -/

theorem setCmds {x : List HostCmd} (h : s.SameTxn k r) : s.SameTxn k (r.setCmds x) := h.host.setF.setF.setF

theorem setCmd {x : HostCmd} (h : s.SameTxn k r) : s.SameTxn k (r.setCmd x) := h.setCmds

theorem noteWrite {x : HostCmd} (h : s.SameTxn k r) : s.SameTxn k (r.noteWrite x n) := h.host.ite h

theorem loadOver {x : HostCmd} (h : s.SameTxn k r) : s.SameTxn k (r.loadOver x) := h.setCrew.ite h

theorem dropReads (h : s.SameTxn k r) : s.SameTxn k (r.dropReads n) := h.each fun _ _ hq => hq.setMag

theorem reply {x : HostCmd} {info : List Nat} (h : s.SameTxn k r) : s.SameTxn k (r.reply x n m info) := by
  unfold State.reply
  extract_lets st sent cleared dropped p logged
  have drops : s.SameTxn k dropped := h.linkSend.setCmds.noteWrite.loadOver.dropReads
  have logs : s.SameTxn k logged := drops.when fun h => h.logError
  split
  · exact logs.arbRemove
  · exact logs

theorem arbSubmit (h : s.SameTxn k r) : s.SameTxn k (r.arbSubmit n t i m b).1 := by
  unfold State.arbSubmit
  split
  · exact h
  · exact h.pwr

theorem arrive {x : HostCmd} (h : s.SameTxn k r) : s.SameTxn k (r.arrive x) := by
  unfold State.arrive
  extract_lets st q
  have acts : s.SameTxn k q := h.when fun h => h.host
  refine h.reply.ite (h.reply.ite ?_)
  split
  · exact acts
  · exact acts.arbSubmit.ite acts.reply

theorem releaseCmds (h : s.SameTxn k r) : s.SameTxn k r.releaseCmds := by
  refine h.each fun q g hq => hq.ite ?_
  split
  · exact hq.setCmd.arrive
  · exact hq

theorem hostSettle (h : s.SameTxn k r) : s.SameTxn k r.hostSettle :=
  State.SameTxn.when (h.when fun h => h.host) fun h => h.releaseCmds

/-! ### The end of a command -/

theorem actExchange (h : s.SameTxn k r) : s.SameTxn k (r.actExchange key) := by
  unfold State.actExchange
  dsimp only
  refine h.rawExchanged.ite (h.devExchanged.ite (h.outExchanged.ite (h.crExchanged.ite (h.recExchanged.ite ?_))))
  exact h.heExchanged.ite (h.hdExchanged.ite h)

theorem actExchanges (h : s.SameTxn k r) : s.SameTxn k r.actExchanges := by
  unfold State.actExchanges
  extract_lets q
  have acted : s.SameTxn k q := h.each fun _ _ hq => hq.actExchange
  exact acted.bench rfl

theorem staleContexts (h : s.SameTxn k r) : s.SameTxn k r.staleContexts := h.each fun _ _ hq => hq.heStale

theorem linksRun (h : s.SameTxn k r) : s.SameTxn k r.linksRun := h.each fun _ _ hq => hq.linkWatch.when fun h => h.linkPump

end State.SameTxn

/-- Where a transaction that has ended is freed, the same transactions are decided as before. -/
theorem freed_decided (s : State) {b : Bool} {i : Nat} (hb : b = true → (s.txn i).state = 4) (k : Nat) :
    ((s.when b fun s => s.txnFree i).txn k).state = 3 ↔ (s.txn k).state = 3 := by
  cases b with
  | false => exact Iff.rfl
  | true =>
    by_cases hi : i = k
    · subst hi
      simp [State.when, txnFree_txn (hb rfl), hb rfl]
    · have kept : (s.txnFree i).txn k = s.txn k := (State.SameTxn.refl s).txnFree hi
      rw [← kept]
      rfl

theorem freeEnded_decided (s : State) (k : Nat) : (s.freeEnded.txn k).state = 3 ↔ (s.txn k).state = 3 :=
  each_induct (fun r => (r.txn k).state = 3 ↔ (s.txn k).state = 3) s _ _ Iff.rfl fun r _ _ hr =>
    (freed_decided r (fun h => by simp only [Bool.and_eq_true, beq_iff_eq] at h; exact h.1.1) k).trans hr

/-- What follows within a command neither decides a transaction beyond the 16 ids nor ends one that is decided. -/
theorem settle_decided (s : State) {k : Nat} (hk : 16 ≤ k) : (s.settle.txn k).state = 3 ↔ (s.txn k).state = 3 := by
  have before := (((State.SameTxn.refl (k := k) s).actExchanges).isolateAll (n := 8) hk).staleContexts
  unfold State.settle
  generalize (s.actExchanges.isolateAll 8).staleContexts = q at before ⊢
  have after := ((State.SameTxn.refl (k := k) q.freeEnded).hostSettle).linksRun
  unfold State.SameTxn at before after
  rw [after, freeEnded_decided, before]

theorem ended_bench (s r : State) : (s.ended r).bench = r.settle.bench := by
  unfold State.ended
  generalize r.settle = q
  rfl

/-- Effects that end a command in one state decide the same transactions beyond the 16 ids. -/
theorem ended_decided {s q r : State} {k : Nat} (hk : 16 ≤ k) (h : s.ended q = s.ended r) : (q.txn k).state = 3 ↔ (r.txn k).state = 3 := by
  have benches : q.settle.bench = r.settle.bench := by rw [← ended_bench s q, h, ended_bench]
  have same : q.settle.txn k = r.settle.txn k := by
    unfold State.txn
    rw [benches]
  rw [← settle_decided q hk, same, settle_decided r hk]

/-! ### A participant that is no tile of the part -/

/-- A transaction in COMMIT whose one participant, number 9, is no tile of the part and has its answer PREPARED on its way. -/
def strayTxn : Txn := { state := 2, part := 2 ^ 9, prepared := 2 ^ 9, answerSent := 2 ^ 9 }

/-- T0 is up, and the transaction is under number 16: what the end of a command does to the transactions below it does not matter. -/
def strayState : State := (({ boot.porLow := false } : State).setReg 0 ISL_STAT 1).setTxn 16 strayTxn

theorem strayState_txn : strayState.txn 16 = strayTxn := txn_setTxn_same ..

/-- The coordinator waits for no report where no participant is a tile: the last answer ends the transaction (R58). -/
theorem strayState_ends : ((strayState.answerReceive 16 9).txn 16).state = 4 := by decide

/-- Refutes O32: the clause on the last answer of an IMMEDIATE commit does not say that the tile that answers is one of the part. Where
the only participant is none, no report is waited for, and the transaction that the answer decides ends at once: it is ENDED, not
DECIDED. -/
theorem not_commitProtocolCommandsComplete : ¬ Obligations.CommitProtocolCommandsComplete := by
  unfold Obligations.CommitProtocolCommandsComplete
  intro claim
  obtain ⟨-, -, last, -⟩ := claim 16 9 strayState
  rw [strayState_txn] at last
  have home : strayState.live 0 0 = true ∧ strayState.msgOpen 0 9 = true := by decide
  have outside : ∀ v, v < strayState.tiles → bit strayTxn.part v = false := by decide
  obtain ⟨r, hr, decided, -⟩ := last home (by decide) rfl rfl rfl rfl (by decide) (by decide) (by decide) (by decide) (by decide)
    (fun u j _ _ => by simp [Txn.holds, strayTxn]) fun v hv hp => absurd hp (by rw [outside v hv]; decide)
  have runs : exec (.txnPreparedReceive 16 9) strayState = .next (strayState.ended (strayState.answerReceive 16 9)) := by
    have guard : (strayState.live (strayState.txn 16).tile 0 && strayState.msgOpen (strayState.txn 16).tile 9) = true := by
      rw [strayState_txn]
      decide
    exact finish_when_pos strayState (fun s => s.answerReceive 16 9) guard
  have same : strayState.ended (strayState.answerReceive 16 9) = strayState.ended r := by
    rw [runs] at hr
    exact Host.Outcome.next.inj hr
  have ended := (ended_decided (Nat.le_refl 16) same).2 decided
  rw [strayState_ends] at ended
  cases ended

end Sys2Proof.Machine

/-!
# How a crew's instruction ends otherwise

Jumps and exceptions of an instruction's act (R91, R95), and the rows of the words that carry only a major opcode, a message, a
descriptor or a system function (R72, R85, R86, R89).
-/

namespace Sys2Proof.Machine

/-! ### Rows -/

theorem insnRow_major {w k : Nat} (h : opOf w = k)
    (hk : k ≤ 0x0B ∨ 0x10 ≤ k ∧ k ≤ 0x16 ∨ 0x18 ≤ k ∧ k ≤ 0x1C ∨ 0x20 ≤ k ∧ k ≤ 0x22) : insnRow w = some (k * 256) := by
  subst h
  exact if_pos hk

theorem insnRow_transport {w k : Nat} (h : opOf w = k) (hk : k = 0x34 ∨ k = 0x35) : insnRow w = some (k * 256 + bits w 0 1) := by
  rcases hk with rfl | rfl <;> simp [insnRow, h]

theorem insnRow_system {w k : Nat} (h : opOf w = 0x3F) (hs : subOf w = k) (hk : k ∈ [0, 1, 2, 3, 4, 5, 8, 9, 10]) :
    insnRow w = some (0x3F00 + k) := by
  subst hs
  simp [insnRow, h, hk]

/-! ### Jumps and exceptions -/

section
variable {s u : State} {t c w : Nat} {x y : Crew}

/-- A crew with a handler that takes an exception enters it; nothing but the crew changes (R91). -/
theorem State.OnlyCrew.crewExc (h : s.OnlyCrew u t c x) (hc : c < 8) (hv : x.evec ≠ 0) (hi : x.inexc = false) (cause code eval epc : Nat) :
    s.OnlyCrew (u.crewExc t c cause code eval epc) t c (x.excepted s.now cause code eval epc) := by
  have now : u.now = s.now := by rw [h.1]
  unfold State.crewExc
  rw [h.2.1, now]
  dsimp only
  rw [if_neg (by simp [hv, hi])]
  exact h.setCrew hc _

/-- An instruction that jumps having changed its crew only (R72). -/
theorem does_jump_only {i : Instr} {k dest : Nat} {act : State → Nat → Act} (h : s.Issues t c w)
    (hx : exec i s = s.finish (s.when (s.live t 0) fun s => s.crewIssue t c k act)) (hk : insnRow w = some k)
    (ha : act (s.refetched t c) w = .jump u dest) (hu : s.OnlyCrew u t c y) :
    Does i s fun r => s.OnlyCrew r t c (y.completed s.now dest) := by
  refine does_when hx h.live ?_
  rw [h.crewIssue hk, ha]
  exact hu.crewDone h.crew_lt dest

/-- An instruction that raises an exception, for a crew with a handler (R91). -/
theorem does_exc_only {i : Instr} {k cause e : Nat} {act : State → Nat → Act} (h : s.Issues t c w)
    (hx : exec i s = s.finish (s.when (s.live t 0) fun s => s.crewIssue t c k act)) (hk : insnRow w = some k)
    (ha : act (s.refetched t c) w = .exc (s.refetched t c) cause e) (hv : (s.crew t c).evec ≠ 0) (hi : (s.crew t c).inexc = false) :
    Does i s fun r => s.OnlyCrew r t c ((s.crew t c).excepted s.now cause (trapCode cause w) (evalOf cause e)
      (if cause = 8 then ((s.crew t c).pc + 4) % 2 ^ 64 else (s.crew t c).pc)) := by
  refine does_when hx h.live ?_
  rw [h.crewIssue hk, ha]
  simpa only [State.crewEnd, refetched_crew] using (onlyCrew_refetched s t c).crewExc h.crew_lt hv hi cause _ _ _

/-- An instruction whose word breaks a rule of its row, for a crew with a handler (R71, R91). -/
theorem does_illegal {i : Instr} {k : Nat} {act : State → Nat → Act} (h : s.Issues t c w)
    (hx : exec i s = s.finish (s.when (s.live t 0) fun s => s.crewIssue t c k act)) (hk : insnRow w = some k)
    (ha : act (s.refetched t c) w = (s.refetched t c).illegal w) (hv : (s.crew t c).evec ≠ 0) (hi : (s.crew t c).inexc = false) :
    Does i s fun r => s.OnlyCrew r t c ((s.crew t c).excepted s.now 0 0 w (s.crew t c).pc) :=
  does_exc_only h hx hk ha hv hi

end

end Sys2Proof.Machine

/-!
# Register-ALU functions

What the functions of OPR give, as 64-bit values (R73), and what OPR does with them.
-/

namespace Sys2Proof.Machine

/-! ### Numbers and 64-bit values -/

theorem gr_eq_val (x : Crew) (i : Nat) : x.gr i = (x.val i).toNat := by
  unfold Crew.gr Crew.val
  split <;> rfl

theorem ofNat_of_toNat {w v : Nat} {V : BitVec w} (h : v = V.toNat) : BitVec.ofNat w v = V := by
  rw [h, BitVec.ofNat_toNat, BitVec.setWidth_eq]

/-- A general register takes a number as a 64-bit value. -/
theorem setG_of_value (x : Crew) (i : Nat) {v : Nat} {V : BitVec 64} (h : BitVec.ofNat 64 v = V) : x.setG i v = x.setG i V.toNat := by
  unfold Crew.setG
  rw [h, ofNat_of_toNat rfl]

/-- The two's complement reading of the low bits is the integer that the bit vector of that width stands for. -/
theorem sx_eq_toInt {w : Nat} (hw : 0 < w) (n : Nat) : sx w n = (BitVec.ofNat w n).toInt := by
  have double : 2 * 2 ^ (w - 1) = 2 ^ w := by rw [← Nat.pow_succ', Nat.succ_eq_add_one, Nat.sub_add_cancel hw]
  rw [sx, BitVec.toInt_eq_toNat_cond, BitVec.toNat_ofNat]
  by_cases h : n % 2 ^ w < 2 ^ (w - 1)
  · rw [if_pos h, if_pos (by omega)]
  · rw [if_neg h, if_neg (by omega)]

theorem sx_toNat (A : BitVec 64) : sx 64 A.toNat = A.toInt := by
  rw [sx_eq_toInt (by decide), ofNat_of_toNat rfl]

theorem ux_eq_toNat (w : Nat) (i : Int) : ux w i = (BitVec.ofInt w i).toNat := (BitVec.toNat_ofInt i).symm

theorem ofNat_ux (i : Int) : BitVec.ofNat 64 (ux 64 i) = BitVec.ofInt 64 i := ofNat_of_toNat (ux_eq_toNat 64 i)

theorem ofNat_sext {w : Nat} (hw : 0 < w) (n : Nat) : BitVec.ofNat 64 (sext w n) = (BitVec.ofNat w n).signExtend 64 := by
  rw [sext, ofNat_ux, sx_eq_toInt hw]
  rfl

/-! ### The functions of R73 -/

section
variable (A B : BitVec 64)

theorem alu_add : BitVec.ofNat 64 ((A.toNat + B.toNat) % m64) = A + B := by
  apply BitVec.eq_of_toNat_eq
  simp [m64]

theorem alu_sub : BitVec.ofNat 64 ((A.toNat + m64 - B.toNat) % m64) = A - B := by
  apply BitVec.eq_of_toNat_eq
  have := B.isLt
  simp only [m64, BitVec.toNat_ofNat, Nat.mod_mod, BitVec.toNat_sub]
  congr 1
  omega

theorem alu_and : BitVec.ofNat 64 (A.toNat &&& B.toNat) = A &&& B := ofNat_of_toNat (BitVec.toNat_and ..).symm

theorem alu_or : BitVec.ofNat 64 (A.toNat ||| B.toNat) = A ||| B := ofNat_of_toNat (BitVec.toNat_or ..).symm

theorem alu_xor : BitVec.ofNat 64 (A.toNat ^^^ B.toNat) = A ^^^ B := ofNat_of_toNat (BitVec.toNat_xor ..).symm

theorem alu_andn : BitVec.ofNat 64 (A.toNat &&& (m64 - 1 - B.toNat)) = A &&& ~~~B := by
  rw [← alu_and, BitVec.toNat_not]
  rfl

theorem shift_left (n : Nat) : BitVec.ofNat 64 (shift64 0 A.toNat n) = A <<< n := by
  apply BitVec.eq_of_toNat_eq
  simp [shift64, m64]

theorem shift_right (n : Nat) : BitVec.ofNat 64 (shift64 1 A.toNat n) = A >>> n := ofNat_of_toNat (BitVec.toNat_ushiftRight ..).symm

theorem shift_arithmetic (n : Nat) : BitVec.ofNat 64 (shift64 2 A.toNat n) = A.sshiftRight n := by
  show BitVec.ofNat 64 (ux 64 (sra (sx 64 A.toNat) n)) = _
  rw [ofNat_ux, sx_toNat, sra, Int.fdiv_eq_ediv_of_nonneg _ (Int.natCast_nonneg _), ← Int.shiftRight_eq_div_pow, ← BitVec.toInt_sshiftRight,
    BitVec.ofInt_toInt]

theorem rotate_right (n : Nat) (hn : n < 64) : BitVec.ofNat 64 (shift64 3 A.toNat n) = A.rotateRight n := by
  apply BitVec.eq_of_toNat_eq
  show (BitVec.ofNat 64 (ror64 A.toNat n)).toNat = _
  rw [BitVec.rotateRight_def, Nat.mod_eq_of_lt hn, BitVec.toNat_or, BitVec.toNat_ushiftRight, BitVec.toNat_shiftLeft, BitVec.toNat_ofNat,
    ror64, m64, Nat.mod_mod, Nat.or_mod_two_pow, Nat.mod_eq_of_lt (Nat.lt_of_le_of_lt (Nat.shiftRight_le ..) A.isLt)]

theorem alu_mul : BitVec.ofNat 64 (A.toNat * B.toNat % m64) = A * B := by
  apply BitVec.eq_of_toNat_eq
  simp [m64]

theorem alu_mulh : BitVec.ofNat 64 (ux 64 (sra (sx 64 A.toNat * sx 64 B.toNat) 64)) = BitVec.ofInt 64 ((A.toInt * B.toInt).fdiv (2 ^ 64)) := by
  rw [ofNat_ux, sx_toNat, sx_toNat]
  rfl

theorem alu_div (h : B ≠ 0) : BitVec.ofNat 64 (divS A.toNat B.toNat) = A.sdiv B := by
  have nonzero : B.toNat ≠ 0 := fun e => h (BitVec.eq_of_toNat_eq e)
  rw [divS, if_neg nonzero, ofNat_ux, sx_toNat, sx_toNat]
  apply BitVec.eq_of_toInt_eq
  rw [BitVec.toInt_ofInt, BitVec.toInt_sdiv]

theorem alu_divu (h : B ≠ 0) : BitVec.ofNat 64 (divU A.toNat B.toNat) = A / B := by
  have nonzero : B.toNat ≠ 0 := fun e => h (BitVec.eq_of_toNat_eq e)
  rw [divU, if_neg nonzero, ← BitVec.toNat_udiv, ofNat_of_toNat rfl]

theorem alu_rem (h : B ≠ 0) : BitVec.ofNat 64 (remS A.toNat B.toNat) = A.srem B := by
  have nonzero : B.toNat ≠ 0 := fun e => h (BitVec.eq_of_toNat_eq e)
  rw [remS, if_neg nonzero, ofNat_ux, sx_toNat, sx_toNat, ← BitVec.toInt_srem, BitVec.ofInt_toInt]

theorem alu_remu (h : B ≠ 0) : BitVec.ofNat 64 (remU A.toNat B.toNat) = A % B := by
  have nonzero : B.toNat ≠ 0 := fun e => h (BitVec.eq_of_toNat_eq e)
  rw [remU, if_neg nonzero, ← BitVec.toNat_umod, ofNat_of_toNat rfl]

theorem alu_sxw : BitVec.ofNat 64 (sext 32 A.toNat) = (A.setWidth 32).signExtend 64 := by
  rw [ofNat_sext (by decide), BitVec.ofNat_toNat]

/-- Of a number only the low 32 bits take part in its sign extension from 32 bits. -/
theorem sext32_of_value {n : Nat} {V : BitVec 64} (h : BitVec.ofNat 64 (n % m64) = V) :
    BitVec.ofNat 64 (sext 32 n) = (V.setWidth 32).signExtend 64 := by
  subst h
  rw [ofNat_sext (by decide)]
  congr 1
  apply BitVec.eq_of_toNat_eq
  simp [m64]

theorem alu_min : (if sx 64 A.toNat ≤ sx 64 B.toNat then A.toNat else B.toNat) = (if A.toInt ≤ B.toInt then A else B).toNat := by
  rw [sx_toNat, sx_toNat]
  split <;> rfl

theorem alu_max : (if sx 64 A.toNat ≤ sx 64 B.toNat then B.toNat else A.toNat) = (if A.toInt ≤ B.toInt then B else A).toNat := by
  rw [sx_toNat, sx_toNat]
  split <;> rfl

theorem alu_minu : min A.toNat B.toNat = (if A.toNat ≤ B.toNat then A else B).toNat := by
  rw [Nat.min_def]
  split <;> rfl

theorem alu_maxu : max A.toNat B.toNat = (if A.toNat ≤ B.toNat then B else A).toNat := by
  rw [Nat.max_def]
  split <;> rfl

end

/-- The leading zeros of a 64-bit number are v where its highest one is bit 63 - v. -/
theorem clz64_eq {a v : Nat} (hv : v ≤ 64) (hi : a < 2 ^ (64 - v)) (lo : v < 64 → 2 ^ (63 - v) ≤ a) : clz64 a = v := by
  unfold clz64
  rcases Nat.lt_or_eq_of_le hv with h | rfl
  · have top := lo h
    have pos : a ≠ 0 := fun e => by
      have := Nat.two_pow_pos (63 - v)
      omega
    have log : a.log2 = 63 - v := (Nat.log2_eq_iff pos).2 ⟨top, by rwa [show 63 - v + 1 = 64 - v by omega]⟩
    rw [if_neg pos, log]
    omega
  · exact if_pos (by simpa using hi)

/-- The trailing zeros of a 64-bit number are v where its lowest one is bit v. -/
theorem ctz64_eq {a v : Nat} (hv : v ≤ 64) (low : a % 2 ^ v = 0) (one : v < 64 → a % 2 ^ (v + 1) ≠ 0) : ctz64 a = v := by
  have zeros : ∀ j, j < v → a.testBit j = false := fun j hj => by
    have := Nat.testBit_mod_two_pow a v j
    rw [low] at this
    simpa [hj] using this.symm
  unfold ctz64
  rcases Nat.lt_or_eq_of_le hv with h | rfl
  · have set : a.testBit v = true := by
      by_contra clear
      refine one h (Nat.eq_of_testBit_eq fun j => ?_)
      rw [Nat.testBit_mod_two_pow, Nat.zero_testBit]
      rcases Nat.lt_trichotomy j v with lt | rfl | gt
      · simp [zeros j lt]
      · simp [clear]
      · simp [show ¬ j < v + 1 by omega]
    rw [List.find?_range_eq_some.2 ⟨set, List.mem_range.2 h, fun j hj => by simp [zeros j hj]⟩]
    rfl
  · rw [List.find?_range_eq_none.2 fun j hj => by simp [zeros j hj]]
    rfl

/-! ### The instruction -/

section
variable {s : State} {t c w f : Nat}

/-- A function of the table gives gd its value (R73). -/
theorem does_opr {v : Nat} {one : Bool} {V : BitVec 64} (h : s.Issues t c w) (ho : opOf w = 0)
    (hv : aluOf f ((s.crew t c).val (gaOf w)).toNat ((s.crew t c).val (gbOf w)).toNat = some (v, one)) (hV : BitVec.ofNat 64 v = V)
    (low : f < 256 ∧ f ≠ 0x40) (hone : one = true → gbOf w = 0) (hf : funcOf w = f) :
    Does (.opr t c) s fun r => s.OnlyCrew r t c (((s.crew t c).setG (gdOf w) V.toNat).completed s.now ((s.crew t c).pc + 4)) := by
  rw [← setG_of_value _ _ hV]
  refine does_result_only h rfl (insnRow_major ho (by decide)) ?_
  have zero : ¬((one && gbOf w != 0) = true) := by
    cases one
    · simp
    · simp [hone rfl]
  unfold actOpr
  dsimp only
  rw [hf, refetched_crew, if_neg (by omega), if_neg (by omega), gr_eq_val, gr_eq_val, hv]
  exact if_neg zero

/-- SEL takes its predicate from func[10:8] (R73). -/
theorem does_opr_sel {p : Nat} (h : s.Issues t c w) (ho : opOf w = 0) (hf : funcOf w = p * 0x100 + 0x40) :
    Does (.opr t c) s fun r => s.OnlyCrew r t c (((s.crew t c).setG (gdOf w)
      (if (s.crew t c).pr p then (s.crew t c).val (gaOf w) else (s.crew t c).val (gbOf w)).toNat).completed s.now
        ((s.crew t c).pc + 4)) := by
  have value : (if (s.crew t c).pr p then (s.crew t c).val (gaOf w) else (s.crew t c).val (gbOf w)).toNat =
      if (s.crew t c).pr p then (s.crew t c).gr (gaOf w) else (s.crew t c).gr (gbOf w) := by
    rw [gr_eq_val, gr_eq_val]
    split <;> rfl
  rw [value]
  refine does_result_only h rfl (insnRow_major ho (by decide)) ?_
  unfold actOpr
  dsimp only
  rw [hf, refetched_crew, if_pos (by omega), show (p * 0x100 + 0x40) / 256 = p by omega]

/-- A function of one operand traps where gb is not g0 (R71, R73). -/
theorem does_opr_second {v : Nat} (h : s.Issues t c w) (ho : opOf w = 0)
    (hv : aluOf (funcOf w) ((s.crew t c).gr (gaOf w)) ((s.crew t c).gr (gbOf w)) = some (v, true)) (low : funcOf w < 256 ∧ funcOf w ≠ 0x40)
    (hb : gbOf w ≠ 0) (he : (s.crew t c).evec ≠ 0) (hi : (s.crew t c).inexc = false) :
    Does (.opr t c) s fun r => s.OnlyCrew r t c ((s.crew t c).excepted s.now 0 0 w (s.crew t c).pc) := by
  refine does_illegal h rfl (insnRow_major ho (by decide)) ?_ he hi
  unfold actOpr
  dsimp only
  rw [refetched_crew, if_neg (by omega), if_neg (by omega), hv]
  exact if_pos (by simpa using hb)

/-- For every function except SEL, func[10:8] must be 0 (R73). -/
theorem does_opr_high (h : s.Issues t c w) (ho : opOf w = 0) (high : 256 ≤ funcOf w) (hs : funcOf w % 256 ≠ 0x40)
    (he : (s.crew t c).evec ≠ 0) (hi : (s.crew t c).inexc = false) :
    Does (.opr t c) s fun r => s.OnlyCrew r t c ((s.crew t c).excepted s.now 0 0 w (s.crew t c).pc) := by
  refine does_illegal h rfl (insnRow_major ho (by decide)) ?_ he hi
  unfold actOpr
  dsimp only
  rw [if_neg hs, if_pos high]

end

/-- Settles O24: the value of each row of R73, and the words that trap. -/
theorem oprFunctionsGiveR73Results : Obligations.OprFunctionsGiveR73Results := by
  unfold Obligations.OprFunctionsGiveR73Results
  intro t c w s h ho x A B n gives traps
  have two : ∀ {f v : Nat} {V : BitVec 64}, aluOf f A.toNat B.toNat = some (v, false) → BitVec.ofNat 64 v = V → f < 256 ∧ f ≠ 0x40 →
      funcOf w = f → gives V := fun hv hV low hf => does_opr h ho hv hV low nofun hf
  have one : ∀ {f v : Nat} {V : BitVec 64}, aluOf f A.toNat B.toNat = some (v, true) → BitVec.ofNat 64 v = V → f < 256 ∧ f ≠ 0x40 →
      funcOf w = f → gbOf w = 0 → gives V := fun hv hV low hf hb => does_opr h ho hv hV low (fun _ => hb) hf
  have shift : n < 64 := Nat.mod_lt _ (by decide)
  refine ⟨two rfl (alu_add A B) (by decide), two rfl (alu_sub A B) (by decide), two rfl (alu_and A B) (by decide),
    two rfl (alu_or A B) (by decide), two rfl (alu_xor A B) (by decide), two rfl (alu_andn A B) (by decide),
    two rfl (shift_left A n) (by decide), two rfl (shift_right A n) (by decide), two rfl (shift_arithmetic A n) (by decide),
    two rfl (rotate_right A n shift) (by decide), two rfl (alu_mul A B) (by decide), two rfl (alu_mulh A B) (by decide),
    two rfl rfl (by decide), fun hf hB => two rfl (alu_div A B hB) (by decide) hf, fun hf hB => two rfl (alu_divu A B hB) (by decide) hf,
    fun hf hB => two rfl (alu_rem A B hB) (by decide) hf, fun hf hB => two rfl (alu_remu A B hB) (by decide) hf,
    two rfl (sext32_of_value (alu_add A B)) (by decide), two rfl (sext32_of_value (alu_sub A B)) (by decide),
    two rfl (sext32_of_value (alu_mul A B)) (by decide), two rfl (ofNat_of_toNat (alu_min A B)) (by decide), two rfl (ofNat_of_toNat (alu_max A B)) (by decide),
    two rfl (ofNat_of_toNat (alu_minu A B)) (by decide), two rfl (ofNat_of_toNat (alu_maxu A B)) (by decide), fun p _ hf => does_opr_sel h ho hf,
    fun v hf hb hv hi lo => ?_, fun v hf hb hv low lowest => ?_, one rfl rfl (by decide), one rfl (alu_sxw A) (by decide),
    fun hf hb he hi => ?_, does_opr_high h ho⟩
  · exact one rfl (congrArg _ (clz64_eq hv hi lo)) (by decide) hf hb
  · exact one rfl (congrArg _ (ctz64_eq hv low lowest)) (by decide) hf hb
  · simp only [List.mem_cons, List.not_mem_nil, or_false] at hf
    rcases hf with hf | hf | hf | hf <;> exact does_opr_second h ho (by rw [hf]; rfl) (by rw [hf]; decide) hb he hi

end Sys2Proof.Machine

/-!
# Immediates, shifts, compares and predicates

What the instructions of R72 and R75 do that read and write registers of their crew only.
-/

namespace Sys2Proof.Machine

/-- A number and the 64-bit form of an integer add up to the 64-bit form of the sum. -/
theorem add_ux (a : Nat) (i : Int) : (a + ux 64 i) % m64 = ux 64 (a + i) := by
  unfold ux m64
  omega

section
variable {s : State} {t c w : Nat} {y : Crew}

/-- An instruction that changes its crew and completes. -/
theorem does_crew_only {i : Instr} {k : Nat} {act : State → Nat → Act} (h : s.Issues t c w)
    (hx : exec i s = s.finish (s.when (s.live t 0) fun s => s.crewIssue t c k act)) (hk : insnRow w = some k)
    (ha : act (s.refetched t c) w = .next ((s.refetched t c).setCrew t c y)) :
    Does i s fun r => s.OnlyCrew r t c (y.completed s.now ((s.crew t c).pc + 4)) :=
  does_next_only h hx hk ha ((onlyCrew_refetched s t c).setCrew h.crew_lt y)

/-- SHI gives gd what its kind of shift makes of ga (R72). -/
theorem does_shi {v k n : Nat} (h : s.Issues t c w) (ho : opOf w = 5) (hz : bits w 8 8 = 0) (hk : bits w 6 2 = k) (hn : bits w 0 6 = n)
    (hv : shift64 k ((s.crew t c).gr (gaOf w)) n = v) :
    Does (.shi t c) s fun r => s.OnlyCrew r t c (((s.crew t c).setG (gdOf w) v).completed s.now ((s.crew t c).pc + 4)) := by
  refine does_result_only h rfl (insnRow_major ho (by decide)) ((mustZero_of_zero hz).trans ?_)
  rw [hk, hn, refetched_gr, hv]

theorem does_shi_rotate (h : s.Issues t c w) (ho : opOf w = 5) (hz : bits w 8 8 = 0) (hk : bits w 6 2 = 3) :
    Does (.shi t c) s fun r => s.OnlyCrew r t c (((s.crew t c).setG (gdOf w)
      (((s.crew t c).val (gaOf w)).rotateRight (bits w 0 6)).toNat).completed s.now ((s.crew t c).pc + 4)) := by
  rw [← setG_of_value _ _ (rotate_right _ _ (bits_lt w 0 6)), ← gr_eq_val]
  exact does_shi h ho hz hk rfl rfl

/-- CMP and CMPI set the predicate in [23:21] (R75). -/
theorem does_cmp (h : s.Issues t c w) (ho : opOf w = 9) (h2 : bits w 24 2 = 0) (h8 : bits w 3 8 = 0) :
    Does (.cmp t c) s fun r => s.OnlyCrew r t c (((s.crew t c).setP (bits w 21 3)
      (condOf (bits w 0 3) ((s.crew t c).gr (gaOf w)) ((s.crew t c).gr (gbOf w)))).completed s.now ((s.crew t c).pc + 4)) := by
  refine does_crew_only h rfl (insnRow_major ho (by decide)) ((mustZero_of_zero (by rw [h2, h8])).trans ?_)
  dsimp only
  rw [refetched_crew]

theorem does_cmpi (h : s.Issues t c w) (ho : opOf w = 10) (h2 : bits w 24 2 = 0) :
    Does (.cmpi t c) s fun r => s.OnlyCrew r t c (((s.crew t c).setP (bits w 21 3)
      (condOf (bits w 13 3) ((s.crew t c).gr (gaOf w)) (ux 64 (sx 13 (bits w 0 13))))).completed s.now ((s.crew t c).pc + 4)) := by
  refine does_crew_only h rfl (insnRow_major ho (by decide)) ((mustZero_of_zero h2).trans ?_)
  dsimp only
  rw [refetched_crew]
  rfl

/-- PSET combines predicates; the fields that its operation does not use are 0 (R75). -/
theorem does_pset (h : s.Issues t c w) (ho : opOf w = 11) (hd : bits w 24 2 = 0) (ha : bits w 19 2 = 0) (hb : bits w 14 2 = 0)
    (hf : bits w 3 8 = 0) (one : 5 ≤ bits w 0 3 → bits w 11 3 = 0) (none : 6 ≤ bits w 0 3 → bits w 16 3 = 0) :
    Does (.pset t c) s fun r => s.OnlyCrew r t c (((s.crew t c).setP (bits w 21 3)
      (psetOf (bits w 0 3) ((s.crew t c).pr (bits w 16 3)) ((s.crew t c).pr (bits w 11 3)))).completed s.now ((s.crew t c).pc + 4)) := by
  have unused : (if 5 ≤ bits w 0 3 then bits w 11 3 else 0) + (if 6 ≤ bits w 0 3 then bits w 16 3 else 0) = 0 := by
    rw [ite_eq_right_iff.2 one, ite_eq_right_iff.2 none]
  refine does_crew_only h rfl (insnRow_major ho (by decide)) ?_
  unfold actPset
  dsimp only
  rw [mustZero_of_zero (by rw [hd, ha, hb, hf, unused]), refetched_crew]

end

/-- Settles O25: each instruction gives gd its value or sets its predicate, and completes (R72, R75). -/
theorem crewRegisterInstructionsComplete : Obligations.CrewRegisterInstructionsComplete := by
  unfold Obligations.CrewRegisterInstructionsComplete
  intro t c w s h x a b imm only gives
  have ga : ∀ i, (s.refetched t c).gr t c i = x.gr i := refetched_gr s t c t c
  refine ⟨fun ho => does_result_only h rfl (insnRow_major ho (by decide)) ?_, fun ho => does_result_only h rfl (insnRow_major ho (by decide)) ?_,
    fun ho => does_result_only h rfl (insnRow_major ho (by decide)) ?_, fun ho => does_result_only h rfl (insnRow_major ho (by decide)) ?_,
    fun ho hz hk => does_shi h ho hz hk rfl (congrArg (· % 2 ^ 64) (Nat.shiftLeft_eq ..)),
    fun ho hz hk => does_shi h ho hz hk rfl (Nat.shiftRight_eq_div_pow ..), fun ho hz hk => does_shi h ho hz hk rfl rfl, does_shi_rotate h,
    fun ho hz => does_result_only h rfl (insnRow_major ho (by decide)) (mustZero_of_zero hz),
    fun ho hz => does_result_only h rfl (insnRow_major ho (by decide)) ((mustZero_of_zero hz).trans ?_),
    fun ho hz => does_result_only h rfl (insnRow_major ho (by decide)) ((mustZero_of_zero hz).trans ?_), does_cmp h, does_cmpi h, does_pset h⟩
  · rw [actAddi, ga, sext, add_ux]
  · rw [actAndi, ga]
  · rw [actOri, ga]
  · rw [actXori, ga]
  · rw [ga]
  · rw [ga]

end Sys2Proof.Machine

/-!
# Loads, stores and atomics of TCM

What a crew's access to a TCM word leaves (R64 to R66, R69, R76). First the word itself, then the accesses, then the instructions.
-/

namespace Sys2Proof.Machine

/-! ### The place of an address (R64, R65) -/

/-- Crews 2 to 7 are application crews (R49). -/
theorem appCrew_whoCrew (t : Nat) {c : Nat} (hc : c < 8) : appCrew (whoCrew t c) = decide (2 ≤ c) := by
  have number : (1 + 8 * t + c - 1) % 8 = c := by omega
  have crew : 1 + 8 * t + c ≠ 0 := by omega
  unfold appCrew sysWho whoCrew
  rw [number, decide_eq_false crew, bne_iff_ne.2 crew]
  by_cases h : c < 2
  · simp [h]
  · simp [h, Nat.not_lt.1 h]

theorem tcmIndex_of_lt {a : Nat} (ha : a < 0x100000) : ∃ w, tcmIndex a = some w ∧ w < 131072 := by
  unfold tcmIndex
  by_cases h : a < 0x80000
  · exact ⟨a / 8, if_pos h, by omega⟩
  · exact ⟨65536 + (a - 0x80000) / 8, (if_neg h).trans (if_pos ha), by omega⟩

theorem placeOf_tcm (t : Nat) {a : Nat} (ha : a < 0x100000) : placeOf t a = .tcm (decide (a < 0x80000)) ((tcmIndex a).getD 0) := by
  obtain ⟨w, hw, -⟩ := tcmIndex_of_lt ha
  unfold placeOf
  rw [hw]
  rfl

theorem tcmIndex_lt {a : Nat} (ha : a < 0x100000) : (tcmIndex a).getD 0 < 131072 := by
  obtain ⟨w, hw, lt⟩ := tcmIndex_of_lt ha
  rwa [hw]

theorem tcmKey_ne {t u w i : Nat} (hw : w < 131072) (hi : i < 131072) (h : ¬(u = t ∧ i = w)) : tk t w ≠ tk u i :=
  tk_ne (by omega) (by omega) fun e => h ⟨(Prod.mk.inj e).1.symm, (Prod.mk.inj e).2.symm⟩

/-- An aligned access of 1, 2, 4 or 8 bytes lies within one word. -/
theorem fits_of_aligned {a n : Nat} (hn : n ∈ [1, 2, 4, 8]) (h : a % n = 0) : a % 8 + n ≤ 8 := by
  simp only [List.mem_cons, List.not_mem_nil, or_false] at hn
  rcases hn with rfl | rfl | rfl | rfl <;> omega

/-! ### A TCM word read and written (R69) -/

section
variable {s r q : State} {t c a n b v w : Nat} {x : Crew} {m p : Bool}

/-- A word without parity flips is read as it is, and reading it changes nothing. -/
theorem tcmRead_clean (h : smGet s.core.tcmParity (tk t w) 0 = 0) : s.tcmRead t w = (s, s.tcmWord t w, s.tcmMarked t w) := by
  unfold State.tcmRead
  rw [if_pos h]

theorem sramWritten_idle (k : Nat) (h : s.on t SRAM_INJ_ARMED = false) : s.sramWritten t k = s := by
  unfold State.sramWritten
  rw [h]
  exact if_neg fun h => Bool.noConfusion h.1

/-- Of the words of TCM only word w of tile t differs: it is v, with the poison mark m. Nothing outside the core differs. -/
structure State.StoresWord (s r : State) (t w v : Nat) (m : Bool) : Prop where
  frame : r = { s with core := r.core }
  word : r.tcmWord t w = v
  mark : r.tcmMarked t w = m
  others : ∀ u i, i < 131072 → ¬(u = t ∧ i = w) → r.tcmWord u i = s.tcmWord u i ∧ r.tcmMarked u i = s.tcmMarked u i

theorem State.StoresWord.now_eq (h : s.StoresWord r t w v m) : r.now = s.now := by rw [h.frame]

theorem tcmWord_lt (s : State) (t w : Nat) : s.tcmWord t w < 2 ^ 64 := BitVec.isLt _

/-- A word with its new bytes and its new mark, before the injector and the parity bits. -/
def State.tcmStored (s : State) (t w b n v : Nat) (poison : Bool) : State :=
  ({ s with core.tcm := smPut s.core.tcm (tk t w) (BitVec.ofNat 64 (setBits (s.tcmWord t w) (8 * b) (8 * n) v)) 0 } : State).setTcmMark t w
    (if n = 8 then poison else poison || s.tcmMarked t w)

theorem tcmWrite_eq (s : State) (t w b n v : Nat) (p : Bool) : s.tcmWrite t w b n v p =
    { (s.tcmStored t w b n v p).sramWritten t (tcmSram w) with core.tcmParity := (s.tcmWrite t w b n v p).core.tcmParity } := rfl

theorem tcmStored_word (s : State) (t w b n v : Nat) (p : Bool) (hb : b + n ≤ 8) :
    (s.tcmStored t w b n v p).tcmWord t w = setBits (s.tcmWord t w) (8 * b) (8 * n) v := by
  show (smGet (smPut s.core.tcm (tk t w) _ 0) (tk t w) 0).toNat = _
  rw [smGet_smPut_same, BitVec.toNat_ofNat, Nat.mod_eq_of_lt (setBits_lt _ _ _ _ _ (tcmWord_lt s t w) (by omega))]

theorem tcmStored_word_ne (s : State) (v : Nat) (p : Bool) {t w u i : Nat} (h : tk t w ≠ tk u i) :
    (s.tcmStored t w b n v p).tcmWord u i = s.tcmWord u i := by
  show (smGet (smPut s.core.tcm (tk t w) _ 0) (tk u i) 0).toNat = _
  rw [smGet_smPut_ne _ _ _ _ h]
  rfl

/-- A store of n bytes at byte b of a word, with the injector not armed (R69, R425). -/
theorem tcmWrite_idle (hi : s.on t SRAM_INJ_ARMED = false) : s.tcmWrite t w b n v p =
    { s.tcmStored t w b n v p with core.tcmParity := (s.tcmWrite t w b n v p).core.tcmParity } := by
  have idle : (s.tcmStored t w b n v p).sramWritten t (tcmSram w) = s.tcmStored t w b n v p := sramWritten_idle _ hi
  rw [tcmWrite_eq, idle]

theorem tcmWrite_stores (hi : s.on t SRAM_INJ_ARMED = false) (hw : w < 131072) (hb : b + n ≤ 8) :
    s.StoresWord (s.tcmWrite t w b n v p) t w (setBits (s.tcmWord t w) (8 * b) (8 * n) v) (if n = 8 then p else p || s.tcmMarked t w) := by
  rw [tcmWrite_idle hi]
  exact ⟨rfl, tcmStored_word s t w b n v p hb, tcmMarked_setTcmMark_same _ t w _, fun u i hu hne =>
    ⟨tcmStored_word_ne s v p (tcmKey_ne hw hu hne), tcmMarked_setTcmMark_ne _ t w _ u i (tcmKey_ne hw hu hne)⟩⟩

theorem tcmWrite_crews (hi : s.on t SRAM_INJ_ARMED = false) : (s.tcmWrite t w b n v p).core.crews = s.core.crews := by
  rw [tcmWrite_idle hi]
  rfl

/-- What a crew does to its own registers leaves TCM. -/
theorem State.StoresWord.setCrew (h : s.StoresWord r t w v m) (u d : Nat) (y : Crew) : s.StoresWord (r.setCrew u d y) t w v m := by
  refine ⟨?_, h.word, h.mark, h.others⟩
  rw [h.frame]
  rfl

theorem State.CrewIs.of_crews (h : s.CrewIs r t c x) (e : q.core.crews = r.core.crews) : s.CrewIs q t c x := by
  unfold State.CrewIs State.crew at h ⊢
  rwa [e]

/-! ### Accesses (R64 to R66, R76) -/

theorem crewLoad_misaligned (h : a % n ≠ 0) : s.crewLoad t c a n = .exc s 2 := if_pos h

theorem crewStore_misaligned (h : a % n ≠ 0) : s.crewStore t c a n v = .exc s 2 := if_pos h

theorem crewLoad_tcm (hc : c < 8) (hn : a % n = 0) (ha : a < 0x100000) (priv : c < 2 ∨ s.sysRegion t a = false)
    (clean : smGet s.core.tcmParity (tk t ((tcmIndex a).getD 0)) 0 = 0) (sound : s.tcmMarked t ((tcmIndex a).getD 0) = false) :
    s.crewLoad t c a n = .ok s (bits (s.tcmWord t ((tcmIndex a).getD 0)) (8 * (a % 8)) (8 * n)) := by
  have allowed : (appCrew (whoCrew t c) && s.sysRegion t a) = false := by
    rw [appCrew_whoCrew t hc]
    rcases priv with h | h <;> simp [h]
  unfold State.crewLoad
  dsimp only
  rw [if_neg (not_not.2 hn), placeOf_tcm t ha]
  dsimp only
  rw [allowed, tcmRead_clean clean, sound]
  rfl

/-- Code TCM is written by crews 0 and 1 only (R65). -/
theorem tcm_writable (hc : c < 8) (priv : c < 2 ∨ 0x80000 ≤ a ∧ s.sysRegion t a = false) :
    (appCrew (whoCrew t c) && (decide (a < 0x80000) || s.sysRegion t a)) = false := by
  rw [appCrew_whoCrew t hc]
  rcases priv with h | ⟨h, e⟩ <;> simp [*]

theorem crewStore_tcm (hc : c < 8) (hn : a % n = 0) (ha : a < 0x100000) (priv : c < 2 ∨ 0x80000 ≤ a ∧ s.sysRegion t a = false) :
    s.crewStore t c a n v = .ok (s.tcmWrite t ((tcmIndex a).getD 0) (a % 8) n v false) 0 := by
  unfold State.crewStore
  dsimp only
  rw [if_neg (not_not.2 hn), placeOf_tcm t ha]
  dsimp only
  rw [tcm_writable hc priv]
  rfl

theorem crewAmo_tcm {op d : Nat} (hc : c < 8) (hn : a % n = 0) (ha : a < 0x100000) (priv : c < 2 ∨ 0x80000 ≤ a ∧ s.sysRegion t a = false)
    (clean : smGet s.core.tcmParity (tk t ((tcmIndex a).getD 0)) 0 = 0) (sound : s.tcmMarked t ((tcmIndex a).getD 0) = false) :
    s.crewAmo t c a n op b d = .ok (s.tcmWrite t ((tcmIndex a).getD 0) (a % 8) n
      (amoNew op n (bits (s.tcmWord t ((tcmIndex a).getD 0)) (8 * (a % 8)) (8 * n)) b d) false)
      (bits (s.tcmWord t ((tcmIndex a).getD 0)) (8 * (a % 8)) (8 * n)) := by
  unfold State.crewAmo
  rw [if_neg (not_not.2 hn), placeOf_tcm t ha]
  dsimp only
  rw [tcm_writable hc priv, tcmRead_clean clean, sound]
  rfl

end

/-- The new value of an atomic fits its width (R76). -/
theorem amoNew_lt (op n old b d : Nat) (h : old < 2 ^ (8 * n)) : amoNew op n old b d < 2 ^ (8 * n) := by
  have pos := Nat.two_pow_pos (8 * n)
  unfold amoNew
  dsimp only
  split
  · exact Nat.mod_lt _ pos
  · exact Nat.mod_lt _ pos
  · exact Nat.lt_of_le_of_lt Nat.and_le_left h
  · exact Nat.or_lt_two_pow h (Nat.mod_lt _ pos)
  · split
    · exact Nat.mod_lt _ pos
    · exact h

/-! ### The instructions (R72, R76) -/

section
variable {s : State} {t c w n k : Nat} {i : Instr}

@[simp] theorem refetched_addrOf (s : State) (t c w : Nat) : (s.refetched t c).addrOf' t c w = s.addrOf' t c w := by
  unfold State.addrOf'
  rw [refetched_gr]
  rfl

theorem does_load {ext : Nat → Nat} (h : s.Issues t c w)
    (hx : exec i s = s.finish (s.when (s.live t 0) fun s => s.crewIssue t c k fun s w => s.loadAct t c w n ext)) (hk : insnRow w = some k)
    {a : Nat} (he : s.addrOf' t c w = a) (hn : a % n = 0) (hl : a < 0x100000)
    (priv : c < 2 ∨ s.sysRegion t a = false) (clean : smGet s.core.tcmParity (tk t ((tcmIndex a).getD 0)) 0 = 0)
    (sound : s.tcmMarked t ((tcmIndex a).getD 0) = false) :
    Does i s fun r => s.OnlyCrew r t c (((s.crew t c).setG (gdOf w)
      (ext (bits (s.tcmWord t ((tcmIndex a).getD 0)) (8 * (a % 8)) (8 * n)))).completed s.now ((s.crew t c).pc + 4)) := by
  have load := crewLoad_tcm (s := s.refetched t c) h.crew_lt hn hl priv clean sound
  refine does_result_only h hx hk ?_
  unfold State.loadAct
  dsimp only
  rw [refetched_addrOf, he, load]
  rfl

theorem does_load_misaligned {ext : Nat → Nat} (h : s.Issues t c w)
    (hx : exec i s = s.finish (s.when (s.live t 0) fun s => s.crewIssue t c k fun s w => s.loadAct t c w n ext)) (hk : insnRow w = some k)
    (hn : s.addrOf' t c w % n ≠ 0) (hv : (s.crew t c).evec ≠ 0) (hi : (s.crew t c).inexc = false) :
    Does i s fun r => s.OnlyCrew r t c ((s.crew t c).excepted s.now 2 0 (s.addrOf' t c w) (s.crew t c).pc) := by
  refine does_exc_only (cause := 2) (e := s.addrOf' t c w) h hx hk ?_ hv hi
  unfold State.loadAct
  dsimp only
  rw [refetched_addrOf, crewLoad_misaligned hn]

theorem does_store_misaligned (h : s.Issues t c w)
    (hx : exec i s = s.finish (s.when (s.live t 0) fun s => s.crewIssue t c k fun s w => s.storeAct t c w n)) (hk : insnRow w = some k)
    (hn : s.addrOf' t c w % n ≠ 0) (hv : (s.crew t c).evec ≠ 0) (hi : (s.crew t c).inexc = false) :
    Does i s fun r => s.OnlyCrew r t c ((s.crew t c).excepted s.now 2 0 (s.addrOf' t c w) (s.crew t c).pc) := by
  refine does_exc_only (cause := 2) (e := s.addrOf' t c w) h hx hk ?_ hv hi
  unfold State.storeAct
  dsimp only
  rw [refetched_addrOf, crewStore_misaligned hn]

/-- What an instruction stores in the state in which it acts, it stores in the state before its fetch. -/
theorem State.StoresWord.of_refetched {r : State} {i v : Nat} {m : Bool} (h : (s.refetched t c).StoresWord r t i v m) : s.StoresWord r t i v m :=
  ⟨h.frame, h.word, h.mark, h.others⟩

/-- A crew's instruction stores bytes in a TCM word, with the injector not armed: its crew is as it was, no other word changes. -/
theorem refetched_stores {a v : Nat} (t c : Nat) (idle : s.on t SRAM_INJ_ARMED = false) (hl : a < 0x100000) (fit : a % 8 + n ≤ 8) :
    s.StoresWord ((s.refetched t c).tcmWrite t ((tcmIndex a).getD 0) (a % 8) n v false) t ((tcmIndex a).getD 0)
      (setBits (s.tcmWord t ((tcmIndex a).getD 0)) (8 * (a % 8)) (8 * n) v) (n != 8 && s.tcmMarked t ((tcmIndex a).getD 0)) ∧
    s.CrewIs ((s.refetched t c).tcmWrite t ((tcmIndex a).getD 0) (a % 8) n v false) t c (s.crew t c) := by
  have idle' : (s.refetched t c).on t SRAM_INJ_ARMED = false := idle
  have stores := (tcmWrite_stores (v := v) (p := false) idle' (tcmIndex_lt hl) fit).of_refetched
  have mark : (if n = 8 then false else false || (s.refetched t c).tcmMarked t ((tcmIndex a).getD 0)) =
      (n != 8 && s.tcmMarked t ((tcmIndex a).getD 0)) := by
    show (if n = 8 then false else false || s.tcmMarked t ((tcmIndex a).getD 0)) = _
    by_cases h8 : n = 8 <;> simp [h8]
  rw [mark] at stores
  exact ⟨stores, (crewIs_refetched s t c).of_crews (tcmWrite_crews idle')⟩

/-- A store writes the bytes it names and nothing else (R69, R72). -/
theorem does_store (h : s.Issues t c w)
    (hx : exec i s = s.finish (s.when (s.live t 0) fun s => s.crewIssue t c k fun s w => s.storeAct t c w n)) (hk : insnRow w = some k)
    {a : Nat} (he : s.addrOf' t c w = a) (size : n ∈ [1, 2, 4, 8]) (hn : a % n = 0)
    (hl : a < 0x100000) (priv : c < 2 ∨ 0x80000 ≤ a ∧ s.sysRegion t a = false) (idle : s.on t SRAM_INJ_ARMED = false) :
    Does i s fun r => s.CrewIs r t c ((s.crew t c).completed s.now ((s.crew t c).pc + 4)) ∧
      s.StoresWord r t ((tcmIndex a).getD 0)
        (setBits (s.tcmWord t ((tcmIndex a).getD 0)) (8 * (a % 8)) (8 * n) ((s.crew t c).gr (gdOf w) % 2 ^ (8 * n)))
        (n != 8 && s.tcmMarked t ((tcmIndex a).getD 0)) := by
  have store := crewStore_tcm (s := s.refetched t c) (v := (s.crew t c).gr (gdOf w) % 2 ^ (8 * n)) h.crew_lt hn hl priv
  obtain ⟨stores, crews⟩ := refetched_stores (v := (s.crew t c).gr (gdOf w) % 2 ^ (8 * n)) t c idle hl (fits_of_aligned size hn)
  have act : (s.refetched t c).storeAct t c w n = .next ((s.refetched t c).tcmWrite t ((tcmIndex a).getD 0) (a % 8) n
      ((s.crew t c).gr (gdOf w) % 2 ^ (8 * n)) false) := by
    unfold State.storeAct
    dsimp only
    rw [refetched_addrOf, he, refetched_gr, store]
  exact does_next h hx hk act ⟨crews.crewDone h.crew_lt stores.now_eq _, stores.setCrew t c _⟩

/-- The width of an atomic: 4 bytes with func[3], else 8 (R76). -/
def amoWidth (f : Nat) : Nat := if bit f 3 then 4 else 8

theorem amoWidth_mem (f : Nat) : amoWidth f ∈ [1, 2, 4, 8] := by
  unfold amoWidth
  split <;> decide

/-- An atomic gives the old value and stores the new one (R76). -/
theorem does_amo (h : s.Issues t c w) (ho : opOf w = 0x1C) {f a old new : Nat} (hf : funcOf w = f) (h16 : f < 16) (h5 : f % 8 < 5)
    (he : (s.crew t c).gr (gaOf w) = a) (hn : a % amoWidth f = 0) (hl : a < 0x100000)
    (priv : c < 2 ∨ 0x80000 ≤ a ∧ s.sysRegion t a = false) (clean : smGet s.core.tcmParity (tk t ((tcmIndex a).getD 0)) 0 = 0)
    (sound : s.tcmMarked t ((tcmIndex a).getD 0) = false) (idle : s.on t SRAM_INJ_ARMED = false)
    (hold : bits (s.tcmWord t ((tcmIndex a).getD 0)) (8 * (a % 8)) (8 * amoWidth f) = old)
    (hnew : amoNew (f % 8) (amoWidth f) old ((s.crew t c).gr (gbOf w)) ((s.crew t c).gr (gdOf w)) = new) :
    Does (.amo t c) s fun r =>
      s.CrewIs r t c (((s.crew t c).setG (gdOf w) (if amoWidth f = 4 then sext 32 old else old)).completed s.now ((s.crew t c).pc + 4)) ∧
      ∃ m, s.StoresWord r t ((tcmIndex a).getD 0) (setBits (s.tcmWord t ((tcmIndex a).getD 0)) (8 * (a % 8)) (8 * amoWidth f) new) m := by
  have amo := crewAmo_tcm (s := s.refetched t c) (b := (s.crew t c).gr (gbOf w)) (op := f % 8) (d := (s.crew t c).gr (gdOf w)) h.crew_lt hn hl
    priv clean sound
  change _ = CrewAcc.ok (State.tcmWrite _ t _ (a % 8) _ (amoNew (f % 8) _ (bits (s.tcmWord t _) _ _) _ _) false) (bits (s.tcmWord t _) _ _) at amo
  rw [hold, hnew] at amo
  obtain ⟨stores, crews⟩ := refetched_stores (v := new) t c idle hl (fits_of_aligned (amoWidth_mem f) hn)
  have act : actAmo t c (s.refetched t c) w = ((s.refetched t c).tcmWrite t ((tcmIndex a).getD 0) (a % 8) (amoWidth f) new false).result t c w
      (if amoWidth f = 4 then sext 32 old else old) := by
    unfold actAmo
    dsimp only
    rw [hf, if_neg (by omega), refetched_gr, refetched_gr, refetched_gr, he, ← amoWidth, amo]
  exact does_next h rfl (insnRow_major ho (by decide)) act ⟨(crews.setG h.crew_lt _ _).crewDone h.crew_lt stores.now_eq _, _,
    (stores.setCrew t c _).setCrew t c _⟩

end

/-! ### The tables of loads and stores (R72) -/

/-- The loads: their major opcode, bytes, whether the value is sign-extended. -/
def loadTable (t c : Nat) : List (Instr × Nat × Nat × Bool) :=
  [(.lb t c, 0x10, 1, true), (.lbu t c, 0x11, 1, false), (.lh t c, 0x12, 2, true), (.lhu t c, 0x13, 2, false), (.lw t c, 0x14, 4, true),
    (.lwu t c, 0x15, 4, false), (.ld t c, 0x16, 8, false)]

/-- The stores: their major opcode, bytes. -/
def storeTable (t c : Nat) : List (Instr × Nat × Nat) := [(.sb t c, 0x18, 1), (.sh t c, 0x19, 2), (.sw t c, 0x1A, 4), (.sd t c, 0x1B, 8)]

/-- How a load extends its value. -/
def loadExt (n : Nat) (signed : Bool) (v : Nat) : Nat := if signed then ux 64 (sx (8 * n) v) else v

theorem exec_load {t c : Nat} {q : Instr × Nat × Nat × Bool} (hq : q ∈ loadTable t c) (s : State) : (0x10 ≤ q.2.1 ∧ q.2.1 ≤ 0x16) ∧
    ∃ k, exec q.1 s = s.finish (s.when (s.live t 0) fun s => s.crewIssue t c k fun s w =>
      s.loadAct t c w q.2.2.1 (loadExt q.2.2.1 q.2.2.2)) ∧ q.2.1 * 256 = k := by
  simp only [loadTable, List.mem_cons, List.not_mem_nil, or_false] at hq
  rcases hq with rfl | rfl | rfl | rfl | rfl | rfl | rfl <;> exact ⟨by simp, _, rfl, by simp⟩

theorem exec_store {t c : Nat} {q : Instr × Nat × Nat} (hq : q ∈ storeTable t c) (s : State) :
    (0x18 ≤ q.2.1 ∧ q.2.1 ≤ 0x1C) ∧ q.2.2 ∈ [1, 2, 4, 8] ∧
    ∃ k, exec q.1 s = s.finish (s.when (s.live t 0) fun s => s.crewIssue t c k fun s w => s.storeAct t c w q.2.2) ∧ q.2.1 * 256 = k := by
  simp only [storeTable, List.mem_cons, List.not_mem_nil, or_false] at hq
  rcases hq with rfl | rfl | rfl | rfl <;> exact ⟨by simp, by simp, _, rfl, by simp⟩

/-- Settles O26: loads, stores and atomics of TCM, aligned and not (R64 to R66, R69, R72, R76). -/
theorem crewTcmAccessesComplete : Obligations.CrewTcmAccessesComplete := by
  unfold Obligations.CrewTcmAccessesComplete
  intro t c w s h x a wi loads stores
  refine ⟨fun q hq ho hn hl priv clean sound => ?_, fun q hq ho hn hv hi => ?_, fun q hq ho hn hl priv idle => ?_, fun q hq ho hn hv hi => ?_, ?_⟩
  · obtain ⟨range, k, run, rfl⟩ := exec_load hq s
    exact does_load h run (insnRow_major ho (by omega)) rfl hn hl priv clean sound
  · obtain ⟨range, k, run, rfl⟩ := exec_load hq s
    exact does_load_misaligned h run (insnRow_major ho (by omega)) hn hv hi
  · obtain ⟨range, size, k, run, rfl⟩ := exec_store hq s
    have fit := fits_of_aligned size hn
    refine (does_store h run (insnRow_major ho (by omega)) rfl size hn hl priv idle).mono fun r ⟨crew, stored⟩ =>
      ⟨stored.frame, crew, ?_, fun k hk hout => ?_, stored.mark, stored.others⟩
    · rw [stored.word, bits_setBits_same, Nat.mod_mod]
    · rw [stored.word, bits_setBits_ne _ _ _ _ _ _ (by omega)]
  · obtain ⟨range, -, k, run, rfl⟩ := exec_store hq s
    exact does_store_misaligned h run (insnRow_major ho (by omega)) hn hv hi
  · intro f ho hf h16 h5 m mi n old hn hl priv clean sound idle
    refine (does_amo h ho hf h16 h5 rfl hn hl priv clean sound idle rfl rfl).mono fun r ⟨crew, _, stored⟩ =>
      ⟨stored.frame, crew, ?_, fun u i hi hne => (stored.others u i hi hne).1⟩
    exact (congrArg (bits · _ _) stored.word).trans ((bits_setBits_same ..).trans (Nat.mod_eq_of_lt (amoNew_lt _ _ _ _ _ (bits_lt ..))))

end Sys2Proof.Machine

/-!
# Branches and system instructions

What branches, TRAP, RETX, the control-status instructions, FENCE, HALT and YIELD do, and a word of no row (R68, R72, R89 to R92, R95).
-/

namespace Sys2Proof.Machine

section
variable {s : State} {t c w : Nat}

/-! ### Branches (R72) -/

/-- BC jumps where its predicate differs from its negate bit. -/
theorem does_bc (h : s.Issues t c w) (ho : opOf w = 0x20) :
    Does (.bc t c) s fun r => s.OnlyCrew r t c ((s.crew t c).completed s.now
      (if (s.crew t c).pr (bits w 23 3) = !bit w 22 then ux 64 (((s.crew t c).pc : Int) + 4 * sx 22 (bits w 0 22)) else (s.crew t c).pc + 4)) := by
  by_cases taken : (s.crew t c).pr (bits w 23 3) = !bit w 22
  · rw [if_pos taken]
    refine does_jump_only h rfl (insnRow_major ho (by decide)) ?_ (onlyCrew_refetched s t c)
    unfold actBc
    dsimp only
    rw [refetched_crew, if_pos (by rw [taken]; cases bit w 22 <;> rfl), Int.mul_comm 4]
  · rw [if_neg taken]
    refine does_next_only h rfl (insnRow_major ho (by decide)) ?_ (onlyCrew_refetched s t c)
    unfold actBc
    dsimp only
    rw [refetched_crew, if_neg]
    revert taken
    cases bit w 22 <;> cases (s.crew t c).pr (bits w 23 3) <;> decide

theorem does_jal (h : s.Issues t c w) (ho : opOf w = 0x21) :
    Does (.jal t c) s fun r => s.OnlyCrew r t c (((s.crew t c).setG 1 (((s.crew t c).pc + 4) % 2 ^ 64)).completed s.now
      (ux 64 (((s.crew t c).pc : Int) + 4 * sx 26 (bits w 0 26)))) := by
  refine does_jump_only h rfl (insnRow_major ho (by decide)) ?_ ((onlyCrew_refetched s t c).setG h.crew_lt 1 _)
  unfold actJal
  dsimp only
  rw [refetched_crew, Int.mul_comm 4]
  rfl

theorem does_jalr (h : s.Issues t c w) (ho : opOf w = 0x22) (ha : s.addrOf' t c w % 4 = 0) :
    Does (.jalr t c) s fun r => s.OnlyCrew r t c (((s.crew t c).setG (gdOf w) (((s.crew t c).pc + 4) % 2 ^ 64)).completed s.now
      (s.addrOf' t c w)) := by
  refine does_jump_only h rfl (insnRow_major ho (by decide)) ?_ ((onlyCrew_refetched s t c).setG h.crew_lt (gdOf w) _)
  unfold actJalr
  dsimp only
  rw [refetched_addrOf, refetched_crew, if_neg (not_not.2 ha)]
  rfl

theorem does_jalr_misaligned (h : s.Issues t c w) (ho : opOf w = 0x22) (ha : s.addrOf' t c w % 4 ≠ 0) (hv : (s.crew t c).evec ≠ 0)
    (hi : (s.crew t c).inexc = false) :
    Does (.jalr t c) s fun r => s.OnlyCrew r t c ((s.crew t c).excepted s.now 2 0 (s.addrOf' t c w) (s.crew t c).pc) := by
  refine does_exc_only (cause := 2) (e := s.addrOf' t c w) h rfl (insnRow_major ho (by decide)) ?_ hv hi
  unfold actJalr
  dsimp only
  rw [refetched_addrOf, if_pos ha]

/-! ### Exceptions by instruction (R89 to R91) -/

theorem does_trap (h : s.Issues t c w) (ho : opOf w = 0x3F) (hs : subOf w = 0) (hd : gdOf w = 0) (ha : gaOf w = 0) (hv : (s.crew t c).evec ≠ 0)
    (hi : (s.crew t c).inexc = false) :
    Does (.trap t c) s fun r => s.OnlyCrew r t c ((s.crew t c).excepted s.now 8 (imm8Of w) 0 (((s.crew t c).pc + 4) % 2 ^ 64)) :=
  does_exc_only (cause := 8) h rfl (insnRow_system ho hs (by decide)) (mustZero_of_zero (by rw [hd, ha])) hv hi

theorem does_retx (h : s.Issues t c w) (ho : opOf w = 0x3F) (hs : subOf w = 1) (hd : gdOf w = 0) (ha : gaOf w = 0) (h8 : imm8Of w = 0)
    (hi : (s.crew t c).inexc = true) :
    Does (.retx t c) s fun r => s.OnlyCrew r t c (({ s.crew t c with inexc := false, fetch := [] } : Crew).completed s.now (s.crew t c).epc) := by
  refine does_jump_only h rfl (insnRow_system ho hs (by decide)) ?_ ((onlyCrew_refetched s t c).setCrew h.crew_lt _)
  unfold actRetx
  dsimp only
  rw [refetched_crew, hd, ha, h8, hi]
  rfl

/-! ### Control-status registers (R95) -/

/-- An access that privilege allows to an assigned number goes on with its value. -/
theorem csrAct_of_get {v : Nat} {f : State → Nat → Act} (hp : imm8Of w < 0x40 ∨ c < 2) (hv : s.csrGet t c (imm8Of w) = some v) :
    s.csrAct t c w f = f s v := by
  unfold State.csrAct
  dsimp only
  rw [if_neg (by omega), hv]

theorem csrSet_evec (s : State) (t c v : Nat) : s.csrSet t c 5 v = s.setCrew t c { s.crew t c with evec := v - v % 4 } := rfl

theorem csrSet_escratch (s : State) (t c v : Nat) : s.csrSet t c 6 v = s.setCrew t c { s.crew t c with escratch := v } := rfl

theorem refetched_csrGet (s : State) (t c n : Nat) : (s.refetched t c).csrGet t c n = s.csrGet t c n := by
  unfold State.csrGet
  rw [refetched_crew]
  rfl

theorem does_csrr {v : Nat} (h : s.Issues t c w) (ho : opOf w = 0x3F) (hs : subOf w = 2) (ha : gaOf w = 0) (hp : imm8Of w < 0x40 ∨ c < 2)
    (hv : s.csrGet t c (imm8Of w) = some v) :
    Does (.csrr t c) s fun r => s.OnlyCrew r t c (((s.crew t c).setG (gdOf w) v).completed s.now ((s.crew t c).pc + 4)) :=
  does_result_only h rfl (insnRow_system ho hs (by decide))
    ((mustZero_of_zero ha).trans (csrAct_of_get hp ((refetched_csrGet s t c _).trans hv)))

theorem does_csrw_evec (h : s.Issues t c w) (ho : opOf w = 0x3F) (hs : subOf w = 3) (hd : gdOf w = 0) (h8 : imm8Of w = 5) :
    Does (.csrw t c) s fun r => s.OnlyCrew r t c
      (({ s.crew t c with evec := (s.crew t c).gr (gaOf w) / 4 * 4 } : Crew).completed s.now ((s.crew t c).pc + 4)) := by
  have aligned : (s.crew t c).gr (gaOf w) / 4 * 4 = (s.crew t c).gr (gaOf w) - (s.crew t c).gr (gaOf w) % 4 := by omega
  rw [aligned]
  refine does_crew_only h rfl (insnRow_system ho hs (by decide)) ((mustZero_of_zero hd).trans ((csrAct_of_get (by omega) (by rw [h8]; rfl)).trans ?_))
  rw [h8, refetched_gr, csrSet_evec, refetched_crew]

theorem does_csrw_escratch (h : s.Issues t c w) (ho : opOf w = 0x3F) (hs : subOf w = 3) (hd : gdOf w = 0) (h8 : imm8Of w = 6) :
    Does (.csrw t c) s fun r => s.OnlyCrew r t c
      (({ s.crew t c with escratch := (s.crew t c).gr (gaOf w) } : Crew).completed s.now ((s.crew t c).pc + 4)) := by
  refine does_crew_only h rfl (insnRow_system ho hs (by decide)) ((mustZero_of_zero hd).trans ((csrAct_of_get (by omega) (by rw [h8]; rfl)).trans ?_))
  rw [h8, refetched_gr, csrSet_escratch, refetched_crew]

/-- CSRS and CSRC of ESCRATCH give gd its old value. -/
theorem does_csr_update {i : Instr} {k : Nat} {act : State → Nat → Act} (f : Nat → Nat → Nat) (h : s.Issues t c w)
    (hx : exec i s = s.finish (s.when (s.live t 0) fun s => s.crewIssue t c k act)) (hk : insnRow w = some k) (h8 : imm8Of w = 6)
    (ha : ∀ r, act r w = r.csrAct t c w fun r v => (r.csrSet t c (imm8Of w) (f v (r.gr t c (gaOf w)))).result t c w v) :
    Does i s fun r => s.OnlyCrew r t c
      ((({ s.crew t c with escratch := f (s.crew t c).escratch ((s.crew t c).gr (gaOf w)) } : Crew).setG (gdOf w) (s.crew t c).escratch).completed s.now
        ((s.crew t c).pc + 4)) := by
  have get : (s.refetched t c).csrGet t c (imm8Of w) = some (s.crew t c).escratch := by
    rw [refetched_csrGet, h8]
    rfl
  refine does_next_only h hx hk ((ha _).trans (csrAct_of_get (by omega) get)) ?_
  rw [h8, csrSet_escratch, refetched_crew, refetched_gr]
  exact ((onlyCrew_refetched s t c).setCrew h.crew_lt _).setG h.crew_lt _ _

/-! ### FENCE, HALT, YIELD (R68, R89) -/

/-- A crew with no descriptor in the queue does not wait for DMA. -/
theorem does_fence (h : s.Issues t c w) (ho : opOf w = 0x3F) (hs : subOf w = 8) (hd : gdOf w = 0) (ha : gaOf w = 0) (hz : bits w 3 5 = 0)
    (idle : ∀ e ∈ (s.dma t).queue, e.crew ≠ c) :
    Does (.fence t c) s fun r => s.OnlyCrew r t c
      ((if bit w 0 then { s.crew t c with fetch := [] } else s.crew t c : Crew).completed s.now ((s.crew t c).pc + 4)) := by
  have none : (s.dma t).queue.any (fun e => decide (e.crew = c)) = false := by simpa using idle
  change ((s.refetched t c).dma t).queue.any _ = false at none
  refine does_crew_only h rfl (insnRow_system ho hs (by decide)) ((mustZero_of_zero (by rw [hd, ha, hz])).trans ?_)
  dsimp only
  rw [none, Bool.and_false, refetched_crew]
  rfl

theorem does_halt (h : s.Issues t c w) (ho : opOf w = 0x3F) (hs : subOf w = 9) (hd : gdOf w = 0) (ha : gaOf w = 0) (h8 : imm8Of w = 0)
    (hx : (s.crew t c).tx = none) :
    Does (.halt t c) s fun r => s.OnlyCrew r t c
      { (s.crew t c).completed s.now ((s.crew t c).pc + 4) with state := 0, wait := none, fetch := [] } := by
  have done := (onlyCrew_refetched s t c).crewDone h.crew_lt ((s.crew t c).pc + 4)
  have act : actHalt t c (s.refetched t c) w = .stop (((s.refetched t c).crewDone t c ((s.crew t c).pc + 4)).crewHalt t c) :=
    (mustZero_of_zero (by rw [hd, ha, h8])).trans (by rw [refetched_crew])
  refine does_when rfl h.live ?_
  rw [h.crewIssue (insnRow_system ho hs (by decide)), act]
  generalize (s.refetched t c).crewDone t c ((s.crew t c).pc + 4) = u at done
  have stopped := done.setCrew h.crew_lt { u.crew t c with state := 0, wait := none, fetch := [] }
  have free : ((u.setCrew t c { u.crew t c with state := 0, wait := none, fetch := [] }).crew t c).tx = none := by
    rw [crew_setCrew_same, done.2.1]
    exact hx
  show s.OnlyCrew (u.crewHalt t c) t c _
  unfold State.crewHalt
  dsimp only
  rw [dropTx_none free]
  rwa [done.2.1] at stopped ⊢

theorem does_yield (h : s.Issues t c w) (ho : opOf w = 0x3F) (hs : subOf w = 10) (hd : gdOf w = 0) (ha : gaOf w = 0) (h8 : imm8Of w = 0) :
    Does (.yield t c) s fun r => s.OnlyCrew r t c ((s.crew t c).completed s.now ((s.crew t c).pc + 4)) :=
  does_next_only h rfl (insnRow_system ho hs (by decide)) (mustZero_of_zero (by rw [hd, ha, h8])) (onlyCrew_refetched s t c)

/-! ### A word of no row (R91, R92) -/

/-- A word of no row takes its exception under the command of any row. -/
theorem State.Issues.crewIssue_none (h : s.Issues t c w) (hk : insnRow w = none) (row : Nat) (act : State → Nat → Act) :
    s.crewIssue t c row act = (s.refetched t c).crewExc t c 0 0 w (s.crew t c).pc := by
  simp [State.crewIssue, h.1, h.crewFetch, hk]

theorem does_unknown (h : s.Issues t c w) (hk : insnRow w = none) (hv : (s.crew t c).evec ≠ 0) (hi : (s.crew t c).inexc = false) :
    Does (.yield t c) s fun r => s.OnlyCrew r t c ((s.crew t c).excepted s.now 0 0 w (s.crew t c).pc) := by
  refine does_when rfl h.live ?_
  rw [h.crewIssue_none hk]
  exact (onlyCrew_refetched s t c).crewExc h.crew_lt hv hi 0 0 w _

/-- A crew without a handler goes to FAULTED with its event; of crews 0 and 1 that is EV_TILE_CTL_FAULT too (R51, R92). -/
theorem crewExc_faults (s : State) (t c cause code eval epc : Nat) (hv : (s.crew t c).evec = 0) :
    ((s.crewExc t c cause code eval epc).crew t c).state = 3 ∧ ((s.crewExc t c cause code eval epc).crew t c).cause = cause ∧
    ((s.crewExc t c cause code eval epc).crew t c).eval = eval ∧ ((s.crewExc t c cause code eval epc).crew t c).pc = (s.crew t c).pc ∧
    (s.crewExc t c cause code eval epc).evtStat t 306 = true ∧ (c < 2 → (s.crewExc t c cause code eval epc).evtStat t 3 = true) := by
  unfold State.crewExc
  extract_lets x y raised
  rw [if_pos (Or.inl hv)]
  have crew : raised.crew t c = { ({ y with state := 3 } : Crew) with pending := (raised.crew t c).pending } := by
    have := crew_raise (s.setCrew t c { y with state := 3 }) t 306 t c (by decide)
    rwa [crew_setCrew_same] at this
  have stat : raised.evtStat t 306 = true := raise_stat _ t 306 (by decide)
  clear_value raised
  by_cases hc : c < 2
  · have sys : (raised.raise t 3).crew t c = { ({ y with state := 3 } : Crew) with pending := ((raised.raise t 3).crew t c).pending } := by
      rw [crew_raise raised t 3 t c (by decide), crew]
    rw [decide_eq_true hc, when_true, sys]
    exact ⟨rfl, rfl, rfl, rfl, raise_stat_keep raised t 3 t 306 (by decide) (by decide) stat, fun _ => raise_stat raised t 3 (by decide)⟩
  · rw [decide_eq_false hc, when_false, crew]
    exact ⟨rfl, rfl, rfl, rfl, stat, fun h => absurd h hc⟩

theorem does_unknown_faults (h : s.Issues t c w) (hk : insnRow w = none) (hv : (s.crew t c).evec = 0) :
    Does (.yield t c) s fun r => (r.crew t c).state = 3 ∧ (r.crew t c).cause = 0 ∧ (r.crew t c).eval = w ∧ (r.crew t c).pc = (s.crew t c).pc ∧
      r.evtStat t 306 = true ∧ (c < 2 → r.evtStat t 3 = true) := by
  refine does_when rfl h.live ?_
  rw [h.crewIssue_none hk]
  have faults := crewExc_faults (s.refetched t c) t c 0 0 w (s.crew t c).pc (by rwa [refetched_crew])
  rwa [refetched_crew] at faults

end

/-- Settles O27: each instruction's lemma above gives its part (R68, R72, R89 to R92, R95). -/
theorem crewControlInstructionsComplete : Obligations.CrewControlInstructionsComplete := by
  unfold Obligations.CrewControlInstructionsComplete
  intro t c w s h x a pc4 only
  exact ⟨does_bc h, does_jal h, does_jalr h, does_jalr_misaligned h, does_trap h, does_retx h, fun v => does_csrr h, does_csrw_evec h,
    does_csrw_escratch h, fun ho hs h8 => does_csr_update (· ||| ·) h rfl (insnRow_system ho hs (by decide)) h8 fun _ => rfl,
    fun ho hs h8 => does_csr_update (fun v a => v &&& (m64 - 1 - a)) h rfl (insnRow_system ho hs (by decide)) h8 fun _ => rfl,
    does_fence h, does_halt h, does_yield h, does_unknown h, does_unknown_faults h⟩

end Sys2Proof.Machine

/-!
# Crew lines stay asserted

An occurrence of an event asserts crew lines and clears none (R48, R476). One rule per operation of the event fabric, in the order of the
model, as for what they leave.
-/

namespace Sys2Proof.Machine

/-- Every crew line that is pending in the first state is pending in the second. -/
structure State.KeepsLines (s r : State) : Prop where
  pending : ∀ u d i, bit (s.crew u d).pending i = true → bit (r.crew u d).pending i = true

namespace State.KeepsLines

variable {a b c : State}

theorem of_crews (e : b.core.crews = a.core.crews) : a.KeepsLines b := by
  refine ⟨fun u d i h => ?_⟩
  rwa [State.crew, e]

theorem refl (s : State) : s.KeepsLines s := .of_crews rfl

theorem trans (h : a.KeepsLines b) (g : b.KeepsLines c) : a.KeepsLines c := ⟨fun u d i p => g.pending u d i (h.pending u d i p)⟩

theorem when (q : Bool) {f : State → State} (h : ∀ r : State, r.KeepsLines (f r)) (s : State) : s.KeepsLines (s.when q f) := by
  cases q with
  | false => exact .refl s
  | true => exact h s

theorem each {α : Type} (l : List α) {f : State → α → State} (h : ∀ (r : State) x, r.KeepsLines (f r x)) (s : State) :
    s.KeepsLines (s.each l f) := each_induct (s.KeepsLines ·) s l f (.refl s) fun r x _ hr => hr.trans (h r x)

theorem assertLine (s : State) (t line : Nat) : s.KeepsLines (s.assertLine t line) := by
  refine .each _ (fun r d => ⟨fun u e i h => ?_⟩) s
  rw [crew_setCrew]
  split
  · rename_i hk
    have same : r.crew t d = r.crew u e := by unfold State.crew; rw [hk]
    exact (orBit_testBit ..).trans (by rw [same, show (r.crew u e).pending.testBit i = true from h]; rfl)
  · exact h

theorem setF (s : State) (t : Nat) (q : FRef) (v : Nat) : s.KeepsLines (s.setF t q v) := .of_crews rfl

theorem setB (s : State) (t : Nat) (q : FRef) (v : Bool) : s.KeepsLines (s.setB t q v) := .of_crews rfl

theorem evt (s : State) (e : EvtSt) : s.KeepsLines { s with evt := e } := .of_crews rfl

theorem setOcc (s : State) (t id : Nat) (o : Occ) : s.KeepsLines (s.setOcc t id o) := .of_crews rfl

theorem latchRoot (s : State) (at_ t id sev : Nat) (inj : Bool) (n seq : Nat) : s.KeepsLines (s.latchRoot at_ t id sev inj n seq) := by
  unfold State.latchRoot
  have counted := setF s at_ SPOIL_ROOTS_COUNT (satAdd (2 ^ SPOIL_ROOTS_COUNT.w - 1) (s.f at_ SPOIL_ROOTS_COUNT) 1)
  dsimp only
  split
  · exact counted
  · refine .trans counted (.trans ?_ (.evt _ _))
    refine .trans (.setF _ at_ SPOIL_ROOT_ID id) (.trans (.setF _ at_ SPOIL_ROOT_TILE t) ?_)
    refine .trans (.setF _ at_ SPOIL_ROOT_SEV sev) (.trans (.setB _ at_ SPOIL_ROOT_INJECTED inj) ?_)
    exact .trans (.setB _ at_ SPOIL_ROOT_VALID true) (.of_crews rfl)

theorem countDep (s : State) (root : Option Nat) (n : Nat) : s.KeepsLines (s.countDep root n) := by
  unfold State.countDep
  cases root with
  | none => exact .refl s
  | some q => exact .trans (.evt s _) (.each _ (fun r t => .when _ (fun r => .setF r t SPOIL_DEPCNT_COUNT _) r) _)

theorem chargeDep (s : State) (x : Nat × Nat) (n : Nat) : s.KeepsLines (s.chargeDep x n) := by
  unfold State.chargeDep
  split
  · exact .evt s _
  · exact .countDep s _ n

theorem releaseHeld (s : State) (t u id : Nat) : s.KeepsLines (s.releaseHeld t u id) := by
  unfold State.releaseHeld
  dsimp only
  refine .trans (.trans (.evt s _) (.each _ (fun r h => ?_) _)) (.setF _ t SPOIL_HELD_HELD _)
  exact .trans (.chargeDep r (u, id) _) (.setOcc _ t h.id _)

theorem enterRoot (s : State) (t id : Nat) (inj : Bool) (n : Nat) : s.KeepsLines (s.enterRoot t id inj n) := by
  unfold State.enterRoot
  dsimp only
  split
  · exact .trans (.trans (.trans (.evt s _) (.latchRoot _ ..)) (.when _ (fun r => .latchRoot r ..) _)) (.setOcc _ t id _)
  · exact .setOcc s t id _

theorem queueAsync (s : State) (m : AsyncMsg) : s.KeepsLines (s.queueAsync m) := by
  unfold State.queueAsync
  split <;> exact .of_crews rfl

theorem sendRoutes (s : State) (t id : Nat) (inj : Bool) (n : Nat) : s.KeepsLines (s.sendRoutes t id inj n) := by
  unfold State.sendRoutes
  dsimp only
  split
  · exact .trans (.when _ (fun r => .assertLine r ..) s) (.when _ (fun r => .queueAsync r _) _)
  · exact .refl s

theorem route (s : State) (t id : Nat) (inj : Bool) (n : Nat) : s.KeepsLines (s.route t id inj n) :=
  (enterRoot s t id inj n).trans (sendRoutes _ t id inj n)

theorem verdict (s : State) (t id : Nat) (inj had : Bool) (n : Nat) : s.KeepsLines (s.verdict t id inj had n).1 := by
  have noted := setOcc s t id { s.occ t id with last := some s.now }
  unfold State.verdict
  dsimp only
  split
  · exact noted.trans (.trans (.chargeDep _ _ 1) (.setOcc _ t id _))
  · split
    · exact noted.trans (.countDep _ _ 1)
    · split
      · split
        · exact noted.trans (.evt _ _)
        · split
          · exact .trans (noted.trans (.evt _ _)) (.setF _ t SPOIL_HELD_HELD _)
          · exact noted.trans (.route _ ..)
      · exact noted.trans (.route _ ..)

theorem noted (s : State) (t id : Nat) (inj : Bool) : s.KeepsLines (s.noted t id inj) := .of_crews (by simp [State.noted])

theorem occur (s : State) (t id : Nat) (inj : Bool) : s.KeepsLines (s.occur t id inj).1 := by
  refine .trans (.noted s t id inj) ?_
  unfold State.occur State.noted
  dsimp only
  exact .trans (.verdict _ ..) (.releaseHeld _ ..)

theorem raiseX (s : State) (t id : Nat) (inj : Bool) : s.KeepsLines (s.raiseX t id inj) := by
  unfold State.raiseX
  dsimp only
  have one := occur s t id inj
  have both := one.trans (occur (s.occur t id inj).1 t 309 false)
  generalize (s.occur t id inj).2 = full
  generalize (s.occur t id inj).1 = p at *
  generalize (p.occur t 309 false).1 = q at *
  have first : s.KeepsLines (if full = true then q else p) := by
    split
    · exact both
    · exact one
  generalize (if full = true then q else p) = r at *
  split
  · exact first.trans (.evt r _)
  · exact first

theorem raise (s : State) (t id : Nat) : s.KeepsLines (s.raise t id) := .raiseX s t id false

end State.KeepsLines

end Sys2Proof.Machine

/-!
# Runs of TCM words

What stores of TCM words leave when the SRAM injector may meet them (R69, R425), and the bytes of runs of words read and written (R5).
-/

namespace Sys2Proof.Machine

/-! ### The injector -/

/-- What a write of a byte does where the injector is armed for its SRAM, before the event: it disarms and leaves the flip to come. -/
def State.sramHit (s : State) (t k : Nat) : State :=
  { s.setB t SRAM_INJ_ARMED false with mem.sramFlip := smPut s.mem.sramFlip (tk t k) true false }

theorem sramWritten_eq (s : State) (t k : Nat) : s.sramWritten t k =
    if s.on t SRAM_INJ_ARMED ∧ s.f t SRAM_INJ_SRAM = k then (s.sramHit t k).raise t 248 else s := rfl

theorem sramWritten_fields (s : State) (t k : Nat) : s.sramWritten t k = { s with
    regs := (s.sramWritten t k).regs, evt := (s.sramWritten t k).evt, mem.sramFlip := (s.sramWritten t k).mem.sramFlip
    core.crews := (s.sramWritten t k).core.crews } := by
  rw [sramWritten_eq]
  split
  · rw [raise_fields (s.sramHit t k) t 248 (by decide)]
    rfl
  · rfl

theorem crew_sramWritten (s : State) (t k u d : Nat) :
    (s.sramWritten t k).crew u d = { s.crew u d with pending := ((s.sramWritten t k).crew u d).pending } := by
  rw [sramWritten_eq]
  split
  · exact crew_raise (s.sramHit t k) t 248 u d (by decide)
  · rfl

theorem sramWritten_keepsLines (s : State) (t k : Nat) : s.KeepsLines (s.sramWritten t k) := by
  rw [sramWritten_eq]
  split
  · exact .trans (b := s.sramHit t k) (.of_crews rfl) (.raise _ t 248)
  · exact .refl s

/-! ### Stores of TCM words -/

/-- Only what a store of TCM may touch differs: TCM with its marks and parity, and what the injector meets: registers, events, flips to
come, PENDING words. -/
def State.OnlyTcm (s r : State) : Prop :=
  r = { s with
    regs := r.regs, evt := r.evt, mem.sramFlip := r.mem.sramFlip
    core.crews := r.core.crews, core.tcm := r.core.tcm, core.tcmPoison := r.core.tcmPoison, core.tcmParity := r.core.tcmParity } ∧
  ∀ u d, r.crew u d = { s.crew u d with pending := (r.crew u d).pending }

theorem State.OnlyTcm.refl (s : State) : s.OnlyTcm s := ⟨rfl, fun _ _ => rfl⟩

theorem State.OnlyTcm.trans {a b c : State} (h : a.OnlyTcm b) (g : b.OnlyTcm c) : a.OnlyTcm c := by
  refine ⟨?_, fun u d => ?_⟩
  · have e := g.1
    rw [h.1] at e
    exact e
  · have e := g.2 u d
    rw [h.2 u d] at e
    exact e

section
variable {s r : State} {t w b n v i u : Nat} {p : Bool}

theorem State.OnlyTcm.now_eq (h : s.OnlyTcm r) : r.now = s.now := by rw [h.1]

theorem State.OnlyTcm.dma_eq (h : s.OnlyTcm r) (u : Nat) : r.dma u = s.dma u := by rw [h.1]; rfl

theorem tcmWrite_onlyTcm (s : State) (t w b n v : Nat) (p : Bool) : s.OnlyTcm (s.tcmWrite t w b n v p) := by
  refine ⟨?_, fun u d => crew_sramWritten (s.tcmStored t w b n v p) t (tcmSram w) u d⟩
  rw [tcmWrite_eq, sramWritten_fields]
  rfl

theorem tcmWrite_tcm (s : State) (t w b n v : Nat) (p : Bool) : (s.tcmWrite t w b n v p).core.tcm = (s.tcmStored t w b n v p).core.tcm := by
  rw [tcmWrite_eq, sramWritten_fields]

theorem tcmWord_congr (h : r.core.tcm = s.core.tcm) (u i : Nat) : r.tcmWord u i = s.tcmWord u i := by
  unfold State.tcmWord
  rw [h]

/-- A whole word reads as the 64-bit value stored in it. -/
theorem tcmWrite_word (s : State) (t w : Nat) (p : Bool) (hv : v < 2 ^ 64) : (s.tcmWrite t w 0 8 v p).tcmWord t w = v := by
  have whole : setBits (s.tcmWord t w) 0 64 v = v := by
    rw [setBits_eq, Nat.div_eq_of_lt (tcmWord_lt s t w), Nat.mod_eq_of_lt hv]
    omega
  rw [tcmWord_congr (tcmWrite_tcm s t w 0 8 v p), tcmStored_word s t w 0 8 v p (by decide)]
  exact whole

theorem tcmWrite_word_ne (s : State) (b n v : Nat) (p : Bool) (h : tk t w ≠ tk u i) : (s.tcmWrite t w b n v p).tcmWord u i = s.tcmWord u i := by
  rw [tcmWord_congr (tcmWrite_tcm s t w b n v p), tcmStored_word_ne s v p h]

end

/-! ### Numbers and bytes (R5) -/

theorem bits_byte_succ (v i : Nat) : bits v (8 * (i + 1)) 8 = bits (v / 256) (8 * i) 8 := by
  unfold bits
  rw [Nat.mul_add, Nat.add_comm, Nat.shiftRight_add, Nat.shiftRight_eq_div_pow v]

theorem leBytes_eq (n v : Nat) : leBytes n v = (List.range n).map fun i => bits v (8 * i) 8 := by
  induction n generalizing v with
  | zero => rfl
  | succ n ih =>
    rw [leBytes, ih, List.range_succ_eq_map, List.map_cons, List.map_map]
    exact congrArg (_ :: ·) (List.map_congr_left fun i _ => (bits_byte_succ v i).symm)

theorem leNum_lt (l : List Nat) (h : ∀ v ∈ l, v < 256) : leNum l < 2 ^ (8 * l.length) := by
  induction l with
  | nil => exact Nat.one_pos
  | cons b l ih =>
    obtain ⟨hb, hl⟩ := List.forall_mem_cons.1 h
    have rest := ih hl
    rw [leNum, List.length_cons, Nat.mul_add, Nat.pow_add]
    omega

theorem bits_leNum (l : List Nat) (h : ∀ v ∈ l, v < 256) (i : Nat) : bits (leNum l) (8 * i) 8 = l.getD i 0 := by
  induction l generalizing i with
  | nil => simp [leNum, bits]
  | cons b l ih =>
    obtain ⟨hb, hl⟩ := List.forall_mem_cons.1 h
    rw [leNum]
    cases i with
    | zero =>
      show (b + 256 * leNum l) >>> 0 % 2 ^ 8 = b
      rw [Nat.shiftRight_zero]
      omega
    | succ i =>
      rw [bits_byte_succ, show (b + 256 * leNum l) / 256 = leNum l by omega, ih hl]
      rfl

/-! ### Bytes of data TCM -/

/-- The word of data TCM at an address. -/
def dataWord (a : Nat) : Nat := 65536 + (a - 0x80000) / 8

theorem dataWord_eq (a : Nat) : dataWord a = 65536 + (a - 0x80000) / 8 := rfl

theorem tcmIndex_data {a : Nat} (lo : 0x80000 ≤ a) (hi : a < 0x100000) : tcmIndex a = some (dataWord a) := by
  unfold tcmIndex
  rw [if_neg (by omega), if_pos hi]
  rfl

theorem dataWord_lt {a : Nat} (hi : a < 0x100000) : dataWord a < 131072 := by
  rw [dataWord_eq]
  omega

/-- The bytes of an aligned word of data TCM. -/
theorem tcmByte_data (s : State) (t : Nat) {a i : Nat} (ha : a % 8 = 0) (lo : 0x80000 ≤ a) (hi : a + i < 0x100000) (h8 : i < 8) :
    s.tcmByte t (a + i) = bits (s.tcmWord t (dataWord a)) (8 * i) 8 := by
  have word : dataWord (a + i) = dataWord a := by simp only [dataWord_eq]; omega
  have place : (a + i) % 8 = i := by omega
  unfold State.tcmByte
  rw [tcmIndex_data (by omega) hi, word, place, State.tcmWord]

/-- The n bytes from an address of data TCM on can be read: no parity flip, no poison mark. -/
def State.CleanData (s : State) (t a n : Nat) : Prop :=
  ∀ i, i < n → smGet s.core.tcmParity (tk t ((tcmIndex (a + i)).getD 0)) 0 = 0 ∧ s.tcmMarked t ((tcmIndex (a + i)).getD 0) = false

/-- Words of data TCM that can be read give their bytes and change nothing. -/
theorem tcmTake_clean (s : State) (t k : Nat) {a : Nat} (ha : a % 8 = 0) (lo : 0x80000 ≤ a) (hi : a + 8 * k ≤ 0x100000)
    (h : s.CleanData t a (8 * k)) : s.tcmTake t k a = (s, (List.range (8 * k)).map fun i => s.tcmByte t (a + i), false) := by
  induction k generalizing a with
  | zero => rfl
  | succ k ih =>
    obtain ⟨parity, mark⟩ := h 0 (by omega)
    have rest := ih (a := a + 8) (by omega) (by omega) (by omega) fun i hi => by
      have := h (8 + i) (by omega)
      rwa [← Nat.add_assoc] at this
    have first : leBytes 8 (s.tcmWord t ((tcmIndex a).getD 0)) = (List.range 8).map fun i => s.tcmByte t (a + i) := by
      rw [leBytes_eq, tcmIndex_data lo (by omega), Option.getD_some]
      exact List.map_congr_left fun i h8 => (tcmByte_data s t ha lo (by have := List.mem_range.1 h8; omega) (List.mem_range.1 h8)).symm
    rw [Nat.add_zero] at parity mark
    rw [State.tcmTake, tcmRead_clean parity]
    dsimp only
    rw [rest, mark, first, Nat.mul_add, Nat.mul_one, Nat.add_comm (8 * k) 8, List.range_add, List.map_append, List.map_map]
    dsimp only [Function.comp_def]
    simp only [Nat.add_assoc, Bool.or_self]

section
variable (t : Nat)

theorem tcmPut_onlyTcm (k : Nat) (s : State) (a : Nat) (bs : List Nat) : s.OnlyTcm (s.tcmPut t k a bs) := by
  induction k generalizing s a bs with
  | zero => exact .refl s
  | succ k ih => exact (tcmWrite_onlyTcm s ..).trans (ih _ _ _)

/-- A run of words leaves the words below it. -/
theorem tcmPut_below (k : Nat) (s : State) {a : Nat} (bs : List Nat) (ha : a % 8 = 0) (lo : 0x80000 ≤ a) (hi : a + 8 * k ≤ 0x100000) {i : Nat}
    (h : i < dataWord a) : (s.tcmPut t k a bs).tcmWord t i = s.tcmWord t i := by
  induction k generalizing s a bs with
  | zero => rfl
  | succ k ih =>
    have next : dataWord (a + 8) = dataWord a + 1 := by simp only [dataWord_eq]; omega
    have apart : tk t (dataWord a) ≠ tk t i := by unfold tk; omega
    rw [State.tcmPut, ih _ _ (by omega) (by omega) (by omega) (by omega), tcmIndex_data lo (by omega), Option.getD_some,
      tcmWrite_word_ne _ _ _ _ _ apart]

/-- Bytes put into data TCM are read back. -/
theorem tcmPut_byte (k : Nat) (s : State) {a : Nat} {bs : List Nat} (ha : a % 8 = 0) (lo : 0x80000 ≤ a) (hi : a + 8 * k ≤ 0x100000)
    (hl : bs.length = 8 * k) (hb : ∀ v ∈ bs, v < 256) {i : Nat} (h : i < 8 * k) : (s.tcmPut t k a bs).tcmByte t (a + i) = bs.getD i 0 := by
  induction k generalizing s a bs i with
  | zero => omega
  | succ k ih =>
    by_cases h8 : i < 8
    · have next : dataWord a < dataWord (a + 8) := by simp only [dataWord_eq]; omega
      have low : ∀ v ∈ bs.take 8, v < 256 := fun v hv => hb v (List.mem_of_mem_take hv)
      have size : leNum (bs.take 8) < 2 ^ 64 :=
        Nat.lt_of_lt_of_le (leNum_lt _ low) (Nat.pow_le_pow_right (by decide) (by rw [List.length_take]; omega))
      rw [tcmByte_data _ t ha lo (by omega) h8, State.tcmPut, tcmPut_below t k _ _ (by omega) (by omega) (by omega) next,
        tcmIndex_data lo (by omega), Option.getD_some, tcmWrite_word _ _ _ _ size, bits_leNum _ low]
      simp [List.getD_eq_getElem?_getD, h8]
    · have rest := ih (a := a + 8) (bs := bs.drop 8) (i := i - 8) (s.tcmWrite t ((tcmIndex a).getD 0) 0 8 (leNum (bs.take 8)) false)
        (by omega) (by omega) (by omega) (by rw [List.length_drop]; omega) (fun v hv => hb v (List.mem_of_mem_drop hv)) (by omega)
      rw [show a + 8 + (i - 8) = a + i by omega] at rest
      rw [State.tcmPut, rest, List.getD_eq_getElem?_getD, List.getD_eq_getElem?_getD, List.getElem?_drop, show 8 + (i - 8) = i by omega]

end

end Sys2Proof.Machine

/-!
# Messages and descriptors of crews

What SEND, RECV, POST and POLL do (R85 to R87).
-/

namespace Sys2Proof.Machine

/-! ### An instruction that writes gd after what else it does -/

section
variable {s u : State} {t c i v pc d : Nat}

theorem resultDone_gr (h : i ≠ 0) : (((u.setG t c i v).crewDone t c pc).crew t c).gr i = v % 2 ^ 64 := by
  rw [State.crewDone, crew_setCrew_same, State.setG, crew_setCrew_same]
  exact gr_setG_same _ v h

theorem resultDone_gr_zero : (((u.setG t c i 0).crewDone t c pc).crew t c).gr i = 0 := by
  by_cases h : i = 0
  · subst h
    rfl
  · rw [resultDone_gr h, Nat.zero_mod]

theorem resultDone_pc : (((u.setG t c i v).crewDone t c pc).crew t c).pc = pc % 2 ^ 64 := by
  rw [State.crewDone, crew_setCrew_same]

/-- Writing gd and completing leave the receive queue and the PENDING word of every crew. -/
theorem resultDone_keeps (d : Nat) : (((u.setG t c i v).crewDone t c pc).crew t d).recvq = (u.crew t d).recvq ∧
    (((u.setG t c i v).crewDone t c pc).crew t d).pending = (u.crew t d).pending := by
  unfold State.crewDone State.setG
  rw [crew_setCrew, crew_setCrew_same, crew_setCrew]
  by_cases h : tk t c = tk t d
  · have same : u.crew t c = u.crew t d := by unfold State.crew; rw [h]
    rw [if_pos h, ← same]
    unfold Crew.setG
    split <;> exact ⟨rfl, rfl⟩
  · rw [if_neg h, if_neg h]
    exact ⟨rfl, rfl⟩

end

/-! ### Buffers in data TCM (R65, R66) -/

/-- A crew may use the n bytes from an address of data TCM on, aligned to 8, and they can be read. -/
def State.OpenBuffer (s : State) (t c a n : Nat) : Prop :=
  a % 8 = 0 ∧ 0x80000 ≤ a ∧ a + n ≤ 0x100000 ∧ (c < 2 ∨ s.sysRegion t a = false) ∧ s.CleanData t a n

section
variable {s : State} {t c w a n : Nat}

theorem dataFault_open {m : Nat} (h : s.OpenBuffer t c a n) (hc : c < 8) (hm : a % m = 0) : s.dataFault t c a n m = none := by
  obtain ⟨-, lo, hi, priv, -⟩ := h
  have allowed : ¬(appCrew (whoCrew t c) = true ∧ s.sysRegion t a = true) := by
    rw [appCrew_whoCrew t hc]
    rcases priv with p | p <;> simp [p]
  unfold State.dataFault
  rw [if_neg (not_not.2 hm), if_neg (by omega), if_neg allowed]

theorem OpenBuffer_take {k : Nat} (h : s.OpenBuffer t c a (8 * k)) :
    s.tcmTake t k a = (s, (List.range (8 * k)).map fun i => s.tcmByte t (a + i), false) := by
  obtain ⟨ha, lo, hi, -, clean⟩ := h
  exact tcmTake_clean s t k ha lo hi clean

theorem State.OpenBuffer.refetched (h : s.OpenBuffer t c a n) : (s.refetched t c).OpenBuffer t c a n := h

theorem State.Issues.busy_eq (h : s.Issues t c w) : smGet s.core.ctlBusy t false = false := by
  have := h.1
  simp only [State.crewReady, Bool.and_eq_true, Bool.not_eq_true'] at this
  exact this.1.1.2

/-! ### SEND (R85) -/

/-- The receive queue of a crew with the message, the crew's line asserted. -/
def State.queued (s : State) (t : Nat) (m : CrewMsg) : State :=
  (s.setCrew t m.dstCrew { s.crew t m.dstCrew with recvq := (s.crew t m.dstCrew).recvq ++ [m] }).assertLine t (40 + m.dstCrew)

theorem crewMsgArrive_room {m : CrewMsg} (hb : smGet s.core.ctlBusy t false = false) (room : (s.crew t m.dstCrew).recvq.length < 8) :
    s.crewMsgArrive t m = ((s.queued t m).sramWritten t 15, 0) := by
  unfold State.crewMsgArrive
  dsimp only
  rw [hb, if_neg Bool.false_ne_true, if_neg (by unfold recvCap; omega)]
  rfl

theorem queued_recvq (s : State) (t k : Nat) {m : CrewMsg} (hd : m.dstCrew < 8) :
    (((s.queued t m).sramWritten t k).crew t m.dstCrew).recvq = (s.crew t m.dstCrew).recvq ++ [m] := by
  rw [crew_sramWritten, State.queued, assertLine_crew _ _ _ _ hd, crew_setCrew_same]

theorem queued_pending (s : State) (t k : Nat) (m : CrewMsg) {d : Nat} (hd : d < 8) :
    bit (((s.queued t m).sramWritten t k).crew t d).pending (40 + m.dstCrew) = true :=
  (sramWritten_keepsLines _ t k).pending t d _ (assertLine_pending _ t _ d hd)

/-- SEND to a crew of the own tile with room: its message. -/
def State.ownMsg (s : State) (t c a n dst : Nat) : CrewMsg :=
  { num := s.core.sends, srcTile := t, srcCrew := c, dstCrew := dst, payload := (List.range n).map fun i => s.tcmByte t (a + i) }

theorem actSend_own {b : Nat} (hf : bits w 1 10 = 0) (ha : s.gr t c (gaOf w) = a) (hb : s.gr t c (gbOf w) = b) (h13 : b < 2 ^ 13)
    (hn : bits b 6 7 = n) (h8 : n % 8 = 0) (lo : 8 ≤ n) (hi : n ≤ 64) (ht : bits b 0 3 = t) (hc : c < 8) (buf : s.OpenBuffer t c a n) :
    actSend t c s w = (s.crewMsgArrive t (s.ownMsg t c a n (bits b 3 3))).1.result t c w (s.crewMsgArrive t (s.ownMsg t c a n (bits b 3 3))).2 := by
  have words : 8 * (n / 8) = n := by omega
  have take := OpenBuffer_take (k := n / 8) (by rwa [words])
  have legal : ¬(bits w 1 10 ≠ 0 ∨ b / 2 ^ 13 ≠ 0 ∨ n = 0 ∨ 64 < n ∨ n % 8 ≠ 0) := by omega
  unfold actSend
  dsimp only
  rw [ha, hb, hn, if_neg legal, dataFault_open buf hc buf.1]
  dsimp only
  rw [take, words, if_neg Bool.false_ne_true, if_pos ht]
  rfl

theorem does_send (h : s.Issues t c w) (ho : opOf w = 0x34) (hf : bits w 0 11 = 0) {b : Nat} (ha : (s.crew t c).gr (gaOf w) = a)
    (hb : (s.crew t c).gr (gbOf w) = b) (h13 : b < 2 ^ 13) (hn : bits b 6 7 = n) (h8 : n % 8 = 0) (lo : 8 ≤ n) (hi : n ≤ 64)
    (ht : bits b 0 3 = t) (buf : s.OpenBuffer t c a n) (room : (s.crew t (bits b 3 3)).recvq.length < 8) :
    Does (.send t c) s fun r =>
      (r.crew t (bits b 3 3)).recvq = (s.crew t (bits b 3 3)).recvq ++ [s.ownMsg t c a n (bits b 3 3)] ∧
      (r.crew t c).gr (gdOf w) = 0 ∧ (r.crew t c).pc = ((s.crew t c).pc + 4) % 2 ^ 64 ∧
      ∀ d, d < 8 → bit (r.crew t d).pending (40 + bits b 3 3) = true := by
  have row : insnRow w = some 0x3400 := (insnRow_transport ho (by decide)).trans (by rw [bits_of_low hf 0 1 (by decide)]; rfl)
  have act := actSend_own (s := s.refetched t c) (bits_of_low hf 1 10 (by decide)) (by rw [refetched_gr, ha]) (by rw [refetched_gr, hb]) h13 hn h8 lo
    hi ht h.crew_lt buf.refetched
  have arrive := crewMsgArrive_room (s := s.refetched t c) (m := s.ownMsg t c a n (bits b 3 3)) h.busy_eq (by rwa [refetched_crew])
  have queue := queued_recvq (s.refetched t c) t 15 (m := s.ownMsg t c a n (bits b 3 3)) (bits_lt b 3 3)
  have lines := fun d hd => queued_pending (s.refetched t c) t 15 (s.ownMsg t c a n (bits b 3 3)) (d := d) hd
  change actSend t c (s.refetched t c) w = State.result (State.crewMsgArrive _ t (s.ownMsg t c a n (bits b 3 3))).1 t c w
    (State.crewMsgArrive _ t (s.ownMsg t c a n (bits b 3 3))).2 at act
  rw [arrive] at act
  rw [refetched_crew] at queue
  generalize ((s.refetched t c).queued t (s.ownMsg t c a n (bits b 3 3))).sramWritten t 15 = u at *
  refine does_next h rfl row act ⟨?_, resultDone_gr_zero, resultDone_pc, fun d hd => ?_⟩
  · rw [(resultDone_keeps _).1]
    exact queue
  · rw [(resultDone_keeps d).2]
    exact lines d hd

/-! ### RECV (R85) -/

theorem row_recv (ho : opOf w = 0x34) (hf : bits w 0 11 = 1) : insnRow w = some 0x3401 :=
  (insnRow_transport ho (by decide)).trans (by rw [bits_of_low hf 0 1 (by decide)]; rfl)

theorem does_recv_empty (h : s.Issues t c w) (ho : opOf w = 0x34) (hf : bits w 0 11 = 1) (hb : gbOf w = 0)
    (buf : s.OpenBuffer t c ((s.crew t c).gr (gaOf w)) 64) (none : (s.crew t c).recvq = []) :
    Does (.recv t c) s fun r => s.OnlyCrew r t c (((s.crew t c).setG (gdOf w) 0).completed s.now ((s.crew t c).pc + 4)) := by
  refine does_result_only h rfl (row_recv ho hf) ?_
  unfold actRecv
  dsimp only
  rw [mustZero_of_zero (by rw [bits_of_low hf 1 10 (by decide), hb]; rfl), refetched_gr, dataFault_open buf.refetched h.crew_lt buf.1, refetched_crew,
    none]

/-- The state of RECV with its message taken into the buffer. -/
def State.received (s : State) (t c a : Nat) (m : CrewMsg) (l : List CrewMsg) : State :=
  (s.setCrew t c { s.crew t c with recvq := l }).tcmPut t (m.payload.length / 8) a m.payload

theorem received_recvq (s : State) (t c a : Nat) (m : CrewMsg) (l : List CrewMsg) : ((s.received t c a m l).crew t c).recvq = l := by
  unfold State.received
  rw [(tcmPut_onlyTcm t _ _ a m.payload).2 t c, crew_setCrew_same]

theorem does_recv {m : CrewMsg} {l : List CrewMsg} (h : s.Issues t c w) (ho : opOf w = 0x34) (hf : bits w 0 11 = 1) (hb : gbOf w = 0)
    (ha : (s.crew t c).gr (gaOf w) = a) (buf : s.OpenBuffer t c a 64) (queue : (s.crew t c).recvq = m :: l) (h8 : m.payload.length % 8 = 0)
    (h64 : m.payload.length ≤ 64) (bytes : ∀ v ∈ m.payload, v < 256) (hd : gdOf w ≠ 0) :
    Does (.recv t c) s fun r =>
      (r.crew t c).recvq = l ∧ (r.crew t c).gr (gdOf w) = (m.srcTile + 8 * m.srcCrew + 64 * m.payload.length + 2 ^ 13) % 2 ^ 64 ∧
      (r.crew t c).pc = ((s.crew t c).pc + 4) % 2 ^ 64 ∧ ∀ i, i < m.payload.length → r.tcmByte t (a + i) = m.payload.getD i 0 := by
  have ok := dataFault_open buf.refetched h.crew_lt buf.1
  obtain ⟨align, lo, hi, -, -⟩ := buf
  have act : actRecv t c (s.refetched t c) w = ((s.refetched t c).received t c a m l).result t c w
      (m.srcTile + 8 * m.srcCrew + 64 * m.payload.length + 2 ^ 13) := by
    unfold actRecv State.received
    dsimp only
    rw [mustZero_of_zero (by rw [bits_of_low hf 1 10 (by decide), hb]; rfl), refetched_gr, ha, ok, refetched_crew, queue]
  have taken := received_recvq (s.refetched t c) t c a m l
  have read : ∀ i, i < m.payload.length → ((s.refetched t c).received t c a m l).tcmByte t (a + i) = m.payload.getD i 0 := fun i hlt =>
    tcmPut_byte t (m.payload.length / 8) _ align lo (by omega) (by omega) bytes (by omega)
  generalize (s.refetched t c).received t c a m l = u at *
  refine does_next h rfl (row_recv ho hf) act ⟨?_, resultDone_gr hd, resultDone_pc, read⟩
  rw [(resultDone_keeps c).1, taken]

/-! ### POST and POLL (R86, R87) -/

/-- The descriptor that a crew posts: the bytes of its 32-byte record (R86). -/
def DmaDesc.ofBytes (ticket crew : Nat) (bs : List Nat) : DmaDesc :=
  let at_ := fun i n => leNum ((bs.drop i).take n)
  { ticket := ticket, crew := crew, src := at_ 0 8, dst := at_ 8 8, len := at_ 0x10 4, line := bits (at_ 0x14 4) 0 6
    lineEn := bit (at_ 0x14 4) 6, fill := bit (at_ 0x14 4) 7, bad := decide (at_ 0x14 4 / 256 ≠ 0) || decide (at_ 0x18 8 ≠ 0) }

/-- The engine after a descriptor's ticket is issued: it joins the queue where it keeps the rules. -/
def DmaSt.issued (d : DmaSt) (e : DmaDesc) (sound : Bool) : DmaSt :=
  { queue := if sound then d.queue ++ [e] else d.queue, next := (d.next + 1) % 65536, status := smDel ((d.next + 65536 - 64) % 65536) d.status }

/-- The state after a descriptor is posted: one that breaks a rule completes at once (R87). -/
def State.posted (s : State) (t : Nat) (e : DmaDesc) : State :=
  let q := s.setDma t ((s.dma t).issued e (s.dmaSound t e))
  if s.dmaSound t e then q.sramWritten t 15 else q.dmaStatus t e 4 0

/-- A part of the record, as a number. -/
theorem record_part (s : State) (t a i n : Nat) (h : i + n ≤ 32) :
    leNum ((((List.range 32).map fun k => s.tcmByte t (a + k)).drop i).take n) = leNum ((List.range n).map fun k => s.tcmByte t (a + i + k)) := by
  congr 1
  apply List.ext_getElem
  · simp
    omega
  · intro k hk hk'
    simp [Nat.add_assoc]

theorem actPost_room (hf : bits w 1 10 = 0) (hb : gbOf w = 0) (ha : s.gr t c (gaOf w) = a) (h32 : a % 32 = 0) (hc : c < 8)
    (buf : s.OpenBuffer t c a 32) (room : (s.dma t).queue.length < 32) {e : DmaDesc}
    (he : e = .ofBytes (s.dma t).next c ((List.range 32).map fun i => s.tcmByte t (a + i))) :
    actPost t c s w = (s.posted t e).result t c w (s.dma t).next := by
  have take := OpenBuffer_take (k := 4) buf
  rw [he]
  unfold actPost
  dsimp only
  rw [mustZero_of_zero (by rw [hf, hb]), ha, dataFault_open buf hc h32]
  dsimp only
  rw [take, if_neg Bool.false_ne_true, if_neg (Nat.not_le.2 room)]
  rfl

theorem statusOf_absent {d : DmaSt} {k st n : Nat} (h : ∀ e ∈ d.queue, e.ticket ≠ k) (hs : smLook d.status k = some (st, n)) :
    d.statusOf k = st + n * 2 ^ 32 := by
  have none : d.queue.findIdx? (fun e => decide (e.ticket = k)) = none := List.findIdx?_eq_none_iff.2 fun e he => by simpa using h e he
  unfold DmaSt.statusOf
  rw [none, hs]

theorem assertLine_dma (s : State) (t line u : Nat) : (s.assertLine t line).dma u = s.dma u := each_keeps (·.dma u) s _ _ fun _ _ => rfl

/-- A ticket's status is recorded; of the engine nothing else changes. -/
theorem dmaStatus_dma (s : State) (t : Nat) (d : DmaDesc) (st n : Nat) :
    (s.dmaStatus t d st n).dma t = { s.dma t with status := smIns d.ticket (st, n) (s.dma t).status } := by
  unfold State.dmaStatus
  exact (when_keeps (·.dma t) _ _ _ fun r => assertLine_dma r t _ t).trans (dma_setDma_same s t _)

theorem posted_spec {e : DmaDesc} (he : e.ticket = (s.dma t).next) (new : ∀ q ∈ (s.dma t).queue, q.ticket ≠ (s.dma t).next) :
    (if s.dmaSound t e = true then ((s.posted t e).dma t).queue = (s.dma t).queue ++ [e]
      else ((s.posted t e).dma t).queue = (s.dma t).queue ∧ ((s.posted t e).dma t).statusOf e.ticket = 4) ∧
    ((s.posted t e).dma t).next = ((s.dma t).next + 1) % 65536 := by
  unfold State.posted
  dsimp only
  cases s.dmaSound t e with
  | true =>
    have dma : ((s.setDma t ((s.dma t).issued e true)).sramWritten t 15).dma t = (s.dma t).issued e true := by
      rw [sramWritten_fields]
      exact dma_setDma_same s t _
    rw [if_pos rfl, if_pos rfl, dma]
    exact ⟨rfl, rfl⟩
  | false =>
    rw [if_neg Bool.false_ne_true, if_neg Bool.false_ne_true, dmaStatus_dma, dma_setDma_same]
    exact ⟨⟨rfl, statusOf_absent (st := 4) (n := 0) (fun q hq => he ▸ new q hq) (smLook_smIns_same ..)⟩, rfl⟩

theorem does_post (h : s.Issues t c w) (ho : opOf w = 0x35) (hf : bits w 0 11 = 0) (hb : gbOf w = 0) (ha : (s.crew t c).gr (gaOf w) = a)
    (h32 : a % 32 = 0) (buf : s.OpenBuffer t c a 32) (room : (s.dma t).queue.length < 32) (small : (s.dma t).next < 65536) (hd : gdOf w ≠ 0)
    (new : ∀ q ∈ (s.dma t).queue, q.ticket ≠ (s.dma t).next) {e : DmaDesc}
    (he : e = .ofBytes (s.dma t).next c ((List.range 32).map fun i => s.tcmByte t (a + i))) :
    Does (.post t c) s fun r =>
      (if s.dmaSound t e = true then (r.dma t).queue = (s.dma t).queue ++ [e]
        else (r.dma t).queue = (s.dma t).queue ∧ (r.dma t).statusOf e.ticket = 4) ∧
      (r.dma t).next = ((s.dma t).next + 1) % 65536 ∧ (r.crew t c).gr (gdOf w) = (s.dma t).next := by
  have row : insnRow w = some 0x3500 := (insnRow_transport ho (by decide)).trans (by rw [bits_of_low hf 0 1 (by decide)]; rfl)
  have act := actPost_room (s := s.refetched t c) (bits_of_low hf 1 10 (by decide)) hb (by rw [refetched_gr, ha]) h32 h.crew_lt buf.refetched
    room he
  have spec := posted_spec (s := s.refetched t c) (t := t) (e := e) (by rw [he]; rfl) new
  generalize (s.refetched t c).posted t e = u at *
  refine does_next h rfl row act ⟨spec.1, spec.2, ?_⟩
  rw [resultDone_gr hd]
  exact Nat.mod_eq_of_lt (Nat.lt_trans small (by decide))

theorem does_poll (h : s.Issues t c w) (ho : opOf w = 0x35) (hf : bits w 0 11 = 1) (hb : gbOf w = 0) :
    Does (.poll t c) s fun r => s.OnlyCrew r t c
      (((s.crew t c).setG (gdOf w) ((s.dma t).statusOf ((s.crew t c).gr (gaOf w) % 65536))).completed s.now ((s.crew t c).pc + 4)) := by
  have row : insnRow w = some 0x3501 := (insnRow_transport ho (by decide)).trans (by rw [bits_of_low hf 0 1 (by decide)]; rfl)
  refine does_result_only h rfl row ((mustZero_of_zero (by rw [bits_of_low hf 1 10 (by decide), hb]; rfl)).trans ?_)
  rw [refetched_gr]
  rfl

end

end Sys2Proof.Machine

/-!
# DMA, the watchdog and a restart of CTL

What DMA_TRANSFER of a fill descriptor, CREW_WATCHDOG and CTL_RESTART do (R51, R59, R63, R86 to R88, R91).
-/

namespace Sys2Proof.Machine

/-! ### A fill descriptor (R87) -/

section
variable {s : State} {t : Nat} {d : DmaDesc}

theorem dmaSound_aligned (h : s.dmaSound t d = true) : 8 ≤ d.len ∧ d.len % 8 = 0 ∧ d.dst % 8 = 0 := by
  simp only [State.dmaSound, Bool.and_eq_true, decide_eq_true_eq, beq_iff_eq] at h
  obtain ⟨⟨⟨⟨⟨⟨⟨⟨-, len⟩, -⟩, words⟩, dst⟩, -⟩, -⟩, -⟩, -⟩ := h
  exact ⟨len, words, dst⟩

/-- Crews 0 and 1 write every word of data TCM. -/
theorem dmaWrite_data {c a v : Nat} {p : Bool} (hc : c < 2) (lo : 0x80000 ≤ a) (hi : a < 0x100000) :
    s.dmaWrite t c a v p = (s.tcmWrite t (dataWord a) 0 8 v p, true) := by
  unfold State.dmaWrite
  rw [placeOf_tcm t hi, tcmIndex_data lo hi, Option.getD_some]
  dsimp only
  rw [tcm_writable (by omega) (Or.inl hc), if_neg Bool.false_ne_true]

/-- A fill goes to its end: it writes its value in each of its words in turn and leaves the words below them. -/
theorem dmaWords_fill (fill : d.fill = true) (hc : d.crew < 2) (lo : 0x80000 ≤ d.dst) (h8 : d.dst % 8 = 0) (hv : d.src < 2 ^ 64) (k : Nat)
    (s : State) {i : Nat} (hi : d.dst + 8 * (i + k) ≤ 0x100000) : ∃ r, s.dmaWords t d k i false = (r, i + k, false, true) ∧ s.OnlyTcm r ∧
      (∀ j, j < k → r.tcmWord t (dataWord d.dst + i + j) = d.src) ∧ ∀ j, j < dataWord d.dst + i → r.tcmWord t j = s.tcmWord t j := by
  induction k generalizing s i with
  | zero => exact ⟨s, rfl, .refl s, fun j hj => absurd hj (Nat.not_lt_zero j), fun _ _ => rfl⟩
  | succ k ih =>
    have place : dataWord (d.dst + 8 * i) = dataWord d.dst + i := by
      simp only [dataWord_eq]
      omega
    have write := dmaWrite_data (s := s) (t := t) (v := d.src) (p := false) hc (a := d.dst + 8 * i) (by omega) (by omega)
    rw [place] at write
    have here := tcmWrite_word s t (dataWord d.dst + i) false hv
    have below : ∀ j, j < dataWord d.dst + i → (s.tcmWrite t (dataWord d.dst + i) 0 8 d.src false).tcmWord t j = s.tcmWord t j := fun j hj =>
      tcmWrite_word_ne s 0 8 d.src false (by unfold tk; omega)
    have only := tcmWrite_onlyTcm s t (dataWord d.dst + i) 0 8 d.src false
    generalize s.tcmWrite t (dataWord d.dst + i) 0 8 d.src false = z at *
    obtain ⟨r, run, rest, words, kept⟩ := ih z (i := i + 1) (by omega)
    have go : s.dmaWords t d (k + 1) i false = z.dmaWords t d k (i + 1) false := by
      rw [State.dmaWords, if_pos fill]
      dsimp only
      rw [write]
      rfl
    refine ⟨r, ?_, only.trans rest, fun j hj => ?_, fun j hj => ?_⟩
    · rw [go, run, Nat.add_assoc, Nat.add_comm 1 k]
    · cases j with
      | zero => rw [Nat.add_zero, kept _ (by omega), here]
      | succ j => rw [← words j (by omega), Nat.add_assoc, Nat.add_assoc, Nat.add_assoc, Nat.add_comm 1 j]
    · rw [kept j (by omega), below j hj]

/-! ### The end of a descriptor (R86, R89) -/

/-- The end of a descriptor, before the crews whose FENCE waited go on. -/
def State.dmaEnded (s : State) (t : Nat) (d : DmaDesc) (st n : Nat) : State :=
  (s.setDma t { s.dma t with queue := (s.dma t).queue.drop 1 }).dmaStatus t d st n

/-- A FENCE that waited for DMA completes where no descriptor of its crew is left. -/
def State.fenceDone (s : State) (t c : Nat) : State :=
  let y := s.crew t c
  match y.wait with
  | some .dma =>
    if (s.dma t).queue.any fun (e : DmaDesc) => decide (e.crew = c) then s
    else (s.setCrew t c { y with wait := none }).crewDone t c (y.pc + 4)
  | _ => s

theorem dmaEnd_eq (s : State) (t : Nat) (d : DmaDesc) (st n : Nat) :
    s.dmaEnd t d st n = (s.dmaEnded t d st n).each (List.range 8) fun s c => s.fenceDone t c := rfl

theorem fenceDone_fields (s : State) (t c : Nat) : s.fenceDone t c = { s with core.crews := (s.fenceDone t c).core.crews } := by
  unfold State.fenceDone
  dsimp only
  split
  · split <;> rfl
  · rfl

theorem dmaEnd_dma (s : State) (t : Nat) (d : DmaDesc) (st n : Nat) : (s.dmaEnd t d st n).dma t =
    { s.dma t with queue := (s.dma t).queue.drop 1, status := smIns d.ticket (st, n) (s.dma t).status } := by
  rw [dmaEnd_eq, each_keeps (·.dma t) _ _ _ fun r c => by rw [fenceDone_fields]; rfl, State.dmaEnded, dmaStatus_dma, dma_setDma_same]

theorem dmaStatus_tcm (s : State) (t : Nat) (d : DmaDesc) (st n : Nat) : (s.dmaStatus t d st n).core.tcm = s.core.tcm := by
  unfold State.dmaStatus
  dsimp only
  rw [when_keeps (·.core.tcm) _ _ _ fun r => by rw [assertLine_eq]]
  rfl

theorem dmaEnd_tcm (s : State) (t : Nat) (d : DmaDesc) (st n : Nat) : (s.dmaEnd t d st n).core.tcm = s.core.tcm := by
  rw [dmaEnd_eq, each_keeps (·.core.tcm) _ _ _ fun r c => by rw [fenceDone_fields], State.dmaEnded, dmaStatus_tcm]
  rfl

theorem dmaTransfer_runs {l : List DmaDesc} (hl : s.live t 0 = true) (hb : smGet s.core.ctlBusy t false = false)
    (hq : (s.dma t).queue = d :: l) (go : s.dmaStalls t d = false) : s.dmaTransfer t = s.dmaRun t := by
  unfold State.dmaTransfer
  rw [hq]
  dsimp only
  rw [if_pos ⟨hl, by simp [hb], by simp [go]⟩]

/-- A fill into TCM waits for nothing. -/
theorem dmaStalls_fill (fill : d.fill = true) (hi : d.dst < 0x100000) : s.dmaStalls t d = false := by
  unfold State.dmaStalls
  dsimp only
  rw [placeOf_tcm t hi, fill]
  rfl

theorem does_dmaTransfer {l : List DmaDesc} (hl : s.live t 0 = true) (hb : smGet s.core.ctlBusy t false = false)
    (hq : (s.dma t).queue = d :: l) (sound : s.dmaSound t d = true) (fill : d.fill = true) (hc : d.crew < 2) (lo : 0x80000 ≤ d.dst)
    (hi : d.dst + d.len ≤ 0x100000) (hv : d.src < 2 ^ 64) (new : ∀ e ∈ l, e.ticket ≠ d.ticket) : Does (.dmaTransfer t) s fun r =>
      (r.dma t).queue = l ∧ (r.dma t).statusOf d.ticket = 2 + d.len * 2 ^ 32 ∧
      ∀ i, i < d.len / 8 → r.tcmWord t (65536 + (d.dst - 0x80000) / 8 + i) = d.src := by
  obtain ⟨len, words, align⟩ := dmaSound_aligned sound
  obtain ⟨u, run, only, filled, -⟩ := dmaWords_fill (t := t) fill hc lo align hv (d.len / 8) s (i := 0) (by omega)
  have ran : s.dmaRun t = u.dmaEnd t d 2 d.len := by
    unfold State.dmaRun
    rw [hq]
    dsimp only
    rw [run]
    dsimp only
    rw [show 8 * (0 + d.len / 8) = d.len by omega]
    rfl
  refine does_when rfl hl ?_
  rw [dmaTransfer_runs hl hb hq (dmaStalls_fill fill (by omega)), ran, dmaEnd_dma, only.dma_eq t, hq]
  refine ⟨rfl, statusOf_absent new (smLook_smIns_same ..), fun i h => ?_⟩
  have word := filled i h
  rw [Nat.add_zero, dataWord_eq] at word
  rw [tcmWord_congr (dmaEnd_tcm u t d 2 d.len), word]

end

/-! ### The watchdog (R51, R91) -/

section
variable {s : State} {t c : Nat}

theorem does_crewWatchdog (hl : s.live t 0 = true) (hc : c < 8) (hb : smGet s.core.ctlBusy t false = false)
    (due : s.watchdogDue t c = true) (hv : (s.crew t c).evec ≠ 0) (hi : (s.crew t c).inexc = false) (hw : (s.crew t c).wait = none) :
    Does (.crewWatchdog t c) s fun r =>
      r.crew t c = { (s.crew t c).excepted s.now 9 0 0 (s.crew t c).pc with pending := (r.crew t c).pending } ∧ r.evtStat t 307 = true := by
  have runs : s.crewWatchdog t c = (s.raise t 307).crewExc t c 9 0 0 (s.crew t c).pc := by
    unfold State.crewWatchdog
    rw [hl, decide_eq_true hc, hb, due]
    dsimp only
    rw [hw]
    rfl
  have crew := crew_raise s t 307 t c (by decide)
  have stat := raise_stat s t 307 (by decide)
  have now : (s.raise t 307).now = s.now := by rw [raise_fields s t 307 (by decide)]
  generalize s.raise t 307 = u at *
  have handler : ¬((u.crew t c).evec = 0 ∨ (u.crew t c).inexc = true) := by
    rw [crew, hi]
    simp [hv]
  refine does_when rfl hl ?_
  rw [runs]
  unfold State.crewExc
  dsimp only
  rw [if_neg handler, crew_setCrew_same, now]
  refine ⟨?_, stat⟩
  rw [crew]
  rfl

/-! ### A restart of CTL (R59, R63) -/

/-- In a loop over crews, each named once, in which a round touches its own crew only, a crew ends as its own round leaves it. -/
theorem each_crew_round {g : State → Nat → State} {t d : Nat} (own : ∀ s e, e ≠ d → (g s e).crew t d = s.crew t d) (l : List Nat)
    (hl : l.Nodup) (hd : d ∈ l) (s : State) : ∃ q : State, q.crew t d = s.crew t d ∧ (s.each l g).crew t d = (g q d).crew t d := by
  induction l generalizing s with
  | nil => cases hd
  | cons e l ih =>
    obtain ⟨he, hl⟩ := List.nodup_cons.1 hl
    rw [each_cons]
    by_cases h : e = d
    · subst h
      have rest : ((g s e).each l g).crew t e = (g s e).crew t e := each_induct (fun r => r.crew t e = (g s e).crew t e) _ l g rfl
        fun r f hf hr => (own r f fun h => he (h ▸ hf)).trans hr
      exact ⟨s, rfl, rest⟩
    · obtain ⟨q, same, round⟩ := ih hl ((List.mem_cons.1 hd).resolve_left (Ne.symm h)) (g s e)
      exact ⟨q, same.trans (own s e h), round⟩

theorem crewNumber_ne {d e : Nat} (h : e ≠ d) : tk t e ≠ tk t d := by
  unfold tk
  omega

/-- A crew when a restart begins: stopped, without transaction, wait, fetched words or pending lines (R59). -/
def Crew.restarted (x : Crew) : Crew := { x with state := 0, wait := none, fetch := [], pending := 0, tx := none }

/-- The crews of a tile stop for a restart. -/
def State.crewsStopped (s : State) (t : Nat) : State := s.each (List.range 8) fun s c => s.setCrew t c (s.crew t c).restarted

theorem crewsStopped_crew (s : State) (t : Nat) {d : Nat} (hd : d < 8) : ((s.crewsStopped t).crew t d) = (s.crew t d).restarted := by
  obtain ⟨q, same, round⟩ := each_crew_round (g := fun s c => s.setCrew t c (s.crew t c).restarted) (t := t) (d := d)
    (fun r e he => crew_setCrew_ne r t e _ t d (crewNumber_ne he)) _ List.nodup_range (List.mem_range.2 hd) s
  rw [State.crewsStopped, round, crew_setCrew_same, same]

theorem crewsStopped_dma (s : State) (t u : Nat) : (s.crewsStopped t).dma u = s.dma u :=
  each_keeps (·.dma u) s _ (fun s c => s.setCrew t c (s.crew t c).restarted) fun _ _ => rfl

/-- The CTL island of a tile is in a restart, or is not. -/
def State.withBusy (s : State) (t : Nat) (b : Bool) : State := { s with core.ctlBusy := smPut s.core.ctlBusy t b false }

theorem withBusy_busy (s : State) (t : Nat) (b : Bool) : smGet (s.withBusy t b).core.ctlBusy t false = b := smGet_smPut_same _ t b false

theorem withBusy_crew (s : State) (t : Nat) (b : Bool) (u d : Nat) : (s.withBusy t b).crew u d = s.crew u d := rfl

theorem withBusy_dma (s : State) (t : Nat) (b : Bool) (u : Nat) : (s.withBusy t b).dma u = s.dma u := rfl

/-- A restart ends with DMA's queue and statuses emptied, the crews stopped, the island in its restart. -/
theorem ctlBegin_eq (s : State) (t : Nat) : ∃ u : State,
    s.ctlBegin t = ((u.setDma t { u.dma t with queue := [], status := [] }).crewsStopped t).withBusy t true := ⟨_, rfl⟩

theorem does_ctlRestart_begin (hl : s.live t 0 = true) (hr : s.run t = true) (hb : smGet s.core.ctlBusy t false = false) :
    Does (.ctlRestart t false) s fun r => smGet r.core.ctlBusy t false = true ∧ (r.dma t).queue = [] ∧
      ∀ c, c < 8 → (r.crew t c).state = 0 ∧ (r.crew t c).pending = 0 ∧ (r.crew t c).tx = none := by
  have runs : s.ctlRestart t false = s.ctlBegin t := by
    unfold State.ctlRestart
    dsimp only
    rw [hb, hr]
    rfl
  obtain ⟨u, begins⟩ := ctlBegin_eq s t
  refine does_when rfl hl ?_
  rw [runs, begins]
  refine ⟨withBusy_busy _ t true, ?_, fun c hc => ?_⟩
  · rw [withBusy_dma, crewsStopped_dma, dma_setDma_same]
  · rw [withBusy_crew, crewsStopped_crew _ t hc]
    exact ⟨rfl, rfl, rfl⟩

/-- The round of a crew when a restart ends: crews 0 and 1 begin, and those that restart by themselves (R59). -/
def State.crewRestarts (s : State) (t c : Nat) : State :=
  let s := s.setCrew t c { s.crew t c with pending := 0 }
  s.when (decide (c < 2) || s.on t (CREW_CTL_AUTORESTART c)) fun s => s.crewBegin t c (s.crew t c).entry

/-- The state with the restart over and the crews begun. -/
def State.ctlUp (s : State) (t : Nat) : State := (s.withBusy t false).each (List.range 8) fun s c => s.crewRestarts t c

theorem ctlEnd_eq (s : State) (t : Nat) : s.ctlEnd t = (s.ctlUp t).when (t == 0 && (s.ctlUp t).seam.rerouteDue) State.reroute := by
  unfold State.ctlEnd State.ctlUp State.crewRestarts State.withBusy
  rfl

theorem reroute_core (s : State) : s.reroute.core = s.core := by
  unfold State.reroute
  split
  · rfl
  · exact each_keeps State.core s _ _ fun r x => by
      unfold State.rerouteOne
      split <;> rfl

theorem ctlEnd_core (s : State) (t : Nat) : (s.ctlEnd t).core = (s.ctlUp t).core := by
  rw [ctlEnd_eq, when_keeps State.core _ _ _ reroute_core]

theorem crewRestarts_busy (s : State) (t c : Nat) : (s.crewRestarts t c).core.ctlBusy = s.core.ctlBusy :=
  when_keeps (·.core.ctlBusy) (s.setCrew t c _) _ _ fun _ => rfl

theorem crewRestarts_other (s : State) {t d e : Nat} (h : e ≠ d) : (s.crewRestarts t e).crew t d = s.crew t d :=
  (when_keeps (·.crew t d) (s.setCrew t e _) _ _ fun r => crew_setCrew_ne r t e _ t d (crewNumber_ne h)).trans
    (crew_setCrew_ne s t e _ t d (crewNumber_ne h))

/-- Crews 0 and 1 are READY at their entry points. -/
theorem crewRestarts_ready (s : State) (t : Nat) {c : Nat} (hc : c < 2) :
    ((s.crewRestarts t c).crew t c).state = 1 ∧ ((s.crewRestarts t c).crew t c).pc = (s.crew t c).entry := by
  unfold State.crewRestarts
  dsimp only
  rw [decide_eq_true hc, Bool.true_or, when_true, State.crewBegin, crew_setCrew_same, crew_setCrew_same]
  exact ⟨rfl, rfl⟩

theorem ctlUp_busy (s : State) (t : Nat) : smGet (s.ctlUp t).core.ctlBusy t false = false := by
  rw [State.ctlUp, each_keeps (·.core.ctlBusy) _ _ _ fun r c => crewRestarts_busy r t c, withBusy_busy]

theorem ctlUp_ready (s : State) (t : Nat) {c : Nat} (hc : c < 2) :
    ((s.ctlUp t).crew t c).state = 1 ∧ ((s.ctlUp t).crew t c).pc = (s.crew t c).entry := by
  obtain ⟨q, same, round⟩ := each_crew_round (g := fun s c => s.crewRestarts t c) (t := t) (d := c) (fun r e he => crewRestarts_other r he) _
    List.nodup_range (List.mem_range.2 (Nat.lt_trans hc (by decide : 2 < 8))) (s.withBusy t false)
  have ready := crewRestarts_ready q t hc
  rwa [← round, same, withBusy_crew, ← State.ctlUp] at ready

theorem crew_congr {r : State} (h : r.core = s.core) (u d : Nat) : r.crew u d = s.crew u d := by
  unfold State.crew
  rw [h]

theorem does_ctlRestart_end (hl : s.live t 0 = true) (hb : smGet s.core.ctlBusy t false = true) : Does (.ctlRestart t true) s fun r =>
    smGet r.core.ctlBusy t false = false ∧ ∀ c, c < 2 → (r.crew t c).state = 1 ∧ (r.crew t c).pc = (s.crew t c).entry := by
  have runs : s.ctlRestart t true = s.ctlEnd t := by
    unfold State.ctlRestart
    dsimp only
    rw [hb]
    rfl
  refine does_when rfl hl ?_
  rw [runs]
  refine ⟨?_, fun c hc => ?_⟩
  · rw [ctlEnd_core]
    exact ctlUp_busy s t
  · rw [crew_congr (ctlEnd_core s t)]
    exact ctlUp_ready s t hc

end

/-- Settles O29: each command's lemma above gives its part (R51, R59, R63, R85 to R88, R91). -/
theorem crewMessagesAndDmaComplete : Obligations.CrewMessagesAndDmaComplete := by
  unfold Obligations.CrewMessagesAndDmaComplete
  refine ⟨?_, fun t d l s hl hb hq sound fill _ hc lo hi hv new => does_dmaTransfer hl hb hq sound fill hc lo hi hv new,
    fun t c s => does_crewWatchdog, fun t s => does_ctlRestart_begin, fun t s => does_ctlRestart_end⟩
  intro t c w s h x a b open_
  refine ⟨?_, ?_, ?_, ?_, does_poll h⟩
  · exact fun n ho hf h13 hn h8 lo hi ht buf room => does_send h ho hf rfl rfl h13 hn h8 lo hi ht buf room
  · exact fun ho hf hb buf none => does_recv_empty h ho hf hb buf none
  · exact fun m l ho hf hb buf queue h8 h64 bytes hd => does_recv h ho hf hb rfl buf queue h8 h64 bytes hd
  · intro ho hf hb h32 buf room small hd new
    refine (does_post h ho hf hb rfl h32 buf room small hd new rfl).mono fun r ⟨queue, next, gd⟩ => ⟨⟨_, rfl, rfl, ?_, ?_, ?_, queue⟩, next, gd⟩
    · exact record_part s t a 0 8 (by decide)
    · exact record_part s t a 8 8 (by decide)
    · exact record_part s t a 16 4 (by decide)

end Sys2Proof.Machine

/-!
# Writes of time registers

What the host's register writes of LC0, geysers, TIME_RTT and CLKSUP do (R101, R115, R116, R118, R120, R121, R123). First how a write of a
register of the block TIME reaches its action, then each register's own lemmas.
-/

namespace Sys2Proof.Machine

/-! ### The host's writes of TIME registers (R6, R8, R12, R36) -/

/-- The host reaches the registers of the block TIME of a tile that is up (R12, R49). -/
theorem busWrite_time {s : State} {t off v : Nat} (hu : s.up t 0 = true) (lo : 0x30000 ≤ off) (hi : off < 0x40000) :
    (s.busWrite 0 t off v none).1 = s.regWrite 0 t off v := by
  have gate : s.busGate t off = .ok := by
    have isl : blockIsland off = 0 := if_pos hi
    simp [State.busGate, has_of_up hu, isolated_of_up hu, isl, island_of_up hu]
  have free : s.denies 0 t off true = .ok := by
    have open_ : decide (0x240000 ≤ off) = false := decide_eq_false (by omega)
    simp [State.denies, open_]
  have tables : inTables off = false := by simp [inTables]; omega
  have bench : unitAt off = none := by
    simp only [unitAt, List.findSome?_eq_none_iff, List.mem_range]
    intro u hu
    have := unitWords_le u
    have : u < 25 := hu
    refine if_neg ?_
    unfold benchBase
    split_ifs <;> omega
  have mirror : mirrorOf off = none := by
    unfold mirrorOf
    rw [show off / 0x10000 = 3 by omega]
    simp
  simp [State.busWrite, gate, free, tables, bench, mirror]

/-- The register at an offset of the block TIME past the channels' words that are reserved on TC0. -/
theorem regAt_time {off : Nat} {d : RegDef} (t : Nat) (hd : regDef? off = some d) (h0 : d.t0 = false) (h4 : off % 4 = 0) (lo : 0x30034 ≤ off)
    (hi : off < 0x40000) : regAt t off = some d := by
  have hole : regHole t off = false := by simp [regHole]; omega
  simp [regAt, hole, h4, hd, h0]

/-- A write of a register that is no half of a pair takes effect at once (R36). -/
theorem regWrite_single {s : State} {t off v : Nat} (hr : regAt t off ≠ none) (hh : homeTile t off = t) (hi : hostIgnored off = false)
    (low : heldLo off = false) (high : heldLo (off - 4) = false) : s.regWrite 0 t off v = (s.geyDue t off).regEffect 0 t off v := by
  simp [State.regWrite, hr, hh, hi, low, high]

/-- A write of a high half whose low half waits for nothing brings the low half as it reads (R8). -/
theorem regWrite_high {s : State} {t off v : Nat} (hr : regAt t off ≠ none) (hh : homeTile t off = t) (hi : hostIgnored off = false)
    (low : heldLo off = false) (high : heldLo (off - 4) = true) (h4 : 4 ≤ off) (hg : s.geyDue t off = s)
    (hn : s.heldHalf t (off - 4) = none) : s.regWrite 0 t off v = s.pairWrite 0 t (off - 4) (s.peek t (off - 4)) v := by
  simp [State.regWrite, hr, hh, hi, low, high, h4, hg, hn]

theorem cmpHook_none {off v : Nat} {s : State} (h : off < 0x220000) : cmpHook off v s = none := by
  unfold cmpHook
  exact if_neg (by omega)

/-- First offset, stride and count of the register arrays with actions in TIME, EVT and SPOIL. -/
def ctlArrays : List (Nat × Nat × Nat) := (hooksCtl 0 0 0).map fun h => (h.base, h.stride, h.count)

theorem hooksCtl_arrays (t v : Nat) : ((hooksCtl t v 0).map fun h => (h.base, h.stride, h.count)) = ctlArrays := by
  simp only [ctlArrays, hooksCtl, List.map]

/-- A write of register i of the array that comes k-th among those with actions, where none before it names the offset. -/
theorem regEffect_hook {s : State} {t off v base st n : Nat} {own : Bool} {act : Nat → State → State} (k i : Nat)
    (hr : regAt t off ≠ none) (hi : off < 0x40000) (hk : (hooksCtl t v 0)[k]? = some ⟨base, st, n, own, act⟩)
    (miss : ((ctlArrays.take k).all fun a => !arrHas off a.1 a.2.1 a.2.2) = true) (hit : arrHas off base st n = true)
    (num : (off - base) / st = i) : s.regEffect 0 t off v = act i (if own then s else s.regStore t off v) := by
  have found : hookAt (hooksCtl t v 0) off = some (⟨base, st, n, own, act⟩, i) := by
    obtain ⟨lt, at_⟩ := List.getElem?_eq_some_iff.1 hk
    have cut : hooksCtl t v 0 = (hooksCtl t v 0).take k ++ ⟨base, st, n, own, act⟩ :: (hooksCtl t v 0).drop (k + 1) := by
      rw [← at_, ← List.drop_eq_getElem_cons lt, List.take_append_drop]
    have before : (((hooksCtl t v 0).take k).findSome? fun h => if h.base ≤ off ∧ (off - h.base) % h.stride = 0 ∧
        (off - h.base) / h.stride < h.count then some (h, (off - h.base) / h.stride) else none) = none := by
      rw [List.findSome?_eq_none_iff]
      intro x hx
      rw [← hooksCtl_arrays t v, ← List.map_take, List.all_map, List.all_eq_true] at miss
      have := miss x hx
      simp only [Function.comp, Bool.not_eq_true', arrHas, Bool.and_eq_false_iff, decide_eq_false_iff_not, beq_eq_false_iff_ne] at this
      exact if_neg (by tauto)
    simp only [arrHas, Bool.and_eq_true, decide_eq_true_eq, beq_iff_eq] at hit
    unfold hookAt
    conv_lhs => rw [cut]
    rw [List.findSome?_append, before, Option.none_or, List.findSome?_cons, if_pos ⟨hit.1.1, hit.1.2, hit.2⟩, num]
  have hooks : hooksOf t off v 0 = hooksCtl t v 0 := if_pos hi
  simp only [State.regEffect, hr, if_false, cmpHook_none (show off < 0x220000 by omega), hooks, found]
  split <;> rfl

/-- An action that replaces the store of the fields. -/
theorem regEffect_own {s : State} {t off v base st n : Nat} {act : Nat → State → State} (k i : Nat)
    (hr : regAt t off ≠ none) (hi : off < 0x40000) (hk : (hooksCtl t v 0)[k]? = some ⟨base, st, n, true, act⟩)
    (miss : ((ctlArrays.take k).all fun a => !arrHas off a.1 a.2.1 a.2.2) = true) (hit : arrHas off base st n = true)
    (num : (off - base) / st = i) : s.regEffect 0 t off v = act i s := by
  rw [regEffect_hook k i hr hi hk miss hit num, if_pos rfl]

/-! What a write stores. -/

/-- A write leaves what lies outside the fields that it may change. -/
theorem bits_fieldWrites (v : Nat) {lo w : Nat} (l : List RegField) (old : Nat) (h : ∀ x ∈ l, x.lo + x.w ≤ lo ∨ lo + w ≤ x.lo) :
    bits (l.foldl (fieldWrite v) old) lo w = bits old lo w := by
  induction l generalizing old with
  | nil => rfl
  | cons x l ih =>
    have apart : ∀ n, bits (setBits old x.lo x.w n) lo w = bits old lo w := fun n => bits_setBits_ne _ _ _ _ _ _ (h x (by simp))
    rw [List.foldl_cons, ih _ fun y hy => h y (by simp [hy])]
    unfold fieldWrite
    dsimp only
    split
    · split
      · exact apart _
      · rfl
    · exact apart _
    · exact apart _
    · rfl

/-- A field that may be written with any value holds what was written (R6). -/
theorem bits_fieldWrites_rw (v old : Nat) {x : RegField} (l r : List RegField) (ha : x.acc = .rw) (hl : x.lim = .any)
    (h : ∀ y ∈ r, y.lo + y.w ≤ x.lo ∨ x.lo + x.w ≤ y.lo) : bits ((l ++ x :: r).foldl (fieldWrite v) old) x.lo x.w = bits v x.lo x.w := by
  rw [List.foldl_append, List.foldl_cons, bits_fieldWrites v r _ h]
  simp only [fieldWrite, ha, hl, Lim.holds, if_true]
  rw [bits_setBits_same]
  exact Nat.mod_eq_of_lt (bits_lt v x.lo x.w)

/-- A write of a register replaces its word. -/
theorem regStore_eq {s : State} {t off v : Nat} {d : RegDef} (hr : regAt t off = some d) :
    s.regStore t off v = s.setReg t off ((d.fields.filter (hasField t off)).foldl (fieldWrite v) (s.reg t off)) := by
  simp [State.regStore, hr]

/-- The field of a plain word exists on every tile. -/
theorem hasField_word {off : Nat} (t n : Nat) (hf : off ≠ FOLLOW) (hi : off < 0x40000) : hasField t off ⟨0, 32, .rw, n, .any⟩ = true := by
  have tx : ¬ LANE_TXEQ 0 ≤ off := by unfold LANE_TXEQ; omega
  simp [hasField, hf, tx]

/-- A register that is one readable and writable word stores the word written. -/
theorem regStore_word {s : State} {t off v b n : Nat} {ds : List (Nat × Nat)} (hr : regAt t off = some ⟨b, ds, false, [⟨0, 32, .rw, n, .any⟩]⟩)
    (hf : off ≠ FOLLOW) (hi : off < 0x40000) (hv : v < 2 ^ 32) : s.regStore t off v = s.setReg t off v := by
  have field := hasField_word t n hf hi
  have low : bits v 0 32 = v := by simp only [bits, Nat.shiftRight_zero]; exact Nat.mod_eq_of_lt hv
  have full : setBits (s.reg t off) 0 32 v = v := by
    rw [setBits_eq, Nat.mod_eq_of_lt hv, Nat.div_eq_of_lt (reg_lt s t off)]
    omega
  rw [regStore_eq hr]
  simp [field, fieldWrite, Lim.holds, low, full]

theorem holds_of_up {s : State} {t i : Nat} (h : s.up t i = true) : s.holds = false := by
  simp only [State.up, Bool.and_eq_true, Bool.not_eq_true'] at h
  exact h.2

/-- A single register of the block TIME with an action. -/
theorem regAt_some_ne {t off : Nat} {d : RegDef} (h : regAt t off = some d) : regAt t off ≠ none := by simp [h]

theorem geyDue_of_lt {s : State} {t off : Nat} (h : off < GY_CTL 0) : s.geyDue t off = s := by
  have no : decide (GY_CTL 0 ≤ off) = false := decide_eq_false (by omega)
  simp [State.geyDue, no]

/-- A host's write of a register of TIME that is no half of a pair, before the geysers, does its action (R6). -/
theorem busWrite_single {s : State} {t off v base st n : Nat} {own : Bool} {act : Nat → State → State} {d : RegDef} (k i : Nat)
    (hu : s.up t 0 = true) (hr : regAt t off = some d) (lo : 0x30000 ≤ off) (hi : off < GY_CTL 0) (hh : homeTile t off = t)
    (hn : (hostIgnored off || heldLo off || heldLo (off - 4)) = false) (hk : (hooksCtl t v 0)[k]? = some ⟨base, st, n, own, act⟩)
    (miss : ((ctlArrays.take k).all fun a => !arrHas off a.1 a.2.1 a.2.2) = true) (hit : arrHas off base st n = true)
    (num : (off - base) / st = i) : (s.busWrite 0 t off v none).1 = act i (if own then s else s.regStore t off v) := by
  have hi' : off < 0x40000 := Nat.lt_of_lt_of_le hi (by decide)
  simp only [Bool.or_eq_false_iff] at hn
  obtain ⟨⟨ign, low⟩, high⟩ := hn
  rw [busWrite_time hu lo hi', regWrite_single (regAt_some_ne hr) hh ign low high, geyDue_of_lt hi,
    regEffect_hook k i (regAt_some_ne hr) hi' hk miss hit num]

/-! ### CLKSUP and TIME_RTT (R101, R123) -/

theorem busWrite_clksup {s : State} {t v : Nat} (hu : s.up t 0 = true) :
    (s.busWrite 0 t CLKSUP v none).1 = s.when (bit v 16) fun s => s.setF t CLKSUP_GLITCHES 0 :=
  busWrite_single 13 0 hu (regAt_time t rfl rfl rfl (by decide) (by decide)) (by decide) (by decide) rfl (by decide)
    rfl (by decide) (by decide) rfl

theorem busWrite_timeRtt {s : State} {t v : Nat} (hu : s.up t 0 = true) :
    (s.busWrite 0 t TIME_RTT v none).1 = s.when (bit v 0) fun s =>
      { s.setB t TIME_RTT_DONE false with time.rttBusy := smPut s.time.rttBusy t true false } :=
  busWrite_single 12 0 hu (regAt_time t rfl rfl rfl (by decide) (by decide)) (by decide) (by decide) rfl (by decide)
    rfl (by decide) (by decide) rfl

theorem does_glitchClr {s : State} {t : Nat} (hu : s.up t 0 = true) : Does (.glitchClr 0 t) s fun r =>
    r.f t CLKSUP_GLITCHES = 0 ∧ r.WordsBut s [(t, CLKSUP)] ∧ s.OnlyRegs r := by
  refine does_when (b := !s.holds && decide (0 ≤ 64)) rfl (by simp [holds_of_up hu]) ?_
  rw [busWrite_clksup hu]
  show (s.setF t CLKSUP_GLITCHES 0).f t CLKSUP_GLITCHES = 0 ∧ _
  exact ⟨f_setF_same s t _ 0 (by decide), ((wordsBut_refl s _).setReg _ (by decide) (by simp [CLKSUP_GLITCHES])).symm, rfl⟩

theorem does_timeRttStart {s : State} {t : Nat} (hu : s.up t 0 = true) : Does (.timeRttStart 0 t) s fun r =>
    smGet r.time.rttBusy t false = true ∧ r.on t TIME_RTT_DONE = false := by
  refine does_when (b := !s.holds && decide (0 ≤ 64)) rfl (by simp [holds_of_up hu]) ?_
  rw [busWrite_timeRtt hu]
  exact ⟨smGet_smPut_same _ t true false, on_setB_same s t TIME_RTT_DONE false (by decide) (by decide)⟩

/-! ### LC0 (R115, R116) -/

theorem regAt_lc0Ofs2 : regAt 0 LC0_OFS_2 = some ⟨0x30150, [], false, [⟨0, 32, .rw, 0, .any⟩]⟩ := rfl

theorem busWrite_lc0Ofs2 {s : State} {v : Nat} (hu : s.up 0 0 = true) (hv : v < 2 ^ 32) :
    (s.busWrite 0 0 LC0_OFS_2 v none).1 = (s.setReg 0 LC0_OFS_2 v).lcOfsApply := by
  rw [← regStore_word regAt_lc0Ofs2 (by decide) (by decide) hv]
  exact busWrite_single 14 0 hu regAt_lc0Ofs2 (by decide) (by decide) rfl (by decide) rfl (by decide) (by decide) rfl

theorem word_withTime (s : State) (x : TimeSt) (t off : Nat) : ({ s with time := x } : State).word t off = s.word t off := rfl

theorem lcOfsApply_eq (s : State) : s.lcOfsApply =
    { s with time := { s.time with lcOfs := s.reg 0 LC0_OFS_0 + s.reg 0 LC0_OFS_1 * 2 ^ 32 + s.reg 0 LC0_OFS_2 * 2 ^ 64 } } := rfl

/-- The offset that a write of LC0_OFS_2 applies (R116). -/
theorem does_lc0OffsetWrite {s : State} {v : Nat} (hu : s.up 0 0 = true) : Does (.lc0OffsetWrite 0 v) s fun r =>
    r.time.lcOfs = s.reg 0 LC0_OFS_0 + s.reg 0 LC0_OFS_1 * 2 ^ 32 + v % 2 ^ 32 * 2 ^ 64 ∧ r.WordsBut s [(0, LC0_OFS_2)] := by
  refine does_when (b := !s.holds && decide (0 ≤ 64)) rfl (by simp [holds_of_up hu]) ?_
  rw [busWrite_lc0Ofs2 hu (Nat.mod_lt v (by decide))]
  have words : (s.setReg 0 LC0_OFS_2 (v % 2 ^ 32)).WordsBut s [(0, LC0_OFS_2)] :=
    ((wordsBut_refl s _).setReg _ (by decide) (by simp)).symm
  rw [lcOfsApply_eq]
  refine ⟨?_, fun u o ho hn => (words u o ho hn).trans (word_withTime _ _ u o).symm⟩
  dsimp only
  rw [reg_setReg_same, reg_setReg_ne s _ (by decide), reg_setReg_ne s _ (by decide), Nat.mod_mod]

/-! ### Pairs (R8) -/

/-- The registers of TIME past the channels' own that show only what is stored in them. -/
theorem liveWord_stored {s : State} {t off : Nat} (lo : 0x30100 ≤ off) (hi : off < 0x40000)
    (hn : off ∉ [CLKSUP_PPM, LC0_TICK_LO, LC0_TICK_HI, LC0_VAL_LO, LC0_VAL_HI, TIME_RTT])
    (hg : arrHas off (GY_STAT 0) 0x40 32 = false) : s.liveWord t off = none := by
  simp only [List.mem_cons, List.not_mem_nil, or_false, not_or] at hn
  obtain ⟨h1, h2, h3, h4, h5, h6⟩ := hn
  unfold State.liveWord
  dsimp only
  rw [if_pos hi, if_neg (by unfold EVT_SUMMARY; omega), if_neg (by omega), if_neg h1, if_neg h2, if_neg h3, if_neg h4, if_neg h5, if_neg h6, hg]
  rfl

/-- A low half that waits for nothing reads as it is stored. -/
theorem peek_stored {s : State} {t off b n : Nat} {ds : List (Nat × Nat)} (hh : homeTile t off = t)
    (hr : regAt t off = some ⟨b, ds, false, [⟨0, 32, .rw, n, .any⟩]⟩) (hf : off ≠ FOLLOW) (hi : off < 0x40000)
    (hl : s.liveWord t off = none) (hn : s.heldHalf t off = none) : s.peek t off = s.reg t off := by
  have field := hasField_word t n hf hi
  have mask : s.reg t off &&& 4294967295 = s.reg t off := (Nat.and_two_pow_sub_one_eq_mod _ 32).trans (Nat.mod_eq_of_lt (reg_lt s t off))
  simp [State.peek, hh, hr, hl, hn, field, readMask, mask]

/-- Both halves of a pair of plain words: the low half is stored, then the high half takes effect (R8). -/
theorem pairWrite_words {s : State} {t lo v w b n : Nat} {ds : List (Nat × Nat)}
    (hr : regAt t lo = some ⟨b, ds, false, [⟨0, 32, .rw, n, .any⟩]⟩) (hf : lo ≠ FOLLOW) (hi : lo < 0x40000)
    (plain : (arrHas lo (TC_OFS_LO 0) 0x40 4 || arrHas lo (TC_INC_LO 0) 0x40 4 || lo == CAP_PER_LO 5) = false) (hv : v < 2 ^ 32) :
    s.pairWrite 0 t lo v w = (s.setReg t lo v).regEffect 0 t (lo + 4) w := by
  simp only [Bool.or_eq_false_iff, beq_eq_false_iff_ne] at plain
  obtain ⟨⟨ofs, inc⟩, cap⟩ := plain
  have aud : arrHas lo (AUD_BASE_LO 0) 0x20 16 = false := by
    have : ¬ AUD_BASE_LO 0 ≤ lo := by unfold AUD_BASE_LO; omega
    simp [arrHas, this]
  unfold State.pairWrite
  rw [if_neg (by omega), if_neg (by simp [cap])]
  simp only [cmpHook_none (show lo < 0x220000 by omega), ofs, inc, aud, Bool.or_self]
  rw [regStore_word hr hf hi hv]
  rfl

/-- A host's write of the high half of such a pair, whose low half waits for nothing. -/
theorem busWrite_pair {s : State} {t lo v b n : Nat} {ds : List (Nat × Nat)} {d : RegDef} (hu : s.up t 0 = true)
    (hr : regAt t lo = some ⟨b, ds, false, [⟨0, 32, .rw, n, .any⟩]⟩) (hr4 : regAt t (lo + 4) = some d)
    (hh : homeTile t lo = t) (hh4 : homeTile t (lo + 4) = t) (h0 : 0x30110 ≤ lo) (hi : lo + 4 < 0x40000)
    (flags : (!heldLo lo || hostIgnored (lo + 4) || heldLo (lo + 4) || arrHas lo (TC_OFS_LO 0) 0x40 4 || arrHas lo (TC_INC_LO 0) 0x40 4 ||
      lo == CAP_PER_LO 5) = false)
    (hn : lo ∉ [CLKSUP_PPM, LC0_TICK_LO, LC0_TICK_HI, LC0_VAL_LO, LC0_VAL_HI, TIME_RTT]) (hs : arrHas lo (GY_STAT 0) 0x40 32 = false)
    (hg : s.geyDue t (lo + 4) = s) (held : s.heldHalf t lo = none) :
    (s.busWrite 0 t (lo + 4) v none).1 = (s.setReg t lo (s.reg t lo)).regEffect 0 t (lo + 4) v := by
  simp only [Bool.or_eq_false_iff, Bool.not_eq_false'] at flags
  obtain ⟨⟨⟨⟨⟨low, ign⟩, high⟩, ofs⟩, inc⟩, cap⟩ := flags
  have hf : lo ≠ FOLLOW := by unfold FOLLOW; omega
  have hi' : lo < 0x40000 := by omega
  have peek := peek_stored hh hr hf hi' (liveWord_stored (s := s) (t := t) (by omega) hi' hn hs) held
  rw [busWrite_time hu (by omega) hi,
    regWrite_high (off := lo + 4) (regAt_some_ne hr4) hh4 ign high (by simpa using low) (by omega) hg held]
  simp only [Nat.add_sub_cancel, peek]
  exact pairWrite_words hr hf hi' (by simp [ofs, inc, cap]) (reg_lt s t lo)

/-- Writing to a register what it holds changes no register. -/
theorem reg_setReg_self (s : State) {t off u o : Nat} (ho : off < 0x1000000) (hq : o < 0x1000000) :
    (s.setReg t off (s.reg t off)).reg u o = s.reg u o := by
  by_cases h : (t, off) = (u, o)
  · obtain ⟨rfl, rfl⟩ := Prod.mk.inj h
    rw [reg_setReg_same, Nat.mod_eq_of_lt (reg_lt s t off)]
  · exact reg_setReg_ne s _ (regKey_ne ho hq h)

/-! ### The rate of LC0 (R115, R116) -/

theorem lcRateApply_eq (s : State) : s.lcRateApply = { s with time := { s.time with
    lcRate := sx 64 (s.reg 0 LC0_RATE_LO + s.reg 0 LC0_RATE_HI * 2 ^ 32)
    lcOfs := if s.on 0 LC0_CTL_REBASE then
        ux 96 ((s.time.lcOfs : Int) + s.time.lcTicks * (s.time.lcRate - sx 64 (s.reg 0 LC0_RATE_LO + s.reg 0 LC0_RATE_HI * 2 ^ 32)))
      else s.time.lcOfs } } := rfl

theorem regAt_lc0RateLo : regAt 0 LC0_RATE_LO = some ⟨0x30154, [], false, [⟨0, 32, .rw, 1073741824, .any⟩]⟩ := rfl

theorem regAt_lc0RateHi : regAt 0 LC0_RATE_HI = some ⟨0x30158, [], false, [⟨0, 32, .rw, 1, .any⟩]⟩ := rfl

/-- LC0 with both rate words stored. -/
def State.rateStored (s : State) (v : Nat) : State := (s.setReg 0 LC0_RATE_LO (s.reg 0 LC0_RATE_LO)).setReg 0 LC0_RATE_HI v

theorem busWrite_lc0RateHi {s : State} {v : Nat} (hu : s.up 0 0 = true) (held : s.heldHalf 0 LC0_RATE_LO = none) (hv : v < 2 ^ 32) :
    (s.busWrite 0 0 LC0_RATE_HI v none).1 = (s.rateStored v).lcRateApply := by
  have pair := busWrite_pair (v := v) hu regAt_lc0RateLo regAt_lc0RateHi rfl rfl (by decide) (by decide) (by decide) (by decide) (by decide)
    (geyDue_of_lt (by decide)) held
  refine pair.trans ?_
  rw [State.rateStored, ← regStore_word regAt_lc0RateHi (by decide) (by decide) hv]
  exact regEffect_hook 15 0 (regAt_some_ne regAt_lc0RateHi) (by decide) rfl (by decide) (by decide) rfl

section
variable (s : State) (v : Nat)

theorem rateStored_time : (s.rateStored v).time = s.time := rfl

theorem rateStored_lo : (s.rateStored v).reg 0 LC0_RATE_LO = s.reg 0 LC0_RATE_LO :=
  (reg_setReg_ne _ _ (by decide)).trans (reg_setReg_self s (by decide) (by decide))

theorem rateStored_hi : (s.rateStored v).reg 0 LC0_RATE_HI = v % 2 ^ 32 := reg_setReg_same _ 0 LC0_RATE_HI v

theorem rateStored_rebase : (s.rateStored v).on 0 LC0_CTL_REBASE = s.on 0 LC0_CTL_REBASE := by
  have ctl : (s.rateStored v).reg 0 LC0_CTL = s.reg 0 LC0_CTL :=
    (reg_setReg_ne _ _ (by decide)).trans (reg_setReg_self s (by decide) (by decide))
  rw [State.on, f_congr (q := LC0_CTL_REBASE) ctl, State.on]

end

/-- Moving a value by whole multiples of A * B leaves its quotient by A as it is modulo B. -/
theorem ediv_emod_wrap (x q : Int) {A : Int} (B : Int) (hA : A ≠ 0) : (x - A * B * q) / A % B = x / A % B := by
  rw [show x - A * B * q = x + A * (-q * B) by ring, Int.add_mul_ediv_left _ _ hA, Int.add_mul_emod_self_right]

/-- With the offset moved as REBASE does, LC0 reads as before (R116). -/
theorem lc0_rebased (o n r r' : Int) :
    ux 64 (((ux 96 (o + n * (r - r')) : Int) + n * r').fdiv (2 ^ 32 : Nat)) = ux 64 ((o + n * r).fdiv (2 ^ 32 : Nat)) := by
  have wrapped : (ux 96 (o + n * (r - r')) : Int) = o + n * (r - r') - (2 ^ 32 : Nat) * (2 ^ 64 : Nat) * ((o + n * (r - r')) / (2 ^ 96 : Nat)) := by
    have pos : 0 ≤ (o + n * (r - r')) % (2 ^ 96 : Nat) := Int.emod_nonneg _ (by decide)
    rw [ux, Int.toNat_of_nonneg pos, Int.emod_def]
    norm_num
  have sum : o + n * (r - r') - ((2 ^ 32 : Nat) : Int) * (2 ^ 64 : Nat) * ((o + n * (r - r')) / (2 ^ 96 : Nat)) + n * r' =
      o + n * r - (2 ^ 32 : Nat) * (2 ^ 64 : Nat) * ((o + n * (r - r')) / (2 ^ 96 : Nat)) := by ring
  rw [wrapped, sum, Int.fdiv_eq_ediv_of_nonneg _ (Int.natCast_nonneg _), Int.fdiv_eq_ediv_of_nonneg _ (Int.natCast_nonneg _), ux, ux,
    ediv_emod_wrap _ _ _ (by decide)]

theorem does_lc0RateWrite {s : State} {v : Nat} (hu : s.up 0 0 = true) (held : s.heldHalf 0 LC0_RATE_LO = none) :
    Does (.lc0RateWrite 0 v) s fun r => r.time.lcRate = sx 64 (s.reg 0 LC0_RATE_LO + v % 2 ^ 32 * 2 ^ 32) ∧
      (s.on 0 LC0_CTL_REBASE = false → r.time.lcOfs = s.time.lcOfs) ∧ (s.on 0 LC0_CTL_REBASE = true → r.lc0 = s.lc0) := by
  refine does_when (b := !s.holds && decide (0 ≤ 64)) rfl (by simp [holds_of_up hu]) ?_
  rw [busWrite_lc0RateHi hu held (Nat.mod_lt v (by decide)), lcRateApply_eq]
  refine ⟨?_, fun off => ?_, fun on => ?_⟩
  · dsimp only
    rw [rateStored_lo, rateStored_hi, Nat.mod_mod]
  · dsimp only
    rw [rateStored_rebase, off, rateStored_time]
    exact if_neg (by simp)
  · unfold State.lc0
    dsimp only
    rw [rateStored_rebase, on, if_pos rfl, rateStored_time]
    exact lc0_rebased ..

/-! ### Geysers (R117, R118, R120, R121) -/

/-- GYg_CTL. -/
def gyCtlDef : RegDef :=
  ⟨0x30400, [(0x40, 32)], false,
    [⟨0, 1, .w1s, 0, .any⟩, ⟨1, 1, .w1s, 0, .any⟩, ⟨2, 1, .ro, 0, .any⟩, ⟨3, 2, .rw, 0, .any⟩, ⟨5, 1, .rw, 0, .any⟩, ⟨6, 1, .rw, 0, .any⟩,
      ⟨7, 3, .rw, 0, .any⟩, ⟨10, 1, .rw, 0, .any⟩, ⟨11, 6, .rw, 0, .le 39⟩, ⟨17, 1, .rw, 0, .any⟩, ⟨18, 1, .rw, 0, .any⟩]⟩

/-- GYg_TGT_LO and GYg_TGT_HI. -/
def gyTgtDef (base : Nat) : RegDef := ⟨base, [(0x40, 32)], false, [⟨0, 32, .rw, 0, .any⟩]⟩

section
variable {s : State} {t g v : Nat}

theorem regAt_gyCtl (t : Nat) (hg : g < 32) : regAt t (GY_CTL g) = some gyCtlDef := by
  obtain ⟨lo, hi, -⟩ := gyReg_off g hg
  have table : ∀ g < 32, regDef? (GY_CTL g) = some gyCtlDef := by decide +kernel
  exact regAt_time t (table g hg) rfl (by unfold GY_CTL; omega) (by omega) (by omega)

theorem regAt_gyTgtLo (t : Nat) (hg : g < 32) : regAt t (GY_TGT_LO g) = some (gyTgtDef 0x30404) := by
  obtain ⟨lo, hi, e1, -⟩ := gyReg_off g hg
  have table : ∀ g < 32, regDef? (GY_TGT_LO g) = some (gyTgtDef 0x30404) := by decide +kernel
  exact regAt_time t (table g hg) rfl (by unfold GY_TGT_LO; omega) (by omega) (by omega)

theorem regAt_gyTgtHi (t : Nat) (hg : g < 32) : regAt t (GY_TGT_HI g) = some (gyTgtDef 0x30408) := by
  obtain ⟨lo, hi, e1, e2, -⟩ := gyReg_off g hg
  have table : ∀ g < 32, regDef? (GY_TGT_HI g) = some (gyTgtDef 0x30408) := by decide +kernel
  exact regAt_time t (table g hg) rfl (by unfold GY_TGT_HI; omega) (by omega) (by omega)

theorem homeTile_gy {off : Nat} (t : Nat) (h : 0x30400 ≤ off) : homeTile t off = t := by
  unfold homeTile
  exact if_neg (by omega)

/-- A write to a register of a geyser comes after the geyser's firing of the tick (R121). -/
theorem geyDue_eq {off : Nat} (hg : g < 32) (lo : GY_CTL g ≤ off) (hi : off < GY_CTL g + 0x40) : s.geyDue t off = s.geyFire t g := by
  have first : GY_CTL 0 ≤ off := by unfold GY_CTL at *; omega
  have last : off < GY_CTL 32 := by unfold GY_CTL at *; omega
  have num : (off - GY_CTL 0) / 0x40 = g := by unfold GY_CTL at *; omega
  rw [State.geyDue, num, decide_eq_true first, decide_eq_true last, Bool.and_self, when_true]

/-- A host's write of GYg_CTL: the firing of the tick, then the settings, ARM, DISARM (R121). -/
theorem busWrite_gyCtl (hu : s.up t 0 = true) (hg : g < 32) :
    (s.busWrite 0 t (GY_CTL g) v none).1 = (s.geyFire t g).geyCtl t g v := by
  obtain ⟨lo, hi, -⟩ := gyReg_off g hg
  have flags : ∀ g < 32, (heldLo (GY_CTL g) || heldLo (GY_CTL g - 4) || hostIgnored (GY_CTL g)) = false := by decide
  have miss : ∀ g < 32, ((ctlArrays.take 18).all fun a => !arrHas (GY_CTL g) a.1 a.2.1 a.2.2) = true := by decide +kernel
  have hit : ∀ g < 32, arrHas (GY_CTL g) (GY_CTL 0) 0x40 32 = true := by decide
  have plain := flags g hg
  simp only [Bool.or_eq_false_iff] at plain
  obtain ⟨⟨low, high⟩, ign⟩ := plain
  have ne := regAt_some_ne (regAt_gyCtl t hg)
  rw [busWrite_time hu (by omega) (by omega), regWrite_single ne (homeTile_gy t lo) ign low high,
    geyDue_eq hg le_rfl (by omega)]
  exact regEffect_own (s := s.geyFire t g) 18 g ne (by omega) rfl (miss g hg) (hit g hg) (by unfold GY_CTL; omega)

/-- A write of GYg_CTL with DISARM ends with the geyser not armed (R121). -/
theorem geyCtl_disarm (hd : bit v 1 = true) :
    s.geyCtl t g v = (((s.geyFire t g).regStore t (GY_CTL g) v).when (bit v 0) fun s => s.geyArm t g).geyDisarm t g := by
  unfold State.geyCtl State.geyChange
  simp only [hd, when_true]
  exact geyFire_idle (Or.inl (on_setB_same _ t (GY_CTL_ARMED g) false (by decide : 2 + 1 ≤ 32) Nat.one_pos))

/-- One with ARM alone arms it, and its late mode applies (R120, R121). -/
theorem geyCtl_arm (ha : bit v 0 = true) (hd : bit v 1 = false) :
    s.geyCtl t g v = (((s.geyFire t g).regStore t (GY_CTL g) v).geyArm t g).geyFire t g := by
  unfold State.geyCtl State.geyChange
  simp only [ha, hd, when_true, when_false]

theorem bit_low {v i : Nat} (hi : i < 32) : bit (v % 2 ^ 32) i = bit v i := by
  unfold bit
  rw [Nat.testBit_mod_two_pow]
  simp [hi]

theorem State.OnlyRegs.setReg {s r : State} (h : s.OnlyRegs r) (t off v : Nat) : s.OnlyRegs (r.setReg t off v) := by
  have e := congrArg (fun q : State => ({ q with regs := (r.setReg t off v).regs } : State)) h
  exact e

/-- What a write of a register changes. -/
theorem regStore_onlyWord {off : Nat} {d : RegDef} (hr : regAt t off = some d) (ho : off < 0x1000000) :
    s.WordsBut (s.regStore t off v) [(t, off)] ∧ s.OnlyRegs (s.regStore t off v) := by
  rw [regStore_eq hr]
  exact ⟨(wordsBut_refl s _).setReg _ ho (by simp), rfl⟩

theorem geyHold_congr {s r : State} (hf : r.reg t FOLLOW = s.reg t FOLLOW) (hl : r.time.clockLost = s.time.clockLost) :
    r.geyHold t = s.geyHold t := by
  rw [State.geyHold, State.geyHold, hl, f_congr (q := FOLLOW_STATE) hf]

theorem does_geyserDisarm (hu : s.up t 0 = true) (hg : g < 32) (hd : bit v 1 = true) : Does (.geyserDisarm 0 t g v) s fun r =>
    r.on t (GY_CTL_ARMED g) = false ∧
    (s.on t (GY_CTL_ARMED g) = false ∨ s.geyHold t = true ∨ s.geyPast t g < 0 → r.WordsBut s [(t, GY_CTL g)] ∧ s.OnlyRegs r) := by
  obtain ⟨lo, hi, -⟩ := gyReg_off g hg
  have off : GY_CTL g < 0x1000000 := by omega
  refine does_when (b := !s.holds && decide (0 ≤ 64) && decide (g < 32) && bit v 1) rfl (by simp [holds_of_up hu, hg, hd]) ?_
  rw [busWrite_gyCtl hu hg, geyCtl_disarm ((bit_low (by decide)).trans hd)]
  refine ⟨on_setB_same _ t (GY_CTL_ARMED g) false (by decide : 2 + 1 ≤ 32) Nat.one_pos, fun idle => ?_⟩
  rw [geyFire_idle idle, geyFire_idle idle]
  obtain ⟨words, only⟩ := regStore_onlyWord (s := s) (v := v % 2 ^ 32) (regAt_gyCtl t hg) off
  generalize s.regStore t (GY_CTL g) (v % 2 ^ 32) = q at words only
  cases bit (v % 2 ^ 32) 0 with
  | false => exact ⟨(words.setReg _ off (by simp)).symm, only.setReg t _ _⟩
  | true =>
    have armed : s.WordsBut (q.geyArm t g) [(t, GY_CTL g)] := words.setReg _ off (by simp [GY_CTL_ARMED])
    exact ⟨(armed.setReg _ off (by simp)).symm, (only.setReg t _ _).setReg t _ _⟩

/-- The low 32 bits hold every field of a register. -/
theorem bits_mod_word (n : Nat) {lo w : Nat} (h : lo + w ≤ 32) : bits (n % 2 ^ 32) lo w = bits n lo w := by
  refine Nat.eq_of_testBit_eq fun i => ?_
  rw [testBit_bits, testBit_bits, Nat.testBit_mod_two_pow]
  by_cases hi : i < w
  · simp [hi, show lo + i < 32 by omega]
  · simp [hi]

theorem bit_eq_bits (n i : Nat) : bit n i = decide (bits n i 1 ≠ 0) := by
  unfold bit bits
  rw [Nat.testBit_eq_decide_div_mod_eq, Nat.shiftRight_eq_div_pow]
  congr 1
  simp only [eq_iff_iff]
  omega

/-! ARM. -/

/-- The settings of a geyser written and the geyser armed. -/
def State.geyCtlArmed (s : State) (t g v : Nat) : State := (s.regStore t (GY_CTL g) v).geyArm t g

theorem geyCtlArmed_onlyWord (hg : g < 32) : s.WordsBut (s.geyCtlArmed t g v) [(t, GY_CTL g)] ∧ s.OnlyRegs (s.geyCtlArmed t g v) := by
  obtain ⟨lo, hi, -⟩ := gyReg_off g hg
  have off : GY_CTL g < 0x1000000 := by omega
  obtain ⟨words, only⟩ := regStore_onlyWord (s := s) (v := v) (regAt_gyCtl t hg) off
  exact ⟨words.setReg _ off (by simp [GY_CTL_ARMED]), only.setReg t _ _⟩

theorem geyCtlArmed_reg (hg : g < 32) {off : Nat} (ho : off < 0x1000000) (hn : off ≠ GY_CTL g) : (s.geyCtlArmed t g v).reg t off = s.reg t off :=
  (geyCtlArmed_onlyWord hg).1.reg ho (by simpa using hn)

theorem geyCtlArmed_time (hg : g < 32) : (s.geyCtlArmed t g v).time = s.time := by
  rw [(geyCtlArmed_onlyWord hg).2]

theorem geyCtlArmed_now (hg : g < 32) : (s.geyCtlArmed t g v).now = s.now := by
  rw [(geyCtlArmed_onlyWord hg).2]

theorem geyCtlArmed_armed : (s.geyCtlArmed t g v).on t (GY_CTL_ARMED g) = true :=
  on_setB_same _ t (GY_CTL_ARMED g) true (by decide : 2 + 1 ≤ 32) Nat.one_pos

theorem geyCtlArmed_hold (hg : g < 32) : (s.geyCtlArmed t g v).geyHold t = s.geyHold t := by
  obtain ⟨lo, hi, -⟩ := gyReg_off g hg
  exact geyHold_congr (geyCtlArmed_reg hg (by decide) (by unfold FOLLOW; omega)) (by rw [geyCtlArmed_time hg])

theorem geyCtlArmed_tgt (hg : g < 32) : (s.geyCtlArmed t g v).geyTgt t g = s.geyTgt t g := by
  rw [State.geyTgt, geyCtlArmed_time hg, State.geyTgt]

/-- The geyser's channel is one of the four, as far past the target as before. -/
theorem geyCtlArmed_past (hg : g < 32) : ∃ n, n < 4 ∧ (s.geyCtlArmed t g v).geyPast t g = s.chanPast t n (s.geyTgt t g) := by
  refine ⟨(s.geyCtlArmed t g v).f t (GY_CTL_CHAN g), bits_lt _ _ 2, ?_⟩
  rw [State.geyPast, geyCtlArmed_tgt hg]
  exact chanPast_congr (by rw [State.chan, geyCtlArmed_time hg, State.chan]) _

/-- LATE_MODE as written. -/
theorem geyCtlArmed_lateMode (hg : g < 32) : (s.geyCtlArmed t g v).on t (GY_CTL_LATE_MODE g) = bit v 5 := by
  obtain ⟨lo, hi, -⟩ := gyReg_off g hg
  have field : hasField t (GY_CTL g) ⟨5, 1, .rw, 0, .any⟩ = true := by
    have tx : ¬ LANE_TXEQ 0 ≤ GY_CTL g := by unfold LANE_TXEQ; omega
    simp [hasField, tx]
  have fields : gyCtlDef.fields = gyCtlDef.fields.take 4 ++ ⟨5, 1, .rw, 0, .any⟩ :: gyCtlDef.fields.drop 5 := rfl
  have apart : ∀ y ∈ (gyCtlDef.fields.drop 5).filter (hasField t (GY_CTL g)), y.lo + y.w ≤ 5 ∨ 5 + 1 ≤ y.lo := by
    have all : ∀ y ∈ gyCtlDef.fields.drop 5, y.lo + y.w ≤ 5 ∨ 5 + 1 ≤ y.lo := by decide
    exact fun y hy => all y (List.mem_of_mem_filter hy)
  have stored : (s.geyCtlArmed t g v).f t (GY_CTL_LATE_MODE g) = bits v 5 1 := by
    refine (f_setF_apart (r := GY_CTL_ARMED g) (q := GY_CTL_LATE_MODE g) _ t _ rfl (by decide : 2 + 1 ≤ 32) (by decide : 2 + 1 ≤ 5 ∨ 5 + 1 ≤ 2)).trans ?_
    rw [State.f, regStore_eq (regAt_gyCtl t hg), fields, List.filter_append, List.filter_cons_of_pos field]
    refine (congrArg (bits · 5 1) (reg_setReg_same s t (GY_CTL g) _)).trans ?_
    rw [bits_mod_word _ (by decide)]
    exact bits_fieldWrites_rw v _ _ _ rfl rfl apart
  rw [State.on, stored, bit_eq_bits]

theorem does_geyserArm (hu : s.up t 0 = true) (hg : g < 32) (ha : bit v 0 = true) (hd : bit v 1 = false) {P : State → Prop}
    (idle : s.on t (GY_CTL_ARMED g) = false ∨ s.geyHold t = true ∨ s.geyPast t g < 0) (hp : P ((s.geyCtlArmed t g (v % 2 ^ 32)).geyFire t g)) :
    Does (.geyserArm 0 t g v) s P := by
  refine does_when (b := !s.holds && decide (0 ≤ 64) && decide (g < 32) && bit v 0) rfl (by simp [holds_of_up hu, hg, ha]) ?_
  rw [busWrite_gyCtl hu hg, geyCtl_arm ((bit_low (by decide)).trans ha) ((bit_low (by decide)).trans hd), geyFire_idle idle, geyFire_idle idle]
  exact hp

/-- ARM of a geyser whose target lies ahead on every channel arms it and does no more. -/
theorem does_geyserArm_ahead (hu : s.up t 0 = true) (hg : g < 32) (ha : bit v 0 = true) (hd : bit v 1 = false)
    (ahead : ∀ n, n < 4 → s.chanPast t n (s.geyTgt t g) < 0) : Does (.geyserArm 0 t g v) s fun r =>
      r.on t (GY_CTL_ARMED g) = true ∧ r.WordsBut s [(t, GY_CTL g)] ∧ s.OnlyRegs r := by
  refine does_geyserArm hu hg ha hd (Or.inr (Or.inr (ahead _ (bits_lt _ _ 2)))) ?_
  obtain ⟨n, hn, past⟩ := geyCtlArmed_past (s := s) (t := t) (v := v % 2 ^ 32) hg
  obtain ⟨words, only⟩ := geyCtlArmed_onlyWord (s := s) (t := t) (v := v % 2 ^ 32) hg
  rw [geyFire_idle (Or.inr (Or.inr (past ▸ ahead n hn)))]
  exact ⟨geyCtlArmed_armed, words.symm, only⟩

/-- ARM of a one-shot geyser past LATE_LIMIT on every channel, with LATE_MODE SUPPRESS, suppresses it at once (R120). -/
theorem does_geyserArm_suppressed (hu : s.up t 0 = true) (hg : g < 32) (hh : s.geyHold t = false) (hoff : s.on t (GY_CTL_ARMED g) = false)
    (ha : bit v 0 = true) (hd : bit v 1 = false) (hm : bit v 5 = true) (hp : s.geyPer t g = 0) (hl : (s.geyTgt t g).last ≠ s.now + 1)
    (late : ∀ n, n < 4 → (s.lateLimit t : Int) < s.chanPast t n (s.geyTgt t g)) : Does (.geyserArm 0 t g v) s fun r =>
      r.on t (GY_CTL_ARMED g) = false ∧ r.reg t (GY_COUNT g) = s.reg t (GY_COUNT g) ∧ r.evtStat t 265 = true := by
  obtain ⟨lo, hi, -, -, -, e4, e5, e6, -⟩ := gyReg_off g hg
  refine does_geyserArm hu hg ha hd (Or.inl hoff) ?_
  have other : ∀ off, off < 0x1000000 → off ≠ GY_CTL g → (s.geyCtlArmed t g (v % 2 ^ 32)).reg t off = s.reg t off :=
    fun off => geyCtlArmed_reg hg
  have fired := geyFire_suppressed (s := s.geyCtlArmed t g (v % 2 ^ 32)) (t := t) (g := g) geyCtlArmed_armed
    ((geyCtlArmed_hold hg).trans hh)
    (by rw [geyCtlArmed_tgt hg, geyCtlArmed_now hg]; exact hl)
    (by rw [State.geyPer, other _ (by omega) (by omega), other _ (by omega) (by omega)]; exact hp)
    ((geyCtlArmed_lateMode hg).trans ((bit_low (by decide)).trans hm))
    (by
      obtain ⟨n, hn, past⟩ := geyCtlArmed_past (s := s) (t := t) (v := v % 2 ^ 32) hg
      rw [past, State.lateLimit, other LATE_LIMIT (by decide) (by unfold LATE_LIMIT; omega)]
      exact late n hn)
  rw [fired]
  obtain ⟨off, event, count⟩ := suppressed_spec (s.geyCtlArmed t g (v % 2 ^ 32)) t hg
  exact ⟨off, count.trans (other _ (by omega) (by omega)), event⟩

/-! Targets (R118). -/

theorem gyTgtHi_eq (g : Nat) (hg : g < 32) : GY_TGT_HI g = GY_TGT_LO g + 4 := by
  obtain ⟨-, -, e1, e2, -⟩ := gyReg_off g hg
  omega

/-- A host's write of GYg_TGT_HI where no firing is due before it and nothing is held. -/
theorem busWrite_gyTgtHi (hu : s.up t 0 = true) (hg : g < 32) (held : s.heldHalf t (GY_TGT_LO g) = none)
    (idle : s.on t (GY_CTL_ARMED g) = false ∨ s.geyHold t = true ∨ s.geyPast t g < 0) :
    (s.busWrite 0 t (GY_TGT_HI g) v none).1 = (s.setReg t (GY_TGT_LO g) (s.reg t (GY_TGT_LO g))).geyTarget t g v := by
  obtain ⟨lo, hi, e1, e2, -⟩ := gyReg_off g hg
  have flags : ∀ g < 32, (!heldLo (GY_TGT_LO g) || hostIgnored (GY_TGT_LO g + 4) || heldLo (GY_TGT_LO g + 4) ||
      arrHas (GY_TGT_LO g) (TC_OFS_LO 0) 0x40 4 || arrHas (GY_TGT_LO g) (TC_INC_LO 0) 0x40 4 || GY_TGT_LO g == CAP_PER_LO 5) = false := by decide
  have stat : ∀ g < 32, arrHas (GY_TGT_LO g) (GY_STAT 0) 0x40 32 = false := by decide
  have miss : ∀ g < 32, ((ctlArrays.take 19).all fun a => !arrHas (GY_TGT_HI g) a.1 a.2.1 a.2.2) = true := by decide +kernel
  have hit : ∀ g < 32, arrHas (GY_TGT_HI g) (GY_TGT_HI 0) 0x40 32 = true := by decide
  have plain : GY_TGT_LO g ∉ [CLKSUP_PPM, LC0_TICK_LO, LC0_TICK_HI, LC0_VAL_LO, LC0_VAL_HI, TIME_RTT] := by
    simp [CLKSUP_PPM, LC0_TICK_LO, LC0_TICK_HI, LC0_VAL_LO, LC0_VAL_HI, TIME_RTT]
    omega
  have e : GY_TGT_HI g = GY_TGT_LO g + 4 := by omega
  have first : s.geyDue t (GY_TGT_LO g + 4) = s := (geyDue_eq hg (by omega) (by omega)).trans (geyFire_idle idle)
  have pair := busWrite_pair (v := v) hu (regAt_gyTgtLo t hg) (e ▸ regAt_gyTgtHi t hg) (homeTile_gy t (by omega)) (homeTile_gy t (by omega))
    (by omega) (by omega) (flags g hg) plain (stat g hg) first held
  rw [← e] at pair
  refine pair.trans ?_
  exact regEffect_own 19 g (regAt_some_ne (regAt_gyTgtHi t hg)) (by omega) rfl (miss g hg) (hit g hg) (by unfold GY_TGT_HI; omega)

/-! What a new target leaves. -/

theorem setGeyTgt_chan (s : State) (t g : Nat) (x : GeyTgt) (u n : Nat) : (s.setGeyTgt t g x).chan u n = s.chan u n := rfl

theorem setGeyTgt_lost (s : State) (t g : Nat) (x : GeyTgt) : (s.setGeyTgt t g x).time.clockLost = s.time.clockLost := rfl

theorem setGeyTgt_reg (s : State) (t g : Nat) (x : GeyTgt) (u off : Nat) : (s.setGeyTgt t g x).reg u off = s.reg u off := rfl

/-- A geyser's target words stored, the target not yet applied. -/
def State.tgtStored (s : State) (t g hi : Nat) : State :=
  (s.setReg t (GY_TGT_LO g) (s.reg t (GY_TGT_LO g))).setReg t (GY_TGT_HI g) hi

theorem tgtStored_reg (hg : g < 32) {off : Nat} (ho : off < 0x1000000) (hn : off ≠ GY_TGT_HI g) : (s.tgtStored t g v).reg t off = s.reg t off := by
  obtain ⟨lo, hi, e1, e2, -⟩ := gyReg_off g hg
  exact (reg_setReg_ne _ _ (regKey_off_ne (by omega) ho (Ne.symm hn))).trans (reg_setReg_self s (by omega) ho)

theorem tgtStored_time : (s.tgtStored t g v).time = s.time := rfl

theorem tgtStored_reg64 (hg : g < 32) (hv : v < 2 ^ 32) : (s.tgtStored t g v).reg64 t (GY_TGT_LO g) = s.reg t (GY_TGT_LO g) + v * 2 ^ 32 := by
  obtain ⟨lo, hi, e1, e2, -⟩ := gyReg_off g hg
  have high : (s.tgtStored t g v).reg t (GY_TGT_HI g) = v := (reg_setReg_same _ t _ v).trans (Nat.mod_eq_of_lt hv)
  rw [State.reg64, ← gyTgtHi_eq g hg, high, tgtStored_reg hg (by omega) (by omega)]

/-- The target words applied together, before the geyser is judged by them. -/
def State.geyAimed (s : State) (t g hi : Nat) : State :=
  (s.tgtStored t g hi).setGeyTgt t g { s.geyTgt t g with n := s.reg t (GY_TGT_LO g) + hi * 2 ^ 32, frac := s.reg t (GY_TGT_FRAC g) }

theorem geyAimed_reg (hg : g < 32) {off : Nat} (ho : off < 0x1000000) (hn : off ≠ GY_TGT_HI g) : (s.geyAimed t g v).reg t off = s.reg t off :=
  (setGeyTgt_reg ..).trans (tgtStored_reg hg ho hn)

theorem geyAimed_chan (n : Nat) : (s.geyAimed t g v).chan t n = s.chan t n := setGeyTgt_chan (s.tgtStored t g v) t g _ t n

theorem geyAimed_lost : (s.geyAimed t g v).time.clockLost = s.time.clockLost := setGeyTgt_lost (s.tgtStored t g v) t g _

/-- A write of the high word of a target, where no firing is due before it. -/
theorem geyTarget_idle (hg : g < 32) (hv : v < 2 ^ 32) (idle : s.on t (GY_CTL_ARMED g) = false ∨ s.geyHold t = true ∨ s.geyPast t g < 0) :
    (s.setReg t (GY_TGT_LO g) (s.reg t (GY_TGT_LO g))).geyTarget t g v = (s.geyAimed t g v).geyFire t g := by
  obtain ⟨lo, hi, e1, e2, e3, -⟩ := gyReg_off g hg
  have kept : ∀ off, off < 0x1000000 → (s.setReg t (GY_TGT_LO g) (s.reg t (GY_TGT_LO g))).reg t off = s.reg t off :=
    fun off => reg_setReg_self s (by omega)
  have first : (s.setReg t (GY_TGT_LO g) (s.reg t (GY_TGT_LO g))).geyFire t g = s.setReg t (GY_TGT_LO g) (s.reg t (GY_TGT_LO g)) := by
    refine geyFire_idle ?_
    have past : (s.setReg t (GY_TGT_LO g) (s.reg t (GY_TGT_LO g))).geyPast t g = s.geyPast t g := by
      rw [State.geyPast, f_congr (q := GY_CTL_CHAN g) (kept (GY_CTL g) (by omega))]
      rfl
    rw [State.on, f_congr (q := GY_CTL_ARMED g) (kept (GY_CTL g) (by omega)), geyHold_congr (kept FOLLOW (by decide)) rfl, past]
    exact idle
  have low := reg_lt s t (GY_TGT_LO g)
  have target : (s.tgtStored t g v).geySet t g ((s.tgtStored t g v).reg64 t (GY_TGT_LO g)) ((s.tgtStored t g v).reg t (GY_TGT_FRAC g)) =
      s.geyAimed t g v := by
    rw [State.geySet, tgtStored_reg64 hg hv, tgtStored_reg hg (by omega) (by omega), Nat.mod_eq_of_lt (by omega), Nat.mod_eq_of_lt (reg_lt ..),
      State.geyAimed, State.geyTgt, tgtStored_time, State.geyTgt]
  rw [State.geyTarget, State.geyChange, first, Nat.mod_eq_of_lt hv, ← target, State.tgtStored]

theorem does_geyserTargetWrite (hu : s.up t 0 = true) (hg : g < 32) (held : s.heldHalf t (GY_TGT_LO g) = none) {x : GeyTgt}
    (hx : x = { s.geyTgt t g with n := s.reg t (GY_TGT_LO g) + v % 2 ^ 32 * 2 ^ 32, frac := s.reg t (GY_TGT_FRAC g) })
    (idle : s.on t (GY_CTL_ARMED g) = false ∨ s.geyHold t = true ∨ s.geyPast t g < 0 ∧ s.chanPast t (s.f t (GY_CTL_CHAN g)) x < 0) :
    Does (.geyserTargetWrite 0 t g v) s fun r => r.geyTgt t g = x := by
  obtain ⟨lo, hi, e1, e2, e3, -⟩ := gyReg_off g hg
  refine does_when (b := !s.holds && decide (0 ≤ 64) && decide (g < 32)) rfl (by simp [holds_of_up hu, hg]) ?_
  have before : s.on t (GY_CTL_ARMED g) = false ∨ s.geyHold t = true ∨ s.geyPast t g < 0 := idle.imp_right (Or.imp_right And.left)
  have ctl : (s.geyAimed t g (v % 2 ^ 32)).reg t (GY_CTL g) = s.reg t (GY_CTL g) := geyAimed_reg hg (by omega) (by omega)
  have follow : (s.geyAimed t g (v % 2 ^ 32)).reg t FOLLOW = s.reg t FOLLOW := geyAimed_reg hg (by decide) (by unfold FOLLOW; omega)
  have aimed : (s.geyAimed t g (v % 2 ^ 32)).geyTgt t g = x := by
    rw [State.geyAimed, geyTgt_setGeyTgt_same, hx]
  have after : (s.geyAimed t g (v % 2 ^ 32)).on t (GY_CTL_ARMED g) = false ∨ (s.geyAimed t g (v % 2 ^ 32)).geyHold t = true ∨
      (s.geyAimed t g (v % 2 ^ 32)).geyPast t g < 0 := by
    rw [State.on, f_congr (q := GY_CTL_ARMED g) ctl, geyHold_congr follow geyAimed_lost, State.geyPast, aimed, f_congr (q := GY_CTL_CHAN g) ctl,
      chanPast_congr (geyAimed_chan (s.f t (GY_CTL_CHAN g)))]
    exact idle.imp_right (Or.imp_right And.right)
  rw [busWrite_gyTgtHi hu hg held before, geyTarget_idle hg (Nat.mod_lt _ (by decide)) before, geyFire_idle after]
  exact aimed

end

/-- Settles O22: each command's own lemma above gives its part (R101, R115, R116, R118, R120, R121, R123). -/
theorem timeRegisterWritesComplete : Obligations.TimeRegisterWritesComplete := by
  unfold Obligations.TimeRegisterWritesComplete
  refine ⟨fun v s hu => does_lc0OffsetWrite hu, fun v s hu held off => ?_, fun v s hu held on => ?_, fun t s hu => does_glitchClr hu,
    fun t g v s hu hg ha hd ahead => does_geyserArm_ahead hu hg ha hd ahead,
    fun t g v s hu hg hh hoff ha hd hm hp hl late => does_geyserArm_suppressed hu hg hh hoff ha hd hm hp hl late,
    fun t g v s hu hg hd => does_geyserDisarm hu hg hd, fun t g hi s hu hg held idle => does_geyserTargetWrite hu hg held rfl idle,
    fun t s hu => does_timeRttStart hu⟩
  · exact (does_lc0RateWrite hu held).mono fun r ⟨rate, keep, _⟩ => ⟨rate, keep off⟩
  · exact (does_lc0RateWrite hu held).mono fun r ⟨rate, _, same⟩ => ⟨rate, same on⟩
end Sys2Proof.Machine

/-!
# Captures
O19: a capture unit's edge and its loss, and the SERVO_FROZEN bits that follow a loss.
-/
namespace Sys2Proof.Machine

/-! ### SERVO_FROZEN (R110, R124) -/

/-- What SERVO_FROZEN of a channel is to show. -/
def State.servoFreezes (s : State) (n : Nat) : Bool :=
  s.on 0 (TC_SERVO_EN n) && (s.holdover n || s.f 0 (TC_SERVO_SRC n) != 0 && s.on 0 (CAP_STAT_LOST (s.f 0 (TC_SERVO_SRC n) - 1)))

/-- SERVO_FROZEN of one channel shown. -/
def State.freezeServo (s : State) (n : Nat) : State := s.setB 0 (TC_STAT_SERVO_FROZEN n) (s.servoFreezes n)

theorem freezeServos_eq (s : State) : s.freezeServos = ((s.freezeServo 1).freezeServo 2).freezeServo 3 := rfl

section
variable (s : State) {k n : Nat}

theorem tcStat_off (hn : n < 4) : 0x30034 ≤ TC_STAT n ∧ TC_STAT n < 0x30100 := by
  unfold TC_STAT
  omega

theorem capStat_off (hk : k < 8) : 0x3018C ≤ CAP_STAT k ∧ CAP_STAT k < 0x30400 := by
  unfold CAP_STAT
  omega

theorem freezeServo_f (hn : n < 4) {u : Nat} {q : FRef} (hq : q.off < 0x1000000) (h : q.off ≠ TC_STAT n ∨ q.lo + q.w ≤ 5) :
    (s.freezeServo n).f u q = s.f u q := by
  have := tcStat_off hn
  by_cases e : (0, TC_STAT n) = (u, q.off)
  · obtain ⟨rfl, off⟩ := Prod.mk.inj e
    exact f_setF_apart (r := TC_STAT_SERVO_FROZEN n) s 0 _ off (by decide : 5 + 1 ≤ 32) (Or.inr (h.resolve_left (not_not.2 off.symm)))
  · exact f_setF_ne s _ (regKey_ne (by show TC_STAT n < _; omega) hq e)

/-- Showing SERVO_FROZEN leaves everything but that bit of each channel. -/
theorem freezeServos_f {u : Nat} {q : FRef} (hq : q.off < 0x1000000) (h : (∀ n, n < 4 → q.off ≠ TC_STAT n) ∨ q.lo + q.w ≤ 5) :
    s.freezeServos.f u q = s.f u q := by
  have each (r : State) (n : Nat) (hn : n < 4) : (r.freezeServo n).f u q = r.f u q := freezeServo_f r hn hq (h.imp_left fun g => g n hn)
  rw [freezeServos_eq, each _ 3 (by decide), each _ 2 (by decide), each _ 1 (by decide)]

theorem freezeServos_time : s.freezeServos.time = s.time := by
  rw [freezeServos_eq]
  unfold State.freezeServo
  rw [setB_time, setB_time, setB_time]

theorem freezeServo_evtStat (hn : n < 4) {u i : Nat} (hi : i < 320) : (s.freezeServo n).evtStat u i = s.evtStat u i :=
  have off := tcStat_off hn
  evtStat_setReg s 0 (TC_STAT n) _ u i (by omega) (by omega) hi

theorem freezeServos_evtStat {u i : Nat} (hi : i < 320) : s.freezeServos.evtStat u i = s.evtStat u i := by
  have each (r : State) (n : Nat) (hn : n < 4) : (r.freezeServo n).evtStat u i = r.evtStat u i := freezeServo_evtStat r hn hi
  rw [freezeServos_eq, each _ 3 (by decide), each _ 2 (by decide), each _ 1 (by decide)]

theorem servoFreezes_freezeServo {m : Nat} (hm : m < 4) (hn : n < 4) : (s.freezeServo m).servoFreezes n = s.servoFreezes n := by
  have kept : ∀ q : FRef, q.off < 0x1000000 → q.off ≠ TC_STAT m ∨ q.lo + q.w ≤ 5 → (s.freezeServo m).f 0 q = s.f 0 q :=
    fun q => freezeServo_f s hm
  have stat := tcStat_off hm
  have src : s.f 0 (TC_SERVO_SRC n) < 8 := bits_lt _ _ 3
  have cap := capStat_off (k := s.f 0 (TC_SERVO_SRC n) - 1) (by omega)
  have servo : TC_SERVO n < 0x1000000 ∧ TC_SERVO n ≠ TC_STAT m := by unfold TC_SERVO TC_STAT; omega
  have own := tcStat_off hn
  unfold State.servoFreezes State.holdover State.on
  rw [kept (TC_SERVO_EN n) servo.1 (Or.inl servo.2), kept (TC_SERVO_SRC n) servo.1 (Or.inl servo.2),
    kept (TC_STAT_HOLDOVER n) (by show TC_STAT n < _; omega) (Or.inr (by decide : 0 + 1 ≤ 5)),
    kept (CAP_STAT_LOST _) (by show CAP_STAT _ < _; omega) (Or.inl (by show CAP_STAT _ ≠ _; omega))]

theorem freezeServo_frozen : (s.freezeServo n).on 0 (TC_STAT_SERVO_FROZEN n) = s.servoFreezes n :=
  on_setB_same s 0 (TC_STAT_SERVO_FROZEN n) _ (by decide : 5 + 1 ≤ 32) Nat.one_pos

theorem freezeServo_frozen_ne {m : Nat} (hm : m < 4) (hn : n < 4) (h : n ≠ m) :
    (s.freezeServo m).on 0 (TC_STAT_SERVO_FROZEN n) = s.on 0 (TC_STAT_SERVO_FROZEN n) := by
  have := tcStat_off hn
  unfold State.on
  rw [freezeServo_f s hm (by show TC_STAT n < _; omega) (Or.inl (by show TC_STAT n ≠ _; unfold TC_STAT; omega))]

/-- SERVO_FROZEN of TC1 to TC3 shows what it is to show. -/
theorem freezeServos_frozen (h0 : 0 < n) (hn : n < 4) : s.freezeServos.on 0 (TC_STAT_SERVO_FROZEN n) = s.servoFreezes n := by
  have own (r : State) : (r.freezeServo n).on 0 (TC_STAT_SERVO_FROZEN n) = r.servoFreezes n := freezeServo_frozen r
  have other (r : State) (m : Nat) (hm : m < 4) (h : n ≠ m) :
    (r.freezeServo m).on 0 (TC_STAT_SERVO_FROZEN n) = r.on 0 (TC_STAT_SERVO_FROZEN n) := freezeServo_frozen_ne r hm hn h
  have freezes (r : State) (m : Nat) (hm : m < 4) : (r.freezeServo m).servoFreezes n = r.servoFreezes n := servoFreezes_freezeServo r hm hn
  rw [freezeServos_eq]
  obtain rfl | rfl | rfl : n = 1 ∨ n = 2 ∨ n = 3 := by omega
  · rw [other _ 3 (by decide) (by decide), other _ 2 (by decide) (by decide), own]
  · rw [other _ 3 (by decide) (by decide), own, freezes _ 1 (by decide)]
  · rw [own, freezes _ 2 (by decide), freezes _ 1 (by decide)]

end

/-! ### Captures (R111, R112) -/

section
variable {s : State} {k : Nat}

theorem does_captureLost_early (hl : s.live 0 0 = true) (hk : k < 6) (early : 2 * (s.now - (s.cap k).last) * nominalInc < 3 * s.capPeriod k) :
    Does (.captureLost k) s fun r => r = s := by
  refine does_when (b := s.live 0 0 && decide (k < 6)) rfl (by simp [hl, hk]) ?_
  have late : ¬ s.captureLate k = true := by
    unfold State.captureLate
    rw [decide_eq_true_eq]
    omega
  exact if_pos (Or.inr (Or.inr late))

theorem does_captureLost (hl : s.live 0 0 = true) (hk : k < 6) (en : s.on 0 (CAP_CTL_EN k) = true) (was : s.on 0 (CAP_STAT_LOST k) = false)
    (late : 3 * s.capPeriod k ≤ 2 * (s.now - (s.cap k).last) * nominalInc) : Does (.captureLost k) s fun r =>
      r.on 0 (CAP_STAT_LOST k) = true ∧ r.evtStat 0 260 = true ∧
      ∀ n, 0 < n → n < 4 → s.f 0 (TC_SERVO_SRC n) = k + 1 → s.on 0 (TC_SERVO_EN n) = true → r.on 0 (TC_STAT_SERVO_FROZEN n) = true := by
  have stat := capStat_off (k := k) (by omega)
  have past : s.captureLate k = true := decide_eq_true late
  refine does_when (b := s.live 0 0 && decide (k < 6)) rfl (by simp [hl, hk]) ?_
  have lost : s.captureLost k = ((s.setB 0 (CAP_STAT_LOST k) true).raise 0 260).freezeServos := if_neg (by simp [en, was, past])
  rw [lost]
  have raised (q : FRef) (hq : q.off < 0x1000000) (he : eventOff q.off = false) :
      ((s.setB 0 (CAP_STAT_LOST k) true).raise 0 260).f 0 q = (s.setB 0 (CAP_STAT_LOST k) true).f 0 q := f_raise _ 0 260 0 q (by decide) hq he
  have shown : ((s.setB 0 (CAP_STAT_LOST k) true).raise 0 260).on 0 (CAP_STAT_LOST k) = true := by
    rw [State.on, raised (CAP_STAT_LOST k) (by show CAP_STAT k < _; omega) (by show eventOff (CAP_STAT k) = false; simp [eventOff]; omega)]
    exact on_setB_same s 0 (CAP_STAT_LOST k) true (by decide : 4 + 1 ≤ 32) Nat.one_pos
  refine ⟨?_, ?_, fun n h0 hn hs he => ?_⟩
  · rw [State.on, freezeServos_f _ (by show CAP_STAT k < _; omega) (Or.inr (by decide : 4 + 1 ≤ 5))]
    exact shown
  · rw [freezeServos_evtStat _ (by decide)]
    exact raise_stat _ 0 260 (by decide)
  · have servo : TC_SERVO n < 0x30100 ∧ 0x30000 ≤ TC_SERVO n := by unfold TC_SERVO; omega
    have kept (q : FRef) (hq : q.off = TC_SERVO n) : ((s.setB 0 (CAP_STAT_LOST k) true).raise 0 260).f 0 q = s.f 0 q := by
      rw [raised q (by omega) (by rw [hq]; simp [eventOff]; omega)]
      exact f_setF_off_ne s _ (by show CAP_STAT k < _; omega) (by omega) (by show CAP_STAT k ≠ _; omega)
    rw [freezeServos_frozen _ h0 hn, State.servoFreezes, State.on, kept (TC_SERVO_EN n) rfl, kept (TC_SERVO_SRC n) rfl, hs, Nat.add_sub_cancel, shown]
    simpa [State.on] using he

/-- The queue of a capture unit with room takes a value. -/
def State.captureQueue (s : State) (k : Nat) (v : Chan) : State :=
  (s.setCap k { s.cap k with queue := (s.cap k).queue ++ [(v.sec, v.ns, v.frac)] }).setF 0 (CAP_STAT_LEVEL k) ((s.cap k).queue.length + 1)

/-- An edge counts against the loss of the signal. -/
def State.captureSeen (s : State) (k : Nat) : State :=
  ((s.setCap k { s.cap k with last := s.now }).setB 0 (CAP_STAT_LOST k) false).freezeServos

/-- The value an edge latches: the channel's, three increments back. -/
def State.capturedValue (s : State) (k : Nat) : Chan :=
  (s.chan 0 (s.f 0 (CAP_CTL_CHAN k))).setValue ((s.chan 0 (s.f 0 (CAP_CTL_CHAN k))).value - 3 * (s.chan 0 (s.f 0 (CAP_CTL_CHAN k))).inc)

theorem setCap_f (c : CapUnit) (u : Nat) (q : FRef) : (s.setCap k c).f u q = s.f u q := rfl

theorem setCap_chans (c : CapUnit) : (s.setCap k c).time.chans = s.time.chans := rfl

theorem cap_congr {r : State} (h : r.time = s.time) : r.cap k = s.cap k := congrArg (fun x : TimeSt => smGet x.caps k {}) h

theorem captureQueue_queue (v : Chan) : ((s.captureQueue k v).cap k).queue = (s.cap k).queue ++ [(v.sec, v.ns, v.frac)] := by
  rw [State.captureQueue, cap_congr (setF_time _ _ _ _), cap_setCap_same]

theorem captureQueue_level (v : Chan) (room : (s.cap k).queue.length < 4) :
    (s.captureQueue k v).f 0 (CAP_STAT_LEVEL k) = (s.cap k).queue.length + 1 :=
  (f_setF_same _ 0 (CAP_STAT_LEVEL k) _ (by decide : 0 + 3 ≤ 32)).trans (Nat.mod_eq_of_lt (by show _ < 2 ^ 3; omega))

theorem captureQueue_f (v : Chan) (hk : k < 8) {u : Nat} {q : FRef} (hq : q.off < 0x1000000) (h : CAP_STAT k ≠ q.off) :
    (s.captureQueue k v).f u q = s.f u q := by
  have := capStat_off hk
  rw [State.captureQueue, f_setF_off_ne _ _ (by show CAP_STAT k < _; omega) hq h, setCap_f]

theorem captureSeen_queue : ((s.captureSeen k).cap k).queue = (s.cap k).queue := by
  rw [State.captureSeen, cap_congr (freezeServos_time _), cap_congr (setB_time _ _ _ _), cap_setCap_same]

theorem captureSeen_level (hk : k < 8) : (s.captureSeen k).f 0 (CAP_STAT_LEVEL k) = s.f 0 (CAP_STAT_LEVEL k) := by
  have := capStat_off hk
  rw [State.captureSeen, freezeServos_f _ (by show CAP_STAT k < _; omega) (Or.inr (by decide : 0 + 3 ≤ 5)), State.setB,
    f_setF_apart _ 0 (r := CAP_STAT_LOST k) (q := CAP_STAT_LEVEL k) _ rfl (by decide : 4 + 1 ≤ 32) (Or.inr (by decide : 0 + 3 ≤ 4)), setCap_f]

theorem captureSeen_lost (hk : k < 8) : (s.captureSeen k).on 0 (CAP_STAT_LOST k) = false := by
  have := capStat_off hk
  rw [State.on, State.captureSeen, freezeServos_f _ (by show CAP_STAT k < _; omega) (Or.inr (by decide : 4 + 1 ≤ 5))]
  exact on_setB_same _ 0 (CAP_STAT_LOST k) false (by decide : 4 + 1 ≤ 32) Nat.one_pos

theorem captureSeen_servo (hk : k < 8) {n : Nat} (hn : n < 4) : (s.captureSeen k).on 0 (TC_SERVO_EN n) = s.on 0 (TC_SERVO_EN n) := by
  have stat := capStat_off hk
  have servo : TC_SERVO n < 0x30100 := by unfold TC_SERVO; omega
  have apart : ∀ m, m < 4 → TC_SERVO n ≠ TC_STAT m := fun m hm => by unfold TC_SERVO TC_STAT; omega
  rw [State.on, State.captureSeen, freezeServos_f _ (by show TC_SERVO n < _; omega) (Or.inl apart), State.setB,
    f_setF_off_ne _ _ (by show CAP_STAT k < _; omega) (by show TC_SERVO n < _; omega) (by show CAP_STAT k ≠ TC_SERVO n; omega), setCap_f, State.on]

/-- An edge at a unit with room whose servos are all off queues the latched value and ends LOST. -/
theorem captureEdge_eq {rising : Bool} (hk : k < 5) (en : s.on 0 (CAP_CTL_EN k) = true) (both : s.f 0 (CAP_CTL_EDGE k) = 2)
    (room : (s.cap k).queue.length < 4) (off : ∀ n, 0 < n → n < 4 → s.on 0 (TC_SERVO_EN n) = false) :
    s.captureEdge k rising = (s.captureQueue k (s.capturedValue k)).captureSeen k := by
  have stat := capStat_off (k := k) (by omega)
  have servos (n : Nat) (h0 : 0 < n) (hn : n < 4) : ((s.captureQueue k (s.capturedValue k)).captureSeen k).on 0 (TC_SERVO_EN n) = false := by
    rw [captureSeen_servo (by omega) hn, State.on, captureQueue_f _ (by omega) (by show TC_SERVO n < _; unfold TC_SERVO; omega)
      (by show CAP_STAT k ≠ TC_SERVO n; unfold TC_SERVO; omega)]
    exact off n h0 hn
  have idle (theta : Int) : (((s.captureQueue k (s.capturedValue k)).captureSeen k).each [1, 2, 3] fun s n =>
      s.when (s.f 0 (TC_SERVO_SRC n) == k + 1 && s.on 0 (TC_SERVO_EN n) && !s.holdover n) fun s => s.servoSample n theta) =
        (s.captureQueue k (s.capturedValue k)).captureSeen k := by
    refine each_induct (· = (s.captureQueue k (s.capturedValue k)).captureSeen k) _ _ _ rfl fun r n hn hr => ?_
    have bound : 0 < n ∧ n < 4 := by simp at hn; omega
    rw [hr, servos n bound.1 bound.2, Bool.and_false, Bool.false_and]
    rfl
  rw [State.captureEdge, if_neg (by simp [en, both])]
  simp only [if_pos room, if_neg (show ¬ k = 5 by omega)]
  exact idle _

theorem does_captureEdge {rising : Bool} (hl : s.live 0 0 = true) (hk : k < 5) (en : s.on 0 (CAP_CTL_EN k) = true)
    (both : s.f 0 (CAP_CTL_EDGE k) = 2) (room : (s.cap k).queue.length < 4)
    (off : ∀ n, 0 < n → n < 4 → s.on 0 (TC_SERVO_EN n) = false) : Does (.captureEdge k rising) s fun r =>
      (r.cap k).queue = (s.cap k).queue ++ [((s.capturedValue k).sec, (s.capturedValue k).ns, (s.capturedValue k).frac)] ∧
      r.f 0 (CAP_STAT_LEVEL k) = (s.cap k).queue.length + 1 ∧ r.on 0 (CAP_STAT_LOST k) = false ∧ r.time.chans = s.time.chans := by
  refine does_when (b := s.live 0 0 && decide (k < 6)) rfl (by simp [hl]; omega) ?_
  rw [captureEdge_eq hk en both room off]
  refine ⟨?_, ?_, captureSeen_lost (by omega), ?_⟩
  · rw [captureSeen_queue, captureQueue_queue]
  · rw [captureSeen_level (by omega), captureQueue_level _ room]
  · rw [State.captureSeen, freezeServos_time, setB_time, setCap_chans, State.captureQueue, setF_time, setCap_chans]

end

/-- Settles O19: an edge of a unit whose servos are off passes through the queue and the LOST bit alone; a loss sets LOST, and
SERVO_FROZEN is computed from it. -/
theorem capturesComplete : Obligations.CapturesComplete :=
  ⟨fun _ _ _ hl hk en both room off => does_captureEdge hl hk en both room off,
    fun _ _ hl hk en was late => does_captureLost hl hk en was late, fun _ _ hl hk early => does_captureLost_early hl hk early⟩

end Sys2Proof.Machine

/-!
# Changes and stamps
O18: a loop that writes every channel once, changes that are due, the master's stamps and the round trip.
-/
namespace Sys2Proof.Machine

/-! ### Loops over channels -/

section
variable {t n : Nat}

theorem setChan_chan (s : State) {u m : Nat} (c : Chan) (hm : m < 0x100000) (hn : n < 0x100000) :
    (s.setChan u m c).chan t n = if (t, n) = (u, m) then c else s.chan t n := by
  by_cases h : (t, n) = (u, m)
  · obtain ⟨rfl, rfl⟩ := Prod.mk.inj h
    rw [if_pos rfl, chan_setChan_same]
  · rw [if_neg h, chan_setChan_ne s u m c t n (tk_ne hm hn (Ne.symm h))]

/-- Every channel of a list takes what a function gives of it. -/
def State.mapChans (s : State) (l : List (Nat × Nat)) (f : Chan → Chan) : State := s.each l fun s x => s.setChan x.1 x.2 (f (s.chan x.1 x.2))

/-- Channels named once each take their value, and the others keep theirs. -/
theorem mapChans_chan (f : Chan → Chan) (l : List (Nat × Nat)) (hl : l.Nodup) (hb : ∀ x ∈ l, x.2 < 0x100000) (s : State) (hn : n < 0x100000) :
    (s.mapChans l f).chan t n = if (t, n) ∈ l then f (s.chan t n) else s.chan t n := by
  induction l generalizing s with
  | nil => simp [State.mapChans, State.each]
  | cons x l ih =>
    obtain ⟨hx, hl⟩ := List.nodup_cons.1 hl
    have first := setChan_chan (t := t) (n := n) s (u := x.1) (m := x.2) (f (s.chan x.1 x.2)) (hb x (List.mem_cons_self ..)) hn
    have rest := ih hl (fun y hy => hb y (List.mem_cons_of_mem _ hy)) (s.setChan x.1 x.2 (f (s.chan x.1 x.2)))
    refine rest.trans ?_
    rw [first]
    by_cases h : (t, n) = x
    · subst h
      rw [if_neg hx, if_pos rfl, if_pos (List.mem_cons_self ..)]
    · rw [if_neg h]
      simp [h]

/-- Outside the channels such a loop leaves the state. -/
theorem mapChans_only (f : Chan → Chan) (l : List (Nat × Nat)) (s : State) :
    s.mapChans l f = { s with time.chans := (s.mapChans l f).time.chans } :=
  each_induct (fun r => r = { s with time.chans := r.time.chans }) s l _ rfl fun r x _ hr => by
    rw [hr]
    rfl

theorem each_product {α β : Type} (s : State) (l : List α) (m : List β) (f : State → α → β → State) :
    (s.each l fun s a => s.each m fun s b => f s a b) = s.each (l ×ˢ m) fun s x => f s x.1 x.2 := by
  induction l generalizing s with
  | nil => rfl
  | cons a l ih =>
    have split : (a :: l) ×ˢ m = m.map (a, ·) ++ l ×ˢ m := List.product_cons ..
    unfold State.each at ih ⊢
    rw [split, List.foldl_cons, ih, List.foldl_append, List.foldl_map]

end

/-! ### Changes that are due (R102) -/

section
variable (s old : State)

/-- Rasters that follow a channel are all that a change of increments reaches beside it. -/
theorem retrack_only : s.retrack old = { s with pix := (s.retrack old).pix } :=
  each_induct (fun r => r = { s with pix := r.pix }) s _ _ rfl fun r t _ hr =>
    each_induct (fun r => r = { s with pix := r.pix }) r _ _ hr fun r c _ hr => by
      dsimp only
      split
      · rw [hr]
        rfl
      · exact hr

theorem retrack_chan (t n : Nat) : (s.retrack old).chan t n = s.chan t n := by
  rw [retrack_only s old]
  rfl

theorem retrack_steer (n : Nat) : (s.retrack old).steer n = s.steer n := by
  rw [retrack_only s old]
  rfl

theorem mapChans_steer (f : Chan → Chan) (l : List (Nat × Nat)) (n : Nat) : (s.mapChans l f).steer n = s.steer n := by
  rw [mapChans_only f l s]
  rfl

theorem setSteer_chan (n : Nat) (x : Steer) (t m : Nat) : (s.setSteer n x).chan t m = s.chan t m := rfl

end

section
variable {s : State} {n d inc : Nat}

/-- One accepted increment that is due, and no step: the queue empties and every tile's copy takes the increment. -/
theorem applyChanges_due (hi : (s.steer n).incs = [(d, inc)]) (hd : d ≤ s.now) (hs : (s.steer n).step = none) :
    s.applyChanges n = (s.setSteer n { s.steer n with incs := [] }).mapChans (s.tileList ×ˢ [n]) fun c => { c with inc := inc } := by
  have due : [(d, inc)].filter (fun e => decide (e.1 ≤ s.now)) = [(d, inc)] := by simp [hd]
  have rest : [(d, inc)].filter (fun e => decide ¬ e.1 ≤ s.now) = [] := by simp [hd]
  unfold State.applyChanges
  dsimp only
  rw [hi, due, rest, hs]
  exact each_product _ _ [n] fun s t n => s.setChan t n { s.chan t n with inc := inc }

theorem does_timeChangeApply (hn : n < 4) (hi : (s.steer n).incs = [(d, inc)]) (hd : d ≤ s.now) (hs : (s.steer n).step = none) :
    Does (.timeChangeApply n) s fun r => (r.steer n).incs = [] ∧ ∀ t, t < s.tiles → r.chan t n = { s.chan t n with inc := inc } := by
  refine does_when (b := decide (n < 4)) rfl (by simp [hn]) ?_
  have none_due : s.stepDue n = none := by rw [State.stepDue, hs]
  have eq : s.changeApply n = (s.applyChanges n).retrack s := by rw [State.changeApply, none_due]
  rw [eq, retrack_steer, applyChanges_due hi hd hs, mapChans_steer, steer_setSteer_same]
  refine ⟨rfl, fun t ht => ?_⟩
  have nodup : (s.tileList ×ˢ [n]).Nodup := List.nodup_range.product (List.nodup_singleton n)
  have named : (t, n) ∈ s.tileList ×ˢ [n] := List.mem_product.2 ⟨List.mem_range.2 ht, List.mem_singleton.2 rfl⟩
  have bound : ∀ x ∈ s.tileList ×ˢ [n], x.2 < 0x100000 := fun x hx => by
    have := List.mem_singleton.1 (List.mem_product.1 hx).2
    omega
  rw [retrack_chan, mapChans_chan _ _ nodup bound _ (by omega), if_pos named, setSteer_chan]

end

/-! ### The master's stamps (R101) -/

/-- T0 sends a stamp to one tile. -/
def State.sendStamp (s : State) (x : Nat × List Chan) (t : Nat) : State :=
  let r := s.seamReach 0 t
  if r.2 then { r.1 with time.stamps := smPut r.1.time.stamps t (smGet r.1.time.stamps t [] ++ [x]) [] } else r.1

section
variable {s : State} {x : Nat × List Chan} {t : Nat}

theorem sendStamp_words : (s.sendStamp x t).WordsButEvents s [] ∧ (s.sendStamp x t).member = s.member := by
  unfold State.sendStamp State.seamReach
  split
  · exact ⟨fun _ _ _ _ _ => rfl, rfl⟩
  · exact ⟨fun u off ho he _ => (word_raise s _ 197 u off (by decide) ho he).symm, raise_member s _ 197 (by decide)⟩

theorem sendStamp_self (h : s.Routed 0 t) : smGet (s.sendStamp x t).time.stamps t [] = smGet s.time.stamps t [] ++ [x] := by
  have reach : s.seamReach 0 t = (s, true) := by
    unfold State.seamReach
    rw [h]
  unfold State.sendStamp
  rw [reach]
  exact smGet_smPut_same ..

theorem sendStamp_other {u : Nat} (h : t ≠ u) : smGet (s.sendStamp x t).time.stamps u [] = smGet s.time.stamps u [] := by
  unfold State.sendStamp State.seamReach
  split
  · exact smGet_smPut_ne _ _ _ _ h
  · rename_i y _
    have kept : (s.raise y 197).time = s.time := by rw [raise_fields s y 197 (by decide)]
    exact congrArg (fun b : TimeSt => smGet b.stamps u []) kept

/-- A tile named once in the list, which the routes reach, gets the stamp as its newest. -/
theorem sendStamps_stamps {u : Nat} (l : List Nat) (hl : l.Nodup) (hu : u ∈ l) (s : State) (hr : s.Routed 0 u) :
    smGet (s.each l fun r t => r.sendStamp x t).time.stamps u [] = smGet s.time.stamps u [] ++ [x] := by
  induction l generalizing s with
  | nil => exact absurd hu (List.not_mem_nil)
  | cons a l ih =>
    obtain ⟨ha, hl⟩ := List.nodup_cons.1 hl
    obtain ⟨words, member⟩ := sendStamp_words (s := s) (x := x) (t := a)
    have routed : (s.sendStamp x a).Routed 0 u := (routed_of_words member words (fun _ h => nomatch h) 8 0 u).trans hr
    obtain rfl | hu := List.mem_cons.1 hu
    · have others : ∀ r : State, smGet (r.each l fun r t => r.sendStamp x t).time.stamps u [] = smGet r.time.stamps u [] := fun r =>
        each_induct (fun q => smGet q.time.stamps u [] = smGet r.time.stamps u []) r l _ rfl fun q t ht hq =>
          (sendStamp_other fun e : t = u => ha (e ▸ ht)).trans hq
      exact (others _).trans (sendStamp_self hr)
    · exact (ih hl hu _ routed).trans (by rw [sendStamp_other fun e : a = u => ha (e ▸ hu)])

theorem does_timeStampSend (hl : s.live 0 0 = true) (hn : s.now % 4096 = 0) : Does .timeStampSend s fun r =>
    ∀ t, t ≠ 0 → s.run t = true → s.seamWalk 8 0 t = none →
      smGet r.time.stamps t [] = smGet s.time.stamps t [] ++ [(s.now, (List.range 4).map fun n => s.chan 0 n)] := by
  refine does_when rfl hl ?_
  have clock : s.time.clockLost = false := by
    simp only [State.live, Bool.and_eq_true, Bool.not_eq_true'] at hl
    exact hl.2
  have sends : s.stampSend =
      s.each (s.runTiles.filter (· ≠ 0)) fun r t => r.sendStamp (s.now, (List.range 4).map fun n => s.chan 0 n) t :=
    if_neg (by simp [clock, hn])
  rw [sends]
  intro t h0 run routed
  have listed : t ∈ s.runTiles.filter (· ≠ 0) := by
    have has : t < s.tiles := by
      simp only [State.run, State.has, Bool.and_eq_true, decide_eq_true_eq] at run
      exact run.1
    simp [State.runTiles, State.tileList, h0, run, has]
  exact sendStamps_stamps _ ((List.nodup_range.filter _).filter _) listed s routed

end

/-! ### A follower's realignment (R103) -/

section
variable {s : State} {t n : Nat}

/-- A copy lies more than one tick away from the compensated stamp. -/
abbrev State.slips (s : State) (t n : Nat) (m : Chan) : Prop :=
  ((s.chan 0 n).inc : Int) < absI ((s.chan t n).value - (m.add (m.inc * s.f t FOLLOW_ROUTE_LAT)).value)

/-- What a copy is after a stamp. -/
def State.realigned (s : State) (t n : Nat) (m : Chan) : Chan :=
  if s.slips t n m then { m.add (m.inc * s.f t FOLLOW_ROUTE_LAT) with inc := (s.chan 0 n).inc } else { s.chan t n with inc := (s.chan 0 n).inc }

theorem value_inc (c : Chan) (i : Nat) : ({ c with inc := i } : Chan).value = c.value := rfl

theorem realigned_congr {r : State} {m : Chan} (own : r.chan t n = s.chan t n) (master : r.chan 0 n = s.chan 0 n)
    (lat : r.f t FOLLOW_ROUTE_LAT = s.f t FOLLOW_ROUTE_LAT) : r.realigned t n m = s.realigned t n m := by
  simp only [State.realigned, State.slips, own, master, lat]

/-- The oldest stamp is taken. -/
def State.popStamp (s : State) (t : Nat) (l : List (Nat × List Chan)) : State := { s with time.stamps := smPut s.time.stamps t l [] }

theorem pair_ite {α β : Type} (p : Prop) [Decidable p] (f : α → β) (a b : α) :
    (if p then (f a, true) else (f b, false)) = (f (if p then a else b), decide p) := by
  by_cases h : p
  · rw [if_pos h, if_pos h, decide_eq_true h]
  · rw [if_neg h, if_neg h, decide_eq_false h]

theorem realignOne_ite (s : State) (t n : Nat) (m : Chan) : s.realignOne t n m =
    if ((s.chan 0 n).inc : Int) <
      absI (({ s.chan t n with inc := (s.chan 0 n).inc } : Chan).value - (m.add (m.inc * s.f t FOLLOW_ROUTE_LAT)).value)
    then (s.setChan t n { m.add (m.inc * s.f t FOLLOW_ROUTE_LAT) with inc := (s.chan 0 n).inc }, true)
    else (s.setChan t n { s.chan t n with inc := (s.chan 0 n).inc }, false) := rfl

theorem realignOne_eq (s : State) (t n : Nat) (m : Chan) :
    s.realignOne t n m = (s.setChan t n (s.realigned t n m), decide (s.slips t n m)) := by
  rw [realignOne_ite, value_inc, State.realigned, ← pair_ite]

/-- The realignment of the copies of a list of channels, and whether one slipped. -/
def State.realignAll (r : State × Bool) (t : Nat) (cs : List Chan) (l : List Nat) : State × Bool :=
  l.foldl (fun (r : State × Bool) n => (r.1.setChan t n (r.1.realigned t n (cs.getD n {})), r.2 || decide (r.1.slips t n (cs.getD n {})))) r

theorem realignAll_cons (r : State × Bool) (t : Nat) (cs : List Chan) (n : Nat) (l : List Nat) : State.realignAll r t cs (n :: l) =
    State.realignAll (r.1.setChan t n (r.1.realigned t n (cs.getD n {})), r.2 || decide (r.1.slips t n (cs.getD n {}))) t cs l := rfl

theorem setChan_only (s : State) (t n : Nat) (c : Chan) : s.setChan t n c = { s with time.chans := (s.setChan t n c).time.chans } := rfl

theorem chansOnly_trans {a b c : State} (hb : b = { a with time.chans := b.time.chans }) (hc : c = { b with time.chans := c.time.chans }) :
    c = { a with time.chans := c.time.chans } :=
  hc.trans (by rw [hb])

/-- The realignment changes channels only. -/
theorem realignAll_only (cs : List Chan) (l : List Nat) (r : State × Bool) :
    (State.realignAll r t cs l).1 = { r.1 with time.chans := (State.realignAll r t cs l).1.time.chans } := by
  induction l generalizing r with
  | nil => rfl
  | cons a l ih =>
    exact chansOnly_trans (setChan_only r.1 t a _) (ih _)

theorem slips_setChan (ht : t ≠ 0) {a : Nat} (ha : a < 0x100000) (hn : n < 0x100000) (h : n ≠ a) (c : Chan) :
    (s.setChan t a c).chan t n = s.chan t n ∧ (s.setChan t a c).chan 0 n = s.chan 0 n ∧
      (s.setChan t a c).f t FOLLOW_ROUTE_LAT = s.f t FOLLOW_ROUTE_LAT :=
  ⟨by rw [setChan_chan s c ha hn, if_neg (by simp [h])], by rw [setChan_chan s c ha hn, if_neg (by simp [Ne.symm ht])], rfl⟩

/-- Each copy named once is realigned from what stood before. -/
theorem realignAll_chan (cs : List Chan) (ht : t ≠ 0) (l : List Nat) (hl : l.Nodup) (hb : ∀ a ∈ l, a < 0x100000) (r : State × Bool)
    (hn : n ∈ l) : (State.realignAll r t cs l).1.chan t n = r.1.realigned t n (cs.getD n {}) := by
  have keeps : ∀ (l : List Nat), (∀ a ∈ l, a < 0x100000) → n < 0x100000 → n ∉ l → ∀ r : State × Bool,
      (State.realignAll r t cs l).1.chan t n = r.1.chan t n := fun l => by
    induction l with
    | nil => exact fun _ _ _ _ => rfl
    | cons a l ih =>
      intro hb hn hl r
      rw [realignAll_cons, ih (fun b h => hb b (List.mem_cons_of_mem _ h)) hn fun h => hl (List.mem_cons_of_mem _ h)]
      exact (slips_setChan ht (hb a (List.mem_cons_self ..)) hn (fun e => hl (e ▸ List.mem_cons_self ..)) _).1
  induction l generalizing r with
  | nil => exact absurd hn List.not_mem_nil
  | cons a l ih =>
    obtain ⟨ha, hl⟩ := List.nodup_cons.1 hl
    have small : n < 0x100000 := hb n hn
    rw [realignAll_cons]
    obtain rfl | hn := List.mem_cons.1 hn
    · rw [keeps l (fun b h => hb b (List.mem_cons_of_mem _ h)) small ha]
      exact chan_setChan_same ..
    · obtain ⟨own, master, lat⟩ := slips_setChan (s := r.1) ht (hb a (List.mem_cons_self ..)) small (fun e : n = a => ha (e ▸ hn))
        (r.1.realigned t a (cs.getD a {}))
      exact (ih hl (fun b h => hb b (List.mem_cons_of_mem _ h)) _ hn).trans (realigned_congr own master lat)

/-- The flag of a realignment: one of the copies named slipped. -/
theorem realignAll_slip (cs : List Chan) (ht : t ≠ 0) (l : List Nat) (hl : l.Nodup) (hb : ∀ a ∈ l, a < 0x100000) (r : State × Bool)
    (h : r.2 = true ∨ ∃ n ∈ l, r.1.slips t n (cs.getD n {})) : (State.realignAll r t cs l).2 = true := by
  induction l generalizing r with
  | nil => exact h.resolve_right (by simp)
  | cons a l ih =>
    obtain ⟨ha, hl⟩ := List.nodup_cons.1 hl
    rw [realignAll_cons]
    refine ih hl (fun b h => hb b (List.mem_cons_of_mem _ h)) _ ?_
    obtain h | ⟨n, hn, hs⟩ := h
    · exact Or.inl (by simp [h])
    obtain rfl | hn := List.mem_cons.1 hn
    · exact Or.inl ((congrArg _ (decide_eq_true hs)).trans (Bool.or_true _))
    · obtain ⟨own, master, lat⟩ := slips_setChan (s := r.1) ht (hb a (List.mem_cons_self ..)) (hb n (List.mem_cons_of_mem _ hn))
        (fun e : n = a => ha (e ▸ hn)) (r.1.realigned t a (cs.getD a {}))
      refine Or.inr ⟨n, hn, ?_⟩
      dsimp only [State.slips]
      rw [own, master, lat]
      exact hs

/-- A follower has had a compensated stamp, and shows it. -/
def State.followed (s : State) (t : Nat) : State := { s with time.stamped := smPut s.time.stamped t true false }.followShow t

/-- A follower's copy has slipped. -/
def State.slipped (s : State) (t : Nat) : State := (s.addF t FOLLOW_SLIPS 1).raise t 261

theorem followed_time : (s.followed t).time = { s.time with stamped := smPut s.time.stamped t true false } := rfl

theorem followed_state (hc : s.time.clockLost = false) (hh : smGet s.time.holdRaised t false = false) : (s.followed t).f t FOLLOW_STATE = 0 := by
  have shown : s.followed t = { s with time.stamped := smPut s.time.stamped t true false }.setF t FOLLOW_STATE 0 := by
    unfold State.followed State.followShow
    dsimp only
    rw [hc, hh, smGet_smPut_same]
    rfl
  rw [shown, f_setF_same _ _ _ _ (by decide)]
  rfl

theorem followed_reg {u off : Nat} (ho : off < 0x1000000) (h : off ≠ FOLLOW) : (s.followed t).reg u off = s.reg u off :=
  (reg_setReg_ne _ _ (regKey_off_ne (by decide) ho h.symm) : _)

theorem slipped_time : (s.slipped t).time = s.time := by
  rw [State.slipped, raise_fields _ t 261 (by decide)]
  rfl

theorem slipped_state : (s.slipped t).f t FOLLOW_STATE = s.f t FOLLOW_STATE := by
  rw [State.slipped, f_raise _ _ _ _ _ (by decide) (by decide) (by decide), State.addF, f_setF_apart _ _ _ (by decide) (by decide) (by decide)]

theorem slipped_reg {u off : Nat} (ho : off < 0x1000000) (he : eventOff off = false) (h : off ≠ FOLLOW) :
    (s.slipped t).reg u off = s.reg u off :=
  (reg_raise _ t 261 u off (by decide) ho he).trans (reg_setReg_ne s _ (regKey_off_ne (by decide) ho h.symm))

/-- What a realignment leads to: the follower shows it, and a slip is counted. -/
def State.stampSettle (r : State × Bool) (t : Nat) : State := if r.2 then (r.1.followed t).slipped t else r.1.followed t

theorem stampSettle_if (r : State × Bool) (t : Nat) :
    (if r.2 then
        (({ r.1 with time.stamped := smPut r.1.time.stamped t true false }.followShow t).addF t FOLLOW_SLIPS 1).raise t 261
      else { r.1 with time.stamped := smPut r.1.time.stamped t true false }.followShow t) = State.stampSettle r t := rfl

/-- What a follower does with a stamp, once it is off the queue. -/
def State.stampApply (s : State) (t : Nat) (x : Nat × List Chan) : State :=
  if t = 0 ∨ s.time.clockLost ∨ smGet s.time.holdRaised t false then s
  else
    let r := (List.range 4).foldl (fun (r : State × Bool) n =>
      let (s, b) := r.1.realignOne t n (x.2.getD n {})
      (s, r.2 || b)) (s, false)
    let s := ({ r.1 with time.stamped := smPut r.1.time.stamped t true false }).followShow t
    if r.2 then (s.addF t FOLLOW_SLIPS 1).raise t 261 else s

theorem stampReceive_cons {x : Nat × List Chan} {l : List (Nat × List Chan)} (hst : smGet s.time.stamps t [] = x :: l) :
    s.stampReceive t = (s.popStamp t l).stampApply t x := by
  unfold State.stampApply State.stampReceive State.popStamp
  rw [hst]

theorem realignStep_eq (t : Nat) (cs : List Chan) : (fun (r : State × Bool) n =>
      let (s, b) := r.1.realignOne t n (cs.getD n {})
      (s, r.2 || b)) =
    fun r n => (r.1.setChan t n (r.1.realigned t n (cs.getD n {})), r.2 || decide (r.1.slips t n (cs.getD n {}))) := by
  funext r n
  rw [realignOne_eq]

/-- The stamp that a follower takes where no HOLD of a lost port stands. -/
theorem stampApply_eq {x : Nat × List Chan} (ht : t ≠ 0) (hc : s.time.clockLost = false) (hh : smGet s.time.holdRaised t false = false) :
    s.stampApply t x = State.stampSettle (State.realignAll (s, false) t x.2 (List.range 4)) t := by
  rw [State.stampApply, if_neg (by simp [ht, hc, hh]), realignStep_eq, State.realignAll]
  exact stampSettle_if _ _

/-- A stamp taken: the state with the copies realigned, and whether one slipped. -/
theorem stampReceive_realigned {k : Nat} {cs : List Chan} {l : List (Nat × List Chan)} (ht : t ≠ 0) (hc : s.time.clockLost = false)
    (hst : smGet s.time.stamps t [] = (k, cs) :: l) (hh : smGet s.time.holdRaised t false = false) : ∃ (q : State) (b : Bool),
      s.stampReceive t = (if b then (q.followed t).slipped t else q.followed t) ∧
      q = { s.popStamp t l with time.chans := q.time.chans } ∧ (∀ n, n < 4 → q.chan t n = s.realigned t n (cs.getD n {})) ∧
      ((∃ n, n < 4 ∧ s.slips t n (cs.getD n {})) → b = true) := by
  have bound : ∀ a ∈ List.range 4, a < 0x100000 := fun a h => by
    have := List.mem_range.1 h
    omega
  refine ⟨_, _, (stampReceive_cons hst).trans (stampApply_eq ht hc hh), realignAll_only _ _ _, fun n hn => ?_, fun ⟨n, hn, hs⟩ => ?_⟩
  · exact realignAll_chan _ ht _ List.nodup_range bound _ (List.mem_range.2 hn)
  · exact realignAll_slip _ ht _ List.nodup_range bound _ (Or.inr ⟨n, List.mem_range.2 hn, hs⟩)

end

/-! ### Settling -/

section
variable {s : State} {t : Nat}

/-- A tile without an armed geyser has none to judge. -/
theorem geyJudge_idle (on : Nat → Bool) (h : ∀ g, g < 32 → s.on t (GY_CTL_ARMED g) = false) : s.geyJudge t on = s :=
  each_induct (· = s) s _ _ rfl fun r g hg hr => by
    have small : g < 32 := List.mem_range.1 (List.mem_filter.1 hg).1
    rw [hr, geyFire_idle (Or.inl (h g small))]

theorem retrack_f (s old : State) (u : Nat) (q : FRef) : (s.retrack old).f u q = s.f u q := by
  rw [retrack_only s old]
  rfl

theorem retrack_time (s old : State) : (s.retrack old).time = s.time := by
  rw [retrack_only s old]

theorem retrack_evtStat (s old : State) (u i : Nat) : (s.retrack old).evtStat u i = s.evtStat u i := by
  rw [retrack_only s old]
  rfl

theorem does_followerStampReceive {k : Nat} {cs : List Chan} {l : List (Nat × List Chan)} (hl : s.live t 0 = true) (ht : t ≠ 0)
    (hst : smGet s.time.stamps t [] = (k, cs) :: l) (hh : smGet s.time.holdRaised t false = false)
    (idle : ∀ g, g < 32 → s.on t (GY_CTL_ARMED g) = false) : Does (.followerStampReceive t) s fun r =>
      smGet r.time.stamps t [] = l ∧ r.f t FOLLOW_STATE = 0 ∧ (∀ n, n < 4 → r.chan t n = s.realigned t n (cs.getD n {})) ∧
      ((∃ n, n < 4 ∧ s.slips t n (cs.getD n {})) → r.evtStat t 261 = true) := by
  refine does_when rfl hl ?_
  have clock : s.time.clockLost = false := by
    simp only [State.live, Bool.and_eq_true, Bool.not_eq_true'] at hl
    exact hl.2
  obtain ⟨q, b, received, only, chans, slip⟩ := stampReceive_realigned ht clock hst hh
  have qclock : q.time.clockLost = false := by rw [only]; exact clock
  have qhold : smGet q.time.holdRaised t false = false := by rw [only]; exact hh
  have qstamps : smGet q.time.stamps t [] = l := by rw [only]; exact smGet_smPut_same _ _ _ _
  have qregs : ∀ u off, q.reg u off = s.reg u off := fun u off => by rw [only]; rfl
  have r_time : (s.stampReceive t).time = { q.time with stamped := smPut q.time.stamped t true false } := by
    rw [received]
    split
    · exact slipped_time.trans followed_time
    · exact followed_time
  have r_state : (s.stampReceive t).f t FOLLOW_STATE = 0 := by
    rw [received]
    split
    · exact slipped_state.trans (followed_state qclock qhold)
    · exact followed_state qclock qhold
  have r_reg : ∀ off, off < 0x1000000 → eventOff off = false → off ≠ FOLLOW → (s.stampReceive t).reg t off = s.reg t off := fun off h1 h2 h3 => by
    rw [received]
    split
    · exact (slipped_reg h1 h2 h3).trans ((followed_reg h1 h3).trans (qregs ..))
    · exact (followed_reg h1 h3).trans (qregs ..)
  have r_armed : ∀ g, g < 32 → ((s.stampReceive t).retrack s).on t (GY_CTL_ARMED g) = false := fun g hg => by
    have off : GY_CTL g < 0x30C00 ∧ 0x30400 ≤ GY_CTL g := by unfold GY_CTL; omega
    have same := r_reg (GY_CTL g) (by omega) (by simp [eventOff]; omega) (by unfold FOLLOW; omega)
    rw [State.on, retrack_f, f_congr (q := GY_CTL_ARMED g) same]
    exact idle g hg
  have done : s.stampTake t = (s.stampReceive t).retrack s := geyJudge_idle _ r_armed
  rw [done, retrack_time, r_time, retrack_f]
  refine ⟨qstamps, r_state, fun n hn => ?_, fun ⟨n, hn, hs⟩ => ?_⟩
  · have same : (s.stampReceive t).chan t n = q.chan t n := (congrArg (fun x : TimeSt => smGet x.chans (tk t n) {}) r_time :)
    rw [retrack_chan, same]
    exact chans n hn
  · have set : b = true := slip ⟨n, hn, hs⟩
    rw [retrack_evtStat, received, if_pos set]
    exact raise_stat _ t 261 (by decide)

theorem does_timeRttDone {k : Nat} (hl : s.live t 0 = true) (hb : smGet s.time.rttBusy t false = true) : Does (.timeRttDone t k) s fun r =>
    r.f t TIME_RTT_RTT = min 4095 k ∧ r.on t TIME_RTT_DONE = true ∧ smGet r.time.rttBusy t false = false := by
  refine does_when rfl hl ?_
  rw [State.rttDone, if_pos hb]
  refine ⟨?_, on_setB_same _ t TIME_RTT_DONE true (by decide) (by decide), ?_⟩
  · have bound : min 4095 k % 2 ^ TIME_RTT_RTT.w = min 4095 k := Nat.mod_eq_of_lt (by show _ < 2 ^ 12; omega)
    rw [State.setB, f_setF_apart _ t _ (by decide) (by decide) (by decide), f_setF_same _ t _ _ (by decide), bound]
  · exact smGet_smPut_same s.time.rttBusy t false false

end

/-- Settles O18: a due increment reaches every tile's copy, a stamp joins each reached tile's queue, a follower's copies are realigned
one by one from what stood before, and a round trip is shown. -/
theorem changesAndStampsComplete : Obligations.ChangesAndStampsComplete :=
  ⟨fun _ _ _ _ hn hi hd hs => does_timeChangeApply hn hi hd hs, fun _ hl hn => does_timeStampSend hl hn,
    fun _ _ _ _ _ hl ht hst hh idle => does_followerStampReceive hl ht hst hh idle, fun _ _ _ hl hb => does_timeRttDone hl hb⟩

end Sys2Proof.Machine

/-!
# Ticks
O17: the parts of a tick of the time clock, each with what it changes: the channels and LC0, AON_CAL, the queues of accepted changes,
the clock pins of the converters, and the links in RESETTING.
-/
namespace Sys2Proof.Machine

/-! ### The arithmetic of one increment (R98) -/

/-- A channel below the wrap of its seconds advances by less than two seconds: the carry of the fraction goes to the nanoseconds, and at
1,000,000,000 these give a second. -/
theorem Chan.add_inc (c : Chan) (hns : c.ns < 1000000000) (hsec : c.sec < 2 ^ 48) (hfrac : c.frac < 2 ^ 32) (hinc : c.inc < 2 ^ 36) :
    c.add c.inc =
      let f := c.frac + c.inc % 2 ^ 32
      let ns := c.ns + c.inc / 2 ^ 32 + f / 2 ^ 32
      if 1000000000 ≤ ns then { c with frac := f % 2 ^ 32, ns := ns - 1000000000, sec := (c.sec + 1) % 2 ^ 48 }
      else { c with frac := f % 2 ^ 32, ns := ns } := by
  obtain ⟨sec, ns, frac, inc⟩ := c
  dsimp only at hns hsec hfrac hinc
  have fraction : (ns * 2 ^ 32 + frac + inc) % 2 ^ 32 = (frac + inc % 2 ^ 32) % 2 ^ 32 := by omega
  have whole : (ns * 2 ^ 32 + frac + inc) / 2 ^ 32 = ns + inc / 2 ^ 32 + (frac + inc % 2 ^ 32) / 2 ^ 32 := by omega
  have small : ns + inc / 2 ^ 32 + (frac + inc % 2 ^ 32) / 2 ^ 32 < 2000000000 := by omega
  unfold Chan.add
  dsimp only
  rw [fraction, whole]
  generalize ns + inc / 2 ^ 32 + (frac + inc % 2 ^ 32) / 2 ^ 32 = n at small ⊢
  by_cases h : 1000000000 ≤ n
  · have second : n / 1000000000 = 1 := by omega
    have rest : n % 1000000000 = n - 1000000000 := by omega
    rw [if_pos h, second, rest]
  · have second : n / 1000000000 = 0 := by omega
    have rest : n % 1000000000 = n := by omega
    rw [if_neg h, second, rest, Nat.add_zero, Nat.mod_eq_of_lt hsec]

/-! ### The parts of a tick -/

/-- What a tick may change: channels, steering and counts of time, the tick itself, registers and the clock pins of the converters. -/
def State.TickOnly (s r : State) : Prop :=
  r = { s with
    now := r.now, regs := r.regs, pins.pdm := r.pins.pdm
    time.chans := r.time.chans, time.steer := r.time.steer, time.lcTicks := r.time.lcTicks, time.calAcc := r.time.calAcc }

theorem State.TickOnly.trans {a b c : State} (hb : a.TickOnly b) (hc : b.TickOnly c) : a.TickOnly c := by
  unfold State.TickOnly at hb hc ⊢
  exact hc.trans (by rw [hb])

/-- The tick is counted. -/
def State.countTick (s : State) : State := { s with time.lcTicks := (s.time.lcTicks + 1) % 2 ^ 64, now := s.now + 1 }

section
variable {s : State}

theorem tick_eq (hc : s.time.clockLost = false) :
    s.tick = (s.mapChans (s.tileList ×ˢ List.range 4) fun c => c.add c.inc).countTick := by
  unfold State.tick
  rw [if_neg (by simp [hc]), each_product]
  rfl

theorem countTick_only (s : State) : s.TickOnly s.countTick := rfl

theorem mapChans_tickOnly (f : Chan → Chan) (l : List (Nat × Nat)) (s : State) : s.TickOnly (s.mapChans l f) := by
  have only := mapChans_only f l s
  unfold State.TickOnly
  rw [only]

/-- What the calibration of AON_CAL changes. -/
def State.CalOnly (s r : State) : Prop :=
  r = { s with regs := r.regs, time.calAcc := r.time.calAcc } ∧ r.WordsBut s ((List.range 8).map fun t => (t, AON_CAL))

theorem calibrate_only {r : State} {t : Nat} (ht : t < 8) (h : s.CalOnly r) : s.CalOnly (r.calibrate t) := by
  have named : (t, AON_CAL) ∈ (List.range 8).map fun t => (t, AON_CAL) := List.mem_map.2 ⟨t, List.mem_range.2 ht, rfl⟩
  obtain ⟨fields, words⟩ := h
  unfold State.calibrate
  dsimp only
  generalize smGet r.time.calAcc t 0 + ((r.aonRatio t : Int) - r.reg t AON_CAL) = a
  generalize a.tdiv calCycles = d
  generalize a - d * calCycles = rest
  unfold State.when
  split
  · exact ⟨by rw [fields]; rfl, (words.symm.setReg _ (by decide) named).symm⟩
  · exact ⟨by rw [fields], words⟩

theorem tiles_le (s : State) : s.tiles ≤ 8 := by
  unfold State.tiles
  cases s.member <;> decide

theorem calibrateAll_only (s : State) : s.CalOnly s.calibrateAll := by
  have none : s.CalOnly s := ⟨rfl, wordsBut_refl s _⟩
  unfold State.calibrateAll State.when
  split
  · refine each_induct s.CalOnly s _ _ none fun r t ht h => calibrate_only ?_ h
    have := List.mem_range.1 (List.mem_filter.1 ht).1
    have := tiles_le s
    omega
  · exact none

theorem calibrateAll_off (h : s.now % 25 ≠ 0) : s.calibrateAll = s := by
  have off : (!s.time.clockLost && s.now % 25 == 0) = false := by simp [h]
  rw [State.calibrateAll, off]
  rfl

/-- Nothing accepted waits on any channel. -/
def State.Steady (s : State) : Prop := ∀ n, n < 4 → (s.steer n).incs = [] ∧ (s.steer n).step = none

theorem trackInc_steer (s : State) (n : Nat) (x : Steer) (t c : Nat) : (s.setSteer n x).trackInc t c = s.trackInc t c := rfl

/-- Where no increment has changed, no raster does. -/
theorem retrack_same {r : State} (h : ∀ t c, r.trackInc t c = s.trackInc t c) : r.retrack s = r :=
  each_induct (· = r) r _ _ rfl fun q t _ hq =>
    each_induct (· = r) q _ _ hq fun q c _ hq => by
      subst hq
      exact if_neg fun ⟨_, ne, _⟩ => ne (h t c).symm

/-- A channel on which nothing waits keeps its steering. -/
theorem changeApply_steady {n : Nat} (hi : (s.steer n).incs = []) (hs : (s.steer n).step = none) :
    s.changeApply n = s.setSteer n { s.steer n with incs := [] } := by
  have none_due : s.stepDue n = none := by rw [State.stepDue, hs]
  have applied : s.applyChanges n = s.setSteer n { s.steer n with incs := [] } := by
    unfold State.applyChanges
    dsimp only
    rw [hi, hs]
    rfl
  rw [State.changeApply, none_due]
  dsimp only
  rw [applied]
  exact retrack_same (trackInc_steer s n _)

theorem steady_changeApply {n : Nat} (hn : n < 4) (h : s.Steady) :
    (s.changeApply n).Steady ∧ s.changeApply n = { s with time.steer := (s.changeApply n).time.steer } := by
  obtain ⟨hi, hs⟩ := h n hn
  rw [changeApply_steady hi hs]
  refine ⟨fun m hm => ?_, rfl⟩
  by_cases e : n = m
  · subst e
    rw [steer_setSteer_same]
    exact ⟨rfl, hs⟩
  · rw [steer_setSteer_ne s n _ m e]
    exact h m hm

/-- Where nothing waits, the changes of a tick reach the steering's record alone. -/
theorem changes_only (h : s.Steady) :
    s.each (List.range 4) State.changeApply = { s with time.steer := (s.each (List.range 4) State.changeApply).time.steer } := by
  refine (each_induct (fun r => r.Steady ∧ r = { s with time.steer := r.time.steer }) s _ _ ⟨h, rfl⟩ fun r n hn ⟨steady, only⟩ => ?_).2
  obtain ⟨next, kept⟩ := steady_changeApply (List.mem_range.1 hn) steady
  exact ⟨next, kept.trans (by rw [only])⟩

theorem pdmTick_only (s : State) : s.pdmTick = { s with pins.pdm := s.pdmTick.pins.pdm } := by
  unfold State.pdmTick
  dsimp only
  split
  · split
    · rfl
    · rfl
  · split
    · rfl
    · rfl

theorem pdmTick_idle (h : s.f 0 AUD_STAT_STATE = 0) (low : s.pins.pdm.clk = false) : s.pdmTick = s := by
  unfold State.pdmTick
  dsimp only
  rw [if_pos h, low]
  rfl

/-- Where no link stands in RESETTING none trains again. -/
theorem resetsOver_idle (h : ∀ t l, t < s.tiles → l < 2 → s.f t (PL_STAT_STATE l) ≠ 4) : s.resetsOver = s := by
  refine each_induct (· = s) s _ _ rfl fun r x hx hr => ?_
  obtain ⟨t, ht, hx⟩ := List.mem_flatMap.1 hx
  have link : x.1 = t ∧ x.2 < 2 := by
    simp only [List.mem_cons, List.not_mem_nil, or_false] at hx
    obtain rfl | rfl := hx
    · exact ⟨rfl, Nat.zero_lt_two⟩
    · exact ⟨rfl, Nat.one_lt_two⟩
  have off : (s.linkState x.1 x.2 == 4) = false := beq_false_of_ne (h x.1 x.2 (link.1 ▸ List.mem_range.1 ht) link.2)
  obtain ⟨t', l⟩ := x
  dsimp only at off ⊢
  rw [hr, off, Bool.and_false]
  rfl

/-! ### The whole tick -/

/-- The channels and LC0 after a tick, before anything that follows it. -/
theorem countTick_fields (s : State) : s.countTick.time.lcTicks = (s.time.lcTicks + 1) % 2 ^ 64 ∧ s.countTick.now = s.now + 1 ∧
    s.countTick.regs = s.regs ∧ s.countTick.member = s.member ∧ s.countTick.time.calAcc = s.time.calAcc ∧
    s.countTick.time.steer = s.time.steer ∧ s.countTick.pins = s.pins ∧ s.countTick.time.chans = s.time.chans :=
  ⟨rfl, rfl, rfl, rfl, rfl, rfl, rfl, rfl⟩

theorem mapChans_fields (f : Chan → Chan) (l : List (Nat × Nat)) (s : State) : (s.mapChans l f).time.lcTicks = s.time.lcTicks ∧
    (s.mapChans l f).now = s.now ∧ (s.mapChans l f).regs = s.regs ∧ (s.mapChans l f).member = s.member ∧
    (s.mapChans l f).time.calAcc = s.time.calAcc ∧ (s.mapChans l f).time.steer = s.time.steer ∧ (s.mapChans l f).pins = s.pins := by
  rw [mapChans_only f l s]
  exact ⟨rfl, rfl, rfl, rfl, rfl, rfl, rfl⟩

/-- Every channel of every tile advances by its increment, and the tick is counted. -/
theorem tick_fields (hc : s.time.clockLost = false) : s.tick.time.lcTicks = (s.time.lcTicks + 1) % 2 ^ 64 ∧ s.tick.now = s.now + 1 ∧
    s.tick.regs = s.regs ∧ s.tick.member = s.member ∧ s.tick.time.calAcc = s.time.calAcc ∧ s.tick.time.steer = s.time.steer ∧
    s.tick.pins = s.pins ∧ s.TickOnly s.tick := by
  have map := mapChans_tickOnly (fun c => c.add c.inc) (s.tileList ×ˢ List.range 4) s
  obtain ⟨ticks, now, regs, member, acc, steer, pins⟩ := mapChans_fields (fun c => c.add c.inc) (s.tileList ×ˢ List.range 4) s
  rw [tick_eq hc]
  generalize s.mapChans (s.tileList ×ˢ List.range 4) (fun c => c.add c.inc) = r at *
  obtain ⟨ticks', now', regs', member', acc', steer', pins', _⟩ := countTick_fields r
  rw [ticks', now', regs', member', acc', steer', pins', ticks, now]
  exact ⟨rfl, rfl, regs, member, acc, steer, pins, map.trans (countTick_only r)⟩

theorem tick_chan (hc : s.time.clockLost = false) {t n : Nat} (ht : t < s.tiles) (hn : n < 4) :
    s.tick.chan t n = (s.chan t n).add (s.chan t n).inc := by
  have nodup : (s.tileList ×ˢ List.range 4).Nodup := List.nodup_range.product List.nodup_range
  have bound : ∀ x ∈ s.tileList ×ˢ List.range 4, x.2 < 0x100000 := fun x hx => by
    have := List.mem_range.1 (List.mem_product.1 hx).2
    omega
  have named : (t, n) ∈ s.tileList ×ˢ List.range 4 := List.mem_product.2 ⟨List.mem_range.2 ht, List.mem_range.2 hn⟩
  have mapped := mapChans_chan (t := t) (n := n) (fun c => c.add c.inc) _ nodup bound s (by omega)
  rw [if_pos named] at mapped
  rw [tick_eq hc]
  generalize s.mapChans (s.tileList ×ˢ List.range 4) (fun c => c.add c.inc) = r at *
  obtain ⟨_, _, _, _, _, _, _, chans⟩ := countTick_fields r
  have same : r.countTick.chan t n = r.chan t n := congrArg (fun m : SMap Chan => smGet m (tk t n) {}) chans
  exact same.trans mapped

/-- Calibration leaves what waits. -/
theorem steady_calibrateAll (h : s.Steady) : s.calibrateAll.Steady := fun n hn => by
  have same : s.calibrateAll.steer n = s.steer n := by
    rw [(calibrateAll_only s).1]
    rfl
  rw [same]
  exact h n hn

/-- What follows the channels in a tick. -/
def State.tickRest (q : State) : State := (q.calibrateAll.each (List.range 4) State.changeApply).pdmTick

/-- The rest of a tick changes AON_CAL and what it is filtered from, the steering's record and the clock pins. -/
theorem tickRest_only {q : State} (h : q.Steady) : q.TickOnly q.tickRest ∧ q.tickRest.time.chans = q.time.chans ∧
    q.tickRest.time.lcTicks = q.time.lcTicks ∧ q.tickRest.now = q.now ∧ q.tickRest.member = q.member ∧
    q.tickRest.WordsBut q ((List.range 8).map fun t => (t, AON_CAL)) := by
  obtain ⟨calibrated, words⟩ := calibrateAll_only q
  have changed := changes_only (steady_calibrateAll h)
  unfold State.tickRest State.TickOnly
  have ticked := pdmTick_only (q.calibrateAll.each (List.range 4) State.changeApply)
  generalize (q.calibrateAll.each (List.range 4) State.changeApply).pdmTick = r at *
  generalize q.calibrateAll.each (List.range 4) State.changeApply = q₂ at *
  generalize q.calibrateAll = q₁ at *
  have word : ∀ u off, r.word u off = q₁.word u off := fun u off => by
    rw [ticked, changed]
    rfl
  refine ⟨?_, ?_, ?_, ?_, ?_, fun u off ho hn => (words u off ho hn).trans (word u off).symm⟩ <;> rw [ticked, changed, calibrated]

/-- Away from the ticks at which AON_CAL follows, the rest of a tick leaves every register. -/
theorem tickRest_off {q : State} (h : q.Steady) (off : q.now % 25 ≠ 0) :
    q.tickRest.regs = q.regs ∧ q.tickRest.time.calAcc = q.time.calAcc := by
  have changed := changes_only h
  unfold State.tickRest
  rw [calibrateAll_off off, pdmTick_only, changed]
  exact ⟨rfl, rfl⟩

/-- With the converters idle and their clock low the rest of a tick leaves the pins. -/
theorem tickRest_idle {q : State} (h : q.Steady) (idle : q.f 0 AUD_STAT_STATE = 0) (low : q.pins.pdm.clk = false) :
    q.tickRest.pins.pdm = q.pins.pdm := by
  obtain ⟨calibrated, words⟩ := calibrateAll_only q
  have changed := changes_only (steady_calibrateAll h)
  have kept : q.calibrateAll.f 0 AUD_STAT_STATE = q.f 0 AUD_STAT_STATE := f_congr (words.symm.reg (by decide) (by decide))
  have same : (q.calibrateAll.each (List.range 4) State.changeApply).f 0 AUD_STAT_STATE = q.f 0 AUD_STAT_STATE := by
    rw [changed]
    exact kept
  have pins : (q.calibrateAll.each (List.range 4) State.changeApply).pins = q.pins := by
    rw [changed, calibrated]
  unfold State.tickRest
  rw [pdmTick_idle (same.trans idle) (by rw [pins]; exact low), pins]

theorem does_timeTick (hh : s.holds = false) (hc : s.time.clockLost = false) (steady : s.Steady)
    (links : ∀ t l, t < s.tiles → l < 2 → s.f t (PL_STAT_STATE l) ≠ 4) : Does .timeTick s fun r =>
      (∀ t n, t < s.tiles → n < 4 → r.chan t n = (s.chan t n).add (s.chan t n).inc) ∧
      r.time.lcTicks = (s.time.lcTicks + 1) % 2 ^ 64 ∧ r.now = s.now + 1 ∧ s.TickOnly r ∧
      r.WordsBut s ((List.range 8).map fun t => (t, AON_CAL)) ∧
      ((s.now + 1) % 25 ≠ 0 → r.regs = s.regs ∧ r.time.calAcc = s.time.calAcc) ∧
      (s.f 0 AUD_STAT_STATE = 0 → s.pins.pdm.clk = false → r.pins.pdm = s.pins.pdm) := by
  refine does_when (b := !s.holds) rfl (by simp [hh]) ?_
  obtain ⟨ticks, now, regs, member, acc, steer, pins, only⟩ := tick_fields hc
  have settled : s.tick.Steady := fun n hn => by
    have same : s.tick.steer n = s.steer n := congrArg (fun m : SMap Steer => smGet m n {}) steer
    rw [same]
    exact steady n hn
  obtain ⟨restOnly, restChans, restTicks, restNow, restMember, restWords⟩ := tickRest_only settled
  have word : ∀ u off, s.tick.word u off = s.word u off := fun u off => by
    have grade : s.tick.grade = s.grade := by rw [only]
    unfold State.word
    rw [regs, member, grade]
  have words : s.tick.tickRest.WordsBut s ((List.range 8).map fun t => (t, AON_CAL)) := fun u off ho hn =>
    (word u off).symm.trans (restWords u off ho hn)
  have whole : s.timeTick = s.tick.tickRest := rfl
  have idle : s.tick.tickRest.resetsOver = s.tick.tickRest := resetsOver_idle fun t l ht hl => by
    have tiles : s.tick.tickRest.tiles = s.tiles := congrArg Member.tiles (restMember.trans member)
    have off : (t, PL_STAT l) ∉ (List.range 8).map fun t => (t, AON_CAL) := fun h => by
      obtain ⟨_, _, e⟩ := List.mem_map.1 h
      have := congrArg Prod.snd e
      dsimp only [AON_CAL, PL_STAT] at this
      omega
    rw [f_congr (q := PL_STAT_STATE l) (words.symm.reg (by show PL_STAT l < _; unfold PL_STAT; omega) off)]
    exact links t l (tiles ▸ ht) hl
  rw [whole, idle]
  refine ⟨fun t n ht hn => ?_, restTicks.trans ticks, restNow.trans now, only.trans restOnly, words, fun off => ?_, fun aud low => ?_⟩
  · have same : s.tick.tickRest.chan t n = s.tick.chan t n := congrArg (fun m : SMap Chan => smGet m (tk t n) {}) restChans
    exact same.trans (tick_chan hc ht hn)
  · obtain ⟨restRegs, restAcc⟩ := tickRest_off settled (by rw [now]; exact off)
    exact ⟨restRegs.trans regs, restAcc.trans acc⟩
  · have kept : s.tick.f 0 AUD_STAT_STATE = s.f 0 AUD_STAT_STATE := by
      unfold State.f State.reg
      rw [word]
    rw [tickRest_idle settled (kept.trans aud) (by rw [pins]; exact low), pins]

end

/-- Settles O17: a tick part by part; each channel's sum is the arithmetic of one increment. -/
theorem tickAdvancesEveryChannel : Obligations.TickAdvancesEveryChannel := fun _ hh hc steady bounds links =>
  (does_timeTick hh hc steady links).mono fun _ ⟨chans, rest⟩ => ⟨fun t n ht hn => by
    obtain ⟨hns, hsec, hfrac, hinc⟩ := bounds t n ht hn
    exact (chans t n ht hn).trans (Chan.add_inc _ hns hsec hfrac hinc), rest⟩

end Sys2Proof.Machine

/-!
# The clock of REFCLK

O14: the clock-loss sequence, a glitch, and recovery. What recovery does to a tile reaches most of its units; none of it touches the time
of the part but for the targets of geysers, trigger pulses and the record of periodic actions. One rule per operation, in the order of
the model.
-/

namespace Sys2Proof.Machine

/-- The time of the part is as it was, but for the targets of geysers, the pulses of XTRIG outputs and the record of periodic actions. -/
def State.SameTime (s r : State) : Prop :=
  r.time = { s.time with gey := r.time.gey, xtrig := r.time.xtrig, periods := r.time.periods }

namespace State.SameTime

variable {s r : State} {k t c u i l n m port bank row a id sec key : Nat} {bs : List Nat} {poison b : Bool}

theorem refl (s : State) : s.SameTime s := rfl

theorem of_time {q : State} (h : s.SameTime r) (e : q.time = r.time) : s.SameTime q := by
  unfold State.SameTime at h ⊢
  rwa [e]

theorem each {α : Type} {l : List α} {f : State → α → State} (h : s.SameTime r)
    (hf : ∀ q a, s.SameTime q → s.SameTime (f q a)) : s.SameTime (r.each l f) :=
  each_induct s.SameTime r l f h fun q a _ hq => hf q a hq

theorem when {f : State → State} (h : s.SameTime r) (hf : s.SameTime r → s.SameTime (f r)) : s.SameTime (r.when b f) := by
  cases b with
  | false => exact h
  | true => exact hf h

theorem ite {q : State} {p : Prop} [Decidable p] (hr : s.SameTime r) (hq : s.SameTime q) :
    s.SameTime (if p then r else q) := by
  split
  · exact hr
  · exact hq

/-! ### Registers, bytes, records of single items -/

theorem setReg {off v : Nat} (h : s.SameTime r) : s.SameTime (r.setReg t off v) := h.of_time (setReg_time ..)
theorem setF {f : FRef} {v : Nat} (h : s.SameTime r) : s.SameTime (r.setF t f v) := h.of_time (setF_time ..)
theorem setB {f : FRef} {v : Bool} (h : s.SameTime r) : s.SameTime (r.setB t f v) := h.of_time (setB_time ..)
theorem addF {f : FRef} {v : Nat} (h : s.SameTime r) : s.SameTime (r.addF t f v) := h.of_time (addF_time ..)
theorem setReg64 {lo v : Nat} (h : s.SameTime r) : s.SameTime (r.setReg64 t lo v) := h.of_time (setReg64_time ..)
theorem setCrew {x : Crew} (h : s.SameTime r) : s.SameTime (r.setCrew t c x) := h.of_time (setCrew_time ..)
theorem setMcChan {x : McChan} (h : s.SameTime r) : s.SameTime (r.setMcChan t c x) := h.of_time (setMcChan_time ..)
theorem setEcc {err : Nat} (h : s.SameTime r) : s.SameTime (r.setEcc t a err b) := h.of_time (setEcc_time ..)
theorem setInjected (h : s.SameTime r) : s.SameTime (r.setInjected t a b) := h.of_time (setInjected_time ..)
theorem setPin {x : LanePins} (h : s.SameTime r) : s.SameTime (r.setPin t c x) := h.of_time (setPin_time ..)
theorem setLink {x : Lpl} (h : s.SameTime r) : s.SameTime (r.setLink t c x) := h.of_time (setLink_time ..)
theorem setRaw {x : RawCtx} (h : s.SameTime r) : s.SameTime (r.setRaw t c x) := h.of_time (setRaw_time ..)
theorem setEnc {x : EncCtx} (h : s.SameTime r) : s.SameTime (r.setEnc t c x) := h.of_time (setEnc_time ..)
theorem setDec {x : DecCtx} (h : s.SameTime r) : s.SameTime (r.setDec t c x) := h.of_time (setDec_time ..)
theorem setCrs {x : CrStream} (h : s.SameTime r) : s.SameTime (r.setCrs t c x) := h.of_time (setCrs_time ..)
theorem setCrj {x : CrJob} (h : s.SameTime r) : s.SameTime (r.setCrj t c x) := h.of_time (setCrj_time ..)
theorem setBur {x : Burst} (h : s.SameTime r) : s.SameTime (r.setBur t x) := h.of_time (setBur_time ..)
theorem setUnit {x : UnitSt} (h : s.SameTime r) : s.SameTime (r.setUnit t u x) := h.of_time rfl
theorem setBusy (h : s.SameTime r) : s.SameTime (r.setBusy t u c b) := h.of_time rfl
theorem setTxn {x : Txn} (h : s.SameTime r) : s.SameTime (r.setTxn i x) := h.of_time (setTxn_time ..)
theorem setAud {x : AudCh} (h : s.SameTime r) : s.SameTime (r.setAud c x) := h.of_time (setAud_time ..)
theorem setPort {x : AdPort} (h : s.SameTime r) : s.SameTime (r.setPort t c x) := h.of_time (setPort_time ..)
theorem setLane {x : LaneSt} (h : s.SameTime r) : s.SameTime (r.setLane t l x) := h.of_time (setLane_time ..)
theorem setPeriod (h : s.SameTime r) : s.SameTime (r.setPeriod n i) := by
  unfold State.SameTime at h ⊢
  rw [State.setPeriod, h]
theorem setGeyTgt {x : GeyTgt} (h : s.SameTime r) : s.SameTime (r.setGeyTgt t n x) := by
  unfold State.SameTime at h ⊢
  rw [State.setGeyTgt, h]

/-! A change of another part of the state. -/

theorem bench {x : BenchSt} (h : s.SameTime r) : s.SameTime { r with bench := x } := h.of_time rfl
theorem evt {e : EvtSt} (h : s.SameTime r) : s.SameTime { r with evt := e } := h.of_time rfl
theorem mem {x : MemSt} (h : s.SameTime r) : s.SameTime { r with mem := x } := h.of_time rfl
theorem store {x : RecSt} (h : s.SameTime r) : s.SameTime { r with store := x } := h.of_time rfl
theorem pix {x : PixSt} (h : s.SameTime r) : s.SameTime { r with pix := x } := h.of_time rfl
theorem pwr {x : PwrSt} (h : s.SameTime r) : s.SameTime { r with pwr := x } := h.of_time rfl
theorem host {x : HostSt} (h : s.SameTime r) : s.SameTime { r with host := x } := h.of_time rfl
theorem audio {x : AudSt} (h : s.SameTime r) : s.SameTime { r with audio := x } := h.of_time rfl
theorem mags {x : SMap (List MagCmd)} (h : s.SameTime r) : s.SameTime { r with mags := x } := h.of_time rfl

/-! ### Occurrences and the Seam -/

theorem occur {id : Nat} (h : s.SameTime r) : s.SameTime (r.occur t id b).1 := by
  have noted : s.SameTime (r.noted t id b) := h.setReg.addF.setB
  exact noted.of_time (congrArg State.time (occur_spoil r t id b).1 :)

theorem raiseX {id : Nat} (h : s.SameTime r) : s.SameTime (r.raiseX t id b) := by
  have occurred := h.occur (t := t) (id := id) (b := b)
  unfold State.raiseX
  dsimp only
  exact (occurred.occur.ite occurred).evt.ite (occurred.occur.ite occurred)

theorem raise {id : Nat} (h : s.SameTime r) : s.SameTime (r.raise t id) := h.raiseX

theorem sramWritten (h : s.SameTime r) : s.SameTime (r.sramWritten t n) := h.setB.mem.raise.ite h

theorem seamReach (h : s.SameTime r) : s.SameTime (r.seamReach t u).1 := by
  unfold State.seamReach
  split
  · exact h
  · exact h.raise

/-! ### Memory controllers and DRAM words -/

theorem setDbytes (h : s.SameTime r) : s.SameTime (r.setDbytes t a bs) := by
  induction bs generalizing r a with
  | nil => exact h
  | cons _ _ ih => exact ih (h.of_time (setDbyte_time ..))

theorem setCorr {l : List CorrEnt} (h : s.SameTime r) : s.SameTime (r.setCorr t l) := h.mem.setF

theorem logCorr (h : s.SameTime r) : s.SameTime (r.logCorr t a b).1 := by
  unfold State.logCorr
  extract_lets n l x q lim addr
  have counted : s.SameTime q := h.mem
  clear_value q
  split
  · dsimp only
    split
    · exact counted.setCorr.raiseX
    · exact counted.setCorr
  · generalize hp : (if l.length < corrCap then _ else _ : State × Bool) = p
    have placed : s.SameTime p.1 := by
      rw [← hp]
      split
      · exact counted.setCorr
      · split
        · exact counted.mem.setCorr.raise
        · exact counted.addF
    obtain ⟨v, _⟩ := p
    dsimp only
    split
    · exact placed.raiseX
    · exact placed

theorem corrWritten (h : s.SameTime r) : s.SameTime (r.corrWritten t a) := h.setCorr.ite h

theorem mcFail (h : s.SameTime r) : s.SameTime (r.mcFail t c) := h.ite h.setF.setMcChan.setF.raise

theorem countUe (h : s.SameTime r) : s.SameTime (r.countUe t c) := by
  unfold State.countUe
  extract_lets x l q
  have noted : s.SameTime q := h.setMcChan
  exact noted.when fun h => h.mcFail

theorem putWord (h : s.SameTime r) : s.SameTime (r.putWord t a n) := h.setDbytes

theorem addCe (h : s.SameTime r) : s.SameTime (r.addCe t) := h.mem

theorem addUe (h : s.SameTime r) : s.SameTime (r.addUe t) := h.mem

theorem readWord (h : s.SameTime r) : s.SameTime (r.readWord t a port b).1 := by
  unfold State.readWord
  dsimp only
  split
  · exact h
  · split
    · exact h.setEcc.ite h
    · exact h.addF
    · exact h.addF.addCe.raiseX.logCorr.putWord.setEcc.setInjected
    · exact (h.addF.addUe.setReg64.setReg.raiseX.ite h.addF.addUe.setReg64.setReg.raiseX.countUe).putWord.setEcc.setInjected

theorem injectLine (h : s.SameTime r) : s.SameTime (r.injectLine t n) := by
  unfold State.injectLine
  dsimp only
  split
  · refine State.SameTime.raise ?_
    split
    · exact h.setB.setEcc.setInjected
    · exact h.setB.setEcc.setInjected
    · exact h.setB.setEcc.setInjected
    · exact h.setB
  · exact h

theorem writeWord (h : s.SameTime r) : s.SameTime (r.writeWord t a port bs poison) := by
  unfold State.writeWord
  dsimp only
  exact (h.setDbytes.setEcc.setInjected.corrWritten).ite h.readWord.putWord.setDbytes.setEcc.setInjected.corrWritten

theorem writeRun (h : s.SameTime r) : s.SameTime (r.writeRun t port poison n a bs) := by
  induction n generalizing r a bs with
  | zero => exact h
  | succ n ih => exact h.ite (ih h.writeWord)

theorem injectRun (h : s.SameTime r) : s.SameTime (r.injectRun t a n) := (h.injectLine.ite h).ite h

theorem mergeQueued (h : s.SameTime r) : s.SameTime (r.mergeQueued t a bs poison) := h.each fun _ _ hq => hq.setMcChan.ite hq

theorem wr (h : s.SameTime r) : s.SameTime (r.wr t a bs poison port) := h.ite h.mergeQueued.writeRun.injectRun

theorem wrAt (h : s.SameTime r) : s.SameTime (r.wrAt t a bs poison port) := h.wr.ite h

theorem mitigate (h : s.SameTime r) : s.SameTime (r.mitigate t c bank row port b) := h.setMcChan.addF.addF.raise

theorem access (h : s.SameTime r) : s.SameTime (r.access t c bank row port b) :=
  h.setMcChan.ite (h.setMcChan.when fun h => h.mitigate)

theorem refreshVictims (h : s.SameTime r) : s.SameTime (r.refreshVictims t c bank port) :=
  (h.setMcChan.each fun _ _ hq => hq.access).ite (h.setMcChan.each fun _ _ hq => hq.access).setMcChan

theorem issueEntry {e : WqEnt} (h : s.SameTime r) : s.SameTime (r.issueEntry t c port e) := by
  unfold State.issueEntry
  dsimp only
  refine State.SameTime.injectLine (h.refreshVictims.access.each fun q w hq => ?_)
  exact hq.writeWord.ite (hq.ite (hq.each fun _ _ hp => hp.writeWord))

theorem drainTo (h : s.SameTime r) : s.SameTime (r.drainTo t c port n) := State.SameTime.setF (h.setMcChan.each fun _ _ hq => hq.issueEntry)

/-! ### Links -/

theorem laneSend {bs : List (Nat × Nat)} (h : s.SameTime r) : s.SameTime (r.laneSend t l bs) := h.ite h.setPin

theorem linkSync (h : s.SameTime r) : s.SameTime (r.linkSync t l) := h.setF.setF.setF

/-! ### Sections and epochs -/

theorem moveDefTab (h : s.SameTime r) : s.SameTime (r.moveDefTab t n) := by
  unfold State.moveDefTab
  extract_lets v d q bad
  have noted : s.SameTime q := h.bench
  split
  · exact State.SameTime.bench (noted.when fun h => h.pix.setB).setReg
  · exact noted

theorem exchangeSec (h : s.SameTime r) : s.SameTime (r.exchangeSec t u sec) := by
  unfold State.exchangeSec
  extract_lets ws old copied moved x shown
  have copies : s.SameTime copied := h.each fun _ _ hq => hq.setReg
  have moves : s.SameTime moved := copies.when fun h => h.moveDefTab
  have shows : s.SameTime shown := moves.setUnit
  exact shows.bench

theorem takeExchange (h : s.SameTime r) : s.SameTime (r.takeExchange t u sec).1 := by
  unfold State.takeExchange
  split
  · exact h
  · exact h.bench

theorem endMark (h : s.SameTime r) : s.SameTime (r.endMark t u) := h.when fun h => h.bench

theorem swapUnit (h : s.SameTime r) : s.SameTime (r.swapUnit t u n m c) := by
  unfold State.swapUnit
  extract_lets g a b x d v
  have marked : s.SameTime v := State.SameTime.each h.setF.setReg.setUnit fun _ _ hq => hq.endMark
  exact marked.each fun _ _ hq => hq.setUnit.ite hq.exchangeSec

theorem endSec (h : s.SameTime r) : s.SameTime (r.endSec t u sec) := h.setBusy.exchangeSec.ite h.setBusy

theorem refuseFrame (h : s.SameTime r) : s.SameTime (r.refuseFrame t) := h.raise.bench

theorem rollback (h : s.SameTime r) : s.SameTime (r.rollback t u) := by
  unfold State.rollback
  extract_lets copied x q
  have copies : s.SameTime copied := h.each fun _ _ hq => hq.setReg
  have cleared : s.SameTime q := copies.setUnit
  exact cleared.when fun h => h.setB

theorem soloPoint (h : s.SameTime r) : s.SameTime (r.soloPoint t u n) := h.swapUnit.ite h.setUnit.raise

/-! ### Transactions -/

theorem txnRollback (h : s.SameTime r) : s.SameTime (r.txnRollback i t) :=
  State.SameTime.setTxn (h.each fun _ _ hq => hq.rollback)

theorem wakeCommit (h : s.SameTime r) : s.SameTime (r.wakeCommit i) := by
  unfold State.wakeCommit
  dsimp only
  split
  · exact h
  · split
    · exact h.setCrew.ite h
    · exact h

theorem txnEnd (h : s.SameTime r) : s.SameTime (r.txnEnd i n) := by
  unfold State.txnEnd
  exact State.SameTime.wakeCommit ((h.setTxn).when fun h => h.raise)

theorem txnSendDecision (h : s.SameTime r) : s.SameTime (r.txnSendDecision i) := by
  rw [txnSendDecision_eq]
  refine h.each fun q a hq => ?_
  unfold State.sendDecisionTo
  exact (hq.seamReach.setTxn).ite hq.seamReach

theorem txnLearn (h : s.SameTime r) : s.SameTime (r.txnLearn i t b) := by
  unfold State.txnLearn
  extract_lets x us marked
  have marks : s.SameTime marked := h.each fun _ _ hq => hq.bench
  exact marks.when fun h => h.raise

theorem txnNoSwap (h : s.SameTime r) : s.SameTime (r.txnNoSwap i n) := by
  unfold State.txnNoSwap
  extract_lets x decided sent rolled learnt
  have decides : s.SameTime decided := h.setTxn
  have rolls : s.SameTime rolled := (decides.txnSendDecision).txnRollback
  have learns : s.SameTime learnt := rolls.txnLearn.ite rolls
  exact learns.txnEnd

theorem txnSwapTile (h : s.SameTime r) : s.SameTime (r.txnSwapTile i t n) :=
  State.SameTime.setTxn (h.each fun _ _ hq => hq.swapUnit)

theorem txnMiss (h : s.SameTime r) : s.SameTime (r.txnMiss i t) :=
  State.SameTime.setTxn ((h.txnRollback).each fun _ _ hq => hq.bench)

theorem txnReport (h : s.SameTime r) : s.SameTime (r.txnReport i t) := by
  unfold State.txnReport
  dsimp only
  exact (h.setTxn).ite ((h.seamReach.setTxn).ite h.seamReach)

theorem txnReach (h : s.SameTime r) : s.SameTime (r.txnReach i t n) := by
  unfold State.txnReach
  dsimp only
  exact h.ite (((h.txnSwapTile).txnReport).ite (((h.txnMiss).txnReport).ite h))

theorem txnFinal (h : s.SameTime r) : s.SameTime (r.txnFinal i) := by
  unfold State.txnFinal
  dsimp only
  exact (h.txnEnd).ite (State.SameTime.txnEnd (h.each fun _ _ hq => hq.raise))

theorem txnTryEnd (h : s.SameTime r) : s.SameTime (r.txnTryEnd i) := (h.txnFinal).ite h

theorem txnPoint (h : s.SameTime r) : s.SameTime (r.txnPoint i n) := by
  unfold State.txnPoint
  dsimp only
  exact h.ite (State.SameTime.txnTryEnd ((h.setTxn).each fun _ _ hq => hq.txnReach))

theorem occurrence (h : s.SameTime r) : s.SameTime (r.occurrence n m c t) := by
  unfold State.occurrence
  extract_lets q
  have solos : s.SameTime q := h.each fun _ _ hv => hv.each fun _ _ hu => hu.soloPoint.ite hu
  exact solos.each fun v i hv => hv.txnPoint.ite hv

/-! ### Crusher, recording and the burst store -/

theorem recFeed {x : RecUnit} (h : s.SameTime r) : s.SameTime (r.recFeed t c n x) :=
  h.ite (h.refuseFrame.ite (h.each fun _ _ hq => hq.store))

theorem arbRemove (h : s.SameTime r) : s.SameTime (r.arbRemove n t i) := h.pwr

theorem setWr {x : Writer} (h : s.SameTime r) : s.SameTime (r.setWr t c x) := h.setCrs.ite h.setCrj

theorem setHand {x : Option Hand} (h : s.SameTime r) : s.SameTime (r.setHand t c x) := h.setCrs.ite h.setCrj

theorem wRelease (h : s.SameTime r) : s.SameTime (r.wRelease t c n b) := by
  unfold State.wRelease
  extract_lets w wb q f y
  have written : s.SameTime q := h.setWr
  refine h.ite (State.SameTime.ite ?_ (written.wrAt.when fun h => h.raise))
  split
  · exact written.setHand.ite written.recFeed
  · exact written.recFeed

theorem crStopped (h : s.SameTime r) : s.SameTime (r.crStopped t c) := h.ite h.wRelease.setF

theorem crExchanged (h : s.SameTime r) : s.SameTime (r.crExchanged t c) := by
  have taken := h.takeExchange (t := t) (u := 11) (sec := c)
  unfold State.crExchanged
  generalize r.takeExchange t 11 c = p at taken ⊢
  obtain ⟨q, _ | old⟩ := p
  · exact taken
  · exact (taken.ite taken.setCrs.setF).ite taken.crStopped

theorem logError {link status vol first blocks : Nat} {info : List Nat} (h : s.SameTime r) :
    s.SameTime (r.logError n m i link status vol first blocks info) := h.host

theorem setMag {x : List MagCmd} (h : s.SameTime r) : s.SameTime (r.setMag t x) := h.mags.setF

theorem magOrphan (h : s.SameTime r) : s.SameTime (r.magOrphan n) := h.each fun _ _ hq => hq.setMag

theorem takeFail (h : s.SameTime r) : s.SameTime (r.takeFail n m) := by
  unfold State.takeFail
  extract_lets frames x q v w y
  have dropped : s.SameTime q := h.store
  exact h.ite dropped.magOrphan.addF.setF.setF.logError.raise

theorem reach {p : Prop} [Decidable p] (h : s.SameTime r) : s.SameTime (if p then (r, true) else r.seamReach t u).1 := by
  split
  · exact h
  · exact h.seamReach

theorem magEndAll (h : s.SameTime r) : s.SameTime (r.magEndAll t n) := State.SameTime.each h.setMag fun _ _ hq => hq.takeFail

theorem burFreeze (h : s.SameTime r) : s.SameTime r.burFreeze := by
  unfold State.burFreeze
  extract_lets ts l pre x n v q w z
  have firsts : s.SameTime q := h.each fun _ _ hq => hq.setBur
  have frozen : s.SameTime w := firsts.each fun _ _ hq => hq.setF.setReg
  have shown : s.SameTime z := frozen.when fun h => h.setB.setF
  exact shown.setBur.raise.ite h

/-! ### The HEVC coders -/

theorem heSetMarks (h : s.SameTime r) : s.SameTime (r.heSetMarks t c n) := h.each fun _ _ hq => hq.setReg.setF

theorem heNoMargins {bufs : List Nat} (h : s.SameTime r) : s.SameTime (r.heNoMargins t c bufs) := h.each fun _ _ hq => hq.setEnc

theorem hdEnd (h : s.SameTime r) : s.SameTime (r.hdEnd t c n) := h.setDec.setF.arbRemove

/-! ### Host commands -/

theorem setCmds {x : List HostCmd} (h : s.SameTime r) : s.SameTime (r.setCmds x) := h.host.setF.setF.setF

/-! ### The crusher's and the coders' recovery -/

theorem fresh (h : s.SameTime r) : s.SameTime r.fresh.2 := h.of_time rfl

theorem crSync (h : s.SameTime r) : s.SameTime (r.crSync t k) := h.setF.setF

theorem crRecord {f : CrFrame} (h : s.SameTime r) : s.SameTime (r.crRecord t k f b n) := h.fresh.wrAt.setF

theorem dropHand (h : s.SameTime r) : s.SameTime (r.dropHand t k) := by
  unfold State.dropHand
  split
  · exact h
  · exact State.SameTime.setHand ((h.each fun _ _ hq => hq.wrAt.when fun h => h.raise).each fun _ _ hq => hq.recFeed)

theorem crCut (h : s.SameTime r) : s.SameTime (r.crCut t k n) := by
  have ends : s.SameTime ((r.dropHand t k).wRelease t k ((r.dropHand t k).wr_ t k).bitPos false) := h.dropHand.wRelease
  exact State.SameTime.crSync (State.SameTime.crStopped (State.SameTime.crExchanged (State.SameTime.endSec
    (State.SameTime.when (ends.setCrs.each fun _ _ hq => hq.crRecord) fun h => h.setF))))

theorem crushRecover (h : s.SameTime r) : s.SameTime (r.crushRecover t) := h.each fun _ _ hq => hq.crCut

theorem heReplan (h : s.SameTime r) : s.SameTime (r.heReplan t c) := h.setEnc

theorem heSetMark (h : s.SameTime r) : s.SameTime (r.heSetMark t c i n) := h.heSetMarks

theorem heRecord {p : EncPic} {w x y : Nat} (h : s.SameTime r) : s.SameTime (r.heRecord t c p n w x y m).1 := h.setReg.setReg.setReg

theorem heDeliver {p : EncPic} (h : s.SameTime r) : s.SameTime (r.heDeliver t c p n bs) := by
  unfold State.heDeliver
  extract_lets size base pad ofs first second stored
  have kept : s.SameTime stored := (State.SameTime.setReg h.wrAt.wrAt).ite h
  exact kept.recFeed.ite kept

theorem heDiscard {cod : EncCoding} (h : s.SameTime r) : s.SameTime (r.heDiscard t c n cod) := by
  unfold State.heDiscard
  dsimp only
  split
  · exact h.heRecord.heDeliver.heSetMark.heNoMargins
  · exact h.heRecord.heDeliver

theorem heDiscardAll (h : s.SameTime r) : s.SameTime (r.heDiscardAll t c n) :=
  State.SameTime.heReplan (State.SameTime.setEnc ((h.each fun _ _ hq => hq.heDiscard).each fun _ _ hq => hq.setF))

theorem heEnd (h : s.SameTime r) : s.SameTime (r.heEnd t c n) := State.SameTime.when h.setF.arbRemove fun h => h.raise

theorem heBoundary (h : s.SameTime r) : s.SameTime (r.heBoundary t c) :=
  h.ite (h.setEnc.heEnd.ite (h.setEnc.setF.ite (h.heEnd.ite h)))

theorem heCancel (h : s.SameTime r) : s.SameTime (r.heCancel t c) := h.ite (h.setEnc.heBoundary.ite (h.heEnd.ite h))

theorem heKeep (h : s.SameTime r) : s.SameTime (r.heKeep t c bs) :=
  State.SameTime.setEnc (State.SameTime.heNoMargins (h.each fun _ _ hq => hq.heSetMark))

theorem heRps {e : EncPlan} (h : s.SameTime r) : s.SameTime (r.heRps t c e) := by
  unfold State.heRps
  split
  · exact h
  · extract_lets marked kept
    have marks : s.SameTime marked := by
      dsimp only [marked]
      split
      · exact h.heSetMark
      · exact h
    exact marks.heKeep.setEnc.ite marks.heKeep

theorem heTarget {x : Int} (h : s.SameTime r) : s.SameTime (r.heTarget t c n x m).1 := by
  unfold State.heTarget
  dsimp only
  split
  · exact h.fresh
  · exact h

theorem heQpBase {x : Int} (h : s.SameTime r) : s.SameTime (r.heQpBase t c n x).1 := by
  unfold State.heQpBase
  dsimp only
  split
  · exact h
  · split
    · exact h.fresh
    · exact h

theorem hePlan (h : s.SameTime r) : s.SameTime (r.hePlan t c b n) := by
  induction n generalizing r with
  | zero => exact h
  | succ n ih =>
    unfold State.hePlan
    dsimp only
    split
    · exact h
    · split
      · exact ih h.setEnc
      · split
        · exact ih h.setEnc
        · exact h.ite (ih h.setEnc)

theorem heBegin (h : s.SameTime r) : s.SameTime (r.heBegin t c) := by
  unfold State.heBegin
  extract_lets planned bounded x
  have begins : s.SameTime bounded := h.hePlan.heBoundary
  clear_value bounded
  split
  · refine begins.ite ?_
    extract_lets rps cls l hb raised
    have raises : s.SameTime raised := begins.heRps.when fun h => h.raise
    clear_value raised
    have targets := raises.heTarget (t := t) (c := c) (n := cls) (x := l) (m := hb)
    generalize raised.heTarget t c cls l hb = p at targets ⊢
    obtain ⟨aimed, target⟩ := p
    dsimp only at targets ⊢
    have bases := targets.heQpBase (t := t) (c := c) (n := cls) (x := target)
    generalize aimed.heQpBase t c cls target = p at bases ⊢
    obtain ⟨based, qp⟩ := p
    dsimp only at bases ⊢
    exact State.SameTime.setEnc ((bases.fresh.ite bases).when fun h => h.raise)
  · exact begins

theorem heRecover (h : s.SameTime r) : s.SameTime (r.heRecover t c) := h.heDiscardAll.heBegin.ite (h.heReplan.ite h)

theorem hdBoundary (h : s.SameTime r) : s.SameTime (r.hdBoundary t c) := h.ite (h.hdEnd.ite (h.setDec.setF.ite h))

theorem hdCancel (h : s.SameTime r) : s.SameTime (r.hdCancel t c) := h.setDec.hdBoundary.ite (h.hdEnd.ite h)

theorem hdWriteErr (h : s.SameTime r) : s.SameTime (r.hdWriteErr t c bs) := h.setReg.setReg64.setReg.setReg.setReg

theorem hdRecover (h : s.SameTime r) : s.SameTime (r.hdRecover t c) := h.hdEnd.hdWriteErr.raise.ite h

/-! ### Channels of DRAM, lanes and links -/

theorem hotSet (h : s.SameTime r) : s.SameTime (r.hotSet t c b) := State.SameTime.setB (h.mem.when fun h => h.pwr)

theorem mr4 {hot : Bool} (h : s.SameTime r) : s.SameTime (r.mr4 t c n b hot) :=
  State.SameTime.when (State.SameTime.hotSet (h.setF.setB.when fun h => h.raise)) fun h => h.raise

theorem mcPeriods (h : s.SameTime r) : s.SameTime (r.mcPeriods t c) := h.setPeriod.setPeriod.setPeriod.setPeriod.setPeriod

theorem mcServe {q : McReq} (h : s.SameTime r) : s.SameTime (r.mcServe t c q) := by
  unfold State.mcServe
  extract_lets first sram line hit x full y joined shown co drained victims
  have starts : s.SameTime first := h.sramWritten.when fun h => h.sramWritten
  have checked : s.SameTime sram := starts.when fun h => h.sramWritten
  have room : s.SameTime full := checked.when fun h => h.drainTo
  have joins : s.SameTime shown := room.setMcChan.setF
  have drains : s.SameTime drained := checked.drainTo.ite checked
  exact (checked.setMcChan.ite joins.drainTo).ite drains.refreshVictims.access

theorem mcResume (h : s.SameTime r) : s.SameTime (r.mcResume t c) := (h.when fun h => h.setMcChan).each fun _ _ hq => hq.mcServe

theorem selfRefreshExit {hot : Bool} (h : s.SameTime r) : s.SameTime (r.selfRefreshExit t c n b hot) := by
  unfold State.selfRefreshExit
  split
  · extract_lets q x v w
    have exits : s.SameTime w := h.setF.setMcChan.setF.setF
    exact exits.mr4.mcPeriods.mcResume
  · exact h

theorem laneResume (h : s.SameTime r) : s.SameTime (r.laneResume t l) := h.when fun h => h.laneSend

theorem laneHunt (h : s.SameTime r) : s.SameTime (r.laneHunt t l) := h.setB.setB.setB.setB.setLane

theorem lanesRecover (h : s.SameTime r) : s.SameTime (r.lanesRecover t) :=
  h.each fun _ _ hq => hq.laneResume.when fun h => h.setB.laneHunt

theorem adRecover (h : s.SameTime r) : s.SameTime (r.adRecover t n) := h.setPort

theorem rawForget (h : s.SameTime r) : s.SameTime (r.rawForget t n) := h.setRaw

theorem logPrefix {x : HostCmd} (h : s.SameTime r) : s.SameTime (r.logPrefix x) := h.logError.ite h

theorem transStop {x : HostCmd} (h : s.SameTime r) : s.SameTime (r.transStop x) := h.hdCancel.heCancel.ite h

theorem txnAbort (h : s.SameTime r) : s.SameTime (r.txnAbort i) := h.txnNoSwap.ite h

theorem hostStop (h : s.SameTime r) : s.SameTime r.hostStop := by
  unfold State.hostStop
  extract_lets cs stopped aborted host pwr cleared shown
  have stops : s.SameTime stopped := h.each fun _ _ hq => hq.logPrefix.transStop
  clear_value stopped
  have aborts : s.SameTime aborted := stops.each fun _ _ hq => hq.txnAbort.ite hq
  clear_value aborted
  have clears : s.SameTime cleared := aborts.of_time rfl
  exact clears.setB.setF.setCmds

theorem linkReset (h : s.SameTime r) : s.SameTime (r.linkReset t l n) := by
  unfold State.linkReset
  extract_lets ended down counted sent
  have ends : s.SameTime ended := h.hostStop.ite h.magEndAll
  have counts : s.SameTime counted := ends.setLink.setF.setF.addF
  have sends : s.SameTime sent := counts.when fun h => h.each fun _ _ hq => hq.laneSend
  exact sends.linkSync.raise

theorem recoverTile {mr4 : List (Nat × Bool × Bool)} (h : s.SameTime r) : s.SameTime (r.recoverTile mr4 t) := by
  unfold State.recoverTile
  extract_lets dram lanes adit raw crush enc dec
  have exits : s.SameTime dram := h.each fun _ _ hq => hq.selfRefreshExit.ite hq
  have forgets : s.SameTime raw := (exits.lanesRecover.each fun _ _ hq => hq.adRecover).each fun _ _ hq => hq.rawForget
  have coders : s.SameTime dec := (forgets.crushRecover.each fun _ _ hq => hq.heRecover).each fun _ _ hq => hq.hdRecover
  exact coders.each fun _ _ hq => hq.linkReset.ite hq

/-! ### Geysers -/

theorem followShow (h : s.SameTime r) : s.SameTime (r.followShow t) := h.setF

theorem freezeServos (h : s.SameTime r) : s.SameTime r.freezeServos := h.each fun _ _ hq => hq.setB

theorem xtrig {x : SMap (List (Nat × Nat))} (h : s.SameTime r) : s.SameTime { r with time.xtrig := x } := by
  unfold State.SameTime at h ⊢
  rw [h]

theorem lensReport (h : s.SameTime r) : s.SameTime (r.lensReport t k n) := by
  refine h.each fun q m hq => ?_
  dsimp only
  split
  · split
    · exact hq.seamReach.of_time rfl
    · exact hq.seamReach
  · exact hq

theorem xtrigPulse (h : s.SameTime r) : s.SameTime (r.xtrigPulse t k n) := by
  unfold State.xtrigPulse
  extract_lets a old merged time q
  have pulsed : s.SameTime q := h.xtrig
  exact pulsed.ite pulsed.lensReport

theorem assertLine (h : s.SameTime r) : s.SameTime (r.assertLine t n) := h.each fun _ _ hq => hq.setCrew

theorem pdmTick (h : s.SameTime r) : s.SameTime r.pdmTick :=
  h.of_time (by rw [pdmTick_only r])

theorem audStart (h : s.SameTime r) : s.SameTime (r.audStart n) := by
  unfold State.audStart
  extract_lets bad x y shown cleared
  have starts : s.SameTime shown := h.setReg64.setReg.setF
  have clears : s.SameTime cleared := starts.each fun _ _ hq => hq.setAud
  clear_value cleared
  exact h.raise.ite (h.setB.raise.ite clears.audio.setPeriod.setF.pdmTick)

theorem burStop (h : s.SameTime r) : s.SameTime (r.burStop t) :=
  State.SameTime.burFreeze ((h.setBur.when fun h => h.setB).when fun h => h.addF.raise)

theorem burNotice (h : s.SameTime r) : s.SameTime (r.burNotice t) := by
  unfold State.burNotice
  extract_lets x asked fs b post
  split
  · exact h
  · extract_lets ft stop told
    have asks : s.SameTime asked := h.setBur
    have tells : s.SameTime told := asks.setF.setBur
    exact asks.ite (tells.burStop.ite tells)

theorem burIgnore (h : s.SameTime r) : s.SameTime r.burIgnore := h.addF.raise

theorem burTrigger {frame : Option Nat} (h : s.SameTime r) : s.SameTime (r.burTrigger k n frame) := by
  unfold State.burTrigger
  extract_lets ts fs instead
  split
  · exact h.burIgnore
  · refine h.burIgnore.ite ?_
    extract_lets named x asked noticed told
    have asks : s.SameTime asked := h.setReg.setReg64.setBur
    have notices : s.SameTime noticed := asks.each fun _ _ hq => hq.reach.when fun h => h.setBur
    have tells : s.SameTime told := notices.burNotice.ite notices.setF
    exact tells.burIgnore.ite tells.raise

theorem burSource (h : s.SameTime r) : s.SameTime (r.burSource n m) := h.when fun h => h.burTrigger

theorem geyMove (h : s.SameTime r) : s.SameTime (r.geyMove t n m) := h.setGeyTgt

theorem geyAct (h : s.SameTime r) : s.SameTime (r.geyAct t n) := by
  unfold State.geyAct
  extract_lets c0 c1 x target fired pulsed line audio occurred
  have counts : s.SameTime fired := h.setReg.setGeyTgt
  have pulses : s.SameTime pulsed := counts.when fun h => h.xtrigPulse
  have lines : s.SameTime line := pulses.when fun h => h.assertLine
  have starts : s.SameTime audio := lines.when fun h => h.audStart
  exact starts.occurrence.when fun h => h.burSource

theorem geyFire (h : s.SameTime r) : s.SameTime (r.geyFire t n) := by
  unfold State.geyFire
  extract_lets past late drop per k aimed flagged
  have aims : s.SameTime aimed := h.setB.ite h.geyMove.addF
  have flags : s.SameTime flagged := aims.setB.raise.ite (aims.setB.raise.ite aims)
  exact h.ite (flags.ite flags.geyAct)

theorem geyJudge {on : Nat → Bool} (h : s.SameTime r) : s.SameTime (r.geyJudge t on) := h.each fun _ _ hq => hq.geyFire

end State.SameTime

/-! ### Loss and glitches (R123, R124) -/

section
variable {s : State} {t u : Nat}

/-- The clock-loss sequence leaves the clock lost and no pulse on a pin. -/
theorem clockLoss_time (s : State) : s.clockLoss.time.clockLost = true ∧ s.clockLoss.time.xtrig = [] := ⟨rfl, rfl⟩

theorem refclkLost_time (hc : s.time.clockLost = false) (id : Nat) (b : FRef) :
    (s.refclkLost id b).time.clockLost = true ∧ (s.refclkLost id b).time.xtrig = [] := by
  unfold State.refclkLost
  rw [if_neg (by simp [hc])]
  exact clockLoss_time _

/-- A glitch as one tile takes it: GLITCHES counts and the event occurs. -/
def State.glitch (s : State) (t : Nat) : State := (s.addF t CLKSUP_GLITCHES 1).raise t 10

theorem glitch_only (s : State) (t : Nat) :
    s.glitch t = { s with regs := (s.glitch t).regs, evt := (s.glitch t).evt, core.crews := (s.glitch t).core.crews } :=
  raise_fields (s.addF t CLKSUP_GLITCHES 1) t 10 (by decide)

theorem glitch_word {off : Nat} (ho : off < 0x1000000) (he : eventOff off = false) (h : (t, CLKSUP) ≠ (u, off)) :
    (s.glitch t).word u off = s.word u off :=
  (word_raise _ t 10 u off (by decide) ho he).trans (word_setReg_ne s _ (regKey_ne (by decide) ho h))

theorem glitch_glitches : (s.glitch t).f t CLKSUP_GLITCHES = satAdd (2 ^ CLKSUP_GLITCHES.w - 1) (s.f t CLKSUP_GLITCHES) 1 :=
  (f_raise _ t 10 t _ (by decide) (by decide) (by decide)).trans (addF_same s t CLKSUP_GLITCHES 1 (by decide))

theorem glitch_glitches_ne (h : t ≠ u) : (s.glitch t).f u CLKSUP_GLITCHES = s.f u CLKSUP_GLITCHES := by
  have word := glitch_word (s := s) (t := t) (u := u) (off := CLKSUP) (by decide) (by decide) (by simp [h])
  exact f_congr (q := CLKSUP_GLITCHES) (congrArg BitVec.toNat word)

theorem glitch_stat : (s.glitch t).evtStat t 10 = true := raise_stat _ t 10 (by decide)

theorem glitch_stat_keep (h : s.evtStat u 10 = true) : (s.glitch t).evtStat u 10 = true :=
  raise_stat_keep _ t 10 u 10 (by decide) (by decide)
    ((evtStat_setReg s t CLKSUP _ u 10 (by decide) (by decide) (by decide)).trans h)

/-- A tile named once in the list counts the glitch once and has its event. -/
theorem glitches_tile (l : List Nat) (hl : l.Nodup) (hu : u ∈ l) (s : State) : (s.each l State.glitch).evtStat u 10 = true ∧
    (s.each l State.glitch).f u CLKSUP_GLITCHES = satAdd (2 ^ CLKSUP_GLITCHES.w - 1) (s.f u CLKSUP_GLITCHES) 1 := by
  induction l generalizing s with
  | nil => exact absurd hu List.not_mem_nil
  | cons a l ih =>
    obtain ⟨ha, hl⟩ := List.nodup_cons.1 hl
    obtain rfl | hu := List.mem_cons.1 hu
    · refine each_induct (fun r => r.evtStat u 10 = true ∧ r.f u CLKSUP_GLITCHES = _) (s.glitch u) l _ ⟨glitch_stat, glitch_glitches⟩ ?_
      rintro r t ht ⟨stat, count⟩
      exact ⟨glitch_stat_keep stat, (glitch_glitches_ne fun e : t = u => ha (e ▸ ht)).trans count⟩
    · obtain ⟨stat, count⟩ := ih hl hu (s.glitch a)
      exact ⟨stat, count.trans (by rw [glitch_glitches_ne fun e : a = u => ha (e ▸ hu)])⟩

theorem glitches_only (l : List Nat) (s : State) : s.each l State.glitch = { s with
    regs := (s.each l State.glitch).regs, evt := (s.each l State.glitch).evt, core.crews := (s.each l State.glitch).core.crews } :=
  each_induct (fun r => r = { s with regs := r.regs, evt := r.evt, core.crews := r.core.crews }) s l _ rfl fun r t _ hr =>
    (glitch_only r t).trans (by rw [hr])

theorem glitches_words (l : List Nat) (hl : ∀ t ∈ l, t < 8) (s : State) :
    (s.each l State.glitch).WordsButEvents s ((List.range 8).map fun t => (t, CLKSUP)) :=
  each_induct (fun r => r.WordsButEvents s ((List.range 8).map fun t => (t, CLKSUP))) s l _ (fun _ _ _ _ _ => rfl)
    fun r t ht hr u off ho he hn => by
      have apart : (t, CLKSUP) ≠ (u, off) := fun e => hn (e ▸ List.mem_map.2 ⟨t, List.mem_range.2 (hl t ht), rfl⟩)
      exact (hr u off ho he hn).trans (glitch_word ho he apart).symm

theorem does_refclkGlitch (hh : s.holds = false) (hc : s.time.clockLost = false) : Does .refclkGlitch s fun r =>
    (∀ t, t < s.tiles → s.isolated t = false → r.evtStat t 10 = true ∧
      r.f t CLKSUP_GLITCHES = satAdd (2 ^ CLKSUP_GLITCHES.w - 1) (s.f t CLKSUP_GLITCHES) 1) ∧
    r = { s with regs := r.regs, evt := r.evt, core.crews := r.core.crews } ∧
    r.WordsButEvents s ((List.range 8).map fun t => (t, CLKSUP)) := by
  refine does_when (b := !s.holds && !s.time.clockLost) rfl (by simp [hh, hc]) ?_
  have loop : s.refclkGlitch = s.each (s.tileList.filter fun t => !s.isolated t) State.glitch := rfl
  rw [loop]
  refine ⟨fun t ht hi => ?_, glitches_only _ s, glitches_words _ (fun t ht => ?_) s⟩
  · exact glitches_tile _ (List.nodup_range.filter _) (List.mem_filter.2 ⟨List.mem_range.2 ht, by simp [hi]⟩) s
  · have here := List.mem_range.1 (List.mem_filter.1 ht).1
    have most := tiles_le s
    omega

/-! ### Recovery (R125) -/

theorem State.SameTime.clock {r : State} (h : s.SameTime r) : r.time.clockLost = s.time.clockLost :=
  (congrArg TimeSt.clockLost h :)

theorem refclkRecovery_clock (mr4 : List (Nat × Bool × Bool)) (hc : s.time.clockLost = true)
    (good : s.time.goodFrom + recoveryTicks ≤ s.now) : (s.refclkRecovery mr4).time.clockLost = false := by
  unfold State.refclkRecovery
  rw [if_neg (not_or.2 ⟨not_not.2 hc, Nat.not_lt.2 good⟩)]
  extract_lets ts gone time evt back shown held followed judged
  have backs : back.time.clockLost = false := rfl
  clear_value back
  have shows : back.SameTime shown := (State.SameTime.refl back).each fun _ _ hq => hq.setB.setB.setB.raise
  have ends : back.SameTime held := shows.each fun _ _ hq => hq.each fun _ _ hq => hq.setB
  have follows : back.SameTime followed := ends.each fun _ _ hq => hq.followShow
  have judges : back.SameTime judged := follows.freezeServos.each fun _ _ hq => hq.geyJudge
  have recovers := judges.each (l := ts) (f := fun s t => s.recoverTile mr4 t) fun _ _ hq => hq.recoverTile
  exact recovers.clock.trans backs

theorem refclkRecovery_early (mr4 : List (Nat × Bool × Bool)) (early : s.now < s.time.goodFrom + recoveryTicks) :
    s.refclkRecovery mr4 = s := if_pos (Or.inr early)

end

/-- Settles O14: a loss ends in the clock-loss sequence, whose last record says so; a glitch is taken tile by tile; recovery starts from
a clock that is not lost, and nothing it does to the tiles loses it (R123 to R125). -/
theorem refclkLossAndRecovery : Obligations.RefclkLossAndRecovery :=
  ⟨fun s hh hc => does_when (b := !s.holds) rfl (by simp [hh]) (refclkLost_time hc _ _),
    fun s hh hc => does_when (b := !s.holds) rfl (by simp [hh]) (refclkLost_time hc _ _),
    fun _ hh hc => does_refclkGlitch hh hc,
    fun mr4 s hh hc good => does_when (b := !s.holds) rfl (by simp [hh]) (refclkRecovery_clock mr4 hc good),
    fun mr4 s hh early => does_when (b := !s.holds) rfl (by simp [hh]) (refclkRecovery_early mr4 early)⟩

end Sys2Proof.Machine

/-!
# Serial lanes: state

O33: enabling and disabling a lane, lock and its loss, the synthesiser, electrical idle (chapter 5). First the rules about fields and
words that the proofs share, then one rule for each operation of the receiver, then the statement.
-/

namespace Sys2Proof.Machine

/-! ### Fields, flags and words -/

section
variable (s : State) {t u o : Nat} {r q : FRef}

theorem f_setB_apart (t : Nat) (b : Bool) (ho : r.off = q.off) (hr : r.lo + r.w ≤ 32) (h : r.lo + r.w ≤ q.lo ∨ q.lo + q.w ≤ r.lo) :
    (s.setB t r b).f t q = s.f t q := f_setF_apart s t (b2n b) ho hr h

theorem on_setB_apart (t : Nat) (b : Bool) (ho : r.off = q.off) (hr : r.lo + r.w ≤ 32) (h : r.lo + r.w ≤ q.lo ∨ q.lo + q.w ≤ r.lo) :
    (s.setB t r b).on t q = s.on t q := congrArg (fun n : Nat => decide (n ≠ 0)) (f_setB_apart s t b ho hr h)

theorem word_setB_ne (b : Bool) (h : regKey t r.off ≠ regKey u o) : (s.setB t r b).word u o = s.word u o := word_setReg_ne s _ h

theorem word_addF_ne (n : Nat) (h : regKey t r.off ≠ regKey u o) : (s.addF t r n).word u o = s.word u o := word_setReg_ne s _ h

/-! On one tile registers at different offsets are different whatever the offsets. -/

theorem regKey_tile_ne {a b : Nat} (t : Nat) (h : a ≠ b) : regKey t a ≠ regKey t b := by
  unfold regKey
  omega

theorem reg_setReg_tile_ne (t : Nat) {a b : Nat} (v : Nat) (h : a ≠ b) : (s.setReg t a v).reg t b = s.reg t b :=
  reg_setReg_ne s v (regKey_tile_ne t h)

theorem reg_setF_tile_ne (t v : Nat) (h : r.off ≠ o) : (s.setF t r v).reg t o = s.reg t o := reg_setReg_tile_ne s t _ h

theorem f_setReg_tile_ne (t : Nat) {a : Nat} (v : Nat) (h : a ≠ q.off) : (s.setReg t a v).f t q = s.f t q :=
  f_congr (reg_setReg_tile_ne s t v h)

theorem f_setF_tile_ne (t v : Nat) (h : r.off ≠ q.off) : (s.setF t r v).f t q = s.f t q := f_setReg_tile_ne s t _ h

theorem f_setB_tile_ne (t : Nat) (b : Bool) (h : r.off ≠ q.off) : (s.setB t r b).f t q = s.f t q := f_setReg_tile_ne s t _ h

end

section
variable {s r : State} {t l u off : Nat}

theorem f_of_word {q : FRef} (h : r.word t q.off = s.word t q.off) : r.f t q = s.f t q := f_congr (congrArg BitVec.toNat h)

theorem on_of_f {q : FRef} (h : r.f t q = s.f t q) : r.on t q = s.on t q := congrArg (fun n : Nat => decide (n ≠ 0)) h

theorem evtStat_of_word {k : Nat} (h : r.word t (EVT_STAT (k / 32)) = s.word t (EVT_STAT (k / 32))) : r.evtStat t k = s.evtStat t k :=
  evtStat_congr (congrArg BitVec.toNat h)

/-- A word that a list of registers does not name has another key than each of them. -/
theorem keys_ne {L : List (Nat × Nat)} (hn : (u, off) ∉ L) (ho : off < 0x1000000) (hL : L.Forall fun p => p.2 < 0x1000000) :
    L.Forall fun p => regKey p.1 p.2 ≠ regKey u off :=
  List.forall_iff_forall_mem.2 fun p hp => regKey_ne (List.forall_iff_forall_mem.1 hL p hp) ho fun e => hn (e ▸ hp)

theorem word_congr (hr : r.regs = s.regs) (hm : r.member = s.member) (hg : r.grade = s.grade) (t off : Nat) : r.word t off = s.word t off :=
  BitVec.eq_of_toNat_eq (reg_congr hr hm hg t off)

/-! What is kept of a lane beside its registers is no register. -/

@[simp] theorem word_setLane (x : LaneSt) : (s.setLane t l x).word u off = s.word u off := word_congr rfl rfl rfl u off

@[simp] theorem f_setLane (x : LaneSt) (q : FRef) : (s.setLane t l x).f u q = s.f u q := f_of_word (word_setLane x)

@[simp] theorem on_setLane (x : LaneSt) (q : FRef) : (s.setLane t l x).on u q = s.on u q := on_of_f (f_setLane x q)

@[simp] theorem evtStat_setLane (x : LaneSt) (k : Nat) : (s.setLane t l x).evtStat u k = s.evtStat u k := evtStat_of_word (word_setLane x)

@[simp] theorem word_setPin (x : LanePins) : (s.setPin t l x).word u off = s.word u off := word_congr rfl rfl rfl u off

theorem onlyRegs_refl (s : State) : s.OnlyRegs s := rfl

/-- A change of registers and of what is kept of a lane. -/
theorem setLane_only (h : s.OnlyRegs r) (x : LaneSt) :
    r.setLane t l x = { s with regs := (r.setLane t l x).regs, lanes := (r.setLane t l x).lanes } :=
  congrArg (fun q : State => ({ q with lanes := (r.setLane t l x).lanes } : State)) h

/-! ### Where the registers of a lane lie -/

theorem laneReg_lt {a : Nat} (hl : l < 24) (ha : a ≤ 0x40800 := by decide) : a + 0x800 * l < 0x1000000 := by omega

theorem laneReg_eventOff {a : Nat} (hl : l < 24) (ha : 0x30000 ≤ a := by decide) : eventOff (a + 0x800 * l) = false := by
  simp only [eventOff, Bool.and_eq_false_iff, decide_eq_false_iff_not]
  omega

/-- A register of a lane is no status register of events. -/
theorem laneKey_evt_ne {a k : Nat} (hl : l < 24) (hk : k < 320) (ha : 0x30000 ≤ a ∧ a ≤ 0x40800 := by decide) :
    regKey t (a + 0x800 * l) ≠ regKey u (EVT_STAT (k / 32)) := by
  have := evtStat_off k hk
  exact regKey_off_ne (by omega) (by omega) (by omega)

theorem eyeStat_ne_laneStat : EYE_STAT l ≠ LANE_STAT l := by simp [EYE_STAT, LANE_STAT]

/-! ### The receiver's operations -/

theorem laneCntClr_counts : (s.laneCntClr t l).f t (LANE_STAT_LOSSES l) = 0 ∧ (s.laneCntClr t l).reg t (LANE_HDRERR l) = 0 ∧
    (s.laneCntClr t l).f t (LANE_TEST_ERRS l) = 0 := by
  simp [State.laneCntClr, f_setF_same, f_setF_tile_ne, f_setReg_tile_ne, reg_setF_tile_ne, reg_setReg_same, LANE_STAT_LOSSES, LANE_HDRERR,
    LANE_TEST_ERRS, LANE_STAT, LANE_TEST]

theorem laneCntClr_word (hs : regKey t (LANE_STAT l) ≠ regKey u off) (hh : regKey t (LANE_HDRERR l) ≠ regKey u off)
    (ht : regKey t (LANE_TEST l) ≠ regKey u off) : (s.laneCntClr t l).word u off = s.word u off := by
  simp [State.laneCntClr, word_setF_ne, word_setReg_ne, hs, hh, ht, LANE_STAT_LOSSES, LANE_TEST_ERRS]

theorem laneHunt_flags : (s.laneHunt t l).on t (LANE_STAT_LOCKED l) = false ∧ (s.laneHunt t l).on t (LANE_STAT_HUNTING l) = true ∧
    (s.laneHunt t l).on t (LANE_STAT_IDLE l) = false := by
  simp [State.laneHunt, on_setB_same, on_setB_apart, LANE_STAT_LOCKED, LANE_STAT_HUNTING, LANE_STAT_IDLE, LANE_STAT_HELD]

/-- The hunt leaves the fields of LANE_STAT but for LOCKED, HUNTING, IDLE and HELD. -/
theorem laneHunt_f {q : FRef} (ho : q.off = LANE_STAT l) (h : q.lo + q.w ≤ 1 ∨ 5 ≤ q.lo) : (s.laneHunt t l).f t q = s.f t q := by
  have apart : ∀ i, 1 ≤ i → i < 5 → i + 1 ≤ q.lo ∨ q.lo + q.w ≤ i := by omega
  simp [State.laneHunt, f_setB_apart, ho, apart, LANE_STAT_LOCKED, LANE_STAT_HUNTING, LANE_STAT_IDLE, LANE_STAT_HELD]

theorem laneHunt_word (h : regKey t (LANE_STAT l) ≠ regKey u off) : (s.laneHunt t l).word u off = s.word u off := by
  simp [State.laneHunt, word_setB_ne, h, LANE_STAT_LOCKED, LANE_STAT_HUNTING, LANE_STAT_IDLE, LANE_STAT_HELD]

theorem laneHunt_evtStat {k : Nat} (hl : l < 24) (hk : k < 320) : (s.laneHunt t l).evtStat u k = s.evtStat u k :=
  evtStat_of_word (laneHunt_word (laneKey_evt_ne hl hk))

theorem laneLock_flags : (s.laneLock t l).on t (LANE_STAT_LOCKED l) = true ∧ (s.laneLock t l).on t (LANE_STAT_HUNTING l) = false := by
  simp [State.laneLock, on_setB_same, on_setB_apart, LANE_STAT_LOCKED, LANE_STAT_HUNTING, LANE_STAT_HELD]

theorem laneLock_word (h : regKey t (LANE_STAT l) ≠ regKey u off) : (s.laneLock t l).word u off = s.word u off := by
  simp [State.laneLock, word_setB_ne, h, LANE_STAT_LOCKED, LANE_STAT_HUNTING, LANE_STAT_HELD]

theorem laneLock_only : s.laneLock t l = { s with regs := (s.laneLock t l).regs, lanes := (s.laneLock t l).lanes } := by
  unfold State.laneLock
  extract_lets x locked still held
  have regs : s.OnlyRegs held := (((onlyRegs_refl s).setReg t (LANE_STAT l) _).setReg t (LANE_STAT l) _).setReg t (LANE_STAT l) _
  exact setLane_only regs _

theorem eyeAbort_word (h : regKey t (EYE_STAT l) ≠ regKey u off) : (s.eyeAbort t l).word u off = s.word u off :=
  when_keeps (fun r => r.word u off) s _ _ fun r => word_setF_ne r (EYE_STAT_STATE l) 3 h

/-- The end of a scan leaves the fields of other registers of the tile. -/
theorem eyeAbort_f {q : FRef} (h : EYE_STAT l ≠ q.off) : (s.eyeAbort t l).f t q = s.f t q :=
  f_of_word (eyeAbort_word (regKey_tile_ne t h))

theorem eyeAbort_on {q : FRef} (h : EYE_STAT l ≠ q.off) : (s.eyeAbort t l).on t q = s.on t q := on_of_f (eyeAbort_f h)

/-- What a loss of lock does first: a scan under way ends, and the loss counts (R137, R148). -/
def State.laneLossCounted (s : State) (t l : Nat) : State :=
  let s := s.eyeAbort t l
  { s with pwr.laneLosses := s.pwr.laneLosses + 1 }.addF t (LANE_STAT_LOSSES l) 1

theorem laneLossCounted_losses : (s.laneLossCounted t l).f t (LANE_STAT_LOSSES l) = min 255 (s.f t (LANE_STAT_LOSSES l) + 1) := by
  have kept : (s.eyeAbort t l).f t (LANE_STAT_LOSSES l) = s.f t (LANE_STAT_LOSSES l) :=
    eyeAbort_f eyeStat_ne_laneStat
  rw [← kept]
  exact addF_same _ t (LANE_STAT_LOSSES l) 1 (by simp [LANE_STAT_LOSSES])

theorem laneLossCounted_word (hs : regKey t (LANE_STAT l) ≠ regKey u off) (he : regKey t (EYE_STAT l) ≠ regKey u off) :
    (s.laneLossCounted t l).word u off = s.word u off :=
  (word_addF_ne _ 1 hs).trans (eyeAbort_word he)

/-- The hunt that a loss of lock starts once it has counted and its event has occurred (R137). -/
theorem laneLose_eq : ∃ x, s.laneLose t l = (((s.laneLossCounted t l).raise t (32 + l)).laneHunt t l).setLane t l x ∧ x.wakeHunt = false :=
  ⟨_, rfl, rfl⟩

theorem laneLose_word (hl : l < 24) (hs : regKey t (LANE_STAT l) ≠ regKey u off) (he : regKey t (EYE_STAT l) ≠ regKey u off)
    (ho : off < 0x1000000) (hv : eventOff off = false) : (s.laneLose t l).word u off = s.word u off := by
  obtain ⟨x, e, _⟩ := laneLose_eq (s := s) (t := t) (l := l)
  rw [e, word_setLane, laneHunt_word hs, word_raise _ t (32 + l) u off (by omega) ho hv, laneLossCounted_word hs he]

/-- A loss of lock leaves the fields of LANE_STAT but for LOCKED, HUNTING, IDLE, HELD and LOSSES. -/
theorem laneLose_f {q : FRef} (hl : l < 24) (ho : q.off = LANE_STAT l) (h : q.lo + q.w ≤ 1 ∨ 5 ≤ q.lo ∧ q.lo + q.w ≤ 16) :
    (s.laneLose t l).f t q = s.f t q := by
  obtain ⟨x, e, _⟩ := laneLose_eq (s := s) (t := t) (l := l)
  have raised : ((s.laneLossCounted t l).raise t (32 + l)).f t q = (s.laneLossCounted t l).f t q :=
    f_raise _ t (32 + l) t q (by omega) (ho ▸ laneReg_lt hl) (ho ▸ laneReg_eventOff hl)
  have counted : (s.laneLossCounted t l).f t q = (s.eyeAbort t l).f t q :=
    f_setF_apart _ t _ ho.symm (by simp [LANE_STAT_LOSSES]) (by simp [LANE_STAT_LOSSES]; omega)
  rw [e, f_setLane, laneHunt_f ho (by omega), raised, counted, eyeAbort_f (ho ▸ eyeStat_ne_laneStat)]

/-- What a loss of lock leads to (R137). -/
structure State.LaneLost (s r : State) (t l : Nat) : Prop where
  locked : r.on t (LANE_STAT_LOCKED l) = false
  hunting : r.on t (LANE_STAT_HUNTING l) = true
  losses : r.f t (LANE_STAT_LOSSES l) = min 255 (s.f t (LANE_STAT_LOSSES l) + 1)
  event : r.evtStat t (32 + l) = true
  words : r.WordsButEvents s [(t, LANE_STAT l), (t, EYE_STAT l)]

theorem laneLose_lost (hl : l < 24) : s.LaneLost (s.laneLose t l) t l := by
  obtain ⟨x, e, _⟩ := laneLose_eq (s := s) (t := t) (l := l)
  obtain ⟨unlocked, hunts, _⟩ := laneHunt_flags (s := (s.laneLossCounted t l).raise t (32 + l)) (t := t) (l := l)
  refine ⟨?_, ?_, ?_, ?_, fun u off ho hv hn => ?_⟩
  · rw [e, on_setLane, unlocked]
  · rw [e, on_setLane, hunts]
  · have raised := f_raise (s.laneLossCounted t l) t (32 + l) t (LANE_STAT_LOSSES l) (by omega) (laneReg_lt hl) (laneReg_eventOff hl)
    rw [e, f_setLane, laneHunt_f rfl (by simp [LANE_STAT_LOSSES]), raised, laneLossCounted_losses]
  · rw [e, evtStat_setLane, laneHunt_evtStat hl (by omega), raise_stat _ t (32 + l) (by omega)]
  · obtain ⟨hs, he⟩ := keys_ne hn ho ⟨laneReg_lt hl, laneReg_lt hl⟩
    exact (laneLose_word hl hs he ho hv).symm

theorem laneLose_wakeHunt : ((s.laneLose t l).lane t l).wakeHunt = false := by
  obtain ⟨x, e, h⟩ := laneLose_eq (s := s) (t := t) (l := l)
  rw [e, lane_setLane_same, h]


theorem laneLose_evtStat {k : Nat} (hl : l < 24) (hk : k < 320) (h : s.evtStat u k = true) : (s.laneLose t l).evtStat u k = true := by
  obtain ⟨x, e, _⟩ := laneLose_eq (s := s) (t := t) (l := l)
  have counted : (s.laneLossCounted t l).evtStat u k = s.evtStat u k :=
    evtStat_of_word (laneLossCounted_word (laneKey_evt_ne hl hk) (laneKey_evt_ne hl hk))
  rw [e, evtStat_setLane, laneHunt_evtStat hl hk, raise_stat_keep _ t (32 + l) u k (by omega) hk (counted.trans h)]

/-! ### The transmitter's operations change no register -/

theorem laneSend_word (bs : List (Nat × Nat)) : (s.laneSend t l bs).word u off = s.word u off := by
  unfold State.laneSend
  split
  · rfl
  · rfl

theorem laneResume_word : (s.laneResume t l).word u off = s.word u off :=
  when_keeps (fun r => r.word u off) s _ _ fun _ => laneSend_word []

theorem laneMute_word : (s.laneMute t l).word u off = s.word u off := when_keeps (fun r => r.word u off) s _ _ fun _ => rfl

/-- A command of a lane does its effect where the lane's island is up. -/
theorem does_lane {i : Instr} {f : State → State} {P : State → Prop} (h : exec i s = s.finish (s.when (s.up t 6 && decide (l < 24)) f))
    (hu : s.up t 6 = true) (hl : l < 24) (hp : P (f s)) : Does i s P := does_when h (by simp [hu, hl]) hp

/-! ### LANE_CTL (R127, R128) -/

/-- What a write of LANE_CTL that finds the lane off stores before it may enable the lane. -/
def State.laneCtlSet (s : State) (t l v : Nat) : State :=
  let s := s.when (roleOk t l (bits v 1 2)) fun s => s.setF t (LANE_CTL_ROLE l) (bits v 1 2)
  let s := s.setB t (LANE_CTL_RX_INV l) (bit v 3)
  let s := s.when (16 ≤ l) fun s => s.setB t (LANE_CTL_TX_INV l) (bit v 4)
  s.when (s.f t (LANE_CTL_ROLE l) != 3) fun s => s.setF t (LANE_RATE_TRACK l) 0

theorem laneCtlSet_ctl {q : FRef} (ho : q.off = LANE_CTL l) (h : q.lo + q.w ≤ 4) : (s.laneCtlSet t l v).f t q =
    ((s.when (roleOk t l (bits v 1 2)) fun s => s.setF t (LANE_CTL_ROLE l) (bits v 1 2)).setB t (LANE_CTL_RX_INV l) (bit v 3)).f t q := by
  refine (when_keeps (fun r => r.f t q) _ _ _ fun r => f_setF_tile_ne r t 0 ?_).trans
    (when_keeps (fun r => r.f t q) _ _ _ fun r => f_setB_apart r t _ ho.symm ?_ ?_)
  · rw [ho]; simp [LANE_RATE_TRACK, LANE_RATE, LANE_CTL]
  · simp [LANE_CTL_TX_INV]
  · exact Or.inr h

theorem laneCtlSet_role (hr : roleOk t l (bits v 1 2) = true) : (s.laneCtlSet t l v).f t (LANE_CTL_ROLE l) = bits v 1 2 := by
  have small : bits v 1 2 < 4 := bits_lt v 1 2
  rw [laneCtlSet_ctl rfl (by simp [LANE_CTL_ROLE]), hr, when_true]
  simp [f_setB_apart, f_setF_same, small, LANE_CTL_RX_INV, LANE_CTL_ROLE]

theorem laneCtlSet_rxInv : (s.laneCtlSet t l v).on t (LANE_CTL_RX_INV l) = bit v 3 :=
  (on_of_f (laneCtlSet_ctl rfl (by simp [LANE_CTL_RX_INV]))).trans
    (on_setB_same _ t (LANE_CTL_RX_INV l) _ (by simp [LANE_CTL_RX_INV]) (by simp [LANE_CTL_RX_INV]))

theorem laneCtlSet_word (hc : regKey t (LANE_CTL l) ≠ regKey u off) (hr : regKey t (LANE_RATE l) ≠ regKey u off) :
    (s.laneCtlSet t l v).word u off = s.word u off := by
  unfold State.laneCtlSet
  extract_lets role inv tx
  have hrole : role.word u off = s.word u off := when_keeps (fun r => r.word u off) s _ _ fun r => word_setF_ne r (LANE_CTL_ROLE l) _ hc
  have hinv : inv.word u off = role.word u off := word_setB_ne role (r := LANE_CTL_RX_INV l) _ hc
  have htx : tx.word u off = inv.word u off :=
    when_keeps (fun r => r.word u off) inv _ _ fun r => word_setB_ne r (r := LANE_CTL_TX_INV l) _ hc
  rw [when_keeps (fun r => r.word u off) tx _ _ fun r => word_setF_ne r (LANE_RATE_TRACK l) 0 hr, htx, hinv, hrole]

/-- A lane just enabled: EN and PLL_OK stand, and what is kept of it starts afresh. -/
def State.laneStarted (s : State) (t l : Nat) : State :=
  let s := s.setB t (LANE_CTL_EN l) true
  let s := s.setB t (LANE_STAT_PLL_OK l) true
  let s := s.setLane t l { regained := (s.lane t l).regained }
  s.setPin t l { genAt := if s.f t (LANE_TEST_GEN l) = 0 then 0 else s.now }

theorem laneStarted_word : (s.laneStarted t l).word u off = ((s.setB t (LANE_CTL_EN l) true).setB t (LANE_STAT_PLL_OK l) true).word u off :=
  (word_setPin _).trans (word_setLane _)

theorem laneStarted_role : (s.laneStarted t l).f t (LANE_CTL_ROLE l) = s.f t (LANE_CTL_ROLE l) := by
  rw [f_of_word laneStarted_word]
  simp [f_setB_tile_ne, f_setB_apart, LANE_CTL_ROLE, LANE_CTL_EN, LANE_STAT_PLL_OK, LANE_CTL, LANE_STAT]

/-- Enabling a lane in another role than SDI ends in its receiver's hunt. -/
theorem laneEnable_eq (hr : s.f t (LANE_CTL_ROLE l) ≠ 3) :
    s.laneEnable t l = ((s.laneStarted t l).setB t (LANE_STAT_SIGNAL l) true).laneHunt t l :=
  if_neg (laneStarted_role.trans_ne hr)

theorem laneEnable_word (hr : s.f t (LANE_CTL_ROLE l) ≠ 3) (hc : regKey t (LANE_CTL l) ≠ regKey u off)
    (hs : regKey t (LANE_STAT l) ≠ regKey u off) : (s.laneEnable t l).word u off = s.word u off := by
  rw [laneEnable_eq hr, laneHunt_word hs]
  simp [laneStarted_word, word_setB_ne, hc, hs, LANE_STAT_SIGNAL, LANE_STAT_PLL_OK, LANE_CTL_EN]

theorem laneEnable_ctl (hr : s.f t (LANE_CTL_ROLE l) ≠ 3) :
    (s.laneEnable t l).word t (LANE_CTL l) = (s.setB t (LANE_CTL_EN l) true).word t (LANE_CTL l) := by
  have apart : regKey t (LANE_STAT l) ≠ regKey t (LANE_CTL l) := regKey_tile_ne t (by simp [LANE_STAT, LANE_CTL])
  rw [laneEnable_eq hr, laneHunt_word apart]
  simp [laneStarted_word, word_setB_ne, apart, LANE_STAT_SIGNAL, LANE_STAT_PLL_OK]

theorem laneEnable_en (hr : s.f t (LANE_CTL_ROLE l) ≠ 3) : (s.laneEnable t l).on t (LANE_CTL_EN l) = true :=
  (on_of_f (f_of_word (laneEnable_ctl hr))).trans (on_setB_same s t (LANE_CTL_EN l) true (by simp [LANE_CTL_EN]) (by simp [LANE_CTL_EN]))

/-- Enabling a lane leaves the other fields of LANE_CTL. -/
theorem laneEnable_f (hr : s.f t (LANE_CTL_ROLE l) ≠ 3) {q : FRef} (ho : q.off = LANE_CTL l) (h : 1 ≤ q.lo) :
    (s.laneEnable t l).f t q = s.f t q := by
  have kept : (s.laneEnable t l).word t q.off = (s.setB t (LANE_CTL_EN l) true).word t q.off := ho ▸ laneEnable_ctl hr
  exact (f_of_word kept).trans (f_setB_apart s t true (r := LANE_CTL_EN l) ho.symm (by simp [LANE_CTL_EN]) (Or.inl h))

theorem laneEnable_stat (hr : s.f t (LANE_CTL_ROLE l) ≠ 3) : (s.laneEnable t l).on t (LANE_STAT_PLL_OK l) = true ∧
    (s.laneEnable t l).on t (LANE_STAT_LOCKED l) = false ∧ (s.laneEnable t l).on t (LANE_STAT_HUNTING l) = true := by
  obtain ⟨unlocked, hunts, _⟩ := laneHunt_flags (s := (s.laneStarted t l).setB t (LANE_STAT_SIGNAL l) true) (t := t) (l := l)
  rw [laneEnable_eq hr]
  refine ⟨?_, unlocked, hunts⟩
  rw [on_of_f (laneHunt_f rfl (Or.inr (by simp [LANE_STAT_PLL_OK])))]
  have kept : ((s.laneStarted t l).setB t (LANE_STAT_SIGNAL l) true).on t (LANE_STAT_PLL_OK l) = (s.laneStarted t l).on t (LANE_STAT_PLL_OK l) :=
    on_setB_apart _ t true rfl (by simp [LANE_STAT_SIGNAL]) (by simp [LANE_STAT_SIGNAL, LANE_STAT_PLL_OK])
  rw [kept, on_of_f (f_of_word laneStarted_word)]
  exact on_setB_same _ t _ true (by simp [LANE_STAT_PLL_OK]) (by simp [LANE_STAT_PLL_OK])


/-- Disabling a lane leaves it off with bits 0 to 5 of LANE_STAT, SIGNAL to PLL_OK, clear. -/
theorem laneDisable_off : (s.laneDisable t l).on t (LANE_CTL_EN l) = false ∧ (s.laneDisable t l).f t ⟨LANE_STAT l, 0, 6⟩ = 0 := by
  unfold State.laneDisable
  extract_lets aborted cleared unchecked
  have clear : cleared.f t ⟨LANE_STAT l, 0, 6⟩ = 0 := by
    have low : ∀ n, bits (n / 64 * 64 % 2 ^ 32) 0 6 = 0 := fun n => by
      show n / 64 * 64 % 2 ^ 32 % 64 = 0
      omega
    exact (congrArg (fun n => bits n 0 6) (reg_setReg_same aborted t (LANE_STAT l) _)).trans (low _)
  rw [on_of_f (f_of_word (word_setPin _)), f_of_word (word_setPin _), on_setLane, f_setLane]
  refine ⟨on_setB_same _ t (LANE_CTL_EN l) _ (by simp [LANE_CTL_EN]) (by simp [LANE_CTL_EN]), ?_⟩
  rw [f_setB_tile_ne _ t _ (by simp [LANE_CTL_EN, LANE_CTL, LANE_STAT]),
    f_setB_tile_ne _ t _ (by simp [LANE_TEST_CHK_LOCK, LANE_TEST, LANE_STAT]), clear]

theorem laneDisable_word (hc : regKey t (LANE_CTL l) ≠ regKey u off) (hs : regKey t (LANE_STAT l) ≠ regKey u off)
    (ht : regKey t (LANE_TEST l) ≠ regKey u off) (he : regKey t (EYE_STAT l) ≠ regKey u off) :
    (s.laneDisable t l).word u off = s.word u off := by
  simp [State.laneDisable, word_setB_ne, word_setReg_ne, eyeAbort_word, hc, hs, ht, he, LANE_CTL_EN, LANE_TEST_CHK_LOCK]

/-- The state in which a write of LANE_CTL acts: CNT_CLR is done. -/
def State.laneCleared (s : State) (t l v : Nat) : State := s.when (bit v 5) fun s => s.laneCntClr t l

theorem laneCleared_word (hs : regKey t (LANE_STAT l) ≠ regKey u off) (hh : regKey t (LANE_HDRERR l) ≠ regKey u off)
    (ht : regKey t (LANE_TEST l) ≠ regKey u off) : (s.laneCleared t l v).word u off = s.word u off :=
  when_keeps (fun r => r.word u off) s _ _ fun _ => laneCntClr_word hs hh ht

theorem laneCleared_en : (s.laneCleared t l v).on t (LANE_CTL_EN l) = s.on t (LANE_CTL_EN l) :=
  on_of_f (f_of_word (laneCleared_word (regKey_tile_ne t (by simp [LANE_STAT, LANE_CTL_EN, LANE_CTL]))
    (regKey_tile_ne t (by simp [LANE_HDRERR, LANE_CTL_EN, LANE_CTL])) (regKey_tile_ne t (by simp [LANE_TEST, LANE_CTL_EN, LANE_CTL]))))

theorem laneCtlWrite_enables (hh : hostLane t l = false) (he : s.on t (LANE_CTL_EN l) = false) (hv : bit v 0 = true)
    (hr : roleOk t l (bits v 1 2) = true) (h3 : bits v 1 2 ≠ 3) :
    s.laneCtlWrite t l v = ((s.laneCleared t l v).laneCtlSet t l v).laneEnable t l := by
  have off : ¬(s.laneCleared t l v).on t (LANE_CTL_EN l) = true := by simp [laneCleared_en, he]
  have role : ((s.laneCleared t l v).laneCtlSet t l v).f t (LANE_CTL_ROLE l) ≠ 3 := (laneCtlSet_role hr).trans_ne h3
  exact (if_neg (by simp [hh])).trans ((if_neg off).trans (if_pos ⟨hv, fun h => role h.1⟩))

theorem laneCtlWrite_disables (hh : hostLane t l = false) (he : s.on t (LANE_CTL_EN l) = true) (hv : bit v 0 = false) :
    s.laneCtlWrite t l v = (s.laneCleared t l v).laneDisable t l :=
  (if_neg (by simp [hh])).trans ((if_pos (laneCleared_en.trans he)).trans (if_neg (by simp [hv])))

theorem does_laneEnable (hu : s.up t 6 = true) (hl : l < 24) (hh : hostLane t l = false) (he : s.on t (LANE_CTL_EN l) = false)
    (hv : bit v 0 = true) (hr : roleOk t l (bits v 1 2) = true) (h3 : bits v 1 2 ≠ 3) : Does (.laneCtlWrite t l v) s fun r =>
      r.on t (LANE_CTL_EN l) = true ∧ r.f t (LANE_CTL_ROLE l) = bits v 1 2 ∧ r.on t (LANE_CTL_RX_INV l) = bit v 3 ∧
      r.on t (LANE_STAT_PLL_OK l) = true ∧ r.on t (LANE_STAT_LOCKED l) = false ∧ r.on t (LANE_STAT_HUNTING l) = true ∧
      r.WordsBut s [(t, LANE_CTL l), (t, LANE_RATE l), (t, LANE_STAT l), (t, LANE_HDRERR l), (t, LANE_TEST l)] := by
  refine does_lane rfl hu hl ?_
  rw [laneCtlWrite_enables hh he hv hr h3]
  have role := laneCtlSet_role (s := s.laneCleared t l v) hr
  have inv := laneCtlSet_rxInv (s := s.laneCleared t l v) (t := t) (l := l) (v := v)
  obtain ⟨pll, unlocked, hunts⟩ := laneEnable_stat (role.trans_ne h3)
  refine ⟨laneEnable_en (role.trans_ne h3), ?_, ?_, pll, unlocked, hunts, fun u off ho hn => ?_⟩
  · rw [laneEnable_f (role.trans_ne h3) rfl (by simp [LANE_CTL_ROLE]), role]
  · rw [on_of_f (laneEnable_f (role.trans_ne h3) rfl (by simp [LANE_CTL_RX_INV])), inv]
  · obtain ⟨hc, hr, hs, hh, ht⟩ := keys_ne hn ho ⟨laneReg_lt hl, laneReg_lt hl, laneReg_lt hl, laneReg_lt hl, laneReg_lt hl⟩
    rw [laneEnable_word (role.trans_ne h3) hc hs, laneCtlSet_word hc hr, laneCleared_word hs hh ht]

theorem does_laneDisable (hu : s.up t 6 = true) (hl : l < 24) (hh : hostLane t l = false) (he : s.on t (LANE_CTL_EN l) = true)
    (hv : bit v 0 = false) : Does (.laneCtlWrite t l v) s fun r =>
      r.on t (LANE_CTL_EN l) = false ∧ r.f t ⟨LANE_STAT l, 0, 6⟩ = 0 ∧
      r.WordsBut s [(t, LANE_CTL l), (t, LANE_STAT l), (t, LANE_HDRERR l), (t, LANE_TEST l), (t, EYE_STAT l)] := by
  refine does_lane rfl hu hl ?_
  rw [laneCtlWrite_disables hh he hv]
  obtain ⟨off, clear⟩ := laneDisable_off (s := s.laneCleared t l v) (t := t) (l := l)
  refine ⟨off, clear, fun u off ho hn => ?_⟩
  obtain ⟨hc, hs, hh, ht, he⟩ := keys_ne hn ho ⟨laneReg_lt hl, laneReg_lt hl, laneReg_lt hl, laneReg_lt hl, laneReg_lt hl⟩
  rw [laneDisable_word hc hs ht he, laneCleared_word hs hh ht]

/-! ### Lock and its loss (R135, R137) -/

theorem does_laneLock (hu : s.up t 6 = true) (hl : l < 24) (live : s.laneLive t l = true) (hunts : s.on t (LANE_STAT_HUNTING l) = true) :
    Does (.laneLock t l) s fun r =>
      r.on t (LANE_STAT_LOCKED l) = true ∧ r.on t (LANE_STAT_HUNTING l) = false ∧ r.WordsBut s [(t, LANE_STAT l)] ∧
      r = { s with regs := r.regs, lanes := r.lanes } := by
  refine does_when (b := s.up t 6 && decide (l < 24) && s.laneLive t l && s.on t (LANE_STAT_HUNTING l)) rfl (by simp [hu, hl, live, hunts]) ?_
  obtain ⟨locked, still⟩ := laneLock_flags (s := s) (t := t) (l := l)
  refine ⟨locked, still, fun u off ho hn => ?_, laneLock_only⟩
  have hs := keys_ne (L := [(t, LANE_STAT l)]) hn ho (laneReg_lt hl)
  exact (laneLock_word hs).symm

theorem does_laneLockLost (hu : s.up t 6 = true) (hl : l < 24) (live : s.laneLive t l = true) (locked : s.on t (LANE_STAT_LOCKED l) = true)
    (awake : s.on t (LANE_STAT_IDLE l) = false) : Does (.laneLockLost t l) s fun r => s.LaneLost r t l :=
  does_when (b := s.up t 6 && decide (l < 24) && s.laneLive t l && s.laneLocked t l && !s.on t (LANE_STAT_IDLE l)) rfl
    (by simp [State.laneLocked, hu, hl, live, locked, awake]) (laneLose_lost hl)

/-! ### The synthesiser (R131) -/

/-- What the loss of the synthesiser does before the receiver loses lock. -/
def State.lanePllDown (s : State) (t l : Nat) : State :=
  (((s.setB t (LANE_STAT_PLL_OK l) false).setB t (LANE_STAT_PLL_LOST l) true).raise t 58).laneMute t l

theorem lanePllDown_shown (hl : l < 24) : (s.lanePllDown t l).on t (LANE_STAT_PLL_OK l) = false ∧
    (s.lanePllDown t l).on t (LANE_STAT_PLL_LOST l) = true ∧ (s.lanePllDown t l).evtStat t 58 = true := by
  have word : ∀ u off, (s.lanePllDown t l).word u off =
      (((s.setB t (LANE_STAT_PLL_OK l) false).setB t (LANE_STAT_PLL_LOST l) true).raise t 58).word u off := fun _ _ => laneMute_word
  have flag : ∀ q : FRef, q.off = LANE_STAT l → (s.lanePllDown t l).on t q =
      ((s.setB t (LANE_STAT_PLL_OK l) false).setB t (LANE_STAT_PLL_LOST l) true).on t q := fun q ho =>
    on_of_f ((f_of_word (word t q.off)).trans (f_raise _ t 58 t q (by decide) (ho ▸ laneReg_lt hl) (ho ▸ laneReg_eventOff hl)))
  rw [flag _ rfl, flag _ rfl, evtStat_of_word (word t _)]
  refine ⟨?_, ?_, raise_stat _ t 58 (by decide)⟩
  · simp [on_setB_apart, on_setB_same, LANE_STAT_PLL_OK, LANE_STAT_PLL_LOST]
  · exact on_setB_same _ t _ true (by simp [LANE_STAT_PLL_LOST]) (by simp [LANE_STAT_PLL_LOST])

/-- The receiver of a lane whose synthesiser is gone does not stay locked; else the step leaves PLL_OK, PLL_LOST and events that stand. -/
def State.laneUnlocked (s : State) (t l : Nat) : State := if s.laneLocked t l then s.laneLose t l else s

theorem laneUnlocked_locked (hl : l < 24) : (s.laneUnlocked t l).on t (LANE_STAT_LOCKED l) = false := by
  unfold State.laneUnlocked
  split
  · exact (laneLose_lost hl).locked
  · next h => exact Bool.eq_false_iff.2 h

theorem laneUnlocked_f {q : FRef} (hl : l < 24) (ho : q.off = LANE_STAT l) (h : 5 ≤ q.lo ∧ q.lo + q.w ≤ 16) :
    (s.laneUnlocked t l).f t q = s.f t q := by
  unfold State.laneUnlocked
  split
  · exact laneLose_f hl ho (Or.inr h)
  · rfl

theorem laneUnlocked_evtStat {k : Nat} (hl : l < 24) (hk : k < 320) (h : s.evtStat u k = true) : (s.laneUnlocked t l).evtStat u k = true := by
  unfold State.laneUnlocked
  split
  · exact laneLose_evtStat hl hk h
  · exact h

theorem lanePllLost_eq (en : s.on t (LANE_CTL_EN l) = true) (ok : s.on t (LANE_STAT_PLL_OK l) = true) :
    s.lanePllLost t l = ((s.lanePllDown t l).laneUnlocked t l).setB t (LANE_STAT_HUNTING l) false :=
  if_neg (by simp [en, ok])

theorem does_lanePllUnlock (hu : s.up t 6 = true) (hl : l < 24) (en : s.on t (LANE_CTL_EN l) = true)
    (ok : s.on t (LANE_STAT_PLL_OK l) = true) : Does (.lanePllUnlock t l) s fun r =>
      r.on t (LANE_STAT_PLL_OK l) = false ∧ r.on t (LANE_STAT_PLL_LOST l) = true ∧ r.on t (LANE_STAT_HUNTING l) = false ∧
      r.on t (LANE_STAT_LOCKED l) = false ∧ r.evtStat t 58 = true := by
  refine does_lane rfl hu hl ?_
  rw [lanePllLost_eq en ok]
  obtain ⟨gone, lost, event⟩ := lanePllDown_shown (s := s) (t := t) hl
  have unlocked := laneUnlocked_locked (s := s.lanePllDown t l) (t := t) hl
  have kept : ∀ q : FRef, q.off = LANE_STAT l → 5 ≤ q.lo ∧ q.lo + q.w ≤ 16 →
      ((s.lanePllDown t l).laneUnlocked t l).on t q = (s.lanePllDown t l).on t q := fun q ho h => on_of_f (laneUnlocked_f hl ho h)
  have held := laneUnlocked_evtStat (s := s.lanePllDown t l) (t := t) hl (by decide) event
  have other : ∀ q : FRef, q.off = LANE_STAT l → q.lo + q.w ≤ 2 ∨ 3 ≤ q.lo →
      (((s.lanePllDown t l).laneUnlocked t l).setB t (LANE_STAT_HUNTING l) false).on t q = ((s.lanePllDown t l).laneUnlocked t l).on t q :=
    fun q ho h => on_setB_apart _ t false (r := LANE_STAT_HUNTING l) ho.symm (by simp [LANE_STAT_HUNTING]) h.symm
  refine ⟨?_, ?_, on_setB_same _ t _ false (by simp [LANE_STAT_HUNTING]) (by simp [LANE_STAT_HUNTING]), ?_, ?_⟩
  · rw [other _ rfl (Or.inr (by simp [LANE_STAT_PLL_OK])), kept _ rfl (by simp [LANE_STAT_PLL_OK]), gone]
  · rw [other _ rfl (Or.inr (by simp [LANE_STAT_PLL_LOST])), kept _ rfl (by simp [LANE_STAT_PLL_LOST]), lost]
  · rw [other _ rfl (Or.inl (by simp [LANE_STAT_LOCKED])), unlocked]
  · exact (evtStat_of_word (word_setB_ne _ (r := LANE_STAT_HUNTING l) false (laneKey_evt_ne hl (by decide)))).trans held

theorem lanePllBack_eq (live : s.laneLive t l = true) (gone : s.on t (LANE_STAT_PLL_OK l) = false) (hr : s.f t (LANE_CTL_ROLE l) ≠ 3) :
    s.lanePllBack t l = ((s.setB t (LANE_STAT_PLL_OK l) true).laneResume t l).laneHunt t l := by
  have role : ((s.setB t (LANE_STAT_PLL_OK l) true).laneResume t l).f t (LANE_CTL_ROLE l) = s.f t (LANE_CTL_ROLE l) :=
    (f_of_word laneResume_word).trans (f_setB_tile_ne s t true (by simp [LANE_STAT_PLL_OK, LANE_CTL_ROLE, LANE_STAT, LANE_CTL]))
  exact (if_neg (by simp [live, gone])).trans (if_neg (role.trans_ne hr))

theorem does_lanePllRelock (hu : s.up t 6 = true) (hl : l < 24) (live : s.laneLive t l = true)
    (gone : s.on t (LANE_STAT_PLL_OK l) = false) (hr : s.f t (LANE_CTL_ROLE l) ≠ 3) : Does (.lanePllRelock t l) s fun r =>
      r.on t (LANE_STAT_PLL_OK l) = true ∧ r.on t (LANE_STAT_HUNTING l) = true ∧ r.WordsBut s [(t, LANE_STAT l)] := by
  refine does_lane rfl hu hl ?_
  rw [lanePllBack_eq live gone hr]
  obtain ⟨_, hunts, _⟩ := laneHunt_flags (s := (s.setB t (LANE_STAT_PLL_OK l) true).laneResume t l) (t := t) (l := l)
  refine ⟨?_, hunts, fun u off ho hn => ?_⟩
  · rw [on_of_f (laneHunt_f rfl (Or.inr (by simp [LANE_STAT_PLL_OK]))), on_of_f (f_of_word laneResume_word)]
    exact on_setB_same s t _ true (by simp [LANE_STAT_PLL_OK]) (by simp [LANE_STAT_PLL_OK])
  · have hs := keys_ne (L := [(t, LANE_STAT l)]) hn ho (laneReg_lt hl)
    rw [laneHunt_word hs, laneResume_word, word_setB_ne s (r := LANE_STAT_PLL_OK l) true hs]

/-! ### Electrical idle (R142 to R144) -/

theorem laneQuiet_orderly (live : s.laneLive t l = true) (signal : s.on t (LANE_STAT_SIGNAL l) = true)
    (locked : s.on t (LANE_STAT_LOCKED l) = true) (idles : 8 ≤ (s.lane t l).idles) :
    s.laneQuiet t l = ((s.setB t (LANE_STAT_SIGNAL l) false).eyeAbort t l).setB t (LANE_STAT_IDLE l) true := by
  have still : (s.setB t (LANE_STAT_SIGNAL l) false).on t (LANE_STAT_LOCKED l) = true := by
    simpa [on_setB_apart, LANE_STAT_SIGNAL, LANE_STAT_LOCKED] using locked
  exact (if_neg (by simp [live, signal])).trans ((if_neg (by simp [State.laneLocked, still])).trans (if_pos idles))

theorem laneQuiet_abrupt (live : s.laneLive t l = true) (signal : s.on t (LANE_STAT_SIGNAL l) = true)
    (locked : s.on t (LANE_STAT_LOCKED l) = true) (idles : (s.lane t l).idles < 8) :
    s.laneQuiet t l = (s.setB t (LANE_STAT_SIGNAL l) false).laneLose t l := by
  have still : (s.setB t (LANE_STAT_SIGNAL l) false).on t (LANE_STAT_LOCKED l) = true := by
    simpa [on_setB_apart, LANE_STAT_SIGNAL, LANE_STAT_LOCKED] using locked
  exact (if_neg (by simp [live, signal])).trans ((if_neg (by simp [State.laneLocked, still])).trans (if_neg (Nat.not_le.2 idles)))

theorem does_laneIdleEntry_orderly (hu : s.up t 6 = true) (hl : l < 24) (live : s.laneLive t l = true)
    (signal : s.on t (LANE_STAT_SIGNAL l) = true) (locked : s.on t (LANE_STAT_LOCKED l) = true) (idles : 8 ≤ (s.lane t l).idles) :
    Does (.laneIdleEntry t l) s fun r =>
      r.on t (LANE_STAT_IDLE l) = true ∧ r.on t (LANE_STAT_SIGNAL l) = false ∧ r.on t (LANE_STAT_LOCKED l) = true ∧
      r.WordsBut s [(t, LANE_STAT l), (t, EYE_STAT l)] := by
  refine does_lane rfl hu hl ?_
  rw [laneQuiet_orderly live signal locked idles]
  refine ⟨on_setB_same _ t _ true (by simp [LANE_STAT_IDLE]) (by simp [LANE_STAT_IDLE]), ?_, ?_, fun u off ho hn => ?_⟩
  · simp [on_setB_apart, on_setB_same, eyeAbort_on, LANE_STAT_IDLE, LANE_STAT_SIGNAL, eyeStat_ne_laneStat]
  · simpa [on_setB_apart, eyeAbort_on, LANE_STAT_IDLE, LANE_STAT_SIGNAL, LANE_STAT_LOCKED, eyeStat_ne_laneStat] using locked
  · obtain ⟨hs, he⟩ := keys_ne hn ho ⟨laneReg_lt hl, laneReg_lt hl⟩
    rw [word_setB_ne _ (r := LANE_STAT_IDLE l) true hs, eyeAbort_word he, word_setB_ne s (r := LANE_STAT_SIGNAL l) false hs]

theorem does_laneIdleEntry_abrupt (hu : s.up t 6 = true) (hl : l < 24) (live : s.laneLive t l = true)
    (signal : s.on t (LANE_STAT_SIGNAL l) = true) (locked : s.on t (LANE_STAT_LOCKED l) = true) (idles : (s.lane t l).idles < 8) :
    Does (.laneIdleEntry t l) s fun r => r.on t (LANE_STAT_SIGNAL l) = false ∧ s.LaneLost r t l := by
  refine does_lane rfl hu hl ?_
  rw [laneQuiet_abrupt live signal locked idles]
  obtain ⟨unlocked, hunts, losses, event, words⟩ := laneLose_lost (s := s.setB t (LANE_STAT_SIGNAL l) false) (t := t) hl
  refine ⟨?_, unlocked, hunts, ?_, event, fun u off ho hv hn => ?_⟩
  · rw [on_of_f (laneLose_f hl rfl (Or.inl (by simp [LANE_STAT_SIGNAL])))]
    exact on_setB_same s t _ false (by simp [LANE_STAT_SIGNAL]) (by simp [LANE_STAT_SIGNAL])
  · rw [losses]
    simp [f_setB_apart, LANE_STAT_SIGNAL, LANE_STAT_LOSSES]
  · obtain ⟨hs, -⟩ := keys_ne hn ho ⟨laneReg_lt hl, laneReg_lt hl⟩
    exact (word_setB_ne s (r := LANE_STAT_SIGNAL l) false hs).symm.trans (words u off ho hv hn)

/-- The first boundary that yields 4 Wake blocks is the one taken (R143). -/
theorem wakes_findIdx {i : Nat} {wakes : List Nat} (hi : i < 9) (h : 4 ≤ wakes.getD i 0) (first : ∀ j, j < i → wakes.getD j 0 < 4) :
    (wakes.take 9).findIdx? (4 ≤ ·) = some i := by
  have inside : i < wakes.length := by
    by_contra out
    rw [List.getD_eq_default _ _ (Nat.le_of_not_lt out)] at h
    omega
  refine List.findIdx?_eq_some_iff_getElem.2 ⟨by simp; omega, ?_, fun j hj => ?_⟩
  · rw [List.getD_eq_getElem _ _ inside] at h
    simpa using h
  · have before := first j hj
    rw [List.getD_eq_getElem _ _ (hj.trans inside)] at before
    simpa using before

theorem laneWake_found {i : Nat} {wakes : List Nat} (live : s.laneLive t l = true) (silent : s.on t (LANE_STAT_SIGNAL l) = false)
    (idle : s.on t (LANE_STAT_IDLE l) = true) (found : (wakes.take 9).findIdx? (4 ≤ ·) = some i) :
    s.laneWake t l wakes = ((s.setB t (LANE_STAT_SIGNAL l) true).setB t (LANE_STAT_IDLE l) false).setLane t l
      { s.lane t l with boundary := ((s.lane t l).boundary + 62 + i) % 66, idles := 0 } := by
  have still : (s.setB t (LANE_STAT_SIGNAL l) true).on t (LANE_STAT_IDLE l) = true := by
    simpa [on_setB_apart, LANE_STAT_SIGNAL, LANE_STAT_IDLE] using idle
  unfold State.laneWake
  rw [if_neg (by simp [live, silent])]
  extract_lets q
  rw [if_neg (by simp [q, still]), found]
  rfl

theorem does_laneIdleExit {i : Nat} {wakes : List Nat} (hu : s.up t 6 = true) (hl : l < 24) (live : s.laneLive t l = true)
    (silent : s.on t (LANE_STAT_SIGNAL l) = false) (idle : s.on t (LANE_STAT_IDLE l) = true)
    (found : (wakes.take 9).findIdx? (4 ≤ ·) = some i) : Does (.laneIdleExit t l wakes) s fun r =>
      r.on t (LANE_STAT_IDLE l) = false ∧ r.on t (LANE_STAT_SIGNAL l) = true ∧
      r.lane t l = { s.lane t l with boundary := ((s.lane t l).boundary + 62 + i) % 66, idles := 0 } ∧ r.WordsBut s [(t, LANE_STAT l)] := by
  refine does_lane rfl hu hl ?_
  rw [laneWake_found live silent idle found]
  refine ⟨?_, ?_, lane_setLane_same .., fun u off ho hn => ?_⟩
  · simp [on_setB_same, LANE_STAT_IDLE]
  · simp [on_setB_apart, on_setB_same, LANE_STAT_IDLE, LANE_STAT_SIGNAL]
  · have hs := keys_ne (L := [(t, LANE_STAT l)]) hn ho (laneReg_lt hl)
    rw [word_setLane, word_setB_ne _ (r := LANE_STAT_IDLE l) false hs, word_setB_ne s (r := LANE_STAT_SIGNAL l) true hs]

theorem does_laneWakeHuntTimeout (hu : s.up t 6 = true) (hl : l < 24) (hunts : s.on t (LANE_STAT_HUNTING l) = true)
    (wake : (s.lane t l).wakeHunt = true) (due : 64000 ≤ s.laneUi t l (s.now - (s.lane t l).wakeAt)) :
    Does (.laneWakeHuntTimeout t l) s fun r => s.LaneLost r t l ∧ (r.lane t l).wakeHunt = false := by
  refine does_lane rfl hu hl ?_
  have lose : s.laneWakeTimeout t l = s.laneLose t l := if_pos ⟨hunts, wake, due⟩
  rw [lose]
  exact ⟨laneLose_lost hl, laneLose_wakeHunt⟩

theorem does_laneWakeHuntTimeout_early (hu : s.up t 6 = true) (hl : l < 24) (early : s.laneUi t l (s.now - (s.lane t l).wakeAt) < 64000) :
    Does (.laneWakeHuntTimeout t l) s fun r => r = s :=
  does_lane rfl hu hl (if_neg fun h => Nat.not_le.2 early h.2.2)

end

/-- Settles O33: each command's lemma above gives its part (R127, R131, R135 to R137, R142 to R144). -/
theorem laneStateCommandsComplete : Obligations.LaneStateCommandsComplete := by
  intro t l s hu hl live lost
  have loses : ∀ r, s.LaneLost r t l → lost r := fun r h => ⟨h.locked, h.hunting, h.losses, h.event, h.words⟩
  exact ⟨fun v hh he hv hr h3 => does_laneEnable hu hl hh he hv hr h3,
    fun v hh he hv => does_laneDisable hu hl hh he hv,
    fun lives hunts => does_laneLock hu hl lives hunts,
    fun lives locked awake => (does_laneLockLost hu hl lives locked awake).mono loses,
    fun en ok => does_lanePllUnlock hu hl en ok,
    fun lives gone hr => does_lanePllRelock hu hl lives gone hr,
    fun lives signal locked idles => does_laneIdleEntry_orderly hu hl lives signal locked idles,
    fun lives signal locked idles => (does_laneIdleEntry_abrupt hu hl lives signal locked idles).mono fun r h => ⟨h.1, loses r h.2⟩,
    fun i wakes lives silent idle hi h first => does_laneIdleExit hu hl lives silent idle (wakes_findIdx hi h first),
    fun hunts wake due => (does_laneWakeHuntTimeout hu hl hunts wake due).mono fun r h => ⟨loses r h.1, h.2⟩,
    fun early => does_laneWakeHuntTimeout_early hu hl early⟩

end Sys2Proof.Machine

/-!
# Serial lanes: traffic

O34: blocks received, counters, alignment, eye scans, test patterns (chapter 5). A block acts through the pattern checker, then through
the receiver's framing; each has its equation and what it leaves of the registers.
-/

namespace Sys2Proof.Machine

/-! ### The scrambler (R132) -/

theorem b2n_testBit (p i : Nat) : b2n (p.testBit i) = p >>> i % 2 := by
  rw [Nat.shiftRight_eq_div_pow, ← Nat.toNat_testBit]
  cases p.testBit i <;> rfl

/-- A field of one bit more is its lowest bit and the field above it. -/
theorem bits_succ (p i k : Nat) : bits p i (k + 1) = b2n (p.testBit i) + 2 * bits p (i + 1) k := by
  rw [b2n_testBit, bits, bits, Nat.pow_succ', Nat.mod_mul, Nat.shiftRight_succ]

/-- The scrambler puts nothing below the bit it starts from. -/
theorem scramble_dvd (k st p i : Nat) : 2 ^ i ∣ (scramble k st p i).2 := by
  induction k generalizing st i with
  | zero => exact dvd_zero _
  | succ k ih =>
    refine (Nat.dvd_add_right ?_).2 (dvd_mul_left _ _)
    exact (pow_dvd_pow 2 (Nat.le_succ i)).trans (ih _ (i + 1))

/-- The bits of a number whose bit i stands below a multiple of the next power. -/
theorem testBit_add_b2n {r i j : Nat} (b : Bool) (hr : 2 ^ (i + 1) ∣ r) (hj : i ≤ j) :
    (r + b2n b * 2 ^ i).testBit j = if j = i then b else r.testBit j := by
  obtain ⟨c, rfl⟩ := hr
  have small : b2n b * 2 ^ i < 2 ^ (i + 1) := by
    have : 0 < 2 ^ i := Nat.two_pow_pos i
    rw [Nat.pow_succ]
    cases b <;> simp [b2n]
  rw [Nat.testBit_two_pow_mul_add _ small]
  by_cases h : j = i
  · subst h
    cases b <;> simp [b2n]
  · rw [if_neg (by omega), if_neg h, Nat.testBit_two_pow_mul]
    simp [show i + 1 ≤ j by omega]

/-- What comes down as the scrambler sent it, the descrambler of the same history gives back. -/
theorem descramble_scramble (k st p q i : Nat) (h : ∀ j, i ≤ j → q.testBit j = (scramble k st p i).2.testBit j) :
    descramble k st q i = ((scramble k st p i).1, bits p i k * 2 ^ i) := by
  induction k generalizing st i with
  | zero => simp [descramble, scramble, bits, Nat.mod_one]
  | succ k ih =>
    let o := xor (p.testBit i) (xor (st.testBit 38) (st.testBit 57))
    have sent : ∀ j, i ≤ j → q.testBit j = if j = i then o else (scramble k ((st * 2 + b2n o) % 2 ^ 58) p (i + 1)).2.testBit j :=
      fun j hj => (h j hj).trans (testBit_add_b2n o (scramble_dvd k _ p (i + 1)) hj)
    have first : q.testBit i = o := by simpa using sent i (Nat.le_refl i)
    have plain : xor o (xor (st.testBit 38) (st.testBit 57)) = p.testBit i := by simp [o]
    have rest := ih ((st * 2 + b2n o) % 2 ^ 58) (i + 1) fun j hj => by
      rw [sent j (by omega), if_neg (by omega)]
    simp only [descramble, first, rest, plain, bits_succ]
    refine Prod.ext rfl ?_
    show bits p (i + 1) k * 2 ^ (i + 1) + b2n (p.testBit i) * 2 ^ i = _
    ring

theorem descramble_scramble_block {p : Nat} (st : Nat) (hp : p < 2 ^ 64) :
    descramble 64 st (scramble 64 st p 0).2 0 = ((scramble 64 st p 0).1, p) := by
  rw [descramble_scramble 64 st p _ 0 fun _ _ => rfl]
  simpa [bits] using hp

section
variable {s r : State} {t l u off v hdr p : Nat}

/-! ### Test patterns (R151) -/

theorem prbsMiss_word (ht : regKey t (LANE_TEST l) ≠ regKey u off) (hs : regKey t (LANE_STAT l) ≠ regKey u off)
    (ho : off < 0x1000000) (hv : eventOff off = false) : (s.prbsMiss t l).word u off = s.word u off := by
  have counted : (s.addF t (LANE_TEST_ERRS l) 1).word u off = s.word u off := word_addF_ne s (r := LANE_TEST_ERRS l) 1 ht
  unfold State.prbsMiss
  extract_lets q
  split
  · exact counted
  · rw [word_raise _ t 60 u off (by decide) ho hv, word_setB_ne _ (r := LANE_STAT_PRBS_ERR l) true hs, word_setLane, counted]

theorem prbsTake_word (b : Bool) (ht : regKey t (LANE_TEST l) ≠ regKey u off) (hs : regKey t (LANE_STAT l) ≠ regKey u off)
    (ho : off < 0x1000000) (hv : eventOff off = false) : (s.prbsTake t l b).word u off = s.word u off := by
  unfold State.prbsTake
  extract_lets sel x want q n q'
  split
  · exact (when_keeps (fun r => r.word u off) q _ _ fun r => prbsMiss_word ht hs ho hv).trans (word_setLane _)
  · exact (when_keeps (fun r => r.word u off) q' _ _ fun r => word_setB_ne r (r := LANE_TEST_CHK_LOCK l) true ht).trans (word_setLane _)

theorem prbsWord_word (ht : regKey t (LANE_TEST l) ≠ regKey u off) (hs : regKey t (LANE_STAT l) ≠ regKey u off)
    (ho : off < 0x1000000) (hv : eventOff off = false) : (s.prbsWord t l hdr p).word u off = s.word u off := by
  unfold State.prbsWord
  split
  · rfl
  · exact (each_keeps (fun r => r.word u off) _ _ _ fun r i => prbsTake_word _ ht hs ho hv).trans
      (each_keeps (fun r => r.word u off) s _ _ fun r i => prbsTake_word _ ht hs ho hv)

/-- A lane that checks no test pattern takes no bits for it. -/
theorem prbsWord_of_not_checks (h : ¬(s.f t (LANE_CTL_ROLE l) = 0 ∧ s.f t (LANE_TEST_CHK l) ≠ 0)) : s.prbsWord t l hdr p = s :=
  if_pos (by tauto)

/-! ### Blocks (R134 to R136) -/

/-- A lane with its descrambler as a block leaves it. -/
def State.laneHeard (s : State) (t l payload : Nat) : LaneSt :=
  { s.lane t l with desc := (descramble 64 (s.lane t l).desc payload 0).1 }

/-- What a locked lane keeps of a block: its position, and how many Idle blocks came in a row. -/
def State.laneAdvanced (s : State) (t l hdr payload : Nat) : LaneSt :=
  let x := s.laneHeard t l payload
  { x with
    pos := x.pos + 1
    idles := if hdr = 1 ∧ (descramble 64 (s.lane t l).desc payload 0).2 % 256 = 0xA1 then x.idles + 1 else 0 }

/-- What a lane does of a block whose bits the pattern checker has taken. -/
def State.laneFramed (s : State) (t l hdr payload : Nat) : State :=
  let x := s.laneHeard t l payload
  let q := s.setLane t l x
  if q.laneLocked t l then
    let q := q.setLane t l (s.laneAdvanced t l hdr payload)
    if hdrValid hdr then q else q.laneBad t l
  else if q.on t (LANE_STAT_HUNTING l) then
    if hdrValid hdr then
      if 63 ≤ x.valid then q.laneLock t l else q.setLane t l { x with valid := x.valid + 1 }
    else q.setLane t l { x with valid := 0, boundary := (x.boundary + 1) % 66 }
  else q

theorem laneBlock_eq (live : s.laneLive t l = true) (awake : s.on t (LANE_STAT_IDLE l) = false) (hr : s.f t (LANE_CTL_ROLE l) ≠ 3) :
    s.laneBlock t l hdr p = (s.prbsWord t l hdr p).laneFramed t l hdr p := by
  unfold State.laneBlock State.laneFramed State.laneAdvanced State.laneHeard
  rw [if_neg (by simp [live, awake, hr])]
  generalize s.prbsWord t l hdr p = q
  generalize hd : descramble 64 (q.lane t l).desc p 0 = d
  simp only [lane_setLane_same, hd]

/-- A block that is no stray block of a sensor does what the lane does of it. -/
theorem laneReceive_eq (h : ¬(hdr = 1 ∧ (s.laneBlock t l hdr p).f t (LANE_CTL_ROLE l) = 1)) : s.laneReceive t l hdr p = s.laneBlock t l hdr p := by
  have none : ∀ plain, (s.laneBlock t l hdr p).adForeign t l hdr plain = s.laneBlock t l hdr p := fun plain =>
    if_neg fun ⟨hh, _, hr, _⟩ => h ⟨hh, hr⟩
  unfold State.laneReceive
  extract_lets plain live q
  cases live with
  | false => rfl
  | true => exact none plain

section
variable (live : s.laneLive t l = true) (awake : s.on t (LANE_STAT_IDLE l) = false) (hr : s.f t (LANE_CTL_ROLE l) ≠ 3)
  (unchecked : ¬(s.f t (LANE_CTL_ROLE l) = 0 ∧ s.f t (LANE_TEST_CHK l) ≠ 0)) (data : hdr ≠ 1)
include live awake hr unchecked data

theorem laneReceive_framed : s.laneReceive t l hdr p = s.laneFramed t l hdr p := by
  rw [laneReceive_eq fun h => data h.1, laneBlock_eq live awake hr, prbsWord_of_not_checks unchecked]

/-- A receiver that hears a block of another header than 1, when what the lane does of it is as told. -/
theorem does_laneBlockReceive {h : Nat} {P : State → Prop} (hu : s.up t 6 = true) (hl : l < 24) (hh : h % 4 = hdr)
    (hp : P (s.laneFramed t l hdr p)) : Does (.laneBlockReceive t l h p) s P := by
  refine does_lane rfl hu hl ?_
  rw [hh, laneReceive_framed live awake hr unchecked data]
  exact hp

end

/-- The headers 0b00 and 0b11 mark neither a data block nor a control block (R134). -/
theorem hdrValid_of_bad {h : Nat} (bad : h ∈ [0, 3]) : h % 4 = h ∧ h ≠ 1 ∧ hdrValid h = false := by
  revert h
  decide

theorem setLane_twice_only (x y : LaneSt) :
    (s.setLane t l x).setLane t l y = { s with lanes := ((s.setLane t l x).setLane t l y).lanes } := rfl

section
variable (live : s.laneLive t l = true) (awake : s.on t (LANE_STAT_IDLE l) = false) (hr : s.f t (LANE_CTL_ROLE l) ≠ 3)
  (unchecked : ¬(s.f t (LANE_CTL_ROLE l) = 0 ∧ s.f t (LANE_TEST_CHK l) ≠ 0)) (hu : s.up t 6 = true) (hl : l < 24)
include live awake hr unchecked hu hl

theorem does_laneBlockReceive_locked (locked : s.on t (LANE_STAT_LOCKED l) = true) : Does (.laneBlockReceive t l 2 p) s fun r =>
    r = { s with lanes := r.lanes } ∧
    r.lane t l = { s.lane t l with desc := (r.lane t l).desc, pos := (s.lane t l).pos + 1, idles := 0 } := by
  refine does_laneBlockReceive live awake hr unchecked (hdr := 2) (by decide) hu hl rfl ?_
  have framed : s.laneFramed t l 2 p = (s.setLane t l (s.laneHeard t l p)).setLane t l (s.laneAdvanced t l 2 p) :=
    (if_pos locked).trans (if_pos rfl)
  rw [framed]
  refine ⟨setLane_twice_only _ _, ?_⟩
  rw [lane_setLane_same]
  rfl

theorem does_laneBlockReceive_counts (unlocked : s.on t (LANE_STAT_LOCKED l) = false) (hunts : s.on t (LANE_STAT_HUNTING l) = true)
    (valid : (s.lane t l).valid < 63) : Does (.laneBlockReceive t l 2 p) s fun r =>
      r = { s with lanes := r.lanes } ∧ r.lane t l = { s.lane t l with desc := (r.lane t l).desc, valid := (s.lane t l).valid + 1 } := by
  refine does_laneBlockReceive live awake hr unchecked (hdr := 2) (by decide) hu hl rfl ?_
  have framed : s.laneFramed t l 2 p = (s.setLane t l (s.laneHeard t l p)).setLane t l
      { s.laneHeard t l p with valid := (s.laneHeard t l p).valid + 1 } :=
    (if_neg (Bool.eq_false_iff.1 unlocked)).trans ((if_pos hunts).trans ((if_pos rfl).trans (if_neg (Nat.not_le.2 valid))))
  rw [framed]
  refine ⟨setLane_twice_only _ _, ?_⟩
  rw [lane_setLane_same]
  rfl

theorem does_laneBlockReceive_locks (unlocked : s.on t (LANE_STAT_LOCKED l) = false) (hunts : s.on t (LANE_STAT_HUNTING l) = true)
    (valid : (s.lane t l).valid = 63) : Does (.laneBlockReceive t l 2 p) s fun r =>
      r.on t (LANE_STAT_LOCKED l) = true ∧ r.on t (LANE_STAT_HUNTING l) = false ∧ r.WordsBut s [(t, LANE_STAT l)] := by
  refine does_laneBlockReceive live awake hr unchecked (hdr := 2) (by decide) hu hl rfl ?_
  have framed : s.laneFramed t l 2 p = (s.setLane t l (s.laneHeard t l p)).laneLock t l :=
    (if_neg (Bool.eq_false_iff.1 unlocked)).trans ((if_pos hunts).trans ((if_pos rfl).trans (if_pos (Nat.le_of_eq valid.symm))))
  rw [framed]
  obtain ⟨locked, still⟩ := laneLock_flags (s := s.setLane t l (s.laneHeard t l p)) (t := t) (l := l)
  refine ⟨locked, still, fun u off ho hn => ?_⟩
  have hs := keys_ne (L := [(t, LANE_STAT l)]) hn ho (laneReg_lt hl)
  rw [laneLock_word hs, word_setLane]

theorem does_laneBlockReceive_slips {h : Nat} (bad : h ∈ [0, 3]) (unlocked : s.on t (LANE_STAT_LOCKED l) = false)
    (hunts : s.on t (LANE_STAT_HUNTING l) = true) : Does (.laneBlockReceive t l h p) s fun r =>
      r = { s with lanes := r.lanes } ∧
      r.lane t l = { s.lane t l with desc := (r.lane t l).desc, valid := 0, boundary := ((s.lane t l).boundary + 1) % 66 } := by
  obtain ⟨small, control, invalid⟩ := hdrValid_of_bad bad
  refine does_laneBlockReceive live awake hr unchecked control hu hl small ?_
  have framed : s.laneFramed t l h p = (s.setLane t l (s.laneHeard t l p)).setLane t l
      { s.laneHeard t l p with valid := 0, boundary := ((s.laneHeard t l p).boundary + 1) % 66 } :=
    (if_neg (Bool.eq_false_iff.1 unlocked)).trans ((if_pos hunts).trans (if_neg (Bool.eq_false_iff.1 invalid)))
  rw [framed]
  refine ⟨setLane_twice_only _ _, ?_⟩
  rw [lane_setLane_same]
  rfl

end

/-- The record of invalid headers with the one that has just come, of at most LOSS_CNT positions (R136). -/
def State.laneHdrRecord (s : State) (t l : Nat) : List Nat :=
  ((s.lane t l).invalid ++ [(s.lane t l).pos]).drop ((s.lane t l).invalid.length + 1 - (s.addF t (LANE_HDRERR_COUNT l) 1).f t (LANE_ALIGN_LOSS_CNT l))

/-- An invalid header counted and recorded (R134, R136). -/
def State.laneHdrCounted (s : State) (t l : Nat) : State :=
  (s.addF t (LANE_HDRERR_COUNT l) 1).setLane t l { s.lane t l with invalid := s.laneHdrRecord t l }

/-- An invalid header is counted and recorded; a full record may cost the lock. -/
theorem laneBad_cases : s.laneBad t l = s.laneHdrCounted t l ∨
    (s.laneHdrRecord t l).length = (s.addF t (LANE_HDRERR_COUNT l) 1).f t (LANE_ALIGN_LOSS_CNT l) ∧
      s.laneBad t l = (s.laneHdrCounted t l).laneLose t l := by
  generalize hb : s.laneBad t l = b
  unfold State.laneBad at hb
  dsimp only at hb
  split at hb
  · split at hb
    · next full => exact Or.inr ⟨full.1, hb.symm⟩
    · exact Or.inl hb.symm
  · exact Or.inl hb.symm

theorem lossCnt_kept : (s.addF t (LANE_HDRERR_COUNT l) 1).f t (LANE_ALIGN_LOSS_CNT l) = s.f t (LANE_ALIGN_LOSS_CNT l) :=
  f_setF_tile_ne s t _ (by simp [LANE_HDRERR_COUNT, LANE_ALIGN_LOSS_CNT, LANE_HDRERR, LANE_ALIGN])

theorem laneHdrRecord_room (room : (s.lane t l).invalid.length + 1 < s.f t (LANE_ALIGN_LOSS_CNT l)) :
    s.laneHdrRecord t l = (s.lane t l).invalid ++ [(s.lane t l).pos] := by
  unfold State.laneHdrRecord
  rw [lossCnt_kept, Nat.sub_eq_zero_of_le room.le, List.drop_zero]

theorem laneBad_room (room : (s.lane t l).invalid.length + 1 < s.f t (LANE_ALIGN_LOSS_CNT l)) : s.laneBad t l = s.laneHdrCounted t l := by
  refine laneBad_cases.resolve_right fun h => ?_
  rw [laneHdrRecord_room room, lossCnt_kept, List.length_append] at h
  exact room.ne h.1

theorem laneHdrCounted_word (hh : regKey t (LANE_HDRERR l) ≠ regKey u off) : (s.laneHdrCounted t l).word u off = s.word u off :=
  (word_setLane _).trans (word_addF_ne s (r := LANE_HDRERR_COUNT l) 1 hh)

theorem laneBad_word (hl : l < 24) (hs : regKey t (LANE_STAT l) ≠ regKey u off) (hh : regKey t (LANE_HDRERR l) ≠ regKey u off)
    (he : regKey t (EYE_STAT l) ≠ regKey u off) (ho : off < 0x1000000) (hv : eventOff off = false) :
    (s.laneBad t l).word u off = s.word u off := by
  rcases laneBad_cases (s := s) (t := t) (l := l) with e | ⟨_, e⟩
  · rw [e, laneHdrCounted_word hh]
  · rw [e, laneLose_word hl hs he ho hv, laneHdrCounted_word hh]

theorem laneFramed_word (hl : l < 24) (hs : regKey t (LANE_STAT l) ≠ regKey u off) (hh : regKey t (LANE_HDRERR l) ≠ regKey u off)
    (he : regKey t (EYE_STAT l) ≠ regKey u off) (ho : off < 0x1000000) (hv : eventOff off = false) :
    (s.laneFramed t l hdr p).word u off = s.word u off := by
  unfold State.laneFramed
  extract_lets x q q'
  have heard : q.word u off = s.word u off := word_setLane x
  split
  · split
    · exact (word_setLane _).trans heard
    · rw [laneBad_word hl hs hh he ho hv]
      exact (word_setLane _).trans heard
  · split
    · split
      · split
        · exact (laneLock_word hs).trans heard
        · exact (word_setLane _).trans heard
      · exact (word_setLane _).trans heard
    · exact heard

theorem does_laneBlockReceive_bad {h : Nat} (live : s.laneLive t l = true) (awake : s.on t (LANE_STAT_IDLE l) = false)
    (hr : s.f t (LANE_CTL_ROLE l) ≠ 3) (unchecked : ¬(s.f t (LANE_CTL_ROLE l) = 0 ∧ s.f t (LANE_TEST_CHK l) ≠ 0)) (hu : s.up t 6 = true)
    (hl : l < 24) (bad : h ∈ [0, 3]) (locked : s.on t (LANE_STAT_LOCKED l) = true)
    (room : (s.lane t l).invalid.length + 1 < s.f t (LANE_ALIGN_LOSS_CNT l)) : Does (.laneBlockReceive t l h p) s fun r =>
      r.f t (LANE_HDRERR_COUNT l) = min (2 ^ 32 - 1) (s.f t (LANE_HDRERR_COUNT l) + 1) ∧ r.on t (LANE_STAT_LOCKED l) = true ∧
      (r.lane t l).invalid = (s.lane t l).invalid ++ [(s.lane t l).pos + 1] ∧ r.WordsBut s [(t, LANE_HDRERR l)] := by
  obtain ⟨small, control, invalid⟩ := hdrValid_of_bad bad
  refine does_laneBlockReceive live awake hr unchecked control hu hl small ?_
  have framed : s.laneFramed t l h p = ((s.setLane t l (s.laneHeard t l p)).setLane t l (s.laneAdvanced t l h p)).laneBad t l :=
    (if_pos locked).trans (if_neg (Bool.eq_false_iff.1 invalid))
  have kept : ((s.setLane t l (s.laneHeard t l p)).setLane t l (s.laneAdvanced t l h p)).lane t l = s.laneAdvanced t l h p := lane_setLane_same ..
  have word : ∀ u off, ((s.setLane t l (s.laneHeard t l p)).setLane t l (s.laneAdvanced t l h p)).word u off = s.word u off :=
    fun _ _ => (word_setLane _).trans (word_setLane _)
  rw [framed]
  generalize (s.setLane t l (s.laneHeard t l p)).setLane t l (s.laneAdvanced t l h p) = q at *
  have wide : (q.lane t l).invalid.length + 1 < q.f t (LANE_ALIGN_LOSS_CNT l) := by
    rw [kept, f_of_word (word t _)]
    exact room
  rw [laneBad_room wide]
  refine ⟨?_, ?_, ?_, fun u off ho hn => ?_⟩
  · have counted := addF_same q t (LANE_HDRERR_COUNT l) 1 (by simp [LANE_HDRERR_COUNT])
    rw [f_of_word (word t _)] at counted
    exact (f_setLane _ _).trans counted
  · have apart : regKey t (LANE_HDRERR l) ≠ regKey t (LANE_STAT l) := regKey_tile_ne t (by simp [LANE_HDRERR, LANE_STAT])
    exact (on_of_f (f_of_word ((laneHdrCounted_word apart).trans (word t _)))).trans locked
  · unfold State.laneHdrCounted
    rw [lane_setLane_same, laneHdrRecord_room wide, kept]
    rfl
  · rw [laneHdrCounted_word (keys_ne (L := [(t, LANE_HDRERR l)]) hn ho (laneReg_lt hl)), word u off]

theorem laneBlock_word (hl : l < 24) (hs : regKey t (LANE_STAT l) ≠ regKey u off) (hh : regKey t (LANE_HDRERR l) ≠ regKey u off)
    (ht : regKey t (LANE_TEST l) ≠ regKey u off) (he : regKey t (EYE_STAT l) ≠ regKey u off) (ho : off < 0x1000000)
    (hv : eventOff off = false) (live : s.laneLive t l = true) (awake : s.on t (LANE_STAT_IDLE l) = false)
    (hr : s.f t (LANE_CTL_ROLE l) ≠ 3) : (s.laneBlock t l hdr p).word u off = s.word u off := by
  rw [laneBlock_eq live awake hr, laneFramed_word hl hs hh he ho hv, prbsWord_word ht hs ho hv]

theorem does_laneBlockReceive_checks {h : Nat} (hu : s.up t 6 = true) (hl : l < 24) (live : s.laneLive t l = true)
    (awake : s.on t (LANE_STAT_IDLE l) = false) (role : s.f t (LANE_CTL_ROLE l) = 0) : Does (.laneBlockReceive t l h p) s fun r =>
      r.WordsButEvents s [(t, LANE_TEST l), (t, LANE_STAT l), (t, LANE_HDRERR l), (t, EYE_STAT l)] := by
  refine does_lane rfl hu hl ?_
  have other : s.f t (LANE_CTL_ROLE l) ≠ 3 := by simp [role]
  have ctl : (s.laneBlock t l (h % 4) p).f t (LANE_CTL_ROLE l) = 0 := by
    refine (f_of_word (laneBlock_word hl ?_ ?_ ?_ ?_ (laneReg_lt hl) (laneReg_eventOff hl) live awake other)).trans role <;>
      exact regKey_tile_ne t (by simp [LANE_STAT, LANE_HDRERR, LANE_TEST, EYE_STAT, LANE_CTL_ROLE, LANE_CTL])
  rw [laneReceive_eq fun hs => by simp [ctl] at hs]
  intro u off ho hv hn
  obtain ⟨ht, hs, hh, he⟩ := keys_ne hn ho ⟨laneReg_lt hl, laneReg_lt hl, laneReg_lt hl, laneReg_lt hl⟩
  exact (laneBlock_word hl hs hh ht he ho hv live awake other).symm

/-! ### Counters and alignment (R136) -/

theorem does_laneCntClr (hu : s.up t 6 = true) (hl : l < 24) : Does (.laneCntClr t l) s fun r =>
    r.f t (LANE_STAT_LOSSES l) = 0 ∧ r.reg t (LANE_HDRERR l) = 0 ∧ r.f t (LANE_TEST_ERRS l) = 0 ∧ s.OnlyRegs r ∧
    r.WordsBut s [(t, LANE_STAT l), (t, LANE_HDRERR l), (t, LANE_TEST l)] := by
  refine does_lane rfl hu hl ?_
  obtain ⟨losses, headers, errors⟩ := laneCntClr_counts (s := s) (t := t) (l := l)
  have regs : s.OnlyRegs (s.laneCntClr t l) :=
    (((onlyRegs_refl s).setReg t (LANE_STAT l) _).setReg t (LANE_HDRERR l) 0).setReg t (LANE_TEST l) _
  refine ⟨losses, headers, errors, regs, fun u off ho hn => ?_⟩
  obtain ⟨hs, hh, ht⟩ := keys_ne hn ho ⟨laneReg_lt hl, laneReg_lt hl, laneReg_lt hl⟩
  exact (laneCntClr_word hs hh ht).symm

theorem laneAlignWrite_inRange (hc : 4 ≤ bits v 0 7) (hc' : bits v 0 7 ≤ 64) (hw : 64 ≤ bits v 8 13) (hw' : bits v 8 13 ≤ 4096) :
    s.laneAlignWrite t l v = ((s.setF t (LANE_ALIGN_LOSS_CNT l) (bits v 0 7)).setF t (LANE_ALIGN_LOSS_WIN l) (bits v 8 13)).setLane t l
      { s.lane t l with invalid := [] } := by
  unfold State.laneAlignWrite
  simp only [hc, hc', hw, hw', decide_true, Bool.and_self, when_true]
  rfl

theorem does_laneAlignWrite (hu : s.up t 6 = true) (hl : l < 24) (hc : 4 ≤ bits v 0 7) (hc' : bits v 0 7 ≤ 64) (hw : 64 ≤ bits v 8 13)
    (hw' : bits v 8 13 ≤ 4096) : Does (.laneAlignWrite t l v) s fun r =>
      r.f t (LANE_ALIGN_LOSS_CNT l) = bits v 0 7 ∧ r.f t (LANE_ALIGN_LOSS_WIN l) = bits v 8 13 ∧ (r.lane t l).invalid = [] ∧
      r.WordsBut s [(t, LANE_ALIGN l)] := by
  refine does_lane rfl hu hl ?_
  rw [laneAlignWrite_inRange hc hc' hw hw']
  have cnt : bits v 0 7 < 128 := bits_lt v 0 7
  have win : bits v 8 13 < 8192 := bits_lt v 8 13
  refine ⟨?_, ?_, by rw [lane_setLane_same], fun u off ho hn => ?_⟩
  · simp [f_setF_same, f_setF_apart, cnt, LANE_ALIGN_LOSS_CNT, LANE_ALIGN_LOSS_WIN]
  · simp [f_setF_same, win, LANE_ALIGN_LOSS_WIN]
  · have ha := keys_ne (L := [(t, LANE_ALIGN l)]) hn ho (laneReg_lt hl)
    rw [word_setLane, word_setF_ne _ (LANE_ALIGN_LOSS_WIN l) _ ha, word_setF_ne s (LANE_ALIGN_LOSS_CNT l) _ ha]

/-! ### Eye scans (R147, R148) -/

/-- What a write of EYE_CTL stores where no scan runs. -/
def State.eyeCtlSet (s : State) (t l v : Nat) : State :=
  let s := s.setF t (EYE_CTL_H l) (bits v 2 7)
  let s := s.when (bits v 9 7 != 64) fun s => s.setF t (EYE_CTL_V l) (bits v 9 7)
  s.when (20 ≤ bits v 16 6 && bits v 16 6 ≤ 40) fun s => s.setF t (EYE_CTL_WIN l) (bits v 16 6)

theorem eyeCtlSet_word (hc : regKey t (EYE_CTL l) ≠ regKey u off) : (s.eyeCtlSet t l v).word u off = s.word u off := by
  unfold State.eyeCtlSet
  extract_lets q q'
  have hq : q.word u off = s.word u off := word_setF_ne s (EYE_CTL_H l) _ hc
  have hq' : q'.word u off = q.word u off := when_keeps (fun r => r.word u off) q _ _ fun r => word_setF_ne r (EYE_CTL_V l) _ hc
  exact (when_keeps (fun r => r.word u off) q' _ _ fun r => word_setF_ne r (EYE_CTL_WIN l) _ hc).trans (hq'.trans hq)

theorem eyeCtlSet_h : (s.eyeCtlSet t l v).f t (EYE_CTL_H l) = bits v 2 7 := by
  unfold State.eyeCtlSet
  extract_lets q q'
  have hq : q.f t (EYE_CTL_H l) = bits v 2 7 :=
    (f_setF_same s t (EYE_CTL_H l) _ (by simp [EYE_CTL_H])).trans (Nat.mod_eq_of_lt (bits_lt v 2 7))
  have hq' : q'.f t (EYE_CTL_H l) = q.f t (EYE_CTL_H l) := when_keeps (fun r => r.f t (EYE_CTL_H l)) q _ _ fun r =>
    f_setF_apart r t _ (r := EYE_CTL_V l) rfl (by simp [EYE_CTL_V]) (by simp [EYE_CTL_V, EYE_CTL_H])
  exact (when_keeps (fun r => r.f t (EYE_CTL_H l)) q' _ _ fun r =>
    f_setF_apart r t _ (r := EYE_CTL_WIN l) rfl (by simp [EYE_CTL_WIN]) (by simp [EYE_CTL_WIN, EYE_CTL_H])).trans (hq'.trans hq)

theorem onlyRegs_when (b : Bool) {f : State → State} (hf : ∀ q, s.OnlyRegs q → s.OnlyRegs (f q)) (h : s.OnlyRegs r) :
    s.OnlyRegs (r.when b f) := by
  cases b with
  | false => exact h
  | true => exact hf r h

theorem eyeCtlSet_only : s.OnlyRegs (s.eyeCtlSet t l v) := by
  unfold State.eyeCtlSet
  extract_lets q q'
  have hq : s.OnlyRegs q := (onlyRegs_refl s).setReg t (EYE_CTL l) _
  have hq' : s.OnlyRegs q' := onlyRegs_when _ (fun _ h => h.setReg t (EYE_CTL l) _) hq
  clear_value q'
  exact onlyRegs_when _ (fun _ h => h.setReg t (EYE_CTL l) _) hq'

theorem eyeCtlSet_time : (s.eyeCtlSet t l v).time = s.time ∧ (s.eyeCtlSet t l v).now = s.now := by
  have only : s.eyeCtlSet t l v = _ := eyeCtlSet_only
  rw [only]
  exact ⟨rfl, rfl⟩

/-- A lane's clocks run as before where the words that say so are as before. -/
theorem laneLive_congr (en : r.word t (LANE_CTL l) = s.word t (LANE_CTL l)) (isl : r.word t ISL_STAT = s.word t ISL_STAT)
    (clk : r.time = s.time) : r.laneLive t l = s.laneLive t l := by
  have hen := on_of_f (f_of_word (q := LANE_CTL_EN l) en)
  have hisl := f_of_word (q := ISL_STAT_PGOOD) isl
  unfold State.laneLive State.island
  rw [hen, hisl, clk]

/-- A scan starts: its registers show it running with no errors counted, and the tick of its start is kept. -/
def State.eyeStarted (s : State) (t l : Nat) : State :=
  let s := s.setLane t l { s.lane t l with eyeAt := s.now }
  ((s.setF t (EYE_STAT_STATE l) 1).setReg t (EYE_ERR_LO l) 0).setReg t (EYE_ERR_HI l) 0

theorem eyeStarted_eyeAt : ((s.eyeStarted t l).lane t l).eyeAt = s.now := by
  have lanes : (s.eyeStarted t l).lanes = (s.setLane t l { s.lane t l with eyeAt := s.now }).lanes := by
    simp only [State.eyeStarted, setReg_lanes, setF_lanes]
  rw [State.lane, lanes]
  exact congrArg LaneSt.eyeAt (lane_setLane_same s t l _)

/-- A write of EYE_CTL with its fields stored, which a running scan forbids, and STOP done. -/
def State.eyeCtlStored (s : State) (t l v : Nat) : State :=
  (if s.f t (EYE_STAT_STATE l) = 1 then s else s.eyeCtlSet t l v).when (bit v 1) fun s => s.eyeAbort t l

theorem eyeCtlWrite_eq : s.eyeCtlWrite t l v =
    if bit v 0 ∧ ¬s.f t (EYE_STAT_STATE l) = 1 ∧ (s.eyeCtlStored t l v).laneLive t l ∧ (s.eyeCtlStored t l v).laneLocked t l
    then (s.eyeCtlStored t l v).eyeStarted t l else s.eyeCtlStored t l v := rfl

/-- Where no scan runs, STOP does nothing. -/
theorem eyeCtlStored_resting (resting : s.f t (EYE_STAT_STATE l) ≠ 1) : s.eyeCtlStored t l v = s.eyeCtlSet t l v := by
  have state : (s.eyeCtlSet t l v).f t (EYE_STAT_STATE l) = s.f t (EYE_STAT_STATE l) :=
    f_of_word (eyeCtlSet_word (regKey_tile_ne t (by simp [EYE_CTL, EYE_STAT_STATE, EYE_STAT])))
  have none : (s.eyeCtlSet t l v).eyeAbort t l = s.eyeCtlSet t l v := by
    unfold State.eyeAbort
    rw [state, beq_false_of_ne resting, when_false]
  unfold State.eyeCtlStored
  rw [if_neg resting]
  cases bit v 1 with
  | false => rw [when_false]
  | true => rw [when_true, none]

theorem eyeCtlWrite_starts (live : s.laneLive t l = true) (locked : s.on t (LANE_STAT_LOCKED l) = true)
    (resting : s.f t (EYE_STAT_STATE l) ≠ 1) (start : bit v 0 = true) : s.eyeCtlWrite t l v = (s.eyeCtlSet t l v).eyeStarted t l := by
  have lives : (s.eyeCtlSet t l v).laneLive t l = true := by
    rw [laneLive_congr (eyeCtlSet_word (regKey_tile_ne t (by simp [EYE_CTL, LANE_CTL])))
      (eyeCtlSet_word (regKey_tile_ne t (by unfold EYE_CTL ISL_STAT; omega))) eyeCtlSet_time.1, live]
  have locks : (s.eyeCtlSet t l v).laneLocked t l = true :=
    (on_of_f (f_of_word (eyeCtlSet_word (regKey_tile_ne t (by simp [EYE_CTL, LANE_STAT_LOCKED, LANE_STAT]))))).trans locked
  rw [eyeCtlWrite_eq, eyeCtlStored_resting resting, if_pos ⟨start, resting, lives, locks⟩]

/-- Setting a bit below a field leaves the field. -/
theorem bits_orBit_below (m : Nat) {i lo : Nat} (w : Nat) (h : i < lo) : bits (orBit m i) lo w = bits m lo w := by
  apply Nat.eq_of_testBit_eq
  intro j
  rw [testBit_bits, testBit_bits, orBit_testBit]
  simp [show i ≠ lo + j by omega]

theorem does_eyeScanStart (hu : s.up t 6 = true) (hl : l < 24) (live : s.laneLive t l = true) (locked : s.on t (LANE_STAT_LOCKED l) = true)
    (resting : s.f t (EYE_STAT_STATE l) ≠ 1) : Does (.eyeScanStart t l v) s fun r =>
      r.f t (EYE_STAT_STATE l) = 1 ∧ r.f t (EYE_CTL_H l) = bits v 2 7 ∧ r.reg t (EYE_ERR_LO l) = 0 ∧ r.reg t (EYE_ERR_HI l) = 0 ∧
      (r.lane t l).eyeAt = s.now ∧ r.WordsBut s [(t, EYE_CTL l), (t, EYE_STAT l), (t, EYE_ERR_LO l), (t, EYE_ERR_HI l)] := by
  refine does_lane rfl hu hl ?_
  rw [eyeCtlWrite_starts live locked resting (bit_orBit v 0)]
  have h := eyeCtlSet_h (s := s) (t := t) (l := l) (v := orBit v 0)
  have now := (eyeCtlSet_time (s := s) (t := t) (l := l) (v := orBit v 0)).2
  have word : ∀ {u off}, regKey t (EYE_CTL l) ≠ regKey u off → (s.eyeCtlSet t l (orBit v 0)).word u off = s.word u off := eyeCtlSet_word
  generalize s.eyeCtlSet t l (orBit v 0) = q at *
  refine ⟨?_, ?_, ?_, ?_, eyeStarted_eyeAt.trans now, fun u off ho hn => ?_⟩ <;> unfold State.eyeStarted
  · simp [f_setReg_tile_ne, f_setF_same, EYE_STAT_STATE, EYE_ERR_HI, EYE_ERR_LO, EYE_STAT]
  · rw [bits_orBit_below v 7 (by decide)] at h
    simpa [f_setReg_tile_ne, f_setF_tile_ne, EYE_CTL_H, EYE_STAT_STATE, EYE_CTL, EYE_ERR_HI, EYE_ERR_LO, EYE_STAT] using h
  · simp [reg_setReg_tile_ne, reg_setReg_same, EYE_ERR_HI, EYE_ERR_LO]
  · exact reg_setReg_same ..
  · obtain ⟨hc, hs, hlo, hhi⟩ := keys_ne hn ho ⟨laneReg_lt hl, laneReg_lt hl, laneReg_lt hl, laneReg_lt hl⟩
    rw [word_setReg_ne _ 0 hhi, word_setReg_ne _ 0 hlo, word_setF_ne _ (EYE_STAT_STATE l) 1 hs, word_setLane, word hc]

theorem eyeCtlWrite_stops (running : s.f t (EYE_STAT_STATE l) = 1) (stop : bit v 1 = true) :
    s.eyeCtlWrite t l v = s.setF t (EYE_STAT_STATE l) 3 := by
  rw [eyeCtlWrite_eq, if_neg fun h => h.2.1 running, State.eyeCtlStored, if_pos running, stop, when_true, State.eyeAbort, running]
  rfl

theorem does_eyeScanStop (hu : s.up t 6 = true) (hl : l < 24) (running : s.f t (EYE_STAT_STATE l) = 1) : Does (.eyeScanStop t l v) s fun r =>
    r.f t (EYE_STAT_STATE l) = 3 ∧ r.WordsBut s [(t, EYE_STAT l)] ∧ s.OnlyRegs r := by
  refine does_lane rfl hu hl ?_
  rw [eyeCtlWrite_stops running (bit_orBit v 1)]
  refine ⟨f_setF_same s t (EYE_STAT_STATE l) 3 (by simp [EYE_STAT_STATE]), fun u off ho hn => ?_, (onlyRegs_refl s).setReg t (EYE_STAT l) _⟩
  exact (word_setF_ne s (EYE_STAT_STATE l) 3 (keys_ne (L := [(t, EYE_STAT l)]) hn ho (laneReg_lt hl))).symm

theorem does_eyeScanDone_early {errs : Nat} (hu : s.up t 6 = true) (hl : l < 24)
    (early : s.laneUi t l (s.now - (s.lane t l).eyeAt) < 2 ^ s.f t (EYE_CTL_WIN l)) : Does (.eyeScanDone t l errs) s fun r => r = s :=
  does_lane rfl hu hl (if_neg fun h => Nat.not_le.2 early h.2)

theorem does_eyeScanDone {errs : Nat} (hu : s.up t 6 = true) (hl : l < 24) (running : s.f t (EYE_STAT_STATE l) = 1)
    (due : 2 ^ s.f t (EYE_CTL_WIN l) ≤ s.laneUi t l (s.now - (s.lane t l).eyeAt)) : Does (.eyeScanDone t l errs) s fun r =>
      r.f t (EYE_STAT_STATE l) = 2 ∧ r.reg64 t (EYE_ERR_LO l) = min errs (2 ^ s.f t (EYE_CTL_WIN l)) % 2 ^ 40 ∧ r.evtStat t 59 = true ∧
      r.WordsButEvents s [(t, EYE_STAT l), (t, EYE_ERR_LO l), (t, EYE_ERR_HI l)] := by
  refine does_lane rfl hu hl ?_
  have small : min errs (2 ^ s.f t (EYE_CTL_WIN l)) % 2 ^ 40 < 2 ^ 40 := Nat.mod_lt _ (by decide)
  have done : s.eyeDone t l errs = (((s.setReg t (EYE_ERR_LO l) (min errs (2 ^ s.f t (EYE_CTL_WIN l)) % 2 ^ 40 % 2 ^ 32)).setReg t (EYE_ERR_HI l)
      (min errs (2 ^ s.f t (EYE_CTL_WIN l)) % 2 ^ 40 / 2 ^ 32)).setF t (EYE_STAT_STATE l) 2).raise t 59 := if_pos ⟨running, due⟩
  rw [done]
  generalize min errs (2 ^ s.f t (EYE_CTL_WIN l)) % 2 ^ 40 = e at *
  have hi : EYE_ERR_LO l + 4 = EYE_ERR_HI l := by
    unfold EYE_ERR_LO EYE_ERR_HI
    omega
  refine ⟨?_, ?_, raise_stat _ t 59 (by decide), fun u off ho hv hn => ?_⟩
  · rw [f_raise _ t 59 t _ (by decide) (laneReg_lt hl) (laneReg_eventOff hl)]
    exact f_setF_same _ t (EYE_STAT_STATE l) 2 (by simp [EYE_STAT_STATE])
  · unfold State.reg64
    rw [hi, reg_raise _ t 59 t (EYE_ERR_LO l) (by decide) (laneReg_lt hl) (laneReg_eventOff hl),
      reg_raise _ t 59 t (EYE_ERR_HI l) (by decide) (laneReg_lt hl) (laneReg_eventOff hl)]
    have hlo : EYE_STAT l ≠ EYE_ERR_LO l := by simp [EYE_STAT, EYE_ERR_LO]
    have hhi : EYE_STAT l ≠ EYE_ERR_HI l := by simp [EYE_STAT, EYE_ERR_HI]
    have apart : EYE_ERR_HI l ≠ EYE_ERR_LO l := by omega
    simp only [reg_setF_tile_ne, reg_setReg_tile_ne, reg_setReg_same, EYE_STAT_STATE, ne_eq, hlo, hhi, apart, not_false_eq_true]
    omega
  · obtain ⟨hs, hlo, hhi⟩ := keys_ne hn ho ⟨laneReg_lt hl, laneReg_lt hl, laneReg_lt hl⟩
    rw [word_raise _ t 59 u off (by decide) ho hv, word_setF_ne _ (EYE_STAT_STATE l) 2 hs, word_setReg_ne _ _ hhi, word_setReg_ne s _ hlo]

/-! ### Errors of a test pattern (R151) -/

/-- The first error since the checker locked, but for its event. -/
def State.prbsFirst (s : State) (t l : Nat) : State :=
  ((s.addF t (LANE_TEST_ERRS l) 1).setLane t l { s.lane t l with prbsErr := true }).setB t (LANE_STAT_PRBS_ERR l) true

theorem prbsMiss_first (first : (s.lane t l).prbsErr = false) : s.prbsMiss t l = (s.prbsFirst t l).raise t 60 :=
  if_neg (Bool.eq_false_iff.1 first)

theorem prbsFirst_word (ht : regKey t (LANE_TEST l) ≠ regKey u off) (hs : regKey t (LANE_STAT l) ≠ regKey u off) :
    (s.prbsFirst t l).word u off = s.word u off := by
  unfold State.prbsFirst
  rw [word_setB_ne _ (r := LANE_STAT_PRBS_ERR l) true hs, word_setLane, word_addF_ne s (r := LANE_TEST_ERRS l) 1 ht]

theorem prbsFirst_errs : (s.prbsFirst t l).f t (LANE_TEST_ERRS l) = min (2 ^ 24 - 1) (s.f t (LANE_TEST_ERRS l) + 1) := by
  unfold State.prbsFirst
  rw [f_setB_tile_ne _ t true (by simp [LANE_STAT_PRBS_ERR, LANE_TEST_ERRS, LANE_STAT, LANE_TEST]), f_setLane]
  exact addF_same s t (LANE_TEST_ERRS l) 1 (by simp [LANE_TEST_ERRS])

/-- The checker as an error after n correct bits finds it: 64 of them lock it. -/
def State.prbsChecked (s : State) (t l n : Nat) : State := s.when (64 ≤ n) fun s => s.setB t (LANE_TEST_CHK_LOCK l) true

theorem prbsChecked_word {n : Nat} (ht : regKey t (LANE_TEST l) ≠ regKey u off) : (s.prbsChecked t l n).word u off = s.word u off :=
  when_keeps (fun r => r.word u off) s _ _ fun r => word_setB_ne r (r := LANE_TEST_CHK_LOCK l) true ht

theorem prbsChecked_errs {n : Nat} : (s.prbsChecked t l n).f t (LANE_TEST_ERRS l) = s.f t (LANE_TEST_ERRS l) :=
  when_keeps (fun r => r.f t (LANE_TEST_ERRS l)) s _ _ fun r =>
    f_setB_apart r t true (r := LANE_TEST_CHK_LOCK l) rfl (by simp [LANE_TEST_CHK_LOCK]) (by simp [LANE_TEST_CHK_LOCK, LANE_TEST_ERRS])

theorem prbsChecked_locked {n : Nat} (locked : s.on t (LANE_TEST_CHK_LOCK l) = true) :
    (s.prbsChecked t l n).on t (LANE_TEST_CHK_LOCK l) = true := by
  unfold State.prbsChecked
  cases decide (64 ≤ n) with
  | false => exact locked
  | true => exact on_setB_same s t _ true (by simp [LANE_TEST_CHK_LOCK]) (by simp [LANE_TEST_CHK_LOCK])

theorem prbsError_first {n : Nat} (live : s.laneLive t l = true) (role : s.f t (LANE_CTL_ROLE l) = 0) (chk : s.f t (LANE_TEST_CHK l) ≠ 0)
    (locked : s.on t (LANE_TEST_CHK_LOCK l) = true) (first : (s.lane t l).prbsErr = false) :
    s.prbsError t l n = ((s.prbsChecked t l n).prbsFirst t l).raise t 60 := by
  have lanes : (s.prbsChecked t l n).lane t l = s.lane t l := when_keeps (fun r => r.lane t l) s _ _ fun _ => rfl
  rw [← prbsMiss_first ((congrArg LaneSt.prbsErr lanes).trans first)]
  exact (if_neg (by simp [live, role, chk])).trans (if_pos (prbsChecked_locked locked))

theorem does_prbsCheckError {n : Nat} (hu : s.up t 6 = true) (hl : l < 24) (live : s.laneLive t l = true)
    (role : s.f t (LANE_CTL_ROLE l) = 0) (chk : s.f t (LANE_TEST_CHK l) ≠ 0) (locked : s.on t (LANE_TEST_CHK_LOCK l) = true)
    (first : (s.lane t l).prbsErr = false) : Does (.prbsCheckError t l n) s fun r =>
      r.f t (LANE_TEST_ERRS l) = min (2 ^ 24 - 1) (s.f t (LANE_TEST_ERRS l) + 1) ∧ r.on t (LANE_STAT_PRBS_ERR l) = true ∧
      r.evtStat t 60 = true ∧ r.WordsButEvents s [(t, LANE_TEST l), (t, LANE_STAT l)] := by
  refine does_lane rfl hu hl ?_
  rw [prbsError_first live role chk locked first]
  have raised : ∀ q : FRef, q.off < 0x1000000 → eventOff q.off = false →
      (((s.prbsChecked t l n).prbsFirst t l).raise t 60).f t q = ((s.prbsChecked t l n).prbsFirst t l).f t q :=
    fun q ho hv => f_raise _ t 60 t q (by decide) ho hv
  refine ⟨?_, ?_, raise_stat _ t 60 (by decide), fun u off ho hv hn => ?_⟩
  · rw [raised _ (laneReg_lt hl) (laneReg_eventOff hl), prbsFirst_errs, prbsChecked_errs]
  · rw [on_of_f (raised _ (laneReg_lt hl) (laneReg_eventOff hl))]
    exact on_setB_same _ t _ true (by simp [LANE_STAT_PRBS_ERR]) (by simp [LANE_STAT_PRBS_ERR])
  · obtain ⟨ht, hs⟩ := keys_ne hn ho ⟨laneReg_lt hl, laneReg_lt hl⟩
    rw [word_raise _ t 60 u off (by decide) ho hv, prbsFirst_word ht hs, prbsChecked_word ht]

end

/-- Settles O34: each command's lemma above gives its part (R132, R134 to R136, R147, R148, R151). -/
theorem laneTrafficCommandsComplete : Obligations.LaneTrafficCommandsComplete := by
  intro t l s hu hl x live checks hears
  exact ⟨fun _ ⟨lives, awake, hr, unchecked⟩ locked => does_laneBlockReceive_locked lives awake hr unchecked hu hl locked,
    fun _ ⟨lives, awake, hr, unchecked⟩ unlocked hunts valid =>
      does_laneBlockReceive_counts lives awake hr unchecked hu hl unlocked hunts valid,
    fun _ ⟨lives, awake, hr, unchecked⟩ unlocked hunts valid =>
      does_laneBlockReceive_locks lives awake hr unchecked hu hl unlocked hunts valid,
    fun _ _ ⟨lives, awake, hr, unchecked⟩ bad unlocked hunts =>
      does_laneBlockReceive_slips lives awake hr unchecked hu hl bad unlocked hunts,
    fun _ _ ⟨lives, awake, hr, unchecked⟩ bad locked room => does_laneBlockReceive_bad lives awake hr unchecked hu hl bad locked room,
    fun _ _ lives awake ⟨role, _⟩ => does_laneBlockReceive_checks hu hl lives awake role,
    fun st _ hp => descramble_scramble_block st hp,
    does_laneCntClr hu hl,
    fun _ hc hc' hw hw' => does_laneAlignWrite hu hl hc hc' hw hw',
    fun _ lives locked resting => does_eyeScanStart hu hl lives locked resting,
    fun _ running => does_eyeScanStop hu hl running,
    fun _ early => does_eyeScanDone_early hu hl early,
    fun _ running due => does_eyeScanDone hu hl running due,
    fun _ lives role chk locked first => does_prbsCheckError hu hl lives role chk locked first⟩

end Sys2Proof.Machine

/-!
# Sensor ingress: the registers of the block ADIT

The rules that the commands of chapter 6 share: how such a command opens, where the block's registers lie, what an occurrence leaves of
them.
-/

namespace Sys2Proof.Machine

section
variable {s r : State} {t u p off k : Nat}

/-- A command of a port does its effect where the PIX island is live. -/
theorem does_adit {i : Instr} {f : State → State} {P : State → Prop} (h : exec i s = s.finish (s.when (s.live t 1 && decide (p < 4)) f))
    (hl : s.live t 1 = true) (hp : p < 4) (h' : P (f s)) : Does i s P := does_when h (by simp [hl, hp]) h'

/-- An offset of the block ADIT. -/
def aditOff (off : Nat) : Prop := 0x60000 ≤ off ∧ off < 0x70000

theorem aditOff_of {a b : Nat} (hp : p < 4) (h : 0x60000 ≤ a ∧ a + b * 3 < 0x70000 := by decide) : aditOff (a + b * p) := by
  have : b * p ≤ b * 3 := Nat.mul_le_mul_left b (by omega)
  exact ⟨by omega, by omega⟩

/-- The active copy of a bench word of a port lies in the block. -/
theorem aditOff_act {a : Nat} (hp : p < 4) (h : 0x60000 ≤ a ∧ a < 0x60100 := by decide) : aditOff (a + 0x100 * p + 0x8000) := by
  unfold aditOff
  omega

theorem aditOff.lt (h : aditOff off) : off < 0x1000000 := Nat.lt_trans h.2 (by decide)

theorem aditOff.eventOff (h : aditOff off) : eventOff off = false := by
  obtain ⟨low, _⟩ := h
  simp only [Machine.eventOff, Bool.and_eq_false_iff, decide_eq_false_iff_not]
  omega

theorem f_raise_adit {id : Nat} {q : FRef} (hid : id < 320) (h : aditOff q.off) : (s.raise t id).f u q = s.f u q :=
  f_raise s t id u q hid h.lt h.eventOff

theorem on_raise_adit {id : Nat} {q : FRef} (hid : id < 320) (h : aditOff q.off) : (s.raise t id).on u q = s.on u q :=
  on_of_f (f_raise_adit hid h)

/-- A word that a list of one register does not name. -/
theorem key_ne {q : FRef} (hn : (u, off) ∉ [(t, q.off)]) (ho : off < 0x1000000) (h : aditOff q.off) : regKey t q.off ≠ regKey u off :=
  keys_ne (L := [(t, q.off)]) hn ho h.lt

end

end Sys2Proof.Machine

/-!
# Sensor control

O37: SPI and I2C transfers (R179, R180). The two controllers end a transfer in one way, by the rule of `State.transferEnds`.
-/

namespace Sys2Proof.Machine

/-! ### The FIFOs -/

/-- Bytes enter a FIFO that has room for them in their order. -/
theorem fifoPush_room (bs l : List Nat) (room : l.length + bs.length ≤ 64) (bytes : ∀ b ∈ bs, b < 256) : bs.foldl fifoPush l = l ++ bs := by
  induction bs generalizing l with
  | nil => simp
  | cons b bs ih =>
    rw [List.length_cons] at room
    have first : fifoPush l b = l ++ [b] := by
      unfold fifoPush
      rw [if_pos (by omega), Nat.mod_eq_of_lt (bytes b (by simp))]
    rw [List.foldl_cons, first, ih _ (by simp; omega) fun c hc => bytes c (by simp [hc])]
    simp

/-! ### The end of a transfer -/

/-- BUSY, bit 0 of a controller's status word, falls, another flag of the word rises, and an event occurs. -/
def State.transferEnds (s : State) (t off flag id : Nat) : State :=
  ((s.setB t ⟨off, 0, 1⟩ false).setB t ⟨off, flag, 1⟩ true).raise t id

section
variable {s : State} {t off flag id : Nat}

/-- What the end of a transfer shows, and that it touches the status word and events alone. -/
structure State.TransferEnded (s r : State) (t off flag id : Nat) : Prop where
  busy : r.on t ⟨off, 0, 1⟩ = false
  flag : r.on t ⟨off, flag, 1⟩ = true
  event : r.evtStat t id = true
  adit : r.adit = s.adit
  words : r.WordsButEvents s [(t, off)]

theorem transferEnds_ended (ho : aditOff off) (hf : 1 ≤ flag ∧ flag < 32) (hid : id < 320) :
    s.TransferEnded (s.transferEnds t off flag id) t off flag id := by
  obtain ⟨low, high⟩ := hf
  refine ⟨?_, ?_, raise_stat _ t id hid, raise_adit _ t id hid, fun u o hlt hv hn => ?_⟩
  · have kept := on_setB_apart (s.setB t ⟨off, 0, 1⟩ false) (r := ⟨off, flag, 1⟩) (q := ⟨off, 0, 1⟩) t true rfl high (Or.inr low)
    exact (on_raise_adit hid ho).trans (kept.trans (on_setB_same s t ⟨off, 0, 1⟩ false (by simp) (by simp)))
  · exact (on_raise_adit hid ho).trans (on_setB_same _ t ⟨off, flag, 1⟩ true high (by simp))
  · have apart : regKey t off ≠ regKey u o := keys_ne (L := [(t, off)]) hn hlt ho.lt
    exact ((word_raise _ t id u o hid hlt hv).trans ((word_setB_ne _ (r := ⟨off, flag, 1⟩) true apart).trans
      (word_setB_ne s (r := ⟨off, 0, 1⟩) false apart))).symm

end

/-! ### The commands -/

section
variable {s : State} {t p v : Nat}

theorem spiStart_idle (hb : s.on t (SPI_STAT_BUSY p) = false) (low : 1 ≤ bits v 0 7) (high : bits v 0 7 ≤ 64) : s.spiStart t p v =
    ((s.setF t (SPI_CMD_LEN p) (bits v 0 7)).setF t (SPI_CMD_CS p) (bits v 7 1)).setB t (SPI_STAT_BUSY p) true := by
  unfold State.spiStart
  simp [hb, low, high]

theorem does_spiStart (hl : s.live t 1 = true) (hp : p < 4) (hb : s.on t (SPI_STAT_BUSY p) = false) (low : 1 ≤ bits v 0 7)
    (high : bits v 0 7 ≤ 64) : Does (.spiStart t p v) s fun r =>
      r.on t (SPI_STAT_BUSY p) = true ∧ r.f t (SPI_CMD_LEN p) = bits v 0 7 ∧ r.f t (SPI_CMD_CS p) = bits v 7 1 ∧ s.OnlyRegs r ∧
      r.WordsBut s [(t, SPI_CMD p), (t, SPI_STAT p)] := by
  refine does_adit rfl hl hp ?_
  rw [spiStart_idle hb low high]
  have other : (SPI_STAT_BUSY p).off ≠ SPI_CMD p := by simp [SPI_STAT_BUSY, SPI_STAT, SPI_CMD]
  refine ⟨on_setB_same _ t _ true (by simp [SPI_STAT_BUSY]) (by simp [SPI_STAT_BUSY]), ?_, ?_, rfl, fun u off ho hn => ?_⟩
  · have apart := f_setF_apart (s.setF t (SPI_CMD_LEN p) (bits v 0 7)) t (r := SPI_CMD_CS p) (q := SPI_CMD_LEN p) (bits v 7 1) rfl
      (by simp [SPI_CMD_CS]) (by simp [SPI_CMD_CS, SPI_CMD_LEN])
    rw [f_setB_tile_ne _ t _ other, apart, f_setF_same _ t (SPI_CMD_LEN p) _ (by simp [SPI_CMD_LEN])]
    exact Nat.mod_eq_of_lt (bits_lt ..)
  · rw [f_setB_tile_ne _ t _ other, f_setF_same _ t (SPI_CMD_CS p) _ (by simp [SPI_CMD_CS])]
    exact Nat.mod_eq_of_lt (bits_lt ..)
  · obtain ⟨cmd, stat⟩ := keys_ne hn ho ⟨(aditOff_of hp).lt, (aditOff_of hp).lt⟩
    exact ((word_setB_ne _ (r := SPI_STAT_BUSY p) true stat).trans ((word_setF_ne _ (SPI_CMD_CS p) _ cmd).trans (word_setF_ne s (SPI_CMD_LEN p) _ cmd))).symm

theorem does_spiStart_busy (hl : s.live t 1 = true) (hp : p < 4) (hb : s.on t (SPI_STAT_BUSY p) = true) :
    Does (.spiStart t p v) s fun r => r = s := does_adit rfl hl hp (if_pos hb)

theorem spiDone_busy {rx : List Nat} (hb : s.on t (SPI_STAT_BUSY p) = true) : s.spiDone t p rx =
    (s.setSpiQ t p { tx := (s.spiQ t p).tx.drop (s.f t (SPI_CMD_LEN p)),
                     rx := (rx.take (s.f t (SPI_CMD_LEN p))).foldl fifoPush (s.spiQ t p).rx }).transferEnds t (SPI_STAT p) 1 82 :=
  if_neg (not_not.2 hb)

theorem does_spiDone {rx : List Nat} (hl : s.live t 1 = true) (hp : p < 4) (hb : s.on t (SPI_STAT_BUSY p) = true)
    (room : (s.spiQ t p).rx.length + rx.length ≤ 64) (len : rx.length = s.f t (SPI_CMD_LEN p)) (bytes : ∀ b ∈ rx, b < 256) :
    Does (.spiDone t p rx) s fun r =>
      r.on t (SPI_STAT_BUSY p) = false ∧ r.on t (SPI_STAT_DONE p) = true ∧ r.evtStat t 82 = true ∧
      r.spiQ t p = { tx := (s.spiQ t p).tx.drop rx.length, rx := (s.spiQ t p).rx ++ rx } ∧ r.WordsButEvents s [(t, SPI_STAT p)] := by
  refine does_adit rfl hl hp ?_
  rw [spiDone_busy hb, ← len, List.take_length, fifoPush_room rx _ room bytes]
  generalize hq : s.setSpiQ t p _ = q
  obtain ⟨busy, done, event, adit, words⟩ := transferEnds_ended (s := q) (t := t) (off := SPI_STAT p) (flag := 1) (id := 82)
    (aditOff_of hp) (by decide) (by decide)
  refine ⟨busy, done, event, ?_, ?_⟩
  · have kept : (q.transferEnds t (SPI_STAT p) 1 82).spiQ t p = q.spiQ t p := congrArg (fun a : AditSt => smGet a.spi (tk t p) {}) adit
    rw [kept, ← hq, spiQ_setSpiQ_same]
  · subst hq
    exact words

/-- The fields of a START of I2C, and BUSY. -/
theorem i2cStart_idle (hb : s.on t (I2C_STAT_BUSY p) = false) (hw : bits v 8 7 ≤ 64) (hr : bits v 16 7 ≤ 64) : s.i2cStart t p v =
    ((((s.setF t (I2C_CMD_ADDR p) (bits v 0 7)).setF t (I2C_CMD_WLEN p) (bits v 8 7)).setF t (I2C_CMD_RLEN p) (bits v 16 7)).setPeriod 10
      (4 * t + p)).setB t (I2C_STAT_BUSY p) true := by
  unfold State.i2cStart
  simp [hb, hw, hr]

theorem does_i2cStart (hl : s.live t 1 = true) (hp : p < 4) (hb : s.on t (I2C_STAT_BUSY p) = false) (hw : bits v 8 7 ≤ 64)
    (hr : bits v 16 7 ≤ 64) : Does (.i2cStart t p v) s fun r =>
      r.on t (I2C_STAT_BUSY p) = true ∧ r.f t (I2C_CMD_ADDR p) = bits v 0 7 ∧ r.f t (I2C_CMD_WLEN p) = bits v 8 7 ∧
      r.f t (I2C_CMD_RLEN p) = bits v 16 7 ∧ s.OnlyRegs { r with time := s.time } ∧ r.WordsBut s [(t, I2C_CMD p), (t, I2C_STAT p)] := by
  refine does_adit rfl hl hp ?_
  rw [i2cStart_idle hb hw hr]
  generalize hq : ((s.setF t (I2C_CMD_ADDR p) (bits v 0 7)).setF t (I2C_CMD_WLEN p) (bits v 8 7)).setF t (I2C_CMD_RLEN p) (bits v 16 7) = q
  have fields : q.f t (I2C_CMD_ADDR p) = bits v 0 7 ∧ q.f t (I2C_CMD_WLEN p) = bits v 8 7 ∧ q.f t (I2C_CMD_RLEN p) = bits v 16 7 := by
    have small : ∀ lo, bits v lo 7 < 128 := fun lo => bits_lt v lo 7
    subst hq
    simp [f_setF_apart, f_setF_same, I2C_CMD_ADDR, I2C_CMD_WLEN, I2C_CMD_RLEN, small]
  obtain ⟨addr, wlen, rlen⟩ := fields
  have shown : ∀ f : FRef, f.off = I2C_CMD p → ((q.setPeriod 10 (4 * t + p)).setB t (I2C_STAT_BUSY p) true).f t f = q.f t f := fun f hf =>
    (f_setB_tile_ne (q.setPeriod 10 (4 * t + p)) t true (by simp [hf, I2C_STAT_BUSY, I2C_STAT, I2C_CMD])).trans (f_congr rfl)
  refine ⟨on_setB_same _ t _ true (by simp [I2C_STAT_BUSY]) (by simp [I2C_STAT_BUSY]), ?_, ?_, ?_, ?_, fun u off ho hn => ?_⟩
  · rw [shown _ rfl, addr]
  · rw [shown _ rfl, wlen]
  · rw [shown _ rfl, rlen]
  · have only : q = { s with regs := q.regs } := by
      rw [← hq]
      exact (((onlyRegs_refl s).setReg t (I2C_CMD p) _).setReg t (I2C_CMD p) _).setReg t (I2C_CMD p) _
    have shown := congrArg (fun x : State =>
      ({ x with regs := ((q.setPeriod 10 (4 * t + p)).setB t (I2C_STAT_BUSY p) true).regs, time := s.time } : State)) only
    exact shown
  · obtain ⟨cmd, stat⟩ := keys_ne hn ho ⟨(aditOff_of hp).lt, (aditOff_of hp).lt⟩
    have written : q.word u off = s.word u off := by
      subst hq
      exact (word_setF_ne _ (I2C_CMD_RLEN p) _ cmd).trans ((word_setF_ne _ (I2C_CMD_WLEN p) _ cmd).trans (word_setF_ne s (I2C_CMD_ADDR p) _ cmd))
    exact ((word_setB_ne (q.setPeriod 10 (4 * t + p)) (r := I2C_STAT_BUSY p) true stat).trans written).symm

theorem i2cDone_acked {n : Nat} {rx : List Nat} (hb : s.on t (I2C_STAT_BUSY p) = true) : s.i2cDone t p false n rx =
    (s.setI2cQ t p { tx := (s.i2cQ t p).tx.drop (s.f t (I2C_CMD_WLEN p)),
                     rx := (rx.take (s.f t (I2C_CMD_RLEN p))).foldl fifoPush (s.i2cQ t p).rx }).transferEnds t (I2C_STAT p) 1 83 :=
  if_neg (not_not.2 hb)

theorem i2cDone_nacked {n : Nat} {rx : List Nat} (hb : s.on t (I2C_STAT_BUSY p) = true) : s.i2cDone t p true n rx =
    (s.setI2cQ t p { tx := (s.i2cQ t p).tx.drop (min n (s.f t (I2C_CMD_WLEN p))), rx := (s.i2cQ t p).rx }).transferEnds t (I2C_STAT p) 2 84 :=
  if_neg (not_not.2 hb)

theorem does_i2cDone {n : Nat} {rx : List Nat} (hl : s.live t 1 = true) (hp : p < 4) (hb : s.on t (I2C_STAT_BUSY p) = true)
    (room : (s.i2cQ t p).rx.length + rx.length ≤ 64) (len : rx.length = s.f t (I2C_CMD_RLEN p)) (bytes : ∀ b ∈ rx, b < 256) :
    Does (.i2cDone t p false n rx) s fun r =>
      r.on t (I2C_STAT_BUSY p) = false ∧ r.on t (I2C_STAT_DONE p) = true ∧ r.evtStat t 83 = true ∧
      r.i2cQ t p = { tx := (s.i2cQ t p).tx.drop (s.f t (I2C_CMD_WLEN p)), rx := (s.i2cQ t p).rx ++ rx } ∧
      r.WordsButEvents s [(t, I2C_STAT p)] := by
  refine does_adit rfl hl hp ?_
  rw [i2cDone_acked hb, ← len, List.take_length, fifoPush_room rx _ room bytes]
  generalize hq : s.setI2cQ t p _ = q
  obtain ⟨busy, done, event, adit, words⟩ := transferEnds_ended (s := q) (t := t) (off := I2C_STAT p) (flag := 1) (id := 83)
    (aditOff_of hp) (by decide) (by decide)
  refine ⟨busy, done, event, ?_, ?_⟩
  · have kept : (q.transferEnds t (I2C_STAT p) 1 83).i2cQ t p = q.i2cQ t p := congrArg (fun a : AditSt => smGet a.i2c (tk t p) {}) adit
    rw [kept, ← hq, i2cQ_setI2cQ_same]
  · subst hq
    exact words

theorem does_i2cDone_nack {n : Nat} {rx : List Nat} (hl : s.live t 1 = true) (hp : p < 4) (hb : s.on t (I2C_STAT_BUSY p) = true) :
    Does (.i2cDone t p true n rx) s fun r =>
      r.on t (I2C_STAT_BUSY p) = false ∧ r.on t (I2C_STAT_NACK p) = true ∧ r.evtStat t 84 = true ∧ (r.i2cQ t p).rx = (s.i2cQ t p).rx ∧
      r.WordsButEvents s [(t, I2C_STAT p)] := by
  refine does_adit rfl hl hp ?_
  rw [i2cDone_nacked hb]
  generalize hq : s.setI2cQ t p _ = q
  obtain ⟨busy, nack, event, adit, words⟩ := transferEnds_ended (s := q) (t := t) (off := I2C_STAT p) (flag := 2) (id := 84)
    (aditOff_of hp) (by decide) (by decide)
  refine ⟨busy, nack, event, ?_, ?_⟩
  · have kept : (q.transferEnds t (I2C_STAT p) 2 84).i2cQ t p = q.i2cQ t p := congrArg (fun a : AditSt => smGet a.i2c (tk t p) {}) adit
    rw [kept, ← hq, i2cQ_setI2cQ_same]
  · subst hq
    exact words

theorem does_i2cTimeout_early (hl : s.live t 1 = true) (hp : p < 4) (early : s.periodDue 10 (4 * t + p) (10000 * usTicks) = false) :
    Does (.i2cTimeout t p) s (· = s) := does_adit rfl hl hp (if_pos (Or.inr (by simp [early])))

theorem does_i2cTimeout (hl : s.live t 1 = true) (hp : p < 4) (hb : s.on t (I2C_STAT_BUSY p) = true)
    (due : s.periodDue 10 (4 * t + p) (10000 * usTicks) = true) : Does (.i2cTimeout t p) s fun r =>
      r.on t (I2C_STAT_BUSY p) = false ∧ r.on t (I2C_STAT_TIMEOUT p) = true ∧ r.evtStat t 84 = true ∧ r.adit = s.adit ∧
      r.WordsButEvents s [(t, I2C_STAT p)] := by
  refine does_adit rfl hl hp ?_
  have ends : s.i2cTimeout t p = s.transferEnds t (I2C_STAT p) 3 84 := if_neg (by simp [hb, due])
  rw [ends]
  obtain ⟨busy, timeout, event, adit, words⟩ := transferEnds_ended (s := s) (t := t) (off := I2C_STAT p) (flag := 3) (id := 84)
    (aditOff_of hp) (by decide) (by decide)
  exact ⟨busy, timeout, event, adit, words⟩

end

/-- Settles O37: each command's lemma above gives its part (R179, R180). -/
theorem sensorControlCommandsComplete : Obligations.SensorControlCommandsComplete := by
  intro t p s hl hp
  exact ⟨fun _ hb low high => does_spiStart hl hp hb low high, fun _ hb => does_spiStart_busy hl hp hb,
    fun _ hb room len bytes => does_spiDone hl hp hb room len bytes, fun _ hb hw hr => does_i2cStart hl hp hb hw hr,
    fun _ _ hb room len bytes => does_i2cDone hl hp hb room len bytes, fun _ _ hb => does_i2cDone_nack hl hp hb,
    fun early => does_i2cTimeout_early hl hp early, fun hb due => does_i2cTimeout hl hp hb due⟩

end Sys2Proof.Machine

/-!
# Sensor ingress: lines

O35: enabling and disabling a port, the blocks of a line, its close, the line store's turn (R154 to R164, R173). First what a port and
its registers read as after a change, then one rule for each operation, then the statement.
-/

namespace Sys2Proof.Machine

/-! ### Ports -/

section
variable {s r : State} {t u p k off : Nat}

@[simp] theorem word_setPort (x : AdPort) : (s.setPort t p x).word u off = s.word u off := word_congr rfl rfl rfl u off

@[simp] theorem f_setPort (x : AdPort) (q : FRef) : (s.setPort t p x).f u q = s.f u q := f_of_word (word_setPort x)

@[simp] theorem on_setPort (x : AdPort) (q : FRef) : (s.setPort t p x).on u q = s.on u q := on_of_f (f_setPort x q)

/-- What a port reads as follows from the ports that are kept. -/
theorem port_congr (h : r.adit.ports = s.adit.ports) (t p : Nat) : r.port t p = s.port t p := 
  congrArg (fun m : SMap AdPort => smGet m (tk t p) {}) h

/-- The keys of a port on different tiles are different. -/
theorem tk_tile_ne (p : Nat) (h : t ≠ u) : tk t p ≠ tk u p := by
  unfold tk
  omega

/-- On one tile the keys of different ports are different. -/
theorem tk_item_ne (t : Nat) {q : Nat} (h : p ≠ q) : tk t p ≠ tk t q := by
  unfold tk
  omega

/-- Of one port only lane k of the line in hand differs, and it is b. -/
def State.OnlyPart (s : State) (t p k : Nat) (b : AdLane) (r : State) : Prop :=
  r = { s with adit.ports := r.adit.ports } ∧ r.adPart t p k = b ∧
    r.port t p = { s.port t p with lanes := (r.port t p).lanes } ∧ ∀ j, j ≠ k → r.adPart t p j = s.adPart t p j

theorem setPart_only (b : AdLane) : s.OnlyPart t p k b (s.setPart t p k b) := by
  have port : (s.setPart t p k b).port t p = { s.port t p with lanes := smPut (s.port t p).lanes k b {} } := port_setPort_same s t p _
  have part : ∀ j, (s.setPart t p k b).adPart t p j = smGet (smPut (s.port t p).lanes k b {}) j {} := fun j => by
    unfold State.adPart
    rw [port]
  refine ⟨rfl, ?_, ?_, fun j hj => ?_⟩
  · rw [part, smGet_smPut_same]
  · rw [port]
  · rw [part, smGet_smPut_ne _ _ _ _ hj.symm]
    rfl

end

/-! ### ADp_CTL (R154) -/

section
variable {s : State} {t p : Nat}

/-- A sum written as a loop that adds where a condition holds. -/
theorem foldl_add_if (c : Nat → Prop) [DecidablePred c] (f : Nat → Nat) (l : List Nat) (n : Nat) :
    l.foldl (fun a q => if c q then a + f q else a) n = n + (l.map fun q => if c q then f q else 0).sum := by
  induction l generalizing n with
  | nil => simp
  | cons q l ih =>
    rw [List.foldl_cons, ih, List.map_cons, List.sum_cons]
    split <;> omega

/-- What a port keeps beside its lanes starts afresh when it is enabled. -/
def AdPort.enabled (x : AdPort) : AdPort :=
  { x with
    lastN := none, lastCnt := none, lastFcnt := none, intervals := [], gap := true, localCnt := 0, lateRaised := false, ignoring := false
    cut := none, gone := none, early := [] }

theorem adEnable_on (off : s.on t (AD_CTL_EN p) = false)
    (same : ∀ k, k < s.adN t p → s.reg t (LANE_RATE (s.adLaneNo t p k)) = s.reg t (LANE_RATE (s.adLaneNo t p 0)) ∧
      s.f t (LANE_CTL_ROLE (s.adLaneNo t p k)) = s.f t (LANE_CTL_ROLE (s.adLaneNo t p 0)))
    (quota : ((List.range 4).map fun q => if q = p ∨ s.on t (AD_CTL_EN q) = true then s.a t (AD_ARB_QUOTA q) else 0).sum ≤ 4096) :
    s.adEnable t p true = ((s.setB t (AD_CTL_EN p) true).setF t (AD_PSTAT_STATE p) 1).setPort t p (s.port t p).enabled := by
  unfold State.adEnable
  rw [if_pos rfl, if_neg (by simp [off])]
  extract_lets lanes alike sum enabled
  have lanesAlike : ∀ k ∈ lanes, s.reg t (LANE_RATE k) = s.reg t (LANE_RATE (s.adLaneNo t p 0)) ∧
      s.f t (LANE_CTL_ROLE k) = s.f t (LANE_CTL_ROLE (s.adLaneNo t p 0)) := fun k hk => by
    obtain ⟨j, hj, rfl⟩ := List.mem_map.1 hk
    exact same j (List.mem_range.1 hj)
  have alikes : alike = true := by
    simp only [alike]
    clear_value lanes
    cases lanes with
    | nil => rfl
    | cons l rest =>
      obtain ⟨rate, role⟩ := lanesAlike l (by simp)
      simpa [rate, role] using fun k hk => lanesAlike k (List.mem_cons_of_mem l hk)
  have sums : sum ≤ 4096 := by
    have total := foldl_add_if (fun q => q = p ∨ s.on t (AD_CTL_EN q) = true) (fun q => s.a t (AD_ARB_QUOTA q)) (List.range 4) 0
    have : sum = _ := total
    omega
  exact if_pos ⟨alikes, sums⟩

theorem does_aditEnable (hl : s.live t 1 = true) (hp : p < 4) (off : s.on t (AD_CTL_EN p) = false)
    (same : ∀ k, k < s.adN t p → s.reg t (LANE_RATE (s.adLaneNo t p k)) = s.reg t (LANE_RATE (s.adLaneNo t p 0)) ∧
      s.f t (LANE_CTL_ROLE (s.adLaneNo t p k)) = s.f t (LANE_CTL_ROLE (s.adLaneNo t p 0)))
    (quota : ((List.range 4).map fun q => if q = p ∨ s.on t (AD_CTL_EN q) = true then s.a t (AD_ARB_QUOTA q) else 0).sum ≤ 4096) :
    Does (.aditEnable t p) s fun r =>
      r.on t (AD_CTL_EN p) = true ∧ r.f t (AD_PSTAT_STATE p) = 1 ∧ (r.port t p).intervals = [] ∧ (r.port t p).lastN = none ∧
      r.WordsBut s [(t, AD_CTL p), (t, AD_PSTAT p)] := by
  refine does_adit rfl hl hp ?_
  rw [adEnable_on off same quota, port_setPort_same, on_setPort, f_setPort]
  refine ⟨?_, f_setF_same _ t (AD_PSTAT_STATE p) 1 (by simp [AD_PSTAT_STATE]), rfl, rfl, fun u o ho hn => ?_⟩
  · have other : (AD_PSTAT_STATE p).off ≠ (AD_CTL_EN p).off := by simp [AD_PSTAT_STATE, AD_PSTAT, AD_CTL_EN, AD_CTL]
    rw [on_of_f (f_setF_tile_ne _ t 1 other)]
    exact on_setB_same s t (AD_CTL_EN p) true (by simp [AD_CTL_EN]) (by simp [AD_CTL_EN])
  · obtain ⟨ctl, stat⟩ := keys_ne hn ho ⟨(aditOff_of hp).lt, (aditOff_of hp).lt⟩
    rw [word_setPort, word_setF_ne _ (AD_PSTAT_STATE p) 1 stat, word_setB_ne s (r := AD_CTL_EN p) true ctl]

theorem adDisable_off (on : s.on t (AD_CTL_EN p) = true) (closed : (s.port t p).frame = none) : s.adEnable t p false =
    ((s.setB t (AD_CTL_EN p) false).setF t (AD_PSTAT_STATE p) 0).setPort t p
      { s.port t p with lanes := [], judged := none, reserved := 0, dropping := false } := by
  have uncut : (if (s.port t p).frame.isSome = true then s.adCut t p stAborted else s) = s := if_neg (by simp [closed])
  unfold State.adEnable
  rw [if_neg (by simp), if_pos on, uncut]
  rfl

theorem does_aditDisable (hl : s.live t 1 = true) (hp : p < 4) (on : s.on t (AD_CTL_EN p) = true) (closed : (s.port t p).frame = none) :
    Does (.aditDisable t p) s fun r =>
      r.on t (AD_CTL_EN p) = false ∧ r.f t (AD_PSTAT_STATE p) = 0 ∧ (r.port t p).lanes = [] ∧
      r.WordsBut s [(t, AD_CTL p), (t, AD_PSTAT p)] := by
  refine does_adit rfl hl hp ?_
  rw [adDisable_off on closed, port_setPort_same, on_setPort, f_setPort]
  refine ⟨?_, f_setF_same _ t (AD_PSTAT_STATE p) 0 (by simp [AD_PSTAT_STATE]), rfl, fun u o ho hn => ?_⟩
  · have other : (AD_PSTAT_STATE p).off ≠ (AD_CTL_EN p).off := by simp [AD_PSTAT_STATE, AD_PSTAT, AD_CTL_EN, AD_CTL]
    rw [on_of_f (f_setF_tile_ne _ t 0 other)]
    exact on_setB_same s t (AD_CTL_EN p) false (by simp [AD_CTL_EN]) (by simp [AD_CTL_EN])
  · obtain ⟨ctl, stat⟩ := keys_ne hn ho ⟨(aditOff_of hp).lt, (aditOff_of hp).lt⟩
    rw [word_setPort, word_setF_ne _ (AD_PSTAT_STATE p) 0 stat, word_setB_ne s (r := AD_CTL_EN p) false ctl]

end

/-! ### Blocks (R155 to R157, R161) -/

section
variable {s : State} {t p k : Nat}

/-- A start block that is not the next line's, and that judges no line, begins its lane's part of the line in hand. -/
theorem adStart_begins {kind line glane : Nat} {serr : Bool} (hears : s.adDeaf t p = false) (takes : s.adTakes t p k = true)
    (inLine : s.adNextLine t p k kind line = false) (plain : ¬(kind = 1 ∧ k = (s.port t p).refLane)) :
    s.adStart t p k kind line glane serr = s.setPart t p k { kind := kind, line := line, glane := glane, serr := serr } := by
  have ref : ((s.setPart t p k { kind := kind, line := line, glane := glane, serr := serr }).port t p).refLane = (s.port t p).refLane := by
    rw [State.setPart, port_setPort_same]
  unfold State.adStart
  rw [if_neg (by simp [hears, takes]), inLine]
  exact if_neg fun h => plain ⟨h.1, ref ▸ h.2.1⟩

theorem does_aditLineStart {line g fl : Nat} (hl : s.live t 1 = true) (hp : p < 4) (hears : s.adDeaf t p = false)
    (takes : s.adTakes t p k = true) (inLine : s.adNextLine t p k 1 (line % 65536) = false) (other : k ≠ (s.port t p).refLane) :
    Does (.aditLineStart t p k line g fl) s
      (s.OnlyPart t p k { kind := 1, line := line % 65536, glane := g % 256, serr := bit fl 0 }) := by
  refine does_adit rfl hl hp ?_
  rw [adStart_begins hears takes inLine fun h => other h.2]
  exact setPart_only _

theorem does_aditEmbeddedStart {e g : Nat} (hl : s.live t 1 = true) (hp : p < 4) (hears : s.adDeaf t p = false)
    (takes : s.adTakes t p k = true) (inLine : s.adNextLine t p k 2 (e % 256) = false) :
    Does (.aditEmbeddedStart t p k e g) s (s.OnlyPart t p k { kind := 2, line := e % 256, glane := g % 256 }) := by
  refine does_adit rfl hl hp ?_
  rw [adStart_begins hears takes inLine (by simp)]
  exact setPart_only _

theorem does_aditDataBlock {w : Nat} (hl : s.live t 1 = true) (hp : p < 4) (hears : s.adDeaf t p = false) (takes : s.adTakes t p k = true)
    (begun : (s.adPart t p k).kind ≠ 0) (going : (s.adPart t p k).stop = none) : Does (.aditDataBlock t p k w) s
      (s.OnlyPart t p k { s.adPart t p k with data := (s.adPart t p k).data ++ [w % 2 ^ 64] }) := by
  refine does_adit rfl hl hp ?_
  have takesIn : s.adData t p k w = s.setPart t p k { s.adPart t p k with data := (s.adPart t p k).data ++ [w % 2 ^ 64] } :=
    (if_neg (by simp [hears, takes])).trans (if_neg (by simp [begun, going]))
  rw [takesIn]
  exact setPart_only _

theorem does_aditDataBlock_stray {w : Nat} (hl : s.live t 1 = true) (hp : p < 4) (hears : s.adDeaf t p = false)
    (takes : s.adTakes t p k = true) (outside : (s.adPart t p k).kind = 0) : Does (.aditDataBlock t p k w) s fun r =>
      r.f t (AD_PSTAT_STRAY p) = min 65535 (s.f t (AD_PSTAT_STRAY p) + 1) ∧ r.evtStat t 78 = true ∧ r.adit = s.adit ∧
      r.WordsButEvents s [(t, AD_PSTAT p)] := by
  refine does_adit rfl hl hp ?_
  have strays : s.adData t p k w = (s.addF t (AD_PSTAT_STRAY p) 1).raise t 78 :=
    (if_neg (by simp [hears, takes])).trans (if_pos (Or.inl outside))
  rw [strays]
  refine ⟨?_, raise_stat _ t 78 (by decide), raise_adit _ t 78 (by decide), fun u o ho hv hn => ?_⟩
  · rw [f_raise_adit (by decide) (aditOff_of hp)]
    exact addF_same s t (AD_PSTAT_STRAY p) 1 (by simp [AD_PSTAT_STRAY])
  · have stat := key_ne (q := AD_PSTAT_STRAY p) hn ho (aditOff_of hp)
    rw [word_raise _ t 78 u o (by decide) ho hv, word_addF_ne s (r := AD_PSTAT_STRAY p) 1 stat]

theorem does_aditLineEnd {n c : Nat} (hl : s.live t 1 = true) (hp : p < 4) (hears : s.adDeaf t p = false) (takes : s.adTakes t p k = true)
    (begun : (s.adPart t p k).kind ≠ 0) (going : (s.adPart t p k).stop = none) : Does (.aditLineEnd t p k n c) s
      (s.OnlyPart t p k { s.adPart t p k with stop := some (n % 2 ^ 24, c % 2 ^ 32) }) := by
  refine does_adit rfl hl hp ?_
  have ends : s.adEnd t p k (n % 2 ^ 24) (c % 2 ^ 32) = s.setPart t p k { s.adPart t p k with stop := some (n % 2 ^ 24, c % 2 ^ 32) } :=
    (if_neg (by simp [hears, takes])).trans (if_neg (by simp [begun, going]))
  rw [ends]
  exact setPart_only _

theorem does_aditLineEnd_outside {n c : Nat} (hl : s.live t 1 = true) (hp : p < 4) (hears : s.adDeaf t p = false)
    (takes : s.adTakes t p k = true) (outside : (s.adPart t p k).kind = 0) : Does (.aditLineEnd t p k n c) s fun r => r = s :=
  does_adit rfl hl hp ((if_neg (by simp [hears, takes])).trans (if_pos (Or.inl outside)))

end

/-! ### The line store takes rows (R162, R172) -/

/-- Rows, openings and closes have gone to the line store: of sensor ingress only it and the record of stripes differ, and the registers
of the block ADIT are as they were. -/
def State.Stored (s r : State) : Prop :=
  r = { s with
    regs := r.regs, evt := r.evt, core.crews := r.core.crews, seam.discard := r.seam.discard, mem.sramFlip := r.mem.sramFlip
    adit.store := r.adit.store, adit.stripes := r.adit.stripes } ∧
  ∀ u off, aditOff off → r.word u off = s.word u off

namespace State.Stored

variable {s r q : State} {t p id : Nat}

theorem refl (s : State) : s.Stored s := ⟨rfl, fun _ _ _ => rfl⟩

theorem trans (h : s.Stored r) (g : r.Stored q) : s.Stored q := by
  obtain ⟨hf, hw⟩ := h
  obtain ⟨gf, gw⟩ := g
  refine ⟨?_, fun u off ho => (gw u off ho).trans (hw u off ho)⟩
  rw [hf] at gf
  exact gf

theorem raise (h : s.Stored r) (hid : id < 320) : s.Stored (r.raise t id) := by
  refine h.trans ⟨?_, fun u off ho => word_raise r t id u off hid ho.lt ho.eventOff⟩
  rw [raise_fields r t id hid]

theorem setDiscard {x : Nat} {b : Bool} (h : s.Stored r) : s.Stored (r.setDiscard t x p b) := h.trans ⟨rfl, fun _ _ _ => rfl⟩

theorem setAdStore {l : List Item} (h : s.Stored r) : s.Stored (r.setAdStore t p l) := h.trans ⟨rfl, fun _ _ _ => rfl⟩

theorem sramWritten {k : Nat} (h : s.Stored r) : s.Stored (r.sramWritten t k) := by
  unfold State.sramWritten
  split
  · refine State.Stored.raise (h.trans ⟨rfl, fun u off ho => ?_⟩) (by decide)
    exact word_setB_ne r (r := SRAM_INJ_ARMED) false (regKey_off_ne (by decide) ho.lt (Nat.ne_of_gt (Nat.lt_trans ho.2 (by decide))))
  · exact h

theorem adPush (h : s.Stored r) (i : Item) : s.Stored (r.adPush t p i) := by
  unfold State.adPush
  cases i with
  | openF f => exact h.setDiscard.setAdStore.trans ⟨rfl, fun _ _ _ => rfl⟩
  | row y px held =>
    dsimp only
    split
    · exact h
    · exact h.setAdStore.sramWritten
  | closeF st => exact h.setAdStore

theorem each {α : Type} {l : List α} {f : State → α → State} (h : s.Stored r) (hf : ∀ q a, s.Stored q → s.Stored (f q a)) :
    s.Stored (r.each l f) := each_induct s.Stored r l f h fun q a _ hq => hf q a hq

theorem ports (h : s.Stored r) : r.adit.ports = s.adit.ports := by
  rw [h.1]

theorem port (h : s.Stored r) (t p : Nat) : r.port t p = s.port t p := port_congr h.ports t p

theorem f (h : s.Stored r) {q : FRef} (hq : aditOff q.off) : r.f t q = s.f t q := f_of_word (h.2 t q.off hq)

theorem adSg (h : s.Stored r) (hp : p < 4) : r.adSg t p = s.adSg t p := on_of_f (h.f (aditOff_act hp))

/-- A port in no group hands its rows to its own line store. -/
theorem adDeliver {row : Nat} {cols : SMap Nat} {held : Bool} (h : s.Stored r) (hp : p < 4) (alone : s.adSg t p = false) :
    s.Stored (r.adDeliver t p row cols held) := by
  unfold State.adDeliver
  split
  · exact h
  · rw [if_pos (by simp [h.adSg hp, alone])]
    exact h.adPush _

theorem adInvent {a n : Nat} (h : s.Stored r) (hp : p < 4) (alone : s.adSg t p = false) : s.Stored (r.adInvent t p a n) :=
  h.each fun _ _ hq => hq.adDeliver hp alone

end State.Stored

/-! ### The close of a line (R162, R164) -/

section
variable {s r q : State} {t p line e pos : Nat} {f : AdFrame}

/-- The checks of a lane (R162) leave where the frame stands. -/
theorem adCheckLane_place (k rl cnt : Nat) :
    (s.adCheckLane t p k rl cnt f).2.e = f.e ∧ (s.adCheckLane t p k rl cnt f).2.pos = f.pos := by
  unfold State.adCheckLane
  dsimp only
  repeat' split
  all_goals exact ⟨rfl, rfl⟩

/-- The registers of the block ADIT are as they were, and the port's open frame expects line e next and has closed pos lines. -/
structure State.FrameAt (s r : State) (t p e pos : Nat) : Prop where
  words : ∀ u off, aditOff off → r.word u off = s.word u off
  frame : ∃ f, (r.port t p).frame = some f ∧ f.e = e ∧ f.pos = pos

theorem State.FrameAt.stored (h : s.FrameAt r t p e pos) (g : r.Stored q) : s.FrameAt q t p e pos :=
  ⟨fun u off ho => (g.2 u off ho).trans (h.words u off ho), g.port t p ▸ h.frame⟩

theorem State.FrameAt.adSg (h : s.FrameAt r t p e pos) (hp : p < 4) : r.adSg t p = s.adSg t p :=
  on_of_f (f_of_word (h.words t _ (aditOff_act hp)))

/-- The port takes another value with the same frame. -/
theorem State.FrameAt.setPort (h : s.FrameAt r t p e pos) {x : AdPort} (hx : x.frame = (r.port t p).frame) :
    s.FrameAt (r.setPort t p x) t p e pos := by
  obtain ⟨words, frame⟩ := h
  refine ⟨fun u off ho => (word_setPort x).trans (words u off ho), ?_⟩
  rw [port_setPort_same, hx]
  exact frame

/-- The frame with an accepted line of g image lines (R164). -/
def AdFrame.accept (f : AdFrame) (line g : Nat) : AdFrame :=
  { (if line - f.e = 0 then f else { (f.st stLineSkip) with skipped := f.skipped + (line - f.e) }) with
    e := line + g, accepted := (if line - f.e = 0 then f else { (f.st stLineSkip) with skipped := f.skipped + (line - f.e) }).accepted + g }

theorem AdFrame.accept_pos (f : AdFrame) (line g : Nat) : (f.accept line g).pos = f.pos := by
  unfold AdFrame.accept
  split <;> rfl

/-- The frame with g image lines that found no room (R172). -/
def AdFrame.drop (f : AdFrame) (g : Nat) : AdFrame := { (f.st stDropped) with dropped := f.dropped + g }

/-- The line store has room for a line, or drops it (R172). -/
def State.adReserve (s : State) (t p line g need : Nat) : State :=
  let x := s.port t p
  if s.a t (AD_ARB_QUOTA p) * 1024 < s.adHeld t p + need then
    s.setPort t p { x with judged := some (line, true), dropping := true, frame := x.frame.map fun f => f.drop g }
  else s.setPort t p { x with judged := some (line, true), dropping := false, reserved := need }

theorem adReserve_place (g need : Nat) (h : s.FrameAt r t p e pos) :
    s.FrameAt (r.adReserve t p line g need) t p e pos ∧ ((r.adReserve t p line g need).port t p).judged = some (line, true) := by
  unfold State.adReserve
  extract_lets x
  split
  · obtain ⟨words, f, hf, place⟩ := h
    rw [port_setPort_same]
    refine ⟨⟨fun u off ho => (word_setPort _).trans (words u off ho), f.drop g, ?_, place⟩, rfl⟩
    rw [port_setPort_same]
    exact congrArg (Option.map fun f : AdFrame => f.drop g) hf
  · rw [port_setPort_same]
    exact ⟨h.setPort rfl, rfl⟩

/-- An image line at or past the expected one, within the frame, is accepted: the lines skipped are filled, and room is reserved. -/
theorem adJudge_eq (hf : (s.port t p).frame = some f) (next : f.e ≤ line) (inside : line < s.a t (AD_GEOM_H p)) : s.adJudge t p line =
    ((s.setPort t p { s.port t p with frame := some (f.accept line (s.adGroupLines t p line)) }).adInvent t p f.e (line - f.e)).adReserve t p
      line (s.adGroupLines t p line) (3 * f.hdr.sw * s.adGroupLines t p line) := by
  unfold State.adJudge
  simp only [hf]
  rw [if_neg (Nat.not_le.2 inside), if_neg (Nat.not_lt.2 next)]
  rfl

theorem adJudge_accepts (hp : p < 4) (alone : s.adSg t p = false) (hf : (s.port t p).frame = some f) (next : f.e ≤ line)
    (inside : line < s.a t (AD_GEOM_H p)) : s.FrameAt (s.adJudge t p line) t p (line + s.adGroupLines t p line) f.pos ∧
      ((s.adJudge t p line).port t p).judged = some (line, true) := by
  rw [adJudge_eq hf next inside]
  generalize hg : s.adGroupLines t p line = g
  have opens : s.FrameAt (s.setPort t p { s.port t p with frame := some (f.accept line g) }) t p (line + g) f.pos :=
    ⟨fun _ _ _ => word_setPort _, _, congrArg AdPort.frame (port_setPort_same s t p _), rfl, f.accept_pos line g⟩
  exact adReserve_place _ _ (opens.stored ((State.Stored.refl _).adInvent hp ((opens.adSg hp).trans alone)))

/-- The delivery of an accepted line leaves where the frame stands (R160, R162). -/
theorem adDeliverLine_place {rl : Nat} (hp : p < 4) (alone : s.adSg t p = false) (h : s.FrameAt r t p e pos) :
    s.FrameAt (r.adDeliverLine t p line rl) t p e pos := by
  obtain ⟨words, f, hf, he, hpos⟩ := h
  unfold State.adDeliverLine
  rw [hf]
  dsimp only
  generalize hc : List.foldl _ _ _ = checked
  have place : checked.2.e = e ∧ checked.2.pos = pos := by
    rw [← hc]
    refine List.foldlRecOn (motive := fun a : List (List Nat × List Nat) × AdFrame => a.2.e = e ∧ a.2.pos = pos) _ _ ⟨he, hpos⟩ fun a ha k _ => ?_
    obtain ⟨ce, cpos⟩ := adCheckLane_place (s := r) (t := t) (p := p) (f := a.2) k rl ((r.adCols t p k).length * r.adGroupLines t p line)
    exact ⟨ce.trans ha.1, cpos.trans ha.2⟩
  have opens : s.FrameAt (r.setPort t p { r.port t p with frame := some checked.2, reserved := 0 }) t p e pos :=
    ⟨fun u off ho => (word_setPort _).trans (words u off ho), checked.2, congrArg AdPort.frame (port_setPort_same r t p _), place⟩
  refine opens.stored (State.Stored.each (State.Stored.refl _) fun q j hq => ?_)
  exact hq.adDeliver hp ((opens.adSg hp).trans alone)

/-- One more line of the open frame is closed. -/
def AdPort.counted (x : AdPort) : AdPort := { x with frame := x.frame.map fun f => { f with pos := f.pos + 1 } }

/-- No line is in hand. -/
def AdPort.handEmpty (x : AdPort) : AdPort := { x with lanes := [], judged := none, dropping := false, reserved := 0 }

/-- A close that takes its line from the reference lane, up to where the line leaves the port (R162). -/
theorem adCloseLine_reference (image : (s.adPart t p (s.port t p).refLane).kind = 1)
    (hline : (s.adPart t p (s.port t p).refLane).line = line) (takes : s.adTakes t p (s.port t p).refLane = true)
    (hf : (s.port t p).frame = some f) (closing : (s.port t p).closing = none) (judged : (s.port t p).judged = none)
    (accepted : ((s.adJudge t p line).port t p).judged = some (line, true)) : s.adCloseLine t p =
      let q := s.adJudge t p line
      let d := if (q.port t p).dropping then q.adInvent t p line (q.adGroupLines t p line) else q.adDeliverLine t p line line
      let r := d.adReport t p line
      let v := r.setPort t p (r.port t p).counted
      v.setPort t p (v.port t p).handEmpty := by
  have lanes : (s.port t p).lanes ≠ [] := fun h => by
    rw [State.adPart, h] at image
    cases image
  unfold State.adCloseLine
  simp [lanes, hf, closing, judged, image, takes, hline, accepted, AdPort.counted, AdPort.handEmpty]

/-- The close of an accepted line of a port in no group. -/
theorem adCloseLine_closes (hp : p < 4) (alone : s.adSg t p = false) (hf : (s.port t p).frame = some f)
    (image : (s.adPart t p (s.port t p).refLane).kind = 1) (hline : (s.adPart t p (s.port t p).refLane).line = line)
    (takes : s.adTakes t p (s.port t p).refLane = true) (closing : (s.port t p).closing = none) (judged : (s.port t p).judged = none)
    (next : f.e ≤ line) (inside : line < s.a t (AD_GEOM_H p)) :
    ((s.adCloseLine t p).port t p).frame.map (·.e) = some (line + s.adGroupLines t p line) ∧
      ((s.adCloseLine t p).port t p).frame.map (·.pos) = some (f.pos + 1) ∧ ((s.adCloseLine t p).port t p).lanes = [] ∧
      ((s.adCloseLine t p).port t p).judged = none ∧ ((s.adCloseLine t p).port t p).reserved = 0 := by
  obtain ⟨judges, accepted⟩ := adJudge_accepts hp alone hf next inside
  rw [adCloseLine_reference image hline takes hf closing judged accepted]
  extract_lets q d r v
  have delivers : s.FrameAt d t p (line + s.adGroupLines t p line) f.pos := by
    simp only [d]
    split
    · exact judges.stored ((State.Stored.refl q).adInvent hp ((judges.adSg hp).trans alone))
    · exact adDeliverLine_place hp alone judges
  have silent : r = d := by
    obtain ⟨g, hg, _⟩ := delivers.frame
    simp only [r]
    unfold State.adReport
    rw [hg]
    exact if_pos (by simp [delivers.adSg hp, alone])
  obtain ⟨g, hg, he, hpos⟩ := delivers.frame
  have counted : (v.port t p).frame = some { g with pos := g.pos + 1 } := by
    rw [port_setPort_same, silent]
    exact congrArg (Option.map fun f : AdFrame => { f with pos := f.pos + 1 }) hg
  rw [port_setPort_same]
  unfold AdPort.handEmpty
  rw [counted]
  exact ⟨congrArg some he, congrArg some (congrArg (· + 1) hpos), rfl, rfl, rfl⟩

/-- A command that closes the line in hand where its condition on the lanes holds. -/
theorem does_close {i : Instr} {b : Bool} (h : exec i s = s.finish (s.when (s.live t 1 && decide (p < 4) && b) fun s => s.adCloseLine t p))
    (hl : s.live t 1 = true) (hp : p < 4) (hb : b = true) {P : State → Prop} (h' : P (s.adCloseLine t p)) : Does i s P :=
  does_when h (by simp [hl, hp, hb]) h'

end

/-! ### The line store's turn (R173) -/

section
variable {s : State} {t : Nat}

/-- A turn that passes nothing leaves what waits. -/
theorem takeTurn_none (n : Nat) (l : List Item) (h : (takeTurn (n + 1) l).1 = []) : (takeTurn (n + 1) l).2 = l := by
  cases l with
  | nil => rfl
  | cons i l => cases i <;> simp [takeTurn] at h

/-- What a port's turn passes, and what it leaves. -/
def State.turnOf (s : State) (t p : Nat) : List Item × List Item := takeTurn (max 1 (s.a t (AD_ARB_WEIGHT p))) (s.adStore t p)

theorem turnOf_none {p : Nat} (h : (s.turnOf t p).1 = []) : (s.turnOf t p).2 = s.adStore t p := by
  obtain ⟨n, hn⟩ : ∃ n, max 1 (s.a t (AD_ARB_WEIGHT p)) = n + 1 := ⟨_, (Nat.succ_pred_eq_of_pos (by omega)).symm⟩
  unfold State.turnOf at h ⊢
  rw [hn] at h ⊢
  exact takeTurn_none n _ h

/-- One port's turn. -/
def State.passTurn (s : State) (t p : Nat) : State :=
  if (s.turnOf t p).1 = [] then s
  else
    let q := s.setAdStore t p (s.turnOf t p).2
    { q with pix.rawIn := smPut q.pix.rawIn (tk t p) (smGet q.pix.rawIn (tk t p) [] ++ (s.turnOf t p).1) [] }

theorem adDispatch_eq : s.adDispatch t = s.each (List.range 4) fun r p => r.passTurn t p := rfl

/-- The items of port p have had their turn between two states, where `taken` holds; else they are as they were. -/
def State.TurnAt (s r : State) (t p : Nat) (taken : Prop) [Decidable taken] : Prop :=
  r.adStore t p = (if taken then (s.turnOf t p).2 else s.adStore t p) ∧
    smGet r.pix.rawIn (tk t p) [] = smGet s.pix.rawIn (tk t p) [] ++ if taken then (s.turnOf t p).1 else []

theorem passTurn_only (p : Nat) : s.passTurn t p = { s with adit.store := (s.passTurn t p).adit.store, pix.rawIn := (s.passTurn t p).pix.rawIn } := by
  unfold State.passTurn
  split <;> rfl

theorem passTurn_turn (p q : Nat) : s.TurnAt (s.passTurn t p) t q (q = p) := by
  unfold State.passTurn State.TurnAt
  by_cases hq : q = p
  · subst hq
    rw [if_pos rfl, if_pos rfl]
    split
    · rename_i none
      rw [none, turnOf_none none, List.append_nil]
      exact ⟨rfl, rfl⟩
    · exact ⟨adStore_setAdStore_same s t q _, smGet_smPut_same ..⟩
  · have key := tk_item_ne t (Ne.symm hq)
    rw [if_neg hq, if_neg hq, List.append_nil]
    split
    · exact ⟨rfl, rfl⟩
    · exact ⟨adStore_setAdStore_ne s t p _ t q key, smGet_smPut_ne _ _ _ _ key⟩

/-- The turns of the ports of a list, each named once. -/
theorem passTurns_turns (l : List Nat) (hn : l.Nodup) (s : State) (q : Nat) :
    s.TurnAt (s.each l fun r p => r.passTurn t p) t q (q ∈ l) := by
  induction l generalizing s with
  | nil => exact ⟨rfl, (List.append_nil _).symm⟩
  | cons p l ih =>
    obtain ⟨hp, hn⟩ := List.nodup_cons.1 hn
    obtain ⟨store, raw⟩ := passTurn_turn (s := s) (t := t) p q
    obtain ⟨stores, raws⟩ := ih hn (s.passTurn t p)
    unfold State.TurnAt
    rw [each_cons, stores, raws, raw]
    by_cases hq : q = p
    · subst hq
      rw [if_pos rfl] at store
      simp [hp, store]
    · have turn : (s.passTurn t p).turnOf t q = s.turnOf t q := by
        have weight : (s.passTurn t p).a t (AD_ARB_WEIGHT q) = s.a t (AD_ARB_WEIGHT q) := by
          rw [passTurn_only]
          exact f_congr rfl
        rw [if_neg hq] at store
        unfold State.turnOf
        rw [weight, store]
      rw [if_neg hq] at store
      simp [hq, turn, store]

theorem does_lineStoreDispatch (hl : s.live t 1 = true) : Does (.lineStoreDispatch t) s fun r =>
    r = { s with adit.store := r.adit.store, pix.rawIn := r.pix.rawIn } ∧
    ∀ p, p < 4 → r.adStore t p = (s.turnOf t p).2 ∧ smGet r.pix.rawIn (tk t p) [] = smGet s.pix.rawIn (tk t p) [] ++ (s.turnOf t p).1 := by
  refine does_when rfl hl ?_
  rw [adDispatch_eq]
  refine ⟨?_, fun p hp => ?_⟩
  · refine each_induct (fun r => r = { s with adit.store := r.adit.store, pix.rawIn := r.pix.rawIn }) s _ _ rfl fun r p _ hr => ?_
    have turn := passTurn_only (s := r) (t := t) p
    generalize r.passTurn t p = q at turn ⊢
    rw [hr] at turn
    exact turn
  · obtain ⟨store, raw⟩ := passTurns_turns (t := t) (List.range 4) List.nodup_range s p
    rw [if_pos (List.mem_range.2 hp)] at store raw
    exact ⟨store, raw⟩

end

/-- Settles O35: each command's lemma above gives its part (R154 to R157, R161, R162, R164, R173; that a Line End outside a line says
nothing is log 41). -/
theorem aditLineCommandsComplete : Obligations.AditLineCommandsComplete := by
  refine ⟨fun t p s hl hp off same quota => does_aditEnable hl hp off same quota,
    fun t p s hl hp on closed => does_aditDisable hl hp on closed, fun t p k s hl hp hears takes => ?_,
    fun t p line f s hl hp alone hf image hline takes closing judged next inside => ?_, fun t s hl => does_lineStoreDispatch hl⟩
  · exact ⟨fun _ _ _ inLine other => does_aditLineStart hl hp hears takes inLine other,
      fun _ _ inLine => does_aditEmbeddedStart hl hp hears takes inLine,
      fun _ begun going => does_aditDataBlock hl hp hears takes begun going,
      fun _ outside => does_aditDataBlock_stray hl hp hears takes outside,
      fun _ _ begun going => does_aditLineEnd hl hp hears takes begun going,
      fun _ _ outside => does_aditLineEnd_outside hl hp hears takes outside⟩
  · have closes := adCloseLine_closes hp alone hf image hline takes closing judged next inside
    exact ⟨fun all => does_close rfl hl hp all closes, fun some => does_close rfl hl hp some closes⟩

end Sys2Proof.Machine

/-!
# What a commit point leaves

The exchange of sections, a unit's swap and the commits that a point brings about change registers, benches, crews, the fault word of
RC_DEFTAB and events. What reads none of these is as it was; sensor ingress and the clock are such parts.
-/

namespace Sys2Proof.Machine

/-- What a function of the state gives does not follow from registers, benches, the pixel path, crews or events. -/
structure OffBench {β : Type} (g : State → β) : Prop where
  setReg : ∀ s t off v, g (State.setReg s t off v) = g s
  bench : ∀ (s : State) b, g { s with bench := b } = g s
  pix : ∀ (s : State) x, g { s with pix := x } = g s
  setCrew : ∀ s t c x, g (State.setCrew s t c x) = g s
  raise : ∀ s t id, id < 320 → g (State.raise s t id) = g s

theorem offBench_adit : OffBench State.adit :=
  ⟨fun _ _ _ _ => rfl, fun _ _ => rfl, fun _ _ => rfl, fun _ _ _ _ => rfl, fun s t id h => raise_adit s t id h⟩

theorem raise_now (s : State) (t id : Nat) (h : id < 320) : (s.raise t id).now = s.now := by
  rw [raise_fields s t id h]

theorem raise_time (s : State) (t id : Nat) (h : id < 320) : (s.raise t id).time = s.time := by
  rw [raise_fields s t id h]

theorem offBench_now : OffBench State.now :=
  ⟨fun _ _ _ _ => rfl, fun _ _ => rfl, fun _ _ => rfl, fun _ _ _ _ => rfl, fun s t id h => raise_now s t id h⟩

namespace OffBench

variable {β : Type} {g : State → β} (h : OffBench g)
include h

theorem seamReach (s : State) (a b : Nat) : g (s.seamReach a b).1 = g s := by
  unfold State.seamReach
  split
  · rfl
  · exact h.raise s _ 197 (by decide)

/-! ### Sections (R37, R41) -/

theorem moveDefTab (s : State) (t src : Nat) : g (s.moveDefTab t src) = g s := by
  unfold State.moveDefTab
  extract_lets v src viewed bad
  have views : g viewed = g s := h.bench s _
  split
  · refine (h.bench _ _).trans ((h.setReg _ t _ v).trans (Eq.trans ?_ views))
    exact when_keeps g viewed _ _ fun r => (h.setReg _ t RC_STAT _).trans (h.pix r _)
  · exact views

theorem exchangeSec (s : State) (t u sec : Nat) : g (s.exchangeSec t u sec) = g s := by
  unfold State.exchangeSec
  extract_lets ws old copied moved x shown
  have copies : g copied = g s := each_keeps g s _ _ fun r w => h.setReg r t _ _
  have moves : g moved = g copied := when_keeps g copied _ _ fun r => h.moveDefTab r t sec
  exact (h.bench shown _).trans ((h.bench moved _).trans (moves.trans copies))

theorem beginSec (s : State) (t u sec : Nat) (f : FrameHdr) : g (s.beginSec t u sec f) = g s := by
  unfold State.beginSec
  extract_lets begun
  refine (h.bench begun _).trans ?_
  simp only [begun]
  split
  · exact h.exchangeSec s t u sec
  · rfl

theorem endSec (s : State) (t u sec : Nat) : g (s.endSec t u sec) = g s := by
  unfold State.endSec
  extract_lets idle
  split
  · exact (h.exchangeSec idle t u sec).trans (h.bench s _)
  · exact h.bench s _

/-! ### Swaps (R38, R42) -/

theorem endMark (s : State) (t u : Nat) : g (s.endMark t u) = g s := when_keeps g s _ _ fun r => h.bench r _

theorem swapUnit (s : State) (t u kind sel seq : Nat) : g (s.swapUnit t u kind sel seq) = g s := by
  unfold State.swapUnit
  extract_lets gen counted noted src shown marked
  have shows : g shown = g s := (h.bench noted _).trans ((h.setReg counted t _ _).trans (h.setReg s t _ _))
  have marks : g marked = g shown := each_keeps g shown _ _ fun r v => h.endMark r v u
  refine Eq.trans (each_keeps g marked _ _ fun r sec => ?_) (marks.trans shows)
  split
  · exact h.bench r _
  · exact h.exchangeSec r t u sec

theorem soloPoint (s : State) (t u seq : Nat) : g (s.soloPoint t u seq) = g s := by
  unfold State.soloPoint
  dsimp only
  split
  · exact h.swapUnit s t u _ _ seq
  · exact (h.raise _ t 301 (by decide)).trans (h.bench s _)

/-! ### Transactions (R54, R56, R58) -/

theorem txnRollback (s : State) (i t : Nat) : g (s.txnRollback i t) = g s :=
  txnRollback_keeps g h.setReg (fun s _ _ _ => h.bench s _) (fun s _ _ => h.bench s _) s i t

theorem wakeCommit (s : State) (i : Nat) : g (s.wakeCommit i) = g s := by
  unfold State.wakeCommit
  dsimp only
  split
  · rfl
  · split
    · split
      · exact h.setCrew s _ _ _
      · rfl
    · rfl

theorem txnEnd (s : State) (i result : Nat) : g (s.txnEnd i result) = g s := by
  unfold State.txnEnd
  exact (h.wakeCommit _ i).trans ((when_keeps g _ _ _ fun r => h.raise r _ 304 (by decide)).trans (h.bench s _))

theorem txnSwapTile (s : State) (i t seq : Nat) : g (s.txnSwapTile i t seq) = g s :=
  (h.bench _ _).trans (each_keeps g s _ _ fun r u => h.swapUnit r t u _ _ seq)

theorem txnMiss (s : State) (i t : Nat) : g (s.txnMiss i t) = g s :=
  (h.bench _ _).trans ((each_keeps g _ _ _ fun r _ => h.bench r _).trans (h.txnRollback s i t))

theorem txnReport (s : State) (i t : Nat) : g (s.txnReport i t) = g s := by
  unfold State.txnReport
  dsimp only
  split
  · exact h.bench s _
  · split
    · exact (h.bench _ _).trans (h.seamReach s _ _)
    · exact h.seamReach s _ _

theorem txnReach (s : State) (i t seq : Nat) : g (s.txnReach i t seq) = g s := by
  unfold State.txnReach
  dsimp only
  split
  · rfl
  · split
    · exact (h.txnReport _ i t).trans (h.txnSwapTile s i t seq)
    · split
      · exact (h.txnReport _ i t).trans (h.txnMiss s i t)
      · rfl

theorem txnTryEnd (s : State) (i : Nat) : g (s.txnTryEnd i) = g s := by
  unfold State.txnTryEnd State.txnFinal
  dsimp only
  split
  · split
    · exact h.txnEnd s i 0
    · exact (h.txnEnd _ i 7).trans (each_keeps g s _ _ fun r _ => h.raise r _ 305 (by decide))
  · rfl

theorem txnPoint (s : State) (i seq : Nat) : g (s.txnPoint i seq) = g s := by
  unfold State.txnPoint
  dsimp only
  split
  · rfl
  · exact (h.txnTryEnd _ i).trans ((each_keeps g _ _ _ fun r t => h.txnReach r i t seq).trans (h.bench s _))

/-- A commit point occurs. -/
theorem occurrence (s : State) (kind sel seq t : Nat) : g (s.occurrence kind sel seq t) = g s := by
  unfold State.occurrence
  extract_lets solos
  have solo : g solos = g s := each_keeps g s _ _ fun r v => each_keeps g r _ _ fun q u => by
    dsimp only
    split
    · exact h.soloPoint q v u seq
    · rfl
  refine Eq.trans (each_keeps g solos _ _ fun r i => ?_) solo
  dsimp only
  split
  · exact h.txnPoint r i seq
  · rfl

theorem frameStartPoint (s : State) (t p cnt : Nat) : g (s.frameStartPoint t p cnt) = g s := by
  unfold State.frameStartPoint
  split
  · exact h.occurrence s _ _ cnt t
  · split
    · rfl
    · exact each_keeps g s _ _ fun r u => h.occurrence r _ _ cnt t

end OffBench

end Sys2Proof.Machine

/-!
# Sensor ingress: frames

O36: Frame Start and Frame End, lateness, and what the members of a sensor group exchange (R165 to R171, R176). A frame's record and its
start are long operations: each is first said as a chain of stages, then what each stage leaves is said once.
-/

namespace Sys2Proof.Machine

/-! ### Samples of other tiles (R169) -/

section
variable {s r : State} {t p : Nat} {f : AdFrame}

/-- No row leaves for the line store before the lead's record of the frame has come. -/
theorem asmFlush_unrecorded (hf : (s.port t p).frame = some f) (open_ : f.recorded = false) (n : Nat) : s.asmFlush t p n = s := by
  cases n with
  | zero => rfl
  | succ n =>
    unfold State.asmFlush
    extract_lets x
    have hx : x.frame = some f := hf
    split
    · rename_i g r m l hg _
      obtain rfl : f = g := Option.some.inj (hx.symm.trans hg)
      exact if_neg (by simp [open_])
    · rfl

variable {x : RawPiece} {l : List RawPiece}

/-- A piece leaves what waits, before it is placed. -/
def State.pieceTaken (s : State) (t p : Nat) (l : List RawPiece) : State :=
  { s with adit.pieces := smPut s.adit.pieces (tk t p) l [] }

/-- Of the state after a piece is taken only a port may differ. -/
theorem takes_piece (hl : s.live t 1 = true) (hp : p < 4) {q : AdPort} (h : s.sgRaw t p = s.pieceTaken t p l ∧ q = s.port t p ∨
    s.sgRaw t p = (s.pieceTaken t p l).setPort t p q) : Does (.sgRawReceive t p) s fun r =>
      smGet r.adit.pieces (tk t p) [] = l ∧ r.port t p = q ∧ r.regs = s.regs := by
  refine does_adit rfl hl hp ?_
  rcases h with ⟨e, rfl⟩ | e
  · rw [e]
    exact ⟨smGet_smPut_same .., rfl, rfl⟩
  · rw [e]
    exact ⟨smGet_smPut_same .., port_setPort_same _ t p q, rfl⟩

/-- What becomes of a piece on a port that is on and not stale. -/
theorem sgRaw_eq (hx : smGet s.adit.pieces (tk t p) [] = x :: l) (fresh : s.stale t p = false) (on : s.on t (AD_CTL_EN p) = true) :
    s.sgRaw t p =
      if (s.port t p).frame.any (·.hdr.cnt = x.cnt) then
        ((s.pieceTaken t p l).setPort t p { s.port t p with asm := asmAdd x.row x.cols (s.port t p).asm }).asmFlush t p 65536
      else if (s.port t p).gone = some x.cnt then s.pieceTaken t p l
      else (s.pieceTaken t p l).setPort t p { s.port t p with early := (s.port t p).early ++ [x] } := by
  have stays : ¬((s.pieceTaken t p l).stale t p = true ∨ ¬(s.pieceTaken t p l).on t (AD_CTL_EN p) = true) := by
    have fresh' : (s.pieceTaken t p l).stale t p = false := fresh
    have on' : (s.pieceTaken t p l).on t (AD_CTL_EN p) = true := on
    simp [fresh', on']
  unfold State.sgRaw
  rw [hx]
  exact if_neg stays

theorem frame_any_false {o : Option AdFrame} {c : Nat} (h : ∀ f, o = some f → f.hdr.cnt ≠ c) : o.any (·.hdr.cnt = c) = false := by
  cases o with
  | none => rfl
  | some f => simpa using h f rfl

theorem does_sgRawReceive_joins (hl : s.live t 1 = true) (hp : p < 4) (hx : smGet s.adit.pieces (tk t p) [] = x :: l)
    (fresh : s.stale t p = false) (on : s.on t (AD_CTL_EN p) = true) (hf : (s.port t p).frame = some f) (mine : f.hdr.cnt = x.cnt)
    (open_ : f.recorded = false) : Does (.sgRawReceive t p) s fun r =>
      smGet r.adit.pieces (tk t p) [] = l ∧ r.port t p = { s.port t p with asm := asmAdd x.row x.cols (s.port t p).asm } ∧
      r.regs = s.regs := by
  refine takes_piece hl hp (Or.inr ?_)
  have kept := asmFlush_unrecorded (s := (s.pieceTaken t p l).setPort t p { s.port t p with asm := asmAdd x.row x.cols (s.port t p).asm })
    (t := t) (p := p) (by rw [port_setPort_same]; exact hf) open_ 65536
  rw [sgRaw_eq hx fresh on, if_pos (by simp [hf, mine]), kept]

theorem does_sgRawReceive_waits (hl : s.live t 1 = true) (hp : p < 4) (hx : smGet s.adit.pieces (tk t p) [] = x :: l)
    (fresh : s.stale t p = false) (on : s.on t (AD_CTL_EN p) = true) (other : ∀ f, (s.port t p).frame = some f → f.hdr.cnt ≠ x.cnt)
    (new : (s.port t p).gone ≠ some x.cnt) : Does (.sgRawReceive t p) s fun r =>
      smGet r.adit.pieces (tk t p) [] = l ∧ r.port t p = { s.port t p with early := (s.port t p).early ++ [x] } ∧ r.regs = s.regs := by
  refine takes_piece hl hp (Or.inr ?_)
  rw [sgRaw_eq hx fresh on, if_neg (by simp [frame_any_false other]), if_neg new]

theorem does_sgRawReceive_drops (hl : s.live t 1 = true) (hp : p < 4) (hx : smGet s.adit.pieces (tk t p) [] = x :: l)
    (fresh : s.stale t p = false) (on : s.on t (AD_CTL_EN p) = true) (other : ∀ f, (s.port t p).frame = some f → f.hdr.cnt ≠ x.cnt)
    (gone : (s.port t p).gone = some x.cnt) : Does (.sgRawReceive t p) s fun r =>
      smGet r.adit.pieces (tk t p) [] = l ∧ r.port t p = s.port t p ∧ r.regs = s.regs := by
  refine takes_piece hl hp (Or.inl ⟨?_, rfl⟩)
  rw [sgRaw_eq hx fresh on, if_neg (by simp [frame_any_false other]), if_pos gone]

end

/-! ### Line reports (R171) -/

section
variable {s : State} {t p : Nat} {x : LineReport} {l : List LineReport}

/-- A report leaves what waits, before it is judged. -/
def State.reportTaken (s : State) (t p : Nat) (l : List LineReport) : State :=
  { s with adit.reports := smPut s.adit.reports (tk t p) l [] }

/-- The lead's own line at a report's position, where the report is of the lead's frame. -/
def State.ownLine (s : State) (t p : Nat) (x : LineReport) : Option (Nat × Nat × Nat) :=
  if (s.port t p).lastCnt = some x.cnt then (smGet s.adit.leadLines (tk t p) []).find? fun y => y.1 = x.pos else none

/-- A line and time that the lead's own line does not match. -/
def State.mismatch (s : State) (t p : Nat) (x : LineReport) : Bool :=
  match s.ownLine t p x with
  | some (_, ln, tm) => decide (ln ≠ x.line) || decide (s.a t (AD_SG_SKEW_SKEW p) * 8 < (x.tick - tm) * 10)
  | none => false

/-- The members' samples of columns of some rows are concealed. -/
def State.concealAll (s : State) (t p : Nat) (cols rows : List Nat) : State :=
  s.each (s.sgMembers t p) fun s u =>
    match (s.port u p).frame with
    | none => s
    | some f =>
      let asm := (s.port u p).asm.map fun r =>
        if r.1 ∈ rows then (r.1, r.2.map fun c => if c.1 ∈ cols then (c.1, s.adPed u p + flagCrc) else c) else r
      (s.setPort u p { s.port u p with asm := asm }).setAdStore u p (concealCols f.hdr (s.adPed u p) cols rows (s.adStore u p))

/-- The frame of a member whose line reports do not match its lead's. -/
def AdFrame.mismatched (f : AdFrame) (n : Nat) : AdFrame :=
  { (f.st stSgMismatch) with concMask := f.concMask ||| (2 ^ n - 1), crcLines := f.crcLines + n }

theorem AdFrame.mismatched_bit (f : AdFrame) (n : Nat) : bit (f.mismatched n).status stSgMismatch = true :=
  (orBit_testBit ..).trans (by simp)

theorem sgReport_first (hx : smGet s.adit.reports (tk t p) [] = x :: l) (ready : s.sgReady t p x = true) : s.sgReport t p =
    let q := s.reportTaken t p l
    let rl := ((s.ownLine t p x).map (·.2.1)).getD x.line
    let d := q.concealAll t p ((List.range (q.adN x.tile p)).flatMap (q.adCols x.tile p)) ((List.range (q.adGroupLines t p rl)).map (rl + ·))
    if ¬s.mismatch t p x then q
    else d.setPort x.tile p { d.port x.tile p with
      frame := (d.port x.tile p).frame.map fun f => f.mismatched (d.adN x.tile p)
      closing := (d.port x.tile p).closing.map fun f => f.mismatched (d.adN x.tile p) } := by
  have first : (smGet s.adit.reports (tk t p) []).find? (s.sgReady t p) = some x := by simp [hx, ready]
  unfold State.sgReport
  dsimp only
  rw [first, hx]
  dsimp only
  rw [List.erase_cons_head]
  rfl

/-- Samples gathered and rows stored change no port's frame. -/
theorem frame_setAsm (v u : Nat) (asm : List (Nat × SMap Nat)) (items : List Item) :
    (((s.setPort v p { s.port v p with asm := asm }).setAdStore v p items).port u p).frame = (s.port u p).frame := by
  rw [port_congr (setAdStore_adit_ports _ v p items)]
  by_cases hu : v = u
  · subst hu
    rw [port_setPort_same]
  · rw [port_setPort_ne _ _ _ _ _ _ (tk_tile_ne p hu)]

theorem concealAll_frame (u : Nat) (cols rows : List Nat) :
    ((s.concealAll t p cols rows).port u p).frame = (s.port u p).frame ∧ (s.concealAll t p cols rows).adit.reports = s.adit.reports := by
  refine each_induct (fun r => (r.port u p).frame = (s.port u p).frame ∧ r.adit.reports = s.adit.reports) s _ _ ⟨rfl, rfl⟩
    fun r v _ ⟨frame, reports⟩ => ?_
  split
  · exact ⟨frame, reports⟩
  · exact ⟨(frame_setAsm v u _ _).trans frame, reports⟩

theorem does_sgLineReport_matches (hl : s.live t 1 = true) (hp : p < 4) (hx : smGet s.adit.reports (tk t p) [] = x :: l)
    (ready : s.sgReady t p x = true) (good : (s.port t p).lastCnt = some x.cnt → ∃ tm,
      ((smGet s.adit.leadLines (tk t p) []).find? fun y => y.1 = x.pos) = some (x.pos, x.line, tm) ∧
      (x.tick - tm) * 10 ≤ s.a t (AD_SG_SKEW_SKEW p) * 8) : Does (.sgLineReport t p) s fun r =>
      smGet r.adit.reports (tk t p) [] = l ∧ r = { s with adit.reports := r.adit.reports } := by
  refine does_adit rfl hl hp ?_
  have matching : s.mismatch t p x = false := by
    unfold State.mismatch State.ownLine
    by_cases hc : (s.port t p).lastCnt = some x.cnt
    · obtain ⟨tm, own, soon⟩ := good hc
      rw [if_pos hc, own]
      simpa using soon
    · rw [if_neg hc]
  rw [sgReport_first hx ready]
  extract_lets q rl d
  rw [if_pos (by simp [matching])]
  exact ⟨smGet_smPut_same .., rfl⟩

theorem does_sgLineReport_mismatch {ln tm : Nat} {f : AdFrame} (hl : s.live t 1 = true) (hp : p < 4)
    (hx : smGet s.adit.reports (tk t p) [] = x :: l) (ready : s.sgReady t p x = true) (hc : (s.port t p).lastCnt = some x.cnt)
    (own : ((smGet s.adit.leadLines (tk t p) []).find? fun y => y.1 = x.pos) = some (x.pos, ln, tm)) (other : ln ≠ x.line)
    (hf : (s.port x.tile p).frame = some f) : Does (.sgLineReport t p) s fun r =>
      smGet r.adit.reports (tk t p) [] = l ∧ ∃ g, (r.port x.tile p).frame = some g ∧ bit g.status stSgMismatch = true := by
  refine does_adit rfl hl hp ?_
  have bad : s.mismatch t p x = true := by
    unfold State.mismatch State.ownLine
    rw [if_pos hc, own]
    simp [other]
  rw [sgReport_first hx ready]
  extract_lets q rl d
  rw [if_neg (by simp [bad])]
  obtain ⟨frame, reports⟩ := concealAll_frame (s := q) (t := t) (p := p) x.tile
    ((List.range (q.adN x.tile p)).flatMap (q.adCols x.tile p)) ((List.range (q.adGroupLines t p rl)).map (rl + ·))
  refine ⟨(congrArg (fun m => smGet m (tk t p) []) reports).trans (smGet_smPut_same ..), f.mismatched (d.adN x.tile p), ?_,
    f.mismatched_bit _⟩
  rw [port_setPort_same]
  exact congrArg (Option.map fun f : AdFrame => f.mismatched (d.adN x.tile p)) (frame.trans hf)

end

/-! ### Lateness (R166) -/

section
variable {s : State} {t p : Nat}

theorem does_aditFrameLate (hl : s.live t 1 = true) (hp : p < 4) (on : s.on t (AD_CTL_EN p) = true) (overdue : s.adOverdue t p = true)
    (first : (s.port t p).lateRaised = false) : Does (.aditFrameLate t p) s fun r =>
      r.evtStat t 68 = true ∧ r.port t p = { s.port t p with lateRaised := true } ∧ r.WordsButEvents s [] := by
  refine does_adit rfl hl hp ?_
  have raises : s.adLate t p = (s.setPort t p { s.port t p with lateRaised := true }).raise t 68 :=
    if_pos ⟨on, overdue, by simp [first]⟩
  rw [raises, port_congr (congrArg AditSt.ports (raise_adit _ t 68 (by decide))), port_setPort_same]
  refine ⟨raise_stat _ t 68 (by decide), rfl, fun u off ho hv _ => ?_⟩
  rw [word_raise _ t 68 u off (by decide) ho hv, word_setPort]

end

end Sys2Proof.Machine

namespace Sys2Proof.Machine

/-! ### The record of a closed frame (R176) -/

/-- What the end of a frame leaves on a tile: the ports, the registers of the block ADIT from ADp_CTL to the frame records, and status
bits that were set. -/
structure State.RecordKept (s r : State) (t : Nat) : Prop where
  ports : r.adit.ports = s.adit.ports
  words : ∀ off, 0x61000 ≤ off → off < 0x63000 → r.word t off = s.word t off
  events : ∀ k, k < 320 → s.evtStat t k = true → r.evtStat t k = true

namespace State.RecordKept

variable {s r q : State} {t u p sec id : Nat}

theorem refl (s : State) (t : Nat) : s.RecordKept s t := ⟨rfl, fun _ _ _ => rfl, fun _ _ h => h⟩

theorem trans (h : s.RecordKept r t) (g : r.RecordKept q t) : s.RecordKept q t :=
  ⟨g.ports.trans h.ports, fun off lo hi => (g.words off lo hi).trans (h.words off lo hi), fun k hk e => g.events k hk (h.events k hk e)⟩

theorem raise (h : s.RecordKept r t) (hid : id < 320) : s.RecordKept (r.raise t id) t := by
  refine h.trans ⟨congrArg AditSt.ports (raise_adit r t id hid), fun off lo hi => ?_, fun k hk e => raise_stat_keep r t id t k hid hk e⟩
  have ho : aditOff off := ⟨by omega, by omega⟩
  exact word_raise r t id t off hid ho.lt ho.eventOff

theorem when {b : Bool} {f : State → State} (h : s.RecordKept r t) (hf : s.RecordKept r t → s.RecordKept (f r) t) :
    s.RecordKept (r.when b f) t := by
  cases b with
  | false => exact h
  | true => exact hf h

theorem f (h : s.RecordKept r t) {q : FRef} (lo : 0x61000 ≤ q.off) (hi : q.off < 0x63000) : r.f t q = s.f t q :=
  f_of_word (h.words q.off lo hi)

theorem port (h : s.RecordKept r t) (p : Nat) : r.port t p = s.port t p := port_congr h.ports t p

/-- The end of a frame at a port or stripe section may exchange the section's words, which lie below ADp_CTL (R41). -/
theorem endSec (h : s.RecordKept r t) (hu : u < 4 ∨ 21 ≤ u ∧ u < 25) : s.RecordKept (r.endSec t u sec) t := by
  refine h.trans ?_
  have ports : (r.endSec t u sec).adit.ports = r.adit.ports := congrArg AditSt.ports (offBench_adit.endSec r t u sec)
  have low : ∀ w ∈ (sectionWords u).getD sec [], (wordAt u w + 0x8000 < 0x10000 ∨ 0x60000 ≤ wordAt u w + 0x8000) ∧
      (wordAt u w + 0x8000 < 0x61000 ∨ 0x63000 ≤ wordAt u w + 0x8000) := fun w hw => by
    have small := sectionWord_lt u sec hw
    unfold wordAt benchBase
    rcases hu with hu | hu
    · rw [if_pos (by omega)]
      omega
    · repeat rw [if_neg (by omega)]
      omega
  obtain ⟨_, words, _⟩ := exchangeSec_spec (r.setBusy t u sec false) t u sec (by omega) (by omega)
  have kept : ∀ off, off < 0x1000000 → (∀ w ∈ (sectionWords u).getD sec [], wordAt u w + 0x8000 ≠ off) →
      (r.endSec t u sec).word t off = r.word t off := fun off ho hn => by
    unfold State.endSec
    extract_lets idle
    split
    · refine words t off ho fun hm => ?_
      obtain ⟨w, hw, e⟩ := List.mem_map.1 hm
      exact hn w hw (Prod.mk.inj e).2
    · rfl
  refine ⟨ports, fun off lo hi => kept off (by omega) fun w hw e => ?_, fun k hk e => ?_⟩
  · have := (low w hw).2
    omega
  · have stat := evtStat_off k hk
    refine (evtStat_of_word (kept _ (by omega) fun w hw e => ?_)).trans e
    have := (low w hw).1
    omega

end State.RecordKept

section
variable {s : State} {t p lanes : Nat} {f : AdFrame}

/-- The nine words of a frame record. -/
def State.recordWords (s : State) (t p : Nat) (ws : List Nat) : State :=
  s.each (List.range 9) fun s i => s.setReg t (ADIT_FSTAT p + 4 * i) (ws.getD i 0)

/-- The events of a closed frame. -/
def State.recordEvents (s : State) (t p : Nat) (f : AdFrame) : State :=
  let s := s.raise t (64 + p)
  let s := s.each statusEvents fun s e => s.when (bit f.status e.1) fun s => s.raise t e.2
  let s := s.when (bit f.status stSgMismatch && !f.sgRaised) fun s => s.raise t 79
  let s := s.when (bit f.status stEmbTrunc || bit f.status stEmbErr) fun s => s.raise t 81
  s.when (f.crcLines != 0) fun s => s.raise t 72

/-- The close on its way downstream, and the end of the frame at the port's sections. -/
def State.recordClose (s : State) (t p st : Nat) : State := ((s.adPush t p (.closeF st)).endSec t p 0).endSec t (21 + p) 0

/-- The record of a frame whose port keeps no embedded data, as a chain of stages. The frame may carry more status by then. -/
theorem adRecord_eq (noSlot : s.a t (AD_EMB_SLOT_SLOT p) = 0) : ∃ g : AdFrame, g.hdr = f.hdr ∧ s.adRecord t p f lanes =
    (((s.endOverrun t 0 p).recordWords t p (orBit g.status 31 :: g.words lanes)).recordEvents t p g).recordClose t p (orBit g.status 31) := by
  unfold State.adRecord
  extract_lets +onlyGivenNames slotB slot f1 ovr f2
  refine ⟨f2, ?_, ?_⟩
  · simp only [f2, f1]
    split_ifs <;> rfl
  · have none : slotB = 0 := noSlot
    simp only [none, if_true]
    rfl

/-- Words written to registers in a row. -/
theorem rowWrites_reg (s : State) (t base : Nat) (ws : List Nat) (n i : Nat) (h : i < n) :
    (s.each (List.range n) fun s i => s.setReg t (base + 4 * i) (ws.getD i 0)).reg t (base + 4 * i) = ws.getD i 0 % 2 ^ 32 := by
  induction n with
  | zero => omega
  | succ n ih =>
    unfold State.each at ih ⊢
    rw [List.range_succ, List.foldl_append, List.foldl_cons, List.foldl_nil]
    by_cases hi : i = n
    · subst hi
      exact reg_setReg_same ..
    · rw [reg_setReg_tile_ne _ t _ (by omega)]
      exact ih (by omega)

theorem recordWords_ports (ws : List Nat) : (s.recordWords t p ws).adit.ports = s.adit.ports :=
  each_keeps (·.adit.ports) s _ _ fun _ _ => rfl

/-- The record leaves ADp_CTL. -/
theorem recordWords_ctl (hp : p < 4) (ws : List Nat) : (s.recordWords t p ws).f t (AD_CTL_EN p) = s.f t (AD_CTL_EN p) :=
  each_keeps (State.f · t (AD_CTL_EN p)) s _ _ fun r i => f_setReg_tile_ne r t _ (by simp [ADIT_FSTAT, AD_CTL_EN, AD_CTL]; omega)

theorem recordEvents_done (f : AdFrame) (hp : p < 4) : (s.recordEvents t p f).evtStat t (64 + p) = true ∧
    s.RecordKept (s.recordEvents t p f) t := by
  unfold State.recordEvents
  extract_lets done status mismatch embedded
  have all : ∀ r, done.RecordKept r t → done.RecordKept (r.when (f.crcLines != 0) fun s => s.raise t 72) t := fun r h =>
    h.when fun h => h.raise (by decide)
  have statuses : done.RecordKept status t := each_induct (fun r => done.RecordKept r t) done statusEvents _ (.refl done t)
    fun r e he hr => hr.when fun h => h.raise ((show ∀ e ∈ statusEvents, e.2 < 320 by decide) e he)
  have mismatches : done.RecordKept mismatch t := statuses.when fun h => h.raise (by decide)
  have kept := all embedded (mismatches.when fun h => h.raise (by decide))
  exact ⟨kept.events (64 + p) (by omega) (raise_stat s t (64 + p) (by omega)), ((State.RecordKept.refl s t).raise (by omega)).trans kept⟩

theorem recordClose_kept (st : Nat) (hp : p < 4) : s.RecordKept (s.recordClose t p st) t := by
  have pushed : s.RecordKept (s.adPush t p (.closeF st)) t := ⟨rfl, fun _ _ _ => rfl, fun _ _ e => e⟩
  exact (pushed.endSec (Or.inl hp)).endSec (Or.inr (by omega))

/-- What the record of a closed frame shows. -/
structure State.Recorded (s r : State) (t p : Nat) (f : AdFrame) : Prop where
  ports : r.adit.ports = s.adit.ports
  ctl : r.on t (AD_CTL_EN p) = s.on t (AD_CTL_EN p)
  done : r.evtStat t (64 + p) = true
  valid : bit (r.reg t (ADIT_FSTAT p)) 31 = true
  count : r.reg t (ADIT_FCNT p) = f.hdr.cnt % 2 ^ 32

theorem adRecord_recorded (hp : p < 4) (noSlot : s.a t (AD_EMB_SLOT_SLOT p) = 0) : s.Recorded (s.adRecord t p f lanes) t p f := by
  obtain ⟨g, hg, e⟩ := adRecord_eq (lanes := lanes) (f := f) noSlot
  rw [e]
  generalize hq : (s.endOverrun t 0 p).recordWords t p (orBit g.status 31 :: g.words lanes) = q
  obtain ⟨done, events⟩ := recordEvents_done (s := q) (t := t) g hp
  have close := recordClose_kept (s := q.recordEvents t p g) (t := t) (orBit g.status 31) hp
  have kept := events.trans close
  have words : ∀ i, i < 9 → q.reg t (ADIT_FSTAT p + 4 * i) = (orBit g.status 31 :: g.words lanes).getD i 0 % 2 ^ 32 := fun i hi => by
    rw [← hq]
    exact rowWrites_reg (s.endOverrun t 0 p) t (ADIT_FSTAT p) _ 9 i hi
  have reads : ∀ off, 0x61000 ≤ off → off < 0x63000 → ((q.recordEvents t p g).recordClose t p (orBit g.status 31)).reg t off = q.reg t off :=
    fun off lo hi => congrArg BitVec.toNat (kept.words off lo hi)
  refine ⟨?_, on_of_f ?_, close.events _ (by omega) done, ?_, ?_⟩
  · rw [kept.ports, ← hq]
    exact recordWords_ports _
  · rw [kept.f (by simp [AD_CTL_EN, AD_CTL]) (by simp [AD_CTL_EN, AD_CTL]; omega), ← hq]
    exact (recordWords_ctl hp _).trans (f_congr rfl)
  · rw [reads _ (by simp [ADIT_FSTAT]; omega) (by simp [ADIT_FSTAT]; omega)]
    have status := words 0 (by decide)
    rw [Nat.mul_zero, Nat.add_zero, List.getD_cons_zero] at status
    unfold bit
    rw [status, Nat.testBit_mod_two_pow, orBit_testBit]
    simp
  · rw [reads _ (by simp [ADIT_FCNT]; omega) (by simp [ADIT_FCNT]; omega)]
    have count := words 1 (by decide)
    rw [← hg]
    have place : ADIT_FCNT p = ADIT_FSTAT p + 4 * 1 := by
      unfold ADIT_FCNT ADIT_FSTAT
      omega
    rw [place, count]
    rfl

/-- What a port shows once its frame is recorded and closed. -/
structure State.FrameClosed (s r : State) (t p cnt : Nat) : Prop where
  frame : (r.port t p).frame = none
  lanes : (r.port t p).lanes = []
  closing : (r.port t p).closing = none
  state : r.f t (AD_PSTAT_STATE p) = b2n (s.on t (AD_CTL_EN p))
  done : r.evtStat t (64 + p) = true
  valid : bit (r.reg t (ADIT_FSTAT p)) 31 = true
  count : r.reg t (ADIT_FCNT p) = cnt % 2 ^ 32

theorem adIdle_closed {q : State} (hp : p < 4) (h : s.Recorded q t p f) : s.FrameClosed (q.adIdle t p) t p f.hdr.cnt := by
  obtain ⟨_, ctl, done, valid, count⟩ := h
  unfold State.adIdle
  extract_lets x idle
  have port : ∀ v, ((idle.setF t (AD_PSTAT_STATE p) v).port t p) = idle.port t p := fun v => port_congr rfl t p
  have shown : ∀ v off, off ≠ AD_PSTAT p → (idle.setF t (AD_PSTAT_STATE p) v).reg t off = q.reg t off := fun v off ho =>
    (reg_setF_tile_ne idle t v (Ne.symm ho)).trans (congrArg BitVec.toNat (word_setPort _))
  have on : idle.on t (AD_CTL_EN p) = s.on t (AD_CTL_EN p) := (on_setPort _ _).trans ctl
  refine ⟨?_, ?_, ?_, ?_, ?_, ?_, ?_⟩
  · rw [port, port_setPort_same]
  · rw [port, port_setPort_same]
  · rw [port, port_setPort_same]
  · rw [on, f_setF_same _ t (AD_PSTAT_STATE p) _ (by simp [AD_PSTAT_STATE])]
    cases s.on t (AD_CTL_EN p) <;> rfl
  · refine (evtStat_congr (shown _ _ ?_)).trans done
    have := evtStat_off (64 + p) (by omega)
    simp [AD_PSTAT]
    omega
  · rw [shown _ _ (by simp [ADIT_FSTAT, AD_PSTAT]; omega), valid]
  · rw [shown _ _ (by simp [ADIT_FCNT, AD_PSTAT]; omega), count]

/-! ### Frame End (R165) -/

theorem adCloseLine_empty (none : (s.port t p).lanes = []) : s.adCloseLine t p = s := by
  unfold State.adCloseLine
  simp [none]

/-- The open frame of a port in no group ends with every line received. -/
theorem adFinish_whole {lines sstat : Nat} (noSlot : s.a t (AD_EMB_SLOT_SLOT p) = 0) (alone : s.adSg t p = false)
    (hf : (s.port t p).frame = some f) (closing : (s.port t p).closing = none) (empty : (s.port t p).lanes = [])
    (whole : s.a t (AD_GEOM_H p) ≤ f.e) : ∃ (g : AdFrame) (n : Nat), g.hdr = f.hdr ∧
      s.adFinish t p (some (lines, sstat)) = (s.adRecord t p g n).adIdle t p := by
  have judged : ∀ (g : AdFrame) (n : Nat), (s.adJudgeConc t p g n).hdr = g.hdr := fun g n => by
    unfold State.adJudgeConc
    split <;> rfl
  have closes : ∀ g : AdFrame, s.adClose t p g =
      (s.adRecord t p (s.adJudgeConc t p g (popcount 16 g.concMask)) (popcount 16 g.concMask)).adIdle t p := fun g => by
    have slot : s.adSlot t p = ([], false) := if_pos noSlot
    unfold State.adClose
    simp [slot, alone]
  unfold State.adFinish
  rw [adCloseLine_empty empty]
  have full : ¬f.e < s.a t (AD_GEOM_H p) := Nat.not_lt.2 whole
  simp only [hf, closing, full, false_and, decide_false, when_false, Option.isSome_none, Bool.false_eq_true, if_false, Option.getD_some]
  rw [closes]
  refine ⟨_, _, ?_, rfl⟩
  rw [judged]
  split <;> rfl

theorem does_aditFrameEnd {lines sstat : Nat} (hl : s.live t 1 = true) (hp : p < 4) (hears : s.adDeaf t p = false)
    (hf : (s.port t p).frame = some f) (closing : (s.port t p).closing = none) (empty : (s.port t p).lanes = []) (started : f.started = true)
    (alone : s.adSg t p = false) (whole : s.a t (AD_GEOM_H p) ≤ f.e) (noSlot : s.a t (AD_EMB_SLOT_SLOT p) = 0) :
    Does (.aditFrameEnd t p lines sstat) s fun r =>
      (r.port t p).frame = none ∧ (r.port t p).lanes = [] ∧ r.f t (AD_PSTAT_STATE p) = 1 ∧ r.evtStat t (64 + p) = true ∧
      bit (r.reg t (ADIT_FSTAT p)) 31 = true ∧ r.reg t (ADIT_FCNT p) = f.hdr.cnt % 2 ^ 32 := by
  refine does_adit rfl hl hp ?_
  have on : s.on t (AD_CTL_EN p) = true := by
    unfold State.adDeaf at hears
    simp only [Bool.or_eq_false_iff, Bool.not_eq_false'] at hears
    exact hears.1.1.1.1
  have ends : s.adFrameEnd t p (lines % 65536) (sstat % 65536) = s.adFinish t p (some (lines % 65536, sstat % 65536)) := by
    unfold State.adFrameEnd
    rw [if_neg (by simp [hears]), hf, closing]
    exact if_pos started
  obtain ⟨g, n, hg, finishes⟩ := adFinish_whole (lines := lines % 65536) (sstat := sstat % 65536) noSlot alone hf closing empty whole
  rw [ends, finishes]
  obtain ⟨frame, lanes, _, state, done, valid, count⟩ := adIdle_closed hp (adRecord_recorded (f := g) (lanes := n) hp noSlot)
  exact ⟨frame, lanes, by rw [state, on]; rfl, done, valid, by rw [count, hg]⟩

/-! ### The combined status (R171) -/

/-- A member lays down its frame: rows that are not whole are filled, then the frame is recorded. -/
theorem sgFinish_closes (hp : p < 4) (noSlot : s.a t (AD_EMB_SLOT_SLOT p) = 0) : ∃ (q : State) (cnt : Nat),
    q.FrameClosed (s.sgFinish t p f lanes) t p cnt := by
  unfold State.sgFinish
  extract_lets x fr missing full filled g
  have fills : s.Stored filled := by
    simp only [filled]
    split
    · exact .refl s
    · exact (State.Stored.refl s).each fun q r hq => hq.adPush _
  exact ⟨filled, _, adIdle_closed hp (adRecord_recorded hp ((fills.f (aditOff_act hp)).trans noSlot))⟩

theorem does_sgFrameStatus (hl : s.live t 1 = true) (hp : p < 4) (hf : (s.port t p).closing = some f) (combined : f.combined = true)
    (member : s.adLead t p = false) (routed : s.Routed (s.a t (AD_SG_LEAD p)) t) (noSlot : s.a t (AD_EMB_SLOT_SLOT p) = 0) :
    Does (.sgFrameStatus t p) s fun r =>
      (r.port t p).frame = none ∧ (r.port t p).closing = none ∧ r.evtStat t (64 + p) = true := by
  refine does_adit rfl hl hp ?_
  have reach : s.seamReach (s.a t (AD_SG_LEAD p)) t = (s, true) := by
    unfold State.seamReach
    rw [routed]
  have finishes : s.sgStatus t p = s.sgFinish t p f f.concLanes := by
    unfold State.sgStatus
    rw [hf]
    dsimp only
    rw [if_pos ⟨combined, by simp [member]⟩, reach]
    exact when_true s fun s => s.sgFinish t p f f.concLanes
  obtain ⟨q, cnt, frame, _, closing, _, done, _, _⟩ := sgFinish_closes (f := f) (lanes := f.concLanes) hp noSlot
  rw [finishes]
  exact ⟨frame, closing, done⟩

end

end Sys2Proof.Machine

namespace Sys2Proof.Machine

/-! ### What a port and its frame keep -/

/-- The frame of a port, the clock, and the registers of the block ADIT are as they were. -/
structure State.FrameKept (s r : State) (t p : Nat) : Prop where
  frame : (r.port t p).frame = (s.port t p).frame
  now : r.now = s.now
  words : ∀ u off, aditOff off → r.word u off = s.word u off

namespace State.FrameKept

variable {s r q : State} {t p id : Nat}

theorem refl (s : State) (t p : Nat) : s.FrameKept s t p := ⟨rfl, rfl, fun _ _ _ => rfl⟩

theorem trans (h : s.FrameKept r t p) (g : r.FrameKept q t p) : s.FrameKept q t p :=
  ⟨g.frame.trans h.frame, g.now.trans h.now, fun u off ho => (g.words u off ho).trans (h.words u off ho)⟩

theorem stored (h : s.FrameKept r t p) (g : r.Stored q) : s.FrameKept q t p :=
  h.trans ⟨congrArg AdPort.frame (g.port t p), by rw [g.1], g.2⟩

theorem raise {u : Nat} (h : s.FrameKept r t p) (hid : id < 320) : s.FrameKept (r.raise u id) t p :=
  h.stored ((State.Stored.refl r).raise hid)

theorem when {b : Bool} {f : State → State} (h : s.FrameKept r t p) (hf : s.FrameKept r t p → s.FrameKept (f r) t p) :
    s.FrameKept (r.when b f) t p := by
  cases b with
  | false => exact h
  | true => exact hf h

theorem seamReach {u v : Nat} (h : s.FrameKept r t p) : s.FrameKept (r.seamReach u v).1 t p := by
  unfold State.seamReach
  split
  · exact h
  · exact h.raise (by decide)

theorem f (h : s.FrameKept r t p) {u : Nat} {q : FRef} (hq : aditOff q.off) : r.f u q = s.f u q := f_of_word (h.words u q.off hq)

/-- Samples that came early join the frame. -/
theorem sgEarly (h : s.FrameKept r t p) : s.FrameKept (r.sgEarly t p) t p := by
  refine h.trans ?_
  unfold State.sgEarly
  extract_lets x
  split
  · exact .refl r t p
  · exact ⟨by rw [port_setPort_same], rfl, fun _ _ _ => word_setPort _⟩

/-- The lead's record goes to its members. -/
theorem sgSend {f : FrameHdr} (h : s.FrameKept r t p) : s.FrameKept (r.sgSend t p f) t p := by
  unfold State.sgSend
  refine each_induct (fun q => s.FrameKept q t p) r _ _ h fun q u _ hq => ?_
  exact hq.seamReach.when fun h => h.trans ⟨rfl, rfl, fun _ _ _ => rfl⟩

/-- A register beyond the block ADIT. -/
theorem setReg {u off v : Nat} (h : s.FrameKept r t p) (lo : 0x70000 ≤ off) (hi : off < 0x1000000) : s.FrameKept (r.setReg u off v) t p :=
  h.trans ⟨rfl, rfl, fun _ o ho => word_setReg_ne r v (regKey_off_ne hi ho.lt (by have := ho.2; omega))⟩

/-- Rasters that follow the source (R246). -/
theorem sdiFrameStart {src tick : Nat} (h : s.FrameKept r t p) : s.FrameKept (r.sdiFrameStart t src tick) t p := by
  unfold State.sdiFrameStart
  refine each_induct (fun q => s.FrameKept q t p) r _ _ h fun q c hc hq => ?_
  have small : c < 4 := List.mem_range.1 hc
  have out : ∀ x, s.FrameKept (q.setOut t c x) t p := fun x => hq.trans ⟨rfl, rfl, fun _ _ _ => rfl⟩
  dsimp only
  split
  · exact hq
  · split
    · exact each_induct (fun q => s.FrameKept q t p) _ _ _ (out _) fun v l _ hv => hv.trans ⟨rfl, rfl, fun _ _ _ => rfl⟩
    · refine State.FrameKept.when ((out _).setReg ?_ ?_) fun h => (h.setReg (off := OC_STAT c) ?_ ?_).raise (by decide)
      all_goals
        simp only [OC_PHASE, OC_STAT]
        omega

end State.FrameKept

/-! ### The lead's Frame Start record (R170) -/

section
variable {s : State} {t p : Nat} {f : AdFrame}

/-- Whole rows of a recorded frame leave for the line store: the frame counts them. -/
theorem asmFlush_frame (hf : (s.port t p).frame = some f) (n : Nat) : (∃ o, ((s.asmFlush t p n).port t p).frame = some { f with out := o }) ∧
    (s.asmFlush t p n).adit.records = s.adit.records ∧ ∀ u off, aditOff off → (s.asmFlush t p n).word u off = s.word u off := by
  induction n generalizing s f with
  | zero => exact ⟨⟨f.out, hf⟩, rfl, fun _ _ _ => rfl⟩
  | succ n ih =>
    unfold State.asmFlush
    extract_lets x
    split
    · rename_i g row m l hg _
      obtain rfl : f = g := Option.some.inj (hf.symm.trans hg)
      split
      · generalize hq : s.setPort t p { x with asm := l, frame := some { f with out := row + 1 } } = q
        have frame : (q.port t p).frame = some { f with out := row + 1 } := by rw [← hq, port_setPort_same]
        have pushed := (State.Stored.refl q).adPush (t := t) (p := p) (.row row (stripeRow f.hdr 0 false m) true)
        obtain ⟨⟨o, out⟩, records, words⟩ := ih ((congrArg AdPort.frame (pushed.port t p)).trans frame)
        refine ⟨⟨o, out⟩, records.trans ?_, fun u off ho => (words u off ho).trans ((pushed.2 u off ho).trans ?_)⟩
        · rw [pushed.1, ← hq]
          rfl
        · rw [← hq, word_setPort]
      · exact ⟨⟨f.out, hf⟩, rfl, fun _ _ _ => rfl⟩
    · exact ⟨⟨f.out, hf⟩, rfl, fun _ _ _ => rfl⟩

/-- The open frame with the counter and time of the lead's record. -/
def AdFrame.joined (f : AdFrame) (h : FrameHdr) : AdFrame :=
  { f with hdr := { f.hdr with cnt := h.cnt, n := h.n, tick := h.tick }, recorded := true }

/-- The port with that frame. -/
def AdPort.withFrame (x : AdPort) (f : AdFrame) : AdPort := { x with frame := some f }

variable {h : FrameHdr} {l : List (FrameHdr × List Nat)}

/-- A record leaves what waits, and the port runs. -/
def State.recordTaken (s : State) (t p : Nat) (l : List (FrameHdr × List Nat)) : State :=
  ({ s with adit.records := smPut s.adit.records (tk t p) l [] } : State).setF t (AD_PSTAT_STATE p) 2

/-- A record of the frame that the port has open, of the same geometry: the frame takes it, and its whole rows leave. -/
theorem sgRecord_joins (hr : smGet s.adit.records (tk t p) [] = (h, s.sgGeometry t p) :: l) (on : s.on t (AD_CTL_EN p) = true)
    (fresh : s.stale t p = false) (stripe : s.stale t (21 + p) = false) (hf : (s.port t p).frame = some f) (started : f.started = true)
    (open_ : f.recorded = false) (loud : (s.port t p).quiet = false) (mine : s.aOn t (AD_FMT_CNT_MODE p) = true ∨ f.hdr.cnt = h.cnt) :
    s.sgRecord t p =
      let q := (s.recordTaken t p l).setPort t p (((s.recordTaken t p l).port t p).withFrame (f.joined h))
      let r := ((q.sgEarly t p).adPush t p (.openF (f.joined h).hdr)).asmFlush t p 65536
      r.when (r.adN t p = 0) fun s => s.adClose t p ((s.port t p).frame.getD (f.joined h)) := by
  generalize hq : ({ s with adit.records := smPut s.adit.records (tk t p) l [] } : State) = q
  have qOn : q.on t (AD_CTL_EN p) = true := by rw [← hq]; exact on
  have qFresh : ¬(q.stale t p = true ∨ q.stale t (21 + p) = true) := by
    have kept : q.stale t p = s.stale t p ∧ q.stale t (21 + p) = s.stale t (21 + p) := by rw [← hq]; exact ⟨rfl, rfl⟩
    simp [kept, fresh, stripe]
  have port : q.port t p = s.port t p := by rw [← hq]; rfl
  have mode : q.aOn t (AD_FMT_CNT_MODE p) = s.aOn t (AD_FMT_CNT_MODE p) := by rw [← hq]; rfl
  have past : q.sgPast t p h.cnt = false := by
    unfold State.sgPast
    rcases mine with m | m <;> simp [port, mode, hf, loud, m]
  have has : q.sgHas t p h.cnt = true := by
    unfold State.sgHas
    rcases mine with m | m <;> simp [port, mode, hf, started, open_, m]
  have same : ¬q.sgGeometry t p ≠ s.sgGeometry t p := by
    rw [← hq]
    exact not_not.2 rfl
  have still : ((q.setF t (AD_PSTAT_STATE p) 2).port t p).frame = some f := (congrArg AdPort.frame port).trans hf
  unfold State.sgRecord State.recordTaken
  rw [hr]
  dsimp only
  rw [hq, if_neg (not_not.2 qOn), if_neg qFresh, if_neg (by simp [past]), if_pos has, still]
  dsimp only
  rw [if_neg same]
  simp only [same, decide_false, when_false]
  rfl

theorem does_sgFrameStartRecord (hl : s.live t 1 = true) (hp : p < 4)
    (hr : smGet s.adit.records (tk t p) [] = (h, s.sgGeometry t p) :: l) (on : s.on t (AD_CTL_EN p) = true) (fresh : s.stale t p = false)
    (stripe : s.stale t (21 + p) = false) (hf : (s.port t p).frame = some f) (started : f.started = true) (open_ : f.recorded = false)
    (loud : (s.port t p).quiet = false) (mine : s.aOn t (AD_FMT_CNT_MODE p) = true ∨ f.hdr.cnt = h.cnt) (lanes : s.adN t p ≠ 0) :
    Does (.sgFrameStartRecord t p) s fun r =>
      smGet r.adit.records (tk t p) [] = l ∧ r.f t (AD_PSTAT_STATE p) = 2 ∧
      ∃ g, (r.port t p).frame = some g ∧ g.recorded = true ∧ g.hdr.cnt = h.cnt ∧ g.hdr.n = h.n ∧ g.hdr.tick = h.tick ∧
        g.status = f.status := by
  refine does_adit rfl hl hp ?_
  have joins := sgRecord_joins hr on fresh stripe hf started open_ loud mine
  extract_lets q r at joins
  have kept : q.FrameKept (q.sgEarly t p) t p := (State.FrameKept.refl q t p).sgEarly
  have pushed := (State.Stored.refl (q.sgEarly t p)).adPush (t := t) (p := p) (.openF (f.joined h).hdr)
  have frame : (q.port t p).frame = some (f.joined h) := by
    rw [port_setPort_same]
    rfl
  obtain ⟨⟨o, out⟩, records, words⟩ := asmFlush_frame ((congrArg AdPort.frame (pushed.port t p)).trans (kept.frame.trans frame)) 65536
  have shown : ∀ {c : FRef}, aditOff c.off → r.f t c = (s.recordTaken t p l).f t c := fun {c} hc =>
    f_of_word ((words t _ hc).trans ((pushed.2 t _ hc).trans ((kept.words t _ hc).trans (word_setPort _))))
  have other : (AD_PSTAT_STATE p).off ≠ (AD_LANES_NL p).act.off := by
    simp [AD_PSTAT_STATE, AD_PSTAT, AD_LANES_NL, AD_LANES, FRef.act]
    omega
  have bound : r.adN t p = s.adN t p := by
    unfold State.adN State.a
    rw [shown (aditOff_act hp)]
    exact congrArg nlLanes ((f_setF_tile_ne _ t 2 other).trans (f_congr rfl))
  have taken : s.sgRecord t p = r := by
    rw [joins, bound]
    simp [lanes]
  have recorded : s.frameRecord t p = r := by
    unfold State.frameRecord
    extract_lets had v
    have hv : v = r := taken
    rw [hv, out]
    exact if_neg fun h => lanes (bound ▸ h.1)
  rw [recorded]
  refine ⟨?_, ?_, _, out, rfl, rfl, rfl, rfl, rfl⟩
  · have early : (q.sgEarly t p).adit.records = q.adit.records := by
      unfold State.sgEarly
      extract_lets x
      split <;> rfl
    rw [records, pushed.1]
    exact (congrArg (fun m => smGet m (tk t p) []) early).trans (smGet_smPut_same ..)
  · rw [shown (aditOff_of hp)]
    exact f_setF_same _ t (AD_PSTAT_STATE p) 2 (by simp [AD_PSTAT_STATE])

end

end Sys2Proof.Machine

namespace Sys2Proof.Machine

/-! ### The markers of a port's lanes (R138, R139) -/

/-- What markers leave: sensor ingress, time, every register but events and the lanes' status and skew words; and the locked lanes. -/
structure State.Marked (s r : State) (t : Nat) : Prop where
  adit : r.adit = s.adit
  now : r.now = s.now
  time : r.time = s.time
  words : ∀ u off, off < 0x1000000 → eventOff off = false → off < 0x40000 ∨ 0x50000 ≤ off ∨ off % 0x800 = 0 → r.word u off = s.word u off
  locked : ∀ l, l < 32 → r.laneLocked t l = s.laneLocked t l

namespace State.Marked

variable {s r q : State} {t p l lag : Nat} {b : Bool}

theorem refl (s : State) (t : Nat) : s.Marked s t := ⟨rfl, rfl, rfl, fun _ _ _ _ _ => rfl, fun _ _ => rfl⟩

/-- The lanes' registers lie past those of events. -/
theorem eventOff_lanes {off : Nat} (h : 0x40000 ≤ off) : eventOff off = false := by
  simp only [eventOff, Bool.and_eq_false_iff, decide_eq_false_iff_not]
  omega

/-- A flag of a lane's status word other than LOCKED. -/
theorem flag {n : Nat} (h : s.Marked r t) (hl : l < 32) (lo : 2 ≤ n) (hi : n < 32) : s.Marked (r.setB t ⟨LANE_STAT l, n, 1⟩ b) t := by
  obtain ⟨adit, now, time, words, locked⟩ := h
  refine ⟨adit, now, time, fun u off ho he hoff => (word_setB_ne r b (regKey_off_ne ?_ ho ?_)).trans (words u off ho he hoff),
    fun k hk => Eq.trans ?_ (locked k hk)⟩
  · simp only [LANE_STAT]
    omega
  · simp only [LANE_STAT]
    omega
  · by_cases same : l = k
    · exact on_setB_apart r t b (congrArg LANE_STAT same) (by simp; omega) (Or.inr (by simpa [LANE_STAT_LOCKED] using lo))
    · exact on_of_f (f_setB_tile_ne r t b (by simp [LANE_STAT, LANE_STAT_LOCKED, same]))

/-- A lane's skew. -/
theorem skew {v : Nat} (h : s.Marked r t) (hl : l < 32) : s.Marked (r.setF t (LANE_SKEW_SKEW l) v) t := by
  obtain ⟨adit, now, time, words, locked⟩ := h
  refine ⟨adit, now, time, fun u off ho he hoff => (word_setF_ne r _ v (regKey_off_ne ?_ ho ?_)).trans (words u off ho he hoff),
    fun k hk => Eq.trans (on_of_f (f_setF_tile_ne r t v ?_)) (locked k hk)⟩
  all_goals
    simp only [LANE_SKEW_SKEW, LANE_SKEW, LANE_STAT_LOCKED, LANE_STAT]
    omega

theorem raise {id : Nat} (h : s.Marked r t) (hid : id < 320) : s.Marked (r.raise t id) t := by
  obtain ⟨adit, now, time, words, locked⟩ := h
  refine ⟨(raise_adit r t id hid).trans adit, (raise_now r t id hid).trans now, (raise_time r t id hid).trans time,
    fun u off ho he hoff => (word_raise r t id u off hid ho he).trans (words u off ho he hoff), 
    fun l hl => (on_of_f (f_raise r t id t _ hid ?_ (eventOff_lanes ?_))).trans (locked l hl)⟩
  all_goals
    simp only [LANE_STAT_LOCKED, LANE_STAT]
    omega

theorem laneMarker (h : s.Marked r t) (hl : l < 32) : s.Marked (r.laneMarker t l lag).1 t := by
  unfold State.laneMarker
  split
  · exact h
  · split
    · exact (h.skew hl).flag hl (by decide) (by decide)
    · exact (h.flag hl (by decide) (by decide)).raise (by decide)

theorem laneLive (h : s.Marked r t) (hl : l < 32) : r.laneLive t l = s.laneLive t l := by
  refine laneLive_congr (h.words t _ ?_ (eventOff_lanes ?_) ?_) (h.words t _ (by decide) (by decide) (by decide)) h.time
  all_goals
    simp only [LANE_CTL]
    omega

theorem aditWords (h : s.Marked r t) (u off : Nat) (ho : aditOff off) : r.word u off = s.word u off :=
  h.words u off ho.lt ho.eventOff (Or.inr (Or.inl (Nat.le_trans (by decide) ho.1)))

theorem laneNo (h : s.Marked r t) (hp : p < 4) (k : Nat) : r.adLaneNo t p k = s.adLaneNo t p k :=
  congrArg (· + k) (f_of_word (h.aditWords t _ (aditOff_act hp)))

end State.Marked

section
variable {s : State} {t p k : Nat} {lags : List Nat}

/-- A lane's marker at a Frame Start: the lanes that take part and those excluded so far. -/
def markLane (t p : Nat) (lags : List Nat) (a : State × List Nat × List Nat) (k : Nat) : State × List Nat × List Nat :=
  let l := a.1.adLaneNo t p k
  let m := a.1.laneMarker t l (lags.getD k 65536)
  (m.1, if m.2 then a.2.1 ++ [k] else a.2.1, if (a.1.laneLocked t l && a.1.laneLive t l) && !m.2 then a.2.2 ++ [k] else a.2.2)

/-- The lanes whose marker counts: those that deliver one, and those excluded for it. -/
def State.markerLanes (s : State) (t p : Nat) (lags : List Nat) : List Nat :=
  (List.range (s.adN t p)).filter fun k =>
    lags.getD k 65536 < 65536 || (lags.any (· < 32) && !s.on t (LANE_STAT_HELD (s.adLaneNo t p k)))

theorem adMarkers_eq : s.adMarkers t p lags = (s.markerLanes t p lags).foldl (markLane t p lags) (s, [], []) := rfl

/-- A port's lanes are lanes of the tile's 32 at most (R153). -/
theorem adLaneNo_lt (h : k < s.adN t p) : s.adLaneNo t p k < 32 := by
  have base : s.a t (AD_LANES_LANE_BASE p) < 16 := bits_lt _ _ _
  have count : ∀ c, nlLanes c ≤ 16 := fun c => by
    unfold nlLanes
    match c with
    | 0 | 1 | 2 | 3 | 4 | 5 => decide
    | c + 6 => simp
  have : k < 16 := Nat.lt_of_lt_of_le h (count _)
  unfold State.adLaneNo
  omega

theorem markerLanes_lt (h : k ∈ s.markerLanes t p lags) : s.adLaneNo t p k < 32 :=
  adLaneNo_lt (List.mem_range.1 (List.mem_filter.1 h).1)

theorem markLane_marked {a : State × List Nat × List Nat} (hp : p < 4) (h : s.Marked a.1 t) (hk : s.adLaneNo t p k < 32) :
    s.Marked (markLane t p lags a k).1 t :=
  h.laneMarker (by rw [h.laneNo hp]; exact hk)

theorem adMarkers_marked (hp : p < 4) : s.Marked (s.adMarkers t p lags).1 t := by
  rw [adMarkers_eq]
  exact List.foldlRecOn (motive := fun a : State × List Nat × List Nat => s.Marked a.1 t) _ _ (.refl s t) fun _ h _ hk =>
    markLane_marked hp h (markerLanes_lt hk)

/-- A lane that has come takes part: the lanes that take part are not none. -/
theorem markLanes_some (hp : p < 4) (came : lags.getD k 65536 < 32) (locked : s.laneLocked t (s.adLaneNo t p k) = true)
    (live : s.laneLive t (s.adLaneNo t p k) = true) (ks : List Nat) (a : State × List Nat × List Nat) (h : s.Marked a.1 t)
    (lanes : ∀ j ∈ ks, s.adLaneNo t p j < 32) (one : k ∈ ks ∨ a.2.1 ≠ []) : (ks.foldl (markLane t p lags) a).2.1 ≠ [] := by
  induction ks generalizing a with
  | nil => simpa using one
  | cons j ks ih =>
    have small := lanes j (by simp)
    refine ih _ (markLane_marked hp h small) (fun i hi => lanes i (by simp [hi])) ?_
    rcases one with hk | had
    · rcases List.mem_cons.1 hk with rfl | hk
      · right
        have takes : (a.1.laneMarker t (a.1.adLaneNo t p k) (lags.getD k 65536)).2 = true := by
          unfold State.laneMarker
          rw [h.laneNo hp, h.locked _ small, h.laneLive small, if_neg (by simp [locked, live]), if_pos came]
        simp only [markLane, takes, if_true]
        simp
      · exact .inl hk
    · right
      simp only [markLane]
      split
      · simp
      · exact had

theorem adMarkers_some (hp : p < 4) (hk : k < s.adN t p) (came : lags.getD k 65536 < 32)
    (locked : s.laneLocked t (s.adLaneNo t p k) = true) (live : s.laneLive t (s.adLaneNo t p k) = true) : (s.adMarkers t p lags).2.1 ≠ [] := by
  rw [adMarkers_eq]
  refine markLanes_some hp came locked live _ _ (.refl s t) (fun _ => markerLanes_lt) (.inl (List.mem_filter.2 ⟨List.mem_range.2 hk, ?_⟩))
  have : lags.getD k 65536 < 65536 := Nat.lt_trans came (by decide)
  rw [decide_eq_true this]
  rfl

end

end Sys2Proof.Machine

namespace Sys2Proof.Machine

/-! ### Frame Start (R165, R166) -/

section
variable {s r q : State} {t p fcnt : Nat} {lags : List Nat}

theorem State.FrameKept.marked (h : s.FrameKept r t p) (g : r.Marked q t) : s.FrameKept q t p :=
  h.trans ⟨congrArg AdPort.frame (port_congr (congrArg AditSt.ports g.adit) t p), g.now, g.aditWords⟩

/-- Lateness touches neither the frame nor the line in hand. -/
theorem adLate_port : s.FrameKept (s.adLate t p) t p ∧ ((s.adLate t p).port t p).lanes = (s.port t p).lanes := by
  unfold State.adLate
  split
  · generalize hv : s.setPort t p { s.port t p with lateRaised := true } = v
    have port : v.port t p = { s.port t p with lateRaised := true } := by rw [← hv, port_setPort_same]
    have kept : s.FrameKept v t p := ⟨by rw [port], by rw [← hv]; rfl, fun u off _ => by rw [← hv, word_setPort]⟩
    refine ⟨kept.raise (by decide), ?_⟩
    rw [((State.Stored.refl v).raise (by decide)).port, port]
  · exact ⟨.refl s t p, rfl⟩

theorem adNextFrame_none (hf : (s.port t p).frame = none) (empty : (s.port t p).lanes = []) : s.adNextFrame t p = s := by
  unfold State.adNextFrame State.adFinish
  rw [adCloseLine_empty empty]
  simp only [hf]

/-- A Frame Start of the port's own source, with a lane that takes part, opens a frame. -/
theorem adFrameStart_opens (hp : p < 4) (on : s.on t (AD_CTL_EN p) = true) (fresh : s.stale t p = false) (stripe : s.stale t (21 + p) = false)
    (hf : (s.port t p).frame = none) (empty : (s.port t p).lanes = []) (takes : (s.adMarkers t p lags).2.1 ≠ []) :
    ∃ (q : State) (ref exc : Nat) (late : Bool), s.FrameKept q t p ∧
      s.adFrameStart t p (s.a t (AD_FMT_SRC_ID p)) fcnt lags = q.adOpen t p ref exc fcnt late := by
  have joins : s.adJoins t p fcnt = false := by
    unfold State.adJoins
    rw [hf]
  obtain ⟨late, lanes⟩ := adLate_port (s := s) (t := t) (p := p)
  have next : (s.adLate t p).adNextFrame t p = s.adLate t p := adNextFrame_none (late.frame.trans hf) (lanes.trans empty)
  unfold State.adFrameStart
  rw [if_neg (not_not.2 on), if_neg (by simp [fresh, stripe])]
  cases hm : (s.adMarkers t p lags).2.1 with
  | nil => exact absurd hm takes
  | cons k0 ks =>
    simp only [beq_self_eq_true, when_true, joins, next, Bool.false_eq_true, if_false]
    have kept := late.marked (adMarkers_marked (s := s.adLate t p) (lags := lags) hp)
    generalize State.adMarkers _ t p lags = m at kept ⊢
    have src : m.1.a t (AD_FMT_SRC_ID p) = s.a t (AD_FMT_SRC_ID p) := kept.f (aditOff_act hp)
    rw [if_neg (not_not.2 src.symm)]
    exact ⟨_, _, _, _, kept.trans adLate_port.1, rfl⟩

theorem adStamp_sent (sent : s.aOn t (AD_FMT_CNT_MODE p) = false) : (s.adStamp t p fcnt).2.1 = fcnt % 2 ^ 32 ∧
    s.FrameKept (s.adStamp t p fcnt).1 t p := by
  unfold State.adStamp
  extract_lets n x loc cnt jump iv
  have hl : loc = false := sent
  refine ⟨?_, ?_, rfl, fun u off _ => word_setPort _⟩
  · simp [cnt, hl]
  · rw [port_setPort_same]

/-- A frame opened by a Frame Start stands on the port, whose state is RUN. -/
structure State.Opened (r : State) (t p cnt tick : Nat) : Prop where
  state : r.f t (AD_PSTAT_STATE p) = 2
  frame : ∃ f, (r.port t p).frame = some f ∧ f.started = true ∧ f.hdr.src = p ∧ f.hdr.cnt = cnt ∧ f.hdr.tick = tick ∧ f.e = 0

theorem State.Opened.kept {cnt tick : Nat} (hp : p < 4) (h : r.Opened t p cnt tick) (g : r.FrameKept q t p) : q.Opened t p cnt tick := by
  obtain ⟨state, f, hf, opened⟩ := h
  exact ⟨(g.f (aditOff_of hp)).trans state, f, g.frame.trans hf, opened⟩

theorem setPort_opened {cnt tick : Nat} {x : AdPort} {f : AdFrame} (hf : x.frame = some f)
    (opened : f.started = true ∧ f.hdr.src = p ∧ f.hdr.cnt = cnt ∧ f.hdr.tick = tick ∧ f.e = 0) :
    ((s.setPort t p x).setF t (AD_PSTAT_STATE p) 2).Opened t p cnt tick :=
  ⟨f_setF_same _ t (AD_PSTAT_STATE p) 2 (by simp [AD_PSTAT_STATE]), f, (congrArg AdPort.frame (port_setPort_same s t p x)).trans hf, opened⟩

theorem adOpen_opened {ref exc : Nat} {late : Bool} (hp : p < 4) (sent : s.aOn t (AD_FMT_CNT_MODE p) = false) (hf : (s.port t p).frame = none) :
    (s.adOpen t p ref exc fcnt late).Opened t p (fcnt % 2 ^ 32) s.now := by
  obtain ⟨count, stamped⟩ := adStamp_sent (fcnt := fcnt) sent
  unfold State.adOpen
  generalize s.adStamp t p fcnt = m at count stamped
  obtain ⟨v, cnt, jump⟩ := m
  dsimp -zeta only at count stamped ⊢
  extract_lets v1 h0 h1 v2 v3 hdr lead status old f x v4 v5 v6
  have now : v3.now = s.now :=
    (offBench_now.beginSec v2 t p 0 h1).trans ((offBench_now.beginSec v1 t _ 0 h1).trans ((offBench_now.frameStartPoint v t p cnt).trans stamped.now))
  have adit : v3.adit = v.adit :=
    (offBench_adit.beginSec v2 t p 0 h1).trans ((offBench_adit.beginSec v1 t _ 0 h1).trans (offBench_adit.frameStartPoint v t p cnt))
  clear_value v3
  have none : old = none := (congrArg AdPort.frame (port_congr (congrArg AditSt.ports adit) t p)).trans (stamped.frame.trans hf)
  have new : f = { hdr := hdr, status := status, excluded := exc, started := true, recorded := lead } := by
    simp only [f, none]
  have opened : f.started = true ∧ f.hdr.src = p ∧ f.hdr.cnt = fcnt % 2 ^ 32 ∧ f.hdr.tick = s.now ∧ f.e = 0 := by
    rw [new]
    exact ⟨rfl, rfl, count, now, rfl⟩
  clear_value f status lead
  have stands : (v4.setF t (AD_PSTAT_STATE p) 2).Opened t p (fcnt % 2 ^ 32) s.now := setPort_opened rfl opened
  refine stands.kept hp (State.FrameKept.when (State.FrameKept.when (State.FrameKept.refl _ t p).sgEarly fun h => ?_) fun h => ?_)
  · exact h.stored ((State.Stored.refl _).adPush _)
  · exact h.trans (State.FrameKept.sgSend ⟨rfl, rfl, fun _ _ _ => rfl⟩)

theorem does_aditFrameStart {k : Nat} (hl : s.live t 1 = true) (hp : p < 4) (on : s.on t (AD_CTL_EN p) = true) (fresh : s.stale t p = false)
    (stripe : s.stale t (21 + p) = false) (hf : (s.port t p).frame = none) (empty : (s.port t p).lanes = [])
    (sent : s.aOn t (AD_FMT_CNT_MODE p) = false) (hk : k < s.adN t p) (came : lags.getD k 65536 < 32)
    (locked : s.laneLocked t (s.adLaneNo t p k) = true) (live : s.laneLive t (s.adLaneNo t p k) = true)
    (src : s.a t (AD_FMT_SRC_ID p) < 256) : Does (.aditFrameStart t p (s.a t (AD_FMT_SRC_ID p)) fcnt lags) s fun r =>
      r.f t (AD_PSTAT_STATE p) = 2 ∧ ∃ f, (r.port t p).frame = some f ∧ f.started = true ∧ f.hdr.src = p ∧ f.hdr.cnt = fcnt % 2 ^ 32 ∧
        f.hdr.tick = s.now ∧ f.e = 0 := by
  refine does_adit rfl hl hp ?_
  obtain ⟨q, ref, exc, late, kept, opens⟩ := adFrameStart_opens (fcnt := fcnt % 2 ^ 32) hp on fresh stripe hf empty
    (adMarkers_some hp hk came locked live)
  have opened := adOpen_opened (fcnt := fcnt % 2 ^ 32) (ref := ref) (exc := exc) (late := late) hp
    ((on_of_f (kept.f (aditOff_act hp))).trans sent) (kept.frame.trans hf)
  rw [Nat.mod_mod, kept.now] at opened
  have ends : (s.frameStart t p (s.a t (AD_FMT_SRC_ID p)) (fcnt % 2 ^ 32) lags).Opened t p (fcnt % 2 ^ 32) s.now := by
    unfold State.frameStart
    rw [opens]
    dsimp only
    split
    · split
      · exact opened.kept hp (State.FrameKept.refl _ t p).sdiFrameStart
      · exact opened
    · exact opened
  rw [Nat.mod_eq_of_lt src]
  exact ⟨ends.state, ends.frame⟩

end

end Sys2Proof.Machine

/-! ## O36 -/

namespace Sys2Proof.Machine

/-- Settles O36: each command's lemma gives its part (R165 to R171, R176; what becomes of raw samples of a frame that is not open is
log 90). -/
theorem aditFrameCommandsComplete : Obligations.AditFrameCommandsComplete := by
  unfold Obligations.AditFrameCommandsComplete
  exact ⟨fun _ _ _ _ _ _ => does_aditFrameStart, fun _ _ _ _ _ _ => does_aditFrameEnd, fun _ _ _ => does_aditFrameLate,
    fun _ _ _ _ _ _ => does_sgFrameStartRecord,
    fun _ _ _ _ _ hl hp hx ready => ⟨does_sgLineReport_matches hl hp hx ready, fun _ _ _ => does_sgLineReport_mismatch hl hp hx ready⟩,
    fun _ _ _ _ => does_sgFrameStatus,
    fun _ _ _ _ _ hl hp hx fresh on => ⟨fun _ => does_sgRawReceive_joins hl hp hx fresh on, does_sgRawReceive_waits hl hp hx fresh on,
      does_sgRawReceive_drops hl hp hx fresh on⟩⟩

end Sys2Proof.Machine

/-!
# What stores to DRAM leave

A unit's write of bytes changes registers, the memory controllers, the stores on their way, and what occurrences of events touch. One rule
per operation, in the order of the model.
-/

namespace Sys2Proof.Machine

/-- Registers, memory controllers, stores on their way, events and crews apart, the state is as it was. -/
def State.OnlyDram (s r : State) : Prop :=
  r = { s with regs := r.regs, mem := r.mem, writes := r.writes, evt := r.evt, core.crews := r.core.crews }

namespace State.OnlyDram

variable {s r q : State} {t c a n id port : Nat} {bs : List Nat} {poison b : Bool}

theorem refl (s : State) : s.OnlyDram s := rfl

theorem trans (h : s.OnlyDram r) (g : r.OnlyDram q) : s.OnlyDram q := by
  unfold State.OnlyDram at h g ⊢
  rw [h] at g
  exact g

theorem each {α : Type} {l : List α} {f : State → α → State} (h : s.OnlyDram r) (hf : ∀ q a, s.OnlyDram q → s.OnlyDram (f q a)) :
    s.OnlyDram (r.each l f) := each_induct s.OnlyDram r l f h fun q a _ hq => hf q a hq

theorem when {f : State → State} (h : s.OnlyDram r) (hf : s.OnlyDram r → s.OnlyDram (f r)) : s.OnlyDram (r.when b f) := by
  cases b with
  | false => exact h
  | true => exact hf h

theorem ite {p : Prop} [Decidable p] (hr : s.OnlyDram r) (hq : s.OnlyDram q) : s.OnlyDram (if p then r else q) := by
  split
  · exact hr
  · exact hq

theorem setReg {off v : Nat} (h : s.OnlyDram r) : s.OnlyDram (r.setReg t off v) := h.trans rfl
theorem setF {f : FRef} {v : Nat} (h : s.OnlyDram r) : s.OnlyDram (r.setF t f v) := h.trans rfl
theorem setB {f : FRef} {v : Bool} (h : s.OnlyDram r) : s.OnlyDram (r.setB t f v) := h.trans rfl
theorem addF {f : FRef} {v : Nat} (h : s.OnlyDram r) : s.OnlyDram (r.addF t f v) := h.trans rfl
theorem setReg64 {lo v : Nat} (h : s.OnlyDram r) : s.OnlyDram (r.setReg64 t lo v) := h.trans rfl
theorem mem {m : MemSt} (h : s.OnlyDram r) : s.OnlyDram { r with mem := m } := h.trans rfl
theorem setMcChan {x : McChan} (h : s.OnlyDram r) : s.OnlyDram (r.setMcChan t c x) := h.trans rfl
theorem setEcc {err : Nat} (h : s.OnlyDram r) : s.OnlyDram (r.setEcc t a err b) := h.trans rfl
theorem setInjected (h : s.OnlyDram r) : s.OnlyDram (r.setInjected t a b) := h.trans rfl
theorem setCorr {l : List CorrEnt} (h : s.OnlyDram r) : s.OnlyDram (r.setCorr t l) := h.trans rfl

theorem raiseX (h : s.OnlyDram r) (hid : id < 320) : s.OnlyDram (r.raiseX t id b) := by
  refine h.trans ?_
  unfold State.OnlyDram
  rw [(raiseX_onlyEvents r t id b hid).1]

theorem raise (h : s.OnlyDram r) (hid : id < 320) : s.OnlyDram (r.raise t id) := h.raiseX hid

theorem setDbytes (h : s.OnlyDram r) : s.OnlyDram (r.setDbytes t a bs) := by
  induction bs generalizing r a with
  | nil => exact h
  | cons _ _ ih => exact ih (h.trans rfl)

/-! ### The correction log, UE count and failure (R409, R422, R423) -/

theorem logCorr (h : s.OnlyDram r) : s.OnlyDram (r.logCorr t a b).1 := by
  unfold State.logCorr
  extract_lets n l x q lim addr
  have counted : s.OnlyDram q := h.mem
  clear_value q
  split
  · dsimp only
    split <;> dsimp only
    · exact counted.setCorr.raiseX (by decide)
    · exact counted.setCorr
  · generalize hp : (if l.length < corrCap then _ else _ : State × Bool) = p
    have placed : s.OnlyDram p.1 := by
      rw [← hp]
      split
      · exact counted.setCorr
      · split
        · dsimp only
          exact counted.mem.setCorr.raise (by decide)
        · exact counted.addF
    obtain ⟨v, _⟩ := p
    dsimp only at placed ⊢
    split
    · exact placed.raiseX (by decide)
    · exact placed

theorem corrWritten (h : s.OnlyDram r) : s.OnlyDram (r.corrWritten t a) := h.setCorr.ite h

theorem mcFail (h : s.OnlyDram r) : s.OnlyDram (r.mcFail t c) := h.ite (h.setF.setMcChan.setF.raise (by decide))

theorem countUe (h : s.OnlyDram r) : s.OnlyDram (r.countUe t c) := by
  unfold State.countUe
  extract_lets x l q
  have noted : s.OnlyDram q := h.setMcChan
  exact noted.when fun h => h.mcFail

/-! ### Words and runs (R401, R413, R414, R425) -/

theorem addCe (h : s.OnlyDram r) : s.OnlyDram (r.addCe t) := h.mem

theorem addUe (h : s.OnlyDram r) : s.OnlyDram (r.addUe t) := h.mem

theorem putWord (h : s.OnlyDram r) : s.OnlyDram (r.putWord t a n) := h.setDbytes

theorem readWord (h : s.OnlyDram r) : s.OnlyDram (r.readWord t a port b).1 := by
  unfold State.readWord
  dsimp only
  split
  · exact h
  · split
    · exact h.setEcc.ite h
    · exact h.addF
    · exact (h.addF.addCe.raiseX (by decide)).logCorr.putWord.setEcc.setInjected
    · exact ((h.addF.addUe.setReg64.setReg.raiseX (by decide)).ite
        (h.addF.addUe.setReg64.setReg.raiseX (by decide)).countUe).putWord.setEcc.setInjected

theorem injectLine (h : s.OnlyDram r) : s.OnlyDram (r.injectLine t n) := by
  unfold State.injectLine
  dsimp only
  split
  · refine State.OnlyDram.raise ?_ (by decide)
    split
    · exact h.setB.setEcc.setInjected
    · exact h.setB.setEcc.setInjected
    · exact h.setB.setEcc.setInjected
    · exact h.setB
  · exact h

theorem writeWord (h : s.OnlyDram r) : s.OnlyDram (r.writeWord t a port bs poison) := by
  unfold State.writeWord
  dsimp only
  exact (h.setDbytes.setEcc.setInjected.corrWritten).ite h.readWord.putWord.setDbytes.setEcc.setInjected.corrWritten

theorem writeRun (h : s.OnlyDram r) : s.OnlyDram (r.writeRun t port poison n a bs) := by
  induction n generalizing r a bs with
  | zero => exact h
  | succ n ih => exact h.ite (ih h.writeWord)

theorem wr (h : s.OnlyDram r) : s.OnlyDram (r.wr t a bs poison port) :=
  have merged : s.OnlyDram (r.mergeQueued t a bs poison) := h.each fun _ _ hq => hq.setMcChan.ite hq
  h.ite ((merged.writeRun.injectLine.ite merged.writeRun).ite merged.writeRun)

theorem wrAt (h : s.OnlyDram r) : s.OnlyDram (r.wrAt t a bs poison port) := h.wr.ite h

theorem pix (h : s.OnlyDram r) : r.pix = s.pix := by rw [h]

end State.OnlyDram

end Sys2Proof.Machine

/-!
# Raw correction

O38: what RAWC's commands do with rows, halos, optical-black sums, statistics and tables (R22, R39, R183 to R187, R205, R206).
-/

namespace Sys2Proof.Machine

/-! ### Writes of tables (R39, R208, R229, R251) -/

section
variable {s : State} {t off v b place : Nat}

/-- What a write to an SRAM leaves: every register but the injector's and those of events. -/
theorem sramWritten_words (s : State) (t k : Nat) : (s.sramWritten t k).WordsButEvents s [(t, SRAM_INJ)] := by
  intro u o ho he hn
  rw [sramWritten_eq]
  split
  · have other : regKey t SRAM_INJ ≠ regKey u o := regKey_ne (by decide) ho fun e => hn (by simp [e])
    exact ((word_raise (s.sramHit t k) t 248 u o (by decide) ho he).trans (word_setB_ne s (r := SRAM_INJ_ARMED) false other)).symm
  · rfl

theorem tbl_setTbl_same (s : State) (t place v : Nat) : (s.setTbl t place v).tbl t place = v % 2 ^ 32 := by
  unfold State.tbl State.setTbl
  rw [smGet_smPut_same, BitVec.toNat_ofNat]

theorem tableWrite_none (h : s.tableAt t off = none) : s.tableWrite t off v = s := by
  unfold State.tableWrite
  rw [h]

theorem tableWrite_inUse (h : s.tableAt t off = some (b, place)) (live : s.bankInUse t b = true) :
    s.tableWrite t off v = s.raise t 302 := by
  unfold State.tableWrite
  rw [h]
  exact if_pos live

theorem tableWrite_free (h : s.tableAt t off = some (b, place)) (free : s.bankInUse t b = false) :
    ∃ k, s.tableWrite t off v = ((s.setTbl t place v).setBank t b true).sramWritten t k := by
  unfold State.tableWrite
  rw [h]
  exact ⟨_, if_neg (by simp [free])⟩

/-- A write to a bank that is not in use stores the word and marks the bank written; to one in use it only raises EV_BENCH_LIVE_TABLE. -/
theorem does_tableWrite {i : Instr} (act : Does i s (· = s.tableWrite t off v)) (h : s.tableAt t off = some (b, place)) :
    (s.bankInUse t b = false → Does i s fun r =>
      r.tbl t place = v % 2 ^ 32 ∧ r.bankWritten t b = true ∧ r.WordsButEvents s [(t, SRAM_INJ)]) ∧
    (s.bankInUse t b = true → Does i s fun r => s.OnlyEvents r ∧ r.evtStat t 302 = true) := by
  refine ⟨fun free => act.mono fun r hr => ?_, fun live => act.mono fun r hr => ?_⟩
  · obtain ⟨k, stores⟩ := tableWrite_free (v := v) h free
    subst hr
    rw [stores]
    have words := sramWritten_words ((s.setTbl t place v).setBank t b true) t k
    refine ⟨?_, ?_, words⟩
    · rw [sramWritten_fields]
      exact tbl_setTbl_same s t place v
    · rw [sramWritten_fields]
      exact bankWritten_setBank_same (s.setTbl t place v) t b true
  · subst hr
    rw [tableWrite_inUse h live]
    exact ⟨raise_onlyEvents s t 302 (by decide), raise_stat s t 302 (by decide)⟩

/-- A write to an address that names no entry changes nothing, whether the command applies or not. -/
theorem does_tableWrite_none {i : Instr} {applies : Bool} (e : exec i s = s.finish (s.when applies fun s => s.tableWrite t off v))
    (h : s.tableAt t off = none) : Does i s (· = s) :=
  does_of _ e (by cases applies <;> simp [tableWrite_none h])

end

/-! ### Halos and optical-black sums received (R22, R187) -/

section
variable {s : State} {t k : Nat}

theorem does_obSumsReceive {m : ObMsg} {l : List ObMsg} (hl : s.live t 1 = true) (hk : k < 4)
    (h : smGet s.pix.obOut (tk t k) [] = m :: l) : Does (.obSumsReceive t k) s fun r =>
      r = { s with pix.obOut := r.pix.obOut, pix.raw := r.pix.raw } ∧ smGet r.pix.obOut (tk t k) [] = l ∧
      r.raw t k = { s.raw t k with obIn := (s.raw t k).obIn ++ [m] } := by
  refine does_when rfl (by simp [hl, hk]) ?_
  unfold State.obReceive
  rw [h]
  exact ⟨rfl, smGet_smPut_same .., raw_setRaw_same ..⟩

theorem does_haloReceive {point side : Nat} {h : Halo} {l : List Halo} (hl : s.live t 1 = true) (hk : k < 4) (lo : 1 ≤ point)
    (hi : point ≤ 3) (hside : side < 2) (hh : smGet s.pix.haloOut (hkey t point k side) [] = h :: l) :
    Does (.haloReceive t point k side) s fun r =>
      r = { s with pix.haloOut := r.pix.haloOut, pix.haloIn := r.pix.haloIn } ∧ smGet r.pix.haloOut (hkey t point k side) [] = l ∧
      smGet r.pix.haloIn (hkey t point k side) [] =
        ((smGet s.pix.haloIn (hkey t point k side) []).filter fun x => s.haloUsed t point k || x.cnt = h.cnt) ++ [h] := by
  refine does_when rfl (by simp [hl, hk, lo, hi, hside]) ?_
  unfold State.haloReceive
  dsimp only
  rw [hh]
  exact ⟨rfl, smGet_smPut_same .., smGet_smPut_same ..⟩

end

/-! ### Statistics on T0 (R205) -/

section
variable {s r : State} {k : Nat} {p a : RawStats} {l : List RawStats}

theorem raise_pix (s : State) (t id : Nat) (h : id < 320) : (s.raise t id).pix = s.pix := by
  rw [raise_fields s t id h]

/-- Units of recording streams change no register but those of events, and nothing of the pixel path. -/
theorem recFeed_kept (s : State) (t ty n : Nat) (u : RecUnit) :
    (s.recFeed t ty n u).pix = s.pix ∧ (s.recFeed t ty n u).WordsButEvents s [] := by
  unfold State.recFeed
  extract_lets ks
  split
  · exact ⟨rfl, fun _ _ _ _ _ => rfl⟩
  · split
    · unfold State.refuseFrame
      dsimp only
      refine ⟨raise_pix s t 300 (by decide), fun u o ho he _ => ?_⟩
      have raised := word_raise s t 300 u o (by decide) ho he
      unfold State.word at raised ⊢
      exact raised.symm
    · exact each_induct (fun r => r.pix = s.pix ∧ r.WordsButEvents s []) s ks _ ⟨rfl, fun _ _ _ _ _ => rfl⟩
        fun _ _ _ ⟨pix, words⟩ => ⟨pix, fun u o ho he hn => words u o ho he hn⟩

/-- With no frame over DIFF_THR nothing triggers the burst store. -/
theorem burDiff_none (h : s.pix.diffOver = []) : s.burDiff = s := by
  have same : ({ s with pix.diffOver := [] } : State) = s := by rw [← h]
  unfold State.burDiff
  rw [h]
  exact same

/-- The registers that show a combined record's difference measure. -/
def State.diffShown (s : State) (k : Nat) (a : RawStats) : State :=
  ((s.setReg 0 (RC_DIFF_LO k) (a.d % 2 ^ 32)).setReg 0 (RC_DIFF_HI k) (a.d / 2 ^ 32)).setB 0 (RC_FFLAGS_DIFF_VALID k) a.diffOk

theorem diffShown_reads (s : State) (k : Nat) (a : RawStats) :
    (s.diffShown k a).reg 0 (RC_DIFF_LO k) = a.d % 2 ^ 32 ∧ (s.diffShown k a).reg 0 (RC_DIFF_HI k) = a.d / 2 ^ 32 % 2 ^ 32 ∧
    (s.diffShown k a).on 0 (RC_FFLAGS_DIFF_VALID k) = a.diffOk := by
  unfold State.diffShown
  have lo : (RC_FFLAGS_DIFF_VALID k).off ≠ RC_DIFF_LO k := by simp [RC_FFLAGS_DIFF_VALID, RC_FFLAGS, RC_DIFF_LO]
  have hi : (RC_FFLAGS_DIFF_VALID k).off ≠ RC_DIFF_HI k := by simp [RC_FFLAGS_DIFF_VALID, RC_FFLAGS, RC_DIFF_HI]
  refine ⟨?_, ?_, on_setB_same _ 0 _ _ (by simp [RC_FFLAGS_DIFF_VALID]) Nat.one_pos⟩
  · rw [State.setB, reg_setF_tile_ne _ 0 _ lo, reg_setReg_tile_ne _ 0 _ (by simp [RC_DIFF_LO, RC_DIFF_HI]), reg_setReg_same, Nat.mod_mod]
  · rw [State.setB, reg_setF_tile_ne _ 0 _ hi, reg_setReg_same]

/-- The combined record of frames that may not be compared: stores to DRAM and the next slot, the registers of the difference measure,
the record's unit, the event. -/
theorem statsWrite_invalid (free : a.diffOk = false) : ∃ (q : State) (b : RawStats) (u : RecUnit),
    q.pix = s.pix ∧ b.d = a.d ∧ b.diffOk = false ∧ s.statsWrite k a = ((q.diffShown k b).recFeed 0 4 k u).raise 0 102 := by
  unfold State.statsWrite
  extract_lets n ovr hdr b stored slot lo hi valid fed raised
  have same : b.d = a.d ∧ b.diffOk = false := by
    simp only [b]
    split
    · exact ⟨rfl, free⟩
    · exact ⟨rfl, free⟩
  have writes : s.OnlyDram stored := (State.OnlyDram.refl s).mem.when fun h => h.wrAt
  have below : ∀ (c : Bool) (f : State → State), raised.when (b.diffOk && c) f = raised := fun c f => by
    rw [same.2]
    rfl
  exact ⟨slot, b, _, writes.setF.pix, same.1, same.2, below _ _⟩

/-- What T0 has of a source's frame once one tile's statistics are taken, the first of the frame. -/
def State.partialTaken (s : State) (k : Nat) (l : List RawStats) (c : List Nat × RawStats) : State :=
  { s with pix.partials := smPut s.pix.partials k l [], pix.combine := smPut s.pix.combine k c ([], {}) }

theorem partialTaken_reads (s : State) (k : Nat) (l : List RawStats) (c : List Nat × RawStats) :
    smGet (s.partialTaken k l c).pix.partials k [] = l ∧ smGet (s.partialTaken k l c).pix.combine k ([], {}) = c :=
  ⟨smGet_smPut_same .., smGet_smPut_same ..⟩

theorem statsReceive_first (h : smGet s.pix.partials k [] = p :: l) (first : smGet s.pix.combine k ([], {}) = ([], {})) :
    s.statsReceive k =
      if (s.runOf k).all fun u => [p.tile].contains u || s.stale u 4 then (s.partialTaken k l ([], {})).statsWrite k p
      else s.partialTaken k l ([p.tile], p) := by
  unfold State.statsReceive
  rw [h]
  dsimp only
  rw [first]
  rfl

theorem does_statsPartialReceive_keeps (hl : s.live 0 1 = true) (hk : k < 4) (quiet : s.pix.diffOver = [])
    (h : smGet s.pix.partials k [] = p :: l) (first : smGet s.pix.combine k ([], {}) = ([], {}))
    (more : ∃ u ∈ s.runOf k, u ≠ p.tile ∧ s.stale u 4 = false) : Does (.statsPartialReceive k) s fun r =>
      smGet r.pix.partials k [] = l ∧ smGet r.pix.combine k ([], {}) = ([p.tile], p) ∧ r.regs = s.regs := by
  refine does_when rfl (by simp [hl, hk]) ?_
  have waits : ((s.runOf k).all fun u => [p.tile].contains u || s.stale u 4) = false := by
    obtain ⟨u, run, other, fresh⟩ := more
    rw [List.all_eq_false]
    exact ⟨u, run, by simp [other, fresh]⟩
  rw [statsReceive_first h first, waits, if_neg Bool.false_ne_true, burDiff_none (s := s.partialTaken k l ([p.tile], p)) quiet]
  obtain ⟨partials, combine⟩ := partialTaken_reads s k l ([p.tile], p)
  exact ⟨partials, combine, rfl⟩

theorem does_statsPartialReceive_writes (hl : s.live 0 1 = true) (hk : k < 4) (quiet : s.pix.diffOver = [])
    (h : smGet s.pix.partials k [] = p :: l) (first : smGet s.pix.combine k ([], {}) = ([], {}))
    (last : ∀ u ∈ s.runOf k, u = p.tile ∨ s.stale u 4 = true) (free : p.diffOk = false) : Does (.statsPartialReceive k) s fun r =>
      smGet r.pix.partials k [] = l ∧ smGet r.pix.combine k ([], {}) = ([], {}) ∧ r.reg 0 (RC_DIFF_LO k) = p.d % 2 ^ 32 ∧
      r.reg 0 (RC_DIFF_HI k) = p.d / 2 ^ 32 % 2 ^ 32 ∧ r.on 0 (RC_FFLAGS_DIFF_VALID k) = false ∧ r.evtStat 0 102 = true := by
  refine does_when rfl (by simp [hl, hk]) ?_
  have all : ((s.runOf k).all fun u => [p.tile].contains u || s.stale u 4) = true := by simpa using last
  obtain ⟨q, b, u, pix, d, invalid, writes⟩ := statsWrite_invalid (s := s.partialTaken k l ([], {})) (k := k) free
  rw [statsReceive_first h first, if_pos all, writes]
  obtain ⟨fedPix, fedWords⟩ := recFeed_kept (q.diffShown k b) 0 4 k u
  have kept : (((q.diffShown k b).recFeed 0 4 k u).raise 0 102).pix = (s.partialTaken k l ([], {})).pix :=
    (raise_pix _ 0 102 (by decide)).trans (fedPix.trans pix)
  have words : ∀ o, 0x81000 ≤ o → o < 0x82000 →
      (((q.diffShown k b).recFeed 0 4 k u).raise 0 102).word 0 o = (q.diffShown k b).word 0 o := fun o lo hi => by
    have apart : eventOff o = false := by simp [eventOff]; omega
    exact (word_raise _ 0 102 0 o (by decide) (by omega) apart).trans (fedWords 0 o (by omega) apart (by simp)).symm
  have event := raise_stat ((q.diffShown k b).recFeed 0 4 k u) 0 102 (by decide)
  rw [burDiff_none (by rw [kept]; exact quiet)]
  obtain ⟨shownLo, shownHi, shownValid⟩ := diffShown_reads q k b
  refine ⟨?_, ?_, ?_, ?_, ?_, event⟩
  · rw [kept]
    exact (partialTaken_reads s k l ([], {})).1
  · rw [kept]
    exact (partialTaken_reads s k l ([], {})).2
  · rw [← d, ← shownLo]
    exact congrArg BitVec.toNat (words _ (by simp [RC_DIFF_LO]; omega) (by simp [RC_DIFF_LO]; omega))
  · rw [← d, ← shownHi]
    exact congrArg BitVec.toNat (words _ (by simp [RC_DIFF_HI]; omega) (by simp [RC_DIFF_HI]; omega))
  · rw [← invalid, ← shownValid]
    exact on_of_f (f_of_word (words _ (by simp [RC_FFLAGS_DIFF_VALID, RC_FFLAGS]; omega) (by simp [RC_FFLAGS_DIFF_VALID, RC_FFLAGS]; omega)))

end

end Sys2Proof.Machine

namespace Sys2Proof.Machine

/-! ### What RAWC hands on -/

/-- What goes on from RAWC changes the tap, X2, halos, the statistics on their way to T0 and events: other registers are as they were, and
status bits that were set stay set. -/
structure State.HandsOn (s r : State) : Prop where
  fields : r = { s with
    regs := r.regs, evt := r.evt, core.crews := r.core.crews
    pix.haloOut := r.pix.haloOut, pix.haloIn := r.pix.haloIn, pix.partials := r.pix.partials, pix.x2 := r.pix.x2, pix.tap := r.pix.tap }
  words : ∀ u off, off < 0x1000000 → eventOff off = false → r.word u off = s.word u off
  events : ∀ u id, id < 320 → s.evtStat u id = true → r.evtStat u id = true

namespace State.HandsOn

variable {s r q : State} {t k u v id : Nat} {b : Bool}

theorem refl (s : State) : s.HandsOn s := ⟨rfl, fun _ _ _ _ => rfl, fun _ _ _ h => h⟩

theorem trans (h : s.HandsOn r) (g : r.HandsOn q) : s.HandsOn q := by
  refine ⟨?_, fun u off ho he => (g.words u off ho he).trans (h.words u off ho he), fun u id hid e => g.events u id hid (h.events u id hid e)⟩
  have e := g.fields
  rw [h.fields] at e
  exact e

theorem raise (h : s.HandsOn r) (hid : id < 320) : s.HandsOn (r.raise t id) := by
  refine h.trans ⟨?_, fun u off ho he => word_raise r t id u off hid ho he, fun u k hk e => raise_stat_keep r t id u k hid hk e⟩
  rw [raise_fields r t id hid]

theorem when {f : State → State} (h : s.HandsOn r) (hf : s.HandsOn r → s.HandsOn (f r)) : s.HandsOn (r.when b f) := by
  cases b with
  | false => exact h
  | true => exact hf h

theorem whenRaise (h : s.HandsOn r) (hid : id < 320) : s.HandsOn (r.when b fun s => s.raise t id) := h.when fun h => h.raise hid

theorem ite {p : Prop} [Decidable p] (hr : s.HandsOn r) (hq : s.HandsOn q) : s.HandsOn (if p then r else q) := by
  split
  · exact hr
  · exact hq

theorem each {α : Type} {l : List α} {f : State → α → State} (h : s.HandsOn r) (hf : ∀ q a, s.HandsOn q → s.HandsOn (f q a)) :
    s.HandsOn (r.each l f) := each_induct s.HandsOn r l f h fun q a _ hq => hf q a hq

theorem seamReach (h : s.HandsOn r) : s.HandsOn (r.seamReach u v).1 := by
  unfold State.seamReach
  split
  · exact h
  · exact h.raise (by decide)

theorem tap {l : SMap (List Item)} (h : s.HandsOn r) : s.HandsOn { r with pix.tap := l } :=
  h.trans ⟨rfl, fun _ _ _ _ => rfl, fun _ _ _ e => e⟩

theorem haloOut {l : SMap (List Halo)} (h : s.HandsOn r) : s.HandsOn { r with pix.haloOut := l } :=
  h.trans ⟨rfl, fun _ _ _ _ => rfl, fun _ _ _ e => e⟩

theorem partials {l : SMap (List RawStats)} (h : s.HandsOn r) : s.HandsOn { r with pix.partials := l } :=
  h.trans ⟨rfl, fun _ _ _ _ => rfl, fun _ _ _ e => e⟩

/-- Items for the Crusher and the burst store (R202). -/
theorem tapPush {i : Item} (h : s.HandsOn r) : s.HandsOn (r.tapPush t k i) :=
  h.ite ((h.when fun h => h.tap).when fun h => h.tap)

theorem tapRow {stage y : Nat} {px : List Nat} (h : s.HandsOn r) : s.HandsOn (r.tapRow t k stage y px) := h.tapPush.ite h

/-- Items for the develop pipes. -/
theorem x2Push {i : Item} (h : s.HandsOn r) : s.HandsOn (r.x2Push t k i) :=
  h.each fun _ _ hq => hq.when fun h => h.trans ⟨rfl, fun _ _ _ _ => rfl, fun _ _ _ e => e⟩

/-- Halos for the neighbours (R22). -/
theorem sendHalos {point i src row nc : Nat} {f : FrameHdr} {y c1 c2 : List Nat} (h : s.HandsOn r) :
    s.HandsOn (r.sendHalos t point i src f row nc y c1 c2) := by
  refine h.each fun q side hq => hq.ite ?_
  have reached : s.HandsOn (q.seamReach t (q.neighbour t side)).1 := hq.seamReach
  dsimp only
  generalize q.seamReach t (q.neighbour t side) = p at reached ⊢
  obtain ⟨v, ok⟩ := p
  exact State.HandsOn.ite reached.haloOut reached

theorem dropHalos {point i cnt : Nat} (h : s.HandsOn r) : s.HandsOn (r.dropHalos t point i cnt) :=
  h.each fun _ _ hq => hq.trans ⟨rfl, fun _ _ _ _ => rfl, fun _ _ _ e => e⟩

theorem rawIn (h : s.HandsOn r) : r.pix.rawIn = s.pix.rawIn := by rw [h.fields]

theorem raw (h : s.HandsOn r) (t k : Nat) : r.raw t k = s.raw t k := by
  rw [h.fields]
  rfl

end State.HandsOn

/-! ### The clamp and the next row (R183, R186) -/

/-- A source with another clamp state. -/
def RawCtx.clamped (c : RawCtx) (v : List Nat) (ok : Nat) : RawCtx := { c with clamp := v, sValid := ok }

section
variable {s : State} {t k : Nat} {f : FrameHdr}

theorem raw_congr {r : State} (h : r.pix.raw = s.pix.raw) : r.raw t k = s.raw t k := by
  unfold State.raw
  rw [h]

theorem clampApply_none (h : (s.raw t k).frame = none) (y : Nat) : s.clampApply t k y = s := by
  unfold State.clampApply
  extract_lets c
  split
  · rfl
  · rename_i f hf
    exact absurd (hf.symm.trans h) (by simp)

/-- With the clamp off the sums of a row are not applied: the clamp state is as it was, or the one that came with row 0. -/
theorem clampApply_off (hf : (s.raw t k).frame = some f) (off : s.aOn t (RC_CFG_CLAMP_EN k) = false) (y : Nat) : ∃ (v : List Nat) (ok : Nat),
    s.clampApply t k y = s.setRaw t k ((s.raw t k).clamped v ok) := by
  unfold State.clampApply
  extract_lets c
  split
  · rename_i hn
    exact absurd (hn.symm.trans hf) (by simp)
  · dsimp only
    split
    · rename_i v ok _
      exact ⟨v, ok, if_pos (Or.inr (Or.inr (ne_true_of_eq_false off)))⟩
    · exact ⟨c.clamp, c.sValid, if_pos (Or.inr (Or.inr (ne_true_of_eq_false off)))⟩

/-- No row leaves while the rows that have come have left, or with no frame open. -/
theorem rawDrain_idle (h : (s.raw t k).frame = none ∨ (s.raw t k).next = (s.raw t k).rows) (n : Nat) : s.rawDrain t k n = s := by
  cases n with
  | zero => rfl
  | succ n =>
    unfold State.rawDrain
    extract_lets c
    split
    · rfl
    · rename_i f hf
      rcases h with shut | same
      · exact absurd (hf.symm.trans shut) (by simp)
      · exact if_neg fun h => absurd h.1 (Nat.not_lt.2 (Nat.le_of_eq same.symm))

theorem rawFinish_none (h : (s.raw t k).frame = none) : s.rawFinish t k = s := by
  unfold State.rawFinish
  rw [clampApply_none h]
  extract_lets c
  split
  · rename_i f _ hf _
    exact absurd (hf.symm.trans h) (by simp)
  · rfl

/-- A frame that has not closed at the line store stays open. -/
theorem rawFinish_open (hf : (s.raw t k).frame = some f) (open_ : (s.raw t k).closed = none) (off : s.aOn t (RC_CFG_CLAMP_EN k) = false) :
    ∃ (v : List Nat) (ok : Nat), s.rawFinish t k = s.setRaw t k ((s.raw t k).clamped v ok) := by
  obtain ⟨v, ok, clamped⟩ := clampApply_off hf off (s.raw t k).rows
  refine ⟨v, ok, ?_⟩
  unfold State.rawFinish
  rw [clamped]
  extract_lets q c
  have closed : c.closed = none := (congrArg RawCtx.closed (raw_setRaw_same s t k _)).trans open_
  split
  · rename_i _ st _ hc
    exact absurd (hc.symm.trans closed) (by simp)
  · rfl

/-- An item leaves what waits for RAWC, before it is taken. -/
def State.rowTaken (s : State) (t k : Nat) (l : List Item) : State := { s with pix.rawIn := smPut s.pix.rawIn (tk t k) l [] }

theorem rowTaken_rest (s : State) (t k : Nat) (l : List Item) : smGet (s.rowTaken t k l).pix.rawIn (tk t k) [] = l := smGet_smPut_same ..

/-! ### A row enters stage 1 (R185) -/

/-- Stage 1 without the clamp (R185). -/
theorem blackLevel_off (off : s.aOn t (RC_CFG_CLAMP_EN k) = false) (c : RawCtx) (y x v : Nat) :
    s.blackLevel t k c f y x v = (clampI 0 0xFFFFF ((v % 0x100000 : Nat) - 16 * s.rcOfs t k (cfaPhase f.cfa y x) + f.ped)).toNat +
      v / 0x100000 * 0x100000 := by
  unfold State.blackLevel
  simp only [off, Bool.false_eq_true, false_and, if_false, Int.add_zero]
  rfl

/-- A row after stage 1 without the clamp. -/
def State.stage1Row (s : State) (t k : Nat) (f : FrameHdr) (y : Nat) (px : List Nat) : List Nat :=
  (px.zip (List.range px.length)).map fun z =>
    (clampI 0 0xFFFFF ((z.1 % 0x100000 : Nat) - 16 * s.rcOfs t k (cfaPhase f.cfa y (f.x0 + z.2)) + f.ped)).toNat + z.1 / 0x100000 * 0x100000

/-- A row that RAWC takes without the clamp joins the rows at X1; its optical-black samples are not summed. -/
theorem rawTake_off (hf : (s.raw t k).frame = some f) (off : s.aOn t (RC_CFG_CLAMP_EN k) = false) (y : Nat) (px : List Nat) :
    (s.rawTake t k y px).pix.rawIn = s.pix.rawIn ∧ ((s.rawTake t k y px).raw t k).rows = y + 1 ∧
    ((s.rawTake t k y px).raw t k).next = (s.raw t k).next ∧
    ((s.rawTake t k y px).raw t k).x1 = (s.raw t k).x1 ++ [(y, s.stage1Row t k f y px)] := by
  obtain ⟨v, ok, clamped⟩ := clampApply_off hf off y
  unfold State.rawTake
  rw [hf]
  dsimp -zeta only
  rw [clamped]
  extract_lets q c w clampOn holds taken sent tapped
  have hc : c = (s.raw t k).clamped v ok := raw_setRaw_same ..
  have black : w = s.stage1Row t k f y px := List.map_congr_left fun z _ => blackLevel_off off ..
  have unsent : sent = taken := by
    have unclamped : clampOn = false := off
    simp only [sent, holds, unclamped, Bool.false_and, when_false]
  have on : taken.HandsOn (tapped.sendHalos t 1 k k f y 0 w [] []) := unsent ▸ (State.HandsOn.refl sent).tapRow.sendHalos
  rw [on.rawIn, on.raw, raw_setRaw_same, hc, black]
  exact ⟨rfl, rfl, rfl, rfl⟩

/-! ### Sections of RAWC (R37, R41) -/

/-- What the exchange of a section of RAWC leaves: registers below the active bench but RC_STAT, and of the pixel path everything but the
fault word of the defect table. -/
structure State.RawExchange (s r : State) : Prop where
  pix : r.pix = { s.pix with defBad := r.pix.defBad }
  words : ∀ u off, off < 0x88000 → off ≠ RC_STAT → r.word u off = s.word u off

namespace State.RawExchange

variable {r q : State}

theorem of_word (pix : r.pix = { s.pix with defBad := r.pix.defBad }) (words : ∀ u off, r.word u off = s.word u off) : s.RawExchange r :=
  ⟨pix, fun u off _ _ => words u off⟩

theorem refl (s : State) : s.RawExchange s := .of_word rfl fun _ _ => rfl

theorem trans (h : s.RawExchange r) (g : r.RawExchange q) : s.RawExchange q := by
  refine ⟨?_, fun u off ho hn => (g.words u off ho hn).trans (h.words u off ho hn)⟩
  have e := g.pix
  rw [h.pix] at e
  exact e

/-- A word of the active bench, or RC_STAT. -/
theorem setReg {off v : Nat} (h : s.RawExchange r) (ho : off < 0x1000000) (hoff : 0x88000 ≤ off ∨ off = RC_STAT) :
    s.RawExchange (r.setReg t off v) := by
  refine h.trans ⟨rfl, fun u o lt hn => word_setReg_ne r v (regKey_off_ne ho (by omega) ?_)⟩
  rcases hoff with hoff | rfl
  · omega
  · exact Ne.symm hn

theorem when {b : Bool} {g : State → State} (h : s.RawExchange r) (hg : s.RawExchange r → s.RawExchange (g r)) :
    s.RawExchange (r.when b g) := by
  cases b with
  | false => exact h
  | true => exact hg h

theorem bench {b : BenchSt} (h : s.RawExchange r) : s.RawExchange { r with bench := b } := h.trans (.of_word rfl fun _ _ => rfl)

theorem defBad {m : SMap Nat} (h : s.RawExchange r) : s.RawExchange { r with pix.defBad := m } := h.trans (.of_word rfl fun _ _ => rfl)

theorem moveDefTab {src : Nat} (h : s.RawExchange r) : s.RawExchange (r.moveDefTab t src) := by
  unfold State.moveDefTab
  extract_lets v src viewed bad
  have views : s.RawExchange viewed := h.bench
  split
  · refine State.RawExchange.bench (State.RawExchange.setReg ?_ (by decide) (Or.inl (by decide)))
    exact views.when fun h => h.defBad.setReg (by decide) (Or.inr rfl)
  · exact views

theorem exchangeSec {sec : Nat} (h : s.RawExchange r) : s.RawExchange (r.exchangeSec t 4 sec) := by
  unfold State.exchangeSec
  extract_lets ws old copied moved x shown
  have copies : s.RawExchange copied := each_induct s.RawExchange r ws _ h fun q w hw hq => by
    have := sectionWord_lt 4 sec hw
    exact hq.setReg (by simp [wordAt, benchBase]; omega) (Or.inl (by simp [wordAt, benchBase]))
  exact State.RawExchange.bench (State.RawExchange.bench copies.moveDefTab)

theorem beginSec {sec : Nat} (h : s.RawExchange r) : s.RawExchange (r.beginSec t 4 sec f) := by
  unfold State.beginSec
  extract_lets begun
  refine State.RawExchange.bench ?_
  simp only [begun]
  split
  · exact h.exchangeSec
  · exact h

theorem endSec {sec : Nat} (h : s.RawExchange r) : s.RawExchange (r.endSec t 4 sec) := by
  unfold State.endSec
  extract_lets idle
  have ends : s.RawExchange idle := h.bench
  split
  · exact ends.exchangeSec
  · exact ends

theorem raw (h : s.RawExchange r) (t k : Nat) : r.raw t k = s.raw t k := raw_congr (by rw [h.pix])

theorem rawIn (h : s.RawExchange r) : r.pix.rawIn = s.pix.rawIn := by rw [h.pix]

theorem evtStat (h : s.RawExchange r) {u id : Nat} (hid : id < 320) : r.evtStat u id = s.evtStat u id := by
  have := evtStat_off id hid
  exact evtStat_of_word (h.words u _ (by omega) (by simp [RC_STAT]; omega))

end State.RawExchange

/-! ### A frame opens (R44, R199) -/

/-- What a source section's exchange brings leaves what waits for RAWC. -/
theorem rawExchanged_rawIn (s : State) (t k : Nat) : (s.rawExchanged t k).pix.rawIn = s.pix.rawIn := by
  have taken : (s.takeExchange t 4 k).1.pix = s.pix := by
    unfold State.takeExchange
    split <;> rfl
  unfold State.rawExchanged
  generalize s.takeExchange t 4 k = p at taken ⊢
  obtain ⟨q, _ | old⟩ := p
  · rw [taken]
  · dsimp only
    have forgets : ∀ r : State, (r.rawForget t k).pix.rawIn = r.pix.rawIn := fun _ => rfl
    have clears : ∀ r : State, (r.setF t RC_STAT_LSC_TFAULT (clrBit (r.f t RC_STAT_LSC_TFAULT) k)).pix.rawIn = r.pix.rawIn := fun _ => rfl
    exact (when_keeps (·.pix.rawIn) _ _ _ clears).trans ((when_keeps (·.pix.rawIn) q _ _ forgets).trans (congrArg PixSt.rawIn taken))

/-- The blend weight leaves what waits for RAWC. -/
theorem frameAlpha_rawIn (s : State) (k cnt : Nat) : (s.frameAlpha k cnt).1.pix.rawIn = s.pix.rawIn := by
  unfold State.frameAlpha
  split
  · split <;> rfl
  · rfl

/-- A frame that opens at RAWC of a unit that is not stale. -/
theorem rawOpen_opens (fresh : s.stale t 4 = false) (f : FrameHdr) : (s.rawOpen t k f).pix.rawIn = s.pix.rawIn ∧
    ((s.rawOpen t k f).raw t k).rows = 0 ∧ ((s.rawOpen t k f).raw t k).next = 0 ∧ ((s.rawOpen t k f).raw t k).closed = none ∧
    ∃ g, ((s.rawOpen t k f).raw t k).frame = some g ∧ g.cnt = f.cnt ∧ g.src = f.src ∧ g.w = f.w ∧ g.h = f.h ∧ g.stripe = f.stripe := by
  unfold State.rawOpen
  rw [if_neg (ne_true_of_eq_false fresh)]
  extract_lets begun
  have begins : begun.pix.rawIn = s.pix.rawIn :=
    (rawExchanged_rawIn ..).trans (State.RawExchange.beginSec (.refl s)).rawIn
  have weighs : (if begun.aOn t (RC_CFG_LSC_EN k) then begun.frameAlpha k f.cnt else (begun, 0, false)).1.pix.rawIn = begun.pix.rawIn := by
    split
    · exact frameAlpha_rawIn ..
    · rfl
  generalize (if begun.aOn t (RC_CFG_LSC_EN k) then begun.frameAlpha k f.cnt else (begun, 0, false)) = m at weighs ⊢
  obtain ⟨v, al, fb⟩ := m
  dsimp -zeta only
  extract_lets tf raised g c opened clear tapped
  have raises : raised.pix = v.pix := when_keeps State.pix v fb _ fun r => raise_pix r t 101 (by decide)
  have on : clear.HandsOn (tapped.x2Push t k (.openF g)) := (State.HandsOn.refl clear).tapPush.x2Push
  have kept : clear.pix = opened.pix := by simp only [clear, setDiscard_pix]
  rw [on.rawIn, on.raw, raw_congr (congrArg PixSt.raw kept), raw_setRaw_same, kept, setRaw_pix_rawIn, raises]
  exact ⟨weighs.trans begins, rfl, rfl, rfl, g, rfl, rfl, rfl, rfl, rfl, rfl⟩

/-! ### A frame closes (R196, R205, R206) -/

/-- The words of a closed frame's record. -/
def State.rawRecord (s : State) (t k : Nat) (f : FrameHdr) (c : RawCtx) (flags : Nat) : State :=
  let s := s.setReg t (RC_FCNT k) f.cnt
  let s := s.setReg t (RC_LOST k) c.lost
  let s := s.setReg t (RC_CRC k) c.crc
  let s := s.setReg t (RC_POISON k) c.poison
  let s := s.setReg t (RC_STATIC k) c.stat
  let s := s.setReg t (RC_DYN k) c.dyn
  let s := s.setReg t (RC_UNREP k) c.unrep
  s.setReg t (RC_FFLAGS k) flags

/-- The events of a closed frame. -/
def State.rawEvents (s : State) (t : Nat) (c : RawCtx) : State :=
  let s := s.when (c.unrep != 0) fun s => s.raise t 96
  let s := s.when c.overrun fun s => s.raise t 97
  let s := s.when c.order fun s => s.raise t 98
  let s := s.when c.obEmpty fun s => s.raise t 100
  s.when (bit c.status stDamagedData) fun s => s.raise t 104

/-- A tile's statistics of a closed frame go to T0. -/
def State.partSent (s : State) (t k : Nat) (part : RawStats) : State :=
  if s.aOn t (RC_CFG_STAT_EN k) ∨ s.aOn t (RC_CFG_DIFF_EN k) then
    let (s, ok) := if t = 0 then (s, true) else s.seamReach t 0
    s.when ok fun s => { s with pix.partials := smPut s.pix.partials k (smGet s.pix.partials k [] ++ [part]) [] }
  else s

/-- The close goes on, and the frame's halos are dropped. -/
def State.closeSent (s : State) (t k st cnt : Nat) : State := ((s.tapPush t k (.closeF st)).x2Push t k (.closeF st)).dropHalos t 1 k cnt

/-- A frame whose rows have all left closes: its record, its events, its statistics, its close; then the section is free. -/
theorem rawFinish_closes {st : Nat} (hf : (s.raw t k).frame = some f) (hc : (s.raw t k).closed = some st)
    (left : (s.raw t k).next = (s.raw t k).rows) (off : s.aOn t (RC_CFG_CLAMP_EN k) = false) :
    ∃ (v : List Nat) (ok flags st' : Nat) (part : RawStats) (e : RawCtx), e.frame = none ∧ s.rawFinish t k =
      ((((((s.setRaw t k ((s.raw t k).clamped v ok)).rawRecord t k f (s.raw t k) flags).rawEvents t (s.raw t k)).partSent t k part).closeSent
        t k st' f.cnt).setRaw t k e).endSec t 4 k := by
  obtain ⟨v, ok, clamped⟩ := clampApply_off hf off (s.raw t k).rows
  unfold State.rawFinish
  rw [clamped]
  extract_lets q c
  have hq : c = (s.raw t k).clamped v ok := raw_setRaw_same ..
  clear_value c
  subst hq
  rw [show ((s.raw t k).clamped v ok).frame = some f from hf, show ((s.raw t k).clamped v ok).closed = some st from hc]
  dsimp -zeta only
  have all : ¬((s.raw t k).clamped v ok).next < ((s.raw t k).clamped v ok).rows := Nat.not_lt.2 (Nat.le_of_eq left.symm)
  rw [if_neg all]
  exact ⟨v, ok, _, _, _, _, rfl, rfl⟩

theorem rawRecord_reads (s : State) (t k : Nat) (f : FrameHdr) (c : RawCtx) (flags : Nat) :
    (s.rawRecord t k f c flags).reg t (RC_FCNT k) = f.cnt % 2 ^ 32 ∧ (s.rawRecord t k f c flags).reg t (RC_LOST k) = c.lost % 2 ^ 32 ∧
    (s.rawRecord t k f c flags).reg t (RC_CRC k) = c.crc % 2 ^ 32 ∧ (s.rawRecord t k f c flags).reg t (RC_POISON k) = c.poison % 2 ^ 32 ∧
    (s.rawRecord t k f c flags).reg t (RC_STATIC k) = c.stat % 2 ^ 32 ∧ (s.rawRecord t k f c flags).reg t (RC_DYN k) = c.dyn % 2 ^ 32 ∧
    (s.rawRecord t k f c flags).reg t (RC_UNREP k) = c.unrep % 2 ^ 32 := by
  unfold State.rawRecord
  refine ⟨?_, ?_, ?_, ?_, ?_, ?_, ?_⟩
  all_goals
    simp (disch := (simp only [RC_FCNT, RC_LOST, RC_CRC, RC_POISON, RC_STATIC, RC_DYN, RC_UNREP, RC_FFLAGS]; omega)) only
      [reg_setReg_same, reg_setReg_tile_ne]

theorem rawEvents_handsOn (s : State) (t : Nat) (c : RawCtx) :
    s.HandsOn (s.rawEvents t c) ∧ (c.unrep ≠ 0 → (s.rawEvents t c).evtStat t 96 = true) := by
  unfold State.rawEvents
  extract_lets unrep overrun order empty
  have rest : unrep.HandsOn (empty.when (bit c.status stDamagedData) fun s => s.raise t 104) :=
    ((((State.HandsOn.refl unrep).whenRaise (by decide)).whenRaise (by decide)).whenRaise (by decide)).whenRaise (by decide)
  refine ⟨((State.HandsOn.refl s).whenRaise (by decide)).trans rest, fun left => rest.events t 96 (by decide) ?_⟩
  have first : unrep = s.raise t 96 := by
    simp only [unrep, bne_iff_ne.2 left, when_true]
  rw [first]
  exact raise_stat s t 96 (by decide)

theorem partSent_handsOn (s : State) (t k : Nat) (part : RawStats) : s.HandsOn (s.partSent t k part) := by
  unfold State.partSent
  refine State.HandsOn.ite ?_ (.refl s)
  have reached : s.HandsOn (if t = 0 then (s, true) else s.seamReach t 0).1 := by
    split
    · exact .refl s
    · exact (State.HandsOn.refl s).seamReach
  generalize (if t = 0 then (s, true) else s.seamReach t 0) = m at reached ⊢
  obtain ⟨q, ok⟩ := m
  exact State.HandsOn.when reached fun h => h.partials

theorem closeSent_handsOn (s : State) (t k st cnt : Nat) : s.HandsOn (s.closeSent t k st cnt) :=
  (State.HandsOn.refl s).tapPush.x2Push.dropHalos

/-- What a source shows once its frame has closed: no frame open, the record, the event of unrepaired samples. -/
structure State.RawClosed (r : State) (t k : Nat) (f : FrameHdr) (c : RawCtx) : Prop where
  frame : (r.raw t k).frame = none
  record : r.reg t (RC_FCNT k) = f.cnt % 2 ^ 32 ∧ r.reg t (RC_LOST k) = c.lost % 2 ^ 32 ∧ r.reg t (RC_CRC k) = c.crc % 2 ^ 32 ∧
    r.reg t (RC_POISON k) = c.poison % 2 ^ 32 ∧ r.reg t (RC_STATIC k) = c.stat % 2 ^ 32 ∧ r.reg t (RC_DYN k) = c.dyn % 2 ^ 32 ∧
    r.reg t (RC_UNREP k) = c.unrep % 2 ^ 32
  unrepaired : c.unrep ≠ 0 → r.evtStat t 96 = true

theorem rawFinish_closed {st : Nat} (hk : k < 4) (hf : (s.raw t k).frame = some f) (hc : (s.raw t k).closed = some st)
    (left : (s.raw t k).next = (s.raw t k).rows) (off : s.aOn t (RC_CFG_CLAMP_EN k) = false) :
    (s.rawFinish t k).RawClosed t k f (s.raw t k) ∧ (s.rawFinish t k).pix.rawIn = s.pix.rawIn := by
  obtain ⟨v, ok, flags, st', part, e, shut, finishes⟩ := rawFinish_closes hf hc left off
  rw [finishes]
  generalize hr : (s.setRaw t k ((s.raw t k).clamped v ok)).rawRecord t k f (s.raw t k) flags = r
  obtain ⟨events, unrepaired⟩ := rawEvents_handsOn r t (s.raw t k)
  have after := (partSent_handsOn (r.rawEvents t (s.raw t k)) t k part).trans (closeSent_handsOn _ t k st' f.cnt)
  have sent := events.trans after
  generalize hq : ((r.rawEvents t (s.raw t k)).partSent t k part).closeSent t k st' f.cnt = q at after sent ⊢
  have frees : (q.setRaw t k e).RawExchange ((q.setRaw t k e).endSec t 4 k) := State.RawExchange.endSec (.refl _)
  have reads : ∀ o, 0x81040 ≤ o → o < 0x82000 → ((q.setRaw t k e).endSec t 4 k).reg t o = r.reg t o := fun o lo hi => by
    have quiet : eventOff o = false := by simp [eventOff]; omega
    exact congrArg BitVec.toNat ((frees.words t o (by omega) (by simp [RC_STAT]; omega)).trans (sent.words t o (by omega) quiet))
  refine ⟨⟨?_, ?_, fun bad => ?_⟩, ?_⟩
  · rw [frees.raw, raw_setRaw_same, shut]
  · have record := rawRecord_reads (s.setRaw t k ((s.raw t k).clamped v ok)) t k f (s.raw t k) flags
    rw [hr] at record
    rw [reads, reads, reads, reads, reads, reads, reads]
    · exact record
    all_goals
      simp only [RC_FCNT, RC_LOST, RC_CRC, RC_POISON, RC_STATIC, RC_DYN, RC_UNREP]
      omega
  · rw [frees.evtStat (by decide)]
    exact after.events t 96 (by decide) (unrepaired bad)
  · rw [frees.rawIn]
    refine sent.rawIn.trans ?_
    rw [← hr]
    rfl

/-! ### RAWC_ROW (R183) -/

theorem does_rawcRow_opens {l : List Item} (hl : s.live t 1 = true) (hk : k < 4) (shut : (s.raw t k).frame = none)
    (h : smGet s.pix.rawIn (tk t k) [] = .openF f :: l) (fresh : s.stale t 4 = false) : Does (.rawcRow t k) s fun r =>
      smGet r.pix.rawIn (tk t k) [] = l ∧ (r.raw t k).rows = 0 ∧ (r.raw t k).next = 0 ∧ (r.raw t k).closed = none ∧
      ∃ g, (r.raw t k).frame = some g ∧ g.cnt = f.cnt ∧ g.src = f.src ∧ g.w = f.w ∧ g.h = f.h ∧ g.stripe = f.stripe := by
  refine does_when rfl (by simp [hl, hk]) ?_
  unfold State.rawRow
  rw [rawDrain_idle (Or.inl shut), rawFinish_none shut]
  dsimp only
  rw [h]
  obtain ⟨rawIn, opened⟩ := rawOpen_opens (s := s.rowTaken t k l) (t := t) (k := k) fresh f
  exact ⟨(congrArg (fun m => smGet m (tk t k) []) rawIn).trans (rowTaken_rest s t k l), opened⟩

theorem does_rawcRow_takes {y : Nat} {px : List Nat} {held : Bool} {l : List Item} (hl : s.live t 1 = true) (hk : k < 4)
    (hf : (s.raw t k).frame = some f) (open_ : (s.raw t k).closed = none) (left : (s.raw t k).next = (s.raw t k).rows)
    (off : s.aOn t (RC_CFG_CLAMP_EN k) = false) (h : smGet s.pix.rawIn (tk t k) [] = .row y px held :: l) : Does (.rawcRow t k) s fun r =>
      smGet r.pix.rawIn (tk t k) [] = l ∧ (r.raw t k).rows = y + 1 ∧ (r.raw t k).next = (s.raw t k).next ∧
      (r.raw t k).x1 = (s.raw t k).x1 ++ [(y, s.stage1Row t k f y px)] := by
  refine does_when rfl (by simp [hl, hk]) ?_
  obtain ⟨v, ok, stays⟩ := rawFinish_open hf open_ off
  unfold State.rawRow
  rw [rawDrain_idle (Or.inr left), stays]
  dsimp only
  rw [setRaw_pix_rawIn, h]
  dsimp only
  generalize hq : (s.setRaw t k ((s.raw t k).clamped v ok)).rowTaken t k l = q
  have raw : q.raw t k = (s.raw t k).clamped v ok := by rw [← hq]; exact raw_setRaw_same ..
  have frame : (q.raw t k).frame = some f := by rw [raw]; exact hf
  have off' : q.aOn t (RC_CFG_CLAMP_EN k) = false := by rw [← hq]; exact off
  obtain ⟨rawIn, rows, next, x1⟩ := rawTake_off frame off' y px
  subst hq
  refine ⟨?_, rows, next.trans (by rw [raw]; rfl), x1.trans (by rw [raw]; rfl)⟩
  exact (congrArg (fun m => smGet m (tk t k) []) rawIn).trans (rowTaken_rest _ t k l)

theorem does_rawcRow_closes {st : Nat} (hl : s.live t 1 = true) (hk : k < 4) (hf : (s.raw t k).frame = some f)
    (hc : (s.raw t k).closed = some st) (left : (s.raw t k).next = (s.raw t k).rows) (off : s.aOn t (RC_CFG_CLAMP_EN k) = false)
    (h : smGet s.pix.rawIn (tk t k) [] = []) : Does (.rawcRow t k) s fun r => r.RawClosed t k f (s.raw t k) := by
  refine does_when rfl (by simp [hl, hk]) ?_
  obtain ⟨closed, rawIn⟩ := rawFinish_closed hk hf hc left off
  unfold State.rawRow
  rw [rawDrain_idle (Or.inr left)]
  dsimp only
  rw [rawIn, h]
  exact closed

end

end Sys2Proof.Machine

/-! ## O38 -/

namespace Sys2Proof.Machine

/-- Settles O38: each command's lemma gives its part (R22, R39, R183 to R187, R205, R206; that a stale tile's statistics are not waited
for is log 44, and that a halo nothing reads is kept for its own frame is the model's choice). -/
theorem rawcCommandsComplete : Obligations.RawcCommandsComplete := by
  unfold Obligations.RawcCommandsComplete
  refine ⟨fun t k s hl hk => ⟨?opens, ?takes, ?closes, ?sums, ?halos⟩, fun k p l s hl hk quiet h first => ⟨?keeps, ?writes⟩,
    fun t off v b place s hl aligned h => ⟨?rawc, ?dev, ?coef⟩, fun t off v s h => ⟨?rawcNone, ?devNone, ?coefNone⟩⟩
  case opens => exact fun f l shut h fresh => does_rawcRow_opens hl hk shut h fresh
  case takes => exact fun f y px held l hf open_ left off h => does_rawcRow_takes hl hk hf open_ left off h
  case closes =>
    intro f st hf hc left off h
    refine (does_rawcRow_closes hl hk hf hc left off h).mono fun r ⟨frame, record, unrepaired⟩ => ?_
    obtain ⟨fcnt, lost, crc, poison, stat, dyn, unrep⟩ := record
    exact ⟨frame, fcnt, lost, crc, poison, stat, dyn, unrep, unrepaired⟩
  case sums => exact fun m l h => does_obSumsReceive hl hk h
  case halos => exact fun point side h l lo hi hside hh => does_haloReceive hl hk lo hi hside hh
  case keeps => exact fun more => does_statsPartialReceive_keeps hl hk quiet h first more
  case writes => exact fun last free => does_statsPartialReceive_writes hl hk quiet h first last free
  case rawc => exact fun lo hi => does_tableWrite (does_when rfl (by simp [hl, lo, hi, aligned]) rfl) h
  case dev => exact fun lo hi => does_tableWrite (does_when rfl (by simp [hl, lo, hi, aligned]) rfl) h
  case coef => exact fun lo hi => does_tableWrite (does_when rfl (by simp [hl, lo, hi, aligned]) rfl) h
  case rawcNone => exact does_tableWrite_none rfl h
  case devNone => exact does_tableWrite_none rfl h
  case coefNone => exact does_tableWrite_none rfl h

end Sys2Proof.Machine
